-- ==== Sys2Proof/Word.lean ====
section
/-!
DEFINITION. Sys2Proof/Word.lean: the words the manual handles as bits, and their plainest readings.
-/
namespace Sys2Proof

/-- One byte of a memory (R3). -/
abbrev Byte := BitVec 8
/-- One 64-bit register word; every register stands on an 8-byte boundary (R27). -/
abbrev Word := BitVec 64
/-- A scalar register of an Alnen core. -/
abbrev W32 := BitVec 32
/-- A time-stamp in the 96-bit format of the timebase. -/
abbrev T96 := BitVec 96

/-- One for true, zero for false: how a flag stands in a register field. -/
def bit (b : Bool) : Nat := if b then 1 else 0

end Sys2Proof
end

