-- ==== Sys2Proof/Machine/Map.lean ====
section
/-!
DEFINITION. Sys2Proof/Machine/Map.lean: the BAR0 map of R25. Which block a slot holds, where a block's slot begins and how
large its window is.
-/
namespace Sys2Proof.Machine
open Sys2Proof

/-- A block with a register slot of its own (R25); the index is the display, channel, ring slot, lane group or slice. -/
inductive Blk where
  | global | muster | placement | timebase | tdc | trigbus | clocks | housekeeping | check | observe | auth | depot
  | display (d : Nat)
  | dram (n : Nat)
  | dma
  | dmaRings (k : Nat)
  | queue
  | chan
  | rxg (g : Nat)
  | txg (g : Nat)
  | core (s : Nat)
  | filt (s : Nat)
  | trig (s : Nat)
  | records (s : Nat)
  deriving DecidableEq, Repr

/-- The number of a block's 64 KiB slot in BAR0 (R25). -/
def Blk.slot : Blk → Nat
  | .global => 0x000 | .muster => 0x001 | .placement => 0x002 | .timebase => 0x003 | .tdc => 0x004 | .trigbus => 0x005
  | .clocks => 0x006 | .housekeeping => 0x007 | .check => 0x008 | .observe => 0x009 | .auth => 0x00A | .depot => 0x00B
  | .display d => 0x00C + d
  | .dram n => 0x010 + n
  | .dma => 0x020
  | .dmaRings k => 0x021 + k
  | .queue => 0x030
  | .chan => 0x031
  | .rxg g => 0x040 + g
  | .txg g => 0x050 + g
  | .core s => 0x080 + 4 * s
  | .filt s => 0x081 + 4 * s
  | .trig s => 0x082 + 4 * s
  | .records s => 0x083 + 4 * s

/-- The byte offset in BAR0 of a block's slot. -/
def Blk.base (b : Blk) : Nat := 0x10000 * b.slot

/-- The window of a block: 16 KiB for the blocks R25 names, 4 KiB for the others. -/
def Blk.window : Blk → Nat
  | .placement | .check | .observe | .dmaRings _ | .queue | .rxg _ | .txg _ | .core _ | .filt _ | .trig _ => 0x4000
  | .global | .muster | .timebase | .tdc | .trigbus | .clocks | .housekeeping | .auth | .depot | .display _ | .dram _
  | .dma | .chan | .records _ => 0x1000

/-- The block of slot number `n`, or none for a slot outside the map (R25, R26). -/
def slotBlk (n : Nat) : Option Blk :=
  if n = 0x000 then some .global else if n = 0x001 then some .muster else if n = 0x002 then some .placement
  else if n = 0x003 then some .timebase else if n = 0x004 then some .tdc else if n = 0x005 then some .trigbus
  else if n = 0x006 then some .clocks else if n = 0x007 then some .housekeeping else if n = 0x008 then some .check
  else if n = 0x009 then some .observe else if n = 0x00A then some .auth else if n = 0x00B then some .depot
  else if n = 0x00C ∨ n = 0x00D then some (.display (n - 0x00C))
  else if 0x010 ≤ n ∧ n < 0x018 then some (.dram (n - 0x010))
  else if n = 0x020 then some .dma
  else if 0x021 ≤ n ∧ n < 0x025 then some (.dmaRings (n - 0x021))
  else if n = 0x030 then some .queue else if n = 0x031 then some .chan
  else if 0x040 ≤ n ∧ n < 0x050 then some (.rxg (n - 0x040))
  else if 0x050 ≤ n ∧ n < 0x060 then some (.txg (n - 0x050))
  else if 0x080 ≤ n ∧ n < 0x0C4 then
    let s := (n - 0x080) / 4
    match (n - 0x080) % 4 with
    | 0 => some (.core s)
    | 1 => some (.filt s)
    | 2 => some (.trig s)
    | _ => some (.records s)
  else none

/-- Block and offset inside the window for a BAR0 byte offset; an offset above the window is aliased onto it (R26). -/
def decodeBar0 (a : Nat) : Option (Blk × Nat) :=
  (slotBlk (a / 0x10000)).map (fun b => (b, a % 0x10000 % b.window))

/-- The block type code of the header (R32, each block's chapter). -/
def Blk.typeCode : Blk → Nat
  | .global => 0x0010 | .clocks => 0x0011 | .placement => 0x0012 | .timebase => 0x0013 | .tdc => 0x0014
  | .trigbus => 0x0015 | .depot => 0x0016 | .check => 0x0017 | .display _ => 0x0018 | .housekeeping => 0x0019
  | .auth => 0x001A | .muster => 0x001B | .observe => 0x001C | .dma => 0x0020 | .dmaRings _ => 0x0021
  | .rxg _ => 0x0031 | .txg _ => 0x0032 | .queue => 0x0040 | .chan => 0x0041 | .dram _ => 0x0050
  | .core _ => 0x0060 | .filt _ => 0x0061 | .trig _ => 0x0062 | .records _ => 0x0063

/-- The instance index of the header (R32). -/
def Blk.index : Blk → Nat
  | .display i | .dram i | .dmaRings i | .rxg i | .txg i | .core i | .filt i | .trig i | .records i => i
  | .global | .muster | .placement | .timebase | .tdc | .trigbus | .clocks | .housekeeping | .check | .observe | .auth
  | .depot | .dma | .queue | .chan => 0

/-- Blocks without an enable: BLOCK_CTRL is reserved and BLOCK_STATUS.enabled reads 1 (R32). -/
def Blk.alwaysOn : Blk → Bool
  | .global | .muster | .observe | .auth | .chan => true
  | .placement | .timebase | .tdc | .trigbus | .clocks | .housekeeping | .check | .depot | .display _ | .dram _ | .dma
  | .dmaRings _ | .queue | .rxg _ | .txg _ | .core _ | .filt _ | .trig _ | .records _ => false

/-- Every block of the device, in slot order. -/
def Blk.all : List Blk :=
  [.global, .muster, .placement, .timebase, .tdc, .trigbus, .clocks, .housekeeping, .check, .observe, .auth, .depot,
   .display 0, .display 1] ++ (List.range 8).map .dram ++ [.dma] ++ (List.range 4).map .dmaRings ++ [.queue, .chan]
  ++ (List.range 16).map .rxg ++ (List.range 16).map .txg
  ++ (List.range 17).flatMap (fun s => [.core s, .filt s, .trig s, .records s])

/-- A register field: the byte offset of its 8-byte word in the slot, its lowest bit and its width. -/
structure Fld where
  off : Nat
  lo : Nat
  width : Nat
  deriving DecidableEq, Repr

/-- The value a field has in a word. -/
def Fld.get (f : Fld) (w : Word) : Nat := (w >>> f.lo).toNat % 2 ^ f.width

/-- The word with a field replaced by the low bits of `v`. -/
def Fld.put (f : Fld) (w : Word) (v : Nat) : Word :=
  (w &&& ~~~(BitVec.ofNat 64 (2 ^ f.width - 1) <<< f.lo)) ||| (BitVec.ofNat 64 (v % 2 ^ f.width) <<< f.lo)

/-- The largest value a field holds. -/
def Fld.top (f : Fld) : Nat := 2 ^ f.width - 1

/-- What a software write does to the bits of one register word, by access type (R5): `live` bits (LIVE and CNT) take the
written value, `cfg` bits take it while the block is disabled, `w1c` bits clear on 1, `w1s` bits set on 1; all other bits
are RO or reserved. -/
structure WordAcc where
  live : Nat
  cfg : Nat
  w1c : Nat
  w1s : Nat
  deriving DecidableEq, Repr

/-- One register of a block, or an array of `n` of them `stride` bytes apart; one `WordAcc` per 8-byte word of its value,
which is `bytes` wide (a multiple of 4). `snap` is the offset of the first snapshot copy (0 for none) and `snapStride` the
distance from one copy to the next. -/
structure RegRow where
  off : Nat
  n : Nat
  stride : Nat
  words : List WordAcc
  bytes : Nat
  snap : Nat
  snapStride : Nat
  deriving DecidableEq, Repr

end Sys2Proof.Machine
end

