-- ==== Sys2Proof/Machine/OpTypes.lean ====
section
/-!
DEFINITION. Sys2Proof/Machine/OpTypes.lean: the types of the commands' operands. What the world outside the block decides
(a received row, an edge's place, the outcome of a training sweep) reaches it as an operand of a command.
-/
namespace Sys2Proof.Machine
open Sys2Proof

/-- The ports that issue register accesses (R28). -/
inductive Port where
  | host
  | alnen (s : Fin 17)
  | mgmt
  deriving DecidableEq, Repr

/-- The fixed requester index of a port (R28). -/
def Port.index : Port → Nat
  | .host => 0
  | .alnen s => 1 + s.val
  | .mgmt => 18

/-- The code of a port in LAST_IGNORED (R32). -/
def Port.code : Port → Nat
  | .host => 0
  | .alnen _ => 1
  | .mgmt => 2

/-- What can wedge: a block with a slot, or one of the shared units without a slot of their own that DEVICE_STATE names. -/
inductive DevUnit where
  | blk (b : Blk)
  | sampleCrossbar
  | outputCrossbar
  | endpoint
  deriving DecidableEq, Repr

/-- A ferry with a register of its own (R19, R46). -/
inductive FerryId where
  | rxg (g : Fin 16)
  | txg (g : Fin 16)
  | dramWr (c : Fin 8)
  | dramRd (c : Fin 8)
  | hostIn
  | hostOut
  | regReq
  | regRsp
  | mgmtUp
  | mgmtDown
  | time
  | tbusOut
  | tbusIn
  | layer (d : Fin 2) (n : Fin 4)
  deriving DecidableEq, Repr

/-- An edge on a GPIO pin (R392). -/
structure GpioEdge where
  pin : Fin 16
  falling : Bool
  deriving DecidableEq, Repr

/-- A PCI Express configuration request the host sends (R389, R348). -/
inductive CfgOp where
  | read (dword : Nat)
  | setCommand (memSpace busMaster : Bool)
  | setMsix (enable functionMask : Bool)
  | setBar4 (log2 : Nat)
  | linkUp (speed width : Nat)
  deriving DecidableEq, Repr

/-- The passing steps of the four sweeps of one DRAM byte lane (R339); bit i set = step i passed. -/
structure LaneSweep where
  rdDqs : BitVec 256
  rdVref : BitVec 256
  wrDq : BitVec 256
  wrVref : BitVec 256
  deriving DecidableEq, Repr

/-- What the training of one DRAM channel found: ten lanes, and the sensor readings the set is tagged with (R303, R339). -/
structure TrainResult where
  lanes : List LaneSweep
  temp : BitVec 16
  vdd : BitVec 16
  deriving DecidableEq, Repr

/-- How an AUX transaction of a display ends (R371). -/
inductive AuxResult where
  | ack
  | nack
  | timeout
  deriving DecidableEq, Repr

/-- What gathering one slice timing set found: twelve sweeps of 128 taps, and the readings for its tag (R301, R303). -/
structure GatherResult where
  sweeps : List (BitVec 128)
  temp : BitVec 16
  vdd : BitVec 16
  deriving DecidableEq, Repr

/-- The pins whose edges the TDC takes (TDC_CFG); EPOCH_OUT edges come from the schedule. -/
inductive TdcPin where
  | start
  | stop
  | trigIn (j : Fin 4)
  | pps
  deriving DecidableEq, Repr

/-- An on-chip memory of R315. -/
inductive SramId where
  | depot
  | lmem (s : Fin 17)
  | imem (s : Fin 17)
  deriving DecidableEq, Repr

/-- What the error-correcting code finds on a read (R318, R334). -/
inductive EccKind where
  | clean
  | corrected
  | uncorrectable
  deriving DecidableEq, Repr

/-- How the requests of a descriptor end: all accepted, or a target error after `good` bytes with its cause (R354, R357). -/
inductive ReqResult where
  | ok
  | fail (cause : Fin 6) (good : Nat)
  deriving DecidableEq, Repr

/-- A ring's fetch of a descriptor, and how its read ended (R352, R357). -/
structure RingFetch where
  ring : Fin 256
  result : ReqResult
  deriving DecidableEq, Repr

/-- A lane that has seen its valid headers, and the last 58 payload bits of its line, which its descrambler holds (R50). -/
structure LaneLine where
  lane : Fin 16
  line : BitVec 58
  deriving DecidableEq, Repr

/-- Who waits for a flush read or writes a waybill: a descriptor ring or a record queue (R349, R363). -/
inductive WaybillOwner where
  | ring (r : Fin 256)
  | queue (q : Nat)
  deriving DecidableEq, Repr

/-- What a request for a queue meets (R196, R197, R318, R368). Its context is read with a single-bit error, or with an uncorrectable one;
otherwise it is clean, and the absent announcement that a grant writes first is published, or the check unit's two engines differ, or its
write to the target fails. -/
inductive AnnResult where
  | ok
  | mismatch
  | writeFail
  | ctxCorrected
  | ctxBad
  deriving DecidableEq, Repr

/-- How a check unit's work on a record ends (R178, R318, R368): sealed; the unit's two engines differ; the staged bytes hold an
uncorrectable error. -/
inductive SealResult where
  | ok
  | mismatch
  | staged
  deriving DecidableEq, Repr

/-- One syllable as an Alnen core issues it (R229, R250): destination and source fields, the 11-bit modifier or immediate,
and whether it is the last syllable of its bundle. The opcode is the command itself. `res`: the residue of what it computes in slot 1 or 2 will not
match (R228). -/
structure Syl where
  d : BitVec 5
  a : BitVec 5
  b : BitVec 5
  m : BitVec 11
  last : Bool
  res : Bool
  deriving DecidableEq, Repr

/-- How a command that a register write or a unit instruction can give is given: by a write to the register of a slice, or
by the unit syllable of the slice's own core (R242). -/
inductive Via where
  | write
  | unit (y : Syl)
  deriving DecidableEq, Repr

/-- The class a block's 2-bit header gives it (R49). -/
inductive Hdr where
  | data
  | control
  | invalid
  deriving DecidableEq, Repr

/-- What the residue checkers and codes find while a frame is formed (R107, R121, R158, R180): a residue mismatch in the transform, an
uncorrectable error in the window store in use, one in the frame and bin buffers, a mismatch in the sums of the trigger unit, one in the
accumulator of a reduction (0 to 4) or a density plane (5 to 8). -/
structure FrameFault where
  residue : Bool
  store : Bool
  buffer : Bool
  sums : Bool
  acc : Option (Fin 9)
  deriving DecidableEq, Repr

/-- What the residue checkers find while a frame is synthesised (R121, R222): nothing; a mismatch in the inverse transform; one in the
modification, the overlap-add or its accumulator. -/
inductive SynthFault where
  | none
  | transform
  | path
  deriving DecidableEq, Repr

/-- A residue mismatch, or an uncorrectable error, while samples are delivered (R100, R158, R201): the slice, the unit (0 the filter
chain, 1 a coefficient store, 2 the envelope of the trigger unit, 3 the channeliser, 4 its branch history or prototype), and the input index
at which it is met. -/
structure ResFault where
  slice : Fin 17
  unit : Fin 5
  idx : Nat
  deriving DecidableEq, Repr

/-- One 66-bit block of a lane after descrambling and deskew: its header and its 64 payload bits (R49, R50). -/
structure LBlock where
  hdr : Hdr
  payload : BitVec 64
  deriving DecidableEq, Repr

/-- The block one lane receives in an ALIGN row: its 66 line bits, the first received lowest, and how many block times after the earliest lane
it came (R49, R56, R65). -/
structure AlignRx where
  bits : BitVec 66
  late : Nat
  deriving DecidableEq, Repr

end Sys2Proof.Machine
end

