-- ==== Sys2Proof/Syntax.lean ====
section
/-!
DEFINITION. Sys2Proof/Syntax.lean: the commands of the block, one constructor per row of spec/opcode_table.json.
-/
namespace Sys2Proof
open Sys2Proof.Machine

/-- The commands the HJ-5120 takes: register accesses, and the operations and events of its table. -/
inductive Instr where
  /-- POWER_ON (R15): VDD_CORE and VDD_IO become valid with RESET_N high, and the device goes from OFF to BOOT. -/
  | powerOn (straps : BitVec 4)
  /-- SUPPLY_LOSS (R428): VDD_CORE or VDD_IO stays below its threshold for 1 µs, and the device enters OFF. -/
  | supplyLoss
  /-- RESET_N (R385): RESET_N held low for 10 XO_IN cycles causes a full device reset; the straps are sampled when it rises. -/
  | resetN
  /-- BOOT_IMAGE_VERIFIED (R388): Check unit 62 completes verification of a boot image; on failure the other image is tried. -/
  | bootImageVerified (a : List Byte) (b : List Byte) (sectionsOk : Bool)
  /-- BOOT_COMPLETE (R389): The SRAM is cleared, the PLLs are locked, DRAM is trained and the microcode is loaded, and the device enters READY. -/
  | bootComplete (failed : List (SramId × Nat)) (trained : List TrainResult) (sets : List GatherResult)
  /-- BOOT_TIMEOUT (R390): No valid image is found, or a needed PLL does not lock within 100 ms, and the device stays in BOOT with BOOT_STATUS.fail set. -/
  | bootTimeout (pll : Bool)
  /-- RUN (R15): DEVICE_CTRL.run requests the transition from READY to RUN. -/
  | run
  /-- STOP (R15): DEVICE_CTRL.stop requests RUN to READY, which takes effect once all slices have quiesced. -/
  | stop
  /-- DEVICE_STOPPED (R15): All slices have acknowledged their quiesce after a stop request, and the device enters READY. -/
  | deviceStopped
  /-- STANDBY (R392): DEVICE_CTRL.standby puts DRAM into self-refresh, stops the loops and power-gates the blocks that are not kept. -/
  | standby
  /-- WAKE (R392): DEVICE_CTRL.wake, or an enabled GPIO edge, starts the wake sequence out of STANDBY. -/
  | wake (gpio : Option GpioEdge)
  /-- WAKE_COMPLETE (R392): The wake sequence ends and the device enters READY. -/
  | wakeComplete (tracked : List (List Int × List Int)) (sets : List GatherResult)
  /-- FULL_RESET (R45): DEVICE_CTRL.full_reset written together with key 0xA5 performs a full device reset; without the key the command is rejected. -/
  | fullReset (key : BitVec 8)
  /-- REGISTER_WRITE (R5): A write to a register that has no row of its own takes effect by access type; CFG writes while enabled are ignored and locked writes are refused. -/
  | registerWrite (port : Port) (addr : Nat) (width : Nat) (data : BitVec 64)
  /-- LATCHING_READ (R30): A read of the lowest word of a wide value latches the value's higher words for the reading port. -/
  | latchingRead (port : Port) (addr : Nat) (width : Nat)
  /-- ENABLE (R32): Writing BLOCK_CTRL.enable = 1 enables the block, subject to the block's own refusal checks. -/
  | enable (b : Blk)
  /-- QUIESCE (R22): Writing BLOCK_CTRL.enable = 0, or a request from the placement engine, asks the block to finish its caravan, drain its ferries and acknowledge. -/
  | quiesce (b : Blk)
  /-- QUIESCE_ACK (R22): A quiescing block has finished and drained, acknowledges, and becomes disabled. -/
  | quiesceAck (b : Blk)
  /-- WEDGED (R23): A block has not acknowledged a quiesce within 100 µs of running clock; it is marked wedged, isolated, and the fatal vector is raised. -/
  | wedged (u : DevUnit)
  /-- LOSS_OF_LOCK (R17): A PLL loses lock and its output is gated, with the effects of R17 for that loop; for PLL_CORE this is entry into HOLD. -/
  | lossOfLock (p : Fin 10)
  /-- LOCK_DECLARED (R379): A PLL's counts agree for 8 windows, lock is declared and its output ungated; for PLL_CORE the device leaves HOLD. -/
  | lockDeclared (p : Fin 10)
  /-- MUSTER_FIRE (R39): MUSTER_CTRL.fire requests a muster, which is declined if the unit is unarmed or busy. -/
  | musterFire
  /-- MUSTER_IN_EDGE (R39): An edge on MUSTER_IN of the configured polarity requests a muster. -/
  | musterInEdge (falling : Bool)
  /-- SCHED_ARM (R39): MUSTER_CTRL.sched_arm arms the scheduled muster. -/
  | schedArm
  /-- SCHEDULED_MUSTER (R39): The TIME tick reaches MUSTER_SCHED_T96 and the scheduled muster is requested. -/
  | scheduledMuster
  /-- MUSTER (R43): At t0 the strobe is issued, busy is set, MUSTER_SEQ advances, and every running block captures its snapshot registers. -/
  | muster
  /-- BUSY_CLEAR (R43): 64 ticks after t0 busy clears, and armed returns to 1 if auto_rearm is set or a rearm is waiting. -/
  | busyClear
  /-- REARM (R43): MUSTER_CTRL.rearm returns armed to 1, deferred until busy clears. -/
  | rearm
  /-- MUSTER_OUT_END (R44): The 8-tick MUSTER_OUT pulse ends. -/
  | musterOutEnd
  /-- CK_WINDOW (R63): A 65,536-cycle window of CK/64 against XO_IN ends, and CK is judged present or lost. -/
  | ckWindow (g : Fin 16) (count : Nat)
  /-- CK_LOSS (R63): CK shows no transition for 1 µs; every lane goes to HUNT and every running sub-stream to RESYNC. -/
  | ckLoss (g : Fin 16)
  /-- BLOCK_LOCK (R64): A hunting lane sees 128 consecutive valid headers and enters LOCKED. -/
  | blockLock (g : Fin 16) (n : LaneLine)
  /-- BLOCK_LOCK_LOSS (R64): A 256-block window holds 24 or more invalid headers and the lane returns to HUNT. -/
  | blockLockLoss (g : Fin 16) (n : Fin 16)
  /-- ALIGN_LOSS (R64): Four ALIGN periods pass without a valid ALIGN at the expected position and the lane goes to LOCKED. -/
  | alignLoss (g : Fin 16) (n : Fin 16)
  /-- ALIGN (R65): An ALIGN row is received; lanes are matched and deskewed, the active set is taken, and late or mismatched lanes are handled. -/
  | rxAlign (g : Fin 16) (lanes : List (Option AlignRx))
  /-- DATA_ROW (R66): A data row is classified, unpacked into samples with lost marks, and released to ingest[g] or discarded if the ferry is full. -/
  | dataRow (g : Fin 16) (lanes : List (BitVec 66))
  /-- STATUS (R67): A STATUS block is received: counts are compared, slips are handled, format is checked, and start or stop is applied. -/
  | rxStatus (g : Fin 16) (k : Fin 5) (body : BitVec 48)
  /-- STATUS_TIMEOUT (R66): Two ALIGN periods pass without a valid STATUS and the sub-stream enters RESYNC. -/
  | statusTimeout (g : Fin 16) (k : Fin 5)
  /-- EPOCH (R58): An EPOCH block is received, its index is extended and passed to the timebase for pairing. -/
  | rxEpoch (g : Fin 16) (k : Fin 5) (body : BitVec 48)
  /-- OVR (R59): An OVR block is received and flags its span of samples as overranged, counting late_ovr if it is late. -/
  | rxOvr (g : Fin 16) (k : Fin 5) (body : BitVec 48)
  /-- RETIRE (R69): A RETIRE notice is received announcing that a lane leaves the active set at eff_seq. -/
  | lcRetire (g : Fin 16) (lane : BitVec 4) (eff : BitVec 16) (arg : BitVec 8) (tag : BitVec 8)
  /-- RESTORE (R69): A RESTORE notice is received announcing that a lane joins the active set at eff_seq. -/
  | lcRestore (g : Fin 16) (lane : BitVec 4) (eff : BitVec 16) (arg : BitVec 8) (tag : BitVec 8)
  /-- RETIRE_REQ (R71): A RETIRE_REQ for TXG[g] is received on RXG[g] and answered with RETIRE, or with NAK under R70. -/
  | lcRetireReq (g : Fin 16) (lane : BitVec 4) (eff : BitVec 16) (arg : BitVec 8) (tag : BitVec 8)
  /-- RESTORE_REQ (R71): A RESTORE_REQ is received and answered with RESTORE or NAK. -/
  | lcRestoreReq (g : Fin 16) (lane : BitVec 4) (eff : BitVec 16) (arg : BitVec 8) (tag : BitVec 8)
  /-- PRESET (R71): A PRESET request is received; the preset is applied at eff_seq and ACK is sent. -/
  | lcPreset (g : Fin 16) (lane : BitVec 4) (eff : BitVec 16) (arg : BitVec 8) (tag : BitVec 8)
  /-- TRAIN_START (R71): A TRAIN_START request is received; the retired lane carries PRBS31 from eff_seq and ACK is sent. -/
  | lcTrainStart (g : Fin 16) (lane : BitVec 4) (eff : BitVec 16) (arg : BitVec 8) (tag : BitVec 8)
  /-- TRAIN_END (R71): A TRAIN_END request is received; the lane returns to block framing and ACK is sent. -/
  | lcTrainEnd (g : Fin 16) (lane : BitVec 4) (eff : BitVec 16) (arg : BitVec 8) (tag : BitVec 8)
  /-- ACK (R60): An ACK answer is received and the pending TXG_LINKCMD send completes as accepted. -/
  | lcAck (g : Fin 16) (lane : BitVec 4) (eff : BitVec 16) (arg : BitVec 8) (tag : BitVec 8)
  /-- NAK (R60): A NAK answer is received and the pending TXG_LINKCMD send completes with status NAK. -/
  | lcNak (g : Fin 16) (lane : BitVec 4) (eff : BitVec 16) (arg : BitVec 8) (tag : BitVec 8)
  /-- LINKCMD_UNKNOWN (R60): A LINKCMD with code 0 or 10 to 15 is received and answered with NAK, reason 1. -/
  | linkcmdUnknown (g : Fin 16) (cmd : BitVec 4) (lane : BitVec 4) (eff : BitVec 16) (arg : BitVec 8) (tag : BitVec 8)
  /-- TX_RETIRE_REQ (R60): TXG_LINKCMD send with cmd = 3 asks the far transmitter to retire a lane. -/
  | txRetireReq (g : Fin 16) (lane : BitVec 4) (arg : BitVec 8) (tag : BitVec 8)
  /-- TX_RESTORE_REQ (R60): TXG_LINKCMD send with cmd = 4 asks the far transmitter to restore a lane. -/
  | txRestoreReq (g : Fin 16) (lane : BitVec 4) (arg : BitVec 8) (tag : BitVec 8)
  /-- TX_PRESET (R60): TXG_LINKCMD send with cmd = 5 asks for a transmit preset. -/
  | txPreset (g : Fin 16) (lane : BitVec 4) (arg : BitVec 8) (tag : BitVec 8)
  /-- TX_TRAIN_START (R60): TXG_LINKCMD send with cmd = 6 asks that a retired lane carry PRBS31. -/
  | txTrainStart (g : Fin 16) (lane : BitVec 4) (arg : BitVec 8) (tag : BitVec 8)
  /-- TX_TRAIN_END (R60): TXG_LINKCMD send with cmd = 7 asks that a lane return to block framing. -/
  | txTrainEnd (g : Fin 16) (lane : BitVec 4) (arg : BitVec 8) (tag : BitVec 8)
  /-- LINKCMD_TIMEOUT (R71): No answer arrives within 4 ALIGN periods and the send reports a time-out. -/
  | linkcmdTimeout (g : Fin 16)
  /-- LANE_RETIRE (R69): TXG_LANE.retire announces retirement of a lane with eff_seq = current + 4, or is refused under R70. -/
  | laneRetire (g : Fin 16) (n : Fin 16)
  /-- LANE_RESTORE (R69): TXG_LANE.restore announces restoration of a lane with eff_seq = current + 4. -/
  | laneRestore (g : Fin 16) (n : Fin 16)
  /-- TX_ALIGN_ROW (R56): Every 16,384 block times the TXG sends an ALIGN row, applying mask changes at eff_seq and staged presets. -/
  | txAlignRow (g : Fin 16)
  /-- TX_DATA_ROW (R77): The TXG packs samples from emit[g] into a data row, sending STATUS start when a sub-stream's first samples arrive. -/
  | txDataRow (g : Fin 16) (k : Fin 5)
  /-- FILL_ROW (R77): The TXG sends a fill row because emit[g] is empty, counted in TXG_UNDERRUN. -/
  | fillRow (g : Fin 16) (k : Fin 5)
  /-- FOM_SCAN (R72): A full eye scan of 2^28 bits completes, fom is updated, and auto-retire may send RETIRE_REQ. -/
  | fomScan (g : Fin 16) (n : Fin 16) (openPoints : Nat) (ctle : BitVec 5) (dfe : BitVec 40)
  /-- PRBS_SYNC (R74): The PRBS checker sees 64 error-free bits and declares sync. -/
  | prbsSync (g : Fin 16) (n : Fin 16)
  /-- PRBS_SYNC_LOSS (R74): 16 or more errors within 128 bits make the checker lose sync, re-seed and count. -/
  | prbsSyncLoss (g : Fin 16) (n : Fin 16) (bits : Nat) (errors : Nat)
  /-- INJECT (R75): TXG_PRBS.inject inverts one bit, or burst_len bits, of the transmitted line. -/
  | inject (g : Fin 16) (n : Fin 16)
  /-- HWM_CLEAR (R19): The hwm_clear bit of a ferry register clears its high-water mark. -/
  | hwmClear (ferry : FerryId)
  /-- SAMPLE_DELIVERY (R81): The crossbar delivers input samples to a slice, which computes chain outputs, TD conditions and channel samples, with settling, gaps and overrange. -/
  | sampleDelivery (g : Fin 16) (res : List ResFault)
  /-- NEW_RUN (R436): A restart of the stream's run reaches the slice; the history is discarded, indices restart, and open intervals and captures are closed. -/
  | newRun (i : Fin 17)
  /-- CARAVAN_BOUNDARY (R95): A caravan boundary is reached, at which pending retunes, switches, window selections, trigger and selection commits and arm transitions apply. -/
  | caravanBoundary (i : Fin 17)
  /-- RETUNE (R88): U.FILT RETUNE writes the staged NCO word and phase and commits a retune. -/
  | retune (c : Fin 17) (y : Syl)
  /-- SWITCH (R92): U.FILT SWITCH writes FIR_BANK_STAGE and commits a bank switch. -/
  | switch (c : Fin 17) (y : Syl)
  /-- FILT_QUERY (R94): U.FILT QUERY returns FILT_STATUS[31:0] in the destination register. -/
  | filtQuery (c : Fin 17) (y : Syl)
  /-- COMMIT_RETUNE (R94): FILT_COMMIT.retune marks a retune pending for the next caravan boundary. -/
  | commitRetune (i : Fin 17)
  /-- COMMIT_SWITCH (R93): FILT_COMMIT.switch marks a bank switch pending, deferred behind fades and loads. -/
  | commitSwitch (i : Fin 17)
  /-- FADE_END (R92): The M outputs of a fade are done and only the new bank is used. -/
  | fadeEnd (i : Fin 17)
  /-- BANK_LOAD (R91): FIR_BANK.load starts copying coefficients into a bank, or is refused if the bank is active or fading. -/
  | bankLoad (i : Fin 17) (b : Fin 4) (value : BitVec 64)
  /-- BANK_LOAD_DONE (R91): A coefficient bank load completes and loaded becomes 1. -/
  | bankLoadDone (i : Fin 17) (b : Fin 4)
  /-- FRAME_FORMED (R104): A frame whose N outputs were all delivered is windowed, transformed and delivered as bins and power words to the trigger, reduction, density and relay paths. -/
  | frameFormed (i : Fin 17) (flt : FrameFault)
  /-- FFT_SELECT (R110): U.FFT SELECT writes WIN_STAGE and commits a window switch. -/
  | fftSelect (c : Fin 17) (y : Syl)
  /-- COMMIT_WINDOW (R110): XF_COMMIT.window commits the staged window selection. -/
  | commitWindow (i : Fin 17)
  /-- FFT_OFFSET (R114): U.FFT OFFSET writes pwr_offset, applied at the next caravan boundary. -/
  | fftOffset (c : Fin 17) (y : Syl)
  /-- WINDOW_LOAD (R109): WIN_STORE.load or U.FFT LOAD starts generating or copying a window store, or is refused. -/
  | windowLoad (i : Fin 17) (b : Fin 2) (via : Via)
  /-- WINDOW_LOAD_DONE (R109): A window store load ends, WIN_INFO is computed and loaded is set. -/
  | windowLoadDone (i : Fin 17) (b : Fin 2)
  /-- FFT_QUERY (R122): U.FFT QUERY returns XF_STATUS[31:0]. -/
  | fftQuery (c : Fin 17) (y : Syl)
  /-- TRIG_IN_EDGE (R133): An edge on TRIG_IN[j] is interpolated and becomes an IN event, or is merged with an edge less than 10 ns earlier. -/
  | trigInEdge (j : Fin 4) (falling : Bool) (tap : Fin 512)
  /-- COMBINER_EVALUATION (R136): Once all referenced aligned conditions have reported, the combiner evaluates an index and decides whether there is a candidate trigger. -/
  | combinerEvaluation (i : Fin 17)
  /-- POST_END (R139): post_len units after the trigger have been handed to the record engine and the unit enters HOLDOFF. -/
  | postEnd (i : Fin 17)
  /-- ARM (R139): TRIG_CTRL.arm or U.TRIG ARM moves DISARMED to ARM_PENDING. -/
  | arm (c : Fin 17) (via : Via)
  /-- DISARM (R139): TRIG_CTRL.disarm or U.TRIG DISARM disarms at the next boundary, or once POST has ended. -/
  | disarm (c : Fin 17) (via : Via)
  /-- FORCE (R135): TRIG_CTRL.force or U.TRIG FORCE produces a SOFT event. -/
  | force (c : Fin 17) (via : Via)
  /-- TRIG_STAGE (R144): U.TRIG STAGE writes a selected trigger staging register. -/
  | trigStage (c : Fin 17) (y : Syl)
  /-- TRIG_COMMIT (R144): TRIG_CTRL.commit or U.TRIG COMMIT makes all trigger staging take effect at the next caravan boundary. -/
  | trigCommit (c : Fin 17) (via : Via)
  /-- TRIG_QUERY (R144): U.TRIG QUERY returns TRIG_STATUS[31:0]. -/
  | trigQuery (c : Fin 17) (y : Syl)
  /-- TIMER_ARM (R135): TRIG_CTRL.timer_arm arms the TIMER condition at TIMER_T96. -/
  | timerArm (i : Fin 17)
  /-- TIMER_FIRE (R135): The time reaches TIMER_T96 and the TIMER event fires, with LATE if it was already past. -/
  | timerFire (i : Fin 17)
  /-- PULSE_END (R147): A TRIG_OUT pulse of width ticks ends. -/
  | pulseEnd (j : Fin 4)
  /-- TRIG_OUT_CFG_WRITE (R147): A write to TRIG_OUT_CFG takes effect at the next TIME tick, first driving an active pin inactive for one tick. -/
  | trigOutCfgWrite (j : Fin 4) (value : BitVec 32)
  /-- TBUS_REQUEST (R152): A pending request leaves tbus_out and drives its line in the request phase of the next bus cycle. -/
  | tbusRequest (l : Fin 8)
  /-- BUS_REQUEST_LATCHED (R149): A request on a trigger bus line is latched, listeners answer with a NAK if they refuse, and BUS events are produced. -/
  | busRequestLatched (l : Fin 8) (nak : Bool)
  /-- TBUS_SYNC (R148): A TBUS_SYNC pulse is received, locking the device after two at the expected cycle or unlocking it if misplaced. -/
  | tbusSync
  /-- SYNC_DRIVE (R148): The master drives TBUS_SYNC high on the first cycle of every 65,536. -/
  | syncDrive
  /-- RING_SLOT_WRITE (R171): A capture-ring or spectrum-ring slot is completed header last, head advances, and pending capture copies proceed. -/
  | ringSlotWrite (i : Fin 17)
  /-- CONT_START (R173): CAP_CTRL.cont_start, or U.REC CONT with start = 1, starts continuous capture records. -/
  | contStart (c : Fin 17) (via : Via)
  /-- CONT_STOP (R173): CAP_CTRL.cont_stop, or U.REC CONT with start = 0, stops continuous capture. -/
  | contStop (c : Fin 17) (via : Via)
  /-- APPEND (R179): U.REC APPEND seals the oldest held record with a measurement block copied from local memory. -/
  | append (c : Fin 17) (y : Syl)
  /-- SKIP (R179): U.REC SKIP seals the oldest held record without a block. -/
  | skip (c : Fin 17) (y : Syl)
  /-- REC_QUERY (R179): U.REC QUERY returns REC_OPEN[31:0]. -/
  | recQuery (c : Fin 17) (y : Syl)
  /-- MEAS_TIMEOUT (R179): A held record gets no answer within meas_timeout and is sealed without a block. -/
  | measTimeout (i : Fin 17)
  /-- RESERVATION_REQUEST (R196): A producer asks the queue engine for a reservation, which is granted when space allows or waits. -/
  | reservationRequest (q : BitVec 20) (ann : AnnResult)
  /-- RESERVATION_TIMEOUT (R196): A waiting reservation reaches full_wait, is refused, and its record is abandoned with reason 8. -/
  | reservationTimeout (q : BitVec 20) (ann : AnnResult)
  /-- RECORD_SEAL (R178): The check unit seals a written record, writing the CRCs, the alive counter and the trailer last. -/
  | recordSeal (q : BitVec 20) (how : SealResult)
  /-- PUBLICATION (R198): A record's trailer is accepted by the target; the queue engine writes the waybill, advances produced and pub_seq, and moderates the signal. -/
  | publication (q : BitVec 20)
  /-- RECORD_WRITE_FAILURE (R197): A record write to its target ends in a time-out or error and the queue is halted. -/
  | recordWriteFailure (q : BitVec 20)
  /-- MODERATION_TIMER (R198): mod_timer expires after the first unsignalled waybill and the completion queue is asked to signal. -/
  | moderationTimer (q : BitVec 20)
  /-- CONTEXT_FETCH (R199): A missed queue context arrives in the depot cache and its waiting request proceeds. -/
  | contextFetch (q : BitVec 20) (ann : AnnResult)
  /-- DOORBELL (R195): A 64-bit QUEUE_DOORBELL write advances consumed if valid and re-tests waiting reservations. -/
  | doorbell (value : BitVec 64) (ann : AnnResult)
  /-- CREATE (R193): QUEUE_CMD CREATE writes a queue context from QUEUE_CTX_IN. -/
  | create (port : Port) (q : BitVec 20)
  /-- DESTROY (R193): QUEUE_CMD DESTROY clears the queue's enable once no reservation is open. -/
  | destroy (port : Port) (q : BitVec 20)
  /-- RESUME (R193): QUEUE_CMD RESUME clears halted on a queue. -/
  | resume (q : BitVec 20)
  /-- INSPECT (R193): QUEUE_CMD INSPECT copies a context to QUEUE_CTX_OUT. -/
  | inspect (q : BitVec 20)
  /-- CHAN_SELECT (R189): U.CHAN SELECT writes stage_laddr and commits the channel selection. -/
  | chanSelect (c : Fin 17) (y : Syl)
  /-- CHAN_COMMIT (R189): CHAN_CTRL.commit or U.CHAN COMMIT commits the staged selection bitmap, or refuses it. -/
  | chanCommit (c : Fin 17) (via : Via)
  /-- CHAN_QUERY (R189): U.CHAN QUERY returns CHAN_CTRL[31:0]. -/
  | chanQuery (c : Fin 17) (y : Syl)
  /-- PROTOTYPE_GENERATE (R185): Writing CHAN_CFG while the slot is disabled with proto_user = 0 starts generation of the channeliser prototype. -/
  | prototypeGenerate (i : Fin 17) (value : BitVec 64)
  /-- PROTOTYPE_READY (R185): The management controller finishes generating the prototype. -/
  | prototypeReady (i : Fin 17)
  /-- SYN_START (R207): SYN_CTRL.start or U.SYN START starts a SYNTHESISE slice at t_start, or is refused. -/
  | synStart (c : Fin 17) (via : Via)
  /-- START_INSTANT (R207): t_start arrives, the TXG sends STATUS start, and sample 0 is released. -/
  | startInstant (i : Fin 17)
  /-- SYN_STOP (R208): SYN_CTRL.stop or U.SYN STOP ends the output at the next caravan boundary, or cancels a start. -/
  | synStop (c : Fin 17) (via : Via)
  /-- SYN_COMMIT (R215): SYN_CTRL.commit or U.SYN COMMIT commits GAIN_STAGE for frames that begin at or after the boundary. -/
  | synCommit (c : Fin 17) (via : Via)
  /-- SYN_FRAME (R212): U.SYN FRAME queues 1 to 64 frequency-domain frames, or is refused when four instructions are already queued. -/
  | synFrame (c : Fin 17) (y : Syl)
  /-- SYN_QUERY (R212): U.SYN QUERY returns SYN_STATUS[31:0]. -/
  | synQuery (c : Fin 17) (y : Syl)
  /-- FRAME_SYNTHESIS (R212): The inverse transform of a queued frame starts and the frame is overlap-added, or it counts as missing. -/
  | frameSynthesis (i : Fin 17) (res : SynthFault)
  /-- SAMPLE_RELEASE (R206): An output sample passes through the output stage and is released into emit[g] at its paced instant, as zero if it is not ready. -/
  | sampleRelease (i : Fin 17) (res : Bool)
  /-- PLAYBACK_FETCH (R210): 10 µs before a caravan's release its playback data is fetched, and missing data counts as underrun. -/
  | playbackFetch (i : Fin 17) (ok : Bool)
  /-- PB_DOORBELL (R209): A PB_DOORBELL write publishes playback data up to produced, or is rejected as invalid. -/
  | pbDoorbell (i : Fin 17) (produced : BitVec 36)
  /-- INTERRUPT (R240): An enabled pending interrupt is taken at a bundle boundary and the save set is written. -/
  | interrupt (c : Fin 17)
  /-- EXCEPTION (R241): An exception is taken into the exception save set, or the core goes FAULTED on a double exception. -/
  | exception (c : Fin 17) (code : Fin 5) (addr : BitVec 32)
  /-- CORE_TIMER (R239): CORE_CYCLES reaches CORE_TIMER and interrupt source 6 is set. -/
  | coreTimer (c : Fin 17)
  /-- MBOX_IN_WRITE (R239): A host write to MBOX_IN sets INT_PEND bit 8. -/
  | mboxInWrite (c : Fin 17) (value : BitVec 64)
  /-- PEER_DOORBELL (R239): Another slice's core writes PEER_DOORBELL and INT_PEND bit 15 is set. -/
  | peerDoorbell (c : Fin 17) (t : Fin 17) (value : BitVec 64)
  /-- FORCED_STOP (R246): quiesce_grace expires without HALT and the core is stopped at a bundle boundary. -/
  | forcedStop (c : Fin 17)
  /-- WAIT_COMPLETE (R262): The condition of a waiting U.WAIT is met and issue resumes. -/
  | waitComplete (c : Fin 17)
  /-- NOP (R229): Opcode 0 in any slot does nothing. -/
  | nop (c : Fin 17) (y : Syl)
  /-- ADD (R253): Scalar add, wrapping modulo 2^32. -/
  | add (c : Fin 17) (y : Syl)
  /-- SUB (R253): Scalar subtract. -/
  | sub (c : Fin 17) (y : Syl)
  /-- MUL (R253): Scalar multiply, keeping the low 32 bits. -/
  | mul (c : Fin 17) (y : Syl)
  /-- AND (R253): Scalar bitwise AND. -/
  | and (c : Fin 17) (y : Syl)
  /-- OR (R253): Scalar bitwise OR. -/
  | or (c : Fin 17) (y : Syl)
  /-- XOR (R253): Scalar bitwise XOR. -/
  | xor (c : Fin 17) (y : Syl)
  /-- SHL (R253): Scalar shift left by a register. -/
  | shl (c : Fin 17) (y : Syl)
  /-- SHR (R253): Scalar logical shift right by a register. -/
  | shr (c : Fin 17) (y : Syl)
  /-- SRA (R253): Scalar arithmetic shift right by a register. -/
  | sra (c : Fin 17) (y : Syl)
  /-- MIN (R253): Signed scalar minimum. -/
  | min (c : Fin 17) (y : Syl)
  /-- MAX (R253): Signed scalar maximum. -/
  | max (c : Fin 17) (y : Syl)
  /-- SLT (R253): Signed set-less-than. -/
  | slt (c : Fin 17) (y : Syl)
  /-- SLTU (R253): Unsigned set-less-than. -/
  | sltu (c : Fin 17) (y : Syl)
  /-- ADDI (R253): Add a sign-extended immediate. -/
  | addi (c : Fin 17) (y : Syl)
  /-- ANDI (R253): AND with a zero-extended immediate. -/
  | andi (c : Fin 17) (y : Syl)
  /-- ORI (R253): OR with a zero-extended immediate. -/
  | ori (c : Fin 17) (y : Syl)
  /-- SHLI (R253): Shift left by an immediate. -/
  | shli (c : Fin 17) (y : Syl)
  /-- SHRI (R253): Logical shift right by an immediate. -/
  | shri (c : Fin 17) (y : Syl)
  /-- SRAI (R253): Arithmetic shift right by an immediate. -/
  | srai (c : Fin 17) (y : Syl)
  /-- LI (R253): Load a sign-extended 21-bit immediate. -/
  | li (c : Fin 17) (y : Syl)
  /-- LIU (R253): Load the upper 16 bits, keeping the low half. -/
  | liu (c : Fin 17) (y : Syl)
  /-- PCMP (R253): Compare two scalars into every bit of a predicate. -/
  | pcmp (c : Fin 17) (y : Syl)
  /-- PAND (R253): Predicate AND. -/
  | pand (c : Fin 17) (y : Syl)
  /-- POR (R253): Predicate OR. -/
  | por (c : Fin 17) (y : Syl)
  /-- PXOR (R253): Predicate XOR. -/
  | pxor (c : Fin 17) (y : Syl)
  /-- PNOT (R253): Predicate complement. -/
  | pnot (c : Fin 17) (y : Syl)
  /-- PANY (R253): Set a predicate to all ones if any source bit is set. -/
  | pany (c : Fin 17) (y : Syl)
  /-- PFROMS (R253): Predicate from the low byte of a scalar. -/
  | pfroms (c : Fin 17) (y : Syl)
  /-- PTOS (R253): Scalar from a predicate. -/
  | ptos (c : Fin 17) (y : Syl)
  /-- PCNT (R253): Count the set bits of a predicate. -/
  | pcnt (c : Fin 17) (y : Syl)
  /-- PFFS (R253): Index of the lowest set predicate bit. -/
  | pffs (c : Fin 17) (y : Syl)
  /-- PFLS (R253): Index of the highest set predicate bit. -/
  | pfls (c : Fin 17) (y : Syl)
  /-- BR (R253): Unconditional branch. -/
  | br (c : Fin 17) (y : Syl)
  /-- BZ (R253): Branch if a scalar is zero. -/
  | bz (c : Fin 17) (y : Syl)
  /-- BNZ (R253): Branch if a scalar is non-zero. -/
  | bnz (c : Fin 17) (y : Syl)
  /-- BPA (R253): Branch if a predicate is non-zero. -/
  | bpa (c : Fin 17) (y : Syl)
  /-- BPN (R253): Branch if a predicate is zero. -/
  | bpn (c : Fin 17) (y : Syl)
  /-- CALL (R253): Branch, saving the return index in S31. -/
  | call (c : Fin 17) (y : Syl)
  /-- JR (R253): Jump to the bundle index in a scalar. -/
  | jr (c : Fin 17) (y : Syl)
  /-- LOOP (R237): Open a loop level whose end bundle decrements LC and loops back at no cost. -/
  | loop (c : Fin 17) (y : Syl)
  /-- LOOP_S (R238): Open level 0 as a staged loop with register renaming and stage predicates. -/
  | loopS (c : Fin 17) (y : Syl)
  /-- MOVFC (R253): Read a control register. -/
  | movfc (c : Fin 17) (y : Syl)
  /-- MOVTC (R254): Write CSW, LOOPCTL or LC[k] under the restrictions of R254. -/
  | movtc (c : Fin 17) (y : Syl)
  /-- SWI (R253): Set INT_PEND bit 14. -/
  | swi (c : Fin 17) (y : Syl)
  /-- RTI (R240): Return from an interrupt, restoring the save set. -/
  | rti (c : Fin 17) (y : Syl)
  /-- RTE (R241): Return from an exception. -/
  | rte (c : Fin 17) (y : Syl)
  /-- HALT (R246): The core enters HALTED, acknowledging a quiesce. -/
  | halt (c : Fin 17) (y : Syl)
  /-- FENCE (R235): Hold issue until all earlier stores have been performed. -/
  | fence (c : Fin 17) (y : Syl)
  /-- VADD (R255): Vector add per guarded lane. -/
  | vadd (c : Fin 17) (y : Syl)
  /-- VSUB (R255): Vector subtract. -/
  | vsub (c : Fin 17) (y : Syl)
  /-- VAND (R255): Vector bitwise AND. -/
  | vand (c : Fin 17) (y : Syl)
  /-- VOR (R255): Vector bitwise OR. -/
  | vor (c : Fin 17) (y : Syl)
  /-- VXOR (R255): Vector bitwise XOR. -/
  | vxor (c : Fin 17) (y : Syl)
  /-- VMIN (R255): Vector signed minimum. -/
  | vmin (c : Fin 17) (y : Syl)
  /-- VMAX (R255): Vector signed maximum. -/
  | vmax (c : Fin 17) (y : Syl)
  /-- VABS (R255): Vector absolute value. -/
  | vabs (c : Fin 17) (y : Syl)
  /-- VNEG (R255): Vector negate. -/
  | vneg (c : Fin 17) (y : Syl)
  /-- VSHL (R255): Vector shift left. -/
  | vshl (c : Fin 17) (y : Syl)
  /-- VSRA (R255): Vector rounding shift right. -/
  | vsra (c : Fin 17) (y : Syl)
  /-- VCMP (R255): Vector compare into a predicate. -/
  | vcmp (c : Fin 17) (y : Syl)
  /-- VSEL (R255): Select lanes by the guard. -/
  | vsel (c : Fin 17) (y : Syl)
  /-- VBCAST (R255): Broadcast a scalar into every lane. -/
  | vbcast (c : Fin 17) (y : Syl)
  /-- VINS (R255): Insert a scalar into one lane. -/
  | vins (c : Fin 17) (y : Syl)
  /-- VEXT (R255): Extract a lane chosen by an immediate. -/
  | vext (c : Fin 17) (y : Syl)
  /-- VEXTR (R255): Extract a lane chosen by a register. -/
  | vextr (c : Fin 17) (y : Syl)
  /-- VROT (R255): Rotate lanes across two registers. -/
  | vrot (c : Fin 17) (y : Syl)
  /-- VCONJ (R255): Complex conjugate of lane pairs. -/
  | vconj (c : Fin 17) (y : Syl)
  /-- VSWAP (R255): Swap I and Q of lane pairs. -/
  | vswap (c : Fin 17) (y : Syl)
  /-- VMAXX (R255): Index of the largest guarded lane. -/
  | vmaxx (c : Fin 17) (y : Syl)
  /-- VMINX (R255): Index of the smallest guarded lane. -/
  | vminx (c : Fin 17) (y : Syl)
  /-- VMAXR (R255): Running maximum with index. -/
  | vmaxr (c : Fin 17) (y : Syl)
  /-- VMINR (R255): Running minimum with index. -/
  | vminr (c : Fin 17) (y : Syl)
  /-- VMOV (R255): Vector move. -/
  | vmov (c : Fin 17) (y : Syl)
  /-- VMUL (R256): Lane products into an accumulator. -/
  | vmul (c : Fin 17) (y : Syl)
  /-- VMAC (R256): Multiply-accumulate. -/
  | vmac (c : Fin 17) (y : Syl)
  /-- VMSU (R256): Multiply-subtract. -/
  | vmsu (c : Fin 17) (y : Syl)
  /-- VMUL_C (R256): Complex multiply into an accumulator. -/
  | vmulC (c : Fin 17) (y : Syl)
  /-- VMAC_C (R256): Complex multiply-accumulate. -/
  | vmacC (c : Fin 17) (y : Syl)
  /-- VMAC_J (R256): Multiply-accumulate with the conjugate of b. -/
  | vmacJ (c : Fin 17) (y : Syl)
  /-- VMUL_S (R256): Multiply by a broadcast scalar. -/
  | vmulS (c : Fin 17) (y : Syl)
  /-- VMAC_S (R256): Multiply-accumulate by a broadcast scalar. -/
  | vmacS (c : Fin 17) (y : Syl)
  /-- VMUL_L (R256): Multiply by a broadcast lane. -/
  | vmulL (c : Fin 17) (y : Syl)
  /-- VMAC_L (R256): Multiply-accumulate by a broadcast lane. -/
  | vmacL (c : Fin 17) (y : Syl)
  /-- VMAC_P (R256): Accumulate complex power into even lanes. -/
  | vmacP (c : Fin 17) (y : Syl)
  /-- AMOV_V (R227): Scaled move of an accumulator to a vector. -/
  | amovV (c : Fin 17) (y : Syl)
  /-- AMOV_S (R227): Scaled move of one accumulator lane to a scalar. -/
  | amovS (c : Fin 17) (y : Syl)
  /-- AMOV_R (R256): Raw move of accumulator bits. -/
  | amovR (c : Fin 17) (y : Syl)
  /-- ASET (R256): Set an accumulator from a vector times 2^23. -/
  | aset (c : Fin 17) (y : Syl)
  /-- ACLR (R256): Clear an accumulator. -/
  | aclr (c : Fin 17) (y : Syl)
  /-- AADD (R256): Add two accumulators. -/
  | aadd (c : Fin 17) (y : Syl)
  /-- ASUM (R256): Sum the guarded lanes into lane 0. -/
  | asum (c : Fin 17) (y : Syl)
  /-- ASUM_C (R256): Sum the even and odd guarded lanes into lanes 0 and 1. -/
  | asumC (c : Fin 17) (y : Syl)
  /-- LD_B (R258): Load a sign-extended byte. -/
  | ldB (c : Fin 17) (y : Syl)
  /-- LD_BU (R258): Load a zero-extended byte. -/
  | ldBu (c : Fin 17) (y : Syl)
  /-- LD_H (R258): Load a sign-extended halfword. -/
  | ldH (c : Fin 17) (y : Syl)
  /-- LD_HU (R258): Load a zero-extended halfword. -/
  | ldHu (c : Fin 17) (y : Syl)
  /-- LD_W (R258): Load a 32-bit word. -/
  | ldW (c : Fin 17) (y : Syl)
  /-- LD_D (R258): Load 64 bits into a register pair. -/
  | ldD (c : Fin 17) (y : Syl)
  /-- ST_B (R258): Store a byte. -/
  | stB (c : Fin 17) (y : Syl)
  /-- ST_H (R258): Store a halfword. -/
  | stH (c : Fin 17) (y : Syl)
  /-- ST_W (R258): Store a word. -/
  | stW (c : Fin 17) (y : Syl)
  /-- ST_D (R258): Store 64 bits from a register pair. -/
  | stD (c : Fin 17) (y : Syl)
  /-- VLD_W (R233): Vector load in .W format. -/
  | vldW (c : Fin 17) (y : Syl)
  /-- VLD_H (R233): Vector load in .H format. -/
  | vldH (c : Fin 17) (y : Syl)
  /-- VST_W (R233): Vector store in .W format. -/
  | vstW (c : Fin 17) (y : Syl)
  /-- VST_H (R233): Vector store in .H format with saturation. -/
  | vstH (c : Fin 17) (y : Syl)
  /-- XSET (R236): Set an address register's address, mode and wrap. -/
  | xset (c : Fin 17) (y : Syl)
  /-- XADD (R236): Post-increment an address register without an access. -/
  | xadd (c : Fin 17) (y : Syl)
  /-- XGET (R258): Read an address register's address. -/
  | xget (c : Fin 17) (y : Syl)
  /-- TAP (R260): U.RED TAP starts copying working-stream outputs to local memory at the next boundary, or is refused. -/
  | tap (c : Fin 17) (y : Syl)
  /-- TAP_DONE (R260): A tap ends after count samples or early, writes its header and raises UNIT_DONE. -/
  | tapDone (i : Fin 17)
  /-- RED_QUERY (R260): U.RED QUERY returns the tap status. -/
  | redQuery (c : Fin 17) (y : Syl)
  /-- CELL (R261): U.DENS CELL returns one cell count of the accumulating density buffer. -/
  | cell (c : Fin 17) (y : Syl)
  /-- DENS_QUERY (R259): U.DENS QUERY returns DENS_SAT[k][31:0]. -/
  | densQuery (c : Fin 17) (y : Syl)
  /-- NOW (R262): U.TIME NOW returns the newest T96 of the time ferry. -/
  | now (c : Fin 17) (y : Syl)
  /-- BOUND (R259): U.TIME BOUND returns the current bound and quality. -/
  | bound (c : Fin 17) (y : Syl)
  /-- WAIT_BOUNDARY (R262): U.WAIT BOUNDARY holds issue until the next caravan boundary. -/
  | waitBoundary (c : Fin 17) (y : Syl)
  /-- WAIT_TIME (R262): U.WAIT TIME holds issue until a T96 instant. -/
  | waitTime (c : Fin 17) (y : Syl)
  /-- WAIT_PEND (R262): U.WAIT PEND holds issue until a masked INT_PEND bit is set. -/
  | waitPend (c : Fin 17) (y : Syl)
  /-- SUBMIT (R270): PL_CTRL SUBMIT evaluates the declarations, and places and enables what is admitted. -/
  | submit
  /-- WITHDRAW (R267): PL_CTRL WITHDRAW quiesces an entry, frees its resources and returns it to state 0. -/
  | withdraw (e : Fin 128)
  /-- UPDATE (R276): PL_CTRL UPDATE performs a rolling program update of an analysis. -/
  | update (e : Fin 128)
  /-- PLACEMENT_ACTION (R274): The placement engine takes its next queued action, such as a re-placement, demotion or restoration. -/
  | placementAction
  /-- JOIN (R306): The stand-in's slots are enabled at a caravan boundary and it shadows the incumbent's stream. -/
  | join
  /-- SHADOW_LIMIT (R313): B_sw is not reached within shadow_limit and the calibration takeover is abandoned. -/
  | shadowLimit
  /-- SELFTEST_DONE (R312): A relieved slice finishes gathering its timing set and self-test, then takes the spare role, is retired, or returns to free. -/
  | selftestDone (set : GatherResult) (test : Fin 6)
  /-- CALIBRATION_DUE (R305): The management controller chooses the next slice to calibrate, by staleness or cal_interval. -/
  | calibrationDue
  /-- CAL_RETRY (R313): cal_retry minutes pass after an abandoned calibration and it is retried. -/
  | calRetry (i : Fin 17)
  /-- CAL_GO (R305): CAL_CTRL.go calibrates the named slice now, or is refused. -/
  | calGo (slice : BitVec 5)
  /-- CAL_ABORT (R313): CAL_CTRL.abort abandons the takeover in progress unless it is cause 2. -/
  | calAbort
  /-- TRACKING_STEP (R302): Every 1 ms the replica monitors are read and each trim moves at most one tap. -/
  | trackingStep (i : Fin 17) (shifts : List Int)
  /-- READING_TIMEOUT (R303): No valid reading of a set's sensor for 1 s makes the set stale. -/
  | readingTimeout (k : Fin 25)
  /-- REF_WINDOW (R281): A 1.31 ms window of REF_IN edges ends and REF_IN is judged present or lost. -/
  | refWindow (count : Nat)
  /-- REF_TIMEOUT (R281): REF_IN shows no transition for 1 µs and is lost. -/
  | refTimeout
  /-- REF_LOCK_CHECK (R281): Each millisecond the REF phase error is tested for ref-lock, gain or loss, and holdover growth is added. -/
  | refLockCheck (err : Int) (corr : Int)
  /-- PPS_EDGE (R282): A PPS_IN edge is accepted or rejected and steers the setpoint, with quality transitions and pending loads applied. -/
  | ppsEdge (falling : Bool) (tap : Fin 512)
  /-- PPS_LOSS (R282): 3.003 s pass without an accepted PPS edge and PPS is lost. -/
  | ppsLoss
  /-- LOAD (R284): TB_CTRL.load schedules a time load at the next PPS edge. -/
  | tbLoad
  /-- LOAD_NOW (R284): TB_CTRL.load_now sets the time at once, or is refused if it moves backwards in RUN. -/
  | tbLoadNow
  /-- TB_CANCEL (R284): TB_CTRL.cancel withdraws a pending load. -/
  | tbCancel
  /-- EPOCH_GO (R289): TB_CTRL.epoch_go starts the EPOCH_OUT schedule, or is refused for a short period. -/
  | epochGo
  /-- EPOCH_STOP (R289): TB_CTRL.epoch_stop stops the schedule after the current pulse. -/
  | epochStop
  /-- EPOCH_EDGE (R289): A scheduled instant arrives; EPOCH_OUT rises, T_e is recorded and the TXGs send EPOCH blocks. -/
  | epochEdge
  /-- EPOCH_PULSE_END (R289): The EPOCH_OUT pulse of width ticks ends. -/
  | epochPulseEnd
  /-- TABLE_REFRESH (R296): An interpolator collects H code-density hits and its position table is replaced. -/
  | tableRefresh (i : Fin 8) (hits : List Nat)
  /-- TDC_ARM (R297): TDC_CTRL.arm clears the result and arms a measurement. -/
  | tdcArm
  /-- TDC_CANCEL (R297): TDC_CTRL.cancel returns the TDC to IDLE. -/
  | tdcCancel
  /-- TDC_EDGE (R297): A start or stop edge is taken, and with both taken the result is computed and the TDC re-arms if repeat is set. -/
  | tdcEdge (pin : TdcPin) (falling : Bool) (tap : Fin 512)
  /-- TDC_TIMEOUT (R297): The TDC timeout expires before both edges are taken. -/
  | tdcTimeout
  /-- SCRUB_READ (R319): The patrol scrubber reads an on-chip word, correcting or logging errors and wiping the secure region on an uncorrectable error. -/
  | scrubRead (m : SramId) (addr : Nat) (err : EccKind) (syndrome : BitVec 8)
  /-- BANK_TEST_START (R320): test_interval expires and the next bank begins its copy phase to the mirror. -/
  | bankTestStart (m : SramId)
  /-- MIRROR_COPY_DONE (R320): The copy phase ends and the bank is borrowed for its march test. -/
  | mirrorCopyDone (m : SramId) (poisoned : Option Nat)
  /-- MARCH_TEST_DONE (R322): The march test ends, and on failure the bank is repaired by its mirror. -/
  | marchTestDone (m : SramId) (passed : Bool)
  /-- MIRROR_RESTORE_DONE (R320): The restore phase ends and the mirror is released. -/
  | mirrorRestoreDone (m : SramId)
  /-- BAR2_WRITE (R328): A host write through BAR2 reaches the depot, or is refused for the secure region or outside the host region. -/
  | bar2Write (off : Nat) (data : List (Option Byte))
  /-- BAR2_READ (R328): A host read through BAR2 returns depot data, or Completer Abort for the secure region. -/
  | bar2Read (off : Nat) (len : Nat)
  /-- BAR4_ACCESS (R348): A BAR4 access reaches the MSI-X table, the pending-bit array or DRAM, or is a bus error. -/
  | bar4Access (write : Bool) (off : Nat) (data : List (Option Byte))
  /-- DRAM_REQUEST (R337): A DRAM controller serves a request under its row policy and ECC, entering in-order mode where needed. -/
  | dramRequest (write : Bool) (addr : Nat) (data : List (Option Byte)) (err : EccKind) (symbol : BitVec 8)
  /-- DRAM_SCRUB (R335): The DRAM patrol scrubber reads a line in an idle slot. -/
  | dramScrub (c : Fin 8) (addr : Nat) (err : EccKind) (symbol : BitVec 8)
  /-- REFRESH (R338): A refresh falls due and is performed after any burst in flight. -/
  | refresh (c : Fin 8)
  /-- DRAM_TRACKING (R340): Every track_ms the lane delays move one step, and the set goes stale at the limit. -/
  | dramTracking (c : Fin 8) (rd : List Int) (wr : List Int)
  /-- RETRAIN (R341): DRAM_CTRL.retrain starts an evacuating retraining of the channel, or is refused. -/
  | retrain (c : Fin 8)
  /-- AUTO_RETRAIN (R341): A stale set with auto_retrain starts a retraining once the PLACEMENT block is enabled. -/
  | autoRetrain (c : Fin 8)
  /-- EVACUATION_COPY_DONE (R341): All granules are copied to the reserves and training begins. -/
  | evacuationCopyDone (c : Fin 8)
  /-- TRAINING_DONE (R342): DRAM training ends; on success the restore begins, on failure the channel enters FAILED. -/
  | trainingDone (c : Fin 8) (result : TrainResult)
  /-- EVACUATION_RESTORE_DONE (R341): All granules are copied back and the channel returns to service. -/
  | evacuationRestoreDone (c : Fin 8)
  /-- RING_TAIL (R353): A RING_TAIL write hands descriptors to a ring and re-fetches a descriptor that was not owned. -/
  | ringTail (ring : Fin 256) (tail : BitVec 16)
  /-- RING_RUN (R351): RING_CTRL.run samples the ring configuration and starts or continues the ring, or is refused. -/
  | ringRun (ring : Fin 256)
  /-- RING_STOP (R359): RING_CTRL.stop withdraws the descriptor in progress and stops the ring. -/
  | ringStop (ring : Fin 256) (bursts : Nat) (movedBytes : Nat)
  /-- RING_RESUME (R359): RING_CTRL.resume continues a HALTED ring at head. -/
  | ringResume (ring : Fin 256)
  /-- DESCRIPTOR_FETCH (R353): A ring fetches descriptor head, and waits in WAIT if own is 0. -/
  | descriptorFetch (ring : RingFetch)
  /-- DMA_NOP (R355): Descriptor opcode 0x00 moves nothing. -/
  | dmaNop (ring : Fin 256) (result : ReqResult)
  /-- COPY (R355): Descriptor COPY moves length bytes between spaces. -/
  | copy (ring : Fin 256) (result : ReqResult)
  /-- FILL (R355): Descriptor FILL repeats a pattern over the destination. -/
  | fill (ring : Fin 256) (result : ReqResult)
  /-- WRITE_IMM (R355): Descriptor WRITE_IMM writes 4 or 8 immediate bytes. -/
  | writeImm (ring : Fin 256) (result : ReqResult)
  /-- CHECK (R355): Descriptor CHECK computes a CRC with check unit 61 and optionally compares it. -/
  | dmaCheck (ring : Fin 256) (result : ReqResult)
  /-- PROGRAM_LOAD (R244): Descriptor PROGRAM_LOAD verifies a program image and loads it into a slice, or is refused. -/
  | programLoad (ring : Fin 256) (result : ReqResult)
  /-- RETURN (R356): Descriptor RETURN ends a chain and writes back its LINK. -/
  | dmaReturn (ring : Fin 256) (result : ReqResult)
  /-- LINK (R356): Descriptor LINK moves the fetch address, and the sixteenth in a row halts the ring with LOOP. -/
  | dmaLink (ring : Fin 256) (result : ReqResult)
  /-- DESCRIPTOR_COMPLETE (R354): A descriptor's requests finish; word 1, word 3 and word 0 are written back, the waybill follows, and head advances. -/
  | descriptorComplete (ring : Fin 256)
  /-- COMPLETION_TIMEOUT (R358): A non-posted request is not completed within cpl_timeout and fails with TARGET cause 0. -/
  | completionTimeout (ring : Fin 256) (good : Nat)
  /-- FLUSH_READ_COMPLETE (R349): The flush read to a peer window completes and the waybill may be written. -/
  | flushReadComplete (who : WaybillOwner) (ok : Bool)
  /-- WAYBILL (R361): A waybill is written to a completion queue with room, tail advances, and MSI-X is requested. -/
  | waybill (who : WaybillOwner)
  /-- CQ_HEAD (R363): A CQ_HEAD write frees completion entries, or is rejected as invalid. -/
  | cqHead (cq : Fin 1024) (head : BitVec 16)
  /-- CQ_ENABLE (R361): Setting CQ_CFG.enable samples CQ_BASE and resets tail, head and phase, or is refused. -/
  | cqEnable (cq : Fin 1024)
  /-- MSIX_UNMASK (R364): A masked vector with its pending bit set is unmasked and one message is sent. -/
  | msixUnmask (v : Fin 2048)
  /-- ENDPOINT_RESET (R350): PERST_N, a hot reset, a link disable, an FLR or link loss resets the endpoint, halts the rings and disables host completion queues. -/
  | endpointReset
  /-- VBLANK_START (R372): The first pixel after the last active pixel applies staged layer commits and colour-table loads. -/
  | vblankStart (d : Fin 2)
  /-- LINE_MATCH (R372): The first pixel of line line_match raises its event. -/
  | lineMatch (d : Fin 2)
  /-- FRAME_DONE (R372): The last active pixel leaves the pins. -/
  | frameDone (d : Fin 2)
  /-- DISPLAY_LINE (R375): An output line is composed from its layers, or goes black on underrun. -/
  | displayLine (d : Fin 2)
  /-- LINE_FETCH (R375): A layer's line data arrives in its line ferry, or is discarded if late. -/
  | lineFetch (d : Fin 2) (n : Fin 4) (v : Nat)
  /-- HPD_UNPLUG (R371): HPD stays low for 2 ms and the output enters LINK_FAIL. -/
  | hpdUnplug (d : Fin 2)
  /-- IRQ_HPD (R371): An HPD pulse shorter than 2 ms sets hpd_event. -/
  | irqHpd (d : Fin 2)
  /-- LINK_TRAINING (R371): DisplayPort link training at enable ends in active or LINK_FAIL. -/
  | linkTraining (d : Fin 2) (ok : Bool)
  /-- DISP_COMMIT (R376): DISP_CTRL.commit stages layer changes for the next VBLANK_START. -/
  | dispCommit (d : Fin 2)
  /-- CT_LOAD (R373): DISP_CTRL.ct_load copies the colour table from DRAM. -/
  | ctLoad (d : Fin 2)
  /-- CT_LOAD_DONE (R373): The colour-table copy completes. -/
  | ctLoadDone (d : Fin 2)
  /-- AUX_GO (R371): DISP_AUX.go starts an AUX transaction. -/
  | auxGo (d : Fin 2)
  /-- AUX_COMPLETE (R371): An AUX transaction ends with ACK, NACK or time-out. -/
  | auxComplete (d : Fin 2) (r : AuxResult) (data : List Byte)
  /-- RAMP_GO (R381): CLK_RAMP_CTRL.go starts a PLL_CORE ramp profile after placement, or is refused. -/
  | rampGo
  /-- RAMP_ABORT (R384): CLK_RAMP_CTRL.abort stops a ramp at its current frequency. -/
  | rampAbort
  /-- RAMP_SEGMENT_END (R383): A ramp segment ends, and after the last segment placement acts at the final frequency. -/
  | rampSegmentEnd
  /-- THERMTRIP (R424): A die sensor exceeds 125 °C and THERMTRIP_N goes low. -/
  | thermtrip
  /-- TRUST_COMMIT (R394): AUTH op 1 stores the staged trust constant with presence. -/
  | trustCommit
  /-- TRUST_CLEAR (R394): AUTH op 2 unsets a trust constant. -/
  | trustClear
  /-- SEED_SET (R394): AUTH op 3 stores an alive-counter seed. -/
  | seedSet
  /-- USER_CAL (R394): AUTH op 4 stores a user calibration item. -/
  | userCal
  /-- FW_UPDATE (R394): AUTH op 5 writes a boot image to the slot that was not booted. -/
  | fwUpdate (sectionsOk : Bool)
  /-- UCODE_UPDATE (R394): AUTH op 6 replaces the running placement microcode. -/
  | ucodeUpdate
  /-- LC_ADVANCE (R398): AUTH op 7 advances the life-cycle state one step, wiping the region. -/
  | lcAdvance
  /-- EXTEST_ENABLE (R394): AUTH op 8 permits EXTEST until the next full reset. -/
  | extestEnable
  /-- WIPE (R326): AUTH op 9 wipes the secure region and erases the sealed copies. -/
  | wipe
  /-- AUTH_CANCEL (R393): AUTH_CMD.cancel ends a pending operation before it executes. -/
  | authCancel
  /-- PRESENCE_PROVEN (R393): PRESENCE_N stays low for 50 ms within the window and the operation executes. -/
  | presenceProven
  /-- WINDOW_EXPIRED (R393): The 10 s presence window closes without presence. -/
  | windowExpired
  /-- AUTH_DONE (R394): An executing AUTH operation ends, rewriting the sealed copy, with done or failure. -/
  | authDone (flashOk : Bool)
  /-- STRAY_PRESENCE (R393): A falling edge of PRESENCE_N while no window is open is counted. -/
  | strayPresence
  /-- TAMPER_OPEN (R396): The tamper loop opens; if it is armed the region is wiped and an event is counted. -/
  | tamperOpen
  /-- TAMPER_CLOSED (R396): 64 matching samples close the tamper loop. -/
  | tamperClosed
  /-- TAMPER_ARM (R396): A write to AUTH_TAMPER.arm arms the loop, wiping at once if it is open, or is locked from FIELD onwards. -/
  | tamperArm (value : Bool)
  /-- TIME_MARK (R403): Every 2^20 core cycles while tracing, a time mark is written to the trace. -/
  | timeMark
  /-- TRACE_ENABLE (R404): OBS_CTRL.trace_enable going from 0 to 1 resets the trace head. -/
  | traceEnable
  /-- EXTEST (R405): The JTAG EXTEST instruction drives the balls from the boundary register, or is refused as BYPASS. -/
  | extest
  /-- SAMPLE_PRELOAD (R405): The JTAG SAMPLE/PRELOAD instruction. -/
  | samplePreload (cells : BitVec 3993)
  /-- IDCODE (R405): The JTAG IDCODE instruction reads 0x2512_0A6F. -/
  | idcode
  /-- OBSREAD (R406): The JTAG OBSREAD instruction starts a read of an allowed block through the management port. -/
  | obsread (addr : BitVec 26)
  /-- BYPASS (R405): The JTAG BYPASS instruction. -/
  | bypass
  /-- CONVERSION (R408): A housekeeping conversion delivers its reading, which is corrected, checked for plausibility, compared with limits and used for stale tests. -/
  | conversion (v : Fin 2) (code : BitVec 24) (ovr : Bool) (eng : BitVec 16)
  /-- HK_CALIBRATION (R408): Every 60 s a pass converts the shorted input and the reference to form the offset and gain corrections. -/
  | hkCalibration (v : Fin 2) (off : BitVec 24) (gain : BitVec 32)
  /-- URGENT_REQUEST (R413): An HK_START edge of the configured polarity requests an urgent conversion. -/
  | urgentRequest (falling : Bool)
  /-- URGENT (R413): HK_CTRL.urgent requests an urgent conversion. -/
  | urgent
  /-- RESET_RELEASE (R385): RESET_N rises with the supplies valid, the straps are sampled and the device enters BOOT from reset or from OFF. -/
  | resetRelease (straps : BitVec 4) (testMode : Bool)
  /-- CONFIGURATION_REQUEST (R389): A PCI Express configuration request is answered with Retry Status before the IDs are passed, and otherwise sets fields such as Bus Master Enable, Memory Space Enable or the Resizable BAR size. -/
  | configurationRequest (op : CfgOp)
  /-- SYNC_PULSE_MISSING (R148): The expected TBUS_SYNC cycle passes without a pulse, and a locked device loses lock and resynchronises. -/
  | syncPulseMissing
  /-- UNEXPECTED_COMPLETION (R358): A completion arrives after its request has timed out, is discarded, and AER records an unexpected completion. -/
  | unexpectedCompletion
  /-- QUIESCE_SEAL_DEADLINE (R203): 50 µs after a quiesce of the QUEUE block, a granted record that is still not sealed is abandoned under R178. -/
  | quiesceSealDeadline
  deriving DecidableEq, Repr

end Sys2Proof
end

