-- ==== Sys2Proof/Config.lean ====
section
/-!
DEFINITION. Sys2Proof/Config.lean: the free values of the model. Each is an uninterpreted constant: the manual fixes no value
there, nothing in Lean can evaluate one, and a statement holds whatever they are. `notes/assumptions/` names each.
-/
namespace Sys2Proof.Config

/-- A free number for a value the spec leaves open; the first argument names the place, the second is the step's own counter.
Any function will do (log 1). -/
opaque free : Nat → Nat → Nat

end Sys2Proof.Config
end

