-- ==== Sys2Proof/Machine/Arith.lean ====
section
/-!
DEFINITION. Sys2Proof/Machine/Arith.lean: exact arithmetic, its one explicit narrowing at the end, byte order and check codes.
-/
namespace Sys2Proof.Machine
open Sys2Proof

/-- `num / den` rounded to the nearest integer, ties to even (`den` positive). -/
def rneDiv (num : Int) (den : Nat) : Int :=
  let q := num / (den : Int)
  let r := num % (den : Int)
  if 2 * r < (den : Int) then q else if 2 * r > (den : Int) then q + 1 else if q % 2 = 0 then q else q + 1

/-- `rne(x, n)`: x / 2^n rounded to the nearest integer, ties to even. -/
def rne (x : Int) (n : Nat) : Int := rneDiv x (2 ^ n)

/-- The nearest value of a signed field of `w` bits. -/
def sat (w : Nat) (x : Int) : Int :=
  if x < -(2 ^ (w - 1) : Int) then -(2 ^ (w - 1) : Int) else if x > 2 ^ (w - 1) - 1 then 2 ^ (w - 1) - 1 else x

/-- The nearest value of an unsigned field of `w` bits. -/
def satU (w : Nat) (x : Int) : Nat := if x < 0 then 0 else if x > 2 ^ w - 1 then 2 ^ w - 1 else x.toNat

/-- The low `w` bits of an integer read as two's complement. -/
def wrapS (w : Nat) (x : Int) : Int := (x + 2 ^ (w - 1)) % (2 ^ w : Int) - 2 ^ (w - 1)

/-- The two's-complement value of the low `w` bits of a natural number. -/
def signed (w : Nat) (x : Nat) : Int := wrapS w (x : Int)

/-- The two's-complement code of an integer in `w` bits. -/
def code (w : Nat) (x : Int) : Nat := (x % (2 ^ w : Int)).toNat

/-- `⌈a / b⌉` for naturals, `b` positive. -/
def ceilDiv (a b : Nat) : Nat := (a + b - 1) / b

/-- Bit `i` of a natural number. -/
def nbit (x i : Nat) : Bool := x / 2 ^ i % 2 = 1

/-- Bits [hi:lo] of a natural number. -/
def nbits (x hi lo : Nat) : Nat := x / 2 ^ lo % 2 ^ (hi + 1 - lo)

/-- The bytes of a number, least significant first (R3). -/
def leBytes : Nat → Nat → List Byte
  | 0, _ => []
  | n + 1, v => BitVec.ofNat 8 v :: leBytes n (v / 256)

/-- The number a little-endian byte string holds (R3). -/
def leNat : List Byte → Nat
  | [] => 0
  | b :: bs => b.toNat + 256 * leNat bs

/-- One reflected CRC step on one bit. -/
def crcBit (poly crc : Nat) : Nat := if crc % 2 = 1 then Nat.xor (crc / 2) poly else crc / 2

/-- A reflected CRC advanced by one byte. -/
def crcByte (poly : Nat) (crc : Nat) (b : Byte) : Nat :=
  let c := Nat.xor crc b.toNat
  crcBit poly (crcBit poly (crcBit poly (crcBit poly (crcBit poly (crcBit poly (crcBit poly (crcBit poly c)))))))

/-- Width, reflected polynomial of the CRCs of R366: 0 = CRC-32C, 1 = CRC-32, 2 = CRC-64, 3 = CRC-16. Initial value and
final XOR are all ones. -/
def crcParams (p : Nat) : Nat × Nat :=
  match p with
  | 0 => (32, 0x82F63B78)
  | 1 => (32, 0xEDB88320)
  | 2 => (64, 0xC96C5795D7870F42)
  | _ => (16, 0x8408)

/-- The CRC of a byte string under R366. -/
def crc (p : Nat) (bs : List Byte) : Nat :=
  let (w, poly) := crcParams p
  Nat.xor (bs.foldl (crcByte poly) (2 ^ w - 1)) (2 ^ w - 1)

/-- The widest run of set bits among bits 0 to n−1 of a sweep: (first bit, length); the lowest of equal runs. -/
def widestRun (n x : Nat) : Nat × Nat :=
  let go := (List.range n).foldl (fun (st : (Nat × Nat) × (Nat × Nat)) i =>
    let (best, cur) := st
    if nbit x i then
      let cur' := if cur.2 = 0 then (i, 1) else (cur.1, cur.2 + 1)
      (if cur'.2 > best.2 then cur' else best, cur')
    else (best, (0, 0))) ((0, 0), (0, 0))
  go.1

/-- The centre of a run, rounded down. -/
def runCentre (r : Nat × Nat) : Nat := if r.2 = 0 then 0 else (r.1 + (r.1 + r.2 - 1)) / 2

end Sys2Proof.Machine
end

