-- ==== Sys2Proof/Machine/Fields.lean ====
section
/-!
DEFINITION. Sys2Proof/Machine/Fields.lean: the register fields the meanings name, each at the offset, bit and width its
register table of spec/ gives (the block is named where the field is used).
-/
namespace Sys2Proof.Machine

def R.BLOCK_CTRL.enable : Fld := ⟨0x8, 0, 1⟩
def R.BLOCK_STATUS.enabled : Fld := ⟨0x10, 0, 1⟩
def R.BLOCK_STATUS.quiescing : Fld := ⟨0x10, 1, 1⟩
def R.BLOCK_STATUS.wedged : Fld := ⟨0x10, 2, 1⟩
def R.BLOCK_STATUS.cfg_write_ignored : Fld := ⟨0x10, 3, 1⟩
def R.BLOCK_STATUS.locked_write : Fld := ⟨0x10, 4, 1⟩
def R.BLOCK_STATUS.fault : Fld := ⟨0x10, 5, 1⟩
def R.LAST_IGNORED.offset : Fld := ⟨0x18, 0, 16⟩
def R.LAST_IGNORED.port : Fld := ⟨0x18, 16, 2⟩
def R.LAST_IGNORED.alnen_slice : Fld := ⟨0x18, 18, 5⟩
def R.IGNORED_WRITES.count : Fld := ⟨0x20, 0, 32⟩
def R.LOCKED_WRITES.count : Fld := ⟨0x28, 0, 32⟩
def R.SNAP_SEQ.seq : Fld := ⟨0x30, 0, 32⟩
def R.DEVICE_STATE.state : Fld := ⟨0x100, 0, 3⟩
def R.DEVICE_STATE.hold_from_run : Fld := ⟨0x100, 3, 1⟩
def R.DEVICE_STATE.slice_wedged : Fld := ⟨0x100, 8, 17⟩
def R.DEVICE_STATE.dram_wedged : Fld := ⟨0x100, 32, 8⟩
def R.DEVICE_STATE.shared_wedged : Fld := ⟨0x100, 40, 10⟩
def R.DEVICE_STATE.rxg_wedged : Fld := ⟨0x108, 0, 16⟩
def R.DEVICE_STATE.txg_wedged : Fld := ⟨0x108, 16, 16⟩
def R.DEVICE_STATE.slice_retired : Fld := ⟨0x108, 32, 17⟩
def R.DEVICE_CTRL.run : Fld := ⟨0x110, 0, 1⟩
def R.DEVICE_CTRL.stop : Fld := ⟨0x110, 1, 1⟩
def R.DEVICE_CTRL.wake : Fld := ⟨0x110, 3, 1⟩
def R.DEVICE_CTRL.key : Fld := ⟨0x110, 8, 8⟩
def R.DEVICE_CTRL.last_cmd : Fld := ⟨0x110, 20, 3⟩
def R.DEVICE_CTRL.last_status : Fld := ⟨0x110, 23, 2⟩
def R.FATAL_VECTOR.vector : Fld := ⟨0x118, 0, 11⟩
def R.STRAPS.straps : Fld := ⟨0x120, 0, 4⟩
def R.MUSTER_CTRL.fire : Fld := ⟨0x40, 0, 1⟩
def R.MUSTER_CTRL.rearm : Fld := ⟨0x40, 1, 1⟩
def R.MUSTER_CTRL.auto_rearm : Fld := ⟨0x40, 2, 1⟩
def R.MUSTER_CTRL.in_enable : Fld := ⟨0x40, 3, 1⟩
def R.MUSTER_CTRL.out_enable : Fld := ⟨0x40, 4, 1⟩
def R.MUSTER_CTRL.sched_arm : Fld := ⟨0x40, 5, 1⟩
def R.MUSTER_CTRL.fatal_enable : Fld := ⟨0x40, 6, 1⟩
def R.MUSTER_CTRL.trig_enable : Fld := ⟨0x40, 7, 1⟩
def R.MUSTER_CTRL.trig_slice : Fld := ⟨0x40, 8, 5⟩
def R.MUSTER_CTRL.in_edge : Fld := ⟨0x40, 13, 1⟩
def R.MUSTER_STATUS.armed : Fld := ⟨0x48, 0, 1⟩
def R.MUSTER_STATUS.busy : Fld := ⟨0x48, 1, 1⟩
def R.MUSTER_STATUS.last_sources : Fld := ⟨0x48, 8, 5⟩
def R.MUSTER_STATUS.last_declined_sources : Fld := ⟨0x48, 16, 5⟩
def R.MUSTER_STATUS.missed_domains : Fld := ⟨0x48, 24, 6⟩
def R.MUSTER_STATUS.missed_link : Fld := ⟨0x48, 30, 1⟩
def R.MUSTER_SEQ.seq : Fld := ⟨0x50, 0, 32⟩
def R.MUSTER_T96.lo : Fld := ⟨0x60, 0, 64⟩
def R.MUSTER_BOUND.bound : Fld := ⟨0x70, 0, 16⟩
def R.MUSTER_SCHED_T96.lo : Fld := ⟨0x80, 0, 64⟩
def R.MUSTER_MISSED_LINK.rxg : Fld := ⟨0x90, 0, 16⟩
def R.MUSTER_MISSED_LINK.txg : Fld := ⟨0x90, 16, 16⟩
def R.MUSTER_DECLINED.count : Fld := ⟨0x98, 0, 32⟩
def R.RXG_CFG.rate : Fld := ⟨0x40, 0, 2⟩
def R.RXG_CFG.split : Fld := ⟨0x40, 2, 2⟩
def R.RXG_CFG.loopback : Fld := ⟨0x40, 4, 1⟩
def R.RXG_CFG.lane_enable : Fld := ⟨0x40, 16, 15⟩
def R.RXG_SS.enable (k : Nat) : Fld := ⟨0x48 + 0x8 * k, 0, 1⟩
def R.RXG_SS.format (k : Nat) : Fld := ⟨0x48 + 0x8 * k, 1, 3⟩
def R.RXG_SS.stream (k : Nat) : Fld := ⟨0x48 + 0x8 * k, 4, 6⟩
def R.RXG_SS.bonded (k : Nat) : Fld := ⟨0x48 + 0x8 * k, 10, 1⟩
def R.RXG_SS.member (k : Nat) : Fld := ⟨0x48 + 0x8 * k, 11, 3⟩
def R.RXG_SS.bond_size (k : Nat) : Fld := ⟨0x48 + 0x8 * k, 14, 3⟩
def R.RXG_STATUS.group_state : Fld := ⟨0x70, 0, 3⟩
def R.RXG_STATUS.ck_present : Fld := ⟨0x70, 3, 1⟩
def R.RXG_STATUS.rate_mismatch : Fld := ⟨0x70, 4, 1⟩
def R.RXG_STATUS.split_mismatch : Fld := ⟨0x70, 5, 1⟩
def R.RXG_STATUS.active_mask : Fld := ⟨0x70, 8, 15⟩
def R.RXG_STATUS.align_seq : Fld := ⟨0x70, 24, 16⟩
def R.RXG_STATUS.ss_state : Fld := ⟨0x70, 40, 15⟩
def R.RXG_STATUS.fmt_mismatch : Fld := ⟨0x70, 55, 5⟩
def R.RXG_CK.ck_dev : Fld := ⟨0x78, 0, 16⟩
def R.RXG_CK.ck_losses : Fld := ⟨0x78, 16, 16⟩
def R.RXG_SAMPLES.index (k : Nat) : Fld := ⟨0x80 + 0x8 * k, 0, 64⟩
def R.RXG_LOST.lost (k : Nat) : Fld := ⟨0xa8 + 0x8 * k, 0, 64⟩
def R.RXG_EPOCH_LAST.index : Fld := ⟨0xd0, 0, 48⟩
def R.RXG_EPOCH_LAST.sub_stream : Fld := ⟨0xd0, 48, 3⟩
def R.RXG_EPOCH_LAST.valid : Fld := ⟨0xd0, 51, 1⟩
def R.RXG_LINKCMD_LAST.body : Fld := ⟨0xd8, 0, 48⟩
def R.RXG_LINKCMD_LAST.valid : Fld := ⟨0xd8, 48, 1⟩
def R.RXG_ERRCNT0.ctrl_crc_errors : Fld := ⟨0xe0, 0, 32⟩
def R.RXG_ERRCNT0.unknown_rows : Fld := ⟨0xe0, 32, 32⟩
def R.RXG_ERRCNT1.count_slips : Fld := ⟨0xe8, 0, 32⟩
def R.RXG_ERRCNT1.mask_mismatches : Fld := ⟨0xe8, 32, 32⟩
def R.RXG_ERRCNT2.bad_ctrl_types : Fld := ⟨0xf0, 0, 32⟩
def R.RXG_ERRCNT2.late_ovr : Fld := ⟨0xf0, 32, 32⟩
def R.RXG_FERRY.level : Fld := ⟨0xf8, 0, 11⟩
def R.RXG_FERRY.high_water : Fld := ⟨0xf8, 16, 11⟩
def R.RXG_FERRY.discards : Fld := ⟨0xf8, 32, 32⟩
def R.RXG_FOM_CFG.fom_warn : Fld := ⟨0x100, 0, 8⟩
def R.RXG_FOM_CFG.fom_retire : Fld := ⟨0x100, 8, 8⟩
def R.RXG_FOM_CFG.auto_retire : Fld := ⟨0x100, 16, 1⟩
def R.RXG_LANE.state (k : Nat) : Fld := ⟨0x100 + 0x8 * k, 0, 3⟩
def R.RXG_LANE.ready (k : Nat) : Fld := ⟨0x100 + 0x8 * k, 3, 1⟩
def R.RXG_LANE.id_mismatch (k : Nat) : Fld := ⟨0x100 + 0x8 * k, 4, 1⟩
def R.RXG_LANE.lock_lost (k : Nat) : Fld := ⟨0x100 + 0x8 * k, 5, 1⟩
def R.RXG_LANE.fom_warn (k : Nat) : Fld := ⟨0x100 + 0x8 * k, 6, 1⟩
def R.RXG_LANE.fom (k : Nat) : Fld := ⟨0x100 + 0x8 * k, 8, 8⟩
def R.RXG_LANE.skew (k : Nat) : Fld := ⟨0x100 + 0x8 * k, 16, 5⟩
def R.RXG_LANE_ERR.invalid_headers (k : Nat) : Fld := ⟨0x200 + 0x8 * k, 0, 32⟩
def R.RXG_LANE_ERR.lock_losses (k : Nat) : Fld := ⟨0x200 + 0x8 * k, 32, 16⟩
def R.RXG_LANE_ERR.align_misses (k : Nat) : Fld := ⟨0x200 + 0x8 * k, 48, 16⟩
def R.RXG_EQ.ctle (k : Nat) : Fld := ⟨0x280 + 0x8 * k, 0, 5⟩
def R.RXG_EQ.dfe (k : Nat) : Fld := ⟨0x280 + 0x8 * k, 8, 40⟩
def R.RXG_EQ.adapt_freeze (k : Nat) : Fld := ⟨0x280 + 0x8 * k, 48, 1⟩
def R.RXG_EQ.invert (k : Nat) : Fld := ⟨0x280 + 0x8 * k, 49, 1⟩
def R.RXG_PRBS.pattern (k : Nat) : Fld := ⟨0x300 + 0x8 * k, 0, 2⟩
def R.RXG_PRBS.check (k : Nat) : Fld := ⟨0x300 + 0x8 * k, 2, 1⟩
def R.RXG_PRBS.sync (k : Nat) : Fld := ⟨0x300 + 0x8 * k, 3, 1⟩
def R.RXG_PRBS.errors (k : Nat) : Fld := ⟨0x300 + 0x8 * k, 16, 48⟩
def R.RXG_PRBS_BITS.bits (k : Nat) : Fld := ⟨0x380 + 0x8 * k, 0, 48⟩
def R.RXG_PRBS_BITS.sync_losses (k : Nat) : Fld := ⟨0x380 + 0x8 * k, 48, 16⟩
def R.TXG_CFG.rate : Fld := ⟨0x40, 0, 2⟩
def R.TXG_CFG.split : Fld := ⟨0x40, 2, 2⟩
def R.TXG_CFG.return_mode : Fld := ⟨0x40, 4, 1⟩
def R.TXG_CFG.rate_offset : Fld := ⟨0x40, 5, 5⟩
def R.TXG_CFG.loop_drive : Fld := ⟨0x40, 10, 1⟩
def R.TXG_CFG.lane_enable : Fld := ⟨0x40, 16, 15⟩
def R.TXG_SS.enable (k : Nat) : Fld := ⟨0x48 + 0x8 * k, 0, 1⟩
def R.TXG_SS.format (k : Nat) : Fld := ⟨0x48 + 0x8 * k, 1, 3⟩
def R.TXG_SS.bonded (k : Nat) : Fld := ⟨0x48 + 0x8 * k, 10, 1⟩
def R.TXG_SS.member (k : Nat) : Fld := ⟨0x48 + 0x8 * k, 11, 3⟩
def R.TXG_SS.bond_size (k : Nat) : Fld := ⟨0x48 + 0x8 * k, 14, 3⟩
def R.TXG_STATUS.state : Fld := ⟨0x70, 0, 3⟩
def R.TXG_STATUS.pll_conflict : Fld := ⟨0x70, 3, 1⟩
def R.TXG_STATUS.active_mask : Fld := ⟨0x70, 8, 15⟩
def R.TXG_STATUS.align_seq : Fld := ⟨0x70, 24, 16⟩
def R.TXG_STATUS.ss_running : Fld := ⟨0x70, 40, 5⟩
def R.TXG_SAMPLES.index (k : Nat) : Fld := ⟨0x80 + 0x8 * k, 0, 64⟩
def R.TXG_UNDERRUN.rows (k : Nat) : Fld := ⟨0xa8 + 0x8 * k, 0, 64⟩
def R.TXG_LINKCMD.cmd : Fld := ⟨0xd0, 0, 4⟩
def R.TXG_LINKCMD.lane : Fld := ⟨0xd0, 4, 4⟩
def R.TXG_LINKCMD.arg : Fld := ⟨0xd0, 8, 8⟩
def R.TXG_LINKCMD.tag : Fld := ⟨0xd0, 16, 8⟩
def R.TXG_LINKCMD.send : Fld := ⟨0xd0, 24, 1⟩
def R.TXG_LINKCMD.status : Fld := ⟨0xd0, 25, 2⟩
def R.TXG_LINKCMD.eff_seq : Fld := ⟨0xd0, 32, 16⟩
def R.TXG_FERRY.level : Fld := ⟨0xf8, 0, 11⟩
def R.TXG_FERRY.high_water : Fld := ⟨0xf8, 16, 11⟩
def R.TXG_LANE.preset (k : Nat) : Fld := ⟨0x100 + 0x8 * k, 0, 3⟩
def R.TXG_LANE.invert (k : Nat) : Fld := ⟨0x100 + 0x8 * k, 3, 1⟩
def R.TXG_LANE.retire (k : Nat) : Fld := ⟨0x100 + 0x8 * k, 4, 1⟩
def R.TXG_LANE.restore (k : Nat) : Fld := ⟨0x100 + 0x8 * k, 5, 1⟩
def R.TXG_LANE.retired (k : Nat) : Fld := ⟨0x100 + 0x8 * k, 6, 1⟩
def R.TXG_LANE.refused (k : Nat) : Fld := ⟨0x100 + 0x8 * k, 7, 1⟩
def R.TXG_PRBS.pattern (k : Nat) : Fld := ⟨0x300 + 0x8 * k, 0, 2⟩
def R.TXG_PRBS.generate (k : Nat) : Fld := ⟨0x300 + 0x8 * k, 2, 1⟩
def R.TXG_PRBS.inject_mode (k : Nat) : Fld := ⟨0x300 + 0x8 * k, 3, 2⟩
def R.TXG_PRBS.inject (k : Nat) : Fld := ⟨0x300 + 0x8 * k, 5, 1⟩
def R.TXG_PRBS.burst_len (k : Nat) : Fld := ⟨0x300 + 0x8 * k, 6, 8⟩
def R.TXG_PRBS.rate_exp (k : Nat) : Fld := ⟨0x300 + 0x8 * k, 14, 5⟩
def R.TXG_PRBS.injected (k : Nat) : Fld := ⟨0x300 + 0x8 * k, 32, 32⟩
def R.FILT_CFG.nco_enable : Fld := ⟨0x40, 0, 1⟩
def R.FILT_CFG.r2c_active : Fld := ⟨0x40, 1, 1⟩
def R.FILT_CFG.hb_stages : Fld := ⟨0x40, 2, 4⟩
def R.FILT_CFG.fir_enable : Fld := ⟨0x40, 6, 1⟩
def R.FILT_CFG.fir_decim : Fld := ⟨0x40, 7, 4⟩
def R.FILT_CFG.gain_shift : Fld := ⟨0x40, 11, 3⟩
def R.FILT_CFG.settle_on_retune : Fld := ⟨0x40, 14, 1⟩
def R.FILT_CFG.fade_exp : Fld := ⟨0x40, 16, 4⟩
def R.FILT_HB.design : Fld := ⟨0x48, 0, 30⟩
def R.NCO_FCW_STAGE.fcw : Fld := ⟨0x50, 0, 48⟩
def R.NCO_PHASE_STAGE.phase : Fld := ⟨0x58, 0, 48⟩
def R.NCO_PHASE_STAGE.coherent : Fld := ⟨0x58, 48, 1⟩
def R.FIR_BANK_STAGE.bank : Fld := ⟨0x60, 0, 2⟩
def R.FIR_BANK_STAGE.fade : Fld := ⟨0x60, 2, 1⟩
def R.FILT_COMMIT.retune : Fld := ⟨0x68, 0, 1⟩
def R.FILT_COMMIT.switch : Fld := ⟨0x68, 1, 1⟩
def R.FILT_COMMIT.last_cmd : Fld := ⟨0x68, 8, 2⟩
def R.FILT_COMMIT.last_status : Fld := ⟨0x68, 10, 2⟩
def R.FILT_STATUS.state : Fld := ⟨0x70, 0, 2⟩
def R.FILT_STATUS.fading : Fld := ⟨0x70, 2, 1⟩
def R.FILT_STATUS.active_bank : Fld := ⟨0x70, 3, 2⟩
def R.FILT_STATUS.fade_target : Fld := ⟨0x70, 5, 2⟩
def R.FILT_STATUS.fade_remaining : Fld := ⟨0x70, 7, 13⟩
def R.FILT_STATUS.retune_pending : Fld := ⟨0x70, 20, 1⟩
def R.FILT_STATUS.switch_pending : Fld := ⟨0x70, 21, 1⟩
def R.FILT_STATUS.suppress_remaining : Fld := ⟨0x70, 32, 32⟩
def R.GROUP_DELAY.fraction : Fld := ⟨0x78, 0, 8⟩
def R.GROUP_DELAY.integer : Fld := ⟨0x78, 8, 24⟩
def R.CHAIN_GEOM.decim_total : Fld := ⟨0x80, 0, 16⟩
def R.CHAIN_GEOM.window_len : Fld := ⟨0x80, 16, 24⟩
def R.NCO_FCW.fcw : Fld := ⟨0x88, 0, 48⟩
def R.NCO_PHASE_BASE.phase : Fld := ⟨0x90, 0, 48⟩
def R.NCO_INDEX_BASE.index : Fld := ⟨0x98, 0, 64⟩
def R.OUT_INDEX.index : Fld := ⟨0xa0, 0, 64⟩
def R.SETTLE_SUPPRESSED.count : Fld := ⟨0xa8, 0, 64⟩
def R.OVR_OUTPUTS.count : Fld := ⟨0xb0, 0, 64⟩
def R.FILT_COUNTS.sat_events : Fld := ⟨0xb8, 0, 32⟩
def R.FILT_COUNTS.fade_downgraded : Fld := ⟨0xb8, 32, 32⟩
def R.RESIDUE_CTRL.residue_limit : Fld := ⟨0xc0, 0, 8⟩
def R.RESIDUE_CTRL.residue_errors : Fld := ⟨0xc0, 32, 32⟩
def R.FILT_FAULT.cfg_invalid : Fld := ⟨0xc8, 0, 1⟩
def R.FILT_FAULT.residue : Fld := ⟨0xc8, 1, 1⟩
def R.FILT_FAULT.coef_ecc : Fld := ⟨0xc8, 2, 1⟩
def R.FILT_FAULT.bank_load_refused : Fld := ⟨0xc8, 3, 1⟩
def R.FILT_FAULT.takeover_requested : Fld := ⟨0xc8, 4, 1⟩
def R.FILT_FAULT.switch_refused : Fld := ⟨0xc8, 5, 1⟩
def R.FIR_BANK.laddr (k : Nat) : Fld := ⟨0x100 + 0x8 * k, 0, 20⟩
def R.FIR_BANK.length (k : Nat) : Fld := ⟨0x100 + 0x8 * k, 20, 9⟩
def R.FIR_BANK.load (k : Nat) : Fld := ⟨0x100 + 0x8 * k, 29, 1⟩
def R.FIR_BANK.loaded (k : Nat) : Fld := ⟨0x100 + 0x8 * k, 30, 1⟩
def R.XF_CFG.log2n : Fld := ⟨0x400, 0, 5⟩
def R.XF_CFG.overlap : Fld := ⟨0x400, 5, 2⟩
def R.XF_CFG.direction : Fld := ⟨0x400, 7, 2⟩
def R.XF_CFG.real_ref : Fld := ⟨0x400, 9, 1⟩
def R.XF_GANG.size_m1 : Fld := ⟨0x408, 0, 3⟩
def R.XF_GANG.member : Fld := ⟨0x408, 3, 3⟩
def R.XF_GANG.lead_slice : Fld := ⟨0x408, 8, 5⟩
def R.WIN_STAGE.store : Fld := ⟨0x410, 0, 1⟩
def R.WIN_STORE.type (k : Nat) : Fld := ⟨0x418 + 0x8 * k, 0, 3⟩
def R.WIN_STORE.param (k : Nat) : Fld := ⟨0x418 + 0x8 * k, 3, 4⟩
def R.WIN_STORE.log2t (k : Nat) : Fld := ⟨0x418 + 0x8 * k, 27, 5⟩
def R.WIN_STORE.load (k : Nat) : Fld := ⟨0x418 + 0x8 * k, 32, 1⟩
def R.WIN_STORE.loaded (k : Nat) : Fld := ⟨0x418 + 0x8 * k, 33, 1⟩
def R.WIN_STORE.n_loaded (k : Nat) : Fld := ⟨0x418 + 0x8 * k, 34, 5⟩
def R.XF_COMMIT.window : Fld := ⟨0x428, 0, 1⟩
def R.XF_COMMIT.last_cmd : Fld := ⟨0x428, 8, 2⟩
def R.XF_COMMIT.last_status : Fld := ⟨0x428, 10, 2⟩
def R.XF_STATUS.state : Fld := ⟨0x430, 0, 2⟩
def R.XF_STATUS.active_store : Fld := ⟨0x430, 2, 1⟩
def R.XF_STATUS.window_pending : Fld := ⟨0x430, 3, 1⟩
def R.XF_STATUS.load_busy : Fld := ⟨0x430, 4, 1⟩
def R.XF_STATUS.last_exp : Fld := ⟨0x430, 8, 6⟩
def R.XF_FRAME.frame : Fld := ⟨0x438, 0, 64⟩
def R.PWR_REF.ref128 : Fld := ⟨0x440, 0, 16⟩
def R.PWR_REF.pwr_offset : Fld := ⟨0x440, 16, 16⟩
def R.WIN_INFO.sum (k : Nat) : Fld := ⟨0x450 + 0x10 * k, 0, 36⟩
def R.WIN_INFO.enbw (k : Nat) : Fld := ⟨0x450 + 0x10 * k, 36, 24⟩
def R.WIN_INFO.ref_c (k : Nat) : Fld := ⟨0x458 + 0x10 * k, 0, 16⟩
def R.WIN_READ.addr : Fld := ⟨0x470, 0, 16⟩
def R.WIN_READ.store : Fld := ⟨0x470, 16, 1⟩
def R.WIN_READ.value : Fld := ⟨0x470, 32, 18⟩
def R.XF_FRAMES.count : Fld := ⟨0x478, 0, 64⟩
def R.XF_COUNTS.frames_skipped : Fld := ⟨0x480, 0, 32⟩
def R.XF_COUNTS.frames_late : Fld := ⟨0x480, 32, 32⟩
def R.XF_RESIDUE.residue_errors : Fld := ⟨0x488, 0, 32⟩
def R.XF_FAULT.cfg_invalid : Fld := ⟨0x490, 0, 1⟩
def R.XF_FAULT.residue : Fld := ⟨0x490, 1, 1⟩
def R.XF_FAULT.win_ecc : Fld := ⟨0x490, 2, 1⟩
def R.XF_FAULT.load_refused : Fld := ⟨0x490, 3, 1⟩
def R.XF_FAULT.select_refused : Fld := ⟨0x490, 4, 1⟩
def R.XF_LOAD.load_permille : Fld := ⟨0x498, 0, 11⟩
def R.XF_MEM.base : Fld := ⟨0x4a0, 0, 20⟩
def R.XF_MEM.size : Fld := ⟨0x4a0, 20, 24⟩
def R.TRIG_CFG.auto_rearm : Fld := ⟨0x40, 0, 1⟩
def R.TRIG_CFG.interp : Fld := ⟨0x40, 1, 1⟩
def R.TRIG_CFG.window_enable : Fld := ⟨0x40, 2, 1⟩
def R.TRIG_CFG.bus_request : Fld := ⟨0x40, 8, 8⟩
def R.TRIG_HOLDOFF.holdoff : Fld := ⟨0x48, 0, 40⟩
def R.TRIG_CAPTURE.pre_len : Fld := ⟨0x50, 0, 32⟩
def R.TRIG_CAPTURE.post_len : Fld := ⟨0x50, 32, 32⟩
def R.TRIG_CTRL.arm : Fld := ⟨0x58, 0, 1⟩
def R.TRIG_CTRL.commit : Fld := ⟨0x58, 3, 1⟩
def R.TRIG_CTRL.timer_arm : Fld := ⟨0x58, 4, 1⟩
def R.TRIG_CTRL.last_cmd : Fld := ⟨0x58, 8, 3⟩
def R.TRIG_CTRL.last_status : Fld := ⟨0x58, 11, 2⟩
def R.TRIG_STATUS.arm_state : Fld := ⟨0x60, 0, 3⟩
def R.TRIG_STATUS.commit_pending : Fld := ⟨0x60, 3, 1⟩
def R.TRIG_STATUS.timer_pending : Fld := ⟨0x60, 4, 1⟩
def R.TRIG_STATUS.cond_state : Fld := ⟨0x60, 8, 16⟩
def R.TRIG_EVAL.index : Fld := ⟨0x68, 0, 64⟩
def R.TRIG_WIN_START.lo : Fld := ⟨0x70, 0, 64⟩
def R.TRIG_WIN_END.lo : Fld := ⟨0x80, 0, 64⟩
def R.TIMER_T96.lo : Fld := ⟨0x90, 0, 64⟩
def R.TERM_STAGE.req (k : Nat) : Fld := ⟨0xa0 + 0x8 * k, 0, 16⟩
def R.TERM_STAGE.neg (k : Nat) : Fld := ⟨0xa0 + 0x8 * k, 16, 16⟩
def R.TERM.req (k : Nat) : Fld := ⟨0xc0 + 0x8 * k, 0, 16⟩
def R.TERM.neg (k : Nat) : Fld := ⟨0xc0 + 0x8 * k, 16, 16⟩
def R.TD_CFG.type (k : Nat) : Fld := ⟨0x100 + 0x20 * k, 0, 2⟩
def R.TD_CFG.source (k : Nat) : Fld := ⟨0x100 + 0x20 * k, 2, 2⟩
def R.TD_CFG.tap (k : Nat) : Fld := ⟨0x100 + 0x20 * k, 4, 1⟩
def R.TD_CFG.polarity (k : Nat) : Fld := ⟨0x100 + 0x20 * k, 5, 1⟩
def R.TD_CFG.fast (k : Nat) : Fld := ⟨0x100 + 0x20 * k, 6, 1⟩
def R.TD_CFG.hyst (k : Nat) : Fld := ⟨0x100 + 0x20 * k, 8, 24⟩
def R.TD_CFG.dur (k : Nat) : Fld := ⟨0x100 + 0x20 * k, 32, 16⟩
def R.TD_THR_STAGE.thr (k : Nat) : Fld := ⟨0x108 + 0x20 * k, 0, 24⟩
def R.TD_THR_STAGE.thr2 (k : Nat) : Fld := ⟨0x108 + 0x20 * k, 24, 24⟩
def R.TD_WIDTH.wmin (k : Nat) : Fld := ⟨0x110 + 0x20 * k, 0, 32⟩
def R.TD_WIDTH.wmax (k : Nat) : Fld := ⟨0x110 + 0x20 * k, 32, 32⟩
def R.TD_THR.thr (k : Nat) : Fld := ⟨0x118 + 0x20 * k, 0, 24⟩
def R.TD_THR.thr2 (k : Nat) : Fld := ⟨0x118 + 0x20 * k, 24, 24⟩
def R.FM_CFG.mode (k : Nat) : Fld := ⟨0x180 + 0x20 * k, 0, 2⟩
def R.FM_CFG.hyst (k : Nat) : Fld := ⟨0x180 + 0x20 * k, 2, 8⟩
def R.FM_CFG.min_bins_m1 (k : Nat) : Fld := ⟨0x180 + 0x20 * k, 10, 16⟩
def R.FM_CFG.dur (k : Nat) : Fld := ⟨0x180 + 0x20 * k, 26, 12⟩
def R.FM_STAGE.laddr (k : Nat) : Fld := ⟨0x188 + 0x20 * k, 0, 20⟩
def R.FM_ACTIVE.laddr (k : Nat) : Fld := ⟨0x190 + 0x20 * k, 0, 20⟩
def R.FM_PEAK.position (k : Nat) : Fld := ⟨0x198 + 0x20 * k, 0, 16⟩
def R.FM_PEAK.excess (k : Nat) : Fld := ⟨0x198 + 0x20 * k, 16, 16⟩
def R.FM_PEAK.violated (k : Nat) : Fld := ⟨0x198 + 0x20 * k, 32, 17⟩
def R.DN_CFG.plane (k : Nat) : Fld := ⟨0x1c0 + 0x20 * k, 0, 2⟩
def R.DN_CFG.mode (k : Nat) : Fld := ⟨0x1c0 + 0x20 * k, 2, 2⟩
def R.DN_CFG.col0 (k : Nat) : Fld := ⟨0x1c0 + 0x20 * k, 4, 11⟩
def R.DN_CFG.col1 (k : Nat) : Fld := ⟨0x1c0 + 0x20 * k, 15, 11⟩
def R.DN_CFG.row0 (k : Nat) : Fld := ⟨0x1c0 + 0x20 * k, 26, 8⟩
def R.DN_CFG.row1 (k : Nat) : Fld := ⟨0x1c0 + 0x20 * k, 34, 8⟩
def R.DN_CFG.k_m1 (k : Nat) : Fld := ⟨0x1c0 + 0x20 * k, 42, 8⟩
def R.DN_THR_STAGE.thr (k : Nat) : Fld := ⟨0x1c8 + 0x20 * k, 0, 24⟩
def R.DN_THR.thr (k : Nat) : Fld := ⟨0x1d0 + 0x20 * k, 0, 24⟩
def R.DN_SUM.sum (k : Nat) : Fld := ⟨0x1d8 + 0x20 * k, 0, 24⟩
def R.DN_SUM.defined (k : Nat) : Fld := ⟨0x1d8 + 0x20 * k, 24, 1⟩
def R.BUS_SEL.line0 : Fld := ⟨0x200, 0, 3⟩
def R.BUS_SEL.en0 : Fld := ⟨0x200, 3, 1⟩
def R.BUS_SEL.line1 : Fld := ⟨0x200, 4, 3⟩
def R.BUS_SEL.en1 : Fld := ⟨0x200, 7, 1⟩
def R.TRIG_COUNTS.accepted : Fld := ⟨0x208, 0, 32⟩
def R.TRIG_COUNTS.declined : Fld := ⟨0x208, 32, 32⟩
def R.TRIG_COUNTS2.disarmed_candidates : Fld := ⟨0x210, 0, 32⟩
def R.TRIG_COUNTS2.late_events : Fld := ⟨0x210, 32, 16⟩
def R.TRIG_COUNTS2.out_of_window : Fld := ⟨0x210, 48, 16⟩
def R.TRIG_LAST.lo : Fld := ⟨0x218, 0, 64⟩
def R.TRIG_LAST_INFO.cond_mask : Fld := ⟨0x228, 0, 16⟩
def R.TRIG_LAST_INFO.cause : Fld := ⟨0x228, 16, 4⟩
def R.TRIG_LAST_INFO.number : Fld := ⟨0x228, 32, 32⟩
def R.TRIG_FAULT.cfg_invalid : Fld := ⟨0x230, 0, 1⟩
def R.TRIG_FAULT.residue : Fld := ⟨0x230, 1, 1⟩
def R.TRIG_FAULT.mask_ecc : Fld := ⟨0x230, 2, 1⟩
def R.TRIG_LOG_HEAD.head : Fld := ⟨0x238, 0, 6⟩
def R.TBUS_CFG.master : Fld := ⟨0x40, 0, 1⟩
def R.TBUS_CFG.bus_mode : Fld := ⟨0x40, 1, 1⟩
def R.TBUS_CFG.line_enable : Fld := ⟨0x40, 2, 8⟩
def R.TBUS_CFG.listen : Fld := ⟨0x40, 10, 8⟩
def R.TBUS_STATUS.sync_locked : Fld := ⟨0x48, 0, 1⟩
def R.TBUS_STATUS.phase : Fld := ⟨0x48, 1, 3⟩
def R.TBUS_STATUS.cycle : Fld := ⟨0x48, 16, 16⟩
def R.TBUS_STATUS.nak_last : Fld := ⟨0x48, 32, 8⟩
def R.TBUS_SKEW.skew : Fld := ⟨0x50, 0, 16⟩
def R.TBUS_SKEW.unc : Fld := ⟨0x50, 16, 16⟩
def R.TBUS_LINE.lead (k : Nat) : Fld := ⟨0x80 + 0x8 * k, 0, 24⟩
def R.TBUS_LINE.unc (k : Nat) : Fld := ⟨0x80 + 0x8 * k, 24, 8⟩
def R.TBUS_COUNT.requests_sent (k : Nat) : Fld := ⟨0xc0 + 0x8 * k, 0, 16⟩
def R.TBUS_COUNT.requests_seen (k : Nat) : Fld := ⟨0xc0 + 0x8 * k, 16, 16⟩
def R.TBUS_COUNT.naks_seen (k : Nat) : Fld := ⟨0xc0 + 0x8 * k, 32, 16⟩
def R.TBUS_COUNT.merged (k : Nat) : Fld := ⟨0xc0 + 0x8 * k, 48, 16⟩
def R.TRIG_IN_CFG.enable (k : Nat) : Fld := ⟨0x100 + 0x8 * k, 0, 1⟩
def R.TRIG_IN_CFG.edge (k : Nat) : Fld := ⟨0x100 + 0x8 * k, 1, 1⟩
def R.TRIG_IN_COUNT.in0 : Fld := ⟨0x180, 0, 16⟩
def R.TRIG_IN_COUNT.in1 : Fld := ⟨0x180, 16, 16⟩
def R.TRIG_IN_COUNT.in2 : Fld := ⟨0x180, 32, 16⟩
def R.TRIG_IN_COUNT.in3 : Fld := ⟨0x180, 48, 16⟩
def R.TRIG_OUT_CFG.source (k : Nat) : Fld := ⟨0x200 + 0x8 * k, 0, 3⟩
def R.TRIG_OUT_CFG.slice (k : Nat) : Fld := ⟨0x200 + 0x8 * k, 3, 5⟩
def R.TRIG_OUT_CFG.index (k : Nat) : Fld := ⟨0x200 + 0x8 * k, 8, 3⟩
def R.TRIG_OUT_CFG.polarity (k : Nat) : Fld := ⟨0x200 + 0x8 * k, 11, 1⟩
def R.TRIG_OUT_CFG.level_mode (k : Nat) : Fld := ⟨0x200 + 0x8 * k, 12, 1⟩
def R.TRIG_OUT_CFG.sw_level (k : Nat) : Fld := ⟨0x200 + 0x8 * k, 13, 1⟩
def R.TRIG_OUT_CFG.width (k : Nat) : Fld := ⟨0x200 + 0x8 * k, 16, 16⟩
def R.REC_CFG.rec_max_log2 : Fld := ⟨0x40, 0, 5⟩
def R.REC_CFG.spectrum_ring : Fld := ⟨0x40, 5, 1⟩
def R.MEAS_CFG.meas_timeout : Fld := ⟨0x48, 0, 32⟩
def R.CAP_CFG.store_format : Fld := ⟨0x50, 0, 1⟩
def R.CAP_CFG.slots : Fld := ⟨0x50, 1, 24⟩
def R.CAP_RING.base : Fld := ⟨0x58, 0, 40⟩
def R.CAP_CTRL.continuous : Fld := ⟨0x60, 2, 1⟩
def R.CAP_STATUS.head : Fld := ⟨0x68, 0, 64⟩
def R.RED_CFG.enable (k : Nat) : Fld := ⟨0x80 + 0x10 * k, 0, 1⟩
def R.RED_CFG.complex (k : Nat) : Fld := ⟨0x80 + 0x10 * k, 1, 1⟩
def R.RED_CFG.log2b (k : Nat) : Fld := ⟨0x80 + 0x10 * k, 2, 4⟩
def R.RED_CFG.k_m1 (k : Nat) : Fld := ⟨0x80 + 0x10 * k, 6, 20⟩
def R.RED_CFG.p0 (k : Nat) : Fld := ⟨0x88 + 0x10 * k, 0, 16⟩
def R.RED_CFG.count (k : Nat) : Fld := ⟨0x88 + 0x10 * k, 16, 17⟩
def R.SGRAM_CFG.base : Fld := ⟨0xd0, 0, 40⟩
def R.SGRAM_CFG.log2rows : Fld := ⟨0xd0, 40, 5⟩
def R.SGRAM_CFG.reduction : Fld := ⟨0xd0, 45, 3⟩
def R.SGRAM_HEAD.interval : Fld := ⟨0xd8, 0, 64⟩
def R.DENS_CFG.enable (k : Nat) : Fld := ⟨0x100 + 0x10 * k, 0, 1⟩
def R.DENS_CFG.log2b (k : Nat) : Fld := ⟨0x100 + 0x10 * k, 1, 4⟩
def R.DENS_CFG.cols_m1 (k : Nat) : Fld := ⟨0x100 + 0x10 * k, 5, 11⟩
def R.DENS_CFG.rows_m1 (k : Nat) : Fld := ⟨0x100 + 0x10 * k, 16, 8⟩
def R.DENS_CFG.p0 (k : Nat) : Fld := ⟨0x100 + 0x10 * k, 24, 16⟩
def R.DENS_CFG.k_m1 (k : Nat) : Fld := ⟨0x100 + 0x10 * k, 40, 20⟩
def R.DENS_CFG.top (k : Nat) : Fld := ⟨0x108 + 0x10 * k, 0, 16⟩
def R.DENS_CFG.step (k : Nat) : Fld := ⟨0x108 + 0x10 * k, 16, 12⟩
def R.DENS_SAT.sat_count (k : Nat) : Fld := ⟨0x140 + 0x8 * k, 0, 64⟩
def R.REC_CLASS.enable (k : Nat) : Fld := ⟨0x180 + 0x8 * k, 0, 1⟩
def R.REC_CLASS.queue (k : Nat) : Fld := ⟨0x180 + 0x8 * k, 1, 20⟩
def R.REC_CLASS.check_unit (k : Nat) : Fld := ⟨0x180 + 0x8 * k, 21, 6⟩
def R.REC_CLASS.meas_enable (k : Nat) : Fld := ⟨0x180 + 0x8 * k, 27, 1⟩
def R.REC_OPEN.class_ : Fld := ⟨0x1e0, 0, 4⟩
def R.REC_OPEN.held : Fld := ⟨0x1e0, 4, 1⟩
def R.REC_OPEN.records_held : Fld := ⟨0x1e0, 5, 3⟩
def R.REC_OPEN.sequence : Fld := ⟨0x1e0, 8, 24⟩
def R.REC_COUNTS.sealed : Fld := ⟨0x1e8, 0, 32⟩
def R.REC_COUNTS.abandoned : Fld := ⟨0x1e8, 32, 32⟩
def R.REC_COUNTS2.gap_records : Fld := ⟨0x1f0, 0, 16⟩
def R.REC_COUNTS2.meas_missed : Fld := ⟨0x1f0, 16, 16⟩
def R.REC_COUNTS2.overrun_abandoned : Fld := ⟨0x1f0, 32, 16⟩
def R.REC_COUNTS2.intervals_empty : Fld := ⟨0x1f0, 48, 16⟩
def R.REC_FAULT.cfg_invalid : Fld := ⟨0x1f8, 0, 1⟩
def R.REC_FAULT.residue : Fld := ⟨0x1f8, 1, 1⟩
def R.REC_FAULT.meas_invalid : Fld := ⟨0x1f8, 2, 1⟩
def R.CHAN_TOTAL.channelise_slices : Fld := ⟨0x40, 0, 17⟩
def R.CHAN_TOTAL.selected : Fld := ⟨0x40, 32, 17⟩
def R.CHAN_CFG.log2m (k : Nat) : Fld := ⟨0x100 + 0x40 * k, 0, 4⟩
def R.CHAN_CFG.oversample (k : Nat) : Fld := ⟨0x100 + 0x40 * k, 4, 1⟩
def R.CHAN_CFG.taps (k : Nat) : Fld := ⟨0x100 + 0x40 * k, 5, 2⟩
def R.CHAN_CFG.proto_user (k : Nat) : Fld := ⟨0x100 + 0x40 * k, 7, 1⟩
def R.CHAN_CFG.proto_laddr (k : Nat) : Fld := ⟨0x100 + 0x40 * k, 8, 20⟩
def R.CHAN_CFG.gain (k : Nat) : Fld := ⟨0x100 + 0x40 * k, 28, 4⟩
def R.CHAN_CFG.format (k : Nat) : Fld := ⟨0x100 + 0x40 * k, 32, 1⟩
def R.CHAN_CFG.queue_mode (k : Nat) : Fld := ⟨0x100 + 0x40 * k, 33, 1⟩
def R.CHAN_CFG.k_m1 (k : Nat) : Fld := ⟨0x100 + 0x40 * k, 34, 10⟩
def R.CHAN_MAP.qbase (k : Nat) : Fld := ⟨0x108 + 0x40 * k, 0, 20⟩
def R.CHAN_MAP.check_unit (k : Nat) : Fld := ⟨0x108 + 0x40 * k, 20, 6⟩
def R.CHAN_SEL.stage_laddr (k : Nat) : Fld := ⟨0x110 + 0x40 * k, 0, 20⟩
def R.CHAN_SEL.active_laddr (k : Nat) : Fld := ⟨0x110 + 0x40 * k, 20, 20⟩
def R.CHAN_SEL.selected (k : Nat) : Fld := ⟨0x110 + 0x40 * k, 40, 13⟩
def R.CHAN_CTRL.commit (k : Nat) : Fld := ⟨0x118 + 0x40 * k, 0, 1⟩
def R.CHAN_CTRL.state (k : Nat) : Fld := ⟨0x118 + 0x40 * k, 1, 2⟩
def R.CHAN_CTRL.last_status (k : Nat) : Fld := ⟨0x118 + 0x40 * k, 3, 2⟩
def R.CHAN_INDEX.index (k : Nat) : Fld := ⟨0x120 + 0x40 * k, 0, 64⟩
def R.CHAN_COUNTS.records_sealed (k : Nat) : Fld := ⟨0x128 + 0x40 * k, 0, 32⟩
def R.CHAN_COUNTS.records_abandoned (k : Nat) : Fld := ⟨0x128 + 0x40 * k, 32, 32⟩
def R.CHAN_COUNTS2.suppressed (k : Nat) : Fld := ⟨0x130 + 0x40 * k, 0, 32⟩
def R.CHAN_COUNTS2.sat_events (k : Nat) : Fld := ⟨0x130 + 0x40 * k, 32, 32⟩
def R.CHAN_FAULT.cfg_invalid (k : Nat) : Fld := ⟨0x138 + 0x40 * k, 0, 1⟩
def R.CHAN_FAULT.residue (k : Nat) : Fld := ⟨0x138 + 0x40 * k, 1, 1⟩
def R.CHAN_FAULT.proto_ecc (k : Nat) : Fld := ⟨0x138 + 0x40 * k, 2, 1⟩
def R.CHAN_FAULT.select_refused (k : Nat) : Fld := ⟨0x138 + 0x40 * k, 3, 1⟩
def R.QUEUE_CFG.table_base : Fld := ⟨0x40, 0, 40⟩
def R.QUEUE_CFG.full_wait : Fld := ⟨0x40, 40, 10⟩
def R.QUEUE_CMD.op : Fld := ⟨0x48, 0, 3⟩
def R.QUEUE_CMD.queue : Fld := ⟨0x48, 3, 20⟩
def R.QUEUE_CMD.go : Fld := ⟨0x48, 23, 1⟩
def R.QUEUE_CMD.last_status : Fld := ⟨0x48, 24, 2⟩
def R.QUEUE_CMD.last_cause : Fld := ⟨0x48, 26, 2⟩
def R.QUEUE_DOORBELL.queue : Fld := ⟨0xa0, 0, 20⟩
def R.QUEUE_DOORBELL.consumed : Fld := ⟨0xa0, 20, 36⟩
def R.QUEUE_COUNTS.refused : Fld := ⟨0xa8, 0, 32⟩
def R.QUEUE_COUNTS.doorbell_invalid : Fld := ⟨0xa8, 32, 16⟩
def R.QUEUE_COUNTS.doorbell_partial : Fld := ⟨0xa8, 48, 16⟩
def R.QUEUE_CACHE.misses : Fld := ⟨0xb0, 0, 32⟩
def R.QUEUE_CACHE.set_conflicts : Fld := ⟨0xb0, 32, 16⟩
def R.QUEUE_CACHE.writebacks : Fld := ⟨0xb0, 48, 16⟩
def R.QUEUE_PUBLISHED.count : Fld := ⟨0xb8, 0, 64⟩
def R.QUEUE_FAULT.ctx_ecc : Fld := ⟨0xc0, 0, 1⟩
def R.QUEUE_FAULT.absent_overflow : Fld := ⟨0xc0, 1, 1⟩
def R.QUEUE_FAULT.doorbell_invalid : Fld := ⟨0xc0, 2, 1⟩
def R.QUEUE_FAULT.align : Fld := ⟨0xc0, 3, 1⟩
def R.QUEUE_FAULT.target : Fld := ⟨0xc0, 4, 1⟩
def R.QUEUE_LAST_FAULT.queue : Fld := ⟨0xc8, 0, 20⟩
def R.QUEUE_LAST_FAULT.cause : Fld := ⟨0xc8, 20, 3⟩
def R.QUEUE_STAGING.pinned : Fld := ⟨0xd0, 0, 14⟩
def R.QUEUE_STAGING.in_use : Fld := ⟨0xd0, 16, 16⟩
def R.QUEUE_STAGING.high_water : Fld := ⟨0xd0, 32, 16⟩
def R.SYN_CFG.src : Fld := ⟨0x200, 0, 2⟩
def R.SYN_CFG.insert : Fld := ⟨0x200, 2, 1⟩
def R.SYN_CFG.pb_format : Fld := ⟨0x200, 3, 1⟩
def R.SYN_CFG.ins_format : Fld := ⟨0x200, 4, 1⟩
def R.SYN_CFG.loop : Fld := ⟨0x200, 5, 1⟩
def R.SYN_CFG.restart_after_hold : Fld := ⟨0x200, 6, 1⟩
def R.SYN_CFG.syn_window : Fld := ⟨0x200, 7, 2⟩
def R.SYN_CFG.forward : Fld := ⟨0x200, 9, 1⟩
def R.SYN_CFG.gain_table : Fld := ⟨0x200, 10, 1⟩
def R.SYN_CFG.log2m : Fld := ⟨0x200, 11, 4⟩
def R.SYN_CFG.taps : Fld := ⟨0x200, 15, 2⟩
def R.SYN_CFG.proto_user : Fld := ⟨0x200, 17, 1⟩
def R.SYN_CFG.gain : Fld := ⟨0x200, 18, 4⟩
def R.SYN_RATE.rate : Fld := ⟨0x208, 0, 48⟩
def R.SYN_START_T96.lo : Fld := ⟨0x210, 0, 64⟩
def R.SYN_LEAD.tx_lead : Fld := ⟨0x220, 0, 24⟩
def R.PB_BASE.target : Fld := ⟨0x228, 0, 1⟩
def R.PB_BASE.log2size : Fld := ⟨0x228, 1, 6⟩
def R.PB_BASE.base : Fld := ⟨0x228, 12, 52⟩
def R.INS_BASE.target : Fld := ⟨0x248, 0, 1⟩
def R.INS_BASE.log2size : Fld := ⟨0x248, 1, 6⟩
def R.INS_BASE.base : Fld := ⟨0x248, 12, 52⟩
def R.PB_LOOP.loop_len : Fld := ⟨0x230, 0, 40⟩
def R.PB_LOOP.loop_count : Fld := ⟨0x230, 40, 24⟩
def R.INS_LOOP.loop_len : Fld := ⟨0x250, 0, 40⟩
def R.INS_LOOP.loop_count : Fld := ⟨0x250, 40, 24⟩
def R.PB_DOORBELL.produced : Fld := ⟨0x238, 0, 36⟩
def R.PB_CONSUMED.consumed : Fld := ⟨0x240, 0, 36⟩
def R.SYN_GAIN.out_gain : Fld := ⟨0x258, 0, 18⟩
def R.SYN_GAIN.ins_gain : Fld := ⟨0x258, 18, 18⟩
def R.SYN_NCO.fcw_out : Fld := ⟨0x260, 0, 48⟩
def R.RELAY_CFG.latency : Fld := ⟨0x268, 0, 24⟩
def R.RELAY_CFG.relay_min : Fld := ⟨0x268, 24, 24⟩
def R.GAIN_STAGE.laddr : Fld := ⟨0x270, 0, 20⟩
def R.GAIN_STAGE.active_laddr : Fld := ⟨0x270, 20, 20⟩
def R.SYN_CTRL.start : Fld := ⟨0x278, 0, 1⟩
def R.SYN_CTRL.stop : Fld := ⟨0x278, 1, 1⟩
def R.SYN_CTRL.commit : Fld := ⟨0x278, 2, 1⟩
def R.SYN_CTRL.last_cmd : Fld := ⟨0x278, 8, 2⟩
def R.SYN_CTRL.last_status : Fld := ⟨0x278, 10, 2⟩
def R.SYN_STATUS.state : Fld := ⟨0x280, 0, 3⟩
def R.SYN_STATUS.frames_queued : Fld := ⟨0x280, 3, 3⟩
def R.SYN_STATUS.loops_done : Fld := ⟨0x280, 8, 24⟩
def R.SYN_STATUS.frames_consumed : Fld := ⟨0x280, 32, 32⟩
def R.SYN_INDEX.index : Fld := ⟨0x288, 0, 64⟩
def R.SYN_ROUTE.groups : Fld := ⟨0x290, 0, 16⟩
def R.SYN_COUNTS.underrun_samples : Fld := ⟨0x298, 0, 32⟩
def R.SYN_COUNTS.late_samples : Fld := ⟨0x298, 32, 32⟩
def R.SYN_COUNTS2.withdrawn_bursts : Fld := ⟨0x2a0, 0, 32⟩
def R.SYN_COUNTS2.frames_missing : Fld := ⟨0x2a0, 32, 16⟩
def R.SYN_COUNTS2.hold_restarts : Fld := ⟨0x2a0, 48, 16⟩
def R.SYN_LAST_EVENT.index : Fld := ⟨0x2a8, 0, 60⟩
def R.SYN_LAST_EVENT.cause : Fld := ⟨0x2a8, 60, 4⟩
def R.SYN_FAULT.cfg_invalid : Fld := ⟨0x2b0, 0, 1⟩
def R.SYN_FAULT.residue : Fld := ⟨0x2b0, 1, 1⟩
def R.SYN_FAULT.pb_target : Fld := ⟨0x2b0, 2, 1⟩
def R.SYN_FAULT.start_late : Fld := ⟨0x2b0, 3, 1⟩
def R.SYN_FAULT.doorbell_invalid : Fld := ⟨0x2b0, 4, 1⟩
def R.SLICE_MODE.mode : Fld := ⟨0x40, 0, 3⟩
def R.SLICE_MODE.role : Fld := ⟨0x40, 3, 2⟩
def R.SLICE_MODE.shadowing : Fld := ⟨0x40, 5, 1⟩
def R.SLICE_MODE.shadow_of : Fld := ⟨0x40, 6, 5⟩
def R.CORE_CFG.quiesce_grace : Fld := ⟨0x48, 0, 7⟩
def R.CORE_STATUS.state : Fld := ⟨0x50, 0, 3⟩
def R.CORE_STATUS.pc : Fld := ⟨0x50, 16, 14⟩
def R.CORE_IMAGE.program_id : Fld := ⟨0x58, 0, 32⟩
def R.CORE_IMAGE.version : Fld := ⟨0x58, 32, 16⟩
def R.CORE_IMAGE.valid : Fld := ⟨0x58, 48, 1⟩
def R.CORE_IMAGE.load_status : Fld := ⟨0x58, 49, 3⟩
def R.CORE_IMAGE2.entry : Fld := ⟨0x60, 0, 14⟩
def R.CORE_IMAGE2.data_top : Fld := ⟨0x60, 14, 9⟩
def R.CORE_IMAGE2.crc : Fld := ⟨0x60, 32, 32⟩
def R.CORE_CSW.csw : Fld := ⟨0x68, 0, 32⟩
def R.CORE_CSW.scale : Fld := ⟨0x68, 0, 3⟩
def R.CORE_CSW.sat : Fld := ⟨0x68, 3, 1⟩
def R.CORE_CSW.ovf : Fld := ⟨0x68, 4, 1⟩
def R.CORE_CSW.ie : Fld := ⟨0x68, 5, 1⟩
def R.CORE_CSW.res : Fld := ⟨0x68, 6, 1⟩
def R.CORE_CSW.in_exc : Fld := ⟨0x68, 7, 1⟩
def R.CORE_CSW.in_int : Fld := ⟨0x68, 8, 1⟩
def R.CORE_LOOP.loopctl : Fld := ⟨0x70, 0, 32⟩
def R.CORE_LOOP.roff : Fld := ⟨0x70, 0, 4⟩
def R.CORE_LOOP.fill : Fld := ⟨0x70, 4, 2⟩
def R.CORE_LOOP.stages_m1 : Fld := ⟨0x70, 6, 2⟩
def R.CORE_LOOP.staged : Fld := ⟨0x70, 8, 1⟩
def R.CORE_LOOP.depth : Fld := ⟨0x70, 9, 2⟩
def R.LC.count (k : Nat) : Fld := ⟨0x78 + 0x8 * k, 0, 32⟩
def R.LOOP_BOUNDS.start (k : Nat) : Fld := ⟨0x90 + 0x8 * k, 0, 14⟩
def R.LOOP_BOUNDS.end_ (k : Nat) : Fld := ⟨0x90 + 0x8 * k, 16, 14⟩
def R.LOOP_BOUNDS.active (k : Nat) : Fld := ⟨0x90 + 0x8 * k, 30, 1⟩
def R.CORE_EXC.epc : Fld := ⟨0xa8, 0, 14⟩
def R.CORE_EXC.ecause : Fld := ⟨0xa8, 14, 3⟩
def R.CORE_EXC.eaddr : Fld := ⟨0xa8, 32, 32⟩
def R.CORE_ISAVE.pc : Fld := ⟨0xb0, 0, 14⟩
def R.CORE_ISAVE.csw : Fld := ⟨0xb0, 32, 32⟩
def R.INT_EN.enable : Fld := ⟨0xb8, 0, 16⟩
def R.INT_PEND.pending : Fld := ⟨0xc0, 0, 16⟩
def R.MBOX_IN.value : Fld := ⟨0xc8, 0, 64⟩
def R.MBOX_OUT.value : Fld := ⟨0xd0, 0, 64⟩
def R.PEER_DOORBELL.value : Fld := ⟨0xd8, 0, 64⟩
def R.CORE_TIMER.compare : Fld := ⟨0xe0, 0, 64⟩
def R.CORE_CYCLES.count : Fld := ⟨0xe8, 0, 64⟩
def R.CORE_BUNDLES.count : Fld := ⟨0xf0, 0, 64⟩
def R.CORE_STALLS.interlock : Fld := ⟨0xf8, 0, 32⟩
def R.CORE_COUNTS.exceptions : Fld := ⟨0x100, 0, 16⟩
def R.CORE_COUNTS.interrupts : Fld := ⟨0x100, 16, 16⟩
def R.CORE_COUNTS.write_collisions : Fld := ⟨0x100, 32, 16⟩
def R.CORE_COUNTS.forced_stops : Fld := ⟨0x100, 48, 16⟩
def R.CORE_FAULT.cfg_invalid : Fld := ⟨0x108, 0, 1⟩
def R.CORE_FAULT.residue : Fld := ⟨0x108, 1, 1⟩
def R.CORE_FAULT.iecc : Fld := ⟨0x108, 2, 1⟩
def R.CORE_FAULT.decc : Fld := ⟨0x108, 3, 1⟩
def R.CORE_FAULT.faulted : Fld := ⟨0x108, 4, 1⟩
def R.CORE_FAULT.forced_stop : Fld := ⟨0x108, 5, 1⟩
def R.CORE_FAULT.load_refused : Fld := ⟨0x108, 6, 1⟩
def R.PL_CTRL.op : Fld := ⟨0x40, 0, 2⟩
def R.PL_CTRL.entry : Fld := ⟨0x40, 2, 7⟩
def R.PL_CTRL.go : Fld := ⟨0x40, 9, 1⟩
def R.PL_CTRL.last_status : Fld := ⟨0x40, 10, 2⟩
def R.PL_CTRL.last_op : Fld := ⟨0x40, 12, 2⟩
def R.PL_ARG.image : Fld := ⟨0x48, 0, 64⟩
def R.PL_ARG2.length : Fld := ⟨0x50, 0, 32⟩
def R.PL_ARG2.img_target : Fld := ⟨0x50, 32, 1⟩
def R.PL_STATUS.busy : Fld := ⟨0x58, 0, 1⟩
def R.PL_STATUS.spare_present : Fld := ⟨0x58, 1, 1⟩
def R.PL_STATUS.spare_slice : Fld := ⟨0x58, 2, 5⟩
def R.PL_STATUS.in_service : Fld := ⟨0x58, 7, 17⟩
def R.PL_STATUS.placed : Fld := ⟨0x58, 24, 17⟩
def R.PL_STATUS.admitted : Fld := ⟨0x58, 41, 8⟩
def R.PL_HEADROOM.dram : Fld := ⟨0x60, 0, 20⟩
def R.PL_HEADROOM.pcie : Fld := ⟨0x60, 20, 20⟩
def R.PL_HEADROOM.pub : Fld := ⟨0x60, 40, 24⟩
def R.PL_HEADROOM.slices : Fld := ⟨0x68, 0, 5⟩
def R.PL_HEADROOM.streams : Fld := ⟨0x68, 5, 7⟩
def R.PL_HEADROOM.queues : Fld := ⟨0x68, 12, 21⟩
def R.PL_HEADROOM.dram_channels : Fld := ⟨0x68, 33, 4⟩
def R.PL_DRAM_BASE.base : Fld := ⟨0x70, 0, 40⟩
def R.PL_DRAM_SIZE.size : Fld := ⟨0x78, 0, 40⟩
def R.PL_PCIE_BUDGET.budget : Fld := ⟨0x80, 0, 20⟩
def R.PL_COUNTS.submits : Fld := ⟨0x88, 0, 16⟩
def R.PL_COUNTS.rejections : Fld := ⟨0x88, 16, 16⟩
def R.PL_COUNTS.demotions : Fld := ⟨0x88, 32, 16⟩
def R.PL_COUNTS.replacements : Fld := ⟨0x88, 48, 16⟩
def R.PL_EVENT.cause : Fld := ⟨0x90, 0, 4⟩
def R.PL_EVENT.entry : Fld := ⟨0x90, 4, 7⟩
def R.PL_EVENT.from_slice : Fld := ⟨0x90, 11, 5⟩
def R.PL_EVENT.to_slice : Fld := ⟨0x90, 16, 5⟩
def R.PL_EVENT.result : Fld := ⟨0x90, 21, 2⟩
def R.PL_SLICE.role (k : Nat) : Fld := ⟨0x1000 + 0x10 * k, 0, 2⟩
def R.PL_SLICE.mode (k : Nat) : Fld := ⟨0x1000 + 0x10 * k, 2, 3⟩
def R.PL_SLICE.placed (k : Nat) : Fld := ⟨0x1000 + 0x10 * k, 5, 1⟩
def R.PL_SLICE.entry (k : Nat) : Fld := ⟨0x1000 + 0x10 * k, 6, 7⟩
def R.PL_SLICE.member (k : Nat) : Fld := ⟨0x1000 + 0x10 * k, 13, 3⟩
def R.PL_SLICE.gang_m1 (k : Nat) : Fld := ⟨0x1000 + 0x10 * k, 16, 3⟩
def R.PL_SLICE.lead_slice (k : Nat) : Fld := ⟨0x1000 + 0x10 * k, 19, 5⟩
def R.PL_SLICE.version (k : Nat) : Fld := ⟨0x1000 + 0x10 * k, 32, 16⟩
def R.PL_SLICE.program (k : Nat) : Fld := ⟨0x1008 + 0x10 * k, 0, 32⟩
def R.PL_SLICE.lmem_reserved (k : Nat) : Fld := ⟨0x1008 + 0x10 * k, 32, 21⟩
def R.PL_STREAM.entry (k : Nat) : Fld := ⟨0x1200 + 0x8 * k, 0, 7⟩
def R.PL_STREAM.valid (k : Nat) : Fld := ⟨0x1200 + 0x8 * k, 7, 1⟩
def R.PL_STREAM.group (k : Nat) : Fld := ⟨0x1200 + 0x8 * k, 8, 4⟩
def R.PL_STREAM.bond_m1 (k : Nat) : Fld := ⟨0x1200 + 0x8 * k, 12, 3⟩
def R.PL_STREAM.consumers (k : Nat) : Fld := ⟨0x1200 + 0x8 * k, 15, 17⟩
def R.TB_CFG.ref_sel : Fld := ⟨0x40, 0, 2⟩
def R.TB_CFG.pps_enable : Fld := ⟨0x40, 2, 1⟩
def R.TB_CFG.pps_edge : Fld := ⟨0x40, 3, 1⟩
def R.TB_CFG.loop_bw : Fld := ⟨0x40, 4, 2⟩
def R.TB_CFG.trace_tol : Fld := ⟨0x40, 8, 8⟩
def R.TB_CFG.pps_reject : Fld := ⟨0x40, 16, 8⟩
def R.TB_CFG.slew_max : Fld := ⟨0x40, 24, 8⟩
def R.TB_CTRL.load : Fld := ⟨0x48, 0, 1⟩
def R.TB_CTRL.last_cmd : Fld := ⟨0x48, 8, 3⟩
def R.TB_CTRL.last_status : Fld := ⟨0x48, 11, 2⟩
def R.TB_STATUS.quality : Fld := ⟨0x50, 0, 2⟩
def R.TB_STATUS.ref_present : Fld := ⟨0x50, 2, 1⟩
def R.TB_STATUS.ref_locked : Fld := ⟨0x50, 3, 1⟩
def R.TB_STATUS.pps_valid : Fld := ⟨0x50, 4, 1⟩
def R.TB_STATUS.time_loaded : Fld := ⟨0x50, 5, 1⟩
def R.TB_STATUS.ptime_gated : Fld := ⟨0x50, 6, 1⟩
def R.TB_STATUS.epoch_running : Fld := ⟨0x50, 7, 1⟩
def R.TB_STATUS.holdover_cause : Fld := ⟨0x50, 8, 3⟩
def R.TB_STATUS.bound_violation : Fld := ⟨0x50, 11, 1⟩
def R.TB_STATUS.load_refused : Fld := ⟨0x50, 12, 1⟩
def R.TB_STATUS.pps_good : Fld := ⟨0x50, 16, 16⟩
def R.TB_STATUS.holdover_s : Fld := ⟨0x50, 32, 32⟩
def R.TB_BOUND.bound : Fld := ⟨0x58, 0, 16⟩
def R.TB_BOUND.bound_entry : Fld := ⟨0x58, 16, 16⟩
def R.TB_LOAD.seconds : Fld := ⟨0x70, 0, 48⟩
def R.TB_UNC.src_unc : Fld := ⟨0x78, 0, 16⟩
def R.TB_UNC.rate_ref : Fld := ⟨0x78, 16, 16⟩
def R.TB_UNC.rate_xo : Fld := ⟨0x78, 32, 16⟩
def R.TB_PHASE.e_last : Fld := ⟨0x80, 0, 32⟩
def R.TB_PHASE.freq_corr : Fld := ⟨0x80, 32, 32⟩
def R.TB_REF.ref_dev : Fld := ⟨0x88, 0, 16⟩
def R.TB_REF.ref_losses : Fld := ⟨0x88, 16, 16⟩
def R.TB_REF.pps_losses : Fld := ⟨0x88, 32, 16⟩
def R.TB_REF.pps_rejects : Fld := ⟨0x88, 48, 16⟩
def R.TB_COUNTS.holdover_entries : Fld := ⟨0x90, 0, 16⟩
def R.TB_COUNTS.loads : Fld := ⟨0x90, 16, 16⟩
def R.TB_COUNTS.bound_violations : Fld := ⟨0x90, 32, 16⟩
def R.TB_COUNTS.stray_epochs : Fld := ⟨0x90, 48, 16⟩
def R.TB_EPOCH_AT.lo : Fld := ⟨0x98, 0, 64⟩
def R.TB_EPOCH_CFG.period : Fld := ⟨0xa8, 0, 40⟩
def R.TB_EPOCH_CFG.width : Fld := ⟨0xa8, 40, 16⟩
def R.TB_EPOCH_NEXT.lo : Fld := ⟨0xb0, 0, 64⟩
def R.TB_EPOCH_LAST.lo : Fld := ⟨0xc0, 0, 64⟩
def R.TB_EPOCH_COUNT.count : Fld := ⟨0xd0, 0, 64⟩
def R.TB_TRUST_STAGE.index : Fld := ⟨0xe0, 0, 9⟩
def R.TB_MAP_SEL.stream : Fld := ⟨0x118, 0, 6⟩
def R.TB_MAP.n_e : Fld := ⟨0x120, 0, 64⟩
def R.TB_MAP.t_e_lo : Fld := ⟨0x128, 0, 64⟩
def R.TB_MAP.t_e_hi : Fld := ⟨0x130, 0, 32⟩
def R.TB_MAP.fe_const : Fld := ⟨0x130, 32, 8⟩
def R.TB_MAP.map_state : Fld := ⟨0x130, 40, 2⟩
def R.TB_MAP.delta : Fld := ⟨0x138, 0, 32⟩
def R.TB_MAP.pairings : Fld := ⟨0x138, 32, 16⟩
def R.TB_MAP.epoch_slips : Fld := ⟨0x138, 48, 16⟩
def R.TDC_CFG.start_src : Fld := ⟨0x40, 0, 3⟩
def R.TDC_CFG.stop_src : Fld := ⟨0x40, 3, 3⟩
def R.TDC_CFG.start_edge : Fld := ⟨0x40, 6, 1⟩
def R.TDC_CFG.stop_edge : Fld := ⟨0x40, 7, 1⟩
def R.TDC_CFG.repeat : Fld := ⟨0x40, 8, 1⟩
def R.TDC_CFG.timeout : Fld := ⟨0x40, 9, 4⟩
def R.TDC_CTRL.arm : Fld := ⟨0x48, 0, 1⟩
def R.TDC_CTRL.last_cmd : Fld := ⟨0x48, 8, 2⟩
def R.TDC_CTRL.last_status : Fld := ⟨0x48, 10, 2⟩
def R.TDC_STATUS.state : Fld := ⟨0x50, 0, 3⟩
def R.TDC_STATUS.start_seen : Fld := ⟨0x50, 3, 1⟩
def R.TDC_STATUS.stop_seen : Fld := ⟨0x50, 4, 1⟩
def R.TDC_STATUS.order : Fld := ⟨0x50, 5, 1⟩
def R.TDC_STATUS.close : Fld := ⟨0x50, 6, 1⟩
def R.TDC_STATUS.range : Fld := ⟨0x50, 7, 1⟩
def R.TDC_RESULT.result : Fld := ⟨0x58, 0, 56⟩
def R.TDC_START_T96.lo : Fld := ⟨0x60, 0, 64⟩
def R.TDC_STOP_T96.lo : Fld := ⟨0x70, 0, 64⟩
def R.TDC_COUNTS.measurements : Fld := ⟨0x80, 0, 32⟩
def R.TDC_COUNTS.timeouts : Fld := ⟨0x80, 32, 16⟩
def R.TDC_COUNTS.ignored_edges : Fld := ⟨0x80, 48, 16⟩
def R.TDC_CAL_CFG.log2hits : Fld := ⟨0x88, 1, 5⟩
def R.TDC_CAL_STATUS.calibrated : Fld := ⟨0x90, 0, 8⟩
def R.TDC_CAL_STATUS.tables_refreshed : Fld := ⟨0x90, 32, 32⟩
def R.TDC_CAL_READ.interp : Fld := ⟨0x98, 0, 3⟩
def R.TDC_CAL_READ.tap : Fld := ⟨0x98, 3, 9⟩
def R.TDC_CAL_READ.position : Fld := ⟨0x98, 32, 17⟩
def R.TDC_CAL_SPAN.taps : Fld := ⟨0xa0, 0, 10⟩
def R.TDC_CAL_SPAN.widest : Fld := ⟨0xa0, 16, 10⟩
def R.CAL_CFG.cal_interval : Fld := ⟨0xa0, 0, 8⟩
def R.CAL_CFG.shadow_limit : Fld := ⟨0xa0, 8, 8⟩
def R.CAL_CFG.min_match : Fld := ⟨0xa0, 16, 8⟩
def R.CAL_CFG.cal_retry : Fld := ⟨0xa0, 24, 8⟩
def R.CAL_CFG.auto_cal : Fld := ⟨0xa0, 32, 1⟩
def R.CAL_CFG.track_enable : Fld := ⟨0xa0, 33, 1⟩
def R.CAL_CTRL.go : Fld := ⟨0xa8, 0, 1⟩
def R.CAL_CTRL.slice : Fld := ⟨0xa8, 8, 5⟩
def R.CAL_CTRL.last_cmd : Fld := ⟨0xa8, 13, 2⟩
def R.CAL_CTRL.last_status : Fld := ⟨0xa8, 15, 2⟩
def R.CAL_STATUS.stale : Fld := ⟨0xb0, 0, 17⟩
def R.CAL_STATUS.due : Fld := ⟨0xb0, 17, 17⟩
def R.CAL_STATUS.slice : Fld := ⟨0xb0, 34, 5⟩
def R.CAL_STATUS.active : Fld := ⟨0xb0, 39, 1⟩
def R.CAL_STATUS.dram_stale : Fld := ⟨0xb0, 40, 8⟩
def R.TKO_STATUS.phase : Fld := ⟨0xb8, 0, 3⟩
def R.TKO_STATUS.stand_in : Fld := ⟨0xb8, 3, 5⟩
def R.TKO_STATUS.incumbent : Fld := ⟨0xb8, 8, 5⟩
def R.TKO_STATUS.cause : Fld := ⟨0xb8, 13, 4⟩
def R.TKO_STATUS.matched_run : Fld := ⟨0xb8, 32, 32⟩
def R.TKO_COMPARE.matched : Fld := ⟨0xc0, 0, 32⟩
def R.TKO_COMPARE.mismatched : Fld := ⟨0xc0, 32, 16⟩
def R.TKO_COMPARE.first_kind : Fld := ⟨0xc0, 48, 3⟩
def R.TKO_LAST.result : Fld := ⟨0xc8, 0, 3⟩
def R.TKO_LAST.incumbent : Fld := ⟨0xc8, 3, 5⟩
def R.TKO_LAST.stand_in : Fld := ⟨0xc8, 8, 5⟩
def R.TKO_LAST.cause : Fld := ⟨0xc8, 13, 4⟩
def R.TKO_SWITCH_T96.lo : Fld := ⟨0xd0, 0, 64⟩
def R.TKO_COUNTS.switches : Fld := ⟨0xe0, 0, 16⟩
def R.TKO_COUNTS.forced : Fld := ⟨0xe0, 16, 16⟩
def R.TKO_COUNTS.abandoned : Fld := ⟨0xe0, 32, 16⟩
def R.TKO_COUNTS.selftest_retired : Fld := ⟨0xe0, 48, 16⟩
def R.CAL_COUNTS.calibrations : Fld := ⟨0xe8, 0, 16⟩
def R.CAL_COUNTS.stale_events : Fld := ⟨0xe8, 16, 16⟩
def R.CAL_COUNTS.tracking_steps : Fld := ⟨0xe8, 32, 32⟩
def R.CAL_SET.state (k : Nat) : Fld := ⟨0x1400 + 0x40 * k, 0, 2⟩
def R.CAL_SET.unconvergent (k : Nat) : Fld := ⟨0x1400 + 0x40 * k, 2, 1⟩
def R.CAL_SET.stale_cause (k : Nat) : Fld := ⟨0x1400 + 0x40 * k, 3, 3⟩
def R.CAL_SET.fail_count (k : Nat) : Fld := ⟨0x1400 + 0x40 * k, 8, 8⟩
def R.CAL_SET.temp_tag (k : Nat) : Fld := ⟨0x1400 + 0x40 * k, 16, 16⟩
def R.CAL_SET.vdd_tag (k : Nat) : Fld := ⟨0x1400 + 0x40 * k, 32, 16⟩
def R.CAL_SET.selftest (k : Nat) : Fld := ⟨0x1400 + 0x40 * k, 48, 3⟩
def R.CAL_SET.gathered_s (k : Nat) : Fld := ⟨0x1408 + 0x40 * k, 0, 32⟩
def R.CAL_SET.temp_now (k : Nat) : Fld := ⟨0x1408 + 0x40 * k, 32, 16⟩
def R.CAL_SET.vdd_now (k : Nat) : Fld := ⟨0x1408 + 0x40 * k, 48, 16⟩
def R.CAL_SET.min_window (k : Nat) : Fld := ⟨0x1428 + 0x40 * k, 0, 7⟩
def R.CAL_SET.min_trim (k : Nat) : Fld := ⟨0x1428 + 0x40 * k, 7, 5⟩
def R.CAL_SET.cal_count (k : Nat) : Fld := ⟨0x1428 + 0x40 * k, 32, 32⟩
def R.DEPOT_CFG.test_enable : Fld := ⟨0x40, 4, 1⟩
def R.DEPOT_CFG.test_interval : Fld := ⟨0x40, 8, 8⟩
def R.DEPOT_CFG.host_size : Fld := ⟨0x40, 16, 5⟩
def R.DEPOT_STATUS.test_bank : Fld := ⟨0x48, 0, 8⟩
def R.DEPOT_STATUS.test_phase : Fld := ⟨0x48, 8, 3⟩
def R.DEPOT_STATUS.mirrors_free : Fld := ⟨0x48, 11, 4⟩
def R.DEPOT_STATUS.test_mirror : Fld := ⟨0x48, 17, 3⟩
def R.DEPOT_REPAIR.banks : Fld := ⟨0x50, 0, 64⟩
def R.DEPOT_REPAIR_VALID.valid : Fld := ⟨0x58, 0, 8⟩
def R.DEPOT_ECC.corrected : Fld := ⟨0x60, 0, 32⟩
def R.DEPOT_ECC.uncorrectable : Fld := ⟨0x60, 32, 16⟩
def R.DEPOT_ECC.rmw_dropped : Fld := ⟨0x60, 48, 16⟩
def R.DEPOT_ERR_LAST.offset : Fld := ⟨0x68, 0, 26⟩
def R.DEPOT_ERR_LAST.agent : Fld := ⟨0x68, 26, 2⟩
def R.DEPOT_ERR_LAST.syndrome : Fld := ⟨0x68, 28, 8⟩
def R.DEPOT_ERR_LAST.uncorrectable : Fld := ⟨0x68, 36, 1⟩
def R.DEPOT_COLL.scrub_sweeps : Fld := ⟨0x70, 32, 32⟩
def R.DEPOT_TEST.banks_tested : Fld := ⟨0x78, 0, 32⟩
def R.DEPOT_TEST.test_failures : Fld := ⟨0x78, 32, 16⟩
def R.DEPOT_TEST.bar2_refused : Fld := ⟨0x78, 48, 16⟩
def R.DEPOT_FAULT.uncorrectable : Fld := ⟨0x80, 0, 1⟩
def R.DEPOT_FAULT.test_fail : Fld := ⟨0x80, 1, 1⟩
def R.DEPOT_FAULT.no_mirror : Fld := ⟨0x80, 2, 1⟩
def R.DEPOT_FAULT.bar2_write_refused : Fld := ⟨0x80, 3, 1⟩
def R.DEPOT_FAULT.restore_failed : Fld := ⟨0x80, 4, 1⟩
def R.DEPOT_FAULT.secure_wiped : Fld := ⟨0x80, 5, 1⟩
def R.LMEM_STATUS.test_bank (k : Nat) : Fld := ⟨0x200 + 0x20 * k, 0, 5⟩
def R.LMEM_STATUS.test_phase (k : Nat) : Fld := ⟨0x200 + 0x20 * k, 5, 3⟩
def R.LMEM_STATUS.repaired (k : Nat) : Fld := ⟨0x200 + 0x20 * k, 8, 1⟩
def R.LMEM_STATUS.repaired_bank (k : Nat) : Fld := ⟨0x200 + 0x20 * k, 9, 5⟩
def R.LMEM_ECC.corrected (k : Nat) : Fld := ⟨0x208 + 0x20 * k, 0, 32⟩
def R.LMEM_ECC.uncorrectable (k : Nat) : Fld := ⟨0x208 + 0x20 * k, 32, 16⟩
def R.LMEM_ECC.rmw_dropped (k : Nat) : Fld := ⟨0x208 + 0x20 * k, 48, 16⟩
def R.IMEM_ECC.corrected (k : Nat) : Fld := ⟨0x210 + 0x20 * k, 0, 32⟩
def R.IMEM_ECC.uncorrectable (k : Nat) : Fld := ⟨0x210 + 0x20 * k, 32, 16⟩
def R.IMEM_ECC.banks_tested_in_local_memory (k : Nat) : Fld := ⟨0x210 + 0x20 * k, 48, 16⟩
def R.LMEM_ERR_LAST.address (k : Nat) : Fld := ⟨0x218 + 0x20 * k, 0, 23⟩
def R.LMEM_ERR_LAST.imem (k : Nat) : Fld := ⟨0x218 + 0x20 * k, 23, 1⟩
def R.LMEM_ERR_LAST.syndrome (k : Nat) : Fld := ⟨0x218 + 0x20 * k, 24, 8⟩
def R.LMEM_ERR_LAST.uncorrectable (k : Nat) : Fld := ⟨0x218 + 0x20 * k, 32, 1⟩
def R.LMEM_ERR_LAST.agent (k : Nat) : Fld := ⟨0x218 + 0x20 * k, 33, 2⟩
def R.DRAM_CFG.speed : Fld := ⟨0x40, 0, 2⟩
def R.DRAM_CFG.populated : Fld := ⟨0x40, 2, 1⟩
def R.DRAM_CFG.width : Fld := ⟨0x40, 3, 1⟩
def R.DRAM_CFG.ranks_m1 : Fld := ⟨0x40, 4, 1⟩
def R.DRAM_CFG.density : Fld := ⟨0x40, 5, 2⟩
def R.DRAM_GEOM.cb : Fld := ⟨0x48, 0, 3⟩
def R.DRAM_GEOM.row_bits : Fld := ⟨0x48, 3, 5⟩
def R.DRAM_GEOM.capacity_in_GiB : Fld := ⟨0x48, 8, 8⟩
def R.DRAM_MAP.n_log2 : Fld := ⟨0x50, 0, 2⟩
def R.DRAM_MAP.reserve : Fld := ⟨0x50, 2, 1⟩
def R.DRAM_MAP.n_active_log2 : Fld := ⟨0x50, 3, 2⟩
def R.DRAM_POLICY.idle_timer : Fld := ⟨0x58, 0, 8⟩
def R.DRAM_POLICY.nbr_p : Fld := ⟨0x58, 8, 5⟩
def R.DRAM_POLICY.auto_retrain : Fld := ⟨0x58, 32, 1⟩
def R.DRAM_CTRL.retrain : Fld := ⟨0x60, 0, 1⟩
def R.DRAM_CTRL.last_cmd : Fld := ⟨0x60, 8, 2⟩
def R.DRAM_CTRL.last_status : Fld := ⟨0x60, 10, 2⟩
def R.DRAM_STATUS.state : Fld := ⟨0x68, 0, 3⟩
def R.DRAM_STATUS.phase : Fld := ⟨0x68, 3, 2⟩
def R.DRAM_STATUS.stale : Fld := ⟨0x68, 5, 1⟩
def R.DRAM_STATUS.bypass : Fld := ⟨0x68, 6, 1⟩
def R.DRAM_STATUS.granules_done : Fld := ⟨0x68, 32, 32⟩
def R.DRAM_TRAIN.rd_track (k : Nat) : Fld := ⟨0x100 + 0x8 * k, 48, 4⟩
def R.DRAM_TRAIN.wr_track (k : Nat) : Fld := ⟨0x100 + 0x8 * k, 52, 4⟩
def R.DRAM_TAG.temp_tag : Fld := ⟨0x160, 0, 16⟩
def R.DRAM_TAG.vdd_tag : Fld := ⟨0x160, 16, 16⟩
def R.DRAM_TAG.trained_s : Fld := ⟨0x160, 32, 32⟩
def R.DRAM_ECC.corrected : Fld := ⟨0x170, 0, 32⟩
def R.DRAM_ECC.uncorrectable : Fld := ⟨0x170, 32, 16⟩
def R.DRAM_ECC.rmw_dropped : Fld := ⟨0x170, 48, 16⟩
def R.DRAM_ERR_LAST.local_address : Fld := ⟨0x178, 6, 30⟩
def R.DRAM_ERR_LAST.symbol : Fld := ⟨0x178, 36, 8⟩
def R.DRAM_ERR_LAST.uncorrectable : Fld := ⟨0x178, 44, 1⟩
def R.DRAM_ERR_LAST.agent : Fld := ⟨0x178, 45, 2⟩
def R.DRAM_COUNTS.activates : Fld := ⟨0x180, 0, 32⟩
def R.DRAM_COUNTS.nbr_refreshes : Fld := ⟨0x180, 32, 16⟩
def R.DRAM_COUNTS.inorder_events : Fld := ⟨0x180, 48, 16⟩
def R.DRAM_COUNTS2.row_hits : Fld := ⟨0x188, 0, 32⟩
def R.DRAM_COUNTS2.retrains : Fld := ⟨0x188, 32, 16⟩
def R.DRAM_COUNTS2.bypass_entries : Fld := ⟨0x188, 48, 16⟩
def R.DRAM_FERRY_WR.level : Fld := ⟨0x190, 0, 11⟩
def R.DRAM_FERRY_WR.high_water : Fld := ⟨0x190, 16, 11⟩
def R.DRAM_FERRY_RD.level : Fld := ⟨0x198, 0, 11⟩
def R.DRAM_FERRY_RD.high_water : Fld := ⟨0x198, 16, 11⟩
def R.DRAM_PASR.keep : Fld := ⟨0x1a0, 0, 8⟩
def R.DRAM_FAULT.cfg_invalid : Fld := ⟨0x1a8, 0, 1⟩
def R.DRAM_FAULT.train_failed : Fld := ⟨0x1a8, 1, 1⟩
def R.DRAM_FAULT.uncorrectable : Fld := ⟨0x1a8, 2, 1⟩
def R.DRAM_FAULT.retrain_refused : Fld := ⟨0x1a8, 3, 1⟩
def R.DRAM_FAULT.evac_poisoned : Fld := ⟨0x1a8, 4, 1⟩
def R.PCIE_STATUS.speed : Fld := ⟨0x48, 0, 3⟩
def R.PCIE_STATUS.width : Fld := ⟨0x48, 3, 5⟩
def R.PCIE_STATUS.bus_master : Fld := ⟨0x48, 8, 1⟩
def R.PCIE_STATUS.msix_enable : Fld := ⟨0x48, 9, 1⟩
def R.PCIE_STATUS.function_mask : Fld := ⟨0x48, 10, 1⟩
def R.PCIE_STATUS.link_downs : Fld := ⟨0x48, 16, 16⟩
def R.PCIE_STATUS.bar4_log2 : Fld := ⟨0x48, 32, 6⟩
def R.P2P_WIN.enable (k : Nat) : Fld := ⟨0x50 + 0x10 * k, 0, 1⟩
def R.P2P_WIN.base (k : Nat) : Fld := ⟨0x50 + 0x10 * k, 12, 52⟩
def R.P2P_WIN.limit (k : Nat) : Fld := ⟨0x58 + 0x10 * k, 12, 52⟩
def R.HOST_IN_FERRY.level : Fld := ⟨0x90, 0, 11⟩
def R.HOST_IN_FERRY.high_water : Fld := ⟨0x90, 16, 11⟩
def R.HOST_OUT_FERRY.level : Fld := ⟨0x98, 0, 11⟩
def R.HOST_OUT_FERRY.high_water : Fld := ⟨0x98, 16, 11⟩
def R.DMA_COUNTS.descriptors : Fld := ⟨0xa0, 0, 32⟩
def R.DMA_COUNTS.target_errors : Fld := ⟨0xa0, 32, 16⟩
def R.DMA_COUNTS.halts : Fld := ⟨0xa0, 48, 16⟩
def R.DMA_COUNTS2.flush_reads : Fld := ⟨0xa8, 0, 32⟩
def R.DMA_COUNTS2.cq_full_stalls : Fld := ⟨0xa8, 32, 16⟩
def R.DMA_COUNTS2.withdrawn_bursts : Fld := ⟨0xa8, 48, 16⟩
def R.DMA_BYTES.count : Fld := ⟨0xb0, 0, 64⟩
def R.DMA_LAST_FAULT.ring : Fld := ⟨0xb8, 0, 8⟩
def R.DMA_LAST_FAULT.status : Fld := ⟨0xb8, 8, 4⟩
def R.DMA_LAST_FAULT.cause : Fld := ⟨0xb8, 12, 4⟩
def R.DMA_LAST_FAULT.index : Fld := ⟨0xb8, 16, 16⟩
def R.DMA_LAST_FAULT.address : Fld := ⟨0xc0, 0, 64⟩
def R.DMA_FAULT.target : Fld := ⟨0xc8, 0, 1⟩
def R.DMA_FAULT.align : Fld := ⟨0xc8, 1, 1⟩
def R.DMA_FAULT.loop : Fld := ⟨0xc8, 2, 1⟩
def R.DMA_FAULT.opcode : Fld := ⟨0xc8, 3, 1⟩
def R.DMA_FAULT.access : Fld := ⟨0xc8, 4, 1⟩
def R.DMA_FAULT.cq_doorbell_invalid : Fld := ⟨0xc8, 5, 1⟩
def R.DMA_FAULT.ring_refused : Fld := ⟨0xc8, 6, 1⟩
def R.DMA_FAULT.cq_refused : Fld := ⟨0xc8, 7, 1⟩
def R.RING_BASE.target (k : Nat) : Fld := ⟨0x100 + 0x40 * k, 0, 1⟩
def R.RING_BASE.log2n (k : Nat) : Fld := ⟨0x100 + 0x40 * k, 1, 5⟩
def R.RING_BASE.base (k : Nat) : Fld := ⟨0x100 + 0x40 * k, 9, 55⟩
def R.RING_CFG.cq (k : Nat) : Fld := ⟨0x108 + 0x40 * k, 0, 10⟩
def R.RING_CFG.waybill_all (k : Nat) : Fld := ⟨0x108 + 0x40 * k, 10, 1⟩
def R.RING_CTRL.last_cmd (k : Nat) : Fld := ⟨0x110 + 0x40 * k, 8, 2⟩
def R.RING_CTRL.last_status (k : Nat) : Fld := ⟨0x110 + 0x40 * k, 10, 2⟩
def R.RING_TAIL.tail (k : Nat) : Fld := ⟨0x118 + 0x40 * k, 0, 16⟩
def R.RING_STATUS.state (k : Nat) : Fld := ⟨0x120 + 0x40 * k, 0, 3⟩
def R.RING_STATUS.in_chain (k : Nat) : Fld := ⟨0x120 + 0x40 * k, 3, 1⟩
def R.RING_STATUS.link_count (k : Nat) : Fld := ⟨0x120 + 0x40 * k, 4, 4⟩
def R.RING_STATUS.head (k : Nat) : Fld := ⟨0x120 + 0x40 * k, 8, 16⟩
def R.RING_STATUS.last_error (k : Nat) : Fld := ⟨0x120 + 0x40 * k, 24, 4⟩
def R.RING_STATUS.last_cause (k : Nat) : Fld := ⟨0x120 + 0x40 * k, 28, 4⟩
def R.RING_STATUS.not_owned (k : Nat) : Fld := ⟨0x120 + 0x40 * k, 32, 16⟩
def R.RING_DESC.addr (k : Nat) : Fld := ⟨0x128 + 0x40 * k, 0, 64⟩
def R.RING_COUNTS.completed (k : Nat) : Fld := ⟨0x130 + 0x40 * k, 0, 32⟩
def R.RING_COUNTS.errors (k : Nat) : Fld := ⟨0x130 + 0x40 * k, 32, 16⟩
def R.RING_COUNTS.withdrawn_bursts (k : Nat) : Fld := ⟨0x130 + 0x40 * k, 48, 16⟩
def R.RING_BYTES.count (k : Nat) : Fld := ⟨0x138 + 0x40 * k, 0, 64⟩
def R.CQ_BASE.target (k : Nat) : Fld := ⟨0x1100 + 0x20 * k, 0, 1⟩
def R.CQ_BASE.log2n (k : Nat) : Fld := ⟨0x1100 + 0x20 * k, 1, 5⟩
def R.CQ_BASE.base (k : Nat) : Fld := ⟨0x1100 + 0x20 * k, 9, 55⟩
def R.CQ_CFG.vector (k : Nat) : Fld := ⟨0x1108 + 0x20 * k, 0, 11⟩
def R.CQ_CFG.irq_enable (k : Nat) : Fld := ⟨0x1108 + 0x20 * k, 11, 1⟩
def R.CQ_CFG.enable (k : Nat) : Fld := ⟨0x1108 + 0x20 * k, 12, 1⟩
def R.CQ_HEAD.head (k : Nat) : Fld := ⟨0x1110 + 0x20 * k, 0, 16⟩
def R.CQ_STATUS.tail (k : Nat) : Fld := ⟨0x1118 + 0x20 * k, 0, 16⟩
def R.CQ_STATUS.phase (k : Nat) : Fld := ⟨0x1118 + 0x20 * k, 16, 1⟩
def R.CQ_STATUS.full (k : Nat) : Fld := ⟨0x1118 + 0x20 * k, 17, 1⟩
def R.CQ_STATUS.doorbell_invalid (k : Nat) : Fld := ⟨0x1118 + 0x20 * k, 18, 1⟩
def R.CQ_STATUS.enable_refused (k : Nat) : Fld := ⟨0x1118 + 0x20 * k, 19, 1⟩
def R.CQ_STATUS.full_stalls (k : Nat) : Fld := ⟨0x1118 + 0x20 * k, 32, 16⟩
def R.CHK_FAULT.mismatch : Fld := ⟨0x40, 0, 1⟩
def R.CHK_FAULT.verify_fail : Fld := ⟨0x40, 1, 1⟩
def R.CHK_FAULT.unit : Fld := ⟨0x40, 8, 6⟩
def R.CHK_SEED_STATUS.set : Fld := ⟨0x48, 0, 60⟩
def R.CHK_CFG.poly (k : Nat) : Fld := ⟨0x100 + 0x40 * k, 0, 2⟩
def R.CHK_ALIVE.alive (k : Nat) : Fld := ⟨0x108 + 0x40 * k, 0, 16⟩
def R.CHK_ALIVE.seeded (k : Nat) : Fld := ⟨0x108 + 0x40 * k, 16, 1⟩
def R.CHK_OWNER.entry (k : Nat) : Fld := ⟨0x110 + 0x40 * k, 0, 7⟩
def R.CHK_OWNER.assigned (k : Nat) : Fld := ⟨0x110 + 0x40 * k, 7, 1⟩
def R.CHK_COUNTS.done (k : Nat) : Fld := ⟨0x118 + 0x40 * k, 0, 48⟩
def R.CHK_COUNTS.faults (k : Nat) : Fld := ⟨0x118 + 0x40 * k, 48, 16⟩
def R.CHK_LAST.crc (k : Nat) : Fld := ⟨0x120 + 0x40 * k, 0, 64⟩
def R.CHK_BYTES.count (k : Nat) : Fld := ⟨0x128 + 0x40 * k, 0, 64⟩
def R.DISP_LINK.rate : Fld := ⟨0x40, 0, 2⟩
def R.DISP_LINK.lanes : Fld := ⟨0x40, 2, 2⟩
def R.DISP_LINK.bpc10 : Fld := ⟨0x40, 4, 1⟩
def R.DISP_LINK.pclk_khz : Fld := ⟨0x40, 5, 20⟩
def R.DISP_H.active : Fld := ⟨0x48, 0, 13⟩
def R.DISP_H.front : Fld := ⟨0x48, 13, 13⟩
def R.DISP_H.sync : Fld := ⟨0x48, 26, 13⟩
def R.DISP_H.back : Fld := ⟨0x48, 39, 13⟩
def R.DISP_V.active : Fld := ⟨0x50, 0, 13⟩
def R.DISP_V.front : Fld := ⟨0x50, 13, 13⟩
def R.DISP_V.sync : Fld := ⟨0x50, 26, 13⟩
def R.DISP_V.back : Fld := ⟨0x50, 39, 13⟩
def R.DISP_BG.colour : Fld := ⟨0x58, 0, 30⟩
def R.DISP_IRQ.enable : Fld := ⟨0x60, 0, 5⟩
def R.DISP_IRQ.vector : Fld := ⟨0x60, 16, 11⟩
def R.DISP_IRQ.line_match : Fld := ⟨0x60, 32, 13⟩
def R.DISP_EVENTS.events : Fld := ⟨0x68, 0, 5⟩
def R.DISP_EVENTS.link_fail : Fld := ⟨0x68, 5, 1⟩
def R.DISP_EVENTS.cfg_invalid : Fld := ⟨0x68, 6, 1⟩
def R.DISP_CTRL.commit : Fld := ⟨0x70, 0, 1⟩
def R.DISP_CTRL.ct_load : Fld := ⟨0x70, 1, 1⟩
def R.DISP_CTRL.last_cmd : Fld := ⟨0x70, 8, 2⟩
def R.DISP_CTRL.last_status : Fld := ⟨0x70, 10, 2⟩
def R.DISP_CT.addr : Fld := ⟨0x78, 0, 40⟩
def R.DISP_STATUS.state : Fld := ⟨0x80, 0, 2⟩
def R.DISP_STATUS.hpd : Fld := ⟨0x80, 2, 1⟩
def R.DISP_STATUS.line : Fld := ⟨0x80, 16, 13⟩
def R.DISP_STATUS.frames : Fld := ⟨0x80, 32, 32⟩
def R.DISP_COUNTS.underrun_lines : Fld := ⟨0x88, 0, 32⟩
def R.DISP_COUNTS.hpd_events : Fld := ⟨0x88, 32, 16⟩
def R.DISP_COUNTS.fetches_suppressed : Fld := ⟨0x88, 48, 16⟩
def R.DISP_AUX.len_m1 : Fld := ⟨0x90, 20, 4⟩
def R.DISP_AUX.type : Fld := ⟨0x90, 24, 2⟩
def R.DISP_AUX.go : Fld := ⟨0x90, 26, 1⟩
def R.DISP_AUX.last_status : Fld := ⟨0x90, 27, 2⟩
def R.DISP_AUX_DATA.data (k : Nat) : Fld := ⟨0x98 + 0x8 * k, 0, 64⟩
def R.DISP_HOLD.overlay_hold_lines : Fld := ⟨0xa8, 0, 32⟩
def R.CLK_STATUS.locked : Fld := ⟨0x40, 0, 10⟩
def R.CLK_STATUS.gated : Fld := ⟨0x40, 10, 10⟩
def R.CLK_STATUS.core_band : Fld := ⟨0x40, 20, 1⟩
def R.CLK_STATUS.ramp_state : Fld := ⟨0x40, 21, 2⟩
def R.CLK_STATUS.ramp_segment : Fld := ⟨0x40, 23, 4⟩
def R.CLK_CORE.freq : Fld := ⟨0x48, 0, 13⟩
def R.CLK_SPREAD.core_spread : Fld := ⟨0x50, 0, 4⟩
def R.CLK_RAMP.target (k : Nat) : Fld := ⟨0x80 + 0x8 * k, 0, 13⟩
def R.CLK_RAMP.duration (k : Nat) : Fld := ⟨0x80 + 0x8 * k, 13, 16⟩
def R.CLK_RAMP_CTRL.segments_m1 : Fld := ⟨0x100, 0, 4⟩
def R.CLK_RAMP_CTRL.go : Fld := ⟨0x100, 4, 1⟩
def R.CLK_RAMP_CTRL.last_cmd : Fld := ⟨0x100, 8, 2⟩
def R.CLK_RAMP_CTRL.last_status : Fld := ⟨0x100, 10, 2⟩
def R.CLK_RAMP_CTRL.refuse_cause : Fld := ⟨0x100, 12, 3⟩
def R.CLK_LOSSES.losses (k : Nat) : Fld := ⟨0x140 + 0x8 * k, 0, 16⟩
def R.CLK_LOSSES.relocks (k : Nat) : Fld := ⟨0x140 + 0x8 * k, 16, 16⟩
def R.CLK_RESET_CAUSE.cause : Fld := ⟨0x1a0, 0, 3⟩
def R.CLK_RESET_CAUSE.boots : Fld := ⟨0x1a0, 16, 16⟩
def R.BOOT_STATUS.booted : Fld := ⟨0x1a8, 0, 1⟩
def R.BOOT_STATUS.a_result : Fld := ⟨0x1a8, 1, 2⟩
def R.BOOT_STATUS.b_result : Fld := ⟨0x1a8, 3, 2⟩
def R.BOOT_STATUS.fail : Fld := ⟨0x1a8, 5, 3⟩
def R.BOOT_STATUS.fw_version : Fld := ⟨0x1a8, 16, 16⟩
def R.BOOT_STATUS.ucode_version : Fld := ⟨0x1a8, 32, 16⟩
def R.BOOT_COUNTER.counter : Fld := ⟨0x1b0, 0, 32⟩
def R.WAKE_CFG.enable : Fld := ⟨0x1b8, 0, 16⟩
def R.WAKE_CFG.edge : Fld := ⟨0x1b8, 16, 16⟩
def R.AUTH_LC.lc_state : Fld := ⟨0x40, 0, 2⟩
def R.AUTH_CMD.op : Fld := ⟨0x48, 0, 4⟩
def R.AUTH_CMD.go : Fld := ⟨0x48, 4, 1⟩
def R.AUTH_CMD.last_cmd : Fld := ⟨0x48, 8, 4⟩
def R.AUTH_CMD.last_status : Fld := ⟨0x48, 12, 3⟩
def R.AUTH_ARG.value (k : Nat) : Fld := ⟨0x50 + 0x8 * k, 0, 64⟩
def R.AUTH_PRESENCE.window_open : Fld := ⟨0x70, 0, 1⟩
def R.AUTH_PRESENCE.level : Fld := ⟨0x70, 1, 1⟩
def R.AUTH_PRESENCE.remaining : Fld := ⟨0x70, 16, 14⟩
def R.AUTH_PRESENCE.stray_presence : Fld := ⟨0x70, 32, 16⟩
def R.AUTH_TAMPER.arm : Fld := ⟨0x78, 0, 1⟩
def R.AUTH_TAMPER.open_ : Fld := ⟨0x78, 1, 1⟩
def R.AUTH_TAMPER.events : Fld := ⟨0x78, 16, 16⟩
def R.AUTH_REGION.wipes : Fld := ⟨0x80, 0, 16⟩
def R.AUTH_REGION.sealed_valid : Fld := ⟨0x80, 16, 1⟩
def R.AUTH_REGION.restore_failed : Fld := ⟨0x80, 17, 1⟩
def R.AUTH_REGION.user_cal_set : Fld := ⟨0x80, 18, 8⟩
def R.AUTH_ITEM.crc (k : Nat) : Fld := ⟨0x100 + 0x8 * k, 0, 32⟩
def R.AUTH_ITEM.bytes (k : Nat) : Fld := ⟨0x100 + 0x8 * k, 32, 16⟩
def R.AUTH_COUNTS.done : Fld := ⟨0x120, 0, 16⟩
def R.AUTH_COUNTS.refused : Fld := ⟨0x120, 16, 16⟩
def R.AUTH_COUNTS.expired : Fld := ⟨0x120, 32, 16⟩
def R.AUTH_COUNTS.locked : Fld := ⟨0x120, 48, 16⟩
def R.HK_CFG.user_rate : Fld := ⟨0x40, 0, 3⟩
def R.HK_CFG.urgent_conv : Fld := ⟨0x40, 4, 1⟩
def R.HK_CFG.urgent_chan : Fld := ⟨0x40, 5, 4⟩
def R.HK_CFG.start_edge : Fld := ⟨0x40, 9, 1⟩
def R.HK_CFG.plaus_limit : Fld := ⟨0x40, 16, 24⟩
def R.HK_CTRL.urgent : Fld := ⟨0x50, 0, 1⟩
def R.HK_CTRL.urgent_src : Fld := ⟨0x50, 1, 2⟩
def R.HK_CTRL.last_status : Fld := ⟨0x50, 8, 2⟩
def R.HK_STATUS.chkA : Fld := ⟨0x58, 0, 2⟩
def R.HK_STATUS.chkB : Fld := ⟨0x58, 2, 2⟩
def R.HK_STATUS.chanA : Fld := ⟨0x58, 4, 4⟩
def R.HK_STATUS.chanB : Fld := ⟨0x58, 8, 4⟩
def R.HK_STATUS.timeA : Fld := ⟨0x58, 16, 16⟩
def R.HK_STATUS.timeB : Fld := ⟨0x58, 32, 16⟩
def R.HK_STATUS.user_skipped : Fld := ⟨0x58, 48, 16⟩
def R.HK_RESULT.value (v c : Nat) : Fld := ⟨0x100 + 0x80 * v + 0x8 * c, 0, 24⟩
def R.HK_RESULT.ovr (v c : Nat) : Fld := ⟨0x100 + 0x80 * v + 0x8 * c, 24, 1⟩
def R.HK_RESULT.valid (v c : Nat) : Fld := ⟨0x100 + 0x80 * v + 0x8 * c, 25, 1⟩
def R.HK_RESULT.pass (v c : Nat) : Fld := ⟨0x100 + 0x80 * v + 0x8 * c, 32, 32⟩
def R.HK_URGENT.value : Fld := ⟨0x200, 0, 24⟩
def R.HK_URGENT.ovr : Fld := ⟨0x200, 24, 1⟩
def R.HK_URGENT.valid : Fld := ⟨0x200, 25, 1⟩
def R.HK_URGENT.channel : Fld := ⟨0x200, 26, 4⟩
def R.HK_URGENT.converter : Fld := ⟨0x200, 30, 1⟩
def R.HK_URGENT.pass : Fld := ⟨0x200, 32, 32⟩
def R.HK_URGENT_T96.lo : Fld := ⟨0x210, 0, 64⟩
def R.HK_ENG.value (k : Nat) : Fld := ⟨0x220 + 0x8 * k, 0, 16⟩
def R.HK_ENG.valid (k : Nat) : Fld := ⟨0x220 + 0x8 * k, 16, 1⟩
def R.HK_CAL.off (k : Nat) : Fld := ⟨0x290 + 0x8 * k, 0, 24⟩
def R.HK_CAL.gain (k : Nat) : Fld := ⟨0x290 + 0x8 * k, 24, 32⟩
def R.HK_LIMIT.lo (v c : Nat) : Fld := ⟨0x300 + 0x80 * v + 0x8 * c, 0, 24⟩
def R.HK_LIMIT.hi (v c : Nat) : Fld := ⟨0x300 + 0x80 * v + 0x8 * c, 24, 24⟩
def R.HK_LIMIT.enable (v c : Nat) : Fld := ⟨0x300 + 0x80 * v + 0x8 * c, 48, 1⟩
def R.HK_ALARM.bits : Fld := ⟨0x400, 0, 32⟩
def R.HK_IRQ.vector : Fld := ⟨0x408, 0, 11⟩
def R.HK_IRQ.irq_enable : Fld := ⟨0x408, 11, 1⟩
def R.HK_COUNTS.urgent_dropped : Fld := ⟨0x410, 0, 16⟩
def R.HK_COUNTS.plaus_mismatches : Fld := ⟨0x410, 16, 16⟩
def R.HK_COUNTS.ovr_events : Fld := ⟨0x410, 32, 16⟩
def R.HK_COUNTS.alarms : Fld := ⟨0x410, 48, 16⟩
def R.OBS_CTRL.run : Fld := ⟨0x40, 0, 1⟩
def R.OBS_CTRL.trace_enable : Fld := ⟨0x40, 1, 1⟩
def R.OBS_CTRL.trace_wrap : Fld := ⟨0x40, 2, 1⟩
def R.OBS_CTRL.stop_on_muster : Fld := ⟨0x40, 3, 1⟩
def R.OBS_STATUS.trace_head : Fld := ⟨0x48, 0, 12⟩
def R.OBS_STATUS.full : Fld := ⟨0x48, 12, 1⟩
def R.OBS_STATUS.stopped : Fld := ⟨0x48, 13, 1⟩
def R.OBS_CYCLES.count : Fld := ⟨0x50, 0, 64⟩
def R.OBS_TRACE_READ.index : Fld := ⟨0x80, 0, 12⟩
def R.OBS_COUNTS.trace_records : Fld := ⟨0x98, 0, 32⟩
def R.OBS_COUNTS.trace_dropped : Fld := ⟨0x98, 32, 32⟩
def R.OBS_JTAG.obsreads : Fld := ⟨0xa0, 0, 16⟩
def R.OBS_JTAG.refused : Fld := ⟨0xa0, 16, 16⟩
def R.OBS_JTAG.extest_refused : Fld := ⟨0xa0, 32, 16⟩
def R.OBS_SEL.unit (k : Nat) : Fld := ⟨0x100 + 0x8 * k, 0, 8⟩
def R.OBS_SEL.event (k : Nat) : Fld := ⟨0x100 + 0x8 * k, 8, 8⟩
def R.OBS_SEL.trace (k : Nat) : Fld := ⟨0x100 + 0x8 * k, 16, 1⟩
def R.OBS_SEL.invalid (k : Nat) : Fld := ⟨0x100 + 0x8 * k, 17, 1⟩
def R.OBS_CNT.count (k : Nat) : Fld := ⟨0x400 + 0x8 * k, 0, 48⟩
def R.GPIO_DIR.level : Fld := ⟨0x200, 0, 16⟩
def R.GPIO_OUT.level : Fld := ⟨0x208, 0, 16⟩
def R.REG_REQ_FERRY.level : Fld := ⟨0x140, 0, 11⟩
def R.REG_REQ_FERRY.high_water : Fld := ⟨0x140, 16, 11⟩
def R.REG_RSP_FERRY.level : Fld := ⟨0x148, 0, 11⟩
def R.REG_RSP_FERRY.high_water : Fld := ⟨0x148, 16, 11⟩
def R.MGMT_FERRY_UP.level : Fld := ⟨0x150, 0, 11⟩
def R.MGMT_FERRY_UP.high_water : Fld := ⟨0x150, 16, 11⟩
def R.MGMT_FERRY_DOWN.level : Fld := ⟨0x158, 0, 11⟩
def R.MGMT_FERRY_DOWN.high_water : Fld := ⟨0x158, 16, 11⟩
def R.TIME_FERRY.level : Fld := ⟨0x160, 0, 11⟩
def R.TIME_FERRY.high_water : Fld := ⟨0x160, 16, 11⟩
def R.TIME_FERRY.discards : Fld := ⟨0x160, 32, 32⟩
def R.TBUS_OUT_FERRY.level : Fld := ⟨0x168, 0, 11⟩
def R.TBUS_OUT_FERRY.high_water : Fld := ⟨0x168, 16, 11⟩
def R.TBUS_OUT_FERRY.discards : Fld := ⟨0x168, 32, 32⟩
def R.TBUS_IN_FERRY.level : Fld := ⟨0x170, 0, 11⟩
def R.TBUS_IN_FERRY.high_water : Fld := ⟨0x170, 16, 11⟩
def R.TBUS_IN_FERRY.discards : Fld := ⟨0x170, 32, 32⟩
def R.LAYER_ACTIVE.base (k : Nat) : Fld := ⟨0x118 + 0x40 * k, 0, 40⟩
def R.LAYER_ACTIVE.stride (k : Nat) : Fld := ⟨0x118 + 0x40 * k, 40, 20⟩
def R.LAYER_ACTIVE2.x (k : Nat) : Fld := ⟨0x120 + 0x40 * k, 0, 13⟩
def R.LAYER_ACTIVE2.y (k : Nat) : Fld := ⟨0x120 + 0x40 * k, 13, 13⟩
def R.LAYER_ACTIVE2.w (k : Nat) : Fld := ⟨0x120 + 0x40 * k, 26, 13⟩
def R.LAYER_ACTIVE2.h (k : Nat) : Fld := ⟨0x120 + 0x40 * k, 39, 13⟩
def R.LAYER_FERRY.level (k : Nat) : Fld := ⟨0x128 + 0x40 * k, 0, 11⟩
def R.LAYER_FERRY.high_water (k : Nat) : Fld := ⟨0x128 + 0x40 * k, 16, 11⟩
def R.LAYER_FERRY.discards (k : Nat) : Fld := ⟨0x128 + 0x40 * k, 32, 32⟩

end Sys2Proof.Machine
end

