-- ==== Sys2Proof/Machine/RegTable.lean ====
section
/-!
DEFINITION. Sys2Proof/Machine/RegTable.lean: every register of every block as its register table gives it: offset, count
and stride, what a software write does to each bit (R5), where its snapshot copy stands, and every reset value that is not
zero. The register spaces that hold no register file word of their own (HB_ROM, FIR_COEF, LOG_ROM, the live register files
of R248) are listed as read-only rows.
-/
namespace Sys2Proof.Machine

/-- Registers of the header block, in offset order, by its chapter's register tables. -/
def regsHeader : List RegRow :=
  [⟨0x0, 1, 0, [⟨0, 0, 0, 0⟩], 4, 0, 0⟩ /- BLOCK_ID -/,
   ⟨0x8, 1, 0, [⟨0x1, 0, 0, 0⟩], 4, 0, 0⟩ /- BLOCK_CTRL -/,
   ⟨0x10, 1, 0, [⟨0, 0, 0x38, 0⟩], 4, 0, 0⟩ /- BLOCK_STATUS -/,
   ⟨0x18, 1, 0, [⟨0, 0, 0, 0⟩], 4, 0, 0⟩ /- LAST_IGNORED -/,
   ⟨0x20, 1, 0, [⟨0xffffffff, 0, 0, 0⟩], 4, 0, 0⟩ /- IGNORED_WRITES -/,
   ⟨0x28, 1, 0, [⟨0xffffffff, 0, 0, 0⟩], 4, 0, 0⟩ /- LOCKED_WRITES -/,
   ⟨0x30, 1, 0, [⟨0, 0, 0, 0⟩], 4, 0, 0⟩ /- SNAP_SEQ -/,
   ⟨0x38, 1, 0, [⟨0, 0, 0, 0⟩], 4, 0, 0⟩ /- HDR_RESERVED -/]

/-- Registers of the global block, in offset order, by its chapter's register tables. -/
def regsGlobal : List RegRow :=
  [⟨0x40, 1, 0, [⟨0, 0, 0, 0⟩], 4, 0, 0⟩ /- DEVICE_ID -/,
   ⟨0x100, 1, 0, [⟨0, 0, 0, 0⟩, ⟨0, 0, 0, 0⟩], 16, 0, 0⟩ /- DEVICE_STATE -/,
   ⟨0x110, 1, 0, [⟨0xff00, 0, 0, 0x1f⟩], 4, 0, 0⟩ /- DEVICE_CTRL -/,
   ⟨0x118, 1, 0, [⟨0x7ff, 0, 0, 0⟩], 4, 0, 0⟩ /- FATAL_VECTOR -/,
   ⟨0x120, 1, 0, [⟨0, 0, 0, 0⟩], 4, 0, 0⟩ /- STRAPS -/,
   ⟨0x128, 1, 0, [⟨0xffffffffffffffff, 0, 0, 0⟩], 8, 0, 0⟩ /- SCRATCH -/,
   ⟨0x140, 1, 0, [⟨0, 0, 0, 0x8000000⟩], 8, 0x940, 0⟩ /- REG_REQ_FERRY -/,
   ⟨0x148, 1, 0, [⟨0, 0, 0, 0x8000000⟩], 8, 0x948, 0⟩ /- REG_RSP_FERRY -/,
   ⟨0x150, 1, 0, [⟨0, 0, 0, 0x8000000⟩], 8, 0x950, 0⟩ /- MGMT_FERRY_UP -/,
   ⟨0x158, 1, 0, [⟨0, 0, 0, 0x8000000⟩], 8, 0x958, 0⟩ /- MGMT_FERRY_DOWN -/,
   ⟨0x160, 1, 0, [⟨0xffffffff00000000, 0, 0, 0x8000000⟩], 8, 0x960, 0⟩ /- TIME_FERRY -/,
   ⟨0x168, 1, 0, [⟨0xffffffff00000000, 0, 0, 0x8000000⟩], 8, 0x968, 0⟩ /- TBUS_OUT_FERRY -/,
   ⟨0x170, 1, 0, [⟨0xffffffff00000000, 0, 0, 0x8000000⟩], 8, 0x970, 0⟩ /- TBUS_IN_FERRY -/,
   ⟨0x200, 1, 0, [⟨0xffff, 0, 0, 0⟩], 4, 0, 0⟩ /- GPIO_DIR -/,
   ⟨0x208, 1, 0, [⟨0xffff, 0, 0, 0⟩], 4, 0, 0⟩ /- GPIO_OUT -/,
   ⟨0x210, 1, 0, [⟨0, 0, 0, 0⟩], 4, 0xa10, 0⟩ /- GPIO_IN -/]

/-- Registers of the muster block, in offset order, by its chapter's register tables. -/
def regsMuster : List RegRow :=
  [⟨0x40, 1, 0, [⟨0x3fdc, 0, 0, 0x23⟩], 4, 0, 0⟩ /- MUSTER_CTRL -/,
   ⟨0x48, 1, 0, [⟨0, 0, 0x1f0000, 0⟩], 4, 0, 0⟩ /- MUSTER_STATUS -/,
   ⟨0x50, 1, 0, [⟨0, 0, 0, 0⟩], 4, 0, 0⟩ /- MUSTER_SEQ -/,
   ⟨0x60, 1, 0, [⟨0, 0, 0, 0⟩, ⟨0, 0, 0, 0⟩], 12, 0, 0⟩ /- MUSTER_T96 -/,
   ⟨0x70, 1, 0, [⟨0, 0, 0, 0⟩], 4, 0, 0⟩ /- MUSTER_BOUND -/,
   ⟨0x80, 1, 0, [⟨0xffffffffffffffff, 0, 0, 0⟩, ⟨0xffffffff, 0, 0, 0⟩], 12, 0, 0⟩ /- MUSTER_SCHED_T96 -/,
   ⟨0x90, 1, 0, [⟨0, 0, 0, 0⟩], 4, 0, 0⟩ /- MUSTER_MISSED_LINK -/,
   ⟨0x98, 1, 0, [⟨0xffffffff, 0, 0, 0⟩], 4, 0, 0⟩ /- MUSTER_DECLINED -/]

/-- Registers of the rxg block, in offset order, by its chapter's register tables. -/
def regsRxg : List RegRow :=
  [⟨0x40, 1, 0, [⟨0, 0x7fff001f, 0, 0⟩], 4, 0, 0⟩ /- RXG_CFG -/,
   ⟨0x48, 5, 0x8, [⟨0, 0x1ffff, 0, 0⟩], 4, 0, 0⟩ /- RXG_SS -/,
   ⟨0x70, 1, 0, [⟨0, 0, 0xf80000000000000, 0⟩], 8, 0x870, 0⟩ /- RXG_STATUS -/,
   ⟨0x78, 1, 0, [⟨0xffff0000, 0, 0, 0⟩], 4, 0, 0⟩ /- RXG_CK -/,
   ⟨0x80, 5, 0x8, [⟨0, 0, 0, 0⟩], 8, 0x880, 0x8⟩ /- RXG_SAMPLES -/,
   ⟨0xa8, 5, 0x8, [⟨0xffffffffffffffff, 0, 0, 0⟩], 8, 0x8a8, 0x8⟩ /- RXG_LOST -/,
   ⟨0xd0, 1, 0, [⟨0, 0, 0, 0⟩], 8, 0, 0⟩ /- RXG_EPOCH_LAST -/,
   ⟨0xd8, 1, 0, [⟨0, 0, 0, 0⟩], 8, 0, 0⟩ /- RXG_LINKCMD_LAST -/,
   ⟨0xe0, 1, 0, [⟨0xffffffffffffffff, 0, 0, 0⟩], 8, 0x8e0, 0⟩ /- RXG_ERRCNT0 -/,
   ⟨0xe8, 1, 0, [⟨0xffffffffffffffff, 0, 0, 0⟩], 8, 0x8e8, 0⟩ /- RXG_ERRCNT1 -/,
   ⟨0xf0, 1, 0, [⟨0xffffffffffffffff, 0, 0, 0⟩], 8, 0x8f0, 0⟩ /- RXG_ERRCNT2 -/,
   ⟨0xf8, 1, 0, [⟨0xffffffff00000000, 0, 0, 0x8000000⟩], 8, 0x8f8, 0⟩ /- RXG_FERRY -/,
   ⟨0x100, 1, 0, [⟨0x1ffff, 0, 0, 0⟩], 4, 0, 0⟩ /- RXG_FOM_CFG -/,
   ⟨0x108, 15, 0x8, [⟨0, 0, 0x70, 0⟩], 4, 0x908, 0x8⟩ /- RXG_LANE -/,
   ⟨0x208, 15, 0x8, [⟨0xffffffffffffffff, 0, 0, 0⟩], 8, 0xa08, 0x8⟩ /- RXG_LANE_ERR -/,
   ⟨0x288, 15, 0x8, [⟨0x1000000000000, 0x2000000000000, 0, 0⟩], 8, 0, 0⟩ /- RXG_EQ -/,
   ⟨0x308, 15, 0x8, [⟨0xffffffffffff0007, 0, 0, 0⟩], 8, 0, 0⟩ /- RXG_PRBS -/,
   ⟨0x388, 15, 0x8, [⟨0xffffffffffffffff, 0, 0, 0⟩], 8, 0, 0⟩ /- RXG_PRBS_BITS -/]

/-- Registers of the txg block, in offset order, by its chapter's register tables. -/
def regsTxg : List RegRow :=
  [⟨0x40, 1, 0, [⟨0, 0x7fff07ff, 0, 0⟩], 4, 0, 0⟩ /- TXG_CFG -/,
   ⟨0x48, 5, 0x8, [⟨0, 0x1ffff, 0, 0⟩], 4, 0, 0⟩ /- TXG_SS -/,
   ⟨0x70, 1, 0, [⟨0, 0, 0x8, 0⟩], 8, 0x870, 0⟩ /- TXG_STATUS -/,
   ⟨0x80, 5, 0x8, [⟨0, 0, 0, 0⟩], 8, 0x880, 0x8⟩ /- TXG_SAMPLES -/,
   ⟨0xa8, 5, 0x8, [⟨0xffffffffffffffff, 0, 0, 0⟩], 8, 0x8a8, 0x8⟩ /- TXG_UNDERRUN -/,
   ⟨0xd0, 1, 0, [⟨0xffffff, 0, 0, 0x1000000⟩], 8, 0, 0⟩ /- TXG_LINKCMD -/,
   ⟨0xf8, 1, 0, [⟨0, 0, 0, 0x8000000⟩], 8, 0x8f8, 0⟩ /- TXG_FERRY -/,
   ⟨0x108, 15, 0x8, [⟨0x7, 0x8, 0x80, 0x30⟩], 4, 0x908, 0x8⟩ /- TXG_LANE -/,
   ⟨0x308, 15, 0x8, [⟨0xffffffff0007ffdf, 0, 0, 0x20⟩], 8, 0, 0⟩ /- TXG_PRBS -/]

/-- Registers of the filt block, in offset order, by its chapter's register tables. -/
def regsFilt : List RegRow :=
  [⟨0x40, 1, 0, [⟨0x4000, 0xf3ffd, 0, 0⟩], 4, 0, 0⟩ /- FILT_CFG -/,
   ⟨0x48, 1, 0, [⟨0, 0x3fffffff, 0, 0⟩], 4, 0, 0⟩ /- FILT_HB -/,
   ⟨0x50, 1, 0, [⟨0xffffffffffff, 0, 0, 0⟩], 8, 0, 0⟩ /- NCO_FCW_STAGE -/,
   ⟨0x58, 1, 0, [⟨0x1ffffffffffff, 0, 0, 0⟩], 8, 0, 0⟩ /- NCO_PHASE_STAGE -/,
   ⟨0x60, 1, 0, [⟨0x7, 0, 0, 0⟩], 4, 0, 0⟩ /- FIR_BANK_STAGE -/,
   ⟨0x68, 1, 0, [⟨0, 0, 0, 0x3⟩], 4, 0, 0⟩ /- FILT_COMMIT -/,
   ⟨0x70, 1, 0, [⟨0, 0, 0, 0⟩], 8, 0x870, 0⟩ /- FILT_STATUS -/,
   ⟨0x78, 1, 0, [⟨0, 0, 0, 0⟩], 4, 0x878, 0⟩ /- GROUP_DELAY -/,
   ⟨0x80, 1, 0, [⟨0, 0, 0, 0⟩], 8, 0x880, 0⟩ /- CHAIN_GEOM -/,
   ⟨0x88, 1, 0, [⟨0, 0, 0, 0⟩], 8, 0x888, 0⟩ /- NCO_FCW -/,
   ⟨0x90, 1, 0, [⟨0, 0, 0, 0⟩], 8, 0x890, 0⟩ /- NCO_PHASE_BASE -/,
   ⟨0x98, 1, 0, [⟨0, 0, 0, 0⟩], 8, 0x898, 0⟩ /- NCO_INDEX_BASE -/,
   ⟨0xa0, 1, 0, [⟨0, 0, 0, 0⟩], 8, 0x8a0, 0⟩ /- OUT_INDEX -/,
   ⟨0xa8, 1, 0, [⟨0xffffffffffffffff, 0, 0, 0⟩], 8, 0x8a8, 0⟩ /- SETTLE_SUPPRESSED -/,
   ⟨0xb0, 1, 0, [⟨0xffffffffffffffff, 0, 0, 0⟩], 8, 0x8b0, 0⟩ /- OVR_OUTPUTS -/,
   ⟨0xb8, 1, 0, [⟨0xffffffffffffffff, 0, 0, 0⟩], 8, 0x8b8, 0⟩ /- FILT_COUNTS -/,
   ⟨0xc0, 1, 0, [⟨0xffffffff000000ff, 0, 0, 0⟩], 8, 0x8c0, 0⟩ /- RESIDUE_CTRL -/,
   ⟨0xc8, 1, 0, [⟨0, 0, 0x3f, 0⟩], 4, 0, 0⟩ /- FILT_FAULT -/,
   ⟨0x100, 4, 0x8, [⟨0x1fffffff, 0, 0, 0x20000000⟩], 4, 0, 0⟩ /- FIR_BANK -/,
   ⟨0x400, 1, 0, [⟨0, 0x7f, 0, 0⟩], 4, 0, 0⟩ /- XF_CFG -/,
   ⟨0x408, 1, 0, [⟨0, 0x1f3f, 0, 0⟩], 4, 0, 0⟩ /- XF_GANG -/,
   ⟨0x410, 1, 0, [⟨0x1, 0, 0, 0⟩], 4, 0, 0⟩ /- WIN_STAGE -/,
   ⟨0x418, 2, 0x8, [⟨0xffffffff, 0, 0, 0x100000000⟩], 8, 0, 0⟩ /- WIN_STORE -/,
   ⟨0x428, 1, 0, [⟨0, 0, 0, 0x1⟩], 4, 0, 0⟩ /- XF_COMMIT -/,
   ⟨0x430, 1, 0, [⟨0, 0, 0, 0⟩], 4, 0xc30, 0⟩ /- XF_STATUS -/,
   ⟨0x438, 1, 0, [⟨0, 0, 0, 0⟩], 8, 0xc38, 0⟩ /- XF_FRAME -/,
   ⟨0x440, 1, 0, [⟨0xffff0000, 0, 0, 0⟩], 4, 0xc40, 0⟩ /- PWR_REF -/,
   ⟨0x450, 2, 0x10, [⟨0, 0, 0, 0⟩, ⟨0, 0, 0, 0⟩], 12, 0, 0⟩ /- WIN_INFO -/,
   ⟨0x470, 1, 0, [⟨0x1ffff, 0, 0, 0⟩], 8, 0, 0⟩ /- WIN_READ -/,
   ⟨0x478, 1, 0, [⟨0xffffffffffffffff, 0, 0, 0⟩], 8, 0xc78, 0⟩ /- XF_FRAMES -/,
   ⟨0x480, 1, 0, [⟨0xffffffffffffffff, 0, 0, 0⟩], 8, 0xc80, 0⟩ /- XF_COUNTS -/,
   ⟨0x488, 1, 0, [⟨0xffffffff, 0, 0, 0⟩], 4, 0xc88, 0⟩ /- XF_RESIDUE -/,
   ⟨0x490, 1, 0, [⟨0, 0, 0x1f, 0⟩], 4, 0, 0⟩ /- XF_FAULT -/,
   ⟨0x498, 1, 0, [⟨0, 0, 0, 0⟩], 4, 0xc98, 0⟩ /- XF_LOAD -/,
   ⟨0x4a0, 1, 0, [⟨0, 0, 0, 0⟩], 8, 0, 0⟩ /- XF_MEM -/]

/-- Registers of the trig block, in offset order, by its chapter's register tables. -/
def regsTrig : List RegRow :=
  [⟨0x40, 1, 0, [⟨0xff05, 0x2, 0, 0⟩], 4, 0, 0⟩ /- TRIG_CFG -/,
   ⟨0x48, 1, 0, [⟨0xffffffffff, 0, 0, 0⟩], 8, 0, 0⟩ /- TRIG_HOLDOFF -/,
   ⟨0x50, 1, 0, [⟨0, 0xffffffffffffffff, 0, 0⟩], 8, 0, 0⟩ /- TRIG_CAPTURE -/,
   ⟨0x58, 1, 0, [⟨0, 0, 0, 0x1f⟩], 4, 0, 0⟩ /- TRIG_CTRL -/,
   ⟨0x60, 1, 0, [⟨0, 0, 0, 0⟩], 4, 0x860, 0⟩ /- TRIG_STATUS -/,
   ⟨0x68, 1, 0, [⟨0, 0, 0, 0⟩], 8, 0x868, 0⟩ /- TRIG_EVAL -/,
   ⟨0x70, 1, 0, [⟨0xffffffffffffffff, 0, 0, 0⟩, ⟨0xffffffff, 0, 0, 0⟩], 12, 0, 0⟩ /- TRIG_WIN_START -/,
   ⟨0x80, 1, 0, [⟨0xffffffffffffffff, 0, 0, 0⟩, ⟨0xffffffff, 0, 0, 0⟩], 12, 0, 0⟩ /- TRIG_WIN_END -/,
   ⟨0x90, 1, 0, [⟨0xffffffffffffffff, 0, 0, 0⟩, ⟨0xffffffff, 0, 0, 0⟩], 12, 0, 0⟩ /- TIMER_T96 -/,
   ⟨0xa0, 4, 0x8, [⟨0xffffffff, 0, 0, 0⟩], 4, 0, 0⟩ /- TERM_STAGE -/,
   ⟨0xc0, 4, 0x8, [⟨0, 0, 0, 0⟩], 4, 0, 0⟩ /- TERM -/,
   ⟨0x100, 4, 0x20, [⟨0, 0xffffffffff7f, 0, 0⟩], 8, 0, 0⟩ /- TD_CFG -/,
   ⟨0x108, 4, 0x20, [⟨0xffffffffffff, 0, 0, 0⟩], 8, 0, 0⟩ /- TD_THR_STAGE -/,
   ⟨0x110, 4, 0x20, [⟨0, 0xffffffffffffffff, 0, 0⟩], 8, 0, 0⟩ /- TD_WIDTH -/,
   ⟨0x118, 4, 0x20, [⟨0, 0, 0, 0⟩], 8, 0, 0⟩ /- TD_THR -/,
   ⟨0x180, 2, 0x20, [⟨0, 0x3fffffffff, 0, 0⟩], 8, 0, 0⟩ /- FM_CFG -/,
   ⟨0x188, 2, 0x20, [⟨0xfffff, 0, 0, 0⟩], 4, 0, 0⟩ /- FM_STAGE -/,
   ⟨0x190, 2, 0x20, [⟨0, 0, 0, 0⟩], 4, 0, 0⟩ /- FM_ACTIVE -/,
   ⟨0x198, 2, 0x20, [⟨0, 0, 0, 0⟩], 8, 0, 0⟩ /- FM_PEAK -/,
   ⟨0x1c0, 2, 0x20, [⟨0, 0x3ffffffffffff, 0, 0⟩], 8, 0, 0⟩ /- DN_CFG -/,
   ⟨0x1c8, 2, 0x20, [⟨0xffffff, 0, 0, 0⟩], 4, 0, 0⟩ /- DN_THR_STAGE -/,
   ⟨0x1d0, 2, 0x20, [⟨0, 0, 0, 0⟩], 4, 0, 0⟩ /- DN_THR -/,
   ⟨0x1d8, 2, 0x20, [⟨0, 0, 0, 0⟩], 4, 0, 0⟩ /- DN_SUM -/,
   ⟨0x200, 1, 0, [⟨0, 0xff, 0, 0⟩], 4, 0, 0⟩ /- BUS_SEL -/,
   ⟨0x208, 1, 0, [⟨0xffffffffffffffff, 0, 0, 0⟩], 8, 0xa08, 0⟩ /- TRIG_COUNTS -/,
   ⟨0x210, 1, 0, [⟨0xffffffffffffffff, 0, 0, 0⟩], 8, 0xa10, 0⟩ /- TRIG_COUNTS2 -/,
   ⟨0x218, 1, 0, [⟨0, 0, 0, 0⟩, ⟨0, 0, 0, 0⟩], 12, 0xa18, 0⟩ /- TRIG_LAST -/,
   ⟨0x228, 1, 0, [⟨0, 0, 0, 0⟩], 8, 0xa28, 0⟩ /- TRIG_LAST_INFO -/,
   ⟨0x230, 1, 0, [⟨0, 0, 0x7, 0⟩], 4, 0, 0⟩ /- TRIG_FAULT -/,
   ⟨0x238, 1, 0, [⟨0, 0, 0, 0⟩], 4, 0xa38, 0⟩ /- TRIG_LOG_HEAD -/,
   ⟨0x2000, 64, 0x20, [⟨0, 0, 0, 0⟩, ⟨0, 0, 0, 0⟩, ⟨0, 0, 0, 0⟩, ⟨0, 0, 0, 0⟩], 32, 0, 0⟩ /- TRIG_LOG -/]

/-- Registers of the trigbus block, in offset order, by its chapter's register tables. -/
def regsTrigbus : List RegRow :=
  [⟨0x40, 1, 0, [⟨0x3fc00, 0x3ff, 0, 0⟩], 4, 0, 0⟩ /- TBUS_CFG -/,
   ⟨0x48, 1, 0, [⟨0, 0, 0, 0⟩], 8, 0x848, 0⟩ /- TBUS_STATUS -/,
   ⟨0x50, 1, 0, [⟨0xffffffff, 0, 0, 0⟩], 4, 0, 0⟩ /- TBUS_SKEW -/,
   ⟨0x80, 8, 0x8, [⟨0xffffffff, 0, 0, 0⟩], 4, 0, 0⟩ /- TBUS_LINE -/,
   ⟨0xc0, 8, 0x8, [⟨0xffffffffffffffff, 0, 0, 0⟩], 8, 0x8c0, 0x8⟩ /- TBUS_COUNT -/,
   ⟨0x100, 4, 0x8, [⟨0, 0x3, 0, 0⟩], 4, 0, 0⟩ /- TRIG_IN_CFG -/,
   ⟨0x140, 4, 0x10, [⟨0, 0, 0, 0⟩, ⟨0, 0, 0, 0⟩], 12, 0, 0⟩ /- TRIG_IN_LAST -/,
   ⟨0x180, 1, 0, [⟨0xffffffffffffffff, 0, 0, 0⟩], 8, 0x980, 0⟩ /- TRIG_IN_COUNT -/,
   ⟨0x200, 4, 0x8, [⟨0xffff3fff, 0, 0, 0⟩], 4, 0, 0⟩ /- TRIG_OUT_CFG -/]

/-- Registers of the records block, in offset order, by its chapter's register tables. -/
def regsRecords : List RegRow :=
  [⟨0x40, 1, 0, [⟨0, 0x3f, 0, 0⟩], 4, 0, 0⟩ /- REC_CFG -/,
   ⟨0x48, 1, 0, [⟨0xffffffff, 0, 0, 0⟩], 4, 0, 0⟩ /- MEAS_CFG -/,
   ⟨0x50, 1, 0, [⟨0, 0x1ffffff, 0, 0⟩], 4, 0, 0⟩ /- CAP_CFG -/,
   ⟨0x58, 1, 0, [⟨0, 0xffffffffff, 0, 0⟩], 8, 0, 0⟩ /- CAP_RING -/,
   ⟨0x60, 1, 0, [⟨0, 0, 0, 0x3⟩], 4, 0, 0⟩ /- CAP_CTRL -/,
   ⟨0x68, 1, 0, [⟨0, 0, 0, 0⟩], 8, 0x868, 0⟩ /- CAP_STATUS -/,
   ⟨0x80, 5, 0x10, [⟨0, 0x3ffffff, 0, 0⟩, ⟨0, 0x1ffffffff, 0, 0⟩], 16, 0, 0⟩ /- RED_CFG -/,
   ⟨0xd0, 1, 0, [⟨0, 0xffffffffffff, 0, 0⟩], 8, 0, 0⟩ /- SGRAM_CFG -/,
   ⟨0xd8, 1, 0, [⟨0, 0, 0, 0⟩], 8, 0x8d8, 0⟩ /- SGRAM_HEAD -/,
   ⟨0x100, 4, 0x10, [⟨0, 0xfffffffffffffff, 0, 0⟩, ⟨0, 0xfffffff, 0, 0⟩], 12, 0, 0⟩ /- DENS_CFG -/,
   ⟨0x140, 4, 0x8, [⟨0xffffffffffffffff, 0, 0, 0⟩], 8, 0x940, 0x8⟩ /- DENS_SAT -/,
   ⟨0x180, 11, 0x8, [⟨0, 0xfffffff, 0, 0⟩], 4, 0, 0⟩ /- REC_CLASS -/,
   ⟨0x1e0, 1, 0, [⟨0, 0, 0, 0⟩], 4, 0x9e0, 0⟩ /- REC_OPEN -/,
   ⟨0x1e8, 1, 0, [⟨0xffffffffffffffff, 0, 0, 0⟩], 8, 0x9e8, 0⟩ /- REC_COUNTS -/,
   ⟨0x1f0, 1, 0, [⟨0xffffffffffffffff, 0, 0, 0⟩], 8, 0x9f0, 0⟩ /- REC_COUNTS2 -/,
   ⟨0x1f8, 1, 0, [⟨0, 0, 0x7, 0⟩], 4, 0, 0⟩ /- REC_FAULT -/,
   ⟨0x200, 1, 0, [⟨0, 0x3fffff, 0, 0⟩], 4, 0, 0⟩ /- SYN_CFG -/,
   ⟨0x208, 1, 0, [⟨0, 0xffffffffffff, 0, 0⟩], 8, 0, 0⟩ /- SYN_RATE -/,
   ⟨0x210, 1, 0, [⟨0xffffffffffffffff, 0, 0, 0⟩, ⟨0xffffffff, 0, 0, 0⟩], 12, 0, 0⟩ /- SYN_START_T96 -/,
   ⟨0x220, 1, 0, [⟨0xffffff, 0, 0, 0⟩], 4, 0, 0⟩ /- SYN_LEAD -/,
   ⟨0x228, 1, 0, [⟨0, 0xfffffffffffff07f, 0, 0⟩], 8, 0, 0⟩ /- PB_BASE -/,
   ⟨0x230, 1, 0, [⟨0, 0xffffffffffffffff, 0, 0⟩], 8, 0, 0⟩ /- PB_LOOP -/,
   ⟨0x238, 1, 0, [⟨0xfffffffff, 0, 0, 0⟩], 8, 0, 0⟩ /- PB_DOORBELL -/,
   ⟨0x240, 1, 0, [⟨0, 0, 0, 0⟩], 8, 0xa40, 0⟩ /- PB_CONSUMED -/,
   ⟨0x248, 1, 0, [⟨0, 0xfffffffffffff07f, 0, 0⟩], 8, 0, 0⟩ /- INS_BASE -/,
   ⟨0x250, 1, 0, [⟨0, 0xffffffffffffffff, 0, 0⟩], 8, 0, 0⟩ /- INS_LOOP -/,
   ⟨0x258, 1, 0, [⟨0xfffffffff, 0, 0, 0⟩], 8, 0, 0⟩ /- SYN_GAIN -/,
   ⟨0x260, 1, 0, [⟨0xffffffffffff, 0, 0, 0⟩], 8, 0, 0⟩ /- SYN_NCO -/,
   ⟨0x268, 1, 0, [⟨0, 0xffffff, 0, 0⟩], 8, 0, 0⟩ /- RELAY_CFG -/,
   ⟨0x270, 1, 0, [⟨0xfffff, 0, 0, 0⟩], 8, 0, 0⟩ /- GAIN_STAGE -/,
   ⟨0x278, 1, 0, [⟨0, 0, 0, 0x7⟩], 4, 0, 0⟩ /- SYN_CTRL -/,
   ⟨0x280, 1, 0, [⟨0, 0, 0, 0⟩], 8, 0xa80, 0⟩ /- SYN_STATUS -/,
   ⟨0x288, 1, 0, [⟨0, 0, 0, 0⟩], 8, 0xa88, 0⟩ /- SYN_INDEX -/,
   ⟨0x290, 1, 0, [⟨0, 0, 0, 0⟩], 4, 0, 0⟩ /- SYN_ROUTE -/,
   ⟨0x298, 1, 0, [⟨0xffffffffffffffff, 0, 0, 0⟩], 8, 0xa98, 0⟩ /- SYN_COUNTS -/,
   ⟨0x2a0, 1, 0, [⟨0xffffffffffffffff, 0, 0, 0⟩], 8, 0xaa0, 0⟩ /- SYN_COUNTS2 -/,
   ⟨0x2a8, 1, 0, [⟨0, 0, 0, 0⟩], 8, 0xaa8, 0⟩ /- SYN_LAST_EVENT -/,
   ⟨0x2b0, 1, 0, [⟨0, 0, 0x1f, 0⟩], 4, 0, 0⟩ /- SYN_FAULT -/]

/-- Registers of the chan block, in offset order, by its chapter's register tables. -/
def regsChan : List RegRow :=
  [⟨0x40, 1, 0, [⟨0, 0, 0, 0⟩], 8, 0x840, 0⟩ /- CHAN_TOTAL -/,
   ⟨0x100, 17, 0x40, [⟨0, 0xfffffffffff, 0, 0⟩], 8, 0, 0⟩ /- CHAN_CFG -/,
   ⟨0x108, 17, 0x40, [⟨0, 0x3ffffff, 0, 0⟩], 4, 0, 0⟩ /- CHAN_MAP -/,
   ⟨0x110, 17, 0x40, [⟨0xfffff, 0, 0, 0⟩], 8, 0x910, 0x40⟩ /- CHAN_SEL -/,
   ⟨0x118, 17, 0x40, [⟨0, 0, 0, 0x1⟩], 4, 0x918, 0x40⟩ /- CHAN_CTRL -/,
   ⟨0x120, 17, 0x40, [⟨0, 0, 0, 0⟩], 8, 0x920, 0x40⟩ /- CHAN_INDEX -/,
   ⟨0x128, 17, 0x40, [⟨0xffffffffffffffff, 0, 0, 0⟩], 8, 0x928, 0x40⟩ /- CHAN_COUNTS -/,
   ⟨0x130, 17, 0x40, [⟨0xffffffffffffffff, 0, 0, 0⟩], 8, 0x930, 0x40⟩ /- CHAN_COUNTS2 -/,
   ⟨0x138, 17, 0x40, [⟨0, 0, 0xf, 0⟩], 4, 0, 0⟩ /- CHAN_FAULT -/]

/-- Registers of the queue block, in offset order, by its chapter's register tables. -/
def regsQueue : List RegRow :=
  [⟨0x40, 1, 0, [⟨0x3ff0000000000, 0xffffffffff, 0, 0⟩], 8, 0, 0⟩ /- QUEUE_CFG -/,
   ⟨0x48, 1, 0, [⟨0x7fffff, 0, 0, 0x800000⟩], 4, 0, 0⟩ /- QUEUE_CMD -/,
   ⟨0x50, 1, 0, [⟨0xfffffffffffff7ff, 0, 0, 0⟩, ⟨0xffffffffffffffff, 0, 0, 0⟩], 16, 0, 0⟩ /- QUEUE_CTX_IN -/,
   ⟨0x60, 1, 0, [⟨0, 0, 0, 0⟩, ⟨0, 0, 0, 0⟩, ⟨0, 0, 0, 0⟩, ⟨0, 0, 0, 0⟩], 32, 0, 0⟩ /- QUEUE_CTX_OUT -/,
   ⟨0xa0, 1, 0, [⟨0, 0, 0, 0⟩], 8, 0, 0⟩ /- QUEUE_DOORBELL -/,
   ⟨0xa8, 1, 0, [⟨0xffffffffffffffff, 0, 0, 0⟩], 8, 0x8a8, 0⟩ /- QUEUE_COUNTS -/,
   ⟨0xb0, 1, 0, [⟨0xffffffffffffffff, 0, 0, 0⟩], 8, 0x8b0, 0⟩ /- QUEUE_CACHE -/,
   ⟨0xb8, 1, 0, [⟨0xffffffffffffffff, 0, 0, 0⟩], 8, 0x8b8, 0⟩ /- QUEUE_PUBLISHED -/,
   ⟨0xc0, 1, 0, [⟨0, 0, 0x1f, 0⟩], 4, 0, 0⟩ /- QUEUE_FAULT -/,
   ⟨0xc8, 1, 0, [⟨0, 0, 0, 0⟩], 4, 0, 0⟩ /- QUEUE_LAST_FAULT -/,
   ⟨0xd0, 1, 0, [⟨0, 0, 0, 0⟩], 8, 0x8d0, 0⟩ /- QUEUE_STAGING -/]

/-- Registers of the core block, in offset order, by its chapter's register tables. -/
def regsCore : List RegRow :=
  [⟨0x40, 1, 0, [⟨0, 0x7, 0, 0⟩], 4, 0x840, 0⟩ /- SLICE_MODE -/,
   ⟨0x48, 1, 0, [⟨0x7f, 0, 0, 0⟩], 4, 0x848, 0⟩ /- CORE_CFG -/,
   ⟨0x50, 1, 0, [⟨0, 0, 0, 0⟩], 4, 0x850, 0⟩ /- CORE_STATUS -/,
   ⟨0x58, 1, 0, [⟨0, 0, 0, 0⟩], 8, 0x858, 0⟩ /- CORE_IMAGE -/,
   ⟨0x60, 1, 0, [⟨0, 0, 0, 0⟩], 8, 0x860, 0⟩ /- CORE_IMAGE2 -/,
   ⟨0x68, 1, 0, [⟨0, 0, 0, 0⟩], 4, 0x868, 0⟩ /- CORE_CSW -/,
   ⟨0x70, 1, 0, [⟨0, 0, 0, 0⟩], 4, 0x870, 0⟩ /- CORE_LOOP -/,
   ⟨0x78, 3, 0x8, [⟨0, 0, 0, 0⟩], 4, 0x878, 0x8⟩ /- LC -/,
   ⟨0x90, 3, 0x8, [⟨0, 0, 0, 0⟩], 4, 0x890, 0x8⟩ /- LOOP_BOUNDS -/,
   ⟨0xa8, 1, 0, [⟨0, 0, 0, 0⟩], 8, 0x8a8, 0⟩ /- CORE_EXC -/,
   ⟨0xb0, 1, 0, [⟨0, 0, 0, 0⟩], 8, 0x8b0, 0⟩ /- CORE_ISAVE -/,
   ⟨0xb8, 1, 0, [⟨0xffff, 0, 0, 0⟩], 4, 0x8b8, 0⟩ /- INT_EN -/,
   ⟨0xc0, 1, 0, [⟨0, 0, 0xffff, 0⟩], 4, 0x8c0, 0⟩ /- INT_PEND -/,
   ⟨0xc8, 1, 0, [⟨0xffffffffffffffff, 0, 0, 0⟩], 8, 0x8c8, 0⟩ /- MBOX_IN -/,
   ⟨0xd0, 1, 0, [⟨0xffffffffffffffff, 0, 0, 0⟩], 8, 0x8d0, 0⟩ /- MBOX_OUT -/,
   ⟨0xd8, 1, 0, [⟨0xffffffffffffffff, 0, 0, 0⟩], 8, 0x8d8, 0⟩ /- PEER_DOORBELL -/,
   ⟨0xe0, 1, 0, [⟨0xffffffffffffffff, 0, 0, 0⟩], 8, 0x8e0, 0⟩ /- CORE_TIMER -/,
   ⟨0xe8, 1, 0, [⟨0xffffffffffffffff, 0, 0, 0⟩], 8, 0x8e8, 0⟩ /- CORE_CYCLES -/,
   ⟨0xf0, 1, 0, [⟨0xffffffffffffffff, 0, 0, 0⟩], 8, 0x8f0, 0⟩ /- CORE_BUNDLES -/,
   ⟨0xf8, 1, 0, [⟨0xffffffffffffffff, 0, 0, 0⟩], 8, 0x8f8, 0⟩ /- CORE_STALLS -/,
   ⟨0x100, 1, 0, [⟨0xffffffffffffffff, 0, 0, 0⟩], 8, 0x900, 0⟩ /- CORE_COUNTS -/,
   ⟨0x108, 1, 0, [⟨0, 0, 0x7f, 0⟩], 4, 0x908, 0⟩ /- CORE_FAULT -/,
   ⟨0x110, 1, 0, [⟨0, 0, 0, 0⟩], 4, 0, 0⟩ /- CORE_SNAP_INFO -/]

/-- Registers of the placement block, in offset order, by its chapter's register tables. -/
def regsPlacement : List RegRow :=
  [⟨0x40, 1, 0, [⟨0x1ff, 0, 0, 0x200⟩], 4, 0, 0⟩ /- PL_CTRL -/,
   ⟨0x48, 1, 0, [⟨0xffffffffffffffff, 0, 0, 0⟩], 8, 0, 0⟩ /- PL_ARG -/,
   ⟨0x50, 1, 0, [⟨0x1ffffffff, 0, 0, 0⟩], 8, 0, 0⟩ /- PL_ARG2 -/,
   ⟨0x58, 1, 0, [⟨0, 0, 0, 0⟩], 8, 0x858, 0⟩ /- PL_STATUS -/,
   ⟨0x60, 1, 0, [⟨0, 0, 0, 0⟩, ⟨0, 0, 0, 0⟩], 16, 0x860, 0⟩ /- PL_HEADROOM -/,
   ⟨0x70, 1, 0, [⟨0, 0xffffffffff, 0, 0⟩], 8, 0, 0⟩ /- PL_DRAM_BASE -/,
   ⟨0x78, 1, 0, [⟨0, 0xffffffffff, 0, 0⟩], 8, 0, 0⟩ /- PL_DRAM_SIZE -/,
   ⟨0x80, 1, 0, [⟨0, 0xfffff, 0, 0⟩], 4, 0, 0⟩ /- PL_PCIE_BUDGET -/,
   ⟨0x88, 1, 0, [⟨0xffffffffffffffff, 0, 0, 0⟩], 8, 0x888, 0⟩ /- PL_COUNTS -/,
   ⟨0x90, 1, 0, [⟨0, 0, 0, 0⟩], 4, 0x890, 0⟩ /- PL_EVENT -/,
   ⟨0xa0, 1, 0, [⟨0x3ffffffff, 0, 0, 0⟩], 8, 0, 0⟩ /- CAL_CFG -/,
   ⟨0xa8, 1, 0, [⟨0x1f00, 0, 0, 0x3⟩], 4, 0, 0⟩ /- CAL_CTRL -/,
   ⟨0xb0, 1, 0, [⟨0, 0, 0, 0⟩], 8, 0x8b0, 0⟩ /- CAL_STATUS -/,
   ⟨0xb8, 1, 0, [⟨0, 0, 0, 0⟩], 8, 0x8b8, 0⟩ /- TKO_STATUS -/,
   ⟨0xc0, 1, 0, [⟨0, 0, 0, 0⟩], 8, 0x8c0, 0⟩ /- TKO_COMPARE -/,
   ⟨0xc8, 1, 0, [⟨0, 0, 0, 0⟩], 4, 0x8c8, 0⟩ /- TKO_LAST -/,
   ⟨0xd0, 1, 0, [⟨0, 0, 0, 0⟩, ⟨0, 0, 0, 0⟩], 12, 0, 0⟩ /- TKO_SWITCH_T96 -/,
   ⟨0xe0, 1, 0, [⟨0xffffffffffffffff, 0, 0, 0⟩], 8, 0x8e0, 0⟩ /- TKO_COUNTS -/,
   ⟨0xe8, 1, 0, [⟨0xffffffffffffffff, 0, 0, 0⟩], 8, 0x8e8, 0⟩ /- CAL_COUNTS -/,
   ⟨0x1000, 17, 0x10, [⟨0, 0, 0, 0⟩, ⟨0, 0, 0, 0⟩], 16, 0, 0⟩ /- PL_SLICE -/,
   ⟨0x1200, 64, 0x8, [⟨0, 0, 0, 0⟩], 4, 0, 0⟩ /- PL_STREAM -/,
   ⟨0x1400, 17, 0x40, [⟨0, 0, 0, 0⟩, ⟨0, 0, 0, 0⟩, ⟨0, 0, 0, 0⟩, ⟨0, 0, 0, 0⟩, ⟨0, 0, 0, 0⟩, ⟨0, 0, 0, 0⟩, ⟨0, 0, 0, 0⟩, ⟨0, 0, 0, 0⟩], 60, 0, 0⟩ /- CAL_SET -/,
   ⟨0x2000, 128, 0x40, [⟨0xffffffffffffffff, 0, 0, 0⟩, ⟨0xffffffffffffffff, 0, 0, 0⟩, ⟨0xffffffffffffffff, 0, 0, 0⟩, ⟨0xffffffffffffffff, 0, 0, 0⟩, ⟨0xffffffffffffffff, 0, 0, 0⟩, ⟨0xffffffffffffffff, 0, 0, 0⟩, ⟨0xffffffffffffffff, 0, 0, 0⟩, ⟨0xffffffffffffffff, 0, 0, 0⟩], 64, 0, 0⟩ /- DECL -/]

/-- Registers of the timebase block, in offset order, by its chapter's register tables. -/
def regsTimebase : List RegRow :=
  [⟨0x40, 1, 0, [⟨0xffffff00, 0x3f, 0, 0⟩], 4, 0, 0⟩ /- TB_CFG -/,
   ⟨0x48, 1, 0, [⟨0, 0, 0, 0x1f⟩], 4, 0, 0⟩ /- TB_CTRL -/,
   ⟨0x50, 1, 0, [⟨0, 0, 0x1800, 0⟩], 8, 0x850, 0⟩ /- TB_STATUS -/,
   ⟨0x58, 1, 0, [⟨0, 0, 0, 0⟩], 4, 0x858, 0⟩ /- TB_BOUND -/,
   ⟨0x60, 1, 0, [⟨0, 0, 0, 0⟩, ⟨0, 0, 0, 0⟩], 12, 0x860, 0⟩ /- TB_NOW -/,
   ⟨0x70, 1, 0, [⟨0xffffffffffff, 0, 0, 0⟩], 8, 0, 0⟩ /- TB_LOAD -/,
   ⟨0x78, 1, 0, [⟨0xffffffffffff, 0, 0, 0⟩], 8, 0, 0⟩ /- TB_UNC -/,
   ⟨0x80, 1, 0, [⟨0, 0, 0, 0⟩], 8, 0x880, 0⟩ /- TB_PHASE -/,
   ⟨0x88, 1, 0, [⟨0xffffffffffff0000, 0, 0, 0⟩], 8, 0x888, 0⟩ /- TB_REF -/,
   ⟨0x90, 1, 0, [⟨0xffffffffffffffff, 0, 0, 0⟩], 8, 0x890, 0⟩ /- TB_COUNTS -/,
   ⟨0x98, 1, 0, [⟨0xffffffffffffffff, 0, 0, 0⟩, ⟨0xffffffff, 0, 0, 0⟩], 12, 0, 0⟩ /- TB_EPOCH_AT -/,
   ⟨0xa8, 1, 0, [⟨0, 0xffffffffffffff, 0, 0⟩], 8, 0, 0⟩ /- TB_EPOCH_CFG -/,
   ⟨0xb0, 1, 0, [⟨0, 0, 0, 0⟩, ⟨0, 0, 0, 0⟩], 12, 0, 0⟩ /- TB_EPOCH_NEXT -/,
   ⟨0xc0, 1, 0, [⟨0, 0, 0, 0⟩, ⟨0, 0, 0, 0⟩], 12, 0x8c0, 0⟩ /- TB_EPOCH_LAST -/,
   ⟨0xd0, 1, 0, [⟨0xffffffffffffffff, 0, 0, 0⟩], 8, 0x8d0, 0⟩ /- TB_EPOCH_COUNT -/,
   ⟨0xe0, 1, 0, [⟨0xffffffffffff01ff, 0, 0, 0⟩, ⟨0xffff, 0, 0, 0⟩], 12, 0, 0⟩ /- TB_TRUST_STAGE -/,
   ⟨0xf0, 1, 0, [⟨0, 0, 0, 0⟩, ⟨0, 0, 0, 0⟩, ⟨0, 0, 0, 0⟩, ⟨0, 0, 0, 0⟩, ⟨0, 0, 0, 0⟩], 36, 0, 0⟩ /- TB_TRUST_VALID -/,
   ⟨0x118, 1, 0, [⟨0x3f, 0, 0, 0⟩], 4, 0, 0⟩ /- TB_MAP_SEL -/,
   ⟨0x120, 1, 0, [⟨0, 0, 0, 0⟩, ⟨0, 0, 0, 0⟩, ⟨0, 0, 0, 0⟩, ⟨0xffffffff00000000, 0, 0, 0⟩], 32, 0, 0⟩ /- TB_MAP -/]

/-- Registers of the tdc block, in offset order, by its chapter's register tables. -/
def regsTdc : List RegRow :=
  [⟨0x40, 1, 0, [⟨0, 0x1fff, 0, 0⟩], 4, 0, 0⟩ /- TDC_CFG -/,
   ⟨0x48, 1, 0, [⟨0, 0, 0, 0x3⟩], 4, 0, 0⟩ /- TDC_CTRL -/,
   ⟨0x50, 1, 0, [⟨0, 0, 0, 0⟩], 4, 0x850, 0⟩ /- TDC_STATUS -/,
   ⟨0x58, 1, 0, [⟨0, 0, 0, 0⟩], 8, 0x858, 0⟩ /- TDC_RESULT -/,
   ⟨0x60, 1, 0, [⟨0, 0, 0, 0⟩, ⟨0, 0, 0, 0⟩], 12, 0, 0⟩ /- TDC_START_T96 -/,
   ⟨0x70, 1, 0, [⟨0, 0, 0, 0⟩, ⟨0, 0, 0, 0⟩], 12, 0, 0⟩ /- TDC_STOP_T96 -/,
   ⟨0x80, 1, 0, [⟨0xffffffffffffffff, 0, 0, 0⟩], 8, 0x880, 0⟩ /- TDC_COUNTS -/,
   ⟨0x88, 1, 0, [⟨0x3e, 0, 0, 0⟩], 4, 0, 0⟩ /- TDC_CAL_CFG -/,
   ⟨0x90, 1, 0, [⟨0xffffffff00000000, 0, 0, 0⟩], 8, 0x890, 0⟩ /- TDC_CAL_STATUS -/,
   ⟨0x98, 1, 0, [⟨0xfff, 0, 0, 0⟩], 8, 0, 0⟩ /- TDC_CAL_READ -/,
   ⟨0xa0, 1, 0, [⟨0, 0, 0, 0⟩], 4, 0, 0⟩ /- TDC_CAL_SPAN -/]

/-- Registers of the depot block, in offset order, by its chapter's register tables. -/
def regsDepot : List RegRow :=
  [⟨0x40, 1, 0, [⟨0, 0x1fff1f, 0, 0⟩], 4, 0, 0⟩ /- DEPOT_CFG -/,
   ⟨0x48, 1, 0, [⟨0, 0, 0, 0⟩], 4, 0x848, 0⟩ /- DEPOT_STATUS -/,
   ⟨0x50, 1, 0, [⟨0, 0, 0, 0⟩], 8, 0, 0⟩ /- DEPOT_REPAIR -/,
   ⟨0x58, 1, 0, [⟨0, 0, 0, 0⟩], 4, 0, 0⟩ /- DEPOT_REPAIR_VALID -/,
   ⟨0x60, 1, 0, [⟨0xffffffffffffffff, 0, 0, 0⟩], 8, 0x860, 0⟩ /- DEPOT_ECC -/,
   ⟨0x68, 1, 0, [⟨0, 0, 0, 0⟩], 8, 0, 0⟩ /- DEPOT_ERR_LAST -/,
   ⟨0x70, 1, 0, [⟨0xffffffffffffffff, 0, 0, 0⟩], 8, 0x870, 0⟩ /- DEPOT_COLL -/,
   ⟨0x78, 1, 0, [⟨0xffffffffffffffff, 0, 0, 0⟩], 8, 0x878, 0⟩ /- DEPOT_TEST -/,
   ⟨0x80, 1, 0, [⟨0, 0, 0x3f, 0⟩], 4, 0, 0⟩ /- DEPOT_FAULT -/,
   ⟨0x200, 17, 0x20, [⟨0, 0, 0, 0⟩], 4, 0xa00, 0x20⟩ /- LMEM_STATUS -/,
   ⟨0x208, 17, 0x20, [⟨0xffffffffffffffff, 0, 0, 0⟩], 8, 0xa08, 0x20⟩ /- LMEM_ECC -/,
   ⟨0x210, 17, 0x20, [⟨0xffffffffffffffff, 0, 0, 0⟩], 8, 0xa10, 0x20⟩ /- IMEM_ECC -/,
   ⟨0x218, 17, 0x20, [⟨0, 0, 0, 0⟩], 8, 0, 0⟩ /- LMEM_ERR_LAST -/]

/-- Registers of the dram block, in offset order, by its chapter's register tables. -/
def regsDram : List RegRow :=
  [⟨0x40, 1, 0, [⟨0, 0x7f, 0, 0⟩], 4, 0, 0⟩ /- DRAM_CFG -/,
   ⟨0x48, 1, 0, [⟨0, 0, 0, 0⟩], 4, 0, 0⟩ /- DRAM_GEOM -/,
   ⟨0x50, 1, 0, [⟨0, 0x7, 0, 0⟩], 4, 0, 0⟩ /- DRAM_MAP -/,
   ⟨0x58, 1, 0, [⟨0xff01ffff1fff, 0, 0, 0⟩], 8, 0, 0⟩ /- DRAM_POLICY -/,
   ⟨0x60, 1, 0, [⟨0, 0, 0, 0x1⟩], 4, 0, 0⟩ /- DRAM_CTRL -/,
   ⟨0x68, 1, 0, [⟨0, 0, 0, 0⟩], 8, 0x868, 0⟩ /- DRAM_STATUS -/,
   ⟨0x100, 10, 0x8, [⟨0, 0, 0, 0⟩], 8, 0, 0⟩ /- DRAM_TRAIN -/,
   ⟨0x160, 1, 0, [⟨0, 0, 0, 0⟩], 8, 0, 0⟩ /- DRAM_TAG -/,
   ⟨0x170, 1, 0, [⟨0xffffffffffffffff, 0, 0, 0⟩], 8, 0x970, 0⟩ /- DRAM_ECC -/,
   ⟨0x178, 1, 0, [⟨0, 0, 0, 0⟩], 8, 0, 0⟩ /- DRAM_ERR_LAST -/,
   ⟨0x180, 1, 0, [⟨0xffffffffffffffff, 0, 0, 0⟩], 8, 0x980, 0⟩ /- DRAM_COUNTS -/,
   ⟨0x188, 1, 0, [⟨0xffffffffffffffff, 0, 0, 0⟩], 8, 0x988, 0⟩ /- DRAM_COUNTS2 -/,
   ⟨0x190, 1, 0, [⟨0, 0, 0, 0x8000000⟩], 8, 0x990, 0⟩ /- DRAM_FERRY_WR -/,
   ⟨0x198, 1, 0, [⟨0, 0, 0, 0x8000000⟩], 8, 0x998, 0⟩ /- DRAM_FERRY_RD -/,
   ⟨0x1a0, 1, 0, [⟨0, 0xff, 0, 0⟩], 4, 0, 0⟩ /- DRAM_PASR -/,
   ⟨0x1a8, 1, 0, [⟨0, 0, 0x1f, 0⟩], 4, 0, 0⟩ /- DRAM_FAULT -/]

/-- Registers of the dma block, in offset order, by its chapter's register tables. -/
def regsDma : List RegRow :=
  [⟨0x40, 1, 0, [⟨0x7f07ff, 0, 0, 0⟩], 4, 0, 0⟩ /- DMA_CFG -/,
   ⟨0x48, 1, 0, [⟨0xffff0000, 0, 0, 0⟩], 8, 0, 0⟩ /- PCIE_STATUS -/,
   ⟨0x50, 4, 0x10, [⟨0xfffffffffffff001, 0, 0, 0⟩, ⟨0xfffffffffffff000, 0, 0, 0⟩], 16, 0, 0⟩ /- P2P_WIN -/,
   ⟨0x90, 1, 0, [⟨0, 0, 0, 0x8000000⟩], 8, 0x890, 0⟩ /- HOST_IN_FERRY -/,
   ⟨0x98, 1, 0, [⟨0, 0, 0, 0x8000000⟩], 8, 0x898, 0⟩ /- HOST_OUT_FERRY -/,
   ⟨0xa0, 1, 0, [⟨0xffffffffffffffff, 0, 0, 0⟩], 8, 0x8a0, 0⟩ /- DMA_COUNTS -/,
   ⟨0xa8, 1, 0, [⟨0xffffffffffffffff, 0, 0, 0⟩], 8, 0x8a8, 0⟩ /- DMA_COUNTS2 -/,
   ⟨0xb0, 1, 0, [⟨0xffffffffffffffff, 0, 0, 0⟩], 8, 0x8b0, 0⟩ /- DMA_BYTES -/,
   ⟨0xb8, 1, 0, [⟨0, 0, 0, 0⟩, ⟨0, 0, 0, 0⟩], 16, 0, 0⟩ /- DMA_LAST_FAULT -/,
   ⟨0xc8, 1, 0, [⟨0, 0, 0xff, 0⟩], 4, 0, 0⟩ /- DMA_FAULT -/]

/-- Registers of the dmaRings block, in offset order, by its chapter's register tables. -/
def regsDmaRings : List RegRow :=
  [⟨0x100, 64, 0x40, [⟨0xfffffffffffffe3f, 0, 0, 0⟩], 8, 0, 0⟩ /- RING_BASE -/,
   ⟨0x108, 64, 0x40, [⟨0x7ff, 0, 0, 0⟩], 4, 0, 0⟩ /- RING_CFG -/,
   ⟨0x110, 64, 0x40, [⟨0, 0, 0, 0x7⟩], 4, 0, 0⟩ /- RING_CTRL -/,
   ⟨0x118, 64, 0x40, [⟨0xffff, 0, 0, 0⟩], 4, 0, 0⟩ /- RING_TAIL -/,
   ⟨0x120, 64, 0x40, [⟨0xffff00000000, 0, 0, 0⟩], 8, 0x3100, 0x8⟩ /- RING_STATUS -/,
   ⟨0x128, 64, 0x40, [⟨0, 0, 0, 0⟩], 8, 0, 0⟩ /- RING_DESC -/,
   ⟨0x130, 64, 0x40, [⟨0xffffffffffffffff, 0, 0, 0⟩], 8, 0, 0⟩ /- RING_COUNTS -/,
   ⟨0x138, 64, 0x40, [⟨0xffffffffffffffff, 0, 0, 0⟩], 8, 0, 0⟩ /- RING_BYTES -/,
   ⟨0x1100, 256, 0x20, [⟨0xfffffffffffffe3f, 0, 0, 0⟩], 8, 0, 0⟩ /- CQ_BASE -/,
   ⟨0x1108, 256, 0x20, [⟨0x1fff, 0, 0, 0⟩], 4, 0, 0⟩ /- CQ_CFG -/,
   ⟨0x1110, 256, 0x20, [⟨0xffff, 0, 0, 0⟩], 4, 0, 0⟩ /- CQ_HEAD -/,
   ⟨0x1118, 256, 0x20, [⟨0xffff00000000, 0, 0xc0000, 0⟩], 8, 0x3300, 0x8⟩ /- CQ_STATUS -/]

/-- Registers of the check block, in offset order, by its chapter's register tables. -/
def regsCheck : List RegRow :=
  [⟨0x40, 1, 0, [⟨0, 0, 0x3, 0⟩], 4, 0, 0⟩ /- CHK_FAULT -/,
   ⟨0x48, 1, 0, [⟨0, 0, 0, 0⟩], 8, 0, 0⟩ /- CHK_SEED_STATUS -/,
   ⟨0x100, 60, 0x40, [⟨0, 0x3, 0, 0⟩], 4, 0, 0⟩ /- CHK_CFG -/,
   ⟨0x108, 64, 0x40, [⟨0, 0, 0, 0⟩], 4, 0x2108, 0x40⟩ /- CHK_ALIVE -/,
   ⟨0x110, 64, 0x40, [⟨0, 0, 0, 0⟩], 4, 0, 0⟩ /- CHK_OWNER -/,
   ⟨0x118, 64, 0x40, [⟨0xffffffffffffffff, 0, 0, 0⟩], 8, 0x2118, 0x40⟩ /- CHK_COUNTS -/,
   ⟨0x120, 64, 0x40, [⟨0, 0, 0, 0⟩], 8, 0, 0⟩ /- CHK_LAST -/,
   ⟨0x128, 64, 0x40, [⟨0xffffffffffffffff, 0, 0, 0⟩], 8, 0, 0⟩ /- CHK_BYTES -/,
   ⟨0x1000, 1, 0, [⟨0, 0, 0, 0⟩], 4, 0, 0⟩ /- CHK_CFG -/,
   ⟨0x1040, 1, 0, [⟨0, 0x3, 0, 0⟩], 4, 0, 0⟩ /- CHK_CFG -/,
   ⟨0x1080, 2, 0x40, [⟨0, 0, 0, 0⟩], 4, 0, 0⟩ /- CHK_CFG -/]

/-- Registers of the display block, in offset order, by its chapter's register tables. -/
def regsDisplay : List RegRow :=
  [⟨0x40, 1, 0, [⟨0, 0x1ffffff, 0, 0⟩], 4, 0, 0⟩ /- DISP_LINK -/,
   ⟨0x48, 1, 0, [⟨0, 0x1fffffffffffff, 0, 0⟩], 8, 0, 0⟩ /- DISP_H -/,
   ⟨0x50, 1, 0, [⟨0, 0x1fffffffffffff, 0, 0⟩], 8, 0, 0⟩ /- DISP_V -/,
   ⟨0x58, 1, 0, [⟨0x3fffffff, 0, 0, 0⟩], 4, 0, 0⟩ /- DISP_BG -/,
   ⟨0x60, 1, 0, [⟨0x1fff07ff001f, 0, 0, 0⟩], 8, 0, 0⟩ /- DISP_IRQ -/,
   ⟨0x68, 1, 0, [⟨0, 0, 0x7f, 0⟩], 4, 0, 0⟩ /- DISP_EVENTS -/,
   ⟨0x70, 1, 0, [⟨0, 0, 0, 0x3⟩], 4, 0, 0⟩ /- DISP_CTRL -/,
   ⟨0x78, 1, 0, [⟨0xffffffffff, 0, 0, 0⟩], 8, 0, 0⟩ /- DISP_CT -/,
   ⟨0x80, 1, 0, [⟨0, 0, 0, 0⟩], 8, 0x880, 0⟩ /- DISP_STATUS -/,
   ⟨0x88, 1, 0, [⟨0xffffffffffffffff, 0, 0, 0⟩], 8, 0x888, 0⟩ /- DISP_COUNTS -/,
   ⟨0x90, 1, 0, [⟨0x3ffffff, 0, 0, 0x4000000⟩], 4, 0, 0⟩ /- DISP_AUX -/,
   ⟨0x98, 2, 0x8, [⟨0xffffffffffffffff, 0, 0, 0⟩], 8, 0, 0⟩ /- DISP_AUX_DATA -/,
   ⟨0xa8, 1, 0, [⟨0xffffffff, 0, 0, 0⟩], 4, 0x8a8, 0⟩ /- DISP_HOLD -/,
   ⟨0x100, 4, 0x40, [⟨0xfffffffffffffff, 0, 0, 0⟩], 8, 0, 0⟩ /- LAYER_BASE -/,
   ⟨0x108, 4, 0x40, [⟨0xfffffffffffff, 0, 0, 0⟩], 8, 0, 0⟩ /- LAYER_GEOM -/,
   ⟨0x110, 4, 0x40, [⟨0x7ffffffffff, 0, 0, 0⟩], 8, 0, 0⟩ /- LAYER_CTRL -/,
   ⟨0x118, 4, 0x40, [⟨0, 0, 0, 0⟩], 8, 0, 0⟩ /- LAYER_ACTIVE -/,
   ⟨0x120, 4, 0x40, [⟨0, 0, 0, 0⟩], 8, 0, 0⟩ /- LAYER_ACTIVE2 -/,
   ⟨0x128, 4, 0x40, [⟨0xffffffff00000000, 0, 0, 0x8000000⟩], 8, 0x928, 0x40⟩ /- LAYER_FERRY -/]

/-- Registers of the clocks block, in offset order, by its chapter's register tables. -/
def regsClocks : List RegRow :=
  [⟨0x40, 1, 0, [⟨0, 0, 0, 0⟩], 4, 0x840, 0⟩ /- CLK_STATUS -/,
   ⟨0x48, 1, 0, [⟨0, 0, 0, 0⟩], 4, 0x848, 0⟩ /- CLK_CORE -/,
   ⟨0x50, 1, 0, [⟨0, 0x1f, 0, 0⟩], 4, 0, 0⟩ /- CLK_SPREAD -/,
   ⟨0x80, 16, 0x8, [⟨0x1fffffff, 0, 0, 0⟩], 4, 0, 0⟩ /- CLK_RAMP -/,
   ⟨0x100, 1, 0, [⟨0xf, 0, 0, 0x30⟩], 4, 0, 0⟩ /- CLK_RAMP_CTRL -/,
   ⟨0x140, 10, 0x8, [⟨0xffffffff, 0, 0, 0⟩], 4, 0x940, 0x8⟩ /- CLK_LOSSES -/,
   ⟨0x1a0, 1, 0, [⟨0, 0, 0, 0⟩], 4, 0, 0⟩ /- CLK_RESET_CAUSE -/,
   ⟨0x1a8, 1, 0, [⟨0, 0, 0, 0⟩], 8, 0, 0⟩ /- BOOT_STATUS -/,
   ⟨0x1b0, 1, 0, [⟨0, 0, 0, 0⟩], 4, 0, 0⟩ /- BOOT_COUNTER -/,
   ⟨0x1b8, 1, 0, [⟨0xffffffff, 0, 0, 0⟩], 4, 0, 0⟩ /- WAKE_CFG -/]

/-- Registers of the auth block, in offset order, by its chapter's register tables. -/
def regsAuth : List RegRow :=
  [⟨0x40, 1, 0, [⟨0, 0, 0, 0⟩], 4, 0, 0⟩ /- AUTH_LC -/,
   ⟨0x48, 1, 0, [⟨0xf, 0, 0, 0x30⟩], 4, 0x848, 0⟩ /- AUTH_CMD -/,
   ⟨0x50, 4, 0x8, [⟨0xffffffffffffffff, 0, 0, 0⟩], 8, 0, 0⟩ /- AUTH_ARG -/,
   ⟨0x70, 1, 0, [⟨0xffff00000000, 0, 0, 0⟩], 8, 0x870, 0⟩ /- AUTH_PRESENCE -/,
   ⟨0x78, 1, 0, [⟨0x1, 0, 0, 0⟩], 4, 0x878, 0⟩ /- AUTH_TAMPER -/,
   ⟨0x80, 1, 0, [⟨0, 0, 0, 0⟩], 4, 0x880, 0⟩ /- AUTH_REGION -/,
   ⟨0x100, 3, 0x8, [⟨0, 0, 0, 0⟩], 8, 0, 0⟩ /- AUTH_ITEM -/,
   ⟨0x120, 1, 0, [⟨0xffffffffffffffff, 0, 0, 0⟩], 8, 0, 0⟩ /- AUTH_COUNTS -/]

/-- Registers of the housekeeping block, in offset order, by its chapter's register tables. -/
def regsHousekeeping : List RegRow :=
  [⟨0x40, 1, 0, [⟨0xffffffffff0000, 0x3ff, 0, 0⟩], 8, 0, 0⟩ /- HK_CFG -/,
   ⟨0x48, 1, 0, [⟨0, 0xffff, 0, 0⟩], 4, 0, 0⟩ /- HK_SCAN -/,
   ⟨0x50, 1, 0, [⟨0, 0, 0, 0x1⟩], 4, 0, 0⟩ /- HK_CTRL -/,
   ⟨0x58, 1, 0, [⟨0xffff000000000000, 0, 0, 0⟩], 8, 0x858, 0⟩ /- HK_STATUS -/,
   ⟨0x100, 16, 0x8, [⟨0, 0, 0, 0⟩], 8, 0x900, 0x8⟩ /- HK_RESULT -/,
   ⟨0x180, 16, 0x8, [⟨0, 0, 0, 0⟩], 8, 0x980, 0x8⟩ /- HK_RESULT -/,
   ⟨0x200, 1, 0, [⟨0, 0, 0, 0⟩], 8, 0, 0⟩ /- HK_URGENT -/,
   ⟨0x210, 1, 0, [⟨0, 0, 0, 0⟩, ⟨0, 0, 0, 0⟩], 12, 0, 0⟩ /- HK_URGENT_T96 -/,
   ⟨0x220, 14, 0x8, [⟨0, 0, 0, 0⟩], 4, 0xa20, 0x8⟩ /- HK_ENG -/,
   ⟨0x290, 2, 0x8, [⟨0, 0, 0, 0⟩], 8, 0, 0⟩ /- HK_CAL -/,
   ⟨0x300, 16, 0x8, [⟨0x1ffffffffffff, 0, 0, 0⟩], 8, 0, 0⟩ /- HK_LIMIT -/,
   ⟨0x380, 16, 0x8, [⟨0x1ffffffffffff, 0, 0, 0⟩], 8, 0, 0⟩ /- HK_LIMIT -/,
   ⟨0x400, 1, 0, [⟨0, 0, 0xffffffff, 0⟩], 4, 0, 0⟩ /- HK_ALARM -/,
   ⟨0x408, 1, 0, [⟨0xfff, 0, 0, 0⟩], 4, 0, 0⟩ /- HK_IRQ -/,
   ⟨0x410, 1, 0, [⟨0xffffffffffffffff, 0, 0, 0⟩], 8, 0xc10, 0⟩ /- HK_COUNTS -/]

/-- Registers of the observe block, in offset order, by its chapter's register tables. -/
def regsObserve : List RegRow :=
  [⟨0x40, 1, 0, [⟨0xf, 0, 0, 0⟩], 4, 0, 0⟩ /- OBS_CTRL -/,
   ⟨0x48, 1, 0, [⟨0, 0, 0, 0⟩], 4, 0x848, 0⟩ /- OBS_STATUS -/,
   ⟨0x50, 1, 0, [⟨0xffffffffffffffff, 0, 0, 0⟩], 8, 0x850, 0⟩ /- OBS_CYCLES -/,
   ⟨0x80, 1, 0, [⟨0xfff, 0, 0, 0⟩], 4, 0, 0⟩ /- OBS_TRACE_READ -/,
   ⟨0x88, 1, 0, [⟨0, 0, 0, 0⟩, ⟨0, 0, 0, 0⟩], 16, 0, 0⟩ /- OBS_TRACE_DATA -/,
   ⟨0x98, 1, 0, [⟨0xffffffffffffffff, 0, 0, 0⟩], 8, 0, 0⟩ /- OBS_COUNTS -/,
   ⟨0xa0, 1, 0, [⟨0xffffffffffff, 0, 0, 0⟩], 8, 0, 0⟩ /- OBS_JTAG -/,
   ⟨0x100, 64, 0x8, [⟨0x1ffff, 0, 0, 0⟩], 4, 0, 0⟩ /- OBS_SEL -/,
   ⟨0x400, 64, 0x8, [⟨0xffffffffffff, 0, 0, 0⟩], 8, 0xc00, 0x8⟩ /- OBS_CNT -/]

/-- The header every block begins with (R32); offset 0x038 is an implemented reserved word. -/
def headerRows : List RegRow := regsHeader

/-- The registers of a block beyond its header. -/
def Blk.rows : Blk → List RegRow
  | .global => regsGlobal
  | .muster => regsMuster
  | .rxg _ => regsRxg
  | .txg _ => regsTxg
  | .filt _ => regsFilt
  | .trig _ => regsTrig
  | .trigbus => regsTrigbus
  | .records _ => regsRecords
  | .chan => regsChan
  | .queue => regsQueue
  | .core _ => regsCore
  | .placement => regsPlacement
  | .timebase => regsTimebase
  | .tdc => regsTdc
  | .depot => regsDepot
  | .dram _ => regsDram
  | .dma => regsDma
  | .dmaRings _ => regsDmaRings
  | .check => regsCheck
  | .display _ => regsDisplay
  | .clocks => regsClocks
  | .auth => regsAuth
  | .housekeeping => regsHousekeeping
  | .observe => regsObserve

/-- One register of an array at a reset value other than zero: first offset, count, stride, value. -/
structure ResetRow where
  off : Nat
  n : Nat
  stride : Nat
  value : Nat
  deriving DecidableEq, Repr

/-- The words of a block that the spec resets to something other than zero. -/
def Blk.resets : Blk → List ResetRow
  | .global => [⟨0x40, 1, 0, 0x512000b1⟩, ⟨0x100, 1, 0, 0x1⟩]
  | .muster => [⟨0x40, 1, 0, 0x40⟩, ⟨0x48, 1, 0, 0x1⟩, ⟨0x70, 1, 0, 0xffff⟩]
  | .rxg _ => [⟨0x40, 1, 0, 0x7fff0000⟩, ⟨0x100, 1, 0, 0x2040⟩]
  | .txg _ => [⟨0x40, 1, 0, 0x7fff02a0⟩, ⟨0x308, 15, 0x8, 0x20040⟩]
  | .filt _ => [⟨0x40, 1, 0, 0x84000⟩, ⟨0x58, 1, 0, 0x1000000000000⟩, ⟨0x80, 1, 0, 0x10001⟩, ⟨0xc0, 1, 0, 0x3⟩, ⟨0x400, 1, 0, 0x18a⟩]
  | .trig _ => [⟨0x40, 1, 0, 0x2⟩, ⟨0x110, 4, 0x20, 0xffffffff00000000⟩]
  | .trigbus => [⟨0x50, 1, 0, 0xff0000⟩, ⟨0x80, 8, 0x8, 0xff000000⟩, ⟨0x200, 4, 0x8, 0x80000⟩]
  | .records _ => [⟨0x40, 1, 0, 0x14⟩, ⟨0x48, 1, 0, 0x10000⟩, ⟨0xd0, 1, 0, 0xe000000000⟩, ⟨0x108, 4, 0x10, 0x400000⟩, ⟨0x200, 1, 0, 0x13000⟩, ⟨0x258, 1, 0, 0x10000⟩]
  | .chan => [⟨0x100, 17, 0x40, 0x46⟩]
  | .queue => [⟨0x40, 1, 0, 0x320000000000⟩]
  | .core _ => [⟨0x48, 1, 0, 0x32⟩, ⟨0x68, 1, 0, 0x8⟩, ⟨0xe0, 1, 0, 0xffffffffffffffff⟩]
  | .placement => [⟨0x58, 1, 0, 0x7fffc2⟩, ⟨0x80, 1, 0, 0xc350⟩, ⟨0xa0, 1, 0, 0x30a401418⟩]
  | .timebase => [⟨0x40, 1, 0, 0x64c80810⟩, ⟨0x58, 1, 0, 0xffffffff⟩, ⟨0x78, 1, 0, 0x4e200064ffff⟩, ⟨0xa8, 1, 0, 0x8002faf0800⟩]
  | .tdc => [⟨0x40, 1, 0, 0x1400⟩, ⟨0x88, 1, 0, 0x28⟩]
  | .depot => [⟨0x40, 1, 0, 0xa12⟩, ⟨0x48, 1, 0, 0x4000⟩]
  | .dram _ => [⟨0x58, 1, 0, 0x200164180b40⟩, ⟨0x1a0, 1, 0, 0xff⟩]
  | .dma => [⟨0x40, 1, 0, 0x1000c8⟩, ⟨0x48, 1, 0, 0x1c00000000⟩]
  | .dmaRings _ => [⟨0x1118, 256, 0x20, 0x10000⟩]
  | .check => []
  | .display _ => [⟨0x40, 1, 0, 0x8⟩, ⟨0x110, 4, 0x40, 0x18000000000⟩]
  | .clocks => [⟨0x40, 1, 0, 0x100000⟩, ⟨0x48, 1, 0, 0x1770⟩]
  | .auth => [⟨0x40, 1, 0, 0x1⟩]
  | .housekeeping => [⟨0x40, 1, 0, 0x2760000100000d⟩, ⟨0x290, 2, 0x8, 0x40000000000000⟩]
  | .observe => [⟨0x40, 1, 0, 0x4⟩]

end Sys2Proof.Machine
end

