-- ==== Sys2Proof/Machine/SMap.lean ====
section
/-!
DEFINITION. Sys2Proof/Machine/SMap.lean: sparse storage in one canonical form. A sparse map is a list of (key, value) pairs
with strictly rising keys that lists no value equal to what an unlisted key reads as, so equal contents are equal data.
Register space, the memories and every large table of the device are held this way.
-/
namespace Sys2Proof

/-- Sparse storage: key and value pairs. -/
abbrev SMap (α : Type) := List (Nat × α)

namespace SMap
variable {α : Type}

/-- What key `k` reads as; `d` says what an unlisted key reads as. -/
def get (d : Nat → α) : SMap α → Nat → α
  | [], k => d k
  | (k', v) :: m, k => if k = k' then v else get d m k

/-- Remove key `k`. -/
def erase : SMap α → Nat → SMap α
  | [], _ => []
  | (k', v) :: m, k => if k = k' then erase m k else (k', v) :: erase m k

/-- Put `(k, v)` before the first larger key. -/
def insert : SMap α → Nat → α → SMap α
  | [], k, v => [(k, v)]
  | (k', v') :: m, k, v => if k < k' then (k, v) :: (k', v') :: m else (k', v') :: insert m k v

/-- Write `v` at key `k`, keeping the canonical form. -/
def set [DecidableEq α] (d : Nat → α) (m : SMap α) (k : Nat) (v : α) : SMap α :=
  if v = d k then erase m k else insert (erase m k) k v

/-- Keys rise strictly from above `lo`. -/
def rising : Option Nat → SMap α → Bool
  | _, [] => true
  | none, (k, _) :: m => rising (some k) m
  | some lo, (k, _) :: m => decide (lo < k) && rising (some k) m

/-- No entry equals what an unlisted key reads as. -/
def lean [DecidableEq α] (d : Nat → α) : SMap α → Bool
  | [] => true
  | (k, v) :: m => decide (v ≠ d k) && lean d m

/-- The canonical form. -/
def wf [DecidableEq α] (d : Nat → α) (m : SMap α) : Bool := rising none m && lean d m

/-- Is key `k` listed? -/
def has : SMap α → Nat → Bool
  | [], _ => false
  | (k', _) :: m, k => decide (k = k') || has m k

end SMap
end Sys2Proof
end

