-- ==== Sys2Proof/Machine/State.lean ====
section
/-!
DEFINITION. Sys2Proof/Machine/State.lean: everything the spec gives the block, as plain data, and the state after reset.
-/
namespace Sys2Proof.Machine
open Sys2Proof

/-- Why a command stops the block. No command of this model faults: the constructor is here so that the type has a value.
Nothing raises it; safe. -/
inductive Fault where
  | none
  deriving DecidableEq, Repr

/-- Why a command has no next state. -/
inductive Refusal where
  /-- Raised by an arm of `exec` whose command has no meaning yet; safe. -/
  | notModelled (mnemonic : String)
  deriving DecidableEq, Repr

/-- The six device states of R15. -/
inductive DevState where
  | off | boot | ready | run | hold | standby
  deriving DecidableEq, Repr

/-- A timebase trust constant (R288): a signed value in 2^-16 ns and its uncertainty in 250 ps units. -/
structure TrustConst where
  value : Int
  unc : Nat
  deriving DecidableEq, Repr

/-- The three kinds of item the secure region holds (R325), by index; an unset item is not listed. -/
structure Region where
  trust : SMap (Option TrustConst)
  seeds : SMap (Option (BitVec 16))
  userCal : SMap (Option (List Byte))
  deriving DecidableEq, Repr

/-- A region with every item unset, as a wipe leaves it (R326). -/
def Region.empty : Region := { trust := [], seeds := [], userCal := [] }

/-- One sealed copy of the secure region in the boot flash (R387): its write counter, whether it verifies, what it holds. -/
structure SealedCopy where
  counter : Nat
  verifies : Bool
  region : Region
  deriving DecidableEq, Repr

/-- A pending or executing operation of the AUTH block with the argument copies of R393. -/
structure AuthOp where
  op : Nat
  args : List Word
  stage0 : Word
  stage1 : Word
  executing : Bool
  /-- `raw` when the window opened. -/
  openedAt : Nat
  deriving DecidableEq, Repr

/-- The secure part: the region, its two sealed copies (none = erased), the operation in progress, the EXTEST permit, the
life-cycle fuses, and the boot images the device itself has written (none = what the flash delivers at boot). -/
structure SecSt where
  region : Region
  copy0 : Option SealedCopy
  copy1 : Option SealedCopy
  op : Option AuthOp
  extest : Bool
  lc : BitVec 2
  imageA : Option (List Byte)
  imageB : Option (List Byte)
  deriving DecidableEq, Repr

/-- The pins and what drives them (R423): supplies, RESET_N, TEST_MODE, GPIO levels, PRESENCE_N, and the outputs. -/
structure PinSt where
  supplies : Bool
  resetN : Bool
  testMode : Bool
  gpio : BitVec 16
  thermtrip : Bool
  musterOut : Bool
  epochOut : Bool
  trigOut : Vector Bool 4
  tbusDrive : BitVec 8
  tbusNak : BitVec 8
  tbusSync : Bool
  deriving DecidableEq, Repr

/-- BOOT's progress: the images found not valid, the image verified, and whether the IDs have reached the endpoint; the microcode
version of the booted image; whether a wake from STANDBY is under way; the Vendor ID, the Subsystem Vendor ID and the Subsystem ID the booted
image carries (R2, R388). -/
structure BootSt where
  triedA : Bool
  triedB : Bool
  verified : Option (Fin 2)
  idsPassed : Bool
  ucode : Nat
  waking : Bool
  vendor : Nat
  subVendor : Nat
  subId : Nat
  deriving DecidableEq, Repr

/-- The latch of one port under R30: the value whose low word was read, and the higher words held, lowest first. -/
structure LatchSt where
  key : Nat
  words : List (Nat × Word)
  deriving DecidableEq, Repr

/-- A segment of a ramp profile: target in 250 kHz units, duration in µs. -/
structure RampSeg where
  target : Nat
  micros : Nat
  deriving DecidableEq, Repr

/-- The running ramp (R383) and the spread in force. -/
structure ClkSt where
  ramp : List RampSeg
  from_ : Nat
  segAt : Nat
  relock : Option Nat
  spread : Nat
  /-- `tim.raw` when each loop without lock began the windows it now counts towards lock, by PLL (R379). -/
  seeking : SMap (Option Nat)
  /-- The part of a CORE cycle left over by the last idle tick, in units of 1/800,000,000 of a cycle. -/
  corePhase : Nat
  deriving DecidableEq, Repr

/-- One interpolator (R295, R296): the hit counts of its position table once it has
one, when the last rising and falling edges came, and the last ones that reached the TDC. -/
structure InterpSt where
  hits : Option (List Nat)
  lastRise : Option Int
  lastFall : Option Int
  tdcRise : Option Int
  tdcFall : Option Int
  deriving DecidableEq, Repr

/-- The base of an epoch map (R291): time `t` (2^-16 ns, the constant L included) at index `n`. -/
structure MapBase where
  t : Int
  n : Nat
  deriving DecidableEq, Repr

/-- The epoch map of one stream context (R294): state code, base, a slew's start, sample rate, uncertainty of the latency
constant in use, the last index and time stamped, the serial of the edge last paired, and what TB_MAP shows of the pairing. -/
structure EpochMap where
  state : Nat
  base : MapBase
  slew : Option MapBase
  rate : Nat
  unc : Nat
  last : Option MapBase
  pairedEdge : Nat
  te : Nat
  fe : Nat
  delta : Int
  pairings : Nat
  slips : Nat
  deriving DecidableEq, Repr

/-- The timebase (R279 to R297) beyond its registers. Times are in units of 2^-16 ns; `raw` is the same count without the
steps of loads, for intervals. -/
structure TimeSt where
  now : Nat
  raw : Nat
  running : Bool
  /-- Time of the shadow counter while PLL_TIME is gated (R287), and its part below the unit in 10^-12. -/
  shadow : Option Nat
  shadowFrac : Nat
  /-- XO_IN cycles: the TIME ticks since the shadow's last step, 16 a cycle. -/
  shadowPhase : Nat
  /-- REF_IN windows in band in a row, and milliseconds in a row within ±1 ns (R281). -/
  refGood : Nat
  lockMs : Nat
  /-- The corrections of the last second of lock, newest first, which a loss of lock freezes at their mean (R281). -/
  corrs : List Int
  /-- The phase setpoint, and the error the loop still has to remove from it (R282). -/
  setpoint : Int
  steer : Int
  ppsLast : Option Nat
  ppsTol : Nat
  /-- Holdover growth in 1/1000 ps, the units added at a relock, and milliseconds in holdover (R285, R287). -/
  growth : Nat
  gatedUnits : Nat
  holdMs : Nat
  /-- `raw` at the tick a pending load arrived (R284). -/
  loadAt : Nat
  /-- The EPOCH_OUT series as epoch_go took it: first instant, period in units, stop requested (R289). -/
  epochAt : Nat
  epochPeriod : Nat
  epochStop : Bool
  /-- `raw` at which the EPOCH_OUT pulse ends. -/
  epochEnd : Nat
  edgeSerial : Nat
  edgeAt : Option Nat
  /-- The start and stop edges taken by the TDC, and `raw` when it was armed (R297). -/
  tdcStart : Option Int
  tdcStop : Option Int
  tdcArmedAt : Nat
  interp : Vector InterpSt 8
  maps : SMap EpochMap
  deriving DecidableEq, Repr

/-- The muster unit beyond its registers: sources requested for the next strobe, and a rearm that waits (R40, R43). -/
structure MusterSt where
  req : BitVec 5
  rearm : Bool
  deriving DecidableEq, Repr

/-- A descriptor a ring has fetched (R352): where it came from and its four words. -/
structure Desc where
  addr : Nat
  index : Nat
  inChain : Bool
  w0 : Word
  w1 : Word
  w2 : Word
  w3 : Word
  deriving DecidableEq, Repr

/-- How far a ring is with its descriptor. -/
inductive RingPhase where
  | idle
  | fetched
  | performed
  | flushing
  deriving DecidableEq, Repr

/-- A waybill that waits for its completion queue: 32 bytes with phase 0, and whether it asks for the vector (R362, R364). -/
structure Waybill where
  bytes : List Byte
  signal : Bool
  deriving DecidableEq, Repr

/-- A descriptor ring (R351): the configuration sampled at run, the descriptor in progress, its outcome, the chain, and the
waybills that wait. -/
structure RingSt where
  base : Nat
  target : Bool
  log2n : Nat
  cq : Nat
  waybillAll : Bool
  phase : RingPhase
  desc : Option Desc
  status : Nat
  cause : Nat
  moved : Nat
  crc : Option Word
  chainPc : Option Nat
  chainLink : Option Desc
  out : List Waybill
  waited : Bool
  /-- The address of the request that failed (DMA_LAST_FAULT); a stop waits for the flush read of a descriptor that has ended (R359). -/
  failAt : Nat
  stopping : Bool
  deriving DecidableEq, Repr

/-- A ring after reset: IDLE (R370). -/
def RingSt.idle : RingSt := ⟨0, false, 0, 0, false, .idle, none, 0, 0, 0, none, none, none, [], false, 0, false⟩

/-- A completion queue's sampled base (R361). -/
structure CqSt where
  base : Nat
  target : Bool
  log2n : Nat
  deriving DecidableEq, Repr

/-- A request waiting in host_out while Bus Master Enable is 0 (R350). -/
inductive HostReq where
  | write (addr : Nat) (data : List Byte)
  | message (vector : Nat)
  deriving DecidableEq, Repr

/-- A host write that waits in host_in while the CORE domain stands (R18): to the depot or to DRAM. -/
inductive HostIn where
  | depot (off : Nat) (data : List (Option Byte))
  | dram (addr : Nat) (data : List (Option Byte))
  deriving DecidableEq, Repr

/-- The host side: the endpoint, AER, MSI-X, rings, completion queues, and the memory of the host that the device writes. -/
structure HostSt where
  memSpace : Bool
  aerAborts : Nat
  aerUnexpected : Nat
  aerInternal : Nat
  retries : Nat
  msixTable : SMap Byte
  pba : SMap Bool
  sent : List Nat
  hostOut : List HostReq
  hostIn : List HostIn
  rings : SMap RingSt
  cqs : SMap CqSt
  mem : SMap Byte
  latches : SMap (Option LatchSt)
  readOk : Bool
  readPoisoned : Bool
  readBytes : List Byte
  deriving DecidableEq, Repr

/-- On-chip memories and DRAM (R315, R331): contents, and the words or lines that hold an uncorrectable error; the bank each memory tests
next, and `raw` at the start of its last test (R320). -/
structure MemSt where
  depot : SMap Byte
  lmem : Vector (SMap Byte) 17
  imem : Vector (SMap Byte) 17
  dram : SMap Byte
  depotBad : SMap Bool
  lmemBad : Vector (SMap Bool) 17
  imemBad : Vector (SMap Bool) 17
  dramBad : SMap Bool
  testNext : SMap Nat
  testAt : SMap (Option Nat)
  deriving DecidableEq, Repr

/-- A write a DRAM controller has accepted and not yet put into the array. -/
structure PendingWrite where
  bank : Nat
  row : Nat
  deriving DecidableEq, Repr

/-- One DRAM channel beyond its registers: the open row of each bank with the time of its last access, pending writes, the steps each lane's read and write
delay has moved by tracking, a quiesce deferred under R342, the answer of the last read it served, and the lines (address, bytes
with enables) that wait in mem_wr and, past its depth, in the writers it stalls (R18). -/
structure DramSt where
  openRows : SMap (Option (Nat × Nat))
  pending : List PendingWrite
  track : List (Int × Int)
  deferredQuiesce : Bool
  readOk : Bool
  readPoisoned : Bool
  readBytes : List Byte
  wq : List (Nat × List (Option Byte))
  deriving DecidableEq, Repr

/-- One housekeeping converter (R408): its position in the pass, what the pass still holds, and the plausibility record. -/
structure ConvSt where
  pass : Nat
  todo : List Nat
  urgentDone : Bool
  last15 : Option (Int × Nat)
  lastPassed : Option Nat
  deriving DecidableEq, Repr

/-- Housekeeping: both converters, the urgent request in progress, and `raw` and the sources of the last request (R413). -/
structure HkSt where
  conv : Vector ConvSt 2
  urgent : Bool
  urgentConv : Fin 2
  urgentChan : Nat
  urgentAt : Nat
  urgentSrc : Nat
  deriving DecidableEq, Repr

/-- Observation: the trace buffer, dropped entries not yet announced, the core cycles passed, the cycle from which the write slot is free,
the cycle of the last time mark, and the test access port. -/
structure ObsSt where
  trace : SMap (BitVec 128)
  lost : Nat
  cycle : Nat
  slot : Nat
  markAt : Nat
  jtagIr : BitVec 6
  jtagDr : BitVec 96
  boundary : BitVec 3993
  deriving DecidableEq, Repr

/-- Where a result of an Alnen core goes: a register, one lane of a register, one bit of a predicate, or a status field. -/
inductive Dst where
  | s (n : Nat)
  | v (r : Nat) (l : Nat)
  | a (n : Nat) (l : Nat)
  | p (n : Nat)
  | pb (n : Nat) (l : Nat)
  | x (n : Nat)
  | ovf
  | csw
  | loopctl
  | lc (k : Nat)
  | swi
  deriving DecidableEq, Repr

/-- A result in flight (R230): its value, the bundles left until it is visible, the slot that produced it, whether it is
interlocked, whether it belongs to the bundle being issued, whether it is the first of what its syllable produced, and whether its residue will
not match (R228). -/
structure Pend where
  dst : Dst
  val : Int
  left : Nat
  slot : Nat
  inter : Bool
  fresh : Bool
  head : Bool
  res : Bool
  deriving DecidableEq, Repr

/-- What slot 0 does to the flow of bundles. -/
inductive CoreCtl where
  | goto (t : Nat)
  | loop (k n end_ : Nat)
  | loopS (n end_ stages : Nat)
  | rti
  | rte
  | halt
  deriving DecidableEq, Repr

/-- What a waiting U.WAIT waits for (R262). -/
inductive WaitCond where
  | boundary (seen : Bool)
  | time (t : T96)
  | pend (mask : BitVec 16)
  deriving DecidableEq, Repr

/-- A save set of R240 or R241: program counter, CSW, loop counts, bounds and LOOPCTL, and the wait it interrupted. -/
structure SaveSet where
  pc : Nat
  csw : Nat
  lc : List Nat
  bounds : List Nat
  loopctl : Nat
  wait : Option WaitCond
  deriving DecidableEq, Repr

/-- The tap of R260. -/
structure TapSt where
  busy : Bool
  done : Bool
  short : Bool
  refused : Bool
  started : Bool
  laddr : Nat
  count : Nat
  written : Nat
  first : Nat
  t96 : T96
  bound : Nat
  flags : Nat
  deriving DecidableEq, Repr

/-- An Alnen core beyond its registers (R225): the register files, the results in flight, the bundle being issued, whether a residue
error has come since the last APPEND or SKIP (R228), the save sets, a wait, and the tap. -/
structure CoreSt where
  s : SMap W32
  v : SMap (BitVec 24)
  a : SMap (BitVec 56)
  p : SMap Byte
  x : SMap (BitVec 39)
  pipe : List Pend
  ctl : Option CoreCtl
  newWait : Option WaitCond
  wait : Option WaitCond
  exc : Option (Nat × Nat)
  squash : Bool
  resSince : Bool
  isave : SaveSet
  esave : SaveSet
  tap : TapSt
  deriving DecidableEq, Repr

/-- A save set after reset. -/
def SaveSet.zero : SaveSet := ⟨0, 8, [0, 0, 0], [0, 0, 0], 0, none⟩

/-- No tap. -/
def TapSt.zero : TapSt := ⟨false, false, false, false, false, 0, 0, 0, 0, 0, 0, 0⟩

/-- A core after reset and at enable (R245). -/
def CoreSt.zero : CoreSt := ⟨[], [], [], [], [], [], none, none, none, none, false, false, .zero, .zero, .zero⟩

/-- A cause that waits for the placement engine (R274): its code and the unit it names. -/
structure PlCause where
  cause : Nat
  arg : Nat
  deriving DecidableEq, Repr

/-- An input sample as the crossbar delivers it (R81): its components, its flags, and the T96 the stream's epoch map gave it
when its row came, in units of 2^-16 ns. -/
structure Smp where
  i : Int
  q : Int
  ovr : Bool
  lost : Bool
  t : Int
  deriving DecidableEq, Repr

/-- Consecutive samples of one stream that one row delivered: context, run, index of the first, the reason of R176 for the
indices missing before it, when they came, and whether they belong to a bond. -/
structure Batch where
  ctx : Nat
  run : Nat
  first : Nat
  hole : Nat
  at_ : Nat
  bonded : Bool
  samples : List Smp
  deriving DecidableEq, Repr

/-- One receive sub-stream beyond its registers (R52, R57 to R59, R66 to R68): run number, data-block count, the bits not yet
a whole sample (value, lost mask, count) and when they came, overrange spans, rows still marked overranged, format and
context of the run, whether delivery has stopped in the run, and the reason of the indices missing since the last delivery. -/
structure RxSub where
  run : Nat
  blocks : Nat
  buf : Nat
  bad : Nat
  len : Nat
  prevT : Nat
  spans : List (Nat × Nat)
  crcRows : Nat
  fmt : Nat
  ctx : Nat
  stale : Bool
  hole : Nat
  deriving DecidableEq, Repr

/-- The pattern checker of a receive lane (R74): the last 31 bits of the sequence, the most recent lowest; bits it has seeded itself from;
error-free bits since then; while in sync, the errors of the last 128 bits as a bit string. -/
structure PrbsChk where
  seq : Nat
  seeded : Nat
  good : Nat
  errs : Nat
  deriving DecidableEq, Repr

/-- A receive group beyond its registers: sub-streams, the state of each lane (R64), whether it is block-locked and whether deskewed, the
last 58 payload bits each lane's descrambler has taken in, the most recent highest (R50), its pattern checker, whether a
valid ALIGN row has been matched, the announcements of R69 (eff_seq, lane, restore), consecutive scans below fom_retire, and
ingest[g], one entry per block time. -/
structure RxSt where
  subs : Vector RxSub 5
  lane : SMap Nat
  lock : SMap Bool
  desk : SMap Bool
  desc : SMap Nat
  chk : SMap PrbsChk
  matched : Bool
  ann : List (Nat × Nat × Bool)
  fomLow : SMap Nat
  ferry : List (List Batch)
  deriving DecidableEq, Repr

/-- A sample on its way to a transmit group; `start` and `stop` mark the ends of a run. -/
structure EmitSmp where
  i : Int
  q : Int
  ovr : Bool
  start : Bool
  stop : Bool
  deriving DecidableEq, Repr

/-- One transmit sub-stream beyond its registers: what waits in emit[g] for it, the bits not yet a whole block, data blocks
sent in the run, index of the next sample to enter emit[g], block times since its last message row, block times it has seen since the last
LINKCMD of the group, whether a STATUS is due, a pending EPOCH index and overrange spans to announce. -/
structure TxSub where
  queue : List EmitSmp
  buf : Nat
  len : Nat
  blocks : Nat
  entered : Nat
  sinceMsg : Nat
  sinceCmd : Nat
  statusDue : Bool
  epoch : Option Nat
  spans : List (Nat × Nat)
  deriving DecidableEq, Repr

/-- A transmit group beyond its registers: sub-streams, lane changes at a coming ALIGN row (eff_seq, lane, restore), presets
and training changes at a coming ALIGN row, presets in force, lanes in training, LINKCMD bodies to send (announcements first), the
software command (code, tag) that waits for its answer, the rows the last command framed, lane by lane, and the 66 bits each lane drove for
them (none while the pins are idle, R76). Of each lane: the last 58 bits its scrambler has sent, the most recent highest (R50); the last 31
bits of its pattern generator, the most recent lowest (R74); bits still to be inverted, and bits sent since the last one inverted in rate mode
(R75); and what the receiver has yet to take from its serialiser in loopback (R76). -/
structure TxSt where
  subs : Vector TxSub 5
  ann : List (Nat × Nat × Bool)
  presetAt : List (Nat × Nat × Nat)
  trainAt : List (Nat × Nat × Bool)
  preset : SMap Nat
  train : SMap Bool
  urgent : List (BitVec 48)
  answers : List (BitVec 48)
  waiting : Option (Nat × Nat)
  line : List (List (Nat × LBlock))
  wire : List (List (Nat × BitVec 66))
  scr : SMap Nat
  gen : SMap Nat
  inv : SMap Nat
  rate : SMap Nat
  loop : SMap (List (BitVec 66))
  deriving DecidableEq, Repr

/-- A receive sub-stream after reset. -/
def RxSub.zero : RxSub := ⟨0, 0, 0, 0, 0, 0, [], 0, 0, 0, false, 0⟩
/-- A receive group after reset. -/
def RxSt.zero : RxSt := ⟨Vector.replicate 5 .zero, [], [], [], [], [], false, [], [], []⟩
/-- A checker that has seen nothing. -/
def PrbsChk.zero : PrbsChk := ⟨0, 0, 0, 0⟩
/-- A transmit sub-stream after reset. -/
def TxSub.zero : TxSub := ⟨[], 0, 0, 0, 0, 1024, 1024, false, none, []⟩
/-- A transmit group after reset. -/
def TxSt.zero : TxSt := ⟨Vector.replicate 5 .zero, [], [], [], [], [], [], [], none, [], [], [], [], [], [], []⟩

/-- A complex value inside the filter chain with its overrange flag (R85, R99). -/
structure Cx where
  i : Int
  q : Int
  ovr : Bool
  deriving DecidableEq, Repr

/-- An output of the filter chain (R84, R95, R98, R99): index, components, overrange, time in units of 2^-16 ns, quality,
bound, the flags of its caravan in the bit order of R165, the caravan's GROUP_DELAY and stream context, the timebase part of the bound
at its instant (R143), and the program it was processed under (ID × 65,536 + version, R165). -/
structure OutS where
  m : Nat
  i : Int
  q : Int
  ovr : Bool
  t : Int
  qual : Nat
  bound : Nat
  fl : Nat
  gd : Nat
  ctx : Nat
  ib : Nat
  ver : Nat
  deriving DecidableEq, Repr

/-- A gap being measured: first missing unit, count, reason of R176, time of the first with its quality and bound. -/
structure GapRun where
  first : Nat
  count : Nat
  reason : Nat
  t : Int
  qual : Nat
  bound : Nat
  deriving DecidableEq, Repr

/-- A coefficient bank: length and the coefficients h[0] to h[⌈L/2⌉ − 1] (R90). -/
structure Bank where
  len : Nat
  h : List Int
  deriving DecidableEq, Repr

/-- A frame that has begun (R103, R110, R114, R144, R215): index, window store, pwr_offset, whether a change fell inside it,
mask addresses, density thresholds and gain table in force at its start. -/
structure FStart where
  f : Nat
  store : Nat
  off : Int
  settle : Bool
  fm : Nat × Nat
  dn : Nat × Nat
  gain : Nat
  deriving DecidableEq, Repr

/-- A frame whose N outputs have all been delivered and that has not been transformed yet (R104): its outputs, oldest first,
the flags gathered since the frame before, and whether it already waited when the present entry of the ingest ferry came (R106). -/
structure FrameJob where
  st : FStart
  xs : List OutS
  fl : Nat
  old : Bool
  deriving DecidableEq, Repr

/-- The filter chain and transform engine of one slice beyond their registers: the run in progress, the next input index and the next
output index; the histories of the stages, newest first; the first output that settling does not suppress and the last input lost; the
caravan with its flags and GROUP_DELAY; the gaps of outputs and of late frames not yet reported; coefficient
banks and window stores with their running loads; the frame buffer, newest first, the frames that have begun, and those
ready to be formed;
which pending commits the slice's own core made (bits: retune, switch, window, trigger, selection, gain); the reason of the
last loss (R176); the signature of the caravan under way (R308); `raw` at the residue errors of the last second and the input
index of the last one in the chain (R100); run and next input index when the slot was disabled (R22); the terms a commit puts in force at the
next output (R144); the output index at which work resumes after HOLD (R15). -/
structure ChainSt where
  run : Option Nat
  any : Bool
  next : Nat
  pos : Nat
  clearAt : Nat
  r2c : List Cx
  hb : List (List Cx)
  fir : List Cx
  lastLost : Option Nat
  carOpen : Bool
  carFl : Nat
  carGd : Nat
  pendFl : Nat
  gaps : List GapRun
  fgaps : List GapRun
  boundaryAt : Option Nat
  terms : Option (List (Nat × Nat))
  skipTo : Nat
  banks : Vector Bank 4
  bankLoad : Vector (Option (Nat × Nat)) 4
  wins : Vector (List Int) 2
  winLoad : Vector (Option Word) 2
  fbuf : List OutS
  fstarts : List FStart
  jobs : List FrameJob
  fnext : Nat
  frameFl : Nat
  pwrOff : Int
  byCore : Nat
  lossReason : Nat
  sig : Nat
  resAt : List Nat
  resIdx : Option Nat
  left : Option (Nat × Nat)
  deriving DecidableEq, Repr

/-- A frame delivered (R104, R112): index, power words and |X|² with exponent in centred order, bins, times of its first and
centre outputs, flags, the reference and offset of its power words, the GROUP_DELAY of its first output, the timebase part of the bound
at its centre (R143), and the program of its last output. -/
structure Frame where
  f : Nat
  pw : List Int
  bins : List (Int × Int)
  e : Nat
  t : Int
  tc : Int
  qual : Nat
  bound : Nat
  ovr : Bool
  fl : Nat
  ref128 : Int
  off : Int
  gd : Nat
  ib : Nat
  ver : Nat
  deriving DecidableEq, Repr

/-- A time-domain detector (R128): raw state and run length, the crossing that began it with the timebase bound there, whether it was
interpolated, whether a runt's second threshold was reached, the qualified state, the previous sample, and whether a sample of the run was
overranged or touched by a residue error. -/
structure TdSt where
  raw : Bool
  run : Nat
  cross : Int
  cb : Nat
  interp : Bool
  reached : Bool
  qual : Bool
  fresh : Bool
  prev : Option (Int × Int)
  ovr : Bool
  res : Bool
  deriving DecidableEq, Repr

/-- A frequency mask (R131): the last frame it evaluated, violation bits by position, lengths of the violated and clear runs, centre times of
their first frames with the timebase bound there, whether a frame of the run was overranged or touched by a residue error, qualified states,
whether it has just been reset. -/
structure FmSt where
  last : Option Nat
  viol : List Bool
  vrun : Nat
  crun : Nat
  runT : Int
  runB : Nat
  ovr : Bool
  res : Bool
  qv : Bool
  qc : Bool
  fresh : Bool
  deriving DecidableEq, Repr

/-- A density window (R132): h of the last frames, newest first, with each frame's overrange flag and whether a residue error touched it. -/
structure DnSt where
  hs : List (Nat × Bool × Bool)
  deriving DecidableEq, Repr

/-- A queue context (R192): its four words. -/
structure Ctx where
  w0 : Nat
  w1 : Nat
  w2 : Nat
  w3 : Nat
  deriving DecidableEq, Repr

/-- A cached context (R199): queue, context, whether the table still holds an older one, and whether it holds an uncorrectable error (R318). -/
structure CtxWay where
  q : Nat
  ctx : Ctx
  dirty : Bool
  bad : Bool
  deriving DecidableEq, Repr

/-- How far a record is on its way (R174, R178, R179, R196, R198): open and growing elsewhere; complete and held for a
measurement block; complete; waiting for its reservation since a time; with a reservation; with its trailer written; waiting
for a flush read; waiting for its completion queue; abandoned, with the reason of R176. -/
inductive RecPhase where
  | building
  | held (since : Nat)
  | ready
  | waiting (since : Nat)
  | granted
  | sealed
  | flushing
  | stalled
  | absent (reason : Nat)
  deriving DecidableEq, Repr

/-- A record (R161 to R165): queue, producing slice, class (11 = channel), sequence, the sequences it announces (0 = none),
type, sub-type, flags, T96 of the first sample and of the trigger, bound, mask, pre-trigger length, payload, measurement
block, phase; once it has a reservation, its place in 64-byte units, its length and its alive value; and the span its data cover, in units
of 2^-16 ns (0 = not known, R176). -/
structure Rec where
  q : Nat
  prod : Nat
  cls : Nat
  seq : Nat
  count : Nat
  typ : Nat
  sub : Nat
  fl : Nat
  t1 : T96
  t2 : T96
  bound : Nat
  mask : Nat
  pre : Nat
  payload : List Byte
  meas : List Byte
  phase : RecPhase
  off : Nat
  len : Nat
  alive : Nat
  span : Nat
  deriving DecidableEq, Repr

/-- What a condition source reports to the combiner (R125, R126): condition, event or state, the state's value, the time that
places it on the evaluation axis, its instant, whether it is late, overranged, interpolated, the FM peak, the quality of its
instant, for BUS causes the bus line, whether a residue error touched it, and the timebase bound at its instant (R143). -/
structure Report where
  cond : Nat
  event : Bool
  val : Bool
  key : Int
  inst : Int
  late : Bool
  ovr : Bool
  interp : Bool
  pos : Nat
  excess : Int
  qual : Nat
  line : Nat
  res : Bool
  tb : Nat
  deriving DecidableEq, Repr

/-- An index of the evaluation axis (R124): its time, the time of the next, its quality and the timebase part of its bound,
whether it is a caravan boundary and the terms a commit puts in force there, whether the resets of R127 apply at it, and the bound of its
T96. -/
structure AxisPt where
  m : Nat
  t : Int
  tEnd : Int
  qual : Nat
  bound : Nat
  boundary : Bool
  terms : Option (List (Nat × Nat))
  fresh : Bool
  sb : Nat
  deriving DecidableEq, Repr

/-- An event record that waits for the answers of its bus requests (R152): trigger number, sequence if its class is enabled,
place in TRIG_LOG, payload, lines without an answer and lines refused. -/
structure PendEvent where
  number : Nat
  seq : Option Nat
  log : Nat
  body : Rec
  lines : Nat
  refused : Nat
  deriving DecidableEq, Repr

/-- The trigger unit of one slice beyond its registers: detectors, masks, density windows; the axis still to be evaluated;
reports that wait for their index, and those that join the next index; the present value of the state conditions and the
report that set each; T at the last index; whether the next index is the first after a reset; end of the last evaluated
index; the last frame formed and the centre frame at the axis; where pre-trigger counting started; a disarm that waits; end
of POST; trigger time of the last accepted trigger; the next trigger number; event records that wait for the bus; fast lines, and until when
each carries the pulse of an edge event; whether a frame was skipped since the last one formed (R127). -/
structure TrigSt where
  td : Vector TdSt 4
  fm : Vector FmSt 2
  dn : Vector DnSt 2
  axis : List AxisPt
  reports : List Report
  now : List Report
  states : Nat
  setBy : SMap (Option Report)
  prevT : Bool
  fresh : Bool
  doneTo : Option Int
  lastFrame : Option Nat
  frameAt : List (Nat × Int)
  preFrom : Option Nat
  disarm : Bool
  postEnd : Nat
  trigT : Int
  number : Nat
  events : List PendEvent
  fast : Vector Bool 4
  fastUntil : Vector (Option Nat) 4
  skipped : Bool
  deriving DecidableEq, Repr

/-- An open reduction interval (R166): interval, frames formed, sequence, T96 and bound of the first, flags, the sampled
frame's exponent, entries (maxima, minima, exact sums or samples), complex samples, and the program of the last frame. -/
structure RedAcc where
  j : Nat
  n : Nat
  seq : Option Nat
  t1 : T96
  bound : Nat
  fl : Nat
  e : Nat
  vals : List Int
  bins : List (Int × Int)
  ver : Nat
  deriving DecidableEq, Repr

/-- An open density interval (R169): as a reduction's, with the cells by y·C + c and which of them have saturated. -/
structure DensAcc where
  j : Nat
  n : Nat
  seq : Option Nat
  t1 : T96
  bound : Nat
  fl : Nat
  sat : SMap Bool
  cells : SMap Nat
  ver : Nat
  deriving DecidableEq, Repr

/-- A ring slot that is complete and not yet written (R171): caravan or frame, first index, units held, header and body, and
each sample's overrange flag and time, and the program of its data. -/
structure SlotIn where
  c : Nat
  first : Nat
  held : Nat
  head : List Byte
  body : List Byte
  ovr : List Bool
  ts : List Int
  qual : Nat
  bound : Nat
  fl : Nat
  ver : Nat
  deriving DecidableEq, Repr

/-- A capture being copied (R172, R173): trigger sample, pre_actual, end (exclusive), next unit to copy, trigger T96, bound and
mask, the capture's own flags, segment number, and the segment under construction with the program of its last data. -/
structure Cap where
  nt : Nat
  pre : Nat
  end_ : Nat
  next : Nat
  t2 : T96
  bound : Nat
  mask : Nat
  fl0 : Nat
  seg : Nat
  seq : Option Nat
  first : Nat
  data : List Byte
  units : Nat
  ovr : List Bool
  fl : Nat
  t1 : T96
  bound1 : Nat
  short : Bool
  ver : Nat
  deriving DecidableEq, Repr

/-- A CONTINUOUS record under construction (R173). -/
structure ContRec where
  seq : Nat
  data : List Byte
  slots : Nat
  last : Nat
  fl : Nat
  t1 : T96
  bound : Nat
  ver : Nat
  deriving DecidableEq, Repr

/-- The record engine of one slice beyond its registers: open intervals, the first frame of each reduction's and plane's first
interval, the caravan being gathered, slots to write, what each ring slot holds, captures, the continuous record, where the
stream resumed after each gap, the last unit received with its time, and the units whose slots memory back-pressure has lost (R17). -/
structure RecSt where
  red : Vector (Option RedAcc) 5
  dens : Vector (Option DensAcc) 4
  from_ : Option Nat
  doneJ : SMap Nat
  car : List OutS
  slots : List SlotIn
  dir : SMap (Option SlotIn)
  caps : List Cap
  cont : Option ContRec
  starts : List Nat
  last : Option (Nat × Int)
  lost : Option GapRun
  deriving DecidableEq, Repr

/-- A channel's open record (R190): first channel sample, T96, bound, flags, samples oldest first, the program of the last. -/
structure ChanRec where
  q0 : Nat
  seq : Nat
  t1 : T96
  bound : Nat
  fl : Nat
  xs : List Cx
  ver : Nat
  deriving DecidableEq, Repr

/-- The channeliser of one slice beyond its registers (R184 to R190): the generated prototype and whether it is being
generated; the working outputs of the window, newest first; the first output of the present span of consecutive outputs, the
first delivered output of the run, the last output lost to a gap with the gap's reason; the active selection; the open records by channel
(combined: key M); the record period they belong to; flags due on the first records; channel samples lost to gaps; the last working output whose place in the branch history holds an
uncorrectable error (R201). -/
structure ChanSt where
  proto : Option (List Int)
  making : Bool
  hist : List Cx
  since : Nat
  first : Option Nat
  gapTo : Option (Nat × Nat)
  sel : SMap Bool
  recs : SMap (Option ChanRec)
  period : Nat
  fl : Nat
  lost : List GapRun
  badAt : Option Nat
  deriving DecidableEq, Repr

/-- An instruction of U.SYN FRAME in the queue (R212): address, frames left, exponent. -/
structure SynFrames where
  laddr : Nat
  left : Nat
  e : Nat
  deriving DecidableEq, Repr

/-- A frame a RELAY slice has analysed and will synthesise (R215). -/
structure RelayFrame where
  f : Nat
  bins : List (Int × Int)
  e : Nat
  ovr : Bool
  deriving DecidableEq, Repr

/-- A sample of the source of a synthesis path: components, overrange, and why it is missing (a cause of SYN_LAST_EVENT). -/
structure SynSmp where
  i : Int
  q : Int
  ovr : Bool
  bad : Option Nat
  deriving DecidableEq, Repr

/-- The synthesis path of one slice beyond its registers (R205 to R219): the start instant; the output index that is run index
0; the sub-streams fed (group, sub-stream); frames to synthesise, frames analysed by a RELAY slice, and the next frame's
index; the overlap-add accumulator and its overrange flags by output index; spans of outputs that will not be complete with
their cause; fetched playback samples from an index; the 64-byte unit at which the run's data begins; the blocks of the polyphase filter, newest first; the index at which a
stop takes effect; gains and tuning in force; the cause of the last sample sent as zero; the next index of a forwarded run;
whether HOLD interrupted a run. -/
structure SynSt where
  start : Int
  base : Nat
  routes : List (Nat × Nat)
  frames : List SynFrames
  relay : List RelayFrame
  nextF : Nat
  acc : SMap (Int × Int)
  accOvr : SMap Bool
  bad : List (Nat × Nat × Nat)
  pb : List SynSmp
  pbFrom : Nat
  pbUnit : Nat
  poly : List (List (Int × Int × Bool))
  stopAt : Option Nat
  outGain : Nat
  insGain : Nat
  fcw : Int
  prevBad : Option Nat
  fwd : Option Nat
  held : Bool
  deriving DecidableEq, Repr

/-- A request latched while the CORE domain stood (R18, R134, R153): line, its time with the timebase's quality and bound there, the slices of this
device that made it. -/
structure BusIn where
  line : Nat
  t : Int
  qual : Nat
  tb : Nat
  rq : List Nat
  deriving DecidableEq, Repr

/-- The trigger bus and the TRIG pins beyond their registers (R133, R147 to R153): when the last SYNC pulse came and how many
came at the expected cycle; tbus_out (line and the slices that ask); the requests driven in the present cycle; tbus_in while
the CORE domain is stopped; the TRIG_OUT_CFG words in force; when each TRIG_OUT pulse
ends; pins held inactive for the tick after a change; the time of the last edge of the configured polarity on each TRIG_IN pin, a merged one
included, and the pins' levels; when TBUS_SYNC was driven; when the answer phase of the latched cycle ends. -/
structure TbusSt where
  syncAt : Option Nat
  good : Nat
  zeroAt : Nat
  out : List (Nat × List Nat)
  driving : List (Nat × List Nat)
  inq : List BusIn
  outCfg : Vector Nat 4
  outEnd : Vector (Option Nat) 4
  outHold : Vector (Option Nat) 4
  inLast : Vector (Option Int) 4
  inLevel : Vector Bool 4
  drivenAt : Nat
  nakEnd : Nat
  deriving DecidableEq, Repr

/-- The sample crossbar beyond its registers (R68, R81, R82): per stream context, the run and the next index delivered, and
the batches of a bond that wait for an earlier one. -/
structure XbarSt where
  next : SMap (Option (Nat × Nat))
  held : SMap (List Batch)
  deriving DecidableEq, Repr

/-- The abandoned sequences a queue has to announce (R176, R177): reason, T96 and bound of the first, and the span of their data in units
of 2^-16 ns (0 = not known). -/
structure AbsentRun where
  reason : Nat
  t1 : T96
  bound : Nat
  span : Nat
  deriving DecidableEq, Repr

/-- The queue engine beyond its registers: the context cache by set, most recently used first; contexts being fetched; the
next sequence each queue allocates; the records on their way, in order of opening; the sequences each
queue has to announce; when each queue's first unsignalled waybill was written; a DESTROY that waits; contexts written back. -/
structure QueueSt where
  cache : SMap (List CtxWay)
  fetching : List Nat
  alloc : SMap Nat
  recs : List Rec
  why : SMap (Option AbsentRun)
  timers : SMap (Option Nat)
  destroying : Option Nat
  wrote : Nat
  deriving DecidableEq, Repr

/-- An item a takeover compares (R308): the incumbent's or the stand-in's, the pair, kind (1 signature, 2 record, 3 mailbox), what
identifies it, and the check value of its content. -/
structure TkoItem where
  side : Bool
  pair : Nat
  kind : Nat
  key : List Nat
  hash : Nat
  deriving DecidableEq, Repr

/-- The takeover in progress beyond its registers (R306 to R311): incumbents with their stand-ins, `raw` at the join, items that
wait for their counterpart, caravans compared, mailbox values written by each side, the image of an UPDATE (address,
length, target), and the stand-in that had a residue error. -/
structure TkoSt where
  pairs : List (Nat × Nat)
  joinAt : Nat
  items : List TkoItem
  passed : Nat
  mboxI : Nat
  mboxS : Nat
  update : Option (Nat × Nat × Bool)
  fault : Option Nat
  /-- The time of the first output from B_a on: what the stand-in opens begins no earlier (R307). -/
  alignT : Nat
  deriving DecidableEq, Repr

/-- What the placement engine does once the slices of a job have acknowledged their quiesce (R267, R275, R276, R310, R312): free the entry's
resources, leave it suspended, load the image of an update, let the relieved slice enter MAINTAIN, or make it free. -/
inductive PlThen where
  | free (entry : Nat)
  | suspend (entry : Nat)
  | reload (entry : Nat)
  | relieve (slice : Nat)
  | unplace (slice : Nat)
  deriving DecidableEq, Repr

/-- Slices that quiesce, and what follows. -/
structure PlJob where
  slices : List Nat
  act : PlThen
  deriving DecidableEq, Repr

/-- What an analysis demands of the shared budgets (R268): DRAM and PCI Express in bytes per second, publication in records per
second. -/
structure PlNeed where
  entry : Nat
  dram : Rat
  pcie : Rat
  pub : Rat
  deriving DecidableEq, Repr

/-- The placement engine beyond its registers (R264 to R276): analyses in admission order; jobs in progress; entry, run and next input
index of suspended analyses; DRAM rings (entry, base, size); demands of the analyses; the CORE frequency (250 kHz units) the engine has
placed for while a ramp is under way. -/
structure PlSt where
  order : List Nat
  jobs : List PlJob
  susp : List (Nat × Nat × Nat)
  rings : List (Nat × Nat × Nat)
  need : List PlNeed
  freq : Option Nat
  deriving DecidableEq, Repr

/-- Calibration beyond its registers (R301 to R313): calibrations to retry with `raw` when they were abandoned; `raw` at the last valid
readings by slice (temperature, then supply); trim moves that wait for a caravan boundary; the total move of each trim
since its set was gathered; the slice whose set is being gathered and
whether it goes back to the free slices. -/
structure CalSt where
  retry : List (Nat × Nat)
  readAt : SMap Nat
  moves : SMap (Option (List Int))
  track : SMap (Option (List Int))
  slice : Option Nat
  toFree : Bool
  deriving DecidableEq, Repr

/-- A display output beyond its registers (R371 to R377): the colour table, a copy of it that waits for VBLANK_START, whether the copy
in progress will wait; the active LAYER_CTRL words; SGRAM_HEAD as sampled at VBLANK_START; the lines in the ferries (layer, line,
bytes); lines whose data is late; whether the overlay is not fetched because of HOLD; suppressed fetches not yet counted; the pixels
of the last line; which of VBLANK_START, LINE_MATCH and FRAME_DONE the line or frame has had (bits 0 to 2). -/
structure DispSt where
  ct : SMap Nat
  ctNext : Option (SMap Nat)
  ctWait : Bool
  ctrl : List Nat
  head : Nat
  ferry : List (Nat × Nat × List Byte)
  late : List (Nat × Nat)
  overlayOff : Bool
  suppressed : Nat
  pixels : List Nat
  raised : Nat
  deriving DecidableEq, Repr

/-- A quiesce that waits for its acknowledge: `tim.raw` when it was asked for, less the time its clock has stood still since, and when
that clock stopped (R380). -/
structure Quiesce where
  since : Nat
  stopped : Option Nat
  deriving DecidableEq, Repr

/-- The whole machine. -/
structure State where
  /-- The commands that wait, first in, first out (the model's own field). -/
  pending : List Instr
  /-- Every register word of BAR0 by byte offset; an unlisted word holds its reset value. -/
  regs : SMap Word
  dev : DevState
  pins : PinSt
  boot : BootSt
  sec : SecSt
  clk : ClkSt
  tim : TimeSt
  muster : MusterSt
  host : HostSt
  mem : MemSt
  dram : Vector DramSt 8
  cores : Vector CoreSt 17
  rx : Vector RxSt 16
  tx : Vector TxSt 16
  chains : Vector ChainSt 17
  trigs : Vector TrigSt 17
  recs : Vector RecSt 17
  chans : Vector ChanSt 17
  syns : Vector SynSt 17
  tbus : TbusSt
  xbar : XbarSt
  queue : QueueSt
  causes : List PlCause
  tko : TkoSt
  pl : PlSt
  cal : CalSt
  disp : Vector DispSt 2
  hk : HkSt
  obs : ObsSt
  /-- The slots a stop request has asked to quiesce; the next run enables them again (R15, R22). -/
  stopped : List Blk
  /-- When each quiescing block was asked to quiesce, by slot number (R22, R380). -/
  quiesceAt : SMap (Option Quiesce)
  /-- Counter the free values are applied to (the model's own field). -/
  draw : Nat
  deriving DecidableEq, Repr

/-! ### What each part holds after reset -/

/-- A map nothing has paired: UNMAPPED. -/
def EpochMap.unmapped : EpochMap :=
  { state := 0, base := { t := 0, n := 0 }, slew := none, rate := 1, unc := 0xFFFF, last := none, pairedEdge := 0, te := 0,
    fe := 0, delta := 0, pairings := 0, slips := 0 }

/-- The record engine with nothing open (R181). -/
def RecSt.zero : RecSt :=
  ⟨Vector.replicate 5 none, Vector.replicate 4 none, none, [], [], [], [], [], none, [], none, none⟩

/-- A detector after the resets of R127. -/
def TdSt.zero : TdSt := ⟨false, 0, 0, 0, false, false, false, true, none, false, false⟩
/-- A mask after the resets of R127. -/
def FmSt.zero : FmSt := ⟨none, [], 0, 0, 0, 0, false, false, false, false, true⟩
/-- A density window after the resets of R127. -/
def DnSt.zero : DnSt := ⟨[]⟩
/-- A trigger unit after reset and while disabled (R157). -/
def TrigSt.zero : TrigSt :=
  ⟨Vector.replicate 4 .zero, Vector.replicate 2 .zero, Vector.replicate 2 .zero, [], [], [], 0, [], false, true, none, none, [], none,
    false, 0, 0, 0, [], Vector.replicate 4 false, Vector.replicate 4 none, false⟩

/-- A channeliser after reset (R202). -/
def ChanSt.zero : ChanSt := ⟨none, false, [], 0, none, none, [], [], 0, 0, [], none⟩

/-- A synthesis path after reset and while disabled (R223). -/
def SynSt.zero : SynSt := ⟨0, 0, [], [], [], 0, [], [], [], [], 0, 0, [], none, 65536, 0, 0, none, none, false⟩

/-- No takeover. -/
def TkoSt.zero : TkoSt := ⟨[], 0, [], 0, 0, 0, none, none, 0⟩

/-- The timebase after reset. -/
def TimeSt.zero : TimeSt :=
  { now := 0, raw := 0, running := false, shadow := none, shadowFrac := 0, shadowPhase := 0, refGood := 0, lockMs := 0, corrs := [], setpoint := 0, steer := 0,
    ppsLast := none, ppsTol := 0, growth := 0, gatedUnits := 0, holdMs := 0, loadAt := 0, epochAt := 0, epochPeriod := 0,
    epochStop := false, epochEnd := 0, edgeSerial := 0, edgeAt := none, tdcStart := none, tdcStop := none, tdcArmedAt := 0,
    interp := Vector.replicate 8 ⟨none, none, none, none, none⟩, maps := [] }

/-- A coefficient bank nothing has loaded. -/
def Bank.zero : Bank := ⟨0, []⟩

/-- The chain and transform engine of a slice after reset. -/
def ChainSt.zero : ChainSt :=
  { run := none, any := false, next := 0, pos := 0, clearAt := 0, r2c := [], hb := [], fir := [], lastLost := none, carOpen := false,
    carFl := 0, carGd := 0, pendFl := 0, gaps := [], fgaps := [], boundaryAt := none, terms := none, skipTo := 0, banks := Vector.replicate 4 .zero,
    bankLoad := Vector.replicate 4 none, wins := Vector.replicate 2 [], winLoad := Vector.replicate 2 none, fbuf := [],
    fstarts := [], jobs := [], fnext := 0, frameFl := 0, pwrOff := 0, byCore := 0, lossReason := 0, sig := 0, resAt := [],
    resIdx := none, left := none }

/-- The trigger bus and pins after reset. -/
def TbusSt.zero : TbusSt :=
  { syncAt := none, good := 0, zeroAt := 0, out := [], driving := [], inq := [], outCfg := Vector.replicate 4 0x80000, outEnd := Vector.replicate 4 none,
    outHold := Vector.replicate 4 none, inLast := Vector.replicate 4 none, inLevel := Vector.replicate 4 false, drivenAt := 0,
    nakEnd := 0 }

/-- The queue engine after reset. -/
def QueueSt.zero : QueueSt :=
  { cache := [], fetching := [], alloc := [], recs := [], why := [], timers := [], destroying := none, wrote := 0 }

/-- The placement engine after reset: nothing is placed (R277). -/
def PlSt.zero : PlSt := { order := [], jobs := [], susp := [], rings := [], need := [], freq := none }

/-- Calibration after reset: every set is none (R314). -/
def CalSt.zero : CalSt := { retry := [], readAt := [], moves := [], track := [], slice := none, toFree := false }

/-- A display after reset: the colour table is cleared, the active layers hold the reset value of LAYER_CTRL, watermark 3 (R377). -/
def DispSt.zero : DispSt :=
  { ct := [], ctNext := none, ctWait := false, ctrl := List.replicate 4 0x18000000000, head := 0, ferry := [], late := [],
    overlayOff := false, suppressed := 0, pixels := [], raised := 0 }

/-- A converter after reset: its first pass begins with the internal channels (R415). -/
def ConvSt.zero : ConvSt :=
  { pass := 0, todo := [8, 9, 10, 11, 12, 13, 14, 15], urgentDone := false, last15 := none, lastPassed := none }

/-- The endpoint and the host side after reset. -/
def HostSt.zero : HostSt :=
  { memSpace := false, aerAborts := 0, aerUnexpected := 0, aerInternal := 0, retries := 0, msixTable := [], pba := [], sent := [],
    hostOut := [], hostIn := [], rings := [], cqs := [], mem := [], latches := [], readOk := false, readPoisoned := false,
    readBytes := [] }

/-- On-chip memories and DRAM with nothing written. -/
def MemSt.zero : MemSt :=
  { depot := [], lmem := Vector.replicate 17 [], imem := Vector.replicate 17 [], dram := [], depotBad := [],
    lmemBad := Vector.replicate 17 [], imemBad := Vector.replicate 17 [], dramBad := [], testNext := [], testAt := [] }

/-- A DRAM channel after reset. -/
def DramSt.zero : DramSt :=
  { openRows := [], pending := [], track := List.replicate 10 (0, 0), deferredQuiesce := false, readOk := false,
    readPoisoned := false, readBytes := [], wq := [] }

/-- The pins after reset with the supplies valid and RESET_N high (R423). -/
def PinSt.zero : PinSt :=
  { supplies := true, resetN := true, testMode := false, gpio := 0, thermtrip := false, musterOut := false, epochOut := false,
    trigOut := Vector.replicate 4 false, tbusDrive := 0, tbusNak := 0, tbusSync := false }

/-- The machine right after reset: the device is in BOOT (R15), every register word reads as its reset value, on-chip memory is clear,
the secure region is empty until it is restored, and the fuses say PROVISIONED, as shipped (R398). -/
def State.reset : State :=
  { pending := []
    regs := []
    dev := .boot
    pins := .zero
    boot := { triedA := false, triedB := false, verified := none, idsPassed := false, ucode := 0, waking := false, vendor := 0, subVendor := 0, subId := 0 }
    sec := { region := .empty, copy0 := none, copy1 := none, op := none, extest := false, lc := 1, imageA := none, imageB := none }
    clk := { ramp := [], from_ := 6000, segAt := 0, relock := none, spread := 0, seeking := [], corePhase := 0 }
    tim := .zero
    muster := { req := 0, rearm := false }
    host := .zero
    mem := .zero
    dram := Vector.replicate 8 .zero
    cores := Vector.replicate 17 .zero
    rx := Vector.replicate 16 .zero
    tx := Vector.replicate 16 .zero
    chains := Vector.replicate 17 .zero
    trigs := Vector.replicate 17 .zero
    recs := Vector.replicate 17 .zero
    chans := Vector.replicate 17 .zero
    syns := Vector.replicate 17 .zero
    tbus := .zero
    xbar := { next := [], held := [] }
    queue := .zero
    causes := []
    tko := .zero
    pl := .zero
    cal := .zero
    disp := Vector.replicate 2 .zero
    hk := { conv := Vector.replicate 2 .zero, urgent := false, urgentConv := 0, urgentChan := 0, urgentAt := 0, urgentSrc := 0 }
    obs := { trace := [], lost := 0, cycle := 0, slot := 0, markAt := 0, jtagIr := 2, jtagDr := 0x25120A6F, boundary := 0 }
    stopped := []
    quiesceAt := []
    draw := 0 }

end Sys2Proof.Machine
end

