-- ==== Sys2Proof/Machine/Ops.lean ====
section
/-!
DEFINITION. Sys2Proof/Machine/Ops.lean: the named operations every meaning is built from: register fields, counters, fault
flags, core interrupts, the MSI-X vectors, observed events, memory bytes and time-stamps.
-/
namespace Sys2Proof.Machine
open Sys2Proof

/-- A meaning's effect, before it becomes an outcome. -/
abbrev Op := State → State

/-- The reset value a list of reset rows gives offset `o`. -/
def resetAt : List ResetRow → Nat → Nat
  | [], _ => 0
  | r :: rs, o =>
    if r.off ≤ o ∧ (if r.stride = 0 then o = r.off else (o - r.off) % r.stride = 0 ∧ (o - r.off) / r.stride < r.n)
    then r.value else resetAt rs o

/-- The reset value of the register word at offset `o` of block `b`: BLOCK_ID and the enabled bit of blocks without an enable
(R32), the roles of R8, and the register tables. -/
def Blk.resetWord (b : Blk) (o : Nat) : Nat :=
  if o = 0x000 then b.typeCode + 0x10000 * b.index + 0x1000000
  else if o = 0x010 ∧ b.alwaysOn then 1
  else if b = .core 16 ∧ o = 0x040 then 8
  else if b = .placement ∧ o = 0x1100 then 1
  else resetAt b.resets o

/-- What a register word nothing has written reads as: its reset value. -/
def resetWord (a : Nat) : Word :=
  match slotBlk (a / 0x10000) with
  | some b => BitVec.ofNat 64 (b.resetWord (a % 0x10000))
  | none => 0

/-- The register word at BAR0 byte offset `a` (a multiple of 8, inside a window). -/
def State.word (s : State) (a : Nat) : Word := SMap.get resetWord s.regs a

/-- The state with one register word replaced. -/
def State.setWord (s : State) (a : Nat) (w : Word) : State := { s with regs := SMap.set resetWord s.regs a w }

/-- The value of field `f` of block `b`. -/
def State.rd (s : State) (b : Blk) (f : Fld) : Nat := f.get (s.word (b.base + f.off))

/-- The state with field `f` of block `b` set to the low bits of `v`. -/
def State.wr (s : State) (b : Blk) (f : Fld) (v : Nat) : State :=
  s.setWord (b.base + f.off) (f.put (s.word (b.base + f.off)) v)

/-- Is field `f` other than zero? -/
def State.flag (s : State) (b : Blk) (f : Fld) : Bool := s.rd b f ≠ 0

/-- A CNT field advanced by `n`, saturating at its maximum (R5). -/
def State.cnt (s : State) (b : Blk) (f : Fld) (n : Nat) : State :=
  if n = 0 then s else s.wr b f (min (s.rd b f + n) f.top)

/-- The word at offset `o` of block `b`, as a number. -/
def State.rdw (s : State) (b : Blk) (o : Nat) : Nat := (s.word (b.base + o)).toNat

/-- The word at offset `o` of block `b` replaced. -/
def State.wrw (s : State) (b : Blk) (o v : Nat) : State := s.setWord (b.base + o) (BitVec.ofNat 64 v)

/-- A field read as two's complement. -/
def State.rdi (s : State) (b : Blk) (f : Fld) : Int := signed f.width (s.rd b f)

/-- A field written with the two's-complement code of an integer. -/
def State.wri (s : State) (b : Blk) (f : Fld) (v : Int) : State := s.wr b f (code f.width v)

/-- Apply `g` when `c` holds. -/
def State.when (s : State) (c : Bool) (g : Op) : State := if c then g s else s

/-- Apply `g` for each item of a list, first to last. -/
def State.each {α : Type} (s : State) (l : List α) (g : α → Op) : State := l.foldl (fun st x => g x st) s

/-- The block is enabled and works: its BLOCK_STATUS.enabled reads 1 (R32) and it is not wedged, for the state of a wedged block
changes no more (R23). -/
def State.enabled (s : State) (b : Blk) : Bool := s.flag b R.BLOCK_STATUS.enabled && !s.flag b R.BLOCK_STATUS.wedged

/-- A sticky fault flag of a block, with BLOCK_STATUS.fault beside it (R32). -/
def State.fault (s : State) (b : Blk) (f : Fld) : State := (s.wr b f 1).wr b R.BLOCK_STATUS.fault 1

/-- `n` entries pass through a ferry whose level stays where it is: its mark `hw` shows them, at most `depth` (R18, R19). -/
def ferryPass (b : Blk) (level hw : Fld) (depth n : Nat) (s : State) : State :=
  let m := min depth (s.rd b level + n)
  if s.rd b hw < m then s.wr b hw m else s

/-- The level of a ferry of depth `depth` becomes `n`; its mark follows (R19). -/
def ferryLevel (b : Blk) (level hw : Fld) (depth n : Nat) (s : State) : State :=
  let m := min depth n
  let s := s.wr b level m
  if s.rd b hw < m then s.wr b hw m else s

/-- Entries of 64 bytes that `n` bytes make in a ferry. -/
def ferryEntries (n : Nat) : Nat := (n + 63) / 64

/-- A message from the CORE domain to the management controller passes mgmt (R18, log 35). -/
def mgmtUp (s : State) : State := ferryPass .global R.MGMT_FERRY_UP.level R.MGMT_FERRY_UP.high_water 32 1 s

/-- A message from the management controller to the CORE domain passes mgmt (R18, log 35). -/
def mgmtDown (s : State) : State := ferryPass .global R.MGMT_FERRY_DOWN.level R.MGMT_FERRY_DOWN.high_water 32 1 s

/-- Block `b` is wedged: it makes no further change of state (R23). -/
def State.wedged (s : State) (b : Blk) : Bool := s.flag b R.BLOCK_STATUS.wedged

/-- Shared unit `k` of DEVICE_STATE.shared_wedged is wedged: 0 the sample crossbar, 1 the output crossbar, 5 the PCI Express endpoint
(R23). -/
def State.sharedWedged (s : State) (k : Nat) : Bool := nbit (s.rd .global R.DEVICE_STATE.shared_wedged) k

/-- The PCI Express endpoint is wedged. -/
def State.endpointWedged (s : State) : Bool := s.sharedWedged 5

/-- `tim.raw` when block `b` was asked to quiesce, less what its clock has stood still since; none once it has acknowledged (R22, R380). -/
def State.quiescedAt (s : State) (b : Blk) : Option Nat :=
  (SMap.get (fun _ => none) s.quiesceAt (b.base / 0x10000)).map (fun q => match q.stopped with
    | none => q.since
    | some p => s.tim.raw - (p - q.since))

/-- Note when block `b` was asked to quiesce, or that it is no longer quiescing. -/
def setQuiescedAt (b : Blk) (q : Option Quiesce) (s : State) : State :=
  { s with quiesceAt := SMap.set (fun _ => none) s.quiesceAt (b.base / 0x10000) q }

/-- A register write that has a row of its own: in OFF and BOOT it has no effect (R16). -/
def onWrite (f : State → State) (s : State) : State := if s.dev = .off ∨ s.dev = .boot then s else f s

/-- A free number for a value the spec leaves open: nothing constrains it. The counter advances, so each draw is fresh. -/
def State.free (s : State) (tag : Nat) : Nat × State := (Config.free tag s.draw, { s with draw := s.draw + 1 })

/-- A PLL's output is gated or the loop has never locked: CLK_STATUS (R379). -/
def State.pllRuns (s : State) (p : Nat) : Bool :=
  nbit (s.rd .clocks R.CLK_STATUS.locked) p && !nbit (s.rd .clocks R.CLK_STATUS.gated) p

/-- The CORE domain has its clock: PLL_CORE delivers edges and the device is not in HOLD, STANDBY or OFF (R16, R17, R382). -/
def State.coreRuns (s : State) : Bool :=
  s.pllRuns 0 && !(decide (s.dev = .hold) || decide (s.dev = .standby) || decide (s.dev = .off))

/-! ### Time-stamps -/

/-- Units of 2^-16 ns in one microsecond. -/
def usUnits : Nat := 65536000
/-- Units of 2^-16 ns in one second. -/
def secUnits : Nat := 65536000000000
/-- Units of 2^-16 ns in one TIME tick of 1.25 ns (R280). -/
def tickUnits : Nat := 81920
/-- Units of 2^-16 ns in one millisecond. -/
def msUnits : Nat := 65536000000

/-- A time in units as a T96 value with quality `q` (R279). -/
def toT96 (u : Int) (q : Nat) : T96 :=
  let n := if u < 0 then 0 else u.toNat
  BitVec.ofNat 96 ((n / secUnits % 2 ^ 48) * 2 ^ 48 + (n % secUnits / 65536) * 2 ^ 18 + (n % 65536) * 4 + q % 4)

/-- The units of a T96 value; quality is not compared (R279). -/
def ofT96 (t : T96) : Nat :=
  (t.toNat / 2 ^ 48) * secUnits + (t.toNat / 2 ^ 18 % 2 ^ 30) * 65536 + t.toNat / 4 % 65536

/-- A 96-bit register: a 64-bit word and a 32-bit word at + 8 (R30). -/
def State.rdT96 (s : State) (b : Blk) (f : Fld) : T96 :=
  BitVec.ofNat 96 (s.rdw b f.off + 2 ^ 64 * (s.rdw b (f.off + 8) % 2 ^ 32))

/-- Write a 96-bit register. -/
def State.wrT96 (s : State) (b : Blk) (f : Fld) (t : T96) : State :=
  (s.wrw b f.off (t.toNat % 2 ^ 64)).wrw b (f.off + 8) (t.toNat / 2 ^ 64)

/-- The timebase quality code (R283). -/
def State.quality (s : State) : Nat := s.rd .timebase R.TB_STATUS.quality

/-- The present time with its quality. -/
def State.nowT96 (s : State) : T96 := toT96 s.tim.now s.quality

/-- The timebase bound B_tb (R285). -/
def State.bTb (s : State) : Nat := s.rd .timebase R.TB_BOUND.bound

/-! ### Bytes of the memories -/

/-- What a byte of zeroed or never-written memory reads as (R324; DRAM and host memory by the log). -/
def zeroByte (_ : Nat) : Byte := 0
/-- An unlisted word or line holds no error. -/
def noBad (_ : Nat) : Bool := false

/-- `n` bytes of a memory from address `a`. -/
def memRead (m : SMap Byte) (a n : Nat) : List Byte := (List.range n).map (fun i => SMap.get zeroByte m (a + i))

/-- A memory with bytes written from address `a`. -/
def memWrite : SMap Byte → Nat → List Byte → SMap Byte
  | m, _, [] => m
  | m, a, b :: bs => memWrite (SMap.set zeroByte m a b) (a + 1) bs

/-- A memory with the enabled bytes written from address `a`; none = byte not enabled. -/
def memWriteOpt : SMap Byte → Nat → List (Option Byte) → SMap Byte
  | m, _, [] => m
  | m, a, none :: bs => memWriteOpt m (a + 1) bs
  | m, a, some b :: bs => memWriteOpt (SMap.set zeroByte m a b) (a + 1) bs

/-- The little-endian number of `n` bytes at address `a`. -/
def memNat (m : SMap Byte) (a n : Nat) : Nat := leNat (memRead m a n)

/-! ### Interrupts to the host and to the cores -/

/-- What an unlisted byte of the MSI-X table reads as: an entry's mask bit is set (PRESUMED from the PCI Express rules, log 8). -/
def msixDefault (a : Nat) : Byte := if a % 16 = 12 then 1 else 0

/-- Vector `v` is masked, by its own mask bit or by the function mask. -/
def State.msixMasked (s : State) (v : Nat) : Bool :=
  s.flag .dma R.PCIE_STATUS.function_mask || (SMap.get msixDefault s.host.msixTable (16 * v + 12)).getLsbD 0

/-- Entries a request takes in host_out. -/
def HostReq.entries : HostReq → Nat
  | .write _ d => ferryEntries d.length
  | .message _ => 1

/-- Entries that wait in host_out. -/
def State.hostOutLevel (s : State) : Nat := (s.host.hostOut.map HostReq.entries).sum

/-- host_out is full, so that the DMA engine stalls (R18). -/
def State.hostOutFull (s : State) : Bool := decide (1024 ≤ s.hostOutLevel)

/-- Hand a request to the PCI Express link through host_out. It waits there while Bus Master Enable is 0 (R350), and behind a wedged
endpoint (R23). -/
def State.toHost (s : State) (q : HostReq) : State :=
  if s.flag .dma R.PCIE_STATUS.bus_master && !s.endpointWedged then
    let s := ferryPass .dma R.HOST_OUT_FERRY.level R.HOST_OUT_FERRY.high_water 1024 q.entries s
    match q with
    | .write a d => { s with host.mem := memWrite s.host.mem a d }
    | .message v => { s with host.sent := s.host.sent ++ [v] }
  else
    let s := { s with host.hostOut := s.host.hostOut ++ [q] }
    ferryLevel .dma R.HOST_OUT_FERRY.level R.HOST_OUT_FERRY.high_water 1024 s.hostOutLevel s

/-- Request an MSI-X vector (R364): a masked vector sets its pending bit once, an unmasked one sends its message. With MSI-X
disabled nothing is sent (log 8). -/
def State.msix (s : State) (v : Nat) : State :=
  if !s.flag .dma R.PCIE_STATUS.msix_enable then s
  else if s.endpointWedged then s.toHost (.message v)
  else if s.msixMasked v then { s with host.pba := SMap.set noBad s.host.pba v true }
  else s.toHost (.message v)

/-- Set interrupt source `n` of the core of slice `i` (R239). -/
def State.coreInt (s : State) (i n : Nat) : State :=
  s.wr (.core i) R.INT_PEND.pending (Nat.lor (s.rd (.core i) R.INT_PEND.pending) (2 ^ n))

/-! ### Observation (R401 to R404) -/

/-- Do the tables of R402 support event `e` of unit `u`? -/
def obsSupported (u e : Nat) : Bool :=
  let slice := decide (u ≤ 16)
  let known := slice || (decide (80 ≤ u) && decide (u ≤ 86))
  match e with
  | 0 => known
  | 1 | 2 | 6 => slice
  | 3 | 4 => slice || u = 82
  | 5 => slice || u = 85
  | 7 => slice || u = 80 || u = 81 || u = 83 || u = 84
  | 8 => u = 80 || u = 82 || u = 84
  | 9 => u = 80 || u = 81 || u = 82 || u = 83 || u = 84
  | 10 => u = 83
  | 11 => u = 86
  | _ => false

/-- Put one 16-byte entry at trace_head (R403). A full buffer stops when wrapping is off (R404). -/
def tracePut (e : Nat) (s : State) : State :=
  let h := s.rd .observe R.OBS_STATUS.trace_head
  let s := { s with obs.trace := SMap.set (fun _ => 0) s.obs.trace h (BitVec.ofNat 128 e) }
  let s := s.cnt .observe R.OBS_COUNTS.trace_records 1
  let s := s.wr .observe R.OBS_STATUS.trace_head (h + 1)
  s.when (decide (h = 4095) && !s.flag .observe R.OBS_CTRL.trace_wrap)
    (fun s => (s.wr .observe R.OBS_STATUS.full 1).wr .observe R.OBS_STATUS.stopped 1)

/-- The bytes of a trace entry as a number. -/
def traceEntry (cycles type index arg : Nat) : Nat :=
  cycles % 2 ^ 48 + type * 2 ^ 48 + index * 2 ^ 56 + (arg % 2 ^ 64) * 2 ^ 64

/-- Tracing accepts entries. -/
def State.tracing (s : State) : Bool :=
  s.flag .observe R.OBS_CTRL.trace_enable && !s.flag .observe R.OBS_STATUS.stopped

/-- The write slot, one entry per 2 core cycles, is taken for 8 core cycles from now on (R404). -/
def State.slotTaken (s : State) : Bool := decide (s.obs.cycle + 8 ≤ s.obs.slot)

/-- An entry takes the next write slot. -/
def traceSlot (e : Nat) (s : State) : State :=
  let s := tracePut e s
  { s with obs.slot := max s.obs.slot s.obs.cycle + 2 }

/-- An entry that finds the slot taken is dropped and counted. -/
def traceDrop (s : State) : State := { s.cnt .observe R.OBS_COUNTS.trace_dropped 1 with obs.lost := s.obs.lost + 1 }

/-- Write an entry, preceded by a lost entry when entries were dropped before it (R404). -/
def traceWrite (type index arg : Nat) (s : State) : State :=
  if !s.tracing then s
  else if s.slotTaken then traceDrop s
  else
    let cyc := s.rd .observe R.OBS_CYCLES.count
    let s := if s.obs.lost = 0 then s
      else { traceSlot (traceEntry cyc 2 0xFF s.obs.lost) s with obs.lost := 0 }
    if !s.tracing then s
    else if s.slotTaken then traceDrop s
    else traceSlot (traceEntry cyc type index arg) s

/-- A T96 as the argument of a time or muster mark: seconds [31:0], then nanoseconds. -/
def markArg (t : T96) : Nat := t.toNat / 2 ^ 48 % 2 ^ 32 + (t.toNat / 2 ^ 18 % 2 ^ 30) * 2 ^ 32

/-- Counter `i` counts event `e` of unit `u`. -/
def State.obsCounts (s : State) (u e i : Nat) : Bool :=
  s.rd .observe (R.OBS_SEL.unit i) = u && s.rd .observe (R.OBS_SEL.event i) = e && obsSupported u e

/-- The events (unit, event, trace argument) of one core cycle, `n` cycles in a row: while the unit runs every counter counts each
occurrence of what it selects, and the counters that trace write an entry for each, in ascending counter index (R401 to R404). -/
def State.observeAll (s : State) (evs : List (Nat × Nat × Nat)) (n : Nat) : State :=
  if n = 0 ∨ ¬ s.coreRuns then s else
  let hits := (List.range 64).flatMap (fun i => (evs.filter (fun x => s.obsCounts x.1 x.2.1 i)).map (fun x => (i, x.2.2)))
  let due := hits.filter (fun h => s.flag .observe (R.OBS_SEL.trace h.1))
  let s := s.when (s.flag .observe R.OBS_CTRL.run) (fun s => s.each hits (fun h st => st.cnt .observe (R.OBS_CNT.count h.1) n))
  s.each ((List.range n).flatMap (fun _ => due)) (fun h => traceWrite 0 h.1 h.2)

/-- `n` occurrences of event `e` of unit `u` with trace argument `arg`. -/
def State.observe (s : State) (u e n arg : Nat) : State := s.observeAll [(u, e, arg)] n

/-! ### Check units (R365 to R368) -/

/-- Unit `u` computes a CRC over bytes: the value, and its registers. -/
def checkUnit (u poly : Nat) (bs : List Byte) (s : State) : State × Nat :=
  let v := crc poly bs
  (((s.wr .check (R.CHK_LAST.crc u) v).cnt .check (R.CHK_BYTES.count u) bs.length).cnt .check (R.CHK_COUNTS.done u) 1, v)

/-- A failed verification of unit 60, 62 or 63 (R368). -/
def checkFail (u : Nat) (s : State) : State :=
  ((s.fault .check R.CHK_FAULT.verify_fail).wr .check R.CHK_FAULT.unit u).cnt .check (R.CHK_COUNTS.faults u) 1

/-! ### AER -/

/-- The endpoint records a Completer Abort and signals a non-fatal error (R26). -/
def State.aerAbort (s : State) : State := { s with host.aerAborts := s.host.aerAborts + 1 }

end Sys2Proof.Machine
end

