-- ==== Sys2Proof/Machine/Time.lean ====
section
/-!
DEFINITION. Sys2Proof/Machine/Time.lean: the timebase, its discipline and holdover, epoch marking, the interpolators and the
TDC (R279 to R299).
-/
namespace Sys2Proof.Machine
open Sys2Proof

/-! ### Trust constants (R288) -/

/-- Trust constant `i`, if it is set. -/
def State.trust (s : State) (i : Nat) : Option TrustConst := SMap.get (fun _ => none) s.sec.region.trust i

/-- The value a constant acts as: 0 while unset. -/
def State.trustValue (s : State) (i : Nat) : Int := match s.trust i with | some c => c.value | none => 0

/-- The uncertainty a constant acts as: 0xFFFF while unset. -/
def State.trustUnc (s : State) (i : Nat) : Nat := match s.trust i with | some c => c.unc | none => 0xFFFF

/-- PLL_TIME is gated: the TIME domain does not run (R17, R287). -/
def State.timeGated (s : State) : Bool := s.flag .timebase R.TB_STATUS.ptime_gated

/-- The TIME domain runs. -/
def State.timeRuns (s : State) : Bool := s.tim.running && !s.timeGated

/-! ### Clock domains (R42, R380) -/

/-- A clock domain as the capture of R41 sees it. -/
inductive Dom where
  | time | mem | host | core | hk
  | pix (d : Nat)
  | rx (g : Nat)
  | tx (g : Nat)
  deriving DecidableEq, Repr

/-- The domain a block captures in; TBUS stops with TIME and is listed there. -/
def Blk.dom : Blk → Dom
  | .global | .clocks | .housekeeping | .auth => .hk
  | .muster | .timebase | .tdc | .trigbus => .time
  | .display d => .pix d
  | .dram _ => .mem
  | .rxg g => .rx g
  | .txg g => .tx g
  | .placement | .check | .observe | .depot | .dma | .dmaRings _ | .queue | .chan | .core _ | .filt _ | .trig _ | .records _ =>
    .core

/-- A domain's clock runs, so that it captures (R42). -/
def State.domRuns (s : State) : Dom → Bool
  | .time => s.timeRuns
  | .mem => !(decide (s.dev = .standby) || decide (s.dev = .off))
  | .host => s.pllRuns 2
  | .core => s.coreRuns
  | .hk => decide (s.dev ≠ .off)
  | .pix d => s.pllRuns (8 + d)
  | .rx g => s.flag (.rxg g) R.RXG_STATUS.ck_present
  | .tx g => s.pllRuns (4 + g / 4)

/-- Loop `p` has no lock from now on: it counts its windows afresh (R379). Before the time counter runs nothing times them. -/
def seekLock (p : Nat) (s : State) : State :=
  if s.tim.running then { s with clk.seeking := SMap.set (fun _ => none) s.clk.seeking p (some s.tim.raw) } else s

/-- The shortest lock of loop `p`: 8 windows of 4,096 cycles of its reference (R378, R379). -/
def lockUnits (p : Nat) : Nat := if p = 2 ∨ (4 ≤ p ∧ p < 8) then 327680 * 65536 else 655360 * 65536

/-- The 8 windows loop `p` needs to declare lock are over. -/
def State.mayLock (s : State) (p : Nat) : Bool :=
  (SMap.get (fun _ => none) s.clk.seeking p).all (fun t => decide (t + lockUnits p ≤ s.tim.raw))

/-- The clock of a quiescing block stands still or runs on: its time-out counts only time during which it runs (R380). -/
def Quiesce.follow (raw : Nat) (runs : Bool) (q : Quiesce) : Quiesce :=
  match q.stopped with
  | none => if runs then q else { q with stopped := some raw }
  | some p => if runs then ⟨raw - (p - q.since), none⟩ else q

/-- The clocks of some domains may have stopped or returned: the quiescing blocks in them. -/
def noteClocks (s : State) : State :=
  let follow := fun (n : Nat) (q : Quiesce) => match slotBlk n with
    | some b => q.follow s.tim.raw (s.domRuns b.dom)
    | none => q
  { s with quiesceAt := s.quiesceAt.map (fun p => (p.1, p.2.map (follow p.1))) }

/-! ### Quality and bound (R283, R285) -/

/-- The holdover bound, saturating at 0xFFFF. -/
def State.holdBound (s : State) : Nat :=
  min 0xFFFF (s.rd .timebase R.TB_BOUND.bound_entry + ceilDiv s.tim.growth 250000 + s.tim.gatedUnits)

/-- Enter quality 0 or 1: the bound is not known. -/
def setLow (q : Nat) (s : State) : State := (s.wr .timebase R.TB_STATUS.quality q).wr .timebase R.TB_BOUND.bound 0xFFFF

/-- Recompute the bound in quality 3; a saturated bound ends holdover in quality 0 (R283). -/
def refreshHold (s : State) : State :=
  if s.quality ≠ 3 then s
  else if s.holdBound = 0xFFFF then (setLow 0 s).wr .timebase R.TB_STATUS.holdover_cause 0
  else s.wr .timebase R.TB_BOUND.bound s.holdBound

/-- Enter holdover from quality 2 with its cause; B_entry is the bound in force (R283, R285). -/
def enterHoldover (cause : Nat) (s : State) : State :=
  let s := s.wr .timebase R.TB_BOUND.bound_entry s.bTb
  let s := (s.wr .timebase R.TB_STATUS.quality 3).wr .timebase R.TB_STATUS.holdover_cause cause
  let s := (s.wr .timebase R.TB_STATUS.holdover_s 0).cnt .timebase R.TB_COUNTS.holdover_entries 1
  { s with tim := { s.tim with growth := 0, gatedUnits := 0, holdMs := 0, ppsTol := 0 } }

/-- The bound of quality 2 for the phase error of the last accepted edge. -/
def State.lockedBound (s : State) : Nat :=
  min 0xFFFF (s.rd .timebase R.TB_UNC.src_unc + s.trustUnc 256
    + ceilDiv (s.rdi .timebase R.TB_PHASE.e_last).natAbs 16384 + 1)

/-- Quality falls when what it rests on is lost: 2 to holdover with `cause`, 1 to 0 when `low`. -/
def dropQuality (cause : Nat) (low : Bool) (s : State) : State :=
  if s.quality = 2 then enterHoldover cause s else if s.quality = 1 ∧ low then setLow 0 s else s

/-! ### Epoch maps (R291, R294) -/

/-- The map of stream context `c`. -/
def State.map (s : State) (c : Nat) : EpochMap := SMap.get (fun _ => .unmapped) s.tim.maps c

/-- The time of index `n` on a straight map: exact difference, rounded once (R291). -/
def MapBase.at_ (b : MapBase) (rate n : Nat) : Int :=
  b.t + rneDiv (((n : Int) - b.n) * secUnits) (max rate 1)

/-- The time of index `n` on a slew, where each sample advances by T_in × (1 − 10^-3) (R294). -/
def MapBase.slewAt (b : MapBase) (rate n : Nat) : Int :=
  b.t + rneDiv (((n : Int) - b.n) * secUnits * 999) (1000 * max rate 1)

/-- T96(n) of a map that is not UNMAPPED, in units. While slewing, the slew stands until the new map meets it. -/
def EpochMap.time (m : EpochMap) (n : Nat) : Int :=
  match m.slew with
  | some b => max (m.base.at_ m.rate n) (b.slewAt m.rate n)
  | none => m.base.at_ m.rate n

/-- A time load or bound violation: the map is HELD (R294). -/
def EpochMap.hold (m : EpochMap) : EpochMap :=
  match m.state with
  | 0 => m
  | 2 => match m.last with
    | some l => { m with state := 3, base := l, slew := none }
    | none => { m with state := 3, slew := none }
  | _ => { m with state := 3 }

/-- Show the selected stream's map in TB_MAP. -/
def syncMap (s : State) : State :=
  let m := s.map (s.rd .timebase R.TB_MAP_SEL.stream)
  let t := (toT96 m.te 0).toNat
  let s := (s.wrw .timebase R.TB_MAP.n_e.off m.base.n).wrw .timebase R.TB_MAP.t_e_lo.off (t % 2 ^ 64)
  let s := (s.wr .timebase R.TB_MAP.t_e_hi (t / 2 ^ 64)).wr .timebase R.TB_MAP.fe_const m.fe
  let s := (s.wr .timebase R.TB_MAP.map_state m.state).wri .timebase R.TB_MAP.delta (sat 32 (rne m.delta 8))
  (s.wr .timebase R.TB_MAP.pairings (min m.pairings 0xFFFF)).wr .timebase R.TB_MAP.epoch_slips (min m.slips 0xFFFF)

/-- Software has preset the counts that TB_MAP shows: they are the selected stream's from now on (R5). -/
def presetMap (s : State) : State :=
  let c := s.rd .timebase R.TB_MAP_SEL.stream
  let m := { s.map c with
    pairings := s.rd .timebase R.TB_MAP.pairings
    slips := s.rd .timebase R.TB_MAP.epoch_slips }
  { s with tim.maps := SMap.set (fun _ => EpochMap.unmapped) s.tim.maps c m }

/-- Replace the map of a stream context. -/
def State.setMap (s : State) (c : Nat) (m : EpochMap) : State :=
  syncMap { s with tim.maps := SMap.set (fun _ => EpochMap.unmapped) s.tim.maps c m }

/-- Every stream map goes to HELD (R284, R286). -/
def holdMaps (s : State) : State := (List.range 64).foldl (fun st c => st.setMap c (st.map c).hold) s

/-- An effect on the timebase, which a wedged timebase does not show (R23). -/
def tbAct (f : Op) (s : State) : State := if s.wedged .timebase then s else f s

/-! ### Loads (R284) -/

/-- The next instant of the EPOCH_OUT series at or after `now`, or after it when `strict` (R289). -/
def nextInstant (at_ period now : Nat) (strict : Bool) : Nat :=
  if now < at_ ∨ (now = at_ ∧ !strict) then at_
  else let k := (now - at_) / max period 1
    if at_ + k * period = now ∧ !strict then now else at_ + (k + 1) * period

/-- The time counter steps to `t`; maps are held, and the EPOCH_OUT series goes on at its first instant after the new time. -/
def stepTime (t : Nat) (s : State) : State :=
  let s := { s with tim := { s.tim with now := t } }
  let s := (holdMaps s).cnt .timebase R.TB_COUNTS.loads 1
  if s.flag .timebase R.TB_STATUS.epoch_running
  then s.wrT96 .timebase R.TB_EPOCH_NEXT.lo (toT96 (nextInstant s.tim.epochAt s.tim.epochPeriod t true) 0) else s

/-- Report a TB_CTRL command and its status. -/
def tbStatus (cmd status : Nat) (s : State) : State :=
  (s.wr .timebase R.TB_CTRL.last_cmd cmd).wr .timebase R.TB_CTRL.last_status status

/-- A load that would go back in RUN is refused (R284). -/
def refuseLoad (cmd : Nat) (s : State) : State :=
  tbStatus cmd 2 ((s.wr .timebase R.TB_STATUS.load_refused 1).wr .timebase R.TB_CTRL.load 0)

/-- TB_CTRL.load: pending until the first accepted PPS edge after this tick. -/
def opTbLoad (s : State) : State :=
  tbAct (fun s => tbStatus 1 1 { s.wr .timebase R.TB_CTRL.load 1 with tim.loadAt := s.tim.raw }) s

/-- TB_CTRL.load_now. -/
def opTbLoadNow (s : State) : State :=
  tbAct (fun s =>
    let t := s.rd .timebase R.TB_LOAD.seconds * secUnits
    if s.dev = .run ∧ t < s.tim.now then tbStatus 2 2 (s.wr .timebase R.TB_STATUS.load_refused 1)
    else tbStatus 2 0 (stepTime t s)) s

/-- TB_CTRL.cancel withdraws a pending load. -/
def opTbCancel (s : State) : State := tbAct (fun s => tbStatus 3 0 (s.wr .timebase R.TB_CTRL.load 0)) s

/-! ### Interpolators (R295, R296) -/

/-- The position p[k] of tap `k` for hit counts `h`, in 2^-16 ns. -/
def tapPosition (h : List Nat) (k : Nat) : Int :=
  rneDiv (81920 * (2 * (h.take k).sum + h.getD k 0 : Nat)) (2 * max h.sum 1)

/-- The time of an edge that interpolator `i` sampled at the present tick with tap code `k`; before its first table an edge
stands 0.625 ns before the tick. -/
def State.edgeTime (s : State) (i : Fin 8) (k : Nat) : Int :=
  match s.tim.interp[i].hits with
  | some h => s.tim.now - tapPosition h k
  | none => s.tim.now - 40960

/-- The same instant on the scale of `raw`, which no load moves: intervals between edges are taken on it. -/
def State.edgeRaw (s : State) (i : Fin 8) (k : Nat) : Int := s.edgeTime i k - s.tim.now + s.tim.raw

/-- An edge at `t` follows the previous one by less than 10 ns and merges into it (R133, R296). -/
def mergesInto (last : Option Int) (t : Int) : Bool :=
  match last with
  | some r => decide (t < r + 655360)
  | none => false

/-- The edge merges into the previous one of the same polarity on its pin (R296). -/
def State.edgeMerges (s : State) (i : Fin 8) (falling : Bool) (k : Nat) : Bool :=
  mergesInto (if falling then s.tim.interp[i].lastFall else s.tim.interp[i].lastRise) (s.edgeRaw i k)

/-- Remember an edge for merging. -/
def noteEdge (i : Fin 8) (falling : Bool) (k : Nat) (s : State) : State :=
  let x := s.tim.interp[i]
  let t := some (s.edgeRaw i k)
  { s with tim.interp := s.tim.interp.set i (if falling then { x with lastFall := t } else { x with lastRise := t }) }

/-- The edge merges into the previous one of the same polarity that its pin gave the TDC (R296). -/
def State.tdcMerges (s : State) (i : Fin 8) (falling : Bool) (k : Nat) : Bool :=
  mergesInto (if falling then s.tim.interp[i].tdcFall else s.tim.interp[i].tdcRise) (s.edgeRaw i k)

/-- Remember an edge that a pin gave the TDC. -/
def noteTdc (i : Fin 8) (falling : Bool) (k : Nat) (s : State) : State :=
  let x := s.tim.interp[i]
  let t := some (s.edgeRaw i k)
  { s with tim.interp := s.tim.interp.set i (if falling then { x with tdcFall := t } else { x with tdcRise := t }) }

/-- Show the interpolator that TDC_CAL_READ selects. -/
def syncTdcRead (s : State) : State :=
  let i : Fin 8 := Fin.ofNat 8 (s.rd .tdc R.TDC_CAL_READ.interp)
  match s.tim.interp[i].hits with
  | none => ((s.wr .tdc R.TDC_CAL_READ.position 0).wr .tdc R.TDC_CAL_SPAN.taps 0).wr .tdc R.TDC_CAL_SPAN.widest 0
  | some h =>
    let s := s.wr .tdc R.TDC_CAL_READ.position (tapPosition h (s.rd .tdc R.TDC_CAL_READ.tap)).toNat
    let s := s.wr .tdc R.TDC_CAL_SPAN.taps (min 1023 (h.filter (· ≠ 0)).length)
    s.wr .tdc R.TDC_CAL_SPAN.widest (min 1023 (rneDiv (81920 * (h.foldl max 0 : Nat)) (max h.sum 1)).toNat)

/-- The number of hits one table takes (TDC_CAL_CFG). -/
def State.tableHits (s : State) : Nat :=
  let n := s.rd .tdc R.TDC_CAL_CFG.log2hits
  2 ^ (if n < 16 ∨ n > 24 then 20 else n)

/-- H code-density hits are collected and the table is replaced. -/
def opTableRefresh (i : Fin 8) (h : List Nat) (s : State) : State :=
  if !s.timeRuns || decide (h.length ≠ 512) || decide (h.sum ≠ s.tableHits) then s else
  let s := { s with tim.interp := s.tim.interp.set i { s.tim.interp[i] with hits := some h } }
  let s := s.wr .tdc R.TDC_CAL_STATUS.calibrated (Nat.lor (s.rd .tdc R.TDC_CAL_STATUS.calibrated) (2 ^ i.val))
  syncTdcRead (s.cnt .tdc R.TDC_CAL_STATUS.tables_refreshed 1)

/-! ### REF_IN (R281) -/

/-- The loop is locked to REF_IN no more: its ratio stands at the mean over the last second of lock (R281). -/
def freezeRatio (s : State) : State :=
  let c := s.tim.corrs
  let s := if c.isEmpty then s else s.wri .timebase R.TB_PHASE.freq_corr (sat 32 (rneDiv c.sum c.length))
  { s.wr .timebase R.TB_STATUS.ref_locked 0 with tim := { s.tim with lockMs := 0, corrs := [] } }

/-- Lock to REF_IN is lost: the ratio is frozen and the quality falls. -/
def refUnlock (s : State) : State :=
  let was := s.flag .timebase R.TB_STATUS.ref_locked
  let s := freezeRatio s
  if was then dropQuality 1 true s else s

/-- REF_IN is lost. -/
def refLost (s : State) : State :=
  let s := { s with tim.refGood := 0 }
  if s.flag .timebase R.TB_STATUS.ref_present
  then refUnlock ((s.wr .timebase R.TB_STATUS.ref_present 0).cnt .timebase R.TB_REF.ref_losses 1) else s

/-- Ten times the edge count a window of 65,536 XO_IN cycles should hold; 0 for no reference. -/
def State.refExpect10 (s : State) : Nat :=
  match s.rd .timebase R.TB_CFG.ref_sel with
  | 1 => 131072
  | 2 => 1310720
  | _ => 0

/-- A window of REF_IN edges ends with `count` edges. -/
def opRefWindow (count : Nat) (s : State) : State := tbAct (fun s =>
  let x := s.refExpect10
  if x = 0 then refLost s else
  let d : Int := (count : Int) * 10 - x
  let s := s.wri .timebase R.TB_REF.ref_dev (sat 16 (rneDiv (d * 1000000) x))
  if d.natAbs * 1000 ≤ x then
    let s := { s with tim.refGood := min 4 (s.tim.refGood + 1) }
    if s.tim.refGood = 4 then s.wr .timebase R.TB_STATUS.ref_present 1 else s
  else refLost s) s

/-- REF_IN shows no transition for 1 µs. -/
def opRefTimeout (s : State) : State := tbAct refLost s

/-- Growth of one millisecond in holdover, at the declared rate in force (R285), and the seconds shown. -/
def growHold (s : State) : State :=
  if s.quality ≠ 3 then s else
  let r := if s.flag .timebase R.TB_STATUS.ref_locked then s.rd .timebase R.TB_UNC.rate_ref
    else s.rd .timebase R.TB_UNC.rate_xo
  let s := { s with tim := { s.tim with growth := s.tim.growth + r, holdMs := s.tim.holdMs + 1 } }
  refreshHold (s.wr .timebase R.TB_STATUS.holdover_s (s.tim.holdMs / 1000))

/-- The setpoint moves towards a zero PPS error, at most slew_max ns per second (R282). -/
def slewSetpoint (s : State) : State :=
  if !(s.flag .timebase R.TB_STATUS.ref_locked && s.flag .timebase R.TB_STATUS.pps_valid
    && s.flag .timebase R.TB_STATUS.time_loaded && (s.trust 256).isSome) then s else
  let lim : Int := s.rd .timebase R.TB_CFG.slew_max * 65536 / 1000
  let d := max (-lim) (min lim s.tim.steer)
  { s with tim := { s.tim with setpoint := s.tim.setpoint - d, steer := s.tim.steer - d } }

/-- Once a millisecond: the REF_IN phase error `err` (2^-16 ns) is tested, the loop takes correction `corr`, holdover grows. -/
def opRefLockCheck (err corr : Int) (s : State) : State := tbAct (fun s =>
  let s :=
    if !(s.enabled .timebase && s.flag .timebase R.TB_STATUS.ref_present && s.timeRuns) then s
    else
      let s := slewSetpoint (s.wri .timebase R.TB_PHASE.freq_corr (sat 32 corr))
      let s := if s.flag .timebase R.TB_STATUS.ref_locked
        then { s with tim.corrs := (corr :: s.tim.corrs).take 1000 } else s
      if s.flag .timebase R.TB_STATUS.ref_locked && decide (err.natAbs > 655360) then refUnlock s
      else if err.natAbs ≤ 65536 then
        let n := min 64 (s.tim.lockMs + 1)
        let s := { s with tim.lockMs := n }
        s.when (decide (n = 64) && !s.flag .timebase R.TB_STATUS.ref_locked) (fun s =>
          let s := s.wr .timebase R.TB_STATUS.ref_locked 1
          if s.quality = 0 then setLow 1 s else s)
      else { s with tim.lockMs := 0 }
  growHold s) s

/-! ### PPS_IN (R282 to R286) -/

/-- An accepted edge in holdover lies outside the bound: the declared rates are broken (R286). -/
def boundViolation (s : State) : State :=
  let s := (s.wr .timebase R.TB_STATUS.bound_violation 1).cnt .timebase R.TB_COUNTS.bound_violations 1
  let s := ((setLow 1 s).wr .timebase R.TB_STATUS.time_loaded 0).wr .timebase R.TB_STATUS.holdover_cause 0
  holdMaps s

/-- The quality transitions an accepted edge makes, for phase error `e`; they need the PPS offset constant and the time
loaded. -/
def ppsQuality (e : Int) (s : State) : State :=
  if !((s.trust 256).isSome && s.flag .timebase R.TB_STATUS.time_loaded) then s else
  let s := s.wri .timebase R.TB_PHASE.e_last (sat 32 e)
  let tol := e.natAbs ≤ s.rd .timebase R.TB_CFG.trace_tol * 16384
  let s := { s with tim := { s.tim with steer := e, ppsTol := if tol then min 4 (s.tim.ppsTol + 1) else 0 } }
  let ready := s.flag .timebase R.TB_STATUS.pps_valid && decide (s.tim.ppsTol = 4)
    && s.flag .timebase R.TB_STATUS.ref_locked
  if s.quality = 3 ∧ e.natAbs > s.bTb * 16384 then boundViolation s
  else if s.quality = 2 then s.wr .timebase R.TB_BOUND.bound s.lockedBound
  else if (s.quality = 1 ∨ s.quality = 3) ∧ ready then
    ((s.wr .timebase R.TB_STATUS.quality 2).wr .timebase R.TB_STATUS.holdover_cause 0).wr .timebase R.TB_BOUND.bound s.lockedBound
  else s

/-- An edge is accepted: PPS validity. Edges follow at 1 s intervals when less than 1.001 s apart. -/
def ppsAccept (t : Int) (s : State) : State :=
  let raw := (s.tim.raw : Int) - (s.tim.now - t)
  let follows := match s.tim.ppsLast with
    | some l => decide (raw < l + 1001 * msUnits)
    | none => false
  let g := if follows then min 0xFFFF (s.rd .timebase R.TB_STATUS.pps_good + 1) else 1
  let s := { s.wr .timebase R.TB_STATUS.pps_good g with tim.ppsLast := some raw.toNat }
  if g ≥ 4 then s.wr .timebase R.TB_STATUS.pps_valid 1 else s

/-- T96(edge) under a load that takes effect at the edge (R284). -/
def State.loadTime (s : State) : Int := s.rd .timebase R.TB_LOAD.seconds * secUnits + s.trustValue 256

/-- In RUN a load that would move the edge's time back is refused (R284). -/
def State.loadBack (s : State) (t : Int) : Bool := decide (s.dev = .run) && decide (s.loadTime < t)

/-- The load that waits for this edge takes effect (R284); `t` is T96(edge) before it. -/
def ppsLoad (t : Int) (s : State) : State :=
  let s := (stepTime ((s.tim.now : Int) + (s.loadTime - t)).toNat s).wr .timebase R.TB_CTRL.load 0
  tbStatus 1 0 (s.wr .timebase R.TB_STATUS.time_loaded 1)

/-- The distance of an edge from the whole second nearest to it, cable offset removed (R282). -/
def State.ppsError (s : State) (t : Int) : Int :=
  let x := t - s.trustValue 256
  x - rneDiv x secUnits * secUnits

/-- An edge less than 999 ms after the last accepted one. -/
def State.ppsEarly (s : State) (t : Int) : Bool :=
  match s.tim.ppsLast with
  | some l => decide ((s.tim.raw : Int) - (s.tim.now - t) < l + 999 * msUnits)
  | none => false

/-- An edge on PPS_IN, sampled at the present tick with tap code `k`. -/
def opPpsEdge (falling : Bool) (k : Nat) (s : State) : State :=
  let merged := s.edgeMerges 6 falling k
  let s := noteEdge 6 falling k s
  if merged then s else
  if !(s.enabled .timebase && s.flag .timebase R.TB_CFG.pps_enable && s.timeRuns && s.tim.interp[6].hits.isSome
    && s.flag .timebase R.TB_CFG.pps_edge == falling) then s else
  let t := s.edgeTime 6 k
  let loading := s.flag .timebase R.TB_CTRL.load && decide (s.tim.loadAt < s.tim.raw)
  let takes := loading && !s.loadBack t
  let e := s.ppsError t
  let far := s.flag .timebase R.TB_STATUS.time_loaded && (s.trust 256).isSome && !takes
    && decide (e.natAbs > s.rd .timebase R.TB_CFG.pps_reject * 16384)
  if s.ppsEarly t || far then s.cnt .timebase R.TB_REF.pps_rejects 1
  else
    let s := ppsAccept t s
    if takes then ppsQuality 0 (ppsLoad t s) else ppsQuality e (s.when loading (refuseLoad 1))

/-- 3.003 s of TIME have passed since the last accepted edge. -/
def State.ppsStale (s : State) : Bool :=
  match s.tim.ppsLast with
  | some l => decide (l + 3003 * msUnits ≤ s.tim.raw)
  | none => true

/-- 3.003 s pass with no edge accepted; before that the command finds nothing to do. -/
def opPpsLoss (s : State) : State :=
  if s.wedged .timebase || !s.ppsStale then s else
  if !s.flag .timebase R.TB_STATUS.pps_valid then { s.wr .timebase R.TB_STATUS.pps_good 0 with tim.ppsTol := 0 } else
  let s := (s.wr .timebase R.TB_STATUS.pps_valid 0).cnt .timebase R.TB_REF.pps_losses 1
  dropQuality 2 false { s.wr .timebase R.TB_STATUS.pps_good 0 with tim.ppsTol := 0 }

/-! ### EPOCH_OUT (R289) -/

/-- TB_CTRL.epoch_go. -/
def opEpochGo (s : State) : State := tbAct (fun s =>
  let p := s.rd .timebase R.TB_EPOCH_CFG.period
  if p < 800000 then tbStatus 4 2 s else
  let a := ofT96 (s.rdT96 .timebase R.TB_EPOCH_AT.lo)
  let n := nextInstant a (p * tickUnits) s.tim.now false
  let s := { s with tim := { s.tim with epochAt := a, epochPeriod := p * tickUnits, epochStop := false } }
  let s := s.wrT96 .timebase R.TB_EPOCH_NEXT.lo (toT96 n 0)
  tbStatus 4 0 (s.wr .timebase R.TB_STATUS.epoch_running 1)) s

/-- TB_CTRL.epoch_stop: the schedule ends after the current pulse. -/
def opEpochStop (s : State) : State := tbAct (fun s =>
  let s := if s.pins.epochOut then { s with tim.epochStop := true } else s.wr .timebase R.TB_STATUS.epoch_running 0
  tbStatus 5 0 s) s

/-- The width of an EPOCH_OUT pulse in units: 0 acts as 1. -/
def State.epochWidth (s : State) : Nat := max 1 (s.rd .timebase R.TB_EPOCH_CFG.width) * tickUnits

/-- EPOCH_OUT falls, and with it a schedule that a stop was waiting for. -/
def endEpochPulse (s : State) : State :=
  let s := { s with pins.epochOut := false }
  if s.tim.epochStop then { s.wr .timebase R.TB_STATUS.epoch_running 0 with tim.epochStop := false } else s

/-- The EPOCH_OUT pulse ends once it has been high for width ticks; before that the command finds nothing to do. -/
def opEpochPulseEnd (s : State) : State :=
  if !s.pins.epochOut || s.wedged .timebase || decide (s.tim.raw < s.tim.epochEnd) then s else endEpochPulse s

/-! ### The TDC (R297) -/

/-- Clear the seen flags and arm at tick `at_` of `raw`. -/
def tdcRearm (at_ : Nat) (s : State) : State :=
  let s := ((s.wr .tdc R.TDC_STATUS.start_seen 0).wr .tdc R.TDC_STATUS.stop_seen 0).wr .tdc R.TDC_STATUS.state 1
  { s with tim := { s.tim with tdcStart := none, tdcStop := none, tdcArmedAt := at_ } }

/-- TDC_CTRL.arm clears the previous result and flags and arms. -/
def opTdcArm (s : State) : State :=
  if !s.enabled .tdc then s else
  let s := ((s.wr .tdc R.TDC_STATUS.order 0).wr .tdc R.TDC_STATUS.close 0).wr .tdc R.TDC_STATUS.range 0
  let s := (s.wr .tdc R.TDC_RESULT.result 0).wr .tdc R.TDC_CTRL.arm 1
  tdcRearm s.tim.raw ((s.wr .tdc R.TDC_CTRL.last_cmd 1).wr .tdc R.TDC_CTRL.last_status 1)

/-- TDC_CTRL.cancel: back to IDLE, the result unchanged. -/
def opTdcCancel (s : State) : State :=
  let s := (s.wr .tdc R.TDC_STATUS.state 0).wr .tdc R.TDC_CTRL.arm 0
  (s.wr .tdc R.TDC_CTRL.last_cmd 2).wr .tdc R.TDC_CTRL.last_status 0

/-- Both edges are taken: the result and its flags; with repeat the unit re-arms at the tick after. -/
def tdcFinish (t0 t1 : Int) (s : State) : State :=
  let d := t1 - t0
  let big := decide (d.natAbs ≥ 2 ^ 40 * tickUnits)
  let close := decide (d.natAbs < 256)
  let r := if close then 0 else if big then (if d < 0 then -(2 ^ 55 : Int) else 2 ^ 55 - 1) else sat 56 (rne d 8)
  let s := s.wri .tdc R.TDC_RESULT.result r
  let s := (s.wr .tdc R.TDC_STATUS.order (bit (decide (d < 0)))).wr .tdc R.TDC_STATUS.close (bit close)
  let s := ((s.wr .tdc R.TDC_STATUS.range (bit big)).wr .tdc R.TDC_STATUS.state 3).cnt .tdc R.TDC_COUNTS.measurements 1
  let s := (s.wr .tdc R.TDC_CTRL.arm 0).wr .tdc R.TDC_CTRL.last_status 0
  if s.flag .tdc R.TDC_CFG.repeat then tdcRearm (s.tim.raw + tickUnits) s else s

/-- A start or stop edge at time `t`: taken if it is the first of its kind after arming, else counted as ignored. -/
def tdcTake (isStart : Bool) (t : Int) (s : State) : State :=
  let st := s.rd .tdc R.TDC_STATUS.state
  let seen := if isStart then s.flag .tdc R.TDC_STATUS.start_seen else s.flag .tdc R.TDC_STATUS.stop_seen
  if st = 0 then s
  else if seen || !(st = 1 || st = 2) || !(s.tim.tdcArmedAt < s.tim.raw) then s.cnt .tdc R.TDC_COUNTS.ignored_edges 1
  else
    let s := if isStart
      then { (s.wr .tdc R.TDC_STATUS.start_seen 1).wrT96 .tdc R.TDC_START_T96.lo (toT96 t s.quality) with tim.tdcStart := some t }
      else { (s.wr .tdc R.TDC_STATUS.stop_seen 1).wrT96 .tdc R.TDC_STOP_T96.lo (toT96 t s.quality) with tim.tdcStop := some t }
    match s.tim.tdcStart, s.tim.tdcStop with
    | some a, some b => tdcFinish a b s
    | _, _ => s.wr .tdc R.TDC_STATUS.state 2

/-- The source code and the interpolator of a pin (TDC_CFG, R295). -/
def tdcPinOf (isStart : Bool) : TdcPin → Option (Nat × Fin 8)
  | .start => if isStart then some (0, 0) else none
  | .stop => if isStart then none else some (0, 1)
  | .trigIn j => some (1 + j.val, Fin.ofNat 8 (2 + j.val))
  | .pps => some (5, 6)

/-- The interpolator of a pin (R295). -/
def tdcInterp : TdcPin → Fin 8
  | .start => 0
  | .stop => 1
  | .trigIn j => Fin.ofNat 8 (2 + j.val)
  | .pps => 6

/-- An edge on a pin reaches the TDC as a start edge, a stop edge, or both, unless it merges into the one before. -/
def opTdcEdge (pin : TdcPin) (falling : Bool) (k : Nat) (s : State) : State :=
  if !s.timeRuns then s else
  let merged := s.tdcMerges (tdcInterp pin) falling k
  let s := noteTdc (tdcInterp pin) falling k s
  if merged || !s.enabled .tdc then s else
  let s := match tdcPinOf true pin with
    | some (c, i) => if s.rd .tdc R.TDC_CFG.start_src = c ∧ (s.flag .tdc R.TDC_CFG.start_edge == falling) = true
        then tdcTake true (s.edgeTime i k) s else s
    | none => s
  match tdcPinOf false pin with
  | some (c, i) => if s.rd .tdc R.TDC_CFG.stop_src = c ∧ (s.flag .tdc R.TDC_CFG.stop_edge == falling) = true
      then tdcTake false (s.edgeTime i k) s else s
  | none => s

/-- The edge T_e of EPOCH_OUT as a TDC source (source 6). -/
def tdcEpoch (t : Int) (s : State) : State :=
  if !s.enabled .tdc then s else
  let s := if s.rd .tdc R.TDC_CFG.start_src = 6 then tdcTake true t s else s
  if s.rd .tdc R.TDC_CFG.stop_src = 6 then tdcTake false t s else s

/-- The time-out of TDC_CFG has run out since the unit was armed: 2^(t−1) ms, none for t = 0. -/
def State.tdcLate (s : State) : Bool :=
  let t := s.rd .tdc R.TDC_CFG.timeout
  decide (t ≠ 0) && decide (s.tim.tdcArmedAt + 2 ^ (t - 1) * msUnits ≤ s.tim.raw)

/-- The time-out expires before both edges are taken; before that the command finds nothing to do. -/
def opTdcTimeout (s : State) : State :=
  let st := s.rd .tdc R.TDC_STATUS.state
  if !(st = 1 || st = 2) || !s.tdcLate then s else
  let s := ((s.wr .tdc R.TDC_STATUS.state 4).wr .tdc R.TDC_RESULT.result 0).cnt .tdc R.TDC_COUNTS.timeouts 1
  (s.wr .tdc R.TDC_CTRL.arm 0).wr .tdc R.TDC_CTRL.last_status 0

/-! ### PLL_TIME (R280, R287) -/

/-- PLL_TIME loses lock: the shadow counter takes over. The lock to REF_IN ends with TIME (DEDUCED, log 36). -/
def timeGate (s : State) : State :=
  if s.timeGated || s.wedged .timebase then s else
  let s := freezeRatio (s.wr .timebase R.TB_STATUS.ptime_gated 1)
  dropQuality 4 true { s with tim := { s.tim with shadow := some s.tim.now, shadowFrac := 0, shadowPhase := 0 } }

/-- PLL_TIME locks: the counter starts, or takes up the shadow's time, never going back in RUN. -/
def timeLock (s : State) : State :=
  if s.wedged .timebase then s
  else if !s.tim.running then { s with tim := { s.tim with running := true, now := 0, raw := 0 } }
  else match s.tim.shadow with
    | none => s
    | some sh =>
      let t := if s.dev = .run then max sh s.tim.now else sh
      let s := { s.wr .timebase R.TB_STATUS.ptime_gated 0 with
        tim := { s.tim with now := t, shadow := none, gatedUnits := s.tim.gatedUnits + 80 } }
      refreshHold s

/-- One TIME tick of 1.25 ns passes: the counter advances, or while PLL_TIME is gated the shadow advances by
20 ns × (1 + correction) per XO_IN cycle of 16 ticks (R280, R287). A wedged timebase stands still (R23). -/
def tickTime (s : State) : State :=
  if s.wedged .timebase then (if s.tim.running then { s with tim.raw := s.tim.raw + tickUnits } else s) else
  match s.tim.shadow with
  | some sh =>
    let p := s.tim.shadowPhase + 1
    if p < 16 then { s with tim := { s.tim with shadowPhase := p } } else
    let f : Int := s.tim.shadowFrac + 16 * tickUnits * (1000000000000 + s.rdi .timebase R.TB_PHASE.freq_corr)
    let f := f.toNat
    let d := f / 1000000000000
    { s with tim := { s.tim with
        shadow := some (sh + d), raw := s.tim.raw + d, shadowFrac := f % 1000000000000, shadowPhase := 0 } }
  | none => if s.tim.running
      then { s with tim := { s.tim with now := s.tim.now + tickUnits, raw := s.tim.raw + tickUnits } } else s

/-! ### Enable and quiesce (R298) -/

/-- TB_CFG names no valid reference or loop bandwidth. -/
def State.tbRefuses (s : State) : Bool :=
  decide (s.rd .timebase R.TB_CFG.ref_sel = 3) || decide (s.rd .timebase R.TB_CFG.loop_bw = 3)

/-- TDC_CFG names no valid source. -/
def State.tdcRefuses (s : State) : Bool :=
  decide (s.rd .tdc R.TDC_CFG.start_src = 7) || decide (s.rd .tdc R.TDC_CFG.stop_src = 7)

/-- TIMEBASE is disabled: PPS clears, the quality falls. -/
def tbDisable (s : State) : State :=
  let s := (s.wr .timebase R.TB_STATUS.pps_valid 0).wr .timebase R.TB_STATUS.pps_good 0
  let s := { s.wr .timebase R.TB_STATUS.ref_locked 0 with
    tim := { s.tim with ppsTol := 0, lockMs := 0, corrs := [], ppsLast := none } }
  dropQuality 3 true s

/-- TDC is disabled: a measurement in progress ends as cancel. -/
def tdcDisable (s : State) : State :=
  if s.rd .tdc R.TDC_STATUS.state = 1 ∨ s.rd .tdc R.TDC_STATUS.state = 2 then opTdcCancel s else s

/-! ### The commands -/

/-- REF_WINDOW (R281): A 1.31 ms window of REF_IN edges ends and REF_IN is judged present or lost. -/
def execRefWindow (count : Nat) (s : State) : Host.Outcome State Fault Refusal :=
  .next (opRefWindow count s)
/-- REF_TIMEOUT (R281): REF_IN shows no transition for 1 µs and is lost. -/
def execRefTimeout (s : State) : Host.Outcome State Fault Refusal :=
  .next (opRefTimeout s)
/-- REF_LOCK_CHECK (R281): Each millisecond the REF phase error is tested for ref-lock, gain or loss, and holdover growth is added. -/
def execRefLockCheck (err : Int) (corr : Int) (s : State) : Host.Outcome State Fault Refusal :=
  .next (opRefLockCheck err corr s)
/-- PPS_EDGE (R282): A PPS_IN edge is accepted or rejected and steers the setpoint, with quality transitions and pending loads applied. -/
def execPpsEdge (falling : Bool) (tap : Fin 512) (s : State) : Host.Outcome State Fault Refusal :=
  .next (opPpsEdge falling tap s)
/-- PPS_LOSS (R282): 3.003 s pass without an accepted PPS edge and PPS is lost. -/
def execPpsLoss (s : State) : Host.Outcome State Fault Refusal :=
  .next (opPpsLoss s)
/-- LOAD (R284): TB_CTRL.load schedules a time load at the next PPS edge. -/
def execTbLoad (s : State) : Host.Outcome State Fault Refusal :=
  .next (onWrite opTbLoad s)
/-- LOAD_NOW (R284): TB_CTRL.load_now sets the time at once, or is refused if it moves backwards in RUN. -/
def execTbLoadNow (s : State) : Host.Outcome State Fault Refusal :=
  .next (onWrite opTbLoadNow s)
/-- TB_CANCEL (R284): TB_CTRL.cancel withdraws a pending load. -/
def execTbCancel (s : State) : Host.Outcome State Fault Refusal :=
  .next (onWrite opTbCancel s)
/-- EPOCH_GO (R289): TB_CTRL.epoch_go starts the EPOCH_OUT schedule, or is refused for a short period. -/
def execEpochGo (s : State) : Host.Outcome State Fault Refusal :=
  .next (onWrite opEpochGo s)
/-- EPOCH_STOP (R289): TB_CTRL.epoch_stop stops the schedule after the current pulse. -/
def execEpochStop (s : State) : Host.Outcome State Fault Refusal :=
  .next (onWrite opEpochStop s)
/-- EPOCH_PULSE_END (R289): The EPOCH_OUT pulse of width ticks ends. -/
def execEpochPulseEnd (s : State) : Host.Outcome State Fault Refusal :=
  .next (opEpochPulseEnd s)
/-- TABLE_REFRESH (R296): An interpolator collects H code-density hits and its position table is replaced. -/
def execTableRefresh (i : Fin 8) (hits : List Nat) (s : State) : Host.Outcome State Fault Refusal :=
  .next (opTableRefresh i hits s)
/-- TDC_ARM (R297): TDC_CTRL.arm clears the result and arms a measurement. -/
def execTdcArm (s : State) : Host.Outcome State Fault Refusal :=
  .next (onWrite opTdcArm s)
/-- TDC_CANCEL (R297): TDC_CTRL.cancel returns the TDC to IDLE. -/
def execTdcCancel (s : State) : Host.Outcome State Fault Refusal :=
  .next (onWrite opTdcCancel s)
/-- TDC_EDGE (R297): A start or stop edge is taken, and with both taken the result is computed and the TDC re-arms if repeat is set. -/
def execTdcEdge (pin : TdcPin) (falling : Bool) (tap : Fin 512) (s : State) : Host.Outcome State Fault Refusal :=
  .next (opTdcEdge pin falling tap s)
/-- TDC_TIMEOUT (R297): The TDC timeout expires before both edges are taken. -/
def execTdcTimeout (s : State) : Host.Outcome State Fault Refusal :=
  .next (opTdcTimeout s)

end Sys2Proof.Machine
end

