-- ==== Sys2Proof/Machine/Live.lean ====
section
/-!
DEFINITION. Sys2Proof/Machine/Live.lean: what a register read returns (R36): the stored word, with the fields whose home is
elsewhere in the state (pins, the time counter, the device state) laid over it.
-/
namespace Sys2Proof.Machine
open Sys2Proof

/-- The code DEVICE_STATE.state shows (R15). -/
def DevState.code : DevState → Nat
  | .off => 0 | .boot => 1 | .ready => 2 | .run => 3 | .hold => 4 | .standby => 5

/-- GPIO_IN: an output pin shows the driven level, an input pin the outside level (R425). -/
def State.gpioIn (s : State) : Nat :=
  let d := s.rd .global R.GPIO_DIR.level
  Nat.lor (Nat.land d (s.rd .global R.GPIO_OUT.level)) (Nat.land (Nat.xor d 0xFFFF) s.pins.gpio.toNat)

/-- A word of a live register file (R248), at its offset above 0x1000. -/
def CoreSt.file (k : CoreSt) (o : Nat) : Nat :=
  let lane := fun (n : Nat) => (SMap.get (fun _ => (0 : BitVec 24)) k.v n).toInt
  if o < 0x100 then (SMap.get (fun _ => (0 : W32)) k.s (o / 8)).toNat
  else if o < 0x500 then
    let n := (o - 0x100) / 8 * 2
    code 32 (lane n) + 2 ^ 32 * code 32 (lane (n + 1))
  else if o < 0x700 then code 64 ((SMap.get (fun _ => (0 : BitVec 56)) k.a ((o - 0x500) / 8)).toInt)
  else if o < 0x740 then (SMap.get (fun n => if n = 0 then (0xFF : Byte) else 0) k.p ((o - 0x700) / 8)).toNat
  else (SMap.get (fun _ => (0 : BitVec 39)) k.x ((o - 0x740) / 8)).toNat

/-- Milliseconds left of the presence window (R393). -/
def State.windowLeft (s : State) : Nat :=
  match s.sec.op with
  | some a => 10000 - min 10000 ((s.tim.raw - a.openedAt) / msUnits)
  | none => 0

/-- AUTH_PRESENCE.level: no command gives the level of PRESENCE_N, so it is a free function of the time passed (log 7). -/
def State.presenceLevel (s : State) : Nat := Config.free 393 s.tim.raw % 2

/-- The word offset `o` of block `b` reads as. -/
def State.live (s : State) (b : Blk) (o : Nat) : Word :=
  let w := s.word (b.base + o)
  match b with
  | .global =>
    if o = 0x100 then R.DEVICE_STATE.state.put w s.dev.code
    else if o = 0x210 then BitVec.ofNat 64 s.gpioIn else w
  | .timebase =>
    if o = 0x060 then s.nowT96.setWidth 64
    else if o = 0x068 then (s.nowT96 >>> 64).setWidth 64 else w
  | .observe =>
    let e := SMap.get (fun _ => (0 : BitVec 128)) s.obs.trace (s.rd .observe R.OBS_TRACE_READ.index)
    if o = 0x088 then e.setWidth 64 else if o = 0x090 then (e >>> 64).setWidth 64 else w
  | .auth =>
    if o = 0x070 then
      let w := R.AUTH_PRESENCE.level.put w s.presenceLevel
      if s.flag .auth R.AUTH_PRESENCE.window_open then R.AUTH_PRESENCE.remaining.put w s.windowLeft else w
    else w
  | .core i => if 0x1000 ≤ o ∧ o < 0x17C0 then BitVec.ofNat 64 ((s.cores[Fin.ofNat 17 i]).file (o - 0x1000)) else w
  | _ => w

end Sys2Proof.Machine
end

