-- ==== Sys2Proof/Machine/DramMem.lean ====
section
/-!
DEFINITION. Sys2Proof/Machine/DramMem.lean: the DRAM device address space: geometry and address map (R331 to R333), error correction
(R334), and reads and writes of its bytes through the write ferries (R18, R343, R345).
-/
namespace Sys2Proof.Machine
open Sys2Proof

/-- A cause of R274 reaches the placement engine, which the management controller runs: a message passes mgmt. -/
def placeCause (cause arg : Nat) (s : State) : State := mgmtUp { s with causes := s.causes ++ [⟨cause, arg⟩] }

/-! ### Geometry and address map (R331 to R333) -/

/-- Capacity of a channel in GiB, from its DRAM_CFG: the channel's data devices times their density. -/
def State.dramGiB (s : State) (c : Nat) : Nat :=
  let perRank := if s.flag (.dram c) R.DRAM_CFG.width then 16 else 32
  perRank * (2 + s.rd (.dram c) R.DRAM_CFG.density) / 2 * (1 + s.rd (.dram c) R.DRAM_CFG.ranks_m1)

/-- Capacity of a channel in bytes. -/
def State.dramBytes (s : State) (c : Nat) : Nat := s.dramGiB c * 2 ^ 30

/-- log2 of the bursts in a row of a subchannel. -/
def State.dramCb (s : State) (c : Nat) : Nat := if s.flag (.dram c) R.DRAM_CFG.width then 6 else 7

/-- The number of address bits a size needs. -/
def addrBits : Nat → Nat → Nat
  | 0, _ => 0
  | f + 1, n => if n ≤ 1 then 0 else 1 + addrBits f ((n + 1) / 2)

/-- Row bits in force. -/
def State.dramRowBits (s : State) (c : Nat) : Nat :=
  addrBits 64 (s.dramBytes c) - (12 + s.dramCb c + s.rd (.dram c) R.DRAM_CFG.ranks_m1)

/-- k of R332, as BOOT found it usable (R342). -/
def State.dramK (s : State) : Nat := s.rd (.dram 0) R.DRAM_MAP.n_active_log2

/-- The device DRAM address space in bytes (R332). -/
def State.dramSpace (s : State) : Nat :=
  let n := 2 ^ s.dramK
  if s.flag (.dram 0) R.DRAM_MAP.reserve then (n - 1) * s.dramBytes 0 else n * s.dramBytes 0

/-- The channel of a device address. -/
def State.dramChan (s : State) (a : Nat) : Nat :=
  let k := s.dramK
  Nat.xor (Nat.xor (a / 2 ^ 12 % 2 ^ k) (a / 2 ^ (12 + k) % 2 ^ k)) (a / 2 ^ (12 + 2 * k) % 2 ^ k)

/-- The local address of a device address. -/
def State.dramLocal (s : State) (a : Nat) : Nat := a / 2 ^ (12 + s.dramK) * 2 ^ 12 + a % 2 ^ 12

/-- Bank (subchannel, bank group, bank and rank together) and row of a local address of channel `c` (R333). -/
def State.dramBank (s : State) (c l : Nat) : Nat × Nat :=
  let cb := s.dramCb c
  let rk := s.rd (.dram c) R.DRAM_CFG.ranks_m1
  let row := l / 2 ^ (12 + cb + rk)
  let bg := Nat.xor (l / 2 ^ (7 + cb) % 8) (row % 8)
  (l / 64 % 2 + 2 * bg + 16 * (l / 2 ^ (10 + cb) % 4) + 64 * (l / 2 ^ (12 + cb) % 2 ^ rk), row)

/-- The bytes `n` from device address `a` lie in the device address space (else a target error). -/
def State.dramIn (s : State) (a n : Nat) : Bool := decide (a + n ≤ s.dramSpace)

/-! ### Serving requests (R336, R337, R343, R345) -/

/-- Replace a channel's record. -/
def State.setDram (s : State) (c : Fin 8) (d : DramSt) : State := { s with dram := s.dram.set c d }

/-- PLL_MEM delivers the controller clock. -/
def State.memClock (s : State) : Bool := s.pllRuns 1

/-- The channel serves requests now. -/
def State.dramServes (s : State) (c : Nat) : Bool :=
  s.memClock && s.enabled (.dram c) && !s.flag (.dram c) R.DRAM_STATUS.bypass
  && (decide (s.rd (.dram c) R.DRAM_STATUS.state = 2) || decide (s.rd (.dram c) R.DRAM_STATUS.state = 3)
    || decide (s.rd (.dram c) R.DRAM_STATUS.phase = 2))

/-! ### Contents and error correction (R334) -/

/-- The first addresses of the lines that `n` bytes from `a` lie in. -/
def linesOf (a n : Nat) : List Nat := (List.range ((a + n + 63) / 64 - a / 64)).map (fun k => (a / 64 + k) * 64)

/-- A line holds an uncorrectable error. -/
def State.badLine (s : State) (a : Nat) : Bool := SMap.get noBad s.mem.dramBad (a / 64 * 64)

/-- The first line of the `n` bytes from `a` with an uncorrectable error. -/
def State.firstBadLine (s : State) (a n : Nat) : Option Nat :=
  (linesOf a n).find? s.badLine

/-- An uncorrectable error of channel `c` at local address `l`, found by an agent. -/
def dramLog (c l symbol agent : Nat) (s : State) : State :=
  let b := Blk.dram c
  let s := (s.cnt b R.DRAM_ECC.uncorrectable 1).fault b R.DRAM_FAULT.uncorrectable
  let s := (s.wr b R.DRAM_ERR_LAST.local_address (l / 64)).wr b R.DRAM_ERR_LAST.symbol symbol
  (s.wr b R.DRAM_ERR_LAST.uncorrectable 1).wr b R.DRAM_ERR_LAST.agent agent

/-- A read of `n` bytes from `a` meets the lines with an uncorrectable error: the first is counted, flagged and logged with a free symbol
(R334). -/
def checkLines (a n : Nat) (s : State) : State :=
  match s.firstBadLine a n with
  | none => s
  | some l => let (x, s) := s.free 16; dramLog (s.dramChan l) (s.dramLocal l) (x % 256) 0 s

/-- A line of 64 enabled bytes reaches the array: a partial write to a line with an uncorrectable error is discarded and counted, a
whole line replaces it. -/
def dramPutLine (w : Nat) (ds : List (Option Byte)) (s : State) : State :=
  if s.badLine w then
    if ds.all (·.isSome) then
      let m := memWriteOpt s.mem.dram w ds
      let bad := SMap.erase s.mem.dramBad w
      { s with mem := { s.mem with dram := m, dramBad := bad } }
    else if ds.all (·.isNone) then s
    else s.cnt (.dram (s.dramChan w)) R.DRAM_ECC.rmw_dropped 1
  else
    let m := memWriteOpt s.mem.dram w ds
    { s with mem := { s.mem with dram := m } }

/-- The level of mem_wr[c] follows what waits in it. -/
def showMemWr (c : Fin 8) (s : State) : State :=
  ferryLevel (.dram c.val) R.DRAM_FERRY_WR.level R.DRAM_FERRY_WR.high_water 256 s.dram[c].wq.length s

/-- A line is written through mem_wr[c]: it passes while the channel serves requests, waits there while it does not (R18, R343,
R345), and is lost behind an isolated channel (R23). -/
def dramWriteLine (w : Nat) (ds : List (Option Byte)) (s : State) : State :=
  let c : Fin 8 := Fin.ofNat 8 (s.dramChan w)
  if s.flag (.dram c.val) R.BLOCK_STATUS.wedged then s
  else if s.dramServes c.val then
    ferryPass (.dram c.val) R.DRAM_FERRY_WR.level R.DRAM_FERRY_WR.high_water 256 1 (dramPutLine w ds s)
  else showMemWr c (s.setDram c { s.dram[c] with wq := s.dram[c].wq ++ [(w, ds)] })

/-- A write by lines. -/
def dramWriteLines (a : Nat) (data : List (Option Byte)) : List Nat → Op
  | [], s => s
  | w :: ws, s =>
    dramWriteLines a data ws
      (dramWriteLine w ((List.range 64).map (fun i => if a ≤ w + i then (data.getD (w + i - a) none) else none)) s)

/-- A channel that serves requests again takes what waits in mem_wr, in order. -/
def drainMem (c : Fin 8) (s : State) : State :=
  if !s.dramServes c.val then s
  else
    let q := s.dram[c].wq
    showMemWr c ((s.setDram c { s.dram[c] with wq := [] }).each q (fun l st => dramPutLine l.1 l.2 st))

/-- Every channel the `n` bytes from `a` lie in serves requests: a read is answered. -/
def State.dramOpen (s : State) (a n : Nat) : Bool := (linesOf a n).all (fun w => s.dramServes (s.dramChan w))

/-- `n` bytes of DRAM at `a` can be read: they exist, their channels serve, and no line holds an uncorrectable error. -/
def State.dramGood (s : State) (a n : Nat) : Bool := s.dramIn a n && s.dramOpen a n && (s.firstBadLine a n).isNone

/-- mem_wr is full in front of some of the `n` bytes from `a`: their writer stalls (R18). -/
def State.dramStalls (s : State) (a n : Nat) : Bool :=
  (linesOf a n).any (fun w =>
    let c : Fin 8 := Fin.ofNat 8 (s.dramChan w)
    !s.dramServes c.val && decide (256 ≤ s.dram[c].wq.length))

/-- Write bytes with enables at device address `a`. -/
def dramWriteOpt (a : Nat) (data : List (Option Byte)) (s : State) : State := dramWriteLines a data (linesOf a data.length) s

/-- Write bytes at device address `a`. -/
def dramWrite (a : Nat) (data : List Byte) (s : State) : State := dramWriteOpt a (data.map some) s

/-- Read bytes at device address `a`. -/
def State.dramRead (s : State) (a n : Nat) : List Byte := memRead s.mem.dram a n

end Sys2Proof.Machine
end

