-- ==== Sys2Proof/Machine/Auth.lean ====
section
/-!
DEFINITION. Sys2Proof/Machine/Auth.lean: the secure region and its sealed copies, the AUTH operations under presence, the
tamper loop, the life-cycle state, and the boot image's header (R325 to R327, R387, R388, R393 to R398, R435).
-/
namespace Sys2Proof.Machine
open Sys2Proof

/-! ### What the device shows of the region (R435) -/

/-- Bytes zero-padded to a multiple of 8. -/
def pad8 (bs : List Byte) : List Byte := bs ++ List.replicate ((8 - bs.length % 8) % 8) 0

/-- The byte string of group 0: trust constants. -/
def Region.trustString (r : Region) : List Byte :=
  r.trust.flatMap (fun (i, c) => match c with
    | some c => leBytes 2 i ++ leBytes 6 (code 48 c.value) ++ leBytes 2 c.unc ++ List.replicate 6 0
    | none => [])

/-- The byte string of group 1: seeds. -/
def Region.seedString (r : Region) : List Byte :=
  r.seeds.flatMap (fun (i, c) => match c with
    | some v => leBytes 2 i ++ leBytes 2 v.toNat
    | none => [])

/-- The byte string of group 2: user calibration items. -/
def Region.calString (r : Region) : List Byte :=
  r.userCal.flatMap (fun (i, c) => match c with
    | some v => [BitVec.ofNat 8 i, BitVec.ofNat 8 v.length] ++ List.replicate 6 0 ++ pad8 v
    | none => [])

/-- CRC-32C of a group string; an empty group shows 0. -/
def groupCrc (bs : List Byte) : Nat := if bs.isEmpty then 0 else crc 0 bs

/-- TB_TRUST_VALID, AUTH_REGION.user_cal_set and AUTH_ITEM after any change of the region. -/
def syncRegion (s : State) : State :=
  let r := s.sec.region
  let has := fun i => decide ((SMap.get (fun _ => (none : Option TrustConst)) r.trust i).isSome)
  let m := (List.range 261).foldl (fun n i => if has i then n + 2 ^ i else n) 0
  let s := s.each (List.range 5) (fun w st => st.wrw .timebase (0x0F0 + 8 * w) (m / 2 ^ (64 * w) % 2 ^ 64))
  let cal := (List.range 8).foldl (fun n i => if SMap.has r.userCal i then n + 2 ^ i else n) 0
  let s := s.wr .auth R.AUTH_REGION.user_cal_set cal
  let seeds := (List.range 60).foldl (fun n i => if SMap.has r.seeds i then n + 2 ^ i else n) 0
  let s := s.wr .check R.CHK_SEED_STATUS.set seeds
  let show_ := fun (i : Nat) (bs : List Byte) (st : State) =>
    (st.wr .auth (R.AUTH_ITEM.crc i) (groupCrc bs)).wr .auth (R.AUTH_ITEM.bytes i) bs.length
  show_ 2 r.calString (show_ 1 r.seedString (show_ 0 r.trustString s))

/-- Replace the region. When the PPS offset constant becomes unset, quality 2 ends in holdover with cause 5 (R288). -/
def setRegion (r : Region) (s : State) : State :=
  let had := (s.trust 256).isSome
  let s := syncRegion { s with sec := { s.sec with region := r } }
  if had && (s.trust 256).isNone then dropQuality 5 false s else s

/-- A wipe of the region and of both sealed copies (R326). -/
def secureWipe (s : State) : State :=
  let s := { s with sec := { s.sec with copy0 := none, copy1 := none },
                    mem := { s.mem with depotBad := s.mem.depotBad.filter (fun p => decide (p.1 < 0x3F00000)) } }
  let s := s.wr .auth R.AUTH_REGION.sealed_valid 0
  let s := (s.fault .depot R.DEPOT_FAULT.secure_wiped).cnt .auth R.AUTH_REGION.wipes 1
  setRegion .empty s

/-! ### Sealed copies (R327, R387) -/

/-- The write counter of a copy; an erased copy counts as 0. -/
def copyCounter : Option SealedCopy → Nat
  | some c => c.counter
  | none => 0

/-- Write the region to the copy with the lower counter. -/
def sealRegion (s : State) : State :=
  let c : SealedCopy := { counter := max (copyCounter s.sec.copy0) (copyCounter s.sec.copy1) + 1, verifies := true,
                          region := s.sec.region }
  let s := if copyCounter s.sec.copy0 ≤ copyCounter s.sec.copy1 then { s with sec := { s.sec with copy0 := some c } }
    else { s with sec := { s.sec with copy1 := some c } }
  s.wr .auth R.AUTH_REGION.sealed_valid 1

/-- The valid copy with the higher counter. -/
def SecSt.bestCopy (x : SecSt) : Option SealedCopy :=
  match x.copy0.filter (·.verifies), x.copy1.filter (·.verifies) with
  | some a, some b => if a.counter ≥ b.counter then some a else some b
  | some a, none => some a
  | none, b => b

/-- Restore the region after a clear (R327). While an armed loop is open the region stays zero (R396). -/
def restoreRegion (s : State) : State :=
  let armed := decide (2 ≤ s.sec.lc.toNat) || s.flag .auth R.AUTH_TAMPER.arm
  if armed && s.flag .auth R.AUTH_TAMPER.open_ then setRegion .empty s else
  let s := if s.sec.copy0.isSome || s.sec.copy1.isSome then
      let (x, s) := s.free 63
      (s.wr .check (R.CHK_LAST.crc 63) x).cnt .check (R.CHK_COUNTS.done 63) 1
    else s
  match s.sec.bestCopy with
  | some c => ((setRegion c.region s).wr .auth R.AUTH_REGION.sealed_valid 1).wr .auth R.AUTH_REGION.restore_failed 0
  | none =>
    let s := (setRegion .empty s).wr .auth R.AUTH_REGION.sealed_valid 0
    if s.sec.copy0.isNone && s.sec.copy1.isNone then s
    else ((checkFail 63 s).fault .depot R.DEPOT_FAULT.restore_failed).wr .auth R.AUTH_REGION.restore_failed 1

/-! ### Boot images (R388) -/

/-- `n` bytes of an image from byte `a`, as a number. -/
def imgNat (img : List Byte) (a n : Nat) : Nat := leNat ((img.drop a).take n)

/-- The result code of an image: 0 = valid, 1 = magic or length, 2 = CRC. -/
def imageCheck (img : List Byte) (sectionsOk : Bool) : Nat :=
  let len := imgNat img 8 4
  if (img.take 4 != [0x42, 0x58, 0x42, 0x54]) || decide (len % 64 ≠ 0) || decide (len = 0) || decide (len > 0x800000)
    || decide (img.length < len) || !sectionsOk then 1
  else if crc 0 (img.take 60 ++ [0, 0, 0, 0] ++ (img.take len).drop 64) = imgNat img 60 4 then 0 else 2

/-- The image with another counter and its CRC made right again. -/
def imageWithCounter (img : List Byte) (c : Nat) : List Byte :=
  let len := imgNat img 8 4
  let body := img.take 4 ++ leBytes 4 c ++ (img.take 60).drop 8
  let rest := (img.take len).drop 64
  body ++ leBytes 4 (crc 0 (body ++ [0, 0, 0, 0] ++ rest)) ++ rest

/-! ### The presence protocol (R393) -/

/-- The tamper loop is armed (R396, R398). -/
def State.armed (s : State) : Bool := decide (2 ≤ s.sec.lc.toNat) || s.flag .auth R.AUTH_TAMPER.arm

/-- The operation ends with a status code. -/
def authEnd (status : Nat) (s : State) : State :=
  let s := { s with sec := { s.sec with op := none } }
  let s := (s.wr .auth R.AUTH_PRESENCE.window_open 0).wr .auth R.AUTH_PRESENCE.remaining 0
  (s.wr .auth R.AUTH_CMD.go 0).wr .auth R.AUTH_CMD.last_status status

/-- A write to a locked field (R34). -/
def lockedWrite (b : Blk) (s : State) : State :=
  (s.wr b R.BLOCK_STATUS.locked_write 1).cnt b R.LOCKED_WRITES.count 1

/-- The bytes an operation reads in DRAM: none where they lie outside it, a channel does not serve, or a line cannot be corrected. -/
def State.authBytes (s : State) (a n : Nat) : Option (List Byte) :=
  if s.dramGood a n then some (s.dramRead a n) else none

/-- The image of FW_UPDATE at address `a` is valid under R388. -/
def State.imageValid (s : State) (a n : Nat) (sectionsOk : Bool) : Bool :=
  decide (n ≤ 0x800000) && (s.authBytes a n).any (fun img => decide (imageCheck img sectionsOk = 0))

/-- The preconditions of R394 and R395. -/
def State.authAccepts (s : State) (op : Nat) (sectionsOk : Bool) : Bool :=
  let a := fun i => s.rd .auth (R.AUTH_ARG.value i)
  let lcOk := decide (s.sec.lc.toNat ≠ 3) || decide (op = 8)
  let tamperOk := !(s.armed && s.flag .auth R.AUTH_TAMPER.open_ && (decide (1 ≤ op) && decide (op ≤ 4) || decide (op = 7)))
  let own := match op with
    | 1 => decide (s.rd .timebase R.TB_TRUST_STAGE.index ≤ 260)
    | 2 => decide (a 0 ≤ 260)
    | 3 => decide (a 0 ≤ 59)
    | 4 => decide (a 0 ≤ 7) && decide (8 ≤ a 2) && decide (a 2 ≤ 64)
    | 5 => s.imageValid (a 0) (a 1) sectionsOk
    | 6 => decide (a 1 ≤ 0x100000) && !s.enabled .placement
    | 7 => decide (a 0 = s.sec.lc.toNat + 1) && decide (a 0 ≤ 3)
    | 8 | 9 => true
    | _ => false
  lcOk && tamperOk && own

/-- The arguments of the operation in progress. -/
def AuthOp.arg (o : AuthOp) (i : Nat) : Nat := (o.args.getD i 0).toNat

/-- The bytes in DRAM an operation reads when it executes: address and length. -/
def AuthOp.reads (o : AuthOp) : Option (Nat × Nat) :=
  match o.op with
  | 4 => some (o.arg 1, o.arg 2)
  | 5 | 6 => some (o.arg 0, o.arg 1)
  | _ => none

/-- The operation's bytes in DRAM. -/
def State.opBytes (s : State) (o : AuthOp) : Option (List Byte) := o.reads.bind (fun x => s.authBytes x.1 x.2)

/-- Set a trust constant, a seed or a calibration item in a region. -/
def Region.setTrust (r : Region) (i : Nat) (c : Option TrustConst) : Region :=
  { r with trust := SMap.set (fun _ => none) r.trust i c }

/-- The region after operations 1 to 4, or none when the operation's verification fails. -/
def State.authRegion (s : State) (o : AuthOp) : Option Region :=
  let r := s.sec.region
  match o.op with
  | 1 => some (r.setTrust (nbits o.stage0.toNat 8 0)
      (some { value := signed 48 (nbits o.stage0.toNat 63 16), unc := nbits o.stage1.toNat 15 0 }))
  | 2 => some (r.setTrust (o.arg 0) none)
  | 3 => some { r with seeds := SMap.set (fun _ => none) r.seeds (o.arg 0) (some (BitVec.ofNat 16 (o.arg 1))) }
  | _ => (s.opBytes o).bind (fun bs =>
    if crc 0 bs = o.arg 3 then some { r with userCal := SMap.set (fun _ => none) r.userCal (o.arg 0) (some bs) } else none)

/-- The operation is done. -/
def authOk (s : State) : State := (authEnd 0 s).cnt .auth R.AUTH_COUNTS.done 1

/-- A tamper event: the region is wiped, the event counts, an operation in progress ends with status 5 (R395, R396). -/
def tamperEvent (s : State) : State :=
  let s := (secureWipe s).cnt .auth R.AUTH_TAMPER.events 1
  if s.sec.op.isSome then authEnd 5 s else s

/-- The life-cycle state moves one step, after a wipe (R398). The loop is armed from FIELD onwards, which counts an event if
it is open. -/
def lcAdvance (target : Nat) (s : State) : State :=
  let was := s.armed
  let s := secureWipe s
  let s := { s with sec := { s.sec with lc := BitVec.ofNat 2 target } }
  let s := s.wr .auth R.AUTH_LC.lc_state target
  if !was && s.armed && s.flag .auth R.AUTH_TAMPER.open_ then tamperEvent s else s

/-- Store an image in the slot that was not booted (R394). -/
def storeImage (img : List Byte) (s : State) : State :=
  if s.rd .clocks R.BOOT_STATUS.booted = 0 then { s with sec := { s.sec with imageB := some img } }
  else { s with sec := { s.sec with imageA := some img } }

/-- What the executing operation does with the bytes `data` it read; `flashOk` says that the flash write and its verification succeed. -/
def authEffect (o : AuthOp) (data : Option (List Byte)) (flashOk : Bool) (s : State) : State :=
  match o.op with
  | 5 =>
    match data.filter (fun img => flashOk && decide (imageCheck img true = 0)) with
    | some img => authOk (storeImage (imageWithCounter img (s.rd .clocks R.BOOT_COUNTER.counter + 1)) s)
    | none => authEnd 6 (storeImage [] s)
  | 6 =>
    if data.any (fun bs => decide (crc 0 bs = o.arg 2)) then
      let (v, s) := s.free 6
      authOk (s.wr .clocks R.BOOT_STATUS.ucode_version v)
    else authEnd 6 s
  | 7 => authOk (lcAdvance (o.arg 0) s)
  | 8 => authOk { s with sec := { s.sec with extest := true } }
  | 9 => authOk (secureWipe s)
  | _ =>
    let s := match data with
      | some bs => if o.op = 4 then (checkUnit 61 0 bs s).1 else s
      | none => s
    match s.authRegion o with
    | some r => if flashOk then authOk (sealRegion (setRegion r s)) else authEnd 6 s
    | none => authEnd 6 s

/-- An executing operation takes effect. A read in DRAM waits while a channel does not serve; a line with an uncorrectable error is logged. -/
def authExecute (o : AuthOp) (flashOk : Bool) (s : State) : State :=
  match o.reads with
  | none => authEffect o none flashOk s
  | some (a, n) =>
    if !s.dramIn a n then authEffect o none flashOk s
    else if !s.dramOpen a n then s
    else authEffect o (s.opBytes o) flashOk (checkLines a n s)

/-- The pending operation starts to execute. -/
def authStart (s : State) : State :=
  match s.sec.op with
  | none => s
  | some o =>
    let s := { s with sec := { s.sec with op := some { o with executing := true } } }
    let s := (s.wr .auth R.AUTH_PRESENCE.window_open 0).wr .auth R.AUTH_PRESENCE.remaining 0
    s.wr .auth R.AUTH_CMD.last_status 2

/-- A go with operation code `op` (R393). -/
def authGo (op : Nat) (sectionsOk : Bool) (s : State) : State :=
  if s.sec.op.isSome then s else
  let s := s.wr .auth R.AUTH_CMD.last_cmd op
  if !s.authAccepts op sectionsOk then
    ((s.wr .auth R.AUTH_CMD.go 0).wr .auth R.AUTH_CMD.last_status 3).cnt .auth R.AUTH_COUNTS.refused 1
  else
    let args := (List.range 4).map (fun i => s.word (Blk.auth.base + 0x050 + 8 * i))
    let o : AuthOp := ⟨op, args, s.word (Blk.timebase.base + 0x0E0), s.word (Blk.timebase.base + 0x0E8), false, s.tim.raw⟩
    let s := { s with sec := { s.sec with op := some o } }
    let s := (s.wr .auth R.AUTH_CMD.go 1).wr .auth R.AUTH_CMD.last_status 1
    let s := (s.wr .auth R.AUTH_PRESENCE.window_open 1).wr .auth R.AUTH_PRESENCE.remaining 10000
    if s.sec.lc = 0 then authStart s else s

/-- AUTH_CMD.op and go for TRUST_COMMIT. -/
def opTrustCommit (s : State) : State := authGo 1 true (s.wr .auth R.AUTH_CMD.op 1)
/-- AUTH_CMD.op and go for TRUST_CLEAR. -/
def opTrustClear (s : State) : State := authGo 2 true (s.wr .auth R.AUTH_CMD.op 2)
/-- AUTH_CMD.op and go for SEED_SET. -/
def opSeedSet (s : State) : State := authGo 3 true (s.wr .auth R.AUTH_CMD.op 3)
/-- AUTH_CMD.op and go for USER_CAL. -/
def opUserCal (s : State) : State := authGo 4 true (s.wr .auth R.AUTH_CMD.op 4)
/-- AUTH_CMD.op and go for FW_UPDATE. -/
def opFwUpdate (sectionsOk : Bool) (s : State) : State := authGo 5 sectionsOk (s.wr .auth R.AUTH_CMD.op 5)
/-- AUTH_CMD.op and go for UCODE_UPDATE. -/
def opUcodeUpdate (s : State) : State := authGo 6 true (s.wr .auth R.AUTH_CMD.op 6)
/-- AUTH_CMD.op and go for LC_ADVANCE. -/
def opLcAdvance (s : State) : State := authGo 7 true (s.wr .auth R.AUTH_CMD.op 7)
/-- AUTH_CMD.op and go for EXTEST_ENABLE. -/
def opExtestEnable (s : State) : State := authGo 8 true (s.wr .auth R.AUTH_CMD.op 8)
/-- AUTH_CMD.op and go for WIPE. -/
def opWipe (s : State) : State := authGo 9 true (s.wr .auth R.AUTH_CMD.op 9)

/-- A write of AUTH_CMD that sets both go and cancel performs neither (R393). -/
def authBoth (s : State) : State := s.cnt .auth R.AUTH_COUNTS.refused 1

/-- AUTH_CMD.cancel ends a pending operation before it executes. -/
def opAuthCancel (s : State) : State :=
  match s.sec.op with
  | some o => if o.executing then s else authEnd 7 s
  | none => s

/-- Presence is proven: PRESENCE_N was low for 50 ms within the window of 10 s, its last cycle included (R393, R395). -/
def opPresenceProven (s : State) : State :=
  match s.sec.op with
  | some o =>
    if o.executing || decide (s.tim.raw < o.openedAt + 50 * msUnits) || decide (o.openedAt + 10 * secUnits < s.tim.raw) then s
    else authStart s
  | none => s

/-- The window of 10 s closes without presence. -/
def opWindowExpired (s : State) : State :=
  match s.sec.op with
  | some o =>
    if o.executing || decide (s.tim.raw < o.openedAt + 10 * secUnits) then s
    else (authEnd 4 s).cnt .auth R.AUTH_COUNTS.expired 1
  | none => s

/-- An executing operation ends. -/
def opAuthDone (flashOk : Bool) (s : State) : State :=
  match s.sec.op with
  | some o => if o.executing then authExecute o flashOk s else s
  | none => s

/-- PRESENCE_N falls while no window is open. -/
def opStrayPresence (s : State) : State :=
  if s.flag .auth R.AUTH_PRESENCE.window_open || decide (s.dev = .off) then s else s.cnt .auth R.AUTH_PRESENCE.stray_presence 1

/-- The tamper loop opens. It is monitored in every state but OFF (R396). -/
def opTamperOpen (s : State) : State :=
  if s.flag .auth R.AUTH_TAMPER.open_ || decide (s.dev = .off) then s else
  let s := s.wr .auth R.AUTH_TAMPER.open_ 1
  if s.armed then tamperEvent s else s

/-- The tamper loop closes. -/
def opTamperClosed (s : State) : State := if s.dev = .off then s else s.wr .auth R.AUTH_TAMPER.open_ 0

/-- A write to AUTH_TAMPER.arm. -/
def opTamperArm (value : Bool) (s : State) : State :=
  if 2 ≤ s.sec.lc.toNat then (lockedWrite .auth s).cnt .auth R.AUTH_COUNTS.locked 1 else
  let was := s.flag .auth R.AUTH_TAMPER.arm
  let s := s.wr .auth R.AUTH_TAMPER.arm (bit value)
  if value && !was && s.flag .auth R.AUTH_TAMPER.open_ then tamperEvent s else s

/-! ### The commands -/

/-- TRUST_COMMIT (R394): AUTH op 1 stores the staged trust constant with presence. -/
def execTrustCommit (s : State) : Host.Outcome State Fault Refusal :=
  .next (onWrite opTrustCommit s)
/-- TRUST_CLEAR (R394): AUTH op 2 unsets a trust constant. -/
def execTrustClear (s : State) : Host.Outcome State Fault Refusal :=
  .next (onWrite opTrustClear s)
/-- SEED_SET (R394): AUTH op 3 stores an alive-counter seed. -/
def execSeedSet (s : State) : Host.Outcome State Fault Refusal :=
  .next (onWrite opSeedSet s)
/-- USER_CAL (R394): AUTH op 4 stores a user calibration item. -/
def execUserCal (s : State) : Host.Outcome State Fault Refusal :=
  .next (onWrite opUserCal s)
/-- FW_UPDATE (R394): AUTH op 5 writes a boot image to the slot that was not booted. -/
def execFwUpdate (sectionsOk : Bool) (s : State) : Host.Outcome State Fault Refusal :=
  .next (onWrite (opFwUpdate sectionsOk) s)
/-- UCODE_UPDATE (R394): AUTH op 6 replaces the running placement microcode. -/
def execUcodeUpdate (s : State) : Host.Outcome State Fault Refusal :=
  .next (onWrite opUcodeUpdate s)
/-- LC_ADVANCE (R398): AUTH op 7 advances the life-cycle state one step, wiping the region. -/
def execLcAdvance (s : State) : Host.Outcome State Fault Refusal :=
  .next (onWrite opLcAdvance s)
/-- EXTEST_ENABLE (R394): AUTH op 8 permits EXTEST until the next full reset. -/
def execExtestEnable (s : State) : Host.Outcome State Fault Refusal :=
  .next (onWrite opExtestEnable s)
/-- WIPE (R326): AUTH op 9 wipes the secure region and erases the sealed copies. -/
def execWipe (s : State) : Host.Outcome State Fault Refusal :=
  .next (onWrite opWipe s)
/-- AUTH_CANCEL (R393): AUTH_CMD.cancel ends a pending operation before it executes. -/
def execAuthCancel (s : State) : Host.Outcome State Fault Refusal :=
  .next (onWrite opAuthCancel s)
/-- PRESENCE_PROVEN (R393): PRESENCE_N stays low for 50 ms within the window and the operation executes. -/
def execPresenceProven (s : State) : Host.Outcome State Fault Refusal :=
  .next (opPresenceProven s)
/-- WINDOW_EXPIRED (R393): The 10 s presence window closes without presence. -/
def execWindowExpired (s : State) : Host.Outcome State Fault Refusal :=
  .next (opWindowExpired s)
/-- AUTH_DONE (R394): An executing AUTH operation ends, rewriting the sealed copy, with done or failure. -/
def execAuthDone (flashOk : Bool) (s : State) : Host.Outcome State Fault Refusal :=
  .next (opAuthDone flashOk s)
/-- STRAY_PRESENCE (R393): A falling edge of PRESENCE_N while no window is open is counted. -/
def execStrayPresence (s : State) : Host.Outcome State Fault Refusal :=
  .next (opStrayPresence s)
/-- TAMPER_OPEN (R396): The tamper loop opens; if it is armed the region is wiped and an event is counted. -/
def execTamperOpen (s : State) : Host.Outcome State Fault Refusal :=
  .next (opTamperOpen s)
/-- TAMPER_CLOSED (R396): 64 matching samples close the tamper loop. -/
def execTamperClosed (s : State) : Host.Outcome State Fault Refusal :=
  .next (opTamperClosed s)
/-- TAMPER_ARM (R396): A write to AUTH_TAMPER.arm arms the loop, wiping at once if it is open, or is locked from FIELD onwards. -/
def execTamperArm (value : Bool) (s : State) : Host.Outcome State Fault Refusal :=
  .next (onWrite (opTamperArm value) s)

end Sys2Proof.Machine
end

