-- ==== Sys2Proof/Machine/Sram.lean ====
section
/-!
DEFINITION. Sys2Proof/Machine/Sram.lean: the depot, the local and instruction memories, their error correction, the scrubber,
the background bank test, and the host's access through BAR2 (R315 to R329).
-/
namespace Sys2Proof.Machine
open Sys2Proof

/-- Bytes of each memory (R315). -/
def SramId.size : SramId → Nat
  | .depot => 0x4000000 | .lmem _ => 0x800000 | .imem _ => 0x40000

/-- The unit of observation of a memory (R402). -/
def SramId.obsUnit : SramId → Nat
  | .depot => 82 | .lmem i => i.val | .imem i => i.val

/-- The first offset of the secure region (R325). -/
def secureBase : Nat := 0x3F00000

/-- The bytes of a memory. -/
def State.sram (s : State) : SramId → SMap Byte
  | .depot => s.mem.depot | .lmem i => s.mem.lmem[i] | .imem i => s.mem.imem[i]

/-- The words of a memory that hold an uncorrectable error, by byte address. -/
def State.sramBad (s : State) : SramId → SMap Bool
  | .depot => s.mem.depotBad | .lmem i => s.mem.lmemBad[i] | .imem i => s.mem.imemBad[i]

/-- Replace the bytes and the error marks of a memory. -/
def State.setSram (s : State) (m : SramId) (bs : SMap Byte) (bad : SMap Bool) : State :=
  match m with
  | .depot => { s with mem := { s.mem with depot := bs, depotBad := bad } }
  | .lmem i => { s with mem := { s.mem with lmem := s.mem.lmem.set i bs, lmemBad := s.mem.lmemBad.set i bad } }
  | .imem i => { s with mem := { s.mem with imem := s.mem.imem.set i bs, imemBad := s.mem.imemBad.set i bad } }

/-- Word `a` holds an uncorrectable error. -/
def State.badWord (s : State) (m : SramId) (a : Nat) : Bool := SMap.get noBad (s.sramBad m) (a / 8 * 8)

/-- Some word of the `n` bytes from `a` holds an uncorrectable error: the first such word. -/
def State.firstBad (s : State) (m : SramId) (a n : Nat) : Option Nat :=
  ((List.range ((a + n + 7) / 8 - a / 8)).map (fun k => (a / 8 + k) * 8)).find? (fun w => s.badWord m w)

/-- A write of some bytes to words of a memory: a partial write to a word with an uncorrectable error is discarded, a write
of all 8 bytes replaces the word (R318). The last component counts the words not written. -/
def eccWriteWords (a : Nat) (data : List (Option Byte)) :
    List Nat → SMap Byte × SMap Bool × Nat → SMap Byte × SMap Bool × Nat
  | [], x => x
  | w :: ws, (bs, bad, n) =>
    let ds := (List.range 8).map (fun i => if a ≤ w + i then (data.getD (w + i - a) none) else none)
    if SMap.get noBad bad w then
      if ds.all (·.isSome) then eccWriteWords a data ws (memWriteOpt bs w ds, SMap.erase bad w, n)
      else eccWriteWords a data ws (bs, bad, if ds.all (·.isNone) then n else n + 1)
    else eccWriteWords a data ws (memWriteOpt bs w ds, bad, n)

/-- Count words not written (R318). -/
def countDropped (m : SramId) (n : Nat) (s : State) : State :=
  match m with
  | .depot => s.cnt .depot R.DEPOT_ECC.rmw_dropped n
  | .lmem i => s.cnt .depot (R.LMEM_ECC.rmw_dropped i.val) n
  | .imem _ => s

/-- Write bytes with enables to a memory. -/
def sramWrite (m : SramId) (a : Nat) (data : List (Option Byte)) (s : State) : State :=
  let ws := (List.range ((a + data.length + 7) / 8 - a / 8)).map (fun k => (a / 8 + k) * 8)
  let (bs, bad, n) := eccWriteWords a data ws (s.sram m, s.sramBad m, 0)
  countDropped m n (s.setSram m bs bad)

/-- Read bytes of a memory. -/
def State.sramRead (s : State) (m : SramId) (a n : Nat) : List Byte := memRead (s.sram m) a n

/-- An uncorrectable error is counted, flagged and logged with its agent (R318). -/
def logBad (m : SramId) (a agent syndrome : Nat) (s : State) : State :=
  let s := s.observe m.obsUnit 4 1 a
  match m with
  | .depot =>
    let s := (s.cnt .depot R.DEPOT_ECC.uncorrectable 1).fault .depot R.DEPOT_FAULT.uncorrectable
    let s := (s.wr .depot R.DEPOT_ERR_LAST.offset a).wr .depot R.DEPOT_ERR_LAST.agent agent
    (s.wr .depot R.DEPOT_ERR_LAST.syndrome syndrome).wr .depot R.DEPOT_ERR_LAST.uncorrectable 1
  | .lmem i =>
    let s := (s.cnt .depot (R.LMEM_ECC.uncorrectable i.val) 1).wr .depot R.BLOCK_STATUS.fault 1
    let s := (s.wr .depot (R.LMEM_ERR_LAST.address i.val) a).wr .depot (R.LMEM_ERR_LAST.agent i.val) agent
    let s := (s.wr .depot (R.LMEM_ERR_LAST.syndrome i.val) syndrome).wr .depot (R.LMEM_ERR_LAST.imem i.val) 0
    s.wr .depot (R.LMEM_ERR_LAST.uncorrectable i.val) 1
  | .imem i =>
    let s := (s.cnt .depot (R.IMEM_ECC.uncorrectable i.val) 1).wr .depot R.BLOCK_STATUS.fault 1
    let s := (s.wr .depot (R.LMEM_ERR_LAST.address i.val) a).wr .depot (R.LMEM_ERR_LAST.agent i.val) agent
    let s := (s.wr .depot (R.LMEM_ERR_LAST.syndrome i.val) syndrome).wr .depot (R.LMEM_ERR_LAST.imem i.val) 1
    s.wr .depot (R.LMEM_ERR_LAST.uncorrectable i.val) 1

/-- A single-bit error is corrected and counted (R318). -/
def countCorrected (m : SramId) (a : Nat) (s : State) : State :=
  let s := s.observe m.obsUnit 3 1 a
  match m with
  | .depot => s.cnt .depot R.DEPOT_ECC.corrected 1
  | .lmem i => s.cnt .depot (R.LMEM_ECC.corrected i.val) 1
  | .imem i => s.cnt .depot (R.IMEM_ECC.corrected i.val) 1

/-- A read by an agent of the `n` bytes from `a` meets its uncorrectable words: each is logged with a free syndrome. -/
def checkRead (m : SramId) (a n agent : Nat) (s : State) : State :=
  match s.firstBad m a n with
  | none => s
  | some w => let (x, s) := s.free 15; logBad m w agent (x % 256) s

/-- The patrol scrubber reads a word (R319); a new uncorrectable error marks the word. In the secure region it wipes. -/
def opScrubRead (m : SramId) (addr : Nat) (err : EccKind) (syndrome : BitVec 8) (s : State) : State :=
  if !s.enabled .depot || !s.coreRuns || decide (m.size ≤ addr) then s else
  let w := addr / 8 * 8
  let s := match (if s.badWord m w then EccKind.uncorrectable else err) with
    | .clean => s
    | .corrected => countCorrected m w s
    | .uncorrectable =>
      let s := s.setSram m (s.sram m) (SMap.set noBad (s.sramBad m) w true)
      let s := logBad m w 2 syndrome.toNat s
      if m = .depot ∧ secureBase ≤ w then secureWipe s else s
  if m = .depot ∧ w = 0x3FFFFF8 then s.cnt .depot R.DEPOT_COLL.scrub_sweeps 1 else s

/-! ### The background test (R320 to R322) -/

/-- Number of banks that are tested in a memory; instruction memories have no mirror. -/
def SramId.banks : SramId → Nat
  | .depot => 256 | .lmem _ => 32 | .imem _ => 0

/-- Key of a memory in the rotation record. -/
def SramId.key : SramId → Nat
  | .depot => 0 | .lmem i => 1 + i.val | .imem i => 18 + i.val

/-- The test phase of a memory. -/
def State.testPhase (s : State) : SramId → Nat
  | .depot => s.rd .depot R.DEPOT_STATUS.test_phase
  | .lmem i => s.rd .depot (R.LMEM_STATUS.test_phase i.val)
  | .imem _ => 0

/-- Set the test phase of a memory. -/
def setPhase (m : SramId) (p : Nat) (s : State) : State :=
  match m with
  | .depot => s.wr .depot R.DEPOT_STATUS.test_phase p
  | .lmem i => s.wr .depot (R.LMEM_STATUS.test_phase i.val) p
  | .imem _ => s

/-- Bank `k` of a memory is already served by a mirror. -/
def State.bankRepaired (s : State) (m : SramId) (k : Nat) : Bool :=
  match m with
  | .depot => (List.range 8).any (fun j => nbit (s.rd .depot R.DEPOT_REPAIR_VALID.valid) j
      && decide (nbits (s.rd .depot R.DEPOT_REPAIR.banks) (8 * j + 7) (8 * j) = k))
  | .lmem i => s.flag .depot (R.LMEM_STATUS.repaired i.val) && decide (s.rd .depot (R.LMEM_STATUS.repaired_bank i.val) = k)
  | .imem _ => false

/-- The lowest mirror of the depot that repairs no bank. -/
def State.freeMirror (s : State) : Option Nat :=
  (List.range 8).find? (fun j => !nbit (s.rd .depot R.DEPOT_REPAIR_VALID.valid) j)

/-- A mirror is free for a test of this memory. -/
def State.mirrorFree (s : State) : SramId → Bool
  | .depot => decide (s.rd .depot R.DEPOT_STATUS.mirrors_free ≠ 0)
  | .lmem i => !s.flag .depot (R.LMEM_STATUS.repaired i.val)
  | .imem _ => false

/-- test_interval has passed since the last test of a memory began, in units of 10 ms, 0 acting as 1. -/
def State.testDue (s : State) (m : SramId) : Bool :=
  match SMap.get (fun _ => none) s.mem.testAt m.key with
  | some t => decide (t + max 1 (s.rd .depot R.DEPOT_CFG.test_interval) * (10 * msUnits) ≤ s.tim.raw)
  | none => true

/-- The next bank to test: in rotation, skipping a bank whose mirror serves it already. -/
def State.nextBank (s : State) (m : SramId) : Nat :=
  let k := SMap.get (fun _ => 0) s.mem.testNext m.key
  match ((List.range m.banks).map (fun j => (k + j) % max m.banks 1)).find? (fun j => !s.bankRepaired m j) with
  | some j => j
  | none => k

/-- test_interval expires: the copy phase of the next bank begins. -/
def opBankTestStart (m : SramId) (s : State) : State :=
  if !s.enabled .depot || !s.coreRuns || !s.flag .depot R.DEPOT_CFG.test_enable || !s.mirrorFree m
    || decide (s.testPhase m ≠ 0) || !s.testDue m then s else
  let k := s.nextBank m
  let s := { s with mem := { s.mem with
    testNext := SMap.set (fun _ => 0) s.mem.testNext m.key ((k + 1) % max m.banks 1)
    testAt := SMap.set (fun _ => none) s.mem.testAt m.key (some s.tim.raw) } }
  let s := setPhase m 1 s
  match m with
  | .depot =>
    let s := (s.wr .depot R.DEPOT_STATUS.test_bank k).wr .depot R.DEPOT_STATUS.test_mirror (s.freeMirror.getD 0)
    s.wr .depot R.DEPOT_STATUS.mirrors_free (s.rd .depot R.DEPOT_STATUS.mirrors_free - 1)
  | .lmem i => s.wr .depot (R.LMEM_STATUS.test_bank i.val) k
  | .imem _ => s

/-- The mirror returns to the pool and the bank to service. -/
def releaseMirror (m : SramId) (s : State) : State :=
  let s := setPhase m 0 s
  match m with
  | .depot => s.wr .depot R.DEPOT_STATUS.mirrors_free (s.rd .depot R.DEPOT_STATUS.mirrors_free + 1)
  | _ => s

/-- The bank under test. -/
def State.testBank (s : State) : SramId → Nat
  | .depot => s.rd .depot R.DEPOT_STATUS.test_bank
  | .lmem i => s.rd .depot (R.LMEM_STATUS.test_bank i.val)
  | .imem _ => 0

/-- Address `a` is one of a word of bank `k`: banks take turns by 8-byte words (R315). -/
def SramId.inBank (m : SramId) (k a : Nat) : Bool := decide (a < m.size) && decide (a / 8 % max m.banks 1 = k)

/-- The copy phase ends; a word of the bank with an uncorrectable error, known or found by the copy, cancels the test (agent 3). -/
def opMirrorCopyDone (m : SramId) (poisoned : Option Nat) (s : State) : State :=
  if s.testPhase m ≠ 1 ∨ s.coreRuns = false then s else
  let k := s.testBank m
  match (poisoned.filter (m.inBank k)).or (((s.sramBad m).map (·.1)).find? (m.inBank k)) with
  | none => setPhase m 2 s
  | some a =>
    let w := a / 8 * 8
    let (x, s) := s.free 15
    let s := s.setSram m (s.sram m) (SMap.set noBad (s.sramBad m) w true)
    let s := releaseMirror m (logBad m w 3 (x % 256) s)
    if m = .depot ∧ secureBase ≤ w then secureWipe s else s

/-- A bank that fails its march test is repaired by the mirror of the test (R322). -/
def repairBank (m : SramId) (s : State) : State :=
  match m with
  | .depot =>
    let k := s.rd .depot R.DEPOT_STATUS.test_bank
    let j := s.rd .depot R.DEPOT_STATUS.test_mirror
    let s := s.wr .depot ⟨R.DEPOT_REPAIR.banks.off, 8 * j, 8⟩ k
    s.wr .depot R.DEPOT_REPAIR_VALID.valid (Nat.lor (s.rd .depot R.DEPOT_REPAIR_VALID.valid) (2 ^ j))
  | .lmem i =>
    (s.wr .depot (R.LMEM_STATUS.repaired i.val) 1).wr .depot (R.LMEM_STATUS.repaired_bank i.val)
      (s.rd .depot (R.LMEM_STATUS.test_bank i.val))
  | .imem _ => s

/-- The march test ends. -/
def opMarchTestDone (m : SramId) (passed : Bool) (s : State) : State :=
  if s.testPhase m ≠ 2 ∨ s.coreRuns = false then s else
  let s := s.cnt .depot R.DEPOT_TEST.banks_tested 1
  let s := match m with
    | .lmem i => s.cnt .depot (R.IMEM_ECC.banks_tested_in_local_memory i.val) 1
    | _ => s
  if passed then setPhase m 3 s
  else setPhase m 0 (repairBank m ((s.cnt .depot R.DEPOT_TEST.test_failures 1).fault .depot R.DEPOT_FAULT.test_fail))

/-- The restore phase ends. -/
def opMirrorRestoreDone (m : SramId) (s : State) : State :=
  if s.testPhase m ≠ 3 ∨ s.coreRuns = false then s else releaseMirror m s

/-- A quiesce of the DEPOT block ends every test: a copy is cancelled, a borrowed bank is restored and released (R329). -/
def depotQuiesce (s : State) : State :=
  s.each (SramId.depot :: (List.finRange 17).map .lmem) (fun m st => if st.testPhase m = 0 then st else releaseMirror m st)

/-- Every word of every on-chip memory is cleared, errors included (R324); the secure region is restored afterwards. -/
def clearSram (s : State) : State :=
  let s := { s with mem := { s.mem with depot := [], depotBad := [] } }
  let s := { s with mem := { s.mem with lmem := Vector.replicate 17 [], imem := Vector.replicate 17 [] } }
  { s with mem := { s.mem with lmemBad := Vector.replicate 17 [], imemBad := Vector.replicate 17 [] } }

/-! ### BAR2 (R328) -/

/-- The device answers memory requests: memory space is enabled, and the endpoint is not wedged (R23). -/
def State.barOpen (s : State) : Bool := s.host.memSpace && !s.endpointWedged

/-- A BAR access fails with a bus error because of the device state (R16). -/
def State.barClosed (s : State) : Bool := decide (s.dev = .boot) || decide (s.dev = .standby) || decide (s.dev = .off)

/-- First offset of the host region. -/
def State.hostBase (s : State) : Nat := secureBase - min 16 (s.rd .depot R.DEPOT_CFG.host_size) * 0x100000

/-- Entries a write takes in host_in. -/
def HostIn.entries : HostIn → Nat
  | .depot _ d => ferryEntries d.length
  | .dram _ d => ferryEntries d.length

/-- A host write waits in host_in while the CORE domain stands; past its depth the link withholds credits (R18). -/
def hostInWait (x : HostIn) (s : State) : State :=
  let s := { s with host := { s.host with hostIn := s.host.hostIn ++ [x] } }
  ferryLevel .dma R.HOST_IN_FERRY.level R.HOST_IN_FERRY.high_water 512 (s.host.hostIn.map HostIn.entries).sum s

/-- `n` bytes pass through host_in. -/
def hostInPass (n : Nat) (s : State) : State :=
  ferryPass .dma R.HOST_IN_FERRY.level R.HOST_IN_FERRY.high_water 512 (ferryEntries n) s

/-- A host write through BAR2. -/
def opBar2Write (off : Nat) (data : List (Option Byte)) (s : State) : State :=
  if !s.barOpen then s else
  if s.barClosed || decide (secureBase < off + data.length) then s.aerAbort
  else if decide (off < s.hostBase) then
    (s.cnt .depot R.DEPOT_TEST.bar2_refused 1).fault .depot R.DEPOT_FAULT.bar2_write_refused
  else if !s.coreRuns then hostInWait (.depot off data) s
  else hostInPass data.length (sramWrite .depot off data s)

/-- The answer to a host read. -/
def hostAnswer (ok poisoned : Bool) (bs : List Byte) (s : State) : State :=
  { s with host := { s.host with readOk := ok, readPoisoned := poisoned, readBytes := bs } }

/-- A host read through BAR2. -/
def opBar2Read (off len : Nat) (s : State) : State :=
  if !s.barOpen then s else
  if s.barClosed || decide (secureBase < off + len) then hostAnswer false false [] s.aerAbort
  else if !s.coreRuns then s
  else match s.firstBad .depot off len with
    | none => hostAnswer true false (s.sramRead .depot off len) s
    | some _ =>
      let s := checkRead .depot off len 1 s
      hostAnswer true true (s.sramRead .depot off len) { s with host := { s.host with aerInternal := s.host.aerInternal + 1 } }

/-! ### The commands -/

/-- SCRUB_READ (R319): The patrol scrubber reads an on-chip word, correcting or logging errors and wiping the secure region on an uncorrectable error. -/
def execScrubRead (m : SramId) (addr : Nat) (err : EccKind) (syndrome : BitVec 8) (s : State) : Host.Outcome State Fault Refusal :=
  .next (opScrubRead m addr err syndrome s)
/-- BANK_TEST_START (R320): test_interval expires and the next bank begins its copy phase to the mirror. -/
def execBankTestStart (m : SramId) (s : State) : Host.Outcome State Fault Refusal :=
  .next (opBankTestStart m s)
/-- MIRROR_COPY_DONE (R320): The copy phase ends and the bank is borrowed for its march test. -/
def execMirrorCopyDone (m : SramId) (poisoned : Option Nat) (s : State) : Host.Outcome State Fault Refusal :=
  .next (opMirrorCopyDone m poisoned s)
/-- MARCH_TEST_DONE (R322): The march test ends, and on failure the bank is repaired by its mirror. -/
def execMarchTestDone (m : SramId) (passed : Bool) (s : State) : Host.Outcome State Fault Refusal :=
  .next (opMarchTestDone m passed s)
/-- MIRROR_RESTORE_DONE (R320): The restore phase ends and the mirror is released. -/
def execMirrorRestoreDone (m : SramId) (s : State) : Host.Outcome State Fault Refusal :=
  .next (opMirrorRestoreDone m s)
/-- BAR2_WRITE (R328): A host write through BAR2 reaches the depot, or is refused for the secure region or outside the host region. -/
def execBar2Write (off : Nat) (data : List (Option Byte)) (s : State) : Host.Outcome State Fault Refusal :=
  .next (opBar2Write off data s)
/-- BAR2_READ (R328): A host read through BAR2 returns depot data, or Completer Abort for the secure region. -/
def execBar2Read (off : Nat) (len : Nat) (s : State) : Host.Outcome State Fault Refusal :=
  .next (opBar2Read off len s)

end Sys2Proof.Machine
end

