-- ==== Sys2Proof/Machine/HkObs.lean ====
section
/-!
DEFINITION. Sys2Proof/Machine/HkObs.lean: the housekeeping converters, the trace's own entries, and the JTAG instructions that
need no register read (R403 to R414).
-/
namespace Sys2Proof.Machine
open Sys2Proof

/-! ### Trace (R403, R404) -/

/-- A time mark is written every 2^20 core cycles while tracing. -/
def opTimeMark (s : State) : State :=
  if !s.coreRuns || !s.tracing || decide (s.obs.cycle < s.obs.markAt + 2 ^ 20) then s
  else traceWrite 1 0xFF (markArg s.nowT96) { s with obs.markAt := s.obs.markAt + 2 ^ 20 }

/-- Tracing starts afresh at head 0. -/
def traceStart (s : State) : State :=
  let s := (s.wr .observe R.OBS_STATUS.trace_head 0).wr .observe R.OBS_STATUS.full 0
  { s.wr .observe R.OBS_STATUS.stopped 0 with obs := { s.obs with lost := 0, markAt := s.obs.cycle } }

/-- trace_enable goes from 0 to 1. -/
def opTraceEnable (s : State) : State :=
  if s.flag .observe R.OBS_CTRL.trace_enable then s else traceStart (s.wr .observe R.OBS_CTRL.trace_enable 1)

/-- The mark of a muster the unit captures, and stop_on_muster. -/
def obsMuster (s : State) : State :=
  if !s.coreRuns then s else
  let s := traceWrite 3 0xFF (markArg s.nowT96) s
  if s.flag .observe R.OBS_CTRL.stop_on_muster && s.flag .observe R.OBS_CTRL.trace_enable
  then s.wr .observe R.OBS_STATUS.stopped 1 else s

/-- Do the tables of R402 support the selection of counter `i`? -/
def syncObsSel (i : Nat) (s : State) : State :=
  s.wr .observe (R.OBS_SEL.invalid i)
    (bit (!obsSupported (s.rd .observe (R.OBS_SEL.unit i)) (s.rd .observe (R.OBS_SEL.event i))))

/-! ### JTAG (R405) -/

/-- EXTEST: allowed before FIELD or with the permit; otherwise decoded as BYPASS and counted. -/
def opExtest (s : State) : State :=
  if decide (s.sec.lc.toNat < 2) || s.sec.extest then { s with obs := { s.obs with jtagIr := 0 } }
  else { s.cnt .observe R.OBS_JTAG.extest_refused 1 with obs := { s.obs with jtagIr := 0x3F } }

/-- SAMPLE/PRELOAD loads the boundary register. -/
def opSamplePreload (cells : BitVec 3993) (s : State) : State :=
  { s with obs := { s.obs with jtagIr := 1, boundary := cells } }

/-- IDCODE. -/
def opIdcode (s : State) : State := { s with obs := { s.obs with jtagIr := 2, jtagDr := 0x25120A6F } }

/-- BYPASS. -/
def opBypass (s : State) : State := { s with obs := { s.obs with jtagIr := 0x3F, jtagDr := 0 } }

/-! ### Housekeeping (R407 to R414) -/

/-- A user channel's four output periods, in 0.1 ms (R409). -/
def userTenths (rate : Nat) : Nat :=
  match rate with
  | 0 => 800 | 1 => 400 | 2 => 200 | 3 => 80 | 4 => 40 | _ => 20

/-- The AIN channels converter `v` scans. -/
def State.hkMask (s : State) (v : Nat) : Nat := s.rdw .housekeeping 0x048 / 2 ^ (8 * v) % 256

/-- The AIN channels of converter `v` in ascending order; none while the block is disabled or quiesces (R415). -/
def State.hkUsers (s : State) (v : Nat) : List Nat :=
  if s.enabled .housekeeping && !s.flag .housekeeping R.BLOCK_STATUS.quiescing then (List.range 8).filter (fun j => nbit (s.hkMask v) j)
  else []

/-- Pass time of converter `v` with `n` user channels, in 0.1 ms. -/
def State.passTime (s : State) (n : Nat) : Nat := 160 + n * userTenths (s.rd .housekeeping R.HK_CFG.user_rate)

/-- HOUSEKEEPING refuses enable: an invalid rate, or a pass above 92 ms (R409). -/
def State.hkRefuses (s : State) : Bool :=
  decide (6 ≤ s.rd .housekeeping R.HK_CFG.user_rate)
  || (List.range 2).any (fun v => decide (920 < s.passTime ((List.range 8).filter (fun j => nbit (s.hkMask v) j)).length))

/-- The check state field of a converter. -/
def hkCheck (v : Fin 2) : Fld := if v = 0 then R.HK_STATUS.chkA else R.HK_STATUS.chkB
/-- The channel field of a converter. -/
def hkChan (v : Fin 2) : Fld := if v = 0 then R.HK_STATUS.chanA else R.HK_STATUS.chanB
/-- The pass time field of a converter. -/
def hkTime (v : Fin 2) : Fld := if v = 0 then R.HK_STATUS.timeA else R.HK_STATUS.timeB

/-- Replace a converter's record. -/
def State.setConv (s : State) (v : Fin 2) (c : ConvSt) : State := { s with hk := { s.hk with conv := s.hk.conv.set v c } }

/-- The next pass of a converter begins. -/
def beginPass (v : Fin 2) (s : State) : State :=
  let c := s.hk.conv[v]
  let u := s.hkUsers v.val
  let s := s.setConv v { c with pass := (c.pass + 1) % 2 ^ 32, todo := u ++ [8, 9, 10, 11, 12, 13, 14, 15], urgentDone := false }
  s.wr .housekeeping (hkTime v) (s.passTime u.length)

/-- Show the channel a converter is on, beginning its next pass when the last is done. -/
def showChan (v : Fin 2) (s : State) : State :=
  let s := if s.hk.conv[v].todo = [] then beginPass v s else s
  s.wr .housekeeping (hkChan v) (s.hk.conv[v].todo.headD 8)

/-- The corrected value of a delivered code (R410); an overloaded modulator's code stays clamped. -/
def State.hkCorrect (s : State) (v : Fin 2) (chan : Nat) (x : Int) : Int :=
  let y := sat 24 (rne ((x - s.rdi .housekeeping (R.HK_CAL.off v.val)) * s.rd .housekeeping (R.HK_CAL.gain v.val)) 30)
  match if chan < 8 then SMap.get (fun _ => none) s.sec.region.userCal chan else none with
  | some bs => sat 24 (rne (y * leNat (bs.take 4)) 30 + signed 32 (leNat ((bs.drop 4).take 4)))
  | none => y

/-- 100 ms in time units. -/
def hkFresh : Nat := 100 * msUnits

/-- A channel-15 reading `y` of converter `v` is compared with the other converter's (R412). -/
def plausible (v : Fin 2) (y : Int) (s : State) : State :=
  let w : Fin 2 := if v = 0 then 1 else 0
  let now := s.tim.raw
  let s := s.setConv v { s.hk.conv[v] with last15 := some (y, now) }
  match s.hk.conv[w].last15 with
  | some (x, t) =>
    if now ≤ t + hkFresh then
      if (y - x).natAbs ≤ s.rd .housekeeping R.HK_CFG.plaus_limit then
        let s := (s.setConv v { s.hk.conv[v] with lastPassed := some now }).setConv w { s.hk.conv[w] with lastPassed := some now }
        (s.wr .housekeeping (hkCheck v) 1).wr .housekeeping (hkCheck w) 1
      else
        let s := (s.wr .housekeeping (hkCheck v) 2).wr .housekeeping (hkCheck w) 2
        s.cnt .housekeeping R.HK_COUNTS.plaus_mismatches 1
    else s.wr .housekeeping (hkCheck v) 0
  | none => s.wr .housekeeping (hkCheck v) 0

/-- A reading of converter `v` without overload is valid now (R412). -/
def State.hkValid (s : State) (v : Fin 2) : Bool :=
  decide (s.rd .housekeeping (hkCheck v) = 1) && (match s.hk.conv[v].lastPassed with
    | some t => decide (s.tim.raw ≤ t + 2 * hkFresh)
    | none => false)

/-- Set an alarm bit; an alarm counts and may request its vector (R414). -/
def hkAlarm (v : Fin 2) (c : Nat) (s : State) : State :=
  let s := s.wr .housekeeping R.HK_ALARM.bits (Nat.lor (s.rd .housekeeping R.HK_ALARM.bits) (2 ^ (16 * v.val + c)))
  let s := s.cnt .housekeeping R.HK_COUNTS.alarms 1
  if s.flag .housekeeping R.HK_IRQ.irq_enable then s.msix (s.rd .housekeeping R.HK_IRQ.vector) else s

/-- Compare a reading with its window (R411, R414). -/
def hkLimits (v : Fin 2) (c : Nat) (y : Int) (valid ovr : Bool) (s : State) : State :=
  if !s.enabled .housekeeping then s
  else if ovr then hkAlarm v c s
  else if valid && s.flag .housekeeping (R.HK_LIMIT.enable v.val c)
    && (decide (y < s.rdi .housekeeping (R.HK_LIMIT.lo v.val c)) || decide (y > s.rdi .housekeeping (R.HK_LIMIT.hi v.val c)))
  then hkAlarm v c s else s

/-- The place of an internal channel in HK_ENG, HKA first. -/
def engIndex (v : Fin 2) (c : Nat) : Option Nat := if 8 ≤ c ∧ c < 15 then some (7 * v.val + (c - 8)) else none

/-! ### Condition tags (R303, R407) -/

/-- The timing set of slice `i` becomes stale. -/
def makeStale (i cause : Nat) (s : State) : State :=
  let p : Blk := .placement
  if s.rd p (R.CAL_SET.state i) ≠ 1 then s else
  let s := (s.wr p (R.CAL_SET.state i) 2).wr p (R.CAL_SET.stale_cause i) cause
  let s := s.cnt p R.CAL_COUNTS.stale_events 1
  s.wr p R.CAL_STATUS.stale (Nat.lor (s.rd p R.CAL_STATUS.stale) (2 ^ i))

/-- The training set of DRAM channel `c` is stale, or no longer. -/
def setDramStale (c : Nat) (v : Bool) (s : State) : State :=
  let s := s.wr (.dram c) R.DRAM_STATUS.stale (bit v)
  let m := s.rd .placement R.CAL_STATUS.dram_stale
  s.wr .placement R.CAL_STATUS.dram_stale (if v then Nat.lor m (2 ^ c) else if nbit m c then m - 2 ^ c else m)

/-- The tagged sets whose temperature (`false`) or supply (`true`) channel `c` of converter `v` measures: slices 0 to 16, then the DRAM
channels from 17 on. -/
def sensorUnits (v : Fin 2) (c : Nat) : List (Nat × Bool) :=
  match v, c with
  | 0, 8 => [0, 1, 2, 3].map (·, false)
  | 0, 9 => [4, 5, 6, 7].map (·, false)
  | 0, 10 => [8, 9, 10, 11].map (·, false)
  | 0, 11 => [12, 13, 14, 15].map (·, false)
  | 0, 12 => [(16, false)]
  | 0, 13 => [0, 1, 2, 3, 4, 5, 6, 7, 16].map (·, true)
  | 1, 8 => [17, 18, 19, 20].map (·, false)
  | 1, 9 => [21, 22, 23, 24].map (·, false)
  | 1, 10 => [8, 9, 10, 11, 12, 13, 14, 15, 17, 18, 19, 20, 21, 22, 23, 24].map (·, true)
  | _, _ => []

/-- The set `k` (slice, or 17 + DRAM channel) becomes stale for a cause; only a trained channel has a set. -/
def staleUnit (k cause : Nat) (s : State) : State :=
  if k < 17 then makeStale k cause s
  else
    let st := s.rd (.dram (k - 17)) R.DRAM_STATUS.state
    if (st = 2 ∨ st = 3) ∧ ¬ s.flag (.dram (k - 17)) R.DRAM_STATUS.stale then setDramStale (k - 17) true s else s

/-- A valid reading `x` of the sensor of set `k` arrives and is compared with the set's tag. -/
def tagReading (x : BitVec 16) (u : Nat × Bool) (s : State) : State :=
  let k := u.1
  let p : Blk := .placement
  let at_ := s.tim.raw
  let s := { s with cal := { s.cal with readAt := SMap.set (fun _ => 0) s.cal.readAt (2 * k + bit u.2) at_ } }
  if u.2 then
    let s := if k < 17 then s.wr p (R.CAL_SET.vdd_now k) x.toNat else s
    let tag := if k < 17 then s.rd p (R.CAL_SET.vdd_tag k) else s.rd (.dram (k - 17)) R.DRAM_TAG.vdd_tag
    if 150 < ((x.toNat : Int) - (tag : Int)).natAbs then staleUnit k 2 s else s
  else
    let s := if k < 17 then s.wr p (R.CAL_SET.temp_now k) x.toNat else s
    let tag := if k < 17 then s.rd p (R.CAL_SET.temp_tag k) else s.rd (.dram (k - 17)) R.DRAM_TAG.temp_tag
    if 512 < (x.toInt - signed 16 tag).natAbs then staleUnit k 1 s else s

/-! ### Conversions (R408 to R412, R414) -/

/-- A conversion of converter `v` delivers code `x`; `eng` is the reading in engineering units of an internal channel. -/
def opConversion (v : Fin 2) (x : BitVec 24) (ovr : Bool) (eng : BitVec 16) (s : State) : State :=
  if decide (s.dev = .off) then s else
  let s := showChan v s
  let urgent := s.hk.urgent && decide (s.hk.urgentConv = v)
  let c := if urgent then s.hk.urgentChan else s.hk.conv[v].todo.headD 8
  let y := if ovr then (if x.toInt < 0 then -0x800000 else 0x7FFFFF) else s.hkCorrect v c x.toInt
  let s := s.when ovr (fun s => s.cnt .housekeeping R.HK_COUNTS.ovr_events 1)
  let s := s.when (decide (c = 15)) (plausible v y)
  let valid := s.hkValid v && !ovr
  let pass := s.hk.conv[v].pass
  let s := if urgent then
      let s := ((s.wri .housekeeping R.HK_URGENT.value y).wr .housekeeping R.HK_URGENT.ovr (bit ovr)).wr .housekeeping
        R.HK_URGENT.valid (bit valid)
      let s := ((s.wr .housekeeping R.HK_URGENT.channel c).wr .housekeeping R.HK_URGENT.converter v.val).wr .housekeeping
        R.HK_URGENT.pass pass
      let s := (s.wr .housekeeping R.HK_CTRL.urgent 0).wr .housekeeping R.HK_CTRL.last_status 0
      { s with hk := { s.hk with urgent := false } }
    else
      let s := ((s.wri .housekeeping (R.HK_RESULT.value v.val c) y).wr .housekeeping (R.HK_RESULT.ovr v.val c) (bit ovr)).wr
        .housekeeping (R.HK_RESULT.valid v.val c) (bit valid)
      let s := s.wr .housekeeping (R.HK_RESULT.pass v.val c) pass
      let s := match engIndex v c with
        | some k => (s.wr .housekeeping (R.HK_ENG.value k) eng.toNat).wr .housekeeping (R.HK_ENG.valid k) (bit valid)
        | none => s
      s.setConv v { s.hk.conv[v] with todo := s.hk.conv[v].todo.tail }
  let s := if valid then s.each (sensorUnits v c) (tagReading eng) else s
  showChan v (hkLimits v c y valid ovr s)

/-- The 60 s calibration of a converter: the offset and gain corrections in force. -/
def opHkCalibration (v : Fin 2) (off : BitVec 24) (gain : BitVec 32) (s : State) : State :=
  (s.wr .housekeeping (R.HK_CAL.off v.val) off.toNat).wr .housekeeping (R.HK_CAL.gain v.val) gain.toNat

/-- The HK cycle, 20 ns, that a time lies in. -/
def hkCycle (raw : Nat) : Nat := raw / (16 * tickUnits)

/-- A request from `src` comes in the HK cycle of one from the other source: together they are one request (R413). -/
def State.sameRequest (s : State) (src : Nat) : Bool :=
  decide (hkCycle s.hk.urgentAt = hkCycle s.tim.raw) && decide (s.hk.urgentSrc ≠ 0) && decide (Nat.land s.hk.urgentSrc src = 0)

/-- An urgent request from source bit `src` (R413). -/
def urgentRequest (src : Nat) (s : State) : State :=
  let v : Fin 2 := Fin.ofNat 2 (s.rd .housekeeping R.HK_CFG.urgent_conv)
  if s.sameRequest src then
    let s := { s with hk.urgentSrc := Nat.lor s.hk.urgentSrc src }
    s.when s.hk.urgent (fun s => s.wr .housekeeping R.HK_CTRL.urgent_src s.hk.urgentSrc)
  else
  let s := { s with hk := { s.hk with
    urgentAt := s.tim.raw
    urgentSrc := src } }
  if !s.enabled .housekeeping || s.flag .housekeeping R.BLOCK_STATUS.quiescing || s.hk.urgent || s.hk.conv[v].urgentDone then
    let s := s.cnt .housekeeping R.HK_COUNTS.urgent_dropped 1
    if s.hk.urgent then s
    else (s.wr .housekeeping R.HK_CTRL.urgent 0).wr .housekeeping R.HK_CTRL.last_status 2
  else
    let s := showChan v s
    let s := (s.wr .housekeeping R.HK_CTRL.urgent_src src).wr .housekeeping R.HK_CTRL.last_status 1
    let s := (s.wr .housekeeping R.HK_CTRL.urgent 1).wrT96 .housekeeping R.HK_URGENT_T96.lo s.nowT96
    let c := s.hk.conv[v]
    let user := decide (c.todo.headD 8 < 8)
    let s := s.setConv v { c with urgentDone := true, todo := if user then c.todo.tail else c.todo }
    let s := s.when user (fun s => s.cnt .housekeeping R.HK_STATUS.user_skipped 1)
    let chan := s.rd .housekeeping R.HK_CFG.urgent_chan
    { s with hk := { s.hk with urgent := true, urgentConv := v, urgentChan := chan } }

/-- An edge on HK_START. -/
def opUrgentRequest (falling : Bool) (s : State) : State :=
  if s.flag .housekeeping R.HK_CFG.start_edge == falling then urgentRequest 1 s else s

/-- HK_CTRL.urgent is written 1. -/
def opUrgent (s : State) : State := urgentRequest 2 s

/-- A quiesce is asked for: the conversions in progress are the last user and urgent ones (R415). -/
def hkQuiesce (s : State) : State :=
  let f := fun (v : Fin 2) (s : State) =>
    let todo := s.hk.conv[v].todo
    s.setConv v { s.hk.conv[v] with todo := todo.take 1 ++ (todo.drop 1).filter (8 ≤ ·) }
  f 1 (f 0 s)

/-- No user and no urgent conversion is in progress. -/
def State.hkRests (s : State) : Bool := !s.hk.urgent && s.hk.conv.all (fun c => decide (8 ≤ c.todo.headD 8))

/-! ### The commands -/

/-- TIME_MARK (R403): Every 2^20 core cycles while tracing, a time mark is written to the trace. -/
def execTimeMark (s : State) : Host.Outcome State Fault Refusal :=
  .next (opTimeMark s)
/-- TRACE_ENABLE (R404): OBS_CTRL.trace_enable going from 0 to 1 resets the trace head. -/
def execTraceEnable (s : State) : Host.Outcome State Fault Refusal :=
  .next (onWrite opTraceEnable s)
/-- EXTEST (R405): The JTAG EXTEST instruction drives the balls from the boundary register, or is refused as BYPASS. -/
def execExtest (s : State) : Host.Outcome State Fault Refusal :=
  .next (opExtest s)
/-- SAMPLE_PRELOAD (R405): The JTAG SAMPLE/PRELOAD instruction. -/
def execSamplePreload (cells : BitVec 3993) (s : State) : Host.Outcome State Fault Refusal :=
  .next (opSamplePreload cells s)
/-- IDCODE (R405): The JTAG IDCODE instruction reads 0x2512_0A6F. -/
def execIdcode (s : State) : Host.Outcome State Fault Refusal :=
  .next (opIdcode s)
/-- BYPASS (R405): The JTAG BYPASS instruction. -/
def execBypass (s : State) : Host.Outcome State Fault Refusal :=
  .next (opBypass s)
/-- CONVERSION (R408): A housekeeping conversion delivers its reading, which is corrected, checked for plausibility, compared with limits and used for stale tests. -/
def execConversion (v : Fin 2) (code : BitVec 24) (ovr : Bool) (eng : BitVec 16) (s : State) : Host.Outcome State Fault Refusal :=
  .next (opConversion v code ovr eng s)
/-- HK_CALIBRATION (R408): Every 60 s a pass converts the shorted input and the reference to form the offset and gain corrections. -/
def execHkCalibration (v : Fin 2) (off : BitVec 24) (gain : BitVec 32) (s : State) : Host.Outcome State Fault Refusal :=
  .next (opHkCalibration v off gain s)
/-- URGENT_REQUEST (R413): An HK_START edge of the configured polarity requests an urgent conversion. -/
def execUrgentRequest (falling : Bool) (s : State) : Host.Outcome State Fault Refusal :=
  .next (opUrgentRequest falling s)
/-- URGENT (R413): HK_CTRL.urgent requests an urgent conversion. -/
def execUrgent (s : State) : Host.Outcome State Fault Refusal :=
  .next (onWrite opUrgent s)

end Sys2Proof.Machine
end

