-- ==== Sys2Proof/Machine/Dram.lean ====
section
/-!
DEFINITION. Sys2Proof/Machine/Dram.lean: the DRAM channels at work: row policy, training, tracking and the evacuating
retraining (R336 to R345).
-/
namespace Sys2Proof.Machine
open Sys2Proof

/-! ### Rows (R336 to R338) -/

/-- p of R338. -/
def State.nbrP (s : State) (c : Nat) : Nat :=
  let p := s.rd (.dram c) R.DRAM_POLICY.nbr_p
  if p < 8 ∨ 16 < p then 11 else p

/-- The controller clock in MHz: a quarter of half the transfer rate. -/
def State.memMHz (s : State) (c : Nat) : Nat :=
  match s.rd (.dram c) R.DRAM_CFG.speed with
  | 0 => 600
  | 1 => 700
  | _ => 800

/-- A row last accessed at `t` of `raw` is still open: idle_timer controller clocks (0 acts as 1) have not passed since (R336). -/
def State.rowStays (s : State) (c t : Nat) : Bool :=
  decide ((s.tim.raw - t) * s.memMHz c < max 1 (s.rd (.dram c) R.DRAM_POLICY.idle_timer) * 1000 * 65536)

/-- The row that bank `bank` of channel `c` has open. -/
def State.openRow (s : State) (c : Fin 8) (bank : Nat) : Option Nat :=
  match SMap.get (fun _ => none) s.dram[c].openRows bank with
  | some (r, t) => if s.rowStays c.val t then some r else none
  | none => none

/-- An access to the open row of a bank restarts its idle timer. -/
def touchRow (c : Fin 8) (bank row : Nat) (s : State) : State :=
  s.setDram c { s.dram[c] with openRows := SMap.set (fun _ => none) s.dram[c].openRows bank (some (row, s.tim.raw)) }

/-- The bank's row is opened: an activate, with the neighbour draw. -/
def dramActivate (c : Fin 8) (bank row : Nat) (s : State) : State :=
  let s := touchRow c bank row (s.cnt (.dram c.val) R.DRAM_COUNTS.activates 1)
  let (x, s) := s.free 338
  if x % 2 ^ s.nbrP c.val = 0 then s.cnt (.dram c.val) R.DRAM_COUNTS.nbr_refreshes 1 else s

/-- A request reaches a bank: in-order mode when its row matches a pending write's, then the row policy. -/
def dramAccess (c : Fin 8) (bank row : Nat) (write : Bool) (s : State) : State :=
  let d := s.dram[c]
  let s := if d.pending.any (fun p => decide (p.bank = bank) && decide (p.row = row)) then
      (s.setDram c { d with pending := d.pending.filter (fun p => decide (p.bank ≠ bank)) }).cnt (.dram c.val)
        R.DRAM_COUNTS.inorder_events 1
    else s
  let s := if s.openRow c bank = some row then touchRow c bank row (s.cnt (.dram c.val) R.DRAM_COUNTS2.row_hits 1)
    else dramActivate c bank row s
  if write then s.setDram c { s.dram[c] with pending := s.dram[c].pending ++ [⟨bank, row⟩] } else s

/-- What a read finds: corrected and uncorrectable errors (R334). A newly found uncorrectable error marks the line. -/
def dramEcc (c : Fin 8) (a : Nat) (err : EccKind) (symbol agent : Nat) (s : State) : State :=
  match (if s.badLine a then EccKind.uncorrectable else err) with
  | .clean => s
  | .corrected => s.cnt (.dram c.val) R.DRAM_ECC.corrected 1
  | .uncorrectable =>
    let bad := SMap.set noBad s.mem.dramBad (a / 64 * 64) true
    dramLog c.val (s.dramLocal a) symbol agent { s with mem := { s.mem with dramBad := bad } }

/-- A controller serves a request of one line: `data` gives the bytes written, or the length read. -/
def opDramRequest (write : Bool) (addr : Nat) (data : List (Option Byte)) (err : EccKind) (symbol : BitVec 8)
    (s : State) : State :=
  let c : Fin 8 := Fin.ofNat 8 (s.dramChan addr)
  if !s.dramIn addr data.length then s.setDram c { s.dram[c] with readOk := false, readPoisoned := false, readBytes := [] }
  else if !s.dramServes c.val then (if write then dramWriteOpt addr data s else s)
  else
    let (bank, row) := s.dramBank c.val (s.dramLocal addr)
    let s := dramAccess c bank row write s
    if write then dramWriteOpt addr data s
    else
      let s := dramEcc c addr err symbol.toNat 0
        (ferryPass (.dram c.val) R.DRAM_FERRY_RD.level R.DRAM_FERRY_RD.high_water 256 1 s)
      s.setDram c { s.dram[c] with readOk := true, readPoisoned := s.badLine addr, readBytes := s.dramRead addr data.length }

/-- The patrol scrubber reads a line of an enabled channel (R335). -/
def opDramScrub (c : Fin 8) (addr : Nat) (err : EccKind) (symbol : BitVec 8) (s : State) : State :=
  if !s.dramServes c.val || decide (s.dramChan addr ≠ c.val) then s else dramEcc c addr err symbol.toNat 1 s

/-- A refresh is performed: the open rows are closed, and the pending writes are in the array. -/
def opRefresh (c : Fin 8) (s : State) : State := s.setDram c { s.dram[c] with openRows := [], pending := [] }

/-! ### Training and tracking (R339, R340) -/

/-- The four settings and two eyes of a lane. -/
def laneWord (l : LaneSweep) : Nat :=
  let f := fun (x : BitVec 256) => widestRun 256 x.toNat
  runCentre (f l.rdDqs) + 2 ^ 8 * runCentre (f l.rdVref) + 2 ^ 16 * runCentre (f l.wrDq) + 2 ^ 24 * runCentre (f l.wrVref)
  + 2 ^ 32 * min 255 (f l.rdDqs).2 + 2 ^ 40 * min 255 (f l.wrDq).2

/-- Training passes: ten lanes, every read and write eye at least 16 steps wide. -/
def TrainResult.passes (r : TrainResult) : Bool :=
  decide (r.lanes.length = 10) && r.lanes.all (fun l =>
    decide (16 ≤ (widestRun 256 l.rdDqs.toNat).2) && decide (16 ≤ (widestRun 256 l.wrDq.toNat).2))

/-- Show the tracking moves of a channel. -/
def syncTrack (c : Fin 8) (s : State) : State :=
  s.each (List.range 10) (fun l st =>
    let m := st.dram[c].track.getD l (0, 0)
    (st.wri (.dram c.val) (R.DRAM_TRAIN.rd_track l) (sat 4 m.1)).wri (.dram c.val) (R.DRAM_TRAIN.wr_track l) (sat 4 m.2))

/-- A trained set is stored and tagged. -/
def storeTraining (c : Fin 8) (r : TrainResult) (s : State) : State :=
  let b := Blk.dram c.val
  let s := s.setDram c { s.dram[c] with track := List.replicate 10 (0, 0) }
  let s := s.each (List.range 10) (fun l st => match r.lanes[l]? with
    | some x => st.wrw b (0x100 + 8 * l) (laneWord x)
    | none => st)
  let s := (s.wr b R.DRAM_TAG.temp_tag r.temp.toNat).wr b R.DRAM_TAG.vdd_tag r.vdd.toNat
  setDramStale c.val false (s.wr b R.DRAM_TAG.trained_s (s.tim.now / secUnits))

/-- One tracking step of one delay: at most 1 step, within ±8. -/
def trackStep (m d : Int) : Int := max (-8) (min 8 (m + max (-1) (min 1 d)))

/-- One tracking pass; a lane at the limit makes the set stale (R340). -/
def trackPass (c : Fin 8) (rd wr : List Int) (s : State) : State :=
  let t := (List.range 10).map (fun l =>
    let m := s.dram[c].track.getD l (0, 0)
    (trackStep m.1 (rd.getD l 0), trackStep m.2 (wr.getD l 0)))
  let s := syncTrack c (s.setDram c { s.dram[c] with track := t })
  if t.any (fun m => decide (m.1.natAbs = 8) || decide (m.2.natAbs = 8)) then setDramStale c.val true s else s

/-- Tracking of a channel in service. -/
def opDramTracking (c : Fin 8) (rd wr : List Int) (s : State) : State :=
  if s.memClock && decide (s.rd (.dram c.val) R.DRAM_STATUS.state = 2) then trackPass c rd wr s else s

/-! ### Evacuating retraining (R341, R342) -/

/-- The device refuses a retraining of channel `c` (R341); a channel that has FAILED or holds no memory has nothing to retrain either
(DEDUCED from R342, log 36). -/
def State.retrainRefused (s : State) (c : Fin 8) : Bool :=
  !s.flag (.dram 0) R.DRAM_MAP.reserve || decide (s.dramK = 0) || !s.enabled .placement
  || decide (s.rd (.dram c.val) R.DRAM_STATUS.state = 4) || decide (s.rd (.dram c.val) R.DRAM_STATUS.state = 0)
  || (List.range 8).any (fun d => decide (d ≠ c.val) && decide (s.rd (.dram d) R.DRAM_STATUS.phase ≠ 0))

/-- A retraining is started, or refused. -/
def retrain (c : Fin 8) (s : State) : State :=
  let b := Blk.dram c.val
  if s.rd b R.DRAM_STATUS.phase ≠ 0 ∧ s.rd b R.DRAM_STATUS.state ≠ 4 then s else
  let s := s.wr b R.DRAM_CTRL.last_cmd 1
  if s.retrainRefused c then
    ((s.wr b R.DRAM_CTRL.retrain 0).wr b R.DRAM_CTRL.last_status 2).fault b R.DRAM_FAULT.retrain_refused
  else
    let s := placeCause 4 c.val ((s.wr b R.DRAM_CTRL.retrain 1).wr b R.DRAM_CTRL.last_status 1)
    let s := (s.wr b R.DRAM_STATUS.phase 1).wr b R.DRAM_STATUS.granules_done 0
    -- in self-refresh the phase waits for the relock (R342, R343)
    if s.rd b R.DRAM_STATUS.state = 5 then s else s.wr b R.DRAM_STATUS.state 3

/-- DRAM_CTRL.retrain is written 1. -/
def opRetrain (c : Fin 8) (s : State) : State := retrain c s

/-- The management controller retrains a stale channel. -/
def opAutoRetrain (c : Fin 8) (s : State) : State :=
  let b := Blk.dram c.val
  if s.flag b R.DRAM_STATUS.stale && s.flag b R.DRAM_POLICY.auto_retrain && s.enabled b && s.enabled .placement
    && decide (s.rd b R.DRAM_STATUS.state = 2) then retrain c s else s

/-- The phase of the retraining can go on: neither HOLD nor a loss of PLL_MEM pauses it. -/
def State.retrainRuns (s : State) (c : Fin 8) (phase : Nat) : Bool :=
  s.memClock && s.coreRuns && decide (s.rd (.dram c.val) R.DRAM_STATUS.phase = phase)
  && decide (s.rd (.dram c.val) R.DRAM_STATUS.state ≠ 4)

/-- A copy of every granule of channel `c` reads its lines: each with an uncorrectable error is counted and logged with agent 2, and goes
on poisoned (R334, R341). -/
def copyBad (c : Fin 8) (s : State) : State :=
  let bad := (s.mem.dramBad.map (·.1)).filter (fun a => decide (s.dramChan a = c.val))
  if bad.isEmpty then s
  else (s.each bad (fun a st =>
    let (x, st) := st.free 16
    dramLog c.val (st.dramLocal a) (x % 256) 2 st)).fault (.dram c.val) R.DRAM_FAULT.evac_poisoned

/-- The copy ends and training begins; poisoned lines keep their error. -/
def opEvacuationCopyDone (c : Fin 8) (s : State) : State :=
  if !s.retrainRuns c 1 then s else
  let b := Blk.dram c.val
  copyBad c (((s.wr b R.DRAM_STATUS.phase 2).wr b R.DRAM_STATUS.state 1).wr b R.DRAM_STATUS.granules_done 0)

/-- The retraining is over, so that a deferred quiesce goes on. -/
def retrainEnd (c : Fin 8) (s : State) : State :=
  let b := Blk.dram c.val
  let s := (s.wr b R.DRAM_CTRL.retrain 0).wr b R.DRAM_CTRL.last_status 0
  if s.dram[c].deferredQuiesce then
    (s.wr b R.BLOCK_STATUS.quiescing 1).setDram c { s.dram[c] with deferredQuiesce := false }
  else s

/-- Training in service ends. -/
def opTrainingDone (c : Fin 8) (result : TrainResult) (s : State) : State :=
  if !s.retrainRuns c 2 then s else
  let b := Blk.dram c.val
  let s := s.cnt b R.DRAM_COUNTS2.retrains 1
  if result.passes then ((storeTraining c result s).wr b R.DRAM_STATUS.phase 3).wr b R.DRAM_STATUS.state 3
  else retrainEnd c ((s.wr b R.DRAM_STATUS.state 4).fault b R.DRAM_FAULT.train_failed)

/-- The restore ends and the channel is in service again. -/
def opEvacuationRestoreDone (c : Fin 8) (s : State) : State :=
  if !s.retrainRuns c 3 then s else
  let b := Blk.dram c.val
  let s := copyBad c (((s.wr b R.DRAM_STATUS.phase 0).wr b R.DRAM_STATUS.state 2).wr b R.DRAM_STATUS.granules_done 0)
  retrainEnd c (placeCause 5 c.val s)

/-! ### Loss of PLL_MEM, STANDBY, enable (R343 to R345) -/

/-- Populated channels. -/
def State.populated (s : State) : List (Fin 8) :=
  (List.finRange 8).filter (fun c => s.flag (.dram c.val) R.DRAM_CFG.populated)

/-- PLL_MEM loses lock: bursts complete on the bypass clock, every rank goes into self-refresh. -/
def memLoss (s : State) : State :=
  s.each s.populated (fun c st =>
    let b := Blk.dram c.val
    let st := st.setDram c { st.dram[c] with openRows := [], pending := [] }
    let z := st.rd b R.DRAM_STATUS.state
    let st := if 1 ≤ z ∧ z ≤ 3 then st.wr b R.DRAM_STATUS.state 5 else st
    if st.flag b R.DRAM_STATUS.bypass then st
    else (st.wr b R.DRAM_STATUS.bypass 1).cnt b R.DRAM_COUNTS2.bypass_entries 1)

/-- A channel leaves self-refresh: to service, or to the phase of a retraining that paused. -/
def leaveSelfRefresh (c : Nat) (s : State) : State :=
  let b := Blk.dram c
  if s.rd b R.DRAM_STATUS.state ≠ 5 then s
  else s.wr b R.DRAM_STATUS.state (match s.rd b R.DRAM_STATUS.phase with | 0 => 2 | 2 => 1 | _ => 3)

/-- A tracking pass whose drifts no command gives: each delay moves by a free step of −1, 0 or 1 (R343, log 9). -/
def freeTrack (c : Fin 8) (s : State) : State :=
  let step := fun (k : Nat) => (Config.free (0x34300 + k) s.draw % 3 : Int) - 1
  trackPass c ((List.range 10).map step) ((List.range 10).map (fun k => step (10 + k))) { s with draw := s.draw + 1 }

/-- PLL_MEM is locked again: the channels leave self-refresh, track once and resume. -/
def memRelock (s : State) : State :=
  s.each s.populated (fun c st =>
    let st := leaveSelfRefresh c.val st
    let z := st.rd (.dram c.val) R.DRAM_STATUS.state
    let st := if z = 2 ∨ z = 3 then freeTrack c st else st
    drainMem c (st.wr (.dram c.val) R.DRAM_STATUS.bypass 0))

/-- Enable is refused (R345). -/
def State.dramRefuses (s : State) (c : Nat) : Bool :=
  let pop := s.populated.map (·.val)
  decide (s.rd (.dram c) R.DRAM_CFG.speed = 3) || decide (s.rd (.dram c) R.DRAM_CFG.density = 3)
  || (s.flag (.dram c) R.DRAM_CFG.populated && pop.any (fun d => decide (s.dramGiB d ≠ s.dramGiB c)
      || decide (s.rd (.dram d) R.DRAM_CFG.speed ≠ s.rd (.dram c) R.DRAM_CFG.speed)))
  || decide (pop.length < 2 ^ s.rd (.dram 0) R.DRAM_MAP.n_log2)
  || !([1, 2, 4, 8].any (fun n => decide (pop = List.range n)))

/-- The lines STANDBY does not keep are lost: they become free values, a new one for each byte the model lists, and unlisted
bytes of a lost eighth go on reading as never written (log 9). -/
def pasrLose (s : State) : State :=
  let keep := s.rd (.dram 0) R.DRAM_PASR.keep
  let e := max 1 (s.dramBytes 0 * 2 ^ s.dramK / 8)
  s.each s.mem.dram (fun p st =>
    if nbit keep (p.1 / e) then st
    else
      let (x, st) := st.free 344
      let m := SMap.set zeroByte st.mem.dram p.1 (BitVec.ofNat 8 x)
      { st with mem := { st.mem with dram := m } })

/-- Show the geometry of a channel. -/
def syncGeom (c : Nat) (s : State) : State :=
  if !s.flag (.dram c) R.DRAM_CFG.populated then s.wrw (.dram c) 0x048 0 else
  let s := (s.wr (.dram c) R.DRAM_GEOM.cb (s.dramCb c)).wr (.dram c) R.DRAM_GEOM.row_bits (s.dramRowBits c)
  s.wr (.dram c) R.DRAM_GEOM.capacity_in_GiB (s.dramGiB c)

/-! ### The commands -/

/-- DRAM_REQUEST (R337): A DRAM controller serves a request under its row policy and ECC, entering in-order mode where needed. -/
def execDramRequest (write : Bool) (addr : Nat) (data : List (Option Byte)) (err : EccKind) (symbol : BitVec 8) (s : State) : Host.Outcome State Fault Refusal :=
  .next (opDramRequest write addr data err symbol s)
/-- DRAM_SCRUB (R335): The DRAM patrol scrubber reads a line in an idle slot. -/
def execDramScrub (c : Fin 8) (addr : Nat) (err : EccKind) (symbol : BitVec 8) (s : State) : Host.Outcome State Fault Refusal :=
  .next (opDramScrub c addr err symbol s)
/-- REFRESH (R338): A refresh falls due and is performed after any burst in flight. -/
def execRefresh (c : Fin 8) (s : State) : Host.Outcome State Fault Refusal :=
  .next (opRefresh c s)
/-- DRAM_TRACKING (R340): Every track_ms the lane delays move one step, and the set goes stale at the limit. -/
def execDramTracking (c : Fin 8) (rd : List Int) (wr : List Int) (s : State) : Host.Outcome State Fault Refusal :=
  .next (opDramTracking c rd wr s)
/-- RETRAIN (R341): DRAM_CTRL.retrain starts an evacuating retraining of the channel, or is refused. -/
def execRetrain (c : Fin 8) (s : State) : Host.Outcome State Fault Refusal :=
  .next (onWrite (opRetrain c) s)
/-- AUTO_RETRAIN (R341): A stale set with auto_retrain starts a retraining once the PLACEMENT block is enabled. -/
def execAutoRetrain (c : Fin 8) (s : State) : Host.Outcome State Fault Refusal :=
  .next (opAutoRetrain c s)
/-- EVACUATION_COPY_DONE (R341): All granules are copied to the reserves and training begins. -/
def execEvacuationCopyDone (c : Fin 8) (s : State) : Host.Outcome State Fault Refusal :=
  .next (opEvacuationCopyDone c s)
/-- TRAINING_DONE (R342): DRAM training ends; on success the restore begins, on failure the channel enters FAILED. -/
def execTrainingDone (c : Fin 8) (result : TrainResult) (s : State) : Host.Outcome State Fault Refusal :=
  .next (opTrainingDone c result s)
/-- EVACUATION_RESTORE_DONE (R341): All granules are copied back and the channel returns to service. -/
def execEvacuationRestoreDone (c : Fin 8) (s : State) : Host.Outcome State Fault Refusal :=
  .next (opEvacuationRestoreDone c s)

end Sys2Proof.Machine
end

