-- ==== Sys2Proof/Machine/Host.lean ====
section
/-!
DEFINITION. Sys2Proof/Machine/Host.lean: the PCI Express endpoint, BAR4, MSI-X, the completion queues and the check units
(R347 to R350, R361 to R368).
-/
namespace Sys2Proof.Machine
open Sys2Proof

/-! ### Targets: host memory or DRAM -/

/-- Write to host memory (false) or DRAM (true). -/
def targetWrite (dram : Bool) (a : Nat) (bs : List Byte) (s : State) : State :=
  if dram then dramWrite a bs s else s.toHost (.write a bs)

/-- Read from host memory (false) or DRAM (true). -/
def State.targetRead (s : State) (dram : Bool) (a n : Nat) : List Byte :=
  if dram then s.dramRead a n else memRead s.host.mem a n

/-- `n` free bytes, for contents the spec leaves undefined. -/
def freeBytes (n : Nat) (s : State) : List Byte × State :=
  ((List.range n).map (fun i => BitVec.ofNat 8 (Config.free (0x10000 + i) s.draw)), { s with draw := s.draw + 1 })

/-- The last 64-byte line that `n` bytes written at host address `a` touch in an enabled peer window, if they touch one (R349). -/
def State.peerLine (s : State) (a n : Nat) : Option Nat :=
  if n = 0 then none
  else (List.range 4).findSome? (fun w =>
    let top := s.rd .dma (R.P2P_WIN.limit w)
    if s.flag .dma (R.P2P_WIN.enable w) && decide (s.rd .dma (R.P2P_WIN.base w) ≤ (a + n - 1) / 4096) && decide (a / 4096 ≤ top) then
      some (min (a + n - 1) (top * 4096 + 4095) / 64 * 64)
    else none)

/-! ### MSI-X and host_out (R350, R364) -/

/-- Messages for pending vectors that are no longer masked. -/
def msixFlush (s : State) : State :=
  s.each s.host.pba (fun p st =>
    if st.flag .dma R.PCIE_STATUS.msix_enable && !st.msixMasked p.1 then
      let pba := SMap.erase st.host.pba p.1
      ({ st with host := { st.host with pba := pba } }).toHost (.message p.1)
    else st)

/-- Bus Master Enable has been set: what waited in host_out goes out, in order. -/
def drainHostOut (s : State) : State :=
  let q := s.host.hostOut
  let s := { s with host := { s.host with hostOut := [] } }
  (s.wr .dma R.HOST_OUT_FERRY.level 0).each q (fun r st => st.toHost r)

/-- A masked vector is unmasked. -/
def opMsixUnmask (v : Fin 2048) (s : State) : State :=
  let a := 16 * v.val + 12
  let b := SMap.get msixDefault s.host.msixTable a &&& 0xFE
  let t := SMap.set msixDefault s.host.msixTable a b
  msixFlush { s with host := { s.host with msixTable := t } }

/-- A completion arrives after its request timed out (R358). -/
def opUnexpectedCompletion (s : State) : State :=
  { s with host := { s.host with aerUnexpected := s.host.aerUnexpected + 1 } }

/-! ### Configuration requests (R348, R389) -/

/-- Double word `n` of configuration space, as a read finds it: the IDs of the boot image with the Device ID 0x5120, Revision ID 0xB1 and
class code 0x11_8000 (R2, R347); the enables of the Command register. What the spec does not give is free. -/
def configDword (n : Nat) (s : State) : List Byte × State :=
  match n with
  | 0 => (leBytes 2 s.boot.vendor ++ leBytes 2 0x5120, s)
  | 1 =>
    let (bs, s) := freeBytes 4 s
    let b := (bs.headD 0).toNat
    let cmd := b / 8 * 8 + b % 2 + 2 * bit s.host.memSpace + 4 * s.rd .dma R.PCIE_STATUS.bus_master
    (leBytes 1 cmd ++ bs.drop 1, s)
  | 2 => (leBytes 1 0xB1 ++ leBytes 3 0x118000, s)
  | 11 => (leBytes 2 s.boot.subVendor ++ leBytes 2 s.boot.subId, s)
  | _ => freeBytes 4 s

/-- A configuration request. Before the IDs are passed it is answered with Retry Status (R389). -/
def opConfigurationRequest (op : CfgOp) (s : State) : State :=
  if s.dev = .off || s.endpointWedged then s
  else if s.boot.idsPassed = false then { s with host := { s.host with retries := s.host.retries + 1 } }
  else match op with
    | .read n => let (bs, s) := configDword n s; hostAnswer true false bs s
    | .setCommand mem bm =>
      let s := { s with host := { s.host with memSpace := mem } }
      let s := s.wr .dma R.PCIE_STATUS.bus_master (bit bm)
      if bm then drainHostOut s else s
    | .setMsix en fm => msixFlush ((s.wr .dma R.PCIE_STATUS.msix_enable (bit en)).wr .dma R.PCIE_STATUS.function_mask (bit fm))
    | .setBar4 n => if s.host.memSpace || decide (n < 28) || decide (40 < n) then s else s.wr .dma R.PCIE_STATUS.bar4_log2 n
    | .linkUp sp w => (s.wr .dma R.PCIE_STATUS.speed sp).wr .dma R.PCIE_STATUS.width w

/-! ### Host writes to DRAM and host_in (R18) -/

/-- A host write on its way to the depot or to DRAM arrives. -/
def hostInArrive (x : HostIn) (s : State) : State :=
  match x with
  | .depot off d => sramWrite .depot off d s
  | .dram a d => dramWriteOpt a d s

/-- A host write passes host_in, or waits there while the CORE domain stands. -/
def hostWrite (x : HostIn) (s : State) : State :=
  if s.coreRuns then ferryPass .dma R.HOST_IN_FERRY.level R.HOST_IN_FERRY.high_water 512 x.entries (hostInArrive x s)
  else hostInWait x s

/-- The CORE domain runs again: what waited in host_in arrives, in order. -/
def drainHostIn (s : State) : State :=
  let q := s.host.hostIn
  let s := { s with host := { s.host with hostIn := [] } }
  (s.wr .dma R.HOST_IN_FERRY.level 0).each q hostInArrive

/-! ### BAR4 (R348) -/

/-- The pending-bit array as bytes. -/
def State.pbaBytes (s : State) (o n : Nat) : List Byte :=
  (List.range n).map (fun i => BitVec.ofNat 8 ((List.range 8).foldl
    (fun m j => if SMap.get noBad s.host.pba (8 * (o + i) + j) then m + 2 ^ j else m) 0))

/-- A host access through BAR4 (R348): `data` gives the bytes written with their enables, or the length read. -/
def opBar4Access (write : Bool) (off : Nat) (data : List (Option Byte)) (s : State) : State :=
  let n := data.length
  let err := fun (s : State) => if write then s.aerAbort else hostAnswer false false [] s.aerAbort
  if !s.barOpen || decide (2 ^ s.rd .dma R.PCIE_STATUS.bar4_log2 < off + n) then s
  else if s.barClosed then err s
  else if off + n ≤ 0x8000 then
    if write then
      let t := (List.range n).foldl (fun m i => match data.getD i none with
        | some b => SMap.set msixDefault m (off + i) b
        | none => m) s.host.msixTable
      msixFlush { s with host := { s.host with msixTable := t } }
    else hostAnswer true false ((List.range n).map (fun i => SMap.get msixDefault s.host.msixTable (off + i))) s
  else if 0x8000 ≤ off ∧ off + n ≤ 0x8100 then
    if write then s else hostAnswer true false (s.pbaBytes (off - 0x8000) n) s
  else if off < 0x10000 ∨ s.dramIn (off - 0x10000) n = false then err s
  else
    let a := off - 0x10000
    if write then hostWrite (.dram a data) s
    else if !s.coreRuns || !s.dramOpen a n then s
    else match s.firstBadLine a n with
      | none => hostAnswer true false (s.dramRead a n) s
      | some _ => hostAnswer true true (s.dramRead a n) (checkLines a n s)

/-! ### Completion queues (R361 to R364) -/

/-- The slot block of completion queue `c`, and its index there. -/
def cqBlk (c : Nat) : Blk := .dmaRings (c / 256)

/-- A completion queue's sampled base. -/
def State.cqSt (s : State) (c : Nat) : CqSt := SMap.get (fun _ => ⟨0, false, 4⟩) s.host.cqs c

/-- The queue is enabled. -/
def State.cqOn (s : State) (c : Nat) : Bool := s.flag (cqBlk c) (R.CQ_CFG.enable (c % 256))

/-- Unread entries. -/
def State.cqUnread (s : State) (c : Nat) : Nat :=
  let n := 2 ^ (s.cqSt c).log2n
  (s.rd (cqBlk c) (R.CQ_STATUS.tail (c % 256)) + n - s.rd (cqBlk c) (R.CQ_HEAD.head (c % 256)) % n) % n

/-- The queue takes a waybill now: enabled and not full. -/
def State.cqRoom (s : State) (c : Nat) : Bool := s.cqOn c && decide (s.cqUnread c + 1 < 2 ^ (s.cqSt c).log2n)

/-- Show whether the queue is full. -/
def syncCqFull (c : Nat) (s : State) : State :=
  s.wr (cqBlk c) (R.CQ_STATUS.full (c % 256)) (bit (decide (s.cqUnread c + 1 = 2 ^ (s.cqSt c).log2n)))

/-- Request the vector of a completion queue (R364). -/
def cqSignal (c : Nat) (s : State) : State :=
  if s.flag (cqBlk c) (R.CQ_CFG.irq_enable (c % 256)) then s.msix (s.rd (cqBlk c) (R.CQ_CFG.vector (c % 256))) else s

/-- Write a waybill to a queue with room: bytes 8 to 31, then bytes 0 to 7 with the phase; tail advances; the vector follows. -/
def cqPush (c : Nat) (w : Waybill) (s : State) : State :=
  let b := cqBlk c
  let i := c % 256
  let q := s.cqSt c
  let t := s.rd b (R.CQ_STATUS.tail i)
  let ph := s.rd b (R.CQ_STATUS.phase i)
  let a := q.base + 32 * t
  let lo := (w.bytes.take 8).set 1 (BitVec.ofNat 8 ph)
  let s := targetWrite q.target a lo (targetWrite q.target (a + 8) (w.bytes.drop 8) s)
  let t' := (t + 1) % 2 ^ q.log2n
  let s := s.wr b (R.CQ_STATUS.tail i) t'
  let s := if t' = 0 then s.wr b (R.CQ_STATUS.phase i) (1 - ph) else s
  let s := syncCqFull c s
  if w.signal then cqSignal c s else s

/-- A producer begins to wait for a queue: counted once per wait (R363). -/
def cqStall (c : Nat) (s : State) : State :=
  (s.cnt (cqBlk c) (R.CQ_STATUS.full_stalls (c % 256)) 1).cnt .dma R.DMA_COUNTS2.cq_full_stalls 1

/-- CQ_HEAD is written (R363): never past tail, never 2^j or more. -/
def opCqHead (cq : Fin 1024) (head : BitVec 16) (s : State) : State :=
  let b := cqBlk cq.val
  let i := cq.val % 256
  let n := 2 ^ (s.cqSt cq.val).log2n
  let old := s.rd b (R.CQ_HEAD.head i)
  let adv := (head.toNat + n - old % n) % n
  if head.toNat ≥ n ∨ adv > s.cqUnread cq.val then
    (s.wr b (R.CQ_STATUS.doorbell_invalid i) 1).fault .dma R.DMA_FAULT.cq_doorbell_invalid
  else syncCqFull cq.val (s.wr b (R.CQ_HEAD.head i) head.toNat)

/-- CQ_CFG.enable is set (R361). -/
def opCqEnable (cq : Fin 1024) (s : State) : State :=
  let b := cqBlk cq.val
  let i := cq.val % 256
  if s.cqOn cq.val then s else
  let j := s.rd b (R.CQ_BASE.log2n i)
  let base := s.rd b (R.CQ_BASE.base i) * 512
  if j < 4 ∨ 16 < j ∨ base % (32 * 2 ^ j) ≠ 0 then
    (s.wr b (R.CQ_STATUS.enable_refused i) 1).fault .dma R.DMA_FAULT.cq_refused
  else
    let q := SMap.set (fun _ => (⟨0, false, 4⟩ : CqSt)) s.host.cqs cq.val ⟨base, s.flag b (R.CQ_BASE.target i), j⟩
    let s := { s with host := { s.host with cqs := q } }
    let s := ((s.wr b (R.CQ_CFG.enable i) 1).wr b (R.CQ_STATUS.tail i) 0).wr b (R.CQ_HEAD.head i) 0
    (s.wr b (R.CQ_STATUS.phase i) 1).wr b (R.CQ_STATUS.full i) 0

/-! ### Check units (R365 to R368) -/

/-- Enable of the CHECK block loads every alive counter from its seed (R367). -/
def loadSeeds (s : State) : State :=
  s.each (List.range 60) (fun u st => match SMap.get (fun _ => none) st.sec.region.seeds u with
    | some v => (st.wr .check (R.CHK_ALIVE.alive u) v.toNat).wr .check (R.CHK_ALIVE.seeded u) 1
    | none => (st.wr .check (R.CHK_ALIVE.alive u) 0).wr .check (R.CHK_ALIVE.seeded u) 0)

/-! ### The commands -/

/-- BAR4_ACCESS (R348): A BAR4 access reaches the MSI-X table, the pending-bit array or DRAM, or is a bus error. -/
def execBar4Access (write : Bool) (off : Nat) (data : List (Option Byte)) (s : State) : Host.Outcome State Fault Refusal :=
  .next (opBar4Access write off data s)
/-- CQ_HEAD (R363): A CQ_HEAD write frees completion entries, or is rejected as invalid. -/
def execCqHead (cq : Fin 1024) (head : BitVec 16) (s : State) : Host.Outcome State Fault Refusal :=
  .next (onWrite (opCqHead cq head) s)
/-- CQ_ENABLE (R361): Setting CQ_CFG.enable samples CQ_BASE and resets tail, head and phase, or is refused. -/
def execCqEnable (cq : Fin 1024) (s : State) : Host.Outcome State Fault Refusal :=
  .next (onWrite (opCqEnable cq) s)
/-- MSIX_UNMASK (R364): A masked vector with its pending bit set is unmasked and one message is sent. -/
def execMsixUnmask (v : Fin 2048) (s : State) : Host.Outcome State Fault Refusal :=
  .next (opMsixUnmask v s)
/-- CONFIGURATION_REQUEST (R389): A PCI Express configuration request is answered with Retry Status before the IDs are passed, and otherwise sets fields such as Bus Master Enable, Memory Space Enable or the Resizable BAR size. -/
def execConfigurationRequest (op : CfgOp) (s : State) : Host.Outcome State Fault Refusal :=
  .next (opConfigurationRequest op s)
/-- UNEXPECTED_COMPLETION (R358): A completion arrives after its request has timed out, is discarded, and AER records an unexpected completion. -/
def execUnexpectedCompletion (s : State) : Host.Outcome State Fault Refusal :=
  .next (opUnexpectedCompletion s)

end Sys2Proof.Machine
end

