-- ==== Sys2Proof/Machine/Alnen.lean ====
section
/-!
DEFINITION. Sys2Proof/Machine/Alnen.lean: the Alnen core's state and issue: register files, results in flight, the end of a
bundle, loops, interrupts, exceptions, program images (R225 to R247).
-/
namespace Sys2Proof.Machine
open Sys2Proof

/-! ### Residue errors (R100, R228, R402) -/

/-- Replace the chain of slice `i`. -/
def State.setChain (s : State) (i : Fin 17) (c : ChainSt) : State := { s with chains := s.chains.set i c }

/-- A residue mismatch or an uncorrectable error in unit `u` of slice `i` (R100, R402): counted, observed, told to the core; more than
residue_limit within one second of TIME request a takeover; one in a stand-in ends its takeover (R313). -/
def residueError (i : Fin 17) (u : Nat) (s : State) : State :=
  let c := s.chains[i]
  let recent := (s.tim.raw :: c.resAt.filter (fun t => s.tim.raw < t + secUnits)).take 257
  let s := s.setChain i { c with resAt := recent }
  let s := (s.cnt (.filt i) R.RESIDUE_CTRL.residue_errors 1).observe i.val 2 1 u
  let s := s.coreInt i.val 12
  let s := s.when (s.tko.pairs.any (fun p => decide (p.2 = i.val))) (fun s => { s with tko.fault := some i.val })
  if s.rd (.filt i) R.RESIDUE_CTRL.residue_limit < recent.length && !s.flag (.filt i) R.FILT_FAULT.takeover_requested then
    placeCause 2 i.val (s.wr (.filt i) R.FILT_FAULT.takeover_requested 1)
  else s

/-! ### Register files (R225) -/

/-- What an unwritten predicate register reads: P0 reads 0xFF. -/
def predZero (n : Nat) : Byte := if n = 0 then 0xFF else 0

/-- Scalar register `n`. -/
def CoreSt.rs (k : CoreSt) (n : Nat) : Nat := (SMap.get (fun _ => (0 : W32)) k.s n).toNat
/-- Lane `l` of physical vector register `r`. -/
def CoreSt.rv (k : CoreSt) (r l : Nat) : Int := (SMap.get (fun _ => (0 : BitVec 24)) k.v (8 * r + l)).toInt
/-- Lane `l` of accumulator `n`. -/
def CoreSt.ra (k : CoreSt) (n l : Nat) : Int := (SMap.get (fun _ => (0 : BitVec 56)) k.a (8 * n + l)).toInt
/-- Predicate register `n`. -/
def CoreSt.rp (k : CoreSt) (n : Nat) : Nat := (SMap.get predZero k.p n).toNat
/-- Address register `n`, whole. -/
def CoreSt.rx (k : CoreSt) (n : Nat) : Nat := (SMap.get (fun _ => (0 : BitVec 39)) k.x n).toNat

/-- Write one destination of the register files; S0 and P0 discard writes. -/
def CoreSt.put (k : CoreSt) (d : Dst) (v : Int) : CoreSt :=
  match d with
  | .s n => if n = 0 then k else { k with s := SMap.set (fun _ => 0) k.s n (BitVec.ofInt 32 v) }
  | .v r l => { k with v := SMap.set (fun _ => 0) k.v (8 * r + l) (BitVec.ofInt 24 v) }
  | .a n l => { k with a := SMap.set (fun _ => 0) k.a (8 * n + l) (BitVec.ofInt 56 v) }
  | .p n => if n = 0 then k else { k with p := SMap.set predZero k.p n (BitVec.ofInt 8 v) }
  | .pb n l =>
    if n = 0 then k else
      let old := SMap.get predZero k.p n
      let m := BitVec.ofNat 8 (2 ^ l)
      { k with p := SMap.set predZero k.p n (if v = 0 then old &&& ~~~m else old ||| m) }
  | .x n => { k with x := SMap.set (fun _ => 0) k.x n (BitVec.ofInt 39 v) }
  | .ovf | .csw | .loopctl | .lc _ | .swi => k

/-- Do two destinations meet in one register or one lane? -/
def Dst.meets : Dst → Dst → Bool
  | .p n, .pb m _ => decide (n = m)
  | .pb n _, .p m => decide (n = m)
  | d, e => decide (d = e)

/-! ### The core in the state -/

/-- Replace the core of slice `c`. -/
def State.setCore (s : State) (c : Fin 17) (k : CoreSt) : State := { s with cores := s.cores.set c k }

/-- The core's state code (CORE_STATUS.state). -/
def State.coreState (s : State) (c : Nat) : Nat := s.rd (.core c) R.CORE_STATUS.state

/-- CSW and its fields. -/
def State.csw (s : State) (c : Nat) : Nat := s.rd (.core c) R.CORE_CSW.csw
/-- The scale of R227. -/
def State.cswScale (s : State) (c : Nat) : Int := s.rdi (.core c) R.CORE_CSW.scale
/-- Saturation is on. -/
def State.cswSat (s : State) (c : Nat) : Bool := s.flag (.core c) R.CORE_CSW.sat

/-- LOOPCTL.staged and the renaming offset (R238). -/
def State.staged (s : State) (c : Nat) : Bool := s.flag (.core c) R.CORE_LOOP.staged
/-- The renaming offset. -/
def State.roff (s : State) (c : Nat) : Nat := s.rd (.core c) R.CORE_LOOP.roff

/-- The physical register a vector name reaches. -/
def State.phys (s : State) (c r : Nat) : Nat :=
  if s.staged c ∧ 16 ≤ r then 16 + (r - 16 + s.roff c) % 16 else r

/-- Set CSW.ovf; a change from 0 to 1 raises source 13. -/
def setOvf (c : Nat) (s : State) : State :=
  if s.flag (.core c) R.CORE_CSW.ovf then s else (s.wr (.core c) R.CORE_CSW.ovf 1).coreInt c 13

/-- MOVTC to CSW (R254). -/
def writeCsw (c v : Nat) (s : State) : State :=
  let b := Blk.core c
  let sc := signed 3 (v % 8)
  let s := (s.wri b R.CORE_CSW.scale (max (-2) (min 2 sc))).wr b R.CORE_CSW.sat (v / 8)
  let s := (s.wr b R.CORE_CSW.ie (v / 32)).wr b R.CORE_CSW.ovf (Nat.land (s.rd b R.CORE_CSW.ovf) (v / 16 % 2))
  s.wr b R.CORE_CSW.res (Nat.land (s.rd b R.CORE_CSW.res) (v / 64 % 2))

/-- A result lands. -/
def land (c : Fin 17) (p : Pend) (s : State) : State :=
  let b := Blk.core c.val
  match p.dst with
  | .ovf => setOvf c.val s
  | .csw => writeCsw c.val p.val.toNat s
  | .loopctl => (s.wr b R.CORE_LOOP.roff p.val.toNat).wr b R.CORE_LOOP.fill (p.val.toNat / 16)
  | .lc k => s.wr b (R.LC.count k) p.val.toNat
  | .swi => s.coreInt c.val 14
  | d => s.setCore c (s.cores[c].put d p.val)

/-- A result whose residue does not match has been written all the same (R228). -/
def coreResidue (c : Fin 17) (s : State) : State :=
  let s := (s.wr (.core c) R.CORE_CSW.res 1).fault (.core c) R.CORE_FAULT.residue
  residueError c 6 (s.setCore c { s.cores[c] with resSince := true })

/-- A result lands and its residue is checked. -/
def landOne (c : Fin 17) (p : Pend) (s : State) : State := (land c p s).when p.res (coreResidue c)

/-- Results of one cycle land, the later one standing; a result that meets a later one counts once, however many lanes meet (R231). `done`: the
syllable's result at hand has counted. -/
def landGo (c : Fin 17) : Bool → List Pend → Op
  | _, [], s => s
  | done, p :: ps, s =>
    let done := done && !p.head
    let hit := !done && decide (p.dst ≠ .ovf) && ps.any (fun q => p.dst.meets q.dst)
    landGo c (done || hit) ps ((landOne c p s).when hit (fun s => s.cnt (.core c.val) R.CORE_COUNTS.write_collisions 1))

/-- Results of one cycle land. -/
def landAll (c : Fin 17) (ps : List Pend) : Op := landGo c false ps

/-- Results that lie ahead land, each in its own cycle. -/
def landDue (c : Fin 17) (ps : List Pend) (s : State) : State :=
  s.each (List.range 6) (fun n st => landAll c (ps.filter (fun p => decide (p.left = n))) st)

/-- A result joins the results of its bundle, in slot order. -/
def insertPend (p : Pend) : List Pend → List Pend
  | [] => [p]
  | q :: qs => if q.fresh ∧ p.slot < q.slot then p :: q :: qs else q :: insertPend p qs

/-- The syllable in slot `slot` produces results of latency `lat`. -/
def produce (c : Fin 17) (slot lat : Nat) (inter : Bool) (rs : List (Dst × Int)) (s : State) : State :=
  let k := s.cores[c]
  s.setCore c { k with pipe := rs.zipIdx.foldl (fun q r =>
    insertPend ⟨r.1.1, r.1.2, lat, slot, inter, true, decide (r.2 = 0), false⟩ q) k.pipe }

/-- As `produce`, for a result of slot 1 or 2 that carries a residue: the error the syllable meets is found with the first of its lanes. -/
def produceR (c : Fin 17) (y : Syl) (slot lat : Nat) (rs : List (Dst × Int)) (s : State) : State :=
  let k := s.cores[c]
  s.setCore c { k with pipe := rs.zipIdx.foldl (fun q r =>
    insertPend ⟨r.1.1, r.1.2, lat, slot, false, true, decide (r.2 = 0), y.res && decide (r.2 = 0)⟩ q) k.pipe }

/-- Every bundle-old interlocked result a syllable reads completes first; the stall cycles count (R230). -/
def touch (c : Fin 17) (rds : List Dst) (s : State) : State :=
  let k := s.cores[c]
  let hit := fun (p : Pend) => p.inter && !p.fresh && rds.any (fun d => d.meets p.dst)
  let hs := k.pipe.filter hit
  if hs = [] then s else
  let n := hs.foldl (fun m p => max m p.left) 0
  let s := s.setCore c { k with pipe := k.pipe.filter (fun p => !hit p) }
  (landDue c hs s).cnt (.core c.val) R.CORE_STALLS.interlock n

/-- The latest value of an accumulator lane, results in flight included (R257). -/
def CoreSt.accLatest (k : CoreSt) (n l : Nat) : Int :=
  match (k.pipe.filter (fun p => decide (p.dst = .a n l) && !p.fresh)).getLast? with
  | some p => p.val
  | none => k.ra n l

/-! ### Fitting (R226) -/

/-- A result placed in `w` bits, and whether it did not fit. -/
def fit (w : Nat) (sat_ : Bool) (x : Int) : Int × Bool :=
  if -(2 ^ (w - 1) : Int) ≤ x ∧ x ≤ 2 ^ (w - 1) - 1 then (x, false) else (if sat_ then sat w x else wrapS w x, true)

/-! ### Loops (R237, R238) -/

/-- Level `k` is active. -/
def State.loopOn (s : State) (c k : Nat) : Bool := s.flag (.core c) (R.LOOP_BOUNDS.active k)

/-- LOOPCTL.depth counts the active levels. -/
def syncDepth (c : Nat) (s : State) : State :=
  s.wr (.core c) R.CORE_LOOP.depth ((List.range 3).filter (s.loopOn c)).length

/-- A staged loop ends. -/
def endStaged (c : Nat) (s : State) : State :=
  ((s.wr (.core c) R.CORE_LOOP.staged 0).wr (.core c) R.CORE_LOOP.roff 0).wr (.core c) R.CORE_LOOP.fill 0

/-- Level `k` becomes inactive. -/
def closeLoop (c k : Nat) (s : State) : State :=
  let s := syncDepth c (s.wr (.core c) (R.LOOP_BOUNDS.active k) 0)
  if k = 0 ∧ s.staged c then endStaged c s else s

/-- The stage predicates at the start of a pass. -/
def stagePreds (c : Fin 17) (s : State) : State :=
  let b := Blk.core c.val
  let m := s.rd b R.CORE_LOOP.stages_m1
  let f := s.rd b R.CORE_LOOP.fill
  let n := s.rd b (R.LC.count 0)
  s.each (List.range 4) (fun j st =>
    st.setCore c (st.cores[c].put (.p (4 + j)) (if j ≤ m ∧ j ≤ f ∧ m + 1 ≤ n + j then 0xFF else 0)))

/-- A level opens. -/
def openLoop (c k n start end_ : Nat) (s : State) : State :=
  let b := Blk.core c
  let s := (s.wr b (R.LC.count k) n).wr b (R.LOOP_BOUNDS.start k) start
  syncDepth c ((s.wr b (R.LOOP_BOUNDS.end_ k) end_).wr b (R.LOOP_BOUNDS.active k) 1)

/-- A taken branch deactivates every level whose bounds it leaves. -/
def leaveLoops (c t : Nat) (s : State) : State :=
  s.each (List.range 3) (fun k st =>
    if st.loopOn c k ∧ (t < st.rd (.core c) (R.LOOP_BOUNDS.start k) ∨ st.rd (.core c) (R.LOOP_BOUNDS.end_ k) < t)
    then closeLoop c k st else st)

/-- The end test of the levels `ks` at bundle `pc`, lowest first: the next bundle. -/
def loopEnds (c : Fin 17) (pc : Nat) : List Nat → State → State × Nat
  | [], s => (s, pc + 1)
  | k :: ks, s =>
    let b := Blk.core c.val
    if s.loopOn c.val k && decide (s.rd b (R.LOOP_BOUNDS.end_ k) = pc) then
      let n := s.rd b (R.LC.count k)
      if 1 < n then
        let s := s.wr b (R.LC.count k) (n - 1)
        let start := s.rd b (R.LOOP_BOUNDS.start k)
        if k = 0 ∧ s.staged c.val then
          let s := s.wr b R.CORE_LOOP.roff ((s.roff c.val + 1) % 16)
          let s := s.wr b R.CORE_LOOP.fill (min (s.rd b R.CORE_LOOP.fill + 1) (s.rd b R.CORE_LOOP.stages_m1))
          (stagePreds c s, start)
        else (s, start)
      else loopEnds c pc ks (closeLoop c.val k s)
    else loopEnds c pc ks s

/-! ### Save sets, interrupts, exceptions (R240, R241) -/

/-- The program counter: the bundle being issued, or the next one between bundles. -/
def State.pc (s : State) (c : Nat) : Nat := s.rd (.core c) R.CORE_STATUS.pc

/-- Save the core's program position. -/
def State.saveSet (s : State) (c : Fin 17) (pc : Nat) : SaveSet :=
  let b := Blk.core c.val
  ⟨pc, s.csw c.val, (List.range 3).map (fun k => s.rd b (R.LC.count k)), (List.range 3).map (fun k => s.rdw b (0x090 + 8 * k)),
   s.rd b R.CORE_LOOP.loopctl, s.cores[c].wait⟩

/-- Restore a save set. -/
def restoreSet (c : Fin 17) (x : SaveSet) (s : State) : State :=
  let b := Blk.core c.val
  let s := (s.wr b R.CORE_STATUS.pc x.pc).wr b R.CORE_CSW.csw x.csw
  let s := s.each (List.range 3) (fun k st => (st.wr b (R.LC.count k) (x.lc.getD k 0)).wrw b (0x090 + 8 * k) (x.bounds.getD k 0))
  s.wr b R.CORE_LOOP.loopctl x.loopctl

/-- Every result in flight lands. -/
def drainPipe (c : Fin 17) (s : State) : State :=
  let ps := s.cores[c].pipe
  landDue c ps (s.setCore c { s.cores[c] with pipe := [] })

/-- Loops are deactivated, interrupts are disabled, and the handler's first bundle is next. -/
def enterHandler (c : Fin 17) (pc : Nat) (s : State) : State :=
  let b := Blk.core c.val
  let s := s.each (List.range 3) (fun k st => st.wr b (R.LOOP_BOUNDS.active k) 0)
  let s := syncDepth c.val (s.wr b R.CORE_LOOP.staged 0)
  let s := s.wr b R.CORE_CSW.ie 0
  let s := s.setCore c { s.cores[c] with ctl := none, newWait := none, wait := none }
  (s.wr b R.CORE_STATUS.pc pc).wr b R.CORE_STATUS.state 1

/-- An exception is taken with saved program counter `epc`, or the core is FAULTED. -/
def takeExc (c : Fin 17) (code epc addr : Nat) (s : State) : State :=
  let b := Blk.core c.val
  let s := if code = 3 then s.fault b R.CORE_FAULT.iecc else if code = 4 then s.fault b R.CORE_FAULT.decc else s
  let s := drainPipe c s
  if s.flag b R.CORE_CSW.in_exc then
    let s := (s.fault b R.CORE_FAULT.faulted).wr b R.CORE_STATUS.state 4
    s.setCore c { s.cores[c] with ctl := none, newWait := none, wait := none }
  else
    let s := s.setCore c { s.cores[c] with esave := s.saveSet c epc }
    let s := ((s.wr b R.CORE_EXC.epc epc).wr b R.CORE_EXC.ecause code).wr b R.CORE_EXC.eaddr addr
    let s := s.cnt b R.CORE_COUNTS.exceptions 1
    (enterHandler c (0x100 + 16 * code) s).wr b R.CORE_CSW.in_exc 1

/-- A precise exception: nothing of the bundle takes effect, and the rest of the bundle is not issued. -/
def preciseExc (c : Fin 17) (code addr : Nat) (last : Bool) (s : State) : State :=
  let k := s.cores[c]
  let k := { k with pipe := k.pipe.filter (fun p => !p.fresh), ctl := none, newWait := none }
  let s := s.setCore c { k with exc := none, squash := !last }
  takeExc c code (s.pc c.val) addr s

/-- The lowest-numbered source that is pending and enabled. -/
def State.intSource (s : State) (c : Nat) : Option Nat :=
  (List.range 16).find? (fun n => nbit (Nat.land (s.rd (.core c) R.INT_EN.enable) (s.rd (.core c) R.INT_PEND.pending)) n)

/-- The core is between bundles. -/
def CoreSt.between (k : CoreSt) : Bool :=
  k.ctl.isNone && k.newWait.isNone && !k.squash && k.pipe.all (fun p => !p.fresh)

/-- At a bundle boundary an interrupt is to be taken (R240). -/
def State.intDue (s : State) (c : Fin 17) : Bool :=
  s.flag (.core c.val) R.CORE_CSW.ie && !s.flag (.core c.val) R.CORE_CSW.in_exc && s.cores[c].between && (s.intSource c.val).isSome

/-- An enabled pending interrupt is taken at a bundle boundary (R240). -/
def opInterrupt (c : Fin 17) (s : State) : State :=
  let b := Blk.core c.val
  if !s.coreRuns || !(decide (s.coreState c.val = 1) || decide (s.coreState c.val = 2)) || !s.intDue c then s
  else match s.intSource c.val with
    | none => s
    | some n =>
      let s := drainPipe c s
      let x := s.saveSet c (s.pc c.val)
      let s := s.setCore c { s.cores[c] with isave := x }
      let s := (s.wr b R.CORE_ISAVE.pc x.pc).wr b R.CORE_ISAVE.csw x.csw
      let s := s.cnt b R.CORE_COUNTS.interrupts 1
      (enterHandler c (16 * n) s).wr b R.CORE_CSW.in_int 1

/-- An exception that no syllable of the model raises by itself is taken: an error of instruction memory (code 3), or a bus
or data error whose access completes now. Codes 0, 2 and 3 are precise. -/
def opException (c : Fin 17) (code : Fin 5) (addr : BitVec 32) (s : State) : State :=
  if !s.coreRuns || !(decide (s.coreState c.val = 1) || decide (s.coreState c.val = 2)) then s
  else if code = 0 ∨ code = 2 ∨ code = 3 then preciseExc c code.val addr.toNat true s
  else takeExc c code.val (s.pc c.val) addr.toNat s

/-- A wait ends when its condition holds. -/
def State.waitDone (s : State) (c : Nat) : WaitCond → Bool
  | .boundary seen => seen
  | .time t => decide (ofT96 t ≤ s.tim.now)
  | .pend m => decide (m = 0) || decide (Nat.land m.toNat (s.rd (.core c) R.INT_PEND.pending) ≠ 0)

/-- The condition of a waiting U.WAIT is met (R262). -/
def opWaitComplete (c : Fin 17) (s : State) : State :=
  if !s.coreRuns || decide (s.coreState c.val ≠ 2) then s
  else match s.cores[c].wait with
    | none => s
    | some w =>
      if s.waitDone c.val w then (s.setCore c { s.cores[c] with wait := none }).wr (.core c.val) R.CORE_STATUS.state 1 else s

/-- A caravan boundary of the slice reaches its core: a wait for it is met, source 1 is raised. -/
def coreBoundary (c : Fin 17) (s : State) : State :=
  let s := s.coreInt c.val 1
  match s.cores[c].wait with
  | some (.boundary _) => s.setCore c { s.cores[c] with wait := some (.boundary true) }
  | _ => s

/-! ### The end of a bundle -/

/-- Return from a save set; a wait it interrupted starts again. -/
def returnFrom (c : Fin 17) (x : SaveSet) (s : State) : State :=
  let s := restoreSet c x s
  match x.wait with
  | none => s
  | some (.boundary _) => (s.setCore c { s.cores[c] with wait := some (.boundary false) }).wr (.core c.val) R.CORE_STATUS.state 2
  | some w => (s.setCore c { s.cores[c] with wait := some w }).wr (.core c.val) R.CORE_STATUS.state 2

/-- Bundle `n` is next; a pc past bundle 16,383 is an illegal instruction (R241). -/
def goTo (c : Fin 17) (n : Nat) (s : State) : State :=
  if 16383 < n then takeExc c 0 (n % 16384) 0 s else s.wr (.core c.val) R.CORE_STATUS.pc n

/-- The next bundle, after the slot-0 action of the bundle at `pc`. -/
def nextBundle (c : Fin 17) (pc : Nat) (ctl : Option CoreCtl) (s : State) : State :=
  let b := Blk.core c.val
  let fall := fun (s : State) =>
    let (s, n) := loopEnds c pc [0, 1, 2] s
    goTo c n s
  match ctl with
  | none => fall s
  | some (.goto t) => (leaveLoops c.val t s).wr b R.CORE_STATUS.pc t
  | some (.loop k n e) =>
    if n = 0 then goTo c (e + 1) ((leaveLoops c.val (e + 1) s).wr b (R.LC.count k) 0)
    else openLoop c.val k n (pc + 1) e (fall s)
  | some (.loopS n e m) =>
    if n = 0 then goTo c (e + 1) (leaveLoops c.val (e + 1) s)
    else
      let s := openLoop c.val 0 (n + m) (pc + 1) e (fall s)
      let s := (s.wr b R.CORE_LOOP.roff 0).wr b R.CORE_LOOP.fill 0
      stagePreds c ((s.wr b R.CORE_LOOP.stages_m1 m).wr b R.CORE_LOOP.staged 1)
  | some .rti => returnFrom c s.cores[c].isave s
  | some .rte => returnFrom c s.cores[c].esave s
  | some .halt => (fall s).wr b R.CORE_STATUS.state 3

/-- The bundle has issued whole: results advance, the next bundle is found, exceptions of its accesses are taken, a U.WAIT
begins to wait. -/
def bundleEnd (c : Fin 17) (s : State) : State :=
  let k := s.cores[c]
  let ps := k.pipe.map (fun p => { p with left := p.left - 1, fresh := false })
  let s := s.setCore c { k with pipe := ps.filter (fun p => decide (p.left ≠ 0)), ctl := none, newWait := none, exc := none }
  let s := landAll c (ps.filter (fun p => decide (p.left = 0))) s
  let s := s.cnt (.core c.val) R.CORE_BUNDLES.count 1
  let s := nextBundle c (s.pc c.val) k.ctl s
  let s := match k.newWait with
    | some w => if s.waitDone c.val w then s
        else (s.setCore c { s.cores[c] with wait := some w }).wr (.core c.val) R.CORE_STATUS.state 2
    | none => s
  match k.exc with
  | some (code, addr) => takeExc c code (s.pc c.val) addr s
  | none => s

/-- The core issues now; an interrupt that is due at the boundary comes first. -/
def State.issues (s : State) (c : Fin 17) : Bool :=
  s.coreRuns && decide (s.coreState c.val = 1) && s.enabled (.core c.val) && !s.intDue c

/-- The core issues one syllable: it reads the registers `rds`; `chk` says which precise exception it raises, if any; `f` is its
effect, which lands no result before the bundle ends. -/
def issue (c : Fin 17) (y : Syl) (rds : List Dst) (chk : State → Option (Nat × Nat)) (f : Op) (s : State) : State :=
  if !s.issues c then s
  else if s.cores[c].squash then (if y.last then s.setCore c { s.cores[c] with squash := false } else s)
  else
    let s := touch c rds s
    match chk s with
    | some (code, addr) => preciseExc c code addr y.last s
    | none => if y.last then bundleEnd c (f s) else f s

/-- A precise exception when the encoding is illegal (R251). -/
def illegal (b : Bool) (_ : State) : Option (Nat × Nat) := if b then some (0, 0) else none

/-- The syllable's guard predicate, from m[10:8]. -/
def Syl.g (y : Syl) : Nat := y.m.toNat / 256
/-- Destination, sources, modifier as numbers. -/
def Syl.dn (y : Syl) : Nat := y.d.toNat
/-- Source a. -/
def Syl.an (y : Syl) : Nat := y.a.toNat
/-- Source b. -/
def Syl.bn (y : Syl) : Nat := y.b.toNat
/-- Modifier. -/
def Syl.mn (y : Syl) : Nat := y.m.toNat
/-- imm11 as a signed value. -/
def Syl.imm (y : Syl) : Int := y.m.toInt
/-- imm21 of the long format. -/
def Syl.imm21 (y : Syl) : Nat := y.an * 2 ^ 16 + y.bn * 2 ^ 11 + y.mn
/-- The target bundle of the branch format. -/
def Syl.target (y : Syl) : Nat := (y.bn % 8) * 2 ^ 11 + y.mn
/-- Guard bit 0 of the syllable. -/
def State.guard0 (s : State) (c : Fin 17) (y : Syl) : Bool := nbit (s.cores[c].rp y.g) 0
/-- Guard bit of lane `l`. -/
def State.guard (s : State) (c : Fin 17) (y : Syl) (l : Nat) : Bool := nbit (s.cores[c].rp y.g) l

/-! ### Other events of the core (R239, R246) -/

/-- CORE_CYCLES reaches CORE_TIMER. -/
def opCoreTimer (c : Fin 17) (s : State) : State :=
  if s.coreRuns && s.enabled (.core c.val)
    && decide (s.rd (.core c.val) R.CORE_TIMER.compare ≤ s.rd (.core c.val) R.CORE_CYCLES.count) then s.coreInt c.val 6 else s

/-- The host writes MBOX_IN. -/
def opMboxInWrite (c : Fin 17) (value : BitVec 64) (s : State) : State :=
  (s.wr (.core c.val) R.MBOX_IN.value value.toNat).coreInt c.val 8

/-- The core of slice `c` writes PEER_DOORBELL of another slice. -/
def opPeerDoorbell (c t : Fin 17) (value : BitVec 64) (s : State) : State :=
  let s := s.wr (.core t.val) R.PEER_DOORBELL.value value.toNat
  if c = t then s else s.coreInt t.val 15

/-- quiesce_grace microseconds have passed since the quiesce was asked for: 0 acts as 1, values above 90 act as 90. -/
def State.graceOver (s : State) (c : Nat) : Bool :=
  (s.quiescedAt (.core c)).any (fun t => decide (t + min 90 (max 1 (s.rd (.core c) R.CORE_CFG.quiesce_grace)) * usUnits ≤ s.tim.raw))

/-- quiesce_grace expires without HALT: the core is stopped at a bundle boundary. -/
def opForcedStop (c : Fin 17) (s : State) : State :=
  let b := Blk.core c.val
  if !s.coreRuns || !s.flag b R.BLOCK_STATUS.quiescing || !(decide (s.coreState c.val = 1) || decide (s.coreState c.val = 2))
    || !s.graceOver c.val || !s.cores[c].between then s
  else ((s.wr b R.CORE_STATUS.state 5).fault b R.CORE_FAULT.forced_stop).cnt b R.CORE_COUNTS.forced_stops 1

/-- A slice's core slot is enabled (R245). -/
def State.coreRefuses (s : State) (c : Nat) : Bool :=
  !s.flag (.core c) R.CORE_IMAGE.valid || decide (6 ≤ s.rd (.core c) R.SLICE_MODE.mode)

/-- Every register of R225 takes its reset value, and the core issues from the entry point. -/
def coreStart (c : Fin 17) (s : State) : State :=
  let b := Blk.core c.val
  let s := s.setCore c .zero
  let s := (s.wr b R.CORE_CSW.csw 8).wr b R.CORE_LOOP.loopctl 0
  let s := s.each (List.range 3) (fun k st => (st.wrw b (0x078 + 8 * k) 0).wrw b (0x090 + 8 * k) 0)
  let s := (s.wr b R.INT_PEND.pending 0).wr b R.CORE_STATUS.pc (s.rd b R.CORE_IMAGE2.entry)
  s.wr b R.CORE_STATUS.state 1

/-! ### Program images (R243, R244) -/

/-- A section of an image: type, destination, length, offset. -/
structure ImgSection where
  kind : Nat
  dest : Nat
  len : Nat
  off : Nat
  deriving DecidableEq, Repr

/-- Section `i` of an image. -/
def imgSection (img : List Byte) (i : Nat) : ImgSection :=
  let a := 32 + 16 * i
  ⟨imgNat img a 1, imgNat img (a + 4) 4, imgNat img (a + 8) 4, imgNat img (a + 12) 4⟩

/-- A section obeys R243. -/
def ImgSection.ok (x : ImgSection) (imgLen : Nat) : Bool :=
  match x.kind with
  | 0 => decide (x.dest % 16 = 0) && decide (x.len % 16 = 0) && decide (x.dest + x.len ≤ 0x40000) && decide (x.off % 8 = 0)
      && decide (x.off + x.len ≤ imgLen)
  | 1 => decide (x.dest % 8 = 0) && decide (x.len % 8 = 0) && decide (x.dest + x.len ≤ 0x800000) && decide (x.off % 8 = 0)
      && decide (x.off + x.len ≤ imgLen)
  | 2 => decide (x.dest % 8 = 0) && decide (x.len % 8 = 0) && decide (x.dest + x.len ≤ 0x800000) && decide (x.off = 0)
  | _ => false

/-- Two sections of one memory overlap. -/
def ImgSection.clash (x y : ImgSection) : Bool :=
  (decide (x.kind = 0) == decide (y.kind = 0)) && decide (x.dest < y.dest + y.len) && decide (y.dest < x.dest + x.len)

/-- Some two sections of a list overlap. -/
def sectionsClash : List ImgSection → Bool
  | [] => false
  | x :: xs => xs.any x.clash || sectionsClash xs

/-- The sections of an image. -/
def imgSections (img : List Byte) : List ImgSection := (List.range (imgNat img 20 2)).map (imgSection img)

/-- load_status of an image for slice `c`, and 0 when it is accepted. -/
def State.loadStatus (s : State) (c : Nat) (img : List Byte) (crcOk : Bool) : Nat :=
  let len := imgNat img 16 4
  if !crcOk then 1
  else if (img.take 4 != [0x41, 0x4C, 0x4E, 0x4E]) || decide (imgNat img 10 1 ≠ 1) then 2
  else if imgNat img 11 1 ≠ 1 then 5
  else if len % 16 ≠ 0 ∨ 0x400000 < len ∨ img.length < len ∨ imgNat img 20 2 = 0 ∨ 16 < imgNat img 20 2 then 7
  else if imgNat img 12 4 % 16 ≠ 0 ∨ 0x40000 ≤ imgNat img 12 4 then 6
  else if (imgSections img).any (fun x => !x.ok len) || sectionsClash (imgSections img) then 3
  else if s.enabled (.core c) then 4
  else 0

/-- Write one section to the slice's memories. -/
def loadSection (c : Fin 17) (img : List Byte) (x : ImgSection) (s : State) : State :=
  let bytes := (img.drop x.off).take x.len
  match x.kind with
  | 0 => sramWrite (.imem c) x.dest (bytes.map some) s
  | 1 => sramWrite (.lmem c) x.dest (bytes.map some) s
  | _ => sramWrite (.lmem c) x.dest (List.replicate x.len (some 0)) s

/-- A PROGRAM_LOAD descriptor's image reaches slice `c`: verified by check unit 60, loaded or refused (R244). Answers whether
it was accepted. -/
def loadImage (c : Fin 17) (img : List Byte) (s : State) : State × Bool :=
  let b := Blk.core c.val
  let len := min img.length (imgNat img 16 4)
  let (s, v) := checkUnit 60 0 (img.take 28 ++ [0, 0, 0, 0] ++ (img.take len).drop 32) s
  let crcOk := decide (v = imgNat img 28 4)
  let s := if crcOk then s else checkFail 60 s
  let st := s.loadStatus c.val img crcOk
  let s := s.wr b R.CORE_IMAGE.load_status st
  if st ≠ 0 then (s.fault b R.CORE_FAULT.load_refused, false)
  else
    let xs := imgSections img
    let s := s.setSram (.imem c) [] []
    let s := s.each xs (loadSection c img)
    let s := (s.wr b R.CORE_IMAGE.program_id (imgNat img 4 4)).wr b R.CORE_IMAGE.version (imgNat img 8 2)
    let top := (xs.filter (fun x => decide (x.kind ≠ 0))).foldl (fun m x => max m (x.dest + x.len)) 0
    let s := (s.wr b R.CORE_IMAGE2.entry (imgNat img 12 4 / 16)).wr b R.CORE_IMAGE2.data_top (ceilDiv top 0x10000)
    ((s.wr b R.CORE_IMAGE2.crc (imgNat img 28 4)).wr b R.CORE_IMAGE.valid 1, true)

/-! ### The commands -/

/-- INTERRUPT (R240): An enabled pending interrupt is taken at a bundle boundary and the save set is written. -/
def execInterrupt (c : Fin 17) (s : State) : Host.Outcome State Fault Refusal :=
  .next (opInterrupt c s)
/-- EXCEPTION (R241): An exception is taken into the exception save set, or the core goes FAULTED on a double exception. -/
def execException (c : Fin 17) (code : Fin 5) (addr : BitVec 32) (s : State) : Host.Outcome State Fault Refusal :=
  .next (opException c code addr s)
/-- CORE_TIMER (R239): CORE_CYCLES reaches CORE_TIMER and interrupt source 6 is set. -/
def execCoreTimer (c : Fin 17) (s : State) : Host.Outcome State Fault Refusal :=
  .next (opCoreTimer c s)
/-- MBOX_IN_WRITE (R239): A host write to MBOX_IN sets INT_PEND bit 8. -/
def execMboxInWrite (c : Fin 17) (value : BitVec 64) (s : State) : Host.Outcome State Fault Refusal :=
  .next (onWrite (opMboxInWrite c value) s)
/-- PEER_DOORBELL (R239): Another slice's core writes PEER_DOORBELL and INT_PEND bit 15 is set. -/
def execPeerDoorbell (c : Fin 17) (t : Fin 17) (value : BitVec 64) (s : State) : Host.Outcome State Fault Refusal :=
  .next (opPeerDoorbell c t value s)
/-- FORCED_STOP (R246): quiesce_grace expires without HALT and the core is stopped at a bundle boundary. -/
def execForcedStop (c : Fin 17) (s : State) : Host.Outcome State Fault Refusal :=
  .next (opForcedStop c s)
/-- WAIT_COMPLETE (R262): The condition of a waiting U.WAIT is met and issue resumes. -/
def execWaitComplete (c : Fin 17) (s : State) : Host.Outcome State Fault Refusal :=
  .next (opWaitComplete c s)

end Sys2Proof.Machine
end

