-- ==== Sys2Proof/Machine/Scalar.lean ====
section
/-!
DEFINITION. Sys2Proof/Machine/Scalar.lean: slot 0 of the Alnen core: scalar and predicate operations, branches, loops, moves of
control registers (R253, R254).
-/
namespace Sys2Proof.Machine
open Sys2Proof

/-- A scalar register as a signed value. -/
def sgn32 (x : Nat) : Int := signed 32 x

/-- A guarded scalar operation of two registers. -/
def scalarRR (f : Nat → Nat → Int) (c : Fin 17) (y : Syl) : Op :=
  issue c y [.s y.an, .s y.bn] (illegal false) (fun s =>
    if s.guard0 c y then produce c 0 1 false [(.s y.dn, f (s.cores[c].rs y.an) (s.cores[c].rs y.bn))] s else s)

/-- A scalar operation of a register and the immediate. -/
def scalarRI (f : Nat → Int) (c : Fin 17) (y : Syl) : Op :=
  issue c y [.s y.an] (illegal false) (fun s => produce c 0 1 false [(.s y.dn, f (s.cores[c].rs y.an))] s)

/-- A predicate operation with results `f`; `bad` names an encoding of R251. -/
def predOp (bad : Bool) (rds : List Dst) (f : CoreSt → List (Dst × Int)) (c : Fin 17) (y : Syl) : Op :=
  issue c y rds (illegal bad) (fun s => produce c 0 1 false (f s.cores[c]) s)

/-- The slot-0 action of the bundle. -/
def setCtl (c : Fin 17) (x : CoreCtl) (s : State) : State := s.setCore c { s.cores[c] with ctl := some x }

/-- A branch taken when `p` holds. -/
def branchIf (bad : Bool) (rds : List Dst) (p : CoreSt → Bool) (c : Fin 17) (y : Syl) : Op :=
  issue c y rds (illegal bad) (fun s => if p s.cores[c] then setCtl c (.goto y.target) s else s)

/-- A logical right shift, an arithmetic right shift, a left shift by the low five bits of `n`. -/
def shl32 (x n : Nat) : Int := (x * 2 ^ (n % 32) : Nat)
/-- Logical right shift. -/
def shr32 (x n : Nat) : Int := (x / 2 ^ (n % 32) : Nat)
/-- Arithmetic right shift. -/
def sra32 (x n : Nat) : Int := sgn32 x / 2 ^ (n % 32)

/-- A condition of PCMP. -/
def cond32 (k a b : Nat) : Bool :=
  match k with
  | 0 => decide (a = b) | 1 => decide (a ≠ b) | 2 => decide (sgn32 a < sgn32 b) | 3 => decide (sgn32 b ≤ sgn32 a)
  | 4 => decide (a < b) | _ => decide (b ≤ a)

/-- The set bits of a predicate, ascending. -/
def predBits (p : Nat) : List Nat := (List.range 8).filter (nbit p)

/-- A control register (R254). -/
def State.ctlReg (s : State) (c n : Nat) : Nat :=
  match n with
  | 0 => s.csw c
  | 1 => s.rd (.core c) R.CORE_LOOP.loopctl
  | k => s.rd (.core c) (R.LC.count (k - 2))

/-- The destination of a MOVTC. -/
def ctlDst (n : Nat) : Dst := match n with | 0 => .csw | 1 => .loopctl | k => .lc (k - 2)

/-- A loop that R251 calls illegal: its level is active, or its end lies before the bundle after it. -/
def State.loopBad (s : State) (c : Fin 17) (k e : Nat) : Bool := s.loopOn c.val k || decide (e < s.pc c.val + 1)

/-- NOP: nothing, in any slot. -/
def opNop (c : Fin 17) (y : Syl) : Op :=
  issue c y [] (illegal false) id
/-- ADD: modulo 2^32. -/
def opAdd (c : Fin 17) (y : Syl) : Op :=
  scalarRR (fun a b => ((a : Int) + b)) c y
/-- SUB: modulo 2^32. -/
def opSub (c : Fin 17) (y : Syl) : Op :=
  scalarRR (fun a b => ((a : Int) - b)) c y
/-- MUL: modulo 2^32. -/
def opMul (c : Fin 17) (y : Syl) : Op :=
  scalarRR (fun a b => ((a : Int) * b)) c y
/-- AND. -/
def opAnd (c : Fin 17) (y : Syl) : Op :=
  scalarRR (fun a b => Nat.land a b) c y
/-- OR. -/
def opOr (c : Fin 17) (y : Syl) : Op :=
  scalarRR (fun a b => Nat.lor a b) c y
/-- XOR. -/
def opXor (c : Fin 17) (y : Syl) : Op :=
  scalarRR (fun a b => Nat.xor a b) c y
/-- SHL: by b[4:0]. -/
def opShl (c : Fin 17) (y : Syl) : Op :=
  scalarRR (fun a b => shl32 a b) c y
/-- SHR: by b[4:0]. -/
def opShr (c : Fin 17) (y : Syl) : Op :=
  scalarRR (fun a b => shr32 a b) c y
/-- SRA: by b[4:0]. -/
def opSra (c : Fin 17) (y : Syl) : Op :=
  scalarRR (fun a b => sra32 a b) c y
/-- MIN: signed. -/
def opMin (c : Fin 17) (y : Syl) : Op :=
  scalarRR (fun a b => min (sgn32 a) (sgn32 b)) c y
/-- MAX: signed. -/
def opMax (c : Fin 17) (y : Syl) : Op :=
  scalarRR (fun a b => max (sgn32 a) (sgn32 b)) c y
/-- SLT: signed. -/
def opSlt (c : Fin 17) (y : Syl) : Op :=
  scalarRR (fun a b => if sgn32 a < sgn32 b then 1 else 0) c y
/-- SLTU: unsigned. -/
def opSltu (c : Fin 17) (y : Syl) : Op :=
  scalarRR (fun a b => if a < b then 1 else 0) c y
/-- ADDI. -/
def opAddi (c : Fin 17) (y : Syl) : Op :=
  scalarRI (fun a => a + y.imm) c y
/-- ANDI: zero-extended immediate. -/
def opAndi (c : Fin 17) (y : Syl) : Op :=
  scalarRI (fun a => Nat.land a y.mn) c y
/-- ORI: zero-extended immediate. -/
def opOri (c : Fin 17) (y : Syl) : Op :=
  scalarRI (fun a => Nat.lor a y.mn) c y
/-- SHLI: count imm11[4:0]. -/
def opShli (c : Fin 17) (y : Syl) : Op :=
  scalarRI (fun a => shl32 a y.mn) c y
/-- SHRI: count imm11[4:0]. -/
def opShri (c : Fin 17) (y : Syl) : Op :=
  scalarRI (fun a => shr32 a y.mn) c y
/-- SRAI: count imm11[4:0]. -/
def opSrai (c : Fin 17) (y : Syl) : Op :=
  scalarRI (fun a => sra32 a y.mn) c y
/-- LI: the sign-extended imm21. -/
def opLi (c : Fin 17) (y : Syl) : Op :=
  issue c y [] (illegal false) (produce c 0 1 false [(.s y.dn, signed 21 y.imm21)])
/-- LIU: imm21[15:0] into the high half. -/
def opLiu (c : Fin 17) (y : Syl) : Op :=
  issue c y [.s y.dn] (illegal false) (fun s =>
    produce c 0 1 false [(.s y.dn, ((y.imm21 % 2 ^ 16) * 2 ^ 16 + s.cores[c].rs y.dn % 2 ^ 16 : Nat))] s)
/-- PCMP: every bit of Pd; condition codes 6 and 7 are illegal. -/
def opPcmp (c : Fin 17) (y : Syl) : Op :=
  predOp (decide (7 < y.dn) || decide (6 ≤ y.mn % 8)) [.s y.an, .s y.bn]
    (fun k => [(.p y.dn, if cond32 (y.mn % 8) (k.rs y.an) (k.rs y.bn) then 0xFF else 0)]) c y
/-- PAND. -/
def opPand (c : Fin 17) (y : Syl) : Op :=
  predOp (decide (7 < y.dn) || decide (7 < y.an) || decide (7 < y.bn)) []
    (fun k => [(.p y.dn, Nat.land (k.rp y.an) (k.rp y.bn))]) c y
/-- POR. -/
def opPor (c : Fin 17) (y : Syl) : Op :=
  predOp (decide (7 < y.dn) || decide (7 < y.an) || decide (7 < y.bn)) []
    (fun k => [(.p y.dn, Nat.lor (k.rp y.an) (k.rp y.bn))]) c y
/-- PXOR. -/
def opPxor (c : Fin 17) (y : Syl) : Op :=
  predOp (decide (7 < y.dn) || decide (7 < y.an) || decide (7 < y.bn)) []
    (fun k => [(.p y.dn, Nat.xor (k.rp y.an) (k.rp y.bn))]) c y
/-- PNOT. -/
def opPnot (c : Fin 17) (y : Syl) : Op :=
  predOp (decide (7 < y.dn) || decide (7 < y.an)) [] (fun k => [(.p y.dn, Nat.xor (k.rp y.an) 0xFF)]) c y
/-- PANY. -/
def opPany (c : Fin 17) (y : Syl) : Op :=
  predOp (decide (7 < y.dn) || decide (7 < y.an)) [] (fun k => [(.p y.dn, if k.rp y.an ≠ 0 then 0xFF else 0)]) c y
/-- PFROMS. -/
def opPfroms (c : Fin 17) (y : Syl) : Op :=
  predOp (decide (7 < y.dn)) [.s y.an] (fun k => [(.p y.dn, (k.rs y.an % 256 : Nat))]) c y
/-- PTOS. -/
def opPtos (c : Fin 17) (y : Syl) : Op :=
  predOp (decide (7 < y.an)) [] (fun k => [(.s y.dn, k.rp y.an)]) c y
/-- PCNT. -/
def opPcnt (c : Fin 17) (y : Syl) : Op :=
  predOp (decide (7 < y.an)) [] (fun k => [(.s y.dn, (predBits (k.rp y.an)).length)]) c y
/-- PFFS: 8 when no bit is set. -/
def opPffs (c : Fin 17) (y : Syl) : Op :=
  predOp (decide (7 < y.an)) [] (fun k => [(.s y.dn, ((predBits (k.rp y.an)).headD 8 : Nat))]) c y
/-- PFLS: −1 when no bit is set. -/
def opPfls (c : Fin 17) (y : Syl) : Op :=
  predOp (decide (7 < y.an)) [] (fun k => [(.s y.dn, match (predBits (k.rp y.an)).getLast? with
    | some i => (i : Int)
    | none => -1)]) c y
/-- BR. -/
def opBr (c : Fin 17) (y : Syl) : Op :=
  branchIf false [] (fun _ => true) c y
/-- BZ. -/
def opBz (c : Fin 17) (y : Syl) : Op :=
  branchIf false [.s y.an] (fun k => decide (k.rs y.an = 0)) c y
/-- BNZ. -/
def opBnz (c : Fin 17) (y : Syl) : Op :=
  branchIf false [.s y.an] (fun k => decide (k.rs y.an ≠ 0)) c y
/-- BPA. -/
def opBpa (c : Fin 17) (y : Syl) : Op :=
  branchIf (decide (7 < y.an)) [] (fun k => decide (k.rp y.an ≠ 0)) c y
/-- BPN. -/
def opBpn (c : Fin 17) (y : Syl) : Op :=
  branchIf (decide (7 < y.an)) [] (fun k => decide (k.rp y.an = 0)) c y
/-- CALL: S31 takes the index of the next bundle. -/
def opCall (c : Fin 17) (y : Syl) : Op :=
  issue c y [] (illegal false) (fun s =>
    setCtl c (.goto y.target) (produce c 0 1 false [(.s 31, (s.pc c.val + 1 : Nat))] s))
/-- JR. -/
def opJr (c : Fin 17) (y : Syl) : Op :=
  issue c y [.s y.an] (illegal false) (fun s => setCtl c (.goto (s.cores[c].rs y.an % 2 ^ 14)) s)
/-- LOOP k, Sa, end (R237). -/
def opLoop (c : Fin 17) (y : Syl) : Op :=
  issue c y [.s y.an] (fun s => illegal (decide (y.dn % 4 = 3) || s.loopBad c (y.dn % 4) y.target) s)
    (fun s => setCtl c (.loop (y.dn % 4) (s.cores[c].rs y.an) y.target) s)
/-- LOOP.S 0, Sa, end, s (R238). -/
def opLoopS (c : Fin 17) (y : Syl) : Op :=
  issue c y [.s y.an] (fun s => illegal (decide (y.dn % 4 ≠ 0) || s.loopBad c 0 y.target) s)
    (fun s => setCtl c (.loopS (s.cores[c].rs y.an) y.target (y.dn / 4 % 4)) s)
/-- MOVFC. -/
def opMovfc (c : Fin 17) (y : Syl) : Op :=
  issue c y [] (illegal (decide (4 < y.mn % 16))) (fun s =>
    produce c 0 1 false [(.s y.dn, s.ctlReg c.val (y.mn % 16))] s)
/-- MOVTC (R254). -/
def opMovtc (c : Fin 17) (y : Syl) : Op :=
  issue c y [.s y.an] (illegal (decide (4 < y.mn % 16))) (fun s =>
    produce c 0 1 false [(ctlDst (y.mn % 16), s.cores[c].rs y.an)] s)
/-- SWI. -/
def opSwi (c : Fin 17) (y : Syl) : Op :=
  issue c y [] (illegal false) (produce c 0 1 false [(.swi, 0)])
/-- RTI: illegal while no interrupt handler runs. -/
def opRti (c : Fin 17) (y : Syl) : Op :=
  issue c y [] (fun s => illegal (!s.flag (.core c.val) R.CORE_CSW.in_int) s) (setCtl c .rti)
/-- RTE: illegal while no exception handler runs. -/
def opRte (c : Fin 17) (y : Syl) : Op :=
  issue c y [] (fun s => illegal (!s.flag (.core c.val) R.CORE_CSW.in_exc) s) (setCtl c .rte)
/-- HALT. -/
def opHalt (c : Fin 17) (y : Syl) : Op :=
  issue c y [] (illegal false) (setCtl c .halt)
/-- FENCE: in this model every store is performed when it issues, so the fence holds nothing. -/
def opFence (c : Fin 17) (y : Syl) : Op :=
  issue c y [] (illegal false) id

/-! ### The commands -/

/-- NOP (R229): Opcode 0 in any slot does nothing. -/
def execNop (c : Fin 17) (y : Syl) (s : State) : Host.Outcome State Fault Refusal :=
  .next (opNop c y s)
/-- ADD (R253): Scalar add, wrapping modulo 2^32. -/
def execAdd (c : Fin 17) (y : Syl) (s : State) : Host.Outcome State Fault Refusal :=
  .next (opAdd c y s)
/-- SUB (R253): Scalar subtract. -/
def execSub (c : Fin 17) (y : Syl) (s : State) : Host.Outcome State Fault Refusal :=
  .next (opSub c y s)
/-- MUL (R253): Scalar multiply, keeping the low 32 bits. -/
def execMul (c : Fin 17) (y : Syl) (s : State) : Host.Outcome State Fault Refusal :=
  .next (opMul c y s)
/-- AND (R253): Scalar bitwise AND. -/
def execAnd (c : Fin 17) (y : Syl) (s : State) : Host.Outcome State Fault Refusal :=
  .next (opAnd c y s)
/-- OR (R253): Scalar bitwise OR. -/
def execOr (c : Fin 17) (y : Syl) (s : State) : Host.Outcome State Fault Refusal :=
  .next (opOr c y s)
/-- XOR (R253): Scalar bitwise XOR. -/
def execXor (c : Fin 17) (y : Syl) (s : State) : Host.Outcome State Fault Refusal :=
  .next (opXor c y s)
/-- SHL (R253): Scalar shift left by a register. -/
def execShl (c : Fin 17) (y : Syl) (s : State) : Host.Outcome State Fault Refusal :=
  .next (opShl c y s)
/-- SHR (R253): Scalar logical shift right by a register. -/
def execShr (c : Fin 17) (y : Syl) (s : State) : Host.Outcome State Fault Refusal :=
  .next (opShr c y s)
/-- SRA (R253): Scalar arithmetic shift right by a register. -/
def execSra (c : Fin 17) (y : Syl) (s : State) : Host.Outcome State Fault Refusal :=
  .next (opSra c y s)
/-- MIN (R253): Signed scalar minimum. -/
def execMin (c : Fin 17) (y : Syl) (s : State) : Host.Outcome State Fault Refusal :=
  .next (opMin c y s)
/-- MAX (R253): Signed scalar maximum. -/
def execMax (c : Fin 17) (y : Syl) (s : State) : Host.Outcome State Fault Refusal :=
  .next (opMax c y s)
/-- SLT (R253): Signed set-less-than. -/
def execSlt (c : Fin 17) (y : Syl) (s : State) : Host.Outcome State Fault Refusal :=
  .next (opSlt c y s)
/-- SLTU (R253): Unsigned set-less-than. -/
def execSltu (c : Fin 17) (y : Syl) (s : State) : Host.Outcome State Fault Refusal :=
  .next (opSltu c y s)
/-- ADDI (R253): Add a sign-extended immediate. -/
def execAddi (c : Fin 17) (y : Syl) (s : State) : Host.Outcome State Fault Refusal :=
  .next (opAddi c y s)
/-- ANDI (R253): AND with a zero-extended immediate. -/
def execAndi (c : Fin 17) (y : Syl) (s : State) : Host.Outcome State Fault Refusal :=
  .next (opAndi c y s)
/-- ORI (R253): OR with a zero-extended immediate. -/
def execOri (c : Fin 17) (y : Syl) (s : State) : Host.Outcome State Fault Refusal :=
  .next (opOri c y s)
/-- SHLI (R253): Shift left by an immediate. -/
def execShli (c : Fin 17) (y : Syl) (s : State) : Host.Outcome State Fault Refusal :=
  .next (opShli c y s)
/-- SHRI (R253): Logical shift right by an immediate. -/
def execShri (c : Fin 17) (y : Syl) (s : State) : Host.Outcome State Fault Refusal :=
  .next (opShri c y s)
/-- SRAI (R253): Arithmetic shift right by an immediate. -/
def execSrai (c : Fin 17) (y : Syl) (s : State) : Host.Outcome State Fault Refusal :=
  .next (opSrai c y s)
/-- LI (R253): Load a sign-extended 21-bit immediate. -/
def execLi (c : Fin 17) (y : Syl) (s : State) : Host.Outcome State Fault Refusal :=
  .next (opLi c y s)
/-- LIU (R253): Load the upper 16 bits, keeping the low half. -/
def execLiu (c : Fin 17) (y : Syl) (s : State) : Host.Outcome State Fault Refusal :=
  .next (opLiu c y s)
/-- PCMP (R253): Compare two scalars into every bit of a predicate. -/
def execPcmp (c : Fin 17) (y : Syl) (s : State) : Host.Outcome State Fault Refusal :=
  .next (opPcmp c y s)
/-- PAND (R253): Predicate AND. -/
def execPand (c : Fin 17) (y : Syl) (s : State) : Host.Outcome State Fault Refusal :=
  .next (opPand c y s)
/-- POR (R253): Predicate OR. -/
def execPor (c : Fin 17) (y : Syl) (s : State) : Host.Outcome State Fault Refusal :=
  .next (opPor c y s)
/-- PXOR (R253): Predicate XOR. -/
def execPxor (c : Fin 17) (y : Syl) (s : State) : Host.Outcome State Fault Refusal :=
  .next (opPxor c y s)
/-- PNOT (R253): Predicate complement. -/
def execPnot (c : Fin 17) (y : Syl) (s : State) : Host.Outcome State Fault Refusal :=
  .next (opPnot c y s)
/-- PANY (R253): Set a predicate to all ones if any source bit is set. -/
def execPany (c : Fin 17) (y : Syl) (s : State) : Host.Outcome State Fault Refusal :=
  .next (opPany c y s)
/-- PFROMS (R253): Predicate from the low byte of a scalar. -/
def execPfroms (c : Fin 17) (y : Syl) (s : State) : Host.Outcome State Fault Refusal :=
  .next (opPfroms c y s)
/-- PTOS (R253): Scalar from a predicate. -/
def execPtos (c : Fin 17) (y : Syl) (s : State) : Host.Outcome State Fault Refusal :=
  .next (opPtos c y s)
/-- PCNT (R253): Count the set bits of a predicate. -/
def execPcnt (c : Fin 17) (y : Syl) (s : State) : Host.Outcome State Fault Refusal :=
  .next (opPcnt c y s)
/-- PFFS (R253): Index of the lowest set predicate bit. -/
def execPffs (c : Fin 17) (y : Syl) (s : State) : Host.Outcome State Fault Refusal :=
  .next (opPffs c y s)
/-- PFLS (R253): Index of the highest set predicate bit. -/
def execPfls (c : Fin 17) (y : Syl) (s : State) : Host.Outcome State Fault Refusal :=
  .next (opPfls c y s)
/-- BR (R253): Unconditional branch. -/
def execBr (c : Fin 17) (y : Syl) (s : State) : Host.Outcome State Fault Refusal :=
  .next (opBr c y s)
/-- BZ (R253): Branch if a scalar is zero. -/
def execBz (c : Fin 17) (y : Syl) (s : State) : Host.Outcome State Fault Refusal :=
  .next (opBz c y s)
/-- BNZ (R253): Branch if a scalar is non-zero. -/
def execBnz (c : Fin 17) (y : Syl) (s : State) : Host.Outcome State Fault Refusal :=
  .next (opBnz c y s)
/-- BPA (R253): Branch if a predicate is non-zero. -/
def execBpa (c : Fin 17) (y : Syl) (s : State) : Host.Outcome State Fault Refusal :=
  .next (opBpa c y s)
/-- BPN (R253): Branch if a predicate is zero. -/
def execBpn (c : Fin 17) (y : Syl) (s : State) : Host.Outcome State Fault Refusal :=
  .next (opBpn c y s)
/-- CALL (R253): Branch, saving the return index in S31. -/
def execCall (c : Fin 17) (y : Syl) (s : State) : Host.Outcome State Fault Refusal :=
  .next (opCall c y s)
/-- JR (R253): Jump to the bundle index in a scalar. -/
def execJr (c : Fin 17) (y : Syl) (s : State) : Host.Outcome State Fault Refusal :=
  .next (opJr c y s)
/-- LOOP (R237): Open a loop level whose end bundle decrements LC and loops back at no cost. -/
def execLoop (c : Fin 17) (y : Syl) (s : State) : Host.Outcome State Fault Refusal :=
  .next (opLoop c y s)
/-- LOOP_S (R238): Open level 0 as a staged loop with register renaming and stage predicates. -/
def execLoopS (c : Fin 17) (y : Syl) (s : State) : Host.Outcome State Fault Refusal :=
  .next (opLoopS c y s)
/-- MOVFC (R253): Read a control register. -/
def execMovfc (c : Fin 17) (y : Syl) (s : State) : Host.Outcome State Fault Refusal :=
  .next (opMovfc c y s)
/-- MOVTC (R254): Write CSW, LOOPCTL or LC[k] under the restrictions of R254. -/
def execMovtc (c : Fin 17) (y : Syl) (s : State) : Host.Outcome State Fault Refusal :=
  .next (opMovtc c y s)
/-- SWI (R253): Set INT_PEND bit 14. -/
def execSwi (c : Fin 17) (y : Syl) (s : State) : Host.Outcome State Fault Refusal :=
  .next (opSwi c y s)
/-- RTI (R240): Return from an interrupt, restoring the save set. -/
def execRti (c : Fin 17) (y : Syl) (s : State) : Host.Outcome State Fault Refusal :=
  .next (opRti c y s)
/-- RTE (R241): Return from an exception. -/
def execRte (c : Fin 17) (y : Syl) (s : State) : Host.Outcome State Fault Refusal :=
  .next (opRte c y s)
/-- HALT (R246): The core enters HALTED, acknowledging a quiesce. -/
def execHalt (c : Fin 17) (y : Syl) (s : State) : Host.Outcome State Fault Refusal :=
  .next (opHalt c y s)
/-- FENCE (R235): Hold issue until all earlier stores have been performed. -/
def execFence (c : Fin 17) (y : Syl) (s : State) : Host.Outcome State Fault Refusal :=
  .next (opFence c y s)

end Sys2Proof.Machine
end

