-- ==== Sys2Proof/Machine/Vector.lean ====
section
/-!
DEFINITION. Sys2Proof/Machine/Vector.lean: slot 1 of the Alnen core, the vector ALU (R255).
-/
namespace Sys2Proof.Machine
open Sys2Proof

/-- The lanes of the vector register named `r`, for interlocks. -/
def State.vLanes (s : State) (c : Fin 17) (r : Nat) : List Dst := (List.range 8).map (Dst.v (s.phys c.val r))

/-- Lane `l` of the vector register named `r`. -/
def State.vr (s : State) (c : Fin 17) (r l : Nat) : Int := s.cores[c].rv (s.phys c.val r) l

/-- Results of guarded lanes of the register named `r`, with the overflow flag they set. -/
def laneResults (s : State) (c : Fin 17) (y : Syl) (r : Nat) (f : Nat → Int × Bool) : List (Dst × Int) :=
  let ls := (List.range 8).filter (s.guard c y)
  ls.map (fun l => (Dst.v (s.phys c.val r) l, (f l).1)) ++ (if ls.any (fun l => (f l).2) then [(Dst.ovf, 1)] else [])

/-- A vector operation lane by lane. -/
def vecOp (bad : Bool) (c : Fin 17) (y : Syl) (f : State → Nat → Int × Bool) (s : State) : State :=
  issue c y (s.vLanes c y.an ++ s.vLanes c y.bn) (illegal bad)
    (fun s => produceR c y 1 1 (laneResults s c y y.dn (f s)) s) s

/-- A 24-bit result under CSW.sat. -/
def State.fit24 (s : State) (c : Fin 17) (x : Int) : Int × Bool := fit 24 (s.cswSat c.val) x

/-- A bitwise operation of two lanes. -/
def bits24 (f : Nat → Nat → Nat) (a b : Int) : Int := signed 24 (f (code 24 a) (code 24 b))

/-- A condition of VCMP. -/
def condLane (k : Nat) (a b : Int) : Bool :=
  match k with
  | 0 => decide (a = b) | 1 => decide (a ≠ b) | 2 => decide (a < b) | 3 => decide (b ≤ a) | 4 => decide (a ≤ b)
  | _ => decide (b < a)

/-- The guarded lane with the best value, the lowest index on ties; 8 when no lane is guarded in. -/
def bestLane (s : State) (c : Fin 17) (y : Syl) (better : Int → Int → Bool) : Nat :=
  match (List.range 8).filter (s.guard c y) with
  | [] => 8
  | l :: ls => ls.foldl (fun m i => if better (s.vr c y.an i) (s.vr c y.an m) then i else m) l

/-- VMAXX and VMINX. -/
def bestOp (better : Int → Int → Bool) (c : Fin 17) (y : Syl) (s : State) : State :=
  issue c y (s.vLanes c y.an) (illegal false)
    (fun s => produceR c y 1 1 [(.s y.dn, (bestLane s c y better : Nat))] s) s

/-- VMAXR and VMINR: the running best value and its index. -/
def runOp (better : Int → Int → Bool) (c : Fin 17) (y : Syl) (s : State) : State :=
  issue c y (.s y.bn :: s.vLanes c y.an ++ s.vLanes c y.dn) (illegal (decide (y.dn % 2 = 1)))
    (fun s =>
      let ls := (List.range 8).filter (fun l => s.guard c y l && better (s.vr c y.an l) (s.vr c y.dn l))
      let b := s.fit24 c (sgn32 (s.cores[c].rs y.bn))
      let r := ls.flatMap (fun l => [(Dst.v (s.phys c.val y.dn) l, s.vr c y.an l), (Dst.v (s.phys c.val (y.dn + 1)) l, b.1)])
      produceR c y 1 1 (r ++ (if b.2 && !ls.isEmpty then [(Dst.ovf, 1)] else [])) s) s

/-- VADD. -/
def opVadd (c : Fin 17) (y : Syl) (s : State) : State :=
  vecOp false c y (fun s l => s.fit24 c (s.vr c y.an l + s.vr c y.bn l)) s
/-- VSUB. -/
def opVsub (c : Fin 17) (y : Syl) (s : State) : State :=
  vecOp false c y (fun s l => s.fit24 c (s.vr c y.an l - s.vr c y.bn l)) s
/-- VAND. -/
def opVand (c : Fin 17) (y : Syl) (s : State) : State :=
  vecOp false c y (fun s l => (bits24 Nat.land (s.vr c y.an l) (s.vr c y.bn l), false)) s
/-- VOR. -/
def opVor (c : Fin 17) (y : Syl) (s : State) : State :=
  vecOp false c y (fun s l => (bits24 Nat.lor (s.vr c y.an l) (s.vr c y.bn l), false)) s
/-- VXOR. -/
def opVxor (c : Fin 17) (y : Syl) (s : State) : State :=
  vecOp false c y (fun s l => (bits24 Nat.xor (s.vr c y.an l) (s.vr c y.bn l), false)) s
/-- VMIN: signed. -/
def opVmin (c : Fin 17) (y : Syl) (s : State) : State :=
  vecOp false c y (fun s l => (min (s.vr c y.an l) (s.vr c y.bn l), false)) s
/-- VMAX: signed. -/
def opVmax (c : Fin 17) (y : Syl) (s : State) : State :=
  vecOp false c y (fun s l => (max (s.vr c y.an l) (s.vr c y.bn l), false)) s
/-- VABS. -/
def opVabs (c : Fin 17) (y : Syl) (s : State) : State :=
  vecOp false c y (fun s l => s.fit24 c (s.vr c y.an l).natAbs) s
/-- VNEG. -/
def opVneg (c : Fin 17) (y : Syl) (s : State) : State :=
  vecOp false c y (fun s l => s.fit24 c (-(s.vr c y.an l))) s
/-- VSHL: a count above 23 is illegal. -/
def opVshl (c : Fin 17) (y : Syl) (s : State) : State :=
  vecOp (decide (23 < y.mn % 32)) c y (fun s l => s.fit24 c (s.vr c y.an l * 2 ^ (y.mn % 32))) s
/-- VSRA: rounding; a count above 23 is illegal. -/
def opVsra (c : Fin 17) (y : Syl) (s : State) : State :=
  vecOp (decide (23 < y.mn % 32)) c y (fun s l => (rne (s.vr c y.an l) (y.mn % 32), false)) s
/-- VCMP into the guarded bits of Pd. -/
def opVcmp (c : Fin 17) (y : Syl) (s : State) : State :=
  issue c y (s.vLanes c y.an ++ s.vLanes c y.bn) (illegal (decide (7 < y.dn) || decide (6 ≤ y.mn % 8)))
    (fun s => produceR c y 1 1 (((List.range 8).filter (s.guard c y)).map (fun l =>
      (Dst.pb y.dn l, if condLane (y.mn % 8) (s.vr c y.an l) (s.vr c y.bn l) then 1 else 0))) s) s
/-- VSEL: every lane, by the guard. -/
def opVsel (c : Fin 17) (y : Syl) (s : State) : State :=
  issue c y (s.vLanes c y.an ++ s.vLanes c y.bn) (illegal false)
    (fun s => produceR c y 1 1 ((List.range 8).map (fun l =>
      (Dst.v (s.phys c.val y.dn) l, if s.guard c y l then s.vr c y.an l else s.vr c y.bn l))) s) s
/-- VBCAST. -/
def opVbcast (c : Fin 17) (y : Syl) (s : State) : State :=
  issue c y [.s y.an] (illegal false)
    (fun s => produceR c y 1 1 (laneResults s c y y.dn (fun _ => s.fit24 c (sgn32 (s.cores[c].rs y.an)))) s) s
/-- VINS: one lane. -/
def opVins (c : Fin 17) (y : Syl) (s : State) : State :=
  issue c y [.s y.an] (illegal false) (fun s =>
    let l := y.mn % 8
    let r := s.fit24 c (sgn32 (s.cores[c].rs y.an))
    if s.guard c y l then
      produceR c y 1 1 ((Dst.v (s.phys c.val y.dn) l, r.1) :: (if r.2 then [(Dst.ovf, 1)] else [])) s else s) s
/-- VEXT: one lane to a scalar register. -/
def opVext (c : Fin 17) (y : Syl) (s : State) : State :=
  issue c y (s.vLanes c y.an) (illegal false) (fun s =>
    if s.guard0 c y then produceR c y 1 1 [(.s y.dn, s.vr c y.an (y.mn % 8))] s else s) s
/-- VEXTR: the lane a register names. -/
def opVextr (c : Fin 17) (y : Syl) (s : State) : State :=
  issue c y (.s y.bn :: s.vLanes c y.an) (illegal false) (fun s =>
    if s.guard0 c y then produceR c y 1 1 [(.s y.dn, s.vr c y.an (s.cores[c].rs y.bn % 8))] s else s) s
/-- VROT: lanes of a pair of registers, from lane k. -/
def opVrot (c : Fin 17) (y : Syl) (s : State) : State :=
  vecOp false c y (fun s l => (let i := l + y.mn % 8; if i < 8 then s.vr c y.an i else s.vr c y.bn (i - 8), false)) s
/-- VCONJ. -/
def opVconj (c : Fin 17) (y : Syl) (s : State) : State :=
  vecOp false c y (fun s l => if l % 2 = 0 then (s.vr c y.an l, false) else s.fit24 c (-(s.vr c y.an l))) s
/-- VSWAP. -/
def opVswap (c : Fin 17) (y : Syl) (s : State) : State :=
  vecOp false c y (fun s l => (if l % 2 = 0 then s.vr c y.an (l + 1) else s.vr c y.an (l - 1), false)) s
/-- VMAXX. -/
def opVmaxx (c : Fin 17) (y : Syl) (s : State) : State :=
  bestOp (fun a b => decide (b < a)) c y s
/-- VMINX. -/
def opVminx (c : Fin 17) (y : Syl) (s : State) : State :=
  bestOp (fun a b => decide (a < b)) c y s
/-- VMAXR. -/
def opVmaxr (c : Fin 17) (y : Syl) (s : State) : State :=
  runOp (fun a b => decide (b < a)) c y s
/-- VMINR. -/
def opVminr (c : Fin 17) (y : Syl) (s : State) : State :=
  runOp (fun a b => decide (a < b)) c y s
/-- VMOV. -/
def opVmov (c : Fin 17) (y : Syl) (s : State) : State :=
  vecOp false c y (fun s l => (s.vr c y.an l, false)) s

/-! ### The commands -/

/-- VADD (R255): Vector add per guarded lane. -/
def execVadd (c : Fin 17) (y : Syl) (s : State) : Host.Outcome State Fault Refusal :=
  .next (opVadd c y s)
/-- VSUB (R255): Vector subtract. -/
def execVsub (c : Fin 17) (y : Syl) (s : State) : Host.Outcome State Fault Refusal :=
  .next (opVsub c y s)
/-- VAND (R255): Vector bitwise AND. -/
def execVand (c : Fin 17) (y : Syl) (s : State) : Host.Outcome State Fault Refusal :=
  .next (opVand c y s)
/-- VOR (R255): Vector bitwise OR. -/
def execVor (c : Fin 17) (y : Syl) (s : State) : Host.Outcome State Fault Refusal :=
  .next (opVor c y s)
/-- VXOR (R255): Vector bitwise XOR. -/
def execVxor (c : Fin 17) (y : Syl) (s : State) : Host.Outcome State Fault Refusal :=
  .next (opVxor c y s)
/-- VMIN (R255): Vector signed minimum. -/
def execVmin (c : Fin 17) (y : Syl) (s : State) : Host.Outcome State Fault Refusal :=
  .next (opVmin c y s)
/-- VMAX (R255): Vector signed maximum. -/
def execVmax (c : Fin 17) (y : Syl) (s : State) : Host.Outcome State Fault Refusal :=
  .next (opVmax c y s)
/-- VABS (R255): Vector absolute value. -/
def execVabs (c : Fin 17) (y : Syl) (s : State) : Host.Outcome State Fault Refusal :=
  .next (opVabs c y s)
/-- VNEG (R255): Vector negate. -/
def execVneg (c : Fin 17) (y : Syl) (s : State) : Host.Outcome State Fault Refusal :=
  .next (opVneg c y s)
/-- VSHL (R255): Vector shift left. -/
def execVshl (c : Fin 17) (y : Syl) (s : State) : Host.Outcome State Fault Refusal :=
  .next (opVshl c y s)
/-- VSRA (R255): Vector rounding shift right. -/
def execVsra (c : Fin 17) (y : Syl) (s : State) : Host.Outcome State Fault Refusal :=
  .next (opVsra c y s)
/-- VCMP (R255): Vector compare into a predicate. -/
def execVcmp (c : Fin 17) (y : Syl) (s : State) : Host.Outcome State Fault Refusal :=
  .next (opVcmp c y s)
/-- VSEL (R255): Select lanes by the guard. -/
def execVsel (c : Fin 17) (y : Syl) (s : State) : Host.Outcome State Fault Refusal :=
  .next (opVsel c y s)
/-- VBCAST (R255): Broadcast a scalar into every lane. -/
def execVbcast (c : Fin 17) (y : Syl) (s : State) : Host.Outcome State Fault Refusal :=
  .next (opVbcast c y s)
/-- VINS (R255): Insert a scalar into one lane. -/
def execVins (c : Fin 17) (y : Syl) (s : State) : Host.Outcome State Fault Refusal :=
  .next (opVins c y s)
/-- VEXT (R255): Extract a lane chosen by an immediate. -/
def execVext (c : Fin 17) (y : Syl) (s : State) : Host.Outcome State Fault Refusal :=
  .next (opVext c y s)
/-- VEXTR (R255): Extract a lane chosen by a register. -/
def execVextr (c : Fin 17) (y : Syl) (s : State) : Host.Outcome State Fault Refusal :=
  .next (opVextr c y s)
/-- VROT (R255): Rotate lanes across two registers. -/
def execVrot (c : Fin 17) (y : Syl) (s : State) : Host.Outcome State Fault Refusal :=
  .next (opVrot c y s)
/-- VCONJ (R255): Complex conjugate of lane pairs. -/
def execVconj (c : Fin 17) (y : Syl) (s : State) : Host.Outcome State Fault Refusal :=
  .next (opVconj c y s)
/-- VSWAP (R255): Swap I and Q of lane pairs. -/
def execVswap (c : Fin 17) (y : Syl) (s : State) : Host.Outcome State Fault Refusal :=
  .next (opVswap c y s)
/-- VMAXX (R255): Index of the largest guarded lane. -/
def execVmaxx (c : Fin 17) (y : Syl) (s : State) : Host.Outcome State Fault Refusal :=
  .next (opVmaxx c y s)
/-- VMINX (R255): Index of the smallest guarded lane. -/
def execVminx (c : Fin 17) (y : Syl) (s : State) : Host.Outcome State Fault Refusal :=
  .next (opVminx c y s)
/-- VMAXR (R255): Running maximum with index. -/
def execVmaxr (c : Fin 17) (y : Syl) (s : State) : Host.Outcome State Fault Refusal :=
  .next (opVmaxr c y s)
/-- VMINR (R255): Running minimum with index. -/
def execVminr (c : Fin 17) (y : Syl) (s : State) : Host.Outcome State Fault Refusal :=
  .next (opVminr c y s)
/-- VMOV (R255): Vector move. -/
def execVmov (c : Fin 17) (y : Syl) (s : State) : Host.Outcome State Fault Refusal :=
  .next (opVmov c y s)

end Sys2Proof.Machine
end

