-- ==== Sys2Proof/Machine/Mac.lean ====
section
/-!
DEFINITION. Sys2Proof/Machine/Mac.lean: slot 2 of the Alnen core, multiply-accumulate and accumulator moves (R256, R257).
-/
namespace Sys2Proof.Machine
open Sys2Proof

/-- A 56-bit result under CSW.sat. -/
def State.fit56 (s : State) (c : Fin 17) (x : Int) : Int × Bool := fit 56 (s.cswSat c.val) x

/-- Results of lanes `ls` of accumulator `n`, with the overflow flag they set. -/
def accResults (n : Nat) (ls : List Nat) (f : Nat → Int × Bool) : List (Dst × Int) :=
  ls.map (fun l => (Dst.a n l, (f l).1)) ++ (if ls.any (fun l => (f l).2) then [(Dst.ovf, 1)] else [])

/-- Every lane of accumulator `n` is read, for interlocks: none, accumulators are exposed. -/
def State.guarded (s : State) (c : Fin 17) (y : Syl) : List Nat := (List.range 8).filter (s.guard c y)

/-- The accumulator operand: the latest value, results in flight included (R257). -/
def State.acc (s : State) (c : Fin 17) (y : Syl) (l : Nat) : Int := s.cores[c].accLatest y.dn l

/-- A slot-2 operation into accumulator d: the accumulator must be A0 to A7. -/
def macOp (c : Fin 17) (y : Syl) (f : State → Nat → Int × Bool) (s : State) : State :=
  issue c y (s.vLanes c y.an ++ s.vLanes c y.bn) (illegal (decide (7 < y.dn)))
    (fun s => produceR c y 2 3 (accResults y.dn (s.guarded c y) (f s)) s) s

/-- The complex product of lane pairs: the part that lane `l` takes. -/
def State.cmul (s : State) (c : Fin 17) (y : Syl) (l : Nat) : Int :=
  let i := l / 2 * 2
  let ai := s.vr c y.an i
  let aq := s.vr c y.an (i + 1)
  let bi := s.vr c y.bn i
  let bq := s.vr c y.bn (i + 1)
  if l % 2 = 0 then ai * bi - aq * bq else ai * bq + aq * bi

/-- The product with the conjugate of b. -/
def State.cmulJ (s : State) (c : Fin 17) (y : Syl) (l : Nat) : Int :=
  let i := l / 2 * 2
  let ai := s.vr c y.an i
  let aq := s.vr c y.an (i + 1)
  let bi := s.vr c y.bn i
  let bq := s.vr c y.bn (i + 1)
  if l % 2 = 0 then ai * bi + aq * bq else aq * bi - ai * bq

/-- A broadcast scalar as a 24-bit factor. -/
def State.scal (s : State) (c : Fin 17) (y : Syl) : Int × Bool := s.fit24 c (sgn32 (s.cores[c].rs y.bn))

/-- A multiply by a broadcast scalar; fitting the scalar may overflow. -/
def macS (add : Bool) (c : Fin 17) (y : Syl) (s : State) : State :=
  issue c y (.s y.bn :: s.vLanes c y.an) (illegal (decide (7 < y.dn))) (fun s =>
    let b := s.scal c y
    produceR c y 2 3 (accResults y.dn (s.guarded c y) (fun l =>
      let p := s.vr c y.an l * b.1
      let r := if add then s.fit56 c (s.acc c y l + p) else (p, false)
      (r.1, r.2 || b.2))) s) s

/-- The scaled value of an accumulator lane (R227). -/
def State.amov (s : State) (c : Fin 17) (n l : Nat) : Int := rne (s.cores[c].ra n l) (23 - s.cswScale c.val).toNat

/-- A sum of guarded lanes with parity `q` (2 = both). -/
def State.asum (s : State) (c : Fin 17) (y : Syl) (q : Nat) : Int :=
  ((s.guarded c y).filter (fun l => decide (q = 2) || decide (l % 2 = q))).foldl (fun t l => t + s.cores[c].ra y.an l) 0

/-- Bits of a raw accumulator lane: part 0, 1 or 2. -/
def rawPart (x : Int) (p : Nat) : Int :=
  let n := code 56 x
  match p with
  | 0 => signed 24 (n % 2 ^ 24) | 1 => signed 24 (n / 2 ^ 24 % 2 ^ 24) | _ => signed 8 (n / 2 ^ 48)

/-- A slot-2 operation that reads accumulators as landed and writes lanes `ls` of accumulator d. -/
def accOp (bad : Bool) (c : Fin 17) (y : Syl) (ls : State → List Nat) (f : State → Nat → Int × Bool) (s : State) : State :=
  issue c y [] (illegal (decide (7 < y.dn) || bad)) (fun s => produceR c y 2 3 (accResults y.dn (ls s) (f s)) s) s

/-- VMUL. -/
def opVmul (c : Fin 17) (y : Syl) (s : State) : State :=
  macOp c y (fun s l => (s.vr c y.an l * s.vr c y.bn l, false)) s
/-- VMAC. -/
def opVmac (c : Fin 17) (y : Syl) (s : State) : State :=
  macOp c y (fun s l => s.fit56 c (s.acc c y l + s.vr c y.an l * s.vr c y.bn l)) s
/-- VMSU. -/
def opVmsu (c : Fin 17) (y : Syl) (s : State) : State :=
  macOp c y (fun s l => s.fit56 c (s.acc c y l - s.vr c y.an l * s.vr c y.bn l)) s
/-- VMUL.C. -/
def opVmulC (c : Fin 17) (y : Syl) (s : State) : State :=
  macOp c y (fun s l => (s.cmul c y l, false)) s
/-- VMAC.C. -/
def opVmacC (c : Fin 17) (y : Syl) (s : State) : State :=
  macOp c y (fun s l => s.fit56 c (s.acc c y l + s.cmul c y l)) s
/-- VMAC.J. -/
def opVmacJ (c : Fin 17) (y : Syl) (s : State) : State :=
  macOp c y (fun s l => s.fit56 c (s.acc c y l + s.cmulJ c y l)) s
/-- VMUL.S. -/
def opVmulS (c : Fin 17) (y : Syl) (s : State) : State :=
  macS false c y s
/-- VMAC.S. -/
def opVmacS (c : Fin 17) (y : Syl) (s : State) : State :=
  macS true c y s
/-- VMUL.L. -/
def opVmulL (c : Fin 17) (y : Syl) (s : State) : State :=
  macOp c y (fun s l => (s.vr c y.an l * s.vr c y.bn (y.mn % 8), false)) s
/-- VMAC.L. -/
def opVmacL (c : Fin 17) (y : Syl) (s : State) : State :=
  macOp c y (fun s l => s.fit56 c (s.acc c y l + s.vr c y.an l * s.vr c y.bn (y.mn % 8))) s
/-- VMAC.P: even lanes. -/
def opVmacP (c : Fin 17) (y : Syl) (s : State) : State :=
  issue c y (s.vLanes c y.an) (illegal (decide (7 < y.dn))) (fun s =>
    produceR c y 2 3 (accResults y.dn ((s.guarded c y).filter (fun l => decide (l % 2 = 0))) (fun l =>
      let i := s.vr c y.an l
      let q := s.vr c y.an (l + 1)
      s.fit56 c (s.acc c y l + i * i + q * q))) s) s
/-- AMOV.V. -/
def opAmovV (c : Fin 17) (y : Syl) (s : State) : State :=
  issue c y [] (illegal (decide (7 < y.an))) (fun s =>
    let r := laneResults s c y y.dn (fun l => s.fit24 c (s.amov c y.an l))
    produceR c y 2 3 r s) s
/-- AMOV.S. -/
def opAmovS (c : Fin 17) (y : Syl) (s : State) : State :=
  issue c y [] (illegal (decide (7 < y.an))) (fun s =>
    let r := fit 32 (s.cswSat c.val) (s.amov c y.an (y.mn % 8))
    if s.guard0 c y then produceR c y 2 3 ((Dst.s y.dn, r.1) :: (if r.2 then [(Dst.ovf, 1)] else [])) s else s) s
/-- AMOV.R: raw bits; part 3 is illegal. -/
def opAmovR (c : Fin 17) (y : Syl) (s : State) : State :=
  issue c y [] (illegal (decide (7 < y.an) || decide (y.mn % 4 = 3))) (fun s =>
    produceR c y 2 3 (laneResults s c y y.dn (fun l => (rawPart (s.cores[c].ra y.an l) (y.mn % 4), false))) s) s
/-- ASET. -/
def opAset (c : Fin 17) (y : Syl) (s : State) : State :=
  macOp c y (fun s l => (s.vr c y.an l * 2 ^ 23, false)) s
/-- ACLR. -/
def opAclr (c : Fin 17) (y : Syl) (s : State) : State :=
  accOp false c y (fun s => s.guarded c y) (fun _ _ => (0, false)) s
/-- AADD. -/
def opAadd (c : Fin 17) (y : Syl) (s : State) : State :=
  accOp (decide (7 < y.an) || decide (7 < y.bn)) c y (fun s => s.guarded c y)
    (fun s l => s.fit56 c (s.cores[c].ra y.an l + s.cores[c].ra y.bn l)) s
/-- ASUM: every lane of Ad is written. -/
def opAsum (c : Fin 17) (y : Syl) (s : State) : State :=
  accOp (decide (7 < y.an)) c y (fun _ => List.range 8)
    (fun s l => if l = 0 then s.fit56 c (s.asum c y 2) else (0, false)) s
/-- ASUM.C: every lane of Ad is written. -/
def opAsumC (c : Fin 17) (y : Syl) (s : State) : State :=
  accOp (decide (7 < y.an)) c y (fun _ => List.range 8)
    (fun s l => if l < 2 then s.fit56 c (s.asum c y l) else (0, false)) s

/-! ### The commands -/

/-- VMUL (R256): Lane products into an accumulator. -/
def execVmul (c : Fin 17) (y : Syl) (s : State) : Host.Outcome State Fault Refusal :=
  .next (opVmul c y s)
/-- VMAC (R256): Multiply-accumulate. -/
def execVmac (c : Fin 17) (y : Syl) (s : State) : Host.Outcome State Fault Refusal :=
  .next (opVmac c y s)
/-- VMSU (R256): Multiply-subtract. -/
def execVmsu (c : Fin 17) (y : Syl) (s : State) : Host.Outcome State Fault Refusal :=
  .next (opVmsu c y s)
/-- VMUL_C (R256): Complex multiply into an accumulator. -/
def execVmulC (c : Fin 17) (y : Syl) (s : State) : Host.Outcome State Fault Refusal :=
  .next (opVmulC c y s)
/-- VMAC_C (R256): Complex multiply-accumulate. -/
def execVmacC (c : Fin 17) (y : Syl) (s : State) : Host.Outcome State Fault Refusal :=
  .next (opVmacC c y s)
/-- VMAC_J (R256): Multiply-accumulate with the conjugate of b. -/
def execVmacJ (c : Fin 17) (y : Syl) (s : State) : Host.Outcome State Fault Refusal :=
  .next (opVmacJ c y s)
/-- VMUL_S (R256): Multiply by a broadcast scalar. -/
def execVmulS (c : Fin 17) (y : Syl) (s : State) : Host.Outcome State Fault Refusal :=
  .next (opVmulS c y s)
/-- VMAC_S (R256): Multiply-accumulate by a broadcast scalar. -/
def execVmacS (c : Fin 17) (y : Syl) (s : State) : Host.Outcome State Fault Refusal :=
  .next (opVmacS c y s)
/-- VMUL_L (R256): Multiply by a broadcast lane. -/
def execVmulL (c : Fin 17) (y : Syl) (s : State) : Host.Outcome State Fault Refusal :=
  .next (opVmulL c y s)
/-- VMAC_L (R256): Multiply-accumulate by a broadcast lane. -/
def execVmacL (c : Fin 17) (y : Syl) (s : State) : Host.Outcome State Fault Refusal :=
  .next (opVmacL c y s)
/-- VMAC_P (R256): Accumulate complex power into even lanes. -/
def execVmacP (c : Fin 17) (y : Syl) (s : State) : Host.Outcome State Fault Refusal :=
  .next (opVmacP c y s)
/-- AMOV_V (R227): Scaled move of an accumulator to a vector. -/
def execAmovV (c : Fin 17) (y : Syl) (s : State) : Host.Outcome State Fault Refusal :=
  .next (opAmovV c y s)
/-- AMOV_S (R227): Scaled move of one accumulator lane to a scalar. -/
def execAmovS (c : Fin 17) (y : Syl) (s : State) : Host.Outcome State Fault Refusal :=
  .next (opAmovS c y s)
/-- AMOV_R (R256): Raw move of accumulator bits. -/
def execAmovR (c : Fin 17) (y : Syl) (s : State) : Host.Outcome State Fault Refusal :=
  .next (opAmovR c y s)
/-- ASET (R256): Set an accumulator from a vector times 2^23. -/
def execAset (c : Fin 17) (y : Syl) (s : State) : Host.Outcome State Fault Refusal :=
  .next (opAset c y s)
/-- ACLR (R256): Clear an accumulator. -/
def execAclr (c : Fin 17) (y : Syl) (s : State) : Host.Outcome State Fault Refusal :=
  .next (opAclr c y s)
/-- AADD (R256): Add two accumulators. -/
def execAadd (c : Fin 17) (y : Syl) (s : State) : Host.Outcome State Fault Refusal :=
  .next (opAadd c y s)
/-- ASUM (R256): Sum the guarded lanes into lane 0. -/
def execAsum (c : Fin 17) (y : Syl) (s : State) : Host.Outcome State Fault Refusal :=
  .next (opAsum c y s)
/-- ASUM_C (R256): Sum the even and odd guarded lanes into lanes 0 and 1. -/
def execAsumC (c : Fin 17) (y : Syl) (s : State) : Host.Outcome State Fault Refusal :=
  .next (opAsumC c y s)

end Sys2Proof.Machine
end

