-- ==== Sys2Proof/Machine/Dma.lean ====
section
/-!
DEFINITION. Sys2Proof/Machine/Dma.lean: the descriptor rings (R351 to R360).
-/
namespace Sys2Proof.Machine
open Sys2Proof

/-- The slot block of ring `r`, and its index there. -/
def ringBlk (r : Fin 256) : Blk := .dmaRings (r.val / 64)
/-- Index of a ring in its slot. -/
def ringIx (r : Fin 256) : Nat := r.val % 64

/-- A ring's own record. -/
def State.ring (s : State) (r : Fin 256) : RingSt := SMap.get (fun _ => .idle) s.host.rings r.val
/-- Replace it. -/
def State.setRing (s : State) (r : Fin 256) (x : RingSt) : State :=
  let m := SMap.set (fun _ => RingSt.idle) s.host.rings r.val x
  { s with host := { s.host with rings := m } }

/-- RING_STATUS.state. -/
def State.ringState (s : State) (r : Fin 256) : Nat := s.rd (ringBlk r) (R.RING_STATUS.state (ringIx r))
/-- Set RING_STATUS.state. -/
def setRingState (r : Fin 256) (v : Nat) (s : State) : State := s.wr (ringBlk r) (R.RING_STATUS.state (ringIx r)) v

/-- Report a RING_CTRL command. -/
def ringCmd (r : Fin 256) (cmd status : Nat) (s : State) : State :=
  (s.wr (ringBlk r) (R.RING_CTRL.last_cmd (ringIx r)) cmd).wr (ringBlk r) (R.RING_CTRL.last_status (ringIx r)) status

/-- The ring may work: DMA and its slot are enabled, the CORE clock runs, and host_out is not full (R18). -/
def State.ringLive (s : State) (r : Fin 256) : Bool := s.coreRuns && s.enabled .dma && s.enabled (ringBlk r) && !s.hostOutFull

/-! ### Commands of a ring (R351, R353, R359) -/

/-- The rings of slot `k`. -/
def slotRings (k : Nat) : List (Fin 256) := (List.range 64).map (fun j => Fin.ofNat 256 (64 * k + j))

/-- RING_CTRL.run samples the configuration and starts or continues the ring, or is refused. -/
def opRingRun (ring : Fin 256) (s : State) : State :=
  let b := ringBlk ring
  let i := ringIx ring
  let m := s.rd b (R.RING_BASE.log2n i)
  let base := s.rd b (R.RING_BASE.base i) * 512
  let cq := s.rd b (R.RING_CFG.cq i)
  if m < 4 ∨ 16 < m ∨ base % (32 * 2 ^ m) ≠ 0 ∨ s.cqOn cq = false then
    (ringCmd ring 1 2 s).fault .dma R.DMA_FAULT.ring_refused
  else
    let x := s.ring ring
    let tgt := s.flag b (R.RING_BASE.target i)
    let all_ := s.flag b (R.RING_CFG.waybill_all i)
    let s := s.setRing ring { x with base := base, target := tgt, log2n := m, cq := cq, waybillAll := all_ }
    let st := s.ringState ring
    ringCmd ring 1 0 (if st = 2 then s else setRingState ring 1 s)

/-- RING_TAIL is written; a waiting ring fetches again. -/
def opRingTail (ring : Fin 256) (tail : BitVec 16) (s : State) : State :=
  let s := s.wr (ringBlk ring) (R.RING_TAIL.tail (ringIx ring)) tail.toNat
  if s.ringState ring = 2 then setRingState ring 1 s else s

/-- RING_CTRL.resume continues a HALTED ring. -/
def opRingResume (ring : Fin 256) (s : State) : State :=
  if s.ringState ring = 4 then ringCmd ring 3 0 (setRingState ring 1 s) else ringCmd ring 3 2 s

/-! ### Fetching (R352, R353) -/

/-- The opcode of a descriptor. -/
def Desc.opcode (d : Desc) : Nat := nbits d.w0.toNat 7 0
/-- The length of a descriptor. -/
def Desc.len (d : Desc) : Nat := nbits d.w1.toNat 31 0
/-- The slice a descriptor names. -/
def Desc.slice (d : Desc) : Nat := nbits d.w0.toNat 20 16

/-- The opcodes of R355. -/
def knownOpcode (n : Nat) : Bool := decide (n ≤ 5) || decide (n = 14) || decide (n = 15)

/-- The ring's descriptor ends with a status and cause, `moved` bytes moved. -/
def ringOutcome (r : Fin 256) (status cause moved : Nat) (s : State) : State :=
  s.setRing r { s.ring r with phase := .performed, status := status, cause := cause, moved := moved }

/-- The ring's descriptor ends with a target error of its request to address `a`. -/
def ringTarget (r : Fin 256) (cause moved a : Nat) (s : State) : State :=
  let s := ringOutcome r 1 cause moved s
  s.setRing r { s.ring r with failAt := a }

/-- A failure the requests report. -/
def ReqResult.limit : ReqResult → Option (Nat × Nat)
  | .ok => none
  | .fail c g => some (g, c.val)

/-- The descriptor that `ring` fetches next: its address; none while the ring has nothing to fetch or may not. -/
def State.fetchAddr (s : State) (ring : Fin 256) : Option Nat :=
  let b := ringBlk ring
  let i := ringIx ring
  let x := s.ring ring
  let head := s.rd b (R.RING_STATUS.head i)
  let idle := x.chainPc.isNone && decide (head = s.rd b (R.RING_TAIL.tail i))
  if !s.ringLive ring || decide (s.ringState ring ≠ 1) || decide (x.phase ≠ .idle) || !x.out.isEmpty || idle
    || (!x.target && !s.flag .dma R.PCIE_STATUS.bus_master) then none
  else some (x.chainPc.getD (x.base + 32 * head))

/-- The fetch of the descriptor at `a` fails: TARGET on that descriptor, of whose words nothing is known (R357). -/
def fetchFails (ring : Fin 256) (a cause : Nat) (s : State) : State :=
  let x := s.ring ring
  let (bs, s) := freeBytes 32 s
  let w := fun k => BitVec.ofNat 64 (leNat ((bs.drop (8 * k)).take 8))
  let d : Desc := ⟨a, s.rd (ringBlk ring) (R.RING_STATUS.head (ringIx ring)), x.chainPc.isSome, w 0, w 1, w 2, w 3⟩
  ringTarget ring cause 0 a (s.setRing ring { x with desc := some d })

/-- A ring fetches its next descriptor; `result` = how the read of it ended. -/
def opDescriptorFetch (ring : Fin 256) (result : ReqResult) (s : State) : State :=
  match s.fetchAddr ring with
  | none => s
  | some a =>
    let b := ringBlk ring
    let x := s.ring ring
    let s := s.wr b (R.RING_DESC.addr (ringIx ring)) a
    if x.target ∧ s.dramIn a 32 = false then fetchFails ring a 4 s
    else match result.limit with
    | some (_, cause) => fetchFails ring a cause s
    | none =>
    if x.target && !s.dramOpen a 32 then s else
    let w := fun k => BitVec.ofNat 64 (leNat (s.targetRead x.target (a + 8 * k) 8))
    let d : Desc := ⟨a, s.rd b (R.RING_STATUS.head (ringIx ring)), x.chainPc.isSome, w 0, w 1, w 2, w 3⟩
    if x.target ∧ (s.firstBadLine a 32).isSome then fetchFails ring a 3 (checkLines a 32 s)
    else if nbit d.w0.toNat 63 = false then (setRingState ring 2 s).cnt b (R.RING_STATUS.not_owned (ringIx ring)) 1
    else
      let s := s.setRing ring { x with desc := some d, phase := .fetched, status := 0, cause := 0, moved := 0, crc := none }
      if knownOpcode d.opcode then s else ringOutcome ring 7 0 0 s

/-! ### Performing (R354, R355) -/

/-- One end of a transfer: its space, its address, and the slice for local memory. -/
structure DmaEnd where
  space : Nat
  addr : Nat
  slice : Nat
  deriving DecidableEq, Repr

/-- The source of a descriptor. -/
def Desc.src (d : Desc) : DmaEnd := ⟨nbits d.w0.toNat 9 8, d.w2.toNat, d.slice⟩
/-- The destination of a descriptor. -/
def Desc.dst (d : Desc) : DmaEnd := ⟨nbits d.w0.toNat 11 10, d.w3.toNat, d.slice⟩

/-- A slice is retired (R8). -/
def State.retired (s : State) (i : Nat) : Bool := nbit (s.rd .global R.DEVICE_STATE.slice_retired) i

/-- The ACCESS cases of R355. -/
def State.endDenied (s : State) (e : DmaEnd) (n : Nat) (write : Bool) : Bool :=
  match e.space with
  | 2 => decide (secureBase < e.addr + n) || (write && decide (e.addr < s.hostBase))
  | 3 => decide (0x800000 < e.addr + n) || decide (16 < e.slice) || s.retired e.slice
  | _ => false

/-- Where requests at one end start to fail, with the cause: beyond the device space, or at an uncorrectable error of a
source. -/
def State.endLimit (s : State) (e : DmaEnd) (n : Nat) (write : Bool) : Option (Nat × Nat) :=
  match e.space with
  | 1 =>
    if !s.dramIn e.addr n then some (s.dramSpace - e.addr, 4)
    else if write then none else (s.firstBadLine e.addr n).map (fun w => (w - e.addr, 3))
  | 2 => if write then none else (s.firstBad .depot e.addr n).map (fun w => (w - e.addr, 3))
  | 3 => if write then none else (s.firstBad (.lmem (Fin.ofNat 17 e.slice)) e.addr n).map (fun w => (w - e.addr, 3))
  | _ => none

/-- A transfer that ends with limit `lim` has met the uncorrectable error of its source: the memory counts and logs it (R318, R334). -/
def sourceError (e : DmaEnd) (n : Nat) (lim : Option (Nat × Nat)) (s : State) : State :=
  if lim.isNone || decide (lim ≠ s.endLimit e n false) || (match lim with | some (_, c) => decide (c ≠ 3) | none => true) then s
  else match e.space with
    | 1 => checkLines e.addr n s
    | 2 => checkRead .depot e.addr n 1 s
    | 3 => checkRead (.lmem (Fin.ofNat 17 e.slice)) e.addr n 1 s
    | _ => s

/-- Read `n` bytes at one end. -/
def State.endRead (s : State) (e : DmaEnd) (n : Nat) : List Byte :=
  match e.space with
  | 0 => memRead s.host.mem e.addr n
  | 1 => s.dramRead e.addr n
  | 2 => s.sramRead .depot e.addr n
  | _ => s.sramRead (.lmem (Fin.ofNat 17 e.slice)) e.addr n

/-- Write bytes at one end. -/
def endWrite (e : DmaEnd) (bs : List Byte) (s : State) : State :=
  match e.space with
  | 0 => s.toHost (.write e.addr bs)
  | 1 => dramWrite e.addr bs s
  | 2 => sramWrite .depot e.addr (bs.map some) s
  | _ => sramWrite (.lmem (Fin.ofNat 17 e.slice)) e.addr (bs.map some) s

/-- The earlier of two limits. -/
def minLimit : Option (Nat × Nat) → Option (Nat × Nat) → Option (Nat × Nat)
  | some a, some b => if a.1 ≤ b.1 then some a else some b
  | some a, none => some a
  | none, b => b

/-- The address of the request that fails after `g` bytes: of the source where a read of it fails, else of the destination. -/
def failAddr (src : Option DmaEnd) (dst : DmaEnd) (atDst : Bool) (g : Nat) : Nat :=
  match src with
  | some e => if atDst then dst.addr + g else e.addr + g
  | none => dst.addr + g

/-- Move data: `bytes` gives the data of a length, written to `dst` up to the first failure; what lies beyond it within the
length is undefined (R354). -/
def dmaMove (r : Fin 256) (n : Nat) (bytes : List Byte) (src : Option DmaEnd) (dst : DmaEnd) (lim : Option (Nat × Nat))
    (s : State) : State :=
  match lim with
  | none => ringOutcome r 0 0 n (endWrite dst bytes s)
  | some (g, cause) =>
    let g := min g n
    let bad := failAddr src dst (decide (s.endLimit dst n true = lim)) g
    let s := endWrite dst (bytes.take g) s
    let room := match s.endLimit dst n true with
      | some (w, _) => min w n
      | none => n
    let (junk, s) := freeBytes (room - g) s
    ringTarget r cause g bad (endWrite { dst with addr := dst.addr + g } junk s)

/-- Unaligned to 8. -/
def odd8 (a : Nat) : Bool := decide (a % 8 ≠ 0)

/-- The opcode reads a source with non-posted requests: COPY, CHECK, PROGRAM_LOAD. -/
def readsSource (op : Nat) : Bool := decide (op = 1) || decide (op = 4) || decide (op = 5)

/-- The opcode writes the destination: COPY, FILL, WRITE_IMM. -/
def writesDest (op : Nat) : Bool := decide (1 ≤ op) && decide (op ≤ 3)

/-- The requests to a descriptor's source have been issued: those to host memory wait for Bus Master Enable (R350). -/
def State.srcIssued (s : State) (d : Desc) : Bool :=
  !readsSource d.opcode || decide (d.src.space ≠ 0) || s.flag .dma R.PCIE_STATUS.bus_master

/-- The DRAM channels a descriptor reads serve requests (R17). -/
def State.srcOpen (s : State) (d : Desc) : Bool :=
  !readsSource d.opcode || decide (d.src.space ≠ 1) || !s.dramIn d.src.addr d.len || s.dramOpen d.src.addr d.len

/-- The DRAM channels a descriptor writes have room in mem_wr (R18). -/
def State.dstOpen (s : State) (d : Desc) : Bool :=
  !writesDest d.opcode || decide (d.dst.space ≠ 1) || !s.dramIn d.dst.addr d.len || !s.dramStalls d.dst.addr d.len

/-- A descriptor's requests can end with result `q` now: they are issued, and what is read is answered unless it fails. -/
def State.dmaOpen (s : State) (d : Desc) (q : ReqResult) : Bool :=
  s.srcIssued d && (s.srcOpen d || q.limit.isSome) && s.dstOpen d

/-- Perform a transfer descriptor, for the requests' own result `q`. -/
def dmaPerform (r : Fin 256) (d : Desc) (q : ReqResult) (s : State) : State :=
  let n := d.len
  let lim := fun (s : State) (src dst : Bool) => minLimit q.limit (minLimit
    (if src then s.endLimit d.src n false else none) (if dst then s.endLimit d.dst n true else none))
  match d.opcode with
  | 0 => ringOutcome r 0 0 0 s
  | 1 =>
    if n = 0 then ringOutcome r 0 0 0 s
    else if odd8 n || odd8 d.src.addr || odd8 d.dst.addr then ringOutcome r 2 0 0 s
    else if s.endDenied d.src n false || s.endDenied d.dst n true then ringOutcome r 8 0 0 s
    else dmaMove r n (s.endRead d.src n) (some d.src) d.dst (lim s true true) (sourceError d.src n (lim s true true) s)
  | 2 =>
    if n = 0 then ringOutcome r 0 0 0 s
    else if odd8 n || odd8 d.dst.addr then ringOutcome r 2 0 0 s
    else if s.endDenied d.dst n true then ringOutcome r 8 0 0 s
    else dmaMove r n ((List.range (n / 8)).flatMap (fun _ => leBytes 8 d.w2.toNat)) none d.dst (lim s false true) s
  | 3 =>
    if n = 0 then ringOutcome r 0 0 0 s
    else if (n ≠ 4 ∧ n ≠ 8) ∨ d.dst.addr % n ≠ 0 then ringOutcome r 2 0 0 s
    else if s.endDenied d.dst n true then ringOutcome r 8 0 0 s
    else dmaMove r n (leBytes n d.w2.toNat) none d.dst (lim s false true) s
  | 4 =>
    if n = 0 then ringOutcome r 0 0 0 s
    else if odd8 n || odd8 d.src.addr then ringOutcome r 2 0 0 s
    else if s.endDenied d.src n false then ringOutcome r 8 0 0 s
    else match lim s true false with
      | some (g, cause) => ringTarget r cause (min g n) (d.src.addr + min g n) (sourceError d.src n (some (g, cause)) s)
      | none =>
        let (s, v) := checkUnit 61 (nbits d.w0.toNat 15 14) (s.endRead d.src n) s
        let s := s.setRing r { s.ring r with crc := some (BitVec.ofNat 64 v) }
        ringOutcome r (if nbit d.w0.toNat 21 && decide (v ≠ d.w3.toNat) then 4 else 0) 0 n s
  | 5 =>
    if 1 < d.src.space then ringOutcome r 7 0 0 s
    else if n = 0 then ringOutcome r 0 0 0 s
    else if odd8 n || odd8 d.src.addr then ringOutcome r 2 0 0 s
    else if 16 < d.slice ∨ s.retired d.slice then ringOutcome r 8 0 0 s
    else if 0x400000 < n then ringOutcome r 5 0 0 (s.wr (.core d.slice) R.CORE_IMAGE.load_status 7)
    else match lim s true false with
      | some (g, cause) => ringTarget r cause 0 (d.src.addr + min g n) (sourceError d.src n (some (g, cause)) s)
      | none =>
        let (s, ok) := loadImage (Fin.ofNat 17 d.slice) (s.endRead d.src n) s
        ringOutcome r (if ok then 0 else 5) 0 (if ok then n else 0) s
  | _ => s

/-- The transfer descriptors, which reset the count of links (R356). -/
def isTransfer (n : Nat) : Bool := decide (1 ≤ n) && decide (n ≤ 5)

/-- A fetched descriptor with opcode `op` is performed. -/
def performIf (op : Nat) (r : Fin 256) (q : ReqResult) (s : State) : State :=
  let x := s.ring r
  match x.desc with
  | none => s
  | some d =>
    if !s.ringLive r || decide (x.phase ≠ .fetched) || decide (d.opcode ≠ op) || (isTransfer op && !s.dmaOpen d q) then s
    else
      let s := if isTransfer op then s.wr (ringBlk r) (R.RING_STATUS.link_count (ringIx r)) 0 else s
      dmaPerform r d q s

/-- Descriptor NOP. -/
def opDmaNop (ring : Fin 256) (result : ReqResult) (s : State) : State := performIf 0 ring result s
/-- Descriptor COPY. -/
def opCopy (ring : Fin 256) (result : ReqResult) (s : State) : State := performIf 1 ring result s
/-- Descriptor FILL. -/
def opFill (ring : Fin 256) (result : ReqResult) (s : State) : State := performIf 2 ring result s
/-- Descriptor WRITE_IMM. -/
def opWriteImm (ring : Fin 256) (result : ReqResult) (s : State) : State := performIf 3 ring result s
/-- Descriptor CHECK. -/
def opDmaCheck (ring : Fin 256) (result : ReqResult) (s : State) : State := performIf 4 ring result s
/-- Descriptor PROGRAM_LOAD. -/
def opProgramLoad (ring : Fin 256) (result : ReqResult) (s : State) : State := performIf 5 ring result s

/-! ### Completion (R349, R354, R357, R362) -/

/-- The waybill of a descriptor. -/
def descWaybill (r : Fin 256) (d : Desc) (status cause moved : Nat) : Waybill :=
  let b0 := [1, 0, BitVec.ofNat 8 status, BitVec.ofNat 8 r.val]
  let bytes := b0 ++ leBytes 2 d.index ++ leBytes 2 (nbits d.w0.toNat 47 32) ++ leBytes 4 moved ++ leBytes 4 cause
    ++ leBytes 8 d.addr ++ leBytes 4 d.len ++ leBytes 2 d.opcode ++ [0, 0]
  ⟨bytes, nbit d.w0.toNat 12 || decide (status ≠ 0)⟩

/-- Write a descriptor back in place, with own = 0, and queue the waybill R352 requires. -/
def writeBack (r : Fin 256) (d : Desc) (status cause moved : Nat) (crc : Option Word) (s : State) : State :=
  let x := s.ring r
  let t := x.target
  let s := targetWrite t (d.addr + 8) (leBytes 8 (d.len + 2 ^ 32 * (moved % 2 ^ 32))) s
  let s := match crc with
    | some v => targetWrite t (d.addr + 24) (leBytes 8 v.toNat) s
    | none => s
  let w0 := d.w0.toNat % 2 ^ 48 + 2 ^ 48 * status + 2 ^ 52 * cause + 2 ^ 56 * nbits d.w0.toNat 62 56
  let s := targetWrite t d.addr (leBytes 8 w0) s
  let b := ringBlk r
  let i := ringIx r
  let s := (s.cnt b (R.RING_COUNTS.completed i) 1).cnt .dma R.DMA_COUNTS.descriptors 1
  let s := if status = 0 ∨ status = 6 then s else s.cnt b (R.RING_COUNTS.errors i) 1
  let s := (s.cnt b (R.RING_BYTES.count i) moved).cnt .dma R.DMA_BYTES.count moved
  if status ≠ 0 ∨ nbit d.w0.toNat 13 ∨ x.waybillAll then
    s.setRing r { s.ring r with out := (s.ring r).out ++ [descWaybill r d status cause moved] }
  else s

/-- The DMA_FAULT bit of a halting status. -/
def haltFault (status : Nat) : Fld :=
  match status with
  | 1 => R.DMA_FAULT.target | 2 => R.DMA_FAULT.align | 3 => R.DMA_FAULT.loop | 7 => R.DMA_FAULT.opcode
  | _ => R.DMA_FAULT.access

/-- What a status does to its ring (R357). -/
def ringAfter (r : Fin 256) (d : Desc) (status cause : Nat) (s : State) : State :=
  let b := ringBlk r
  let i := ringIx r
  if status = 0 ∨ status = 4 ∨ status = 5 then s
  else if status = 6 then setRingState r 3 s
  else
    let s := (setRingState r 4 s).wr b (R.RING_STATUS.last_error i) status
    let s := (s.wr b (R.RING_STATUS.last_cause i) cause).cnt .dma R.DMA_COUNTS.halts 1
    let s := if status = 1 then s.cnt .dma R.DMA_COUNTS.target_errors 1 else s
    let s := ((s.wr .dma R.DMA_LAST_FAULT.ring r.val).wr .dma R.DMA_LAST_FAULT.status status).wr .dma R.DMA_LAST_FAULT.cause cause
    let s := (s.wr .dma R.DMA_LAST_FAULT.index d.index).wr .dma R.DMA_LAST_FAULT.address
      (if status = 1 then (s.ring r).failAt else d.addr)
    s.fault .dma (haltFault status)

/-- The ring moves past a descriptor: on in its chain, or to the next ring index. -/
def ringPast (r : Fin 256) (s : State) : State :=
  let x := s.ring r
  match x.chainPc with
  | some a => s.setRing r { x with chainPc := some (a + 32), phase := .idle, desc := none }
  | none =>
    let f := R.RING_STATUS.head (ringIx r)
    (s.setRing r { x with phase := .idle, desc := none }).wr (ringBlk r) f ((s.rd (ringBlk r) f + 1) % 2 ^ x.log2n)

/-- The descriptor in progress ends: write-back, waybill, the ring's state, head. -/
def ringFinish (r : Fin 256) (s : State) : State :=
  let x := s.ring r
  match x.desc with
  | none => s
  | some d => ringPast r (ringAfter r d x.status x.cause (writeBack r d x.status x.cause x.moved x.crc s))

/-- Waybills that wait are written as their queue has room. -/
def ringWaybills (r : Fin 256) : Nat → Op
  | 0, s => s
  | n + 1, s =>
    let x := s.ring r
    match x.out with
    | [] => s
    | w :: ws =>
      if s.cqRoom x.cq then ringWaybills r n (cqPush x.cq w (s.setRing r { x with out := ws, waited := false }))
      else if x.waited then s else cqStall x.cq (s.setRing r { x with waited := true })

/-- The data of a finished transfer went to a peer window, so that a flush read comes first (R349). -/
def State.needsFlush (s : State) (d : Desc) (moved : Nat) : Bool :=
  writesDest d.opcode && decide (d.dst.space = 0) && (s.peerLine d.dst.addr moved).isSome

/-- A descriptor's requests have finished. -/
def opDescriptorComplete (ring : Fin 256) (s : State) : State :=
  let x := s.ring ring
  match x.desc with
  | none => s
  | some d =>
    if !s.ringLive ring || decide (x.phase ≠ .performed) then s
    else if s.needsFlush d x.moved then
      (s.setRing ring { x with phase := .flushing }).cnt .dma R.DMA_COUNTS2.flush_reads 1
    else ringWaybills ring 2 (ringFinish ring s)

/-- A stop that has waited for the descriptor's end applies, unless the ring has halted (R359, R360). -/
def ringStopped (r : Fin 256) (s : State) : State :=
  if !(s.ring r).stopping then s
  else
    let s := s.setRing r { s.ring r with stopping := false }
    let s := s.wr (ringBlk r) (R.RING_CTRL.last_status (ringIx r)) 0
    if s.ringState r = 4 then s else setRingState r 3 s

/-- The flush read of a ring completes; a failure is a target error of the write. -/
def ringFlushed (r : Fin 256) (ok : Bool) (s : State) : State :=
  let x := s.ring r
  if x.phase ≠ .flushing then s
  else
    let s := if ok then s else
      let d := x.desc.getD ⟨0, 0, false, 0, 0, 0, 0⟩
      s.setRing r { x with status := 1, cause := 0, failAt := (s.peerLine d.dst.addr x.moved).getD d.dst.addr }
    ringStopped r (ringWaybills r 2 (ringFinish r s))

/-- A non-posted request of a ring is not completed in time: TARGET, cause 0, after `good` bytes. It is the read of a descriptor, a read of
the source, or a flush read; one that has not been issued cannot time out (R350, R358). -/
def opCompletionTimeout (ring : Fin 256) (good : Nat) (s : State) : State :=
  let x := s.ring ring
  match x.phase with
    | .idle => opDescriptorFetch ring (.fail 0 0) s
    | .fetched => match x.desc with
      | some d => if readsSource d.opcode then performIf d.opcode ring (.fail 0 good) s else s
      | none => s
    | .flushing => if s.flag .dma R.PCIE_STATUS.bus_master then ringFlushed ring false s else s
    | _ => s

/-! ### Links (R356) -/

/-- Descriptor LINK: the fetch address moves; the sixteenth in a row halts the ring. -/
def opDmaLink (ring : Fin 256) (result : ReqResult) (s : State) : State :=
  let x := s.ring ring
  match x.desc with
  | none => s
  | some d =>
    if !s.ringLive ring || decide (x.phase ≠ .fetched) || decide (d.opcode ≠ 15) then s
    else
      let f := R.RING_STATUS.link_count (ringIx ring)
      let n := s.rd (ringBlk ring) f + 1
      let s := s.wr (ringBlk ring) f (min n 15)
      match result.limit with
      | some (_, cause) => ringWaybills ring 2 (ringFinish ring (ringTarget ring cause 0 d.addr s))
      | none =>
        if 16 ≤ n then ringWaybills ring 2 (ringFinish ring (ringOutcome ring 3 0 0 s))
        else if d.w2.toNat % 32 ≠ 0 then ringWaybills ring 2 (ringFinish ring (ringOutcome ring 2 0 0 s))
        else if d.inChain then
          let s := writeBack ring d 0 0 0 none s
          ringWaybills ring 2 (s.setRing ring { s.ring ring with chainPc := some d.w2.toNat, phase := .idle, desc := none })
        else
          let s := s.wr (ringBlk ring) (R.RING_STATUS.in_chain (ringIx ring)) 1
          s.setRing ring { x with chainPc := some d.w2.toNat, chainLink := some d, phase := .idle, desc := none }

/-- Descriptor RETURN: the chain ends and the ring's LINK is written back; outside a chain, OPCODE. -/
def opDmaReturn (ring : Fin 256) (result : ReqResult) (s : State) : State :=
  let x := s.ring ring
  match x.desc with
  | none => s
  | some d =>
    if !s.ringLive ring || decide (x.phase ≠ .fetched) || decide (d.opcode ≠ 14) then s
    else match result.limit, x.chainLink with
      | some (_, cause), _ => ringWaybills ring 2 (ringFinish ring (ringTarget ring cause 0 d.addr s))
      | none, none => ringWaybills ring 2 (ringFinish ring (ringOutcome ring 7 0 0 s))
      | none, some l =>
        let s := writeBack ring l 0 0 0 none (writeBack ring d 0 0 0 none s)
        let s := s.wr (ringBlk ring) (R.RING_STATUS.in_chain (ringIx ring)) 0
        let s := s.setRing ring { s.ring ring with chainPc := none, chainLink := none }
        ringWaybills ring 2 (ringPast ring s)

/-- RING_CTRL.stop (R359): a descriptor in progress is withdrawn after `movedBytes` bytes, with `bursts` read requests issued
beyond the stop; a descriptor that has ended completes first. -/
def opRingStop (ring : Fin 256) (bursts movedBytes : Nat) (s : State) : State :=
  let x := s.ring ring
  let st := s.ringState ring
  let stopped := fun (s : State) => if s.ringState ring = 4 then s else setRingState ring 3 s
  let s := ringCmd ring 2 0 s
  match x.phase, x.desc with
  | .idle, _ => if st = 4 then s else setRingState ring 3 s
  | .fetched, some d =>
    let s := (s.cnt (ringBlk ring) (R.RING_COUNTS.withdrawn_bursts (ringIx ring)) bursts).cnt .dma
      R.DMA_COUNTS2.withdrawn_bursts bursts
    let n := min movedBytes d.len
    let s := if (d.opcode = 1 ∨ d.opcode = 2 ∨ d.opcode = 3) ∧ s.endDenied d.dst d.len true = false
          ∧ (d.opcode ≠ 1 ∨ s.endDenied d.src d.len false = false) then
        let bytes := if d.opcode = 1 then s.endRead d.src n else
          ((List.range (n / 8 + 1)).flatMap (fun _ => leBytes 8 d.w2.toNat)).take n
        endWrite d.dst bytes s
      else s
    ringWaybills ring 2 (ringFinish ring (ringOutcome ring 6 0 n s))
  | .performed, some d =>
    if s.needsFlush d x.moved then
      -- the write's flush read comes first (R349); the stop applies after the descriptor's end
      let s := (s.setRing ring { x with phase := .flushing, stopping := true }).cnt .dma R.DMA_COUNTS2.flush_reads 1
      ringCmd ring 2 1 s
    else stopped (ringWaybills ring 2 (ringFinish ring s))
  | .flushing, some _ => ringCmd ring 2 1 (s.setRing ring { x with stopping := true })
  | _, _ => stopped (ringWaybills ring 2 (ringFinish ring s))

/-- Endpoint reset: every ring goes to HALTED; a descriptor in progress fails with TARGET, cause 5, and a ring whose descriptors lie in DRAM
writes it back (R350, R357). -/
def ringsReset (s : State) : State :=
  s.each (List.finRange 256) (fun r st =>
    let x := st.ring r
    let st := match x.desc with
      | some d =>
        let st := st.setRing r { x with failAt := d.dst.addr + x.moved, stopping := false }
        let st := if x.target then writeBack r d 1 5 x.moved none st else st
        ringPast r (ringAfter r d 1 5 st)
      | none => st
    setRingState r 4 st)

/-- A quiesce of DMA or of a ring slot stops its rings (R359). -/
def ringsStop (rs : List (Fin 256)) (s : State) : State :=
  s.each rs (fun r st => if st.ringState r = 0 ∨ st.ringState r = 4 then st else opRingStop r 0 (st.ring r).moved st)

/-! ### The commands -/

/-- RING_TAIL (R353): A RING_TAIL write hands descriptors to a ring and re-fetches a descriptor that was not owned. -/
def execRingTail (ring : Fin 256) (tail : BitVec 16) (s : State) : Host.Outcome State Fault Refusal :=
  .next (onWrite (opRingTail ring tail) s)
/-- RING_RUN (R351): RING_CTRL.run samples the ring configuration and starts or continues the ring, or is refused. -/
def execRingRun (ring : Fin 256) (s : State) : Host.Outcome State Fault Refusal :=
  .next (onWrite (opRingRun ring) s)
/-- RING_STOP (R359): RING_CTRL.stop withdraws the descriptor in progress and stops the ring. -/
def execRingStop (ring : Fin 256) (bursts : Nat) (movedBytes : Nat) (s : State) : Host.Outcome State Fault Refusal :=
  .next (onWrite (opRingStop ring bursts movedBytes) s)
/-- RING_RESUME (R359): RING_CTRL.resume continues a HALTED ring at head. -/
def execRingResume (ring : Fin 256) (s : State) : Host.Outcome State Fault Refusal :=
  .next (onWrite (opRingResume ring) s)
/-- DESCRIPTOR_FETCH (R353): A ring fetches descriptor head, and waits in WAIT if own is 0. -/
def execDescriptorFetch (ring : RingFetch) (s : State) : Host.Outcome State Fault Refusal :=
  .next (opDescriptorFetch ring.ring ring.result s)
/-- DMA_NOP (R355): Descriptor opcode 0x00 moves nothing. -/
def execDmaNop (ring : Fin 256) (result : ReqResult) (s : State) : Host.Outcome State Fault Refusal :=
  .next (opDmaNop ring result s)
/-- COPY (R355): Descriptor COPY moves length bytes between spaces. -/
def execCopy (ring : Fin 256) (result : ReqResult) (s : State) : Host.Outcome State Fault Refusal :=
  .next (opCopy ring result s)
/-- FILL (R355): Descriptor FILL repeats a pattern over the destination. -/
def execFill (ring : Fin 256) (result : ReqResult) (s : State) : Host.Outcome State Fault Refusal :=
  .next (opFill ring result s)
/-- WRITE_IMM (R355): Descriptor WRITE_IMM writes 4 or 8 immediate bytes. -/
def execWriteImm (ring : Fin 256) (result : ReqResult) (s : State) : Host.Outcome State Fault Refusal :=
  .next (opWriteImm ring result s)
/-- CHECK (R355): Descriptor CHECK computes a CRC with check unit 61 and optionally compares it. -/
def execDmaCheck (ring : Fin 256) (result : ReqResult) (s : State) : Host.Outcome State Fault Refusal :=
  .next (opDmaCheck ring result s)
/-- PROGRAM_LOAD (R244): Descriptor PROGRAM_LOAD verifies a program image and loads it into a slice, or is refused. -/
def execProgramLoad (ring : Fin 256) (result : ReqResult) (s : State) : Host.Outcome State Fault Refusal :=
  .next (opProgramLoad ring result s)
/-- RETURN (R356): Descriptor RETURN ends a chain and writes back its LINK. -/
def execDmaReturn (ring : Fin 256) (result : ReqResult) (s : State) : Host.Outcome State Fault Refusal :=
  .next (opDmaReturn ring result s)
/-- LINK (R356): Descriptor LINK moves the fetch address, and the sixteenth in a row halts the ring with LOOP. -/
def execDmaLink (ring : Fin 256) (result : ReqResult) (s : State) : Host.Outcome State Fault Refusal :=
  .next (opDmaLink ring result s)
/-- DESCRIPTOR_COMPLETE (R354): A descriptor's requests finish; word 1, word 3 and word 0 are written back, the waybill follows, and head advances. -/
def execDescriptorComplete (ring : Fin 256) (s : State) : Host.Outcome State Fault Refusal :=
  .next (opDescriptorComplete ring s)
/-- COMPLETION_TIMEOUT (R358): A non-posted request is not completed within cpl_timeout and fails with TARGET cause 0. -/
def execCompletionTimeout (ring : Fin 256) (good : Nat) (s : State) : Host.Outcome State Fault Refusal :=
  .next (opCompletionTimeout ring good s)

end Sys2Proof.Machine
end

