-- ==== Sys2Proof/Machine/Epoch.lean ====
section
/-!
DEFINITION. Sys2Proof/Machine/Epoch.lean: epoch maps in use: time-stamping input samples and pairing EPOCH reports
(R290 to R294).
-/
namespace Sys2Proof.Machine
open Sys2Proof

/-- Word `w` of declaration entry `i`. -/
def State.declWord (s : State) (i w : Nat) : Nat := s.rdw .placement (0x2000 + 0x40 * i + 8 * w)

/-- The declaration entry of stream context `c`, if the context is in use. -/
def State.streamEntry (s : State) (c : Nat) : Option Nat :=
  if s.flag .placement (R.PL_STREAM.valid c) then some (s.rd .placement (R.PL_STREAM.entry c)) else none

/-- The declared sample rate of stream context `c`, at least 1. -/
def State.streamRate (s : State) (c : Nat) : Nat :=
  match s.streamEntry c with
  | some e => max 1 (s.declWord e 1 % 2 ^ 40)
  | none => 1

/-- The index of the front-end latency constant of stream context `c`. -/
def State.streamFe (s : State) (c : Nat) : Nat :=
  match s.streamEntry c with
  | some e => s.declWord e 2 % 256
  | none => 0

/-- The slices that receive stream context `c` (PL_STREAM). -/
def State.consumers (s : State) (c : Nat) : List Nat :=
  if s.flag .placement (R.PL_STREAM.valid c) then
    (List.range 17).filter (nbit (s.rd .placement (R.PL_STREAM.consumers c)))
  else []

/-- T96(n) of a context in units: the map's time; while UNMAPPED, the last stamped sample extrapolated at T_in. -/
def State.sampleTime (s : State) (c n : Nat) : Int :=
  let m := s.map c
  if m.state = 0 then
    match m.last with
    | some l => ({ l with } : MapBase).at_ (s.streamRate c) n
    | none => s.tim.now
  else m.time n

/-- After sample `l.n` has been stamped: a slew that the new map has met ends (R294). -/
def EpochMap.stamped (m : EpochMap) (l : MapBase) : EpochMap :=
  match m.slew with
  | some b =>
    if b.slewAt m.rate l.n ≤ m.base.at_ m.rate l.n then { m with last := some l, slew := none, state := 1 }
    else { m with last := some l }
  | none => { m with last := some l }

/-- Stamp `count` samples from index `n`, whose row came at `at1` (the first sample's first bit at `at0`): their times, and
the map after them. -/
def stampGo (m : EpochMap) (n : Nat) (at0 at1 : Int) : Nat → EpochMap × List Int
  | 0 => (m, [])
  | k + 1 =>
    let t := if m.state = 0 then at0 else m.time n
    let (m', ts) := stampGo (m.stamped ⟨t, n⟩) (n + 1) at1 at1 k
    (m', t :: ts)

/-- Time-stamp samples of context `c` (R291, R294). -/
def stampRow (c n count at0 at1 : Nat) (s : State) : State × List Int :=
  let (m, ts) := stampGo (s.map c) n at0 at1 count
  (s.setMap c m, ts)

/-- A new run of a stream: its map is UNMAPPED again (R294). -/
def mapNewRun (c : Nat) (s : State) : State :=
  let m := s.map c
  s.setMap c { m with state := 0, slew := none, last := none, rate := s.streamRate c }

/-- The quality bits of a sample-domain T96 of context `c` (R293). -/
def State.sampleQ (s : State) (c : Nat) : Nat := if (s.map c).state = 1 then s.quality else 0

/-- The bound B_s of context `c` (R292, R293). -/
def State.sampleBound (s : State) (c : Nat) : Nat :=
  if (s.map c).state = 1 then
    -- ⌈(T_in + 0.5 ns) / 0.25 ns⌉ with T_in = 10^9 / rate ns
    min 0xFFFF (s.bTb + (s.map c).unc + ceilDiv (8000000000 + 4 * s.streamRate c) (2 * s.streamRate c))
  else 0xFFFF

/-- The part of the bound R143 takes as the timebase bound at the instant: B_tb + u_L, 0xFFFF unless MAPPED. -/
def State.instantBound (s : State) (c : Nat) : Nat :=
  if (s.map c).state = 1 then min 0xFFFF (s.bTb + (s.map c).unc) else 0xFFFF

/-- The ALIGN period of rate code `r` in units of 2^-16 ns: 16,384 block times of 2.5, 10/3, 5 or 10 ns (R48). -/
def alignPeriod (r : Nat) : Nat :=
  match r with
  | 0 => 40960 * 65536
  | 1 => 16384 * 10 * 65536 / 3
  | 2 => 81920 * 65536
  | _ => 163840 * 65536

/-- An EPOCH report of context `c` names index `n`; it came on a group of rate code `r` (R290, R291, R294). -/
def pairEpoch (c n r : Nat) (s : State) : State :=
  let m := s.map c
  let fits := match s.tim.edgeAt with
    | some e => decide (e ≤ s.tim.now ∧ s.tim.now ≤ e + 2 * alignPeriod r + 65536000)
    | none => false
  if s.wedged .timebase then s
  else if !fits || decide (m.pairedEdge = s.tim.edgeSerial) then s.cnt .timebase R.TB_COUNTS.stray_epochs 1 else
  let te := s.tim.edgeAt.getD 0
  let fe := s.streamFe c
  let rate := s.streamRate c
  let base : MapBase := ⟨(te : Int) + s.trustValue fe, n⟩
  let m' := { m with base := base, rate := rate, unc := s.trustUnc fe, te := te, fe := fe,
                     pairedEdge := s.tim.edgeSerial, pairings := m.pairings + 1 }
  match m.last with
  | none => s.setMap c { m' with state := 1, slew := none, delta := 0 }
  | some l =>
    let nx := l.n + 1
    let d := base.at_ rate nx - s.sampleTime c nx
    let m' := { m' with delta := d }
    -- δ against T_in = 1/rate, exactly
    if m.state = 0 ∨ d * rate < -(secUnits : Int) then s.setMap c { m' with state := 2, slew := some l }
    else
      let m' := { m' with state := 1, slew := none }
      s.setMap c (if d * rate > secUnits then { m' with slips := m.slips + 1 } else m')

end Sys2Proof.Machine
end

