-- ==== Sys2Proof/Machine/Fixed.lean ====
section
/-!
DEFINITION. Sys2Proof/Machine/Fixed.lean: the tables of silicon: cosine and sine (R87), logarithms (R113, R114), square
roots, and the window functions of R108 with the roundings of IEEE 754 double precision.
-/
namespace Sys2Proof.Machine

/-- Integer square root, one bit at a time from bit `n - 1` of the root down. -/
def isqrtGo : Nat → Nat → Nat → Nat
  | 0, _, r => r
  | n + 1, x, r => let r' := r + 2 ^ n; isqrtGo n x (if r' * r' ≤ x then r' else r)

/-- ⌊√x⌋. -/
def isqrt (x : Nat) : Nat := isqrtGo (Nat.log2 x / 2 + 1) x 0

/-! ### Fixed-point series; one unit is 2^-200 -/

/-- The scale of the series. -/
def fx1 : Nat := 2 ^ 200

/-- π in units of 2^-200. -/
def fxPi : Nat := 5048344754617993871973410141242436836214643421488662971535368

/-- cos x for 0 ≤ x ≤ π/4 by its series: term `t` of degree 2k, alternating. -/
def fxCosGo (x2 : Nat) : Nat → Nat → Nat → Int → Int
  | 0, _, _, acc => acc
  | n + 1, k, t, acc =>
    let t' := t * x2 / fx1 / ((2 * k + 1) * (2 * k + 2))
    fxCosGo x2 n (k + 1) t' (if k % 2 = 0 then acc - t' else acc + t')

/-- sin x for 0 ≤ x ≤ π/4 by its series. -/
def fxSinGo (x2 : Nat) : Nat → Nat → Nat → Int → Int
  | 0, _, _, acc => acc
  | n + 1, k, t, acc =>
    let t' := t * x2 / fx1 / ((2 * k + 2) * (2 * k + 3))
    fxSinGo x2 n (k + 1) t' (if k % 2 = 0 then acc - t' else acc + t')

/-- (cos x, sin x) for 0 ≤ x ≤ π/4, in units of 2^-200. -/
def fxOct (x : Nat) : Int × Int :=
  let x2 := x * x / fx1
  (fxCosGo x2 24 0 fx1 fx1, fxSinGo x2 24 0 x x)

/-- (cos x, sin x) for any x ≥ 0 in units of 2^-200, reduced to an octant. -/
def fxCosSin (x : Nat) : Int × Int :=
  let q := fxPi / 4
  let k := x / q
  let r := x - k * q
  let (c, s) := if k % 2 = 0 then fxOct r else let (a, b) := fxOct (q - r); (b, a)
  match k % 8 with
  | 0 => (c, s) | 1 => (c, s)
  | 2 => (-s, c) | 3 => (-s, c)
  | 4 => (-c, -s) | 5 => (-c, -s)
  | _ => (s, -c)

/-- (cos, sin) of 2π·k/2^20 as the 18-bit table entries of R87: round(131,071 · cos), round(131,071 · sin). -/
def cosSin20 (k : Nat) : Int × Int :=
  let k := k % 2 ^ 20
  let o := k / 2 ^ 17
  let r := k % 2 ^ 17
  let ang := fun (j : Nat) => fxPi * 2 * j / 2 ^ 20
  let (c, s) := if o % 2 = 0 then fxOct (ang r) else let (a, b) := fxOct (ang (2 ^ 17 - r)); (b, a)
  let (c, s) : Int × Int := match o with
    | 0 => (c, s) | 1 => (c, s)
    | 2 => (-s, c) | 3 => (-s, c)
    | 4 => (-c, -s) | 5 => (-c, -s)
    | _ => (s, -c)
  (rneDiv (c * 131071) fx1, rneDiv (s * 131071) fx1)

/-- The binary logarithm of x in [1, 2) given in units of 2^-128: `n` bits after the point. -/
def log2Go : Nat → Nat → Nat → Nat
  | 0, _, acc => acc
  | n + 1, x, acc =>
    let y := x * x / 2 ^ 128
    if y ≥ 2 ^ 129 then log2Go n (y / 2) (2 * acc + 1) else log2Go n y (2 * acc)

/-- log2 of a positive number in units of 2^-48. -/
def log2fx (x : Nat) : Nat :=
  let l := Nat.log2 x
  l * 2 ^ 48 + log2Go 48 (x * 2 ^ 128 / 2 ^ l) 0

/-- LOG_ROM[t] = round(2^16 · log2(1 + t/512)) (R113). -/
def logRom (t : Nat) : Nat := (rneDiv ((log2fx (512 + t) : Int) - 9 * 2 ^ 48) (2 ^ 32)).toNat

/-- `lg` of R113 for m·2^x, m positive: 65,536 · log2. -/
def lgOf (m x : Nat) : Nat :=
  let l := Nat.log2 m
  let t := if l ≥ 9 then m / 2 ^ (l - 9) % 512 else m * 2 ^ (9 - l) % 512
  (l + x) * 65536 + logRom t

/-- The power word of R113 from m = |X_int|² and the block exponent. -/
def powerWord (m e : Nat) (ref128 off : Int) : Int :=
  if m = 0 then -32768
  else
    let db := rne ((lgOf m (2 * e) : Int) * 98640) 24 - ref128 + off
    min (max db (-32767)) 32767

/-! ### IEEE 754 double precision, a double being an integer count of 2^-200 -/

/-- An exact quotient rounded to 53 significant bits, ties to even: `num / den` in units of 2^-200. -/
def dblN (num den : Nat) : Nat :=
  let q := num / den
  if q = 0 then 0 else
  let l := Nat.log2 q
  if l < 53 then (rneDiv num den).toNat
  else let sh := l - 52; (rneDiv num (den * 2 ^ sh)).toNat * 2 ^ sh

/-- Signed rounding. -/
def dbl (num : Int) (den : Nat) : Int := if num < 0 then -(dblN num.natAbs den : Int) else dblN num.natAbs den

/-- Product of two doubles. -/
def dmul (a b : Int) : Int := dbl (a * b) fx1
/-- Sum of two doubles. -/
def dadd (a b : Int) : Int := dbl (a + b) 1
/-- The double nearest `n / d`. -/
def drat (n : Int) (d : Nat) : Int := dbl (n * fx1) d
/-- The double nearest cos x, for a double x ≥ 0. -/
def dcos (x : Int) : Int := dbl (fxCosSin x.toNat).1 1
/-- A·cos of the double nearest k·2π·t, t = n/N. -/
def dterm (num : Int) (den k n N : Nat) : Int :=
  dmul (drat num den) (dcos (dmul (dmul (drat (2 * k) 1) (dbl fxPi 1)) (drat n N)))

/-- e^-y for y ≥ 0 in units of 2^-200: the series of e^(y/16), inverted and raised to the 16th power. -/
def fxExpGo (y : Nat) : Nat → Nat → Nat → Nat → Nat
  | 0, _, _, acc => acc
  | n + 1, k, t, acc => let t' := t * y / fx1 / (k + 1); fxExpGo y n (k + 1) t' (acc + t')

/-- e^-y. -/
def fxExpNeg (y : Nat) : Nat :=
  let e := fxExpGo (y / 16) 60 0 fx1 fx1
  let r := fx1 * fx1 / e
  let r2 := r * r / fx1
  let r4 := r2 * r2 / fx1
  let r8 := r4 * r4 / fx1
  r8 * r8 / fx1

/-- The modified Bessel function I0 of x from x² in units of 2^-200. -/
def fxI0Go (q : Nat) : Nat → Nat → Nat → Nat → Nat
  | 0, _, _, acc => acc
  | n + 1, k, t, acc => let t' := t * q / fx1 / ((k + 1) * (k + 1)); fxI0Go q n (k + 1) t' (acc + t')

/-- I0(x) for a double x ≥ 0, rounded to a double. -/
def dI0 (x : Int) : Int := dbl (fxI0Go (x.toNat * x.toNat / fx1 / 4) 100 0 fx1 fx1) 1

/-- The Kaiser β of parameter `p` (R108). -/
def kaiserBeta (p : Nat) : Nat := if p = 14 then 16 else if p = 15 then 20 else p + 1

/-- The Gaussian α of parameter `p`, times two. -/
def gaussAlpha2 (p : Nat) : Nat := 5 + p

/-- w(n/N) of window type `ty` (R108) as a double. -/
def winFun (ty p n N : Nat) : Int :=
  match ty with
  | 0 => fx1
  | 1 => dadd (drat 1 2) (-(dterm 1 2 1 n N))
  | 2 => dadd (dadd (dadd (drat 35875 100000) (-(dterm 48829 100000 1 n N))) (dterm 14128 100000 2 n N))
      (-(dterm 1168 100000 3 n N))
  | 3 => dadd (dadd (dadd (dadd (drat 21557895 100000000) (-(dterm 41663158 100000000 1 n N)))
      (dterm 277263158 1000000000 2 n N)) (-(dterm 83578947 1000000000 3 n N))) (dterm 6947368 1000000000 4 n N)
  | 4 =>
    let u := drat (2 * (n : Int) - N) N
    let v := dadd fx1 (-(dmul u u))
    let b := drat (kaiserBeta p) 1
    dbl (dI0 (dmul b (dbl (isqrt (v.toNat * fx1)) 1)) * fx1) (dI0 b).toNat
  | _ =>
    let x := dmul (drat (gaussAlpha2 p) 2) (drat (2 * (n : Int) - N) N)
    dbl (fxExpNeg (dmul (drat 1 2) (dmul x x)).toNat) 1

/-- round(131,071 · w(t)), ties away from zero. -/
def winVal (ty p n N : Nat) : Int :=
  let v := dmul (drat 131071 1) (winFun ty p n N)
  let a := (2 * v.natAbs + fx1) / (2 * fx1)
  if v < 0 then -(a : Int) else a

/-- ENBW = N·Σu² / (Σu)² in 1/65,536 bin; 0 when Σu = 0. -/
def winEnbw (u : List Int) : Nat :=
  let sm := u.sum
  if sm = 0 then 0 else (rneDiv ((u.length : Int) * (u.map (fun x => x * x)).sum * 65536) (sm * sm).toNat).toNat

/-- ref_c = round(128·10·log10(2^46·(Σu/2^17)²)) (R114): 2·log2|Σu| + 12, times 1280·log10 2. -/
def winRef (u : List Int) : Int :=
  let sm := u.sum.natAbs
  if sm = 0 then 0
  else rneDiv ((2 * (log2fx sm : Int) + 12 * 2 ^ 48) * 385318394449895929873) (2 ^ 48 * 10 ^ 18)

end Sys2Proof.Machine
end

