-- ==== Sys2Proof/Machine/Fft.lean ====
section
/-!
DEFINITION. Sys2Proof/Machine/Fft.lean: the block-floating transform of R111, used forwards (R111), inversely (R120), and with
fixed stage shifts by the channeliser and the polyphase source (R184, R214).
-/
namespace Sys2Proof.Machine

/-- `sat24(v)`. -/
def sat24 (v : Int) : Int := sat 24 v

/-- A point of a transform: its two components and whether its last rounding saturated. -/
structure Pt where
  r : Int
  m : Int
  sat : Bool
  deriving DecidableEq, Repr

/-- Both components through `sat24(rne(·, k))`. -/
def Pt.round (k : Nat) (r m : Int) : Pt :=
  let a := rne r k
  let b := rne m k
  ⟨sat24 a, sat24 b, decide (sat24 a ≠ a) || decide (sat24 b ≠ b)⟩

/-- The twiddle of index `k` in a transform of 2^`s` points: (c, −s) forwards, (c, +s) inversely. -/
def twiddle (inverse : Bool) (s k : Nat) : Int × Int :=
  let (c, d) := cosSin20 (k * 2 ^ (20 - s))
  (c, if inverse then d else -d)

/-- The butterflies of one block: `a` its first half, `b` its second, `j` the index in the half, `stp` the twiddle step. -/
def flies (inverse : Bool) (s stp sh : Nat) : Nat → List Pt → List Pt → List Pt × List Pt
  | j, a :: as, b :: bs =>
    let (us, vs) := flies inverse s stp sh (j + 1) as bs
    let (c, d) := twiddle inverse s (j * stp)
    let dr := a.r - b.r
    let dm := a.m - b.m
    (Pt.round sh (a.r + b.r) (a.m + b.m) :: us, Pt.round (17 + sh) (dr * c - dm * d) (dr * d + dm * c) :: vs)
  | _, _, _ => ([], [])

/-- The largest component in magnitude. -/
def maxComp (bs : List (List Pt)) : Nat :=
  bs.foldl (fun a b => b.foldl (fun a p => max a (max p.r.natAbs p.m.natAbs)) a) 0

/-- The block-floating shift of R111. -/
def floatShift (mx _stage : Nat) : Nat := if mx < 2 ^ 21 then 0 else if mx < 2 ^ 22 then 1 else 2

/-- The fixed shift of R184 with gain `g`. -/
def fixedShift (g : Nat) (_mx stage : Nat) : Nat := if stage ≤ g then 0 else 1

/-- Stages `st` and on, `n` of them: the blocks of the last stage, and the sum of the shifts. -/
def fftStages (inverse : Bool) (s : Nat) (shift : Nat → Nat → Nat) : Nat → Nat → List (List Pt) → Nat → List (List Pt) × Nat
  | 0, _, bs, e => (bs, e)
  | n + 1, st, bs, e =>
    let sh := shift (maxComp bs) st
    let half := 2 ^ (s - st)
    let bs' := bs.flatMap (fun b =>
      let (u, v) := flies inverse s (2 ^ (st - 1)) sh 0 (b.take half) (b.drop half)
      [u, v])
    fftStages inverse s shift n (st + 1) bs' (e + sh)

/-- Two lists taken alternately. -/
def interleave {α : Type} : List α → List α → List α
  | x :: xs, y :: ys => x :: y :: interleave xs ys
  | _, _ => []

/-- Adjacent blocks merged pairwise: even indices from the first, odd ones from the second. -/
def mergePairs {α : Type} : List (List α) → List (List α)
  | a :: b :: r => interleave a b :: mergePairs r
  | _ => []

/-- Bit-reversed order undone in `n` merges. -/
def mergeAll {α : Type} : Nat → List (List α) → List (List α)
  | 0, bs => bs
  | n + 1, bs => mergeAll n (mergePairs bs)

/-- The transform of 2^`s` points with its block exponent. -/
def transform (inverse : Bool) (s : Nat) (shift : Nat → Nat → Nat) (x : List Pt) : List Pt × Nat :=
  let (bs, e) := fftStages inverse s shift s 1 [x] 0
  ((mergeAll s bs).headD [], e)

/-- The halves of a list of bins swapped: natural order to centred order and back (R112). -/
def swapHalves {α : Type} (l : List α) : List α := l.drop (l.length / 2) ++ l.take (l.length / 2)

end Sys2Proof.Machine
end

