-- ==== Sys2Proof/Machine/Chain.lean ====
section
/-!
DEFINITION. Sys2Proof/Machine/Chain.lean: the filter chain of a slice (R83 to R101): its stages to the bit, group delay and
window, staged retunes and bank switches, coefficient loads.
-/
namespace Sys2Proof.Machine
open Sys2Proof

/-! ### Slice modes (R14) -/

/-- The mode of slice `i`: 0 SPECTRUM, 1 CAPTURE, 2 CHANNELISE, 3 SYNTHESISE, 4 RELAY, 5 MAINTAIN. -/
def State.mode (s : State) (i : Nat) : Nat := s.rd (.core i) R.SLICE_MODE.mode

/-- The stream context slice `i` receives: the lowest one whose consumers name it. -/
def State.streamOf (s : State) (i : Nat) : Option Nat :=
  (List.range 64).find? (fun c => s.flag .placement (R.PL_STREAM.valid c) && nbit (s.rd .placement (R.PL_STREAM.consumers c)) i)

/-! ### Geometry (R83, R98) -/

/-- Taps of the halfband designs; 5 is HB63. -/
def hbTaps (d : Nat) : Nat := match d with | 0 => 7 | 1 => 11 | 2 => 19 | 3 => 31 | 4 => 55 | _ => 63

/-- A free 20-bit coefficient of halfband design `d`. -/
def hbFree (d k : Nat) : Int := signed 20 (Config.free (40 + d) k)

/-- The index of the middle tap of a halfband design. -/
def hbMid (d : Nat) : Nat := (hbTaps d - 1) / 2

/-- The middle tap that gives the free coefficients of design `d` unity gain at 0 Hz: all taps sum to 2^19 (R89). -/
def hbCentre (d : Nat) : Int := 2 ^ 19 - 2 * ((List.range (hbMid d)).map (hbFree d)).sum

/-- That middle tap is a 20-bit value. -/
def hbFits (d : Nat) : Bool := decide (-(2 ^ 19 : Int) ≤ hbCentre d) && decide (hbCentre d < (2 ^ 19 : Int))

/-- Coefficient k of a halfband design: fixed in silicon, readable in HB_ROM, and not stated: a free 20-bit value, but for the unity gain at
0 Hz that R89 states. Free coefficients that cannot have it give way to (1/4, 1/2, 1/4) (log 1). -/
def hbCoef (d k : Nat) : Int :=
  if hbFits d then (if k = hbMid d then hbCentre d else hbFree d k)
  else if k = hbMid d then 2 ^ 18 else if k + 1 = hbMid d then 2 ^ 17 else 0

/-- The design of halfband stage `j` of slice `i`. -/
def State.hbDesign (s : State) (i j : Nat) : Nat := s.rd (.filt i) R.FILT_HB.design / 8 ^ j % 8

/-- r of R83. -/
def State.chainR (s : State) (i : Nat) : Nat := if s.flag (.filt i) R.FILT_CFG.r2c_active then 2 else 1

/-- The halfband stages. -/
def State.chainH (s : State) (i : Nat) : Nat := s.rd (.filt i) R.FILT_CFG.hb_stages

/-- D_F of R90. -/
def State.firD (s : State) (i : Nat) : Nat :=
  if s.flag (.filt i) R.FILT_CFG.fir_enable then s.rd (.filt i) R.FILT_CFG.fir_decim + 1 else 1

/-- The length of the bank in force. -/
def State.firL (s : State) (i : Fin 17) : Nat :=
  if s.flag (.filt i) R.FILT_CFG.fir_enable then (s.chains[i].banks[Fin.ofNat 4 (s.rd (.filt i) R.FILT_STATUS.active_bank)]).len else 1

/-- The total decimation D, in input periods. -/
def State.chainD (s : State) (i : Nat) : Nat := s.chainR i * 2 ^ s.chainH i * s.firD i

/-- Σ P_j·(L_j − 1) over the halfband stages. -/
def State.hbSpan (s : State) (i : Nat) : Nat :=
  ((List.range (s.chainH i)).map (fun j => s.chainR i * 2 ^ j * (hbTaps (s.hbDesign i j) - 1))).sum

/-- The window length W (R98). -/
def State.chainW (s : State) (i : Fin 17) : Nat :=
  1 + (if s.chainR i = 2 then 62 else 0) + s.hbSpan i + s.chainR i * 2 ^ s.chainH i * (s.firL i - 1)

/-- The group delay in 1/256 input period (R98). -/
def State.chainGD (s : State) (i : Fin 17) : Nat :=
  (if s.chainR i = 2 then 31 * 256 else 0) + s.hbSpan i * 128 + s.chainR i * 2 ^ s.chainH i * (s.firL i - 1) * 128

/-- Show GROUP_DELAY and CHAIN_GEOM. -/
def showGeom (i : Fin 17) (s : State) : State :=
  let g := s.chainGD i
  let s := (s.wr (.filt i) R.GROUP_DELAY.fraction (g % 256)).wr (.filt i) R.GROUP_DELAY.integer (g / 256)
  (s.wr (.filt i) R.CHAIN_GEOM.decim_total (s.chainD i)).wr (.filt i) R.CHAIN_GEOM.window_len (s.chainW i)

/-! ### Stages (R85 to R90) -/

/-- A stage's output, and how many of its roundings saturated. -/
structure StageOut where
  x : Cx
  sats : Nat
  deriving DecidableEq, Repr

/-- Both components through sat24(rne(·, k)), with the flags of the inputs. -/
def stageOut (k : Nat) (ai aq : Int) (ovr : Bool) : StageOut :=
  let p := Pt.round k ai aq
  ⟨⟨p.r, p.m, ovr || p.sat⟩, if p.sat then 1 else 0⟩

/-- Σ h[k]·x[ν − k] over a history, newest first. -/
def dotHist : List Int → List Cx → Int × Int
  | h :: hs, x :: xs => let (a, b) := dotHist hs xs; (a + h * x.i, b + h * x.q)
  | _, _ => (0, 0)

/-- The full coefficients of a symmetric filter of length `n`. -/
def symCoefs (n : Nat) (h : Nat → Int) : List Int := (List.range n).map (fun k => h (min k (n - 1 - k)))

/-- A symmetric filter of length `n` over a history. -/
def symFilter (n k : Nat) (h : Nat → Int) (hist : List Cx) : StageOut :=
  let (a, b) := dotHist (symCoefs n h) hist
  stageOut k a b ((hist.take n).any (·.ovr))

/-- e^(−jπn/2)·x (R86). -/
def r2cMix (n : Nat) (x : Int) : Int × Int :=
  match n % 4 with
  | 0 => (x, 0)
  | 1 => (0, -x)
  | 2 => (-x, 0)
  | _ => (0, x)

/-- The NCO phase at index `v` (R87). -/
def State.ncoPhase (s : State) (i : Nat) (v : Nat) : Nat :=
  let f := s.rdi (.filt i) R.NCO_FCW.fcw
  (((s.rd (.filt i) R.NCO_PHASE_BASE.phase : Int) + f * ((v : Int) - s.rd (.filt i) R.NCO_INDEX_BASE.index)) % (2 ^ 48 : Int)).toNat

/-- The mixer: I·c + Q·s, Q·c − I·s. -/
def ncoMix (phase : Nat) (x : Cx) : StageOut :=
  let (c, d) := cosSin20 (phase / 2 ^ 28)
  stageOut 17 (x.i * c + x.q * d) (x.q * c - x.i * d) x.ovr

/-- The halfband cascade: stage `j` takes an input at its index `v`. Histories, the output if every stage gave one, saturations. -/
def hbGo : List Nat → List (List Cx) → Nat → Cx → Nat → List (List Cx) × Option Cx × Nat
  | [], hs, _, x, n => (hs, some x, n)
  | d :: ds, hs, v, x, n =>
    let hist := (x :: hs.headD []).take (hbTaps d)
    if v % 2 = 0 then
      let o := symFilter (hbTaps d) 19 (hbCoef d) hist
      let (r, y, n') := hbGo ds hs.tail (v / 2) o.x (n + o.sats)
      (hist :: r, y, n')
    else (hist :: hs.tail, none, n)

/-- One bank over the FIR history. -/
def bankOut (b : Bank) (gain : Nat) (hist : List Cx) : StageOut := symFilter b.len (22 - gain) (fun k => b.h.getD k 0) hist

/-- The final FIR's output, faded while a fade runs (R90, R92). -/
def State.firOut (s : State) (i : Fin 17) (hist : List Cx) : StageOut :=
  let g := s.rd (.filt i) R.FILT_CFG.gain_shift
  let bk := fun (n : Nat) => s.chains[i].banks[Fin.ofNat 4 n]
  let a := bankOut (bk (s.rd (.filt i) R.FILT_STATUS.active_bank)) g hist
  if s.flag (.filt i) R.FILT_STATUS.fading then
    let b := bankOut (bk (s.rd (.filt i) R.FILT_STATUS.fade_target)) g hist
    let e := s.rd (.filt i) R.FILT_CFG.fade_exp
    let k : Int := 2 ^ e - s.rd (.filt i) R.FILT_STATUS.fade_remaining
    ⟨⟨a.x.i + rne ((b.x.i - a.x.i) * k) e, a.x.q + rne ((b.x.q - a.x.q) * k) e, a.x.ovr || b.x.ovr⟩, a.sats + b.sats⟩
  else a

/-! ### Gangs (R82, R103, R117) -/

/-- log2 N. -/
def State.log2n (s : State) (i : Nat) : Nat := s.rd (.filt i) R.XF_CFG.log2n
/-- N. -/
def State.frameN (s : State) (i : Nat) : Nat := 2 ^ s.log2n i
/-- H. -/
def State.frameH (s : State) (i : Nat) : Nat := max 1 (2 ^ s.log2n i / 2 ^ s.rd (.filt i) R.XF_CFG.overlap)
/-- The gang size. -/
def State.gangG (s : State) (i : Nat) : Nat := s.rd (.filt i) R.XF_GANG.size_m1 + 1

/-- Slice `i` is a stand-in that shadows its incumbent. -/
def State.shadowing (s : State) (i : Nat) : Bool := s.flag (.core i) R.SLICE_MODE.shadowing

/-- The member of the gang slice `i` leads that forms frame `f`. -/
def State.memberOf (s : State) (i : Fin 17) (f : Nat) : Fin 17 :=
  if s.gangG i = 1 then i
  else match (List.finRange 17).find? (fun (j : Fin 17) => decide (s.gangG j.val = s.gangG i.val)
      && (!s.shadowing j.val || s.shadowing i.val) && decide (s.rd (.filt j) R.XF_GANG.lead_slice = i.val)
      && decide (s.rd (.filt j) R.XF_GANG.member = f % s.gangG i.val)) with
    | some j => j
    | none => i

/-- Every member of the gang that slice `i` leads. -/
def State.gang (s : State) (i : Fin 17) : List (Fin 17) := if s.gangG i = 1 then [i] else (List.range (s.gangG i)).map (s.memberOf i)

/-- The frames that hold output `m`: the first and the number of them. -/
def State.framesOf (s : State) (i : Nat) (m : Nat) : Nat × Nat :=
  let n := s.frameN i
  let h := s.frameH i
  let a := if m < n then 0 else (m - n) / h + 1
  (a, m / h + 1 - a)

/-- Member `j` of the gang of slice `i` has a frame that holds output `m`, so that it is given the samples of that output (R82). -/
def State.memberHolds (s : State) (i : Nat) (j m : Nat) : Bool :=
  let g := s.gangG i
  let (a, n) := s.framesOf i m
  decide ((j + g - a % g) % g < n)

/-- The slices whose chains compute output `m` of the stream slice `i` leads: `i` itself, or the members whose frames hold the output
(R82, R117). -/
def State.outMembers (s : State) (i : Fin 17) (m : Nat) : List (Fin 17) :=
  if s.gangG i = 1 then [i] else ((List.range (s.gangG i)).filter (fun j => s.memberHolds i j m)).map (s.memberOf i)

/-- The next output, from `m` on, that member `j` computes. -/
def State.memberNext (s : State) (i : Nat) (j m : Nat) : Nat :=
  if s.memberHolds i j m then m
  else
    let g := s.gangG i
    let h := s.frameH i
    let f := m / h + 1
    (f + (j + g - f % g) % g) * h

/-- Stage outputs that saturate at output `m` are counted by the slices that compute it (R85). -/
def countSats (i : Fin 17) (m n : Nat) (s : State) : State :=
  if n = 0 then s else s.each (s.outMembers i m) (fun g st => st.cnt (.filt g) R.FILT_COUNTS.sat_events n)

/-- The next output of the stream slice `i` leads is `m`; OUT_INDEX of every slice that shares it shows its own next output. -/
def setPos (i : Fin 17) (m : Nat) (s : State) : State :=
  let s := s.setChain i { s.chains[i] with pos := m }
  if s.gangG i = 1 then s.wr (.filt i) R.OUT_INDEX.index m
  else s.each (List.range (s.gangG i)) (fun j st => st.wr (.filt (s.memberOf i j)) R.OUT_INDEX.index (s.memberNext i j m))

/-- The fade has delivered its M outputs: the new bank alone is used from here (R92). -/
def fadeFinish (i : Fin 17) (s : State) : State :=
  if s.flag (.filt i) R.FILT_STATUS.fading && decide (s.rd (.filt i) R.FILT_STATUS.fade_remaining = 0) then
    let s := s.wr (.filt i) R.FILT_STATUS.active_bank (s.rd (.filt i) R.FILT_STATUS.fade_target)
    showGeom i (s.wr (.filt i) R.FILT_STATUS.fading 0)
  else s

/-- A fade under way moves on by `k` outputs (R92). -/
def fadeStep (i : Fin 17) (k : Nat) (s : State) : State :=
  s.when (s.flag (.filt i) R.FILT_STATUS.fading) (fun s =>
    s.wr (.filt i) R.FILT_STATUS.fade_remaining (s.rd (.filt i) R.FILT_STATUS.fade_remaining - k))

/-- Input index `n` passes the four stages: the chain's output if `n` is a multiple of D. -/
def chainPush (i : Fin 17) (n : Nat) (x : Smp) (s : State) : State × Option Cx :=
  let c := s.chains[i]
  let r := s.chainR i
  -- real to complex
  let (r2c, y, n1) : List Cx × Option Cx × Nat :=
    if r = 2 then
      let (a, b) := r2cMix n x.i
      let hist := ((⟨a, b, x.ovr⟩ : Cx) :: c.r2c).take 63
      if n % 2 = 0 then let o := symFilter 63 19 (hbCoef 5) hist; (hist, some o.x, o.sats) else (hist, none, 0)
    else (c.r2c, some ⟨x.i, x.q, x.ovr⟩, 0)
  match y with
  | none => (s.setChain i { c with r2c := r2c }, none)
  | some y =>
    let v := n / r
    let m := if s.flag (.filt i) R.FILT_CFG.nco_enable then ncoMix (s.ncoPhase i v) y else ⟨y, 0⟩
    let ds := (List.range (s.chainH i)).map (s.hbDesign i)
    let (hb, z, n3) := hbGo ds c.hb v m.x 0
    let out := n / s.chainD i
    let s := countSats i out (n1 + m.sats + n3) s
    match z with
    | none => (s.setChain i { c with r2c := r2c, hb := hb }, none)
    | some z =>
      let fir := (z :: c.fir).take 256
      let s := s.setChain i { c with r2c := r2c, hb := hb, fir := fir }
      if v / 2 ^ s.chainH i % s.firD i ≠ 0 then (s, none)
      else
        let o := if s.flag (.filt i) R.FILT_CFG.fir_enable then s.firOut i fir else ⟨z, 0⟩
        (fadeStep i 1 (countSats i out o.sats s), some o.x)

/-! ### Loss, settling and gaps (R96, R97) -/

/-- Lost inputs [a, b) enter the histories as zeros (R97); a whole window of them leaves nothing but zeros. -/
def pushLost (i : Fin 17) (a b : Nat) (s : State) : State :=
  let s :=
    if s.chainW i ≤ b - a then
      fadeStep i (ceilDiv b (s.chainD i) - ceilDiv a (s.chainD i)) (s.setChain i { s.chains[i] with r2c := [], hb := [], fir := [] })
    else s.each ((List.range (b - a)).map (a + ·)) (fun n st => (chainPush i n ⟨0, 0, false, true, 0⟩ st).1)
  s.setChain i { s.chains[i] with lastLost := some (b - 1) }

/-- The first output that starts after index `b`: the least m with m·D − (W − 1) ≥ b. -/
def State.firstClear (s : State) (i : Fin 17) (b : Nat) : Nat := ceilDiv (b + s.chainW i - 1) (s.chainD i)

/-- Output `m` is suppressed (R96). -/
def State.suppressed (s : State) (i : Fin 17) (m : Nat) : Bool := decide (m < s.chains[i].clearAt)

/-- Outputs that start before index `b` are suppressed, with the window now in force (R96): later changes of the bank suppress nothing. -/
def settleFrom (i : Fin 17) (b : Nat) (s : State) : State :=
  s.setChain i { s.chains[i] with clearAt := max (s.firstClear i b) s.chains[i].clearAt }

/-- Output `m` has no lost input in its window. -/
def State.windowClean (s : State) (i : Fin 17) (m : Nat) : Bool :=
  match s.chains[i].lastLost with
  | some l => decide (s.firstClear i (l + 1) ≤ m)
  | none => true

/-- A gap joins the list of gaps not yet reported: one with the last if it goes on where that ended, for the same reason (R177). -/
def GapRun.add (l : List GapRun) (g : GapRun) : List GapRun :=
  match l.reverse with
  | x :: r => if x.reason = g.reason ∧ x.first + x.count = g.first then ({ x with count := x.count + g.count } :: r).reverse else l ++ [g]
  | [] => [g]

/-- The quality and the bound of a T96 of the stream of slice `i` (R293). -/
def State.stampAt (s : State) (i : Nat) : Nat × Nat :=
  match s.streamOf i with
  | some c => (s.sampleQ c, s.sampleBound c)
  | none => (s.quality, s.bTb)

/-- Outputs `m` to `m + n − 1` are a gap of this reason (R97, R177). -/
def addGap (i : Fin 17) (m n reason : Nat) (t : Int) (s : State) : State :=
  if n = 0 then s else
  let c := s.chains[i]
  let (q, b) := s.stampAt i
  s.setChain i { c with gaps := GapRun.add c.gaps ⟨m, n, reason, t, q, b⟩, carOpen := false, pendFl := Nat.lor c.pendFl 16 }

/-- `n` suppressed outputs from `m` are counted by the slices that would have computed them. -/
def countSuppressed (i : Fin 17) (m n : Nat) (s : State) : State :=
  if s.gangG i = 1 then s.cnt (.filt i) R.SETTLE_SUPPRESSED.count n
  else s.each ((List.range n).map (m + ·)) (fun k st =>
    st.each (st.outMembers i k) (fun g st => st.cnt (.filt g) R.SETTLE_SUPPRESSED.count 1))

/-- Outputs from `m`, `n` of them, that are not delivered: suppressed ones are counted, the rest are a gap. -/
def withhold (i : Fin 17) (m n reason : Nat) (t : Int) (s : State) : State :=
  let sup := min n (s.chains[i].clearAt - m)
  let s := countSuppressed i m sup s
  let s := s.when (decide (0 < sup)) (fun s => s.setChain i { s.chains[i] with carOpen := false })
  addGap i (m + sup) (n - sup) reason t s

/-- The output indices an interval of input indices [a, b) computes: first and count. -/
def State.outputsIn (s : State) (i : Nat) (a b : Nat) : Nat × Nat :=
  let m := ceilDiv a (s.chainD i)
  (m, ceilDiv b (s.chainD i) - m)

/-! ### Staging (R88, R92 to R94) -/

/-- A commit by the slice's own core is applied, deferred or refused: UNIT_DONE (R239). -/
def commitDone (i : Fin 17) (bit_ : Nat) (clear : Bool) (s : State) : State :=
  let c := s.chains[i]
  if nbit c.byCore bit_ then
    (s.coreInt i.val 2).setChain i { c with byCore := if clear then c.byCore - 2 ^ bit_ else c.byCore }
  else s

/-- The pending flags FILT_STATUS shows. -/
def showPending (i : Fin 17) (s : State) : State :=
  let s := s.wr (.filt i) R.FILT_STATUS.retune_pending (s.rd (.filt i) R.FILT_COMMIT.retune)
  s.wr (.filt i) R.FILT_STATUS.switch_pending (s.rd (.filt i) R.FILT_COMMIT.switch)

/-- The member of the gang slice `i` leads through which a change was committed: the first in which it is pending (R118). -/
def State.committer (s : State) (i : Fin 17) (f : Fld) : Option (Fin 17) := (s.gang i).find? (fun g => s.flag (.filt g) f)

/-- The retune pending at the boundary of output m_b applies at input index `n` (R88), in every member of a gang (R118). -/
def applyRetune (i : Fin 17) (n : Nat) (s : State) : State :=
  match s.committer i R.FILT_COMMIT.retune with
  | none => s
  | some c =>
    let b : Blk := .filt c
    let v := n / s.chainR i
    let ph := s.rd b R.NCO_PHASE_STAGE.phase
    let new := if s.flag b R.NCO_PHASE_STAGE.coherent then (ph, 0) else (s.ncoPhase i v + ph, v)
    let fcw := s.rd b R.NCO_FCW_STAGE.fcw
    let s := s.each (s.gang i) (fun g st =>
      ((st.wr (.filt g) R.NCO_PHASE_BASE.phase new.1).wr (.filt g) R.NCO_INDEX_BASE.index new.2).wr (.filt g) R.NCO_FCW.fcw fcw)
    let s := s.setChain i { s.chains[i] with fstarts := s.chains[i].fstarts.map (fun f => { f with settle := true }) }
    s.each (s.gang i) (fun g st => if st.flag (.filt g) R.FILT_COMMIT.retune then
      commitDone g 0 true (showPending g ((st.wr (.filt g) R.FILT_COMMIT.retune 0).wr (.filt g) R.FILT_COMMIT.last_status 0)) else st)

/-- The settling a retune at input index `n` asks for, with the bank in force after the boundary (R96). -/
def retuneSettle (i : Fin 17) (n : Nat) (s : State) : State :=
  s.when (s.flag (.filt i) R.FILT_CFG.settle_on_retune) (fun s =>
    settleFrom i n (s.setChain i { s.chains[i] with pendFl := Nat.lor s.chains[i].pendFl 4 }))

/-- Bank `b` is loading. -/
def State.bankLoading (s : State) (i : Fin 17) (b : Nat) : Bool := (s.chains[i].bankLoad[Fin.ofNat 4 b]).isSome

/-- The bank switch pending at a boundary (R92, R93): done, deferred, or refused. -/
def applySwitch (i : Fin 17) (s : State) : State :=
  if !s.flag (.filt i) R.FILT_COMMIT.switch then s else
  let b := s.rd (.filt i) R.FIR_BANK_STAGE.bank
  let act := s.rd (.filt i) R.FILT_STATUS.active_bank
  let done := fun (st : Nat) (s : State) =>
    commitDone i 1 true (showPending i ((s.wr (.filt i) R.FILT_COMMIT.switch 0).wr (.filt i) R.FILT_COMMIT.last_status st))
  let defer := fun (s : State) =>
    if s.rd (.filt i) R.FILT_COMMIT.last_status = 2 then s
    else commitDone i 1 false (s.wr (.filt i) R.FILT_COMMIT.last_status 2)
  if s.flag (.filt i) R.FILT_STATUS.fading then defer s
  else if b = act then done 0 s
  else if s.bankLoading i b then defer s
  else if !s.flag (.filt i) (R.FIR_BANK.loaded b) then done 3 (s.wr (.filt i) R.FILT_FAULT.switch_refused 1)
  else
    let la := (s.chains[i].banks[Fin.ofNat 4 act]).len
    let lb := (s.chains[i].banks[Fin.ofNat 4 b]).len
    let fade := s.flag (.filt i) R.FIR_BANK_STAGE.fade
    let s := s.setChain i { s.chains[i] with fstarts := s.chains[i].fstarts.map (fun f => { f with settle := true }) }
    if fade && decide (la = lb) then
      let s := (s.wr (.filt i) R.FILT_STATUS.fading 1).wr (.filt i) R.FILT_STATUS.fade_target b
      done 0 (s.wr (.filt i) R.FILT_STATUS.fade_remaining (2 ^ s.rd (.filt i) R.FILT_CFG.fade_exp))
    else
      let s := s.when fade (fun s => s.cnt (.filt i) R.FILT_COUNTS.fade_downgraded 1)
      done 0 (showGeom i (s.wr (.filt i) R.FILT_STATUS.active_bank b))

/-- A commit of kind `cmd` (1 retune, 2 switch) is written; while the slot is disabled it waits for the enable. -/
def filtCommit (i : Fin 17) (cmd : Nat) (byCore : Bool) (s : State) : State :=
  let s := if nbit cmd 0 then s.wr (.filt i) R.FILT_COMMIT.retune 1 else s
  let s := if nbit cmd 1 then s.wr (.filt i) R.FILT_COMMIT.switch 1 else s
  let s := (s.wr (.filt i) R.FILT_COMMIT.last_cmd cmd).wr (.filt i) R.FILT_COMMIT.last_status 1
  let s := s.when byCore (fun s => s.setChain i { s.chains[i] with byCore := Nat.lor s.chains[i].byCore cmd })
  showPending i s

/-! ### Coefficient banks (R91) -/

/-- Bank `b` may not be loaded: it is active, or the source or target of a fade. -/
def State.bankBusy (s : State) (i : Fin 17) (b : Nat) : Bool :=
  s.enabled (.filt i) && s.flag (.filt i) R.FILT_CFG.fir_enable &&
    (decide (s.rd (.filt i) R.FILT_STATUS.active_bank = b)
      || (s.flag (.filt i) R.FILT_STATUS.fading && decide (s.rd (.filt i) R.FILT_STATUS.fade_target = b)))

/-- FIR_BANK[b].load is written 1. -/
def bankLoadStart (i : Fin 17) (b : Fin 4) (s : State) : State :=
  if s.bankLoading i b then s else
  let l := s.rd (.filt i) (R.FIR_BANK.length b)
  if s.bankBusy i b || decide (l = 0) || decide (256 < l) then
    (s.wr (.filt i) R.FILT_FAULT.bank_load_refused 1).wr (.filt i) (R.FIR_BANK.load b) 0
  else
    let s := (s.wr (.filt i) (R.FIR_BANK.load b) 1).wr (.filt i) (R.FIR_BANK.loaded b) 0
    let c := s.chains[i]
    s.setChain i { c with bankLoad := c.bankLoad.set b (some (s.rd (.filt i) (R.FIR_BANK.laddr b), l)) }

/-- `n` 32-bit words of a slice's local memory from 8-byte word address `a`, as signed `w`-bit values. -/
def State.lmemWords (s : State) (i : Fin 17) (a n w : Nat) : List Int :=
  (List.range n).map (fun k => signed w (memNat s.mem.lmem[i] ((8 * a + 4 * k) % 2 ^ 23) 4))

/-- The load of bank `b` ends. -/
def bankLoadEnd (i : Fin 17) (b : Fin 4) (s : State) : State :=
  let c := s.chains[i]
  match c.bankLoad[b] with
  | none => s
  | some (a, l) =>
    let h := s.lmemWords i a ((l + 1) / 2) 24
    let n := 4 * ((l + 1) / 2)
    -- an uncorrectable error among the words copied is one of the coefficient store (R100, R318)
    let s := s.when (s.firstBad (.lmem i) (8 * a % 2 ^ 23) n).isSome (fun s =>
      residueError i 0 ((checkRead (.lmem i) (8 * a % 2 ^ 23) n 1 s).fault (.filt i) R.FILT_FAULT.coef_ecc))
    let c := s.chains[i]
    let s := (s.wr (.filt i) (R.FIR_BANK.load b) 0).wr (.filt i) (R.FIR_BANK.loaded b) 1
    s.setChain i { c with
      bankLoad := c.bankLoad.set b none
      banks := c.banks.set b ⟨l, h⟩ }

/-! ### Enable and disable (R96, R101) -/

/-- FILT_CFG, FILT_HB or the staged bank make the slot refuse enable. -/
def State.chainRefuses (s : State) (i : Fin 17) : Bool :=
  let e := s.rd (.filt i) R.FILT_CFG.fade_exp
  decide (10 < s.chainH i) || decide (e < 4) || decide (12 < e)
    || ((List.range (s.chainH i)).any (fun j => decide (4 < s.hbDesign i j)))
    || (s.flag (.filt i) R.FILT_CFG.fir_enable
        && !s.flag (.filt i) (R.FIR_BANK.loaded (s.rd (.filt i) R.FIR_BANK_STAGE.bank)))

/-- The chain begins a run with a cleared history (R96, R436). A fade under way goes on with its remaining count: the spec does not say what a
restart of the run does to it (DESIGN CHOICE, log 36). Gaps that await the next delivery stay, and gap_before with them. -/
def chainRun (i : Fin 17) (run : Option Nat) (s : State) : State :=
  let c := s.chains[i]
  let s := s.setChain i { c with
    run := run
    any := false
    next := 0
    pos := 0
    clearAt := 0
    r2c := []
    hb := []
    fir := []
    lastLost := none
    carOpen := false
    carFl := 0
    pendFl := if c.gaps.isEmpty then 4 else 20
    carGd := 0
    boundaryAt := none
    terms := none
    skipTo := 0
    fbuf := []
    fstarts := []
    jobs := []
    fnext := 0
    frameFl := 0
    lossReason := 1
    sig := 0
    resIdx := none }
  s.each (s.gang i) (fun g st =>
    ((st.wr (.filt g) R.OUT_INDEX.index 0).wr (.filt g) R.FILT_STATUS.state 1).wr (.filt g) R.FILT_STATUS.suppress_remaining 0)

/-- The slot is enabled: staged values become the initial state, pending commits are consumed. -/
def chainEnable (i : Fin 17) (s : State) : State :=
  let s := s.wr (.filt i) R.NCO_FCW.fcw (s.rd (.filt i) R.NCO_FCW_STAGE.fcw)
  let s := s.wr (.filt i) R.NCO_PHASE_BASE.phase (s.rd (.filt i) R.NCO_PHASE_STAGE.phase)
  let s := s.wr (.filt i) R.NCO_INDEX_BASE.index 0
  let s := s.wr (.filt i) R.FILT_STATUS.active_bank (s.rd (.filt i) R.FIR_BANK_STAGE.bank)
  let s := (s.wr (.filt i) R.FILT_STATUS.fading 0).wr (.filt i) R.FILT_STATUS.fade_remaining 0
  let s := s.when (s.flag (.filt i) R.FILT_COMMIT.retune || s.flag (.filt i) R.FILT_COMMIT.switch) (fun s =>
    ((s.wr (.filt i) R.FILT_COMMIT.retune 0).wr (.filt i) R.FILT_COMMIT.switch 0).wr (.filt i) R.FILT_COMMIT.last_status 0)
  let s := s.setChain i { s.chains[i] with byCore := 0 }
  showPending i (showGeom i (chainRun i none s))

/-- The slot is disabled: the history is discarded; loaded banks are kept. -/
def chainDisable (i : Fin 17) (s : State) : State :=
  let c := s.chains[i]
  let from_ := match c.run with | some r => if c.any && c.left.isNone then some (r, c.next) else c.left | none => c.left
  let s := chainRun i none s
  let s := s.setChain i { s.chains[i] with left := from_ }
  let s := s.setChain i { s.chains[i] with pendFl := 0 }
  let s := (s.wr (.filt i) R.FILT_STATUS.fading 0).wr (.filt i) R.FILT_STATUS.fade_remaining 0
  s.wr (.filt i) R.FILT_STATUS.state 0

end Sys2Proof.Machine
end

