-- ==== Sys2Proof/Machine/Shadow.lean ====
section
/-!
DEFINITION. Sys2Proof/Machine/Shadow.lean: what a takeover in progress adds to the other units (R306, R308): the shadowing slice, its
sink queues, and the comparison of items.
-/
namespace Sys2Proof.Machine
open Sys2Proof

/-- The phase of the takeover: 0 idle, 1 preparing, 2 settling, 3 comparing, 4 switched. -/
def State.tkoPhase (s : State) : Nat := s.rd .placement R.TKO_STATUS.phase

/-- The sink in place of queue key `k` of a stand-in: numbers above every queue. -/
def sinkQueue (i k : Nat) : Nat := 2 ^ 20 + 2 ^ 13 * i + k

/-- A sink, not a queue. -/
def isSink (q : Nat) : Bool := decide (2 ^ 20 ≤ q)

/-- An item matched or mismatched (TKO_COMPARE). -/
def tkoVerdict (kind : Nat) (same : Bool) (s : State) : State :=
  let b : Blk := .placement
  if same then
    let s := s.wr b R.TKO_COMPARE.matched (min (2 ^ 32 - 1) (s.rd b R.TKO_COMPARE.matched + 1))
    if kind = 1 then s.wr b R.TKO_STATUS.matched_run (min (2 ^ 32 - 1) (s.rd b R.TKO_STATUS.matched_run + 1)) else s
  else
    let first := s.rd b R.TKO_COMPARE.mismatched = 0
    let s := s.wr b R.TKO_COMPARE.mismatched (min 0xFFFF (s.rd b R.TKO_COMPARE.mismatched + 1))
    let s := if first then s.wr b R.TKO_COMPARE.first_kind kind else s
    if kind = 1 then s.wr b R.TKO_STATUS.matched_run 0 else s

/-- Slice `i` produced an item: compared with its counterpart, or kept until that comes. Signatures that one side has passed over are
one-sided. -/
def tkoItem (i : Nat) (kind : Nat) (key : List Nat) (hash : Nat) (s : State) : State :=
  if s.tkoPhase ≠ 3 ∨ s.rd .placement R.TKO_STATUS.cause = 8 then s else
  match s.tko.pairs.findIdx? (fun p => p.1 = i ∨ p.2 = i) with
  | none => s
  | some n =>
    let side := decide ((s.tko.pairs.getD n (0, 0)).1 = i)
    let items := s.tko.items
    let twin := fun (x : TkoItem) => decide (x.side ≠ side) && decide (x.pair = n) && decide (x.kind = kind) && decide (x.key = key)
    let s := s.when (decide (kind = 1) && side) (fun s => { s with tko.passed := s.tko.passed + 1 })
    match items.find? twin with
    | none => { s with tko.items := items ++ [⟨side, n, kind, key, hash⟩] }
    | some x =>
      let stale := fun (y : TkoItem) => decide (kind = 1) && decide (y.kind = 1) && decide (y.pair = n)
      let before := (items.takeWhile (fun y => !twin y)).filter stale
      let s := { s with tko.items := items.filter (fun y => !twin y && !before.contains y) }
      tkoVerdict kind (decide (x.hash = hash)) (s.each before (fun _ st => tkoVerdict 4 false st))

/-- A value that slice `i`'s core writes to MBOX_OUT. -/
def tkoMbox (i : Nat) (v : Nat) (s : State) : State :=
  if s.tkoPhase ≠ 3 then s
  else if s.tko.pairs.any (fun p => p.1 = i) then
    tkoItem i 3 [s.tko.mboxI] v { s with tko.mboxI := s.tko.mboxI + 1 }
  else if s.tko.pairs.any (fun p => p.2 = i) then
    tkoItem i 3 [s.tko.mboxS] v { s with tko.mboxS := s.tko.mboxS + 1 }
  else s

end Sys2Proof.Machine
end

