-- ==== Sys2Proof/Machine/Queue.lean ====
section
/-!
DEFINITION. Sys2Proof/Machine/Queue.lean: the queue engine (R192 to R203): contexts and their cache, reservations, sealing by
the check units (R161, R163, R365 to R368), publication, moderation; and the rows that rings and queues share (WAYBILL,
FLUSH_READ_COMPLETE) with the endpoint reset (R350).
-/
namespace Sys2Proof.Machine
open Sys2Proof


/-! ### Contexts (R192, R199) -/

/-- Buffer size exponent. -/
def Ctx.log2size (c : Ctx) : Nat := c.w0 % 64
/-- The buffer lies in DRAM. -/
def Ctx.target (c : Ctx) : Bool := nbit c.w0 6
/-- The queue accepts records. -/
def Ctx.on (c : Ctx) : Bool := nbit c.w0 7
/-- The queue is halted. -/
def Ctx.halted (c : Ctx) : Bool := nbit c.w0 8
/-- Waybills may signal. -/
def Ctx.irq (c : Ctx) : Bool := nbit c.w0 9
/-- Bound to a producer by the placement engine. -/
def Ctx.placed (c : Ctx) : Bool := nbit c.w0 10
/-- Buffer base. -/
def Ctx.base (c : Ctx) : Nat := c.w0 / 4096 * 4096
/-- 64-byte units published. -/
def Ctx.produced (c : Ctx) : Nat := c.w1 % 2 ^ 36
/-- Completion queue. -/
def Ctx.cq (c : Ctx) : Nat := nbits c.w1 45 36
/-- Waybills after which to signal. -/
def Ctx.modCount (c : Ctx) : Nat := 2 ^ min 9 (nbits c.w1 49 46)
/-- Moderation timer code. -/
def Ctx.modTimer (c : Ctx) : Nat := nbits c.w1 53 50
/-- Waybills since the last signal. -/
def Ctx.unsignalled (c : Ctx) : Nat := nbits c.w1 63 54
/-- 64-byte units released by software. -/
def Ctx.consumed (c : Ctx) : Nat := c.w2 % 2 ^ 36
/-- Abandoned sequences not yet announced. -/
def Ctx.absent (c : Ctx) : Nat := nbits c.w2 63 36
/-- Next sequence to be published. -/
def Ctx.pubSeq (c : Ctx) : Nat := c.w3
/-- Free space in 64-byte units. -/
def Ctx.free (c : Ctx) : Nat := 2 ^ (c.log2size - 6) - (c.produced + 2 ^ 36 - c.consumed) % 2 ^ 36

/-- Replace bits [hi:lo] of a number. -/
def putBits (x hi lo v : Nat) : Nat := x - nbits x hi lo * 2 ^ lo + v % 2 ^ (hi + 1 - lo) * 2 ^ lo

/-- Set or clear enable, halted or placed. -/
def Ctx.setBit (c : Ctx) (i v : Nat) : Ctx := { c with w0 := putBits c.w0 i i v }
/-- Replace produced. -/
def Ctx.setProduced (c : Ctx) (v : Nat) : Ctx := { c with w1 := putBits c.w1 35 0 v }
/-- Replace unsignalled. -/
def Ctx.setUnsignalled (c : Ctx) (v : Nat) : Ctx := { c with w1 := putBits c.w1 63 54 (min 1023 v) }
/-- Replace consumed. -/
def Ctx.setConsumed (c : Ctx) (v : Nat) : Ctx := { c with w2 := putBits c.w2 35 0 v }
/-- Replace absent_count. -/
def Ctx.setAbsent (c : Ctx) (v : Nat) : Ctx := { c with w2 := putBits c.w2 63 36 v }

/-- The address of context `q` in the table. -/
def State.ctxAddr (s : State) (q : Nat) : Nat := s.rd .queue R.QUEUE_CFG.table_base / 2 ^ 25 * 2 ^ 25 + 32 * q

/-- The cached ways of the set of queue `q`. -/
def State.ways (s : State) (q : Nat) : List CtxWay := SMap.get (fun _ => []) s.queue.cache (q % 1024)

/-- Replace the ways of the set of queue `q`. -/
def setWays (q : Nat) (l : List CtxWay) (s : State) : State :=
  { s with queue := { s.queue with cache := SMap.set (fun _ => []) s.queue.cache (q % 1024) l } }

/-- The context is in the cache. -/
def State.cached (s : State) (q : Nat) : Bool := (s.ways q).any (fun w => w.q = q)

/-- The table's copy of context `q`. -/
def State.ctxTable (s : State) (q : Nat) : Ctx :=
  let a := s.ctxAddr q
  ⟨leNat (s.dramRead a 8), leNat (s.dramRead (a + 8) 8), leNat (s.dramRead (a + 16) 8), leNat (s.dramRead (a + 24) 8)⟩

/-- Write a context to the table. -/
def writeTable (q : Nat) (c : Ctx) (s : State) : State :=
  dramWrite (s.ctxAddr q) (leBytes 8 c.w0 ++ leBytes 8 c.w1 ++ leBytes 8 c.w2 ++ leBytes 8 c.w3) s

/-- Context `q`: the cached copy, else the table's. -/
def State.ctx (s : State) (q : Nat) : Ctx :=
  match (s.ways q).find? (fun w => w.q = q) with
  | some w => w.ctx
  | none => s.ctxTable q

/-- Update context `q`, in the cache where it stands there. -/
def setCtx (q : Nat) (c : Ctx) (s : State) : State :=
  if s.cached q then setWays q ((s.ways q).map (fun w => if w.q = q then { w with ctx := c, dirty := true } else w)) s
  else writeTable q c s

/-! ### Records on their way -/

/-- The first record of queue `q` that holds a sequence: its lowest open one. -/
def State.headRec (s : State) (q : Nat) : Option Rec := s.queue.recs.find? (fun r => r.q = q ∧ r.count = 0)

/-- Replace the record with the queue, sequence and count of `r`. -/
def setRec (r : Rec) (s : State) : State :=
  { s with queue := { s.queue with
      recs := s.queue.recs.map (fun x => if x.q = r.q ∧ x.seq = r.seq ∧ x.count = r.count then r else x) } }

/-- Remove a record. -/
def dropRec (r : Rec) (s : State) : State :=
  { s with queue := { s.queue with
      recs := s.queue.recs.filter (fun x => !(x.q = r.q ∧ x.seq = r.seq ∧ x.count = r.count : Bool)) } }

/-- A reservation is open. -/
def Rec.reserved (r : Rec) : Bool :=
  match r.phase with
  | .granted | .sealed | .flushing | .stalled => true
  | _ => false

/-- A request waits. -/
def Rec.waits (r : Rec) : Bool :=
  match r.phase with
  | .waiting _ => true
  | _ => false

/-- The record is abandoned. -/
def Rec.gone (r : Rec) : Bool :=
  match r.phase with
  | .absent _ => true
  | _ => false

/-- A reservation is open on queue `q`. -/
def State.reservedOn (s : State) (q : Nat) : Bool := s.queue.recs.any (fun r => decide (r.q = q) && r.reserved)

/-- The context is pinned (R199). -/
def State.pinned (s : State) (q : Nat) : Bool :=
  s.queue.recs.any (fun r => decide (r.q = q) && (r.reserved || r.waits)) || decide ((s.ctx q).unsignalled ≠ 0)

/-- The length of a record (R161). -/
def recLen (payload meas : Nat) : Nat := ceilDiv (64 + ceilDiv payload 8 * 8 + meas + 16) 64 * 64

/-- The payload of a record that is still in a ring and holds no staging (R196): the units of a capture, the slots of a continuous record. -/
def Rec.inRing (r : Rec) : Bool := decide (r.typ = 0x30) || decide (r.typ = 0x31) || decide (r.typ = 0x32)

/-- The bytes of a complete record in its producer's staging. -/
def Rec.stageLen (r : Rec) : Nat := recLen (if r.inRing then 32 else r.payload.length) r.meas.length

/-- The bytes a producer holds in its staging quota: complete records that await a grant (R196). -/
def Rec.staged (r : Rec) : Nat :=
  match r.phase with
  | .held _ | .ready | .waiting _ => r.stageLen
  | _ => 0

/-- The bytes of the records under construction in the staging of producer `p` (R196): channel records; what a ring, an accumulator or a
plane holds is not staged (log 15). -/
def State.growing (s : State) (p : Nat) : Nat :=
  if s.flag (.core p) R.SLICE_MODE.shadowing then 0
  else
    let b := if s.flag .chan (R.CHAN_CFG.format p) then 6 else 4
    (s.chans[Fin.ofNat 17 p].recs.map (fun x => match x.2 with | some r => recLen (32 + b * r.xs.length) 0 | none => 0)).sum

/-- QUEUE_STAGING: pinned contexts, staging in use and its high-water mark. -/
def showStaging (s : State) : State :=
  let pins := (s.queue.cache.map (fun x => (x.2.filter (fun w => s.pinned w.q)).length)).sum
  let kib := ceilDiv ((s.queue.recs.map Rec.staged).sum + ((List.range 17).map s.growing).sum) 1024
  let s := (s.wr .queue R.QUEUE_STAGING.pinned pins).wr .queue R.QUEUE_STAGING.in_use kib
  s.wr .queue R.QUEUE_STAGING.high_water (max kib (s.rd .queue R.QUEUE_STAGING.high_water))

/-- The class's check unit. -/
def State.recUnit (s : State) (r : Rec) : Nat :=
  if r.cls = 11 then s.rd .chan (R.CHAN_MAP.check_unit r.prod) else s.rd (.records r.prod) (R.REC_CLASS.check_unit r.cls)

/-- Count a sealed or abandoned record at its producer. -/
def countRec (r : Rec) (sealed : Bool) (s : State) : State :=
  let arg := s.recUnit r * 2 ^ 48 + r.seq % 2 ^ 48
  let s := s.when sealed (fun s => (s.observe r.prod 5 1 arg).observe 85 5 1 arg)
  if r.cls = 11 then
    s.cnt .chan (if sealed then R.CHAN_COUNTS.records_sealed r.prod else R.CHAN_COUNTS.records_abandoned r.prod) 1
  else s.cnt (.records r.prod) (if sealed then R.REC_COUNTS.sealed else R.REC_COUNTS.abandoned) 1

/-- A queue halts (R197). -/
def haltQueue (q cause : Nat) (s : State) : State :=
  let s := setCtx q ((s.ctx q).setBit 8 1) s
  let s := (s.wr .queue R.QUEUE_LAST_FAULT.queue q).wr .queue R.QUEUE_LAST_FAULT.cause cause
  s.fault .queue (match cause with
    | 0 => R.QUEUE_FAULT.ctx_ecc
    | 1 => R.QUEUE_FAULT.absent_overflow
    | _ => R.QUEUE_FAULT.target)

/-- One more sequence is to be announced absent: reason, T96 and bound are the first's (log 36), the span reaches to the end of this one's
data, if both are known (R176). -/
def AbsentRun.join (why : Nat) (r : Rec) : Option AbsentRun → AbsentRun
  | none => ⟨why, r.t1, r.bound, r.span⟩
  | some w => { w with span := if w.span = 0 ∨ r.span = 0 then 0 else max w.span (ofT96 r.t1 + r.span - ofT96 w.t1) }

/-- Abandoned records at the front of queue `q` enter absent_count (R196). -/
def absorb (q : Nat) : Nat → Op
  | 0, s => s
  | n + 1, s =>
    match s.headRec q with
    | some r =>
      match r.phase with
      | .absent why =>
        let c := s.ctx q
        let s := dropRec r s
        let w := AbsentRun.join why r (SMap.get (fun _ => none) s.queue.why q)
        let s := { s with queue := { s.queue with why := SMap.set (fun _ => none) s.queue.why q (some w) } }
        let s := setCtx q (c.setAbsent (min (2 ^ 28 - 1) (c.absent + 1))) s
        let s := if c.absent + 1 = 2 ^ 28 - 1 then haltQueue q 1 s else s
        absorb q n s
      | _ => s
    | none => s

/-- Abandon a record that holds a sequence: a reservation is rewound, and the sequence will be announced absent (R178). -/
def abandon (r : Rec) (why : Nat) (s : State) : State :=
  if r.count ≠ 0 || r.gone then s
  else if isSink r.q then dropRec r s
  else absorb r.q s.queue.recs.length (countRec r false (setRec { r with phase := .absent why, payload := [], meas := [] } s))

/-- A request is refused: the record is abandoned with reason 8 (R196). -/
def refuse (r : Rec) (s : State) : State := abandon r 8 ((s.cnt .queue R.QUEUE_COUNTS.refused 1).observe 83 10 1 r.q)

/-! ### Bytes of a record (R161, R163, R365) -/

/-- Zero bytes. -/
def zeros (n : Nat) : List Byte := List.replicate n 0

/-- The manifest of a record whose unit's alive counter is `alive`. -/
def State.manifest (s : State) (r : Rec) (alive : Nat) : List Byte :=
  let c : Blk := .core r.prod
  let b := leBytes 2 r.typ ++ leBytes 1 r.prod ++ leBytes 1 r.fl ++ leBytes 2 ((s.streamOf r.prod).getD 0)
    ++ leBytes 1 (s.mode r.prod) ++ leBytes 1 r.sub ++ leBytes 4 (s.rd c R.CORE_IMAGE.program_id)
    ++ leBytes 2 (s.rd c R.CORE_IMAGE.version) ++ zeros 2 ++ leBytes 8 r.seq ++ leBytes 12 r.t1.toNat ++ leBytes 12 r.t2.toNat
    ++ leBytes 2 r.bound ++ leBytes 2 r.mask ++ leBytes 4 r.payload.length ++ leBytes 2 r.pre ++ leBytes 1 (s.recUnit r)
    ++ zeros 1 ++ leBytes 2 alive
  b ++ leBytes 2 (crc 3 b)

/-- A whole record up to the trailer's CRC. -/
def State.recBody (s : State) (r : Rec) (alive : Nat) : List Byte :=
  let len := recLen r.payload.length r.meas.length
  let b := s.manifest r alive ++ r.payload ++ zeros (ceilDiv r.payload.length 8 * 8 - r.payload.length) ++ r.meas
  b ++ zeros (len - 16 - b.length) ++ leBytes 4 r.meas.length ++ leBytes 4 len

/-- Write bytes into the buffer of a queue from byte `a`, wrapping from its end to its start (R192). -/
def bufWrite (c : Ctx) (a : Nat) (bs : List Byte) (s : State) : State :=
  let n := 2 ^ c.log2size
  let o := a % n
  let s := targetWrite c.target (c.base + o) (bs.take (n - o)) s
  if n - o < bs.length then targetWrite c.target c.base (bs.drop (n - o)) s else s

/-- The check unit seals `r` and the record goes to its place; `mismatch` = the unit's two engines differ. -/
def sealRec (r : Rec) (mismatch : Bool) (s : State) : State × Option Rec :=
  let u := s.recUnit r
  if mismatch then
    (((s.fault .check R.CHK_FAULT.mismatch).wr .check R.CHK_FAULT.unit u).cnt .check (R.CHK_COUNTS.faults u) 1, none)
  else
    let alive := s.rd .check (R.CHK_ALIVE.alive u)
    let body := s.recBody r alive
    let (s, v) := checkUnit u (s.rd .check (R.CHK_CFG.poly u)) body s
    let s := s.wr .check (R.CHK_ALIVE.alive u) (alive + 1)
    let s := bufWrite (s.ctx r.q) (64 * r.off) (body ++ leBytes 8 v) s
    (s, some { r with phase := .sealed, alive := alive, len := body.length + 8 })

/-! ### Publication (R198) -/

/-- The waybill of a record (R362). -/
def State.recWaybill (s : State) (r : Rec) (sig : Bool) : Waybill :=
  let c := s.ctx r.q
  ⟨[0, 0] ++ leBytes 1 r.fl ++ leBytes 1 (s.recUnit r) ++ leBytes 4 r.q ++ leBytes 8 r.seq
    ++ leBytes 8 (64 * r.off % 2 ^ c.log2size) ++ leBytes 4 r.len ++ leBytes 2 r.typ ++ leBytes 2 r.alive, sig⟩

/-- A DESTROY that waits is done once no reservation is open. -/
def destroyCheck (s : State) : State :=
  match s.queue.destroying with
  | none => s
  | some q =>
    if s.reservedOn q then s
    else
      let s := setCtx q ((s.ctx q).setBit 7 0) s
      let s := { s with queue := { s.queue with destroying := none } }
      ((s.wr .queue R.QUEUE_CMD.go 0).wr .queue R.QUEUE_CMD.last_status 0).wr .queue R.QUEUE_CMD.last_cause 0

/-- The trailer of `r` has been accepted: waybill, produced, pub_seq and unsignalled, or a wait for the completion queue. -/
def publishRec (r : Rec) (s : State) : State :=
  let c := s.ctx r.q
  if s.cqRoom c.cq then
    let n := c.unsignalled + 1
    let sig := c.irq && decide (c.modCount ≤ n)
    let s := cqPush c.cq (s.recWaybill r sig) s
    let c := (c.setProduced (r.off + r.len / 64)).setUnsignalled (if sig then 0 else n)
    let c := { c with w3 := (r.seq + max 1 r.count) % 2 ^ 64 }
    let s := setCtx r.q (c.setAbsent (c.absent - r.count)) s
    let t := if sig then none else if n = 1 then some s.tim.raw else SMap.get (fun _ => none) s.queue.timers r.q
    let s := { s with queue := { s.queue with timers := SMap.set (fun _ => none) s.queue.timers r.q t } }
    let s := if r.count = 0 then s
      else { s with queue := { s.queue with why := SMap.set (fun _ => none) s.queue.why r.q none } }
    let s := (dropRec r s).cnt .queue R.QUEUE_PUBLISHED.count 1
    showStaging (destroyCheck (absorb r.q s.queue.recs.length s))
  else match r.phase with
    | .stalled => s
    | _ => cqStall c.cq (setRec { r with phase := .stalled } s)

/-- Some byte of the record lies in a peer window of the host: a flush read comes first (R349). -/
def State.recNeedsFlush (s : State) (r : Rec) : Bool :=
  let c := s.ctx r.q
  let o := 64 * r.off % 2 ^ c.log2size
  let n := min r.len (2 ^ c.log2size - o)
  !c.target && ((s.peerLine (c.base + o) n).isSome || (s.peerLine c.base (r.len - n)).isSome)

/-- A written record is published, or its flush read is issued. -/
def tryPublish (r : Rec) (s : State) : State :=
  if s.recNeedsFlush r then (setRec { r with phase := .flushing } s).cnt .dma R.DMA_COUNTS2.flush_reads 1
  else publishRec r s

/-- A write of `r` to its target failed (R197): an unpublished announcement goes with the record granted behind it. -/
def writeFailed (r : Rec) (s : State) : State :=
  let s := if r.count = 0 then abandon r 7 s
    else match (dropRec r s).headRec r.q with
      | some x => if x.reserved then abandon x 7 (dropRec r s) else dropRec r s
      | none => dropRec r s
  showStaging (destroyCheck (haltQueue r.q 2 s))

/-! ### Reservations (R196) -/

/-- The announcement of the absent sequences of the queue of `r` (R176, R177). -/
def State.announcement (s : State) (r : Rec) : Rec :=
  let c := s.ctx r.q
  let w := (SMap.get (fun _ => none) s.queue.why r.q).getD ⟨8, 0, 0, 0⟩
  { r with
    seq := c.pubSeq
    count := c.absent
    typ := 1
    sub := 2
    fl := 0
    t1 := w.t1
    t2 := 0
    bound := w.bound
    mask := 0
    pre := 0
    payload := leBytes 8 c.pubSeq ++ leBytes 8 c.absent ++ leBytes 12 (toT96 w.span 0).toNat ++ [2] ++ leBytes 1 w.reason ++ zeros 2
    meas := []
    phase := .granted
    off := c.produced }

/-- Put an announcement before the record it precedes. -/
def insertAnn (a : Rec) (s : State) : State :=
  { s with queue := { s.queue with recs := a :: s.queue.recs } }

/-- Begin the wait of a request. -/
def startWait (r : Rec) (s : State) : State :=
  match r.phase with
  | .ready => setRec { r with phase := .waiting s.tim.raw } s
  | _ => s

/-- The grant of `r`: the announcement first where sequences are absent, then the reservation. -/
def grant (r : Rec) (ann : AnnResult) (s : State) : State :=
  let c := s.ctx r.q
  let reserve := fun (off : Nat) (s : State) => setRec { r with phase := .granted, off := off % 2 ^ 36 } s
  if c.absent = 0 then reserve c.produced s
  else if s.wedged .check then startWait r s
  else
    let a := s.announcement r
    match ann with
    | .mismatch => refuse r (sealRec a true s).1
    | .writeFail =>
      let s := (sealRec a false s).1
      writeFailed a (insertAnn a (reserve (c.produced + 2) s))
    | .ok | .ctxCorrected | .ctxBad => match sealRec a false s with
      | (s, none) => refuse r s
      | (s, some a) =>
        let s := s.cnt (.records r.prod) R.REC_COUNTS2.gap_records 1
        tryPublish a (insertAnn a (reserve (c.produced + 2) s))

/-- The space test of R196. -/
def State.fits (s : State) (r : Rec) : Bool :=
  let c := s.ctx r.q
  let a := if c.absent = 0 then 0 else 128
  if r.typ = 1 then decide (a + 128 ≤ 64 * c.free)
  else decide (a + recLen r.payload.length r.meas.length + 128 ≤ 64 * c.free)

/-- An uncorrectable error hits the context of queue `q` (R197, R318): it is logged where the context stands, and the queue halts. -/
def ctxError (q : Nat) (s : State) : State :=
  let (x, s) := s.free 197
  if s.cached q then
    let s := setWays q ((s.ways q).map (fun w => if w.q = q then { w with bad := true } else w)) s
    -- the place of the cached contexts in the depot is not stated
    haltQueue q 0 (logBad .depot (x / 256 % 2 ^ 23 * 8) 0 (x % 256) s)
  else
    let l := s.ctxAddr q
    haltQueue q 0 (dramLog (s.dramChan l) (s.dramLocal l) (x % 256) 0 s)

/-- The context of queue `q` is read: an error the code finds is corrected and counted, or halts the queue. -/
def readCtx (q : Nat) (ann : AnnResult) (s : State) : State :=
  let bad := if s.cached q then (s.ways q).any (fun w => decide (w.q = q) && w.bad) else s.badLine (s.ctxAddr q)
  if bad || (decide (ann = .ctxBad) && s.cached q) then ctxError q s
  else if decide (ann = .ctxCorrected) && s.cached q then
    let (x, s) := s.free 197
    countCorrected .depot (x / 256 % 2 ^ 23 * 8) s
  else s

/-- The context of queue `q` becomes the most recently used of its set. A reservation request and the fetch are the uses that count: the spec
does not say whether a doorbell, a publication or a command does (DESIGN CHOICE, log 36). -/
def touchCtx (q : Nat) (s : State) : State :=
  let l := s.ways q
  setWays q (l.filter (fun w => w.q = q) ++ l.filter (fun w => w.q ≠ q)) s

/-- A free or unpinned way exists for queue `q`. -/
def State.wayFree (s : State) (q : Nat) : Bool :=
  decide ((s.ways q).length < 8) || (s.ways q).any (fun w => !s.pinned w.q)

/-- Contexts written back: QUEUE_CACHE.writebacks counts units of 65,536 of them. -/
def countWrites (n : Nat) (s : State) : State :=
  let w := s.queue.wrote + n
  let s := { s with queue := { s.queue with wrote := w % 65536 } }
  s.cnt .queue R.QUEUE_CACHE.writebacks (w / 65536)

/-- Evict the least recently used unpinned way of a full set; a modified context goes back to the table. -/
def evict (q : Nat) (s : State) : State :=
  let l := s.ways q
  if l.length < 8 then s
  else match (l.filter (fun w => !s.pinned w.q)).getLast? with
    | none => s
    | some v =>
      let s := setWays q (l.filter (fun w => w.q ≠ v.q)) s
      if v.dirty then countWrites 1 (writeTable v.q v.ctx s) else s

/-- A reservation request for `r`, the lowest open sequence of its queue (R196, R197, R203). -/
def request (r : Rec) (ann : AnnResult) (s : State) : State :=
  if !s.enabled .queue then refuse r s
  else if (s.quiescedAt .queue).isSome then startWait r s
  else if !s.cached r.q then
    if s.queue.fetching.contains r.q then startWait r s
    else
      let s := s.cnt .queue R.QUEUE_CACHE.misses 1
      let s := if s.wayFree r.q then s else s.cnt .queue R.QUEUE_CACHE.set_conflicts 1
      startWait r { s with queue := { s.queue with fetching := s.queue.fetching ++ [r.q] } }
  else
    let s := readCtx r.q ann (touchCtx r.q s)
    let c := s.ctx r.q
    if c.halted then refuse r s
    else if c.on && s.fits r then grant r ann s
    else startWait r s

/-- The queue's lowest open record asks, or asks again. -/
def ask (q : Nat) (ann : AnnResult) (s : State) : State :=
  match s.headRec q with
  | none => s
  | some r =>
    match r.phase with
    | .ready | .waiting _ => showStaging (request r ann s)
    | _ => s

/-- `len` bytes more enter their producer's staging quota of 2 MiB: the oldest waiting requests make room (R196). -/
def makeRoom (prod len : Nat) : Nat → Op
  | 0, s => s
  | n + 1, s =>
    let mine := s.queue.recs.filter (fun r => r.prod = prod)
    if (mine.map Rec.staged).sum + s.growing prod + len ≤ 2 ^ 21 then s
    else
      let since := fun (r : Rec) => match r.phase with | .waiting t => some t | _ => none
      let oldest := mine.foldl (fun (b : Option (Nat × Rec)) r => match since r, b with
        | some t, some (u, _) => if t < u then some (t, r) else b
        | some t, none => some (t, r)
        | none, b => b) none
      match oldest with
      | some (_, r) => makeRoom prod len n (refuse r s)
      | none => s

/-- Open a record on queue `q`: it takes the next sequence (R174); its data begin at `t1` with `bound` and cover `span`. -/
def openRec (q prod cls : Nat) (t1 : T96) (bound span : Nat) (s : State) : State × Nat :=
  let n := SMap.get (fun _ => 0) s.queue.alloc q
  let r : Rec := ⟨q, prod, cls, n, 0, 0, 0, 0, t1, 0, bound, 0, 0, [], [], .building, 0, 0, 0, span⟩
  ({ s with queue := { s.queue with
      alloc := SMap.set (fun _ => 0) s.queue.alloc q ((n + 1) % 2 ^ 64)
      recs := s.queue.recs ++ [r] } }, n)

/-- The open record `seq` of queue `q`. -/
def State.recOf (s : State) (q seq : Nat) : Option Rec :=
  s.queue.recs.find? (fun r => r.q = q ∧ r.seq = seq ∧ r.count = 0)

/-- What a takeover compares of a record (R308): every byte but the slice, the sequence, the alive value with the manifest CRC, and
the CAL_STALE flag. -/
def State.recHash (s : State) (r : Rec) : Nat :=
  let fl := if nbit r.fl 3 then r.fl - 8 else r.fl
  crc 2 (s.recBody { r with prod := 0, seq := 0, fl := fl } 0)

/-- A record is complete: it is staged and may ask; in a sink it is only compared. -/
def completeRec (r : Rec) (s : State) : State :=
  let s := tkoItem r.prod 2 [r.cls, r.typ, r.t1.toNat] (s.recHash r) s
  if isSink r.q then dropRec r s else
  let s := makeRoom r.prod r.stageLen s.queue.recs.length s
  match s.recOf r.q r.seq with
  | some _ => showStaging (setRec { r with phase := .ready } s)
  | none => s

/-! ### Commands on contexts (R193) -/

/-- QUEUE_CMD shows an operation's end. -/
def cmdDone (status cause : Nat) (s : State) : State :=
  ((s.wr .queue R.QUEUE_CMD.go 0).wr .queue R.QUEUE_CMD.last_status status).wr .queue R.QUEUE_CMD.last_cause cause

/-- QUEUE_CMD shows the operation and its queue; an operation in progress excludes another. -/
def cmdStart (op q : Nat) (f : Op) (s : State) : State :=
  if s.queue.destroying.isSome then s
  else f ((s.wr .queue R.QUEUE_CMD.op op).wr .queue R.QUEUE_CMD.queue q)

/-- Create a context from two words: counters zero, sequence 0. -/
def createCtx (q w0 w1 : Nat) (s : State) : State :=
  -- produced and unsignalled start at 0 whatever word 1 holds
  let c : Ctx := ⟨w0, w1, 0, 0⟩
  let s := setCtx q ((c.setProduced 0).setUnsignalled 0) s
  let s := setWays q ((s.ways q).map (fun w => if w.q = q then { w with bad := false } else w)) s
  { s with queue := { s.queue with
      alloc := SMap.set (fun _ => 0) s.queue.alloc q 0
      recs := s.queue.recs.filter (fun r => r.q ≠ q)
      why := SMap.set (fun _ => none) s.queue.why q none
      timers := SMap.set (fun _ => none) s.queue.timers q none } }

/-- CREATE's ALIGN test. -/
def ctxAlignOk (w0 : Nat) : Bool :=
  let k := w0 % 64
  decide (12 ≤ k) && decide (k ≤ 40) && decide (w0 / 4096 * 4096 % 2 ^ k = 0)

/-- CREATE. Where several refusals apply, last_cause shows the first of state, placed and ALIGN: the spec does not order them (DESIGN
CHOICE, log 36). -/
def opCreate (port : Port) (q : BitVec 20) (s : State) : State :=
  let q := q.toNat
  cmdStart 1 q (fun s =>
    let c := s.ctx q
    let w0 := s.rdw .queue 0x050
    if c.on then cmdDone 2 1 s
    else if c.placed && decide (port = .host) then cmdDone 2 3 s
    else if !ctxAlignOk w0 then cmdDone 2 2 (s.fault .queue R.QUEUE_FAULT.align)
    else cmdDone 0 0 (createCtx q w0 (s.rdw .queue 0x058) s)) s

/-- DESTROY. -/
def opDestroy (port : Port) (q : BitVec 20) (s : State) : State :=
  let q := q.toNat
  cmdStart 2 q (fun s =>
    let s := readCtx q .ok s
    let c := s.ctx q
    if !c.on then cmdDone 2 1 s
    else if c.placed && decide (port = .host) then cmdDone 2 3 s
    else
      let s := (s.wr .queue R.QUEUE_CMD.go 1).wr .queue R.QUEUE_CMD.last_status 1
      destroyCheck { s with queue := { s.queue with destroying := some q } }) s

/-- RESUME. -/
def opResume (q : BitVec 20) (s : State) : State :=
  let q := q.toNat
  cmdStart 3 q (fun s =>
    let s := readCtx q .ok s
    let c := s.ctx q
    if !c.halted then cmdDone 2 1 s else cmdDone 0 0 (setCtx q (c.setBit 8 0) s)) s

/-- INSPECT. -/
def opInspect (q : BitVec 20) (s : State) : State :=
  let q := q.toNat
  cmdStart 4 q (fun s =>
    let s := readCtx q .ok s
    let c := s.ctx q
    cmdDone 0 0 ((((s.wrw .queue 0x060 c.w0).wrw .queue 0x068 c.w1).wrw .queue 0x070 c.w2).wrw .queue 0x078 c.w3)) s

/-- A 64-bit doorbell (R195). -/
def opDoorbell (value : BitVec 64) (ann : AnnResult) (s : State) : State :=
  let q := value.toNat % 2 ^ 20
  let new := nbits value.toNat 55 20
  let s := readCtx q ann s
  let c := s.ctx q
  if !c.on || decide ((c.produced + 2 ^ 36 - c.consumed) % 2 ^ 36 < (new + 2 ^ 36 - c.consumed) % 2 ^ 36) then
    (s.fault .queue R.QUEUE_FAULT.doorbell_invalid).cnt .queue R.QUEUE_COUNTS.doorbell_invalid 1
  else
    let s := (s.wr .queue R.QUEUE_DOORBELL.queue q).wr .queue R.QUEUE_DOORBELL.consumed new
    let s := setCtx q (c.setConsumed new) s
    match s.headRec q with
    | some r => if r.waits && s.coreRuns then ask q ann s else s
    | none => s

/-! ### The queue engine's events -/

/-- A producer asks for queue `q`. -/
def opReservationRequest (q : BitVec 20) (ann : AnnResult) (s : State) : State :=
  if s.coreRuns then
    match s.headRec q.toNat with
    | some r => if decide (r.phase = .ready) then ask q.toNat ann s else s
    | none => s
  else s

/-- A waiting request has waited full_wait. -/
def opReservationTimeout (q : BitVec 20) (ann : AnnResult) (s : State) : State :=
  match s.headRec q.toNat with
  | some r =>
    match r.phase with
    | .waiting t =>
      if t + s.rd .queue R.QUEUE_CFG.full_wait * usUnits ≤ s.tim.raw then showStaging (ask q.toNat ann (refuse r s)) else s
    | _ => s
  | none => s

/-- Something holds up the writer of queue `q`: host_out is full, or mem_wr in front of the `n` bytes at unit `off` of its buffer
(R17, R18). -/
def State.bufStalls (s : State) (q off n : Nat) : Bool :=
  let c := s.ctx q
  if c.target then s.dramStalls (c.base + 64 * off % 2 ^ c.log2size) n else s.hostOutFull

/-- The staged bytes of a record hold an uncorrectable error (R178, R318): it is logged, its place among the reserved staging being not
stated, and the record is abandoned. Only the record concerned is: R178's 'every open record' is read as every one the case touches
(DESIGN CHOICE, log 36). -/
def stagedError (r : Rec) (s : State) : State :=
  let (x, s) := s.free 178
  destroyCheck (abandon r 7 (logBad .depot (x / 256 % 2 ^ 23 * 8) 0 (x % 256) s))

/-- The check unit seals the granted record of queue `q`; it waits while the writer stalls. -/
def opRecordSeal (q : BitVec 20) (how : SealResult) (s : State) : State :=
  match s.headRec q.toNat with
  | some r =>
    if decide (r.phase = .granted) && s.enabled .check && s.coreRuns
        && !s.bufStalls r.q r.off (recLen r.payload.length r.meas.length) then
      match how with
      | .staged => showStaging (stagedError r s)
      | _ => match sealRec r (decide (how = .mismatch)) s with
        | (s, some r) => showStaging (countRec r true (setRec r s))
        | (s, none) => showStaging (destroyCheck (abandon r 7 s))
    else s
  | none => s

/-- The first record of queue `q` in a phase. -/
def State.firstIn (s : State) (q : Nat) (p : RecPhase) : Option Rec := s.queue.recs.find? (fun r => r.q = q ∧ r.phase = p)

/-- The trailer of queue `q`'s record has been accepted by the target. -/
def opPublication (q : BitVec 20) (s : State) : State :=
  if s.enabled .queue && s.coreRuns && !s.hostOutFull then
    match s.queue.recs.find? (fun r => decide (r.q = q.toNat) && r.reserved) with
    | some r => if r.phase = .sealed then tryPublish r s else s
    | none => s
  else s

/-- The write of queue `q`'s record fails. -/
def opRecordWriteFailure (q : BitVec 20) (s : State) : State :=
  match s.queue.recs.find? (fun r => decide (r.q = q.toNat) && r.reserved) with
  | some r =>
    match r.phase with
    | .granted | .sealed => writeFailed r s
    | _ => s
  | none => s

/-- The moderation timer of queue `q` expires. -/
def opModerationTimer (q : BitVec 20) (s : State) : State :=
  let q := q.toNat
  let c := s.ctx q
  match SMap.get (fun _ => none) s.queue.timers q with
  | some t =>
    if c.irq && decide (c.modTimer ≠ 0) && decide (c.unsignalled ≠ 0)
        && decide (t + 2 ^ (c.modTimer - 1) * usUnits ≤ s.tim.raw) then
      let s := setCtx q (c.setUnsignalled 0) s
      let s := { s with queue := { s.queue with timers := SMap.set (fun _ => none) s.queue.timers q none } }
      showStaging (cqSignal c.cq s)
    else s
  | none => s

/-- A missed context arrives and its request proceeds; an uncorrectable error in it halts the queue (R197). -/
def opContextFetch (q : BitVec 20) (ann : AnnResult) (s : State) : State :=
  let q := q.toNat
  if !s.queue.fetching.contains q || !s.wayFree q || !s.dramOpen (s.ctxAddr q) 32 then s
  else
    let s := { s with queue := { s.queue with fetching := s.queue.fetching.filter (· ≠ q) } }
    let s := evict q s
    let l := s.ctxAddr q
    let bad := s.badLine l
    let s := s.when bad (fun s => let (x, s) := s.free 197; dramLog (s.dramChan l) (s.dramLocal l) (x % 256) 0 s)
    let s := setWays q (⟨q, s.ctxTable q, false, bad⟩ :: s.ways q) s
    ask q ann (s.when bad (haltQueue q 0))

/-! ### Shared with the rings -/

/-- A flush read completes; a failure is a target error of the write. -/
def opFlushReadComplete (who : WaybillOwner) (ok : Bool) (s : State) : State :=
  match who with
  | .ring r => ringFlushed r ok s
  | .queue q => match s.firstIn q .flushing with
    | some r => if !s.enabled .queue then s else if ok then publishRec r s else writeFailed r s
    | none => s

/-- A waybill that waits is written as its completion queue has room. -/
def opWaybill (who : WaybillOwner) (s : State) : State :=
  match who with
  | .ring r => ringWaybills r 2 s
  | .queue q => match s.firstIn q .stalled with
    | some r => if s.enabled .queue then publishRec r s else s
    | none => s

/-- The endpoint is reset (R350). -/
def endpointReset (s : State) : State :=
  if s.endpointWedged then s else
  let s := { s with host := { s.host with memSpace := false, hostOut := [], msixTable := [], pba := [] } }
  let s := s.wr .dma R.HOST_OUT_FERRY.level 0
  let s := ((s.wr .dma R.PCIE_STATUS.bus_master 0).wr .dma R.PCIE_STATUS.msix_enable 0).wr .dma R.PCIE_STATUS.function_mask 0
  let s := (s.wr .dma R.PCIE_STATUS.bar4_log2 28).cnt .dma R.PCIE_STATUS.link_downs 1
  let s := (s.wr .dma R.PCIE_STATUS.speed 0).wr .dma R.PCIE_STATUS.width 0
  let s := ringsReset s
  let s := s.each (s.queue.recs.filter (fun r => r.reserved && !(s.ctx r.q).target)) (fun r st =>
    match st.queue.recs.find? (fun x => x.q = r.q ∧ x.seq = r.seq ∧ x.count = r.count) with
    | some x => writeFailed x st
    | none => st)
  s.each (List.range 1024) (fun c st =>
    if st.cqOn c && !(st.cqSt c).target then st.wr (cqBlk c) (R.CQ_CFG.enable (c % 256)) 0 else st)

/-- PERST_N low, a hot reset, a link disable, a Function Level Reset or a loss of the data link. -/
def opEndpointReset (s : State) : State := endpointReset s

/-! ### The commands -/

/-- RESERVATION_REQUEST (R196): A producer asks the queue engine for a reservation, which is granted when space allows or waits. -/
def execReservationRequest (q : BitVec 20) (ann : AnnResult) (s : State) : Host.Outcome State Fault Refusal :=
  .next (opReservationRequest q ann s)
/-- RESERVATION_TIMEOUT (R196): A waiting reservation reaches full_wait, is refused, and its record is abandoned with reason 8. -/
def execReservationTimeout (q : BitVec 20) (ann : AnnResult) (s : State) : Host.Outcome State Fault Refusal :=
  .next (opReservationTimeout q ann s)
/-- RECORD_SEAL (R178): The check unit seals a written record, writing the CRCs, the alive counter and the trailer last. -/
def execRecordSeal (q : BitVec 20) (how : SealResult) (s : State) : Host.Outcome State Fault Refusal :=
  .next (opRecordSeal q how s)
/-- PUBLICATION (R198): A record's trailer is accepted by the target; the queue engine writes the waybill, advances produced and pub_seq, and moderates the signal. -/
def execPublication (q : BitVec 20) (s : State) : Host.Outcome State Fault Refusal :=
  .next (opPublication q s)
/-- RECORD_WRITE_FAILURE (R197): A record write to its target ends in a time-out or error and the queue is halted. -/
def execRecordWriteFailure (q : BitVec 20) (s : State) : Host.Outcome State Fault Refusal :=
  .next (opRecordWriteFailure q s)
/-- MODERATION_TIMER (R198): mod_timer expires after the first unsignalled waybill and the completion queue is asked to signal. -/
def execModerationTimer (q : BitVec 20) (s : State) : Host.Outcome State Fault Refusal :=
  .next (opModerationTimer q s)
/-- CONTEXT_FETCH (R199): A missed queue context arrives in the depot cache and its waiting request proceeds. -/
def execContextFetch (q : BitVec 20) (ann : AnnResult) (s : State) : Host.Outcome State Fault Refusal :=
  .next (opContextFetch q ann s)
/-- DOORBELL (R195): A 64-bit QUEUE_DOORBELL write advances consumed if valid and re-tests waiting reservations. -/
def execDoorbell (value : BitVec 64) (ann : AnnResult) (s : State) : Host.Outcome State Fault Refusal :=
  .next (onWrite (opDoorbell value ann) s)
/-- CREATE (R193): QUEUE_CMD CREATE writes a queue context from QUEUE_CTX_IN. -/
def execCreate (port : Port) (q : BitVec 20) (s : State) : Host.Outcome State Fault Refusal :=
  .next (onWrite (opCreate port q) s)
/-- DESTROY (R193): QUEUE_CMD DESTROY clears the queue's enable once no reservation is open. -/
def execDestroy (port : Port) (q : BitVec 20) (s : State) : Host.Outcome State Fault Refusal :=
  .next (onWrite (opDestroy port q) s)
/-- RESUME (R193): QUEUE_CMD RESUME clears halted on a queue. -/
def execResume (q : BitVec 20) (s : State) : Host.Outcome State Fault Refusal :=
  .next (onWrite (opResume q) s)
/-- INSPECT (R193): QUEUE_CMD INSPECT copies a context to QUEUE_CTX_OUT. -/
def execInspect (q : BitVec 20) (s : State) : Host.Outcome State Fault Refusal :=
  .next (onWrite (opInspect q) s)
/-- FLUSH_READ_COMPLETE (R349): The flush read to a peer window completes and the waybill may be written. -/
def execFlushReadComplete (who : WaybillOwner) (ok : Bool) (s : State) : Host.Outcome State Fault Refusal :=
  .next (opFlushReadComplete who ok s)
/-- WAYBILL (R361): A waybill is written to a completion queue with room, tail advances, and MSI-X is requested. -/
def execWaybill (who : WaybillOwner) (s : State) : Host.Outcome State Fault Refusal :=
  .next (opWaybill who s)
/-- ENDPOINT_RESET (R350): PERST_N, a hot reset, a link disable, an FLR or link loss resets the endpoint, halts the rings and disables host completion queues. -/
def execEndpointReset (s : State) : Host.Outcome State Fault Refusal :=
  .next (opEndpointReset s)

end Sys2Proof.Machine
end

