-- ==== Sys2Proof/Machine/Link.lean ====
section
/-!
DEFINITION. Sys2Proof/Machine/Link.lean: the Oroten link's formats: control blocks and their CRC, sample formats, lane splits
(R48 to R60), shared by receivers and transmitters.
-/
namespace Sys2Proof.Machine
open Sys2Proof

/-! ### Line bits (R49, R50) -/

/-- A block from the 66 bits of a lane, header first: 01 (first bit 0, second 1) is data, 10 control; payload bit 0 comes first. -/
def LBlock.ofBits (w : Nat) : LBlock :=
  ⟨match w % 4 with | 2 => .data | 1 => .control | _ => .invalid, BitVec.ofNat 64 (w / 4)⟩

/-- The 66 bits of a block. -/
def LBlock.bits (b : LBlock) : Nat := (match b.hdr with | .data => 2 | .control => 1 | .invalid => 0) + 4 * b.payload.toNat

/-- x^58 + x^39 + 1 on 64 received payload bits `c`, with the 58 bits before them in `h`, the most recent highest: the payload, and the last
58 bits. Bit n is c[n] + c[n − 39] + c[n − 58]. -/
def descramble (h c : Nat) : Nat × Nat :=
  let v := h % 2 ^ 58 + c % 2 ^ 64 * 2 ^ 58
  (Nat.xor (Nat.xor (v / 2 ^ 58) (v / 2 ^ 19)) v % 2 ^ 64, v / 2 ^ 64)

/-- The scrambler: c[n] = d[n] + c[n − 39] + c[n − 58]; the first 39 bits rest on the history alone, the others on those too. -/
def scramble (h d : Nat) : Nat × Nat :=
  let h := h % 2 ^ 58
  let lo := Nat.xor (Nat.xor d (h / 2 ^ 19)) h % 2 ^ 39
  let v := h + lo * 2 ^ 58
  let hi := Nat.xor (Nat.xor (d / 2 ^ 39) lo) (v / 2 ^ 39) % 2 ^ 25
  let c := lo + hi * 2 ^ 39
  (c, (h + c * 2 ^ 58) / 2 ^ 64)

/-! ### Test patterns (R74) -/

/-- The two taps of a pattern: PRBS7, PRBS15, PRBS23, PRBS31. -/
def prbsTaps (p : Nat) : Nat × Nat := match p with | 0 => (7, 6) | 1 => (15, 14) | 2 => (23, 18) | _ => (31, 28)

/-- The next bit of pattern `p` after the bits `q`, the most recent lowest. -/
def prbsNext (p q : Nat) : Bool := nbit q ((prbsTaps p).1 - 1) != nbit q ((prbsTaps p).2 - 1)

/-- The line bit of a pattern bit: O.150 sends the three longer patterns inverted (PRESUMED, log 36). -/
def prbsLine (p : Nat) (b : Bool) : Bool := b != decide (p ≠ 0)

/-- The last 31 bits once `b` has followed `q`. -/
def prbsShift (q : Nat) (b : Bool) : Nat := (q * 2 + bit b) % 2 ^ 31

/-- `n` line bits of pattern `p`, the first lowest, and the last 31 bits of its sequence. -/
def prbsGo (p : Nat) : Nat → Nat → Nat × Nat
  | 0, q => (0, q)
  | n + 1, q =>
    let b := prbsNext p q
    let (v, r) := prbsGo p n (prbsShift q b)
    (bit (prbsLine p b) + 2 * v, r)

/-- The errors in a string of 128. -/
def errCount (e : Nat) : Nat := ((List.range 128).filter (nbit e)).length

/-- A checker at work: whether it is in sync, the checker, and what it has counted. -/
structure ChkRun where
  sync : Bool
  chk : PrbsChk
  bits : Nat
  errors : Nat
  losses : Nat
  deriving DecidableEq, Repr

/-- One received line bit at the checker of pattern `p`: it seeds itself, is in sync after 64 error-free bits, and loses sync at 16 errors
within 128 bits. -/
def ChkRun.take (p : Nat) (r : ChkRun) (l : Bool) : ChkRun :=
  let b := prbsLine p l
  let c := r.chk
  let want := prbsNext p c.seq
  if r.sync then
    let e := (c.errs * 2 + bit (b != want)) % 2 ^ 128
    let r := { r with bits := r.bits + 1, errors := r.errors + bit (b != want) }
    if 16 ≤ errCount e then { r with sync := false, chk := .zero, losses := r.losses + 1 }
    else { r with chk := { c with seq := prbsShift c.seq want, errs := e } }
  else if c.seeded < (prbsTaps p).1 then { r with chk := { c with seq := prbsShift c.seq b, seeded := c.seeded + 1 } }
  else
    let good := if b == want then c.good + 1 else 0
    let c := { c with seq := prbsShift c.seq b, good := good }
    if 64 ≤ good then { r with sync := true, chk := { c with errs := 0 } } else { r with chk := c }

/-- `n` line bits of `w`, the lowest first. -/
def ChkRun.go (p : Nat) : Nat → Nat → ChkRun → ChkRun
  | 0, _, r => r
  | n + 1, w, r => ChkRun.go p n (w / 2) (r.take p (nbit w 0))

/-! ### Control blocks (R54 to R60) -/

/-- The CRC-8 of R54 after `n` payload bits from bit `i`. -/
def crc8Go (w : Nat) : Nat → Nat → Nat → Nat
  | 0, _, c => c
  | n + 1, i, c =>
    let fb := nbit c 7 != nbit w i
    crc8Go w n (i + 1) (if fb then Nat.xor (c * 2 % 256) 0x07 else c * 2 % 256)

/-- The byte [63:56] of a control block whose bits [55:0] are `w`: bit 56 + j holds crc[7 − j]. -/
def crc8Byte (w : Nat) : Nat :=
  let c := crc8Go w 56 0 0
  (List.range 8).foldl (fun a j => a + (if nbit c (7 - j) then 2 ^ j else 0)) 0

/-- A control block of type `ty` with body `body`. -/
def ctrlBlock (ty : Nat) (body : Nat) : LBlock :=
  let w := ty + body % 2 ^ 48 * 256
  { hdr := .control, payload := BitVec.ofNat 64 (w + crc8Byte w * 2 ^ 56) }

/-- The type of a control block. -/
def LBlock.type (b : LBlock) : Nat := b.payload.toNat % 256
/-- The body of a control block. -/
def LBlock.body (b : LBlock) : Nat := b.payload.toNat / 256 % 2 ^ 48
/-- The CRC of a control block holds. -/
def LBlock.crcOk (b : LBlock) : Bool := b.payload.toNat / 2 ^ 56 = crc8Byte (b.payload.toNat % 2 ^ 56)

/-- A LINKCMD body (R60). -/
def linkBody (cmd lane eff arg tag : Nat) : Nat :=
  cmd % 16 + lane % 16 * 2 ^ 4 + eff % 65536 * 2 ^ 8 + arg % 256 * 2 ^ 24 + tag % 256 * 2 ^ 32

/-! ### Lane splits (R52) -/

/-- Sub-streams of a split. -/
def splitSubs (sp : Nat) : Nat := match sp with | 0 => 1 | 1 => 3 | 2 => 5 | _ => 0
/-- Lanes of one sub-stream of a split. -/
def splitLanes (sp : Nat) : Nat := match sp with | 0 => 15 | 1 => 5 | _ => 3
/-- Minimum active lanes of one sub-stream. -/
def splitMin (sp : Nat) : Nat := match sp with | 0 => 8 | 1 => 3 | _ => 2

/-- The active lanes of sub-stream `k`, ascending; bit n − 1 of `mask` is lane n. -/
def subLanes (sp k mask : Nat) : List Nat :=
  if k ≥ splitSubs sp then []
  else ((List.range (splitLanes sp)).map (fun j => splitLanes sp * k + j + 1)).filter (fun n => nbit mask (n - 1))

/-- A mask in which some sub-stream falls below its minimum (R70). -/
def belowMin (sp mask : Nat) : Bool :=
  (List.range (splitSubs sp)).any (fun k => decide ((subLanes sp k mask).length < splitMin sp))

/-! ### Sample formats (R53) -/

/-- Bits of a sample. -/
def fmtBits (f : Nat) : Nat := match f with | 0 => 32 | 1 => 32 | 2 => 24 | 3 => 48 | 4 => 16 | _ => 12
/-- A real format: X16 or X12. -/
def fmtReal (f : Nat) : Bool := f = 4 || f = 5
/-- Codes 6 and 7 name no format. -/
def fmtValid (f : Nat) : Bool := f ≤ 5

/-- I, Q (24 bits, left-justified) and the overrange flag of one sample. -/
def unpackSample (f raw : Nat) : Int × Int × Bool :=
  match f with
  | 0 => (signed 16 raw * 256, signed 16 (raw / 65536) * 256, false)
  | 1 => (signed 15 raw * 512, signed 15 (raw / 65536) * 512, nbit raw 15 || nbit raw 31)
  | 2 => (signed 12 raw * 4096, signed 12 (raw / 4096) * 4096, false)
  | 3 => (signed 24 raw, signed 24 (raw / 2 ^ 24), false)
  | 4 => (signed 16 raw * 256, 0, false)
  | _ => (signed 12 raw * 4096, 0, false)

/-- A component packed into `w` bits: rounded half to even, saturated; its code and whether it saturated. -/
def packComp (w : Nat) (x : Int) : Nat × Bool :=
  let r := rne x (24 - w)
  (code w (sat w r), decide (sat w r ≠ r))

/-- A sample packed by a TXG, and its overrange flag: in-band in C15F. -/
def packSample (f : Nat) (i q : Int) (ovr : Bool) : Nat :=
  match f with
  | 0 => (packComp 16 i).1 + (packComp 16 q).1 * 65536
  | 1 =>
    let a := packComp 15 i
    let b := packComp 15 q
    a.1 + bit (a.2 || ovr) * 2 ^ 15 + b.1 * 65536 + bit b.2 * 2 ^ 31
  | 2 => (packComp 12 i).1 + (packComp 12 q).1 * 4096
  | 3 => (packComp 24 i).1 + (packComp 24 q).1 * 2 ^ 24
  | 4 => (packComp 16 i).1
  | _ => (packComp 12 i).1

/-! ### Rates (R48) -/

/-- Block times that lie within 20 ns at rate code `r`, and within the 16-block deskew buffer. -/
def skewBlocks (r : Nat) : Nat := match r with | 0 => 8 | 1 => 6 | 2 => 4 | _ => 2

/-- The edges of CK/64 in 65,536 cycles of XO_IN at nominal rate. -/
def ckNominal (r : Nat) : Nat := match r with | 0 => 135168 | 1 => 101376 | 2 => 67584 | _ => 33792

/-- The value nearest `own` among those equal to `v` modulo 2^w (R58, R59). -/
def extendNear (w v own : Nat) : Nat :=
  let d := wrapS w ((v : Int) - own)
  ((own : Int) + d).toNat

/-- Replace the receive state of group `g`. -/
def State.setRx (s : State) (g : Fin 16) (r : RxSt) : State := { s with rx := s.rx.set g r }

/-- Replace one receive sub-stream. -/
def State.setSub (s : State) (g : Fin 16) (k : Fin 5) (x : RxSub) : State :=
  s.setRx g { s.rx[g] with subs := (s.rx[g]).subs.set k x }

/-- Replace the transmit state of group `g`. -/
def State.setTx (s : State) (g : Fin 16) (x : TxSt) : State := { s with tx := s.tx.set g x }

/-- Replace one transmit sub-stream. -/
def State.setTxSub (s : State) (g : Fin 16) (k : Fin 5) (x : TxSub) : State :=
  s.setTx g { s.tx[g] with subs := (s.tx[g]).subs.set k x }

/-- TXG[g] is enabled and its clock runs: it drives its lanes. -/
def State.txOn (s : State) (g : Fin 16) : Bool := s.enabled (.txg g) && s.pllRuns (4 + g.val / 4)

/-- The link receivers run in READY, RUN and HOLD (R78). -/
def State.linkUp (s : State) : Bool := decide (s.dev = .ready) || decide (s.dev = .run) || decide (s.dev = .hold)

end Sys2Proof.Machine
end

