-- ==== Sys2Proof/Machine/Xform.lean ====
section
/-!
DEFINITION. Sys2Proof/Machine/Xform.lean: the transform engine of a slice (R103 to R122): window stores, selections, frames,
power words.
-/
namespace Sys2Proof.Machine
open Sys2Proof

/-! ### Frames and gangs (R103, R117) -/

/-- Slice `i` is not ganged, or leads its gang. -/
def State.leads (s : State) (i : Nat) : Bool :=
  let l := s.rd (.filt i) R.XF_GANG.lead_slice
  decide (s.gangG i = 1) || decide (l = i)
    || (s.flag (.core i) R.SLICE_MODE.shadowing && decide (l = s.rd (.core i) R.SLICE_MODE.shadow_of))
/-- The slice that carries the combiner, the records and the log of slice `i`'s gang. -/
def State.lead (s : State) (i : Fin 17) : Fin 17 :=
  if s.gangG i = 1 then i else Fin.ofNat 17 (s.rd (.filt i) R.XF_GANG.lead_slice)
/-- The slice's caravan is the frame: SPECTRUM and RELAY (R14, R103). -/
def State.framed (s : State) (i : Nat) : Bool := decide (s.mode i = 0) || decide (s.mode i = 4)

/-- The outputs of a caravan: H for frames, 4,096 otherwise (R95). -/
def State.caravan (s : State) (i : Nat) : Nat := if s.framed i then s.frameH i else 4096

/-- The time `n` outputs of slice `i` take, in units of 2^-16 ns. -/
def State.outSpan (s : State) (i n : Nat) : Nat :=
  match s.streamOf i with
  | some c => n * s.chainD i * secUnits / max 1 (s.streamRate c)
  | none => 0

/-- T96(m) of working output `m` of context `c`, by the map in force (R98). -/
def State.outTime (s : State) (i : Fin 17) (c m : Nat) : Int :=
  let rate := s.streamRate c
  rneDiv (s.sampleTime c (m * s.chainD i) * (256 * rate : Nat) - (s.chainGD i * secUnits : Nat)) (256 * rate)

/-- The outputs still to come of the caravan under way, with frames of those that have begun. -/
def State.caravanLeft (s : State) (i : Fin 17) : Nat :=
  let c := s.chains[i]
  if s.framed i then (c.fstarts.map (fun x => x.f * s.frameH i + s.frameN i - c.pos)).foldl max 0
  else if c.carOpen then (4096 - c.pos % 4096) % 4096 else 0

/-- A quiesce asked for when `raw` was `t` does not wait for that caravan: it would not end within 50 µs (R22). -/
def State.caravanCut (s : State) (i : Fin 17) (t : Nat) : Bool :=
  decide (t + 50 * 65536000 < s.tim.raw + s.outSpan i (s.caravanLeft i))

/-- The chain of slice `i` has no caravan to finish for a quiesce asked for when `raw` was `t`. -/
def State.chainRests (s : State) (i : Fin 17) (t : Nat) : Bool :=
  !s.enabled (.filt i) || !s.chains[i].any || (s.chains[i].left).isSome || decide (s.caravanLeft i = 0) || s.caravanCut i t

/-! ### Window stores (R108, R109, R114) -/

/-- The reference of store `b`, lowered for real streams (R114). -/
def showRef (i : Fin 17) (s : State) : State :=
  let b := s.rd (.filt i) R.XF_STATUS.active_store
  let r := signed 16 (s.rd (.filt i) (R.WIN_INFO.ref_c b)) - (if s.flag (.filt i) R.XF_CFG.real_ref then 771 else 0)
  s.wri (.filt i) R.PWR_REF.ref128 r

/-- XF_STATUS.load_busy and window_pending. -/
def showXf (i : Fin 17) (s : State) : State :=
  let c := s.chains[i]
  let s := s.wr (.filt i) R.XF_STATUS.load_busy (bit ((c.winLoad[0]).isSome || (c.winLoad[1]).isSome))
  s.wr (.filt i) R.XF_STATUS.window_pending (s.rd (.filt i) R.XF_COMMIT.window)

/-- The slice whose chain carries the stream of slice `i`: itself, or the lead of its gang. -/
def State.chainOf (s : State) (i : Fin 17) : Fin 17 := if s.leads i then i else s.lead i

/-- Frames that have begun, or wait to be formed, are windowed with store `b`. -/
def State.storeUsed (s : State) (i : Fin 17) (b : Nat) : Bool :=
  let c := s.chains[s.chainOf i]
  c.fstarts.any (fun f => decide (f.store = b)) || c.jobs.any (fun j => decide (j.st.store = b))

/-- Store `b` is in use: it is selected, or frames that began before a switch still need it. -/
def State.storeActive (s : State) (i : Fin 17) (b : Nat) : Bool :=
  s.enabled (.filt i) && s.framed i && (decide (s.rd (.filt i) R.XF_STATUS.active_store = b) || s.storeUsed i b)

/-- Store `b` is the target of a pending selection. -/
def State.storePending (s : State) (i : Fin 17) (b : Nat) : Bool :=
  s.flag (.filt i) R.XF_COMMIT.window && decide (s.rd (.filt i) R.WIN_STAGE.store = b)

/-- WIN_STORE[b] names a window that cannot be loaded. -/
def State.winInvalid (s : State) (i : Fin 17) (b : Nat) : Bool :=
  let ty := s.rd (.filt i) (R.WIN_STORE.type b)
  let lt := s.rd (.filt i) (R.WIN_STORE.log2t b)
  decide (ty = 7) || (decide (ty = 5) && decide (2 < s.rd (.filt i) (R.WIN_STORE.param b)))
    || decide (s.log2n i < 6) || decide (16 < s.log2n i)
    || (decide (ty = 6) && (decide (lt < s.log2n i) || decide (lt < 6) || decide (16 < lt)))

/-- WIN_STORE[b].load is written 1. -/
def winLoadStart (i : Fin 17) (b : Fin 2) (s : State) : State :=
  let c := s.chains[i]
  if (c.winLoad[b]).isSome then s
  else if s.storeActive i b || s.storePending i b || s.winInvalid i b then
    (s.wr (.filt i) R.XF_FAULT.load_refused 1).wr (.filt i) (R.WIN_STORE.load b) 0
  else
    let s := (s.wr (.filt i) (R.WIN_STORE.load b) 1).wr (.filt i) (R.WIN_STORE.loaded b) 0
    -- the management controller generates the windows of types 0 to 5
    let s := s.when (decide (s.rd (.filt i) (R.WIN_STORE.type b) ≠ 6)) mgmtUp
    showXf i (s.setChain i { c with winLoad := c.winLoad.set b (some (BitVec.ofNat 64 (s.rdw (.filt i) (0x418 + 8 * b.val)))) })

/-- The values a load of WIN_STORE word `w` gives for 2^`l` points. -/
def State.winValues (s : State) (i : Fin 17) (w : Nat) (l : Nat) : List Int :=
  let ty := w % 8
  if ty = 6 then
    let lt := w / 2 ^ 27 % 32
    let a := w / 2 ^ 7 % 2 ^ 20
    (List.range (2 ^ l)).map (fun n => signed 18 (memNat s.mem.lmem[i] ((8 * a + 4 * (n * 2 ^ (lt - l))) % 2 ^ 23) 4))
  else (List.range (2 ^ l)).map (fun n => winVal ty (w / 8 % 16) n (2 ^ l))

/-- The `T` words that a user table's load copies: an uncorrectable error among them is one of the window store (R121, R318). -/
def winCheck (i : Fin 17) (w : Nat) (s : State) : State :=
  let a := 8 * (w / 2 ^ 7 % 2 ^ 20) % 2 ^ 23
  let n := 4 * 2 ^ (w / 2 ^ 27 % 32)
  if (s.firstBad (.lmem i) a n).isNone then s
  else
    let s := (checkRead (.lmem i) a n 1 s).fault (.filt i) R.XF_FAULT.win_ecc
    residueError i 1 (s.cnt (.filt i) R.XF_RESIDUE.residue_errors 1)

/-- The load of store `b` ends (R109): WIN_INFO, n_loaded and loaded; a user table that sums to 0 leaves no window. The spec does not say
which log2n a load uses when XF_CFG changes while it runs: the one at its end, without a second test of it (DESIGN CHOICE, log 36); nor what
ENBW shows where it exceeds its 24 bits: its low 24 bits (DESIGN CHOICE, log 36). -/
def winLoadEnd (i : Fin 17) (b : Fin 2) (s : State) : State :=
  let c := s.chains[i]
  match c.winLoad[b] with
  | none => s
  | some w =>
    let u := s.winValues i w.toNat (s.log2n i)
    let s := (s.when (decide (w.toNat % 8 ≠ 6)) mgmtDown).wr (.filt i) (R.WIN_STORE.load b) 0
    let s := s.when (decide (w.toNat % 8 = 6)) (winCheck i w.toNat)
    let c := s.chains[i]
    let s := s.setChain i { c with winLoad := c.winLoad.set b none }
    if u.sum = 0 then showXf i (s.wr (.filt i) R.XF_FAULT.load_refused 1)
    else
      let s := s.setChain i { s.chains[i] with wins := s.chains[i].wins.set b u }
      let s := (s.wr (.filt i) (R.WIN_STORE.loaded b) 1).wr (.filt i) (R.WIN_STORE.n_loaded b) (s.log2n i)
      let s := (s.wri (.filt i) (R.WIN_INFO.sum b) u.sum).wr (.filt i) (R.WIN_INFO.enbw b) (winEnbw u)
      showXf i (showRef i (s.wri (.filt i) (R.WIN_INFO.ref_c b) (sat 16 (winRef u))))

/-- XF_COMMIT.window is written 1. -/
def winCommit (i : Fin 17) (byCore : Bool) (s : State) : State :=
  let s := (s.wr (.filt i) R.XF_COMMIT.window 1).wr (.filt i) R.XF_COMMIT.last_cmd 1
  let loading := (s.chains[i].winLoad[Fin.ofNat 2 (s.rd (.filt i) R.WIN_STAGE.store)]).isSome
  let s := s.wr (.filt i) R.XF_COMMIT.last_status (if loading then 2 else 1)
  let s := s.when byCore (fun s => s.setChain i { s.chains[i] with byCore := Nat.lor s.chains[i].byCore 4 })
  showXf i (if loading then commitDone i 2 false s else s)

/-- Store `b` of slice `i` cannot be selected. -/
def State.storeUnfit (s : State) (i : Nat) (b : Nat) : Bool :=
  !s.flag (.filt i) (R.WIN_STORE.loaded b) || decide (s.rd (.filt i) (R.WIN_STORE.n_loaded b) ≠ s.log2n i)

/-- The pending selection at a caravan boundary (R110): done, deferred behind a load, or refused; in a gang for every member at once
(R118). -/
def applyWindow (i : Fin 17) (s : State) : State :=
  match s.committer i R.XF_COMMIT.window with
  | none => s
  | some c =>
    let gs := s.gang i
    let b := s.rd (.filt c) R.WIN_STAGE.store
    let each := fun (f : Fin 17 → Op) (s : State) =>
      s.each gs (fun g st => if st.flag (.filt g) R.XF_COMMIT.window then f g st else st)
    let done := fun (st : Nat) => each (fun g s =>
      commitDone g 2 true (showXf g ((s.wr (.filt g) R.XF_COMMIT.window 0).wr (.filt g) R.XF_COMMIT.last_status st)))
    if b = s.rd (.filt i) R.XF_STATUS.active_store then done 0 s
    else if gs.any (fun g => (s.chains[g].winLoad[Fin.ofNat 2 b]).isSome) then
      each (fun g s => if s.rd (.filt g) R.XF_COMMIT.last_status = 2 then s
        else commitDone g 2 false (s.wr (.filt g) R.XF_COMMIT.last_status 2)) s
    else if gs.any (fun g => s.storeUnfit g b) then done 3 (s.each gs (fun g st => st.wr (.filt g) R.XF_FAULT.select_refused 1))
    else done 0 (s.each gs (fun g st => showRef g (st.wr (.filt g) R.XF_STATUS.active_store b)))

/-! ### Enable (R105, R107, R122) -/

/-- XF_CFG, the staged store or XF_GANG make the slot refuse enable in SPECTRUM and RELAY. -/
def State.xfRefuses (s : State) (i : Fin 17) : Bool :=
  let b := s.rd (.filt i) R.WIN_STAGE.store
  s.framed i && (decide (s.log2n i < 6) || decide (16 < s.log2n i) || !s.flag (.filt i) (R.WIN_STORE.loaded b)
    || decide (s.rd (.filt i) (R.WIN_STORE.n_loaded b) ≠ s.log2n i)
    || decide (s.rd (.filt i) R.XF_GANG.size_m1 < s.rd (.filt i) R.XF_GANG.member))

/-- The instantaneous frequency of PLL_CORE, spread aside, in units of 250 kHz rounded down (R383, R384). -/
def State.coreFreqNow (s : State) : Nat :=
  match s.clk.ramp with
  | g :: _ =>
    if s.rd .clocks R.CLK_STATUS.ramp_state = 2 then
      let d := max 1 g.micros * usUnits
      let e := min d (s.tim.raw - s.clk.segAt)
      (s.clk.from_ * (d - e) + g.target * e) / d
    else s.clk.from_
  | [] => s.rd .clocks R.CLK_CORE.freq

/-- The mean frequency in Hz of a CORE clock at `f` quarters of a MHz under the down-spread in force, which takes half of its depth (R12). -/
def State.spreadHz (s : State) (f : Nat) : Nat := f * 250000 - f * 250000 * s.clk.spread / 4000

/-- The CORE clock's mean frequency in Hz (R12). -/
def State.coreHz (s : State) : Nat := s.spreadHz (s.rd .clocks R.CLK_CORE.freq)

/-- The CORE clock's mean frequency in Hz at this moment of a ramp. -/
def State.coreHzNow (s : State) : Nat := s.spreadHz s.coreFreqNow

/-- The directions slice `i` runs transforms in: RELAY both, SPECTRUM forward, SYNTHESISE from frames inverse (R105). -/
def State.xfDirs (s : State) (i : Nat) : Nat :=
  match s.mode i with
  | 0 => 1
  | 3 => if s.rd (.records i) R.SYN_CFG.src = 1 then 1 else 0
  | 4 => 2
  | _ => 0

/-- fs_w of slice `i` as a numerator and a denominator: its stream decimated, or the rate it synthesises. -/
def State.workRate (s : State) (i : Nat) : Nat × Nat :=
  if s.mode i = 3 then (s.rd (.records i) R.SYN_RATE.rate * 800000000, 2 ^ 40)
  else ((match s.streamOf i with | some c => s.streamRate c | none => 0), s.chainD i)

/-- XF_LOAD (R105): Σ over directions of fs_w·N/(G·H), per mille of 32 samples per core cycle, rounded up. -/
def State.xfLoad (s : State) (i : Nat) : Nat :=
  let (a, b) := s.workRate i
  min 2047 (ceilDiv (1000 * s.xfDirs i * a * s.frameN i) (max 1 (b * s.gangG i * s.frameH i * 32 * s.coreHz)))

/-- XF_LOAD of slice `i`. -/
def showLoad (i : Nat) (s : State) : State := s.wr (.filt i) R.XF_LOAD.load_permille (s.xfLoad i)

/-- XF_LOAD is per mille of the present capacity: it follows the CORE frequency and spread (R105, R12). -/
def showLoads (s : State) : State := s.each ((List.range 17).filter (fun i => s.enabled (.filt i))) showLoad

/-- The CORE clock runs, or aims, at `f` quarters of a MHz. -/
def setFreq (f : Nat) (s : State) : State := showLoads (s.wr .clocks R.CLK_CORE.freq f)

/-- The slot is enabled: the staged store becomes active (R122). -/
def xfEnable (i : Fin 17) (s : State) : State :=
  let c := s.streamOf i
  let real := match c with
    | some c => match s.streamEntry c with
      | some e => fmtReal (s.declWord e 0 / 2 ^ 28 % 8)
      | none => false
    | none => false
  let s := s.wr (.filt i) R.XF_CFG.real_ref (bit real)
  let dir := match s.mode i with | 0 => 0 | 3 => 1 | 4 => 2 | _ => 3
  let s := s.wr (.filt i) R.XF_CFG.direction dir
  let s := s.when (s.framed i) (fun s =>
    let s := s.wr (.filt i) R.XF_STATUS.active_store (s.rd (.filt i) R.WIN_STAGE.store)
    (s.wr (.filt i) R.XF_STATUS.state 1).wr (.filt i) R.XF_MEM.size (3 * s.frameN i + s.frameH i))
  let s := s.when (s.flag (.filt i) R.XF_COMMIT.window) (fun s =>
    (s.wr (.filt i) R.XF_COMMIT.window 0).wr (.filt i) R.XF_COMMIT.last_status 0)
  let s := showLoad i s
  let s := s.wr (.filt i) R.XF_FRAME.frame (s.rd (.filt i) R.XF_GANG.member)
  let s := s.setChain i { s.chains[i] with pwrOff := signed 16 (s.rd (.filt i) R.PWR_REF.pwr_offset) }
  showXf i (showRef i s)

/-- The slot is disabled. -/
def xfDisable (i : Fin 17) (s : State) : State := s.wr (.filt i) R.XF_STATUS.state 0

/-! ### Forming frames (R104, R108, R111 to R113) -/

/-- The windowed frame: samples oldest first against the window. -/
def windowed : List OutS → List Int → List Pt
  | x :: xs, u :: us =>
    ⟨sat24 (rne (x.i * u) 17), sat24 (rne (x.q * u) 17), false⟩ :: windowed xs us
  | _, _ => []

/-- A frame begins at output f·H: it takes the store and the offset of this boundary. -/
def frameBegin (i : Fin 17) (f : Nat) (s : State) : State :=
  let c := s.chains[i]
  let fm := fun (k : Nat) => s.rd (.trig i) (R.FM_ACTIVE.laddr k)
  let dn := fun (k : Nat) => s.rd (.trig i) (R.DN_THR.thr k)
  let st : FStart := ⟨f, s.rd (.filt i) R.XF_STATUS.active_store, c.pwrOff, false, (fm 0, fm 1), (dn 0, dn 1),
    s.rd (.records i) R.GAIN_STAGE.active_laddr⟩
  s.setChain i { c with fstarts := c.fstarts ++ [st] }

/-- The frames [a, b) that some output kept from being formed: counted by the members whose frames they are. -/
def skipFrames (i : Fin 17) (a b : Nat) (s : State) : State :=
  if b ≤ a then s
  else if s.gangG i = 1 then s.cnt (.filt i) R.XF_COUNTS.frames_skipped (b - a)
  else
    let g := s.gangG i
    s.each (List.range g) (fun j st =>
      st.cnt (.filt (s.memberOf i j).val) R.XF_COUNTS.frames_skipped ((b + g - 1 - j) / g - (a + g - 1 - j) / g))

/-- The next frame each member forms. -/
def showNextFrame (i : Fin 17) (s : State) : State :=
  let g := s.gangG i
  let f := s.chains[i].fnext
  s.each (List.range g) (fun j st =>
    st.wr (.filt (s.memberOf i j).val) R.XF_FRAME.frame (f + (j + g - f % g) % g))

/-- Frames [`a`, `b`) that the chain keeps from being formed leave the trigger unit's detectors at tap 1 and masks to be reset at the next
frame formed (R127). -/
def noteSkipped (i : Fin 17) (s : State) : State :=
  { s with trigs := s.trigs.set i { s.trigs[i] with skipped := true } }

/-- Outputs up to index `m` (exclusive) have been settled: every frame that ends before it and was not formed is skipped. -/
def passFrames (i : Fin 17) (m : Nat) (s : State) : State :=
  let n := s.frameN i
  let h := s.frameH i
  let f := if m < n then 0 else (m - n) / h + 1
  let c := s.chains[i]
  if f ≤ c.fnext then s else
  let s := noteSkipped i (skipFrames i c.fnext f s)
  showNextFrame i (s.setChain i { c with fnext := f, fstarts := c.fstarts.filter (fun x => f ≤ x.f) })

/-- The signature of a frame member `m` of the gang of lead `i` formed (R308). A stand-in that does not lead forms its frames beside its
incumbent's, equal bit for bit; one that leads stands for its own member's frames only. -/
def frameItem (i m : Fin 17) (f hash : Nat) (s : State) : State :=
  if s.shadowing i then
    if f % s.gangG i = s.rd (.filt i) R.XF_GANG.member ∨ s.gangG i = 1 then tkoItem i.val 1 [f] hash s else s
  else
    let s := tkoItem m.val 1 [f] hash s
    match s.tko.pairs.find? (fun p => p.1 = m.val) with
    | some p => if s.leads p.2 then s else tkoItem p.2 1 [f] hash s
    | none => s

/-- The engine puts the frame and its bins into its buffers in the local memory of slice `m` (R107, R112). The spec gives their place and size
and not their layout: every byte of them becomes a free value (log 36). A slice that is not placed has no buffers reserved. -/
def bufferFrame (m : Fin 17) (s : State) : State :=
  if !s.flag .placement (R.PL_SLICE.placed m) then s else
  let n := 8 * s.rd (.filt m) R.XF_MEM.size
  let (bs, s) := freeBytes n s
  sramWrite (.lmem m) (8 * s.rd (.filt m) R.XF_MEM.base) (bs.map some) s

/-- Form the frame of a job. -/
def formFrame (i : Fin 17) (job : FrameJob) (s : State) : State × Frame :=
  let st := job.st
  let xs := job.xs
  let m := s.memberOf i st.f
  let u := s.chains[m].wins[Fin.ofNat 2 st.store]
  let (y, e) := transform false (s.log2n i) floatShift (windowed xs u)
  let bins := swapHalves (y.map (fun p => (p.r, p.m)))
  let ref := signed 16 (s.rd (.filt m) (R.WIN_INFO.ref_c st.store)) - (if s.flag (.filt m) R.XF_CFG.real_ref then 771 else 0)
  let pw := bins.map (fun b => powerWord (b.1 * b.1 + b.2 * b.2).toNat e ref st.off)
  let x0 := xs.headD ⟨0, 0, 0, false, 0, 0, 0, 0, 0, 0, 0, 0⟩
  let xc := xs.getD (xs.length / 2) x0
  let mix := if xs.any (fun x => decide (x.ver ≠ xc.ver)) then 128 else 0
  let fl := xs.foldl (fun a x => Nat.lor a x.fl) (Nat.lor (Nat.lor job.fl mix) (if st.settle then 4 else 0))
  let fr : Frame := ⟨st.f, pw, bins, e, x0.t, xc.t, x0.qual, x0.bound, xs.any (·.ovr), fl, ref, st.off, x0.gd, xc.ib, xc.ver⟩
  let s := bufferFrame m s
  let s := frameItem i m st.f (crc 2 ((bins.flatMap (fun b => leBytes 3 (code 24 b.1) ++ leBytes 3 (code 24 b.2)))
    ++ pw.flatMap (fun v => leBytes 2 (code 16 v)))) s
  let s := (s.cnt (.filt m) R.XF_FRAMES.count 1).wr (.filt m) R.XF_STATUS.last_exp e
  (s.wr (.filt m) R.XF_STATUS.state 2, fr)

/-- A delivered output enters the frame buffer; the frame it completes is ready to be formed (R104). -/
def pushFrame (i : Fin 17) (o : OutS) (s : State) : State :=
  let n := s.frameN i
  let h := s.frameH i
  let c := s.chains[i]
  let keep := match c.fbuf with
    | x :: _ => if x.m + 1 = o.m then c.fbuf else []
    | [] => []
  let buf := (o :: keep).take n
  let s := s.setChain i { c with fbuf := buf, frameFl := Nat.lor c.frameFl (Nat.land o.fl 20) }
  if o.m + 1 < n ∨ (o.m + 1 - n) % h ≠ 0 then passFrames i (o.m + 1) s
  else
    let f := (o.m + 1 - n) / h
    let s := passFrames i o.m s
    let c := s.chains[i]
    match c.fstarts.find? (fun x => x.f = f) with
    | some st =>
      if buf.length = n then
        showNextFrame i (s.setChain i { c with
          jobs := c.jobs ++ [⟨st, buf.reverse, c.frameFl, false⟩]
          fnext := f + 1
          frameFl := 0
          fstarts := c.fstarts.filter (fun x => x.f ≠ f) })
      else passFrames i (o.m + 1) s
    | none => passFrames i (o.m + 1) s

end Sys2Proof.Machine
end

