-- ==== Sys2Proof/Machine/Records.lean ====
section
/-!
DEFINITION. Sys2Proof/Machine/Records.lean: the record engine of a slice (R161 to R182): classes and sequences, measurement
blocks, gap records, reductions, density planes, rings and captures.
-/
namespace Sys2Proof.Machine
open Sys2Proof

/-- Replace the record engine of slice `i`. -/
def State.setRecs (s : State) (i : Fin 17) (r : RecSt) : State := { s with recs := s.recs.set i r }

/-! ### Classes, sequences and flags (R165, R174, R175) -/

/-- The queue of class `cls` of slice `i`, while the class and the slot are enabled. -/
def State.classQueue (s : State) (i : Fin 17) (cls : Nat) : Option Nat :=
  if s.enabled (.records i) && s.flag (.records i) (R.REC_CLASS.enable cls) then
    some (if s.shadowing i then sinkQueue i cls else s.rd (.records i) (R.REC_CLASS.queue cls))
  else none

/-- A record of class `cls` opens: its sequence, if the class is enabled. -/
def openClass (i : Fin 17) (cls : Nat) (t1 : T96) (bound span : Nat) (s : State) : State × Option Nat :=
  match s.classQueue i cls with
  | some q => let (s, n) := openRec q i.val cls t1 bound span s; (s, some n)
  | none => (s, none)

/-- VERSION_MIX where data of two programs meet (R165). -/
def mixFlag (a b : Nat) : Nat := if a = b then 0 else 128

/-- The time `n` frames in a row cover. -/
def State.frameSpan (s : State) (i n : Nat) : Nat := s.outSpan i ((n - 1) * s.frameH i + s.frameN i)

/-- Flags every record of slice `i` carries: DEGRADED while its declaration is best-effort. -/
def State.recFlags (s : State) (i : Fin 17) : Nat :=
  if s.flag .placement (R.PL_SLICE.placed i)
      && decide (s.declWord (s.rd .placement (R.PL_SLICE.entry i)) 0 / 2 ^ 8 % 8 = 2) then 32 else 0

/-- The held records of slice `i`, oldest first. -/
def State.heldOf (s : State) (i : Fin 17) : List Rec :=
  s.queue.recs.filter (fun r => decide (r.prod = i.val) && (match r.phase with | .held _ => true | _ => false))

/-- REC_OPEN shows the oldest held record (R179). -/
def showHeld (i : Fin 17) (s : State) : State :=
  let l := s.heldOf i
  let b : Blk := .records i
  let s := s.wr b R.REC_OPEN.records_held l.length
  match l with
  | r :: _ => ((s.wr b R.REC_OPEN.held 1).wr b R.REC_OPEN.class_ r.cls).wr b R.REC_OPEN.sequence r.seq
  | [] => ((s.wr b R.REC_OPEN.held 0).wr b R.REC_OPEN.class_ 0).wr b R.REC_OPEN.sequence 0

/-- A held record goes on, with the measurement block `m`. -/
def releaseHeld (i : Fin 17) (r : Rec) (m : List Byte) (s : State) : State :=
  showHeld i (completeRec { r with meas := m, phase := .ready } (setRec { r with meas := m, phase := .building } s))

/-- A held record is sealed without a block (R179). -/
def missHeld (i : Fin 17) (r : Rec) (s : State) : State :=
  releaseHeld i r [] (s.cnt (.records i) R.REC_COUNTS2.meas_missed 1)

/-- A record is complete (R179): held for a measurement block where its class asks for one, else on its way. -/
def finishClass (i : Fin 17) (r : Rec) (s : State) : State :=
  let r := { r with fl := if r.typ = 1 then 0 else Nat.lor r.fl (s.recFlags i) }
  if s.flag (.records i) (R.REC_CLASS.meas_enable r.cls) && decide (r.typ ≠ 1) then
    let l := s.heldOf i
    let s := match l with
      | old :: _ => if l.length < 4 then s else missHeld i old s
      | [] => s
    (showHeld i (setRec { r with phase := .held s.tim.raw } s)).coreInt i.val 0
  else completeRec { r with phase := .ready } (setRec { r with phase := .ready } s)

/-- Complete the record with sequence `seq` of class `cls`. -/
def sealClass (i : Fin 17) (cls : Nat) (seq : Option Nat) (f : Rec → Rec) (s : State) : State :=
  match seq, s.classQueue i cls with
  | some n, some q => match s.recOf q n with
    | some r => finishClass i (f r) s
    | none => s
  | _, _ => s

/-- Abandon the record with sequence `seq` of class `cls` (R178). -/
def abandonClass (i : Fin 17) (cls : Nat) (seq : Option Nat) (s : State) : State :=
  match seq, s.classQueue i cls with
  | some n, some q => match s.recOf q n with
    | some r => abandon r 7 s
    | none => s
  | _, _ => s

/-! ### Gap records (R176, R177) -/

/-- The payload of a GAP record. -/
def gapPayload (first count unit why : Nat) (dur : Int) : List Byte :=
  leBytes 8 first ++ leBytes 8 count ++ leBytes 12 (toT96 dur 0).toNat ++ leBytes 1 unit ++ leBytes 1 why ++ zeros 2

/-- Issue one GAP record on class `cls`. -/
def gapOn (i : Fin 17) (cls unit : Nat) (g : GapRun) (dur : Int) (s : State) : State :=
  match openClass i cls (toT96 g.t g.qual) g.bound dur.toNat s with
  | (s, some n) =>
    let s := (s.cnt (.records i) R.REC_COUNTS2.gap_records 1).observe i.val 6 1 g.reason
    sealClass i cls (some n) (fun r => { r with
      typ := 1
      sub := unit
      payload := gapPayload g.first g.count unit g.reason dur }) s
  | (s, none) => s

/-- The duration of `n` outputs of slice `i`, rounded to 2^-16 ns. -/
def State.outDur (s : State) (i n : Nat) : Int :=
  match s.streamOf i with
  | some c => rneDiv ((n * s.chainD i * secUnits : Nat)) (max 1 (s.streamRate c))
  | none => 0

/-- A gap of samples (unit 0) or frames (1) on every enabled class queue of slice `i`: `n` frames stand for n·H outputs. -/
def gapAll (i : Fin 17) (unit : Nat) (g : GapRun) (s : State) : State :=
  let dur := s.outDur i (if unit = 1 then g.count * s.frameH i else g.count)
  s.each (List.range 11) (fun cls st => gapOn i cls unit g dur st)

/-! ### Reductions (R166, R167) -/

/-- K of reduction `r`. -/
def State.redK (s : State) (i : Fin 17) (r : Nat) : Nat := s.rd (.records i) (R.RED_CFG.k_m1 r) + 1

/-- pwconv of R166 on an exact sum over `n` values; `a` = Σ m·2^(2e). -/
def linearWord (a n : Nat) (ref off : Int) : Int :=
  if a = 0 then -32768 else
  let lc : Int := lgOf n 0
  let v := rne (((lgOf a 0 : Int) - lc) * 98640) 24 - ref + off
  max (-32767) (min 32767 v)

/-- Groups of `b` consecutive values of a list, `n` of them. -/
def groups (b : Nat) : Nat → List Int → List (List Int)
  | 0, _ => []
  | n + 1, l => l.take b :: groups b n (l.drop b)

/-- One frame's contribution to reduction `r`: per entry. -/
def redTerms (r b : Nat) (fr : Frame) (p0 n : Nat) : List Int :=
  match r with
  | 0 => (groups b n (fr.pw.drop p0)).map (fun g => g.headD 0)
  | 1 => (groups b n (fr.pw.drop p0)).map (fun g => g.foldl max (-32768))
  | 2 => (groups b n (fr.pw.drop p0)).map (fun g => max (-32767) (g.foldl min 32767))
  | 3 => (groups b n ((fr.bins.map (fun x => (x.1 * x.1 + x.2 * x.2) * 2 ^ (2 * fr.e))).drop p0)).map List.sum
  | _ => (groups b n ((fr.pw.map (max (-32767))).drop p0)).map List.sum

/-- Two partial results of reduction `r`. -/
def redMerge (r : Nat) (a b : List Int) : List Int :=
  match r with
  | 0 => a
  | 1 => List.zipWith max a b
  | 2 => List.zipWith min a b
  | _ => List.zipWith (· + ·) a b

/-- The entries of a finished interval. -/
def redEntries (r b : Nat) (x : RedAcc) (ref off : Int) : List Int :=
  match r with
  | 3 => x.vals.map (fun v => linearWord v.toNat (x.n * b) ref off)
  | 4 => x.vals.map (fun v => rneDiv v (x.n * b))
  | _ => x.vals

/-- Write an interval's entries as a row of the spectrogram ring (R168). -/
def sgramRow (i : Fin 17) (j : Nat) (vals : List Int) (s : State) : State :=
  let rows := 2 ^ s.rd (.records i) R.SGRAM_CFG.log2rows
  let len := ceilDiv (2 * vals.length) 64 * 64
  let a := s.rd (.records i) R.SGRAM_CFG.base / 64 * 64 + j % rows * len
  let s := dramWrite a (vals.flatMap (fun v => leBytes 2 (code 16 v))) s
  s.wr (.records i) R.SGRAM_HEAD.interval j

/-- The open interval of reduction `r` ends (R167). -/
def redSeal (i : Fin 17) (r : Fin 5) (s : State) : State :=
  let e := s.recs[i]
  match e.red[r] with
  | none => s
  | some x =>
    let c := fun (f : Fld) => s.rd (.records i) f
    let b := 2 ^ c (R.RED_CFG.log2b r)
    let cplx := decide (c (R.RED_CFG.complex r) = 1)
    let ref := s.rdi (.filt i) R.PWR_REF.ref128
    let off := s.rdi (.filt i) R.PWR_REF.pwr_offset
    let vals := redEntries r.val b x ref off
    let head := leBytes 8 (x.j * s.redK i r) ++ leBytes 4 x.n ++ leBytes 2 (c (R.RED_CFG.p0 r)) ++ leBytes 1 (c (R.RED_CFG.log2b r))
      ++ leBytes 1 (if cplx then x.e else 0)
    let body := if cplx then x.bins.flatMap (fun v => leBytes 4 (code 32 v.1) ++ leBytes 4 (code 32 v.2))
      else vals.flatMap (fun v => leBytes 2 (code 16 v))
    let s := s.setRecs i { e with red := e.red.set r none }
    let s := s.when (decide (c R.SGRAM_CFG.reduction = r.val) && !cplx) (sgramRow i x.j vals)
    sealClass i (2 + r.val) x.seq (fun q => { q with
      typ := 0x20
      sub := r.val
      fl := x.fl
      bound := x.bound
      payload := head ++ body }) s

/-- The intervals `a` to `b` − 1 of accumulator `key` passed without a formed frame (R167). -/
def emptyIntervals (i : Fin 17) (key a b : Nat) (s : State) : State :=
  let e := s.recs[i]
  let s := s.setRecs i { e with doneJ := SMap.set (fun _ => 0) e.doneJ key (b + 1) }
  s.when (decide (key < 5)) (fun s => s.cnt (.records i) R.REC_COUNTS2.intervals_empty (b - a))

/-- The next interval accumulator `key` may open: after the last, and after the boundary the slot's enable waits for (R181). -/
def State.nextJ (s : State) (i : Fin 17) (key k : Nat) : Nat :=
  max (SMap.get (fun _ => 0) s.recs[i].doneJ key) (ceilDiv (s.recs[i].from_.getD 0) k)

/-- A frame reaches reduction `r`; `bad` = its accumulator fails its check meanwhile (R180). After HOLD has abandoned an open interval the
frames of the rest of that interval make no record: R178 does not say whether they do (DESIGN CHOICE, log 36). -/
def redFrame (i : Fin 17) (r : Fin 5) (fr : Frame) (bad : Bool) (s : State) : State :=
  if !s.flag (.records i) (R.RED_CFG.enable r) then s else
  let k := s.redK i r
  let j := fr.f / k
  let stale := match s.recs[i].red[r] with
    | some x => decide (x.j ≠ j)
    | none => false
  let s := s.when stale (redSeal i r)
  let p0 := s.rd (.records i) (R.RED_CFG.p0 r)
  let n := s.rd (.records i) (R.RED_CFG.count r)
  let b := 2 ^ s.rd (.records i) (R.RED_CFG.log2b r)
  let fl := Nat.lor (fr.fl % 256) (bit fr.ovr)
  let acc := 64 * bit bad
  let s := match s.recs[i].red[r] with
    | some x =>
      let x' := { x with
        n := x.n + 1
        fl := Nat.lor acc (if r.val = 0 then x.fl else Nat.lor (Nat.lor x.fl fl) (mixFlag x.ver fr.ver))
        ver := if r.val = 0 then x.ver else fr.ver
        vals := redMerge r.val x.vals (redTerms r.val b fr p0 n) }
      s.setRecs i { s.recs[i] with red := s.recs[i].red.set r (some x') }
    | none =>
      let a := s.nextJ i r.val k
      if j < a then s
      else
        let s := emptyIntervals i r.val a j s
        let t1 := toT96 fr.t fr.qual
        let (s, seq) := openClass i (2 + r.val) t1 fr.bound (s.frameSpan i ((j + 1) * k - fr.f)) s
        let bins := if s.flag (.records i) (R.RED_CFG.complex r) then (fr.bins.drop p0).take n else []
        let x : RedAcc := ⟨j, 1, seq, t1, fr.bound, Nat.lor fl acc, fr.e, redTerms r.val b fr p0 n, bins, fr.ver⟩
        s.setRecs i { s.recs[i] with red := s.recs[i].red.set r (some x) }
  if fr.f = (j + 1) * k - 1 then redSeal i r s else s

/-! ### Density planes (R169) -/

/-- Bytes of one of the two buffers of plane `k` in the column-interleaved layout of local memory (R316). -/
def State.planeBytes (s : State) (i k : Nat) : Nat :=
  256 * ceilDiv (s.rd (.records i) (R.DENS_CFG.rows_m1 k) + 1) 4 * ceilDiv (s.rd (.records i) (R.DENS_CFG.cols_m1 k) + 1) 32

/-- The local memory reserved for plane `k`: two buffers, to a multiple of 4 KiB (R273, R316). -/
def State.planeNeed (s : State) (i k : Nat) : Nat :=
  if s.flag (.records i) (R.DENS_CFG.enable k) then ceilDiv (2 * s.planeBytes i k) 4096 * 4096 else 0

/-- The address of the buffer that interval `j` of plane `k` fills: the reservation lies above the transform buffers and the planes before
it, and the two buffers take turns (R169, R273). -/
def State.planeAddr (s : State) (i k j : Nat) : Nat :=
  8 * s.rd (.filt i) R.XF_MEM.base + ceilDiv (8 * s.rd (.filt i) R.XF_MEM.size) 4096 * 4096
    + ((List.range k).map (s.planeNeed i)).sum + j % 2 * s.planeBytes i k

/-- The address of cell (y, c) of a buffer at `b` with `cols` columns (R316). -/
def cellAddr (b cols y c : Nat) : Nat := b + 256 * (y / 4 * ceilDiv cols 32 + c / 32) + 8 * (c % 32) + 2 * (y % 4)

/-- The cells of a frame's rows in the plane buffer at `b` of slice `m`: each is read, incremented to at most 0xFFFF and written back. -/
def bumpCells (m : Fin 17) (b cols : Nat) : List Nat → Nat → Op
  | [], _, s => s
  | y :: ys, c, s =>
    let a := cellAddr b cols y c
    let v := min 0xFFFF (leNat (s.sramRead (.lmem m) a 2) + 1)
    bumpCells m b cols ys (c + 1) (sramWrite (.lmem m) a ((leBytes 2 v).map some) s)

/-- Slice `m` has its reservations: it is placed, or shadows a slice that is. -/
def State.hasBuffers (s : State) (m : Nat) : Bool := s.flag .placement (R.PL_SLICE.placed m) || s.shadowing m

/-- A frame of rows `ys` of lead `i` is counted in the plane buffer of the member that formed it. -/
def storeCells (i : Fin 17) (k j : Nat) (f : Nat) (ys : List Nat) (s : State) : State :=
  let m := s.memberOf i f
  if s.hasBuffers m then bumpCells m (s.planeAddr m k j) ys.length ys 0 s else s

/-- The full buffer of interval `j` of plane `k` is cleared in every member once it has been emitted (R169). -/
def clearPlane (i : Fin 17) (k j : Nat) (s : State) : State :=
  s.each (s.gang i) (fun m st =>
    if st.hasBuffers m then sramWrite (.lmem m) (st.planeAddr m k j) (List.replicate (st.planeBytes m k) (some 0)) st else st)

/-- A cell that a frame's rows reach in the plane buffer of its member holds an uncorrectable error (R180, R318). -/
def State.cellError (s : State) (i : Fin 17) (k j f : Nat) (ys : List Nat) : Option (Fin 17 × Nat) :=
  let m := s.memberOf i f
  if s.hasBuffers m then
    (((List.range ys.length).zip ys).map (fun x => cellAddr (s.planeAddr m k j) ys.length x.2 x.1)).findSome? (fun a =>
      if s.badWord (.lmem m) a then some (m, a) else none)
  else none

/-- The row of column `c` of plane `k` for a frame. -/
def State.densRow (s : State) (i : Fin 17) (k : Nat) (fr : Frame) (c : Nat) : Nat :=
  let b := 2 ^ s.rd (.records i) (R.DENS_CFG.log2b k)
  let v := ((fr.pw.drop (s.rd (.records i) (R.DENS_CFG.p0 k) + c * b)).take b).foldl max (-32768)
  let y := (s.rdi (.records i) (R.DENS_CFG.top k) - v) / (s.rd (.records i) (R.DENS_CFG.step k) : Int)
  (max 0 (min y (s.rd (.records i) (R.DENS_CFG.rows_m1 k)))).toNat

/-- The open interval of plane `k` ends. -/
def densSeal (i : Fin 17) (k : Fin 4) (s : State) : State :=
  let e := s.recs[i]
  match e.dens[k] with
  | none => s
  | some x =>
    let c := fun (f : Fld) => s.rd (.records i) f
    let cols := c (R.DENS_CFG.cols_m1 k) + 1
    let rows := c (R.DENS_CFG.rows_m1 k) + 1
    let head := leBytes 8 (x.j * (c (R.DENS_CFG.k_m1 k) + 1)) ++ leBytes 4 x.n ++ leBytes 2 (c (R.DENS_CFG.p0 k))
      ++ leBytes 1 (c (R.DENS_CFG.log2b k)) ++ leBytes 1 k.val ++ leBytes 2 cols ++ leBytes 2 rows
      ++ leBytes 2 (c (R.DENS_CFG.top k)) ++ leBytes 2 (c (R.DENS_CFG.step k)) ++ leBytes 8 x.sat.length
    let body := (List.range (cols * rows)).flatMap (fun a => leBytes 2 (SMap.get (fun _ => 0) x.cells a))
    let s := clearPlane i k.val x.j (s.setRecs i { e with dens := e.dens.set k none })
    sealClass i (7 + k.val) x.seq (fun q => { q with
      typ := 0x21
      sub := k.val
      fl := x.fl
      bound := x.bound
      payload := head ++ body }) s

/-- Increment the cells of one frame's rows: the cells, those that have saturated, and the saturated increments. -/
def densAdd (cols : Nat) : List Nat → Nat → SMap Nat → SMap Bool → Nat → SMap Nat × SMap Bool × Nat
  | [], _, m, b, n => (m, b, n)
  | y :: ys, c, m, b, n =>
    let a := y * cols + c
    let v := SMap.get (fun _ => 0) m a
    if v = 0xFFFF then densAdd cols ys (c + 1) m (SMap.set noBad b a true) (n + 1)
    else densAdd cols ys (c + 1) (SMap.set (fun _ => 0) m a (v + 1)) b n

/-- The rows of a frame in plane `k`, column by column. -/
def State.densRows (s : State) (i : Fin 17) (k : Nat) (fr : Frame) : List Nat :=
  (List.range (s.rd (.records i) (R.DENS_CFG.cols_m1 k) + 1)).map (s.densRow i k fr)

/-- The interval of plane `k` that frame `f` belongs to. -/
def State.densJ (s : State) (i k f : Nat) : Nat := f / (s.rd (.records i) (R.DENS_CFG.k_m1 k) + 1)

/-- A frame reaches plane `k`; `bad` = the plane fails its check meanwhile (R180). -/
def densFrame (i : Fin 17) (k : Fin 4) (fr : Frame) (bad : Bool) (s : State) : State :=
  if !s.flag (.records i) (R.DENS_CFG.enable k) then s else
  let kk := s.rd (.records i) (R.DENS_CFG.k_m1 k) + 1
  let j := s.densJ i k fr.f
  let stale := match s.recs[i].dens[k] with
    | some x => decide (x.j ≠ j)
    | none => false
  let s := s.when stale (densSeal i k)
  let ys := s.densRows i k fr
  let cols := ys.length
  let fl := Nat.lor (Nat.lor (fr.fl % 256) (bit fr.ovr)) (64 * bit bad)
  let put := fun (x : DensAcc) (s : State) =>
    let (m, full, sat) := densAdd cols ys 0 x.cells x.sat 0
    let s := s.cnt (.records i) (R.DENS_SAT.sat_count k) sat
    let x' := { x with n := x.n + 1, fl := Nat.lor (Nat.lor x.fl fl) (mixFlag x.ver fr.ver), sat := full, cells := m, ver := fr.ver }
    let s := storeCells i k.val j fr.f ys s
    s.setRecs i { s.recs[i] with dens := s.recs[i].dens.set k (some x') }
  let s := match s.recs[i].dens[k] with
    | some x => put x s
    | none =>
      let a := s.nextJ i (5 + k.val) kk
      if j < a then s
      else
        let s := emptyIntervals i (5 + k.val) a j s
        let t1 := toT96 fr.t fr.qual
        let (s, seq) := openClass i (7 + k.val) t1 fr.bound (s.frameSpan i ((j + 1) * kk - fr.f)) s
        put ⟨j, 0, seq, t1, fr.bound, 0, [], [], fr.ver⟩ (clearPlane i k.val j s)
  if fr.f = (j + 1) * kk - 1 then densSeal i k s else s

/-! ### Rings (R171) -/

/-- Bytes of a stored sample. -/
def State.capB (s : State) (i : Fin 17) : Nat := if s.flag (.records i) R.CAP_CFG.store_format then 6 else 4

/-- The slice writes a spectrum ring. -/
def State.specRing (s : State) (i : Fin 17) : Bool := s.framed i && s.flag (.records i) R.REC_CFG.spectrum_ring

/-- The size of a ring slot. -/
def State.slotSize (s : State) (i : Fin 17) : Nat := if s.framed i then 64 + 2 * s.frameN i else 64 + 4096 * s.capB i

/-- Index units of one slot. -/
def State.slotUnits (s : State) (i : Fin 17) : Nat := if s.framed i then 1 else 4096

/-- A stored sample: its bytes, and its flag with the saturation of C16. -/
def storeSample (b : Nat) (x : OutS) : List Byte × Bool :=
  if b = 4 then
    let a := packComp 16 x.i
    let c := packComp 16 x.q
    (leBytes 2 a.1 ++ leBytes 2 c.1, x.ovr || a.2 || c.2)
  else (leBytes 3 (code 24 x.i) ++ leBytes 3 (code 24 x.q), x.ovr)

/-- The overrange map of flags, one bit per 16. -/
def ovrMap : List Bool → Nat → List Bool
  | _, 0 => []
  | l, n + 1 => (l.take 16).any id :: ovrMap (l.drop 16) n

/-- Bits as bytes, the first bit in bit 0. -/
def bitsBytes : List Bool → Nat → List Byte
  | _, 0 => []
  | l, n + 1 => leBytes 1 ((List.range 8).foldl (fun a j => a + (if (l.getD j false) then 2 ^ j else 0)) 0) ++ bitsBytes (l.drop 8) n

/-- The header of a ring slot. -/
def slotHead (first : Nat) (t : T96) (bound fl e held : Nat) (map : List Byte) : List Byte :=
  leBytes 8 first ++ leBytes 12 t.toNat ++ leBytes 2 bound ++ leBytes 1 fl ++ leBytes 1 e ++ leBytes 2 held ++ zeros 6 ++ map

/-- The gathered caravan becomes a slot to write. -/
def closeCaravan (i : Fin 17) (s : State) : State :=
  let e := s.recs[i]
  match e.car with
  | [] => s
  | x0 :: _ =>
    let b := s.capB i
    let st := e.car.map (storeSample b)
    let ovr := st.map (·.2)
    let pos := x0.m % 4096
    let body := zeros (pos * b) ++ st.flatMap (·.1) ++ zeros ((4096 - pos - e.car.length) * b)
    let map := bitsBytes (ovrMap (List.replicate pos false ++ ovr) 256) 32
    let fl := Nat.lor (e.car.foldl (fun a x => Nat.lor a (Nat.lor x.fl (mixFlag x0.ver x.ver))) 0 / 2 * 2) (bit (ovr.any id))
    let sl : SlotIn := ⟨x0.m / 4096, x0.m, e.car.length, slotHead x0.m (toT96 x0.t x0.qual) x0.bound fl 0 e.car.length map, body,
      ovr, e.car.map (·.t), x0.qual, x0.bound, fl, x0.ver⟩
    s.setRecs i { e with car := [], slots := if s.rd (.records i) R.CAP_CFG.slots = 0 then e.slots else e.slots ++ [sl] }

/-- A delivered working output reaches the record engine of a CAPTURE slice. -/
def recOutput (i : Fin 17) (o : OutS) (s : State) : State :=
  let e := s.recs[i]
  let cont := match e.last with
    | some (m, _) => decide (m + 1 = o.m)
    | none => false
  let s := if cont then s else closeCaravan i s
  let e := s.recs[i]
  let s := s.setRecs i { e with
    starts := if cont then e.starts else o.m :: e.starts.take 63
    last := some (o.m, o.t)
    car := e.car ++ [o] }
  if (o.m + 1) % 4096 = 0 then closeCaravan i s else s

/-- A formed frame reaches the spectrum ring. -/
def recSpectrum (i : Fin 17) (fr : Frame) (s : State) : State :=
  let e := s.recs[i]
  let cont := match e.last with
    | some (f, _) => decide (f + 1 = fr.f)
    | none => false
  let fl := Nat.lor (fr.fl % 256) (bit fr.ovr)
  let sl : SlotIn := ⟨fr.f, fr.f, 1, slotHead fr.f (toT96 fr.t fr.qual) fr.bound fl fr.e 1 (zeros 32),
    fr.pw.flatMap (fun v => leBytes 2 (code 16 v)), [fr.ovr], [fr.t], fr.qual, fr.bound, fl, fr.ver⟩
  s.setRecs i { e with
    starts := if cont then e.starts else fr.f :: e.starts.take 63
    last := some (fr.f, fr.t)
    slots := if s.specRing i && decide (s.rd (.records i) R.CAP_CFG.slots ≠ 0) then e.slots ++ [sl] else e.slots }

/-! ### Captures (R172, R173) -/

/-- The record limit of class `cls` (R162). -/
def State.recLimit (s : State) (i : Fin 17) (cls : Nat) : Nat :=
  -- a stand-in works for the queues of the slice it shadows
  let j := if s.shadowing i then s.rd (.core i) R.SLICE_MODE.shadow_of else i.val
  let q := s.rd (.records j) (R.REC_CLASS.queue cls)
  min (2 ^ s.rd (.records i) R.REC_CFG.rec_max_log2) (2 ^ ((s.ctx q).log2size - 1))

/-- The greatest `n` ≤ `start` with `f n` ≤ `lim`, looking down at most `fuel` steps. -/
def maxFit (f : Nat → Nat) (lim : Nat) : Nat → Nat → Nat
  | 0, n => n
  | fuel + 1, n => if f n ≤ lim ∨ n ≤ 1 then n else maxFit f lim fuel (n - 1)

/-- Units a segment may hold beside a measurement block of `meas` bytes. -/
def State.segUnitsWith (s : State) (i : Fin 17) (meas : Nat) : Nat :=
  let lim := s.recLimit i 1
  if s.framed i then (lim - meas - 112) / s.slotSize i
  else
    let b := s.capB i
    let f := fun (n : Nat) => recLen (32 + n * b + ceilDiv n 128) meas
    let n := maxFit f lim 256 ((lim - meas - 112) * 128 / (128 * b + 1) + 1)
    if f n ≤ lim then n else 0

/-- Units a segment may hold (R162): a class that awaits measurement blocks leaves room for the longest, if one unit fits beside it. -/
def State.segUnits (s : State) (i : Fin 17) : Nat :=
  let n := if s.flag (.records i) (R.REC_CLASS.meas_enable 1) then s.segUnitsWith i 4096 else 0
  if n = 0 then s.segUnitsWith i 0 else n

/-- Slots a continuous record may hold, in the same way. -/
def State.contSlots (s : State) (i : Fin 17) : Nat :=
  let lim := s.recLimit i 1
  let size := s.slotSize i
  let n := if s.flag (.records i) (R.REC_CLASS.meas_enable 1) then (lim - 4096 - 80) / size else 0
  if n = 0 then (lim - 80) / size else n

/-- Unit `n` of the ring: what the slot that holds it says, if it is still there. -/
def State.ringAt (s : State) (i : Fin 17) (n : Nat) : Option SlotIn :=
  let c := n / s.slotUnits i
  match SMap.get (fun _ => none) s.recs[i].dir (c % max 1 (s.rd (.records i) R.CAP_CFG.slots)) with
  | some d => if d.c = c then some d else none
  | none => none

/-- The DRAM address of the slot of caravan or frame `c`. -/
def State.slotAddr (s : State) (i : Fin 17) (c : Nat) : Nat :=
  s.rd (.records i) R.CAP_RING.base / 64 * 64 + c % max 1 (s.rd (.records i) R.CAP_CFG.slots) * s.slotSize i

/-- Replace or remove capture number `k`. -/
def setCap (i : Fin 17) (k : Nat) (c : Option Cap) (s : State) : State :=
  let e := s.recs[i]
  s.setRecs i { e with caps := match c with
    | some c => e.caps.set k c
    | none => e.caps.eraseIdx k }

/-- The segment under construction is complete. -/
def segSeal (i : Fin 17) (c : Cap) (last : Bool) (s : State) : State :=
  let fmt := if s.framed i then 2 else if s.capB i = 6 then 1 else 0
  let head := leBytes 8 c.nt ++ leBytes 8 c.first ++ leBytes 4 c.pre ++ leBytes 4 (c.end_ - c.nt) ++ leBytes 2 c.seg
    ++ leBytes 2 (if last then c.seg + 1 else 0) ++ leBytes 1 fmt ++ leBytes 1 (bit c.short) ++ zeros 2
  let n := ceilDiv c.units 16
  let map := if s.framed i then [] else bitsBytes (ovrMap c.ovr n) (ceilDiv n 8)
  let fl := Nat.lor (Nat.lor (c.fl / 2 * 2) (bit (c.ovr.any id))) c.fl0
  sealClass i 1 c.seq (fun r => { r with
    typ := if s.framed i then 0x32 else 0x30
    sub := min 255 c.seg
    fl := fl
    t1 := c.t1
    t2 := c.t2
    bound := max c.bound1 c.bound
    mask := c.mask
    pre := if c.seg = 0 then min c.pre 0xFFFF else 0
    payload := head ++ c.data ++ map }) s

/-- Copy what the ring holds of capture `c`: at most `fuel` slots or segments. -/
def capCopy (i : Fin 17) (k : Nat) : Nat → Cap → Op
  | 0, c, s => setCap i k (some c) s
  | fuel + 1, c, s =>
    if c.end_ ≤ c.next then setCap i k none (segSeal i c true s)
    else
      let newest := match s.recs[i].last with | some (m, _) => m | none => 0
      let cut := fun (s : State) => setCap i k none (segSeal i { c with end_ := max c.nt c.next, short := true } true s)
      match s.ringAt i c.next with
      | none =>
        -- either not written yet, or missing because of a gap once a later slot stands in the ring
        if s.rd (.records i) R.CAP_STATUS.head > c.next / s.slotUnits i ∧ c.next ≤ newest then cut s else setCap i k (some c) s
      | some d =>
        if c.next < d.first then cut s
        else if d.first + d.held ≤ c.next then
          -- the slot was cut by a gap: the capture ends there, unless its next unit lies after the gap, in a part not yet written
          if s.recs[i].starts.any (fun x => decide (d.first + d.held ≤ x) && decide (x ≤ c.next)) then setCap i k (some c) s else cut s
        else if !s.dramOpen (s.slotAddr i d.c) (s.slotSize i) then setCap i k (some c) s
        else
          let o := c.next - d.first
          let u := min (s.segUnits i) (c.end_ - c.next)
          let span := if s.framed i then s.frameSpan i u else s.outSpan i u
          match (if c.seq.isSome then (s, c.seq) else openClass i 1 (toT96 (d.ts.getD o 0) d.qual) d.bound span s) with
          | (s, none) => setCap i k none s
          | (s, some seq) =>
            let room := s.segUnits i - c.units
            let n := min room (min (d.first + d.held) c.end_ - c.next)
            let a := s.slotAddr i d.c
            let b := s.capB i
            let (o', l) := if s.framed i then (a, s.slotSize i) else (a + 64 + c.next % 4096 * b, n * b)
            -- a ring read that ends in a target error: the capture is abandoned (R178, R334)
            if (s.firstBadLine o' l).isSome then setCap i k none (abandonClass i 1 (some seq) (checkLines o' l s)) else
            let bytes := s.dramRead o' l
            let c := if c.units = 0 then { c with first := c.next, t1 := toT96 (d.ts.getD o 0) d.qual, bound1 := d.bound, ver := d.ver } else c
            let c := { c with
              seq := some seq
              next := c.next + n
              data := c.data ++ bytes
              units := c.units + n
              ovr := c.ovr ++ (d.ovr.drop o).take n
              fl := Nat.lor (Nat.lor c.fl d.fl) (mixFlag c.ver d.ver)
              ver := d.ver }
            if c.units = s.segUnits i ∧ c.next < c.end_ then
              let s := segSeal i c false s
              capCopy i k fuel { c with seg := c.seg + 1, seq := none, data := [], units := 0, ovr := [], fl := 0 } s
            else capCopy i k fuel c s

/-- Every capture copies what it can, newest list position first so that removals do not move the others. -/
def copyCaps (i : Fin 17) (s : State) : State :=
  let n := s.recs[i].caps.length
  let slots := s.rd (.records i) R.CAP_CFG.slots
  s.each (List.range n).reverse (fun k st => match st.recs[i].caps[k]? with
    | some c => capCopy i k (2 * slots + 4) c st
    | none => st)

/-- Abandon capture number `k`: every segment not yet sealed. -/
def capAbandon (i : Fin 17) (k : Nat) (c : Cap) (s : State) : State :=
  setCap i k none (abandonClass i 1 c.seq s)

/-- The first delivered output whose T96 is at or after `t` (R172): delivered ones, else extrapolated by the output period. -/
def State.indexAt (s : State) (i : Fin 17) (t : Int) : Nat :=
  let e := s.recs[i]
  let of := fun (first : Nat) (ts : List Int) => (ts.findIdx? (fun x => t ≤ x)).map (first + ·)
  let known := (e.dir.filterMap (fun d => match d.2 with | some d => of d.first d.ts | none => none))
    ++ (e.slots.filterMap (fun d => of d.first d.ts))
    ++ (match e.car with | x :: _ => (match of x.m (e.car.map (·.t)) with | some n => [n] | none => []) | [] => [])
  match known with
  | n :: ns => ns.foldl min n
  | [] => match e.last with
    | some (m, tl) =>
      let rate := match s.streamOf i with | some c => s.streamRate c | none => 1
      let d := ((t - tl) * rate).toNat
      m + max 1 (ceilDiv d (secUnits * s.chainD i))
    | none => 0

/-- T96 and bound of unit `n`, if it has been received and is still held. -/
def State.unitStamp (s : State) (i : Fin 17) (n : Nat) : Option (T96 × Nat) :=
  let e := s.recs[i]
  let slots := e.slots ++ e.dir.filterMap (·.2)
  match slots.find? (fun d => decide (d.first ≤ n) && decide (n < d.first + d.held)) with
  | some d => some (toT96 (d.ts.getD (n - d.first) 0) d.qual, d.bound)
  | none => (e.car.find? (fun x => decide (x.m = n) && !s.framed i)).map (fun x => (toT96 x.t x.qual, x.bound))

/-- An accepted trigger starts a capture (R140, R141, R172): instant, quality, bound, mask; `ft` the frame at the evaluation
index of a spectrum ring; `pc` where pre-trigger counting started. -/
def capAccept (i : Fin 17) (t : Int) (t2 : T96) (bound mask : Nat) (ft : Option Nat) (pc : Option Nat) (s : State) : State :=
  let ringed := if s.framed i then s.specRing i else decide (s.mode i = 1)
  if !ringed || decide (s.rd (.records i) R.CAP_CFG.slots = 0) || decide (s.segUnits i = 0) then s else
  let nt := if s.framed i then ft.getD 0 else s.indexAt i t
  let preLen := s.rd (.trig i) R.TRIG_CAPTURE.pre_len
  let since := nt - (pc.getD nt)
  let rx0 := (s.recs[i].starts.filter (· ≤ nt)).headD nt
  let pre := min preLen (min since (nt - rx0))
  let fl0 := (if pre < preLen then 2 else 0)
    + (if decide (nt - rx0 < min preLen since) && decide (1 < s.recs[i].starts.length) then 16 else 0)
  let post := s.rd (.trig i) R.TRIG_CAPTURE.post_len
  let u := min (s.segUnits i) (pre + post)
  let (t1, b1) := (s.unitStamp i (nt - pre)).getD (t2, bound)
  match openClass i 1 t1 b1 (if s.framed i then s.frameSpan i u else s.outSpan i u) s with
  | (s, none) => s
  | (s, some seq) =>
    let c : Cap := ⟨nt, pre, nt + post, nt - pre, t2, bound, mask, fl0, 0, some seq, nt - pre, [], 0, [], 0, t1, b1, false, 0⟩
    let e := s.recs[i]
    copyCaps i (s.setRecs i { e with caps := e.caps ++ [c] })

/-- The continuous record under construction is complete. -/
def contSeal (i : Fin 17) (s : State) : State :=
  let e := s.recs[i]
  match e.cont with
  | none => s
  | some c =>
    let s := s.setRecs i { e with cont := none }
    sealClass i 1 (some c.seq) (fun r => { r with
      typ := 0x31
      sub := 0
      fl := c.fl
      t1 := c.t1
      bound := c.bound
      payload := c.data }) s

/-- A slot just written joins the continuous record (R173). -/
def contSlot (i : Fin 17) (d : SlotIn) (s : State) : State :=
  if !s.flag (.records i) R.CAP_CTRL.continuous || decide (s.contSlots i = 0) then s else
  let s := match s.recs[i].cont with
    | some c => if c.last + 1 = d.c then s else contSeal i s
    | none => s
  let bytes := d.head ++ d.body
  let next := match s.recs[i].cont with
    | some c => (s, some { c with
        data := c.data ++ bytes
        slots := c.slots + 1
        last := d.c
        fl := Nat.lor (Nat.lor c.fl d.fl) (mixFlag c.ver d.ver)
        ver := d.ver })
    | none =>
      let t1 := toT96 (d.ts.headD 0) d.qual
      match openClass i 1 t1 d.bound 0 s with
      | (s, some n) => (s, some (⟨n, bytes, 1, d.c, d.fl, t1, d.bound, d.ver⟩ : ContRec))
      | (s, none) => (s, none)
  match next with
  | (s, none) => s
  | (s, some c) =>
    let s := s.setRecs i { s.recs[i] with cont := some c }
    if s.contSlots i ≤ c.slots then contSeal i s else s

/-- The units memory back-pressure has lost are reported (R17, R177). -/
def lostGap (i : Fin 17) (s : State) : State :=
  match s.recs[i].lost with
  | none => s
  | some g => gapAll i (if s.framed i then 1 else 0) g (contSeal i (s.setRecs i { s.recs[i] with lost := none }))

/-- A slot that the memory write ferry cannot take is lost with its units (R17, R18). -/
def loseSlot (i : Fin 17) (d : SlotIn) (s : State) : State :=
  let e := s.recs[i]
  let g := match e.lost with
    | some g => { g with count := d.first + d.held - g.first }
    | none => ⟨d.first, d.held, 5, d.ts.headD 0, d.qual, d.bound⟩
  s.setRecs i { e with lost := some g }

/-- The oldest complete slot is written, header last; captures about to lose a slot are abandoned, the others copy (R171,
R172). A stalled writer loses it (R17). -/
def slotWrite (i : Fin 17) (s : State) : State :=
  let e := s.recs[i]
  match e.slots with
  | [] => s
  | d :: ds =>
    let slots := s.rd (.records i) R.CAP_CFG.slots
    let s := s.setRecs i { e with slots := ds }
    if !s.shadowing i && s.dramStalls (s.slotAddr i d.c) (s.slotSize i) then loseSlot i d s else
    let s := lostGap i s
    let s := s.each (List.range e.caps.length).reverse (fun k st => match st.recs[i].caps[k]? with
      | some c => if slots ≤ d.c ∧ c.next < (d.c - slots + 1) * st.slotUnits i then
          capAbandon i k c (st.cnt (.records i) R.REC_COUNTS2.overrun_abandoned 1) else st
      | none => st)
    let a := s.slotAddr i d.c
    let s := if s.shadowing i then s else dramWrite a d.head (dramWrite (a + 64) d.body s)
    let s := s.wr (.records i) R.CAP_STATUS.head d.c
    let e := s.recs[i]
    let s := s.setRecs i { e with dir := SMap.set (fun _ => none) e.dir (d.c % max 1 slots) (some { d with head := [], body := [] }) }
    contSlot i d (copyCaps i s)

/-- Write every slot that is complete. -/
def flushSlots (i : Fin 17) (s : State) : State :=
  s.each (List.range s.recs[i].slots.length) (fun _ st => slotWrite i st)

/-- What was delivered before a gap goes to the ring and into its records first, so that no record opened after the GAP begins earlier
(R175). -/
def settleRing (i : Fin 17) (s : State) : State := contSeal i (flushSlots i (closeCaravan i s))

/-- The run ends (R436): open intervals are sealed, captures end at the last unit of the run, the ring's directory is cleared. -/
def recsRunEnd (i : Fin 17) (s : State) : State :=
  let s := lostGap i (flushSlots i (closeCaravan i s))
  let e := s.recs[i]
  let stop := match e.last with | some (m, _) => m + 1 | none => 0
  let s := s.setRecs i { e with caps := e.caps.map (fun c => if stop < c.end_ then
    { c with end_ := max c.nt (max c.next stop), short := true } else c) }
  let s := contSeal i (copyCaps i s)
  let s := s.each (List.finRange 5) (fun r st => redSeal i r st)
  let s := s.each (List.finRange 4) (fun k st => densSeal i k st)
  let s := s.each (List.range s.recs[i].caps.length).reverse (fun k st => match st.recs[i].caps[k]? with
    | some c => setCap i k none (segSeal i c true st)
    | none => st)
  s.setRecs i { s.recs[i] with doneJ := [], from_ := none, dir := [], starts := [], last := none }

/-- The slot's quiesce (R178, R181): intervals are sealed with the frames they have, incomplete captures are abandoned, held
records go without a block. -/
def recsQuiesce (i : Fin 17) (s : State) : State :=
  let s := lostGap i (flushSlots i (closeCaravan i s))
  let s := copyCaps i s
  let s := s.each (List.range s.recs[i].caps.length).reverse (fun k st => match st.recs[i].caps[k]? with
    | some c => capAbandon i k c st
    | none => st)
  let s := contSeal i s
  let s := s.each (List.finRange 5) (fun r st => redSeal i r st)
  let s := s.each (List.finRange 4) (fun k st => densSeal i k st)
  let s := s.each (s.heldOf i) (fun r st => missHeld i r st)
  (s.setRecs i RecSt.zero).wr (.records i) R.CAP_CTRL.continuous 0

/-- HOLD (R17, R178): every open record of every producer is abandoned and will be announced absent. -/
def recsHold (s : State) : State :=
  let s := s.each s.queue.recs (fun r st => match st.recOf r.q r.seq with
    | some x => if r.count = 0 then abandon x 7 st else st
    | none => st)
  let s := s.each (List.finRange 17) (fun i st =>
    let e := st.recs[i]
    showHeld i (st.setRecs i { e with red := Vector.replicate 5 none, dens := Vector.replicate 4 none, caps := [], cont := none }))
  showStaging (destroyCheck s)

/-! ### Enable (R170, R172, R181) -/

/-- The planes keep to R170: the cells of a frame within its core cycles, two buffers each in the local memory the program leaves. -/
def State.densAdmit (s : State) (i : Fin 17) : Bool :=
  let b : Blk := .records i
  let on := (List.range 4).filter (fun k => s.flag b (R.DENS_CFG.enable k))
  let cols := fun (k : Nat) => s.rd b (R.DENS_CFG.cols_m1 k) + 1
  let (n, d) := s.workRate i
  decide ((on.map cols).sum * n ≤ 32 * s.frameH i * s.coreHz * max 1 d)
    && decide ((on.map (fun k => 2 * s.planeBytes i k)).sum + s.rd (.core i) R.CORE_IMAGE2.data_top * 65536 ≤ 2 ^ 23)

/-- REC_CFG and its companions make the slot refuse enable. -/
def State.recsRefuse (s : State) (i : Fin 17) : Bool :=
  let b : Blk := .records i
  let lg := s.rd b R.REC_CFG.rec_max_log2
  let n := s.frameN i
  let slots := s.rd b R.CAP_CFG.slots
  let pre := s.rd (.trig i) R.TRIG_CAPTURE.pre_len
  let bound := fun (cls len : Nat) => s.flag b (R.REC_CLASS.enable cls) && decide (s.recLimit i cls < recLen len 0)
  decide (lg < 12) || decide (24 < lg)
    || (List.range 5).any (fun r =>
        let lb := s.rd b (R.RED_CFG.log2b r)
        let cplx := s.flag b (R.RED_CFG.complex r)
        let p := s.rd b (R.RED_CFG.count r)
        decide (8 < lb) || (cplx && (decide (r ≠ 0) || decide (lb ≠ 0)))
          || (s.flag b (R.RED_CFG.enable r) && (decide (p = 0) || decide (65536 < p) || decide (n < p * 2 ^ lb + s.rd b (R.RED_CFG.p0 r))
            || bound (2 + r) (16 + p * (if cplx then 8 else 2)))))
    || (List.range 4).any (fun k => decide (s.rd b (R.DENS_CFG.step k) = 0) || (s.flag b (R.DENS_CFG.enable k)
        && (decide (8 < s.rd b (R.DENS_CFG.log2b k))
          || bound (7 + k) (32 + 2 * (s.rd b (R.DENS_CFG.cols_m1 k) + 1) * (s.rd b (R.DENS_CFG.rows_m1 k) + 1)))))
    || decide (16 < s.rd b R.SGRAM_CFG.log2rows)
    || (List.range 11).any (fun c => s.flag b (R.REC_CLASS.enable c) && !(s.ctx (s.rd b (R.REC_CLASS.queue c))).on)
    || (decide (s.mode i = 1) && decide ((slots - 2) * 4096 < pre + 4096))
    || (s.specRing i && decide (slots - 2 < pre + 1))
    || (s.specRing i && s.flag b (R.REC_CLASS.enable 1) && decide (s.segUnits i = 0))
    || (s.framed i && !s.densAdmit i)

/-- The slot is enabled: nothing is open; intervals begin at their next boundary. -/
def recsEnable (i : Fin 17) (s : State) : State :=
  let f := if s.chains[i].any then some (ceilDiv s.chains[i].pos (s.frameH i)) else none
  s.setRecs i { RecSt.zero with from_ := f }

/-- A command that may act: the slot is enabled and the CORE clock runs. -/
def State.recsLive (s : State) (i : Fin 17) : Bool := s.enabled (.records i) && s.coreRuns

/-- Ring slot written. -/
def opRingSlotWrite (i : Fin 17) (s : State) : State := if s.recsLive i then slotWrite i s else s

/-- Continuous capture starts with the next slot completed; an instruction goes on after it. -/
def contStart (i : Fin 17) (s : State) : State := if s.recsLive i then s.wr (.records i) R.CAP_CTRL.continuous 1 else s
/-- Continuous capture stops: the record under construction is sealed. -/
def contStop (i : Fin 17) (s : State) : State :=
  if s.recsLive i then (contSeal i s).wr (.records i) R.CAP_CTRL.continuous 0 else s

/-- A held record has waited meas_timeout core cycles. -/
def State.measExpired (s : State) (i : Fin 17) (r : Rec) : Bool :=
  match r.phase with
  | .held t => decide (s.rd (.records i) R.MEAS_CFG.meas_timeout * secUnits ≤ (s.tim.raw - t) * s.coreHzNow)
  | _ => false

/-- Every held record that has waited meas_timeout core cycles goes without a block. -/
def opMeasTimeout (i : Fin 17) (s : State) : State :=
  if s.recsLive i then s.each ((s.heldOf i).filter (s.measExpired i)) (fun r st => missHeld i r st) else s

/-! ### The commands -/

/-- RING_SLOT_WRITE (R171): A capture-ring or spectrum-ring slot is completed header last, head advances, and pending capture copies proceed. -/
def execRingSlotWrite (i : Fin 17) (s : State) : Host.Outcome State Fault Refusal :=
  .next (opRingSlotWrite i s)
/-- MEAS_TIMEOUT (R179): A held record gets no answer within meas_timeout and is sealed without a block. -/
def execMeasTimeout (i : Fin 17) (s : State) : Host.Outcome State Fault Refusal :=
  .next (opMeasTimeout i s)

end Sys2Proof.Machine
end

