-- ==== Sys2Proof/Machine/Unit.lean ====
section
/-!
DEFINITION. Sys2Proof/Machine/Unit.lean: unit syllables of slot 3 (R242, R252, R259): guarded by bit 0, unguarded effects are the
register writes of the equivalent host write; and the choice between a register write and a unit syllable.
-/
namespace Sys2Proof.Machine
open Sys2Proof

/-- A unit syllable that reads the registers `rds` and, when its guard bit 0 is 1, acts as `f`; `bad` names an illegal encoding. -/
def unitOp (c : Fin 17) (y : Syl) (rds : List Dst) (bad : Bool) (f : Op) : Op :=
  issue c y rds (illegal bad) (fun s => if s.guard0 c y then f s else s)

/-- A unit syllable that returns values: interlocked, variable latency of at least 4, taken as 4 (R230, R259). -/
def unitRead (c : Fin 17) (y : Syl) (rds : List Dst) (bad : Bool) (f : State → List Nat) : Op :=
  unitOp c y rds bad (fun s =>
    let vs := f s
    produce c 3 4 true ((List.range vs.length).map (fun k => (Dst.s (y.dn + k), (vs.getD k 0 : Int)))) s)

/-- The value of the register pair named by `n`: Sn is the low word. -/
def CoreSt.pair (k : CoreSt) (n : Nat) : Nat := k.rs n + 2 ^ 32 * k.rs (n + 1)

/-- The registers of a pair. -/
def pairDst (n : Nat) : List Dst := [.s n, .s (n + 1)]

/-- Load or release the latch of a port. -/
def setLatch (p : Port) (l : Option LatchSt) (s : State) : State :=
  { s with host := { s.host with latches := SMap.set (fun _ => none) s.host.latches p.index l } }

/-- A unit syllable that writes registers of its slice through the core's port, which releases that port's latch (R30, R242). -/
def unitWrite (c : Fin 17) (y : Syl) (rds : List Dst) (bad : Bool) (f : Op) : Op :=
  unitOp c y rds bad (fun s => f (setLatch (.alnen c) none s))

/-- A command of the core that the unit refuses at once raises UNIT_DONE (R242). -/
def refusedDone (c : Fin 17) (core : Bool) (b : Blk) (status : Fld) (f : Op) (s : State) : State :=
  let s := f s
  if core && decide (s.rd b status = 2) then s.coreInt c.val 2 else s

/-- A command given by a register write or by the unit syllable of the slice's own core; `f` is told which. -/
def byVia (c : Fin 17) (via : Via) (f : Bool → Op) (s : State) : State :=
  match via with
  | .write => f false s
  | .unit y => unitWrite c y [] false (f true) s

end Sys2Proof.Machine
end

