-- ==== Sys2Proof/Machine/Chan.lean ====
section
/-!
DEFINITION. Sys2Proof/Machine/Chan.lean: the channeliser of a slice (R183 to R190, R201, R202): prototype, branch filters,
selection, channel records.
-/
namespace Sys2Proof.Machine
open Sys2Proof

/-- Replace the channeliser of slice `i`. -/
def State.setChan (s : State) (i : Fin 17) (c : ChanSt) : State := { s with chans := s.chans.set i c }

/-! ### Geometry (R183) -/

/-- log2 M. -/
def State.chanS (s : State) (i : Nat) : Nat := s.rd .chan (R.CHAN_CFG.log2m i)
/-- M. -/
def State.chanM (s : State) (i : Nat) : Nat := 2 ^ s.chanS i
/-- T. -/
def State.chanT (s : State) (i : Nat) : Nat := match s.rd .chan (R.CHAN_CFG.taps i) with | 0 => 8 | 1 => 12 | 2 => 16 | _ => 24
/-- L_p. -/
def State.chanL (s : State) (i : Nat) : Nat := s.chanM i * s.chanT i
/-- o = 2. -/
def State.chanO2 (s : State) (i : Nat) : Bool := s.flag .chan (R.CHAN_CFG.oversample i)
/-- The hop. -/
def State.chanHop (s : State) (i : Nat) : Nat := if s.chanO2 i then s.chanM i / 2 else s.chanM i
/-- K. -/
def State.chanK (s : State) (i : Nat) : Nat := s.rd .chan (R.CHAN_CFG.k_m1 i) + 1
/-- The queue of the records of key `key`: a channel, or M for the combined record (R190, R191). -/
def State.chanQueue (s : State) (i key : Nat) : Nat :=
  let b := s.rd .chan (R.CHAN_MAP.qbase i)
  if s.shadowing i then sinkQueue i (16 + key) else if s.flag .chan (R.CHAN_CFG.queue_mode i) then b else (b + key) % 2 ^ 20
/-- Bytes of a stored channel sample. -/
def State.chanB (s : State) (i : Nat) : Nat := if s.flag .chan (R.CHAN_CFG.format i) then 6 else 4
/-- The channeliser of slice `i` runs. -/
def State.chanRuns (s : State) (i : Nat) : Bool := decide (s.mode i = 2) && s.enabled (.filt i)

/-! ### Prototype (R185) -/

/-- A free coefficient of the generated prototype. -/
def protoFree (l2m t j : Nat) : Int := signed 18 (Config.free (72 + t) (l2m * 2 ^ 20 + j))

/-- The last coefficient of branch `b`, which brings the branch's sum to 2^17. -/
def protoLast (l2m t b : Nat) : Int := 2 ^ 17 - ((List.range (t - 1)).map (fun k => protoFree l2m t (k * 2 ^ l2m + b))).sum

/-- Every last coefficient is a signed 18-bit value. -/
def protoFits (l2m t : Nat) : Bool :=
  (List.range (2 ^ l2m)).all (fun b => decide (-(2 ^ 17 : Int) ≤ protoLast l2m t b) && decide (protoLast l2m t b < (2 ^ 17 : Int)))

/-- The generated prototype: its coefficients are not stated, so they are free signed 18-bit values, but for the branch sums of 2^17 that R185
states. Free coefficients that cannot have them give way to two taps of 2^16 a branch (log 1). -/
def protoGen (l2m t : Nat) : List Int :=
  let m := 2 ^ l2m
  (List.range (m * t)).map (fun j =>
    if protoFits l2m t then (if j / m + 1 < t then protoFree l2m t j else protoLast l2m t (j % m))
    else if j / m < 2 then 2 ^ 16 else 0)

/-- The byte address in local memory at which the placement engine has reserved the channeliser's memory: after what R273 puts before it. -/
def State.protoAddr (s : State) (i : Nat) : Nat :=
  8 * s.rd (.filt i) R.XF_MEM.base + ((List.range 4).map (s.planeNeed i)).sum

/-- The generated prototype of slice `i` stands in local memory: the slice has its reservation. -/
def State.protoStored (s : State) (i : Nat) : Bool := s.hasBuffers i

/-- The word address of the prototype in force, if it is in local memory. -/
def State.protoWord (s : State) (i : Nat) : Option Nat :=
  if s.flag .chan (R.CHAN_CFG.proto_user i) then some (s.rd .chan (R.CHAN_CFG.proto_laddr i))
  else if s.protoStored i then some (s.protoAddr i / 8) else none

/-- The coefficients in force. -/
def State.chanProto (s : State) (i : Fin 17) : List Int :=
  match s.protoWord i with
  | some a => s.lmemWords i a (s.chanL i) 18
  | none => s.chans[i].proto.getD (protoGen (s.chanS i) (s.chanT i))

/-- A word of the prototype in force holds an uncorrectable error (R201). -/
def State.chanEcc (s : State) (i : Fin 17) : Bool :=
  match s.protoWord i with
  | some a => (List.range (s.chanL i)).any (fun k => SMap.get noBad s.mem.lmemBad[i] (8 * (a + k / 2) % 2 ^ 23))
  | none => false

/-- What the reads of the prototype meet is logged where it stands in local memory (R318). -/
def protoCheck (i : Fin 17) (s : State) : State :=
  match s.protoWord i with
  | some a => checkRead (.lmem i) (8 * a % 2 ^ 23) (4 * s.chanL i) 1 s
  | none => s

/-- The generated prototype goes to its reservation as 32-bit little-endian words, h[0] first. -/
def storeProto (i : Fin 17) (s : State) : State :=
  if s.flag .chan (R.CHAN_CFG.proto_user i) then s
  else
    let h := s.chans[i].proto.getD (protoGen (s.chanS i) (s.chanT i))
    sramWrite (.lmem i) (s.protoAddr i) ((h.flatMap (fun v => leBytes 4 (code 18 v))).map some) s

/-- CHAN_CFG has been written while the slot is disabled: the prototype is generated unless software supplies it. -/
def protoStart (i : Fin 17) (s : State) : State :=
  if s.flag .chan (R.CHAN_CFG.proto_user i) then s.setChan i { s.chans[i] with making := false }
  else mgmtUp (s.setChan i { s.chans[i] with making := true })

/-- A write of CHAN_CFG while the slot is disabled. -/
def opPrototypeGenerate (i : Fin 17) (value : BitVec 64) (s : State) : State :=
  if s.enabled (.filt i) then s else protoStart i (s.wrw .chan (0x100 + 0x40 * i.val) (value.toNat % 2 ^ 44))

/-- The management controller has generated the prototype. -/
def opPrototypeReady (i : Fin 17) (s : State) : State :=
  let c := s.chans[i]
  if !c.making then s
  else
    let s := s.setChan i { c with making := false, proto := some (protoGen (s.chanS i) (s.chanT i)) }
    mgmtDown (if s.protoStored i then storeProto i s else s)

/-! ### Channel samples (R184) -/

/-- Products of coefficients and samples, per component. -/
def chanProducts (h : List Int) (x : List Cx) : List (Int × Int) := List.zipWith (fun a b => (a * b.i, a * b.q)) h x

/-- The branch sums over `t` rows of `m` taps. -/
def branchSums (m : Nat) : Nat → List Int → List Cx → List (Int × Int)
  | 0, _, _ => List.replicate m (0, 0)
  | t + 1, h, x => List.zipWith (fun a b => (a.1 + b.1, a.2 + b.2)) (chanProducts (h.take m) (x.take m))
      (branchSums m t (h.drop m) (x.drop m))

/-- The negative of a component; that of −2^23 is not stated and is free. -/
def negComp (x : Int) (q : Nat) : Int := if x = -(2 ^ 23 : Int) then signed 24 (Config.free 71 q) else -x

/-- The transform of the branch filters' outputs in centred order, with the saturations of each channel. -/
def chanTransform (l2m t g : Nat) (h : List Int) (hist : List Cx) : List Pt :=
  let v := (branchSums (2 ^ l2m) t h hist).map (fun a => (⟨sat24 (rne a.1 17), sat24 (rne a.2 17), false⟩ : Pt))
  swapHalves (transform true l2m (fixedShift g) v).1

/-- Every channel's sample `q` from its transform `y` and the history, newest first. -/
def chanSamples (l2m t : Nat) (o2 : Bool) (y : List Pt) (hist : List Cx) (q : Nat) : List Cx :=
  let m := 2 ^ l2m
  let ovr := (hist.take (m * t)).any (·.ovr)
  (List.zip (List.range m) y).map (fun (c, p) =>
    if o2 && decide (c * q % 2 = 1) then ⟨negComp p.r q, negComp p.m q, ovr || p.sat⟩ else ⟨p.r, p.m, ovr || p.sat⟩)

/-! ### Records (R190) -/

/-- The selected channels, ascending. -/
def State.selected (s : State) (i : Fin 17) : List Nat :=
  (List.range (s.chanM i)).filter (fun c => SMap.get noBad s.chans[i].sel c)

/-- A stored channel sample and its flag. -/
def chanStore (b : Nat) (x : Cx) : List Byte × Bool := storeSample b ⟨0, x.i, x.q, x.ovr, 0, 0, 0, 0, 0, 0, 0, 0⟩

/-- Every `k`-th element from position `j`. -/
def every {α : Type} (k : Nat) : Nat → List α → Nat → List α
  | 0, _, _ => []
  | n + 1, l, j => match l.drop j with
    | x :: _ => x :: every k n (l.drop k) j
    | [] => []

/-- The open record of key `key` is sealed with the samples it holds. -/
def chanSeal (i : Fin 17) (key : Nat) (s : State) : State :=
  let c := s.chans[i]
  match SMap.get (fun _ => none) c.recs key with
  | none => s
  | some r =>
    let s := s.setChan i { c with recs := SMap.set (fun _ => none) c.recs key none }
    let comb := decide (key = s.chanM i)
    let chs := if comb then s.selected i else [key]
    let k := max 1 chs.length
    let n := r.xs.length / k
    let st := r.xs.map (chanStore (s.chanB i))
    let per := (List.range k).map (every k n st)
    let head := leBytes 8 r.q0 ++ leBytes 4 n ++ leBytes 2 (if comb then 0xFFFF else key) ++ leBytes 1 (s.chanS i)
      ++ leBytes 1 (bit (s.chanO2 i) + 2 * bit (decide (s.chanB i = 6))) ++ leBytes 2 k ++ zeros 14
    let list := if comb then chs.flatMap (leBytes 2) ++ zeros (ceilDiv k 4 * 8 - 2 * k) else []
    let maps := per.flatMap (fun l => bitsBytes (ovrMap (l.map (·.2)) (ceilDiv n 16)) (ceilDiv (ceilDiv n 16) 8))
    let fl := Nat.lor (r.fl / 2 * 2) (bit (st.any (·.2)))
    match s.recOf (s.chanQueue i key) r.seq with
    | some x => completeRec { x with
        typ := 0x40
        sub := bit comb
        fl := Nat.lor fl (s.recFlags i)
        t1 := r.t1
        bound := r.bound
        payload := head ++ list ++ per.flatMap (fun l => l.flatMap (·.1)) ++ maps } s
    | none => s

/-- Every open record is sealed. -/
def chanSealAll (i : Fin 17) (s : State) : State := s.each (s.chans[i].recs.map (·.1)) (chanSeal i)

/-- Samples join the open record of `key`, which opens with them; its staging grows (R196). -/
def chanAdd (i : Fin 17) (key q : Nat) (t1 : T96) (bound fl ver : Nat) (xs : List Cx) (s : State) : State :=
  let put := fun (r : ChanRec) (s : State) =>
    let c := s.chans[i]
    let r := { r with xs := r.xs ++ xs, fl := Nat.lor (Nat.lor r.fl fl) (mixFlag r.ver ver), ver := ver }
    let s := s.setChan i { c with recs := SMap.set (fun _ => none) c.recs key (some r) }
    makeRoom i.val 0 s.queue.recs.length s
  match SMap.get (fun _ => none) s.chans[i].recs key with
  | some r => put r s
  | none =>
    let per := s.chanK i * 4096
    let n0 := q * s.chanHop i
    let (s, n) := openRec (s.chanQueue i key) i.val 11 t1 bound (s.outSpan i (per - n0 % per)) s
    put ⟨q, n, t1, bound, 0, [], ver⟩ s

/-- The GAP records of lost channel samples go to every selected channel's queue (R177, R187). -/
def chanGap (i : Fin 17) (s : State) : State :=
  let c := s.chans[i]
  if c.lost.isEmpty then s else
  let s := s.setChan i { c with lost := [], fl := Nat.lor c.fl 16 }
  let keys := if s.flag .chan (R.CHAN_CFG.queue_mode i) then (if (s.selected i).isEmpty then [] else [s.chanM i]) else s.selected i
  s.each c.lost (fun g s =>
    let dur := s.outDur i (g.count * s.chanHop i)
    s.each keys (fun key st =>
      let (st, n) := openRec (st.chanQueue i key) i.val 11 (toT96 g.t g.qual) g.bound dur.toNat st
      let st := (st.cnt (.records i) R.REC_COUNTS2.gap_records 1).observe i.val 6 1 g.reason
      match st.recOf (st.chanQueue i key) n with
      | some x => completeRec { x with typ := 1, sub := 0, payload := gapPayload g.first g.count 0 g.reason dur } st
      | none => st))

/-! ### Working outputs in, gaps (R187) -/

/-- The time of channel sample `q` whose working output has time `t`: (L_p − 1)/2 working periods earlier. -/
def State.chanTime (s : State) (i : Fin 17) (t : Int) : Int :=
  let rate := match s.streamOf i with | some x => max 1 (s.streamRate x) | none => 1
  rneDiv (t * (2 * rate : Nat) - ((s.chanL i - 1) * s.chainD i * secUnits : Nat)) (2 * rate)

/-- Channel samples from `q`, `n` of them, are lost to a gap of this reason: the first is dated by its own n_q (R176, R187). -/
def chanLose (i : Fin 17) (q n reason : Nat) (s : State) : State :=
  if n = 0 then s else
  let c := s.chans[i]
  let t := match s.streamOf i with | some x => s.outTime i x (q * s.chanHop i) | none => 0
  let (ql, b) := s.stampAt i
  s.setChan i { c with lost := GapRun.add c.lost ⟨q, n, reason, s.chanTime i t, ql, b⟩ }

/-- Working outputs `m` to `m + n − 1` were not delivered; `why` = their gap's reason, none where they are suppressed. -/
def chanMiss (i : Fin 17) (m n : Nat) (why : Option Nat) (s : State) : State :=
  if n = 0 || !s.chanRuns i then s else
  let s := chanSealAll i s
  let c := s.chans[i]
  let hop := s.chanHop i
  let l := s.chanL i
  let c := { c with hist := [], since := m + n, gapTo := match why with | some r => some (m + n - 1, r) | none => c.gapTo }
  let q0 := ceilDiv m hop
  let q1 := ceilDiv (m + n) hop
  let early := match c.first with
    | some f => min q1 (max q0 (ceilDiv (f + l - 1) hop))
    | none => q1
  let lostTo := match c.gapTo with
    | some (g, _) => min q1 (max early ((g + l - 1) / hop + 1))
    | none => early
  let s := s.cnt .chan (R.CHAN_COUNTS2.suppressed i) ((early - q0) + (q1 - lostTo))
  let c := if early < q1 || early > q0 then { c with fl := Nat.lor c.fl (if q0 < early then 4 else 0) } else c
  let reason := match c.gapTo with | some (_, r) => r | none => 1
  (chanLose i early (lostTo - early) reason (s.setChan i c)).wr .chan (R.CHAN_INDEX.index i) q1

/-- Channel sample `q` has its window: it is computed and delivered on the selected channels. -/
def chanDeliver (i : Fin 17) (q : Nat) (o : OutS) (s : State) : State :=
  let s := chanGap i s
  let c := s.chans[i]
  let ecc := s.chanEcc i
  let s := s.when ecc (fun s => residueError i 4 ((protoCheck i s).fault .chan (R.CHAN_FAULT.proto_ecc i)))
  let y := chanTransform (s.chanS i) (s.chanT i) (s.rd .chan (R.CHAN_CFG.gain i)) (s.chanProto i) c.hist
  let ys := chanSamples (s.chanS i) (s.chanT i) (s.chanO2 i) y c.hist q
  let s := s.cnt .chan (R.CHAN_COUNTS2.sat_events i) (y.filter (·.sat)).length
  let hit := match c.badAt with | some b => decide (o.m < b + s.chanL i) | none => false
  let fl := Nat.lor (Nat.lor c.fl (o.fl / 2 * 2)) (if ecc || hit then 64 else 0)
  let s := (s.setChan i { s.chans[i] with fl := 0 }).wr .chan (R.CHAN_CTRL.state i) 2
  let t1 := toT96 (s.chanTime i o.t) o.qual
  let sel := s.selected i
  let at_ := fun (ch : Nat) => ys.getD ch ⟨0, 0, false⟩
  if s.flag .chan (R.CHAN_CFG.queue_mode i) then
    if sel.isEmpty then s else chanAdd i (s.chanM i) q t1 o.bound fl o.ver (sel.map at_) s
  else s.each sel (fun ch st => chanAdd i ch q t1 o.bound fl o.ver [at_ ch] st)

/-- A delivered working output reaches the channeliser. -/
def chanPush (i : Fin 17) (o : OutS) (s : State) : State :=
  if !s.chanRuns i then s else
  let c := s.chans[i]
  let l := s.chanL i
  let s := s.setChan i { c with
    hist := ((⟨o.i, o.q, o.ovr⟩ : Cx) :: c.hist).take l
    since := if c.hist.isEmpty then o.m else c.since
    first := some (c.first.getD o.m) }
  let hop := s.chanHop i
  if o.m % hop ≠ 0 then s else
  let q := o.m / hop
  let c := s.chans[i]
  let s := s.wr .chan (R.CHAN_INDEX.index i) (q + 1)
  if c.since + l ≤ o.m + 1 then chanDeliver i q o s
  else if o.m + 1 < c.first.getD 0 + l then (s.cnt .chan (R.CHAN_COUNTS2.suppressed i) 1).setChan i { c with fl := Nat.lor c.fl 4 }
  else match c.gapTo with
    | some (g, r) => if o.m < g + l then chanLose i q 1 r s else s.cnt .chan (R.CHAN_COUNTS2.suppressed i) 1
    | none => s.cnt .chan (R.CHAN_COUNTS2.suppressed i) 1

/-! ### Selection and periods (R189, R190) -/

/-- CHAN_TOTAL. -/
def showChanTotal (s : State) : State :=
  let on := (List.range 17).filter s.chanRuns
  let s := s.wr .chan R.CHAN_TOTAL.channelise_slices (on.foldl (fun a i => a + 2 ^ i) 0)
  s.wr .chan R.CHAN_TOTAL.selected ((on.map (fun i => s.rd .chan (R.CHAN_SEL.selected i))).sum)

/-- The staged bitmap would lie outside local memory. -/
def State.selOutside (s : State) (i : Nat) : Bool :=
  decide (2 ^ 23 < 8 * s.rd .chan (R.CHAN_SEL.stage_laddr i) + s.chanM i / 8)

/-- A commit ends with a status. -/
def chanCommitEnd (i : Fin 17) (st : Nat) (s : State) : State :=
  commitDone i 4 true ((s.wr .chan (R.CHAN_CTRL.commit i) 0).wr .chan (R.CHAN_CTRL.last_status i) st)

/-- A commit of the selection. -/
def chanCommit (i : Fin 17) (byCore : Bool) (s : State) : State :=
  let s := s.when byCore (fun s => s.setChain i { s.chains[i] with byCore := Nat.lor s.chains[i].byCore 16 })
  if s.selOutside i then chanCommitEnd i 3 (s.wr .chan (R.CHAN_FAULT.select_refused i) 1)
  else (s.wr .chan (R.CHAN_CTRL.commit i) 1).wr .chan (R.CHAN_CTRL.last_status i) 1

/-- The staged bitmap becomes the selection: deselected channels seal their records. -/
def chanSelect (i : Fin 17) (s : State) : State :=
  let a := s.rd .chan (R.CHAN_SEL.stage_laddr i)
  let bits := (List.range (s.chanM i)).filter (fun c => nbit ((SMap.get zeroByte s.mem.lmem[i] ((8 * a + c / 8) % 2 ^ 23)).toNat) (c % 8))
  let bad := (List.range (ceilDiv (s.chanM i) 64)).any (fun k => SMap.get noBad s.mem.lmemBad[i] (8 * (a + k) % 2 ^ 23))
  let s := s.when bad (fun s =>
    residueError i 4 ((checkRead (.lmem i) (8 * a % 2 ^ 23) (s.chanM i / 8) 1 s).fault .chan (R.CHAN_FAULT.proto_ecc i)))
  let s := if s.flag .chan (R.CHAN_CFG.queue_mode i) then chanSealAll i s
    else s.each ((s.chans[i].recs.map (·.1)).filter (fun c => !bits.contains c)) (chanSeal i)
  let s := s.setChan i { s.chans[i] with
    sel := bits.foldl (fun m c => SMap.set noBad m c true) []
    fl := Nat.lor s.chans[i].fl (if bad then 64 else 0) }
  showChanTotal ((s.wr .chan (R.CHAN_SEL.active_laddr i) a).wr .chan (R.CHAN_SEL.selected i) bits.length)

/-- The channeliser at a caravan boundary whose first output is `m`. -/
def chanBoundary (i : Fin 17) (m : Nat) (s : State) : State :=
  if !s.chanRuns i then s else
  let j := m / 4096 / s.chanK i
  let s := if s.chans[i].period = j then s else
    let s := chanSealAll i s
    s.setChan i { s.chans[i] with period := j }
  if !s.flag .chan (R.CHAN_CTRL.commit i) then s
  else if s.selOutside i then chanCommitEnd i 3 (s.wr .chan (R.CHAN_FAULT.select_refused i) 1)
  else chanCommitEnd i 0 (chanSelect i s)

/-! ### Enable, quiesce, runs (R202, R436) -/

/-- CHAN_CFG and its companions make the slot refuse enable in CHANNELISE. -/
def State.chanRefuses (s : State) (i : Fin 17) : Bool :=
  let l2m := s.chanS i
  let m := s.chanM i
  let o := if s.chanO2 i then 2 else 1
  let d := s.chainD i
  let rate := match s.streamOf i with | some x => s.streamRate x | none => 0
  let per := s.chanK i * 4096 / max 1 (s.chanHop i)
  let comb := s.flag .chan (R.CHAN_CFG.queue_mode i)
  let k := if comb then m else 1
  let len := recLen (32 + (if comb then ceilDiv m 4 * 8 else 0) + k * (per * s.chanB i + ceilDiv (ceilDiv per 16) 8)) 0
  -- a stand-in works for the queues of the slice it shadows
  let j := if s.shadowing i then s.rd (.core i) R.SLICE_MODE.shadow_of else i.val
  let base := s.rd .chan (R.CHAN_MAP.qbase j)
  let lim := fun (q : Nat) => min (2 ^ s.rd (.records i) R.REC_CFG.rec_max_log2) (2 ^ ((s.ctx q).log2size - 1))
  decide (s.mode i = 2) &&
    (decide (l2m < 6) || decide (12 < l2m) || decide (l2m < s.rd .chan (R.CHAN_CFG.gain i))
      || decide (128 * s.coreHz * d < rate * s.chanT i * o) || decide (32 * s.coreHz * d < rate * o)
      || decide (2 ^ 20 < base + m)
      || (List.range (if comb then 1 else m)).any (fun c => decide (lim ((base + c) % 2 ^ 20) < len)))

/-- History, spans and open records of the channeliser go; the prototype stays. -/
def chanClear (i : Fin 17) (s : State) : State :=
  let c := s.chans[i]
  s.setChan i { ChanSt.zero with proto := c.proto, making := c.making, sel := c.sel }

/-- The slot is enabled: no record is open and nothing is selected. -/
def chanEnable (i : Fin 17) (s : State) : State :=
  if s.mode i ≠ 2 then showChanTotal s else
  let s := chanClear i s
  let s := s.setChan i { s.chans[i] with sel := [] }
  showChanTotal ((s.wr .chan (R.CHAN_CTRL.state i) 1).wr .chan (R.CHAN_INDEX.index i) 0)

/-- The slot quiesces: open records are sealed; the selection is empty. -/
def chanDisable (i : Fin 17) (s : State) : State :=
  let s := chanClear i (chanGap i (chanSealAll i s))
  let s := s.setChan i { s.chans[i] with sel := [] }
  showChanTotal ((s.wr .chan (R.CHAN_CTRL.state i) 0).wr .chan (R.CHAN_SEL.selected i) 0)

/-- The stream's run restarts: open records are sealed as at a quiesce. -/
def chanRunEnd (i : Fin 17) (s : State) : State :=
  if !s.chanRuns i then s else
  let s := chanClear i (chanGap i (chanSealAll i s))
  (s.wr .chan (R.CHAN_CTRL.state i) 1).wr .chan (R.CHAN_INDEX.index i) 0

/-- HOLD: the open records have been abandoned. -/
def chanHold (i : Fin 17) (s : State) : State := s.setChan i { s.chans[i] with recs := [], hist := [] }

/-- A commit of the selection, by register or by U.CHAN. -/
def opChanCommit (c : Fin 17) (via : Via) (s : State) : State := byVia c via (fun core => chanCommit c core) s

/-! ### The commands -/

/-- CHAN_COMMIT (R189): CHAN_CTRL.commit or U.CHAN COMMIT commits the staged selection bitmap, or refuses it. -/
def execChanCommit (c : Fin 17) (via : Via) (s : State) : Host.Outcome State Fault Refusal :=
  .next (onWrite (opChanCommit c via) s)
/-- PROTOTYPE_GENERATE (R185): Writing CHAN_CFG while the slot is disabled with proto_user = 0 starts generation of the channeliser prototype. -/
def execPrototypeGenerate (i : Fin 17) (value : BitVec 64) (s : State) : Host.Outcome State Fault Refusal :=
  .next (onWrite (opPrototypeGenerate i value) s)
/-- PROTOTYPE_READY (R185): The management controller finishes generating the prototype. -/
def execPrototypeReady (i : Fin 17) (s : State) : Host.Outcome State Fault Refusal :=
  .next (opPrototypeReady i s)

end Sys2Proof.Machine
end

