-- ==== Sys2Proof/Machine/Rxg.lean ====
section
/-!
DEFINITION. Sys2Proof/Machine/Rxg.lean: the receive lane groups (R63 to R72, R74, R78, R437).
-/
namespace Sys2Proof.Machine
open Sys2Proof

/-! ### Lane and group states -/

/-- The state of lane `n` under R64: 0 OFF, 1 HUNT, 2 LOCKED, 3 ALIGNED, 4 RETIRED. -/
def State.laneState (s : State) (g : Fin 16) (n : Nat) : Nat := SMap.get (fun _ => 0) (s.rx[g]).lane n
/-- Lane `n` has block lock. -/
def State.laneLock (s : State) (g : Fin 16) (n : Nat) : Bool := SMap.get noBad (s.rx[g]).lock n
/-- Lane `n` is deskewed. -/
def State.laneDesk (s : State) (g : Fin 16) (n : Nat) : Bool := SMap.get noBad (s.rx[g]).desk n
/-- Lane `n` is enabled. -/
def State.laneOn (s : State) (g : Fin 16) (n : Nat) : Bool :=
  decide (1 ≤ n) && nbit (s.rd (.rxg g) R.RXG_CFG.lane_enable) (n - 1)
/-- Lane `n` is in the active set of the last ALIGN row. -/
def State.laneActive (s : State) (g : Fin 16) (n : Nat) : Bool :=
  decide (1 ≤ n) && nbit (s.rd (.rxg g) R.RXG_STATUS.active_mask) (n - 1)

/-- Show lane `n` in RXG_LANE: an inactive lane under check shows TEST (R74). -/
def showLane (g : Fin 16) (n : Nat) (s : State) : State :=
  let st := s.laneState g n
  let test := decide (st ≠ 0) && !s.laneActive g n && s.flag (.rxg g) (R.RXG_PRBS.check n)
  let s := s.wr (.rxg g) (R.RXG_LANE.state n) (if test then 5 else st)
  s.wr (.rxg g) (R.RXG_LANE.ready n) (bit (decide (st ≥ 2) && s.laneLock g n && s.laneDesk g n))

/-- Put lane `n` into a state, with block lock and deskewed or not. -/
def setLaneTo (g : Fin 16) (n st : Nat) (lock desk : Bool) (s : State) : State :=
  let r := s.rx[g]
  showLane g n (s.setRx g { r with
    lane := SMap.set (fun _ => 0) r.lane n st
    lock := SMap.set noBad r.lock n lock
    desk := SMap.set noBad r.desk n desk })

/-- Put lane `n` into a state; from LOCKED on it has block lock. -/
def setLane (g : Fin 16) (n st : Nat) (desk : Bool) (s : State) : State := setLaneTo g n st (decide (2 ≤ st)) desk s

/-- The lanes of a group. -/
def lanes15 : List Nat := (List.range 15).map (· + 1)

/-- The group state of R437. -/
def State.groupState (s : State) (g : Fin 16) : Nat :=
  if !s.flag (.rxg g) R.RXG_STATUS.ck_present || decide (s.rd (.rxg g) R.RXG_CFG.split = 3) then 0
  else if (lanes15.all fun n => !s.laneOn g n || decide (s.laneState g n < 2)) then 1
  else if !(s.rx[g]).matched then 2
  else if s.flag (.rxg g) R.RXG_STATUS.rate_mismatch || s.flag (.rxg g) R.RXG_STATUS.split_mismatch
      || (lanes15.any fun n => s.laneOn g n && s.laneActive g n && decide (s.laneState g n ≠ 3)) then 3
  else 4

/-- Show the group state. -/
def showGroup (g : Fin 16) (s : State) : State := s.wr (.rxg g) R.RXG_STATUS.group_state (s.groupState g)

/-! ### Sub-stream states (RXG_STATUS.ss_state) -/

/-- The field of sub-stream `k`. -/
def ssFld (k : Fin 5) : Fld := { R.RXG_STATUS.ss_state with lo := 40 + 3 * k.val, width := 3 }
/-- 0 OFF, 1 WAIT_START, 2 RUN, 3 RESYNC, 4 STOPPED. -/
def State.ssState (s : State) (g : Fin 16) (k : Fin 5) : Nat := s.rd (.rxg g) (ssFld k)

/-- RXG_SS[k].enable decides between OFF and the other states; entries beyond the split are ignored (R79). -/
def syncSub (g : Fin 16) (k : Fin 5) (s : State) : State :=
  if !s.flag (.rxg g) (R.RXG_SS.enable k) || decide (splitSubs (s.rd (.rxg g) R.RXG_CFG.split) ≤ k.val)
  then s.wr (.rxg g) (ssFld k) 0
  else if s.ssState g k = 0 then s.wr (.rxg g) (ssFld k) 1 else s

/-- The receiver hands rows to ingest[g]. -/
def State.delivering (s : State) (g : Fin 16) : Bool :=
  s.enabled (.rxg g) && !s.flag (.rxg g) R.BLOCK_STATUS.quiescing

/-- A running sub-stream enters RESYNC; `reason` is that of R176 for what it loses. -/
def resync (g : Fin 16) (k : Fin 5) (reason : Nat) (s : State) : State :=
  if s.ssState g k = 2 then
    (s.wr (.rxg g) (ssFld k) 3).setSub g k { (s.rx[g]).subs[k] with hole := reason, stale := false }
  else s

/-- Every sub-stream of a group. -/
def subs5 : List (Fin 5) := [0, 1, 2, 3, 4]

/-- RXG_SS or RXG_CFG has been written: the sub-streams and the group show it. -/
def syncSubs (g : Fin 16) (s : State) : State := showGroup g (s.each subs5 (syncSub g))

/-- RXG_CFG.lane_enable has been written: a lane newly enabled hunts, one disabled is off (R64). -/
def syncLanes (g : Fin 16) (s : State) : State :=
  syncSubs g (s.each lanes15 (fun n st =>
    if !st.laneOn g n then (if st.laneState g n = 0 then st else setLane g n 0 false st)
    else if st.laneState g n = 0 ∧ st.flag (.rxg g) R.RXG_STATUS.ck_present then setLane g n 1 false st
    else st))

/-- CK is lost: every lane hunts, every running sub-stream resynchronises (R63). -/
def ckLost (g : Fin 16) (s : State) : State :=
  if !s.flag (.rxg g) R.RXG_STATUS.ck_present then s else
  let s := (s.wr (.rxg g) R.RXG_STATUS.ck_present 0).cnt (.rxg g) R.RXG_CK.ck_losses 1
  let s := s.each (lanes15.filter (s.laneOn g)) (fun n => setLane g n 1 false)
  noteClocks (showGroup g (s.each subs5 (fun k => resync g k 1)))

/-- RXG[g] takes its CK and data from the serialisers of TXG[g] and ignores its pins (R76). -/
def State.loops (s : State) (g : Fin 16) : Bool := s.flag (.rxg g) R.RXG_CFG.loopback

/-- The edges of CK/64 that TXG[g] gives in a window: its nominal rate and its offset; none while it does not run (R63, R77). -/
def State.loopCk (s : State) (g : Fin 16) : Nat :=
  if !s.txOn g then 0
  else
    let nom := ckNominal (s.rd (.txg g) R.TXG_CFG.rate)
    nom + nom * 50 * min 30 (s.rd (.txg g) R.TXG_CFG.rate_offset) / 1000000

/-- A 65,536-cycle window of CK/64 ends with `count` edges; in loopback they are the transmitter's. -/
def opCkWindow (g : Fin 16) (count : Nat) (s : State) : State :=
  if !s.linkUp then s else
  let count := if s.loops g then s.loopCk g else count
  let nom := ckNominal (s.rd (.rxg g) R.RXG_CFG.rate)
  let d : Int := (count : Int) - nom
  let s := s.wri (.rxg g) R.RXG_CK.ck_dev (sat 16 (rneDiv (d * 1000000) nom))
  if -600 * (nom : Int) ≤ d * 1000000 ∧ d * 1000000 ≤ 1800 * (nom : Int) then
    if s.flag (.rxg g) R.RXG_STATUS.ck_present then s else
    let s := (s.wr (.rxg g) R.RXG_STATUS.ck_present 1).setRx g { s.rx[g] with matched := false }
    noteClocks (showGroup g (s.each (lanes15.filter (s.laneOn g)) (fun n => setLane g n 1 false)))
  else ckLost g s

/-- CK shows no transition for 1 µs. -/
def opCkLoss (g : Fin 16) (s : State) : State := if s.linkUp && !(s.loops g && s.txOn g) then ckLost g s else s

/-- A lane that hunts, or a retired one without lock, sees 128 consecutive valid headers; `line` = the last 58 payload bits it has received,
which its descrambler holds (R50, R64). A retired lane stays RETIRED. -/
def opBlockLock (g n : Fin 16) (line : BitVec 58) (s : State) : State :=
  let st := s.laneState g n
  if !(s.linkUp && s.laneOn g n && s.flag (.rxg g) R.RXG_STATUS.ck_present) then s
  else if st = 1 ∨ (st = 4 ∧ !s.laneLock g n) then
    let r := s.rx[g]
    let s := if s.loops g then s else s.setRx g { r with desc := SMap.set (fun _ => 0) r.desc n line.toNat }
    showGroup g (setLaneTo g n (if st = 1 then 2 else 4) true false s)
  else s

/-- 24 or more invalid headers in a window of 256 blocks: the lane hunts; a retired one stays RETIRED, no longer ready (R64). -/
def opBlockLockLoss (g n : Fin 16) (s : State) : State :=
  let st := s.laneState g n
  if !s.linkUp || decide (st < 2) || !s.laneLock g n then s else
  let s := (s.cnt (.rxg g) (R.RXG_LANE_ERR.lock_losses n) 1).wr (.rxg g) (R.RXG_LANE.lock_lost n) 1
  showGroup g (setLaneTo g n (if st = 4 then 4 else 1) false false s)

/-- Four ALIGN periods without a valid ALIGN at the expected position: LOCKED; a retired lane stays RETIRED, no longer deskewed (R64). -/
def opAlignLoss (g n : Fin 16) (s : State) : State :=
  let st := s.laneState g n
  if s.linkUp && decide (st = 3) then showGroup g (setLane g n 2 false s)
  else if s.linkUp && decide (st = 4) then showGroup g (setLaneTo g n 4 (s.laneLock g n) false s)
  else s

/-! ### ALIGN rows (R64, R65, R69, R70) -/

/-- Fields of an ALIGN body: lane, rate, split, seq, active; bit 8 of the block is bit 0 of the body. -/
def alLane (b : Nat) : Nat := b % 16
/-- rate -/
def alRate (b : Nat) : Nat := b / 16 % 4
/-- split -/
def alSplit (b : Nat) : Nat := b / 64 % 4
/-- seq -/
def alSeq (b : Nat) : Nat := b / 2 ^ 8 % 65536
/-- active -/
def alActive (b : Nat) : Nat := b / 2 ^ 24 % 2 ^ 15

/-- The mask the announcements for `seq` make of `old`. -/
def announced (ann : List (Nat × Nat × Bool)) (seq old : Nat) : Nat :=
  (ann.filter (fun a => a.1 = seq)).foldl (fun m a =>
    let bits := if a.2.1 = 0 then 2 ^ 15 - 1 else 2 ^ (a.2.1 - 1)
    if a.2.2 then Nat.lor m bits else Nat.land m (2 ^ 15 - 1 - bits)) old

/-- One lane of an ALIGN row that named `act` as active: `valid` = its ALIGN belongs to the row; `late` = it came, but more than 20 ns after
the earliest lane. -/
def alignLane (g : Fin 16) (act n : Nat) (valid : Option Nat) (late : Bool) (s : State) : State :=
  if !s.laneOn g n || decide (s.laneState g n < 2) then s else
  let inAct := nbit act (n - 1)
  let lock := s.laneLock g n
  match valid with
  | some k => setLaneTo g n (if inAct then 3 else 4) lock true (s.wr (.rxg g) (R.RXG_LANE.skew n) k)
  | none =>
    let s := s.cnt (.rxg g) (R.RXG_LANE_ERR.align_misses n) 1
    let st := s.laneState g n
    let desk := s.laneDesk g n
    if late then setLaneTo g n 2 lock false (s.wr (.rxg g) (R.RXG_LANE.skew n) 16)
    else if st = 3 ∧ !inAct then setLaneTo g n 4 lock desk s
    else if st = 4 ∧ inAct then
      -- a lane that is not ready joins as a missing one: it is locked, or it hunts
      setLaneTo g n (if lock && desk then 3 else if lock then 2 else 1) lock desk s
    else s

/-- The active lanes of sub-stream `k` are fewer than R52 asks for. -/
def State.subShort (s : State) (g : Fin 16) (k : Fin 5) : Bool :=
  let sp := s.rd (.rxg g) R.RXG_CFG.split
  decide ((subLanes sp k (s.rd (.rxg g) R.RXG_STATUS.active_mask)).length < splitMin sp)

/-- A sub-stream below its minimum of active lanes stops (R70). -/
def stopBelowMin (g : Fin 16) (k : Fin 5) (s : State) : State :=
  if s.ssState g k ≠ 0 ∧ s.subShort g k then s.wr (.rxg g) (ssFld k) 4 else s

/-- What an ALIGN row shows of lane `n`: the block it received after descrambling, and its lateness. -/
structure AlignIn where
  body : Nat
  late : Nat
  deriving DecidableEq, Repr

/-- The ALIGN body of a block, if it is a valid ALIGN (R54, R64). -/
def LBlock.align (b : LBlock) : Option Nat := if b.hdr = .control ∧ b.type = 0x4B ∧ b.crcOk then some b.body else none

/-- An ALIGN row after descrambling: the valid ALIGN of each lane D01 to D15, where one came. Lanes match by equal seq; the active set is that
of the lowest lane with a valid ALIGN in the row (R64, R65, R69, R70). -/
def alignRow (g : Fin 16) (rows : Nat → Option AlignIn) (s : State) : State :=
  -- a lane field that names another lane is ignored and flagged
  let wrong := fun (n : Nat) => match rows n with
    | some a => decide (alLane a.body ≠ n)
    | none => false
  let heard := fun (n : Nat) => s.laneOn g n && decide (s.laneState g n ≥ 2) && s.laneLock g n
  let s := s.each (lanes15.filter (fun n => heard n && wrong n)) (fun n st => st.wr (.rxg g) (R.RXG_LANE.id_mismatch n) 1)
  let came := fun (n : Nat) => if heard n && !wrong n then rows n else none
  let late := fun (a : AlignIn) => decide (skewBlocks (s.rd (.rxg g) R.RXG_CFG.rate) < a.late)
  let good := fun (n : Nat) => (came n).filter (fun a => !late a)
  match (lanes15.filterMap good).head? with
  | none =>
    showGroup g (s.each (lanes15.filter heard) (fun n st =>
      if (came n).isSome then alignLane g (st.rd (.rxg g) R.RXG_STATUS.active_mask) n none true st
      else st.cnt (.rxg g) (R.RXG_LANE_ERR.align_misses n) 1))
  | some a0 =>
    let b := a0.body
    let row := fun (n : Nat) => (good n).filter (fun a => decide (alSeq a.body = alSeq b))
    let key := fun (x : Nat) => (alRate x, alSplit x, alActive x)
    let off := (lanes15.filterMap row).filter (fun a => key a.body ≠ key b)
    let s := s.cnt (.rxg g) R.RXG_ERRCNT1.mask_mismatches off.length
    let s := s.wr (.rxg g) R.RXG_STATUS.rate_mismatch (bit (decide (alRate b ≠ s.rd (.rxg g) R.RXG_CFG.rate)))
    let s := s.wr (.rxg g) R.RXG_STATUS.split_mismatch (bit (decide (alSplit b ≠ s.rd (.rxg g) R.RXG_CFG.split)))
    let act := alActive b
    let told := announced (s.rx[g]).ann (alSeq b) (s.rd (.rxg g) R.RXG_STATUS.active_mask)
    let s := s.when ((s.rx[g]).matched && decide (told ≠ act)) (fun s => s.cnt (.rxg g) R.RXG_ERRCNT1.mask_mismatches 1)
    let s := (s.wr (.rxg g) R.RXG_STATUS.active_mask act).wr (.rxg g) R.RXG_STATUS.align_seq (alSeq b)
    let s := s.setRx g { s.rx[g] with
      matched := true
      ann := (s.rx[g]).ann.filter (fun a => a.1 ≠ alSeq b) }
    let s := s.each lanes15 (fun n st => alignLane g act n ((row n).map (·.late)) ((came n).any late) st)
    showGroup g (s.each subs5 (stopBelowMin g))

/-! ### Line bits in (R50, R74) -/

/-- Pattern checker of lane `n` on the 66 bits `w` it receives (R74). -/
def checkLane (g : Fin 16) (n w : Nat) (s : State) : State :=
  let x : Blk := .rxg g
  if !s.flag x (R.RXG_PRBS.check n) then s else
  let r := s.rx[g]
  let p := s.rd x (R.RXG_PRBS.pattern n)
  let c := ChkRun.go p 66 w ⟨s.flag x (R.RXG_PRBS.sync n), SMap.get (fun _ => .zero) r.chk n, 0, 0, 0⟩
  let s := s.setRx g { r with chk := SMap.set (fun _ => .zero) r.chk n c.chk }
  let s := (s.cnt x (R.RXG_PRBS_BITS.bits n) c.bits).cnt x (R.RXG_PRBS.errors n) c.errors
  (s.cnt x (R.RXG_PRBS_BITS.sync_losses n) c.losses).wr x (R.RXG_PRBS.sync n) (bit c.sync)

/-- The block lane `n` receives with the 66 line bits `w`: polarity undone, checked, descrambled. -/
def takeLane (g : Fin 16) (n : Nat) (w : BitVec 66) (s : State) : State × LBlock :=
  let w := if s.flag (.rxg g) (R.RXG_EQ.invert n) then 2 ^ 66 - 1 - w.toNat else w.toNat
  let s := checkLane g n w s
  let b := LBlock.ofBits w
  let r := s.rx[g]
  let (p, h) := descramble (SMap.get (fun _ => 0) r.desc n) b.payload.toNat
  (s.setRx g { r with desc := SMap.set (fun _ => 0) r.desc n h }, { b with payload := BitVec.ofNat 64 p })

/-- The blocks of lanes `ns` from the bits each receives, by lane. -/
def takeRow (g : Fin 16) (bits : Nat → Option (BitVec 66)) : List Nat → State → State × SMap (Option LBlock)
  | [], s => (s, [])
  | n :: ns, s =>
    match (if s.laneOn g n then bits n else none) with
    | none => takeRow g bits ns s
    | some w =>
      let (s, b) := takeLane g n w s
      let (s, m) := takeRow g bits ns s
      (s, SMap.set (fun _ => none) m n (some b))

/-- An ALIGN row: one entry per lane D01 to D15, none where nothing came. In loopback the rows are the transmitter's (R76). -/
def opRxAlign (g : Fin 16) (rows : List (Option AlignRx)) (s : State) : State :=
  if !s.linkUp || !s.flag (.rxg g) R.RXG_STATUS.ck_present || s.loops g then s else
  let at_ := fun (n : Nat) => (rows[n - 1]?).join
  let (s, m) := takeRow g (fun n => (at_ n).map (·.bits)) lanes15 s
  alignRow g (fun n => ((SMap.get (fun _ => none) m n).bind LBlock.align).map (fun b => ⟨b, ((at_ n).map (·.late)).getD 0⟩)) s

/-! ### Samples (R52, R66 to R68, R78, R81) -/

/-- The stream index of member-local sample `j` (R68). -/
def State.streamIndex (s : State) (g : Fin 16) (j : Nat) : Nat :=
  if s.flag (.rxg g) (R.RXG_SS.bonded 0) then
    let b := s.rd (.rxg g) (R.RXG_SS.bond_size 0) + 1
    (b * (j / 4096) + s.rd (.rxg g) (R.RXG_SS.member 0)) * 4096 + j % 4096
  else j

/-- The spans that flag samples of a sub-stream; a bond's lie with member 0. -/
def State.spansOf (s : State) (g : Fin 16) (k : Fin 5) : List (Nat × Nat) :=
  if s.flag (.rxg g) (R.RXG_SS.bonded 0) then
    ((s.rx[Fin.ofNat 16 (g.val - s.rd (.rxg g) (R.RXG_SS.member 0))]).subs[0]).spans
  else ((s.rx[g]).subs[k]).spans

/-- The bits and the lost mask of a row's blocks, appended to those that wait: value, mask, count. -/
def appendBits : List LBlock → Nat → Nat → Nat → Nat × Nat × Nat
  | [], v, m, l => (v, m, l)
  | b :: bs, v, m, l =>
    if b.hdr = .data then appendBits bs (v + b.payload.toNat * 2 ^ l) m (l + 64)
    else appendBits bs v (m + (2 ^ 64 - 1) * 2 ^ l) (l + 64)

/-- The whole samples in `l` bits: raw value and lost flag of each. -/
def takeSamples (b : Nat) : Nat → Nat → Nat → List (Nat × Bool)
  | 0, _, _ => []
  | n + 1, v, m => (v % 2 ^ b, decide (m % 2 ^ b ≠ 0)) :: takeSamples b n (v / 2 ^ b) (m / 2 ^ b)

/-- Build the samples of a row from index `n` with their times. -/
def mkSamples (fmt : Nat) (crcOvr : Bool) (idx : Nat → Nat) (spans : List (Nat × Nat)) :
    Nat → List (Nat × Bool) → List Int → List Smp
  | _, [], _ => []
  | n, (raw, lost) :: rs, ts =>
    let (i, q, f) := unpackSample fmt raw
    let fl := f || crcOvr || spans.any (fun p => p.1 ≤ idx n && idx n < p.2)
    (if lost then ⟨0, 0, false, true, ts.headD 0⟩ else ⟨i, q, fl, false, ts.headD 0⟩)
      :: mkSamples fmt crcOvr idx spans (n + 1) rs ts.tail

/-- Cut samples at strip edges of a bond (R68): batches of consecutive stream indices. -/
def cutBatches (ctx run at_ : Nat) (bonded : Bool) (idx : Nat → Nat) : Nat → Nat → List Smp → List Batch
  | _, _, [] => []
  | n, hole, x :: xs =>
    match cutBatches ctx run at_ bonded idx (n + 1) 0 xs with
    | b :: bs =>
      if b.first = idx n + 1 then { b with first := idx n, hole := hole, samples := x :: b.samples } :: bs
      else ⟨ctx, run, idx n, hole, at_, bonded, [x]⟩ :: b :: bs
    | [] => [⟨ctx, run, idx n, hole, at_, bonded, [x]⟩]

/-- The data row of a running sub-stream (R52, R66): blocks of its active lanes in ascending order, lost ones marked. Answers the batches for
ingest[g]. -/
def rxData (g : Fin 16) (k : Fin 5) (blks : List LBlock) (s : State) : State × List Batch :=
  let x := (s.rx[g]).subs[k]
  let x' := { x with blocks := x.blocks + blks.length }
  if s.ssState g k ≠ 2 then (s.setSub g k x', [])
  else if x.stale || !s.delivering g then (s.setSub g k { x' with stale := true, hole := 4 }, [])
  else
    let b := fmtBits x.fmt
    let (v, m, l) := appendBits blks x.buf x.bad x.len
    let cnt := l / b
    let n := s.rd (.rxg g) (R.RXG_SAMPLES.index k)
    let raws := takeSamples b cnt v m
    let t0 := if x.len = 0 then s.tim.now else x.prevT
    let (s, ts) :=
      if s.flag (.rxg g) (R.RXG_SS.bonded 0) then
        (s, (List.range cnt).map (fun j => s.sampleTime x.ctx (s.streamIndex g (n + j))))
      else stampRow x.ctx n cnt t0 s.tim.now s
    let smps := mkSamples x.fmt (decide (x.crcRows > 0)) (s.streamIndex g) (s.spansOf g k) n raws ts
    let lost := (smps.filter (·.lost)).length
    let s := s.cnt (.rxg g) (R.RXG_LOST.lost k) lost
    let s := s.wr (.rxg g) (R.RXG_SAMPLES.index k) (n + cnt)
    let used := cnt * b
    let bonded := s.flag (.rxg g) (R.RXG_SS.bonded 0)
    let x' := { x' with
      buf := v / 2 ^ used
      bad := m / 2 ^ used
      len := l - used
      prevT := s.tim.now
      spans := if bonded then x.spans else x.spans.filter (fun p => n + cnt < p.2)
      hole := if cnt = 0 then x.hole else 0 }
    (s.setSub g k x', cutBatches x.ctx x.run s.tim.now bonded (s.streamIndex g) n x.hole smps)

/-- Jump to data-block count `blocks`: every sample between the last delivered and the first after the row is lost. -/
def rxJump (g : Fin 16) (k : Fin 5) (blocks reason : Nat) (s : State) : State :=
  let x := (s.rx[g]).subs[k]
  let b := fmtBits x.fmt
  let n := s.rd (.rxg g) (R.RXG_SAMPLES.index k)
  let last := blocks * 64 / b
  let rest := blocks * 64 - last * b
  let s := s.cnt (.rxg g) (R.RXG_LOST.lost k) (last - n)
  let s := s.wr (.rxg g) (R.RXG_SAMPLES.index k) last
  s.setSub g k { x with
    blocks := blocks
    buf := 0
    bad := 2 ^ rest - 1
    len := rest
    hole := if last > n then (if x.hole = 0 then reason else x.hole) else x.hole }

/-! ### Control blocks received -/

/-- A slip with a smaller count: BLOCK_STATUS.fault, and the sub-stream stops (R67). -/
def slipStop (g : Fin 16) (k : Fin 5) (s : State) : State :=
  ((s.cnt (.rxg g) R.RXG_ERRCNT1.count_slips 1).wr (.rxg g) R.BLOCK_STATUS.fault 1).wr (.rxg g) (ssFld k) 4

/-- STATUS with start = 1: a new run begins (R57, R67, R436). -/
def rxStart (g : Fin 16) (k : Fin 5) (fmt : Nat) (s : State) : State :=
  let x := (s.rx[g]).subs[k]
  let ctx := s.rd (.rxg g) (R.RXG_SS.stream k)
  let s := s.setSub g k { RxSub.zero with run := x.run + 1, fmt := fmt, ctx := ctx, crcRows := x.crcRows }
  let s := s.wr (.rxg g) (R.RXG_SAMPLES.index k) 0
  let s := s.wr (.rxg g) (ssFld k) 2
  let s := if s.flag (.rxg g) (R.RXG_SS.bonded k) && decide (s.rd (.rxg g) (R.RXG_SS.member k) ≠ 0) then s else mapNewRun ctx s
  -- a mask that leaves it below its minimum keeps it stopped (R70)
  if (s.rx[g]).matched then stopBelowMin g k s else s

/-- A valid STATUS body (R57, R66, R67), but for its stop. In RESYNC the first sample after the row is the first that lies whole in the data
blocks that follow; the spec does not say what becomes of one that straddles it (DESIGN CHOICE, log 36). -/
def statusBody (g : Fin 16) (k : Fin 5) (body : Nat) (s : State) : State :=
  if s.ssState g k = 0 then s else
  let blocks : Nat := body % 2 ^ 40
  let fmt := body / 2 ^ 40 % 8
  let start := nbit body 43
  if fmt ≠ s.rd (.rxg g) (R.RXG_SS.format k) then
    let s := s.wr (.rxg g) R.RXG_STATUS.fmt_mismatch (Nat.lor (s.rd (.rxg g) R.RXG_STATUS.fmt_mismatch) (2 ^ k.val))
    if s.ssState g k = 2 ∨ s.ssState g k = 3 then s.wr (.rxg g) (ssFld k) 4 else s
  else
    if start then rxStart g k fmt s
    else
      let x := (s.rx[g]).subs[k]
      match s.ssState g k with
      | 2 =>
        let d := wrapS 40 ((blocks : Int) - x.blocks)
        if d = 0 then s
        else if d > 0 then rxJump g k (x.blocks + d.toNat) 1 (s.cnt (.rxg g) R.RXG_ERRCNT1.count_slips 1)
        else slipStop g k s
      | 3 =>
        let full := extendNear 40 blocks x.blocks
        if full * 64 / fmtBits x.fmt < s.rd (.rxg g) (R.RXG_SAMPLES.index k) then slipStop g k s
        else (rxJump g k full x.hole s).wr (.rxg g) (ssFld k) 2
      | _ => s

/-- A valid STATUS with stop = 1 puts the sub-stream into WAIT_START after its row (R67). -/
def statusStop (g : Fin 16) (k : Fin 5) (body : Nat) (s : State) : State :=
  if nbit body 46 && decide (s.ssState g k = 2) && decide (body / 2 ^ 40 % 8 = s.rd (.rxg g) (R.RXG_SS.format k)) then s.wr (.rxg g) (ssFld k) 1
  else s

/-- A valid EPOCH body on an accepted sub-stream (R58). -/
def epochBody (g : Fin 16) (k : Fin 5) (body : Nat) (s : State) : State :=
  if s.ssState g k = 0 then s else
  let s := (s.wr (.rxg g) R.RXG_EPOCH_LAST.index body).wr (.rxg g) R.RXG_EPOCH_LAST.sub_stream k.val
  let s := s.wr (.rxg g) R.RXG_EPOCH_LAST.valid 1
  if s.ssState g k ≠ 2 ∧ s.ssState g k ≠ 3 then s else
  let own := s.streamIndex g (s.rd (.rxg g) (R.RXG_SAMPLES.index k))
  if s.flag (.rxg g) (R.RXG_SS.bonded k) && decide (s.rd (.rxg g) (R.RXG_SS.member k) ≠ 0) then s
  else pairEpoch ((s.rx[g]).subs[k]).ctx (extendNear 48 body own) (s.rd (.rxg g) R.RXG_CFG.rate) s

/-- A control block fails its CRC in a running sub-stream: the next 1,024 rows are overranged (R66). Running is RUN: the spec does not say
whether a sub-stream in RESYNC counts too (DESIGN CHOICE, log 36). -/
def ctrlCrcFail (g : Fin 16) (k : Fin 5) (s : State) : State :=
  if s.ssState g k ≠ 2 then s else
  (s.cnt (.rxg g) R.RXG_ERRCNT0.ctrl_crc_errors 1).setSub g k { (s.rx[g]).subs[k] with crcRows := 1025 }

/-- A valid OVR body (R59); count 0 is handled as a CRC failure. -/
def ovrBody (g : Fin 16) (k : Fin 5) (body : Nat) (s : State) : State :=
  let cnt := body / 2 ^ 31 % 2 ^ 17
  if cnt = 0 then ctrlCrcFail g k s
  else if s.ssState g k ≠ 2 ∧ s.ssState g k ≠ 3 then s
  else
    let own := s.streamIndex g (s.rd (.rxg g) (R.RXG_SAMPLES.index k))
    let first := extendNear 31 (body % 2 ^ 31) own
    let s := s.when (decide (first < own)) (fun s => s.cnt (.rxg g) R.RXG_ERRCNT2.late_ovr 1)
    let x := (s.rx[g]).subs[k]
    s.setSub g k { x with spans := x.spans ++ [(first, first + cnt)] }

/-- A valid LINKCMD is shown, and a notice of retirement or restoration is kept (R60, R69). -/
def noteLinkcmd (g : Fin 16) (body : Nat) (s : State) : State :=
  (s.wr (.rxg g) R.RXG_LINKCMD_LAST.body body).wr (.rxg g) R.RXG_LINKCMD_LAST.valid 1

/-- STATUS is received on sub-stream `k`. -/
def opRxStatus (g : Fin 16) (k : Fin 5) (body : BitVec 48) (s : State) : State :=
  if s.linkUp then statusStop g k body.toNat (statusBody g k body.toNat s) else s

/-- Two ALIGN periods without a valid STATUS. -/
def opStatusTimeout (g : Fin 16) (k : Fin 5) (s : State) : State := if s.linkUp then resync g k 1 s else s

/-- EPOCH is received on sub-stream `k`. -/
def opRxEpoch (g : Fin 16) (k : Fin 5) (body : BitVec 48) (s : State) : State :=
  if s.linkUp then epochBody g k body.toNat s else s

/-- OVR is received on sub-stream `k`. -/
def opRxOvr (g : Fin 16) (k : Fin 5) (body : BitVec 48) (s : State) : State :=
  if s.linkUp then ovrBody g k body.toNat s else s

/-! ### Equaliser and test (R72, R74) -/

/-- RXG_PRBS[n] has been written: a checker that is started, stopped or given another pattern seeds itself anew (R74). -/
def syncChecker (g : Fin 16) (n : Nat) (s : State) : State :=
  let r := s.rx[g]
  showLane g n ((s.setRx g { r with chk := SMap.set (fun _ => .zero) r.chk n .zero }).wr (.rxg g) (R.RXG_PRBS.sync n) 0)

/-- The checker of a lane that carries no rows sees 64 error-free bits. -/
def opPrbsSync (g n : Fin 16) (s : State) : State :=
  if s.laneOn g n && s.flag (.rxg g) (R.RXG_PRBS.check n) && s.linkUp then s.wr (.rxg g) (R.RXG_PRBS.sync n) 1 else s

/-- The checker of a lane that carries no rows sees 16 or more errors within 128 bits: sync is lost; `bits` and `errors` are what it has
counted in sync. -/
def opPrbsSyncLoss (g n : Fin 16) (bits errors : Nat) (s : State) : State :=
  if !(s.laneOn g n && s.flag (.rxg g) (R.RXG_PRBS.sync n) && s.linkUp) then s else
  let s := (s.cnt (.rxg g) (R.RXG_PRBS_BITS.bits n) bits).cnt (.rxg g) (R.RXG_PRBS.errors n) errors
  syncChecker g n (s.cnt (.rxg g) (R.RXG_PRBS_BITS.sync_losses n) 1)

/-- RXG[g] is enabled: each running sub-stream passes through RESYNC; one that is there already delivers again after it (R78). -/
def rxgEnable (g : Fin 16) (s : State) : State :=
  s.each subs5 (fun k st => resync g k 4 (st.setSub g k { (st.rx[g]).subs[k] with stale := false }))

/-- RXG[g] is disabled: running sub-streams deliver no more in this run until they have resynchronised. -/
def rxgDisable (g : Fin 16) (s : State) : State :=
  s.each subs5 (fun k st => st.setSub g k { (st.rx[g]).subs[k] with stale := true, hole := 4 })

/-! ### The commands -/

/-- CK_WINDOW (R63): A 65,536-cycle window of CK/64 against XO_IN ends, and CK is judged present or lost. -/
def execCkWindow (g : Fin 16) (count : Nat) (s : State) : Host.Outcome State Fault Refusal :=
  .next (opCkWindow g count s)
/-- CK_LOSS (R63): CK shows no transition for 1 µs; every lane goes to HUNT and every running sub-stream to RESYNC. -/
def execCkLoss (g : Fin 16) (s : State) : Host.Outcome State Fault Refusal :=
  .next (opCkLoss g s)
/-- BLOCK_LOCK (R64): A hunting lane sees 128 consecutive valid headers and enters LOCKED. -/
def execBlockLock (g : Fin 16) (n : LaneLine) (s : State) : Host.Outcome State Fault Refusal :=
  .next (opBlockLock g n.lane n.line s)
/-- BLOCK_LOCK_LOSS (R64): A 256-block window holds 24 or more invalid headers and the lane returns to HUNT. -/
def execBlockLockLoss (g : Fin 16) (n : Fin 16) (s : State) : Host.Outcome State Fault Refusal :=
  .next (opBlockLockLoss g n s)
/-- ALIGN_LOSS (R64): Four ALIGN periods pass without a valid ALIGN at the expected position and the lane goes to LOCKED. -/
def execAlignLoss (g : Fin 16) (n : Fin 16) (s : State) : Host.Outcome State Fault Refusal :=
  .next (opAlignLoss g n s)
/-- ALIGN (R65): An ALIGN row is received; lanes are matched and deskewed, the active set is taken, and late or mismatched lanes are handled. -/
def execRxAlign (g : Fin 16) (lanes : List (Option AlignRx)) (s : State) : Host.Outcome State Fault Refusal :=
  .next (opRxAlign g lanes s)
/-- STATUS (R67): A STATUS block is received: counts are compared, slips are handled, format is checked, and start or stop is applied. -/
def execRxStatus (g : Fin 16) (k : Fin 5) (body : BitVec 48) (s : State) : Host.Outcome State Fault Refusal :=
  .next (opRxStatus g k body s)
/-- STATUS_TIMEOUT (R66): Two ALIGN periods pass without a valid STATUS and the sub-stream enters RESYNC. -/
def execStatusTimeout (g : Fin 16) (k : Fin 5) (s : State) : Host.Outcome State Fault Refusal :=
  .next (opStatusTimeout g k s)
/-- EPOCH (R58): An EPOCH block is received, its index is extended and passed to the timebase for pairing. -/
def execRxEpoch (g : Fin 16) (k : Fin 5) (body : BitVec 48) (s : State) : Host.Outcome State Fault Refusal :=
  .next (opRxEpoch g k body s)
/-- OVR (R59): An OVR block is received and flags its span of samples as overranged, counting late_ovr if it is late. -/
def execRxOvr (g : Fin 16) (k : Fin 5) (body : BitVec 48) (s : State) : Host.Outcome State Fault Refusal :=
  .next (opRxOvr g k body s)
/-- PRBS_SYNC (R74): The PRBS checker sees 64 error-free bits and declares sync. -/
def execPrbsSync (g : Fin 16) (n : Fin 16) (s : State) : Host.Outcome State Fault Refusal :=
  .next (opPrbsSync g n s)
/-- PRBS_SYNC_LOSS (R74): 16 or more errors within 128 bits make the checker lose sync, re-seed and count. -/
def execPrbsSyncLoss (g : Fin 16) (n : Fin 16) (bits : Nat) (errors : Nat) (s : State) : Host.Outcome State Fault Refusal :=
  .next (opPrbsSyncLoss g n bits errors s)

end Sys2Proof.Machine
end

