-- ==== Sys2Proof/Machine/Txg.lean ====
section
/-!
DEFINITION. Sys2Proof/Machine/Txg.lean: the transmit lane groups, the link commands both ways, and the classification of a
received row (R51, R60, R66, R69 to R71, R73, R75, R77, R78).
-/
namespace Sys2Proof.Machine
open Sys2Proof

/-! ### What a TXG may do -/

/-- An enabled TXG of the quadrant conflicts with TXG[g]'s rate or rate_offset (R77). -/
def State.txConflict (s : State) (g : Fin 16) : Bool :=
  let others := (List.range 4).map (fun j => 4 * (g.val / 4) + j)
  let rate := fun i => s.rd (.txg i) R.TXG_CFG.rate
  others.any fun i => decide (i ≠ g.val) && s.enabled (.txg i) &&
    (((rate i = 1) != (rate g.val = 1)) || decide (s.rd (.txg i) R.TXG_CFG.rate_offset ≠ s.rd (.txg g) R.TXG_CFG.rate_offset))

/-- TXG_STATUS.state: OFF, PLL_WAIT, FRAMING, or RUN while a sub-stream runs. -/
def showTx (g : Fin 16) (s : State) : State :=
  s.wr (.txg g) R.TXG_STATUS.state
    (if !s.enabled (.txg g) then 0 else if !s.pllRuns (4 + g.val / 4) then 1
     else if s.rd (.txg g) R.TXG_STATUS.ss_running = 0 then 2 else 3)

/-- The lanes TXG[g] drives: those enabled, D01 alone in return mode (R77). -/
def State.txPowered (s : State) (g : Fin 16) : Nat :=
  if s.flag (.txg g) R.TXG_CFG.return_mode then 1 else s.rd (.txg g) R.TXG_CFG.lane_enable

/-- TXG[g] begins to frame: its active set is the lanes it drives. The state its scramblers begin with is arbitrary (R50). -/
def txgEnable (g : Fin 16) (s : State) : State :=
  let m := s.txPowered g
  let s := s.wr (.txg g) R.TXG_STATUS.active_mask m
  let s := s.each lanes15 (fun n st => st.wr (.txg g) (R.TXG_LANE.retired n) (bit (!nbit m (n - 1))))
  let s := s.setTx g TxSt.zero
  showTx g (s.each lanes15 (fun n st =>
    let (z, st) := st.free 32
    let x := st.tx[g]
    st.setTx g { x with scr := SMap.set (fun _ => 0) x.scr n (z % 2 ^ 58) }))

/-- TXG[g] is disabled: electrical idle. -/
def txgDisable (g : Fin 16) (s : State) : State :=
  let s := (s.wr (.txg g) R.TXG_STATUS.ss_running 0).wr (.txg g) R.TXG_STATUS.active_mask 0
  let s := s.wr (.txg g) R.TXG_FERRY.level 0
  showTx g (s.setTx g TxSt.zero)

/-- The active set once every announced change has taken effect. -/
def State.txMaskAfter (s : State) (g : Fin 16) : Nat :=
  Nat.land (s.txPowered g) ((s.tx[g]).ann.foldl (fun m a => announced [a] a.1 m) (s.rd (.txg g) R.TXG_STATUS.active_mask))

/-- The ALIGN number four rows ahead of the last one sent. -/
def State.txEff (s : State) (g : Fin 16) : Nat := (s.rd (.txg g) R.TXG_STATUS.align_seq + 4) % 65536

/-- Announce that lane `n` (0 = all) leaves or joins the active set at the row four ahead, in two rows (R69). -/
def announce (g : Fin 16) (n : Nat) (restore : Bool) (tag : Nat) (s : State) : State :=
  let eff := s.txEff g
  let b := BitVec.ofNat 48 (linkBody (if restore then 2 else 1) n eff 0 tag)
  let x := s.tx[g]
  s.setTx g { x with ann := x.ann ++ [(eff, n, restore)], urgent := x.urgent ++ [b, b] }

/-- Retiring lane `n` (0 = all) would leave a sub-stream below its minimum (R70). -/
def State.retireForbidden (s : State) (g : Fin 16) (n : Nat) : Bool :=
  belowMin (s.rd (.txg g) R.TXG_CFG.split) (announced [(0, n, false)] 0 (s.txMaskAfter g))

/-! ### LINKCMD received on RXG[g] (R60, R71) -/

/-- Send an answer on TXG[g]. -/
def answer (g : Fin 16) (cmd lane eff arg tag : Nat) (s : State) : State :=
  let x := s.tx[g]
  s.setTx g { x with answers := x.answers ++ [BitVec.ofNat 48 (linkBody cmd lane eff arg tag)] }

/-- The answer to the software command that waits: its status. -/
def linkDone (g : Fin 16) (status : Nat) (s : State) : State :=
  ((s.wr (.txg g) R.TXG_LINKCMD.send 0).wr (.txg g) R.TXG_LINKCMD.status status).setTx g { s.tx[g] with waiting := none }

/-- The software command that waits is `cmd` with this tag. -/
def State.awaits (s : State) (g : Fin 16) (cmd tag : Nat) : Bool := (s.tx[g]).waiting == some (cmd, tag)

/-- A notice RETIRE or RESTORE about RXG[g]: kept until its ALIGN row, and the answer to a request of ours. -/
def lcNotice (g : Fin 16) (restore : Bool) (lane eff tag : Nat) (s : State) : State :=
  let r := s.rx[g]
  let s := s.setRx g { r with ann := r.ann ++ [(eff, lane, restore)] }
  if s.awaits g (if restore then 4 else 3) tag then linkDone g 0 s else s

/-- RETIRE_REQ about TXG[g]. -/
def lcRetireReq (g : Fin 16) (lane tag : Nat) (s : State) : State :=
  if !s.txOn g then s
  else if s.retireForbidden g lane then answer g 9 lane 0 2 tag s
  else announce g lane false tag s

/-- Lane `n` (0 = all) can carry data: TXG[g] drives it. -/
def State.txDrives (s : State) (g : Fin 16) (n : Nat) : Bool := decide (n = 0) || nbit (s.txPowered g) (n - 1)

/-- RESTORE_REQ about TXG[g]; a lane it does not drive is answered as unsupported (DESIGN CHOICE, log 12). -/
def lcRestoreReq (g : Fin 16) (lane tag : Nat) (s : State) : State :=
  if !s.txOn g then s
  else if s.txDrives g lane then announce g lane true tag s
  else answer g 9 lane 0 1 tag s

/-- PRESET about TXG[g]: applied at eff_seq and acknowledged; a preset above 7 is unsupported. -/
def lcPresetReq (g : Fin 16) (lane eff arg tag : Nat) (s : State) : State :=
  if !s.txOn g then s
  else if arg > 7 then answer g 9 lane eff 1 tag s
  else
    let x := s.tx[g]
    answer g 8 lane eff 5 tag (s.setTx g { x with presetAt := x.presetAt ++ [(eff, lane, arg)] })

/-- TRAIN_START or TRAIN_END about TXG[g]: for a retired lane, else NAK. -/
def lcTrainReq (g : Fin 16) (start : Bool) (lane eff tag : Nat) (s : State) : State :=
  if !s.txOn g then s
  else
    let busy := if lane = 0 then decide (s.rd (.txg g) R.TXG_STATUS.active_mask ≠ 0)
      else nbit (s.rd (.txg g) R.TXG_STATUS.active_mask) (lane - 1)
    if busy then answer g 9 lane eff 3 tag s
    else
      let x := s.tx[g]
      answer g 8 lane eff (if start then 6 else 7) tag (s.setTx g { x with trainAt := x.trainAt ++ [(eff, lane, start)] })

/-- Any other code: NAK, reason 1. -/
def lcOther (g : Fin 16) (lane eff tag : Nat) (s : State) : State :=
  if s.txOn g then answer g 9 lane eff 1 tag s else s

/-- A valid LINKCMD body. -/
def linkcmdBody (g : Fin 16) (body : Nat) (s : State) : State :=
  let s := noteLinkcmd g body s
  let lane := body / 16 % 16
  let eff := body / 2 ^ 8 % 65536
  let arg := body / 2 ^ 24 % 256
  let tag := body / 2 ^ 32 % 256
  match body % 16 with
  | 1 => lcNotice g false lane eff tag s
  | 2 => lcNotice g true lane eff tag s
  | 3 => lcRetireReq g lane tag s
  | 4 => lcRestoreReq g lane tag s
  | 5 => lcPresetReq g lane eff arg tag s
  | 6 => lcTrainReq g true lane eff tag s
  | 7 => lcTrainReq g false lane eff tag s
  | 8 => if s.awaits g arg tag then linkDone g 0 s else s
  | 9 => if (s.tx[g]).waiting.any (fun w => w.2 = tag) then linkDone g 2 s else s
  | _ => lcOther g lane eff tag s

/-- A LINKCMD with code `cmd` is received on RXG[g]. -/
def rxLinkcmd (g : Fin 16) (cmd : Nat) (lane : BitVec 4) (eff : BitVec 16) (arg tag : BitVec 8) (s : State) : State :=
  if s.linkUp then linkcmdBody g (linkBody cmd lane.toNat eff.toNat arg.toNat tag.toNat) s else s

/-- RETIRE is received. -/
def opLcRetire (g : Fin 16) (lane : BitVec 4) (eff : BitVec 16) (arg tag : BitVec 8) (s : State) : State :=
  rxLinkcmd g 1 lane eff arg tag s
/-- RESTORE is received. -/
def opLcRestore (g : Fin 16) (lane : BitVec 4) (eff : BitVec 16) (arg tag : BitVec 8) (s : State) : State :=
  rxLinkcmd g 2 lane eff arg tag s
/-- RETIRE_REQ is received. -/
def opLcRetireReq (g : Fin 16) (lane : BitVec 4) (eff : BitVec 16) (arg tag : BitVec 8) (s : State) : State :=
  rxLinkcmd g 3 lane eff arg tag s
/-- RESTORE_REQ is received. -/
def opLcRestoreReq (g : Fin 16) (lane : BitVec 4) (eff : BitVec 16) (arg tag : BitVec 8) (s : State) : State :=
  rxLinkcmd g 4 lane eff arg tag s
/-- PRESET is received. -/
def opLcPreset (g : Fin 16) (lane : BitVec 4) (eff : BitVec 16) (arg tag : BitVec 8) (s : State) : State :=
  rxLinkcmd g 5 lane eff arg tag s
/-- TRAIN_START is received. -/
def opLcTrainStart (g : Fin 16) (lane : BitVec 4) (eff : BitVec 16) (arg tag : BitVec 8) (s : State) : State :=
  rxLinkcmd g 6 lane eff arg tag s
/-- TRAIN_END is received. -/
def opLcTrainEnd (g : Fin 16) (lane : BitVec 4) (eff : BitVec 16) (arg tag : BitVec 8) (s : State) : State :=
  rxLinkcmd g 7 lane eff arg tag s
/-- ACK is received. -/
def opLcAck (g : Fin 16) (lane : BitVec 4) (eff : BitVec 16) (arg tag : BitVec 8) (s : State) : State :=
  rxLinkcmd g 8 lane eff arg tag s
/-- NAK is received. -/
def opLcNak (g : Fin 16) (lane : BitVec 4) (eff : BitVec 16) (arg tag : BitVec 8) (s : State) : State :=
  rxLinkcmd g 9 lane eff arg tag s
/-- A LINKCMD with code 0 or 10 to 15 is received; other codes have commands of their own. -/
def opLinkcmdUnknown (g : Fin 16) (cmd lane : BitVec 4) (eff : BitVec 16) (arg tag : BitVec 8) (s : State) : State :=
  if cmd = 0 ∨ cmd.toNat > 9 then rxLinkcmd g cmd.toNat lane eff arg tag s else s

/-! ### A received row (R51, R66) -/

/-- One control block of a control row of sub-stream `k`, but for STATUS. A LINKCMD and an unknown type count on every sub-stream (R55, R60). -/
def controlBlock (g : Fin 16) (k : Fin 5) (b : LBlock) (s : State) : State :=
  if b.hdr ≠ .control then s
  else if b.type = 0x4B then s
  else if !b.crcOk then ctrlCrcFail g k s
  else match b.type with
    | 0x1E => s
    | 0x78 => s
    | 0x55 => s
    | 0x2D => epochBody g k b.body s
    | 0x33 => ovrBody g k b.body s
    | 0x66 => linkcmdBody g b.body s
    | _ => s.cnt (.rxg g) R.RXG_ERRCNT2.bad_ctrl_types 1

/-- A control row: its STATUS first, for a run that starts is the one the others speak of; then the others; a stop takes effect after the
row (R67). -/
def controlRow (g : Fin 16) (k : Fin 5) (blks : List LBlock) (s : State) : State :=
  let status := (blks.filter (fun b => decide (b.hdr = .control) && decide (b.type = 0x55) && b.crcOk)).map LBlock.body
  let s := s.each status (statusBody g k)
  let s := s.each blks (controlBlock g k)
  s.each status (statusStop g k)

/-- The row of sub-stream `k`: classified by the majority of its valid headers, a missing lane counting as invalid. -/
def subRow (g : Fin 16) (blocks : Nat → LBlock) (k : Fin 5) (st : State × List Batch) : State × List Batch :=
  let (s, out) := st
  let ns := subLanes (s.rd (.rxg g) R.RXG_CFG.split) k (s.rd (.rxg g) R.RXG_STATUS.active_mask)
  let blks := ns.map (fun n => if s.laneState g n = 3 then blocks n else ⟨.invalid, 0⟩)
  let nd := (blks.filter (fun b => b.hdr = .data)).length
  let nc := (blks.filter (fun b => b.hdr = .control)).length
  if s.ssState g k = 0 then (if nd < nc then controlRow g k blks s else s, out)
  else
    let x := (s.rx[g]).subs[k]
    let s := s.setSub g k { x with crcRows := x.crcRows - 1 }
    if nd = nc then (resync g k 1 (s.cnt (.rxg g) R.RXG_ERRCNT0.unknown_rows 1), out)
    else if nd > nc then
      let (s, bs) := rxData g k blks s
      (s, out ++ bs)
    else (controlRow g k blks s, out)

/-- ingest[g] takes one block time's batches; a full ferry discards them at its input and counts (R18). -/
def ingest (g : Fin 16) (bs : List Batch) (s : State) : State :=
  if bs = [] then s else
  let r := s.rx[g]
  if r.ferry.length < 512 then
    let s := s.setRx g { r with ferry := r.ferry ++ [bs] }
    let l := r.ferry.length + 1
    let s := s.wr (.rxg g) R.RXG_FERRY.level l
    s.wr (.rxg g) R.RXG_FERRY.high_water (max l (s.rd (.rxg g) R.RXG_FERRY.high_water))
  else
    let s := s.cnt (.rxg g) R.RXG_FERRY.discards 1
    let reason := if s.dev = .hold then 3 else 2
    s.each subs5 (fun k st =>
      let x := (st.rx[g]).subs[k]
      if bs.any (fun b => b.ctx = x.ctx ∧ b.run = x.run) ∧ x.hole = 0 then st.setSub g k { x with hole := reason } else st)

/-- The rows of sub-streams `ks` in one block time, after deskew and descrambling. -/
def rxRow (g : Fin 16) (ks : List (Fin 5)) (m : SMap (Option LBlock)) (s : State) : State :=
  let at_ := fun (n : Nat) => (SMap.get (fun _ => none) m n).getD ⟨.invalid, 0⟩
  let heard := lanes15.filter (fun n => decide (s.laneState g n ≥ 2) && s.laneLock g n && (SMap.get (fun _ => none) m n).isSome)
  let s := s.each (heard.filter (fun n => decide ((at_ n).hdr = .invalid))) (fun n st => st.cnt (.rxg g) (R.RXG_LANE_ERR.invalid_headers n) 1)
  if !(s.rx[g]).matched || s.flag (.rxg g) R.RXG_STATUS.rate_mismatch || s.flag (.rxg g) R.RXG_STATUS.split_mismatch then s else
  let (s, out) := ks.foldl (fun st k => subRow g at_ k st) (s, [])
  ingest g out s

/-- What the serialiser of lane `n` of TXG[g] gives the receiver next in loopback. -/
def State.loopHead (s : State) (g : Fin 16) (n : Nat) : Option (BitVec 66) := (SMap.get (fun _ => []) (s.tx[g]).loop n).head?

/-- The serialisers of lanes `ns` move on. -/
def loopPop (g : Fin 16) (ns : List Nat) (s : State) : State :=
  let x := s.tx[g]
  s.setTx g { x with loop := ns.foldl (fun m n => SMap.set (fun _ => []) m n (SMap.get (fun _ => []) m n).tail) x.loop }

/-- One block time in loopback (R76): the ALIGN row, once every lane that carries framing shows it; else the rows of the sub-streams whose
lanes have all sent theirs. -/
def loopRow (g : Fin 16) (s : State) : State :=
  let lanes := lanes15.filter (fun n => s.txDrives g n)
  let peek := fun (n : Nat) => (s.loopHead g n).bind (fun w => (takeLane g n w s).2.align)
  let there := fun (n : Nat) => (s.loopHead g n).isSome
  let raw := fun (n : Nat) => SMap.get noBad (s.tx[g]).train n || s.flag (.txg g) (R.TXG_PRBS.generate n)
  if lanes.any (fun n => (peek n).isSome) && lanes.all (fun n => (peek n).isSome || (raw n && there n)) then
    let (s, m) := takeRow g (s.loopHead g) lanes s
    alignRow g (fun n => ((SMap.get (fun _ => none) m n).bind LBlock.align).map (fun b => ⟨b, 0⟩)) (loopPop g lanes s)
  else
    let of := fun (k : Fin 5) => (subLanes (s.rd (.rxg g) R.RXG_CFG.split) k (2 ^ 15 - 1)).filter (s.txDrives g)
    let ks := subs5.filter (fun k => decide (of k ≠ []) && (of k).all (fun n => there n && (peek n).isNone))
    let ns := ks.flatMap of
    if ns = [] then s else
    let (s, m) := takeRow g (s.loopHead g) ns s
    rxRow g ks m (loopPop g ns s)

/-- One block time of a group: the 66 bits each lane D01 to D15 receives, after deskew. In loopback the pins are ignored and the rows are the
transmitter's (R76). -/
def opDataRow (g : Fin 16) (lanes : List (BitVec 66)) (s : State) : State :=
  if !s.linkUp || !s.flag (.rxg g) R.RXG_STATUS.ck_present then s
  else if s.loops g then loopRow g s
  else
    let (s, m) := takeRow g (fun n => lanes[n - 1]?) lanes15 s
    rxRow g subs5 m s

/-! ### Transmitting (R51, R56, R57, R77) -/

/-- The pattern lane `n` carries in place of blocks: PRBS31 in training, else what its generator is set to (R69, R74). -/
def State.txPattern (s : State) (g : Fin 16) (n : Nat) : Option Nat :=
  if SMap.get noBad (s.tx[g]).train n then some 3
  else if s.flag (.txg g) (R.TXG_PRBS.generate n) then some (s.rd (.txg g) (R.TXG_PRBS.pattern n)) else none

/-- The lanes TXG[g] frames: those it drives that carry no pattern. -/
def State.txFramed (s : State) (g : Fin 16) : List Nat := lanes15.filter (fun n => s.txDrives g n && (s.txPattern g n).isNone)

/-- The lanes `n` names: one, or all when 0. -/
def lanesOf (n : Nat) : List Nat := if n = 0 then lanes15 else [n]

/-- The 66 bits of lane `n` before errors are injected: the block with its payload scrambled, or the pattern. A generator starts at a place
of its sequence that is not stated. -/
def rawLane (g : Fin 16) (n : Nat) (b : LBlock) (s : State) : State × Nat :=
  match s.txPattern g n with
  | some p =>
    let len := 2 ^ (prbsTaps p).1
    let q := SMap.get (fun _ => 0) (s.tx[g]).gen n
    let (z, s) := if q % len = 0 then s.free 33 else (q, s)
    let q := if q % len = 0 then z % (len - 1) + 1 else q
    let (v, r) := prbsGo p 66 q
    (s.setTx g { s.tx[g] with gen := SMap.set (fun _ => 0) (s.tx[g]).gen n r }, v)
  | none =>
    let x := s.tx[g]
    let (c, h) := scramble (SMap.get (fun _ => 0) x.scr n) b.payload.toNat
    (s.setTx g { x with scr := SMap.set (fun _ => 0) x.scr n h }, ({ b with payload := BitVec.ofNat 64 c } : LBlock).bits)

/-- Error injection on the 66 line bits `w` of lane `n` (R75): those a write asked for are the next ones sent; in rate mode it is the last of
every 2^rate_exp (DESIGN CHOICE, log 36). -/
def injectLane (g : Fin 16) (n w : Nat) (s : State) : State × Nat :=
  let b : Blk := .txg g
  let x := s.tx[g]
  let todo := SMap.get (fun _ => 0) x.inv n
  let k := min 66 todo
  let x := { x with inv := SMap.set (fun _ => 0) x.inv n (todo - k) }
  let w := Nat.xor w (2 ^ k - 1)
  if s.rd b (R.TXG_PRBS.inject_mode n) ≠ 3 then (s.setTx g x, w)
  else
    let per := 2 ^ max 8 (s.rd b (R.TXG_PRBS.rate_exp n))
    let c := SMap.get (fun _ => 0) x.rate n % per
    let s := s.setTx g { x with rate := SMap.set (fun _ => 0) x.rate n ((c + 66) % per) }
    if c + 66 < per then (s, w) else (s.cnt b (R.TXG_PRBS.injected n) 1, Nat.xor w (2 ^ (per - 1 - c)))

/-- Lane `n` drives a block. -/
def sendLane (g : Fin 16) (n : Nat) (b : LBlock) (s : State) : State × BitVec 66 :=
  let (s, w) := rawLane g n b s
  let (s, w) := injectLane g n w s
  (s, BitVec.ofNat 66 (if s.flag (.txg g) (R.TXG_LANE.invert n) then 2 ^ 66 - 1 - w else w))

/-- The lanes of one row drive their blocks. -/
def sendRow (g : Fin 16) : List (Nat × LBlock) → State → State × List (Nat × BitVec 66)
  | [], s => (s, [])
  | (n, b) :: r, s =>
    let (s, w) := sendLane g n b s
    let (s, ws) := sendRow g r s
    (s, (n, w) :: ws)

/-- The rows leave the serialisers. In loopback the receiver takes them, and the pins are driven only with loop_drive (R76). -/
def sendRows (g : Fin 16) (rows : List (List (Nat × LBlock))) (s : State) : State :=
  let (s, ws) := rows.foldl (fun (st : State × List (List (Nat × BitVec 66))) r =>
    let (s, w) := sendRow g r st.1
    (s, st.2 ++ [w])) (s, [])
  let x := s.tx[g]
  let put := fun (m : SMap (List (BitVec 66))) (y : Nat × BitVec 66) => SMap.set (fun _ => []) m y.1 (SMap.get (fun _ => []) m y.1 ++ [y.2])
  s.setTx g { x with
    line := rows
    wire := if s.loops g && !s.flag (.txg g) R.TXG_CFG.loop_drive then [] else ws
    loop := if s.loops g then ws.foldl (fun m r => r.foldl put m) x.loop else [] }

/-- The LINKCMD body announces this change. -/
def announces (a : Nat × Nat × Bool) (b : BitVec 48) : Bool :=
  let w := b.toNat
  decide (w % 16 = if a.2.2 then 2 else 1) && decide (w / 16 % 16 = a.2.1) && decide (w / 2 ^ 8 % 65536 = a.1)

/-- A change whose announcements have not been sent in time for the ALIGN row `seq` is announced anew, four rows ahead: the first goes at
least two ALIGN periods before the change, and both before it (R69). -/
def postpone (g : Fin 16) (seq : Nat) (s : State) : State :=
  s.each (s.tx[g]).ann (fun a st =>
    let x := st.tx[g]
    let left := x.urgent.filter (announces a)
    match left with
    | [] => st
    | b :: _ =>
      if a.1 = seq ∨ (a.1 = (seq + 2) % 65536 ∧ left.length = 2) then
        let st := st.setTx g { x with ann := x.ann.filter (fun y => y ≠ a), urgent := x.urgent.filter (fun y => !announces a y) }
        announce g a.2.1 a.2.2 (b.toNat / 2 ^ 32 % 256) st
      else st)

/-- TXG[g] sends an ALIGN row. -/
def opTxAlignRow (g : Fin 16) (s : State) : State :=
  if !s.txOn g then s else
  let seq := (s.rd (.txg g) R.TXG_STATUS.align_seq + 1) % 65536
  let s := postpone g seq (s.wr (.txg g) R.TXG_STATUS.align_seq seq)
  let x := s.tx[g]
  let due := x.ann.filter (fun a => a.1 = seq)
  let m := Nat.land (s.txPowered g) (announced due seq (s.rd (.txg g) R.TXG_STATUS.active_mask))
  let s := s.wr (.txg g) R.TXG_STATUS.active_mask m
  let s := s.each due (fun a st => st.each (lanesOf a.2.1) (fun n st =>
    (if a.2.2 then st.wr (.txg g) (R.TXG_LANE.restore n) 0 else st.wr (.txg g) (R.TXG_LANE.retire n) 0)))
  let s := s.each lanes15 (fun n st => st.wr (.txg g) (R.TXG_LANE.retired n) (bit (!nbit m (n - 1))))
  let s := s.each (x.presetAt.filter (fun a => a.1 = seq)) (fun a st =>
    st.each (lanesOf a.2.1) (fun n st => st.wr (.txg g) (R.TXG_LANE.preset n) a.2.2))
  let train := (x.trainAt.filter (fun a => a.1 = seq)).foldl (fun t a =>
    (lanesOf a.2.1).foldl (fun t n => SMap.set noBad t n a.2.2) t) x.train
  let preset := lanes15.foldl (fun p n => SMap.set (fun _ => 0) p n (s.rd (.txg g) (R.TXG_LANE.preset n))) x.preset
  let (src, s) := s.free 30
  let body := fun (n : Nat) => n + s.rd (.txg g) R.TXG_CFG.rate * 16 + s.rd (.txg g) R.TXG_CFG.split * 64 + seq * 2 ^ 8
    + m * 2 ^ 24 + src % 256 * 2 ^ 40
  let s := s.setTx g { x with
    ann := x.ann.filter (fun a => a.1 ≠ seq)
    presetAt := x.presetAt.filter (fun a => a.1 ≠ seq)
    trainAt := x.trainAt.filter (fun a => a.1 ≠ seq)
    preset := preset
    train := train
    subs := x.subs.map (fun y => { y with sinceMsg := y.sinceMsg + 1, sinceCmd := y.sinceCmd + 1, statusDue := true }) }
  let lanes := lanes15.filter (fun n => s.txDrives g n)
  showTx g (sendRows g [lanes.map (fun n => (n, ctrlBlock 0x4B (body n)))] s)

/-- The lanes of sub-stream `k` of TXG[g]. -/
def State.txLanes (s : State) (g : Fin 16) (k : Fin 5) : List Nat :=
  subLanes (s.rd (.txg g) R.TXG_CFG.split) k (s.rd (.txg g) R.TXG_STATUS.active_mask)

/-- Sub-stream `k` of TXG[g] runs. -/
def State.txRuns (s : State) (g : Fin 16) (k : Fin 5) : Bool := nbit (s.rd (.txg g) R.TXG_STATUS.ss_running) k

/-- Start or end the run of sub-stream `k`. -/
def setTxRun (g : Fin 16) (k : Fin 5) (on : Bool) (s : State) : State :=
  let m := s.rd (.txg g) R.TXG_STATUS.ss_running
  showTx g (s.wr (.txg g) R.TXG_STATUS.ss_running (if on then Nat.lor m (2 ^ k.val) else m - (if nbit m k then 2 ^ k.val else 0)))

/-- Entries of emit[g] held, one per block time of its fullest sub-stream. -/
def State.emitLevel (s : State) (g : Fin 16) : Nat :=
  subs5.foldl (fun a k =>
    let n := (s.txLanes g k).length
    if n = 0 then a
    else max a (ceilDiv (((s.tx[g]).subs[k]).queue.length * fmtBits (s.rd (.txg g) (R.TXG_SS.format k))) (64 * n))) 0

/-- Something waits in emit[g], or in a row not yet whole, for a sub-stream that can be sent. -/
def State.emitWaits (s : State) (g : Fin 16) : Bool :=
  subs5.any (fun k =>
    let x := (s.tx[g]).subs[k]
    s.flag (.txg g) (R.TXG_SS.enable k) && decide (s.txLanes g k ≠ []) && fmtValid (s.rd (.txg g) (R.TXG_SS.format k))
      && (!x.queue.isEmpty || decide (x.len ≠ 0)))

/-- Show the level of emit[g]. -/
def showEmit (g : Fin 16) (s : State) : State :=
  let l := min 512 (s.emitLevel g)
  let s := s.wr (.txg g) R.TXG_FERRY.level l
  s.wr (.txg g) R.TXG_FERRY.high_water (max l (s.rd (.txg g) R.TXG_FERRY.high_water))

/-- The STATUS body of sub-stream `k` (R57). -/
def State.statusOf (s : State) (g : Fin 16) (k : Fin 5) (start stop : Bool) : Nat :=
  (if start then 0 else ((s.tx[g]).subs[k]).blocks % 2 ^ 40) + s.rd (.txg g) (R.TXG_SS.format k) * 2 ^ 40
    + bit start * 2 ^ 43 + bit s.timeRuns * 2 ^ 44 + bit (s.flag (.txg g) R.BLOCK_STATUS.fault) * 2 ^ 45 + bit stop * 2 ^ 46

/-- A message row on lanes `ns`: the blocks, then PAD. -/
def messageRow (ns : List Nat) (bs : List LBlock) : List (Nat × LBlock) :=
  (List.range ns.length).map (fun i => (ns.getD i 0, bs.getD i (ctrlBlock 0x78 0)))

/-- Take the LINKCMD due on TXG[g], announcements first; at most one per 1,024 block times of the group, which some sub-stream has seen
(R71). -/
def takeLinkcmd (g : Fin 16) (s : State) : State × List LBlock :=
  let x := s.tx[g]
  if !subs5.any (fun k => decide (1024 ≤ (x.subs[k]).sinceCmd)) then (s, []) else
  let subs := x.subs.map (fun y => { y with sinceCmd := 0 })
  match x.urgent, x.answers with
  | b :: r, _ => (s.setTx g { x with urgent := r, subs := subs }, [ctrlBlock 0x66 b.toNat])
  | [], b :: r => (s.setTx g { x with answers := r, subs := subs }, [ctrlBlock 0x66 b.toNat])
  | [], [] => (s, [])

/-- The OVR block of the first span that waits. -/
def ovrOf (x : TxSub) : List LBlock :=
  match x.spans with
  | (a, b) :: _ => [ctrlBlock 0x33 (a % 2 ^ 31 + min (b - a) 131071 * 2 ^ 31)]
  | [] => []

/-- The message row due on sub-stream `k`, if the budget of R61 allows one: STATUS, EPOCH, OVR and LINKCMD, as many as there
are lanes. -/
def takeMessage (g : Fin 16) (k : Fin 5) (s : State) : State × List (List (Nat × LBlock)) :=
  let ns := s.txLanes g k
  let x := (s.tx[g]).subs[k]
  if x.sinceMsg < 1024 || ns = [] then (s, []) else
  let st := if x.statusDue then [ctrlBlock 0x55 (s.statusOf g k false false)] else []
  let ep := match x.epoch with | some e => [ctrlBlock 0x2D e] | none => []
  let (s, lc) := if st.length + ep.length + (ovrOf x).length < ns.length then takeLinkcmd g s else (s, [])
  let row := (st ++ ep ++ ovrOf x ++ lc).take ns.length
  if row = [] then (s, [])
  else
    let sentEp := decide (st.length + ep.length ≤ ns.length)
    let sentOv := decide (st.length + ep.length + (ovrOf x).length ≤ ns.length)
    let spans := if sentOv then
        match x.spans with
        | (a, b) :: r => if b - a > 131071 then (a + 131071, b) :: r else r
        | [] => []
      else x.spans
    let s := s.setTxSub g k { (s.tx[g]).subs[k] with
      sinceMsg := 0
      statusDue := false
      epoch := if sentEp then none else x.epoch
      spans := spans }
    (s, [messageRow ns row])

/-- Pack samples until `need` bits are there; answers the rest of the queue, the bits, their count, and the samples packed. -/
def packGo (f need : Nat) : List EmitSmp → Nat → Nat → Nat → List EmitSmp × Nat × Nat × Nat
  | [], v, l, c => ([], v, l, c)
  | x :: xs, v, l, c =>
    if l ≥ need ∨ x.stop ∨ (x.start ∧ c > 0) then (x :: xs, v, l, c)
    else packGo f need xs (v + packSample f x.i x.q x.ovr * 2 ^ l) (l + fmtBits f) (c + 1)

/-- The data blocks of `n` lanes from a bit string. -/
def dataBlocks : Nat → Nat → List LBlock
  | 0, _ => []
  | n + 1, v => ⟨.data, BitVec.ofNat 64 v⟩ :: dataBlocks n (v / 2 ^ 64)

/-- The row of sub-stream `k` on all its lanes that TXG[g] drives: a retired one carries IDLE (R69). -/
def State.wholeRow (s : State) (g : Fin 16) (k : Fin 5) (row : List (Nat × LBlock)) : List (Nat × LBlock) :=
  (subLanes (s.rd (.txg g) R.TXG_CFG.split) k (s.txPowered g)).map (fun n =>
    (row.find? (fun x => x.1 = n)).getD (n, ctrlBlock 0x1E 0))

/-- Put rows of sub-stream `k` on the line of TXG[g]; block times pass for it. -/
def txLine (g : Fin 16) (k : Fin 5) (rows : List (List (Nat × LBlock))) (s : State) : State :=
  let y := (s.tx[g]).subs[k]
  let s := s.setTxSub g k { y with sinceMsg := y.sinceMsg + rows.length, sinceCmd := y.sinceCmd + rows.length }
  showEmit g (sendRows g (rows.map (s.wholeRow g k)) s)

/-- Member-local sample `j` of member `m` of a bond of `b` groups as a sample of the stream (R68). -/
def stripOf (b m j : Nat) : Nat := (b * (j / 4096) + m) * 4096 + j % 4096

/-- The size of the transmit bond of a sub-stream, 1 for none, and its member in it. -/
def State.txBond (s : State) (g k : Nat) : Nat × Nat :=
  if s.flag (.txg g) (R.TXG_SS.bonded k) then (s.rd (.txg g) (R.TXG_SS.bond_size k) + 1, s.rd (.txg g) (R.TXG_SS.member k)) else (1, 0)

/-- Sample `j` of a sub-stream's run as the EPOCH and OVR blocks count it: by the stream of its bond (R68). -/
def State.txStream (s : State) (g k j : Nat) : Nat :=
  let (b, m) := s.txBond g k
  stripOf b m j

/-- TXG[g] packs a data row of sub-stream `k` from emit[g], if a whole row is there or the run ends with what is there. The
run starts with STATUS, start = 1, immediately before. In return mode D01 carries no data (R77). -/
def opTxDataRow (g : Fin 16) (k : Fin 5) (s : State) : State :=
  let ns := s.txLanes g k
  let x := (s.tx[g]).subs[k]
  if !s.txOn g || s.flag (.txg g) R.TXG_CFG.return_mode || !s.flag (.txg g) (R.TXG_SS.enable k) || ns = [] || !fmtValid (s.rd (.txg g) (R.TXG_SS.format k)) then s else
  let need := 64 * ns.length
  let starts := !s.txRuns g k
  let v0 := if starts then (0, 0) else (x.buf, x.len)
  let (q, v, l, c) := packGo (s.rd (.txg g) (R.TXG_SS.format k)) need x.queue v0.1 v0.2 0
  -- the end of a run, or of a quiesce, sends what is there (R78)
  let ends := decide (0 < l) && (decide (q.head?.any (·.stop)) || (q.isEmpty && s.flag (.txg g) R.BLOCK_STATUS.quiescing))
  if l < need && !ends then s else
  let idx := if starts then 0 else s.rd (.txg g) (R.TXG_SAMPLES.index k)
  let x := { x with blocks := if starts then 0 else x.blocks }
  let s := s.setTxSub g k x
  let (s, pre) :=
    if starts then
      let s := setTxRun g k true s
      let s := s.setTxSub g k { x with statusDue := false, sinceMsg := 0 }
      (s, [messageRow ns [ctrlBlock 0x55 (s.statusOf g k true false)]])
    else takeMessage g k s
  -- a span whose first sample leaves before its OVR could be sent is merged with the next (R218)
  let x := (s.tx[g]).subs[k]
  let spans := match x.spans with
    | (a, _) :: (_, b') :: r => if a < s.txStream g k (idx + c) then (a, b') :: r else x.spans
    | sp => sp
  -- bits after the last sample of a run are not stated
  let (pad, s) := s.free 31
  let v := if l < need then v + pad % 2 ^ (need - l) * 2 ^ l else v
  let s := s.wr (.txg g) (R.TXG_SAMPLES.index k) (idx + c)
  let s := s.setTxSub g k { x with
    queue := q
    buf := v / 2 ^ need
    len := l - need
    blocks := x.blocks + ns.length
    spans := spans }
  txLine g k (pre ++ [(ns.zip (dataBlocks ns.length v))]) s

/-- TXG[g] sends a fill row on sub-stream `k`; a message due goes first, and while no sub-stream runs a LINKCMD replaces IDLE on one lane. A
stop that has come to the head is sent once the bits before it have gone (R208) and the message budget allows its row (R61). -/
def opFillRow (g : Fin 16) (k : Fin 5) (s : State) : State :=
  let ns := s.txLanes g k
  if !s.txOn g || ns = [] then s else
  let x := (s.tx[g]).subs[k]
  let idle := ns.map (fun n => (n, ctrlBlock 0x1E 0))
  match x.queue with
  | ⟨_, _, _, _, true⟩ :: q =>
    if 0 < x.len then opTxDataRow g k s
    else if s.txRuns g k && decide (x.sinceMsg < 1024) then txLine g k [idle] s
    else
      let row := messageRow ns [ctrlBlock 0x55 (s.statusOf g k false true)]
      let s := s.setTxSub g k { x with queue := q, buf := 0, len := 0, sinceMsg := 0, statusDue := false, spans := [] }
      txLine g k [row] (setTxRun g k false s)
  | _ =>
    if s.txRuns g k then
      let (s, pre) := takeMessage g k s
      let s := s.cnt (.txg g) (R.TXG_UNDERRUN.rows k) 1
      txLine g k (pre ++ [idle]) s
    else
      let (s, lc) := if s.rd (.txg g) R.TXG_STATUS.ss_running = 0 then takeLinkcmd g s else (s, [])
      txLine g k [(List.range ns.length).map (fun i => (ns.getD i 0, lc.getD i (ctrlBlock 0x1E 0)))] s

/-! ### Software's link commands and lane requests (R60, R69 to R71) -/

/-- TXG_LINKCMD.send is written with code `cmd`: not performed while a send is pending. RETIRE, RESTORE, ACK and NAK take no
answer and complete at once. eff_seq is that of the group the request is about, RXG[g], four ALIGN rows ahead. -/
def linkSend (g : Fin 16) (cmd lane arg tag : Nat) (s : State) : State :=
  let busy := s.flag (.txg g) R.TXG_LINKCMD.send
  let s := ((s.wr (.txg g) R.TXG_LINKCMD.cmd cmd).wr (.txg g) R.TXG_LINKCMD.lane lane)
  let s := ((s.wr (.txg g) R.TXG_LINKCMD.arg arg).wr (.txg g) R.TXG_LINKCMD.tag tag)
  if busy then s else
  let eff := (s.rd (.rxg g) R.RXG_STATUS.align_seq + 4) % 65536
  let s := s.wr (.txg g) R.TXG_LINKCMD.eff_seq eff
  let x := s.tx[g]
  let s := s.when (s.txOn g) (fun s => s.setTx g { x with
    answers := x.answers ++ [BitVec.ofNat 48 (linkBody cmd lane eff arg tag)] })
  if cmd = 1 ∨ cmd = 2 ∨ cmd = 8 ∨ cmd = 9 then (s.wr (.txg g) R.TXG_LINKCMD.send 0).wr (.txg g) R.TXG_LINKCMD.status 0
  else
    let s := (s.wr (.txg g) R.TXG_LINKCMD.send 1).wr (.txg g) R.TXG_LINKCMD.status 1
    s.setTx g { s.tx[g] with waiting := some (cmd, tag) }

/-- Send RETIRE_REQ. -/
def opTxRetireReq (g : Fin 16) (lane : BitVec 4) (arg tag : BitVec 8) (s : State) : State :=
  linkSend g 3 lane.toNat arg.toNat tag.toNat s
/-- Send RESTORE_REQ. -/
def opTxRestoreReq (g : Fin 16) (lane : BitVec 4) (arg tag : BitVec 8) (s : State) : State :=
  linkSend g 4 lane.toNat arg.toNat tag.toNat s
/-- Send PRESET. -/
def opTxPreset (g : Fin 16) (lane : BitVec 4) (arg tag : BitVec 8) (s : State) : State :=
  linkSend g 5 lane.toNat arg.toNat tag.toNat s
/-- Send TRAIN_START. -/
def opTxTrainStart (g : Fin 16) (lane : BitVec 4) (arg tag : BitVec 8) (s : State) : State :=
  linkSend g 6 lane.toNat arg.toNat tag.toNat s
/-- Send TRAIN_END. -/
def opTxTrainEnd (g : Fin 16) (lane : BitVec 4) (arg tag : BitVec 8) (s : State) : State :=
  linkSend g 7 lane.toNat arg.toNat tag.toNat s

/-- No answer within four ALIGN periods. -/
def opLinkcmdTimeout (g : Fin 16) (s : State) : State :=
  if s.flag (.txg g) R.TXG_LINKCMD.send then linkDone g 3 s else s

/-- TXG_LANE[n].retire is written 1. -/
def opLaneRetire (g n : Fin 16) (s : State) : State :=
  if n = 0 || !s.txOn g then s
  else if s.retireForbidden g n then (s.wr (.txg g) (R.TXG_LANE.refused n) 1).wr (.txg g) (R.TXG_LANE.retire n) 0
  else announce g n false 0 (s.wr (.txg g) (R.TXG_LANE.retire n) 1)

/-- TXG_LANE[n].restore is written 1. -/
def opLaneRestore (g n : Fin 16) (s : State) : State :=
  if n = 0 || !s.txOn g || !s.txDrives g n then s else announce g n true 0 (s.wr (.txg g) (R.TXG_LANE.restore n) 1)

/-- The next `k` bits of lane `n` are inverted, and counted. -/
def invertBits (g n : Fin 16) (k : Nat) (s : State) : State :=
  let x := s.tx[g]
  (s.setTx g { x with inv := SMap.set (fun _ => 0) x.inv n (SMap.get (fun _ => 0) x.inv n + k) }).cnt (.txg g) (R.TXG_PRBS.injected n) k

/-- TXG_PRBS[n].inject is written 1: one bit, or burst_len bits, are inverted and counted (R75). -/
def opInject (g n : Fin 16) (s : State) : State :=
  if n = 0 || !s.txOn g then s else
  let s := s.wr (.txg g) (R.TXG_PRBS.inject n) 0
  match s.rd (.txg g) (R.TXG_PRBS.inject_mode n) with
  | 1 => invertBits g n 1 s
  | 2 => invertBits g n (max 1 (s.rd (.txg g) (R.TXG_PRBS.burst_len n))) s
  | _ => s

/-- A full eye scan ends (R72): fom, its warning, and auto-retirement after two scans below fom_retire. -/
def opFomScan (g n : Fin 16) (openPoints : Nat) (ctle : BitVec 5) (dfe : BitVec 40) (s : State) : State :=
  if n = 0 || !s.linkUp || !s.laneOn g n then s else
  let fom := min 255 openPoints
  let s := s.wr (.rxg g) (R.RXG_LANE.fom n) fom
  let s := if s.flag (.rxg g) (R.RXG_EQ.adapt_freeze n) then s
    else (s.wr (.rxg g) (R.RXG_EQ.ctle n) ctle.toNat).wr (.rxg g) (R.RXG_EQ.dfe n) dfe.toNat
  let s := if fom < s.rd (.rxg g) R.RXG_FOM_CFG.fom_warn then s.wr (.rxg g) (R.RXG_LANE.fom_warn n) 1 else s
  let low := if fom < s.rd (.rxg g) R.RXG_FOM_CFG.fom_retire then SMap.get (fun _ => 0) (s.rx[g]).fomLow n + 1 else 0
  let s := s.setRx g { s.rx[g] with fomLow := SMap.set (fun _ => 0) (s.rx[g]).fomLow n (min low 2) }
  if low ≥ 2 && s.flag (.rxg g) R.RXG_FOM_CFG.auto_retire && s.laneActive g n && s.txOn g then
    let x := s.tx[g]
    let eff := (s.rd (.rxg g) R.RXG_STATUS.align_seq + 4) % 65536
    s.setTx g { x with urgent := x.urgent ++ [BitVec.ofNat 48 (linkBody 3 n eff 0 0)] }
  else s

/-! ### The commands -/

/-- DATA_ROW (R66): A data row is classified, unpacked into samples with lost marks, and released to ingest[g] or discarded if the ferry is full. -/
def execDataRow (g : Fin 16) (lanes : List (BitVec 66)) (s : State) : Host.Outcome State Fault Refusal :=
  .next (opDataRow g lanes s)
/-- RETIRE (R69): A RETIRE notice is received announcing that a lane leaves the active set at eff_seq. -/
def execLcRetire (g : Fin 16) (lane : BitVec 4) (eff : BitVec 16) (arg : BitVec 8) (tag : BitVec 8) (s : State) : Host.Outcome State Fault Refusal :=
  .next (opLcRetire g lane eff arg tag s)
/-- RESTORE (R69): A RESTORE notice is received announcing that a lane joins the active set at eff_seq. -/
def execLcRestore (g : Fin 16) (lane : BitVec 4) (eff : BitVec 16) (arg : BitVec 8) (tag : BitVec 8) (s : State) : Host.Outcome State Fault Refusal :=
  .next (opLcRestore g lane eff arg tag s)
/-- RETIRE_REQ (R71): A RETIRE_REQ for TXG[g] is received on RXG[g] and answered with RETIRE, or with NAK under R70. -/
def execLcRetireReq (g : Fin 16) (lane : BitVec 4) (eff : BitVec 16) (arg : BitVec 8) (tag : BitVec 8) (s : State) : Host.Outcome State Fault Refusal :=
  .next (opLcRetireReq g lane eff arg tag s)
/-- RESTORE_REQ (R71): A RESTORE_REQ is received and answered with RESTORE or NAK. -/
def execLcRestoreReq (g : Fin 16) (lane : BitVec 4) (eff : BitVec 16) (arg : BitVec 8) (tag : BitVec 8) (s : State) : Host.Outcome State Fault Refusal :=
  .next (opLcRestoreReq g lane eff arg tag s)
/-- PRESET (R71): A PRESET request is received; the preset is applied at eff_seq and ACK is sent. -/
def execLcPreset (g : Fin 16) (lane : BitVec 4) (eff : BitVec 16) (arg : BitVec 8) (tag : BitVec 8) (s : State) : Host.Outcome State Fault Refusal :=
  .next (opLcPreset g lane eff arg tag s)
/-- TRAIN_START (R71): A TRAIN_START request is received; the retired lane carries PRBS31 from eff_seq and ACK is sent. -/
def execLcTrainStart (g : Fin 16) (lane : BitVec 4) (eff : BitVec 16) (arg : BitVec 8) (tag : BitVec 8) (s : State) : Host.Outcome State Fault Refusal :=
  .next (opLcTrainStart g lane eff arg tag s)
/-- TRAIN_END (R71): A TRAIN_END request is received; the lane returns to block framing and ACK is sent. -/
def execLcTrainEnd (g : Fin 16) (lane : BitVec 4) (eff : BitVec 16) (arg : BitVec 8) (tag : BitVec 8) (s : State) : Host.Outcome State Fault Refusal :=
  .next (opLcTrainEnd g lane eff arg tag s)
/-- ACK (R60): An ACK answer is received and the pending TXG_LINKCMD send completes as accepted. -/
def execLcAck (g : Fin 16) (lane : BitVec 4) (eff : BitVec 16) (arg : BitVec 8) (tag : BitVec 8) (s : State) : Host.Outcome State Fault Refusal :=
  .next (opLcAck g lane eff arg tag s)
/-- NAK (R60): A NAK answer is received and the pending TXG_LINKCMD send completes with status NAK. -/
def execLcNak (g : Fin 16) (lane : BitVec 4) (eff : BitVec 16) (arg : BitVec 8) (tag : BitVec 8) (s : State) : Host.Outcome State Fault Refusal :=
  .next (opLcNak g lane eff arg tag s)
/-- LINKCMD_UNKNOWN (R60): A LINKCMD with code 0 or 10 to 15 is received and answered with NAK, reason 1. -/
def execLinkcmdUnknown (g : Fin 16) (cmd : BitVec 4) (lane : BitVec 4) (eff : BitVec 16) (arg : BitVec 8) (tag : BitVec 8) (s : State) : Host.Outcome State Fault Refusal :=
  .next (opLinkcmdUnknown g cmd lane eff arg tag s)
/-- TX_RETIRE_REQ (R60): TXG_LINKCMD send with cmd = 3 asks the far transmitter to retire a lane. -/
def execTxRetireReq (g : Fin 16) (lane : BitVec 4) (arg : BitVec 8) (tag : BitVec 8) (s : State) : Host.Outcome State Fault Refusal :=
  .next (onWrite (opTxRetireReq g lane arg tag) s)
/-- TX_RESTORE_REQ (R60): TXG_LINKCMD send with cmd = 4 asks the far transmitter to restore a lane. -/
def execTxRestoreReq (g : Fin 16) (lane : BitVec 4) (arg : BitVec 8) (tag : BitVec 8) (s : State) : Host.Outcome State Fault Refusal :=
  .next (onWrite (opTxRestoreReq g lane arg tag) s)
/-- TX_PRESET (R60): TXG_LINKCMD send with cmd = 5 asks for a transmit preset. -/
def execTxPreset (g : Fin 16) (lane : BitVec 4) (arg : BitVec 8) (tag : BitVec 8) (s : State) : Host.Outcome State Fault Refusal :=
  .next (onWrite (opTxPreset g lane arg tag) s)
/-- TX_TRAIN_START (R60): TXG_LINKCMD send with cmd = 6 asks that a retired lane carry PRBS31. -/
def execTxTrainStart (g : Fin 16) (lane : BitVec 4) (arg : BitVec 8) (tag : BitVec 8) (s : State) : Host.Outcome State Fault Refusal :=
  .next (onWrite (opTxTrainStart g lane arg tag) s)
/-- TX_TRAIN_END (R60): TXG_LINKCMD send with cmd = 7 asks that a lane return to block framing. -/
def execTxTrainEnd (g : Fin 16) (lane : BitVec 4) (arg : BitVec 8) (tag : BitVec 8) (s : State) : Host.Outcome State Fault Refusal :=
  .next (onWrite (opTxTrainEnd g lane arg tag) s)
/-- LINKCMD_TIMEOUT (R71): No answer arrives within 4 ALIGN periods and the send reports a time-out. -/
def execLinkcmdTimeout (g : Fin 16) (s : State) : Host.Outcome State Fault Refusal :=
  .next (opLinkcmdTimeout g s)
/-- LANE_RETIRE (R69): TXG_LANE.retire announces retirement of a lane with eff_seq = current + 4, or is refused under R70. -/
def execLaneRetire (g : Fin 16) (n : Fin 16) (s : State) : Host.Outcome State Fault Refusal :=
  .next (onWrite (opLaneRetire g n) s)
/-- LANE_RESTORE (R69): TXG_LANE.restore announces restoration of a lane with eff_seq = current + 4. -/
def execLaneRestore (g : Fin 16) (n : Fin 16) (s : State) : Host.Outcome State Fault Refusal :=
  .next (onWrite (opLaneRestore g n) s)
/-- TX_ALIGN_ROW (R56): Every 16,384 block times the TXG sends an ALIGN row, applying mask changes at eff_seq and staged presets. -/
def execTxAlignRow (g : Fin 16) (s : State) : Host.Outcome State Fault Refusal :=
  .next (opTxAlignRow g s)
/-- TX_DATA_ROW (R77): The TXG packs samples from emit[g] into a data row, sending STATUS start when a sub-stream's first samples arrive. -/
def execTxDataRow (g : Fin 16) (k : Fin 5) (s : State) : Host.Outcome State Fault Refusal :=
  .next (opTxDataRow g k s)
/-- FILL_ROW (R77): The TXG sends a fill row because emit[g] is empty, counted in TXG_UNDERRUN. -/
def execFillRow (g : Fin 16) (k : Fin 5) (s : State) : Host.Outcome State Fault Refusal :=
  .next (opFillRow g k s)
/-- FOM_SCAN (R72): A full eye scan of 2^28 bits completes, fom is updated, and auto-retire may send RETIRE_REQ. -/
def execFomScan (g : Fin 16) (n : Fin 16) (openPoints : Nat) (ctle : BitVec 5) (dfe : BitVec 40) (s : State) : Host.Outcome State Fault Refusal :=
  .next (opFomScan g n openPoints ctle dfe s)
/-- INJECT (R75): TXG_PRBS.inject inverts one bit, or burst_len bits, of the transmitted line. -/
def execInject (g : Fin 16) (n : Fin 16) (s : State) : Host.Outcome State Fault Refusal :=
  .next (onWrite (opInject g n) s)

end Sys2Proof.Machine
end

