-- ==== Sys2Proof/Machine/Synth.lean ====
section
/-!
DEFINITION. Sys2Proof/Machine/Synth.lean: synthesis, playback, relay and forwarding (R205 to R223), and the edges of EPOCH_OUT
(R218, R289).
-/
namespace Sys2Proof.Machine
open Sys2Proof

/-- Replace the synthesis path of slice `i`. -/
def State.setSyn (s : State) (i : Fin 17) (x : SynSt) : State := { s with syns := s.syns.set i x }

/-- SYN_STATUS.state. -/
def State.synState (s : State) (i : Nat) : Nat := s.rd (.records i) R.SYN_STATUS.state
/-- Set SYN_STATUS.state. -/
def setSynState (i : Nat) (v : Nat) (s : State) : State := s.wr (.records i) R.SYN_STATUS.state v
/-- The next output index to release. -/
def State.synNext (s : State) (i : Nat) : Nat := s.rd (.records i) R.SYN_INDEX.index
/-- The source: 0 playback, 1 frames, 2 polyphase. -/
def State.synSrc (s : State) (i : Nat) : Nat := s.rd (.records i) R.SYN_CFG.src
/-- The path acts: SYNTHESISE or RELAY, its slot enabled, the CORE clock running. -/
def State.synLive (s : State) (i : Nat) : Bool :=
  (decide (s.mode i = 3) || decide (s.mode i = 4)) && s.enabled (.records i) && s.coreRuns

/-! ### Into emit[g] (R18, R205, R218) -/

/-- Note flagged sample `n` for the OVR blocks: the spans stay in rising order, apart from each other. -/
def noteSpan (n : Nat) : List (Nat × Nat) → List (Nat × Nat)
  | [] => [(n, n + 1)]
  | (a, b) :: r =>
    if n + 1 < a then (n, n + 1) :: (a, b) :: r
    else if n + 1 = a then (n, b) :: r
    else if n < b then (a, b) :: r
    else if n = b then
      match r with
      | (c, d) :: q => if n + 1 = c then (a, d) :: q else (a, n + 1) :: r
      | [] => [(a, n + 1)]
    else (a, b) :: noteSpan n r

/-- The group and sub-stream on which the EPOCH and OVR blocks of a sub-stream go: member 0 of its bond (R68). -/
def State.txHome (s : State) (r : Nat × Nat) : Fin 16 × Fin 5 := (Fin.ofNat 16 (r.1 - (s.txBond r.1 r.2).2), Fin.ofNat 5 r.2)

/-- Sample `n` of the run on sub-stream `r` is flagged: an OVR block will say so; C15F carries its flags in band. -/
def noteOvr (r : Nat × Nat) (n : Nat) (s : State) : State :=
  if s.rd (.txg r.1) (R.TXG_SS.format r.2) = 1 then s else
  let (g, k) := s.txHome r
  let t := (s.tx[g]).subs[k]
  s.setTxSub g k { t with spans := noteSpan (s.txStream r.1 r.2 n) t.spans }

/-- One sample, or the end of a run, enters emit[g] for sub-stream `k`. -/
def emitOn (r : Nat × Nat) (x : EmitSmp) (s : State) : State :=
  let g : Fin 16 := Fin.ofNat 16 r.1
  let k : Fin 5 := Fin.ofNat 5 r.2
  let t := (s.tx[g]).subs[k]
  let n := if x.start then 0 else t.entered
  let s := s.setTxSub g k { t with
    queue := t.queue ++ [x]
    entered := if x.stop then t.entered else n + 1 }
  showEmit g (s.when (x.ovr && !x.stop) (noteOvr r n))

/-- A sample enters every sub-stream slice `i` feeds. -/
def emitAll (i : Fin 17) (x : EmitSmp) (s : State) : State := s.each s.syns[i].routes (fun r st => emitOn r x st)

/-- The output crossbar takes nothing from slice `i`: some emit ferry it feeds is full, or the crossbar is wedged (R18, R23). -/
def State.emitFull (s : State) (i : Fin 17) : Bool :=
  s.sharedWedged 1 || s.syns[i].routes.any (fun r => decide (512 ≤ s.emitLevel (Fin.ofNat 16 r.1)))

/-! ### Instants (R206) -/

/-- T_out as numerator and denominator, in units. -/
def State.tOut (s : State) (i : Nat) : Nat × Nat := (tickUnits * 2 ^ 40, max 1 (s.rd (.records i) R.SYN_RATE.rate))

/-- The instant of output `n`: t_n, or the T96 of a forwarded sample. -/
def State.synInstant (s : State) (i : Fin 17) (n : Nat) : Int :=
  if s.mode i = 3 then
    let (a, b) := s.tOut i
    s.syns[i].start + rneDiv ((n * a : Nat)) b
  else match s.streamOf i with
    | some c => s.outTime i c n + (if s.mode i = 4 then (s.rd (.records i) R.RELAY_CFG.latency * tickUnits : Nat) else 0)
    | none => s.tim.now

/-- The least `n` ≥ `lo` with `t` ≤ `f n`, for a rising `f`, found by halving `lo + 2^bits`. -/
def firstAt (f : Nat → Int) (t : Int) : Nat → Nat → Nat
  | 0, lo => if t ≤ f lo then lo else lo + 1
  | b + 1, lo => if t ≤ f (lo + 2 ^ b - 1) then firstAt f t b lo else firstAt f t b (lo + 2 ^ b)

/-! ### Events (SYN_LAST_EVENT) -/

/-- An output is sent as zero: its cause is shown with the first index it happened at. -/
def synEvent (i : Fin 17) (n cause : Nat) (s : State) : State :=
  let s := if s.syns[i].prevBad = some cause then s
    else (s.wr (.records i) R.SYN_LAST_EVENT.index n).wr (.records i) R.SYN_LAST_EVENT.cause cause
  s.setSyn i { s.syns[i] with prevBad := some cause }

/-! ### Playback (R209 to R211) -/

/-- Bytes of a stored playback sample. -/
def State.pbB (s : State) (i : Nat) : Nat := if s.flag (.records i) R.SYN_CFG.pb_format then 6 else 4

/-- A stored sample: components left-justified to 24 bits. -/
def pbSample (bs : List Byte) : Int × Int :=
  if bs.length = 6 then (signed 24 (leNat (bs.take 3)), signed 24 (leNat (bs.drop 3)))
  else (signed 16 (leNat (bs.take 2)) * 256, signed 16 (leNat (bs.drop 2)) * 256)

/-- The transmit bond slice `i` plays for: its size and the slice's member in it. -/
def State.synBond (s : State) (i : Fin 17) : Nat × Nat :=
  match s.syns[i].routes with
  | (g, k) :: _ => s.txBond g k
  | [] => (1, 0)

/-- The sample of the played stream that output `n` is: a bond divides the stream into strips, from where its run begins (R68, R205). -/
def State.stripIndex (s : State) (i : Fin 17) (n : Nat) : Nat :=
  let (b, m) := s.synBond i
  if b = 1 then n else b * s.syns[i].base + stripOf b m (n - s.syns[i].base)

/-- Read sample `p` of a circular buffer of 2^`lg` bytes whose sample 0 stands at byte `o`. -/
def State.bufSample (s : State) (dram : Bool) (base lg b o p : Nat) : Int × Int :=
  pbSample ((List.range b).map (fun j => (s.targetRead dram (base + (o + p * b + j) % 2 ^ lg) 1).headD 0))

/-- The samples of a pass and the passes of PB_LOOP. -/
def State.pbEnd (s : State) (i : Nat) : Option Nat :=
  if s.flag (.records i) R.SYN_CFG.loop then
    let l := s.rd (.records i) R.PB_LOOP.loop_len
    let c := s.rd (.records i) R.PB_LOOP.loop_count
    if l = 0 then some 0 else if c = 0 then none else some (l * c)
  else none

/-- The last 64-byte unit, as the doorbell counts, that sample `p` of the stream needs: the run began at unit `pbUnit`. -/
def State.pbNeeds (s : State) (i : Fin 17) (p : Nat) : Nat := s.syns[i].pbUnit + ceilDiv ((p + 1) * s.pbB i) 64

/-- Sample `p` of the stream has been produced. -/
def State.pbAvail (s : State) (i : Fin 17) (p : Nat) : Bool :=
  let cons := s.rd (.records i) R.PB_CONSUMED.consumed
  let prod := s.rd (.records i) R.PB_DOORBELL.produced
  let ahead := (prod + 2 ^ 36 - cons) % 2 ^ 36
  decide ((s.pbNeeds i p + 2 ^ 36 - cons) % 2 ^ 36 ≤ ahead)

/-- Output `n` lies beyond the passes of a playback in loop mode. -/
def State.pbOver (s : State) (i : Fin 17) (n : Nat) : Bool := (s.pbEnd i).any (· ≤ s.stripIndex i n)

/-- The caravan fetched next: its samples, each missing for a cause if it is not there. -/
def fetchGo (i : Fin 17) (ok : Bool) (s : State) : Nat → Nat → List SynSmp
  | 0, _ => []
  | k + 1, n =>
    let b := s.pbB i
    let r : Blk := .records i
    let loop := s.flag r R.SYN_CFG.loop
    let p := s.stripIndex i n
    let x : SynSmp :=
      if !ok then ⟨0, 0, false, some 5⟩
      else if !loop && !s.pbAvail i p then ⟨0, 0, false, some 0⟩
      else
        let (a, c) := s.bufSample (s.flag r R.PB_BASE.target) (s.rd r R.PB_BASE.base * 4096) (s.rd r R.PB_BASE.log2size) b
          (if loop then 0 else 64 * s.syns[i].pbUnit) (if loop then p % max 1 (s.rd r R.PB_LOOP.loop_len) else p)
        ⟨a, c, false, none⟩
    x :: fetchGo i ok s k (n + 1)

/-- Where sample `n` of the output stands in the playback buffer. -/
def State.pbAddr (s : State) (i : Fin 17) (n : Nat) : Nat :=
  let r : Blk := .records i
  let loop := s.flag r R.SYN_CFG.loop
  let p := s.stripIndex i n
  let o := if loop then p % max 1 (s.rd r R.PB_LOOP.loop_len) * s.pbB i else 64 * s.syns[i].pbUnit + p * s.pbB i
  s.rd r R.PB_BASE.base * 4096 + o % 2 ^ s.rd r R.PB_BASE.log2size

/-- The first of `len` samples from output `n` whose DRAM the fetch cannot read: it lies beyond the device space, or an uncorrectable error
hits its line (R332, R334). Only what has been produced is fetched. -/
def State.pbFault (s : State) (i : Fin 17) (n len : Nat) : Option Nat :=
  let r : Blk := .records i
  if !s.flag r R.PB_BASE.target then none
  else
    let ns := ((List.range len).map (n + ·)).filter (fun n => s.flag r R.SYN_CFG.loop || s.pbAvail i (s.stripIndex i n))
    (ns.map (s.pbAddr i)).find? (fun a => !s.dramIn a (s.pbB i) || (s.firstBadLine a (s.pbB i)).isSome)

/-- The playback buffer can be read now: it is in host memory, or DRAM serves it (R17). -/
def State.pbOpen (s : State) (i : Fin 17) : Bool :=
  let r : Blk := .records i
  let a := s.rd r R.PB_BASE.base * 4096
  !s.flag r R.PB_BASE.target || !s.dramIn a 4096 || s.dramOpen a 4096

/-- 10 µs before its release a caravan of playback data is fetched; `ok` = no target error and no time-out. -/
def opPlaybackFetch (i : Fin 17) (ok : Bool) (s : State) : State :=
  let st := s.synState i
  if !(s.synLive i && decide (s.mode i = 3) && decide (s.synSrc i ≠ 1) && (decide (st = 1) || decide (st = 2)) && s.pbOpen i) then s else
  let x := s.syns[i]
  let n0 := x.pbFrom + x.pb.length
  let len := ((List.range (4096 - n0 % 4096)).takeWhile (fun j => !s.pbOver i (n0 + j))).length
  let hit := if ok then s.pbFault i n0 len else none
  let s := match hit with
    | some a => if s.dramIn a (s.pbB i) then checkLines a (s.pbB i) s else s
    | none => s
  let ok := ok && hit.isNone
  let xs := fetchGo i ok s len n0
  let s := s.when (!ok) (fun s => s.fault (.records i) R.SYN_FAULT.pb_target)
  let miss := xs.filter (fun y => y.bad.isSome)
  let s := s.cnt (.records i) R.SYN_COUNTS.underrun_samples miss.length
  let s := match xs.findIdx? (fun y => y.bad.isSome) with
    | some k => (s.wr (.records i) R.SYN_LAST_EVENT.index (n0 + k)).wr (.records i) R.SYN_LAST_EVENT.cause (if ok then 0 else 5)
    | none => s
  let s := s.setSyn i { x with pb := x.pb ++ xs }
  if s.flag (.records i) R.SYN_CFG.loop then s
  else
    -- consumed advances to the position read, but not beyond what has been produced
    let cons := s.rd (.records i) R.PB_CONSUMED.consumed
    let prod := s.rd (.records i) R.PB_DOORBELL.produced
    let pos := x.pbUnit + (s.stripIndex i (n0 + len - 1) + 1) * s.pbB i / 64
    let step := min ((pos + 2 ^ 36 - cons) % 2 ^ 36) ((prod + 2 ^ 36 - cons) % 2 ^ 36)
    s.wr (.records i) R.PB_CONSUMED.consumed (cons + step)

/-- PB_DOORBELL.produced is written. -/
def opPbDoorbell (i : Fin 17) (produced : BitVec 36) (s : State) : State :=
  let r : Blk := .records i
  if s.flag r R.SYN_CFG.loop then s else
  let cons := s.rd r R.PB_CONSUMED.consumed
  let old := s.rd r R.PB_DOORBELL.produced
  let ahead := (produced.toNat + 2 ^ 36 - cons) % 2 ^ 36
  -- produced only goes forward, and never more than one buffer ahead of consumed
  if ahead < (old + 2 ^ 36 - cons) % 2 ^ 36 ∨ 2 ^ (s.rd r R.PB_BASE.log2size - 6) < ahead then
    s.fault r R.SYN_FAULT.doorbell_invalid
  else s.wr r R.PB_DOORBELL.produced produced.toNat

/-! ### Frames (R212, R213, R215, R120) -/

/-- sat40. -/
def sat40 (x : Int) : Int := sat 40 x

/-- The synthesis window: none = rectangular. -/
def State.synWindow (s : State) (i : Fin 17) : Option (List Int) :=
  match s.rd (.records i) R.SYN_CFG.syn_window with
  | 1 => some s.chains[i].wins[0]
  | 2 => some s.chains[i].wins[1]
  | _ => none

/-- One accumulator entry takes a contribution. -/
def accAdd (n : Nat) (a b : Int) (ovr : Bool) (x : SynSt) : SynSt :=
  let o := SMap.get (fun _ => ((0 : Int), (0 : Int))) x.acc n
  { x with
    acc := SMap.set (fun _ => (0, 0)) x.acc n (sat40 (o.1 + a), sat40 (o.2 + b))
    accOvr := if ovr then SMap.set noBad x.accOvr n true else x.accOvr }

/-- Frame `f` with these bins in centred order is transformed and overlap-added. -/
def synthFrame (i : Fin 17) (f : Nat) (bins : List (Int × Int)) (e : Nat) (ovr : Bool) (s : State) : State :=
  let l2 := s.log2n i
  let (y, eo) := transform true l2 floatShift (swapHalves (bins.map (fun b => (⟨b.1, b.2, false⟩ : Pt))))
  let sc : Int := (e : Int) + eo - l2
  let u := s.synWindow i
  let c := fun (v : Int) (n : Nat) =>
    let p := v * (match u with | some l => l.getD n 0 | none => 131071)
    if sc ≤ 17 then rne p (17 - sc).toNat else p * 2 ^ (sc - 17).toNat
  let n0 := f * s.frameH i
  let done := s.synNext i
  let x := (List.zip (List.range y.length) y).foldl (fun x (n, p) =>
    if n0 + n < done then x else accAdd (n0 + n) (c p.r n) (c p.m n) ovr x) s.syns[i]
  s.setSyn i { x with nextF := f + 1 }

/-- Outputs of the frames `a` to `b` − 1 will not be complete. -/
def markBad (i : Fin 17) (a b cause : Nat) (s : State) : State :=
  if b ≤ a then s else
  let x := s.syns[i]
  s.setSyn i { x with
    bad := x.bad ++ [(a * s.frameH i, (b - 1) * s.frameH i + s.frameN i, cause)]
    nextF := max x.nextF b }

/-- A gain-table entry of position `p`: real and imaginary parts. -/
def State.gainEntry (s : State) (i : Fin 17) (laddr p : Nat) : Int × Int :=
  let w := memNat s.mem.lmem[i] ((8 * laddr + 4 * p) % 2 ^ 23) 4
  (signed 16 w, signed 16 (w / 65536))

/-- A word of the gain table holds an uncorrectable error. -/
def State.gainEcc (s : State) (i : Fin 17) (laddr n : Nat) : Bool :=
  (List.range (ceilDiv n 2)).any (fun k => SMap.get noBad s.mem.lmemBad[i] (8 * (laddr + k) % 2 ^ 23))

/-- A frame a RELAY slice has formed is modified and waits for its synthesis (R215). -/
def relayFrame (i : Fin 17) (gain : Nat) (fr : Frame) (s : State) : State :=
  if !(s.synLive i && decide (s.mode i = 4)) then s else
  let x := s.syns[i]
  if !s.flag (.records i) R.SYN_CFG.gain_table then
    s.setSyn i { x with relay := x.relay ++ [⟨fr.f, fr.bins, fr.e, false⟩] }
  else if s.gainEcc i gain fr.bins.length then
    -- an uncorrectable error of the gain table (R222)
    let s := (checkRead (.lmem i) (8 * gain % 2 ^ 23) (4 * fr.bins.length) 1 s).fault (.records i) R.SYN_FAULT.residue
    let s := residueError i 5 s
    let n0 := fr.f * s.frameH i
    s.setSyn i { x with relay := x.relay ++ [⟨fr.f, fr.bins, fr.e, false⟩], bad := x.bad ++ [(n0, n0 + s.frameN i, 4)] }
  else
    let g := (List.range fr.bins.length).map (s.gainEntry i gain)
    let ps := List.zipWith (fun (b : Int × Int) (k : Int × Int) =>
      Pt.round 14 (b.1 * k.1 - b.2 * k.2) (b.1 * k.2 + b.2 * k.1)) fr.bins g
    s.setSyn i { x with relay := x.relay ++ [⟨fr.f, ps.map (fun p => (p.r, p.m)), fr.e, ps.any (·.sat)⟩] }

/-- The next frame of the slice's queue of U.SYN FRAME instructions. -/
def State.synBins (s : State) (i : Fin 17) (laddr : Nat) : List (Int × Int) :=
  (List.range (s.frameN i)).map (fun k =>
    let w := memNat s.mem.lmem[i] ((8 * laddr + 8 * k) % 2 ^ 23) 8
    (signed 24 w, signed 24 (w / 2 ^ 32)))

/-- The number of queued instructions. -/
def showFrames (i : Fin 17) (s : State) : State := s.wr (.records i) R.SYN_STATUS.frames_queued s.syns[i].frames.length

/-- A residue mismatch in the overlap-add, the modification or the branch sums of frame or sample (R222): outputs [a, b) go out as
zeros. -/
def synResidue (i : Fin 17) (a b : Nat) (s : State) : State :=
  let s := residueError i 5 (s.fault (.records i) R.SYN_FAULT.residue)
  s.setSyn i { s.syns[i] with bad := (a, b, 4) :: s.syns[i].bad }

/-- The inverse transform of the next frame starts, or the frame is missing. -/
def synthNext (i : Fin 17) (s : State) : State :=
  let st := s.synState i
  if !(s.synLive i && (decide (st = 1) || decide (st = 2))) then s
  else if s.mode i = 4 then
    let x := s.syns[i]
    match x.relay with
    | r :: rs =>
      let s := markBad i x.nextF r.f 2 s
      synthFrame i r.f r.bins r.e r.ovr (s.setSyn i { s.syns[i] with relay := rs })
    | [] =>
      let c := s.chains[i]
      markBad i x.nextF (match c.jobs with | j :: _ => j.st.f | [] => c.fnext) 2 s
  else if s.synSrc i ≠ 1 then s
  else
    let x := s.syns[i]
    match x.frames with
    | q :: qs =>
      let bins := s.synBins i q.laddr
      let more := decide (1 < q.left)
      let frames := if more then { q with laddr := q.laddr + s.frameN i, left := q.left - 1 } :: qs else qs
      let s := synthFrame i x.nextF bins q.e false (s.setSyn i { x with frames := frames })
      let s := s.wr (.records i) R.SYN_STATUS.frames_consumed (s.rd (.records i) R.SYN_STATUS.frames_consumed + 1)
      let s := s.when (!more && decide (qs.length = 1)) (fun s => s.coreInt i.val 5)
      showFrames i s
    | [] => markBad i x.nextF (x.nextF + 1) 6 (s.cnt (.records i) R.SYN_COUNTS2.frames_missing 1)

/-- The inverse transform of the next frame. A mismatch in the transform itself is one of the transform engine, whose outputs are still
delivered (R121); one elsewhere in the path sends them as zeros (R222). -/
def opFrameSynthesis (i : Fin 17) (res : SynthFault) (s : State) : State :=
  let f := s.syns[i].nextF
  let t := synthNext i s
  if t.syns[i].nextF ≤ f then t
  else
    let k := t.syns[i].nextF - 1
    match res with
    | .none => t
    | .transform => residueError i 1 ((t.fault (.filt i) R.XF_FAULT.residue).cnt (.filt i) R.XF_RESIDUE.residue_errors 1)
    | .path => synResidue i (k * t.frameH i) (k * t.frameH i + t.frameN i) t

/-! ### Polyphase (R214) -/

/-- T of the polyphase source. -/
def State.synT (s : State) (i : Nat) : Nat := match s.rd (.records i) R.SYN_CFG.taps with | 0 => 8 | 1 => 12 | 2 => 16 | _ => 24

/-- The prototype of the polyphase source. -/
def State.synProto (s : State) (i : Fin 17) : List Int :=
  let l2 := s.rd (.records i) R.SYN_CFG.log2m
  if s.flag (.records i) R.SYN_CFG.proto_user then
    s.lmemWords i (s.rd .chan (R.CHAN_CFG.proto_laddr i)) (2 ^ l2 * s.synT i) 18
  else protoGen l2 (s.synT i)

/-- The fetched samples before output `n` are dropped. -/
def dropTo (i : Fin 17) (n : Nat) (s : State) : State :=
  let x := s.syns[i]
  s.setSyn i { x with pb := x.pb.drop (n - x.pbFrom), pbFrom := max x.pbFrom n }

/-- Fetched data that is no longer wanted is discarded, and its bursts, one a caravan, are withdrawn (R211). -/
def withdraw (i : Fin 17) (s : State) : State :=
  let x := s.syns[i]
  (s.cnt (.records i) R.SYN_COUNTS2.withdrawn_bursts (ceilDiv x.pb.length 4096)).setSyn i { x with pb := [] }

/-- A block of channel samples becomes V_q. -/
def polyBlock (l2 g : Nat) (y : List SynSmp) : List (Int × Int × Bool) :=
  let z := swapHalves (y.map (fun x => (⟨x.i, x.q, false⟩ : Pt)))
  (transform true l2 (fixedShift g) z).1.map (fun p => (p.r, p.m, p.sat))

/-- Output `b` of a block: Σ_t h[t·M + b]·V_(q−t)[b]. -/
def polyOut (m b : Nat) (h : List Int) (vs : List (List (Int × Int × Bool))) : SynSmp :=
  let terms := (List.zip (List.range vs.length) vs).map (fun (t, v) =>
    let x := v.getD b (0, 0, false)
    let k := h.getD (t * m + b) 0
    (x.1 * k, x.2.1 * k, x.2.2))
  let a := (terms.map (·.1)).sum
  let c := (terms.map (·.2.1)).sum
  let p := Pt.round 17 a c
  ⟨p.r, p.m, p.sat || terms.any (·.2.2), none⟩

/-! ### Release (R206, R208, R210, R217) -/

/-- The insertion sample of output `n` (R217). -/
def State.insSample (s : State) (i : Fin 17) (n : Nat) : Int × Int :=
  let r : Blk := .records i
  if !(decide (s.mode i = 4) && s.flag r R.SYN_CFG.insert) then (0, 0) else
  let l := s.rd r R.INS_LOOP.loop_len
  let c := s.rd r R.INS_LOOP.loop_count
  if l = 0 ∨ (c ≠ 0 ∧ l * c ≤ n) then (0, 0)
  else s.bufSample true (s.rd r R.INS_BASE.base * 4096) (s.rd r R.INS_BASE.log2size)
    (if s.flag r R.SYN_CFG.ins_format then 6 else 4) 0 (n % l)

/-- The output stage on source sample `a`, insertion sample `d`. -/
def outStage (og ig : Nat) (fcw : Int) (n : Nat) (a : SynSmp) (d : Int × Int) : EmitSmp :=
  let zi := rne (a.i * og + d.1 * ig) 16
  let zq := rne (a.q * og + d.2 * ig) 16
  let p := if fcw = 0 then Pt.round 0 zi zq
    else
      let ph := ((fcw * n) % (2 ^ 48 : Int)).toNat
      let (c, w) := cosSin20 (ph / 2 ^ 28)
      Pt.round 17 (zi * c - zq * w) (zq * c + zi * w)
  ⟨p.r, p.m, a.ovr || p.sat, false, false⟩

/-- Block `q` of the polyphase source becomes V_q. One that is not ready makes its outputs late (R210). -/
def polyStep (i : Fin 17) (q : Nat) (s : State) : State :=
  let l2 := s.rd (.records i) R.SYN_CFG.log2m
  let m := 2 ^ l2
  let s := dropTo i (q * m) s
  let x := s.syns[i]
  let miss := m - min m x.pb.length
  let blk := x.pb.take m ++ List.replicate miss (⟨0, 0, false, none⟩ : SynSmp)
  s.setSyn i { x with
    pb := x.pb.drop m
    pbFrom := q * m + m
    bad := if miss = 0 then x.bad else x.bad ++ [(q * m, q * m + m, 1)]
    poly := (polyBlock l2 (s.rd (.records i) R.SYN_CFG.gain) blk :: x.poly).take (s.synT i) }

/-- Output `n` falls in a span that goes out as zeros: its cause. -/
def State.synBad (s : State) (i : Fin 17) (n : Nat) : Option Nat :=
  (s.syns[i].bad.find? (fun b => b.1 ≤ n ∧ n < b.2.1)).map (fun b => b.2.2)

/-- The source sample of output `n`, taken from what waits. -/
def takeSource (i : Fin 17) (n : Nat) (s : State) : State × SynSmp :=
  let x := s.syns[i]
  let late : SynSmp := ⟨0, 0, false, some 1⟩
  if s.mode i = 4 ∨ s.synSrc i = 1 then
    match s.synBad i n with
    | some c => (s, ⟨0, 0, false, some c⟩)
    | none =>
      if x.nextF ≤ n / s.frameH i then (s, late)
      else
        let a := SMap.get (fun _ => ((0 : Int), (0 : Int))) x.acc n
        (s, ⟨a.1, a.2, SMap.get noBad x.accOvr n, none⟩)
  else if s.synSrc i = 0 then
    match x.pb with
    | y :: ys => if x.pbFrom = n then (s.setSyn i { x with pb := ys, pbFrom := n + 1 }, y) else (s, late)
    | [] => (s.setSyn i { x with pbFrom := n + 1 }, late)
  else
    let m := 2 ^ s.rd (.records i) R.SYN_CFG.log2m
    let s := s.when (decide (n % m = 0)) (polyStep i (n / m))
    match s.synBad i n with
    | some c => (s, ⟨0, 0, false, some c⟩)
    | none => (s, polyOut m (n % m) (s.synProto i) s.syns[i].poly)

/-- The commit of GAIN_STAGE takes effect at a caravan boundary (R215). -/
def applyGain (i : Fin 17) (s : State) : State :=
  let r : Blk := .records i
  if !s.flag r R.SYN_CTRL.commit then s else
  let s := (s.wr r R.GAIN_STAGE.active_laddr (s.rd r R.GAIN_STAGE.laddr)).wr r R.SYN_CTRL.commit 0
  let s := s.when (decide (s.rd r R.SYN_CTRL.last_cmd = 3)) (fun s => s.wr r R.SYN_CTRL.last_status 0)
  commitDone i 5 true s

/-- Gains and tuning are sampled at a caravan boundary of the output (R217). -/
def sampleGains (i : Fin 17) (s : State) : State :=
  let r : Blk := .records i
  s.setSyn i { s.syns[i] with
    outGain := s.rd r R.SYN_GAIN.out_gain
    insGain := s.rd r R.SYN_GAIN.ins_gain
    fcw := s.rdi r R.SYN_NCO.fcw_out }

/-- The run of slice `i` ends: STATUS with stop goes out after what was released. -/
def synEnd (i : Fin 17) (st : Nat) (s : State) : State :=
  let s := emitAll i ⟨0, 0, false, false, true⟩ (withdraw i s)
  let s := s.setSyn i { s.syns[i] with
    poly := []
    acc := []
    accOvr := []
    bad := []
    relay := []
    stopAt := none
    prevBad := none }
  setSynState i st s

/-- The length of a caravan of the output: the hop of a RELAY slice, else 4,096. -/
def State.synCaravan (s : State) (i : Nat) : Nat := if s.mode i = 4 then s.frameH i else 4096

/-- One output is released; `res`: the output stage, or what fed it, fails its residue check (R222). -/
def releaseOne (i : Fin 17) (res : Bool) (s : State) : State :=
  let r : Blk := .records i
  let n := s.synNext i
  let start := decide (n = s.syns[i].base)
  let bnd := start || decide (n % s.synCaravan i = 0)
  let s := s.when (bnd && decide (s.mode i = 3)) (fun s => applyGain i (coreBoundary i s))
  let s := s.when bnd (sampleGains i)
  let loop := s.flag r R.SYN_CFG.loop && decide (s.mode i = 3) && decide (s.synSrc i ≠ 1)
  if loop && s.pbOver i n then synEnd i 4 s
  else if s.syns[i].stopAt.any (· ≤ n) then
    let s := synEnd i 3 (s.wr r R.SYN_CTRL.stop 0)
    s.when (decide (s.rd r R.SYN_CTRL.last_cmd = 2)) (fun s => s.wr r R.SYN_CTRL.last_status 0)
  else
    let (s, a) := takeSource i n s
    let a : SynSmp := if res then { a with bad := some 4 } else a
    let s := s.when res (fun s => residueError i 5 (s.fault r R.SYN_FAULT.residue))
    let x := s.syns[i]
    let d := s.insSample i n
    let (s, e) : State × EmitSmp := match a.bad with
      | none => (s.setSyn i { x with prevBad := none }, outStage x.outGain x.insGain x.fcw n a d)
      | some c =>
        let s := if c = 1 then s.cnt r R.SYN_COUNTS.late_samples 1
          else if c = 0 ∨ c = 5 then s else s.cnt r R.SYN_COUNTS.underrun_samples 1
        (if c = 0 ∨ c = 5 then s else synEvent i n c s, ⟨0, 0, false, false, false⟩)
    let s := emitAll i { e with start := start } s
    let x := s.syns[i]
    let s := s.setSyn i { x with
      acc := SMap.set (fun _ => (0, 0)) x.acc n (0, 0)
      accOvr := SMap.set noBad x.accOvr n false
      bad := x.bad.filter (fun b => n + 1 < b.2.1) }
    let s := s.wr r R.SYN_INDEX.index (n + 1)
    -- a pass is complete when the next sample of this slice lies beyond it; the last one ends the run
    let s := s.when loop (fun s => s.wr r R.SYN_STATUS.loops_done
      (min (s.stripIndex i (n + 1) / max 1 (s.rd r R.PB_LOOP.loop_len))
        (if s.rd r R.PB_LOOP.loop_count = 0 then s.stripIndex i (n + 1) else s.rd r R.PB_LOOP.loop_count)))
    if loop && s.pbOver i (n + 1) then synEnd i 4 s else s

/-- TIME has reached the release instant of output `n`: tx_lead before its nominal instant (R206). -/
def State.releaseDue (s : State) (i : Fin 17) (n : Nat) : Bool :=
  decide (s.synInstant i n ≤ ((s.tim.now + s.rd (.records i) R.SYN_LEAD.tx_lead * tickUnits : Nat) : Int))

/-- An output sample reaches its release instant. -/
def opSampleRelease (i : Fin 17) (res : Bool) (s : State) : State :=
  if s.synLive i && decide (s.synState i = 2) && s.releaseDue i (s.synNext i) && !s.emitFull i then releaseOne i res s else s

/-! ### Start and stop (R207, R208) -/

/-- SYN_CTRL shows a command and its status. -/
def synStatus (i : Fin 17) (cmd st : Nat) (s : State) : State :=
  (s.wr (.records i) R.SYN_CTRL.last_cmd cmd).wr (.records i) R.SYN_CTRL.last_status st

/-- A start. -/
def synStart (i : Fin 17) (s : State) : State :=
  let r : Blk := .records i
  let t := ofT96 (s.rdT96 r R.SYN_START_T96.lo)
  let st := s.synState i
  if !(s.synLive i && decide (s.mode i = 3) && (decide (st = 0) || decide (st = 3))) then synStatus i 1 2 s
  else if t < s.tim.now + 20 * usUnits then synStatus i 1 2 (s.fault r R.SYN_FAULT.start_late)
  else
    let x := s.syns[i]
    -- a run begins with the data not yet consumed; the members of a bond begin at one round of strips
    let cons := s.rd r R.PB_CONSUMED.consumed
    let (b, _) := s.synBond i
    let round := b * 4096 * s.pbB i / 64
    let s := s.setSyn i { SynSt.zero with
      start := t
      routes := x.routes
      frames := x.frames
      pbUnit := if b = 1 then cons else ceilDiv cons round * round }
    let s := (s.wr r R.SYN_INDEX.index 0).wr r R.SYN_STATUS.loops_done 0
    setSynState i 1 (synStatus i 1 1 (s.wr r R.SYN_CTRL.start 1))

/-- A stop. -/
def synStop (i : Fin 17) (s : State) : State :=
  let r : Blk := .records i
  if !s.synLive i then synStatus i 2 2 s
  else match s.synState i with
    | 1 => setSynState i 0 (synStatus i 2 0 (withdraw i (s.wr r R.SYN_CTRL.start 0)))
    | 2 =>
      let c := s.synCaravan i
      let s := s.setSyn i { s.syns[i] with stopAt := some (ceilDiv (s.synNext i) c * c) }
      synStatus i 2 1 (s.wr r R.SYN_CTRL.stop 1)
    | _ => synStatus i 2 0 s

/-- A commit of GAIN_STAGE. -/
def synCommit (i : Fin 17) (byCore : Bool) (s : State) : State :=
  let s := s.when byCore (fun s => s.setChain i { s.chains[i] with byCore := Nat.lor s.chains[i].byCore 32 })
  synStatus i 3 1 (s.wr (.records i) R.SYN_CTRL.commit 1)

/-- t_start arrives: sample 0 is released. -/
def opStartInstant (i : Fin 17) (s : State) : State :=
  if s.synLive i && decide (s.synState i = 1) && s.releaseDue i 0 && !s.emitFull i then
    let s := setSynState i 2 (s.wr (.records i) R.SYN_CTRL.start 0)
    let s := s.when (decide (s.rd (.records i) R.SYN_CTRL.last_cmd = 1)) (fun s => s.wr (.records i) R.SYN_CTRL.last_status 0)
    releaseOne i false s
  else s

/-- Start, by register or by U.SYN. -/
def opSynStart (c : Fin 17) (via : Via) (s : State) : State := 
  byVia c via (fun core => refusedDone c core (.records c.val) R.SYN_CTRL.last_status (synStart c)) s
/-- Stop, by register or by U.SYN. -/
def opSynStop (c : Fin 17) (via : Via) (s : State) : State := 
  byVia c via (fun core => refusedDone c core (.records c.val) R.SYN_CTRL.last_status (synStop c)) s
/-- Commit, by register or by U.SYN. -/
def opSynCommit (c : Fin 17) (via : Via) (s : State) : State := byVia c via (fun core => synCommit c core) s

/-! ### HOLD (R219) -/

/-- HOLD begins: the run ends at the far end. -/
def synHold (i : Fin 17) (s : State) : State :=
  if !((decide (s.mode i = 3) || decide (s.mode i = 4)) && s.enabled (.records i) && decide (s.synState i = 2)) then s
  else emitAll i ⟨0, 0, false, false, true⟩ (s.setSyn i { s.syns[i] with held := true })

/-- HOLD has ended: the path stops, or resumes at the first output whose release lies 20 µs ahead. -/
def synResume (i : Fin 17) (s : State) : State :=
  let x := s.syns[i]
  if !x.held then s else
  let s := s.setSyn i { x with held := false }
  if !s.flag (.records i) R.SYN_CFG.restart_after_hold then
    let s := withdraw i s
    setSynState i 3 (s.setSyn i { s.syns[i] with poly := [], acc := [], accOvr := [], bad := [], relay := [] })
  else
    let lead := s.rd (.records i) R.SYN_LEAD.tx_lead * tickUnits
    let n := s.synNext i
    let n1 := firstAt (s.synInstant i) ((s.tim.now + lead + 20 * usUnits : Nat) : Int) 48 n
    let f1 := n1 / max 1 (s.frameH i)
    let framed := decide (s.mode i = 4) || decide (s.synSrc i = 1)
    let poly := decide (s.mode i = 3) && decide (s.synSrc i = 2)
    let m := 2 ^ s.rd (.records i) R.SYN_CFG.log2m
    -- the strips of a bond are counted anew from the new run's first sample
    let s := s.when (decide ((s.synBond i).1 ≠ 1)) (fun s => s.setSyn i { s.syns[i] with pb := [], pbFrom := n1 })
    let s := if poly then s.when (decide (n1 % m ≠ 0)) (polyStep i (n1 / m)) else dropTo i n1 s
    let x := s.syns[i]
    let s := s.setSyn i { x with
      base := n1
      relay := x.relay.filter (fun r => f1 ≤ r.f)
      prevBad := none }
    let s := s.when (framed && decide (x.nextF < f1)) (markBad i x.nextF f1 (if s.mode i = 4 then 2 else 6))
    let s := s.cnt (.records i) R.SYN_COUNTS.underrun_samples (n1 - n)
    let s := s.cnt (.records i) R.SYN_COUNTS2.hold_restarts 1
    let s := s.when (decide (n < n1)) (fun s =>
      (s.wr (.records i) R.SYN_LAST_EVENT.index n).wr (.records i) R.SYN_LAST_EVENT.cause 3)
    s.wr (.records i) R.SYN_INDEX.index n1

/-! ### Forwarding (R220) -/

/-- Slice `i` forwards its working stream. -/
def State.forwards (s : State) (i : Nat) : Bool :=
  decide (s.mode i = 1) && s.enabled (.records i) && s.flag (.records i) R.SYN_CFG.forward

/-- The forwarded run ends. -/
def forwardStop (i : Fin 17) (s : State) : State :=
  match s.syns[i].fwd with
  | none => s
  | some _ => emitAll i ⟨0, 0, false, false, true⟩ (s.setSyn i { s.syns[i] with fwd := none })

/-- A delivered output is forwarded. -/
def forwardOutput (i : Fin 17) (o : OutS) (s : State) : State :=
  if !s.forwards i then s else
  let s := if s.syns[i].fwd = some o.m ∨ s.syns[i].fwd = none then s else forwardStop i s
  let start := s.syns[i].fwd.isNone
  let s := s.when start (fun s => s.setSyn i { s.syns[i] with base := o.m })
  emitAll i ⟨o.i, o.q, o.ovr, start, false⟩ (s.setSyn i { s.syns[i] with fwd := some (o.m + 1) })

/-! ### EPOCH_OUT (R218, R289) -/

/-- The run index of the first sample of slice `i` at or after time `t`, if its run is on: in a bond, of the stream, whose rate is that of all
its members. -/
def State.epochIndex (s : State) (i : Fin 17) (t : Int) : Option Nat :=
  let x := s.syns[i]
  if s.synLive i && decide (s.synState i = 2) then
    some ((if s.mode i = 3 then
      let (a, b) := s.tOut i
      let n := (s.synBond i).1
      ceilDiv ((t - x.start).toNat * b * n) a - (n - 1) * x.base
    else firstAt (s.synInstant i) t 56 x.base) - x.base)
  else if s.forwards i && x.fwd.isSome then some (firstAt (s.synInstant i) t 56 x.base - x.base)
  else none

/-- Every running sub-stream that a slice feeds has an EPOCH block to send for the edge at `t`. -/
def txEpoch (t : Int) (s : State) : State :=
  s.each (List.finRange 17) (fun i st =>
    match st.epochIndex i t with
    | none => st
    | some e => st.each (st.syns[i].routes.filter (fun r => (st.txBond r.1 r.2).2 = 0)) (fun r st =>
      let (g, k) := st.txHome r
      st.setTxSub g k { (st.tx[g]).subs[k] with epoch := some (e % 2 ^ 48) }))

/-- An edge of the EPOCH_OUT schedule at the first tick at or after its instant. -/
def opEpochEdge (s : State) : State :=
  let nxt := ofT96 (s.rdT96 .timebase R.TB_EPOCH_NEXT.lo)
  if !(s.timeRuns && s.flag .timebase R.TB_STATUS.epoch_running && decide (nxt ≤ s.tim.now)) || s.wedged .timebase then s else
  let te := nxt + (s.tim.now - nxt) % tickUnits
  let s := s.wrT96 .timebase R.TB_EPOCH_LAST.lo (toT96 te s.quality)
  let s := s.cnt .timebase R.TB_EPOCH_COUNT.count 1
  let s := s.wrT96 .timebase R.TB_EPOCH_NEXT.lo (toT96 (nextInstant s.tim.epochAt s.tim.epochPeriod s.tim.now true) 0)
  let s := { s with pins.epochOut := true, tim := { s.tim with
    edgeAt := some te
    edgeSerial := s.tim.edgeSerial + 1
    epochEnd := s.tim.raw + s.epochWidth } }
  txEpoch te (tdcEpoch te s)

/-! ### Enable (R216, R223) -/

/-- The least latency of R216 in units, rounded up: its terms are summed exactly over a common denominator. -/
def State.relayUnits (s : State) (i : Fin 17) : Nat :=
  let hz := max 1 s.coreHz
  match s.streamOf i with
  | none => 0
  | some c =>
    let rate := s.streamRate c
    let n := s.frameN i
    let core := 12 * s.chainH i + (if s.flag (.filt i) R.FILT_CFG.fir_enable then 20 else 0)
      + (if s.chainR i = 2 then 6 else 0) + (if s.flag (.filt i) R.FILT_CFG.nco_enable then 4 else 0)
      + 2 * (n / 32 + 160) + 24
    let g := (s.syns[i].routes.headD (0, 0)).1
    let blk := alignPeriod (s.rd (.txg g) R.TXG_CFG.rate) / 16384
    let fixed : Int := s.trustValue (s.streamFe c) + (128 * 65536 + 2 * blk + s.rd (.records i) R.SYN_LEAD.tx_lead * tickUnits : Nat)
    let inp := s.chainGD i * secUnits + 256 * n * s.chainD i * secUnits
    -- inp / (256·rate) + core·sec/hz + fixed
    let num : Int := (inp * hz : Nat) + (core * secUnits * 256 * rate : Nat) + fixed * (256 * rate * hz : Nat)
    ceilDiv num.toNat (256 * rate * hz)

/-- RELAY_MIN in ticks. -/
def showRelayMin (i : Fin 17) (s : State) : State :=
  if s.mode i = 4 then s.wr (.records i) R.RELAY_CFG.relay_min (ceilDiv (s.relayUnits i) tickUnits) else s

/-- The release buffer of R216, in bytes. -/
def State.releaseBytes (s : State) (i : Fin 17) : Nat :=
  let rate := match s.streamOf i with | some c => s.streamRate c | none => 0
  let d := s.rd (.records i) R.RELAY_CFG.latency * tickUnits - s.relayUnits i
  8 * (ceilDiv (d * rate) (secUnits * s.chainD i) + 2 * s.frameH i)

/-- The synthesis path makes the slot refuse enable. -/
def State.synRefuses (s : State) (i : Fin 17) : Bool :=
  let r : Blk := .records i
  let md := s.mode i
  let src := s.synSrc i
  let badBuf := fun (base lg : Nat) => decide (lg < 12) || decide (40 < lg) || decide (base * 4096 % 2 ^ lg ≠ 0)
  let l2 := s.rd r R.SYN_CFG.log2m
  let (a, b) := s.tOut i
  -- fs_out = secUnits·b/a; R186 with o = 1
  let tooFast := fun (k lim : Nat) => decide (lim * s.coreHz * a < secUnits * b * k)
  (decide (md = 3) || decide (md = 4)) &&
    (decide (src = 3) || ((decide (md = 4) || decide (src = 1)) && !s.enabled (.filt i))
      || (decide (md = 3) && decide (src ≠ 1) && badBuf (s.rd r R.PB_BASE.base) (s.rd r R.PB_BASE.log2size))
      || (decide (md = 4) && s.flag r R.SYN_CFG.insert && badBuf (s.rd r R.INS_BASE.base) (s.rd r R.INS_BASE.log2size))
      || (decide (md = 4) && (decide (s.rd r R.RELAY_CFG.latency * tickUnits < s.relayUnits i)
        || decide (2 ^ 23 - s.rd (.core i) R.CORE_IMAGE2.data_top * 65536 < s.releaseBytes i)))
      || (decide (md = 3) && decide (src = 2) && (decide (l2 < 6) || decide (12 < l2) || tooFast (s.synT i) 128 || tooFast 1 32)))

/-- The slot is enabled: a RELAY slice starts. -/
def synEnable (i : Fin 17) (s : State) : State :=
  let x := s.syns[i]
  let s := s.setSyn i { SynSt.zero with routes := x.routes }
  let s := setSynState i 0 (showFrames i (s.wr (.records i) R.SYN_INDEX.index 0))
  if s.mode i = 4 then
    setSynState i 2 (s.setSyn i { s.syns[i] with bad := if s.frameH i < s.frameN i then [(0, s.frameN i - s.frameH i, 2)] else [] })
  else s

/-- The path has completed the caravan it is releasing, or a quiesce asked for at raw time `since` does not wait for it (R22, R223). -/
def State.synRests (s : State) (i : Fin 17) (since : Nat) : Bool :=
  !(s.synLive i && decide (s.synState i = 2)) || decide (s.synNext i = s.syns[i].base) || decide (s.synNext i % s.synCaravan i = 0)
    || decide (since + 50 * usUnits ≤ s.tim.raw)

/-- The slot has quiesced: STATUS with stop, then IDLE. -/
def synDisable (i : Fin 17) (s : State) : State :=
  let s := if s.synState i = 2 then synEnd i 3 s else withdraw i s
  let s := forwardStop i s
  setSynState i 0 (showFrames i (s.setSyn i { SynSt.zero with routes := s.syns[i].routes }))

/-! ### The commands -/

/-- SYN_START (R207): SYN_CTRL.start or U.SYN START starts a SYNTHESISE slice at t_start, or is refused. -/
def execSynStart (c : Fin 17) (via : Via) (s : State) : Host.Outcome State Fault Refusal :=
  .next (onWrite (opSynStart c via) s)
/-- START_INSTANT (R207): t_start arrives, the TXG sends STATUS start, and sample 0 is released. -/
def execStartInstant (i : Fin 17) (s : State) : Host.Outcome State Fault Refusal :=
  .next (opStartInstant i s)
/-- SYN_STOP (R208): SYN_CTRL.stop or U.SYN STOP ends the output at the next caravan boundary, or cancels a start. -/
def execSynStop (c : Fin 17) (via : Via) (s : State) : Host.Outcome State Fault Refusal :=
  .next (onWrite (opSynStop c via) s)
/-- SYN_COMMIT (R215): SYN_CTRL.commit or U.SYN COMMIT commits GAIN_STAGE for frames that begin at or after the boundary. -/
def execSynCommit (c : Fin 17) (via : Via) (s : State) : Host.Outcome State Fault Refusal :=
  .next (onWrite (opSynCommit c via) s)
/-- FRAME_SYNTHESIS (R212): The inverse transform of a queued frame starts and the frame is overlap-added, or it counts as missing. -/
def execFrameSynthesis (i : Fin 17) (res : SynthFault) (s : State) : Host.Outcome State Fault Refusal :=
  .next (opFrameSynthesis i res s)
/-- SAMPLE_RELEASE (R206): An output sample passes through the output stage and is released into emit[g] at its paced instant, as zero if it is not ready. -/
def execSampleRelease (i : Fin 17) (res : Bool) (s : State) : Host.Outcome State Fault Refusal :=
  .next (opSampleRelease i res s)
/-- PLAYBACK_FETCH (R210): 10 µs before a caravan's release its playback data is fetched, and missing data counts as underrun. -/
def execPlaybackFetch (i : Fin 17) (ok : Bool) (s : State) : Host.Outcome State Fault Refusal :=
  .next (opPlaybackFetch i ok s)
/-- PB_DOORBELL (R209): A PB_DOORBELL write publishes playback data up to produced, or is rejected as invalid. -/
def execPbDoorbell (i : Fin 17) (produced : BitVec 36) (s : State) : Host.Outcome State Fault Refusal :=
  .next (onWrite (opPbDoorbell i produced) s)
/-- EPOCH_EDGE (R289): A scheduled instant arrives; EPOCH_OUT rises, T_e is recorded and the TXGs send EPOCH blocks. -/
def execEpochEdge (s : State) : Host.Outcome State Fault Refusal :=
  .next (opEpochEdge s)

end Sys2Proof.Machine
end

