-- ==== Sys2Proof/Machine/Muster.lean ====
section
/-!
DEFINITION. Sys2Proof/Machine/Muster.lean: the muster unit and the capture of every block's snapshot registers (R39 to R44).
-/
namespace Sys2Proof.Machine
open Sys2Proof

/-- The domain a register captures in: a ferry reports on its receiving side, the line ferries' layers lie in MEM
(R19, R46). -/
def Blk.rowDom (b : Blk) (off : Nat) : Dom :=
  match b with
  | .global =>
    if off = 0x148 then .host else if off = 0x158 ∨ off = 0x160 ∨ off = 0x170 then .core
    else if off = 0x168 then .time else .hk
  | .rxg g => if off = 0xF8 then .core else .rx g
  | .dram _ => if off = 0x198 then .core else .mem
  | .dma => if off = 0x98 then .host else .core
  | b => b.dom

/-- A group without CK, or a TXG whose PLL_TX is gated, captures nothing (R80). -/
def State.captures (s : State) : Blk → Bool
  | .rxg g => s.domRuns (.rx g)
  | .txg g => s.domRuns (.tx g)
  | _ => true

/-- The words of a register row with their snapshot copies, by offset. -/
def RegRow.offsets (r : RegRow) : List (Nat × Nat) :=
  (List.range r.n).flatMap (fun k =>
    (List.range r.words.length).map (fun w => (r.off + k * r.stride + 8 * w, r.snap + k * r.snapStride + 8 * w)))

/-- Copy one row of block `b` to its snapshot, if its domain runs. -/
def captureRow (b : Blk) (r : RegRow) (s : State) : State :=
  if r.snap = 0 ∨ s.captures b = false ∨ s.domRuns (b.rowDom r.off) = false then s
  else s.each r.offsets (fun o st => st.setWord (b.base + o.2) (st.live b o.1))

/-- A block captures its snapshot registers and SNAP_SEQ (R41). -/
def captureBlk (b : Blk) (s : State) : State :=
  let s := s.each b.rows (captureRow b)
  let s := match b with
    | .core i =>
      if s.coreRuns then
        let s := s.each (List.range 248) (fun k st => st.setWord (b.base + 0x2000 + 8 * k) (st.live b (0x1000 + 8 * k)))
        let s := s.coreInt i 7
        s.wrw b 0x910 (min 7 ((s.cores[Fin.ofNat 17 i]).pipe.filter (fun (p : Pend) => p.head && !p.inter && !p.fresh)).length)
      else s
    | _ => s
  if s.domRuns b.dom then s.wr b R.SNAP_SEQ.seq (s.rd .muster R.MUSTER_SEQ.seq) else s

/-- The mask of numbers below `n` that satisfy `p`. -/
def maskOf (n : Nat) (p : Nat → Bool) : Nat :=
  (List.range n).foldl (fun m i => if p i then m + 2 ^ i else m) 0

/-- The blocks that keep a slot while the device is in STANDBY (R16). -/
def Blk.kept : Blk → Bool
  | .global | .timebase | .clocks | .housekeeping | .auth => true
  | .muster | .tdc | .placement | .trigbus | .check | .observe | .depot | .display _ | .dram _ | .dma | .dmaRings _ | .queue | .chan
  | .rxg _ | .txg _ | .core _ | .filt _ | .trig _ | .records _ => false

/-- The unit does not accept a request now (R40). -/
def State.musterRefuses (s : State) : Bool :=
  !s.flag .muster R.MUSTER_STATUS.armed || s.flag .muster R.MUSTER_STATUS.busy

/-- The request of the sources in mask `m` is declined: counted, and named in last_declined_sources (R40). -/
def declineMuster (m : Nat) (s : State) : State :=
  let s := s.cnt .muster R.MUSTER_DECLINED.count 1
  let s := s.wr .muster R.MUSTER_STATUS.last_declined_sources (Nat.lor (s.rd .muster R.MUSTER_STATUS.last_declined_sources) m)
  let s := s.when (nbit m 0) (fun s => s.wr .muster R.MUSTER_CTRL.fire 0)
  s.when (nbit m 2) (fun s => s.wr .muster R.MUSTER_CTRL.sched_arm 0)

/-- A request from the sources in mask `m` reaches the TIME domain: it is noted for the next tick, or declined (R40). While
TIME stands, requests wait (R17). -/
def requestMuster (m : Nat) (s : State) : State :=
  if s.timeRuns && s.musterRefuses then declineMuster m s
  else { s with muster.req := s.muster.req ||| BitVec.ofNat 5 m }

/-- TIME runs again: the requests that waited are accepted for the next tick, or declined one by one (R17, R40). -/
def musterWake (s : State) : State :=
  if s.timeRuns && s.musterRefuses then
    let m := s.muster.req.toNat
    let s := { s with muster := { s.muster with req := 0 } }
    s.each ((List.range 5).filter (nbit m)) (fun k st => declineMuster (2 ^ k) st)
  else s

/-- MUSTER_CTRL.fire is written 1 (R39, source 0). -/
def opMusterFire (s : State) : State := requestMuster 1 (s.wr .muster R.MUSTER_CTRL.fire 1)

/-- MUSTER_CTRL.sched_arm is written 1 (R39). -/
def opSchedArm (s : State) : State := s.wr .muster R.MUSTER_CTRL.sched_arm 1

/-- armed returns to 1 now. -/
def musterRearm (s : State) : State :=
  { (s.wr .muster R.MUSTER_STATUS.armed 1).wr .muster R.MUSTER_CTRL.rearm 0 with muster.rearm := false }

/-- MUSTER_CTRL.rearm is written 1: at once, or when busy clears (R43). -/
def opRearm (s : State) : State :=
  if s.flag .muster R.MUSTER_STATUS.busy then { s.wr .muster R.MUSTER_CTRL.rearm 1 with muster.rearm := true }
  else musterRearm s

/-- An edge on MUSTER_IN (R39, source 1). -/
def opMusterInEdge (falling : Bool) (s : State) : State :=
  if s.flag .muster R.MUSTER_CTRL.in_enable && (s.flag .muster R.MUSTER_CTRL.in_edge == falling) && s.timeRuns
  then requestMuster 2 s else s

/-- The time reaches MUSTER_SCHED_T96 while the scheduled muster is armed (R39, source 2). -/
def opScheduledMuster (s : State) : State :=
  if s.flag .muster R.MUSTER_CTRL.sched_arm && s.timeRuns
    && decide (ofT96 (s.rdT96 .muster R.MUSTER_SCHED_T96.lo) ≤ s.tim.now)
  then requestMuster 4 s else s

/-- A fatal event requests a muster (R39, source 3). -/
def musterFatal (s : State) : State := if s.flag .muster R.MUSTER_CTRL.fatal_enable then requestMuster 8 s else s

/-- The trigger of slice `i` requests a muster (R39, source 4). -/
def musterTrig (i : Nat) (s : State) : State :=
  if s.flag .muster R.MUSTER_CTRL.trig_enable && decide (s.rd .muster R.MUSTER_CTRL.trig_slice = i) then requestMuster 16 s
  else s

/-- The domains that miss a muster, in the bit order of MUSTER_STATUS. -/
def State.missedDomains (s : State) : Nat :=
  maskOf 6 (fun i => !s.domRuns (match i with
    | 0 => .core | 1 => .mem | 2 => .host | 3 => .hk | 4 => .pix 0 | _ => .pix 1))

/-- The lane groups that miss a muster: RXG in [15:0], TXG in [31:16]. -/
def State.missedLinks (s : State) : Nat :=
  maskOf 32 (fun i => !s.domRuns (if i < 16 then .rx i else .tx (i - 16)))

/-- At t0: the strobe, the number, the time, and every block's capture (R40 to R44). STANDBY power-gates the unit (R16, R392). -/
def opMuster (s : State) : State :=
  if s.muster.req = 0 ∨ s.timeRuns = false ∨ s.dev = .standby then s else
  let src := s.muster.req.toNat
  let s := { s with muster := { s.muster with req := 0 } }
  let s := (s.wr .muster R.MUSTER_STATUS.busy 1).wr .muster R.MUSTER_STATUS.armed 0
  let s := s.wr .muster R.MUSTER_SEQ.seq (s.rd .muster R.MUSTER_SEQ.seq + 1)
  let s := s.wr .muster R.MUSTER_STATUS.last_sources src
  let s := s.when (nbit src 0) (fun s => s.wr .muster R.MUSTER_CTRL.fire 0)
  let s := s.when (nbit src 2) (fun s => s.wr .muster R.MUSTER_CTRL.sched_arm 0)
  let s := s.wrT96 .muster R.MUSTER_T96.lo s.nowT96
  let s := s.wr .muster R.MUSTER_BOUND.bound s.bTb
  let s := s.wr .muster R.MUSTER_STATUS.missed_domains s.missedDomains
  let s := s.wr .muster R.MUSTER_STATUS.missed_link (if s.missedLinks = 0 then 0 else 1)
  let s := s.wr .muster R.MUSTER_MISSED_LINK.rxg s.missedLinks
  let s := s.wr .muster R.MUSTER_MISSED_LINK.txg (s.missedLinks / 2 ^ 16)
  let s := s.when (s.flag .muster R.MUSTER_CTRL.out_enable) (fun s => { s with pins.musterOut := true })
  obsMuster (s.each Blk.all captureBlk)

/-- 64 ticks after t0 (R43). -/
def opBusyClear (s : State) : State :=
  if !s.flag .muster R.MUSTER_STATUS.busy then s else
  let s := s.wr .muster R.MUSTER_STATUS.busy 0
  if s.flag .muster R.MUSTER_CTRL.auto_rearm || s.muster.rearm then musterRearm s else s

/-- The MUSTER_OUT pulse ends (R44). -/
def opMusterOutEnd (s : State) : State := { s with pins.musterOut := false }

/-! ### The commands -/

/-- MUSTER_FIRE (R39): MUSTER_CTRL.fire requests a muster, which is declined if the unit is unarmed or busy. -/
def execMusterFire (s : State) : Host.Outcome State Fault Refusal :=
  .next (onWrite opMusterFire s)
/-- MUSTER_IN_EDGE (R39): An edge on MUSTER_IN of the configured polarity requests a muster. -/
def execMusterInEdge (falling : Bool) (s : State) : Host.Outcome State Fault Refusal :=
  .next (opMusterInEdge falling s)
/-- SCHED_ARM (R39): MUSTER_CTRL.sched_arm arms the scheduled muster. -/
def execSchedArm (s : State) : Host.Outcome State Fault Refusal :=
  .next (onWrite opSchedArm s)
/-- SCHEDULED_MUSTER (R39): The TIME tick reaches MUSTER_SCHED_T96 and the scheduled muster is requested. -/
def execScheduledMuster (s : State) : Host.Outcome State Fault Refusal :=
  .next (opScheduledMuster s)
/-- MUSTER (R43): At t0 the strobe is issued, busy is set, MUSTER_SEQ advances, and every running block captures its snapshot registers. -/
def execMuster (s : State) : Host.Outcome State Fault Refusal :=
  .next (opMuster s)
/-- BUSY_CLEAR (R43): 64 ticks after t0 busy clears, and armed returns to 1 if auto_rearm is set or a rearm is waiting. -/
def execBusyClear (s : State) : Host.Outcome State Fault Refusal :=
  .next (opBusyClear s)
/-- REARM (R43): MUSTER_CTRL.rearm returns armed to 1, deferred until busy clears. -/
def execRearm (s : State) : Host.Outcome State Fault Refusal :=
  .next (onWrite opRearm s)
/-- MUSTER_OUT_END (R44): The 8-tick MUSTER_OUT pulse ends. -/
def execMusterOutEnd (s : State) : Host.Outcome State Fault Refusal :=
  .next (opMusterOutEnd s)

end Sys2Proof.Machine
end

