-- ==== Sys2Proof/Machine/Trig.lean ====
section
/-!
DEFINITION. Sys2Proof/Machine/Trig.lean: the trigger unit of a slice (R124 to R158): conditions, combiner, arming, candidates,
event records and the log; and the TRIG_OUT pins (R147).
-/
namespace Sys2Proof.Machine
open Sys2Proof

/-- Replace the trigger unit of slice `i`. -/
def State.setTrig (s : State) (i : Fin 17) (t : TrigSt) : State := { s with trigs := s.trigs.set i t }

/-! ### Active terms (R126, R136) -/

/-- Active term `t` of slice `i`: required and negated masks. -/
def State.term (s : State) (i t : Nat) : Nat × Nat := (s.rd (.trig i) (R.TERM.req t), s.rd (.trig i) (R.TERM.neg t))

/-- The conditions a list of terms references. -/
def termMask (l : List (Nat × Nat)) : Nat := l.foldl (fun m x => Nat.lor m (Nat.lor x.1 x.2)) 0

/-- The conditions an active term references. -/
def State.refMask (s : State) (i : Nat) : Nat :=
  (List.range 4).foldl (fun m t => Nat.lor m (Nat.lor (s.term i t).1 (s.term i t).2)) 0

/-- The conditions referenced now, or by terms that a commit has put in force at an index not yet evaluated (R144). -/
def State.refAhead (s : State) (i : Fin 17) : Nat :=
  let m := Nat.lor (s.refMask i) (termMask (s.chains[i].terms.getD []))
  s.trigs[i].axis.foldl (fun m p => Nat.lor m (termMask (p.terms.getD []))) m

/-- Condition `c` is an event condition of slice `i` (R124). -/
def State.isEvent (s : State) (i c : Nat) : Bool :=
  let b : Blk := .trig i
  if c < 4 then decide (s.rd b (R.TD_CFG.type c) ≠ 0)
  else if c < 6 then decide (2 ≤ s.rd b (R.FM_CFG.mode (c - 4)))
  else if c < 8 then decide (2 ≤ s.rd b (R.DN_CFG.mode (c - 6)))
  else true

/-! ### TRIG_OUT (R147) -/

/-- A field of the TRIG_OUT_CFG[j] in force: a write takes effect at the next TIME tick. -/
def State.outCfg (s : State) (j : Fin 4) (f : Nat → Fld) : Nat := (f j).get (BitVec.ofNat 64 s.tbus.outCfg[j])

/-- Drive TRIG_OUT[j] active or inactive. -/
def driveOut (j : Fin 4) (on : Bool) (s : State) : State :=
  { s with pins.trigOut := s.pins.trigOut.set j (on != decide (s.outCfg j R.TRIG_OUT_CFG.polarity ≠ 0)) }

/-- TRIG_OUT[j] is driven active. -/
def State.outActive (s : State) (j : Fin 4) : Bool := s.pins.trigOut[j] != decide (s.outCfg j R.TRIG_OUT_CFG.polarity ≠ 0)

/-- The fast line of detector `k` of slice `i` is high: the qualified state, or the pulse of an edge event (R129). -/
def State.fastLine (s : State) (i : Fin 17) (k : Fin 4) : Bool :=
  s.trigs[i].fast[k] || (match s.trigs[i].fastUntil[k] with
    | some t => decide (s.tim.raw < t)
    | none => false)

/-- The level TRIG_OUT[j] follows, if its source is followed as a level. -/
def State.outLevel (s : State) (j : Fin 4) : Option Bool :=
  let c := s.outCfg j
  let lvl := decide (c R.TRIG_OUT_CFG.level_mode ≠ 0)
  match c R.TRIG_OUT_CFG.source with
  | 2 => if lvl then some (s.dev != .hold && s.fastLine (Fin.ofNat 17 (c R.TRIG_OUT_CFG.slice)) (Fin.ofNat 4 (c R.TRIG_OUT_CFG.index))) else none
  | 4 => if lvl then some (s.tbus.inLevel[Fin.ofNat 4 (c R.TRIG_OUT_CFG.index)]) else none
  | 5 => some (decide (c R.TRIG_OUT_CFG.sw_level ≠ 0))
  | _ => none

/-- TRIG_OUT[j] is held inactive for a tick. -/
def State.outHeld (s : State) (j : Fin 4) : Bool :=
  match s.tbus.outHold[j] with
  | some t => decide (s.tim.raw < t + tickUnits)
  | none => false

/-- Bring TRIG_OUT[j] to its level, unless it is held inactive for a tick or pulses. -/
def refreshOut (j : Fin 4) (s : State) : State :=
  if s.outHeld j then s
  else
    let s := { s with tbus.outHold := s.tbus.outHold.set j none }
    match s.outLevel j with
    | some l => driveOut j l s
    | none => driveOut j (s.tbus.outEnd[j]).isSome s

/-- An occurrence drives TRIG_OUT[j] for its width; during the inactive tick of a change the pin waits for its end. -/
def pulseOut (j : Fin 4) (s : State) : State :=
  let w := max 1 (s.outCfg j R.TRIG_OUT_CFG.width)
  let s := { s with tbus.outEnd := s.tbus.outEnd.set j (some (s.tim.raw + w * tickUnits)) }
  if s.outHeld j then s else driveOut j true s

/-- An occurrence of a source, of a slice (sources 1, 2) and with an index (sources 2 to 4). -/
def outOccurs (src slice index : Nat) (s : State) : State :=
  if !s.timeRuns || (decide (s.dev = .hold) && decide (src < 4)) then s else
  s.each (List.finRange 4) (fun j st =>
    let c := st.outCfg j
    let lvl := decide (c R.TRIG_OUT_CFG.level_mode ≠ 0)
    if c R.TRIG_OUT_CFG.source = src ∧ (src = 1 ∨ c R.TRIG_OUT_CFG.index = index) ∧ (2 < src ∨ c R.TRIG_OUT_CFG.slice = slice)
        ∧ (lvl = false ∨ src = 1 ∨ src = 3) then pulseOut j st else st)

/-- Every pin that follows a level follows it. -/
def refreshOuts (s : State) : State :=
  if !s.timeRuns then s else s.each (List.finRange 4) (fun j st => if (st.outLevel j).isSome then refreshOut j st else st)

/-- Detector `k` of slice `i` drives its fast line (R129): the qualified state, or a pulse for an edge event, one TIME tick long (log 36). -/
def setFast (i : Fin 17) (k : Fin 4) (v edge : Bool) (s : State) : State :=
  let t := s.trigs[i]
  if edge then
    let s := s.setTrig i { t with fastUntil := t.fastUntil.set k (some (s.tim.raw + tickUnits)) }
    refreshOuts (outOccurs 2 i.val k.val s)
  else if t.fast[k] == v then s
  else
    let s := s.setTrig i { t with fast := t.fast.set k v }
    refreshOuts (if v then outOccurs 2 i.val k.val s else s)

/-! ### Reports on their way to the combiner (R125, R126) -/

/-- An event joins the current index late. -/
def lateEvent (i : Fin 17) (r : Report) (s : State) : State :=
  let s := s.cnt (.trig i) R.TRIG_COUNTS2.late_events 1
  s.setTrig i { s.trigs[i] with now := s.trigs[i].now ++ [{ r with late := true }] }

/-- A report of an aligned condition reaches the combiner. -/
def pushReport (i : Fin 17) (r : Report) (s : State) : State :=
  let t := s.trigs[i]
  let done := match t.doneTo with
    | some d => decide (r.key < d)
    | none => false
  let full := decide (64 ≤ (t.reports.filter (·.event)).length)
  if r.event && (done || full) then lateEvent i r s
  else if done then s.setTrig i { t with now := t.now ++ [r] }
  else s.setTrig i { t with reports := t.reports ++ [r] }

/-- A report of an immediate condition joins the next index. -/
def pushNow (i : Fin 17) (r : Report) (s : State) : State :=
  s.setTrig i { s.trigs[i] with now := s.trigs[i].now ++ [r] }

/-- A report with nothing but its condition and times. -/
def Report.at_ (c : Nat) (event val : Bool) (key inst : Int) : Report :=
  ⟨c, event, val, key, inst, false, false, false, 0xFFFF, 0, 0, 0, false, 0⟩

/-! ### Time-domain detectors (R128, R142) -/

/-- The value of source `src`: I, Q, or the envelope. -/
def tdValue (src : Nat) (x q : Int) : Int :=
  match src with
  | 0 => x
  | 1 => q
  | _ => min (isqrt (x * x + q * q).toNat : Int) (2 ^ 23 - 1)

/-- The crossing between the last sample and this one at time `t` (R142); T = `num`/`den` units. -/
def tdCross (thr v : Int) (prev : Option (Int × Int)) (interp : Bool) (t : Int) (num den : Nat) (s : State) : (Int × Bool) × State :=
  match prev, interp with
  | some (pv, pt), true =>
    -- φ in 2^-16; v[n] = v[n−1] states no quotient: a free value in [0, 1]
    let (z, s) := if v = pv then s.free 60 else (0, s)
    let phi : Int := if v = pv then z % 65537
      else max 0 (min 65536 (if pv < v then rneDiv ((thr - pv) * 65536) (v - pv).toNat else rneDiv ((pv - thr) * 65536) (pv - v).toNat))
    ((rneDiv (pt * (65536 * den : Nat) + phi * num) (65536 * den), true), s)
  | _, _ => ((t, false), s)

/-- A sample as a detector sees it: components, overrange, a residue error that touches it, time, quality, timebase bound there. -/
structure TdIn where
  x : Int
  q : Int
  ovr : Bool
  res : Bool
  t : Int
  qual : Nat
  tb : Nat
  deriving DecidableEq, Repr

/-- A sample reaches detector `k` of slice `i`; its period is `num`/`den` units. The state is followed whether or not a term references
the detector, and so are the reports of a level. -/
def tdSample (i : Fin 17) (k : Fin 4) (z : TdIn) (num den : Nat) (s : State) : State :=
  let b : Blk := .trig i
  let t := z.t
  let c := fun (f : Nat → Fld) => s.rd b (f k)
  let src := c R.TD_CFG.source
  let dec := fun (n : Nat) => if src = 2 then (n : Int) else signed 24 n
  let thr := dec (c R.TD_THR.thr)
  let thr2 := dec (c R.TD_THR.thr2)
  let hy : Int := c R.TD_CFG.hyst
  let below := decide (c R.TD_CFG.polarity = 1)
  let ty := c R.TD_CFG.type
  let v := tdValue src z.x z.q
  let res := z.res && decide (src = 2)
  let d := s.trigs[i].td[k]
  let raw := if below then (if d.raw then !decide (thr + hy < v) else decide (v ≤ thr))
    else (if d.raw then !decide (v < thr - hy) else decide (thr ≤ v))
  let rise := raw && !d.raw
  let ((cr, ip), s) := if rise then tdCross thr v d.prev (decide (c R.TD_CFG.type < 4) && s.flag b R.TRIG_CFG.interp && !d.fresh) t num den s
    else ((d.cross, d.interp), s)
  let run := if raw then (if d.raw then d.run + 1 else 1) else 0
  let hit := if below then decide (v ≤ thr2) else decide (thr2 ≤ v)
  let reached := if raw then (if rise then hit else d.reached || hit) else false
  let qual := raw && decide (c R.TD_CFG.dur < run)
  let edge := qual && !d.qual && !d.fresh
  let w := d.run
  let inW := decide (c R.TD_WIDTH.wmin ≤ w) && decide (w ≤ c R.TD_WIDTH.wmax)
  let fall := d.raw && !raw && inW && (decide (ty = 2) || !d.reached)
  let ovr := z.ovr || (raw && d.raw && d.ovr)
  let rs := res || (raw && d.raw && d.res)
  let cb := if rise then z.tb else d.cb
  let d' : TdSt := ⟨raw, run, cr, cb, ip, reached, qual, false, some (v, t), raw && ovr, raw && rs⟩
  let s := s.setTrig i { s.trigs[i] with td := s.trigs[i].td.set k d' }
  let fast := s.flag b (R.TD_CFG.fast k) && decide (c R.TD_CFG.tap = 0)
  let s := if fast && decide (ty = 0) then setFast i k qual false s
    else if fast && decide (ty = 1) && edge then setFast i k false true s else s
  let rep := fun (ev val : Bool) => { Report.at_ k.val ev val t cr with ovr := ovr, interp := ip, qual := z.qual, res := rs, tb := cb }
  if ty = 0 then (if qual == d.qual then s else pushReport i (rep false qual) s)
  else if !nbit (s.refAhead i) k then s
  else if ty = 1 then (if edge then pushReport i (rep true true) s else s)
  else if fall then
    pushReport i { rep true true with inst := d.cross, interp := d.interp, ovr := z.ovr || d.ovr, res := res || d.res, tb := d.cb } s
  else s

/-- The resets of R127 on the detectors of one tap; a state that was true ends at time `t`. -/
def tdReset (i : Fin 17) (tap : Nat) (t : Int) (s : State) : State :=
  s.each (List.finRange 4) (fun k st =>
    if st.rd (.trig i) (R.TD_CFG.tap k) ≠ tap then st else
    let d := st.trigs[i].td[k]
    let st := st.setTrig i { st.trigs[i] with td := st.trigs[i].td.set k .zero }
    let st := st.when (st.flag (.trig i) (R.TD_CFG.fast k) && decide (tap = 0)) (setFast i k false false)
    if d.qual && decide (st.rd (.trig i) (R.TD_CFG.type k) = 0) then pushReport i (Report.at_ k.val false false t t) st else st)

/-! ### Frequency masks (R130, R131) -/

/-- Mask entry of position `p`: lower and upper; none where an uncorrectable error hits its word. -/
def State.maskEntry (s : State) (i : Fin 17) (laddr p : Nat) : Option (Int × Int) :=
  let a := (8 * laddr + 4 * p) % 2 ^ 23
  if SMap.get noBad s.mem.lmemBad[i] (a / 8 * 8) then none
  else
    let w := memNat s.mem.lmem[i] a 4
    some (signed 16 w, signed 16 (w / 65536))

/-- Violation bits of a frame and its largest excess: position and excess, from position `p`. -/
def fmScan (hyst : Int) : List Int → List (Int × Int) → List Bool → Nat → (Nat × Int) → List Bool × (Nat × Int)
  | pw :: pws, (lo, up) :: es, prev, p, best =>
    let was := prev.headD false
    let b := if was then decide (up - hyst < pw) || decide (pw < lo + hyst) else decide (up < pw) || decide (pw < lo)
    let best := if p = 0 ∨ best.2 < pw - up then (p, pw - up) else best
    let (r, best) := fmScan hyst pws es prev.tail (p + 1) best
    (b :: r, best)
  | _, _, _, _, best => ([], best)

/-- An error in the mask of `n` entries at `laddr` (R158, R318): the frame keeps the states of the one before and produces no event. -/
def maskError (i : Fin 17) (laddr n : Nat) (s : State) : State :=
  residueError i 2 ((checkRead (.lmem i) (8 * laddr % 2 ^ 23) (4 * n) 1 s).fault (.trig i) R.TRIG_FAULT.mask_ecc)

/-- Frame `fr` reaches mask `k`, whose entries start at `laddr`. A frame before it that was missing, or not evaluated because no term
referenced the mask, resets the mask first (R127). -/
def fmFrame (i : Fin 17) (k : Fin 2) (laddr : Nat) (fr : Frame) (s : State) : State :=
  let b : Blk := .trig i
  let d := s.trigs[i].fm[k]
  let d := if fr.f ≠ 0 ∧ d.last = some (fr.f - 1) then { d with last := some fr.f } else { FmSt.zero with last := some fr.f }
  let s := s.setTrig i { s.trigs[i] with fm := s.trigs[i].fm.set k d }
  let es := (List.range fr.pw.length).map (s.maskEntry i laddr)
  if es.any (·.isNone) then maskError i laddr es.length s else
  let es := es.map (fun e => e.getD (0, 0))
  let (viol, best) := fmScan (s.rd b (R.FM_CFG.hyst k)) fr.pw es d.viol 0 (0, 0)
  let n := (viol.filter id).length
  let bad := decide (s.rd b (R.FM_CFG.min_bins_m1 k) < n)
  let dur := s.rd b (R.FM_CFG.dur k)
  let vrun := if bad then d.vrun + 1 else 0
  let crun := if bad then 0 else d.crun + 1
  -- the run of violated or of clear frames this frame belongs to: its first frame's centre, its flags
  let first := decide (vrun + crun = 1)
  let runT := if first then fr.tc else d.runT
  let runB := if first then fr.ib else d.runB
  let ovr := fr.ovr || (!first && d.ovr)
  let res := nbit fr.fl 6 || (!first && d.res)
  let qv := decide (dur < vrun)
  let qc := decide (dur < crun)
  let ex := sat 16 best.2
  let s := ((s.wr b (R.FM_PEAK.position k) best.1).wri b (R.FM_PEAK.excess k) ex).wr b (R.FM_PEAK.violated k) n
  let s := s.setTrig i { s.trigs[i] with fm := s.trigs[i].fm.set k ⟨some fr.f, viol, vrun, crun, runT, runB, ovr, res, qv, qc, false⟩ }
  let rep := fun (ev val : Bool) =>
    { Report.at_ (4 + k.val) ev val fr.tc runT with ovr := ovr, pos := best.1, excess := ex, qual := fr.qual, res := res, tb := runB }
  match s.rd b (R.FM_CFG.mode k) with
  | 0 => pushReport i (rep false qv) s
  | 1 => pushReport i (rep false qc) s
  | 2 => if qv && !d.qv && !d.fresh then pushReport i (rep true true) s else s
  | _ => if qc && !d.qc && !d.fresh then pushReport i (rep true true) s else s

/-! ### Density windows (R132) -/

/-- Frame `fr` reaches density window `k` with threshold `thr`; `skip` = frames before it are missing (R127), `bad` = a mismatch in the
window's sums (R158). The window follows every frame; it reports, and shows its sum, while `on`. -/
def dnFrame (i : Fin 17) (k : Fin 2) (thr : Nat) (skip bad on : Bool) (fr : Frame) (s : State) : State :=
  let b : Blk := .trig i
  let c := fun (f : Nat → Fld) => s.rd b (f k)
  let plane := c R.DN_CFG.plane
  let cols := (List.range (c R.DN_CFG.col1 + 1)).drop (c R.DN_CFG.col0)
  let cmax := s.rd (.records i) (R.DENS_CFG.cols_m1 plane)
  let h := (cols.filter (fun col => decide (col ≤ cmax) && (let y := s.densRow i plane fr col
    decide (c R.DN_CFG.row0 ≤ y) && decide (y ≤ c R.DN_CFG.row1)))).length
  let kk := c R.DN_CFG.k_m1 + 1
  let d := if skip then .zero else s.trigs[i].dn[k]
  let hs := ((h, fr.ovr, bad || nbit fr.fl 6) :: d.hs).take (kk + 1)
  let sum := fun (l : List (Nat × Bool × Bool)) => if l.length < kk then none else some (((l.take kk).map (·.1)).sum)
  let now := sum hs
  let before := sum d.hs
  let s := s.setTrig i { s.trigs[i] with dn := s.trigs[i].dn.set k ⟨hs⟩ }
  if !on then s else
  let s := (s.wr b (R.DN_SUM.sum k) (now.getD 0)).wr b (R.DN_SUM.defined k) (bit now.isSome)
  let used := hs.take kk
  let rep := fun (ev val : Bool) => { Report.at_ (6 + k.val) ev val fr.tc fr.tc with
    ovr := used.any (·.2.1), qual := fr.qual, res := used.any (·.2.2), tb := fr.ib }
  let ge := fun (o : Option Nat) => match o with | some x => decide (thr ≤ x) | none => false
  let lt := fun (o : Option Nat) => match o with | some x => decide (x < thr) | none => false
  match c R.DN_CFG.mode with
  | 0 => pushReport i (rep false (ge now)) s
  | 1 => pushReport i (rep false (lt now)) s
  | 2 => if ge now && lt before then pushReport i (rep true true) s else s
  | _ => if lt now && ge before then pushReport i (rep true true) s else s

/-- A formed frame reaches the conditions of the slice that leads; `bad` = a mismatch in the density sums. -/
def trigFrame (i : Fin 17) (job : FrameJob) (fr : Frame) (bad : Bool) (s : State) : State :=
  if !s.enabled (.trig i) then s else
  let t := s.trigs[i]
  let skip := match t.lastFrame with
    | some f => decide (f + 1 ≠ fr.f)
    | none => true
  let ref := s.refAhead i
  let s := s.setTrig i { t with lastFrame := some fr.f, frameAt := t.frameAt ++ [(fr.f, fr.tc)] }
  let s := s.when (nbit ref 4) (fmFrame i 0 job.st.fm.1 fr)
  let s := s.when (nbit ref 5) (fmFrame i 1 job.st.fm.2 fr)
  let s := dnFrame i 0 job.st.dn.1 skip bad (nbit ref 6) fr s
  dnFrame i 1 job.st.dn.2 skip bad (nbit ref 7) fr s

/-- The first frame formed after one was skipped: the detectors are reset at its centre (R127). -/
def resetSkipped (i : Fin 17) (t : Int) (s : State) : State :=
  if !s.trigs[i].skipped then s else tdReset i 0 t (tdReset i 1 t (s.setTrig i { s.trigs[i] with skipped := false }))

/-! ### Arming (R139) -/

/-- The arm state of slice `i`. -/
def State.arm (s : State) (i : Fin 17) : Nat := s.rd (.trig i) R.TRIG_STATUS.arm_state

/-- Set the arm state; the members of a gang show the lead's (R145). -/
def setArm (i : Fin 17) (a : Nat) (s : State) : State :=
  let s := s.wr (.trig i) R.TRIG_STATUS.arm_state a
  if s.gangG i = 1 then s
  else s.each (List.range 17) (fun j st =>
    if st.gangG j = st.gangG i ∧ st.rd (.filt j) R.XF_GANG.lead_slice = i.val then st.wr (.trig j) R.TRIG_STATUS.arm_state a else st)

/-- A command of TRIG_CTRL has ended with a status. -/
def trigStatus (i : Fin 17) (cmd status : Nat) (s : State) : State :=
  (s.wr (.trig i) R.TRIG_CTRL.last_cmd cmd).wr (.trig i) R.TRIG_CTRL.last_status status

/-- The state becomes DISARMED; a disarm that waited is done. -/
def disarmNow (i : Fin 17) (s : State) : State :=
  let d := s.trigs[i].disarm
  let s := setArm i 0 (s.setTrig i { s.trigs[i] with disarm := false, preFrom := none })
  s.when (d && decide (s.rd (.trig i) R.TRIG_CTRL.last_cmd = 2)) (trigStatus i 2 0)

/-- A caravan boundary of the axis at index `m` (unit `u` of the captured stream). -/
def armBoundary (i : Fin 17) (u : Nat) (s : State) : State :=
  let t := s.trigs[i]
  match s.arm i with
  | 1 => if t.disarm then disarmNow i s else setArm i 2 (s.setTrig i { t with preFrom := some u })
  | 2 => if t.disarm then disarmNow i s else if t.preFrom.isNone then s.setTrig i { t with preFrom := some u } else s
  | 5 => setArm i 2 (s.setTrig i { t with preFrom := some u })
  | _ => s

/-- HOLDOFF ends at the first evaluated index whose time reaches the deadline. -/
def holdoffEnd (i : Fin 17) (t : Int) (s : State) : State :=
  let x := s.trigs[i]
  if s.arm i = 4 ∧ x.trigT + s.rd (.trig i) R.TRIG_HOLDOFF.holdoff * tickUnits ≤ t then
    if s.flag (.trig i) R.TRIG_CFG.auto_rearm && !x.disarm then setArm i 5 s else disarmNow i s
  else s

/-- The state of the slot lets commands act: it is enabled, the CORE clock runs, and in a gang it is the lead's (R145). -/
def State.trigLive (s : State) (i : Fin 17) : Bool := s.enabled (.trig i) && s.coreRuns && s.leads i

/-- Arm (R139). -/
def trigArm (i : Fin 17) (s : State) : State :=
  if !s.trigLive i then trigStatus i 1 2 s
  else
    let s := if s.arm i = 0 then setArm i 1 (s.setTrig i { s.trigs[i] with disarm := false }) else s
    trigStatus i 1 0 s

/-- Disarm (R139): at the next boundary, or once POST has ended. -/
def trigDisarm (i : Fin 17) (s : State) : State :=
  if !s.trigLive i then trigStatus i 2 2 s
  else
    let later := trigStatus i 2 1 (s.setTrig i { s.trigs[i] with disarm := true })
    match s.arm i with
    | 0 => trigStatus i 2 0 s
    | 1 | 2 | 3 => later
    | _ => trigStatus i 2 0 (disarmNow i s)

/-- A SOFT event (R135). -/
def trigForce (i : Fin 17) (s : State) : State :=
  if !s.trigLive i then trigStatus i 3 2 s
  else trigStatus i 3 0 (if nbit (s.refAhead i) 14 then pushNow i (Report.at_ 14 true true 0 0) s else s)

/-- Commit of the staging registers (R144). -/
def trigCommit (i : Fin 17) (byCore : Bool) (s : State) : State :=
  let s := (s.wr (.trig i) R.TRIG_CTRL.commit 1).wr (.trig i) R.TRIG_STATUS.commit_pending 1
  let s := s.when byCore (fun s => s.setChain i { s.chains[i] with byCore := Nat.lor s.chains[i].byCore 8 })
  trigStatus i 4 1 s

/-- The TIMER event fires (R135): late when its instant was already past. -/
def timerFire (i : Fin 17) (late : Bool) (s : State) : State :=
  let t : Int := ofT96 (s.rdT96 (.trig i) R.TIMER_T96.lo)
  let s := (s.wr (.trig i) R.TRIG_CTRL.timer_arm 0).wr (.trig i) R.TRIG_STATUS.timer_pending 0
  let s := s.when (decide (s.rd (.trig i) R.TRIG_CTRL.last_cmd = 5)) (trigStatus i 5 0)
  if !nbit (s.refAhead i) 15 then s else
  let r := { Report.at_ 15 true true t t with qual := s.quality, tb := s.bTb }
  if late then lateEvent i r s else pushReport i r s

/-- TRIG_CTRL.timer_arm. -/
def timerArm (i : Fin 17) (s : State) : State :=
  if !s.trigLive i then trigStatus i 5 2 s
  else
    let s := (s.wr (.trig i) R.TRIG_CTRL.timer_arm 1).wr (.trig i) R.TRIG_STATUS.timer_pending 1
    let s := trigStatus i 5 1 s
    if ofT96 (s.rdT96 (.trig i) R.TIMER_T96.lo) ≤ s.tim.now then timerFire i true s else s

/-- The chain reaches a caravan boundary: a pending commit takes effect (R144); the terms it puts in force at the axis. -/
def trigBoundary (i : Fin 17) (s : State) : State × Option (List (Nat × Nat)) :=
  let b : Blk := .trig i
  if !(s.enabled b && s.flag b R.TRIG_CTRL.commit) then (s, none)
  else
    let s := s.each (List.range 4) (fun k st => (st.wr b (R.TD_THR.thr k) (st.rd b (R.TD_THR_STAGE.thr k))).wr b (R.TD_THR.thr2 k)
      (st.rd b (R.TD_THR_STAGE.thr2 k)))
    let s := s.each (List.range 2) (fun k st => (st.wr b (R.FM_ACTIVE.laddr k) (st.rd b (R.FM_STAGE.laddr k))).wr b (R.DN_THR.thr k)
      (st.rd b (R.DN_THR_STAGE.thr k)))
    let s := (s.wr b R.TRIG_CTRL.commit 0).wr b R.TRIG_STATUS.commit_pending 0
    let s := s.when (decide (s.rd b R.TRIG_CTRL.last_cmd = 4)) (trigStatus i 4 0)
    (commitDone i 3 true s, some ((List.range 4).map (fun t => (s.rd b (R.TERM_STAGE.req t), s.rd b (R.TERM_STAGE.neg t)))))

/-- The staged terms become active. -/
def loadTerms (i : Fin 17) (l : List (Nat × Nat)) (s : State) : State :=
  s.each (List.range 4) (fun t st => let x := l.getD t (0, 0); (st.wr (.trig i) (R.TERM.req t) x.1).wr (.trig i) (R.TERM.neg t) x.2)

/-! ### Bound and masks of a candidate (R137, R142, R143) -/

/-- ⌈(n·T_w + 0.5 ns) / 0.25 ns⌉ for working periods; `d` input periods make one. -/
def State.boundTerm (s : State) (i : Fin 17) (n d : Nat) : Nat :=
  let rate := match s.streamOf i with | some c => s.streamRate c | none => 1
  ceilDiv (4000000000 * n * d) rate + 2

/-- The error bound of a candidate of cause `c`. -/
def State.candBound (s : State) (i : Fin 17) (r : Report) (p : AxisPt) : Nat :=
  let d := s.chainD i
  let v :=
    if r.cond < 4 then r.tb + s.boundTerm i 1 (if s.flag (.trig i) (R.TD_CFG.tap r.cond) then d else 1)
    else if r.cond < 8 then r.tb + s.boundTerm i (s.frameN i / 2 + 1) d
    else if r.cond < 12 then r.tb + (if r.line = 1 then 6 else 40)
    else if r.cond < 14 then r.tb + 20 * (s.rd .trigbus R.TBUS_CFG.bus_mode + 1) + s.rd .trigbus (R.TBUS_LINE.unc r.line)
      + s.rd .trigbus R.TBUS_SKEW.unc
    else if r.cond = 14 then p.bound + s.boundTerm i 1 d
    else r.tb
  min 0xFFFF v

/-- The terms true for a mask of true conditions. -/
def State.termsTrue (s : State) (i : Nat) (truth : Nat) : List Nat :=
  (List.range 4).filter (fun t =>
    let (r, n) := s.term i t
    decide (Nat.lor r n ≠ 0) && decide (Nat.land r truth = r) && decide (Nat.land n truth = 0))

/-! ### Event records and the log (R154, R155) -/

/-- An entry of TRIG_LOG. -/
def putLog (i : Fin 17) (k : Nat) (t2 : T96) (bound mask cause flags arm number m : Nat) (s : State) : State :=
  let w := leNat (leBytes 12 t2.toNat ++ leBytes 2 bound ++ leBytes 2 mask ++ leBytes 1 cause ++ leBytes 1 flags ++ leBytes 1 arm
    ++ zeros 1 ++ leBytes 4 number ++ leBytes 8 m)
  s.each (List.range 4) (fun n st => st.wrw (.trig i) (0x2000 + 32 * k + 8 * n) (w / 2 ^ (64 * n) % 2 ^ 64))

/-- An event record whose bus requests are all answered is completed (R152, R154). -/
def eventAnswered (i : Fin 17) (e : PendEvent) (s : State) : State :=
  let nak := bit (decide (e.refused ≠ 0)) * 4
  let pl := e.body.payload
  let fl := (pl.getD 1 0).toNat
  let pl := (pl.set 1 (BitVec.ofNat 8 (Nat.lor fl nak))).set 29 (BitVec.ofNat 8 e.refused)
  let a := 0x2000 + 32 * e.log + 16
  let s := s.when (decide (nak ≠ 0)) (fun s =>
    s.wrw (.trig i) a (putBits (s.rdw (.trig i) a) 15 8 (Nat.lor (nbits (s.rdw (.trig i) a) 15 8) nak)))
  sealClass i 0 e.seq (fun r => { r with
    typ := 0x10
    sub := 0
    fl := e.body.fl
    t2 := e.body.t2
    bound := e.body.bound
    mask := e.body.mask
    payload := pl }) s

/-- An answer (or a discard) of slice `i`'s request on line `l` (R152). -/
def busAnswer (i : Fin 17) (l : Nat) (nak : Bool) (s : State) : State :=
  let f := fun (e : PendEvent) => if nbit e.lines l then
    { e with lines := e.lines - 2 ^ l, refused := if nak then Nat.lor e.refused (2 ^ l) else e.refused } else e
  let es := s.trigs[i].events.map f
  let s := s.setTrig i { s.trigs[i] with events := es.filter (fun e => decide (e.lines ≠ 0)) }
  s.each (es.filter (fun e => decide (e.lines = 0))) (eventAnswered i)

/-- The trigger bus takes requests: enabled, locked, TIME running (R148, R159). -/
def State.tbusUp (s : State) : Bool :=
  s.enabled .trigbus && s.flag .trigbus R.TBUS_STATUS.sync_locked && s.timeRuns

/-- TBUS_OUT_FERRY shows what waits. -/
def showTbusOut (s : State) : State :=
  let n := s.tbus.out.length
  let s := s.wr .global R.TBUS_OUT_FERRY.level n
  s.wr .global R.TBUS_OUT_FERRY.high_water (max n (s.rd .global R.TBUS_OUT_FERRY.high_water))

/-- Slice `i` requests line `l` (R18, R152): merged into a pending request, queued, or discarded; is an answer to come? -/
def requestLine (i : Fin 17) (l : Nat) (s : State) : State × Bool :=
  if !s.tbusUp || !nbit (s.rd .trigbus R.TBUS_CFG.line_enable) l then (s.cnt .trigbus (R.TBUS_COUNT.merged l) 1, false)
  else if s.tbus.out.any (fun x => x.1 = l) then
    let s := (s.cnt .trigbus (R.TBUS_COUNT.merged l) 1).cnt .global R.TBUS_OUT_FERRY.discards 1
    ({ s with tbus.out := s.tbus.out.map (fun x => if x.1 = l then (l, x.2 ++ [i.val]) else x) }, true)
  else (showTbusOut { s with tbus.out := s.tbus.out ++ [(l, [i.val])] }, true)

/-- Request every line of a mask; the lines whose answer is to come. -/
def requestLines (i : Fin 17) (mask : Nat) : List Nat → State → State × Nat
  | [], s => (s, 0)
  | l :: ls, s =>
    if nbit mask l then
      let (s, b) := requestLine i l s
      let (s, m) := requestLines i mask ls s
      (s, if b then m + 2 ^ l else m)
    else requestLines i mask ls s

/-! ### Candidates (R136 to R141) -/

/-- The frame at a time: the last whose centre is not later. -/
def frameFor : List (Nat × Int) → Int → Option Nat
  | [], _ => none
  | (f, tc) :: r, t => if tc ≤ t then (match frameFor r t with | some g => some g | none => some f) else none

/-- The frame at evaluation index `p` (R125, R154): the last one whose centre index is not after it, formed already or begun. -/
def State.frameAtPoint (s : State) (i : Fin 17) (p : AxisPt) : Option Nat :=
  let c := s.chains[i]
  let begun := ((c.jobs.map (·.st.f) ++ c.fstarts.map (·.f)).filter (fun f => decide (f * s.frameH i + s.frameN i / 2 ≤ p.m))).getLast?
  match begun with
  | some f => some f
  | none => frameFor s.trigs[i].frameAt p.t

/-- A candidate that is logged: accepted or declined. Where both masks are met the record carries the peak of the one that reported first
(DESIGN CHOICE, log 36: the payload has room for one and the spec does not say which). -/
def logCandidate (i : Fin 17) (p : AxisPt) (c : Report) (mets : List Report) (held mask : Nat) (terms : List Nat) (inst : Int)
    (declined : Bool) (s : State) : State :=
  let b : Blk := .trig i
  let arm := s.arm i
  let number := s.trigs[i].number
  let bound := s.candBound i c p
  let t2 := toT96 inst c.qual
  let fm := mets.find? (fun r => decide (4 ≤ r.cond) && decide (r.cond < 6))
  let fl := bit declined + 2 * bit (mets.any (·.late)) + 8 * bit c.interp + 16 * bit (s.flag b R.TRIG_CFG.window_enable)
  let k := s.rd b R.TRIG_LOG_HEAD.head
  let s := putLog i k t2 bound mask c.cond fl arm number p.m s
  let s := s.wr b R.TRIG_LOG_HEAD.head (k + 1)
  let req := if declined then 0 else s.rd b R.TRIG_CFG.bus_request
  let (s, wait) := if s.shadowing i then (s, 0) else requestLines i req (List.range 8) s
  let fr := if s.framed i then s.frameAtPoint i p else none
  let pl := leBytes 1 c.cond ++ leBytes 1 fl ++ leBytes 1 arm ++ leBytes 1 (terms.foldl (fun a t => a + 2 ^ t) 0) ++ leBytes 4 number
    ++ leBytes 8 p.m ++ leBytes 8 (match fr with | some f => f | none => 2 ^ 64 - 1)
    ++ leBytes 2 (match fm with | some r => r.pos | none => 0xFFFF)
    ++ leBytes 2 (code 16 (match fm with | some r => r.excess | none => 0)) ++ leBytes 1 req ++ zeros 1 ++ leBytes 2 held
  let (s, seq) := openClass i 0 (toT96 p.t p.qual) p.sb 0 s
  let body : Rec := ⟨0, i.val, 0, 0, 0, 0x10, 0, bit (mets.any (·.ovr)) + 64 * bit (mets.any (·.res)), 0, t2, max p.sb bound, mask, 0, pl, [],
    .building, 0, 0, 0, 0⟩
  let e : PendEvent := ⟨number, seq, k, body, wait, 0⟩
  let s := s.setTrig i { s.trigs[i] with number := (number + 1) % 2 ^ 32 }
  if wait = 0 then eventAnswered i e s
  else s.setTrig i { s.trigs[i] with events := s.trigs[i].events ++ [e] }

/-- A candidate in ARMED (R140). -/
def acceptTrigger (i : Fin 17) (p : AxisPt) (c : Report) (mets : List Report) (held mask : Nat) (terms : List Nat) (inst : Int)
    (s : State) : State :=
  let b : Blk := .trig i
  let bound := s.candBound i c p
  let t2 := toT96 inst c.qual
  let number := s.trigs[i].number
  let s := s.cnt b R.TRIG_COUNTS.accepted 1
  let s := s.wrT96 b R.TRIG_LAST.lo t2
  let s := ((s.wr b R.TRIG_LAST_INFO.cond_mask mask).wr b R.TRIG_LAST_INFO.cause c.cond).wr b R.TRIG_LAST_INFO.number number
  let ft := s.frameAtPoint i p
  let u := if s.framed i then ft.getD 0 else p.m
  let nt := if s.framed i then u else if (s.recs[i].last).isSome then s.indexAt i inst else p.m
  let s := logCandidate i p c mets held mask terms inst false s
  let s := if s.shadowing i then s else musterTrig i.val (outOccurs 1 i.val 0 s)
  let s := capAccept i inst t2 bound mask ft s.trigs[i].preFrom s
  let s := s.setTrig i { s.trigs[i] with postEnd := max (nt + s.rd b R.TRIG_CAPTURE.post_len) (u + 1), trigT := inst }
  (setArm i 3 s).coreInt i.val 3

/-- A candidate outside ARMED and DISARMED (R140). -/
def declineTrigger (i : Fin 17) (p : AxisPt) (c : Report) (mets : List Report) (held mask : Nat) (terms : List Nat) (inst : Int)
    (s : State) : State :=
  (logCandidate i p c mets held mask terms inst true (s.cnt (.trig i) R.TRIG_COUNTS.declined 1)).coreInt i.val 4

/-- A trigger instant inside [TRIG_WIN_START, TRIG_WIN_END) (R138). -/
def State.inWindow (s : State) (i : Fin 17) (t : Int) : Bool :=
  decide ((ofT96 (s.rdT96 (.trig i) R.TRIG_WIN_START.lo) : Int) ≤ t) && decide (t < (ofT96 (s.rdT96 (.trig i) R.TRIG_WIN_END.lo) : Int))

/-- A candidate trigger at an index. A candidate that a commit alone makes, with no condition met, has an empty condition mask, which R137
rules out: it takes cause 15 and the instant of its index (DESIGN CHOICE, log 36). -/
def candidate (i : Fin 17) (p : AxisPt) (mets : List Report) (held mask : Nat) (terms : List Nat) (s : State) : State :=
  let cause := ((List.range 16).find? (nbit mask)).getD 15
  let c := (mets.find? (fun r => r.cond = cause)).getD { Report.at_ cause true true p.t p.t with qual := p.qual, tb := p.bound }
  let c := if cause = 14 then { c with inst := p.t, qual := p.qual } else c
  if s.flag (.trig i) R.TRIG_CFG.window_enable && !s.inWindow i c.inst then s.cnt (.trig i) R.TRIG_COUNTS2.out_of_window 1
  else match s.arm i with
    | 0 => s.cnt (.trig i) R.TRIG_COUNTS2.disarmed_candidates 1
    | 2 => acceptTrigger i p c mets held mask terms c.inst s
    | _ => declineTrigger i p c mets held mask terms c.inst s

/-! ### The combiner (R126, R136) -/

/-- A state report takes effect on the mask of states. -/
def applyState (st : Nat) (r : Report) : Nat := if r.val then Nat.lor st (2 ^ r.cond) else if nbit st r.cond then st - 2 ^ r.cond else st

/-- Evaluate the index at the front of the axis. -/
def evalPoint (i : Fin 17) (p : AxisPt) (s : State) : State :=
  let t := s.trigs[i]
  let s := s.setTrig i { t with axis := t.axis.tail }
  -- events whose index lies in the gap before a first index join it late
  let inGap := if p.fresh then t.reports.filter (fun r => r.event && decide (r.key < p.t)) else []
  let s := s.each inGap (lateEvent i)
  let reps := if p.fresh then t.reports.filter (fun r => !(r.event && decide (r.key < p.t))) else t.reports
  let due := reps.filter (fun r => decide (r.key < p.tEnd)) ++ s.trigs[i].now
  let s := s.setTrig i { s.trigs[i] with
    reports := reps.filter (fun r => !decide (r.key < p.tEnd))
    now := []
    doneTo := some p.tEnd
    frameAt := (match frameFor t.frameAt p.t with
      | some f => t.frameAt.filter (fun x => f ≤ x.1)
      | none => t.frameAt) }
  -- a mask or window that was not referenced begins without a state
  let known := Nat.lor 15 (s.refMask i)
  let s := match p.terms with
    | some l => loadTerms i l s
    | none => s
  let old := if p.fresh then 0 else if p.terms.isSome then Nat.land t.states known else t.states
  let states := (due.filter (fun r => !r.event)).foldl applyState old
  let setBy := (due.filter (fun r => !r.event)).foldl (fun m r => SMap.set (fun _ => none) m r.cond (some r)) (if p.fresh then [] else t.setBy)
  let evs := due.filter (·.event)
  let truth := evs.foldl (fun m r => Nat.lor m (2 ^ r.cond)) states
  let terms := s.termsTrue i truth
  let prev := if p.fresh then decide (s.termsTrue i states ≠ []) else t.prevT
  let s := holdoffEnd i p.t s
  let s := s.when p.boundary (armBoundary i (if s.framed i then p.m / s.frameH i else p.m))
  let b : Blk := .trig i
  let s := (s.wr b R.TRIG_EVAL.index p.m).wr b R.TRIG_STATUS.cond_state (Nat.land truth (s.refMask i))
  let s := s.setTrig i { s.trigs[i] with
    states := states
    setBy := setBy
    prevT := decide (terms ≠ [])
    fresh := false }
  if terms = [] ∨ prev = true then s
  else
    let req := terms.foldl (fun m x => Nat.lor m (s.term i x).1) 0
    let neg := terms.foldl (fun m x => Nat.lor m (s.term i x).2) 0
    let isMet := fun (c : Nat) =>
      if s.isEvent i c then nbit req c && nbit truth c
      else (nbit req c && nbit states c && !nbit old c) || (nbit neg c && !nbit states c && nbit old c)
    let mask := ((List.range 16).filter isMet).foldl (fun m c => m + 2 ^ c) 0
    let heldM := ((List.range 8).filter (fun c => !s.isEvent i c && nbit req c && nbit old c && nbit states c)).foldl (fun m c => m + 2 ^ c) 0
    let mets := (evs.filter (fun r => nbit mask r.cond))
      ++ ((List.range 8).filterMap (fun c => if s.isEvent i c || !nbit mask c then none
        else if nbit states c then SMap.get (fun _ => none) setBy c
        else (SMap.get (fun _ => none) setBy c).map (fun r => { r with inst := p.t })))
    candidate i p mets heldM mask terms s

/-- The centre of the next frame that has not been formed or skipped, if frame conditions are referenced. -/
def State.framesCover (s : State) (i : Fin 17) (m : Nat) : Bool :=
  let f := match s.chains[i].jobs with
    | j :: _ => j.st.f
    | [] => s.chains[i].fnext
  decide (m < f * s.frameH i + s.frameN i / 2)

/-- Every aligned condition referenced has reported up to the index (R126). -/
def State.covered (s : State) (i : Fin 17) (p : AxisPt) : Bool :=
  let ref := s.refMask i
  let c := s.streamOf i
  let tap0 := (List.range 4).any (fun k => nbit ref k && !s.flag (.trig i) (R.TD_CFG.tap k))
  let inputs := !tap0 || (match c with
    | some c => decide (p.tEnd ≤ s.sampleTime c s.chains[i].next)
    | none => true)
  let frames := decide (ref / 16 % 16 = 0) || s.framesCover i p.m
  let pins := decide (ref / 256 % 16 = 0) || decide (p.tEnd + 1310720 ≤ s.tim.now)
  let timer := !nbit ref 15 || !s.flag (.trig i) R.TRIG_STATUS.timer_pending
    || decide (p.tEnd ≤ (ofT96 (s.rdT96 (.trig i) R.TIMER_T96.lo) : Int))
  inputs && frames && pins && timer

/-- Evaluate everything the axis holds: at a gap, at the end of a run and at a quiesce. -/
def drainAxis (i : Fin 17) (s : State) : State :=
  s.each s.trigs[i].axis (fun p st => evalPoint i p st)

/-- A delivered output joins the evaluation axis. -/
def pushAxis (i : Fin 17) (p : AxisPt) (s : State) : State :=
  let t := s.trigs[i]
  s.setTrig i { t with axis := t.axis ++ [{ p with fresh := p.fresh || (t.fresh && t.axis.isEmpty) }] }

/-- The resets of R127 at a gap or the start of a run, on what the combiner holds of the future. -/
def trigGap (i : Fin 17) (t : Int) (s : State) : State :=
  let s := tdReset i 1 t (drainAxis i s)
  s.setTrig i { s.trigs[i] with fresh := true, lastFrame := none }

/-! ### Enable, quiesce (R156, R157) -/

/-- TRIG_CFG and its companions make the slot refuse enable. The spec calls TD_CFG.source 3 invalid and does not say what it does: it refuses
enable, whether or not a term references the detector (DESIGN CHOICE, log 36). -/
def State.trigRefuses (s : State) (i : Fin 17) : Bool :=
  let b : Blk := .trig i
  let c := fun (f : Nat → Fld) (k : Nat) => s.rd b (f k)
  let stage := (List.range 4).foldl (fun m t => Nat.lor m (Nat.lor (c R.TERM_STAGE.req t) (c R.TERM_STAGE.neg t))) 0
  let md := s.mode i
  let real := s.flag (.filt i) R.XF_CFG.real_ref
  let ganged := decide (1 < s.gangG i)
  (decide (md ≠ 0) && decide (md ≠ 1) && decide (md ≠ 4) && !s.flag (.core i) R.SLICE_MODE.shadowing)
    || (decide (md = 1) && decide (stage / 16 % 16 ≠ 0))
    || (List.range 2).any (fun k => nbit stage (6 + k) && !s.flag (.records i) (R.DENS_CFG.enable (c R.DN_CFG.plane k)))
    || (List.range 4).any (fun k =>
        let used := nbit stage k || s.flag b (R.TD_CFG.fast k)
        let src := c R.TD_CFG.source k
        let dec := fun (n : Nat) => if src = 2 then (n : Int) else signed 24 n
        let thr := dec (c R.TD_THR_STAGE.thr k)
        let thr2 := dec (c R.TD_THR_STAGE.thr2 k)
        (used && decide (c R.TD_CFG.type k = 3) && (if c R.TD_CFG.polarity k = 0 then decide (thr2 ≤ thr) else decide (thr ≤ thr2)))
          || decide (c R.TD_WIDTH.wmax k < c R.TD_WIDTH.wmin k)
          || decide (src = 3) || (used && decide (src = 1) && decide (c R.TD_CFG.tap k = 0) && real)
          || (ganged && used))
    || (List.range 2).any (fun k => nbit stage (4 + k)
        && (decide (2 ^ 20 < c R.FM_STAGE.laddr k + s.frameN i / 2) || (ganged && decide (c R.FM_CFG.hyst k ≠ 0))))

/-- The slot is enabled: staging becomes the active copies, the conditions are reset, the trigger number restarts. -/
def trigEnable (i : Fin 17) (s : State) : State :=
  let b : Blk := .trig i
  let s := s.setTrig i .zero
  let s := s.each (List.range 4) (fun k st => (st.wr b (R.TD_THR.thr k) (st.rd b (R.TD_THR_STAGE.thr k))).wr b (R.TD_THR.thr2 k)
    (st.rd b (R.TD_THR_STAGE.thr2 k)))
  let s := s.each (List.range 2) (fun k st => (st.wr b (R.FM_ACTIVE.laddr k) (st.rd b (R.FM_STAGE.laddr k))).wr b (R.DN_THR.thr k)
    (st.rd b (R.DN_THR_STAGE.thr k)))
  let s := loadTerms i ((List.range 4).map (fun t => (s.rd b (R.TERM_STAGE.req t), s.rd b (R.TERM_STAGE.neg t)))) s
  if s.flag b R.TRIG_CTRL.commit then
    let s := (s.wr b R.TRIG_CTRL.commit 0).wr b R.TRIG_STATUS.commit_pending 0
    s.when (decide (s.rd b R.TRIG_CTRL.last_cmd = 4)) (trigStatus i 4 0)
  else s

/-- The slot quiesces: the rest of the caravan is evaluated; DISARMED, no term active, the log empty (R156, R157). -/
def trigDisable (i : Fin 17) (s : State) : State :=
  let b : Blk := .trig i
  let s := drainAxis i s
  let s := s.each s.trigs[i].events (eventAnswered i)
  let s := refreshOuts (s.setTrig i { s.trigs[i] with fast := Vector.replicate 4 false, fastUntil := Vector.replicate 4 none })
  let s := setArm i 0 (s.setTrig i .zero)
  let s := loadTerms i [] s
  let s := ((s.wr b R.TRIG_STATUS.cond_state 0).wr b R.TRIG_CTRL.timer_arm 0).wr b R.TRIG_STATUS.timer_pending 0
  let s := s.wr b R.TRIG_LOG_HEAD.head 0
  s.each (List.range 256) (fun n st => st.wrw b (0x2000 + 8 * n) 0)

/-! ### Events of the trigger unit -/

/-- The combiner evaluates its next index, once every referenced aligned condition has reported. -/
def opCombinerEvaluation (i : Fin 17) (s : State) : State :=
  match s.trigs[i].axis with
  | p :: _ => if s.trigLive i && s.covered i p then evalPoint i p s else s
  | [] => s

/-- post_len units after the trigger have been handed to the record engine. -/
def opPostEnd (i : Fin 17) (s : State) : State :=
  let t := s.trigs[i]
  let handed := if s.framed i then (match t.lastFrame with | some f => f + 1 | none => 0) else s.chains[i].pos
  let waits := match t.axis with
    | p :: _ => !s.framed i && decide (p.m < t.postEnd)
    | [] => false
  if !s.trigLive i || decide (s.arm i ≠ 3) || decide (handed < t.postEnd) || waits then s
  else if t.disarm then disarmNow i s else setArm i 4 s

/-- The time reaches TIMER_T96. -/
def opTimerFire (i : Fin 17) (s : State) : State :=
  if s.trigLive i && s.flag (.trig i) R.TRIG_STATUS.timer_pending
      && decide (ofT96 (s.rdT96 (.trig i) R.TIMER_T96.lo) ≤ s.tim.now) then timerFire i false s else s

/-- TRIG_CTRL.timer_arm is written. -/
def opTimerArm (i : Fin 17) (s : State) : State := timerArm i s

/-! ### The commands -/

/-- COMBINER_EVALUATION (R136): Once all referenced aligned conditions have reported, the combiner evaluates an index and decides whether there is a candidate trigger. -/
def execCombinerEvaluation (i : Fin 17) (s : State) : Host.Outcome State Fault Refusal :=
  .next (opCombinerEvaluation i s)
/-- POST_END (R139): post_len units after the trigger have been handed to the record engine and the unit enters HOLDOFF. -/
def execPostEnd (i : Fin 17) (s : State) : Host.Outcome State Fault Refusal :=
  .next (opPostEnd i s)
/-- TIMER_ARM (R135): TRIG_CTRL.timer_arm arms the TIMER condition at TIMER_T96. -/
def execTimerArm (i : Fin 17) (s : State) : Host.Outcome State Fault Refusal :=
  .next (onWrite (opTimerArm i) s)
/-- TIMER_FIRE (R135): The time reaches TIMER_T96 and the TIMER event fires, with LATE if it was already past. -/
def execTimerFire (i : Fin 17) (s : State) : Host.Outcome State Fault Refusal :=
  .next (opTimerFire i s)

end Sys2Proof.Machine
end

