-- ==== Sys2Proof/Machine/Tbus.lean ====
section
/-!
DEFINITION. Sys2Proof/Machine/Tbus.lean: the TRIG_IN and TRIG_OUT pins and the trigger bus (R133, R134, R147 to R153, R159), and the
commands of TRIG_CTRL and U.TRIG.
-/
namespace Sys2Proof.Machine
open Sys2Proof

/-! ### TRIG_IN (R133) -/

/-- Every slice whose active terms reference condition `cnd` receives a report. -/
def pushAll (cnd : Nat) (r : Report) (s : State) : State :=
  s.each (List.finRange 17) (fun i st => if st.trigLive i && nbit (st.refAhead i) cnd then pushReport i r st else st)

/-- The interpolator of TRIG_IN[j] (R295). -/
def inInterp (j : Fin 4) : Fin 8 := Fin.ofNat 8 (2 + j.val)

/-- An edge on TRIG_IN[j] follows the one before it, merged or not, by less than 10 ns. -/
def State.inMerges (s : State) (j : Fin 4) (k : Nat) : Bool := mergesInto s.tbus.inLast[j] (s.edgeRaw (inInterp j) k)

/-- An edge of the polarity of TRIG_IN_CFG[j] on an enabled pin. -/
def inEvent (j : Fin 4) (k : Nat) (s : State) : State :=
  let f := match j with
    | 0 => R.TRIG_IN_COUNT.in0
    | 1 => R.TRIG_IN_COUNT.in1
    | 2 => R.TRIG_IN_COUNT.in2
    | _ => R.TRIG_IN_COUNT.in3
  let s := s.cnt .trigbus f 1
  let merged := s.inMerges j k
  let s := { s with tbus.inLast := s.tbus.inLast.set j (some (s.edgeRaw (inInterp j) k)) }
  if merged then s
  else
    let n := inInterp j
    let t := s.edgeTime n k - s.trustValue (257 + j.val)
    let a : Fld := ⟨0x140 + 0x10 * j.val, 0, 64⟩
    let s := s.wrT96 .trigbus a (toT96 t s.quality)
    let cal := (s.trust (257 + j.val)).isSome && (s.tim.interp[n].hits).isSome
    pushAll (8 + j.val) { Report.at_ (8 + j.val) true true t t with
      qual := s.quality
      line := bit cal
      tb := s.bTb } s

/-- An edge on TRIG_IN[j], sampled at the present tick with tap code `k`. -/
def opTrigInEdge (j : Fin 4) (falling : Bool) (k : Nat) (s : State) : State :=
  let s := { s with tbus.inLevel := s.tbus.inLevel.set j (!falling) }
  if !s.timeRuns then s else
  let hit := s.flag .trigbus (R.TRIG_IN_CFG.edge j) == falling
  let s := refreshOuts s
  let s := s.when hit (outOccurs 4 0 j.val)
  s.when (hit && s.flag .trigbus (R.TRIG_IN_CFG.enable j)) (inEvent j k)

/-! ### TRIG_OUT (R147) -/

/-- The pulse on TRIG_OUT[j] has lasted its width. -/
def State.pulseDone (s : State) (j : Fin 4) : Bool :=
  match s.tbus.outEnd[j] with
  | some t => decide (t ≤ s.tim.raw)
  | none => false

/-- The pulse on TRIG_OUT[j] ends, its width having passed since its last occurrence. -/
def opPulseEnd (j : Fin 4) (s : State) : State :=
  if !s.pulseDone j || !s.timeRuns then s else
  refreshOut j { s with tbus.outEnd := s.tbus.outEnd.set j none }

/-- TRIG_OUT_CFG[j] is written; it takes effect at the next TIME tick. -/
def opTrigOutCfgWrite (j : Fin 4) (value : BitVec 32) (s : State) : State :=
  let a := 0x200 + 8 * j.val
  s.wrw .trigbus a (s.rdw .trigbus a / 2 ^ 32 * 2 ^ 32 + putBits value.toNat 15 14 0)

/-- A changed TRIG_OUT_CFG[j] takes effect: an active pin is inactive for one tick first. -/
def takeOutCfg (j : Fin 4) (s : State) : State :=
  let w := s.rdw .trigbus (0x200 + 8 * j.val)
  if w = s.tbus.outCfg[j] then s else
  let on := s.outActive j
  let s := { s with
    tbus.outCfg := s.tbus.outCfg.set j w
    tbus.outEnd := s.tbus.outEnd.set j none
    tbus.outHold := s.tbus.outHold.set j (if on then some s.tim.raw else s.tbus.outHold[j]) }
  driveOut j false s

/-- What a tick does to the pins: a change of their configuration takes effect, and every pin takes its level. -/
def tickOuts (s : State) : State :=
  if !s.timeRuns then s else s.each (List.finRange 4) (fun j st => refreshOut j (takeOutCfg j st))

/-- In HOLD sources 1 to 3 are inactive. -/
def holdOuts (s : State) : State :=
  s.each (List.finRange 4) (fun j st =>
    let src := st.outCfg j R.TRIG_OUT_CFG.source
    if 1 ≤ src ∧ src ≤ 3 then driveOut j false { st with tbus.outEnd := st.tbus.outEnd.set j none } else st)

/-! ### The trigger bus (R148 to R153, R159) -/

/-- The bus cycle in units of time: 5 or 10 ns. -/
def State.busCycle (s : State) : Nat := if s.flag .trigbus R.TBUS_CFG.bus_mode then 655360 else 327680

/-- A request of slices is discarded: each is counted as merged, and each requesting slice has its answer. A request into which others were
merged was counted for each of them, and is counted once more for every slice that made it: the spec does not say that the two counts
exclude each other (DESIGN CHOICE, log 36). -/
def discardEntry (e : Nat × List Nat) (s : State) : State :=
  let s := s.cnt .trigbus (R.TBUS_COUNT.merged e.1) e.2.length
  s.each e.2 (fun i st => busAnswer (Fin.ofNat 17 i) e.1 false st)

/-- All that waits is discarded. -/
def discardOut (s : State) : State :=
  let es := s.tbus.out
  showTbusOut ({ s with tbus.out := [] }.each es discardEntry)

/-- Requests driven in a cycle that will not be completed end without a refusal. -/
def dropDriven (s : State) : State :=
  let es := s.tbus.driving
  let s := { s with tbus.driving := [], pins.tbusDrive := 0, pins.tbusNak := 0 }
  s.each es (fun e st => st.each e.2 (fun i st => busAnswer (Fin.ofNat 17 i) e.1 false st))

/-- The device is unlocked and waits for SYNC pulses again. -/
def tbusUnlock (s : State) : State :=
  let s := (s.wr .trigbus R.TBUS_STATUS.sync_locked 0).wr .trigbus R.TBUS_STATUS.cycle 0
  dropDriven (discardOut { s with tbus.syncAt := none, tbus.good := 0 })

/-- A TBUS_SYNC pulse: the first sets the expected cycle, and two more at it lock the device. -/
def opTbusSync (s : State) : State :=
  if !(s.enabled .trigbus && s.timeRuns) then s else
  let cyc := s.busCycle
  let good := match s.tbus.syncAt with
    | some r => decide (r + 65536 * cyc < s.tim.raw + cyc) && decide (s.tim.raw < r + 65536 * cyc + cyc)
    | none => false
  let s := s.when (s.flag .trigbus R.TBUS_STATUS.sync_locked && !good) tbusUnlock
  let n := if good then min 2 (s.tbus.good + 1) else 0
  let s := { s with tbus.syncAt := some s.tim.raw, tbus.good := n }
  if n = 2 ∧ s.flag .trigbus R.TBUS_STATUS.sync_locked = false then
    let ticks := cyc / tickUnits
    let s := s.wr .trigbus R.TBUS_STATUS.phase (s.tim.raw / tickUnits % ticks)
    { s.wr .trigbus R.TBUS_STATUS.sync_locked 1 with tbus.zeroAt := s.tim.raw }
  else s

/-- The expected cycle passes without a pulse. -/
def opSyncPulseMissing (s : State) : State :=
  if !(s.enabled .trigbus && s.timeRuns) then s
  else if s.flag .trigbus R.TBUS_STATUS.sync_locked then tbusUnlock s
  else { s with tbus.syncAt := none, tbus.good := 0 }

/-- The master drives TBUS_SYNC for one cycle. -/
def opSyncDrive (s : State) : State :=
  if s.enabled .trigbus && s.timeRuns && s.flag .trigbus R.TBUS_CFG.master then
    { s with pins.tbusSync := true, tbus.drivenAt := s.tim.raw }
  else s

/-- The cycle count within the sync period (TB_STATUS). -/
def State.busCount (s : State) : Nat :=
  if s.flag .trigbus R.TBUS_STATUS.sync_locked then (s.tim.raw - s.tbus.zeroAt) / s.busCycle % 65536 else 0

/-- A NAK is released at the end of its answer phase (R149, R150). -/
def releaseNak (s : State) : State := if s.tbus.nakEnd ≤ s.tim.raw then { s with pins.tbusNak := 0 } else s

/-- Lines driven for one cycle are released when it has passed. -/
def tickTbus (s : State) : State :=
  let s := releaseNak s
  if s.pins.tbusSync && decide (s.tbus.drivenAt + s.busCycle ≤ s.tim.raw) then { s with pins.tbusSync := false } else s

/-- A pending request on line `l` is driven in the next cycle. -/
def opTbusRequest (l : Fin 8) (s : State) : State :=
  match s.tbus.out.find? (fun e => e.1 = l.val) with
  | none => s
  | some e =>
    -- a quiesce completes the cycle under way and discards what waits (R159)
    if s.flag .trigbus R.BLOCK_STATUS.quiescing then s else
    let s := showTbusOut { s with tbus.out := s.tbus.out.filter (fun x => x.1 ≠ l.val) }
    if !(s.tbusUp && nbit (s.rd .trigbus R.TBUS_CFG.line_enable) l.val) then discardEntry e s
    else
      let s := s.cnt .trigbus (R.TBUS_COUNT.requests_sent l) 1
      { s with pins.tbusDrive := s.pins.tbusDrive ||| BitVec.ofNat 8 (2 ^ l.val), tbus.driving := s.tbus.driving ++ [e] }

/-- The line condition BUS`k` of slice `i` names, if it is enabled (BUS_SEL). -/
def State.busLine (s : State) (i : Fin 17) (k : Nat) : Option Nat :=
  let b : Blk := .trig i
  if k = 0 then (if s.flag b R.BUS_SEL.en0 then some (s.rd b R.BUS_SEL.line0) else none)
  else if s.flag b R.BUS_SEL.en1 then some (s.rd b R.BUS_SEL.line1) else none

/-- This device refuses a request on line `l` that the slices `rq` made (R151). -/
def State.busRefuses (s : State) (l : Nat) (rq : List Nat) : Bool :=
  nbit (s.rd .trigbus R.TBUS_CFG.listen) l &&
    (decide (s.dev ≠ .run) || (List.finRange 17).any (fun i =>
      !rq.contains i.val && s.enabled (.trig i) && (List.range 2).any (fun k =>
        nbit (s.refMask i) (12 + k) && s.busLine i k == some l && decide (s.arm i ≠ 2))))

/-- BUS events of a latched request in every slice but those that made it (R134, R153). -/
def busEvents (q : BusIn) (s : State) : State :=
  s.each (List.finRange 17) (fun i st =>
    if q.rq.contains i.val || !st.trigLive i then st
    else st.each (List.range 2) (fun k st =>
      if nbit (st.refAhead i) (12 + k) && st.busLine i k == some q.line then
        pushNow i { Report.at_ (12 + k) true true q.t q.t with
          qual := q.qual
          line := q.line
          tb := q.tb } st
      else st))

/-- The units take the requests tbus_in held while the CORE domain was stopped. -/
def drainTbusIn (s : State) : State :=
  let q := s.tbus.inq
  let s := ({ s with tbus.inq := [] }).wr .global R.TBUS_IN_FERRY.level 0
  s.each q busEvents

/-- A request on line `l` is latched; `nak`: another device refuses it. -/
def opBusRequestLatched (l : Fin 8) (nak : Bool) (s : State) : State :=
  if !(s.tbusUp && nbit (s.rd .trigbus R.TBUS_CFG.line_enable) l.val) then s else
  let mine := s.tbus.driving.filter (fun e => e.1 = l.val)
  let rq := mine.flatMap (·.2)
  let own := s.busRefuses l.val rq
  let refused := nak || own
  let s := s.cnt .trigbus (R.TBUS_COUNT.requests_seen l) 1
  let s := s.cnt .trigbus (R.TBUS_COUNT.naks_seen l) (bit refused)
  let last := s.rd .trigbus R.TBUS_STATUS.nak_last
  let s := s.wr .trigbus R.TBUS_STATUS.nak_last (putBits last l.val l.val (bit refused))
  let mask := ~~~ BitVec.ofNat 8 (2 ^ l.val)
  let edge := (s.tim.raw - s.tbus.zeroAt) % s.busCycle
  let s := releaseNak s
  let s := { s with
    tbus.driving := s.tbus.driving.filter (fun e => e.1 ≠ l.val)
    tbus.nakEnd := s.tim.raw - edge + s.busCycle
    pins.tbusDrive := s.pins.tbusDrive &&& mask
    pins.tbusNak := (s.pins.tbusNak &&& mask) ||| (if own then BitVec.ofNat 8 (2 ^ l.val) else 0) }
  let s := s.each rq (fun i st => busAnswer (Fin.ofNat 17 i) l.val refused st)
  let s := outOccurs 3 0 l.val s
  let t : Int := (s.tim.now : Int) - (edge : Int) - 256 * s.rdi .trigbus R.TBUS_SKEW.skew - 4096 * (s.rd .trigbus (R.TBUS_LINE.lead l) : Int)
  let q : BusIn := ⟨l.val, t, s.quality, s.bTb, rq⟩
  if s.coreRuns then
    busEvents q (ferryPass .global R.TBUS_IN_FERRY.level R.TBUS_IN_FERRY.high_water 16 1 s)
  else if s.tbus.inq.length < 16 then
    let s := { s with tbus.inq := s.tbus.inq ++ [q] }
    let n := s.tbus.inq.length
    let s := s.wr .global R.TBUS_IN_FERRY.level n
    s.wr .global R.TBUS_IN_FERRY.high_water (max n (s.rd .global R.TBUS_IN_FERRY.high_water))
  else s.cnt .global R.TBUS_IN_FERRY.discards 1

/-- TRIGBUS is enabled: the interface resynchronises. -/
def tbusEnable (s : State) : State :=
  { s.wr .trigbus R.TBUS_STATUS.sync_locked 0 with tbus.syncAt := none, tbus.good := 0 }

/-- TRIGBUS has quiesced. -/
def tbusDisable (s : State) : State :=
  let s := tbusUnlock s
  { s with pins.tbusSync := false, pins.tbusNak := 0 }

/-! ### TRIG_CTRL and U.TRIG (R139, R144) -/

/-- Arm. -/
def opArm (c : Fin 17) (via : Via) (s : State) : State := 
  byVia c via (fun core => refusedDone c core (.trig c.val) R.TRIG_CTRL.last_status (trigArm c)) s
/-- Disarm. -/
def opDisarm (c : Fin 17) (via : Via) (s : State) : State := 
  byVia c via (fun core => refusedDone c core (.trig c.val) R.TRIG_CTRL.last_status (trigDisarm c)) s
/-- Force. -/
def opForce (c : Fin 17) (via : Via) (s : State) : State := 
  byVia c via (fun core => refusedDone c core (.trig c.val) R.TRIG_CTRL.last_status (trigForce c)) s
/-- Commit. -/
def opTrigCommit (c : Fin 17) (via : Via) (s : State) : State := byVia c via (fun core => trigCommit c core) s

/-! ### The commands -/

/-- TRIG_IN_EDGE (R133): An edge on TRIG_IN[j] is interpolated and becomes an IN event, or is merged with an edge less than 10 ns earlier. -/
def execTrigInEdge (j : Fin 4) (falling : Bool) (tap : Fin 512) (s : State) : Host.Outcome State Fault Refusal :=
  .next (opTrigInEdge j falling tap s)
/-- ARM (R139): TRIG_CTRL.arm or U.TRIG ARM moves DISARMED to ARM_PENDING. -/
def execArm (c : Fin 17) (via : Via) (s : State) : Host.Outcome State Fault Refusal :=
  .next (onWrite (opArm c via) s)
/-- DISARM (R139): TRIG_CTRL.disarm or U.TRIG DISARM disarms at the next boundary, or once POST has ended. -/
def execDisarm (c : Fin 17) (via : Via) (s : State) : Host.Outcome State Fault Refusal :=
  .next (onWrite (opDisarm c via) s)
/-- FORCE (R135): TRIG_CTRL.force or U.TRIG FORCE produces a SOFT event. -/
def execForce (c : Fin 17) (via : Via) (s : State) : Host.Outcome State Fault Refusal :=
  .next (onWrite (opForce c via) s)
/-- TRIG_COMMIT (R144): TRIG_CTRL.commit or U.TRIG COMMIT makes all trigger staging take effect at the next caravan boundary. -/
def execTrigCommit (c : Fin 17) (via : Via) (s : State) : Host.Outcome State Fault Refusal :=
  .next (onWrite (opTrigCommit c via) s)
/-- PULSE_END (R147): A TRIG_OUT pulse of width ticks ends. -/
def execPulseEnd (j : Fin 4) (s : State) : Host.Outcome State Fault Refusal :=
  .next (opPulseEnd j s)
/-- TRIG_OUT_CFG_WRITE (R147): A write to TRIG_OUT_CFG takes effect at the next TIME tick, first driving an active pin inactive for one tick. -/
def execTrigOutCfgWrite (j : Fin 4) (value : BitVec 32) (s : State) : Host.Outcome State Fault Refusal :=
  .next (onWrite (opTrigOutCfgWrite j value) s)
/-- TBUS_REQUEST (R152): A pending request leaves tbus_out and drives its line in the request phase of the next bus cycle. -/
def execTbusRequest (l : Fin 8) (s : State) : Host.Outcome State Fault Refusal :=
  .next (opTbusRequest l s)
/-- BUS_REQUEST_LATCHED (R149): A request on a trigger bus line is latched, listeners answer with a NAK if they refuse, and BUS events are produced. -/
def execBusRequestLatched (l : Fin 8) (nak : Bool) (s : State) : Host.Outcome State Fault Refusal :=
  .next (opBusRequestLatched l nak s)
/-- TBUS_SYNC (R148): A TBUS_SYNC pulse is received, locking the device after two at the expected cycle or unlocking it if misplaced. -/
def execTbusSync (s : State) : Host.Outcome State Fault Refusal :=
  .next (opTbusSync s)
/-- SYNC_DRIVE (R148): The master drives TBUS_SYNC high on the first cycle of every 65,536. -/
def execSyncDrive (s : State) : Host.Outcome State Fault Refusal :=
  .next (opSyncDrive s)
/-- SYNC_PULSE_MISSING (R148): The expected TBUS_SYNC cycle passes without a pulse, and a locked device loses lock and resynchronises. -/
def execSyncPulseMissing (s : State) : Host.Outcome State Fault Refusal :=
  .next (opSyncPulseMissing s)

end Sys2Proof.Machine
end

