-- ==== Sys2Proof/Machine/Frames.lean ====
section
/-!
DEFINITION. Sys2Proof/Machine/Frames.lean: a frame that has been formed goes to the trigger, reduction, density, ring and relay paths
(R104, R112, R121, R130 to R132, R166 to R170, R215).
-/
namespace Sys2Proof.Machine
open Sys2Proof

/-- No fault. -/
def FrameFault.none : FrameFault := ⟨false, false, false, false, .none⟩

/-- An uncorrectable error somewhere in the frame and bin buffers of slice `m` is logged with its local memory (R318). -/
def bufferError (m : Fin 17) (s : State) : State :=
  if !s.hasBuffers m then s else
  let (x, s) := s.free 15
  logBad (.lmem m) (8 * (s.rd (.filt m) R.XF_MEM.base + x / 256 % max 1 (s.rd (.filt m) R.XF_MEM.size))) 1 (x % 256) s

/-- The residue effects on the transform of slice `m`; `store` is the window store in use (R107, R121). -/
def xformFault (m : Fin 17) (store : Nat) (flt : FrameFault) (s : State) : State :=
  let bad := fun (f : Fld) (s : State) => residueError m 1 ((s.fault (.filt m) f).cnt (.filt m) R.XF_RESIDUE.residue_errors 1)
  let s := s.when flt.residue (bad R.XF_FAULT.residue)
  let s := s.when flt.buffer (fun s => bad R.XF_FAULT.win_ecc (bufferError m s))
  s.when flt.store (fun s => (bad R.XF_FAULT.win_ecc s).wr (.filt m) (R.WIN_STORE.loaded store) 0)

/-- A mismatch in the sums of the trigger unit while a frame is evaluated (R158). -/
def sumsFault (i : Fin 17) (s : State) : State := residueError i 2 (s.fault (.trig i) R.TRIG_FAULT.residue)

/-- A mismatch in an accumulator or a plane (R180). -/
def accFault (i : Fin 17) (s : State) : State := residueError i 3 (s.fault (.records i) R.REC_FAULT.residue)

/-- A frame reaches plane `k`, whose check fails by a mismatch, or where a cell the frame counts in holds an uncorrectable error (R180). -/
def densOne (i : Fin 17) (k : Fin 4) (fr : Frame) (mismatch : Bool) (s : State) : State :=
  let hit := if s.flag (.records i) (R.DENS_CFG.enable k)
    then s.cellError i k (s.densJ i k fr.f) fr.f (s.densRows i k fr) else none
  let s := match hit with
    | some (m, a) => accFault i (checkRead (.lmem m) a 2 1 s)
    | none => s
  densFrame i k fr (mismatch || hit.isSome) s

/-- Late frames that wait to be reported are reported on every enabled class queue (R106, R177). -/
def frameGaps (i : Fin 17) (s : State) : State :=
  let l := s.chains[i].fgaps
  let s := s.setChain i { s.chains[i] with fgaps := [] }
  if l.isEmpty || !s.enabled (.records i) then s else s.each l (fun g st => gapAll i 1 g (settleRing i st))

/-- The frame of the oldest job is formed and handed on; the late frames before it are reported first. -/
def formNext (i : Fin 17) (flt : FrameFault) (s : State) : State :=
  match s.chains[i].jobs with
  | [] => s
  | job :: _ =>
    let s := frameGaps i s
    let m := s.memberOf i job.st.f
    let s := xformFault m job.st.store flt (s.setChain i { s.chains[i] with jobs := s.chains[i].jobs.tail })
    let (s, fr) := formFrame i job s
    let stale := decide (s.rd (.filt m) R.XF_STATUS.active_store = job.st.store) && !s.flag (.filt m) (R.WIN_STORE.loaded job.st.store)
    let fr := if flt.residue || flt.store || flt.buffer || stale then { fr with fl := Nat.lor fr.fl 64 } else fr
    let s := s.when flt.sums (sumsFault m)
    let s := trigFrame i job fr flt.sums s
    let s := s.when (s.enabled (.records i)) (fun s =>
      let s := s.when flt.acc.isSome (accFault i)
      let s := s.each (List.finRange 5) (fun r st => redFrame i r fr (decide (flt.acc = some (Fin.ofNat 9 r.val))) st)
      let s := s.each (List.finRange 4) (fun k st => densOne i k fr (decide (flt.acc = some (Fin.ofNat 9 (5 + k.val)))) st)
      recSpectrum i fr s)
    relayFrame i job.st.gain fr s

/-- Frame `f` is late: its buffer is overwritten before the engine starts it, so that it is not formed (R106). -/
def dropLate (i : Fin 17) (job : FrameJob) (s : State) : State :=
  let m := s.memberOf i job.st.f
  let s := s.cnt (.filt m) R.XF_COUNTS.frames_late 1
  let x0 := job.xs.headD ⟨0, 0, 0, false, 0, 0, 0, 0, 0, 0, 0, 0⟩
  s.setChain i { s.chains[i] with
    jobs := s.chains[i].jobs.tail
    fgaps := GapRun.add s.chains[i].fgaps ⟨job.st.f, 1, 6, x0.t, x0.qual, x0.bound⟩ }

/-- The output at which the buffer of frame `f` must accept samples that overwrite its first: it holds N + H outputs of the member's frames. -/
def State.overwriteAt (s : State) (i : Nat) (f : Nat) : Nat :=
  let n := s.frameN i
  let h := s.frameH i
  let g := s.gangG i
  if g = 1 then f * h + n + h else max (f * h + n) ((f + g) * h) + h

/-- Output `m` has arrived: the jobs it makes late are dropped, oldest first. A job may only be late if it waited already before the entry of
the ingest ferry under way: what one entry brings is not told apart in time (log 26). -/
def dropLateJobs (i : Fin 17) (m : Nat) (s : State) : State :=
  s.each s.chains[i].jobs (fun _ st => match st.chains[i].jobs with
    | job :: _ => if job.old && decide (st.overwriteAt i job.st.f ≤ m) then dropLate i job st else st
    | [] => st)

/-- Every frame whose outputs have all arrived is formed: at a gap, the end of a run and a quiesce. -/
def drainFrames (i : Fin 17) (s : State) : State := frameGaps i (s.each s.chains[i].jobs (fun _ st => formNext i .none st))

/-- The oldest frame whose N outputs have been delivered. -/
def opFrameFormed (i : Fin 17) (flt : FrameFault) (s : State) : State :=
  if s.enabled (.filt i) && s.coreRuns then formNext i flt s else s

/-! ### The commands -/

/-- FRAME_FORMED (R104): A frame whose N outputs were all delivered is windowed, transformed and delivered as bins and power words to the trigger, reduction, density and relay paths. -/
def execFrameFormed (i : Fin 17) (flt : FrameFault) (s : State) : Host.Outcome State Fault Refusal :=
  .next (opFrameFormed i flt s)

end Sys2Proof.Machine
end

