-- ==== Sys2Proof/Machine/Tap.lean ====
section
/-!
DEFINITION. Sys2Proof/Machine/Tap.lean: the tap of U.RED (R260).
-/
namespace Sys2Proof.Machine
open Sys2Proof

/-- Replace the tap of slice `i`. -/
def setTap (i : Fin 17) (t : TapSt) (s : State) : State := s.setCore i { s.cores[i] with tap := t }

/-- Bytes written into a slice's local memory at byte address `a` by a unit. -/
def lmemWrite (i : Fin 17) (a : Nat) (bs : List Byte) (s : State) : State := sramWrite (.lmem i) a (bs.map some) s

/-- The mode, the gang, a busy tap, the count, or the region refuse a TAP. -/
def State.tapRefused (s : State) (i : Fin 17) (laddr count : Nat) : Bool :=
  decide (s.mode i = 3) || decide (5 ≤ s.mode i) || decide (1 < s.gangG i) || s.cores[i].tap.busy || decide (count = 0)
    || decide (65536 < count) || decide (s.rd (.core i) R.CORE_IMAGE2.data_top * 65536 < 8 * laddr + 32 + 8 * count)

/-- U.RED TAP. -/
def tapRequest (i : Fin 17) (laddr count : Nat) (s : State) : State :=
  let t := s.cores[i].tap
  if s.tapRefused i laddr count then setTap i { t with refused := true } s
  else setTap i { TapSt.zero with busy := true, laddr := laddr, count := count } s

/-- The tap ends: header, UNIT_DONE. -/
def tapEnd (i : Fin 17) (s : State) : State :=
  let t := s.cores[i].tap
  if !t.busy then s else
  let short := decide (t.written < t.count)
  let head := leBytes 8 t.first ++ leBytes 12 t.t96.toNat ++ leBytes 2 t.bound ++ leBytes 1 t.flags ++ leBytes 1 (bit short)
    ++ leBytes 4 t.written ++ zeros 4
  let s := lmemWrite i (8 * t.laddr) head s
  (setTap i { t with busy := false, done := true, short := short } s).coreInt i.val 2

/-- A delivered output passes the tap; `boundary` = it is the first at or after a caravan boundary. -/
def tapPush (i : Fin 17) (o : OutS) (boundary : Bool) (s : State) : State :=
  let t := s.cores[i].tap
  if !t.busy || (!t.started && !boundary) || decide (t.count ≤ t.written) then s else
  let t := if t.started then t else { t with started := true, first := o.m, t96 := toT96 o.t o.qual, bound := o.bound }
  let s := lmemWrite i (8 * t.laddr + 32 + 8 * t.written) (leBytes 4 (code 32 o.i) ++ leBytes 4 (code 32 o.q)) s
  setTap i { t with written := t.written + 1, flags := Nat.lor t.flags o.fl } s

/-- The tap status. -/
def TapSt.status (t : TapSt) : Nat :=
  bit t.busy + 2 * bit t.done + 4 * bit t.short + 8 * bit t.refused + 16 * t.written

end Sys2Proof.Machine
end

