-- ==== Sys2Proof/Machine/Slots.lean ====
section
/-!
DEFINITION. Sys2Proof/Machine/Slots.lean: enabling a block, the quiesce handshake, and what a block does when it becomes disabled
(R22, R23, R32, R33 and each chapter's enable rule).
-/
namespace Sys2Proof.Machine
open Sys2Proof

/-! ### Enable -/

/-- The pixel timing of R372 or the link bandwidth of R371 refuse the enable of a display. -/
def State.dispRefuses (s : State) (d : Nat) : Bool :=
  let b : Blk := .display d
  let h := [s.rd b R.DISP_H.active, s.rd b R.DISP_H.front, s.rd b R.DISP_H.sync, s.rd b R.DISP_H.back]
  let v := [s.rd b R.DISP_V.active, s.rd b R.DISP_V.front, s.rd b R.DISP_V.sync, s.rd b R.DISP_V.back]
  let pclk := s.rd b R.DISP_LINK.pclk_khz
  let bpp := if s.flag b R.DISP_LINK.bpc10 then 30 else 24
  let lanes := 2 ^ s.rd b R.DISP_LINK.lanes
  -- main-link rates in kb/s
  let rate := match s.rd b R.DISP_LINK.rate with | 0 => 1620000 | 1 => 2700000 | 2 => 5400000 | _ => 8100000
  decide (s.rd b R.DISP_LINK.lanes = 3) || decide (lanes * rate * 8 < pclk * bpp * 10)
    || (h ++ v).any (fun n => decide (n = 0)) || decide (3840 < s.rd b R.DISP_H.active) || decide (2160 < s.rd b R.DISP_V.active)

/-- The block becomes enabled. -/
def markEnabled (b : Blk) (s : State) : State := s.wr b R.BLOCK_STATUS.enabled 1

/-- The enable of block `b` is refused: what each chapter's enable rule tests. -/
def State.enableRefuses (s : State) : Blk → Bool
  | .timebase => s.tbRefuses
  | .tdc => s.tdcRefuses
  | .clocks => decide (10 < s.rd .clocks R.CLK_SPREAD.core_spread)
  | .housekeeping => s.hkRefuses
  | .display d => s.dispRefuses d
  | .dram c => s.dramRefuses c
  | .txg g => s.txConflict (Fin.ofNat 16 g)
  | .core i => s.coreRefuses i
  | .filt i => s.chainRefuses (Fin.ofNat 17 i) || s.xfRefuses (Fin.ofNat 17 i) || s.chanRefuses (Fin.ofNat 17 i)
  | .trig i => s.trigRefuses (Fin.ofNat 17 i)
  | .records i => s.recsRefuse (Fin.ofNat 17 i) || s.synRefuses (Fin.ofNat 17 i)
  | .trigbus | .check | .rxg _ | .placement | .depot | .dma | .dmaRings _ | .queue => false
  | .global | .muster | .observe | .auth | .chan => true

/-- What a refused enable shows; each part of a slot that refuses says so (R101, R122, R202). -/
def enableRefused (b : Blk) (s : State) : State :=
  match b with
  | .timebase | .tdc | .clocks | .housekeeping => s.wr b R.BLOCK_STATUS.fault 1
  | .display _ => s.fault b R.DISP_EVENTS.cfg_invalid
  | .dram _ => s.fault b R.DRAM_FAULT.cfg_invalid
  | .txg _ => s.wr b R.TXG_STATUS.pll_conflict 1
  | .core _ => s.fault b R.CORE_FAULT.cfg_invalid
  | .filt i =>
    let s1 := s.when (s.chainRefuses (Fin.ofNat 17 i)) (fun s => s.fault b R.FILT_FAULT.cfg_invalid)
    let s2 := s1.when (s.xfRefuses (Fin.ofNat 17 i)) (fun s => s.fault b R.XF_FAULT.cfg_invalid)
    s2.when (s.chanRefuses (Fin.ofNat 17 i)) (fun s => s.fault .chan (R.CHAN_FAULT.cfg_invalid i))
  | .trig _ => s.fault b R.TRIG_FAULT.cfg_invalid
  | .records i =>
    let s1 := s.when (s.recsRefuse (Fin.ofNat 17 i)) (fun s => s.fault b R.REC_FAULT.cfg_invalid)
    s1.when (s.synRefuses (Fin.ofNat 17 i)) (fun s => s.fault b R.SYN_FAULT.cfg_invalid)
  | .trigbus | .check | .rxg _ | .placement | .depot | .dma | .dmaRings _ | .queue | .global | .muster | .observe | .auth | .chan => s

/-- What block `b` does when it becomes enabled. -/
def enableStart (b : Blk) (s : State) : State :=
  match b with
  | .trigbus => tbusEnable s
  | .clocks => if s.rd b R.CLK_SPREAD.core_spread = s.clk.spread then s else placeCause 7 (s.rd b R.CLK_CORE.freq) s
  | .check => loadSeeds s
  | .display _ => s.wr b R.DISP_STATUS.state 1
  | .dram c => drainMem (Fin.ofNat 8 c) s
  | .rxg g => rxgEnable (Fin.ofNat 16 g) s
  | .txg g => txgEnable (Fin.ofNat 16 g) s
  | .core i => coreStart (Fin.ofNat 17 i) s
  | .filt i =>
    let n : Fin 17 := Fin.ofNat 17 i
    chanEnable n (xfEnable n (chainEnable n s))
  | .trig i => trigEnable (Fin.ofNat 17 i) s
  | .records i =>
    let n : Fin 17 := Fin.ofNat 17 i
    synEnable n (recsEnable n s)
  | .timebase | .tdc | .housekeeping | .placement | .depot | .dma | .dmaRings _ | .queue | .global | .muster | .observe | .auth
  | .chan => s

/-- What enabling a block checks and does; RECORDS shows the shortest relay delay first (R216). -/
def enableBody (b : Blk) (s : State) : State :=
  let s := match b with
    | .records i => showRelayMin (Fin.ofNat 17 i) s
    | _ => s
  if s.enableRefuses b then enableRefused b s else enableStart b (markEnabled b s)

/-- BLOCK_CTRL.enable is written 1 (R32): a quiescing block is enabled after its acknowledgement; a wedged one not at all. -/
def enableBlk (b : Blk) (s : State) : State :=
  if b.alwaysOn then s
  else if s.flag b R.BLOCK_STATUS.wedged then lockedWrite b s
  else
    let s := s.wr b R.BLOCK_CTRL.enable 1
    if s.enabled b then s else enableBody b s

/-! ### Quiesce (R22) -/

/-- Some declaration is in a state that keeps the check units on (R369). -/
def State.declsLive (s : State) : Bool :=
  (List.range 128).any (fun e =>
    let st := s.declWord e 0 / 2 ^ 8 % 8
    decide (st = 1) || decide (st = 2) || decide (st = 3) || decide (st = 5))

/-- A DRAM channel defers its quiesce during phases 1 to 3 of a retraining. -/
def State.dramDefers (s : State) (c : Nat) : Bool :=
  let p := s.rd (.dram c) R.DRAM_STATUS.phase
  decide (1 ≤ p) && decide (p ≤ 3)

/-- BLOCK_CTRL.enable is written 0: an enabled block is asked to quiesce. -/
def requestQuiesce (b : Blk) (s : State) : State :=
  if b.alwaysOn then s
  else if s.flag b R.BLOCK_STATUS.wedged || (decide (b = .check) && s.declsLive) then lockedWrite b s
  else
    let s := s.wr b R.BLOCK_CTRL.enable 0
    if !s.enabled b || s.flag b R.BLOCK_STATUS.quiescing then s else
    let s := setQuiescedAt b (some ⟨s.tim.raw, if s.domRuns b.dom then none else some s.tim.raw⟩)
      (s.wr b R.BLOCK_STATUS.quiescing 1)
    match b with
    | .core i => s.coreInt i 10
    | .rxg g => rxgDisable (Fin.ofNat 16 g) s
    | .dma => ringsStop (List.finRange 256) s
    | .dmaRings k => ringsStop (slotRings k) s
    | .housekeeping => hkQuiesce s
    | .dram c => if s.dramDefers c then s.setDram (Fin.ofNat 8 c) { s.dram[Fin.ofNat 8 c] with deferredQuiesce := true } else s
    | _ => s

/-- Block `b` can acknowledge its quiesce: its clock runs, it has finished its caravan, row or cycle, and what it must drain has drained. -/
def State.canAck (s : State) (b : Blk) : Bool :=
  let since := (s.quiescedAt b).getD 0
  s.flag b R.BLOCK_STATUS.quiescing && !s.flag b R.BLOCK_STATUS.wedged && s.domRuns b.dom &&
    (match b with
    | .core i => decide (s.coreState i ≠ 1) && decide (s.coreState i ≠ 2)
    | .dram c => !(s.dram[Fin.ofNat 8 c]).deferredQuiesce
    | .dma => (List.finRange 256).all (fun r => !(s.ring r).stopping)
    | .dmaRings k => (slotRings k).all (fun r => !(s.ring r).stopping)
    | .queue => s.queue.recs.all (fun r => !r.reserved || (decide (r.phase = .granted) && decide (since + 50 * usUnits ≤ s.tim.raw)))
    | .filt i | .trig i => s.chainRests (s.chainOf (Fin.ofNat 17 i)) since
    | .records i => s.chainRests (s.chainOf (Fin.ofNat 17 i)) since && s.synRests (Fin.ofNat 17 i) since
    | .rxg g => !s.coreRuns || (s.rx[Fin.ofNat 16 g]).ferry.isEmpty
    | .txg g => !s.emitWaits (Fin.ofNat 16 g)
    | .trigbus => s.tbus.driving.isEmpty
    | .housekeeping => s.hkRests
    | _ => true)

/-- The queue engine becomes disabled (R203). -/
def queueDisable (s : State) : State :=
  let granted := s.queue.recs.filter (fun r => decide (r.phase = .granted) && decide (r.count = 0))
  let s := s.each granted (fun r st => match st.recOf r.q r.seq with | some x => abandon x 7 st | none => st)
  let s := s.each (s.queue.recs.filter Rec.waits) (fun r st => match st.recOf r.q r.seq with | some x => refuse x st | none => st)
  let dirty := s.queue.cache.flatMap (fun p => p.2.filter (·.dirty))
  let s := countWrites dirty.length (s.each dirty (fun w st => writeTable w.q w.ctx st))
  { s with queue := { s.queue with cache := s.queue.cache.map (fun p => (p.1, p.2.map (fun w => { w with dirty := false }))) } }

/-- A running ramp stops where it is (R384). -/
def abortRamp (s : State) : State :=
  let b : Blk := .clocks
  let f := s.coreFreqNow
  if s.rd b R.CLK_STATUS.ramp_state ≠ 1 ∧ s.rd b R.CLK_STATUS.ramp_state ≠ 2 then s else
  let s := setFreq f (s.wr b R.CLK_STATUS.ramp_state 0)
  let s := (s.wr b R.CLK_RAMP_CTRL.go 0).wr b R.CLK_RAMP_CTRL.last_status 0
  let s := { s.wr b R.CLK_STATUS.ramp_segment 0 with
    clk.ramp := []
    clk.relock := none }
  placeCause 7 f s

/-- What a block does when it becomes disabled; it still counts as enabled. -/
def disableBody (b : Blk) (s : State) : State :=
  match b with
  | .timebase => tbDisable s
  | .tdc => tdcDisable s
  | .trigbus => tbusDisable s
  | .clocks => abortRamp s
  | .depot => depotQuiesce s
  | .display d =>
    let s := s.wr b R.DISP_STATUS.state 0
    let s := s.each (List.range 4) (fun n st => st.wr b (R.LAYER_FERRY.level n) 0)
    { s with disp := s.disp.set (Fin.ofNat 2 d) { s.disp[Fin.ofNat 2 d] with ferry := [], late := [], pixels := [], raised := 0 } }
  | .dma => ringsStop (List.finRange 256) s
  | .dmaRings k => ringsStop (slotRings k) s
  | .queue => queueDisable s
  | .rxg g => rxgDisable (Fin.ofNat 16 g) s
  | .filt i =>
    let n : Fin 17 := Fin.ofNat 17 i
    tapEnd n (chainDisable n (chanDisable n (xfDisable n (drainFrames n s))))
  | .trig i => trigDisable (Fin.ofNat 17 i) s
  | .records i => synDisable (Fin.ofNat 17 i) (recsQuiesce (Fin.ofNat 17 i) s)
  | .dram c => s.setDram (Fin.ofNat 8 c) { s.dram[Fin.ofNat 8 c] with pending := [] }
  | .core i => tapEnd (Fin.ofNat 17 i) s
  | .txg _ | .check | .placement | .global | .muster | .observe | .auth | .housekeeping | .chan => s

/-- The block becomes disabled; it is enabled again at once if BLOCK_CTRL.enable has been written 1 meanwhile (R32). -/
def blkDisable (b : Blk) (s : State) : State :=
  let s := disableBody b s
  let s := setQuiescedAt b none ((s.wr b R.BLOCK_STATUS.enabled 0).wr b R.BLOCK_STATUS.quiescing 0)
  let s := match b with
    | .txg g => txgDisable (Fin.ofNat 16 g) s
    | _ => s
  if s.flag b R.BLOCK_CTRL.enable then enableBlk b s else s

/-- The slots of slice `i`, in the order in which a slice quiesces. -/
def sliceSlots (i : Nat) : List Blk := [.filt i, .trig i, .records i, .core i]

end Sys2Proof.Machine
end

