-- ==== Sys2Proof/Machine/Tko.lean ====
section
/-!
DEFINITION. Sys2Proof/Machine/Tko.lean: takeovers (R306 to R313): joining, alignment, the switch, and what abandons one.
-/
namespace Sys2Proof.Machine
open Sys2Proof

/-! ### Slices and what the placement registers show of them (R8, R277) -/

/-- The role of slice `i`: 0 in service, 1 spare, 2 retired. -/
def State.role (s : State) (i : Nat) : Nat := s.rd (.core i) R.SLICE_MODE.role
/-- Slice `i` is placed. -/
def State.placed (s : State) (i : Nat) : Bool := s.flag .placement (R.PL_SLICE.placed i)
/-- The slice in the spare role. A stand-in that works for a slice it has relieved keeps the role until that slice's self-test is
over (R8, R9, log 22). -/
def State.spareHolder (s : State) : Option Nat := (List.range 17).find? (fun i => decide (s.role i = 1))
/-- The slice in the spare role, when it carries no work. -/
def State.spare (s : State) : Option Nat := (List.range 17).find? (fun i => decide (s.role i = 1) && !s.placed i)
/-- Slice `i` is in service: it has that role, or it works for a slice it has relieved. -/
def State.serves (s : State) (i : Nat) : Bool := decide (s.role i = 0) || (decide (s.role i = 1) && s.placed i)
/-- The declaration entry slice `i` works for. -/
def State.entryOf (s : State) (i : Nat) : Nat := s.rd .placement (R.PL_SLICE.entry i)

/-- Some job of the engine waits for slice `i`. -/
def State.inJob (s : State) (i : Nat) : Bool := s.pl.jobs.any (fun j => j.slices.contains i)

/-- Slice `i` is free: in service, not placed, and neither under calibration, nor leaving an analysis, nor a stand-in. -/
def State.free? (s : State) (i : Nat) : Bool :=
  decide (s.role i = 0) && !s.placed i && decide (s.cal.slice ≠ some i) && !s.inJob i && !s.tko.pairs.any (fun p => p.2 = i)

/-- PL_SLICE, PL_STATUS and the free slices of PL_HEADROOM. -/
def showSlices (s : State) : State :=
  let p : Blk := .placement
  let s := s.each (List.range 17) (fun i st =>
    (st.wr p (R.PL_SLICE.role i) (st.role i)).wr p (R.PL_SLICE.mode i) (st.mode i))
  let s := s.wr p R.PL_STATUS.spare_present (bit s.spareHolder.isSome)
  let s := s.wr p R.PL_STATUS.spare_slice (s.spareHolder.getD 0)
  let s := s.wr p R.PL_STATUS.in_service (maskOf 17 (fun i => decide (s.role i = 0)))
  let s := s.wr p R.PL_STATUS.placed (maskOf 17 s.placed)
  let s := s.wr .global R.DEVICE_STATE.slice_retired (maskOf 17 (fun i => decide (s.role i = 2)))
  s.wr p R.PL_HEADROOM.slices ((List.range 17).filter s.free?).length

/-- Set the role of slice `i`. When it takes the spare role or is retired, the stand-in that held the role for it is in service (R9). -/
def setRole (i r : Nat) (s : State) : State :=
  let s := if r = 0 then s else
    s.each (List.range 17) (fun k st => if st.role k = 1 ∧ st.placed k then st.wr (.core k) R.SLICE_MODE.role 0 else st)
  showSlices (s.wr (.core i) R.SLICE_MODE.role r)

/-- PL_EVENT shows a move. -/
def plEvent (cause entry from_ dest result : Nat) (s : State) : State :=
  let p : Blk := .placement
  let s := ((s.wr p R.PL_EVENT.cause cause).wr p R.PL_EVENT.entry entry).wr p R.PL_EVENT.from_slice from_
  (s.wr p R.PL_EVENT.to_slice dest).wr p R.PL_EVENT.result result

/-- Slice `i` receives stream context `c`, or no longer does (R81). -/
def setConsumer (c i : Nat) (on : Bool) (s : State) : State :=
  let m := s.rd .placement (R.PL_STREAM.consumers c)
  s.wr .placement (R.PL_STREAM.consumers c) (if on then Nat.lor m (2 ^ i) else if nbit m i then m - 2 ^ i else m)

/-- Slice `i` receives no stream. -/
def dropConsumer (i : Nat) (s : State) : State := s.each (List.range 64) (fun c st => setConsumer c i false st)

/-- The slots of slice `i` are disabled at once and its core stopped; what it has open is in sinks or is abandoned. -/
def killSlice (i : Nat) (s : State) : State :=
  let s := dropConsumer i s
  let s := s.each (sliceSlots i) (fun b st =>
    if st.enabled b then
      let st := disableBody b (st.wr b R.BLOCK_CTRL.enable 0)
      (st.wr b R.BLOCK_STATUS.enabled 0).wr b R.BLOCK_STATUS.quiescing 0
    else st)
  if s.coreState i = 1 ∨ s.coreState i = 2 then s.wr (.core i) R.CORE_STATUS.state 5 else s

/-- Slice `i` no longer shadows. -/
def endShadow (i : Nat) (s : State) : State :=
  let s := (s.wr (.core i) R.SLICE_MODE.shadowing 0).wr (.core i) R.SLICE_MODE.shadow_of 0
  { s with queue := { s.queue with recs := s.queue.recs.filter (fun r => !(decide (r.prod = i) && isSink r.q)) } }

/-! ### MAINTAIN (R301, R312) -/

/-- Slice `i` enters MAINTAIN to gather its timing set; `toFree` = it is free and returns to the free slices. -/
def enterMaintain (i : Nat) (toFree : Bool) (s : State) : State :=
  let p : Blk := .placement
  let s := (s.wr (.core i) R.SLICE_MODE.mode 5).wr p (R.CAL_SET.state i) 3
  let s := (s.wr p R.CAL_STATUS.slice i).wr p R.CAL_STATUS.active 1
  showSlices { s with cal := { s.cal with slice := some i, toFree := toFree } }

/-! ### Joining and abandoning (R306, R313) -/

/-- The end of a takeover: TKO_LAST. -/
def tkoResult (result : Nat) (s : State) : State :=
  let p : Blk := .placement
  let s := (s.wr p R.TKO_LAST.result result).wr p R.TKO_LAST.incumbent (s.rd p R.TKO_STATUS.incumbent)
  (s.wr p R.TKO_LAST.stand_in (s.rd p R.TKO_STATUS.stand_in)).wr p R.TKO_LAST.cause (s.rd p R.TKO_STATUS.cause)

/-- The phase of the takeover, as TKO_STATUS shows it. -/
def setPhase3 (p : Nat) (s : State) : State := s.wr .placement R.TKO_STATUS.phase p

/-- A calibration takeover that found no match: counted, retried later, and given up after the third (R313). -/
def calFailed (i : Nat) (s : State) : State :=
  let p : Blk := .placement
  let n := s.rd p (R.CAL_SET.fail_count i) + 1
  let s := s.wr p (R.CAL_SET.fail_count i) (min 255 n)
  if 3 ≤ n then s.wr p (R.CAL_SET.unconvergent i) 1
  else { s with cal := { s.cal with retry := s.cal.retry ++ [(i, s.tim.raw)] } }

/-- PL_CTRL's command ends. -/
def plDone (status : Nat) (s : State) : State := mgmtDown ((s.wr .placement R.PL_CTRL.go 0).wr .placement R.PL_CTRL.last_status status)

/-- CAL_CTRL.go of slice `i` ends. -/
def calGoEnd (i status : Nat) (s : State) : State :=
  let p : Blk := .placement
  if s.flag p R.CAL_CTRL.go && decide (s.rd p R.CAL_CTRL.slice = i) then
    mgmtDown ((s.wr p R.CAL_CTRL.go 0).wr p R.CAL_CTRL.last_status status)
  else s

/-- The takeover in progress is abandoned with a result. -/
def tkoAbandon (result : Nat) (s : State) : State :=
  let p : Blk := .placement
  let ph := s.tkoPhase
  if ph = 0 ∨ ph = 4 then s else
  let cause := s.rd p R.TKO_STATUS.cause
  let inc := s.rd p R.TKO_STATUS.incumbent
  let pairs := s.tko.pairs
  let bad := s.tko.fault
  let s := s.each pairs (fun x st => endShadow x.2 (killSlice x.2 st))
  let s := (tkoResult result s).cnt p R.TKO_COUNTS.abandoned 1
  let s := { setPhase3 0 s with tko := TkoSt.zero }
  let s := s.each pairs (fun x st => if st.role x.2 = 1 then st.wr (.core x.2) R.SLICE_MODE.mode 5 else st)
  let s := match result with
    | 2 => if cause = 1 then calGoEnd inc 2 (calFailed inc s) else s
    | 3 => if cause = 1 then calGoEnd inc 2 s else s
    | 4 => match bad with
      | some i => if s.role i = 2 then s else enterMaintain i (decide (s.role i = 0)) s
      | none => s
    | _ => if cause = 1 && s.placed inc then placeCause 1 inc s else s
  showSlices (if cause = 8 then plDone 2 s else s)

/-- The stand-ins join at a caravan boundary: their slots are enabled and they receive the stream. -/
def tkoJoin (s : State) : State :=
  let s := s.each s.tko.pairs (fun x st =>
    let st := (st.wr (.core x.2) R.SLICE_MODE.shadowing 1).wr (.core x.2) R.SLICE_MODE.shadow_of x.1
    let st := st.each (sliceSlots x.2) enableBlk
    match st.streamOf x.1 with
    | some c => setConsumer c x.2 true st
    | none => st)
  setPhase3 2 { s with tko := { s.tko with joinAt := s.tim.raw } }

/-- A fault in a stand-in has ended its takeover. -/
def tkoSettle (s : State) : State := if s.tko.fault.isSome then { tkoAbandon 4 s with tko.fault := none } else s

/-! ### Alignment (R307) -/

/-- The state of the incumbent's trigger unit that the stand-in takes at B_a. -/
def alignTrig (inc st : Fin 17) (s : State) : State :=
  let t := s.trigs[inc]
  let own := s.trigs[st]
  let s := s.setTrig st { t with
    events := own.events
    fast := own.fast }
  let s := s.wr (.trig st) R.TRIG_STATUS.arm_state (s.rd (.trig inc) R.TRIG_STATUS.arm_state)
  s.wr (.trig st) R.TRIG_STATUS.cond_state (s.rd (.trig inc) R.TRIG_STATUS.cond_state)

/-- B_a: the first boundary at which the stand-ins deliver outputs, from time `t` on. -/
def tkoAlign (t : Nat) (s : State) : State :=
  let s := s.each s.tko.pairs (fun x st => alignTrig (Fin.ofNat 17 x.1) (Fin.ofNat 17 x.2) st)
  let p : Blk := .placement
  let s := (s.wrw p 0x0C0 0).wr p R.TKO_STATUS.matched_run 0
  setPhase3 3 { s with tko := { s.tko with items := [], passed := 0, mboxI := 0, mboxS := 0, alignT := t } }

/-! ### The switch (R309 to R311) -/

/-- What slice `i` holds open: class, interval or trigger, T96 of its first sample. -/
def State.opens (s : State) (i : Fin 17) : List (Nat × Nat × T96) :=
  let e := s.recs[i]
  (List.finRange 5).filterMap (fun r => e.red[r].map (fun a => (2 + r.val, a.j, a.t1)))
    ++ (List.finRange 4).filterMap (fun k => e.dens[k].map (fun a => (7 + k.val, a.j, a.t1)))
    ++ e.caps.map (fun c => (1, c.nt, c.t2))
    ++ (match e.cont with | some c => [(12, 0, c.t1)] | none => [])
    ++ s.chans[i].recs.filterMap (fun p => p.2.map (fun r => (13 + p.1, r.q0, r.t1)))

/-- min_match, 0 acting as 1. -/
def State.minMatch (s : State) : Nat := max 1 (s.rd .placement R.CAL_CFG.min_match)

/-- A record that slice `i` holds for a measurement block was opened by the stand-in too: its first sample does not come before B_a. -/
def State.heldShared (s : State) (i : Fin 17) : Bool := (s.heldOf i).all (fun r => decide (s.tko.alignT ≤ ofT96 r.t1))

/-- The conditions of a bit-exact switch (R309). -/
def State.tkoExact (s : State) : Bool :=
  decide (s.minMatch ≤ s.rd .placement R.TKO_STATUS.matched_run) && decide (s.rd .placement R.TKO_COMPARE.mismatched = 0)
    && s.tko.items.all (fun x => decide (x.kind = 1))
    && s.tko.pairs.all (fun x =>
      let st := s.opens (Fin.ofNat 17 x.2)
      (s.opens (Fin.ofNat 17 x.1)).all st.contains && s.heldShared (Fin.ofNat 17 x.1))

/-- How the takeover switches at this boundary: not, bit-exact, or forced. -/
def State.tkoMaySwitch (s : State) : Option Bool :=
  if s.tkoPhase ≠ 3 then none
  else match s.rd .placement R.TKO_STATUS.cause with
    | 8 => some false
    | 2 => if s.minMatch ≤ s.tko.passed then some (!s.tkoExact) else none
    | _ => if s.tkoExact then some false else none

/-- The records the incumbent has open pass to the stand-in with the incumbent's accumulators. -/
def passOpen (inc st : Fin 17) (s : State) : State :=
  let s := s.setRecs st s.recs[inc]
  let s := s.setChan st { s.chans[inc] with proto := s.chans[st].proto }
  let s := s.setChan inc { s.chans[inc] with recs := [] }
  s.setRecs inc RecSt.zero

/-- An accumulator of the stand-in takes the sequence of the incumbent's, or a fresh one of class `cls`. -/
def adoptSeq (st : Fin 17) (cls : Nat) (twin : Option (Option Nat)) (t1 : T96) (bound : Nat) (s : State) : State × Option Nat :=
  match twin with
  | some q => (s, q)
  | none => openClass st cls t1 bound 0 s

/-- A forced switch: the stand-in's accumulators go on, with the incumbent's sequences where it had the same record open; the
incumbent's other open records are abandoned (R311). -/
def passForced (inc st : Fin 17) (s : State) : State :=
  let a := s.recs[st]
  let b := s.recs[inc]
  let theirs := s.opens st
  -- the incumbent's records without a counterpart
  let s := s.each (List.finRange 5) (fun r z => match b.red[r] with
    | some x => if theirs.contains (2 + r.val, x.j, x.t1) then z else abandonClass inc (2 + r.val) x.seq z
    | none => z)
  let s := s.each (List.finRange 4) (fun k z => match b.dens[k] with
    | some x => if theirs.contains (7 + k.val, x.j, x.t1) then z else abandonClass inc (7 + k.val) x.seq z
    | none => z)
  let s := s.each b.caps (fun x z => if theirs.contains (1, x.nt, x.t2) then z else abandonClass inc 1 x.seq z)
  let s := match b.cont with
    | some x => if theirs.contains (12, 0, x.t1) then s else abandonClass inc 1 (some x.seq) s
    | none => s
  let s := s.each s.chans[inc].recs (fun p z => match p.2 with
    | some r => if theirs.contains (13 + p.1, r.q0, r.t1) then z
      else match z.recOf (z.chanQueue inc p.1) r.seq with
        | some x => abandon x 7 z
        | none => z
    | none => z)
  -- the stand-in's own
  let s := s.each (List.finRange 5) (fun r z => match a.red[r] with
    | some x =>
      let twin := match b.red[r] with | some y => if y.j = x.j ∧ y.t1 = x.t1 then some y.seq else none | none => none
      let (z, q) := adoptSeq st (2 + r.val) twin x.t1 x.bound z
      let e := z.recs[st]
      z.setRecs st { e with red := e.red.set r (some { x with seq := q }) }
    | none => z)
  let s := s.each (List.finRange 4) (fun k z => match a.dens[k] with
    | some x =>
      let twin := match b.dens[k] with | some y => if y.j = x.j ∧ y.t1 = x.t1 then some y.seq else none | none => none
      let (z, q) := adoptSeq st (7 + k.val) twin x.t1 x.bound z
      let e := z.recs[st]
      z.setRecs st { e with dens := e.dens.set k (some { x with seq := q }) }
    | none => z)
  let s := s.setRecs st { s.recs[st] with caps := [] }
  let s := s.each a.caps (fun x z =>
    let twin := (b.caps.find? (fun y => y.nt = x.nt ∧ y.t2 = x.t2)).map (·.seq)
    let (z, q) := adoptSeq st 1 twin x.t1 x.bound1 z
    let e := z.recs[st]
    z.setRecs st { e with caps := e.caps ++ [{ x with seq := q }] })
  let s := match a.cont with
    | some x =>
      let twin := match b.cont with | some y => if y.t1 = x.t1 then some (some y.seq) else none | none => none
      let (z, q) := adoptSeq st 1 twin x.t1 x.bound s
      z.setRecs st { z.recs[st] with cont := q.map (fun n => { x with seq := n }) }
    | none => s
  let mine := s.chans[st].recs
  let s := s.each mine (fun p z => match p.2 with
    | some r =>
      let y := SMap.get (fun _ => none) z.chans[inc].recs p.1
      let (z, n) := match y with
        | some y => if y.q0 = r.q0 then (z, y.seq) else openRec (z.chanQueue st p.1) st.val 11 r.t1 r.bound 0 z
        | none => openRec (z.chanQueue st p.1) st.val 11 r.t1 r.bound 0 z
      z.setChan st { z.chans[st] with recs := SMap.set (fun _ => none) z.chans[st].recs p.1 (some { r with seq := n }) }
    | none => z)
  let s := s.setChan inc { s.chans[inc] with recs := [] }
  -- the ring and its directory go on
  let e := s.recs[st]
  let s := s.setRecs st { e with slots := b.slots, dir := b.dir, starts := b.starts, doneJ := b.doneJ, car := b.car, last := b.last }
  s.setRecs inc RecSt.zero

/-- Copy the words at these offsets of one block to another. -/
def copyWords (a b : Blk) (os : List Nat) (s : State) : State := s.each os (fun o st => st.wrw b o (st.rdw a o))

/-- The engine-owned fields of the incumbent go to the stand-in: queues, maps, rings, routes, pins, muster source, gang lead. -/
def passOwned (inc st : Fin 17) (s : State) : State :=
  let i := inc.val
  let j := st.val
  let s := copyWords (.records i) (.records j) ([R.CAP_RING.base.off, R.SGRAM_CFG.base.off, R.SYN_ROUTE.groups.off]
    ++ (List.range 11).map (fun c => (R.REC_CLASS.queue c).off)) s
  let s := copyWords (.records i) (.records j) [R.SYN_STATUS.state.off, R.SYN_INDEX.index.off, R.PB_CONSUMED.consumed.off,
    R.CAP_STATUS.head.off, R.SGRAM_HEAD.interval.off] s
  let s := s.wrw .chan (R.CHAN_MAP.qbase j).off (s.rdw .chan (R.CHAN_MAP.qbase i).off)
  let s := s.setSyn st s.syns[inc]
  let s := s.setSyn inc { s.syns[inc] with routes := [] }
  let s := s.each (List.range 4) (fun k z =>
    if z.rd .trigbus (R.TRIG_OUT_CFG.slice k) = i then z.wr .trigbus (R.TRIG_OUT_CFG.slice k) j else z)
  let s := if s.rd .muster R.MUSTER_CTRL.trig_slice = i then s.wr .muster R.MUSTER_CTRL.trig_slice j else s
  if 1 < s.gangG i ∧ s.rd (.filt i) R.XF_GANG.lead_slice = i then
    s.each (List.range 17) (fun k z =>
      if z.gangG k = z.gangG i ∧ z.rd (.filt k) R.XF_GANG.lead_slice = i then z.wr (.filt k) R.XF_GANG.lead_slice j else z)
  else s

/-- The place of the incumbent in the placement registers goes to the stand-in. -/
def passPlace (inc st : Nat) (s : State) : State :=
  let p : Blk := .placement
  let e := s.entryOf inc
  let s := s.wrw p (0x1000 + 0x10 * st) (s.rdw p (0x1000 + 0x10 * inc))
  let s := s.wrw p (0x1008 + 0x10 * st) (s.rdw p (0x1008 + 0x10 * inc))
  let s := (s.wrw p (0x1000 + 0x10 * inc) 0).wrw p (0x1008 + 0x10 * inc) 0
  let s := s.wr p (R.PL_SLICE.version st) (s.rd (.core st) R.CORE_IMAGE.version)
  let s := s.wr p (R.PL_SLICE.program st) (s.rd (.core st) R.CORE_IMAGE.program_id)
  let s := s.each (List.range 17) (fun k z =>
    if z.placed k && decide (z.rd p (R.PL_SLICE.lead_slice k) = inc) && decide (z.entryOf k = e) then
      z.wr p (R.PL_SLICE.lead_slice k) st else z)
  let w := s.declWord e 7
  let m := nbits w 48 32
  let m := Nat.lor (if nbit m inc then m - 2 ^ inc else m) (2 ^ st)
  s.wrw p (0x2000 + 0x40 * e + 56) (putBits w 48 32 m)

/-- One incumbent's work passes to its stand-in. -/
def switchPair (forced : Bool) (x : Nat × Nat) (s : State) : State :=
  let inc : Fin 17 := Fin.ofNat 17 x.1
  let st : Fin 17 := Fin.ofNat 17 x.2
  let s := s.wr (.core st) R.SLICE_MODE.shadowing 0
  let s := s.wr (.core st) R.SLICE_MODE.shadow_of 0
  let s := passOwned inc st s
  let s := if forced then passForced inc st s else passOpen inc st s
  -- records not yet complete change hands; the sinks' are dropped
  let keep := s.queue.recs.filter (fun r => !(decide (r.prod = st.val) && isSink r.q))
  let recs := keep.map (fun r => if r.prod = inc.val ∧ r.phase = .building then { r with prod := st.val } else r)
  let s := { s with queue := { s.queue with recs := recs } }
  let c := s.chains[inc]
  let s := s.setChain st { s.chains[st] with
    fbuf := c.fbuf
    fstarts := c.fstarts
    jobs := c.jobs
    fnext := c.fnext
    frameFl := c.frameFl
    gaps := c.gaps }
  let s := s.setTrig st { s.trigs[st] with events := s.trigs[inc].events }
  let s := s.setTrig inc { s.trigs[inc] with events := [] }
  let s := s.setChain inc { s.chains[inc] with fbuf := [], fstarts := [], jobs := [], gaps := [] }
  let s := match s.streamOf x.1 with
    | some c => setConsumer c x.1 false s
    | none => s
  refreshOuts (passPlace inc.val st.val s)

/-- What becomes of a relieved slice once it has quiesced (R9, R276). -/
def relieved (cause : Nat) (fromSpare : Bool) (i : Nat) : PlThen := if cause = 8 && !fromSpare then .unplace i else .relieve i

/-- B_sw: the switch, in one caravan boundary whose first sample has time `t`. -/
def tkoSwitch (forced : Bool) (t : T96) (s : State) : State :=
  let p : Blk := .placement
  let cause := s.rd p R.TKO_STATUS.cause
  let pairs := s.tko.pairs
  let inc := s.rd p R.TKO_STATUS.incumbent
  let sp := s.spare
  let e := s.entryOf inc
  let s := s.each pairs (fun x st => { st with cal.moves := SMap.set (fun _ => none) st.cal.moves x.1 none })
  let s := s.each pairs (switchPair forced)
  let s := s.wrT96 p R.TKO_SWITCH_T96.lo t
  let s := s.cnt p R.TKO_COUNTS.switches 1
  let s := s.when forced (fun s => s.cnt p R.TKO_COUNTS.forced 1)
  let s := tkoResult (bit forced) s
  let s := s.cnt p R.PL_COUNTS.replacements 1
  let s := plEvent cause e inc (s.rd p R.TKO_STATUS.stand_in) 0 s
  let s := match cause, s.tko.update with
    | 8, some (a, l, d) =>
      let s := s.wrw p (0x2000 + 0x40 * e + 8) a
      let s := s.wrw p (0x2000 + 0x40 * e + 16) (putBits (s.declWord e 2) 31 0 l)
      let s := s.wrw p (0x2000 + 0x40 * e) (putBits (s.declWord e 0) 26 26 (bit d))
      plDone 0 (s.each (List.range 17) (fun i st => if st.placed i && decide (st.entryOf i = e) then st.wr p (R.CAL_SET.unconvergent i) 0 else st))
    | _, _ => s
  let jobs := pairs.map (fun x => (⟨[x.1], relieved cause (decide (sp = some x.2)) x.1⟩ : PlJob))
  let s := { s with pl := { s.pl with jobs := s.pl.jobs ++ jobs }, tko := TkoSt.zero }
  let s := s.each pairs (fun x st => st.each (sliceSlots x.1) requestQuiesce)
  showSlices (setPhase3 4 s)

/-- The takeover at the caravan boundary of incumbent `i` whose first sample has time `t`. -/
def tkoBoundary (i : Nat) (t : T96) (s : State) : State :=
  if !s.tko.pairs.any (fun x => x.1 = i) then s else
  match s.tkoMaySwitch with
  | some f => tkoSwitch f t s
  | none => s

end Sys2Proof.Machine
end

