-- ==== Sys2Proof/Machine/Deliver.lean ====
section
/-!
DEFINITION. Sys2Proof/Machine/Deliver.lean: input samples on their way through a slice (R68, R81, R84, R95 to R100, R127, R187, R436):
delivery by the crossbar, caravan boundaries, settling, gaps, new runs; the staged commits of the chain and the transform engine.
-/
namespace Sys2Proof.Machine
open Sys2Proof

/-! ### Timing sets at a boundary (R302 to R304) -/

/-- A trim after a move. -/
def moveTrim (w t : Nat) (d : Int) : Nat := putBits w (8 * t + 6) (8 * t) ((nbits w (8 * t + 6) (8 * t) + d) % 128).toNat

/-- Trim moves that waited for the caravan boundary of slice `i` take effect. -/
def applyMoves (i : Nat) (s : State) : State :=
  match SMap.get (fun _ => none) s.cal.moves i with
  | none => s
  | some ds =>
    let p : Blk := .placement
    let a := 0x1400 + 0x40 * i
    let old := (SMap.get (fun _ => none) s.cal.track i).getD (List.replicate 12 0)
    let new := List.zipWith (fun (o d : Int) => max (-8) (min 8 (o + d))) old ds
    let real := List.zipWith (fun (n o : Int) => n - o) new old
    let s := { s with cal := { s.cal with
      moves := SMap.set (fun _ => none) s.cal.moves i none
      track := SMap.set (fun _ => none) s.cal.track i (some new) } }
    let s := s.wrw p (a + 16) ((List.range 8).foldl (fun w t => moveTrim w t (real.getD t 0)) (s.rdw p (a + 16)))
    let s := s.wrw p (a + 24) ((List.range 4).foldl (fun w t => moveTrim w t (real.getD (8 + t) 0)) (s.rdw p (a + 24)))
    let s := s.wrw p (a + 32) ((List.range 12).foldl (fun w t =>
      putBits w (4 * t + 3) (4 * t) (code 4 (max (-7) (min 7 (new.getD t 0))))) 0)
    let s := s.cnt p R.CAL_COUNTS.tracking_steps (real.filter (fun d => d ≠ 0)).length
    if new.any (fun n => n.natAbs = 8) then makeStale i 3 s else s

/-- Slice `i` writes or reads DRAM by caravans: a capture or spectrum ring, playback or insertion from DRAM. -/
def State.usesRing (s : State) (i : Fin 17) : Bool :=
  let r : Blk := .records i
  ((decide (s.mode i = 1) || s.specRing i) && decide (s.rd r R.CAP_CFG.slots ≠ 0))
    || (decide (s.mode i = 3) && s.flag r R.PB_BASE.target) || (decide (s.mode i = 4) && s.flag r R.SYN_CFG.insert)

/-- The caravan that begins now carries CAL_STALE (R304). -/
def State.calStale (s : State) (i : Fin 17) : Bool :=
  decide (s.rd .placement (R.CAL_SET.state i) = 2)
    || (s.usesRing i && s.populated.any (fun c => s.enabled (.dram c.val) && s.flag (.dram c.val) R.DRAM_STATUS.stale))

/-! ### Caravans (R95) -/

/-- A residue error lies in or after the window of output `m` (R100). -/
def State.resTouches (s : State) (i : Fin 17) (m : Nat) : Bool :=
  match s.chains[i].resIdx with
  | some e => decide (m * s.chainD i ≤ e + (s.chainW i - 1))
  | none => false

/-- A caravan begins at output `m`: its flags, and the group delay in force for it (R95, R98). -/
def openCaravan (i : Fin 17) (m : Nat) (s : State) : State :=
  let c := s.chains[i]
  let fl := Nat.lor c.pendFl (Nat.lor (8 * bit (s.calStale i)) (64 * bit (s.resTouches i m)))
  s.setChain i { c with carFl := fl, carGd := s.chainGD i, pendFl := 0, carOpen := true }

/-- The signature of the caravan that ends at output `m` (R308). -/
def caravanItem (i : Fin 17) (m : Nat) (s : State) : State :=
  let c := s.chains[i]
  if s.framed i then s
  else
    let s := s.setChain i { c with sig := 0 }
    if c.carOpen && decide (m % 4096 = 0) then tkoItem i.val 1 [m / 4096] c.sig s else s

/-- The staged changes of the chain and the engine at output `m`, input index `n`: the settling of a retune counts the window of the bank in
force after the boundary (R88, R92, R94, R96, R110, R118). -/
def applyStaged (i : Fin 17) (n : Nat) (s : State) : State :=
  let retuned := (s.committer i R.FILT_COMMIT.retune).isSome
  let s := (applyRetune i n s).each (s.gang i) applySwitch
  let s := s.when retuned (retuneSettle i n)
  s.when (s.framed i) (applyWindow i)

/-- Output `m` is delivered: it is neither suppressed, nor withheld for a loss, nor before the boundary a resume waits for. -/
def State.delivers (s : State) (i : Fin 17) (m : Nat) : Bool :=
  s.windowClean i m && decide (s.chains[i].skipTo ≤ m) && !s.suppressed i m

/-- The boundary at output `m`, input index `n`: every staged change that is pending applies (R88, R92, R94, R110, R144, R189, R215). -/
def doBoundary (i : Fin 17) (n m : Nat) (s : State) : State :=
  let s := applyStaged i n (caravanItem i m s)
  let s := s.setChain i { s.chains[i] with pwrOff := signed 16 (s.rd (.filt i) R.PWR_REF.pwr_offset) }
  let s := s.when (decide (s.mode i = 4)) (applyGain i)
  let (s, terms) := trigBoundary i s
  let s := s.setChain i { s.chains[i] with
    terms := if terms.isSome then terms else s.chains[i].terms
    boundaryAt := some m
    sig := 0 }
  let s := chanBoundary i m s
  let s := applyMoves i.val s
  let s := s.each (s.gang i) coreBoundary
  let s := s.observe i.val 1 1 m
  -- a chain that quiesces finishes the frames it has begun and begins no other (R22, R101)
  let s := s.when (s.framed i && decide (m % s.frameH i = 0) && !s.flag (.filt i) R.BLOCK_STATUS.quiescing) (frameBegin i (m / s.frameH i))
  let s := if s.delivers i m then openCaravan i m s else s.setChain i { s.chains[i] with carOpen := false }
  s.each (s.gang i) (fun g st => st.wr (.filt g) R.FILT_STATUS.state 2)

/-- A caravan boundary is due at output `m`. -/
def State.boundaryDue (s : State) (i : Fin 17) (m : Nat) : Bool :=
  let c := s.chains[i]
  decide (c.boundaryAt ≠ some m) && (decide (m % s.caravan i = 0) || (!c.carOpen && !s.framed i))

/-- The stand-in of slice `i`. -/
def State.standIn (s : State) (i : Nat) : Option (Fin 17) := (s.tko.pairs.find? (fun p => p.1 = i)).map (fun p => Fin.ofNat 17 p.2)

/-- The time of output `m` of slice `i`. -/
def State.alignTime (s : State) (i : Fin 17) (m : Nat) : Nat :=
  match s.streamOf i with
  | some c => (s.outTime i c m).toNat
  | none => 0

/-- A stand-in that settles aligns at a caravan boundary at which it delivers (R307). -/
def alignAt (i : Fin 17) (m : Nat) (s : State) : State :=
  if s.tkoPhase = 2 && s.shadowing i && decide (m % s.caravan i = 0) && s.delivers i m then tkoAlign (s.alignTime i m) s else s

/-- The boundary of slice `i` at output `m`, and the switch of a takeover there. -/
def boundaryOf (i : Fin 17) (n m : Nat) (s : State) : State :=
  if s.boundaryDue i m then doBoundary i n m (alignAt i m s) else s

/-- The boundary of an incumbent and its stand-in at output `m` of context `c`, and the switch. -/
def tkoBoundaryAt (i : Fin 17) (c n m : Nat) (s : State) : State :=
  match s.standIn i with
  | none => s
  | some j =>
    let s := if s.chains[j].pos = m then boundaryOf j n m s else s
    let s := boundaryOf i n m s
    if m % s.caravan i = 0 then tkoBoundary i (toT96 (s.outTime i c m) (s.sampleQ c)) s else s

/-! ### Gaps -/

/-- A gap begins at time `t`: what was delivered before it goes through the units (R127, R177), a tap ends (R260). -/
def gapStart (i : Fin 17) (t : Int) (s : State) : State :=
  let s := if s.cores[i].tap.started then tapEnd i s else s
  let s := drainFrames i s
  if s.enabled (.trig i) then trigGap i t s else s

/-- suppress_remaining: outputs still to be suppressed from output `m` on. -/
def showSuppress (i : Fin 17) (m : Nat) (s : State) : State :=
  let n := min (2 ^ 32 - 1) (s.chains[i].clearAt - m)
  s.each (s.gang i) (fun g st => st.wr (.filt g) R.FILT_STATUS.suppress_remaining n)

/-- Output `m` is the first of a gap: the outputs before it were delivered or suppressed. -/
def State.beginsGap (s : State) (i : Fin 17) (m : Nat) : Bool :=
  match s.chains[i].gaps.getLast? with
  | some g => decide (g.first + g.count ≠ m)
  | none => true

/-- Outputs `m` to `m + n − 1` are not delivered. -/
def missOutputs (i : Fin 17) (m n reason : Nat) (t : Int) (s : State) : State :=
  if n = 0 then s else
  let sup := min n (s.chains[i].clearAt - m)
  let s := if sup < n && s.beginsGap i (m + sup) then gapStart i t s else s
  let s := withhold i m n reason t s
  let s := chanMiss i m sup none s
  let s := chanMiss i (m + sup) (n - sup) (some reason) s
  let s := s.when (s.framed i) (passFrames i (m + n))
  showSuppress i (m + n) (setPos i (m + n) s)

/-! ### An output (R95 to R99) -/

/-- The detectors at tap `tap` of slice `i` see a sample whose period is `num`/`den` units. -/
def tapSample (i : Fin 17) (tap : Nat) (z : TdIn) (num den : Nat) (s : State) : State :=
  s.each (List.finRange 4) (fun k st => if st.rd (.trig i) (R.TD_CFG.tap k) = tap then tdSample i k z num den st else st)

/-- The program of slice `i`: its ID and version (R165, R311). -/
def State.progVer (s : State) (i : Nat) : Nat := s.rd (.core i) R.CORE_IMAGE.program_id * 65536 + s.rd (.core i) R.CORE_IMAGE.version

/-- Gaps not yet reported come first: what was delivered before them goes to the ring and its records (R175), then the GAP records go to every
class queue (R177). -/
def reportGaps (i : Fin 17) (s : State) : State :=
  let l := s.chains[i].gaps
  let s := s.setChain i { s.chains[i] with gaps := [] }
  s.each l (fun g st => (if st.enabled (.records i) then gapAll i 0 g (settleRing i st) else st).coreInt i.val 9)

/-- A delivered output enters the frames of a framed slice: a frame it completes resets the detectors first if one was skipped (R127), and
the frames it makes late are dropped (R106). -/
def frameOutput (i : Fin 17) (o : OutS) (s : State) : State :=
  let n := s.chains[i].jobs.length
  let s := pushFrame i o s
  let s := match (s.chains[i].jobs.drop n).head? with
    | some job => (match job.xs[job.xs.length / 2]? with
      | some x => if s.enabled (.trig i) then resetSkipped i x.t s else s
      | none => s)
    | none => s
  dropLateJobs i o.m s

/-- Output `m` of context `c` is delivered; `x` the input sample at index m·D; `res` = a residue error of the trigger unit's envelope touches
it. -/
def deliverOut (i : Fin 17) (c m : Nat) (res : Bool) (x : Smp) (y : Cx) (s : State) : State :=
  let rate := s.streamRate c
  let s := if s.chains[i].carOpen then s else openCaravan i m s
  let k := s.chains[i]
  let gd := k.carGd * secUnits
  let at_ := fun (t : Int) => rneDiv (t * (256 * rate : Nat) - gd) (256 * rate)
  let t := at_ x.t
  let ib := s.instantBound c
  let o : OutS := ⟨m, y.i, y.q, y.ovr, t, s.sampleQ c, s.sampleBound c, k.carFl, k.carGd, c, ib, s.progVer i⟩
  let s := reportGaps i s
  let s := s.each (s.outMembers i m) (fun g st => st.cnt (.filt g) R.OVR_OUTPUTS.count (bit o.ovr))
  let s := s.when (decide (s.mode i = 1) && s.enabled (.records i)) (recOutput i o)
  let s := forwardOutput i o s
  let s := s.when (s.framed i) (frameOutput i o)
  let s := chanPush i o s
  let bnd := decide (s.chains[i].boundaryAt = some m)
  let s := tapPush i o bnd s
  let s := if !s.enabled (.trig i) then s else
    let s := tapSample i 1 ⟨o.i, o.q, o.ovr, res, t, o.qual, ib⟩ (s.chainD i * secUnits) rate s
    let k := s.chains[i]
    pushAxis i ⟨m, t, at_ (s.sampleTime c ((m + 1) * s.chainD i)), o.qual, ib, bnd, k.terms, false, o.bound⟩ s
  let k := s.chains[i]
  let s := s.setChain i { k with
    terms := none
    sig := if s.tkoPhase = 3 then crc 2 (leBytes 8 k.sig ++ leBytes 3 (code 24 y.i) ++ leBytes 3 (code 24 y.q)) else 0 }
  showSuppress i (m + 1) (setPos i (m + 1) s)

/-! ### An input sample -/

/-- The first sample of a run, or since enable, comes at index `n`. Frames that ended before it are none of this enable's; a frame it cuts is
skipped (R104). Reductions and planes begin at the next interval boundary (R181). -/
def firstSample (i : Fin 17) (c n : Nat) (s : State) : State :=
  let k := s.chains[i]
  let m := ceilDiv n (s.chainD i)
  let len := s.frameN i
  let s := s.setChain i { k with
    any := true
    next := n
    left := none
    fnext := if s.framed i && decide (len ≤ m) then (m - len) / s.frameH i + 1 else 0 }
  let s := settleFrom i n s
  let e := s.recs[i]
  let s := if e.from_.isNone then s.setRecs i { e with from_ := some (ceilDiv m (s.frameH i)) } else s
  let s := match k.left with
    | some (r, a) =>
      -- outputs that fall into the time the slot was disabled (R22, R97)
      if k.run = some r ∧ a < n then
        let (m0, cnt) := s.outputsIn i a n
        addGap i m0 cnt 4 (s.outTime i c m0) s
      else s
    | none => s
  let s := s.when (s.framed i) (showNextFrame i)
  showSuppress i m (setPos i m s)

/-- Input indices [next, n) never came (R97). -/
def fillHole (i : Fin 17) (c n hole : Nat) (s : State) : State :=
  let k := s.chains[i]
  if n ≤ k.next then s else
  let reason := if hole = 0 then 1 else hole
  let (m0, cnt) := s.outputsIn i k.next n
  let t := s.sampleTime c k.next
  let s := if s.enabled (.trig i) then tdReset i 0 t s else s
  let s := pushLost i k.next n (s.setChain i { k with next := n, lossReason := reason })
  missOutputs i m0 cnt reason (s.outTime i c m0) s

/-! ### Residue errors while samples are delivered (R100, R158, R201) -/

/-- The caravan under way carries RESIDUE, and every later one whose first window reaches back to index `n` will. -/
def flagResidue (i : Fin 17) (n : Nat) (s : State) : State :=
  let c := s.chains[i]
  s.setChain i { c with
    carFl := if c.carOpen then Nat.lor c.carFl 64 else c.carFl
    resIdx := some n }

/-- Input sample `f.idx` of slice `f.slice` meets a mismatch or an uncorrectable error. -/
def resFault (f : ResFault) (s : State) : State :=
  let i := f.slice
  match f.unit.val with
  | 0 => flagResidue i f.idx (residueError i 0 (s.fault (.filt i) R.FILT_FAULT.residue))
  | 1 => flagResidue i f.idx (residueError i 0 (s.fault (.filt i) R.FILT_FAULT.coef_ecc))
  | 2 => if s.enabled (.trig i) then residueError i 2 (s.fault (.trig i) R.TRIG_FAULT.residue) else s
  | u =>
    if !s.chanRuns i then s
    else if u = 3 then
      let s := residueError i 4 (s.fault .chan (R.CHAN_FAULT.residue i))
      s.setChan i { s.chans[i] with fl := Nat.lor s.chans[i].fl 64 }
    else
      let s := residueError i 4 (s.fault .chan (R.CHAN_FAULT.proto_ecc i))
      s.setChan i { s.chans[i] with badAt := some (f.idx / s.chainD i) }

/-! ### A sample -/

/-- The slot quiesces and its chain has finished its caravan, or does not wait for its end: it takes no further samples (R22, R101). -/
def State.chainStops (s : State) (i : Fin 17) : Bool :=
  s.flag (.filt i) R.BLOCK_STATUS.quiescing && s.chainRests i ((s.quiescedAt (.filt i)).getD 0)

/-- The chain has taken its last sample before its slot is disabled. -/
def chainStop (i : Fin 17) (s : State) : State :=
  let c := s.chains[i]
  match c.run, c.left with
  | some r, none => if c.any then s.setChain i { c with left := some (r, c.next) } else s
  | _, _ => s

/-- A lost sample comes at index `n`: it enters the histories as a zero (R97). -/
def lostStep (i : Fin 17) (c n : Nat) (x : Smp) (s : State) : State :=
  let d := s.chainD i
  let s := if s.enabled (.trig i) then tdReset i 0 x.t s else s
  let s := pushLost i n (n + 1) (s.setChain i { s.chains[i] with lossReason := 1 })
  if n % d = 0 then missOutputs i (n / d) 1 1 (s.outTime i c (n / d)) s else s

/-- A sample comes at index `n`: the boundary it lies at, the detectors at tap 0, the chain, and the output it computes. -/
def liveStep (i : Fin 17) (c n : Nat) (res : List ResFault) (x : Smp) (s : State) : State :=
  let d := s.chainD i
  let m := n / d
  let hits := fun (p : Nat → Bool) => res.filter (fun f => decide (f.slice = i) && p f.idx)
  let env := fun (p : Nat → Bool) => (hits p).any (fun f => decide (f.unit = 2))
  let s := if n % d = 0 && s.delivers i m then boundaryOf i n m s else s
  let s := s.each (hits (· == n)) resFault
  let s := if s.enabled (.trig i) then
      tapSample i 0 ⟨x.i, x.q, x.ovr, env (· == n), x.t, s.sampleQ c, s.instantBound c⟩ secUnits (s.streamRate c) s
    else s
  match chainPush i n x s with
  | (s, none) => s
  | (s, some y) =>
    if s.delivers i m then deliverOut i c m (env (fun a => a / d == m)) x y s
    else missOutputs i m 1 (if m < s.chains[i].skipTo then 3 else s.chains[i].lossReason) (s.outTime i c m) s

/-- Input sample `n` of context `c` reaches slice `i`. -/
def sampleStep (i : Fin 17) (c n hole : Nat) (res : List ResFault) (x : Smp) (s : State) : State :=
  if s.chainStops i then chainStop i s else
  let s := if s.chains[i].any then fillHole i c n hole s else firstSample i c n s
  if n < s.chains[i].next then s else
  let s := s.setChain i { s.chains[i] with next := n + 1 }
  let s := if n % s.chainD i = 0 then fadeFinish i s else s
  if x.lost then lostStep i c n x s else liveStep i c n res x s

/-! ### Runs (R436) -/

/-- A restart of the stream's run reaches slice `i`. -/
def newRunSlice (i : Fin 17) (run : Nat) (s : State) : State :=
  let k := s.chains[i]
  if k.run = some run then s else
  let s := if k.run.isSome && k.any then
      let s := gapStart i (s.tim.now : Int) s
      let s := s.when (s.enabled (.records i)) (recsRunEnd i)
      -- interval boundaries are counted from the start of the new run
      let s := s.setRecs i { s.recs[i] with from_ := some 0 }
      forwardStop i (chanRunEnd i s)
    else s
  let s := chainRun i (some run) s
  if s.enabled (.trig i) then
    let s := trigGap i (s.tim.now : Int) (tdReset i 0 (s.tim.now : Int) s)
    -- a capture the restart has cut ends POST with it
    s.setTrig i { s.trigs[i] with preFrom := none, postEnd := 0 }
  else s

/-! ### The crossbar (R68, R81) -/

/-- The slices that take the samples of context `c` now: leads of enabled slots, stand-ins first. Samples are ingested in RUN (R16). -/
def State.takers (s : State) (c : Nat) : List (Fin 17) :=
  if s.dev ≠ .run then [] else
  let l : List (Fin 17) := (List.finRange 17).filter (fun (i : Fin 17) => (s.consumers c).contains i.val && s.leads i && s.enabled (.filt i)
    && (decide (s.mode i < 3) || decide (s.mode i = 4)))
  l.filter (fun (i : Fin 17) => s.shadowing i.val) ++ l.filter (fun (i : Fin 17) => !s.shadowing i.val)

/-- The takeover of an incumbent that takes context `c` switches at the boundary at index `n`, if it may. -/
def switchAt (c n : Nat) (x : Smp) (s : State) : State :=
  if s.tkoPhase ≠ 3 && s.tkoPhase ≠ 2 || x.lost then s else
  s.each ((s.takers c).filter (fun (i : Fin 17) => (s.standIn i.val).isSome)) (fun (i : Fin 17) st =>
    let d := st.chainD i
    let m := n / d
    if n % d = 0 ∧ st.chains[i].any ∧ st.chains[i].next = n ∧ m % st.caravan i = 0 ∧ st.delivers i m then
      tkoBoundaryAt i c n m st
    else st)

/-- Samples of one batch, one after the other. -/
def deliverGo (res : List ResFault) (c run hole : Nat) : Nat → List Smp → Op
  | _, [], s => s
  | n, x :: xs, s =>
    let s := s.each (s.takers c) (fun i st => newRunSlice i run st)
    let s := switchAt c n x s
    let s := s.each (s.takers c) (fun i st => sampleStep i c n hole res x st)
    deliverGo res c run hole (n + 1) xs s

/-- One batch reaches the slices, with the errors it meets there. -/
def deliverBatch (res : List ResFault) (b : Batch) (s : State) : State := deliverGo res b.ctx b.run b.hole b.first b.samples s

/-- Insert a batch by its first index. -/
def insertBatch (b : Batch) : List Batch → List Batch
  | [] => [b]
  | x :: xs => if b.first < x.first then b :: x :: xs else x :: insertBatch b xs

/-- Batches of a bond in order: what is next goes, what came too late is dropped, what is missing longer than 1.0 µs is lost. -/
def bondGo (res : List ResFault) : Nat → Nat → Op
  | 0, _, s => s
  | k + 1, c, s =>
    match SMap.get (fun _ => none) s.xbar.next c, SMap.get (fun _ => []) s.xbar.held c with
    | some (run, nx), b :: bs =>
      let put := fun (nx : Nat) (s : State) => { s with xbar := { s.xbar with
        next := SMap.set (fun _ => none) s.xbar.next c (some (run, nx))
        held := SMap.set (fun _ => []) s.xbar.held c bs } }
      let stop := b.first + b.samples.length
      if b.run ≠ run ∨ stop ≤ nx then bondGo res k c (put nx s)
      else if b.first ≤ nx then
        bondGo res k c (deliverBatch res { b with first := nx, samples := b.samples.drop (nx - b.first), hole := 0 } (put stop s))
      else if b.hole ≠ 0 ∨ b.at_ + 65536000 < s.tim.raw then bondGo res k c (deliverBatch res b (put stop s))
      else s
    | _, _ => s

/-- A batch of a bonded stream waits for its place. -/
def bondBatch (res : List ResFault) (b : Batch) (s : State) : State :=
  let c := b.ctx
  let cur := SMap.get (fun _ => none) s.xbar.next c
  let fresh := match cur with
    | some (r, _) => decide (r ≠ b.run)
    | none => true
  let members := match s.streamEntry c with
    | some e => nbits (s.declWord e 0) 22 20 + 1
    | none => 1
  let s := if fresh then { s with xbar := { s.xbar with
      next := SMap.set (fun _ => none) s.xbar.next c (some (b.run, if b.first < 4096 * members then 0 else b.first))
      held := SMap.set (fun _ => []) s.xbar.held c [] } } else s
  let l := insertBatch b (SMap.get (fun _ => []) s.xbar.held c)
  bondGo res l.length c { s with xbar.held := SMap.set (fun _ => []) s.xbar.held c l }

/-- The frames that wait to be formed were there before the entry that comes now (log 26). -/
def ageJobs (s : State) : State :=
  s.each (List.finRange 17) (fun i st =>
    st.setChain i { st.chains[i] with jobs := st.chains[i].jobs.map (fun j => { j with old := true }) })

/-- ingest[g] gives the crossbar one entry; a wedged crossbar moves nothing (R23). -/
def opSampleDelivery (g : Fin 16) (res : List ResFault) (s : State) : State :=
  if !s.coreRuns || s.sharedWedged 0 then s else
  let r := s.rx[g]
  match r.ferry with
  | [] => s
  | bs :: rest =>
    let s := s.setRx g { r with ferry := rest }
    let s := s.wr (.rxg g) R.RXG_FERRY.level rest.length
    tkoSettle ((ageJobs s).each bs (fun b st => if b.bonded then bondBatch res b st else deliverBatch res b st))

/-- The run of the samples that come next for context `c`. -/
def State.nextRun (s : State) (c : Nat) : Option Nat :=
  let fr := (List.finRange 16).filterMap (fun g => ((s.rx[g]).ferry.headD []).find? (fun b => b.ctx = c))
  (fr.head?).map (·.run)

/-- A restart of the stream's run reaches slice `i`, ahead of its samples. -/
def opNewRun (i : Fin 17) (s : State) : State :=
  if !(s.coreRuns && s.enabled (.filt i)) then s else
  match s.streamOf i with
  | none => s
  | some c => match s.nextRun c with
    | some r => if s.chains[i].run.isSome then newRunSlice i r s else s
    | none => s

/-! ### Boundaries and commits as commands -/

/-- The caravan boundary that lies at the next output, or at the next output released by a synthesising slice. -/
def opCaravanBoundary (i : Fin 17) (s : State) : State :=
  if !s.coreRuns then s else
  if s.mode i = 3 then
    -- a synthesising slice: its boundaries are those of its output (R207); the takeover's comparison has no stream
    if s.synState i ≠ 2 ∨ s.synNext i % 4096 ≠ 0 ∨ (s.standIn i).isNone then s else
    let s := if s.tkoPhase = 2 then tkoAlign (s.synInstant i (s.synNext i)).toNat s else
      if s.tkoPhase = 3 then tkoVerdict 1 true { s with tko.passed := s.tko.passed + 1 } else s
    tkoSettle (tkoBoundary i (toT96 (s.synInstant i (s.synNext i)) s.quality) s)
  else
    match s.streamOf i with
    | none => s
    | some c =>
      let k := s.chains[i]
      let m := k.pos
      let n := m * s.chainD i
      if !(s.enabled (.filt i) && s.leads i && k.any && k.carOpen && decide (m % s.caravan i = 0) && s.delivers i m)
        || s.chainStops i then s
      else tkoSettle (tkoBoundaryAt i c n m (boundaryOf i n m s))

/-- The M outputs of a fade have been delivered. -/
def opFadeEnd (i : Fin 17) (s : State) : State := if s.enabled (.filt i) && s.coreRuns then fadeFinish i s else s

/-- FILT_COMMIT.retune is written 1. -/
def opCommitRetune (i : Fin 17) (s : State) : State := filtCommit i 1 false s
/-- FILT_COMMIT.switch is written 1. -/
def opCommitSwitch (i : Fin 17) (s : State) : State := filtCommit i 2 false s
/-- XF_COMMIT.window is written 1. -/
def opCommitWindow (i : Fin 17) (s : State) : State := winCommit i false s

/-- FIR_BANK[b] is written, with load. -/
def opBankLoad (i : Fin 17) (b : Fin 4) (value : BitVec 64) (s : State) : State :=
  let f := fun (x : Fld) => x.get value
  let s := (s.wr (.filt i) (R.FIR_BANK.laddr b) (f (R.FIR_BANK.laddr b))).wr (.filt i) (R.FIR_BANK.length b) (f (R.FIR_BANK.length b))
  bankLoadStart i b s

/-- A coefficient load ends. -/
def opBankLoadDone (i : Fin 17) (b : Fin 4) (s : State) : State := if s.coreRuns then bankLoadEnd i b s else s

/-- WIN_STORE[b].load is written, or U.FFT LOAD gives the word. -/
def opWindowLoad (i : Fin 17) (b : Fin 2) (via : Via) (s : State) : State :=
  match via with
  | .write => winLoadStart i b s
  | .unit y => unitOp i y (pairDst y.an ++ [.s y.bn]) false (fun s =>
      let k := s.cores[i]
      let b : Fin 2 := Fin.ofNat 2 (k.rs y.bn)
      if (s.chains[i].winLoad[b]).isSome then s
      else
        let a := 0x418 + 8 * b.val
        let keep := s.rdw (.filt i) a
        let new := k.pair y.an
        -- the read-only fields loaded and n_loaded keep their values
        let w := (R.WIN_STORE.n_loaded b).put ((R.WIN_STORE.loaded b).put (BitVec.ofNat 64 new)
          ((R.WIN_STORE.loaded b).get (BitVec.ofNat 64 keep))) ((R.WIN_STORE.n_loaded b).get (BitVec.ofNat 64 keep))
        winLoadStart i b (s.wrw (.filt i) a ((R.WIN_STORE.load b).put w 0).toNat)) s

/-- A window load ends. -/
def opWindowLoadDone (i : Fin 17) (b : Fin 2) (s : State) : State := if s.coreRuns then winLoadEnd i b s else s

/-- CAP_CTRL.cont_start, or U.REC CONT: the start bit of the instruction decides. -/
def opContStart (c : Fin 17) (via : Via) (s : State) : State :=
  match via with
  | .write => contStart c s
  | .unit y => unitOp c y [.s y.an] false (fun s => if nbit (s.cores[c].rs y.an) 0 then contStart c s else contStop c s) s
/-- CAP_CTRL.cont_stop, or U.REC CONT. -/
def opContStop (c : Fin 17) (via : Via) (s : State) : State :=
  match via with
  | .write => contStop c s
  | .unit y => unitOp c y [.s y.an] false (fun s => if nbit (s.cores[c].rs y.an) 0 then contStart c s else contStop c s) s

/-- The tap has written its `count` samples. -/
def opTapDone (i : Fin 17) (s : State) : State :=
  let t := s.cores[i].tap
  if s.coreRuns && t.busy && decide (t.count ≤ t.written) then tapEnd i s else s

/-! ### The commands -/

/-- SAMPLE_DELIVERY (R81): The crossbar delivers input samples to a slice, which computes chain outputs, TD conditions and channel samples, with settling, gaps and overrange. -/
def execSampleDelivery (g : Fin 16) (res : List ResFault) (s : State) : Host.Outcome State Fault Refusal :=
  .next (opSampleDelivery g res s)
/-- NEW_RUN (R436): A restart of the stream's run reaches the slice; the history is discarded, indices restart, and open intervals and captures are closed. -/
def execNewRun (i : Fin 17) (s : State) : Host.Outcome State Fault Refusal :=
  .next (opNewRun i s)
/-- CARAVAN_BOUNDARY (R95): A caravan boundary is reached, at which pending retunes, switches, window selections, trigger and selection commits and arm transitions apply. -/
def execCaravanBoundary (i : Fin 17) (s : State) : Host.Outcome State Fault Refusal :=
  .next (opCaravanBoundary i s)
/-- COMMIT_RETUNE (R94): FILT_COMMIT.retune marks a retune pending for the next caravan boundary. -/
def execCommitRetune (i : Fin 17) (s : State) : Host.Outcome State Fault Refusal :=
  .next (onWrite (opCommitRetune i) s)
/-- COMMIT_SWITCH (R93): FILT_COMMIT.switch marks a bank switch pending, deferred behind fades and loads. -/
def execCommitSwitch (i : Fin 17) (s : State) : Host.Outcome State Fault Refusal :=
  .next (onWrite (opCommitSwitch i) s)
/-- FADE_END (R92): The M outputs of a fade are done and only the new bank is used. -/
def execFadeEnd (i : Fin 17) (s : State) : Host.Outcome State Fault Refusal :=
  .next (opFadeEnd i s)
/-- BANK_LOAD (R91): FIR_BANK.load starts copying coefficients into a bank, or is refused if the bank is active or fading. -/
def execBankLoad (i : Fin 17) (b : Fin 4) (value : BitVec 64) (s : State) : Host.Outcome State Fault Refusal :=
  .next (onWrite (opBankLoad i b value) s)
/-- BANK_LOAD_DONE (R91): A coefficient bank load completes and loaded becomes 1. -/
def execBankLoadDone (i : Fin 17) (b : Fin 4) (s : State) : Host.Outcome State Fault Refusal :=
  .next (opBankLoadDone i b s)
/-- COMMIT_WINDOW (R110): XF_COMMIT.window commits the staged window selection. -/
def execCommitWindow (i : Fin 17) (s : State) : Host.Outcome State Fault Refusal :=
  .next (onWrite (opCommitWindow i) s)
/-- WINDOW_LOAD (R109): WIN_STORE.load or U.FFT LOAD starts generating or copying a window store, or is refused. -/
def execWindowLoad (i : Fin 17) (b : Fin 2) (via : Via) (s : State) : Host.Outcome State Fault Refusal :=
  .next (onWrite (opWindowLoad i b via) s)
/-- WINDOW_LOAD_DONE (R109): A window store load ends, WIN_INFO is computed and loaded is set. -/
def execWindowLoadDone (i : Fin 17) (b : Fin 2) (s : State) : Host.Outcome State Fault Refusal :=
  .next (opWindowLoadDone i b s)
/-- CONT_START (R173): CAP_CTRL.cont_start, or U.REC CONT with start = 1, starts continuous capture records. -/
def execContStart (c : Fin 17) (via : Via) (s : State) : Host.Outcome State Fault Refusal :=
  .next (onWrite (opContStart c via) s)
/-- CONT_STOP (R173): CAP_CTRL.cont_stop, or U.REC CONT with start = 0, stops continuous capture. -/
def execContStop (c : Fin 17) (via : Via) (s : State) : Host.Outcome State Fault Refusal :=
  .next (onWrite (opContStop c via) s)
/-- TAP_DONE (R260): A tap ends after count samples or early, writes its header and raises UNIT_DONE. -/
def execTapDone (i : Fin 17) (s : State) : Host.Outcome State Fault Refusal :=
  .next (opTapDone i s)

end Sys2Proof.Machine
end

