-- ==== Sys2Proof/Machine/Access.lean ====
section
/-!
DEFINITION. Sys2Proof/Machine/Access.lean: which register word an offset reaches, what it reads as, what a write does to its bits
(R5, R26, R27, R31 to R34, R36), and the port latches of R30.
-/
namespace Sys2Proof.Machine
open Sys2Proof

/-! ### Finding a word -/

/-- The word of a register row at offset `o`: place in the array, word of the value, access masks. -/
def RegRow.find (r : RegRow) (o : Nat) : Option (Nat × Nat × WordAcc) :=
  if o < r.off then none else
  let d := o - r.off
  let k := if r.stride = 0 then 0 else d / r.stride
  if k < r.n then (r.words[(d - k * r.stride) / 8]?).map (fun a => (k, (d - k * r.stride) / 8, a)) else none

/-- A register word: offset of the value's first byte, width of the value in bytes, and the access masks. -/
structure RegAt where
  key : Nat
  bytes : Nat
  acc : WordAcc
  deriving DecidableEq, Repr

/-- A word no software write changes. -/
def roAcc : WordAcc := ⟨0, 0, 0, 0⟩

/-- The snapshot copies of a row, as a row of their own. -/
def RegRow.copies (r : RegRow) : RegRow := { r with off := r.snap, stride := r.snapStride }

/-- A word found in a row, or in the row's snapshot. -/
def RegRow.at_ (r : RegRow) (o : Nat) : Option RegAt :=
  match r.find o with
  | some (k, _, a) => some ⟨r.off + k * r.stride, r.bytes, a⟩
  | none =>
    if r.snap = 0 then none
    else (r.copies.find o).map (fun x => ⟨r.snap + x.1 * r.snapStride, r.bytes, roAcc⟩)

/-- The read-only spaces: HB_ROM, FIR_COEF and LOG_ROM (R94, R113), the register files of a core and their snapshots (R248, R249). -/
def Blk.roSpace (b : Blk) (o : Nat) : Option RegAt :=
  match b with
  | .filt _ =>
    if (0x1000 ≤ o ∧ o < 0x1600) ∨ (0x2000 ≤ o ∧ o < 0x3000) ∨ (0x3000 ≤ o ∧ o < 0x4000) then some ⟨o / 8 * 8, 8, roAcc⟩ else none
  | .core _ =>
    let p := o % 0x1000
    if o = 0x910 then some ⟨0x910, 4, roAcc⟩
    else if (o < 0x1000 ∨ 0x3000 ≤ o) ∨ 0x7C0 ≤ p then none
    else if p < 0x100 ∨ 0x700 ≤ p then some ⟨o / 8 * 8, 8, roAcc⟩
    else if p < 0x500 then some ⟨o / 32 * 32, 32, roAcc⟩
    else some ⟨o / 64 * 64, 64, roAcc⟩
  | _ => none

/-- The register word at offset `o` of a block's window, if one is implemented there. -/
def Blk.regAt (b : Blk) (o : Nat) : Option RegAt :=
  match (headerRows ++ b.rows).findSome? (fun r => r.at_ o) with
  | some x => some x
  | none => b.roSpace o

/-! ### Reading -/

/-- The implemented bits of word `w` of a declaration of a kind (R264, R265); an empty entry has no layout, and keeps all. -/
def declBits (kind w : Nat) : Nat :=
  match kind, w with
  | 1, 0 => 2 ^ 32 - 1
  | 1, 1 => 2 ^ 40 - 1
  | 1, 2 => 0xFF
  | 1, 7 => 0x7F
  | 1, _ => 0
  | 2, 0 => 2 ^ 28 - 1
  | 2, 2 => 2 ^ 42 - 1
  | 2, 4 => 2 ^ 56 - 1
  | 2, 5 => 2 ^ 56 - 1
  | 2, 7 => 2 ^ 58 - 1
  | 2, _ => 2 ^ 64 - 1
  | 3, 0 => 2 ^ 23 - 1
  | 3, 2 => 2 ^ 32 - 1
  | 3, 7 => 2 ^ 20 - 1
  | 3, 1 => 2 ^ 64 - 1
  | 3, _ => 0
  | _, _ => 2 ^ 64 - 1

/-- The implemented bits of the declaration word at offset `o` of PLACEMENT, for the kind its entry has now. -/
def State.declImpl (s : State) (o : Nat) : Nat :=
  declBits (s.declWord ((o - 0x2000) / 0x40) 0 % 4) ((o - 0x2000) % 0x40 / 8)

/-- What the word at offset `o` reads as. -/
def State.readWord (s : State) (b : Blk) (o : Nat) : Word :=
  match b with
  | .placement => if 0x2000 ≤ o then s.live b o &&& BitVec.ofNat 64 (s.declImpl o) else s.live b o
  | .filt i =>
    let n := Fin.ofNat 17 i
    if 0x1000 ≤ o ∧ o < 0x1600 then
      let d := (o - 0x1000) / 0x100
      let k := (o - 0x1000) % 0x100 / 8
      if k ≤ (hbTaps d - 1) / 2 then BitVec.ofInt 64 (hbCoef d k) else 0
    else if 0x2000 ≤ o ∧ o < 0x3000 then
      let bank := s.chains[n].banks[Fin.ofNat 4 ((o - 0x2000) / 0x400)]
      BitVec.ofInt 64 (bank.h.getD ((o - 0x2000) % 0x400 / 8) 0)
    else if 0x3000 ≤ o ∧ o < 0x4000 then BitVec.ofNat 64 (logRom ((o - 0x3000) / 8))
    else if o = R.WIN_READ.value.off then
      let k := s.rd b R.WIN_READ.store
      let a := s.rd b R.WIN_READ.addr
      let on := s.flag b (R.WIN_STORE.loaded k) && decide (a < 2 ^ s.rd b (R.WIN_STORE.n_loaded k))
      R.WIN_READ.value.put (s.live b o) (if on then code 18 (s.chains[n].wins[Fin.ofNat 2 k].getD a 0) else 0)
    else s.live b o
  | _ => s.live b o

/-- Bits covered by an access of `width` bits at byte `a` of a word. -/
def coverMask (a width : Nat) : Nat := if width = 64 then 2 ^ 64 - 1 else if a % 8 = 4 then 2 ^ 64 - 2 ^ 32 else 2 ^ 32 - 1

/-- The part of a word that an access reads. -/
def wordPart (w : Word) (a width : Nat) : Word := if width = 64 then w else if a % 8 = 4 then w >>> 32 else w &&& 0xFFFFFFFF

/-- The latch of a port (R30). -/
def State.latch (s : State) (p : Port) : Option LatchSt := SMap.get (fun _ => none) s.host.latches p.index

/-- The words of a value as they stand now, by their place in it. -/
def State.heldWords (s : State) (b : Blk) (x : RegAt) : List (Nat × Word) :=
  (List.range ((x.bytes + 7) / 8)).map (fun k => (k, s.readWord b (x.key + 8 * k)))

/-- A read by a port of the implemented word at offset `o` (any byte of it) of block `b`: the value, and the latch. The read of
the lowest word of a wider value loads the latch; the read of its highest word, like any other access, releases it. -/
def readReg (p : Port) (b : Blk) (o width : Nat) (x : RegAt) (s : State) : State × Word :=
  let key := b.base + x.key
  let w8 := o / 8 * 8
  let last := decide (x.key + x.bytes ≤ o + width / 8)
  let first := decide (o = x.key)
  let fresh := (setLatch p (if first && !last then some (LatchSt.mk key (s.heldWords b x)) else none) s,
    wordPart (s.readWord b w8) o width)
  match s.latch p with
  | some l =>
    if l.key = key ∧ !first then
      let v := match l.words.find? (fun q => q.1 = (w8 - x.key) / 8) with
        | some q => q.2
        | none => s.readWord b w8
      (if last then setLatch p none s else s, wordPart v o width)
    else fresh
  | none => fresh

/-! ### Writing the bits of a word -/

/-- The block whose enable governs the CFG fields at offset `o` (R202: a group of the CHANNELISER belongs to its filter slot). -/
def Blk.owner (b : Blk) (o : Nat) : Blk :=
  match b with
  | .chan => if 0x100 ≤ o ∧ o < 0x100 + 0x40 * 17 then .filt ((o - 0x100) / 0x40) else .chan
  | _ => b

/-- A CFG write was ignored (R33). -/
def cfgIgnored (p : Port) (b : Blk) (o : Nat) (s : State) : State :=
  let s := s.wr b R.BLOCK_STATUS.cfg_write_ignored 1
  let s := (s.wr b R.LAST_IGNORED.offset o).wr b R.LAST_IGNORED.port p.code
  let s := s.wr b R.LAST_IGNORED.alnen_slice (match p with | .alnen i => i.val | _ => 0)
  s.cnt b R.IGNORED_WRITES.count 1

/-- Bits of a declaration's word that software does not write (R264, R265): state and reason, and what the engine assigned. -/
def declRo (kind w : Nat) : Nat :=
  if w = 0 then 0xFF00
  else if w ≠ 7 then 0
  else match kind with
    | 1 => 0x7F
    | 2 => 2 ^ 64 - 2 ^ 32
    | 3 => 2 ^ 20 - 1
    | _ => 0

/-- A write of `v` to the covered bits of the word at `o` (8-byte aligned) of block `b`: LIVE and CNT bits take it, CFG bits do
while the owner's BLOCK_STATUS.enabled reads 0 (a wedged block keeps it), W1C bits clear; W1S bits are left to the command they
give. -/
def writeBits (p : Port) (b : Blk) (o mask : Nat) (v : Nat) (acc : WordAcc) (s : State) : State :=
  let w := s.rdw b o
  let cfg := Nat.land acc.cfg mask
  let off := !s.flag (b.owner o) R.BLOCK_STATUS.enabled || (b.owner o).alwaysOn
  let take := Nat.lor (Nat.land acc.live mask) (if off then cfg else 0)
  let w1 := Nat.lor (Nat.land w (Nat.xor take (2 ^ 64 - 1))) (Nat.land v take)
  let clr := Nat.land (Nat.land acc.w1c mask) v
  let s := s.wrw b o (Nat.land w1 (Nat.xor clr (2 ^ 64 - 1)))
  if cfg ≠ 0 && !off then cfgIgnored p b (if mask = 2 ^ 64 - 2 ^ 32 then o + 4 else o) s else s

/-- A write to a word of a declaration: locked while its state is 1, 2, 3 or 5 (R265). -/
def writeDecl (o mask v : Nat) (s : State) : State :=
  let e := (o - 0x2000) / 0x40
  let w := (o - 0x2000) % 0x40 / 8
  let st := s.declWord e 0 / 2 ^ 8 % 8
  if st = 1 ∨ st = 2 ∨ st = 3 ∨ st = 5 then lockedWrite .placement s
  else
    let take := Nat.land mask (Nat.xor (declRo (s.declWord e 0 % 4) w) (2 ^ 64 - 1))
    s.wrw .placement o (Nat.lor (Nat.land (s.rdw .placement o) (Nat.xor take (2 ^ 64 - 1))) (Nat.land v take))

/-! ### The commands a slice's registers give -/

/-- What a write to the registers of a slice does beyond the bits it changes: `set` holds the W1S bits written 1. -/
def sliceEffect (p : Port) (b : Blk) (o mask set v : Nat) (s : State) : State :=
  let h := fun (k : Nat) => nbit set k
  match b with
  | .filt i =>
    let n : Fin 17 := Fin.ofNat 17 i
    if o = R.FILT_COMMIT.retune.off then
      s.when (h 0 || h 1) (filtCommit n (set % 4) false)
    else if 0x100 ≤ o ∧ o < 0x120 then s.when (h 29) (bankLoadStart n (Fin.ofNat 4 ((o - 0x100) / 8)))
    else if o = 0x418 ∨ o = 0x420 then s.when (h 32) (winLoadStart n (Fin.ofNat 2 ((o - 0x418) / 8)))
    else if o = R.XF_COMMIT.window.off then s.when (h 0) (winCommit n false)
    else if o = R.PWR_REF.pwr_offset.off then showRef n s
    else s
  | .trig i =>
    let n : Fin 17 := Fin.ofNat 17 i
    if o = R.TRIG_CTRL.arm.off then
      let s := (s.when (h 0) (trigArm n)).when (h 1) (trigDisarm n)
      let s := (s.when (h 2) (trigForce n)).when (h 3) (trigCommit n false)
      s.when (h 4) (timerArm n)
    else s
  | .records i =>
    let n : Fin 17 := Fin.ofNat 17 i
    if o = R.CAP_CTRL.continuous.off then (s.when (h 0) (contStart n)).when (h 1) (contStop n)
    else if o = R.SYN_CTRL.start.off then
      if h 0 && h 1 then s
      else ((s.when (h 0) (synStart n)).when (h 1) (synStop n)).when (h 2) (synCommit n false)
    else s
  | .chan =>
    let n : Fin 17 := Fin.ofNat 17 ((o - 0x100) / 0x40)
    if o < 0x100 ∨ 0x100 + 0x40 * 17 ≤ o then s
    else if (o - 0x100) % 0x40 = 0 then
      if s.enabled (.filt n.val) || decide (mask = 0) then s else protoStart n s
    else if (o - 0x100) % 0x40 = 0x18 then s.when (h 0) (chanCommit n false)
    else s
  | .core i =>
    if o = R.MBOX_IN.value.off then s.coreInt i 8
    else if o = R.MBOX_OUT.value.off then
      match p with
      | .alnen k => if k.val = i then tkoMbox i v s else s
      | _ => s
    else if o = R.PEER_DOORBELL.value.off then
      match p with
      | .alnen k => if k.val = i then s else s.coreInt i 15
      | _ => s
    else s
  | _ => s

/-- A write to a register word of a slice, or of a slice's group of the CHANNELISER. -/
def sliceWrite (p : Port) (b : Blk) (o mask v : Nat) (acc : WordAcc) (s : State) : State :=
  match b with
  | .records i =>
    if o = R.PB_DOORBELL.produced.off then
      let w := Nat.lor (Nat.land (s.rdw b o) (Nat.xor mask (2 ^ 64 - 1))) (Nat.land v mask)
      opPbDoorbell (Fin.ofNat 17 i) (BitVec.ofNat 36 w) s
    else sliceEffect p b o mask (Nat.land (Nat.land acc.w1s mask) v) v (writeBits p b o mask v acc s)
  | .core i =>
    -- the mode is written by the placement engine alone (R14, log 34)
    if o = R.SLICE_MODE.mode.off && !s.flag (.core i) R.BLOCK_STATUS.enabled then s
    else sliceEffect p b o mask (Nat.land (Nat.land acc.w1s mask) v) v (writeBits p b o mask v acc s)
  | _ => sliceEffect p b o mask (Nat.land (Nat.land acc.w1s mask) v) v (writeBits p b o mask v acc s)

end Sys2Proof.Machine
end

