-- ==== Sys2Proof/Machine/Capacity.lean ====
section
/-!
DEFINITION. Sys2Proof/Machine/Capacity.lean: declarations and their configuration lists, and the capacity model (R264 to R268, R271).
-/
namespace Sys2Proof.Machine
open Sys2Proof

/-! ### Declarations (R264, R265) -/

/-- Kind of entry `e`. -/
def State.declKind (s : State) (e : Nat) : Nat := s.declWord e 0 % 4
/-- State of entry `e`. -/
def State.declState (s : State) (e : Nat) : Nat := nbits (s.declWord e 0) 10 8
/-- Priority of entry `e`. -/
def State.declPrio (s : State) (e : Nat) : Nat := nbits (s.declWord e 0) 7 4
/-- Mode of the analysis of entry `e`. -/
def State.declMode (s : State) (e : Nat) : Nat := nbits (s.declWord e 0) 18 16
/-- Admission best-effort is acceptable. -/
def State.declBest (s : State) (e : Nat) : Bool := nbit (s.declWord e 0) 2

/-- Replace word `w` of entry `e`. -/
def setDeclWord (e w v : Nat) (s : State) : State := s.wrw .placement (0x2000 + 0x40 * e + 8 * w) v

/-- Set state and reason of entry `e`; what the engine had assigned goes when it is no longer admitted. -/
def setDecl (e st reason : Nat) (s : State) : State :=
  let s := setDeclWord e 0 (putBits (putBits (s.declWord e 0) 10 8 st) 15 11 reason) s
  if st = 0 ∨ st = 4 then
    setDeclWord e 7 (Nat.land (s.declWord e 7) (Nat.xor (declRo (s.declKind e) 7) (2 ^ 64 - 1))) s
  else s

/-- An entry in a state that holds resources. -/
def State.declHeld (s : State) (e : Nat) : Bool :=
  let st := s.declState e
  decide (st = 1) || decide (st = 2) || decide (st = 3) || decide (st = 5)

/-- The destination entry of class `c` (11 = channels) of analysis `e`; 0xFF = none. -/
def State.declDest (s : State) (e c : Nat) : Nat :=
  if c < 8 then nbits (s.declWord e 6) (8 * c + 7) (8 * c) else nbits (s.declWord e 7) (8 * (c - 8) + 7) (8 * (c - 8))

/-- The classes analysis `e` has a destination for. -/
def State.declClasses (s : State) (e : Nat) : List Nat := (List.range 12).filter (fun c => decide (s.declDest e c ≠ 0xFF))

/-- The slices assigned to analysis `e`, by member is the order of PL_SLICE.member. -/
def State.declSlices (s : State) (e : Nat) : List Nat :=
  (List.range 8).filterMap (fun m => (List.range 17).find? (fun i =>
    s.flag .placement (R.PL_SLICE.placed i) && decide (s.rd .placement (R.PL_SLICE.entry i) = e)
      && decide (s.rd .placement (R.PL_SLICE.member i) = m)))

/-- The transmit groups analysis `e` feeds. -/
def State.declGroups (s : State) (e : Nat) : List Nat := (List.range 16).filter (nbit (nbits (s.declWord e 5) 55 40))

/-- Entries of a kind to evaluate, by priority and index (R270). -/
def State.toEvaluate (s : State) (kind : Nat) : List Nat :=
  (List.range 16).flatMap (fun p => (List.range 128).filter (fun e =>
    decide (s.declKind e = kind) && (decide (s.declState e = 0) || decide (s.declState e = 4)) && decide (s.declPrio e = p)))

/-! ### Configuration lists (R266) -/

/-- An entry of a configuration list. -/
structure CfgEntry where
  group : Bool
  off : Nat
  val : Nat
  deriving DecidableEq, Repr

/-- The list of analysis `e`, if it can be read. -/
def State.cfgList (s : State) (e : Nat) : Option (List CfgEntry) :=
  let tgt := nbit (s.declWord e 0) 27
  let n := nbits (s.declWord e 2) 41 32
  let a := s.declWord e 3
  if tgt && !s.dramGood a (16 * n) then none
  else
    let bs := s.targetRead tgt a (16 * n)
    some ((List.range n).map (fun k =>
      let t := imgNat bs (16 * k) 4
      ⟨nbit t 31, t % 2 ^ 18, imgNat bs (16 * k + 8) 8⟩))

/-- The register an entry names in slice `i`. -/
def CfgEntry.target (x : CfgEntry) (i : Nat) : Option (Blk × Nat × RegAt) :=
  if x.off % 8 ≠ 0 then none
  else if x.group then
    if 0x40 ≤ x.off then none else (Blk.chan.regAt (0x100 + 0x40 * i + x.off)).map (fun r => (.chan, 0x100 + 0x40 * i + x.off, r))
  else
    let b : Blk := match x.off / 0x10000 with | 0 => .core i | 1 => .filt i | 2 => .trig i | _ => .records i
    let o := x.off % 0x10000 % b.window
    (b.regAt o).map (fun r => (b, o, r))

/-- The engine writes this register itself. CAP_CFG and SGRAM_CFG hold fields of the list too, and are not refused. -/
def engineOwned (b : Blk) (o : Nat) : Bool :=
  match b with
  | .core _ => decide (o = 0x008) || decide (o = R.SLICE_MODE.mode.off)
  | .filt _ => decide (o = 0x008) || decide (o = R.XF_GANG.lead_slice.off)
  | .trig _ => decide (o = 0x008)
  | .records _ => decide (o = 0x008) || decide (o = R.CAP_RING.base.off) || decide (o = R.SYN_ROUTE.groups.off)
      || (decide (0x180 ≤ o) && decide (o < 0x180 + 8 * 11))
  | .chan => decide ((o - 0x100) % 0x40 = 8)
  | _ => true

/-- Every entry names a register that the list may name. -/
def listOk (xs : List CfgEntry) : Bool :=
  xs.all (fun x => match x.target 0 with
    | some (b, o, _) => !engineOwned b o
    | none => false)

/-- Write a list into slice `i`, with what the writes bring about. -/
def writeList (i : Nat) (xs : List CfgEntry) (s : State) : State :=
  s.each xs (fun x st => match x.target i with
    | some (b, o, r) => sliceWrite .mgmt b o (2 ^ 64 - 1) x.val r.acc st
    | none => st)

/-- The words of slice `i` at their reset values. -/
def blankSlice (i : Nat) (s : State) : State :=
  let lo := (Blk.core i).base
  let g := Blk.chan.base + 0x100 + 0x40 * i
  { s with regs := s.regs.filter (fun p => !((decide (lo ≤ p.1) && decide (p.1 < lo + 0x40000)) || (decide (g ≤ p.1) && decide (p.1 < g + 0x40)))) }

/-- The stream of analysis `e` delivers real samples. -/
def State.declReal (s : State) (e : Nat) : Bool := fmtReal (nbits (s.declWord (nbits (s.declWord e 0) 25 19) 0) 30 28)

/-- The context of the stream analysis `e` names, if that stream is admitted. -/
def State.declCtx (s : State) (e : Nat) : Option Nat :=
  if s.declMode e = 3 then none else
  let x := nbits (s.declWord e 0) 25 19
  if s.declKind x = 1 ∧ s.declState x = 1 then some (nbits (s.declWord x 7) 5 0) else none

/-- Slice `i` receives the stream of analysis `e`. -/
def joinStream (e i : Nat) (s : State) : State :=
  match s.declCtx e with
  | some c => setConsumer c i true s
  | none => s

/-- A copy of the machine in which slice `i` holds the values of a list over reset values, as the engine reads its loads from it: mode,
stream, gang size, ring slots, queues; banks and stores count as loaded. -/
def trialSlice (e i g : Nat) (xs : List CfgEntry) (s : State) : State :=
  let f : Blk := .filt i
  let r : Blk := .records i
  let s := joinStream e i (dropConsumer i (blankSlice i s))
  let s := (s.wr (.core i) R.SLICE_MODE.mode (s.declMode e)).wr f R.XF_GANG.size_m1 (g - 1)
  let s := s.wr f R.FILT_CFG.r2c_active (bit (s.declMode e ≠ 3 ∧ s.declReal e))
  let s := s.each xs (fun x st => match x.target i with
    | some (b, o, a) => writeBits .mgmt b o (2 ^ 64 - 1) x.val a.acc st
    | none => st)
  let s := s.wr r R.CAP_CFG.slots (nbits (s.declWord e 4) 55 32)
  let s := s.each (List.range 4) (fun k st => st.wr f (R.FIR_BANK.loaded k) 1)
  let s := s.each (List.range 2) (fun k st => (st.wr f (R.WIN_STORE.loaded k) 1).wr f (R.WIN_STORE.n_loaded k) (st.rd f R.XF_CFG.log2n))
  let n : Fin 17 := Fin.ofNat 17 i
  let k := s.rd f R.FIR_BANK_STAGE.bank
  let s := s.wr f R.FILT_STATUS.active_bank k
  let s := s.setChain n { s.chains[n] with banks := s.chains[n].banks.set (Fin.ofNat 4 k) ⟨s.rd f (R.FIR_BANK.length k), []⟩ }
  let s := s.each ((s.declClasses e).filter (fun c => decide (c < 11))) (fun c st =>
    (st.wr r (R.REC_CLASS.enable c) 1).wr r (R.REC_CLASS.queue c) (nbits (st.declWord (st.declDest e c) 7) 19 0))
  let d := s.declDest e 11
  s.wr .chan (R.CHAN_MAP.qbase i) (if d = 0xFF then 0 else nbits (s.declWord d 7) 19 0)

/-! ### Streams (R62, R270) -/

/-- Nominal lane rate of a rate code, in bit/s (R48). -/
def laneRate (code : Nat) : Nat := 6600000000 * (4 - code % 4)

/-- What `l` lanes carry of a format at a lane rate with overhead `rho` (R62). -/
def linkMax (l : Nat) (rate rho : Rat) (fmt : Nat) : Rat := (l : Rat) * rate * (64 / 66) * (1 - rho) / (fmtBits fmt : Rat)

/-- The limit of sub-stream `k` of receive group `g`. -/
def State.rxLimit (s : State) (g k fmt : Nat) (lite : Bool) : Rat :=
  let b : Blk := .rxg g
  let l := (subLanes (s.rd b R.RXG_CFG.split) k (s.rd b R.RXG_STATUS.active_mask)).length
  let r : Rat := (laneRate (s.rd b R.RXG_CFG.rate) : Rat) * ((1000000 + s.rdi b R.RXG_CK.ck_dev : Int) : Rat) / 1000000
  linkMax l r (if lite then 2 / 16384 else 17 / 16384) fmt

/-- The link carries the stream of entry `e`: its own limit, or B times the least of its members' (R62, R68). -/
def State.linkCarries (s : State) (e : Nat) : Bool :=
  let w := s.declWord e 0
  let g := nbits w 19 16
  let n := nbits w 22 20 + 1
  let rate : Rat := (s.declWord e 1 % 2 ^ 40 : Nat)
  (List.range n).all (fun m => decide (rate ≤ (n : Rat) * s.rxLimit (g + m) (nbits w 27 25) (nbits w 30 28) (nbit w 31)))

/-- The declaration of a stream is one its groups are configured for. -/
def State.streamSound (s : State) (e : Nat) : Bool :=
  let w := s.declWord e 0
  let g := nbits w 19 16
  let b := nbits w 22 20
  let sp := nbits w 24 23
  let k := nbits w 27 25
  decide (sp < 3) && decide (k < splitSubs sp) && decide (nbits w 30 28 ≤ 5) && decide (s.declWord e 1 % 2 ^ 40 ≠ 0) && decide (g + b ≤ 15)
    && (decide (b = 0) || (decide (sp = 0) && decide (k = 0)))
    && (List.range (b + 1)).all (fun m => decide (s.rd (.rxg (g + m)) R.RXG_CFG.split = sp)
      && !s.flag (.rxg (g + m)) (R.RXG_SS.enable k))

/-- The lowest free stream context. -/
def State.freeContext (s : State) : Option Nat := (List.range 64).find? (fun c => !s.flag .placement (R.PL_STREAM.valid c))

/-! ### Queues -/

/-- Insert into a sorted list. -/
def insertNat (n : Nat) : List Nat → List Nat
  | [] => [n]
  | m :: ms => if n ≤ m then n :: m :: ms else m :: insertNat n ms

/-- The enabled queues, ascending: what the table says of those not cached, and what the cache holds. -/
def State.queuesOn (s : State) : List Nat :=
  let base := s.ctxAddr 0
  let ways := s.queue.cache.flatMap (·.2)
  let tab := s.mem.dram.filterMap (fun p =>
    if base ≤ p.1 ∧ p.1 < base + 2 ^ 25 ∧ (p.1 - base) % 32 = 0 ∧ p.2.getLsbD 7 then some ((p.1 - base) / 32) else none)
  let tab := tab.filter (fun q => !ways.any (fun w => w.q = q))
  ((ways.filter (fun w => w.ctx.on)).map (·.q)).foldl (fun l q => insertNat q l) tab

/-- The lowest run of `n` free queues above those in `busy`. -/
def freeRun (n : Nat) (busy : List Nat) : Option Nat :=
  let q := busy.foldl (fun (x : Nat × Bool) b => if x.2 || decide (x.1 + n ≤ b) then (x.1, true) else (max x.1 (b + 1), false)) (0, false)
  if q.1 + n ≤ 2 ^ 20 then some q.1 else none

/-! ### Limits of one slice (R268, R271) -/

/-- The CORE frequency the engine places for, in Hz with spread (R12). -/
def State.placeHz (s : State) : Nat :=
  match s.pl.freq with
  | some f => s.spreadHz f
  | none => s.coreHz

/-- Input rate of slice `i`, samples per second. -/
def State.fsIn (s : State) (i : Nat) : Nat := match s.streamOf i with | some c => s.streamRate c | none => 0

/-- Output rate of the synthesis path of slice `i`. -/
def State.fsOut (s : State) (i : Nat) : Rat := (s.rd (.records i) R.SYN_RATE.rate : Rat) * 800000000 / (2 ^ 40 : Nat)

/-- Working rate of slice `i`: its stream decimated, or what it synthesises. -/
def State.fsW (s : State) (i : Nat) : Rat := if s.mode i = 3 then s.fsOut i else (s.fsIn i : Rat) / (s.chainD i : Rat)

/-- Chain input, port and transform of slice `i` as a member of a gang of `g` (R82, R105, R118). -/
def State.portFits (s : State) (i : Fin 17) (g : Nat) : Bool :=
  let hz : Rat := s.placeHz
  let r := s.chainR i
  let n := s.frameN i
  let h := s.frameH i
  let rate : Rat := s.fsIn i
  let share : Rat := (n * r + s.chainW i - 1 : Nat) / (g * h * r : Nat)
  let chain := if g = 1 then decide (rate ≤ (if r = 2 then 16 else 8) * hz) else decide (rate * (if share < 1 then share else 1) ≤ 32 * hz)
  let dirs : Rat := if s.mode i = 4 then 2 else 1
  let load := dirs * s.fsW i * (n : Rat) / (g * h : Nat)
  let transforms := s.framed i || (decide (s.mode i = 3) && decide (s.synSrc i = 1))
  (decide (s.mode i = 3) || chain) && (!transforms || decide (load ≤ 32 * hz))

/-- The density planes of slice `i` (R170). -/
def State.densFits (s : State) (i : Nat) : Bool :=
  let r : Blk := .records i
  let cols := (List.range 4).foldl (fun m k => if s.flag r (R.DENS_CFG.enable k) then m + s.rd r (R.DENS_CFG.cols_m1 k) + 1 else m) 0
  decide ((cols : Rat) * s.fsW i ≤ 32 * (s.frameH i : Rat) * (s.placeHz : Rat))

/-- The channeliser of slice `i`, or its synthesis from channels (R186, R214). -/
def State.chanFits (s : State) (i : Nat) : Bool :=
  let hz : Rat := s.placeHz
  if s.mode i = 2 then
    let o : Rat := if s.chanO2 i then 2 else 1
    decide (s.fsW i * (s.chanT i : Rat) * o ≤ 128 * hz) && decide (s.fsW i * o ≤ 32 * hz)
  else if s.mode i = 3 ∧ s.synSrc i = 2 then
    decide (s.fsOut i * (s.synT i : Rat) ≤ 128 * hz) && decide (s.fsOut i ≤ 32 * hz)
  else true

/-- A sub-stream of transmit group `g` that no slice other than those in `mine` feeds. -/
def State.freeSub (s : State) (g : Nat) (mine : List Nat) : Option Nat :=
  (List.range (splitSubs (s.rd (.txg g) R.TXG_CFG.split))).find? (fun k =>
    !(List.finRange 17).any (fun j => !mine.contains j.val && s.syns[j].routes.contains (g, k)))

/-- The limit of sub-stream `k` of transmit group `g` (R62, R77). -/
def State.txLimit (s : State) (g k fmt : Nat) : Rat :=
  let b : Blk := .txg g
  let m := if s.enabled b then s.rd b R.TXG_STATUS.active_mask
    else if s.flag b R.TXG_CFG.return_mode then 1 else s.rd b R.TXG_CFG.lane_enable
  let l := (subLanes (s.rd b R.TXG_CFG.split) k m).length
  linkMax l ((laneRate (s.rd b R.TXG_CFG.rate) : Rat) * (1000000 + 50 * (min 30 (s.rd b R.TXG_CFG.rate_offset) : Nat) : Rat) / 1000000) (17 / 16384) fmt

/-- The format of the routes of analysis `e`: that of its stream when it is complex, else C16 (log 21). -/
def State.routeFormat (s : State) (e : Nat) : Nat :=
  if s.declMode e = 3 ∨ s.declReal e then 0 else nbits (s.declWord (nbits (s.declWord e 0) 25 19) 0) 30 28

/-- The output port of slice `i` for the groups of analysis `e` (R205); `mine` already feed for it. -/
def State.outFits (s : State) (e : Nat) (i : Nat) (mine : List Nat) : Bool :=
  let gs := s.declGroups e
  gs = [] || (decide (gs.length ≤ 4) && decide (s.fsW i ≤ 8 * (s.placeHz : Rat))
    && gs.all (fun g => match s.freeSub g mine with
      | some k => decide (s.fsW i ≤ s.txLimit g k (s.routeFormat e))
        -- a transmit bond is fed by playback sources alone
        && (!s.flag (.txg g) (R.TXG_SS.bonded k) || (decide (s.declMode e = 3) && decide (s.synSrc i = 0)))
      | none => false))

/-- The local-memory reservations of slice `i`, in the order of R273, in bytes rounded up to 4 KiB. -/
def State.lmemNeeds (s : State) (i : Fin 17) : List Nat :=
  let r : Blk := .records i
  let pad := fun (n : Nat) => ceilDiv n 4096 * 4096
  let xf := if s.framed i then 8 * (s.frameN i + s.frameH i) + 16 * s.frameN i else 0
  let dens := (List.range 4).map (s.planeNeed i)
  let mt := fun (m t : Nat) => 12 * m * t + 16 * m
  let ch := if s.mode i = 2 then mt (s.chanM i) (s.chanT i)
    else if s.mode i = 3 ∧ s.synSrc i = 2 then mt (2 ^ s.rd r R.SYN_CFG.log2m) (s.synT i) else 0
  let rel := if s.mode i = 4 then s.releaseBytes i else 0
  ([xf] ++ dens ++ [ch, rel]).map pad

/-- The capture limits of R172. -/
def State.capFits (s : State) (i : Nat) : Bool :=
  let slots := s.rd (.records i) R.CAP_CFG.slots
  let pre := s.rd (.trig i) R.TRIG_CAPTURE.pre_len
  if s.mode i = 1 then decide (pre + 4096 ≤ (slots - 2) * 4096)
  else if s.specRing (Fin.ofNat 17 i) then decide (pre + 1 ≤ slots - 2) else true

/-- The rings of slice `i` in DRAM: the sample or spectrum ring, and the spectrogram ring; sizes in bytes, 0 = none. -/
def State.ringSizes (s : State) (i : Fin 17) : Nat × Nat :=
  let r : Blk := .records i
  let cap := if s.mode i = 1 ∨ s.specRing i then s.rd r R.CAP_CFG.slots * s.slotSize i else 0
  let k := s.rd r R.SGRAM_CFG.reduction
  let sg := if s.framed i && decide (k < 5) && s.flag r (R.RED_CFG.enable k) && !s.flag r (R.RED_CFG.complex k)
    then 2 ^ s.rd r R.SGRAM_CFG.log2rows * (ceilDiv (2 * s.rd r (R.RED_CFG.count k)) 64 * 64) else 0
  (cap, sg)

/-- The first place for `size` bytes in the region, 4 KiB aligned, among rings sorted by address. -/
def firstFit (size : Nat) (end_ : Nat) : List (Nat × Nat) → Nat → Option Nat
  | [], a => if a + size ≤ end_ then some a else none
  | (b, n) :: l, a => if a + size ≤ b then some a else firstFit size end_ l (max a (ceilDiv (b + n) 4096 * 4096))

/-- Insert a ring by address. -/
def insertRing (x : Nat × Nat) : List (Nat × Nat) → List (Nat × Nat)
  | [] => [x]
  | y :: ys => if x.1 ≤ y.1 then x :: y :: ys else y :: insertRing x ys

/-- A place for a ring beside those given; size 0 needs none. -/
def State.placeRing (s : State) (size : Nat) (rings : List (Nat × Nat)) : Option Nat :=
  let a := s.rd .placement R.PL_DRAM_BASE.base / 2 ^ 20 * 2 ^ 20
  if size = 0 then some 0
  else firstFit size (a + s.rd .placement R.PL_DRAM_SIZE.size / 2 ^ 20 * 2 ^ 20) (rings.foldl (fun l x => insertRing x l) []) a

/-! ### Shared budgets (R268) -/

/-- DRAM channels in service. -/
def State.dramServing (s : State) : Nat := ((List.range 8).filter (fun c => decide (s.rd (.dram c) R.DRAM_STATUS.state = 2))).length

/-- The record stream of one class: rate and bytes per second, to the destination of class `c`. -/
def State.recNeed (s : State) (e c : Nat) (rate bytes : Rat) (n : PlNeed) : PlNeed :=
  let d := s.declDest e c
  if d = 0xFF then n
  else if nbit (s.declWord d 0) 16 then { n with pub := n.pub + rate, dram := n.dram + bytes }
  else { n with pub := n.pub + rate, pcie := n.pcie + bytes }

/-- Segments of a capture of `n` units in slice `i`, and their bytes together. -/
def State.capRecords (s : State) (i : Fin 17) (n : Nat) : Nat × Nat :=
  let u := s.segUnits i
  let b := s.capB i
  let len := fun (k : Nat) => if s.framed i then recLen (32 + k * s.slotSize i) 0 else recLen (32 + k * b + ceilDiv (ceilDiv k 16) 8) 0
  let full := n / u
  let rest := n % u
  (full + bit (rest ≠ 0), full * len u + if rest = 0 then 0 else len rest)

/-- What analysis `e` demands, read from slice `i`. -/
def State.demand (s : State) (e : Nat) (i : Fin 17) : PlNeed :=
  let r : Blk := .records i
  let trig : Rat := nbits (s.declWord e 4) 31 0
  let fw := s.fsW i
  let frames := fw / (s.frameH i : Rat)
  let slots := s.rd r R.CAP_CFG.slots
  let span := s.rd (.trig i) R.TRIG_CAPTURE.pre_len + s.rd (.trig i) R.TRIG_CAPTURE.post_len
  let b : Rat := s.capB i
  let n : PlNeed := ⟨e, (nbits (s.declWord e 5) 19 0 * 1000000 : Nat), (nbits (s.declWord e 5) 39 20 * 1000000 : Nat), 0⟩
  let n := s.recNeed e 0 trig (trig * 128) n
  let spec := s.specRing i
  let ring := decide (slots ≠ 0) && (decide (s.mode i = 1) || spec)
  let n := if !ring then n
    else if spec then { n with dram := n.dram + frames * (s.slotSize i : Rat) + trig * (span : Rat) * (s.slotSize i : Rat) }
    else { n with dram := n.dram + fw * (b + 1 / 64) + trig * (span : Rat) * b }
  -- a continuous capture reads the ring as fast as it is written
  let n := if ring && s.flag r R.CAP_CTRL.continuous then
      let rate := if spec then frames else fw / 4096
      let per := s.contSlots i
      let bytes := rate * (s.slotSize i : Rat)
      s.recNeed e 1 (rate / (max 1 per : Nat)) bytes { n with dram := n.dram + bytes }
    else n
  let n := if ring then
      let (k, bytes) := s.capRecords i span
      s.recNeed e 1 (trig * (k : Rat)) (trig * (bytes : Rat)) n
    else n
  let n := if !s.framed i then n else
    let n := (List.range 5).foldl (fun n k =>
      if s.flag r (R.RED_CFG.enable k) then
        let rate := frames / (s.rd r (R.RED_CFG.k_m1 k) + 1 : Nat)
        let len := recLen (16 + s.rd r (R.RED_CFG.count k) * (if s.flag r (R.RED_CFG.complex k) then 8 else 2)) 0
        let n := s.recNeed e (2 + k) rate (rate * (len : Rat)) n
        if s.rd r R.SGRAM_CFG.reduction = k && !s.flag r (R.RED_CFG.complex k) then
          { n with dram := n.dram + rate * (ceilDiv (2 * s.rd r (R.RED_CFG.count k)) 64 * 64 : Nat) } else n
      else n) n
    (List.range 4).foldl (fun n k =>
      if s.flag r (R.DENS_CFG.enable k) then
        let rate := frames / (s.rd r (R.DENS_CFG.k_m1 k) + 1 : Nat)
        let len := recLen (32 + 2 * (s.rd r (R.DENS_CFG.cols_m1 k) + 1) * (s.rd r (R.DENS_CFG.rows_m1 k) + 1)) 0
        s.recNeed e (7 + k) rate (rate * (len : Rat)) n
      else n) n
  let n := if s.mode i ≠ 2 then n else
    let m := s.chanM i
    let per := s.chanK i * 4096 / max 1 (s.chanHop i)
    let periods := fw / (s.chanK i * 4096 : Nat)
    let one := per * s.chanB i + ceilDiv (ceilDiv per 16) 8
    if s.flag .chan (R.CHAN_CFG.queue_mode i) then
      s.recNeed e 11 periods (periods * (recLen (32 + ceilDiv m 4 * 8 + m * one) 0 : Nat)) n
    else s.recNeed e 11 (periods * (m : Rat)) (periods * (m : Rat) * (recLen (32 + one) 0 : Nat)) n
  -- playback and insertion
  let n := if s.mode i = 3 ∧ s.synSrc i ≠ 1 then
      let bytes := s.fsOut i * (s.pbB i : Rat)
      if s.flag r R.PB_BASE.target then { n with dram := n.dram + bytes } else { n with pcie := n.pcie + bytes }
    else n
  if s.mode i = 4 && s.flag r R.SYN_CFG.insert then
    let bytes := fw * ((if s.flag r R.SYN_CFG.ins_format then 6 else 4 : Nat) : Rat)
    if s.flag r R.INS_BASE.target then { n with dram := n.dram + bytes } else { n with pcie := n.pcie + bytes }
  else n

/-- The DRAM capacity in bytes per second: per serving channel 40.96 GB/s at 6400 MT/s, and in proportion to the transfer rate below it
(R12, R268). -/
def State.dramCapacity (s : State) : Nat :=
  let rate := match s.rd (.dram 0) R.DRAM_CFG.speed with | 0 => 4800 | 1 => 5600 | _ => 6400
  40960000000 * s.dramServing * rate / 6400

/-- The shared limits: DRAM, PCI Express, publication. -/
def State.budgets (s : State) : Rat × Rat × Rat :=
  (s.dramCapacity, (s.rd .placement R.PL_PCIE_BUDGET.budget * 1000000 : Nat), (s.placeHz : Rat) / 6)

/-- The demands of the analyses admitted gapless, other than `e`. -/
def State.gaplessNeeds (s : State) (e : Nat) : List PlNeed :=
  s.pl.need.filter (fun n => decide (n.entry ≠ e) && decide (s.declState n.entry = 1))

/-- The shared budgets that demands break: reasons 9, 10, 11. -/
def State.overBudget (s : State) (l : List PlNeed) : List Nat :=
  let (d, p, u) := s.budgets
  let sum := fun (f : PlNeed → Rat) => l.foldl (fun m n => m + f n) 0
  (if d < sum (·.dram) then [9] else []) ++ (if p < sum (·.pcie) then [10] else []) ++ (if u < sum (·.pub) then [11] else [])

/-- The slice limits that hold of the placed analysis `e` at the present capacity. -/
def State.stillFits (s : State) (e : Nat) : Bool :=
  match s.declSlices e with
  | [] => true
  | i :: l =>
    let n : Fin 17 := Fin.ofNat 17 i
    s.portFits n (l.length + 1) && s.densFits i && s.chanFits i && s.outFits e i (i :: l)
      && (match s.declCtx e with
        | some _ => s.linkCarries (nbits (s.declWord e 0) 25 19)
        | none => true)

/-- The gapless analyses fit. -/
def State.allFit (s : State) : Bool :=
  decide (s.overBudget (s.gaplessNeeds 128) = []) && (s.pl.order.filter (fun e => decide (s.declState e = 1))).all s.stillFits

end Sys2Proof.Machine
end

