-- ==== Sys2Proof/Machine/Placement.lean ====
section
/-!
DEFINITION. Sys2Proof/Machine/Placement.lean: the placement engine (R267, R270 to R276): admission, bring-up, withdrawal, updates,
and its actions under R274.
-/
namespace Sys2Proof.Machine
open Sys2Proof

/-! ### What the registers show -/

/-- PL_HEADROOM, the admitted count and the busy flag. -/
def showPlacement (s : State) : State :=
  let p : Blk := .placement
  let (d, c, u) := s.budgets
  let l := s.gaplessNeeds 128
  let left := fun (lim : Rat) (f : PlNeed → Rat) (unit top : Nat) =>
    let x := lim - l.foldl (fun m n => m + f n) 0
    min top ((x / (unit : Rat)).floor.toNat)
  let s := s.wr p R.PL_HEADROOM.dram (left d (·.dram) 1000000 0xFFFFF)
  let s := s.wr p R.PL_HEADROOM.pcie (left c (·.pcie) 1000000 0xFFFFF)
  let s := s.wr p R.PL_HEADROOM.pub (left u (·.pub) 1000 0xFFFFFF)
  let s := s.wr p R.PL_HEADROOM.streams ((List.range 64).filter (fun k => !s.flag p (R.PL_STREAM.valid k))).length
  let s := s.wr p R.PL_HEADROOM.queues (2 ^ 20 - s.queuesOn.length)
  let s := s.wr p R.PL_HEADROOM.dram_channels s.dramServing
  let s := s.wr p R.PL_STATUS.admitted ((List.range 128).filter (fun e => decide (s.declState e = 1) || decide (s.declState e = 2))).length
  showSlices (s.wr p R.PL_STATUS.busy (bit (s.pl.jobs ≠ [] ∨ s.tkoPhase ≠ 0)))

/-- An entry is rejected with a reason of R269. -/
def reject (e reason : Nat) (s : State) : State := (setDecl e 4 reason s).cnt .placement R.PL_COUNTS.rejections 1

/-! ### Streams and destinations (R270) -/

/-- The engine writes RXG_SS for the members of a stream. -/
def bindRx (e : Nat) (ctx : Option Nat) (s : State) : State :=
  let w := s.declWord e 0
  let b := nbits w 22 20
  let k := nbits w 27 25
  s.each (List.range (b + 1)) (fun m st =>
    let g := nbits w 19 16 + m
    let x : Blk := .rxg g
    match ctx with
    | some c =>
      let st := ((st.wr x (R.RXG_SS.enable k) 1).wr x (R.RXG_SS.format k) (nbits w 30 28)).wr x (R.RXG_SS.stream k) c
      let st := (st.wr x (R.RXG_SS.bonded k) (bit (b ≠ 0))).wr x (R.RXG_SS.member k) m
      syncSubs (Fin.ofNat 16 g) (st.wr x (R.RXG_SS.bond_size k) b)
    | none => syncSubs (Fin.ofNat 16 g) (st.wrw x (R.RXG_SS.enable k).off 0))

/-- A stream is decided. -/
def evalStream (e : Nat) (s : State) : State :=
  let p : Blk := .placement
  if !s.streamSound e || !s.linkCarries e then reject e 2 s
  else match s.freeContext with
    | none => reject e 15 s
    | some c =>
      if !s.enabled .check then reject e 15 s
      else
        let w := s.declWord e 0
        let s := s.wrw p (0x1200 + 8 * c) 0
        let s := ((s.wr p (R.PL_STREAM.entry c) e).wr p (R.PL_STREAM.valid c) 1).wr p (R.PL_STREAM.group c) (nbits w 19 16)
        let s := s.wr p (R.PL_STREAM.bond_m1 c) (nbits w 22 20)
        let s := setDecl e 1 0 s
        let s := setDeclWord e 7 (putBits (putBits (s.declWord e 7) 5 0 c) 6 6 1) s
        bindRx e (some c) (s.setMap c EpochMap.unmapped)

/-- The first word of the context of buffer `i` of destination `e`. -/
def State.destWord0 (s : State) (e i : Nat) : Nat :=
  let w := s.declWord e 0
  let k := nbits w 22 17
  k + bit (nbit w 16) * 2 ^ 6 + 2 ^ 7 + bit (nbit (s.declWord e 2) 31) * 2 ^ 9 + 2 ^ 10 + (s.declWord e 1 + i * 2 ^ k) % 2 ^ 64 / 4096 * 4096

/-- The second word of its contexts. -/
def State.destWord1 (s : State) (e : Nat) : Nat :=
  let w := s.declWord e 2
  nbits w 22 13 * 2 ^ 36 + nbits w 26 23 * 2 ^ 46 + nbits w 30 27 * 2 ^ 50

/-- A destination is decided; one whose buffers break R193 or whose count is out of range counts as a missing destination (log 27). -/
def evalDest (e : Nat) (s : State) : State :=
  let n := nbits (s.declWord e 2) 12 0
  if n = 0 ∨ 4096 < n ∨ s.declWord e 1 % 4096 ≠ 0 ∨ (List.range n).any (fun i => !ctxAlignOk (s.destWord0 e i)) then reject e 12 s
  else if !s.enabled .check || !s.enabled .queue then reject e 15 s
  else match freeRun n s.queuesOn with
    | none => reject e 15 s
    | some q =>
      let s := s.each (List.range n) (fun i st => createCtx (q + i) (st.destWord0 e i) (st.destWord1 e) st)
      let s := setDecl e 1 0 s
      setDeclWord e 7 (putBits (s.declWord e 7) 19 0 q) s

/-! ### Analyses (R270 to R273) -/

/-- The program image an analysis names: target, address, length. -/
def State.declImage (s : State) (e : Nat) : Bool × Nat × Nat :=
  (nbit (s.declWord e 0) 26, s.declWord e 1, nbits (s.declWord e 2) 31 0)

/-- The bytes of an image, if they can be read. -/
def State.imageBytes (s : State) (x : Bool × Nat × Nat) : Option (List Byte) :=
  if 0x400000 < x.2.2 || (x.1 && !s.dramGood x.2.1 x.2.2) then none else some (s.targetRead x.1 x.2.1 x.2.2)

/-- load_status an image would meet in a disabled slice. -/
def State.imageStatus (s : State) (img : Option (List Byte)) : Nat :=
  match img with
  | none => 1
  | some b =>
    let len := min b.length (imgNat b 16 4)
    let s := (List.range 17).foldl (fun st i => st.wr (.core i) R.BLOCK_STATUS.enabled 0) s
    s.loadStatus 0 b (decide (crc 0 (b.take 28 ++ [0, 0, 0, 0] ++ (b.take len).drop 32) = imgNat b 28 4))

/-- Bytes of local memory an image occupies, in whole 64 KiB. -/
def imageTop (b : List Byte) : Nat :=
  ceilDiv (((imgSections b).filter (fun x => decide (x.kind ≠ 0))).foldl (fun m x => max m (x.dest + x.len)) 0) 0x10000 * 0x10000

/-- The candidate order from a home quadrant (R272). -/
def candidates (q : Nat) : List Nat :=
  (List.range 4).flatMap (fun k => (List.range 4).map (fun j => 4 * ((q + k) % 4) + j)) ++ [16]

/-- The home quadrant of analysis `e`. -/
def State.home (s : State) (e : Nat) : Nat :=
  if s.declMode e = 3 then (s.declGroups e).headD 0 / 4
  else nbits (s.declWord (nbits (s.declWord e 0) 25 19) 0) 19 16 / 4

/-- The free slices in candidate order. -/
def State.freeSlices (s : State) (e : Nat) : List Nat := (candidates (s.home e)).filter s.free?

/-- The lowest free check unit. -/
def State.freeUnit (s : State) : Option Nat := (List.range 60).find? (fun u => !s.flag .check (R.CHK_OWNER.assigned u))

/-- Destination `d` already serves an analysis. -/
def State.destBound (s : State) (d e : Nat) : Bool :=
  (List.range 128).any (fun x => decide (x ≠ e) && decide (s.declKind x = 2) && s.declHeld x && (s.declClasses x).any (fun c => s.declDest x c = d))

/-- The destinations of analysis `e` are admitted, free, and of the right count (reason 12). -/
def State.destsOk (s : State) (e : Nat) (chanM : Option Nat) : Bool :=
  let cs := s.declClasses e
  cs.all (fun c =>
    let d := s.declDest e c
    decide (d < 128) && decide (s.declKind d = 3) && decide (s.declState d = 1) && !s.destBound d e
      && decide ((cs.filter (fun k => s.declDest e k = d)).length = 1)
      && (match (if c = 11 then chanM else none) with
        | some m => decide (nbits (s.declWord d 2) 12 0 = m)
        | none => true))

/-- What admission found: applicable reasons apart from the shared budgets, the gang size, the list, the demand, rings and slices. -/
structure Plan where
  reasons : List Nat
  g : Nat
  list : List CfgEntry
  need : PlNeed
  rings : Nat × Nat
  sizes : Nat × Nat
  slices : List Nat
  deriving DecidableEq, Repr

/-- Some register value of the list makes a slot refuse enable, the capture limits aside (reason 13). -/
def State.listRefused (z : State) (i : Fin 17) : Bool :=
  let y := (z.wr (.records i) R.CAP_CFG.slots 0).wr (.records i) R.REC_CFG.spectrum_ring 0
  let y := y.wr (.filt i) R.BLOCK_STATUS.enabled 1
  let y := { y with pl.freq := none }
  z.chainRefuses i || z.xfRefuses i || z.chanRefuses i || y.recsRefuse i || y.synRefuses i
    || ((decide (z.mode i < 2) || decide (z.mode i = 4)) && z.trigRefuses i)

/-- Evaluate analysis `e` as R268 to R273 say; `again` = its destinations, check unit and rings are already its own. -/
def State.plan (s : State) (e : Nat) (again : Bool) : Plan :=
  let free := s.freeSlices e
  let i : Fin 17 := Fin.ofNat 17 (free.headD 0)
  let md := s.declMode e
  let list := s.cfgList e
  let xs := match list with | some l => if listOk l then l else [] | none => []
  let badList := decide (4 < md) || (match list with | some l => !listOk l | none => true)
  let ctxOk := decide (md = 3) || (s.declCtx e).isSome
  let z1 := trialSlice e i.val 1 xs s
  let gangs := decide (md = 0) && decide (z1.chainH i.val = 0) && !z1.flag (.filt i.val) R.FILT_CFG.fir_enable
  let g? := (List.range (if gangs then 8 else 1)).find? (fun k => (trialSlice e i.val (k + 1) xs s).portFits i (k + 1))
  let g := match g? with | some k => k + 1 | none => 1
  let z := trialSlice e i.val g xs s
  let img := s.imageBytes (s.declImage e)
  let st := s.imageStatus img
  let top := match img with | some b => if st = 0 then imageTop b else 0 | none => 0
  let sizes := z.ringSizes i
  let others := s.pl.rings.map (fun x => (x.2.1, x.2.2))
  let r0 := s.placeRing sizes.1 others
  let r1 := match r0 with
    | some a => s.placeRing sizes.2 (if sizes.1 = 0 then others else (a, sizes.1) :: others)
    | none => none
  let chanM := if md = 2 && !z.flag .chan (R.CHAN_CFG.queue_mode i.val) then some (z.chanM i.val) else none
  let slices := free.take g
  let limits := ctxOk && !badList
  let reasons :=
    (if slices.length < g then [1] else [])
      ++ (if !ctxOk then [2] else [])
      ++ (if limits && g?.isNone then [if gangs then 4 else 3] else [])
      ++ (if limits && decide (0x800000 - top < (z.lmemNeeds i).foldl (· + ·) 0) then [5] else [])
      ++ (if limits && z.framed i && !z.densFits i.val then [6] else [])
      ++ (if limits && !z.chanFits i.val then [7] else [])
      ++ (if limits && !z.outFits e i.val [] then [8] else [])
      ++ (if !again && !s.destsOk e chanM then [12] else [])
      ++ (if badList || (ctxOk && z.listRefused i) then [13] else [])
      ++ (if st ≠ 0 then [14] else [])
      ++ (if !s.enabled .check || (!again && s.freeUnit.isNone) then [15] else [])
      ++ (if limits && !z.capFits i.val then [16] else [])
      ++ (if limits && !again && (r0.isNone || r1.isNone) then [17] else [])
  ⟨reasons, g, xs, z.demand e i, (r0.getD 0, r1.getD 0), sizes, slices⟩

/-- The lowest of some reasons. -/
def lowest : List Nat → Nat
  | [] => 0
  | [x] => x
  | x :: xs => min x (lowest xs)

/-- Loads of coefficient banks and window stores and the prototype of slice `i` complete. -/
def finishLoads (i : Fin 17) (s : State) : State :=
  let s := s.each (List.finRange 4) (fun b st => if st.bankLoading i b.val then bankLoadEnd i b st else st)
  let s := s.each (List.finRange 2) (fun b st => if (st.chains[i].winLoad[b]).isSome then winLoadEnd i b st else st)
  opPrototypeReady i s

/-- The engine-owned fields of slice `i`, member `m` of a gang of `g` led by `lead` (R266); `sink` = REC_CLASS holds sinks. -/
def writeOwned (e i m g lead : Nat) (sink : Bool) (s : State) : State :=
  let c : Blk := .core i
  let f : Blk := .filt i
  let r : Blk := .records i
  let unit := nbits (s.declWord e 7) 57 52
  let s := s.wr c R.SLICE_MODE.mode (s.declMode e)
  let s := ((s.wr f R.XF_GANG.size_m1 (g - 1)).wr f R.XF_GANG.member m).wr f R.XF_GANG.lead_slice lead
  let s := s.wr f R.FILT_CFG.r2c_active (bit (s.declMode e ≠ 3 ∧ s.declReal e))
  let s := s.each (List.range 11) (fun k st =>
    let d := st.declDest e k
    let st := st.wrw r (R.REC_CLASS.enable k).off 0
    if d = 0xFF then st
    else
      let st := (st.wr r (R.REC_CLASS.enable k) 1).wr r (R.REC_CLASS.check_unit k) unit
      if sink then st else st.wr r (R.REC_CLASS.queue k) (nbits (st.declWord d 7) 19 0))
  let ring := fun (cap : Bool) => s.pl.rings.find? (fun x => x.1 = e + (if cap then 0 else 128))
  let s := s.wr r R.CAP_CFG.slots (nbits (s.declWord e 4) 55 32)
  let s := s.wr r R.CAP_RING.base (match ring true with | some x => if sink then 0 else x.2.1 | none => 0)
  let s := match ring false with
    | some x => s.wr r R.SGRAM_CFG.base (if sink then 0 else x.2.1)
    | none => s
  let d := s.declDest e 11
  let s := s.wr .chan (R.CHAN_MAP.qbase i) (if d = 0xFF ∨ sink then 0 else nbits (s.declWord d 7) 19 0)
  let s := s.wr .chan (R.CHAN_MAP.check_unit i) unit
  s.wr f R.XF_MEM.base (s.rd c R.CORE_IMAGE2.data_top * 8192)

/-- The routes of analysis `e` from slice `i`: the lowest free sub-stream of each group. A declaration has no field for a transmit bond: the
bond is what TXG_SS.bonded, member and bond_size were set to beforehand (DESIGN CHOICE, log 37). -/
def writeRoutes (e i : Nat) (s : State) : State :=
  let n : Fin 17 := Fin.ofNat 17 i
  let gs := s.declGroups e
  let rs := gs.filterMap (fun g => (s.freeSub g [i]).map (fun k => (g, k)))
  let s := s.each rs (fun x st =>
    let b : Blk := .txg x.1
    (st.wr b (R.TXG_SS.enable x.2) 1).wr b (R.TXG_SS.format x.2) (st.routeFormat e))
  let s := s.wr (.records i) R.SYN_ROUTE.groups (maskOf 16 gs.contains)
  s.setSyn n { s.syns[n] with routes := rs }

/-- PL_SLICE of a placed slice. -/
def showPlaced (e i m g lead lmem : Nat) (s : State) : State :=
  let p : Blk := .placement
  let s := ((s.wr p (R.PL_SLICE.placed i) 1).wr p (R.PL_SLICE.entry i) e).wr p (R.PL_SLICE.member i) m
  let s := (s.wr p (R.PL_SLICE.gang_m1 i) (g - 1)).wr p (R.PL_SLICE.lead_slice i) lead
  let s := s.wr p (R.PL_SLICE.version i) (s.rd (.core i) R.CORE_IMAGE.version)
  (s.wr p (R.PL_SLICE.program i) (s.rd (.core i) R.CORE_IMAGE.program_id)).wr p (R.PL_SLICE.lmem_reserved i) (lmem / 8)

/-- The slots that are enabled for a slice of mode `md`, before the core: the trigger unit only where it may run (R156, R273). -/
def workSlots (i md : Nat) : List Blk := if md < 2 ∨ md = 4 then [.filt i, .trig i, .records i] else [.filt i, .records i]

/-- List, image and engine-owned fields of one slice. -/
def prepareSlice (e i m g lead : Nat) (xs : List CfgEntry) (img : List Byte) (sink : Bool) (s : State) : State :=
  let n : Fin 17 := Fin.ofNat 17 i
  let s := s.wr (.core i) R.SLICE_MODE.mode (s.declMode e)
  let s := s.wr (.filt i) R.FILT_CFG.r2c_active (bit (s.declMode e ≠ 3 ∧ s.declReal e))
  let s := writeList i xs s
  let s := (loadImage n img s).1
  let s := writeOwned e i m g lead sink (finishLoads n s)
  -- the generated prototype goes to its reservation above the program's data (R185)
  s.when (decide (s.mode i = 2)) (storeProto n)

/-- Bring up analysis `e` on slices, lead first (R273); `left` = run and next input index from which it resumes. Answers whether every
slot was enabled. -/
def bringUp (e : Nat) (is : List Nat) (xs : List CfgEntry) (left : Option (Nat × Nat)) (s : State) : State × Bool :=
  let g := is.length
  let lead := is.headD 0
  let md := s.declMode e
  let img := (s.imageBytes (s.declImage e)).getD []
  let s := s.each (is.zipIdx) (fun x st => prepareSlice e x.1 x.2 g lead xs img false st)
  let s := if md < 5 then writeRoutes e lead s else s
  let s := s.each (is.zipIdx) (fun x st =>
    let st := showPlaced e x.1 x.2 g lead ((st.lmemNeeds (Fin.ofNat 17 x.1)).foldl (· + ·) 0) st
    match st.declCtx e with
    | some c => setConsumer c x.1 true st
    | none => st)
  let l : Fin 17 := Fin.ofNat 17 lead
  let s := s.setChain l { s.chains[l] with left := left }
  let s := s.each is (fun i st => st.each (workSlots i md) enableBlk)
  let s := s.each is (fun i st => enableBlk (.core i) st)
  let w := s.declWord e 7
  let s := setDeclWord e 7 (putBits (putBits w 48 32 (maskOf 17 is.contains)) 51 49 (g - 1)) s
  (showSlices s, is.all (fun i => (workSlots i md).all s.enabled && s.enabled (.core i)))

/-- Slice `i` holds no work: nothing routed, no queue, no gang. -/
def clearSlice (i : Nat) (s : State) : State :=
  let n : Fin 17 := Fin.ofNat 17 i
  let p : Blk := .placement
  let s := dropConsumer i s
  let s := (s.wrw p (0x1000 + 0x10 * i) 0).wrw p (0x1008 + 0x10 * i) 0
  let s := s.wr (.core i) R.SLICE_MODE.mode 0
  let s := s.wrw (.filt i) R.XF_GANG.size_m1.off 0
  let s := s.each (List.range 11) (fun k st => st.wrw (.records i) (R.REC_CLASS.enable k).off 0)
  let s := (s.wr (.records i) R.CAP_RING.base 0).wr (.records i) R.SYN_ROUTE.groups 0
  let s := s.wrw .chan (R.CHAN_MAP.qbase i).off 0
  let s := s.each s.syns[n].routes (fun x st => st.wr (.txg x.1) (R.TXG_SS.enable x.2) 0)
  let s := s.setSyn n { s.syns[n] with routes := [] }
  let s := s.setChain n { s.chains[n] with left := none }
  s

/-- What analysis `e` holds beside its slices is free. -/
def dropAnalysis (e : Nat) (s : State) : State :=
  let u := nbits (s.declWord e 7) 57 52
  let s := if s.rd .check (R.CHK_OWNER.entry u) = e then s.wrw .check (R.CHK_OWNER.entry u).off 0 else s
  { s with pl := { s.pl with
      order := s.pl.order.filter (fun x => x ≠ e)
      susp := s.pl.susp.filter (fun x => x.1 ≠ e)
      rings := s.pl.rings.filter (fun x => x.1 % 128 ≠ e)
      need := s.pl.need.filter (fun x => x.entry ≠ e) } }

/-- An analysis is decided (R270). -/
def evalAnalysis (e : Nat) (s : State) : State :=
  let pl := s.plan e false
  let soft := s.overBudget (pl.need :: s.gaplessNeeds e)
  if pl.reasons ≠ [] then reject e (lowest (pl.reasons ++ (if s.declBest e then [] else soft))) s
  else if soft ≠ [] && !s.declBest e then reject e (lowest soft) s
  else
    let u := s.freeUnit.getD 0
    let s := (s.wr .check (R.CHK_OWNER.entry u) e).wr .check (R.CHK_OWNER.assigned u) 1
    let s := setDecl e (if soft = [] then 1 else 2) 0 s
    let s := setDeclWord e 7 (putBits (s.declWord e 7) 57 52 u) s
    let r := (if pl.sizes.1 = 0 then [] else [(e, pl.rings.1, pl.sizes.1)]) ++ (if pl.sizes.2 = 0 then [] else [(e + 128, pl.rings.2, pl.sizes.2)])
    let s := { s with pl := { s.pl with
      order := s.pl.order ++ [e]
      rings := s.pl.rings ++ r
      need := s.pl.need ++ [pl.need] } }
    let (t, ok) := bringUp e pl.slices pl.list none s
    if ok then t
    else
      -- a slot refused enable: the analysis is undone
      let t := t.each pl.slices (fun i st => clearSlice i (killSlice i st))
      reject e 13 (dropAnalysis e t)

/-- Slices quiesce, and `act` follows. -/
def addJob (is : List Nat) (act : PlThen) (s : State) : State :=
  let s := { s with pl := { s.pl with jobs := s.pl.jobs ++ [PlJob.mk is act] } }
  s.each is (fun i st => st.each (sliceSlots i) requestQuiesce)

/-! ### Capacity falls and rises (R275) -/

/-- A best-effort analysis is demoted, another suspended. -/
def giveUp (cause e : Nat) (s : State) : State :=
  let is := s.declSlices e
  let i := is.headD 0
  let s := s.cnt .placement R.PL_COUNTS.demotions (bit (s.declBest e))
  if s.declBest e then plEvent cause e i i 2 (setDecl e 2 0 s)
  else
    let s := plEvent cause e i i 3 (setDecl e 3 18 s)
    addJob is (.suspend e) s

/-- The gapless analyses are tested, and given up from the last admitted on, until the rest fit. -/
def shed (cause : Nat) : Nat → Op
  | 0, s => s
  | n + 1, s =>
    if s.allFit then s
    else match s.pl.order.reverse.find? (fun e => decide (s.declState e = 1)) with
      | some e => shed cause n (giveUp cause e s)
      | none => s

/-- Suspended and best-effort analyses are taken back in admission order when they fit gapless. -/
def restore (cause : Nat) (s : State) : State :=
  s.each s.pl.order (fun e st =>
    let i := (st.declSlices e).headD 0
    if st.declState e = 2 then
      let z := setDecl e 1 0 st
      if z.allFit then plEvent cause e i i 0 z else st
    else if st.declState e = 3 && !st.pl.jobs.any (fun j => j.act = .suspend e) then
      let pl := st.plan e true
      if pl.reasons ≠ [] ∨ st.overBudget (pl.need :: st.gaplessNeeds e) ≠ [] then st
      else
        let left := (st.pl.susp.find? (fun x => x.1 = e)).map (fun x => (x.2.1, x.2.2))
        let z := setDecl e 1 0 st
        let z := { z with pl := { z.pl with
          susp := z.pl.susp.filter (fun x => x.1 ≠ e)
          need := z.pl.need.filter (fun x => x.entry ≠ e) ++ [pl.need] } }
        let (z, ok) := bringUp e pl.slices pl.list left z
        if !ok then st
        else
          let a := pl.slices.headD 0
          plEvent cause e a a 1 (z.cnt .placement R.PL_COUNTS.replacements 1)
    else st)

/-! ### Jobs: what follows a quiesce -/

/-- Every slot of slice `i` is disabled. -/
def State.sliceOff (s : State) (i : Nat) : Bool := (sliceSlots i).all (fun b => !s.enabled b || s.flag b R.BLOCK_STATUS.wedged)

/-- The queues of destination `e` have no open reservation. -/
def State.destIdle (s : State) (e : Nat) : Bool :=
  let q := nbits (s.declWord e 7) 19 0
  let n := nbits (s.declWord e 2) 12 0
  s.queue.recs.all (fun r => decide (r.q < q) || decide (q + n ≤ r.q) || !r.reserved)

/-- The slices of a job have quiesced. -/
def State.jobReady (s : State) (j : PlJob) : Bool :=
  j.slices.all s.sliceOff && (match j.act with
    | .free e => decide (s.declKind e ≠ 3) || s.destIdle e
    | .relieve _ => s.cal.slice.isNone
    | _ => true)

/-- WITHDRAW of entry `e` ends: its resources are free. -/
def freeEntry (e : Nat) (s : State) : State :=
  let p : Blk := .placement
  let s := match s.declKind e with
    | 1 =>
      let c := nbits (s.declWord e 7) 5 0
      (bindRx e none (s.wrw p (0x1200 + 8 * c) 0)).setMap c EpochMap.unmapped
    | 2 =>
      let s := s.each (s.declSlices e) (fun i st => clearSlice i (st.wr p (R.CAL_SET.unconvergent i) 0))
      dropAnalysis e s
    | _ =>
      let q := nbits (s.declWord e 7) 19 0
      s.each (List.range (nbits (s.declWord e 2) 12 0)) (fun i st => setCtx (q + i) ((st.ctx (q + i)).setBit 7 0) st)
  let s := setDecl e 0 0 s
  let s := if s.flag p R.PL_CTRL.go && decide (s.rd p R.PL_CTRL.last_op = 2) then plDone 0 s else s
  placeCause 9 e s

/-- A job whose slices have quiesced is finished. -/
def finishJob (j : PlJob) (s : State) : State :=
  match j.act with
  | .free e => freeEntry e s
  | .suspend e =>
    let l : Fin 17 := Fin.ofNat 17 (j.slices.headD 0)
    let s := match s.chains[l].left with
      | some (r, n) => { s with pl := { s.pl with susp := s.pl.susp ++ [(e, r, n)] } }
      | none => s
    let s := s.each j.slices clearSlice
    setDeclWord e 7 (putBits (putBits (s.declWord e 7) 48 32 0) 51 49 0) s
  | .reload e =>
    let p : Blk := .placement
    let a := s.rd p R.PL_ARG.image
    let n := s.rd p R.PL_ARG2.length
    let d := s.flag p R.PL_ARG2.img_target
    let img := (s.imageBytes (d, a, n)).getD []
    let s := setDeclWord e 1 a s
    let s := setDeclWord e 2 (putBits (s.declWord e 2) 31 0 n) s
    let s := setDeclWord e 0 (putBits (s.declWord e 0) 26 26 (bit d)) s
    let md := s.declMode e
    let s := s.each j.slices (fun i st => (loadImage (Fin.ofNat 17 i) img st).1)
    let s := s.each j.slices (fun i st =>
      let st := st.wr p (R.PL_SLICE.version i) (st.rd (.core i) R.CORE_IMAGE.version)
      (st.wr p (R.PL_SLICE.program i) (st.rd (.core i) R.CORE_IMAGE.program_id)).wr p (R.CAL_SET.unconvergent i) 0)
    let s := s.each j.slices (fun i st => st.each (workSlots i md) enableBlk)
    let s := s.each j.slices (fun i st => enableBlk (.core i) st)
    let i := j.slices.headD 0
    plDone 0 (plEvent 8 e i i 1 s)
  | .relieve i => enterMaintain i false (clearSlice i s)
  | .unplace i =>
    let s := clearSlice i s
    if s.cal.slice.isNone && !s.pl.jobs.any (fun (j : PlJob) => match j.act with | .relieve _ => true | _ => false) then setPhase3 0 s else s

/-- Finish every job that is ready. -/
def settleJobs (s : State) : State :=
  let ready := s.pl.jobs.filter s.jobReady
  let s := { s with pl := { s.pl with jobs := s.pl.jobs.filter (fun j => !s.jobReady j) } }
  s.each ready finishJob

/-! ### Takeovers begin (R274, R306) -/

/-- The stand-ins for `n` slices of analysis `e`: the spare, then the free slices in candidate order; a slice whose set is being
gathered only when `urgent`. -/
def State.standIns (s : State) (e n : Nat) (urgent : Bool) : List Nat :=
  let sp := match s.spare with
    | some i => if s.cal.slice = some i ∧ ¬ urgent then [] else [i]
    | none => []
  (sp ++ s.freeSlices e).take n

/-- A gathering under way in slice `i` stops: its trims keep their values and its set stays stale (R313). -/
def stopGather (i : Nat) (s : State) : State :=
  if s.cal.slice ≠ some i then s else
  let p : Blk := .placement
  let st := if s.rd p (R.CAL_SET.stale_cause i) ≠ 0 then 2 else if s.rd p (R.CAL_SET.gathered_s i) = 0 ∧ s.rd p (R.CAL_SET.cal_count i) = 0 then 0 else 1
  let s := (s.wr p (R.CAL_SET.state i) st).wr p R.CAL_STATUS.active 0
  { s with cal := { s.cal with slice := none, toFree := false } }

/-- A takeover of slices `incs` of analysis `e` by stand-ins begins: phase 1. -/
def tkoBegin (cause e : Nat) (incs ins : List Nat) (img : Bool × Nat × Nat) (update : Option (Nat × Nat × Bool)) (s : State) : State :=
  let p : Blk := .placement
  let xs := (s.cfgList e).getD []
  let bytes := (s.imageBytes img).getD []
  let pairs := incs.zip ins
  let s := s.each ins stopGather
  let s := s.each pairs (fun x st =>
    let st := blankChan x.2 st
    prepareSlice e x.2 (st.rd (.filt x.1) R.XF_GANG.member) (st.gangG x.1)
      (if st.rd (.filt x.1) R.XF_GANG.lead_slice = x.1 ∨ st.gangG x.1 = 1 then x.2 else
        match pairs.find? (fun y => y.1 = st.rd (.filt x.1) R.XF_GANG.lead_slice) with
        | some y => y.2
        | none => st.rd (.filt x.1) R.XF_GANG.lead_slice) xs bytes true st)
  let s := (s.wr p R.TKO_STATUS.stand_in (ins.headD 0)).wr p R.TKO_STATUS.incumbent (incs.headD 0)
  let s := s.wr p R.TKO_STATUS.cause cause
  setPhase3 1 { s with tko := { TkoSt.zero with pairs := pairs, update := update } }
where
  /-- What is left of earlier work in a slice goes. -/
  blankChan (i : Nat) (s : State) : State :=
    let n : Fin 17 := Fin.ofNat 17 i
    s.setChain n { s.chains[n] with left := none }

/-! ### The commands of PL_CTRL (R267, R276) -/

/-- SUBMIT: streams, destinations, analyses; then what was waiting for capacity. -/
def plSubmit (s : State) : State :=
  let s := s.cnt .placement R.PL_COUNTS.submits 1
  let s := s.each (s.toEvaluate 1) evalStream
  let s := s.each (s.toEvaluate 3) evalDest
  let s := s.each (s.toEvaluate 2) evalAnalysis
  plDone 0 (restore 9 s)

/-- Another entry that holds resources refers to entry `e`. -/
def State.referenced (s : State) (e : Nat) : Bool :=
  match s.declKind e with
  | 1 => (List.range 128).any (fun x => decide (s.declKind x = 2) && s.declHeld x && decide (s.declMode x ≠ 3)
      && decide (nbits (s.declWord x 0) 25 19 = e))
  | 3 => s.destBound e 128
  | _ => false

/-- WITHDRAW of entry `e`. -/
def plWithdraw (e : Nat) (s : State) : State :=
  let st := s.declState e
  if st = 0 ∨ st = 5 ∨ s.referenced e then plDone 2 s
  else if st = 4 then plDone 0 (setDecl e 0 0 s)
  else
    let s := if s.tko.pairs.any (fun x => decide (s.entryOf x.1 = e)) then tkoAbandon 5 s else s
    let is := if s.declKind e = 2 then s.declSlices e else []
    let s := setDecl e 5 0 s
    let keep := s.pl.jobs.filter (fun (j : PlJob) => j.act ≠ .suspend e ∧ j.act ≠ .reload e)
    settleJobs (addJob is (.free e) { s with pl := { s.pl with jobs := keep } })

/-- UPDATE of analysis `e`. -/
def plUpdate (e : Nat) (s : State) : State :=
  let p : Blk := .placement
  let a := s.rd p R.PL_ARG.image
  let n := s.rd p R.PL_ARG2.length
  let d := s.flag p R.PL_ARG2.img_target
  let is := s.declSlices e
  if s.declKind e ≠ 2 ∨ ¬ (s.declState e = 1 ∨ s.declState e = 2) ∨ s.imageStatus (s.imageBytes (d, a, n)) ≠ 0 then plDone 2 s
  else
    let s := s.observe 86 11 1 8
    let ins := s.standIns e is.length false
    if ins.length = is.length then tkoBegin 8 e is ins (d, a, n) (some (a, n, d)) s
    else if nbit (s.declWord e 0) 3 then
      addJob is (.reload e) s
    else plDone 2 s

/-- The command in PL_CTRL is performed. -/
def plPerform (s : State) : State :=
  let p : Blk := .placement
  let op := s.rd p R.PL_CTRL.op
  let e := s.rd p R.PL_CTRL.entry
  let s := s.wr p R.PL_CTRL.last_op op
  match op with
  | 1 => plSubmit s
  | 2 => plWithdraw e s
  | 3 => plUpdate e s
  | _ => plDone 0 s

/-- The engine may take a command now: it is enabled, its clock runs and no action is in progress. -/
def State.plIdle (s : State) : Bool :=
  s.enabled .placement && s.coreRuns && decide (s.pl.jobs = []) && (decide (s.tkoPhase = 0) || decide (s.tkoPhase = 4))

/-- PL_CTRL is written with go: the command is pending, and performed at once when the engine is idle and nothing of higher precedence
waits. A go written while go reads 1 is not performed. -/
def plCommand (op e : Nat) (s : State) : State :=
  let p : Blk := .placement
  if s.flag p R.PL_CTRL.go then s
  else
    let s := mgmtUp ((s.wr p R.PL_CTRL.op op).wr p R.PL_CTRL.entry e)
    let s := (s.wr p R.PL_CTRL.go 1).wr p R.PL_CTRL.last_status 1
    if s.plIdle && decide (s.causes = []) then showPlacement (plPerform s) else s

/-- A row that names its own command leaves entry and arguments to PL_CTRL's registers. -/
def opSubmit (s : State) : State := plCommand 1 (s.rd .placement R.PL_CTRL.entry) s
/-- WITHDRAW. -/
def opWithdraw (e : Fin 128) (s : State) : State := plCommand 2 e.val s
/-- UPDATE. -/
def opUpdate (e : Fin 128) (s : State) : State := plCommand 3 e.val s

/-! ### Actions (R274) -/

/-- The class of a cause in the order of precedence: faults, capacity, calibration. -/
def PlCause.cls (x : PlCause) : Nat :=
  match x.cause with
  | 2 | 3 => 0
  | 4 | 5 | 6 | 7 | 9 => 1
  | _ => 2

/-- The slice a calibration takeover may use: the spare with a valid set that is not stale. -/
def State.freshSpare (s : State) : Bool :=
  match s.spare with
  | some i => decide (s.rd .placement (R.CAL_SET.state i) = 1)
  | none => false

/-- The engine can act on this cause now. -/
def State.actionable (s : State) (x : PlCause) : Bool :=
  let ph := s.tkoPhase
  let busy := decide (ph = 1) || decide (ph = 2) || decide (ph = 3)
  let tc := s.rd .placement R.TKO_STATUS.cause
  match x.cause with
  | 1 => s.enabled .placement && !busy && decide (s.pl.jobs = []) && s.cal.slice.isNone && (s.freshSpare || !s.placed x.arg)
  | 2 => if s.placed x.arg then (!busy || decide (tc = 1)) && decide (s.standIns (s.entryOf x.arg) 1 true ≠ []) else true
  | 3 => true
  | _ => s.enabled .placement

/-- Slice `i`, wedged or retired, carried work: a stand-in takes it over from where the incumbent stopped, or the analysis is
suspended (R23, R274). -/
def rehome (i : Nat) (s : State) : State :=
  if !s.placed i then showSlices s else
  let p : Blk := .placement
  let e := s.entryOf i
  let is := s.declSlices e
  let n : Fin 17 := Fin.ofNat 17 i
  let left := match s.chains[n].left with
    | some x => some x
    | none => match s.chains[n].run with
      | some r => if s.chains[n].any then some (r, s.chains[n].next) else none
      | none => none
  match s.standIns e 1 true with
  | t :: _ =>
    let m := s.rd p (R.PL_SLICE.member i)
    let lead := if is.headD i = i then t else is.headD i
    let xs := (s.cfgList e).getD []
    let img := (s.imageBytes (s.declImage e)).getD []
    let s := stopGather t s
    let s := s.wr (.core t) R.SLICE_MODE.role 0
    let ctx := s.declCtx e
    let s := clearSlice i s
    let s := prepareSlice e t m is.length lead xs img false s
    let s := if lead = t then writeRoutes e t s else s
    let s := s.each (is.filter (fun k => k ≠ i)) (fun k st =>
      (st.wr (.filt k) R.XF_GANG.lead_slice lead).wr p (R.PL_SLICE.lead_slice k) lead)
    let s := showPlaced e t m is.length lead ((s.lmemNeeds (Fin.ofNat 17 t)).foldl (· + ·) 0) s
    let s := match ctx with
      | some c => setConsumer c t true s
      | none => s
    let tt : Fin 17 := Fin.ofNat 17 t
    let s := s.setChain tt { s.chains[tt] with left := left }
    let s := enableBlk (.core t) (s.each (workSlots t (s.declMode e)) enableBlk)
    let w := nbits (s.declWord e 7) 48 32
    let w := Nat.lor (if nbit w i then w - 2 ^ i else w) (2 ^ t)
    let s := setDeclWord e 7 (putBits (s.declWord e 7) 48 32 w) s
    showSlices (plEvent 3 e i t 1 (s.cnt p R.PL_COUNTS.replacements 1))
  | [] =>
    let rest := is.filter (fun k => k ≠ i)
    let s := match left with
      | some (r, k) => { s with pl := { s.pl with susp := s.pl.susp ++ [(e, r, k)] } }
      | none => s
    let s := plEvent 3 e i i 3 (setDecl e 3 18 (clearSlice i s))
    settleJobs (addJob rest (.suspend e) s)

/-- PLL_CORE is gated and set to another band (R382): the CORE domain stops until lock is declared. -/
def gateCore (f : Nat) (s : State) : State :=
  let b : Blk := .clocks
  let s := setFreq f (s.wr b R.CLK_STATUS.ramp_state 3)
  let m := s.rd b R.CLK_STATUS.locked
  let s := s.wr b R.CLK_STATUS.locked (m / 2 * 2)
  noteClocks (seekLock 0 (s.wr b R.CLK_STATUS.gated (Nat.lor (s.rd b R.CLK_STATUS.gated) 1)))

/-- A change of the CORE clock has been acted on (R382, R383): a new spread takes effect; a ramp or relock that waited begins; one that
has ended is done. -/
def afterCause7 (s : State) : State :=
  let b : Blk := .clocks
  let s := showLoads { s with clk.spread := if s.enabled b then s.rd b R.CLK_SPREAD.core_spread else s.clk.spread }
  if s.rd b R.CLK_STATUS.ramp_state ≠ 1 then
    { s with pl := { s.pl with freq := if s.rd b R.CLK_STATUS.ramp_state = 0 then none else s.pl.freq } }
  else match s.clk.relock, s.clk.ramp with
  | some f, _ => gateCore f s
  | none, g :: _ =>
    let s := setFreq g.target ((s.wr b R.CLK_STATUS.ramp_state 2).wr b R.CLK_STATUS.ramp_segment 0)
    { s with clk.segAt := s.tim.raw }
  | none, [] =>
    let s := (s.wr b R.CLK_STATUS.ramp_state 0).wr b R.CLK_STATUS.ramp_segment 0
    let s := if s.flag b R.CLK_RAMP_CTRL.go then (s.wr b R.CLK_RAMP_CTRL.go 0).wr b R.CLK_RAMP_CTRL.last_status 0 else s
    { s with pl := { s.pl with freq := none } }

/-- The engine acts on one cause. -/
def actOn (x : PlCause) (s : State) : State :=
  let p : Blk := .placement
  let s := s.observe 86 11 1 x.cause
  match x.cause with
  | 1 =>
    if !s.placed x.arg then
      if s.spare = some x.arg then enterMaintain x.arg false s
      else if s.free? x.arg then enterMaintain x.arg true s
      else calGoEnd x.arg 2 s
    else if !s.serves x.arg ∨ s.flag p (R.CAL_SET.unconvergent x.arg) then calGoEnd x.arg 2 s
    else
      let e := s.entryOf x.arg
      match s.spare with
      | some t => tkoBegin 1 e [x.arg] [t] (s.declImage e) none s
      | none => s
  | 2 =>
    if !s.placed x.arg then s
    else
      let e := s.entryOf x.arg
      let s := if s.rd p R.TKO_STATUS.cause = 1 then tkoAbandon 3 s else s
      match s.standIns e 1 true with
      | t :: _ => tkoBegin 2 e [x.arg] [t] (s.declImage e) none s
      | [] => s
  | 3 => rehome x.arg s
  | 7 =>
    let s := { s with pl := { s.pl with freq := some x.arg } }
    let z := { s with clk.spread := if s.enabled .clocks then s.rd .clocks R.CLK_SPREAD.core_spread else s.clk.spread }
    let t := restore 7 (shed 7 17 z)
    afterCause7 { t with clk.spread := s.clk.spread }
  | 4 | 6 => shed x.cause 17 s
  | 5 => restore 5 (shed 5 17 s)
  | 9 => restore 9 s
  | _ => s

/-- The cause to act on next: of the lowest class, the first that can be acted on. -/
def State.nextCause (s : State) : Option PlCause :=
  [0, 1, 2].findSome? (fun k => s.causes.find? (fun x => decide (x.cls = k) && s.actionable x))

/-- Remove the first entry equal to `x`. -/
def dropCause (x : PlCause) : List PlCause → List PlCause
  | [] => []
  | y :: ys => if x = y then ys else y :: dropCause x ys

/-- The engine takes its next action: a job whose slices have quiesced, then the next cause, then a pending command. A takeover request
that finds no stand-in is shown in PL_EVENT. -/
def opPlacementAction (s : State) : State :=
  if !s.coreRuns then s else
  let s := settleJobs (tkoSettle s)
  let s := match s.causes.find? (fun x => decide (x.cause = 2) && !s.actionable x && s.placed x.arg) with
    | some x => if s.tkoPhase = 0 then plEvent 2 (s.entryOf x.arg) x.arg x.arg 0 s else s
    | none => s
  match s.nextCause with
  | some x => showPlacement (actOn x { s with causes := dropCause x s.causes })
  | none => if s.flag .placement R.PL_CTRL.go && decide (s.rd .placement R.PL_CTRL.last_status = 1) && s.plIdle
    then showPlacement (plPerform s) else showPlacement s

/-! ### The commands -/

/-- SUBMIT (R270): PL_CTRL SUBMIT evaluates the declarations, and places and enables what is admitted. -/
def execSubmit (s : State) : Host.Outcome State Fault Refusal :=
  .next (onWrite opSubmit s)
/-- WITHDRAW (R267): PL_CTRL WITHDRAW quiesces an entry, frees its resources and returns it to state 0. -/
def execWithdraw (e : Fin 128) (s : State) : Host.Outcome State Fault Refusal :=
  .next (onWrite (opWithdraw e) s)
/-- UPDATE (R276): PL_CTRL UPDATE performs a rolling program update of an analysis. -/
def execUpdate (e : Fin 128) (s : State) : Host.Outcome State Fault Refusal :=
  .next (onWrite (opUpdate e) s)
/-- PLACEMENT_ACTION (R274): The placement engine takes its next queued action, such as a re-placement, demotion or restoration. -/
def execPlacementAction (s : State) : Host.Outcome State Fault Refusal :=
  .next (opPlacementAction s)

end Sys2Proof.Machine
end

