-- ==== Sys2Proof/Machine/Calib.lean ====
section
/-!
DEFINITION. Sys2Proof/Machine/Calib.lean: timing sets, their scheduling, tracking and staleness, and the events of a calibration
takeover (R300 to R314).
-/
namespace Sys2Proof.Machine
open Sys2Proof

/-! ### Gathering (R301, R312) -/

/-- The passing run of trim `t`: its first tap and its length. -/
def GatherResult.run (r : GatherResult) (t : Nat) : Nat × Nat := widestRun 128 (r.sweeps.getD t 0).toNat

/-- The set is valid: every trim's run is at least 24 taps wide. -/
def GatherResult.valid (r : GatherResult) : Bool := (List.range 12).all (fun t => decide (24 ≤ (r.run t).2))

/-- The narrowest run and its trim, lowest first. -/
def GatherResult.narrowest (r : GatherResult) : Nat × Nat :=
  (List.range 12).foldl (fun b t => if (r.run t).2 < b.1 then ((r.run t).2, t) else b) (128, 0)

/-- The trims of a set packed one per byte, from trim `a`. -/
def GatherResult.pack (r : GatherResult) (a n : Nat) : Nat :=
  (List.range n).foldl (fun w t => putBits w (8 * t + 6) (8 * t) (runCentre (r.run (a + t)))) 0

/-- The set of slice `i` is stored and tagged (R301, R303). -/
def storeSet (i : Nat) (r : GatherResult) (s : State) : State :=
  let p : Blk := .placement
  let a := 0x1400 + 0x40 * i
  let s := (s.wrw p (a + 16) (r.pack 0 8)).wrw p (a + 24) (r.pack 8 4)
  let s := s.wrw p (a + 32) 0
  let s := (s.wr p (R.CAL_SET.temp_tag i) r.temp.toNat).wr p (R.CAL_SET.vdd_tag i) r.vdd.toNat
  let s := s.wr p (R.CAL_SET.gathered_s i) (s.tim.now / secUnits)
  let s := (s.wr p (R.CAL_SET.min_window i) r.narrowest.1).wr p (R.CAL_SET.min_trim i) r.narrowest.2
  let s := s.wr p (R.CAL_SET.cal_count i) (s.rd p (R.CAL_SET.cal_count i) + 1)
  let s := (s.wr p (R.CAL_SET.state i) (bit r.valid)).wr p (R.CAL_SET.stale_cause i) 0
  let m := s.rd p R.CAL_STATUS.stale
  let s := s.wr p R.CAL_STATUS.stale (if nbit m i then m - 2 ^ i else m)
  let d := s.rd p R.CAL_STATUS.due
  let s := s.wr p R.CAL_STATUS.due (if nbit d i then d - 2 ^ i else d)
  let s := s.cnt p R.CAL_COUNTS.calibrations 1
  { s with cal := { s.cal with
    track := SMap.set (fun _ => none) s.cal.track i none
    moves := SMap.set (fun _ => none) s.cal.moves i none } }

/-- Local and instruction memory of slice `i` are cleared. -/
def clearMems (i : Fin 17) (s : State) : State :=
  let s := s.wrw (.core i) R.CORE_IMAGE.program_id.off 0
  let s := s.wrw (.core i) R.CORE_IMAGE2.entry.off 0
  { s with mem := { s.mem with
    lmem := s.mem.lmem.set i []
    imem := s.mem.imem.set i []
    lmemBad := s.mem.lmemBad.set i []
    imemBad := s.mem.imemBad.set i [] } }

/-- The slice whose set is being gathered has finished its self-test; `test` is the result code of the tests after the first. -/
def opSelftestDone (set : GatherResult) (test : Fin 6) (s : State) : State :=
  match s.cal.slice with
  | none => s
  | some k =>
    let p : Blk := .placement
    let i : Fin 17 := Fin.ofNat 17 k
    let s := storeSet k set s
    let c := if set.valid then test.val else 1
    let s := s.wr p (R.CAL_SET.selftest k) c
    let s := clearMems i s
    let toFree := s.cal.toFree
    let other := s.spare.any (fun x => x ≠ k)
    let s := { s with cal := { s.cal with slice := none, toFree := false } }
    let s := s.wr p R.CAL_STATUS.active 0
    let s := if c = 0 then
        let s := s.wr p (R.CAL_SET.fail_count k) 0
        if toFree || other then (setRole k 0 s).wr (.core k) R.SLICE_MODE.mode 0 else setRole k 1 s
      else
        let s := s.cnt p R.TKO_COUNTS.selftest_retired 1
        (setRole k 2 s).wr (.core k) R.SLICE_MODE.mode 0
    let s := if s.tkoPhase = 4 ∧ ¬ toFree then setPhase3 0 s else s
    showPlacement (calGoEnd k (if c = 0 then 0 else 2) s)

/-! ### Scheduling (R305) -/

/-- The drift of a stale set in units of 1/76,800 of the limits: |ΔT| against 8 °C, |ΔV| against 15 mV. -/
def State.drift (s : State) (i : Nat) : Nat :=
  let p : Blk := .placement
  let dT := (signed 16 (s.rd p (R.CAL_SET.temp_now i)) - signed 16 (s.rd p (R.CAL_SET.temp_tag i))).natAbs
  let dV := ((s.rd p (R.CAL_SET.vdd_now i) : Int) - (s.rd p (R.CAL_SET.vdd_tag i) : Int)).natAbs
  if 3 ≤ s.rd p (R.CAL_SET.stale_cause i) then 76800 else max (dT * 150) (dV * 512)

/-- The set of slice `i` is older than cal_interval hours. -/
def State.calDue (s : State) (i : Nat) : Bool :=
  let h := s.rd .placement R.CAL_CFG.cal_interval
  let age := (s.tim.now / secUnits - s.rd .placement (R.CAL_SET.gathered_s i)) % 2 ^ 32
  decide (h ≠ 0) && decide (s.rd .placement (R.CAL_SET.state i) ≠ 3) && decide (3600 * h < age)

/-- A slice that may be calibrated now: free, or placed with a fresh spare, and not marked unconvergent. -/
def State.calStartable (s : State) (i : Nat) : Bool :=
  decide (s.role i = 0) && !s.flag .placement (R.CAL_SET.unconvergent i)
    && (s.free? i || (s.placed i && s.freshSpare && !s.tko.pairs.any (fun x => x.1 = i) && !s.inJob i))

/-- The entry of a list with the greatest value, the first of equals. -/
def greatest (f : Nat → Nat) (xs : List Nat) : Option Nat :=
  xs.foldl (fun b i => match b with
    | none => some i
    | some j => if f j < f i then some i else some j) none

/-- The slice to calibrate next, in the order of R305. -/
def State.calNext (s : State) : Option Nat :=
  let p : Blk := .placement
  let all := List.range 17
  let stale := fun i => decide (s.rd p (R.CAL_SET.state i) = 2)
  match all.find? (fun i => decide (s.spare = some i) && (stale i || s.calDue i)) with
  | some i => some i
  | none =>
    match greatest s.drift (all.filter (fun i => stale i && s.calStartable i)) with
    | some i => some i
    | none =>
      let now := s.tim.now / secUnits
      greatest (fun i => (now - s.rd p (R.CAL_SET.gathered_s i)) % 2 ^ 32) (all.filter (fun i => s.calDue i && s.calStartable i))

/-- Slice `i` is to be calibrated: the spare and a free slice at once, a placed one by takeover (R274 cause 1). -/
def calStart (i : Nat) (s : State) : State :=
  if s.spare = some i then enterMaintain i false s
  else if s.placed i then placeCause 1 i s
  else enterMaintain i true s

/-- Nothing stands in the way of a calibration: the engine is enabled, no set is being gathered, no takeover or calibration request is
under way. -/
def State.calClear (s : State) : Bool :=
  let ph := s.tkoPhase
  s.enabled .placement && s.coreRuns && s.cal.slice.isNone && (decide (ph = 0) || decide (ph = 4))
    && !s.causes.any (fun x => x.cause = 1) && !s.pl.jobs.any (fun j => match j.act with | .relieve _ => true | _ => false)

/-- The management controller looks for the next slice to calibrate. -/
def opCalibrationDue (s : State) : State :=
  let s := s.wr .placement R.CAL_STATUS.due (maskOf 17 (fun i => decide (s.role i ≠ 2) && s.calDue i))
  if !s.flag .placement R.CAL_CFG.auto_cal || !s.calClear then s
  else match s.calNext with
  | some i => calStart i s
  | none => s

/-- cal_retry minutes after an abandoned calibration of slice `i`: it is requested again. -/
def opCalRetry (i : Fin 17) (s : State) : State :=
  match s.cal.retry.find? (fun x => x.1 = i.val) with
  | none => s
  | some x =>
    if s.tim.raw < x.2 + 60 * s.rd .placement R.CAL_CFG.cal_retry * secUnits then s
    else
      let s := { s with cal := { s.cal with retry := s.cal.retry.filter (fun y => y.1 ≠ i.val) } }
      if s.placed i.val && s.serves i.val then placeCause 1 i.val s else s

/-! ### CAL_CTRL -/

/-- go names a slice that cannot be calibrated. -/
def State.calRefused (s : State) (i : Nat) : Bool :=
  decide (17 ≤ i) || decide (s.role i = 2) || s.flag .placement (R.CAL_SET.unconvergent i)
    || (s.placed i && !s.freshSpare)

/-- CAL_CTRL.go for slice `i`; a go while go reads 1 is not performed. -/
def calGo (i : Nat) (s : State) : State :=
  let p : Blk := .placement
  if s.flag p R.CAL_CTRL.go then s else
  let s := (s.wr p R.CAL_CTRL.last_cmd 1).wr p R.CAL_CTRL.slice i
  if s.calRefused i then s.wr p R.CAL_CTRL.last_status 2
  else
    let s := mgmtUp ((s.wr p R.CAL_CTRL.go 1).wr p R.CAL_CTRL.last_status 1)
    if s.cal.slice = some i then s
    else if !s.calClear then placeCause 1 i s
    else calStart i s

/-- CAL_CTRL.go is written 1. -/
def opCalGo (slice : BitVec 5) (s : State) : State := calGo slice.toNat s

/-- CAL_CTRL.abort. -/
def calAbort (s : State) : State :=
  let p : Blk := .placement
  let ph := s.tkoPhase
  let s := s.wr p R.CAL_CTRL.last_cmd 2
  if ph = 1 ∨ ph = 2 ∨ ph = 3 then
    if s.rd p R.TKO_STATUS.cause = 2 then s.wr p R.CAL_CTRL.last_status 2
    else (tkoAbandon 3 s).wr p R.CAL_CTRL.last_status 0
  else s.wr p R.CAL_CTRL.last_status 0

/-- CAL_CTRL.abort is written 1. -/
def opCalAbort (s : State) : State := calAbort s

/-! ### The takeover's own events (R306, R313) -/

/-- B_j: the stand-ins join. -/
def opJoin (s : State) : State := if s.coreRuns && decide (s.tkoPhase = 1) then tkoJoin s else s

/-- shadow_limit has passed since the join of a calibration takeover. -/
def opShadowLimit (s : State) : State :=
  let ph := s.tkoPhase
  let lim := max 1 (s.rd .placement R.CAL_CFG.shadow_limit)
  if s.rd .placement R.TKO_STATUS.cause = 1 ∧ (ph = 2 ∨ ph = 3) ∧ s.tko.joinAt + lim * (100 * msUnits) ≤ s.tim.raw then
    showPlacement (tkoAbandon 2 s)
  else s

/-! ### Tracking and missing readings (R302, R303) -/

/-- The monitors of slice `i` give the shift of each window centre since gathering: each trim's move towards it, at most one tap, for the
next caravan boundary. -/
def opTrackingStep (i : Fin 17) (shifts : List Int) (s : State) : State :=
  let st := s.rd .placement (R.CAL_SET.state i.val)
  if !s.flag .placement R.CAL_CFG.track_enable || !s.serves i.val || decide (s.cal.slice = some i.val)
      || s.inJob i.val || decide (st = 0) || decide (st = 3) || !s.coreRuns then s
  else
    let old := (SMap.get (fun _ => none) s.cal.track i.val).getD (List.replicate 12 0)
    let step := (List.range 12).map (fun t => max (-1) (min 1 (shifts.getD t 0 - old.getD t 0)))
    let s := { s with cal := { s.cal with moves := SMap.set (fun _ => none) s.cal.moves i.val (some step) } }
    if s.placed i.val then s else applyMoves i.val s

/-- A second without a valid reading of a sensor of set `k`: slices 0 to 16, then the DRAM channels. -/
def opReadingTimeout (k : Fin 25) (s : State) : State :=
  let last := fun n => SMap.get (fun _ => 0) s.cal.readAt n
  let t := min (last (2 * k.val)) (last (2 * k.val + 1))
  if t + secUnits ≤ s.tim.raw then staleUnit k.val 4 s else s

/-! ### The commands -/

/-- JOIN (R306): The stand-in's slots are enabled at a caravan boundary and it shadows the incumbent's stream. -/
def execJoin (s : State) : Host.Outcome State Fault Refusal :=
  .next (opJoin s)
/-- SHADOW_LIMIT (R313): B_sw is not reached within shadow_limit and the calibration takeover is abandoned. -/
def execShadowLimit (s : State) : Host.Outcome State Fault Refusal :=
  .next (opShadowLimit s)
/-- SELFTEST_DONE (R312): A relieved slice finishes gathering its timing set and self-test, then takes the spare role, is retired, or returns to free. -/
def execSelftestDone (set : GatherResult) (test : Fin 6) (s : State) : Host.Outcome State Fault Refusal :=
  .next (opSelftestDone set test s)
/-- CALIBRATION_DUE (R305): The management controller chooses the next slice to calibrate, by staleness or cal_interval. -/
def execCalibrationDue (s : State) : Host.Outcome State Fault Refusal :=
  .next (opCalibrationDue s)
/-- CAL_RETRY (R313): cal_retry minutes pass after an abandoned calibration and it is retried. -/
def execCalRetry (i : Fin 17) (s : State) : Host.Outcome State Fault Refusal :=
  .next (opCalRetry i s)
/-- CAL_GO (R305): CAL_CTRL.go calibrates the named slice now, or is refused. -/
def execCalGo (slice : BitVec 5) (s : State) : Host.Outcome State Fault Refusal :=
  .next (onWrite (opCalGo slice) s)
/-- CAL_ABORT (R313): CAL_CTRL.abort abandons the takeover in progress unless it is cause 2. -/
def execCalAbort (s : State) : Host.Outcome State Fault Refusal :=
  .next (onWrite opCalAbort s)
/-- TRACKING_STEP (R302): Every 1 ms the replica monitors are read and each trim moves at most one tap. -/
def execTrackingStep (i : Fin 17) (shifts : List Int) (s : State) : Host.Outcome State Fault Refusal :=
  .next (opTrackingStep i shifts s)
/-- READING_TIMEOUT (R303): No valid reading of a set's sensor for 1 s makes the set stale. -/
def execReadingTimeout (k : Fin 25) (s : State) : Host.Outcome State Fault Refusal :=
  .next (opReadingTimeout k s)

end Sys2Proof.Machine
end

