-- ==== Sys2Proof/Machine/Display.lean ====
section
/-!
DEFINITION. Sys2Proof/Machine/Display.lean: display scan-out (R371 to R377): the link, the timing events, the composition of a line,
the line ferries, staged layers and the colour table.
-/
namespace Sys2Proof.Machine
open Sys2Proof

/-! ### Events (R372) -/

/-- Replace a display's record. -/
def State.setDisp (s : State) (d : Fin 2) (x : DispSt) : State := { s with disp := s.disp.set d x }

/-- Event `k` of R372 is raised: its bit, and its vector if enabled. -/
def dispEvent (d : Fin 2) (k : Nat) (s : State) : State :=
  let b : Blk := .display d.val
  let s := s.wr b R.DISP_EVENTS.events (Nat.lor (s.rd b R.DISP_EVENTS.events) (2 ^ k))
  if nbit (s.rd b R.DISP_IRQ.enable) k then s.msix (s.rd b R.DISP_IRQ.vector) else s

/-- The display sends pixels: active, with its pixel clock. -/
def State.dispActive (s : State) (d : Fin 2) : Bool :=
  decide (s.rd (.display d.val) R.DISP_STATUS.state = 2) && s.pllRuns (8 + d.val)

/-- An entry of a colour table that holds nothing. -/
def noColour : Nat → Nat := fun _ => 0

/-! ### Layers (R373, R375, R376) -/

/-- An active layer: what LAYER_ACTIVE, LAYER_ACTIVE2 and the active LAYER_CTRL hold. -/
structure Layer where
  n : Nat
  base : Nat
  stride : Nat
  x : Nat
  y : Nat
  w : Nat
  h : Nat
  ctrl : Nat
  deriving DecidableEq, Repr

/-- The active layer `n`. -/
def State.layer (s : State) (d : Fin 2) (n : Nat) : Layer :=
  let b : Blk := .display d.val
  { n := n
    base := s.rd b (R.LAYER_ACTIVE.base n)
    stride := s.rd b (R.LAYER_ACTIVE.stride n)
    x := s.rd b (R.LAYER_ACTIVE2.x n)
    y := s.rd b (R.LAYER_ACTIVE2.y n)
    w := s.rd b (R.LAYER_ACTIVE2.w n)
    h := s.rd b (R.LAYER_ACTIVE2.h n)
    ctrl := s.disp[d].ctrl.getD n 0 }

/-- Fields of the active LAYER_CTRL. -/
def Layer.on (l : Layer) : Bool := nbit l.ctrl 0
/-- Layer alpha. -/
def Layer.la (l : Layer) : Nat := nbits l.ctrl 9 2
/-- The layer is taken as opaque (R374). -/
def Layer.opaque_ (l : Layer) : Bool := nbit l.ctrl 1 && decide (l.la = 255)
/-- Bytes of a source pixel. -/
def Layer.bytes (l : Layer) : Nat := if l.n < 2 then 2 else 4
/-- The layer covers part of output line `v`, `width` pixels wide: first pixel and end, clipped. -/
def Layer.span (l : Layer) (width v : Nat) : Option (Nat × Nat) :=
  if l.on ∧ l.y ≤ v ∧ v < l.y + l.h ∧ l.x < min (l.x + l.w) width then some (l.x, min (l.x + l.w) width) else none

/-- The active pixels of a line. -/
def State.dispWidth (s : State) (d : Fin 2) : Nat := s.rd (.display d.val) R.DISP_H.active
/-- The active lines of a frame. -/
def State.dispHeight (s : State) (d : Fin 2) : Nat := s.rd (.display d.val) R.DISP_V.active
/-- The lines of a frame. -/
def State.dispLines (s : State) (d : Fin 2) : Nat :=
  let b : Blk := .display d.val
  s.dispHeight d + s.rd b R.DISP_V.front + s.rd b R.DISP_V.sync + s.rd b R.DISP_V.back

/-- The span of layer `n` on a line lies wholly within that of an enabled opaque layer above it. -/
def State.hidden (s : State) (d : Fin 2) (n v : Nat) : Bool :=
  let w := s.dispWidth d
  match (s.layer d n).span w v with
  | none => false
  | some a => (List.range 4).any (fun m => decide (n < m) && (s.layer d m).opaque_ && (match (s.layer d m).span w v with
    | some b => decide (b.1 ≤ a.1) && decide (a.2 ≤ b.2)
    | none => false))

/-- Layer `n` is fetched for output line `v`. -/
def State.fetched (s : State) (d : Fin 2) (n v : Nat) : Bool := ((s.layer d n).span (s.dispWidth d) v).isSome && !s.hidden d n v

/-- The address of the source row of layer `l` for output line `v`. -/
def State.rowAddr (s : State) (d : Fin 2) (l : Layer) (v : Nat) : Nat :=
  let r := v - l.y
  if l.n = 1 then
    let rows := 2 ^ nbits l.ctrl 38 34
    l.base + ((s.disp[d].head : Int) - (r : Int)).emod (rows : Int) |>.toNat * l.stride
  else l.base + r * l.stride

/-- The bytes a layer reads for output line `v`: their first address and their number. -/
def State.layerSpan (s : State) (d : Fin 2) (l : Layer) (v : Nat) : Nat × Nat :=
  (s.rowAddr d l v, match l.span (s.dispWidth d) v with | some (x, e) => l.bytes * (e - x) | none => 0)

/-- The bytes a layer needs for output line `v`; none where its memory does not serve them now, or ends the read in an error: the line is
then incomplete (DESIGN CHOICE, log 36). -/
def State.layerBytes (s : State) (d : Fin 2) (l : Layer) (v : Nat) : Option (List Byte) :=
  let (a, k) := s.layerSpan d l v
  if k = 0 then none
  else if l.n = 2 then
    if s.coreRuns && !s.disp[d].overlayOff && decide (a + k ≤ secureBase) && (s.firstBad .depot a k).isNone then
      some (s.sramRead .depot a k)
    else none
  else if s.dramIn a k && s.dramOpen a k && (s.firstBadLine a k).isNone then some (s.dramRead a k) else none

/-- A read of a layer that meets an uncorrectable error logs it (R318, R334). -/
def layerErrors (d : Fin 2) (l : Layer) (v : Nat) (s : State) : State :=
  let (a, k) := s.layerSpan d l v
  if l.n = 2 then (if s.coreRuns && !s.disp[d].overlayOff && decide (a + k ≤ secureBase) then checkRead .depot a k 0 s else s)
  else if s.dramIn a k && s.dramOpen a k then checkLines a k s else s

/-- The bytes of a layer's line in its ferry. -/
def DispSt.line (x : DispSt) (n v : Nat) : Option (List Byte) :=
  (x.ferry.find? (fun e => e.1 = n ∧ e.2.1 = v)).map (·.2.2)

/-- LAYER_FERRY shows the level of a ferry. -/
def showFerry (d : Fin 2) (n : Nat) (s : State) : State :=
  let b : Blk := .display d.val
  let k := (s.disp[d].ferry.filter (fun e => e.1 = n)).length
  let s := s.wr b (R.LAYER_FERRY.level n) k
  s.wr b (R.LAYER_FERRY.high_water n) (max k (s.rd b (R.LAYER_FERRY.high_water n)))

/-! ### Blending (R374) -/

/-- A component of 8 bits widened to 10. -/
def c10 (c : Nat) : Nat := 4 * c + c / 64

/-- One component blended with alpha `a`. -/
def blend1 (a l b : Nat) : Nat :=
  let a' := a + a / 128
  (rne ((a' * l + (256 - a') * b : Nat) : Int) 8).toNat

/-- The components of a colour: B in [9:0], G in [19:10], R in [29:20]. -/
def blend (a l b : Nat) : Nat :=
  blend1 a (nbits l 9 0) (nbits b 9 0) + 2 ^ 10 * blend1 a (nbits l 19 10) (nbits b 19 10)
    + 2 ^ 20 * blend1 a (nbits l 29 20) (nbits b 29 20)

/-- Colour and pixel alpha of source pixel `k` of a layer's line. -/
def Layer.colour (l : Layer) (ct : SMap Nat) (bs : List Byte) (k : Nat) : Nat × Nat :=
  let v := imgNat bs (l.bytes * k) l.bytes
  let sh := nbits l.ctrl 12 10
  match l.n with
  | 0 => (SMap.get noColour ct (min (v / 2 ^ sh) 1023), 255)
  | 1 =>
    let dB := signed 16 v - signed 16 (nbits l.ctrl 28 13)
    (SMap.get noColour ct (min (max (dB / 2 ^ sh) 0).toNat 1023), 255)
  | _ => (c10 (nbits v 7 0) + 2 ^ 10 * c10 (nbits v 15 8) + 2 ^ 20 * c10 (nbits v 23 16), nbits v 31 24)

/-- The effective alpha of a pixel. -/
def Layer.alpha (l : Layer) (pa : Nat) : Nat :=
  if l.opaque_ then 255 else (rne ((pa * (l.la + l.la / 128) : Nat) : Int) 8).toNat

/-- A component at 8 bits. -/
def to8 (c : Nat) : Nat := min (rne (c : Int) 2).toNat 255

/-- A composed colour as it is sent: B lowest. -/
def outColour (ten : Bool) (c : Nat) : Nat :=
  if ten then c else to8 (nbits c 9 0) + 2 ^ 8 * to8 (nbits c 19 10) + 2 ^ 16 * to8 (nbits c 29 20)

/-- A layer with the span and the data of its line. -/
structure LineData where
  l : Layer
  x : Nat
  stop : Nat
  data : List Byte

/-- Pixel `x` of a line from the background and the layers with data, lowest first. -/
def pixelOf (bg : Nat) (ct : SMap Nat) (ls : List LineData) (x : Nat) : Nat :=
  ls.foldl (fun b e =>
    if e.x ≤ x ∧ x < e.stop then
      let (c, pa) := e.l.colour ct e.data (x - e.x)
      blend (e.l.alpha pa) c b
    else b) bg

/-- The data of the layers that have it on line `v`. -/
def State.lineData (s : State) (d : Fin 2) (v : Nat) : List LineData :=
  (List.range 4).filterMap (fun n =>
    let l := s.layer d n
    match l.span (s.dispWidth d) v, s.disp[d].line n v with
    | some (x, e), some bs => some ⟨l, x, e, bs⟩
    | _, _ => none)

/-! ### A line (R375, R377) -/

/-- The overlay cannot be fetched: HOLD, or no VBLANK_START since relock. -/
def State.overlayHeld (s : State) (d : Fin 2) : Bool := !s.coreRuns || s.disp[d].overlayOff

/-- The layers that underrun on line `v`, with the pixel at which each does. -/
def State.underruns (s : State) (d : Fin 2) (v : Nat) : List (Nat × Nat) :=
  (List.range 4).filterMap (fun n =>
    match (s.layer d n).span (s.dispWidth d) v with
    | some (x, _) =>
      if s.hidden d n v || (s.disp[d].line n v).isSome || (decide (n = 2) && s.overlayHeld d) then none else some (n, x)
    | none => none)

/-- The active line `v` is composed. -/
def composeLine (d : Fin 2) (v : Nat) (s : State) : State :=
  let b : Blk := .display d.val
  let w := s.dispWidth d
  let bg := s.rd b R.DISP_BG.colour
  let ten := s.flag b R.DISP_LINK.bpc10
  let under := s.underruns d v
  let black := under.foldl (fun m e => min m e.2) w
  let ls := s.lineData d v
  let ct := s.disp[d].ct
  let px := (List.range w).map (fun x => if x < black then outColour ten (pixelOf bg ct ls x) else 0)
  let hold := s.overlayHeld d && s.fetched d 2 v && (s.disp[d].line 2 v).isNone
  let supp := s.disp[d].suppressed + ((List.range 4).filter (fun n => s.hidden d n v)).length
  let x := s.disp[d]
  let s := s.setDisp d { x with
    pixels := px
    suppressed := supp % 1024
    late := x.late ++ under.map (fun e => (e.1, v))
    ferry := x.ferry.filter (fun e => e.2.1 ≠ v) }
  let s := s.cnt b R.DISP_COUNTS.fetches_suppressed (supp / 1024)
  let s := s.cnt b R.DISP_HOLD.overlay_hold_lines (bit hold)
  let s := if under = [] then s else
    let s := s.each under (fun e st => st.cnt b (R.LAYER_FERRY.discards e.1) 1)
    dispEvent d 3 (s.cnt b R.DISP_COUNTS.underrun_lines 1)
  s.each (List.range 4) (showFerry d)

/-- The output of the current line: composed if active, else blank; the next line becomes current. -/
def opDisplayLine (d : Fin 2) (s : State) : State :=
  if !s.dispActive d then s else
  let b : Blk := .display d.val
  let v := s.rd b R.DISP_STATUS.line
  let s := if v < s.dispHeight d then composeLine d v s else s.setDisp d { s.disp[d] with pixels := [] }
  let last := decide (s.dispLines d ≤ v + 1)
  let s := s.setDisp d { s.disp[d] with raised := if last then 0 else Nat.land s.disp[d].raised 4 }
  s.wr b R.DISP_STATUS.line (if last then 0 else v + 1)

/-- Output line `v` may be in the ferries: within 8 lines of the current one, the next frame's only in the blanking. -/
def State.lineDue (s : State) (d : Fin 2) (v : Nat) : Bool :=
  let cur := s.rd (.display d.val) R.DISP_STATUS.line
  let h := s.dispHeight d
  if cur < h then decide (cur ≤ v) && decide (v < min (cur + 8) h) else decide (v < min 8 h)

/-- The data of output line `v` of layer `n` arrives; the data of a late line is discarded. -/
def opLineFetch (d : Fin 2) (n : Fin 4) (v : Nat) (s : State) : State :=
  let x := s.disp[d]
  if x.late.contains (n.val, v) then s.setDisp d { x with late := x.late.filter (fun e => e ≠ (n.val, v)) }
  else if !s.dispActive d || !s.fetched d n.val v || !s.lineDue d v || (x.line n.val v).isSome
      || decide (8 ≤ (x.ferry.filter (fun e => e.1 = n.val)).length) then s
  else match s.layerBytes d (s.layer d n.val) v with
  | some bs => showFerry d n.val (s.setDisp d { x with ferry := x.ferry ++ [(n.val, v, bs)] })
  | none => layerErrors d (s.layer d n.val) v s

/-! ### Frame events (R372, R376) -/

/-- The staged layers become active. -/
def applyLayers (d : Fin 2) (s : State) : State :=
  let b : Blk := .display d.val
  let s := s.each (List.range 4) (fun n st =>
    (st.wrw b (0x118 + 0x40 * n) (st.rdw b (0x100 + 0x40 * n))).wrw b (0x120 + 0x40 * n) (st.rdw b (0x108 + 0x40 * n)))
  let c := (List.range 4).map (fun n => s.rdw b (0x110 + 0x40 * n))
  s.setDisp d { s.disp[d] with ctrl := c }

/-- Event `k` comes once in its line or frame. -/
def State.hadEvent (s : State) (d : Fin 2) (k : Nat) : Bool := nbit s.disp[d].raised k

/-- Event `k` is raised and noted. -/
def raiseEvent (d : Fin 2) (k bit : Nat) (s : State) : State :=
  dispEvent d k (s.setDisp d { s.disp[d] with raised := Nat.lor s.disp[d].raised (2 ^ bit) })

/-- The first pixel after the last active one: commits and colour tables that wait take effect, the newest spectrogram row is sampled. What
the ferries hold of the next frame was fetched with the layers before and is fetched again (DESIGN CHOICE, log 36). -/
def opVblankStart (d : Fin 2) (s : State) : State :=
  if !s.dispActive d || decide (s.rd (.display d.val) R.DISP_STATUS.line ≠ s.dispHeight d) || s.hadEvent d 0 then s else
  let b : Blk := .display d.val
  let s := if s.flag b R.DISP_CTRL.commit then
      let s := (applyLayers d s).wr b R.DISP_CTRL.commit 0
      if s.rd b R.DISP_CTRL.last_cmd = 1 then s.wr b R.DISP_CTRL.last_status 0 else s
    else s
  let x := s.disp[d]
  let sl := nbits (x.ctrl.getD 1 0) 33 29
  let head := if sl < 17 then s.rd (.records sl) R.SGRAM_HEAD.interval else 0
  let s := s.setDisp d { x with
    ct := x.ctNext.getD x.ct
    ctNext := none
    head := head
    ferry := []
    overlayOff := x.overlayOff && !s.coreRuns }
  raiseEvent d 0 0 (s.each (List.range 4) (showFerry d))

/-- The first pixel of line line_match. -/
def opLineMatch (d : Fin 2) (s : State) : State :=
  if s.dispActive d ∧ s.hadEvent d 1 = false ∧ s.rd (.display d.val) R.DISP_STATUS.line = s.rd (.display d.val) R.DISP_IRQ.line_match
  then raiseEvent d 1 1 s else s

/-- The last active pixel of a frame leaves the pins. -/
def opFrameDone (d : Fin 2) (s : State) : State :=
  if !s.dispActive d || decide (s.rd (.display d.val) R.DISP_STATUS.line < s.dispHeight d) || s.hadEvent d 2 then s
  else raiseEvent d 2 2 (s.wr (.display d.val) R.DISP_STATUS.frames (s.rd (.display d.val) R.DISP_STATUS.frames + 1))

/-! ### The link (R371) -/

/-- HPD low for 2 ms: an unplug. -/
def opHpdUnplug (d : Fin 2) (s : State) : State :=
  let b : Blk := .display d.val
  let s := (s.wr b R.DISP_STATUS.hpd 0).cnt b R.DISP_COUNTS.hpd_events 1
  let s := if s.enabled b then s.wr b R.DISP_STATUS.state 3 else s
  dispEvent d 4 s

/-- A shorter HPD pulse. -/
def opIrqHpd (d : Fin 2) (s : State) : State :=
  let b : Blk := .display d.val
  dispEvent d 4 ((s.wr b R.DISP_STATUS.hpd 1).cnt b R.DISP_COUNTS.hpd_events 1)

/-- Link training ends; a sink that answers holds HPD high (DEDUCED, log 36). -/
def opLinkTraining (d : Fin 2) (ok : Bool) (s : State) : State :=
  let b : Blk := .display d.val
  if s.rd b R.DISP_STATUS.state ≠ 1 then s
  else if ok then ((s.wr b R.DISP_STATUS.state 2).wr b R.DISP_STATUS.line 0).wr b R.DISP_STATUS.hpd 1
  else (s.wr b R.DISP_STATUS.state 3).fault b R.DISP_EVENTS.link_fail

/-! ### DISP_CTRL and DISP_AUX -/

/-- DISP_CTRL.commit. -/
def dispCommit (d : Fin 2) (s : State) : State :=
  let b : Blk := .display d.val
  ((s.wr b R.DISP_CTRL.commit 1).wr b R.DISP_CTRL.last_cmd 1).wr b R.DISP_CTRL.last_status 1

/-- DISP_CTRL.commit is written 1. -/
def opDispCommit (d : Fin 2) (s : State) : State := dispCommit d s

/-- DISP_CTRL.ct_load; a copy asked for while layer 0 or 1 is enabled waits for VBLANK_START. -/
def ctLoad (d : Fin 2) (s : State) : State :=
  let b : Blk := .display d.val
  if s.flag b R.DISP_CTRL.ct_load then s else
  let x := s.disp[d]
  let on := (s.layer d 0).on || (s.layer d 1).on
  let s := s.setDisp d { x with ctWait := on }
  ((s.wr b R.DISP_CTRL.ct_load 1).wr b R.DISP_CTRL.last_cmd 2).wr b R.DISP_CTRL.last_status 1

/-- DISP_CTRL.ct_load is written 1. -/
def opCtLoad (d : Fin 2) (s : State) : State := ctLoad d s

/-- The 1,024 entries of the colour table at DISP_CT. -/
def State.ctBytes (s : State) (d : Fin 2) : SMap Nat :=
  let a := s.rd (.display d.val) R.DISP_CT.addr / 64 * 64
  let bs := s.dramRead a 4096
  ((List.range 1024).map (fun k => (k, imgNat bs (4 * k) 4 % 2 ^ 30))).filter (fun p => p.2 ≠ 0)

/-- The copy of the colour table ends. One whose source lies beyond the device space or holds an uncorrectable error changes no table
(DESIGN CHOICE, log 36). -/
def opCtLoadDone (d : Fin 2) (s : State) : State :=
  let b : Blk := .display d.val
  let a := s.rd b R.DISP_CT.addr / 64 * 64
  if !s.flag b R.DISP_CTRL.ct_load || (s.dramIn a 4096 && !s.dramOpen a 4096) then s else
  let t := s.ctBytes d
  let x := s.disp[d]
  let s := if !s.dramIn a 4096 then s
    else if (s.firstBadLine a 4096).isSome then checkLines a 4096 s
    else if x.ctWait then s.setDisp d { x with ctNext := some t } else s.setDisp d { x with ct := t, ctNext := none }
  let s := s.wr b R.DISP_CTRL.ct_load 0
  if s.rd b R.DISP_CTRL.last_cmd = 2 then s.wr b R.DISP_CTRL.last_status 0 else s

/-- DISP_AUX.go: a transaction starts. -/
def auxGo (d : Fin 2) (s : State) : State :=
  let b : Blk := .display d.val
  (s.wr b R.DISP_AUX.go 1).wr b R.DISP_AUX.last_status 1

/-- DISP_AUX.go is written 1. -/
def opAuxGo (d : Fin 2) (s : State) : State := auxGo d s

/-- A transaction ends: ACK, NACK or time-out, with the bytes a read brought. -/
def opAuxComplete (d : Fin 2) (r : AuxResult) (data : List Byte) (s : State) : State :=
  let b : Blk := .display d.val
  if !s.flag b R.DISP_AUX.go then s else
  let s := (s.wr b R.DISP_AUX.go 0).wr b R.DISP_AUX.last_status (match r with | .ack => 0 | .nack => 2 | .timeout => 3)
  let n := s.rd b R.DISP_AUX.len_m1 + 1
  let read := decide (s.rd b R.DISP_AUX.type = 1) || decide (s.rd b R.DISP_AUX.type = 3)
  if read && decide (r = .ack) then
    let old := leBytes 8 (s.rd b (R.DISP_AUX_DATA.data 0)) ++ leBytes 8 (s.rd b (R.DISP_AUX_DATA.data 1))
    let new := (List.range 16).map (fun i => if i < n then data.getD i (old.getD i 0) else old.getD i 0)
    (s.wr b (R.DISP_AUX_DATA.data 0) (imgNat new 0 8)).wr b (R.DISP_AUX_DATA.data 1) (imgNat new 8 8)
  else s

/-! ### The commands -/

/-- VBLANK_START (R372): The first pixel after the last active pixel applies staged layer commits and colour-table loads. -/
def execVblankStart (d : Fin 2) (s : State) : Host.Outcome State Fault Refusal :=
  .next (opVblankStart d s)
/-- LINE_MATCH (R372): The first pixel of line line_match raises its event. -/
def execLineMatch (d : Fin 2) (s : State) : Host.Outcome State Fault Refusal :=
  .next (opLineMatch d s)
/-- FRAME_DONE (R372): The last active pixel leaves the pins. -/
def execFrameDone (d : Fin 2) (s : State) : Host.Outcome State Fault Refusal :=
  .next (opFrameDone d s)
/-- DISPLAY_LINE (R375): An output line is composed from its layers, or goes black on underrun. -/
def execDisplayLine (d : Fin 2) (s : State) : Host.Outcome State Fault Refusal :=
  .next (opDisplayLine d s)
/-- LINE_FETCH (R375): A layer's line data arrives in its line ferry, or is discarded if late. -/
def execLineFetch (d : Fin 2) (n : Fin 4) (v : Nat) (s : State) : Host.Outcome State Fault Refusal :=
  .next (opLineFetch d n v s)
/-- HPD_UNPLUG (R371): HPD stays low for 2 ms and the output enters LINK_FAIL. -/
def execHpdUnplug (d : Fin 2) (s : State) : Host.Outcome State Fault Refusal :=
  .next (opHpdUnplug d s)
/-- IRQ_HPD (R371): An HPD pulse shorter than 2 ms sets hpd_event. -/
def execIrqHpd (d : Fin 2) (s : State) : Host.Outcome State Fault Refusal :=
  .next (opIrqHpd d s)
/-- LINK_TRAINING (R371): DisplayPort link training at enable ends in active or LINK_FAIL. -/
def execLinkTraining (d : Fin 2) (ok : Bool) (s : State) : Host.Outcome State Fault Refusal :=
  .next (opLinkTraining d ok s)
/-- DISP_COMMIT (R376): DISP_CTRL.commit stages layer changes for the next VBLANK_START. -/
def execDispCommit (d : Fin 2) (s : State) : Host.Outcome State Fault Refusal :=
  .next (onWrite (opDispCommit d) s)
/-- CT_LOAD (R373): DISP_CTRL.ct_load copies the colour table from DRAM. -/
def execCtLoad (d : Fin 2) (s : State) : Host.Outcome State Fault Refusal :=
  .next (onWrite (opCtLoad d) s)
/-- CT_LOAD_DONE (R373): The colour-table copy completes. -/
def execCtLoadDone (d : Fin 2) (s : State) : Host.Outcome State Fault Refusal :=
  .next (opCtLoadDone d s)
/-- AUX_GO (R371): DISP_AUX.go starts an AUX transaction. -/
def execAuxGo (d : Fin 2) (s : State) : Host.Outcome State Fault Refusal :=
  .next (onWrite (opAuxGo d) s)
/-- AUX_COMPLETE (R371): An AUX transaction ends with ACK, NACK or time-out. -/
def execAuxComplete (d : Fin 2) (r : AuxResult) (data : List Byte) (s : State) : Host.Outcome State Fault Refusal :=
  .next (opAuxComplete d r data s)

end Sys2Proof.Machine
end

