-- ==== Sys2Proof/Machine/Clocks.lean ====
section
/-!
DEFINITION. Sys2Proof/Machine/Clocks.lean: the loops, the changes of the CORE clock, HOLD and its end (R15 to R17, R378 to R384), and
THERMTRIP_N (R424).
-/
namespace Sys2Proof.Machine
open Sys2Proof

/-! ### Ramps and relocks of PLL_CORE (R381 to R384) -/

/-- The segments of the profile in CLK_RAMP. -/
def State.rampSegs (s : State) : List RampSeg :=
  (List.range (s.rd .clocks R.CLK_RAMP_CTRL.segments_m1 + 1)).map (fun i =>
    ⟨s.rd .clocks (R.CLK_RAMP.target i), max 1 (s.rd .clocks (R.CLK_RAMP.duration i))⟩)

/-- Target `f` lies in the band in use (250 kHz units): H is 1.05 to 1.50 GHz, L is 0.75 to 1.10 GHz. -/
def State.inBand (s : State) (f : Nat) : Bool :=
  if s.flag .clocks R.CLK_STATUS.core_band then decide (4200 ≤ f) && decide (f ≤ 6000) else decide (3000 ≤ f) && decide (f ≤ 4400)

/-- Every segment changes by at most 5 MHz a microsecond, from frequency `f` on. -/
def gentle : Nat → List RampSeg → Bool
  | _, [] => true
  | f, g :: gs => decide (((g.target : Int) - (f : Int)).natAbs ≤ 20 * g.micros) && gentle g.target gs

/-- Why go is refused: the refuse_cause code, 0 for none. -/
def State.rampRefusal (s : State) : Nat :=
  let gs := s.rampSegs
  let away := gs.any (fun g => !s.inBand g.target)
  if s.flag .clocks R.CLK_RAMP_CTRL.go || decide (s.rd .clocks R.CLK_STATUS.ramp_state ≠ 0) || !s.coreRuns
      || !s.enabled .clocks || !(decide (s.dev = .ready) || decide (s.dev = .run)) then 3
  else if !s.enabled .placement then 5
  else if gs.any (fun g => decide (g.target < 3000) || decide (6000 < g.target)) then 4
  else if away && decide (1 < gs.length) then 1
  else if away then (if s.dev = .run then 2 else 0)
  else if gentle (s.rd .clocks R.CLK_CORE.freq) gs then 0 else 2

/-- CLK_RAMP_CTRL.go. -/
def rampGo (s : State) : State :=
  let b : Blk := .clocks
  let why := s.rampRefusal
  let s := s.wr b R.CLK_RAMP_CTRL.last_cmd 1
  if why ≠ 0 then (s.wr b R.CLK_RAMP_CTRL.last_status 2).wr b R.CLK_RAMP_CTRL.refuse_cause why
  else
    let gs := s.rampSegs
    let f := s.rd b R.CLK_CORE.freq
    let low := gs.foldl (fun m g => min m g.target) f
    let t := (gs.getLastD ⟨f, 1⟩).target
    let relock := if s.inBand t then none else some t
    let s := ((s.wr b R.CLK_RAMP_CTRL.go 1).wr b R.CLK_RAMP_CTRL.last_status 1).wr b R.CLK_RAMP_CTRL.refuse_cause 0
    let s := s.wr b R.CLK_STATUS.ramp_state 1
    placeCause 7 low { s with clk := { s.clk with
      ramp := if relock = none then gs else []
      from_ := f
      relock := relock } }

/-- CLK_RAMP_CTRL.go is written 1. -/
def opRampGo (s : State) : State := rampGo s

/-- CLK_RAMP_CTRL.abort. -/
def rampAbort (s : State) : State := (abortRamp (s.wr .clocks R.CLK_RAMP_CTRL.last_cmd 2)).wr .clocks R.CLK_RAMP_CTRL.last_status 0

/-- CLK_RAMP_CTRL.abort is written 1. -/
def opRampAbort (s : State) : State := rampAbort s

/-- A segment of the running ramp ends, its duration over. -/
def opRampSegmentEnd (s : State) : State :=
  let b : Blk := .clocks
  if s.rd b R.CLK_STATUS.ramp_state ≠ 2 then s
  else match s.clk.ramp with
  | [] => s
  | g :: gs =>
    if s.tim.raw < s.clk.segAt + max 1 g.micros * usUnits then s else
    let s := { s with clk := { s.clk with
      ramp := gs
      from_ := g.target
      segAt := s.clk.segAt + max 1 g.micros * usUnits } }
    match gs with
    | h :: _ => setFreq h.target (s.wr b R.CLK_STATUS.ramp_segment (s.rd b R.CLK_STATUS.ramp_segment + 1))
    | [] => placeCause 7 g.target (setFreq g.target (s.wr b R.CLK_STATUS.ramp_state 1))

/-! ### HOLD (R15 to R17) -/

/-- PLL_CORE is lost in READY or RUN: HOLD begins. -/
def enterHold (s : State) : State :=
  let s := s.wr .global R.DEVICE_STATE.hold_from_run (bit (s.dev = .run))
  let s := tkoAbandon 5 s
  let s := s.each (List.finRange 17) (fun i st => chanHold i (synHold i st))
  let s := holdOuts (recsHold s)
  { s with
    dev := .hold
    disp := s.disp.map (fun x => { x with overlayOff := true }) }

/-- Slice `i` resumes at its next caravan boundary; what HOLD cut off is a gap of reason 3. -/
def resumeSlice (i : Fin 17) (s : State) : State :=
  let k := s.chains[i]
  let m := k.pos
  let cv := max 1 (s.caravan i)
  match s.streamOf i with
  | none => s
  | some c =>
    if !(s.enabled (.filt i) && s.leads i && k.any) || decide (m % cv = 0) then s
    else
      let a := m / cv * cv
      let s := gapStart i (s.outTime i c a) s
      let s := addGap i a (m - a) 3 (s.outTime i c a) s
      let s := s.setRecs i { s.recs[i] with car := [] }
      s.setChain i { s.chains[i] with skipTo := a + cv, lossReason := 3 }

/-- PLL_CORE is locked again: the device leaves HOLD. -/
def leaveHold (s : State) : State :=
  let run := s.flag .global R.DEVICE_STATE.hold_from_run
  let s := s.wr .global R.DEVICE_STATE.hold_from_run 0
  let s := drainHostIn { s with dev := if run then .run else .ready }
  let s := s.each (List.finRange 17) (fun i st => synResume i (tapEnd i (resumeSlice i st)))
  let s := refreshOuts (drainTbusIn s)
  s.each (List.range 17) (fun i st => st.coreInt i 11)

/-! ### Loss of lock and lock (R17, R379) -/

/-- What the TXGs on PLL `p` show: those of quadrant q for PLL_TX[q] (R77). -/
def showTxLoop (p : Nat) (s : State) : State :=
  if 4 ≤ p ∧ p < 8 then s.each (List.range 4) (fun j => showTx (Fin.ofNat 16 (4 * (p - 4) + j))) else s

/-- The output of PLL `p` is gated: it delivers no edge. -/
def gatePll (p : Nat) (s : State) : State :=
  let b : Blk := .clocks
  let m := s.rd b R.CLK_STATUS.locked
  let s := s.wr b R.CLK_STATUS.locked (if nbit m p then m - 2 ^ p else m)
  showTxLoop p (seekLock p (s.wr b R.CLK_STATUS.gated (Nat.lor (s.rd b R.CLK_STATUS.gated) (2 ^ p))))

/-- A ramp under way when PLL_CORE is lost is given up; the loop relocks at its last target (R384). -/
def abandonRamp (s : State) : State :=
  let b : Blk := .clocks
  let st := s.rd b R.CLK_STATUS.ramp_state
  if st ≠ 1 ∧ st ≠ 2 then s
  else
    let f := match s.clk.relock, s.clk.ramp.getLast? with
      | some f, _ => f
      | none, some g => g.target
      | none, none => s.rd b R.CLK_CORE.freq
    let s := (s.wr b R.CLK_STATUS.ramp_state 0).wr b R.CLK_STATUS.ramp_segment 0
    let s := if s.flag b R.CLK_RAMP_CTRL.go then (s.wr b R.CLK_RAMP_CTRL.go 0).wr b R.CLK_RAMP_CTRL.last_status 0 else s
    { s with clk := { s.clk with
      ramp := []
      relock := some f } }

/-- PLL_TIME is lost: the shadow counter takes over, time and trigger pins are not driven, and the transmit loops lose their reference. -/
def timeLoss (s : State) : State :=
  let s := endEpochPulse (timeGate s)
  let s := { s with pins := { s.pins with
    trigOut := Vector.replicate 4 false
    tbusDrive := 0
    tbusNak := 0
    tbusSync := false } }
  s.each [4, 5, 6, 7] gatePll

/-- PLL `p` loses lock. -/
def opLossOfLock (p : Fin 10) (s : State) : State :=
  if !s.pllRuns p.val then s else
  let s := (gatePll p.val s).cnt .clocks (R.CLK_LOSSES.losses p.val) 1
  noteClocks (match p.val with
    | 0 => if s.dev = .ready ∨ s.dev = .run then enterHold (abandonRamp s) else s
    | 1 => memLoss s
    | 2 => endpointReset s
    | 3 => timeLoss s
    | _ => s)

/-- The reference of PLL `p` is there: the transmit loops run from TIME. -/
def State.pllRef (s : State) (p : Nat) : Bool := if 4 ≤ p ∧ p < 8 then s.pllRuns 3 else true

/-- The loops a device state keeps running (R392). -/
def State.pllKept (s : State) (p : Nat) : Bool :=
  decide (s.dev ≠ .off) && (decide (s.dev ≠ .standby) || decide (p = 2) || decide (p = 3) || s.boot.waking)

/-- The CORE loop delivers its clock at frequency `f`. -/
def setCoreFreq (f : Nat) (s : State) : State :=
  let b : Blk := .clocks
  let h := if s.inBand f then s.rd b R.CLK_STATUS.core_band else bit (4400 < f)
  { (setFreq f s).wr b R.CLK_STATUS.core_band h with clk := { s.clk with relock := none } }

/-- PLL_CORE is locked: a relock of R382 goes on to its second action, a HOLD ends. -/
def coreLock (s : State) : State :=
  let b : Blk := .clocks
  let s := match s.clk.relock with
    | some f =>
      let s := setCoreFreq f s
      if s.rd b R.CLK_STATUS.ramp_state = 3 then placeCause 7 f (s.wr b R.CLK_STATUS.ramp_state 1)
      else if s.dev = .hold then showPlacement (actOn ⟨7, f⟩ s)
      else s
    | none => s
  if s.dev = .hold then leaveHold s else s

/-- PLL `p` declares lock after 8 windows that agree, and its output is ungated. -/
def opLockDeclared (p : Fin 10) (s : State) : State :=
  if s.pllRuns p.val || !s.pllRef p.val || !s.pllKept p.val || !s.mayLock p.val then s else
  let b : Blk := .clocks
  let g := s.rd b R.CLK_STATUS.gated
  let again := nbit g p.val
  let s := s.wr b R.CLK_STATUS.locked (Nat.lor (s.rd b R.CLK_STATUS.locked) (2 ^ p.val))
  let s := s.wr b R.CLK_STATUS.gated (if again then g - 2 ^ p.val else g)
  let s := s.cnt b (R.CLK_LOSSES.relocks p.val) (bit again)
  noteClocks (match p.val with
    | 0 => coreLock s
    | 1 => memRelock s
    | 3 => (refreshOuts (musterWake (timeLock s))).each [4, 5, 6, 7] seekLock
    | _ => showTxLoop p.val s)

/-! ### THERMTRIP_N (R424) -/

/-- A die sensor exceeds 125 °C. -/
def opThermtrip (s : State) : State := { s with pins.thermtrip := true }

/-! ### The commands -/

/-- LOSS_OF_LOCK (R17): A PLL loses lock and its output is gated, with the effects of R17 for that loop; for PLL_CORE this is entry into HOLD. -/
def execLossOfLock (p : Fin 10) (s : State) : Host.Outcome State Fault Refusal :=
  .next (opLossOfLock p s)
/-- LOCK_DECLARED (R379): A PLL's counts agree for 8 windows, lock is declared and its output ungated; for PLL_CORE the device leaves HOLD. -/
def execLockDeclared (p : Fin 10) (s : State) : Host.Outcome State Fault Refusal :=
  .next (opLockDeclared p s)
/-- RAMP_GO (R381): CLK_RAMP_CTRL.go starts a PLL_CORE ramp profile after placement, or is refused. -/
def execRampGo (s : State) : Host.Outcome State Fault Refusal :=
  .next (onWrite opRampGo s)
/-- RAMP_ABORT (R384): CLK_RAMP_CTRL.abort stops a ramp at its current frequency. -/
def execRampAbort (s : State) : Host.Outcome State Fault Refusal :=
  .next (onWrite opRampAbort s)
/-- RAMP_SEGMENT_END (R383): A ramp segment ends, and after the last segment placement acts at the final frequency. -/
def execRampSegmentEnd (s : State) : Host.Outcome State Fault Refusal :=
  .next (opRampSegmentEnd s)
/-- THERMTRIP (R424): A die sensor exceeds 125 °C and THERMTRIP_N goes low. -/
def execThermtrip (s : State) : Host.Outcome State Fault Refusal :=
  .next (opThermtrip s)

end Sys2Proof.Machine
end

