-- ==== Sys2Proof/Machine/Lifecycle.lean ====
section
/-!
DEFINITION. Sys2Proof/Machine/Lifecycle.lean: power, reset, boot, READY and RUN, STANDBY and wake (R15, R16, R45, R385 to R392), and
the enable, quiesce and wedge of blocks (R22 to R24, R32).
-/
namespace Sys2Proof.Machine
open Sys2Proof

/-! ### Enable and quiesce as commands (R22, R32) -/

/-- The index of a block lies in its range. -/
def Blk.real (b : Blk) : Bool := decide (slotBlk b.slot = some b)

/-- Writes to the registers of block `b` take effect in the present device state (R16). -/
def State.reaches (s : State) (b : Blk) : Bool :=
  b.real && (match s.dev with
    | .off | .boot => false
    | _ => true)

/-- BLOCK_CTRL.enable is written 1. -/
def opEnable (b : Blk) (s : State) : State := if s.reaches b then enableBlk b s else s

/-- BLOCK_CTRL.enable is written 0. -/
def opQuiesce (b : Blk) (s : State) : State := if s.reaches b then requestQuiesce b s else s

/-- A quiescing block acknowledges. -/
def opQuiesceAck (b : Blk) (s : State) : State :=
  if b.real && s.canAck b then showPlacement (settleJobs (blkDisable b s)) else s

/-- 50 µs after a quiesce of the QUEUE block, granted records that are not sealed are abandoned (R203). -/
def opQuiesceSealDeadline (s : State) : State :=
  match s.quiescedAt .queue with
  | none => s
  | some t =>
    if !s.coreRuns || decide (s.tim.raw < t + 50 * usUnits) then s else
    let rs := s.queue.recs.filter (fun r => decide (r.phase = .granted) && decide (r.count = 0))
    showStaging (s.each rs (fun r st => match st.recOf r.q r.seq with
      | some x => abandon x 7 st
      | none => st))

/-! ### A wedge (R23) -/

/-- Block `b` shows that it is wedged. -/
def markWedged (b : Blk) (s : State) : State := s.wr b R.BLOCK_STATUS.wedged 1

/-- A fatal event: the fatal vector, and a muster if that is enabled. -/
def fatalEvent (s : State) : State := musterFatal (s.msix (s.rd .global R.FATAL_VECTOR.vector))

/-- A bit of DEVICE_STATE. -/
def setWedged (f : Fld) (k : Nat) (s : State) : State := s.wr .global f (Nat.lor (s.rd .global f) (2 ^ k))

/-- Slice `i` is wedged: it is retired, what it had in flight is dropped, and its work goes to a stand-in. -/
def wedgeSlice (i : Nat) (s : State) : State :=
  let n : Fin 17 := Fin.ofNat 17 i
  let s := setWedged R.DEVICE_STATE.slice_wedged i s
  let s := { s with queue := { s.queue with recs := s.queue.recs.filter (fun r => r.prod ≠ i) } }
  let s := s.setRecs n RecSt.zero
  let s := s.setChan n { s.chans[n] with recs := [] }
  let s := showStaging (killSlice i s)
  let s := { s with queue := { s.queue with recs := s.queue.recs.filter (fun r => r.prod ≠ i) } }
  let s := s.each (sliceSlots i) markWedged
  let s := stopGather i (setRole i 2 s)
  let s := if s.tko.pairs.any (fun x => x.2 = i) then tkoAbandon 4 s
    else if s.tko.pairs.any (fun x => x.1 = i) then tkoAbandon 3 s
    else s
  let s := endShadow i s
  if s.coreRuns then showPlacement (settleJobs (actOn ⟨3, i⟩ s)) else placeCause 3 i s

/-- A DRAM channel or lane group is isolated, and the placement engine re-places around it. -/
def isolate (b : Blk) (cause arg : Nat) (s : State) : State :=
  placeCause cause arg ((markWedged b (s.wr b R.BLOCK_STATUS.enabled 0)).wr b R.BLOCK_STATUS.quiescing 0)

/-- A block that has not acknowledged its quiesce is wedged. -/
def wedgeBlk (b : Blk) (s : State) : State :=
  match b with
  | .core i | .filt i | .trig i | .records i => wedgeSlice i s
  | .dram c => isolate b 4 c (setWedged R.DEVICE_STATE.dram_wedged c s)
  | .rxg g => isolate b 6 g (setWedged R.DEVICE_STATE.rxg_wedged g s)
  | .txg g => isolate b 6 g (setWedged R.DEVICE_STATE.txg_wedged g s)
  | .depot => markWedged b (setWedged R.DEVICE_STATE.shared_wedged 2 s)
  | .queue => markWedged b (setWedged R.DEVICE_STATE.shared_wedged 3 s)
  | .dma | .dmaRings _ => markWedged b (setWedged R.DEVICE_STATE.shared_wedged 4 s)
  | .timebase => markWedged b (setWedged R.DEVICE_STATE.shared_wedged 6 s)
  | .check => markWedged b (setWedged R.DEVICE_STATE.shared_wedged 7 s)
  | .display d => markWedged b (setWedged R.DEVICE_STATE.shared_wedged (8 + d) s)
  | .placement | .tdc | .trigbus | .clocks | .housekeeping => markWedged b s
  | .global | .muster | .observe | .auth | .chan => s

/-- A unit is wedged: a quiescing block after 100 µs of running clock; a crossbar or the endpoint by the device's own finding. -/
def opWedged (u : DevUnit) (s : State) : State :=
  match u with
  | .blk b =>
    if b.real && s.flag b R.BLOCK_STATUS.quiescing && !s.flag b R.BLOCK_STATUS.wedged && s.domRuns b.dom
        && (s.quiescedAt b).all (fun t => decide (t + 100 * usUnits ≤ s.tim.raw)) then
      fatalEvent (wedgeBlk b s)
    else s
  | .sampleCrossbar => if s.coreRuns then fatalEvent (setWedged R.DEVICE_STATE.shared_wedged 0 s) else s
  | .outputCrossbar => if s.coreRuns then fatalEvent (setWedged R.DEVICE_STATE.shared_wedged 1 s) else s
  | .endpoint => if s.dev = .off then s else setWedged R.DEVICE_STATE.shared_wedged 5 (fatalEvent s)

/-! ### Full device reset (R24, R385, R391) -/

/-- The contents of DRAM are undefined: every byte the model lists becomes a free value. -/
def dramUndefined (s : State) : State :=
  s.each s.mem.dram (fun p st =>
    let (x, st) := st.free 391
    let m := SMap.set zeroByte st.mem.dram p.1 (BitVec.ofNat 8 x)
    { st with mem := { st.mem with dram := m } })

/-- Everything at its reset value but what R391 keeps; `cause` and `boots` go to CLK_RESET_CAUSE. -/
def resetTo (cause boots straps : Nat) (s : State) : State :=
  let s := match s.sec.op with
    | some o => if o.executing ∧ o.op = 5 then storeImage [] s else s
    | none => s
  let z := State.reset
  let wipes := s.rd .auth R.AUTH_REGION.wipes
  let events := s.rd .auth R.AUTH_TAMPER.events
  let isOpen := s.rd .auth R.AUTH_TAMPER.open_
  let n : State := { z with
    pending := s.pending
    pins := { z.pins with
      supplies := s.pins.supplies
      resetN := s.pins.resetN
      testMode := s.pins.testMode
      gpio := s.pins.gpio
      thermtrip := s.pins.thermtrip }
    sec := { z.sec with
      copy0 := s.sec.copy0
      copy1 := s.sec.copy1
      lc := s.sec.lc
      imageA := s.sec.imageA
      imageB := s.sec.imageB }
    host := { z.host with
      mem := s.host.mem
      sent := s.host.sent }
    mem := { z.mem with dram := s.mem.dram }
    obs := { z.obs with
      jtagIr := s.obs.jtagIr
      jtagDr := s.obs.jtagDr
      boundary := s.obs.boundary }
    draw := s.draw }
  let n := (n.wr .auth R.AUTH_LC.lc_state s.sec.lc.toNat).wr .auth R.AUTH_REGION.wipes wipes
  let n := (n.wr .auth R.AUTH_TAMPER.events events).wr .auth R.AUTH_TAMPER.open_ isOpen
  let n := (n.wr .clocks R.CLK_RESET_CAUSE.cause cause).wr .clocks R.CLK_RESET_CAUSE.boots boots
  dramUndefined (n.wr .global R.STRAPS.straps straps)

/-- A full device reset while the supplies stand. -/
def fullReset (cause : Nat) (s : State) : State :=
  resetTo cause (min 65535 (s.rd .clocks R.CLK_RESET_CAUSE.boots + 1)) (s.rd .global R.STRAPS.straps) s

/-! ### Power and RESET_N (R15, R385, R386) -/

/-- Supplies valid with RESET_N high. -/
def opPowerOn (straps : BitVec 4) (s : State) : State :=
  if s.dev ≠ .off then s
  else
    let s := resetTo 0 0 straps.toNat s
    { s with pins := { s.pins with supplies := true, resetN := true } }

/-- Which of the two supplies is lost is open, and VDD_IO alone holds THERMTRIP_N low (R424). -/
def thermOpen (s : State) : State :=
  let (x, s) := s.free 424
  { s with pins.thermtrip := s.pins.thermtrip && nbit x 0 }

/-- VDD_CORE or VDD_IO is lost. -/
def opSupplyLoss (s : State) : State :=
  let s := thermOpen (resetTo 0 0 0 s)
  { s with
    dev := .off
    pins := { s.pins with supplies := false } }

/-- RESET_N low for 10 cycles of XO_IN. -/
def opResetN (s : State) : State :=
  let s := if s.dev = .off then s else fullReset 1 s
  { s with pins := { s.pins with resetN := false, thermtrip := false } }

/-- In TEST_MODE the outputs are undefined (R424): free levels. -/
def outputsUndefined (s : State) : State :=
  let (x, s) := s.free 424
  { s with pins := { s.pins with
      musterOut := nbit x 0
      epochOut := nbit x 1
      trigOut := Vector.ofFn (fun (j : Fin 4) => nbit x (2 + j.val))
      tbusDrive := BitVec.ofNat 8 (x / 2 ^ 6)
      tbusNak := BitVec.ofNat 8 (x / 2 ^ 14)
      tbusSync := nbit x 22 } }

/-- RESET_N rises with the supplies valid: the straps are sampled; TEST_MODE high leaves the outputs undefined. -/
def opResetRelease (straps : BitVec 4) (testMode : Bool) (s : State) : State :=
  if s.pins.resetN && decide (s.dev ≠ .off) then s
  else
    let s := if s.dev = .off then resetTo 0 0 0 s else s
    let s := s.wr .global R.STRAPS.straps straps.toNat
    let s := { s with pins := { s.pins with supplies := true, resetN := true, testMode := testMode } }
    s.when testMode outputsUndefined

/-! ### Boot (R386 to R390) -/

/-- The boot images as the flash holds them: what the device has written, else what the flash came with. -/
def State.images (s : State) (a b : List Byte) : List Byte × List Byte := (s.sec.imageA.getD a, s.sec.imageB.getD b)

/-- The image to verify next: 0 = A, 1 = B, none when nothing is left to try. -/
def State.nextImage (s : State) (a b : List Byte) : Option (Fin 2) :=
  let only := nbit (s.rd .global R.STRAPS.straps) 2
  let first : Fin 2 := if only || decide (imgNat b 4 4 ≤ imgNat a 4 4) then 0 else 1
  let tried := fun (k : Fin 2) => if k = 0 then s.boot.triedA else s.boot.triedB
  if !tried first then some first
  else if only then none
  else if tried (1 - first) then none else some (1 - first)

/-- What the header of the booted image sets: versions, counter, IDs, the DRAM configuration. -/
def applyHeader (img : List Byte) (s : State) : State :=
  let b : Blk := .clocks
  let s := (s.wr b R.BOOT_STATUS.fw_version (imgNat img 18 2)).wr b R.BOOT_STATUS.ucode_version (imgNat img 20 2)
  let s := s.wr b R.BOOT_COUNTER.counter (imgNat img 4 4)
  let s := { s with boot := { s.boot with
    idsPassed := true
    ucode := imgNat img 20 2
    vendor := imgNat img 12 2
    subVendor := imgNat img 14 2
    subId := imgNat img 16 2 } }
  let s := s.wr (.dram 0) R.DRAM_MAP.n_log2 (imgNat img 28 4)
  let s := s.wr (.dram 0) R.DRAM_MAP.reserve (imgNat img 28 4 / 4)
  s.each (List.range (2 ^ s.rd (.dram 0) R.DRAM_MAP.n_log2)) (fun c st =>
    syncGeom c ((st.wrw (.dram c) R.DRAM_CFG.speed.off (imgNat img 24 4 % 2 ^ 7)).wr (.dram c) R.DRAM_STATUS.state 1))

/-- Check unit 62 has read and verified an image; `a` and `b` are the images in the flash. -/
def opBootImageVerified (a b : List Byte) (sectionsOk : Bool) (s : State) : State :=
  if s.dev ≠ .boot ∨ ¬ s.pins.resetN ∨ s.boot.verified.isSome then s else
  let (ia, ib) := s.images a b
  match s.nextImage ia ib with
  | none => s
  | some k =>
    let img := if k = 0 then ia else ib
    let s := if s.boot.triedA || s.boot.triedB then s
      else (s.wr .clocks R.BOOT_STATUS.a_result 3).wr .clocks R.BOOT_STATUS.b_result 3
    let s := { s with boot := { s.boot with triedA := s.boot.triedA || decide (k = 0), triedB := s.boot.triedB || decide (k = 1) } }
    let r := imageCheck img sectionsOk
    let s := if r = 1 then s else (checkUnit 62 0 img s).1
    let s := s.wr .clocks (if k = 0 then R.BOOT_STATUS.a_result else R.BOOT_STATUS.b_result) r
    if r = 2 then checkFail 62 s
    else if r = 1 then s
    else
      let s := { s with boot := { s.boot with verified := some k } }
      restoreRegion (applyHeader img (s.wr .clocks R.BOOT_STATUS.booted k.val))

/-- Nothing valid is found, or a loop BOOT needs has not locked: the device stays in BOOT. -/
def opBootTimeout (pll : Bool) (s : State) : State :=
  if s.dev ≠ .boot then s
  else if pll then (if s.pllRuns 0 && s.pllRuns 1 && s.pllRuns 3 then s else s.wr .clocks R.BOOT_STATUS.fail 2)
  else if s.boot.verified.isNone ∧ s.boot.triedA ∧ (s.boot.triedB ∨ nbit (s.rd .global R.STRAPS.straps) 2) then
    s.wr .clocks R.BOOT_STATUS.fail 1
  else s

/-- A bank fails the march test of BOOT: a mirror repairs it if one is free (R322, R323). -/
def bootRepair (m : SramId × Nat) (s : State) : State :=
  let s := (s.cnt .depot R.DEPOT_TEST.test_failures 1).fault .depot R.DEPOT_FAULT.test_fail
  match m.1 with
  | .depot => match s.freeMirror with
    | some j =>
      let s := s.wr .depot ⟨R.DEPOT_REPAIR.banks.off, 8 * j, 8⟩ m.2
      let s := s.wr .depot R.DEPOT_REPAIR_VALID.valid (Nat.lor (s.rd .depot R.DEPOT_REPAIR_VALID.valid) (2 ^ j))
      s.wr .depot R.DEPOT_STATUS.mirrors_free (s.rd .depot R.DEPOT_STATUS.mirrors_free - 1)
    | none => s.fault .depot R.DEPOT_FAULT.no_mirror
  | .lmem i =>
    if s.flag .depot (R.LMEM_STATUS.repaired i.val) then s.fault .depot R.DEPOT_FAULT.no_mirror
    else (s.wr .depot (R.LMEM_STATUS.repaired i.val) 1).wr .depot (R.LMEM_STATUS.repaired_bank i.val) m.2
  | .imem _ => s.fault .depot R.DEPOT_FAULT.no_mirror

/-- A DRAM channel is trained in BOOT. -/
def bootTrain (trained : List TrainResult) (c : Fin 8) (s : State) : State :=
  let r := trained.getD c.val ⟨[], 0, 0⟩
  if r.passes then (storeTraining c r s).wr (.dram c.val) R.DRAM_STATUS.state 2
  else (s.wr (.dram c.val) R.DRAM_STATUS.state 4).fault (.dram c.val) R.DRAM_FAULT.train_failed

/-- The largest k with channels 0 to 2^k − 1 in service (R342). -/
def State.activeLog2 (s : State) : Nat :=
  ((List.range (s.rd (.dram 0) R.DRAM_MAP.n_log2 + 1)).reverse.find? (fun k =>
    (List.range (2 ^ k)).all (fun c => decide (s.rd (.dram c) R.DRAM_STATUS.state = 2)))).getD 0

/-- Timing sets of the slices in use are gathered, and the spare waits in MAINTAIN. -/
def gatherAll (sets : List GatherResult) (s : State) : State :=
  let s := s.each (List.range 17) (fun i st => if st.role i = 2 then st else storeSet i (sets.getD i ⟨[], 0, 0⟩) st)
  let s := match s.spare with
    | some i => s.wr (.core i) R.SLICE_MODE.mode 5
    | none => s
  showPlacement (showSlices s)

/-- BOOT ends: SRAM tested and cleared, DRAM trained, microcode loaded, timing sets gathered. -/
def opBootComplete (failed : List (SramId × Nat)) (trained : List TrainResult) (sets : List GatherResult) (s : State) : State :=
  if s.dev ≠ .boot ∨ ¬ s.pins.resetN ∨ s.pins.testMode ∨ s.boot.verified.isNone ∨ ¬ (s.pllRuns 0 && s.pllRuns 1 && s.pllRuns 3)
      ∨ s.rd .clocks R.BOOT_STATUS.fail ≠ 0 then s
  else
    let s := clearSram (s.each failed bootRepair)
    let s := s.each s.populated (bootTrain trained)
    let s := s.wr (.dram 0) R.DRAM_MAP.n_active_log2 s.activeLog2
    { gatherAll sets s with dev := .ready }

/-! ### DEVICE_CTRL (R15, R45) -/

/-- The result of a command in DEVICE_CTRL. -/
def devStatus (cmd status : Nat) (s : State) : State := (s.wr .global R.DEVICE_CTRL.last_cmd cmd).wr .global R.DEVICE_CTRL.last_status status

/-- GLOBAL takes writes: every state from READY on (R16). -/
def State.globalOpen (s : State) : Bool := s.reaches .global

/-- READY to RUN; what the last stop made quiesce is enabled again. -/
def devRun (s : State) : State :=
  if !s.globalOpen then s
  else if s.dev ≠ .ready then devStatus 1 2 s
  else
    let bs := s.stopped
    s.each bs enableBlk |> fun (t : State) => devStatus 1 0 { t with dev := .run, stopped := [] }

/-- RUN to READY: the slices are asked to quiesce. -/
def devStop (s : State) : State :=
  if !s.globalOpen then s
  else if s.dev ≠ .run then devStatus 2 2 s
  else if s.flag .global R.DEVICE_CTRL.stop then s
  else
    let bs := ((List.range 17).flatMap sliceSlots).filter s.enabled
    let s := s.each bs requestQuiesce
    { devStatus 2 1 (s.wr .global R.DEVICE_CTRL.stop 1) with stopped := bs }

/-- A standby request is refused although the device is READY (R392). -/
def State.standbyRefused (s : State) : Bool :=
  s.sec.op.isSome || s.populated.any (fun c => decide (s.rd (.dram c.val) R.DRAM_STATUS.phase ≠ 0))
    || decide (s.rd .clocks R.CLK_STATUS.ramp_state ≠ 0)

/-- The register word at BAR0 offset `a` is kept in STANDBY: the blocks of R16, configuration space, repair maps, DRAM configuration,
training set and tag, and the wedged bits. -/
def standbyKeeps (a : Nat) : Bool :=
  match slotBlk (a / 0x10000) with
  | some b =>
    let o := a % 0x10000
    b.kept || decide (o = 0x010) || (match b with
      | .dma => decide (o = 0x048)
      | .depot => decide (o = 0x048) || decide (o = 0x050) || decide (o = 0x058) || (decide (0x200 ≤ o) && decide (o < 0x800)
          && decide ((o - 0x200) % 32 = 0))
      | .dram _ => decide (o = 0x040) || decide (o = 0x048) || decide (o = 0x050) || decide (o = 0x068) || (decide (0x100 ≤ o)
          && decide (o < 0x168))
      | _ => false)
  | none => false

/-- The blocks STANDBY does not keep at their reset values. -/
def powerGate (s : State) : State :=
  let z := State.reset
  let s := { s with
    regs := s.regs.filter (fun p => standbyKeeps p.1)
    host := { s.host with
      rings := []
      cqs := []
      latches := [] }
    dram := s.dram.map (fun (d : DramSt) => { DramSt.zero with track := d.track })
    cores := z.cores
    rx := z.rx
    tx := z.tx
    chains := z.chains
    trigs := z.trigs
    recs := z.recs
    chans := z.chans
    syns := z.syns
    tbus := z.tbus
    xbar := z.xbar
    queue := z.queue
    causes := []
    tko := z.tko
    pl := z.pl
    cal := { z.cal with readAt := s.cal.readAt }
    mem := { s.mem with testNext := [], testAt := [] }
    disp := z.disp
    obs := { z.obs with
      jtagIr := s.obs.jtagIr
      jtagDr := s.obs.jtagDr
      boundary := s.obs.boundary }
    stopped := []
    quiesceAt := s.quiesceAt.filter (fun p => (slotBlk p.1).any Blk.kept)
    muster := z.muster
    tim := { s.tim with
      maps := []
      tdcStart := none
      tdcStop := none
      tdcArmedAt := 0
      interp := s.tim.interp.map (fun (x : InterpSt) => { x with tdcRise := none, tdcFall := none }) }
    pins := { s.pins with
      musterOut := false
      trigOut := Vector.replicate 4 false
      tbusDrive := 0
      tbusNak := 0
      tbusSync := false } }
  -- of BLOCK_STATUS only the wedged bit is kept
  let s := s.each (Blk.all.filter (fun (b : Blk) => !b.kept && !b.alwaysOn)) (fun b st =>
    st.wrw b 0x010 (4 * bit (st.flag b R.BLOCK_STATUS.wedged)))
  -- the interpolators belong to TIME, which runs on: their tables stay, and TDC_CAL_STATUS shows them (log 6)
  let s := syncTdcRead (s.wr .tdc R.TDC_CAL_STATUS.calibrated (maskOf 8 (fun k => (s.tim.interp[Fin.ofNat 8 k]).hits.isSome)))
  -- retired slices stay retired
  let m := s.rd .global R.DEVICE_STATE.slice_retired
  s.each (List.range 17) (fun i st => if nbit m i then st.wr (.core i) R.SLICE_MODE.role 2 else st)

/-- READY to STANDBY. -/
def devStandby (s : State) : State :=
  if !s.globalOpen then s
  else if s.dev ≠ .ready ∨ s.standbyRefused then devStatus 3 2 s
  else
    let s := powerGate (pasrLose s)
    let s := s.each s.populated (fun c st =>
      if st.rd (.dram c.val) R.DRAM_STATUS.state = 2 then st.wr (.dram c.val) R.DRAM_STATUS.state 5 else st)
    let s := s.wr .clocks R.CLK_STATUS.locked (Nat.land (s.rd .clocks R.CLK_STATUS.locked) 0b1100)
    let s := s.wr .clocks R.CLK_STATUS.gated (Nat.land (s.rd .clocks R.CLK_STATUS.gated) 0b1100)
    { devStatus 3 0 s with dev := .standby }

/-- A wake begins: the loops that stood still seek lock. -/
def startWake (s : State) : State :=
  if s.boot.waking then s
  else ({ s with boot := { s.boot with waking := true } } : State).each [0, 1, 4, 5, 6, 7, 8, 9] seekLock

/-- The wake request of DEVICE_CTRL. -/
def devWake (s : State) : State :=
  if !s.globalOpen then s
  else if s.dev ≠ .standby then devStatus 4 2 s
  else startWake (devStatus 4 1 (s.wr .global R.DEVICE_CTRL.wake 1))

/-- A GPIO edge: the level changes, and an enabled edge wakes. -/
def gpioEdge (e : GpioEdge) (s : State) : State :=
  let m := s.pins.gpio.toNat
  let k := e.pin.val
  let l := if e.falling then (if nbit m k then m - 2 ^ k else m) else Nat.lor m (2 ^ k)
  let s := { s with pins := { s.pins with gpio := BitVec.ofNat 16 l } }
  if s.dev = .standby ∧ nbit (s.rd .clocks R.WAKE_CFG.enable) k ∧ nbit (s.rd .clocks R.WAKE_CFG.edge) k = e.falling then
    startWake s
  else s

/-- full_reset of DEVICE_CTRL with its key. -/
def devReset (key : Nat) (s : State) : State :=
  if !s.globalOpen then s
  else
    let s := s.wr .global R.DEVICE_CTRL.key key
    if key = 0xA5 then fullReset 2 s else devStatus 5 2 s

/-- DEVICE_CTRL.run is written 1. -/
def opRun (s : State) : State := devRun s
/-- DEVICE_CTRL.stop is written 1. -/
def opStop (s : State) : State := devStop s
/-- DEVICE_CTRL.standby is written 1. -/
def opStandby (s : State) : State := devStandby s
/-- DEVICE_CTRL.wake is written 1, or a GPIO pin has an edge. -/
def opWake (gpio : Option GpioEdge) (s : State) : State :=
  match gpio with
  | none => devWake s
  | some e => gpioEdge e s
/-- DEVICE_CTRL.full_reset is written 1 with a key. -/
def opFullReset (key : BitVec 8) (s : State) : State := devReset key.toNat s

/-- Every slice has quiesced after a stop request. -/
def opDeviceStopped (s : State) : State :=
  if s.dev ≠ .run ∨ ¬ s.flag .global R.DEVICE_CTRL.stop ∨ s.stopped.any s.enabled then s
  else
    let s := s.wr .global R.DEVICE_CTRL.stop 0
    let s := if s.rd .global R.DEVICE_CTRL.last_cmd = 2 then s.wr .global R.DEVICE_CTRL.last_status 0 else s
    { s with dev := .ready }

/-- The wake sequence ends: SRAM cleared, the region restored, DRAM retracked, microcode reloaded, timing sets gathered. -/
def opWakeComplete (tracked : List (List Int × List Int)) (sets : List GatherResult) (s : State) : State :=
  if s.dev ≠ .standby ∨ ¬ s.boot.waking ∨ ¬ (s.pllRuns 0 && s.pllRuns 1) then s
  else
    let s := restoreRegion (clearSram (powerGate s))
    let s := s.each s.populated (fun c st =>
      let st := leaveSelfRefresh c.val (st.wr (.dram c.val) R.DRAM_STATUS.bypass 0)
      if st.rd (.dram c.val) R.DRAM_STATUS.state = 2 then
        let t := tracked.getD c.val ([], [])
        trackPass c t.1 t.2 st
      else st)
    let s := s.wr .clocks R.BOOT_STATUS.ucode_version s.boot.ucode
    let s := gatherAll sets s
    let s := s.wr .global R.DEVICE_CTRL.wake 0
    let s := if s.rd .global R.DEVICE_CTRL.last_cmd = 4 then s.wr .global R.DEVICE_CTRL.last_status 0 else s
    { s with
      dev := .ready
      boot := { s.boot with waking := false } }

/-! ### Pins that show the state (R423) -/

/-- ERROR_N is low. -/
def State.errorLow (s : State) : Bool :=
  match s.dev with
  | .off => false
  | .boot => s.pins.resetN && decide (s.rd .clocks R.BOOT_STATUS.fail ≠ 0)
  | _ =>
    [R.DEVICE_STATE.slice_wedged, R.DEVICE_STATE.dram_wedged, R.DEVICE_STATE.shared_wedged, R.DEVICE_STATE.rxg_wedged,
      R.DEVICE_STATE.txg_wedged].any (s.flag .global)

/-- Mn_RST_N of DRAM channel `c` is high. -/
def State.dramResetHigh (s : State) (c : Nat) : Bool :=
  match s.dev with
  | .off => false
  | _ => decide (s.rd (.dram c) R.DRAM_STATUS.state ≠ 0)

/-! ### The commands -/

/-- POWER_ON (R15): VDD_CORE and VDD_IO become valid with RESET_N high, and the device goes from OFF to BOOT. -/
def execPowerOn (straps : BitVec 4) (s : State) : Host.Outcome State Fault Refusal :=
  .next (opPowerOn straps s)
/-- SUPPLY_LOSS (R428): VDD_CORE or VDD_IO stays below its threshold for 1 µs, and the device enters OFF. -/
def execSupplyLoss (s : State) : Host.Outcome State Fault Refusal :=
  .next (opSupplyLoss s)
/-- RESET_N (R385): RESET_N held low for 10 XO_IN cycles causes a full device reset; the straps are sampled when it rises. -/
def execResetN (s : State) : Host.Outcome State Fault Refusal :=
  .next (opResetN s)
/-- BOOT_IMAGE_VERIFIED (R388): Check unit 62 completes verification of a boot image; on failure the other image is tried. -/
def execBootImageVerified (a : List Byte) (b : List Byte) (sectionsOk : Bool) (s : State) : Host.Outcome State Fault Refusal :=
  .next (opBootImageVerified a b sectionsOk s)
/-- BOOT_COMPLETE (R389): The SRAM is cleared, the PLLs are locked, DRAM is trained and the microcode is loaded, and the device enters READY. -/
def execBootComplete (failed : List (SramId × Nat)) (trained : List TrainResult) (sets : List GatherResult) (s : State) : Host.Outcome State Fault Refusal :=
  .next (opBootComplete failed trained sets s)
/-- BOOT_TIMEOUT (R390): No valid image is found, or a needed PLL does not lock within 100 ms, and the device stays in BOOT with BOOT_STATUS.fail set. -/
def execBootTimeout (pll : Bool) (s : State) : Host.Outcome State Fault Refusal :=
  .next (opBootTimeout pll s)
/-- RUN (R15): DEVICE_CTRL.run requests the transition from READY to RUN. -/
def execRun (s : State) : Host.Outcome State Fault Refusal :=
  .next (opRun s)
/-- STOP (R15): DEVICE_CTRL.stop requests RUN to READY, which takes effect once all slices have quiesced. -/
def execStop (s : State) : Host.Outcome State Fault Refusal :=
  .next (opStop s)
/-- DEVICE_STOPPED (R15): All slices have acknowledged their quiesce after a stop request, and the device enters READY. -/
def execDeviceStopped (s : State) : Host.Outcome State Fault Refusal :=
  .next (opDeviceStopped s)
/-- STANDBY (R392): DEVICE_CTRL.standby puts DRAM into self-refresh, stops the loops and power-gates the blocks that are not kept. -/
def execStandby (s : State) : Host.Outcome State Fault Refusal :=
  .next (opStandby s)
/-- WAKE (R392): DEVICE_CTRL.wake, or an enabled GPIO edge, starts the wake sequence out of STANDBY. -/
def execWake (gpio : Option GpioEdge) (s : State) : Host.Outcome State Fault Refusal :=
  .next (opWake gpio s)
/-- WAKE_COMPLETE (R392): The wake sequence ends and the device enters READY. -/
def execWakeComplete (tracked : List (List Int × List Int)) (sets : List GatherResult) (s : State) : Host.Outcome State Fault Refusal :=
  .next (opWakeComplete tracked sets s)
/-- FULL_RESET (R45): DEVICE_CTRL.full_reset written together with key 0xA5 performs a full device reset; without the key the command is rejected. -/
def execFullReset (key : BitVec 8) (s : State) : Host.Outcome State Fault Refusal :=
  .next (opFullReset key s)
/-- ENABLE (R32): Writing BLOCK_CTRL.enable = 1 enables the block, subject to the block's own refusal checks. -/
def execEnable (b : Blk) (s : State) : Host.Outcome State Fault Refusal :=
  .next (opEnable b s)
/-- QUIESCE (R22): Writing BLOCK_CTRL.enable = 0, or a request from the placement engine, asks the block to finish its caravan, drain its ferries and acknowledge. -/
def execQuiesce (b : Blk) (s : State) : Host.Outcome State Fault Refusal :=
  .next (opQuiesce b s)
/-- QUIESCE_ACK (R22): A quiescing block has finished and drained, acknowledges, and becomes disabled. -/
def execQuiesceAck (b : Blk) (s : State) : Host.Outcome State Fault Refusal :=
  .next (opQuiesceAck b s)
/-- WEDGED (R23): A block has not acknowledged a quiesce within 100 µs of running clock; it is marked wedged, isolated, and the fatal vector is raised. -/
def execWedged (u : DevUnit) (s : State) : Host.Outcome State Fault Refusal :=
  .next (opWedged u s)
/-- RESET_RELEASE (R385): RESET_N rises with the supplies valid, the straps are sampled and the device enters BOOT from reset or from OFF. -/
def execResetRelease (straps : BitVec 4) (testMode : Bool) (s : State) : Host.Outcome State Fault Refusal :=
  .next (opResetRelease straps testMode s)
/-- QUIESCE_SEAL_DEADLINE (R203): 50 µs after a quiesce of the QUEUE block, a granted record that is still not sealed is abandoned under R178. -/
def execQuiesceSealDeadline (s : State) : Host.Outcome State Fault Refusal :=
  .next (opQuiesceSealDeadline s)

end Sys2Proof.Machine
end

