-- ==== Sys2Proof/Machine/Regs.lean ====
section
/-!
DEFINITION. Sys2Proof/Machine/Regs.lean: accesses to the register space by port: decoding and bus errors (R26), writes by access type
and the commands they give (R5, R31 to R34, R45), reads and their latch (R30), the ferries' marks (R19), OBSREAD (R406).
-/
namespace Sys2Proof.Machine
open Sys2Proof

/-! ### Ferries (R19, R46) -/

/-- The register of a ferry: block, level, high-water mark. -/
def FerryId.reg : FerryId → Blk × Fld × Fld
  | .rxg g => (.rxg g.val, R.RXG_FERRY.level, R.RXG_FERRY.high_water)
  | .txg g => (.txg g.val, R.TXG_FERRY.level, R.TXG_FERRY.high_water)
  | .dramWr c => (.dram c.val, R.DRAM_FERRY_WR.level, R.DRAM_FERRY_WR.high_water)
  | .dramRd c => (.dram c.val, R.DRAM_FERRY_RD.level, R.DRAM_FERRY_RD.high_water)
  | .hostIn => (.dma, R.HOST_IN_FERRY.level, R.HOST_IN_FERRY.high_water)
  | .hostOut => (.dma, R.HOST_OUT_FERRY.level, R.HOST_OUT_FERRY.high_water)
  | .regReq => (.global, R.REG_REQ_FERRY.level, R.REG_REQ_FERRY.high_water)
  | .regRsp => (.global, R.REG_RSP_FERRY.level, R.REG_RSP_FERRY.high_water)
  | .mgmtUp => (.global, R.MGMT_FERRY_UP.level, R.MGMT_FERRY_UP.high_water)
  | .mgmtDown => (.global, R.MGMT_FERRY_DOWN.level, R.MGMT_FERRY_DOWN.high_water)
  | .time => (.global, R.TIME_FERRY.level, R.TIME_FERRY.high_water)
  | .tbusOut => (.global, R.TBUS_OUT_FERRY.level, R.TBUS_OUT_FERRY.high_water)
  | .tbusIn => (.global, R.TBUS_IN_FERRY.level, R.TBUS_IN_FERRY.high_water)
  | .layer d n => (.display d.val, R.LAYER_FERRY.level n.val, R.LAYER_FERRY.high_water n.val)

/-- The mark is cleared: the highest level since then is the present one. -/
def hwmClear (f : FerryId) (s : State) : State :=
  let (b, level, mark) := f.reg
  s.wr b mark (s.rd b level)

/-- The hwm_clear bit of a ferry register is written 1. -/
def opHwmClear (ferry : FerryId) (s : State) : State := if s.reaches ferry.reg.1 then hwmClear ferry s else s

/-- A host access goes through reg_req, and its answer through reg_rsp (R18, R19). -/
def regFerries (p : Port) (s : State) : State :=
  if p = .host then
    ferryPass .global R.REG_RSP_FERRY.level R.REG_RSP_FERRY.high_water 64 1
      (ferryPass .global R.REG_REQ_FERRY.level R.REG_REQ_FERRY.high_water 64 1 s)
  else s

/-! ### Commands of the shared blocks' registers -/

/-- Apply `gs` for the bits 0, 1, … of `set`, in bit order. -/
def inBitOrder (set : Nat) (gs : List Op) (s : State) : State :=
  s.each (List.range gs.length) (fun k st => if nbit set k then (gs.getD k id) st else st)

/-- DEVICE_CTRL (R45): one command bit performs its command; several are rejected whole. -/
def devCommand (set key : Nat) (s : State) : State :=
  match (List.range 5).filter (nbit set) with
  | [] => s
  | [k] => match k with
    | 0 => devRun s
    | 1 => devStop s
    | 2 => devStandby s
    | 3 => devWake s
    | _ => devReset key s
  | k :: _ => devStatus (k + 1) 2 s

/-- QUEUE_CMD.go with the operation in op (R193); a code without an operation gives none. -/
def queueCommand (p : Port) (s : State) : State :=
  let q := BitVec.ofNat 20 (s.rd .queue R.QUEUE_CMD.queue)
  match s.rd .queue R.QUEUE_CMD.op with
  | 1 => opCreate p q s
  | 2 => opDestroy p q s
  | 3 => opResume q s
  | 4 => opInspect q s
  | _ => s

/-- A write to the word of CQ_CFG: enable goes to 1 only through its own test (R361). -/
def cqCfgWrite (cq : Fin 1024) (mask v : Nat) (s : State) : State :=
  let b := cqBlk cq.val
  let i := cq.val % 256
  let o := 0x1108 + 32 * i
  let take := Nat.land mask 0xFFF
  let w := Nat.lor (Nat.land (s.rdw b o) (Nat.xor take (2 ^ 64 - 1))) (Nat.land v take)
  let s := s.wrw b o w
  if !nbit mask 12 then s
  else if nbit v 12 then opCqEnable cq s
  else s.wr b (R.CQ_CFG.enable i) 0

/-- Place of `o` in an array of `n` words `stride` apart from `base`. -/
def place (o base stride n : Nat) : Option Nat :=
  if base ≤ o ∧ (o - base) % stride = 0 ∧ (o - base) / stride < n then some ((o - base) / stride) else none

/-- What a write does beyond its bits in a block that is no slice: `set` holds the W1S bits written 1, `v` the written bits. -/
def sharedEffect (p : Port) (b : Blk) (o mask set v : Nat) (s : State) : State :=
  let h := fun (k : Nat) => nbit set k
  match b with
  | .global =>
    if o = R.DEVICE_CTRL.run.off then devCommand set (nbits v 15 8) s
    else match place o 0x140 8 7 with
      | some k => s.when (h 27) (hwmClear ([FerryId.regReq, .regRsp, .mgmtUp, .mgmtDown, .time, .tbusOut, .tbusIn].getD k .regReq))
      | none => s
  | .muster => if o = 0x040 then inBitOrder set [opMusterFire, opRearm, id, id, id, opSchedArm] s else s
  | .placement =>
    if o = 0x040 then s.when (h 9) (fun s => plCommand (s.rd .placement R.PL_CTRL.op) (s.rd .placement R.PL_CTRL.entry) s)
    else if o = 0x0A8 then inBitOrder set [fun s => calGo (s.rd .placement R.CAL_CTRL.slice) s, calAbort] s
    else s
  | .timebase =>
    if o = 0x048 then inBitOrder set [opTbLoad, opTbLoadNow, opTbCancel, opEpochGo, opEpochStop] s
    else if o = 0x118 then syncMap s
    else if o = R.TB_MAP.pairings.off then presetMap s
    else s
  | .tdc =>
    if o = 0x048 then inBitOrder set [opTdcArm, opTdcCancel] s
    else if o = 0x098 then syncTdcRead s
    else s
  | .clocks => if o = 0x100 then inBitOrder set [id, id, id, id, rampGo, rampAbort] s else s
  | .housekeeping => if o = 0x050 then s.when (h 0) (urgentRequest 2) else s
  | .observe => match place o 0x100 8 64 with
    | some i => syncObsSel i s
    | none => s
  | .auth =>
    if o = 0x048 then
      if h 4 && h 5 then authBoth s
      else (s.when (h 4) (fun s => authGo (s.rd .auth R.AUTH_CMD.op) true s)).when (h 5) opAuthCancel
    else if o = 0x040 ∧ Nat.land mask 3 ≠ 0 then lockedWrite .auth s
    else s
  | .display i =>
    let d : Fin 2 := Fin.ofNat 2 i
    if o = 0x070 then inBitOrder set [dispCommit d, ctLoad d] s
    else if o = 0x090 then s.when (h 26) (auxGo d)
    else match place o 0x128 64 4 with
      | some n => s.when (h 27) (hwmClear (.layer d (Fin.ofNat 4 n)))
      | none => s
  | .dram i =>
    let c : Fin 8 := Fin.ofNat 8 i
    if o = 0x060 then s.when (h 0) (retrain c)
    else if o = 0x040 then syncGeom i s
    else if o = 0x190 then s.when (h 27) (hwmClear (.dramWr c))
    else if o = 0x198 then s.when (h 27) (hwmClear (.dramRd c))
    else s
  | .dma =>
    if o = 0x090 then s.when (h 27) (hwmClear .hostIn)
    else if o = 0x098 then s.when (h 27) (hwmClear .hostOut)
    else s
  | .dmaRings k => match place o 0x110 64 64 with
    | some j =>
      let r : Fin 256 := Fin.ofNat 256 (64 * k + j)
      inBitOrder set [opRingRun r, opRingStop r 0 0, opRingResume r] s
    | none => s
  | .queue => if o = 0x048 then s.when (h 23) (queueCommand p) else s
  | .rxg i =>
    let g : Fin 16 := Fin.ofNat 16 i
    if o = 0x0F8 then s.when (h 27) (hwmClear (.rxg g))
    else if o = 0x040 then syncLanes g s
    else match place o 0x048 8 5 with
      | some _ => syncSubs g s
      | none => match place o 0x300 8 16 with
        | some n => if Nat.land mask 7 ≠ 0 then syncChecker g n s else s
        | none => s
  | .txg i =>
    let g : Fin 16 := Fin.ofNat 16 i
    if o = 0x0D0 then
      s.when (h 24) (fun s => linkSend g (s.rd b R.TXG_LINKCMD.cmd) (s.rd b R.TXG_LINKCMD.lane) (s.rd b R.TXG_LINKCMD.arg)
        (s.rd b R.TXG_LINKCMD.tag) s)
    else if o = 0x0F8 then s.when (h 27) (hwmClear (.txg g))
    else match place o 0x100 8 16 with
      | some n => inBitOrder set [id, id, id, id, opLaneRetire g (Fin.ofNat 16 n), opLaneRestore g (Fin.ofNat 16 n)] s
      | none => match place o 0x300 8 16 with
        | some n => s.when (h 5) (opInject g (Fin.ofNat 16 n))
        | none => s
  | .trigbus | .check | .depot | .chan | .core _ | .filt _ | .trig _ | .records _ => s

/-- The bits of DEPOT_CFG.host_size. -/
def hostSizeBits : Nat := R.DEPOT_CFG.host_size.top * 2 ^ R.DEPOT_CFG.host_size.lo

/-- The write to a word of a block that is no slice: words whose write is one action of the block, then the others. -/
def sharedWrite (p : Port) (b : Blk) (o mask v : Nat) (acc : WordAcc) (s : State) : State :=
  let plain := fun (s : State) => sharedEffect p b o mask (Nat.land (Nat.land acc.w1s mask) v) v (writeBits p b o mask v acc s)
  let merged := fun (s : State) => Nat.lor (Nat.land (s.rdw b o) (Nat.xor mask (2 ^ 64 - 1))) (Nat.land v mask)
  match b with
  | .placement => if 0x2000 ≤ o then writeDecl o mask v s else plain s
  | .trigbus => match place o 0x200 8 4 with
    | some j => if nbit mask 0 then opTrigOutCfgWrite (Fin.ofNat 4 j) (BitVec.ofNat 32 (merged s)) s else s
    | none => plain s
  | .observe =>
    if o = 0x040 then
      let was := s.flag .observe R.OBS_CTRL.trace_enable
      let s := plain s
      if !was && s.flag .observe R.OBS_CTRL.trace_enable then traceStart s else s
    else plain s
  | .depot =>
    -- host_size is locked while a declaration is admitted (R328)
    if o = R.DEPOT_CFG.host_size.off && s.declsLive && decide (Nat.land mask hostSizeBits ≠ 0) then
      lockedWrite .depot (sharedEffect p b o mask (Nat.land (Nat.land acc.w1s mask) v) v
        (writeBits p b o (Nat.land mask (Nat.xor hostSizeBits (2 ^ 64 - 1))) v acc s))
    else plain s
  | .auth => if o = 0x078 then (if nbit mask 0 then opTamperArm (nbit v 0) s else s) else plain s
  | .queue =>
    if o = 0x0A0 then
      if mask = 2 ^ 64 - 1 then opDoorbell (BitVec.ofNat 64 v) .ok s else s.cnt .queue R.QUEUE_COUNTS.doorbell_partial 1
    else plain s
  | .dmaRings k => match place o 0x118 64 64 with
    | some j => if nbit mask 0 then opRingTail (Fin.ofNat 256 (64 * k + j)) (BitVec.ofNat 16 v) s else s
    | none => match place o 0x1108 32 256 with
      | some j => cqCfgWrite (Fin.ofNat 1024 (256 * k + j)) mask v s
      | none => match place o 0x1110 32 256 with
        | some j => if nbit mask 0 then opCqHead (Fin.ofNat 1024 (256 * k + j)) (BitVec.ofNat 16 v) s else s
        | none => plain s
  | _ => plain s

/-! ### A write -/

/-- The slice a slot belongs to. -/
def Blk.slice : Blk → Option Nat
  | .core i | .filt i | .trig i | .records i => some i
  | .global | .muster | .placement | .timebase | .tdc | .trigbus | .clocks | .housekeeping | .check | .observe | .auth | .depot
  | .display _ | .dram _ | .dma | .dmaRings _ | .queue | .chan | .rxg _ | .txg _ => none

/-- The same slot of another slice. -/
def Blk.inSlice (b : Blk) (j : Nat) : Blk :=
  match b with
  | .core _ => .core j
  | .filt _ => .filt j
  | .trig _ => .trig j
  | .records _ => .records j
  | _ => b

/-- A write to the word at `o` of a block: the header's enable, then the block's own words. -/
def writeOne (p : Port) (b : Blk) (o mask v : Nat) (acc : WordAcc) (s : State) : State :=
  if o = 0x008 then
    if b.alwaysOn || !nbit mask 0 then s else if nbit v 0 then enableBlk b s else requestQuiesce b s
  else match b with
    | .core _ | .filt _ | .trig _ | .records _ | .chan => sliceWrite p b o mask v acc s
    | _ => sharedWrite p b o mask v acc s

/-- The slices that a write to a slot of slice `i` reaches: all members of a gang for PWR_REF (R117); the stand-in of each for a
write through the host port (R306). -/
def State.writeTargets (s : State) (p : Port) (b : Blk) (o i : Nat) : List Nat :=
  let is := match b with
    | .filt _ => if o = R.PWR_REF.pwr_offset.off then (s.gang (Fin.ofNat 17 i)).map (fun (m : Fin 17) => m.val) else [i]
    | _ => [i]
  is.flatMap (fun j => j :: (if p = .host then (s.standIn j).toList.map (fun (m : Fin 17) => m.val) else []))

/-- A write of `v` to the covered bits of the word at `o`, with its mirrors. -/
def regWrite (p : Port) (b : Blk) (o mask v : Nat) (acc : WordAcc) (s : State) : State :=
  match b.slice with
  | some i => s.each (s.writeTargets p b o i) (fun j st => writeOne p (b.inSlice j) o mask v acc st)
  | none => writeOne p b o mask v acc s

/-! ### Decoding an access (R26, R234) -/

/-- The block, the offset in its window and the word of an access. -/
def accessAt (addr width : Nat) : Option (Blk × Nat × RegAt) :=
  if (width ≠ 32 ∧ width ≠ 64) ∨ addr % (width / 8) ≠ 0 then none
  else match decodeBar0 addr with
    | some (b, o) => (b.regAt (o / 8 * 8)).map (fun x => (b, o, x))
    | none => none

/-- A bus error: the endpoint's AER for the host, the bus-error exception for a core. -/
def busError (p : Port) (addr : Nat) (s : State) : State :=
  match p with
  | .host => s.aerAbort
  | .alnen c => opException c 1 (BitVec.ofNat 32 (0x8000000 + addr)) s
  | .mgmt => s

/-- The port can issue an access: power, memory space for the host, a running clock for a core. -/
def State.portLive (s : State) (p : Port) : Bool :=
  decide (s.dev ≠ .off) && (match p with
    | .host => s.barOpen
    | .alnen _ => s.coreRuns
    | .mgmt => true)

/-- Writes of a core's port reach its own slice, and PEER_DOORBELL of another (R234). -/
def portMayWrite (p : Port) (b : Blk) (o : Nat) : Bool :=
  match p with
  | .alnen c => decide (b.slice = some c.val) || (match b with
    | .core _ => decide (o / 8 * 8 = R.PEER_DOORBELL.value.off)
    | _ => false)
  | _ => true

/-- The bits written, at their place in the word. -/
def writeValue (addr width data : Nat) : Nat := if width = 64 then data % 2 ^ 64 else data % 2 ^ 32 * 2 ^ (8 * (addr % 8))

/-- The state in which BAR0 answers with reset values and takes no writes (R16). -/
def bootBlk (b : Blk) : Bool := decide (b = .global) || decide (b = .clocks)

/-- What a word of GLOBAL or CLOCKS reads as in BOOT: its reset value, which for the straps and the GPIO pins is what the pins give
and for CLK_RESET_CAUSE what the reset left (R16, R386, R391). -/
def State.bootWord (s : State) (b : Blk) (o : Nat) : Word :=
  if (b = .global ∧ (o = R.STRAPS.straps.off ∨ o = 0x210)) ∨ (b = .clocks ∧ o = R.CLK_RESET_CAUSE.cause.off) then s.readWord b o
  else BitVec.ofNat 64 (b.resetWord o)

/-- A write that decoding has accepted, or none: the new state, or a bus error. -/
def portWrite (p : Port) (addr width data : Nat) (s : State) : Option State :=
  match accessAt addr width with
  | none => none
  | some (b, o, x) =>
    if s.dev = .boot then (if bootBlk b then some s else none)
    else if !portMayWrite p b o then none
    else
      some (regWrite p b (o / 8 * 8) (coverMask o width) (writeValue o width data) x.acc (setLatch p none s))

/-- A read that decoding has accepted, or none: the state with the port's latch, and the value. -/
def portRead (p : Port) (addr width : Nat) (s : State) : Option (State × Word) :=
  match accessAt addr width with
  | none => none
  | some (b, o, x) =>
    if s.dev = .boot then
      if bootBlk b then some (setLatch p none s, wordPart (s.bootWord b (o / 8 * 8)) o width) else none
    else some (readReg p b o width x s)

/-! ### The commands' effects -/

/-- A write to a register. An access that ends in a bus error releases the port's latch like any other (R30). -/
def opRegisterWrite (port : Port) (addr width : Nat) (data : BitVec 64) (s : State) : State :=
  if !s.portLive port then s
  else
    let s := regFerries port s
    match portWrite port addr width data.toNat s with
    | some s' => s'
    | none => busError port addr (setLatch port none s)

/-- A read of a register; the host's answer shows its value. -/
def opLatchingRead (port : Port) (addr width : Nat) (s : State) : State :=
  if !s.portLive port then s
  else
    let s := regFerries port s
    match portRead port addr width s with
    | some (s', v) => if port = .host then hostAnswer true false (leBytes (width / 8) v.toNat) s' else s'
    | none =>
      let s := busError port addr (setLatch port none s)
      if port = .host then hostAnswer false false [] s else s

/-- The blocks JTAG may read. -/
def obsReadable (b : Blk) : Bool := decide (b = .observe) || decide (b = .global) || decide (b = .clocks) || decide (b = .auth)

/-- OBSREAD: a 64-bit read through the management port, in every state. -/
def opObsread (addr : BitVec 26) (s : State) : State :=
  if s.dev = .off then s
  else
    let s := s.cnt .observe R.OBS_JTAG.obsreads 1
    let show_ := fun (st : State) (d : Nat) => { st with obs := { st.obs with jtagIr := 0x10, jtagDr := BitVec.ofNat 96 d } }
    let refuse_ := fun (st : State) => show_ (st.cnt .observe R.OBS_JTAG.refused 1) (3 * 2 ^ 64)
    match accessAt addr.toNat 64 with
    | none => refuse_ s
    | some (b, o, x) =>
      if !obsReadable b then refuse_ s
      else
        let (s, v) := readReg .mgmt b o 64 x s
        show_ s (v.toNat + 2 ^ 64)

/-! ### The commands -/

/-- REGISTER_WRITE (R5): A write to a register that has no row of its own takes effect by access type; CFG writes while enabled are ignored and locked writes are refused. -/
def execRegisterWrite (port : Port) (addr : Nat) (width : Nat) (data : BitVec 64) (s : State) : Host.Outcome State Fault Refusal :=
  .next (opRegisterWrite port addr width data s)
/-- LATCHING_READ (R30): A read of the lowest word of a wide value latches the value's higher words for the reading port. -/
def execLatchingRead (port : Port) (addr : Nat) (width : Nat) (s : State) : Host.Outcome State Fault Refusal :=
  .next (opLatchingRead port addr width s)
/-- HWM_CLEAR (R19): The hwm_clear bit of a ferry register clears its high-water mark. -/
def execHwmClear (ferry : FerryId) (s : State) : Host.Outcome State Fault Refusal :=
  .next (opHwmClear ferry s)
/-- OBSREAD (R406): The JTAG OBSREAD instruction starts a read of an allowed block through the management port. -/
def execObsread (addr : BitVec 26) (s : State) : Host.Outcome State Fault Refusal :=
  .next (opObsread addr s)

end Sys2Proof.Machine
end

