-- ==== Sys2Proof/Machine/UnitMem.lean ====
section
/-!
DEFINITION. Sys2Proof/Machine/UnitMem.lean: slot 3 of the Alnen core: memory syllables (R232 to R236, R258) and unit instructions
(R242, R259 to R262, and each unit's own chapter).
-/
namespace Sys2Proof.Machine
open Sys2Proof

/-! ### Address registers (R236) -/

/-- The low `w` bits of `x` in reversed order. -/
def bitRev : Nat → Nat → Nat
  | 0, _ => 0
  | w + 1, x => x % 2 * 2 ^ w + bitRev w (x / 2)

/-- An address register's value after a post-increment; a wrap span above 23 has no stated result. -/
def xAdvance (x : Nat) (inc : Int) (s : State) : Nat × State :=
  let a := x % 2 ^ 32
  let top := x / 2 ^ 32 * 2 ^ 32
  let w := max 4 (x / 2 ^ 34 % 32)
  let i := (inc % (2 ^ 32 : Int)).toNat
  let span := 2 ^ w
  let keep := a / span * span
  let m := x / 2 ^ 32 % 4
  if m = 0 ∨ m = 3 then (top + (a + i) % 2 ^ 32, s)
  else if 23 < w then
    let (v, s) := s.free 236
    (top + v % 2 ^ 32, s)
  else if m = 1 then (top + keep + (a + i) % span, s)
  else (top + keep + bitRev w ((bitRev w (a % span) + bitRev w (i % span)) % span), s)

/-- r of the mem format. -/
def Syl.r (y : Syl) : Bool := nbit y.mn 7
/-- u of the mem format. -/
def Syl.u (y : Syl) : Bool := nbit y.mn 6
/-- imm11 of the mem format, split over the fields b and m. -/
def Syl.memImm (y : Syl) : Int := signed 11 (y.bn * 64 + y.mn % 64)

/-- The post-increment of a memory syllable. -/
def postInc (c : Fin 17) (y : Syl) (s : State) : State :=
  let k := s.cores[c]
  let inc : Int := if y.r then sgn32 (k.rs y.bn) else y.memImm
  let (v, s) := xAdvance (k.rx y.an) inc s
  produce c 3 1 false [(.x y.an, (v : Int))] s

/-! ### Data memory of a core (R232) -/

/-- An access ends in an exception that is taken when it completes. -/
def setExc (c : Fin 17) (code addr : Nat) (s : State) : State := s.setCore c { s.cores[c] with exc := some (code, addr) }

/-- The BAR0 offset that a data address reaches: the core's own slice, or the BAR0 range. -/
def regOffset (c : Fin 17) (a : Nat) : Option Nat :=
  if 0x1000000 ≤ a ∧ a < 0x1040000 then some (0x800000 + 0x40000 * c.val + (a - 0x1000000))
  else if 0x8000000 ≤ a ∧ a < 0xC000000 then some (a - 0x8000000)
  else none

/-- The on-chip memory that `n` bytes at a data address reach, and their place in it. -/
def sramOffset (c : Fin 17) (a n : Nat) : Option (SramId × Nat) :=
  if a + n ≤ 0x800000 then some (.lmem c, a)
  else if 0x4000000 ≤ a ∧ a + n ≤ 0x7F00000 then some (.depot, a - 0x4000000)
  else none

/-- A load of `n` bytes: the bytes, or an exception. -/
def coreLoad (c : Fin 17) (a n : Nat) (s : State) : State × Option (List Byte) :=
  match sramOffset c a n with
  | some (m, o) => match s.firstBad m o n with
    | none => (s, some (s.sramRead m o n))
    | some _ => (setExc c 4 a (checkRead m o n 0 s), none)
  | none => match regOffset c a with
    | some o =>
      if n ≠ 4 ∧ n ≠ 8 then (setExc c 1 a s, none)
      else match portRead (.alnen c) o (8 * n) s with
        | some (s, v) => (s, some (leBytes n v.toNat))
        | none => (setExc c 1 a s, none)
    | none => (setExc c 1 a s, none)

/-- A store of bytes with enables. -/
def coreStore (c : Fin 17) (a : Nat) (bs : List (Option Byte)) (s : State) : State :=
  let n := bs.length
  match sramOffset c a n with
  | some (m, o) => sramWrite m o bs s
  | none => match regOffset c a with
    | some o =>
      if n ≠ 4 ∧ n ≠ 8 then setExc c 1 a s
      else match portWrite (.alnen c) o (8 * n) (leNat (bs.map (·.getD 0))) s with
        | some s => s
        | none => setExc c 1 a s
    | none => setExc c 1 a s

/-- The guard bits a memory syllable uses: bit 0, or any lane of a vector. -/
def State.memOn (s : State) (c : Fin 17) (y : Syl) (vec : Bool) : Bool :=
  if vec then (List.range 8).any (s.guard c y) else s.guard0 c y

/-- A memory syllable: its illegal encodings, its misaligned accesses, its address update; `f` acts on the address. -/
def memOp (c : Fin 17) (y : Syl) (rds : List Dst) (bad : Bool) (size : Nat) (vec : Bool) (f : Nat → Op) : Op :=
  let at_ := fun (s : State) => s.cores[c].rx y.an % 2 ^ 32
  issue c y (.x y.an :: (if y.r then [.s y.bn] else []) ++ rds)
    (fun s =>
      if bad || decide (15 < y.an) || (y.u && !vec) then some (0, 0)
      else if s.memOn c y vec && decide (at_ s % size ≠ 0) && !(vec && y.u && decide (at_ s < 0x800000)) then some (2, at_ s)
      else none)
    (fun s => if s.memOn c y vec then f (at_ s) (postInc c y s) else s)

/-- A scalar load of `n` bytes; `f` makes its results of the value. -/
def loadOp (c : Fin 17) (y : Syl) (bad : Bool) (n : Nat) (f : Nat → List (Dst × Int)) : Op :=
  memOp c y [] bad n false (fun a s =>
    match coreLoad c a n s with
    | (s, some bs) => produce c 3 4 true (f (leNat bs)) s
    | (s, none) => s)

/-- A scalar store of `n` bytes of the value `v`. -/
def storeOp (c : Fin 17) (y : Syl) (rds : List Dst) (bad : Bool) (n : Nat) (v : CoreSt → Nat) : Op :=
  memOp c y rds bad n false (fun a s => coreStore c a ((leBytes n (v s.cores[c])).map some) s)

/-- A vector load of lanes of `w` bytes; `f` makes a lane of its word. -/
def vloadOp (c : Fin 17) (y : Syl) (w : Nat) (f : Nat → Int) : Op :=
  memOp c y [] false (8 * w) true (fun a s =>
    match coreLoad c a (8 * w) s with
    | (s, some bs) =>
      let rs := laneResults s c y y.dn (fun l => (f (imgNat bs (w * l) w), false))
      produce c 3 (if y.u then 5 else 4) true rs s
    | (s, none) => s)

/-- A vector store of lanes of `w` bytes; `f` makes a lane's word, and says whether it saturated. -/
def vstoreOp (c : Fin 17) (y : Syl) (w : Nat) (f : Int → Int × Bool) (s : State) : State :=
  memOp c y (s.vLanes c y.dn) false (8 * w) true (fun a s =>
    let word := fun (l : Nat) => f (s.vr c y.dn l)
    let bs := (List.range 8).flatMap (fun l =>
      if s.guard c y l then (leBytes w (code (8 * w) (word l).1)).map some else List.replicate w none)
    let o := (List.range 8).any (fun l => s.guard c y l && (word l).2)
    let s := if o then produce c 3 1 false [(.ovf, 1)] s else s
    coreStore c a bs s) s

/-- LD.B. -/
def opLdB (c : Fin 17) (y : Syl) : Op := loadOp c y false 1 (fun v => [(.s y.dn, signed 8 v)])
/-- LD.BU. -/
def opLdBu (c : Fin 17) (y : Syl) : Op := loadOp c y false 1 (fun v => [(.s y.dn, (v : Int))])
/-- LD.H. -/
def opLdH (c : Fin 17) (y : Syl) : Op := loadOp c y false 2 (fun v => [(.s y.dn, signed 16 v)])
/-- LD.HU. -/
def opLdHu (c : Fin 17) (y : Syl) : Op := loadOp c y false 2 (fun v => [(.s y.dn, (v : Int))])
/-- LD.W. -/
def opLdW (c : Fin 17) (y : Syl) : Op := loadOp c y false 4 (fun v => [(.s y.dn, (v : Int))])
/-- LD.D. -/
def opLdD (c : Fin 17) (y : Syl) : Op :=
  loadOp c y (decide (y.dn % 2 = 1)) 8 (fun v => [(.s y.dn, (v % 2 ^ 32 : Nat)), (.s (y.dn + 1), (v / 2 ^ 32 : Nat))])
/-- ST.B. -/
def opStB (c : Fin 17) (y : Syl) : Op := storeOp c y [.s y.dn] false 1 (fun k => k.rs y.dn % 2 ^ 8)
/-- ST.H. -/
def opStH (c : Fin 17) (y : Syl) : Op := storeOp c y [.s y.dn] false 2 (fun k => k.rs y.dn % 2 ^ 16)
/-- ST.W. -/
def opStW (c : Fin 17) (y : Syl) : Op := storeOp c y [.s y.dn] false 4 (fun k => k.rs y.dn)
/-- ST.D. -/
def opStD (c : Fin 17) (y : Syl) : Op := storeOp c y (pairDst y.dn) (decide (y.dn % 2 = 1)) 8 (fun k => k.pair y.dn)
/-- VLD.W: bits [23:0] of each word. -/
def opVldW (c : Fin 17) (y : Syl) : Op := vloadOp c y 4 (fun v => signed 24 (v % 2 ^ 24))
/-- VLD.H: each halfword shifted left by 8. -/
def opVldH (c : Fin 17) (y : Syl) : Op := vloadOp c y 2 (fun v => signed 16 v * 256)
/-- VST.W: each lane sign-extended. -/
def opVstW (c : Fin 17) (y : Syl) : Op := vstoreOp c y 4 (fun x => (x, false))
/-- VST.H: each lane rounded by 8 bits and saturated. -/
def opVstH (c : Fin 17) (y : Syl) : Op :=
  vstoreOp c y 2 (fun x => (sat 16 (rne x 8), decide (sat 16 (rne x 8) ≠ rne x 8)))
/-- XSET. -/
def opXset (c : Fin 17) (y : Syl) : Op :=
  issue c y [.s y.an, .s y.bn] (illegal (decide (15 < y.dn))) (fun s =>
    let k := s.cores[c]
    produce c 3 1 false [(.x y.dn, ((k.rs y.an + 2 ^ 32 * (k.rs y.bn % 128) : Nat) : Int))] s)
/-- XADD: the post-increment alone; no access, so u says nothing. -/
def opXadd (c : Fin 17) (y : Syl) : Op :=
  issue c y (.x y.an :: (if y.r then [.s y.bn] else [])) (illegal (decide (15 < y.an)))
    (fun s => if s.guard0 c y then postInc c y s else s)
/-- XGET. -/
def opXget (c : Fin 17) (y : Syl) : Op :=
  issue c y [.x y.an] (illegal (decide (15 < y.an)))
    (fun s => produce c 3 1 false [(.s y.dn, (s.cores[c].rx y.an % 2 ^ 32 : Nat))] s)

/-! ### U.FILT and U.FFT (R94, R122) -/

/-- The low 32 bits of a register of the slice. -/
def State.low32 (s : State) (b : Blk) (o : Nat) : List Nat := [(s.live b o).toNat % 2 ^ 32]

/-- U.FILT RETUNE. -/
def opRetune (c : Fin 17) (y : Syl) : Op :=
  unitWrite c y (pairDst y.an ++ pairDst y.bn) (decide (y.an % 2 = 1) || decide (y.bn % 2 = 1)) (fun s =>
    let k := s.cores[c]
    let b : Blk := .filt c.val
    let s := (s.wr b R.NCO_FCW_STAGE.fcw (k.pair y.an)).wr b R.NCO_PHASE_STAGE.phase (k.pair y.bn)
    filtCommit c 1 true (s.wr b R.NCO_PHASE_STAGE.coherent (k.rs (y.bn + 1) / 2 ^ 16 % 2)))

/-- U.FILT SWITCH. -/
def opSwitch (c : Fin 17) (y : Syl) : Op :=
  unitWrite c y [.s y.an] false (fun s =>
    let v := s.cores[c].rs y.an
    let b : Blk := .filt c.val
    filtCommit c 2 true ((s.wr b R.FIR_BANK_STAGE.bank v).wr b R.FIR_BANK_STAGE.fade (v / 4 % 2)))

/-- U.FILT QUERY. -/
def opFiltQuery (c : Fin 17) (y : Syl) : Op := unitRead c y [] false (fun s => s.low32 (.filt c.val) R.FILT_STATUS.state.off)

/-- U.FFT SELECT. -/
def opFftSelect (c : Fin 17) (y : Syl) : Op :=
  unitWrite c y [.s y.an] false (fun s => winCommit c true (s.wr (.filt c.val) R.WIN_STAGE.store (s.cores[c].rs y.an % 2)))

/-- U.FFT OFFSET; in a gang every member takes it (R117). -/
def opFftOffset (c : Fin 17) (y : Syl) : Op :=
  unitWrite c y [.s y.an] false (fun s =>
    let v := s.cores[c].rs y.an
    s.each (s.gang c) (fun m st => st.wr (.filt m.val) R.PWR_REF.pwr_offset v))

/-- U.FFT QUERY. -/
def opFftQuery (c : Fin 17) (y : Syl) : Op := unitRead c y [] false (fun s => s.low32 (.filt c.val) R.XF_STATUS.state.off)

/-! ### U.TRIG (R144) -/

/-- The staging word a selector names. -/
def trigStageWord (n : Nat) : Option Nat :=
  if n < 4 then some (R.TD_THR_STAGE.thr n).off
  else if n < 6 then some (R.FM_STAGE.laddr (n - 4)).off
  else if n < 8 then some (R.DN_THR_STAGE.thr (n - 6)).off
  else if n < 12 then some (R.TERM_STAGE.req (n - 8)).off
  else none

/-- U.TRIG STAGE. -/
def opTrigStage (c : Fin 17) (y : Syl) : Op :=
  unitWrite c y (pairDst y.an ++ [.s y.bn]) (decide (y.an % 2 = 1)) (fun s =>
    let k := s.cores[c]
    let b : Blk := .trig c.val
    match trigStageWord (k.rs y.bn % 16) with
    | none => (s.wr b R.TRIG_CTRL.last_status 2).coreInt c.val 2
    | some o => match b.regAt o with
      | some x => writeBits (.alnen c) b o (2 ^ 64 - 1) (k.pair y.an) x.acc s
      | none => s)

/-- U.TRIG QUERY. -/
def opTrigQuery (c : Fin 17) (y : Syl) : Op := unitRead c y [] false (fun s => s.low32 (.trig c.val) R.TRIG_STATUS.arm_state.off)

/-! ### U.RED and U.DENS (R260, R261) -/

/-- U.RED TAP. -/
def opTap (c : Fin 17) (y : Syl) : Op :=
  unitOp c y [.s y.an, .s y.bn] false (fun s =>
    let k := s.cores[c]
    tapRequest c (k.rs y.an % 2 ^ 20) (k.rs y.bn % 2 ^ 17) s)

/-- U.RED QUERY. -/
def opRedQuery (c : Fin 17) (y : Syl) : Op := unitRead c y [] false (fun s => [s.cores[c].tap.status])

/-- The count of a cell of plane `k` in the accumulating buffer; a member of a gang has the counts of its own frames (R169). -/
def State.cell (s : State) (i : Fin 17) (k row col : Nat) : Nat :=
  let b : Blk := .records i.val
  let cols := s.rd b (R.DENS_CFG.cols_m1 k) + 1
  let rows := s.rd b (R.DENS_CFG.rows_m1 k) + 1
  if !s.flag b (R.DENS_CFG.enable k) || decide (rows ≤ row) || decide (cols ≤ col) then 0xFFFFFFFF
  else match s.recs[s.chainOf i].dens[Fin.ofNat 4 k] with
    | some x =>
      if s.gangG i = 1 then SMap.get (fun _ => 0) x.cells (row * cols + col)
      else leNat (s.sramRead (.lmem i) (cellAddr (s.planeAddr i k x.j) cols row col) 2)
    | none => 0

/-- U.DENS CELL. -/
def opCell (c : Fin 17) (y : Syl) : Op :=
  unitRead c y [.s y.an, .s y.bn] false (fun s =>
    let k := s.cores[c]
    let v := k.rs y.bn
    [s.cell c (k.rs y.an % 4) (v % 2 ^ 8) (v / 2 ^ 8 % 2 ^ 11)])

/-- U.DENS QUERY. -/
def opDensQuery (c : Fin 17) (y : Syl) : Op :=
  unitRead c y [.s y.an] false (fun s => s.low32 (.records c.val) (R.DENS_SAT.sat_count (s.cores[c].rs y.an % 4)).off)

/-! ### U.CHAN and U.SYN (R189, R212) -/

/-- U.CHAN SELECT. -/
def opChanSelect (c : Fin 17) (y : Syl) : Op :=
  unitWrite c y [.s y.an] false (fun s =>
    chanCommit c true (s.wr .chan (R.CHAN_SEL.stage_laddr c.val) (s.cores[c].rs y.an % 2 ^ 20)))

/-- U.CHAN QUERY. -/
def opChanQuery (c : Fin 17) (y : Syl) : Op := unitRead c y [] false (fun s => s.low32 .chan (R.CHAN_CTRL.commit c.val).off)

/-- U.SYN FRAME. -/
def opSynFrame (c : Fin 17) (y : Syl) : Op :=
  unitOp c y [.s y.an] false (fun s =>
    let v := s.cores[c].rs y.an
    let x := s.syns[c]
    if 4 ≤ x.frames.length then (s.wr (.records c.val) R.SYN_CTRL.last_status 2).coreInt c.val 2
    else
      let n := v / 2 ^ 20 % 2 ^ 6
      let q : SynFrames := ⟨v % 2 ^ 20, if n = 0 then 64 else n, v / 2 ^ 26⟩
      showFrames c (s.setSyn c { x with frames := x.frames ++ [q] }))

/-- U.SYN QUERY. -/
def opSynQuery (c : Fin 17) (y : Syl) : Op := unitRead c y [] false (fun s => s.low32 (.records c.val) R.SYN_STATUS.state.off)

/-! ### U.REC (R179) -/

/-- The residue errors up to this APPEND or SKIP have been taken note of (R228). -/
def resNoted (c : Fin 17) (s : State) : State := s.setCore c { s.cores[c] with resSince := false }

/-- U.REC APPEND: a length outside its range, or with which the record would pass its limit (R162; log 36), seals the record without a
block; with no record held it is invalid too. -/
def opAppend (c : Fin 17) (y : Syl) : Op :=
  unitOp c y [.s y.an, .s y.bn] false (fun s =>
    let k := s.cores[c]
    let n := k.rs y.bn % 2 ^ 13
    let a := 8 * (k.rs y.an % 2 ^ 20)
    let invalid := s.fault (.records c.val) R.REC_FAULT.meas_invalid
    resNoted c (match s.heldOf c with
    | [] => invalid
    | r :: _ =>
      let r := if k.resSince then { r with fl := Nat.lor r.fl 64 } else r
      if n < 8 ∨ 4096 < n ∨ n % 8 ≠ 0 ∨ s.recLimit c r.cls < recLen r.payload.length n then releaseHeld c r [] invalid
      else
        let bs := (List.range n).map (fun j => SMap.get zeroByte s.mem.lmem[c] ((a + j) % 2 ^ 23))
        releaseHeld c r bs (checkRead (.lmem c) a n 1 s)))

/-- U.REC SKIP; with no record held it is invalid. -/
def opSkip (c : Fin 17) (y : Syl) : Op :=
  unitOp c y [] false (fun s => resNoted c (match s.heldOf c with
    | [] => s.fault (.records c.val) R.REC_FAULT.meas_invalid
    | r :: _ => releaseHeld c r [] s))

/-- U.REC QUERY. -/
def opRecQuery (c : Fin 17) (y : Syl) : Op := unitRead c y [] false (fun s => s.low32 (.records c.val) R.REC_OPEN.held.off)

/-! ### U.TIME and U.WAIT (R262) -/

/-- U.TIME NOW. -/
def opNow (c : Fin 17) (y : Syl) : Op :=
  unitRead c y [] (decide (29 < y.dn)) (fun s =>
    let t := s.nowT96.toNat
    [t % 2 ^ 32, t / 2 ^ 32 % 2 ^ 32, t / 2 ^ 64])

/-- U.TIME BOUND. -/
def opBound (c : Fin 17) (y : Syl) : Op := unitRead c y [] false (fun s => [s.bTb % 2 ^ 16 + 2 ^ 16 * (s.quality % 4)])

/-- A U.WAIT begins to wait at the end of its bundle. -/
def waitOp (c : Fin 17) (y : Syl) (rds : List Dst) (bad : Bool) (w : CoreSt → WaitCond) : Op :=
  unitOp c y rds bad (fun s => s.setCore c { s.cores[c] with newWait := some (w s.cores[c]) })

/-- U.WAIT BOUNDARY. -/
def opWaitBoundary (c : Fin 17) (y : Syl) : Op := waitOp c y [] false (fun _ => .boundary false)

/-- U.WAIT TIME. -/
def opWaitTime (c : Fin 17) (y : Syl) : Op :=
  waitOp c y [.s y.an, .s (y.an + 1), .s (y.an + 2)] (decide (29 < y.an))
    (fun k => .time (BitVec.ofNat 96 (k.rs y.an + 2 ^ 32 * k.rs (y.an + 1) + 2 ^ 64 * k.rs (y.an + 2))))

/-- U.WAIT PEND. -/
def opWaitPend (c : Fin 17) (y : Syl) : Op := waitOp c y [.s y.an] false (fun k => .pend (BitVec.ofNat 16 (k.rs y.an)))

/-! ### The commands -/

/-- RETUNE (R88): U.FILT RETUNE writes the staged NCO word and phase and commits a retune. -/
def execRetune (c : Fin 17) (y : Syl) (s : State) : Host.Outcome State Fault Refusal :=
  .next (opRetune c y s)
/-- SWITCH (R92): U.FILT SWITCH writes FIR_BANK_STAGE and commits a bank switch. -/
def execSwitch (c : Fin 17) (y : Syl) (s : State) : Host.Outcome State Fault Refusal :=
  .next (opSwitch c y s)
/-- FILT_QUERY (R94): U.FILT QUERY returns FILT_STATUS[31:0] in the destination register. -/
def execFiltQuery (c : Fin 17) (y : Syl) (s : State) : Host.Outcome State Fault Refusal :=
  .next (opFiltQuery c y s)
/-- FFT_SELECT (R110): U.FFT SELECT writes WIN_STAGE and commits a window switch. -/
def execFftSelect (c : Fin 17) (y : Syl) (s : State) : Host.Outcome State Fault Refusal :=
  .next (opFftSelect c y s)
/-- FFT_OFFSET (R114): U.FFT OFFSET writes pwr_offset, applied at the next caravan boundary. -/
def execFftOffset (c : Fin 17) (y : Syl) (s : State) : Host.Outcome State Fault Refusal :=
  .next (opFftOffset c y s)
/-- FFT_QUERY (R122): U.FFT QUERY returns XF_STATUS[31:0]. -/
def execFftQuery (c : Fin 17) (y : Syl) (s : State) : Host.Outcome State Fault Refusal :=
  .next (opFftQuery c y s)
/-- TRIG_STAGE (R144): U.TRIG STAGE writes a selected trigger staging register. -/
def execTrigStage (c : Fin 17) (y : Syl) (s : State) : Host.Outcome State Fault Refusal :=
  .next (opTrigStage c y s)
/-- TRIG_QUERY (R144): U.TRIG QUERY returns TRIG_STATUS[31:0]. -/
def execTrigQuery (c : Fin 17) (y : Syl) (s : State) : Host.Outcome State Fault Refusal :=
  .next (opTrigQuery c y s)
/-- APPEND (R179): U.REC APPEND seals the oldest held record with a measurement block copied from local memory. -/
def execAppend (c : Fin 17) (y : Syl) (s : State) : Host.Outcome State Fault Refusal :=
  .next (opAppend c y s)
/-- SKIP (R179): U.REC SKIP seals the oldest held record without a block. -/
def execSkip (c : Fin 17) (y : Syl) (s : State) : Host.Outcome State Fault Refusal :=
  .next (opSkip c y s)
/-- REC_QUERY (R179): U.REC QUERY returns REC_OPEN[31:0]. -/
def execRecQuery (c : Fin 17) (y : Syl) (s : State) : Host.Outcome State Fault Refusal :=
  .next (opRecQuery c y s)
/-- CHAN_SELECT (R189): U.CHAN SELECT writes stage_laddr and commits the channel selection. -/
def execChanSelect (c : Fin 17) (y : Syl) (s : State) : Host.Outcome State Fault Refusal :=
  .next (opChanSelect c y s)
/-- CHAN_QUERY (R189): U.CHAN QUERY returns CHAN_CTRL[31:0]. -/
def execChanQuery (c : Fin 17) (y : Syl) (s : State) : Host.Outcome State Fault Refusal :=
  .next (opChanQuery c y s)
/-- SYN_FRAME (R212): U.SYN FRAME queues 1 to 64 frequency-domain frames, or is refused when four instructions are already queued. -/
def execSynFrame (c : Fin 17) (y : Syl) (s : State) : Host.Outcome State Fault Refusal :=
  .next (opSynFrame c y s)
/-- SYN_QUERY (R212): U.SYN QUERY returns SYN_STATUS[31:0]. -/
def execSynQuery (c : Fin 17) (y : Syl) (s : State) : Host.Outcome State Fault Refusal :=
  .next (opSynQuery c y s)
/-- LD_B (R258): Load a sign-extended byte. -/
def execLdB (c : Fin 17) (y : Syl) (s : State) : Host.Outcome State Fault Refusal :=
  .next (opLdB c y s)
/-- LD_BU (R258): Load a zero-extended byte. -/
def execLdBu (c : Fin 17) (y : Syl) (s : State) : Host.Outcome State Fault Refusal :=
  .next (opLdBu c y s)
/-- LD_H (R258): Load a sign-extended halfword. -/
def execLdH (c : Fin 17) (y : Syl) (s : State) : Host.Outcome State Fault Refusal :=
  .next (opLdH c y s)
/-- LD_HU (R258): Load a zero-extended halfword. -/
def execLdHu (c : Fin 17) (y : Syl) (s : State) : Host.Outcome State Fault Refusal :=
  .next (opLdHu c y s)
/-- LD_W (R258): Load a 32-bit word. -/
def execLdW (c : Fin 17) (y : Syl) (s : State) : Host.Outcome State Fault Refusal :=
  .next (opLdW c y s)
/-- LD_D (R258): Load 64 bits into a register pair. -/
def execLdD (c : Fin 17) (y : Syl) (s : State) : Host.Outcome State Fault Refusal :=
  .next (opLdD c y s)
/-- ST_B (R258): Store a byte. -/
def execStB (c : Fin 17) (y : Syl) (s : State) : Host.Outcome State Fault Refusal :=
  .next (opStB c y s)
/-- ST_H (R258): Store a halfword. -/
def execStH (c : Fin 17) (y : Syl) (s : State) : Host.Outcome State Fault Refusal :=
  .next (opStH c y s)
/-- ST_W (R258): Store a word. -/
def execStW (c : Fin 17) (y : Syl) (s : State) : Host.Outcome State Fault Refusal :=
  .next (opStW c y s)
/-- ST_D (R258): Store 64 bits from a register pair. -/
def execStD (c : Fin 17) (y : Syl) (s : State) : Host.Outcome State Fault Refusal :=
  .next (opStD c y s)
/-- VLD_W (R233): Vector load in .W format. -/
def execVldW (c : Fin 17) (y : Syl) (s : State) : Host.Outcome State Fault Refusal :=
  .next (opVldW c y s)
/-- VLD_H (R233): Vector load in .H format. -/
def execVldH (c : Fin 17) (y : Syl) (s : State) : Host.Outcome State Fault Refusal :=
  .next (opVldH c y s)
/-- VST_W (R233): Vector store in .W format. -/
def execVstW (c : Fin 17) (y : Syl) (s : State) : Host.Outcome State Fault Refusal :=
  .next (opVstW c y s)
/-- VST_H (R233): Vector store in .H format with saturation. -/
def execVstH (c : Fin 17) (y : Syl) (s : State) : Host.Outcome State Fault Refusal :=
  .next (opVstH c y s)
/-- XSET (R236): Set an address register's address, mode and wrap. -/
def execXset (c : Fin 17) (y : Syl) (s : State) : Host.Outcome State Fault Refusal :=
  .next (opXset c y s)
/-- XADD (R236): Post-increment an address register without an access. -/
def execXadd (c : Fin 17) (y : Syl) (s : State) : Host.Outcome State Fault Refusal :=
  .next (opXadd c y s)
/-- XGET (R258): Read an address register's address. -/
def execXget (c : Fin 17) (y : Syl) (s : State) : Host.Outcome State Fault Refusal :=
  .next (opXget c y s)
/-- TAP (R260): U.RED TAP starts copying working-stream outputs to local memory at the next boundary, or is refused. -/
def execTap (c : Fin 17) (y : Syl) (s : State) : Host.Outcome State Fault Refusal :=
  .next (opTap c y s)
/-- RED_QUERY (R260): U.RED QUERY returns the tap status. -/
def execRedQuery (c : Fin 17) (y : Syl) (s : State) : Host.Outcome State Fault Refusal :=
  .next (opRedQuery c y s)
/-- CELL (R261): U.DENS CELL returns one cell count of the accumulating density buffer. -/
def execCell (c : Fin 17) (y : Syl) (s : State) : Host.Outcome State Fault Refusal :=
  .next (opCell c y s)
/-- DENS_QUERY (R259): U.DENS QUERY returns DENS_SAT[k][31:0]. -/
def execDensQuery (c : Fin 17) (y : Syl) (s : State) : Host.Outcome State Fault Refusal :=
  .next (opDensQuery c y s)
/-- NOW (R262): U.TIME NOW returns the newest T96 of the time ferry. -/
def execNow (c : Fin 17) (y : Syl) (s : State) : Host.Outcome State Fault Refusal :=
  .next (opNow c y s)
/-- BOUND (R259): U.TIME BOUND returns the current bound and quality. -/
def execBound (c : Fin 17) (y : Syl) (s : State) : Host.Outcome State Fault Refusal :=
  .next (opBound c y s)
/-- WAIT_BOUNDARY (R262): U.WAIT BOUNDARY holds issue until the next caravan boundary. -/
def execWaitBoundary (c : Fin 17) (y : Syl) (s : State) : Host.Outcome State Fault Refusal :=
  .next (opWaitBoundary c y s)
/-- WAIT_TIME (R262): U.WAIT TIME holds issue until a T96 instant. -/
def execWaitTime (c : Fin 17) (y : Syl) (s : State) : Host.Outcome State Fault Refusal :=
  .next (opWaitTime c y s)
/-- WAIT_PEND (R262): U.WAIT PEND holds issue until a masked INT_PEND bit is set. -/
def execWaitPend (c : Fin 17) (y : Syl) (s : State) : Host.Outcome State Fault Refusal :=
  .next (opWaitPend c y s)

end Sys2Proof.Machine
end

