-- ==== Sys2Proof/Machine/Dispatch.lean ====
section
/-!
DEFINITION. Sys2Proof/Machine/Dispatch.lean: one arm per command, each a direct call of that command's meaning.
-/
namespace Sys2Proof.Machine
open Sys2Proof

/-- The effect of command `i` on everything but the queue. -/
def exec (i : Instr) (s : State) : Host.Outcome State Fault Refusal :=
  match i with
  | .powerOn straps => Sys2Proof.Machine.execPowerOn straps s
  | .supplyLoss => Sys2Proof.Machine.execSupplyLoss s
  | .resetN => Sys2Proof.Machine.execResetN s
  | .bootImageVerified a b sectionsOk => Sys2Proof.Machine.execBootImageVerified a b sectionsOk s
  | .bootComplete failed trained sets => Sys2Proof.Machine.execBootComplete failed trained sets s
  | .bootTimeout pll => Sys2Proof.Machine.execBootTimeout pll s
  | .run => Sys2Proof.Machine.execRun s
  | .stop => Sys2Proof.Machine.execStop s
  | .deviceStopped => Sys2Proof.Machine.execDeviceStopped s
  | .standby => Sys2Proof.Machine.execStandby s
  | .wake gpio => Sys2Proof.Machine.execWake gpio s
  | .wakeComplete tracked sets => Sys2Proof.Machine.execWakeComplete tracked sets s
  | .fullReset key => Sys2Proof.Machine.execFullReset key s
  | .registerWrite port addr width data => Sys2Proof.Machine.execRegisterWrite port addr width data s
  | .latchingRead port addr width => Sys2Proof.Machine.execLatchingRead port addr width s
  | .enable b => Sys2Proof.Machine.execEnable b s
  | .quiesce b => Sys2Proof.Machine.execQuiesce b s
  | .quiesceAck b => Sys2Proof.Machine.execQuiesceAck b s
  | .wedged u => Sys2Proof.Machine.execWedged u s
  | .lossOfLock p => Sys2Proof.Machine.execLossOfLock p s
  | .lockDeclared p => Sys2Proof.Machine.execLockDeclared p s
  | .musterFire => Sys2Proof.Machine.execMusterFire s
  | .musterInEdge falling => Sys2Proof.Machine.execMusterInEdge falling s
  | .schedArm => Sys2Proof.Machine.execSchedArm s
  | .scheduledMuster => Sys2Proof.Machine.execScheduledMuster s
  | .muster => Sys2Proof.Machine.execMuster s
  | .busyClear => Sys2Proof.Machine.execBusyClear s
  | .rearm => Sys2Proof.Machine.execRearm s
  | .musterOutEnd => Sys2Proof.Machine.execMusterOutEnd s
  | .ckWindow g count => Sys2Proof.Machine.execCkWindow g count s
  | .ckLoss g => Sys2Proof.Machine.execCkLoss g s
  | .blockLock g n => Sys2Proof.Machine.execBlockLock g n s
  | .blockLockLoss g n => Sys2Proof.Machine.execBlockLockLoss g n s
  | .alignLoss g n => Sys2Proof.Machine.execAlignLoss g n s
  | .rxAlign g lanes => Sys2Proof.Machine.execRxAlign g lanes s
  | .dataRow g lanes => Sys2Proof.Machine.execDataRow g lanes s
  | .rxStatus g k body => Sys2Proof.Machine.execRxStatus g k body s
  | .statusTimeout g k => Sys2Proof.Machine.execStatusTimeout g k s
  | .rxEpoch g k body => Sys2Proof.Machine.execRxEpoch g k body s
  | .rxOvr g k body => Sys2Proof.Machine.execRxOvr g k body s
  | .lcRetire g lane eff arg tag => Sys2Proof.Machine.execLcRetire g lane eff arg tag s
  | .lcRestore g lane eff arg tag => Sys2Proof.Machine.execLcRestore g lane eff arg tag s
  | .lcRetireReq g lane eff arg tag => Sys2Proof.Machine.execLcRetireReq g lane eff arg tag s
  | .lcRestoreReq g lane eff arg tag => Sys2Proof.Machine.execLcRestoreReq g lane eff arg tag s
  | .lcPreset g lane eff arg tag => Sys2Proof.Machine.execLcPreset g lane eff arg tag s
  | .lcTrainStart g lane eff arg tag => Sys2Proof.Machine.execLcTrainStart g lane eff arg tag s
  | .lcTrainEnd g lane eff arg tag => Sys2Proof.Machine.execLcTrainEnd g lane eff arg tag s
  | .lcAck g lane eff arg tag => Sys2Proof.Machine.execLcAck g lane eff arg tag s
  | .lcNak g lane eff arg tag => Sys2Proof.Machine.execLcNak g lane eff arg tag s
  | .linkcmdUnknown g cmd lane eff arg tag => Sys2Proof.Machine.execLinkcmdUnknown g cmd lane eff arg tag s
  | .txRetireReq g lane arg tag => Sys2Proof.Machine.execTxRetireReq g lane arg tag s
  | .txRestoreReq g lane arg tag => Sys2Proof.Machine.execTxRestoreReq g lane arg tag s
  | .txPreset g lane arg tag => Sys2Proof.Machine.execTxPreset g lane arg tag s
  | .txTrainStart g lane arg tag => Sys2Proof.Machine.execTxTrainStart g lane arg tag s
  | .txTrainEnd g lane arg tag => Sys2Proof.Machine.execTxTrainEnd g lane arg tag s
  | .linkcmdTimeout g => Sys2Proof.Machine.execLinkcmdTimeout g s
  | .laneRetire g n => Sys2Proof.Machine.execLaneRetire g n s
  | .laneRestore g n => Sys2Proof.Machine.execLaneRestore g n s
  | .txAlignRow g => Sys2Proof.Machine.execTxAlignRow g s
  | .txDataRow g k => Sys2Proof.Machine.execTxDataRow g k s
  | .fillRow g k => Sys2Proof.Machine.execFillRow g k s
  | .fomScan g n openPoints ctle dfe => Sys2Proof.Machine.execFomScan g n openPoints ctle dfe s
  | .prbsSync g n => Sys2Proof.Machine.execPrbsSync g n s
  | .prbsSyncLoss g n bits errors => Sys2Proof.Machine.execPrbsSyncLoss g n bits errors s
  | .inject g n => Sys2Proof.Machine.execInject g n s
  | .hwmClear ferry => Sys2Proof.Machine.execHwmClear ferry s
  | .sampleDelivery g res => Sys2Proof.Machine.execSampleDelivery g res s
  | .newRun unit => Sys2Proof.Machine.execNewRun unit s
  | .caravanBoundary unit => Sys2Proof.Machine.execCaravanBoundary unit s
  | .retune c y => Sys2Proof.Machine.execRetune c y s
  | .switch c y => Sys2Proof.Machine.execSwitch c y s
  | .filtQuery c y => Sys2Proof.Machine.execFiltQuery c y s
  | .commitRetune unit => Sys2Proof.Machine.execCommitRetune unit s
  | .commitSwitch unit => Sys2Proof.Machine.execCommitSwitch unit s
  | .fadeEnd unit => Sys2Proof.Machine.execFadeEnd unit s
  | .bankLoad unit b value => Sys2Proof.Machine.execBankLoad unit b value s
  | .bankLoadDone unit b => Sys2Proof.Machine.execBankLoadDone unit b s
  | .frameFormed unit flt => Sys2Proof.Machine.execFrameFormed unit flt s
  | .fftSelect c y => Sys2Proof.Machine.execFftSelect c y s
  | .commitWindow unit => Sys2Proof.Machine.execCommitWindow unit s
  | .fftOffset c y => Sys2Proof.Machine.execFftOffset c y s
  | .windowLoad unit b via => Sys2Proof.Machine.execWindowLoad unit b via s
  | .windowLoadDone unit b => Sys2Proof.Machine.execWindowLoadDone unit b s
  | .fftQuery c y => Sys2Proof.Machine.execFftQuery c y s
  | .trigInEdge j falling tap => Sys2Proof.Machine.execTrigInEdge j falling tap s
  | .combinerEvaluation unit => Sys2Proof.Machine.execCombinerEvaluation unit s
  | .postEnd unit => Sys2Proof.Machine.execPostEnd unit s
  | .arm c via => Sys2Proof.Machine.execArm c via s
  | .disarm c via => Sys2Proof.Machine.execDisarm c via s
  | .force c via => Sys2Proof.Machine.execForce c via s
  | .trigStage c y => Sys2Proof.Machine.execTrigStage c y s
  | .trigCommit c via => Sys2Proof.Machine.execTrigCommit c via s
  | .trigQuery c y => Sys2Proof.Machine.execTrigQuery c y s
  | .timerArm unit => Sys2Proof.Machine.execTimerArm unit s
  | .timerFire unit => Sys2Proof.Machine.execTimerFire unit s
  | .pulseEnd j => Sys2Proof.Machine.execPulseEnd j s
  | .trigOutCfgWrite j value => Sys2Proof.Machine.execTrigOutCfgWrite j value s
  | .tbusRequest l => Sys2Proof.Machine.execTbusRequest l s
  | .busRequestLatched l nak => Sys2Proof.Machine.execBusRequestLatched l nak s
  | .tbusSync => Sys2Proof.Machine.execTbusSync s
  | .syncDrive => Sys2Proof.Machine.execSyncDrive s
  | .ringSlotWrite unit => Sys2Proof.Machine.execRingSlotWrite unit s
  | .contStart c via => Sys2Proof.Machine.execContStart c via s
  | .contStop c via => Sys2Proof.Machine.execContStop c via s
  | .append c y => Sys2Proof.Machine.execAppend c y s
  | .skip c y => Sys2Proof.Machine.execSkip c y s
  | .recQuery c y => Sys2Proof.Machine.execRecQuery c y s
  | .measTimeout unit => Sys2Proof.Machine.execMeasTimeout unit s
  | .reservationRequest q ann => Sys2Proof.Machine.execReservationRequest q ann s
  | .reservationTimeout q ann => Sys2Proof.Machine.execReservationTimeout q ann s
  | .recordSeal q how => Sys2Proof.Machine.execRecordSeal q how s
  | .publication q => Sys2Proof.Machine.execPublication q s
  | .recordWriteFailure q => Sys2Proof.Machine.execRecordWriteFailure q s
  | .moderationTimer q => Sys2Proof.Machine.execModerationTimer q s
  | .contextFetch q ann => Sys2Proof.Machine.execContextFetch q ann s
  | .doorbell value ann => Sys2Proof.Machine.execDoorbell value ann s
  | .create port q => Sys2Proof.Machine.execCreate port q s
  | .destroy port q => Sys2Proof.Machine.execDestroy port q s
  | .resume q => Sys2Proof.Machine.execResume q s
  | .inspect q => Sys2Proof.Machine.execInspect q s
  | .chanSelect c y => Sys2Proof.Machine.execChanSelect c y s
  | .chanCommit c via => Sys2Proof.Machine.execChanCommit c via s
  | .chanQuery c y => Sys2Proof.Machine.execChanQuery c y s
  | .prototypeGenerate unit value => Sys2Proof.Machine.execPrototypeGenerate unit value s
  | .prototypeReady unit => Sys2Proof.Machine.execPrototypeReady unit s
  | .synStart c via => Sys2Proof.Machine.execSynStart c via s
  | .startInstant unit => Sys2Proof.Machine.execStartInstant unit s
  | .synStop c via => Sys2Proof.Machine.execSynStop c via s
  | .synCommit c via => Sys2Proof.Machine.execSynCommit c via s
  | .synFrame c y => Sys2Proof.Machine.execSynFrame c y s
  | .synQuery c y => Sys2Proof.Machine.execSynQuery c y s
  | .frameSynthesis unit res => Sys2Proof.Machine.execFrameSynthesis unit res s
  | .sampleRelease unit res => Sys2Proof.Machine.execSampleRelease unit res s
  | .playbackFetch unit ok => Sys2Proof.Machine.execPlaybackFetch unit ok s
  | .pbDoorbell unit produced => Sys2Proof.Machine.execPbDoorbell unit produced s
  | .interrupt c => Sys2Proof.Machine.execInterrupt c s
  | .exception c code addr => Sys2Proof.Machine.execException c code addr s
  | .coreTimer c => Sys2Proof.Machine.execCoreTimer c s
  | .mboxInWrite c value => Sys2Proof.Machine.execMboxInWrite c value s
  | .peerDoorbell c t value => Sys2Proof.Machine.execPeerDoorbell c t value s
  | .forcedStop c => Sys2Proof.Machine.execForcedStop c s
  | .waitComplete c => Sys2Proof.Machine.execWaitComplete c s
  | .nop c y => Sys2Proof.Machine.execNop c y s
  | .add c y => Sys2Proof.Machine.execAdd c y s
  | .sub c y => Sys2Proof.Machine.execSub c y s
  | .mul c y => Sys2Proof.Machine.execMul c y s
  | .and c y => Sys2Proof.Machine.execAnd c y s
  | .or c y => Sys2Proof.Machine.execOr c y s
  | .xor c y => Sys2Proof.Machine.execXor c y s
  | .shl c y => Sys2Proof.Machine.execShl c y s
  | .shr c y => Sys2Proof.Machine.execShr c y s
  | .sra c y => Sys2Proof.Machine.execSra c y s
  | .min c y => Sys2Proof.Machine.execMin c y s
  | .max c y => Sys2Proof.Machine.execMax c y s
  | .slt c y => Sys2Proof.Machine.execSlt c y s
  | .sltu c y => Sys2Proof.Machine.execSltu c y s
  | .addi c y => Sys2Proof.Machine.execAddi c y s
  | .andi c y => Sys2Proof.Machine.execAndi c y s
  | .ori c y => Sys2Proof.Machine.execOri c y s
  | .shli c y => Sys2Proof.Machine.execShli c y s
  | .shri c y => Sys2Proof.Machine.execShri c y s
  | .srai c y => Sys2Proof.Machine.execSrai c y s
  | .li c y => Sys2Proof.Machine.execLi c y s
  | .liu c y => Sys2Proof.Machine.execLiu c y s
  | .pcmp c y => Sys2Proof.Machine.execPcmp c y s
  | .pand c y => Sys2Proof.Machine.execPand c y s
  | .por c y => Sys2Proof.Machine.execPor c y s
  | .pxor c y => Sys2Proof.Machine.execPxor c y s
  | .pnot c y => Sys2Proof.Machine.execPnot c y s
  | .pany c y => Sys2Proof.Machine.execPany c y s
  | .pfroms c y => Sys2Proof.Machine.execPfroms c y s
  | .ptos c y => Sys2Proof.Machine.execPtos c y s
  | .pcnt c y => Sys2Proof.Machine.execPcnt c y s
  | .pffs c y => Sys2Proof.Machine.execPffs c y s
  | .pfls c y => Sys2Proof.Machine.execPfls c y s
  | .br c y => Sys2Proof.Machine.execBr c y s
  | .bz c y => Sys2Proof.Machine.execBz c y s
  | .bnz c y => Sys2Proof.Machine.execBnz c y s
  | .bpa c y => Sys2Proof.Machine.execBpa c y s
  | .bpn c y => Sys2Proof.Machine.execBpn c y s
  | .call c y => Sys2Proof.Machine.execCall c y s
  | .jr c y => Sys2Proof.Machine.execJr c y s
  | .loop c y => Sys2Proof.Machine.execLoop c y s
  | .loopS c y => Sys2Proof.Machine.execLoopS c y s
  | .movfc c y => Sys2Proof.Machine.execMovfc c y s
  | .movtc c y => Sys2Proof.Machine.execMovtc c y s
  | .swi c y => Sys2Proof.Machine.execSwi c y s
  | .rti c y => Sys2Proof.Machine.execRti c y s
  | .rte c y => Sys2Proof.Machine.execRte c y s
  | .halt c y => Sys2Proof.Machine.execHalt c y s
  | .fence c y => Sys2Proof.Machine.execFence c y s
  | .vadd c y => Sys2Proof.Machine.execVadd c y s
  | .vsub c y => Sys2Proof.Machine.execVsub c y s
  | .vand c y => Sys2Proof.Machine.execVand c y s
  | .vor c y => Sys2Proof.Machine.execVor c y s
  | .vxor c y => Sys2Proof.Machine.execVxor c y s
  | .vmin c y => Sys2Proof.Machine.execVmin c y s
  | .vmax c y => Sys2Proof.Machine.execVmax c y s
  | .vabs c y => Sys2Proof.Machine.execVabs c y s
  | .vneg c y => Sys2Proof.Machine.execVneg c y s
  | .vshl c y => Sys2Proof.Machine.execVshl c y s
  | .vsra c y => Sys2Proof.Machine.execVsra c y s
  | .vcmp c y => Sys2Proof.Machine.execVcmp c y s
  | .vsel c y => Sys2Proof.Machine.execVsel c y s
  | .vbcast c y => Sys2Proof.Machine.execVbcast c y s
  | .vins c y => Sys2Proof.Machine.execVins c y s
  | .vext c y => Sys2Proof.Machine.execVext c y s
  | .vextr c y => Sys2Proof.Machine.execVextr c y s
  | .vrot c y => Sys2Proof.Machine.execVrot c y s
  | .vconj c y => Sys2Proof.Machine.execVconj c y s
  | .vswap c y => Sys2Proof.Machine.execVswap c y s
  | .vmaxx c y => Sys2Proof.Machine.execVmaxx c y s
  | .vminx c y => Sys2Proof.Machine.execVminx c y s
  | .vmaxr c y => Sys2Proof.Machine.execVmaxr c y s
  | .vminr c y => Sys2Proof.Machine.execVminr c y s
  | .vmov c y => Sys2Proof.Machine.execVmov c y s
  | .vmul c y => Sys2Proof.Machine.execVmul c y s
  | .vmac c y => Sys2Proof.Machine.execVmac c y s
  | .vmsu c y => Sys2Proof.Machine.execVmsu c y s
  | .vmulC c y => Sys2Proof.Machine.execVmulC c y s
  | .vmacC c y => Sys2Proof.Machine.execVmacC c y s
  | .vmacJ c y => Sys2Proof.Machine.execVmacJ c y s
  | .vmulS c y => Sys2Proof.Machine.execVmulS c y s
  | .vmacS c y => Sys2Proof.Machine.execVmacS c y s
  | .vmulL c y => Sys2Proof.Machine.execVmulL c y s
  | .vmacL c y => Sys2Proof.Machine.execVmacL c y s
  | .vmacP c y => Sys2Proof.Machine.execVmacP c y s
  | .amovV c y => Sys2Proof.Machine.execAmovV c y s
  | .amovS c y => Sys2Proof.Machine.execAmovS c y s
  | .amovR c y => Sys2Proof.Machine.execAmovR c y s
  | .aset c y => Sys2Proof.Machine.execAset c y s
  | .aclr c y => Sys2Proof.Machine.execAclr c y s
  | .aadd c y => Sys2Proof.Machine.execAadd c y s
  | .asum c y => Sys2Proof.Machine.execAsum c y s
  | .asumC c y => Sys2Proof.Machine.execAsumC c y s
  | .ldB c y => Sys2Proof.Machine.execLdB c y s
  | .ldBu c y => Sys2Proof.Machine.execLdBu c y s
  | .ldH c y => Sys2Proof.Machine.execLdH c y s
  | .ldHu c y => Sys2Proof.Machine.execLdHu c y s
  | .ldW c y => Sys2Proof.Machine.execLdW c y s
  | .ldD c y => Sys2Proof.Machine.execLdD c y s
  | .stB c y => Sys2Proof.Machine.execStB c y s
  | .stH c y => Sys2Proof.Machine.execStH c y s
  | .stW c y => Sys2Proof.Machine.execStW c y s
  | .stD c y => Sys2Proof.Machine.execStD c y s
  | .vldW c y => Sys2Proof.Machine.execVldW c y s
  | .vldH c y => Sys2Proof.Machine.execVldH c y s
  | .vstW c y => Sys2Proof.Machine.execVstW c y s
  | .vstH c y => Sys2Proof.Machine.execVstH c y s
  | .xset c y => Sys2Proof.Machine.execXset c y s
  | .xadd c y => Sys2Proof.Machine.execXadd c y s
  | .xget c y => Sys2Proof.Machine.execXget c y s
  | .tap c y => Sys2Proof.Machine.execTap c y s
  | .tapDone unit => Sys2Proof.Machine.execTapDone unit s
  | .redQuery c y => Sys2Proof.Machine.execRedQuery c y s
  | .cell c y => Sys2Proof.Machine.execCell c y s
  | .densQuery c y => Sys2Proof.Machine.execDensQuery c y s
  | .now c y => Sys2Proof.Machine.execNow c y s
  | .bound c y => Sys2Proof.Machine.execBound c y s
  | .waitBoundary c y => Sys2Proof.Machine.execWaitBoundary c y s
  | .waitTime c y => Sys2Proof.Machine.execWaitTime c y s
  | .waitPend c y => Sys2Proof.Machine.execWaitPend c y s
  | .submit => Sys2Proof.Machine.execSubmit s
  | .withdraw e => Sys2Proof.Machine.execWithdraw e s
  | .update e => Sys2Proof.Machine.execUpdate e s
  | .placementAction => Sys2Proof.Machine.execPlacementAction s
  | .join => Sys2Proof.Machine.execJoin s
  | .shadowLimit => Sys2Proof.Machine.execShadowLimit s
  | .selftestDone set test => Sys2Proof.Machine.execSelftestDone set test s
  | .calibrationDue => Sys2Proof.Machine.execCalibrationDue s
  | .calRetry unit => Sys2Proof.Machine.execCalRetry unit s
  | .calGo slice => Sys2Proof.Machine.execCalGo slice s
  | .calAbort => Sys2Proof.Machine.execCalAbort s
  | .trackingStep unit shifts => Sys2Proof.Machine.execTrackingStep unit shifts s
  | .readingTimeout k => Sys2Proof.Machine.execReadingTimeout k s
  | .refWindow count => Sys2Proof.Machine.execRefWindow count s
  | .refTimeout => Sys2Proof.Machine.execRefTimeout s
  | .refLockCheck err corr => Sys2Proof.Machine.execRefLockCheck err corr s
  | .ppsEdge falling tap => Sys2Proof.Machine.execPpsEdge falling tap s
  | .ppsLoss => Sys2Proof.Machine.execPpsLoss s
  | .tbLoad => Sys2Proof.Machine.execTbLoad s
  | .tbLoadNow => Sys2Proof.Machine.execTbLoadNow s
  | .tbCancel => Sys2Proof.Machine.execTbCancel s
  | .epochGo => Sys2Proof.Machine.execEpochGo s
  | .epochStop => Sys2Proof.Machine.execEpochStop s
  | .epochEdge => Sys2Proof.Machine.execEpochEdge s
  | .epochPulseEnd => Sys2Proof.Machine.execEpochPulseEnd s
  | .tableRefresh unit hits => Sys2Proof.Machine.execTableRefresh unit hits s
  | .tdcArm => Sys2Proof.Machine.execTdcArm s
  | .tdcCancel => Sys2Proof.Machine.execTdcCancel s
  | .tdcEdge pin falling tap => Sys2Proof.Machine.execTdcEdge pin falling tap s
  | .tdcTimeout => Sys2Proof.Machine.execTdcTimeout s
  | .scrubRead m addr err syndrome => Sys2Proof.Machine.execScrubRead m addr err syndrome s
  | .bankTestStart m => Sys2Proof.Machine.execBankTestStart m s
  | .mirrorCopyDone m poisoned => Sys2Proof.Machine.execMirrorCopyDone m poisoned s
  | .marchTestDone m passed => Sys2Proof.Machine.execMarchTestDone m passed s
  | .mirrorRestoreDone m => Sys2Proof.Machine.execMirrorRestoreDone m s
  | .bar2Write off data => Sys2Proof.Machine.execBar2Write off data s
  | .bar2Read off len => Sys2Proof.Machine.execBar2Read off len s
  | .bar4Access write off data => Sys2Proof.Machine.execBar4Access write off data s
  | .dramRequest write addr data err symbol => Sys2Proof.Machine.execDramRequest write addr data err symbol s
  | .dramScrub c addr err symbol => Sys2Proof.Machine.execDramScrub c addr err symbol s
  | .refresh c => Sys2Proof.Machine.execRefresh c s
  | .dramTracking c rd wr => Sys2Proof.Machine.execDramTracking c rd wr s
  | .retrain c => Sys2Proof.Machine.execRetrain c s
  | .autoRetrain c => Sys2Proof.Machine.execAutoRetrain c s
  | .evacuationCopyDone c => Sys2Proof.Machine.execEvacuationCopyDone c s
  | .trainingDone c result => Sys2Proof.Machine.execTrainingDone c result s
  | .evacuationRestoreDone c => Sys2Proof.Machine.execEvacuationRestoreDone c s
  | .ringTail ring tail => Sys2Proof.Machine.execRingTail ring tail s
  | .ringRun ring => Sys2Proof.Machine.execRingRun ring s
  | .ringStop ring bursts movedBytes => Sys2Proof.Machine.execRingStop ring bursts movedBytes s
  | .ringResume ring => Sys2Proof.Machine.execRingResume ring s
  | .descriptorFetch ring => Sys2Proof.Machine.execDescriptorFetch ring s
  | .dmaNop ring result => Sys2Proof.Machine.execDmaNop ring result s
  | .copy ring result => Sys2Proof.Machine.execCopy ring result s
  | .fill ring result => Sys2Proof.Machine.execFill ring result s
  | .writeImm ring result => Sys2Proof.Machine.execWriteImm ring result s
  | .dmaCheck ring result => Sys2Proof.Machine.execDmaCheck ring result s
  | .programLoad ring result => Sys2Proof.Machine.execProgramLoad ring result s
  | .dmaReturn ring result => Sys2Proof.Machine.execDmaReturn ring result s
  | .dmaLink ring result => Sys2Proof.Machine.execDmaLink ring result s
  | .descriptorComplete ring => Sys2Proof.Machine.execDescriptorComplete ring s
  | .completionTimeout ring good => Sys2Proof.Machine.execCompletionTimeout ring good s
  | .flushReadComplete who ok => Sys2Proof.Machine.execFlushReadComplete who ok s
  | .waybill who => Sys2Proof.Machine.execWaybill who s
  | .cqHead cq head => Sys2Proof.Machine.execCqHead cq head s
  | .cqEnable cq => Sys2Proof.Machine.execCqEnable cq s
  | .msixUnmask v => Sys2Proof.Machine.execMsixUnmask v s
  | .endpointReset => Sys2Proof.Machine.execEndpointReset s
  | .vblankStart d => Sys2Proof.Machine.execVblankStart d s
  | .lineMatch d => Sys2Proof.Machine.execLineMatch d s
  | .frameDone d => Sys2Proof.Machine.execFrameDone d s
  | .displayLine d => Sys2Proof.Machine.execDisplayLine d s
  | .lineFetch d n v => Sys2Proof.Machine.execLineFetch d n v s
  | .hpdUnplug d => Sys2Proof.Machine.execHpdUnplug d s
  | .irqHpd d => Sys2Proof.Machine.execIrqHpd d s
  | .linkTraining d ok => Sys2Proof.Machine.execLinkTraining d ok s
  | .dispCommit d => Sys2Proof.Machine.execDispCommit d s
  | .ctLoad d => Sys2Proof.Machine.execCtLoad d s
  | .ctLoadDone d => Sys2Proof.Machine.execCtLoadDone d s
  | .auxGo d => Sys2Proof.Machine.execAuxGo d s
  | .auxComplete d r data => Sys2Proof.Machine.execAuxComplete d r data s
  | .rampGo => Sys2Proof.Machine.execRampGo s
  | .rampAbort => Sys2Proof.Machine.execRampAbort s
  | .rampSegmentEnd => Sys2Proof.Machine.execRampSegmentEnd s
  | .thermtrip => Sys2Proof.Machine.execThermtrip s
  | .trustCommit => Sys2Proof.Machine.execTrustCommit s
  | .trustClear => Sys2Proof.Machine.execTrustClear s
  | .seedSet => Sys2Proof.Machine.execSeedSet s
  | .userCal => Sys2Proof.Machine.execUserCal s
  | .fwUpdate sectionsOk => Sys2Proof.Machine.execFwUpdate sectionsOk s
  | .ucodeUpdate => Sys2Proof.Machine.execUcodeUpdate s
  | .lcAdvance => Sys2Proof.Machine.execLcAdvance s
  | .extestEnable => Sys2Proof.Machine.execExtestEnable s
  | .wipe => Sys2Proof.Machine.execWipe s
  | .authCancel => Sys2Proof.Machine.execAuthCancel s
  | .presenceProven => Sys2Proof.Machine.execPresenceProven s
  | .windowExpired => Sys2Proof.Machine.execWindowExpired s
  | .authDone flashOk => Sys2Proof.Machine.execAuthDone flashOk s
  | .strayPresence => Sys2Proof.Machine.execStrayPresence s
  | .tamperOpen => Sys2Proof.Machine.execTamperOpen s
  | .tamperClosed => Sys2Proof.Machine.execTamperClosed s
  | .tamperArm value => Sys2Proof.Machine.execTamperArm value s
  | .timeMark => Sys2Proof.Machine.execTimeMark s
  | .traceEnable => Sys2Proof.Machine.execTraceEnable s
  | .extest => Sys2Proof.Machine.execExtest s
  | .samplePreload cells => Sys2Proof.Machine.execSamplePreload cells s
  | .idcode => Sys2Proof.Machine.execIdcode s
  | .obsread addr => Sys2Proof.Machine.execObsread addr s
  | .bypass => Sys2Proof.Machine.execBypass s
  | .conversion v code ovr eng => Sys2Proof.Machine.execConversion v code ovr eng s
  | .hkCalibration v off gain => Sys2Proof.Machine.execHkCalibration v off gain s
  | .urgentRequest falling => Sys2Proof.Machine.execUrgentRequest falling s
  | .urgent => Sys2Proof.Machine.execUrgent s
  | .resetRelease straps testMode => Sys2Proof.Machine.execResetRelease straps testMode s
  | .configurationRequest op => Sys2Proof.Machine.execConfigurationRequest op s
  | .syncPulseMissing => Sys2Proof.Machine.execSyncPulseMissing s
  | .unexpectedCompletion => Sys2Proof.Machine.execUnexpectedCompletion s
  | .quiesceSealDeadline => Sys2Proof.Machine.execQuiesceSealDeadline s

end Sys2Proof.Machine
end

