-- ==== Sys2Proof/Machine/Idle.lean ====
section
/-!
DEFINITION. Sys2Proof/Machine/Idle.lean: what one TIME tick of 1.25 ns does when no command waits: the counters of the clocks run
on (R280, R287, R401), and outputs that a past change holds for one tick or one bus cycle take their level (R147, R148).
-/
namespace Sys2Proof.Machine
open Sys2Proof

/-- The core cycles that end in one tick, and the part of a cycle left over, in units of 1/(800,000,000) cycle. -/
def State.cyclesInTick (s : State) : Nat × Nat :=
  let x := s.clk.corePhase + s.coreHzNow
  (x / 800000000, x % 800000000)

/-- The units of R402 and whether each is enabled; the crossbars have no enable. -/
def State.obsUnits (s : State) : List (Nat × Bool) :=
  (List.range 17).map (fun i => (i, (sliceSlots i).any s.enabled))
    ++ [(80, true), (81, true), (82, s.enabled .depot), (83, s.enabled .queue), (84, s.enabled .dma), (85, s.enabled .check),
        (86, s.enabled .placement)]

/-- What every core cycle of the tick shows (R402): enabled cycles of the units; ferry-full cycles of ingest[g], mem_wr[c] and host_out,
whose index is the trace argument; a full host_out stalls the DMA engine. -/
def State.cycleEvents (s : State) : List (Nat × Nat × Nat) :=
  let full := fun (u k : Nat) (b : Bool) => if b then [(u, 8, k)] else []
  (s.obsUnits.filter (·.2)).map (fun u => (u.1, 0, 0))
    ++ (List.range 16).flatMap (fun g => full 80 g (decide (512 ≤ s.rd (.rxg g) R.RXG_FERRY.level)))
    ++ (List.range 8).flatMap (fun c => full 82 c (decide (256 ≤ s.rd (.dram c) R.DRAM_FERRY_WR.level)))
    ++ (if s.hostOutFull then [(84, 8, 0), (84, 7, 0)] else [])

/-- The cycle counters advance by the core cycles of one tick. -/
def tickCore (s : State) : State :=
  if !s.coreRuns || decide (s.dev = .off) || decide (s.dev = .boot) then s
  else
    let n := s.cyclesInTick.1
    let s := { s with clk.corePhase := s.cyclesInTick.2, obs.cycle := s.obs.cycle + n }
    let s := s.each (List.range 17) (fun i st =>
      if st.coreState i = 1 ∨ st.coreState i = 2 then st.cnt (.core i) R.CORE_CYCLES.count n else st)
    let s := s.when (s.flag .observe R.OBS_CTRL.run) (fun s => s.cnt .observe R.OBS_CYCLES.count n)
    s.observeAll s.cycleEvents n

/-- The TIME domain hands the CORE domain its time through the ferry `time`, one T96 per tick (DEDUCED, log 35). While the CORE domain
stands, four entries fill and then the oldest is overwritten (R18). -/
def tickTimeFerry (s : State) : State :=
  if !s.timeRuns || decide (s.dev = .boot) then s
  else if s.coreRuns then
    ferryPass .global R.TIME_FERRY.level R.TIME_FERRY.high_water 4 1 (s.wr .global R.TIME_FERRY.level 0)
  else
    let n := s.rd .global R.TIME_FERRY.level
    if n < 4 then ferryLevel .global R.TIME_FERRY.level R.TIME_FERRY.high_water 4 (n + 1) s
    else s.cnt .global R.TIME_FERRY.discards 1

/-- One TIME tick without a command. -/
def idleTick (s : State) : State :=
  if s.dev = .off then s else tickTimeFerry (tickCore (tickTbus (tickOuts (tickTime s))))

end Sys2Proof.Machine
end

