-- ==== Sys2Proof/Machine/Balls.lean ====
section
/-!
DEFINITION. Sys2Proof/Machine/Balls.lean: which signal, rail or ground every ball of the package carries (R418 to R422), the cells of the
boundary register (R432), and what the device drives on a signal's ball, under EXTEST and otherwise (R405, R423).
-/
namespace Sys2Proof.Machine
open Sys2Proof

/-- The supply rails (R427). -/
inductive Rail where
  | core | link | linkA | mem | io | hkA
  deriving DecidableEq, Repr

/-- The signals of one DRAM channel (R420); `b` names subchannel B. -/
inductive DramPin where
  | dq (n : Nat)
  | dqsP (q : Nat)
  | dqsN (q : Nat)
  | ca (b : Bool) (n : Nat)
  | cs (b : Bool) (n : Nat)
  | ckP (b : Bool)
  | ckN (b : Bool)
  | rst | alert | par | zq
  deriving DecidableEq, Repr

/-- The signals of the device; `n` is the negative leg of a pair, and lane 0 of a lane group is CK (R418 to R422). -/
inductive Pin where
  | lane (tx : Bool) (g lane : Nat) (n : Bool)
  | dram (channel : Nat) (p : DramPin)
  | tbus (k : Nat) (n : Bool)
  | tbusSync (n : Bool)
  | refIn (n : Bool)
  | xoIn | xoOut
  | epochOut (n : Bool)
  | tdcStart (n : Bool)
  | tdcStop (n : Bool)
  | ppsIn | musterIn | musterOut | trigVref
  | trigIn (j : Nat)
  | trigOut (j : Nat)
  | ain (j : Nat)
  | aref (n : Bool)
  | xdiode (n : Bool)
  | tdiodeA | tdiodeK
  | vsenseLink (n : Bool)
  | vsenseCore (n : Bool)
  | resetN | perstN | presenceN | tamperA | tamperB | smbClk | smbDat | smbAlertN
  | strap (j : Nat)
  | thermtripN | errorN
  | gpio (j : Nat)
  | qspiClk | qspiCsN
  | qspiIo (j : Nat)
  | tck | tms | tdi | tdo | trstN | testMode
  | pcieRx (l : Nat) (n : Bool)
  | pcieTx (l : Nat) (n : Bool)
  | pcieRefclk (n : Bool)
  | pcieClkreqN | pcieWakeN | pcieRcal
  | dpMain (d m : Nat) (n : Bool)
  | dpAux (d : Nat) (n : Bool)
  | dpHpd (d : Nat)
  deriving DecidableEq, Repr

/-- What a site of the array carries (R418). -/
inductive Site where
  | signal (p : Pin)
  | reserved
  | power (r : Rail)
  | vss
  deriving DecidableEq, Repr

/-! ### The zones (R418 to R422) -/

/-- A site of a lane group's block: relative row `k`, column 0 to 2 for A to C (R419). -/
def laneSite (tx : Bool) (g k col : Nat) : Site :=
  let neg := decide (k % 2 = 0)
  let pair := (k + 1) / 2
  match col with
  | 0 => .signal (.lane tx g pair neg)
  | 1 =>
    if pair = 1 then .signal (.lane tx g 0 neg)
    else if pair = 7 then .signal (.lane tx g 15 neg)
    else if neg || decide (pair = 2) then .vss
    else if pair = 4 then .power .linkA
    else .power .link
  | _ => .signal (.lane tx g (7 + pair) neg)

/-- The end column of the north or the south edge (R419). -/
def endSite (k : Nat) : Site := if k ≤ 4 then .reserved else if k ≤ 8 then .power .linkA else .power .link

/-- A site of the north or the south zone: `x` columns from its first block, `k` rows from the edge, groups from `g` on. -/
def edgeSite (g x k : Nat) : Site :=
  if x = 48 then endSite k else laneSite (decide (x / 3 % 2 = 1)) (g + x / 6) k (x % 3)

/-- The signal of a nibble's element: four DQ, then the DQS pair (R420). -/
def nibblePin (q e : Nat) : DramPin := if e < 4 then .dq (4 * q + e) else if e = 4 then .dqsP q else .dqsN q

/-- A site of the block of DRAM channel `n`, at relative row `k` and column `c` (R420). -/
def dramSite (n k c : Nat) : Site :=
  let pin := fun (p : DramPin) => Site.signal (.dram n p)
  if k ≤ 3 then
    let p := 20 * (k - 1) + (c - 1)
    pin (nibblePin (p / 6) (p % 6))
  else if 7 ≤ k then
    let p := 20 * (9 - k) + (c - 1)
    pin (nibblePin (10 + p / 6) (p % 6))
  else if k = 5 then
    match c with
    | 1 => pin .rst
    | 2 => pin .alert
    | 3 => pin .par
    | 4 => pin .zq
    | _ => if c % 2 = 0 ∧ c ≤ 16 then .power .mem else .vss
  else
    let b := decide (k = 6)
    if c ≤ 14 then pin (.ca b (c - 1))
    else if c ≤ 16 then pin (.cs b (c - 15))
    else if c = 17 then pin (.ckP b)
    else if c = 18 then pin (.ckN b)
    else if c = 19 then .vss
    else .power .mem

/-- The signals of the north-west zone (R421). -/
def northWestPin (r c : Nat) : Option Pin :=
  let four := fun (f : Nat → Pin) => if c % 2 = 1 ∧ c ≤ 7 then some (f (c / 2)) else none
  match r with
  | 1 | 2 =>
    let n := decide (r = 2)
    if c ≤ 8 then some (.tbus (c - 1) n)
    else match c with
      | 9 => some (.tbusSync n)
      | 11 => some (.refIn n)
      | 13 => some (if n then .xoOut else .xoIn)
      | _ => none
  | 4 => match c with
    | 1 => some (.epochOut false)
    | 3 => some (.tdcStart false)
    | 5 => some (.tdcStop false)
    | 7 => some .ppsIn
    | 9 => some .musterIn
    | 11 => some .musterOut
    | 13 => some .trigVref
    | _ => none
  | 5 => match c with
    | 1 => some (.epochOut true)
    | 3 => some (.tdcStart true)
    | 5 => some (.tdcStop true)
    | _ => none
  | 6 => four .trigIn
  | 7 => four .trigOut
  | 9 => match c with
    | 9 => some (.aref false)
    | 11 => some (.xdiode false)
    | 13 => some .tdiodeA
    | 14 => some .tdiodeK
    | _ => four .ain
  | 10 => match c with
    | 9 => some (.aref true)
    | 11 => some (.xdiode true)
    | 13 => some (.vsenseLink false)
    | 14 => some (.vsenseLink true)
    | _ => four (fun j => .ain (4 + j))
  | 11 => match c with
    | 13 => some (.vsenseCore false)
    | 14 => some (.vsenseCore true)
    | _ => none
  | 12 => match c with
    | 1 => some .resetN
    | 2 => some .perstN
    | 3 => some .presenceN
    | 4 => some .tamperA
    | 5 => some .tamperB
    | 6 => some .smbClk
    | 7 => some .smbDat
    | 8 => some .smbAlertN
    | 13 => some .thermtripN
    | 14 => some .errorN
    | _ => if 9 ≤ c ∧ c ≤ 12 then some (.strap (c - 9)) else none
  | 13 => if c ≤ 14 then some (.gpio (c - 1)) else none
  | 14 => match c with
    | 3 => some .qspiClk
    | 4 => some .qspiCsN
    | 9 => some .tck
    | 10 => some .tms
    | 11 => some .tdi
    | 12 => some .tdo
    | 13 => some .trstN
    | 14 => some .testMode
    | _ => if c ≤ 2 then some (.gpio (13 + c)) else if c ≤ 8 then some (.qspiIo (c - 5)) else none
  | _ => none

/-- A site of the north-west zone (R421). -/
def northWestSite (r c : Nat) : Site :=
  match northWestPin r c with
  | some p => .signal p
  | none =>
    if r = 8 ∧ c % 2 = 1 ∧ c ≤ 7 then .power .hkA
    else if r = 3 ∧ c % 2 = 0 ∧ c ≤ 14 then .power .io
    else if r = 11 ∧ (c % 2 = 1 ∧ c ≤ 7 ∨ 9 ≤ c ∧ c ≤ 12) then .power .io
    else .vss

/-- The signals of display `d`, `top` true for the upper of its two rows' legs (R422). -/
def displayPin (d c : Nat) (n : Bool) : Option Pin :=
  if c % 2 = 1 then none
  else if c ≤ 56 then some (.dpMain d ((c - 50) / 2) n)
  else if c = 58 then some (.dpAux d n)
  else if c = 60 ∧ !n then some (.dpHpd d)
  else none

/-- The signals of the south-east zone (R422). -/
def southEastPin (r c : Nat) : Option Pin :=
  match r with
  | 65 => some (.pcieRx (c - 50) false)
  | 64 => some (.pcieRx (c - 50) true)
  | 62 => some (.pcieTx (c - 50) false)
  | 61 => some (.pcieTx (c - 50) true)
  | 58 => match c with
    | 50 => some (.pcieRefclk false)
    | 52 => some .pcieClkreqN
    | 54 => some .pcieWakeN
    | 56 => some .pcieRcal
    | _ => none
  | 57 => if c = 50 then some (.pcieRefclk true) else none
  | 56 => displayPin 0 c false
  | 55 => displayPin 0 c true
  | 53 => displayPin 1 c false
  | 52 => displayPin 1 c true
  | _ => none

/-- A site of the south-east zone (R422). -/
def southEastSite (r c : Nat) : Site :=
  match southEastPin r c with
  | some p => .signal p
  | none =>
    if r = 59 ∨ r = 54 ∧ 58 ≤ c then .power .linkA
    else if r = 60 ∨ r = 57 ∧ 51 ≤ c ∨ r = 58 ∧ c = 65 then .power .link
    else .vss

/-- A site of the centre (R418). -/
def centreSite (c : Nat) : Site :=
  if c < 21 ∨ 45 < c then .vss
  else if (c - 21) % 5 = 0 ∨ (c - 21) % 5 = 3 then .vss
  else .power .core

/-- What the ball at row `r` and column `c`, each 1 to 65, carries (R418): every site belongs to one of the seven zones. -/
def site (r c : Nat) : Site :=
  if r ≤ 14 then (if c ≤ 16 then northWestSite r c else edgeSite 0 (c - 17) r)
  else if 52 ≤ r then (if 50 ≤ c then southEastSite r c else edgeSite 8 (49 - c) (66 - r))
  else if r ≤ 50 ∧ c ≤ 20 then dramSite ((r - 15) / 9) ((r - 15) % 9 + 1) c
  else if 16 ≤ r ∧ 46 ≤ c then dramSite (4 + (51 - r) / 9) ((51 - r) % 9 + 1) (66 - c)
  else centreSite c

/-! ### Boundary scan (R432) -/

/-- The signals whose balls the boundary register covers (R432). -/
def Pin.covered (p : Pin) : Bool :=
  match p with
  | .dram _ _ | .dpHpd _ | .pcieClkreqN | .pcieWakeN | .ppsIn | .musterIn | .musterOut | .trigIn _ | .trigOut _ | .gpio _
  | .qspiClk | .qspiCsN | .qspiIo _ | .resetN | .perstN | .presenceN | .tamperA | .tamperB | .smbClk | .smbDat | .smbAlertN
  | .strap _ | .thermtripN | .errorN => true
  | .lane .. | .tbus .. | .tbusSync _ | .refIn _ | .xoIn | .xoOut | .epochOut _ | .tdcStart _ | .tdcStop _ | .trigVref | .ain _
  | .aref _ | .xdiode _ | .tdiodeA | .tdiodeK | .vsenseLink _ | .vsenseCore _ | .tck | .tms | .tdi | .tdo | .trstN | .testMode
  | .pcieRx .. | .pcieTx .. | .pcieRefclk _ | .pcieRcal | .dpMain .. | .dpAux .. => false

/-- The covered balls that are inputs only (R421, R422; ALERT_N of a DRAM channel by JESD79-5, PRESUMED, log 38). -/
def Pin.inputOnly (p : Pin) : Bool :=
  match p with
  | .dpHpd _ | .ppsIn | .musterIn | .trigIn _ | .resetN | .perstN | .presenceN | .tamperB | .strap _ | .dram _ .alert => true
  | _ => false

/-- The covered signals of one row, in ascending column. -/
def coveredInRow (r : Nat) : List Pin :=
  (List.range 65).filterMap (fun c => match site r (c + 1) with
    | .signal p => if p.covered then some p else none
    | _ => none)

/-- The covered signals in the order of the boundary register: ascending row, then ascending column. -/
def coveredPins : List Pin := (List.range 65).flatMap (fun r => coveredInRow (r + 1))

/-- The first of a covered signal's three cells: input, output, enable. -/
def Pin.cell (p : Pin) : Option Nat := (coveredPins.idxOf? p).map (3 * ·)

/-! ### What the device drives (R405, R423) -/

/-- What the device puts on a ball: nothing, a level, or a signal of an interface that the state holds as messages and not as levels. -/
inductive Drive where
  | highZ
  | level (v : Bool)
  | wave
  deriving DecidableEq, Repr

/-- What the functions of the device drive on a signal's ball (R423, R425). -/
def State.functional (s : State) (p : Pin) : Drive :=
  let unlessOff := fun (d : Drive) => if s.dev = .off then .highZ else d
  let whileLow := fun (low : Bool) => if low then Drive.level false else .highZ
  match p with
  | .musterOut => unlessOff (.level s.pins.musterOut)
  | .epochOut n => unlessOff (.level (s.pins.epochOut != n))
  | .trigOut j => unlessOff (.level (s.pins.trigOut.toList.getD j false))
  | .tbus k n => if s.pins.tbusDrive.getLsbD k || s.pins.tbusNak.getLsbD k then unlessOff (.level (!n)) else .highZ
  | .tbusSync n => if s.pins.tbusSync then unlessOff (.level (!n)) else .highZ
  | .gpio j => unlessOff (if nbit (s.rdw .global 0x200) j then .level (nbit (s.rdw .global 0x208) j) else .highZ)
  | .thermtripN => whileLow s.pins.thermtrip
  | .errorN => whileLow s.errorLow
  | .dram ch .rst => unlessOff (.level (s.dramResetHigh ch))
  | .dram _ .alert | .refIn _ | .xoIn | .tdcStart _ | .tdcStop _ | .ppsIn | .musterIn | .trigVref | .trigIn _ | .ain _ | .aref _
  | .resetN | .perstN | .presenceN | .tamperB | .strap _ | .tck | .tms | .tdi | .trstN | .testMode | .pcieRx .. | .pcieRefclk _
  | .pcieClkreqN | .pcieWakeN | .pcieRcal | .dpHpd _ | .lane false .. => .highZ
  | .dram .. | .lane true .. | .xoOut | .xdiode _ | .tdiodeA | .tdiodeK | .vsenseLink _ | .vsenseCore _ | .tamperA | .smbClk
  | .smbDat | .smbAlertN | .qspiClk | .qspiCsN | .qspiIo _ | .tdo | .pcieTx .. | .dpMain .. | .dpAux .. => .wave

/-- EXTEST is in the instruction register. -/
def State.inExtest (s : State) : Bool := decide (s.obs.jtagIr = 0)

/-- What the device drives on a signal's ball. While EXTEST is in the instruction register a covered ball takes its boundary-register
value, and every uncovered output is at electrical idle or high impedance (R405, R432). -/
def State.drives (s : State) (p : Pin) : Drive :=
  if !s.inExtest then s.functional p
  else match p.cell with
    | some b =>
      if s.obs.boundary.getLsbD (b + 2) && !p.inputOnly then .level (s.obs.boundary.getLsbD (b + 1)) else .highZ
    | none => .highZ

end Sys2Proof.Machine
end

