-- ==== Sys2Proof/Safety.lean ====
section
/-!
DEFINITION. Sys2Proof/Safety.lean: the terms the statements use: what it is for a command to complete, the canonical form of the
memories and of the register map, and the invariant of every step.
-/
namespace Sys2Proof

/-- The memories are in canonical form: addresses strictly rising, and no entry equal to what an unlisted address reads as. -/
def Memory.wf (m : Machine.MemSt) : Bool :=
  SMap.wf Machine.zeroByte m.depot && m.lmem.toList.all (SMap.wf Machine.zeroByte) && m.imem.toList.all (SMap.wf Machine.zeroByte)
    && SMap.wf Machine.zeroByte m.dram && SMap.wf Machine.noBad m.depotBad && m.lmemBad.toList.all (SMap.wf Machine.noBad)
    && m.imemBad.toList.all (SMap.wf Machine.noBad) && SMap.wf Machine.noBad m.dramBad

namespace Machine

/-- The command completes: `exec` answers a next state, and that state satisfies `q`. -/
def Completes (c : Instr) (s : State) (q : State → Prop) : Prop := ∃ t, exec c s = .next t ∧ q t

/-- The invariant of every step: the register map, the memories of the device and the host's memory are in canonical form. -/
def State.Canonical (s : State) : Prop :=
  SMap.wf resetWord s.regs = true ∧ Memory.wf s.mem = true ∧ SMap.wf zeroByte s.host.mem = true

/-- A safe run: `k` steps that each answer a next state; no command of this device stops it. -/
def SafeRun : Nat → State → Prop
  | 0, _ => True
  | k + 1, s => ∃ t, step s = .next t ∧ SafeRun k t

/-- Every byte of every memory reads alike in two states. -/
def SameMemory (s t : State) : Prop :=
  (∀ m a, SMap.get zeroByte (t.sram m) a = SMap.get zeroByte (s.sram m) a) ∧
  (∀ a, SMap.get zeroByte t.mem.dram a = SMap.get zeroByte s.mem.dram a) ∧
  (∀ a, SMap.get zeroByte t.host.mem a = SMap.get zeroByte s.host.mem a)

/-- Every register word outside block `b` reads alike in two states. -/
def SameOutside (b : Blk) (s t : State) : Prop :=
  ∀ a, a / 0x10000 ≠ b.slot → t.word a = s.word a

/-- Every register word outside the blocks `bs` reads alike in two states. -/
def SameExcept (bs : List Blk) (s t : State) : Prop :=
  ∀ a, (∀ b ∈ bs, a / 0x10000 ≠ b.slot) → t.word a = s.word a

/-- A life-cycle advance in progress was accepted: its target is the state after the present one, at most RETURNED. -/
def State.lcSound (s : State) : Prop :=
  ∀ o, s.sec.op = some o → o.op = 7 → o.arg 0 = s.sec.lc.toNat + 1 ∧ o.arg 0 ≤ 3

/-! ### Register accesses (R5) -/

/-- Bit `i` of a register word after a write of `v` to its bits in `mask` (R5): LIVE and CNT bits take it, CFG bits while the block's
enable bit is 0 (`off`), W1C bits clear where a 1 is written, the others stay. -/
def bitAfter (x : WordAcc) (off : Bool) (mask old v i : Nat) : Bool :=
  (if nbit mask i && (nbit x.live i || (nbit x.cfg i && off)) then nbit v i else nbit old i)
    && !(nbit mask i && nbit x.w1c i && nbit v i)

/-! ### Commands of DEVICE_CTRL -/

/-- The bits of DEVICE_CTRL that give a command. -/
def deviceCommands (v : BitVec 64) : List Nat := (List.range 5).filter (fun k => v.getLsbD k)

/-- Does R15 list a transition for command bit `k` of DEVICE_CTRL from device state `d`? A full_reset also needs its key. -/
def listedTransition (d : DevState) (v : BitVec 64) : Nat → Bool
  | 0 => decide (d = .ready)
  | 1 => decide (d = .run)
  | 2 => decide (d = .ready)
  | 3 => decide (d = .standby)
  | _ => decide ((v >>> 8).toNat % 256 = 0xA5)

/-! ### Records and queues (R174 to R198) -/

/-- `r` is the first record on its way and the only one of its queue, and it holds a sequence; `rs` are the others. -/
def State.Sole (s : State) (r : Rec) (rs : List Rec) : Prop :=
  s.queue.recs = r :: rs ∧ r.count = 0 ∧ r.q < 2 ^ 20 ∧ ∀ x ∈ rs, x.q ≠ r.q

/-- No uncorrectable error stands in the copy of context `q` that is read (R197). -/
def State.ctxSound (s : State) (q : Nat) : Prop :=
  (if s.cached q then (s.ways q).any (fun w => decide (w.q = q) && w.bad) else s.badLine (s.ctxAddr q)) = false

/-- Every DRAM channel serves requests and none is isolated (R18, R23). -/
def State.memReady (s : State) : Prop := ∀ c : Fin 8, s.dramServes c.val = true ∧ s.wedged (.dram c.val) = false

/-- The register blocks of the DRAM channels. -/
def dramBlks : List Blk := (List.range 8).map Blk.dram

/-! ### The Alnen core (R225 to R241) -/

/-- Scalar register `n` as a word. -/
def CoreSt.sreg (k : CoreSt) (n : Nat) : W32 := SMap.get (fun _ => 0) k.s n

/-- Predicate register `n` as a byte. -/
def CoreSt.preg (k : CoreSt) (n : Nat) : Byte := SMap.get predZero k.p n

/-- Scalar register `n` takes `v`; S0 takes nothing (R225). -/
def CoreSt.setS (k : CoreSt) (n : Nat) (v : W32) : CoreSt := if n = 0 then k else { k with s := SMap.set (fun _ => 0) k.s n v }

/-- Predicate register `n` takes `v`; P0 takes nothing (R225). -/
def CoreSt.setP (k : CoreSt) (n : Nat) (v : Byte) : CoreSt := if n = 0 then k else { k with p := SMap.set predZero k.p n v }

/-- The register files after a list of results. -/
def CoreSt.puts (k : CoreSt) (rs : List (Dst × Int)) : CoreSt := rs.foldl (fun k r => k.put r.1 r.2) k

/-- The core with the results of one syllable in flight that land `n` bundles from now; `res`: its first carries a residue error (R228). -/
def CoreSt.flying (k : CoreSt) (n slot : Nat) (inter res : Bool) (rs : List (Dst × Int)) : CoreSt :=
  { k with pipe := rs.zipIdx.map (fun r => ⟨r.1.1, r.1.2, n, slot, inter, false, decide (r.2 = 0), res && decide (r.2 = 0)⟩) }

/-- The core issues and stands between two bundles, with nothing in flight, no active loop level, and a bundle after this one. -/
def State.Quiet (s : State) (c : Fin 17) : Prop :=
  s.issues c = true ∧ (s.cores[c]).pipe = [] ∧ (s.cores[c]).squash = false ∧ (s.cores[c]).ctl = none ∧ (s.cores[c]).newWait = none
    ∧ (s.cores[c]).exc = none ∧ (∀ k : Fin 3, s.loopOn c.val k.val = false) ∧ s.pc c.val < 16383

/-- The bundle has issued whole and bundle `n` is next: the core is `k`, one bundle more is counted, CSW.ovf is set if `ovf`. Nothing
else differs from `s`. -/
def State.issued (s : State) (c : Fin 17) (k : CoreSt) (ovf : Bool) (n : Nat) : State :=
  let s := s.setCore c k
  let s := if ovf then setOvf c.val s else s
  (s.cnt (.core c.val) R.CORE_BUNDLES.count 1).wr (.core c.val) R.CORE_STATUS.pc n

/-- The bundle has issued whole and the one after it is next. -/
def State.bundleDone (s : State) (c : Fin 17) (k : CoreSt) (ovf : Bool) : State := s.issued c k ovf (s.pc c.val + 1)

/-- The lanes a vector syllable is guarded in. -/
def State.lanesOn (s : State) (c : Fin 17) (y : Syl) : List Nat := (List.range 8).filter (s.guard c y)

/-- Results of the lanes `ls` of a vector or accumulator register, and whether one did not fit `w` bits. -/
def laneFits (w : Nat) (sat_ : Bool) (dst : Nat → Dst) (ls : List Nat) (f : Nat → Int) : List (Dst × Int) × Bool :=
  (ls.map (fun l => (dst l, (fit w sat_ (f l)).1)), ls.any (fun l => (fit w sat_ (f l)).2))

/-- Results with the overflow flag as the last of them. -/
def withOvf (x : List (Dst × Int) × Bool) : List (Dst × Int) := x.1 ++ (if x.2 then [(.ovf, 1)] else [])

end Machine
end Sys2Proof
end

