-- ==== Sys2Proof/Certificates/Slice0/Obligations.lean ====
section
/-!
DEFINITION. Sys2Proof/Certificates/Slice0/Obligations.lean: the statements about the device. Each says what it states and cites the
rules of spec/ it rests on; `Completes c s q` says that command `c` at state `s` answers a next state, for which `q` holds.
-/
open Sys2Proof Sys2Proof.Machine

/-! ### The queue, resets, and the device as a whole -/

/-- A step takes the command at the front of the queue and runs it on the rest. -/
def Obligations.StepRunsFrontCommand : Prop :=
  ∀ (c : Instr) (cs : List Instr) (s : State), s.pending = c :: cs → step s = exec c { s with pending := cs }

/-- With an empty queue one TIME tick of 1.25 ns passes (the model's choice, log 2): the counter of a running, ungated TIME domain
advances by 1.25 ns, in units of 2^-16 ns, and no memory, pin or device state changes. -/
def Obligations.EmptyQueueIsOneTick : Prop :=
  ∀ s : State, s.pending = [] → s.dev ≠ .off → s.tim.running = true → s.tim.shadow = none →
    ∃ t, step s = .next t ∧ t.tim.now = s.tim.now + 81920 ∧ t.tim.raw = s.tim.raw + 81920 ∧ t.pending = [] ∧ t.dev = s.dev ∧ t.mem = s.mem
      ∧ t.host.mem = s.host.mem

/-- No command stops the block, and none touches the queue: in every state every command answers a next state whose queue is the
queue it was given. -/
def Obligations.CommandsKeepQueue : Prop :=
  ∀ (c : Instr) (s : State), Completes c s (fun t => t.pending = s.pending)

/-- What the spec gives for reset: BOOT, all blocks with an enable disabled, slice 16 in the spare role and in MAINTAIN, the roles and
retired mask clear, the secure region unset, the muster unit armed, SRAM clear, no waiting command. -/
def Obligations.ResetHolds : Prop :=
  let s := State.reset
  s.dev = .boot ∧ s.pending = [] ∧
  (∀ b ∈ Blk.all, s.rd b R.BLOCK_STATUS.enabled = bit b.alwaysOn) ∧
  (∀ b ∈ Blk.all, s.word b.base = BitVec.ofNat 64 (b.typeCode + 0x10000 * b.index + 0x1000000)) ∧
  (∀ i : Fin 17, s.rd (.core i.val) R.SLICE_MODE.role = if i = 16 then 1 else 0) ∧
  s.word (Blk.global.base + 0x040) = 0x512000B1 ∧
  s.sec.region = Region.empty ∧ s.rd .muster R.MUSTER_STATUS.armed = 1 ∧
  (∀ m a, SMap.get zeroByte (s.sram m) a = 0)

/-- The reset state is in canonical form. -/
def Obligations.ResetIsCanonical : Prop := State.reset.Canonical

/-- HEADLINE. Whatever command runs, and while none waits, a step keeps the register map and every memory in canonical form, so that
equal contents are equal data in every state the device can be in. -/
def Obligations.StepKeepsCanonical : Prop :=
  ∀ s t : State, s.Canonical → step s = .next t → t.Canonical

/-- HEADLINE. The life-cycle state moves only forward, one step at a time (R398): from every state in which an advance in progress
was accepted, every step leads to such a state, and leaves the life-cycle state or moves it one step forward. -/
def Obligations.LifeCycleOnlyAdvances : Prop :=
  ∀ s t : State, s.lcSound → step s = .next t →
    t.lcSound ∧ (t.sec.lc = s.sec.lc ∨ t.sec.lc.toNat = s.sec.lc.toNat + 1)

/-! ### Power, resets, boot, DEVICE_CTRL (R15, R45, R385 to R392) -/

/-- Power, RESET_N and the full device reset end in the state and with the cause the rules give; in BOOT a valid image is accepted and its IDs
passed, with none left the failure is recorded, and at the end the device is READY (R15, R385, R388 to R391, R428). -/
def Obligations.PowerResetsAndBoot : Prop :=
  (∀ (s : State) (k : BitVec 4), s.dev = .off → Completes (.powerOn k) s (fun t =>
    t.dev = .boot ∧ t.rd .global R.STRAPS.straps = k.toNat ∧ t.pins.supplies = true ∧ t.pins.resetN = true
      ∧ t.mem.depot = [] ∧ t.queue = QueueSt.zero ∧ t.sec.lc = s.sec.lc)) ∧
  (∀ s : State, Completes .supplyLoss s (fun t => t.dev = .off ∧ t.pins.supplies = false ∧ t.sec.lc = s.sec.lc)) ∧
  (∀ s : State, s.dev ≠ .off → Completes .resetN s (fun t =>
    t.dev = .boot ∧ t.pins.resetN = false ∧ t.pins.thermtrip = false ∧ t.rd .clocks R.CLK_RESET_CAUSE.cause = 1
      ∧ t.rd .clocks R.CLK_RESET_CAUSE.boots = min 65535 (s.rd .clocks R.CLK_RESET_CAUSE.boots + 1) ∧ t.queue = QueueSt.zero)) ∧
  (∀ (s : State) (k : BitVec 4) (test : Bool), s.pins.resetN = false → s.dev = .boot → Completes (.resetRelease k test) s (fun t =>
    t.dev = .boot ∧ t.pins.resetN = true ∧ t.pins.testMode = test ∧ t.rd .global R.STRAPS.straps = k.toNat)) ∧
  (∀ (s : State) (k : BitVec 4) (test : Bool), s.dev = .off → Completes (.resetRelease k test) s (fun t =>
    t.dev = .boot ∧ t.pins.resetN = true ∧ t.rd .global R.STRAPS.straps = k.toNat)) ∧
  (∀ s : State, s.dev ≠ .off → s.dev ≠ .boot → Completes (.fullReset 0xA5) s (fun t =>
    t.dev = .boot ∧ t.rd .clocks R.CLK_RESET_CAUSE.cause = 2 ∧ t.rd .global R.STRAPS.straps = s.rd .global R.STRAPS.straps
      ∧ t.cores = Vector.replicate 17 CoreSt.zero ∧ t.queue = QueueSt.zero ∧ t.sec.region = Region.empty)) ∧
  (∀ s : State, Completes .thermtrip s (fun t => t = { s with pins.thermtrip := true })) ∧
  (∀ (s : State) (a b : List Byte) (ok : Bool) (k : Fin 2), s.dev = .boot → s.pins.resetN = true → s.boot.verified = none →
    s.nextImage (s.images a b).1 (s.images a b).2 = some k →
    imageCheck (if k = 0 then (s.images a b).1 else (s.images a b).2) ok = 0 →
    Completes (.bootImageVerified a b ok) s (fun t => t.boot.verified = some k ∧ t.boot.idsPassed = true ∧ t.dev = .boot)) ∧
  (∀ s : State, s.dev = .boot → (s.pllRuns 0 && s.pllRuns 1 && s.pllRuns 3) = false →
    Completes (.bootTimeout true) s (fun t => t.rd .clocks R.BOOT_STATUS.fail = 2 ∧ t.dev = .boot)) ∧
  (∀ s : State, s.dev = .boot → s.boot.verified = none → s.boot.triedA = true → s.boot.triedB = true →
    Completes (.bootTimeout false) s (fun t => t.rd .clocks R.BOOT_STATUS.fail = 1 ∧ t.dev = .boot)) ∧
  (∀ (s : State) (f : List (SramId × Nat)) (tr : List TrainResult) (gs : List GatherResult), s.dev = .boot → s.pins.resetN = true →
    s.pins.testMode = false → s.boot.verified.isSome = true → (s.pllRuns 0 && s.pllRuns 1 && s.pllRuns 3) = true →
    s.rd .clocks R.BOOT_STATUS.fail = 0 → Completes (.bootComplete f tr gs) s (fun t =>
      t.dev = .ready ∧ t.mem.depot = [] ∧ (∀ i : Fin 17, t.mem.lmem[i] = [] ∧ t.mem.imem[i] = [])))

/-- RUN, STOP, DEVICE_STOPPED, STANDBY, WAKE and WAKE_COMPLETE make the transitions of R15 and show their result in DEVICE_CTRL. -/
def Obligations.DeviceControl : Prop :=
  (∀ s : State, s.dev = .ready → Completes .run s (fun t =>
    t.dev = .run ∧ t.stopped = [] ∧ t.rd .global R.DEVICE_CTRL.last_cmd = 1 ∧ t.rd .global R.DEVICE_CTRL.last_status = 0)) ∧
  (∀ s : State, s.dev = .run → s.flag .global R.DEVICE_CTRL.stop = false → Completes .stop s (fun t =>
    t.rd .global R.DEVICE_CTRL.stop = 1 ∧ t.rd .global R.DEVICE_CTRL.last_cmd = 2 ∧ t.rd .global R.DEVICE_CTRL.last_status = 1
      ∧ t.stopped = ((List.range 17).flatMap sliceSlots).filter s.enabled)) ∧
  (∀ s : State, s.dev = .run → s.flag .global R.DEVICE_CTRL.stop = true → s.stopped.any s.enabled = false →
    Completes .deviceStopped s (fun t => t.dev = .ready ∧ t.rd .global R.DEVICE_CTRL.stop = 0 ∧ t.mem = s.mem ∧ t.stopped = s.stopped)) ∧
  (∀ s : State, s.dev = .ready → s.standbyRefused = false → Completes .standby s (fun t =>
    t.dev = .standby ∧ t.rd .global R.DEVICE_CTRL.last_cmd = 3 ∧ t.rd .global R.DEVICE_CTRL.last_status = 0
      ∧ t.queue = QueueSt.zero ∧ t.cores = Vector.replicate 17 CoreSt.zero ∧ t.sec = s.sec)) ∧
  (∀ s : State, s.dev = .standby → Completes (.wake none) s (fun t =>
    t.dev = .standby ∧ t.boot.waking = true ∧ t.rd .global R.DEVICE_CTRL.last_status = 1 ∧ t.rd .global R.DEVICE_CTRL.last_cmd = 4)) ∧
  (∀ (s : State) (e : GpioEdge), s.dev = .standby → nbit (s.rd .clocks R.WAKE_CFG.enable) e.pin.val = true →
    nbit (s.rd .clocks R.WAKE_CFG.edge) e.pin.val = e.falling → Completes (.wake (some e)) s (fun t =>
      t.boot.waking = true ∧ nbit t.pins.gpio.toNat e.pin.val = !e.falling ∧ t.regs = s.regs)) ∧
  (∀ (s : State) (tr : List (List Int × List Int)) (gs : List GatherResult), s.dev = .standby → s.boot.waking = true →
    (s.pllRuns 0 && s.pllRuns 1) = true → Completes (.wakeComplete tr gs) s (fun t =>
      t.dev = .ready ∧ t.boot.waking = false ∧ t.rd .global R.DEVICE_CTRL.wake = 0))

/-- R45: a write to DEVICE_CTRL that sets more than one command bit, one whose transition R15 does not list from the present state, and
a full_reset without the key are rejected: last_status is 2, last_cmd names the lowest command bit written, the state stays. -/
def Obligations.DeviceCtrlRejects : Prop :=
  ∀ (s : State) (w : Nat) (v : BitVec 64) (k : Nat) (ks : List Nat), s.dev ≠ .off → s.dev ≠ .boot → s.barOpen = true →
    w = 32 ∨ w = 64 → deviceCommands v = k :: ks → (ks ≠ [] ∨ listedTransition s.dev v k = false) →
    Completes (.registerWrite .host 0x110 w v) s (fun t =>
      t.rd .global R.DEVICE_CTRL.last_status = 2 ∧ t.rd .global R.DEVICE_CTRL.last_cmd = k + 1 ∧ t.dev = s.dev
        ∧ t.mem = s.mem ∧ t.cores = s.cores ∧ t.queue = s.queue)

/-! ### Blocks, loops, ramps, muster, register accesses (R5, R19, R22 to R45, R379 to R384) -/

/-- Enable, refused enable, quiesce, its acknowledgement and a wedge change the header of the block as R22, R23 and R32 say: for every
block with an enable, on the block's own tests alone. -/
def Obligations.BlockHandshake : Prop :=
  (∀ (s : State) (b : Blk), s.reaches b = true → b.alwaysOn = false → s.flag b R.BLOCK_STATUS.wedged = false →
    s.rd b R.BLOCK_STATUS.enabled = 0 → (s.wr b R.BLOCK_CTRL.enable 1).enableRefuses b = false → Completes (.enable b) s (fun t =>
      t.rd b R.BLOCK_STATUS.enabled = 1 ∧ t.rd b R.BLOCK_CTRL.enable = 1 ∧ t.dev = s.dev)) ∧
  (∀ (s : State) (b : Blk), [Blk.depot, .dma, .queue, .placement, .timebase, .tdc, .housekeeping].contains b = true → s.reaches b = true →
    s.flag b R.BLOCK_STATUS.wedged = false → s.rd b R.BLOCK_STATUS.enabled = 0 → Completes (.enable b) s (fun t =>
      t.mem = s.mem ∧ t.cores = s.cores ∧ SameOutside b s t)) ∧
  (∀ (s : State) (b : Blk), s.reaches b = true → b.alwaysOn = false → s.flag b R.BLOCK_STATUS.wedged = false →
    s.rd b R.BLOCK_STATUS.enabled = 0 → (s.wr b R.BLOCK_CTRL.enable 1).enableRefuses b = true → Completes (.enable b) s (fun t =>
      t.rd b R.BLOCK_STATUS.enabled = 0 ∧ t.mem = s.mem ∧ t.cores = s.cores ∧ SameExcept [b, .chan] s t)) ∧
  (∀ (s : State) (d : Fin 2), s.reaches (.display d) = true → s.flag (.display d) R.BLOCK_STATUS.wedged = false →
    s.rd (.display d) R.BLOCK_STATUS.enabled = 0 → s.dispRefuses d = true → Completes (.enable (.display d)) s (fun t =>
      t.rd (.display d) R.BLOCK_STATUS.enabled = 0 ∧ t.rd (.display d) R.DISP_EVENTS.cfg_invalid = 1
        ∧ t.rd (.display d) R.BLOCK_STATUS.fault = 1 ∧ SameOutside (.display d) s t)) ∧
  (∀ (s : State) (b : Blk), s.reaches b = true → b.alwaysOn = false → s.flag b R.BLOCK_STATUS.wedged = true →
    Completes (.enable b) s (fun t => t.rd b R.BLOCK_CTRL.enable = s.rd b R.BLOCK_CTRL.enable ∧
      t.rd b R.BLOCK_STATUS.enabled = s.rd b R.BLOCK_STATUS.enabled ∧ t.rd b R.BLOCK_STATUS.locked_write = 1 ∧ SameOutside b s t)) ∧
  (∀ (s : State) (b : Blk), s.reaches b = true → b.alwaysOn = false → (b = .check → s.declsLive = false) → s.enabled b = true →
    s.flag b R.BLOCK_STATUS.quiescing = false → Completes (.quiesce b) s (fun t =>
      t.rd b R.BLOCK_STATUS.quiescing = 1 ∧ t.rd b R.BLOCK_STATUS.enabled = 1 ∧ t.rd b R.BLOCK_CTRL.enable = 0)) ∧
  (∀ (s : State) (b : Blk), s.reaches b = true → b.alwaysOn = false → (b = .check → s.declsLive = false) → s.enabled b = true →
    s.flag b R.BLOCK_STATUS.quiescing = false → (∀ r : Fin 256, s.ringState r = 0 ∨ s.ringState r = 4) →
    Completes (.quiesce b) s (fun t => SameOutside b s t ∧ t.mem = s.mem)) ∧
  (∀ (s : State) (b : Blk), s.reaches b = true → b.alwaysOn = false → s.canAck b = true → s.pl.jobs = [] →
    s.rd b R.BLOCK_CTRL.enable = 0 → Completes (.quiesceAck b) s (fun t =>
      t.rd b R.BLOCK_STATUS.enabled = 0 ∧ t.rd b R.BLOCK_STATUS.quiescing = 0 ∧ t.enabled b = false)) ∧
  (∀ (s : State) (b : Blk) (since : Nat), b.real = true → b.alwaysOn = false → s.flag b R.BLOCK_STATUS.quiescing = true →
    s.flag b R.BLOCK_STATUS.wedged = false → s.domRuns b.dom = true → s.quiescedAt b = some since →
    since + 100 * usUnits ≤ s.tim.raw → Completes (.wedged (.blk b)) s (fun t =>
      t.rd b R.BLOCK_STATUS.wedged = 1 ∧ t.enabled b = false)) ∧
  (∀ s : State, s.coreRuns = true → Completes (.wedged .sampleCrossbar) s (fun t =>
    nbit (t.rd .global R.DEVICE_STATE.shared_wedged) 0 = true))

/-- Loss of lock gates a loop and counts it, and of PLL_CORE is entry into HOLD; a declared lock, after its 8 windows, ungates the loop; a
ramp starts after its checks with a placement cause or is refused with its reason, a segment whose duration is over hands over to the next
and the last one to the placement engine, and abort stops at the present frequency (R15, R17, R379, R381, R383, R384). -/
def Obligations.LoopsAndRamps : Prop :=
  (∀ (s : State) (p : Fin 10), 4 ≤ p.val → s.pllRuns p = true → Completes (.lossOfLock p) s (fun t =>
    t.pllRuns p = false ∧ nbit (t.rd .clocks R.CLK_STATUS.gated) p = true ∧
    t.rd .clocks (R.CLK_LOSSES.losses p) = min (s.rd .clocks (R.CLK_LOSSES.losses p) + 1) 65535 ∧ t.dev = s.dev ∧ t.mem = s.mem
    ∧ SameExcept (Blk.clocks :: (List.range 16).map Blk.txg) s t)) ∧
  (∀ s : State, s.pllRuns 0 = true → s.dev = .ready ∨ s.dev = .run → Completes (.lossOfLock 0) s (fun t =>
    t.dev = .hold ∧ t.coreRuns = false)) ∧
  (∀ (s : State) (p : Fin 10), 4 ≤ p.val → s.pllRuns p = false → s.pllRef p = true → s.pllKept p = true → s.mayLock p = true →
    Completes (.lockDeclared p) s (fun t => t.pllRuns p = true ∧
      t.rd .clocks (R.CLK_LOSSES.relocks p) = min (s.rd .clocks (R.CLK_LOSSES.relocks p) + bit (nbit (s.rd .clocks R.CLK_STATUS.gated) p)) 65535
      ∧ t.dev = s.dev ∧ t.mem = s.mem ∧ SameExcept (Blk.clocks :: (List.range 16).map Blk.txg) s t)) ∧
  (∀ (s : State) (p : Fin 10), s.mayLock p = false → Completes (.lockDeclared p) s (fun t => t = s)) ∧
  (∀ s : State, s.dev = .ready ∨ s.dev = .run → s.rampRefusal = 0 → s.rampSegs.all (fun g => s.inBand g.target) = true →
    Completes .rampGo s (fun t =>
      t.rd .clocks R.CLK_RAMP_CTRL.go = 1 ∧ t.rd .clocks R.CLK_RAMP_CTRL.last_status = 1 ∧ t.rd .clocks R.CLK_STATUS.ramp_state = 1
        ∧ t.rd .clocks R.CLK_CORE.freq = s.rd .clocks R.CLK_CORE.freq ∧ t.clk.ramp = s.rampSegs ∧ t.causes.length = s.causes.length + 1)) ∧
  (∀ s : State, s.dev ≠ .off → s.dev ≠ .boot → s.rampRefusal ≠ 0 → Completes .rampGo s (fun t =>
    t.rd .clocks R.CLK_RAMP_CTRL.last_status = 2 ∧ t.rd .clocks R.CLK_RAMP_CTRL.refuse_cause = s.rampRefusal ∧ t.clk = s.clk
      ∧ t.causes = s.causes)) ∧
  (∀ (s : State) (g h : RampSeg) (gs : List RampSeg), s.rd .clocks R.CLK_STATUS.ramp_state = 2 → s.clk.ramp = g :: h :: gs →
    s.clk.segAt + max 1 g.micros * usUnits ≤ s.tim.raw → Completes .rampSegmentEnd s (fun t =>
      t.clk.ramp = h :: gs ∧ t.clk.from_ = g.target ∧ t.clk.segAt = s.clk.segAt + max 1 g.micros * usUnits ∧
      t.rd .clocks R.CLK_STATUS.ramp_segment = (s.rd .clocks R.CLK_STATUS.ramp_segment + 1) % 16 ∧ t.causes = s.causes)) ∧
  (∀ (s : State) (g : RampSeg), s.rd .clocks R.CLK_STATUS.ramp_state = 2 → s.clk.ramp = [g] →
    s.clk.segAt + max 1 g.micros * usUnits ≤ s.tim.raw → Completes .rampSegmentEnd s (fun t =>
      t.clk.ramp = [] ∧ t.rd .clocks R.CLK_STATUS.ramp_state = 1 ∧ t.rd .clocks R.CLK_CORE.freq = g.target % 8192
      ∧ t.causes = s.causes ++ [⟨7, g.target⟩])) ∧
  (∀ s : State, s.dev ≠ .off → s.dev ≠ .boot → s.rd .clocks R.CLK_STATUS.ramp_state = 2 → Completes .rampAbort s (fun t =>
    t.rd .clocks R.CLK_STATUS.ramp_state = 0 ∧ t.clk.ramp = [] ∧ t.rd .clocks R.CLK_RAMP_CTRL.go = 0 ∧
      t.rd .clocks R.CLK_CORE.freq = s.coreFreqNow % 8192 ∧ t.rd .clocks R.CLK_RAMP_CTRL.last_cmd = 2))

/-- The four sources of a muster leave their request for the next TIME tick; a request that finds the unit unarmed is declined and
counted; the muster itself sets busy, advances its number and raises MUSTER_OUT; busy clears, and the unit rearms (R39 to R44). -/
def Obligations.MusterCycle : Prop :=
  (∀ s : State, s.dev ≠ .off → s.dev ≠ .boot → s.timeRuns = true → s.rd .muster R.MUSTER_STATUS.armed = 1 →
    s.rd .muster R.MUSTER_STATUS.busy = 0 → Completes .musterFire s (fun t => t.muster.req = s.muster.req ||| 1 ∧ t.rd .muster R.MUSTER_CTRL.fire = 1
      ∧ t.rd .muster R.MUSTER_DECLINED.count = s.rd .muster R.MUSTER_DECLINED.count)) ∧
  (∀ s : State, s.dev ≠ .off → s.dev ≠ .boot → s.timeRuns = true → (s.rd .muster R.MUSTER_STATUS.armed = 0 ∨ s.rd .muster R.MUSTER_STATUS.busy = 1) →
    Completes .musterFire s (fun t => t.muster.req = s.muster.req ∧ t.rd .muster R.MUSTER_CTRL.fire = 0 ∧
      t.rd .muster R.MUSTER_DECLINED.count = min (s.rd .muster R.MUSTER_DECLINED.count + 1) (2 ^ 32 - 1) ∧
      nbit (t.rd .muster R.MUSTER_STATUS.last_declined_sources) 0 = true)) ∧
  (∀ (s : State) (falling : Bool), s.timeRuns = true → s.flag .muster R.MUSTER_CTRL.in_enable = true →
    s.flag .muster R.MUSTER_CTRL.in_edge = falling → s.rd .muster R.MUSTER_STATUS.armed = 1 → s.rd .muster R.MUSTER_STATUS.busy = 0 →
    Completes (.musterInEdge falling) s (fun t => t.muster.req = s.muster.req ||| 2 ∧ t.regs = s.regs)) ∧
  (∀ s : State, s.dev ≠ .off → s.dev ≠ .boot → Completes .schedArm s (fun t => t.rd .muster R.MUSTER_CTRL.sched_arm = 1 ∧ SameOutside .muster s t)) ∧
  (∀ s : State, s.timeRuns = true → s.flag .muster R.MUSTER_CTRL.sched_arm = true → s.rd .muster R.MUSTER_STATUS.armed = 1 →
    s.rd .muster R.MUSTER_STATUS.busy = 0 → ofT96 (s.rdT96 .muster R.MUSTER_SCHED_T96.lo) ≤ s.tim.now →
    Completes .scheduledMuster s (fun t => t.muster.req = s.muster.req ||| 4 ∧ t.regs = s.regs)) ∧
  (∀ s : State, s.timeRuns = true → s.muster.req ≠ 0 → s.dev ≠ .standby → s.flag .muster R.MUSTER_CTRL.out_enable = true →
    Completes .muster s (fun t => t.muster.req = 0 ∧ t.pins.musterOut = true ∧ t.rd .muster R.MUSTER_STATUS.busy = 1 ∧
      t.rd .muster R.MUSTER_STATUS.armed = 0 ∧ t.rd .muster R.MUSTER_SEQ.seq = (s.rd .muster R.MUSTER_SEQ.seq + 1) % 2 ^ 32 ∧
      t.rd .muster R.MUSTER_STATUS.last_sources = s.muster.req.toNat)) ∧
  (∀ s : State, s.flag .muster R.MUSTER_STATUS.busy = true → Completes .busyClear s (fun t =>
    t.rd .muster R.MUSTER_STATUS.busy = 0 ∧ t.rd .muster R.MUSTER_STATUS.armed =
      if s.flag .muster R.MUSTER_CTRL.auto_rearm || s.muster.rearm then 1 else s.rd .muster R.MUSTER_STATUS.armed)) ∧
  (∀ s : State, s.dev ≠ .off → s.dev ≠ .boot → s.flag .muster R.MUSTER_STATUS.busy = false → Completes .rearm s (fun t =>
    t.rd .muster R.MUSTER_STATUS.armed = 1 ∧ t.muster.rearm = false ∧ SameOutside .muster s t)) ∧
  (∀ s : State, s.dev ≠ .off → s.dev ≠ .boot → s.flag .muster R.MUSTER_STATUS.busy = true → Completes .rearm s (fun t =>
    t.muster.rearm = true ∧ t.rd .muster R.MUSTER_STATUS.armed = s.rd .muster R.MUSTER_STATUS.armed)) ∧
  (∀ s : State, Completes .musterOutEnd s (fun t => t = { s with pins.musterOut := false }))

/-- The registers CLOCKS, AUTH and HOUSEKEEPING latch at a muster (R399, R416), by block and offset. -/
def Sys2Proof.Expected.hkLatched : List (Blk × Nat) :=
  [(.clocks, 0x040), (.clocks, 0x048)] ++ (List.range 10).map (fun p => (.clocks, 0x140 + 8 * p)) ++
  [(.auth, 0x048), (.auth, 0x070), (.auth, 0x078), (.auth, 0x080), (.housekeeping, 0x058), (.housekeeping, 0x410)] ++
  (List.range 32).map (fun k => (.housekeeping, 0x100 + 8 * k)) ++ (List.range 14).map (fun k => (.housekeeping, 0x220 + 8 * k))

/-- The offsets of the registers OBSERVE latches at a muster (R416). -/
def Sys2Proof.Expected.observeLatched : List Nat := [0x048, 0x050] ++ (List.range 64).map (fun i => 0x400 + 8 * i)

/-- At each muster CLOCKS, AUTH and HOUSEKEEPING copy their listed registers to offset + 0x800 and record the muster's number, HOLD
included; OBSERVE does so while the CORE clock runs, and in HOLD it keeps its former copies and number (R399, R416). -/
def Obligations.SnapshotsAtMuster : Prop :=
  ∀ s : State, s.timeRuns = true → s.muster.req ≠ 0 → s.dev ≠ .off → s.dev ≠ .standby → Completes .muster s (fun t =>
    (∀ p ∈ Sys2Proof.Expected.hkLatched, t.word (p.1.base + p.2 + 0x800) = s.live p.1 p.2) ∧
    (∀ b ∈ [Blk.clocks, Blk.auth, Blk.housekeeping], t.rd b R.SNAP_SEQ.seq = (s.rd .muster R.MUSTER_SEQ.seq + 1) % 2 ^ 32) ∧
    (s.coreRuns = true → t.rd .observe R.SNAP_SEQ.seq = (s.rd .muster R.MUSTER_SEQ.seq + 1) % 2 ^ 32 ∧
      ∀ o ∈ Sys2Proof.Expected.observeLatched, t.word (Blk.observe.base + o + 0x800) = s.live .observe o) ∧
    (s.dev = .hold → t.rd .observe R.SNAP_SEQ.seq = s.rd .observe R.SNAP_SEQ.seq ∧
      ∀ o ∈ Sys2Proof.Expected.observeLatched, t.word (Blk.observe.base + o + 0x800) = s.word (Blk.observe.base + o + 0x800)) ∧
    t.mem = s.mem)

/-- Register accesses: every bit of the word written follows its access type (R5), shown on CHECK for the host and management ports and
on a core's INT_EN for its own port; a CFG word of an enabled block keeps its value and the attempt is recorded, a locked one likewise; an
access that decoding rejects is a bus error and changes nothing else of the device. A read answers the word as it stands or as the latch
holds it and changes nothing but that port's latch, the answer, and the marks of the register ferries (R18, R19); a read of the low word
of a T96 register loads the latch with both words; hwm_clear sets the mark to the present level (R26, R30, R33, R34, R37). -/
def Obligations.RegisterAccesses : Prop :=
  (∀ (s : State) (p : Port) (o w : Nat) (x : RegAt) (v : BitVec 64), s.dev ≠ .off → s.dev ≠ .boot → p = .mgmt ∨ (p = .host ∧ s.barOpen = true) →
    o < 0x10000 → o / 8 ≠ 1 → Blk.check.regAt (o / 8 * 8) = some x → w = 32 ∨ w = 64 → o % (w / 8) = 0 →
    Completes (.registerWrite p (Blk.check.base + o) w v) s (fun t =>
      (∀ i : Fin 64, (t.word (Blk.check.base + o / 8 * 8)).getLsbD i =
        bitAfter x.acc (s.rd .check R.BLOCK_STATUS.enabled = 0) (coverMask o w) (s.rdw .check (o / 8 * 8)) (writeValue o w v.toNat) i)
      ∧ SameExcept [.check, .global] s t ∧ t.mem = s.mem ∧ t.cores = s.cores)) ∧
  (∀ (s : State) (v : BitVec 64), s.dev ≠ .off → s.dev ≠ .boot → s.barOpen = true →
    Completes (.registerWrite .host 0x128 64 v) s (fun t => t.word 0x128 = v ∧
      (∀ a, a ≠ 0x128 → a ≠ 0x140 → a ≠ 0x148 → t.word a = s.word a) ∧ t.mem = s.mem ∧ t.cores = s.cores)) ∧
  (∀ (s : State) (c : Fin 17) (v : BitVec 64), s.coreRuns = true → s.dev ≠ .boot →
    Completes (.registerWrite (.alnen c) ((Blk.core c).base + 0xB8) 32 v) s (fun t =>
      t.rd (.core c) R.INT_EN.enable = v.toNat % 2 ^ 16 ∧ (∀ a, a ≠ (Blk.core c).base + 0xB8 → t.word a = s.word a) ∧ t.mem = s.mem)) ∧
  (∀ (s : State) (g : Fin 16) (v : BitVec 64), s.dev = .ready ∨ s.dev = .run → s.barOpen = true → s.enabled (.rxg g) = true →
    Completes (.registerWrite .host (0x10000 * (0x40 + g.val) + 0x058) 64 v) s (fun t =>
      t.word (0x10000 * (0x40 + g.val) + 0x058) = s.word (0x10000 * (0x40 + g.val) + 0x058) ∧
      t.rd (.rxg g) R.BLOCK_STATUS.cfg_write_ignored = 1 ∧ t.rd (.rxg g) R.LAST_IGNORED.offset = 0x058 ∧
      t.rd (.rxg g) R.LAST_IGNORED.port = 0 ∧
      t.rd (.rxg g) R.IGNORED_WRITES.count = min (s.rd (.rxg g) R.IGNORED_WRITES.count + 1) (2 ^ 32 - 1))) ∧
  (∀ (s : State) (v : BitVec 64), s.dev ≠ .off → s.dev ≠ .boot → Completes (.registerWrite .mgmt (Blk.auth.base + 0x040) 32 v) s (fun t =>
    t.word (Blk.auth.base + 0x040) = s.word (Blk.auth.base + 0x040) ∧ t.rd .auth R.BLOCK_STATUS.locked_write = 1 ∧
    t.rd .auth R.LOCKED_WRITES.count = min (s.rd .auth R.LOCKED_WRITES.count + 1) (2 ^ 32 - 1) ∧ SameOutside .auth s t ∧ t.sec = s.sec)) ∧
  (∀ (s : State) (a w : Nat) (v : BitVec 64), s.dev ≠ .off → s.barOpen = true →
    ((w ≠ 32 ∧ w ≠ 64) ∨ a % (w / 8) ≠ 0 ∨ slotBlk (a / 0x10000) = none) →
    Completes (.registerWrite .host a w v) s (fun t => t.host.aerAborts = s.host.aerAborts + 1 ∧ t.latch .host = none ∧
      (∀ b, b ≠ 0x140 → b ≠ 0x148 → t.word b = s.word b) ∧ t.mem = s.mem ∧ t.cores = s.cores ∧ t.dev = s.dev)) ∧
  (∀ (s : State) (a w : Nat) (b : Blk) (o : Nat) (x : RegAt), s.dev ≠ .off → s.dev ≠ .boot → s.barOpen = true → b ≠ .global →
    accessAt a w = some (b, o, x) → s.latch .host = none → Completes (.latchingRead .host a w) s (fun t =>
      t.host.readOk = true ∧ t.host.readBytes = leBytes (w / 8) (wordPart (s.readWord b (o / 8 * 8)) o w).toNat)) ∧
  (∀ (s : State) (a w : Nat) (b : Blk) (o : Nat) (x : RegAt), s.dev ≠ .off → s.dev ≠ .boot → s.barOpen = true →
    accessAt a w = some (b, o, x) → Completes (.latchingRead .host a w) s (fun t =>
      (∀ c, c ≠ 0x140 → c ≠ 0x148 → t.word c = s.word c) ∧ t.mem = s.mem ∧ t.cores = s.cores ∧ t.queue = s.queue ∧
      t.host.readOk = true ∧ (∀ p : Port, p ≠ .host → t.latch p = s.latch p))) ∧
  (∀ (s : State) (p : Port) (a w : Nat) (b : Blk) (o : Nat) (x : RegAt), s.dev ≠ .off → s.dev ≠ .boot → p ≠ .host → s.portLive p = true →
    accessAt a w = some (b, o, x) → Completes (.latchingRead p a w) s (fun t =>
      t.regs = s.regs ∧ t.mem = s.mem ∧ t.cores = s.cores ∧ ∀ q : Port, q ≠ p → t.latch q = s.latch q)) ∧
  (∀ s : State, s.dev ≠ .off → s.dev ≠ .boot → s.barOpen = true →
    Completes (.latchingRead .host 0x10060 64) s (fun t =>
      t.host.readBytes = leBytes 8 (s.word 0x10060).toNat ∧
      t.latch .host = some ⟨0x10060, [(0, s.word 0x10060), (1, s.word 0x10068)]⟩)) ∧
  (∀ (s : State) (lo hi : Word), s.dev ≠ .off → s.dev ≠ .boot → s.barOpen = true →
    s.latch .host = some ⟨0x10060, [(0, lo), (1, hi)]⟩ → Completes (.latchingRead .host 0x10068 32) s (fun t =>
      t.host.readBytes = leBytes 4 (hi.toNat % 2 ^ 32) ∧ t.latch .host = none)) ∧
  (∀ (s : State) (f : FerryId), s.reaches f.reg.1 = true → Completes (.hwmClear f) s (fun t =>
    t.rd f.reg.1 f.reg.2.2 = s.rd f.reg.1 f.reg.2.1 ∧ t.rd f.reg.1 f.reg.2.1 = s.rd f.reg.1 f.reg.2.1 ∧ SameOutside f.reg.1 s t))

/-! ### The Oroten link (R48 to R80) -/

/-- CK and the lanes: CK within tolerance brings every enabled lane to HUNT, its loss brings them back there; block lock, its loss and the
loss of alignment move one lane and no other. Rows: an ALIGN row sets the active set, a data row advances the sample index by the whole
samples it holds, STATUS with start begins a run and with stop ends it, EPOCH is shown, OVR marks its span, missing STATUS resynchronises;
in loopback the pins are ignored (R56 to R59, R63 to R67, R76). -/
def Obligations.ReceivedLanesAndRows : Prop :=
  (∀ (s : State) (g : Fin 16) (c : Nat), s.linkUp = true → s.loops g = false → s.flag (.rxg g) R.RXG_STATUS.ck_present = false →
    c = ckNominal (s.rd (.rxg g) R.RXG_CFG.rate) → Completes (.ckWindow g c) s (fun t =>
      t.rd (.rxg g) R.RXG_STATUS.ck_present = 1 ∧ t.rd (.rxg g) R.RXG_CK.ck_dev = 0 ∧ (t.rx[g]).matched = false ∧
      (∀ n ∈ lanes15, s.laneOn g n = true → t.laneState g n = 1) ∧ SameOutside (.rxg g) s t)) ∧
  (∀ (s : State) (g : Fin 16) (c : Nat), s.linkUp = true → s.loops g = false → s.flag (.rxg g) R.RXG_STATUS.ck_present = true →
    (c : Int) * 1000000 < 999400 * (ckNominal (s.rd (.rxg g) R.RXG_CFG.rate) : Int) ∨
      1001800 * (ckNominal (s.rd (.rxg g) R.RXG_CFG.rate) : Int) < (c : Int) * 1000000 → Completes (.ckWindow g c) s (fun t =>
      t.rd (.rxg g) R.RXG_STATUS.ck_present = 0 ∧
      t.rd (.rxg g) R.RXG_CK.ck_losses = min (s.rd (.rxg g) R.RXG_CK.ck_losses + 1) 65535 ∧ SameOutside (.rxg g) s t)) ∧
  (∀ (s : State) (g : Fin 16), s.linkUp = true → s.loops g = false → s.flag (.rxg g) R.RXG_STATUS.ck_present = true →
    Completes (.ckLoss g) s (fun t =>
      t.rd (.rxg g) R.RXG_STATUS.ck_present = 0 ∧
      t.rd (.rxg g) R.RXG_CK.ck_losses = min (s.rd (.rxg g) R.RXG_CK.ck_losses + 1) 65535 ∧
      (∀ n ∈ lanes15, s.laneOn g n = true → t.laneState g n = 1) ∧ (∀ k, s.ssState g k = 2 → t.ssState g k = 3) ∧
      SameOutside (.rxg g) s t)) ∧
  (∀ (s : State) (g : Fin 16) (n : LaneLine), s.linkUp = true → s.laneOn g n.lane = true → s.flag (.rxg g) R.RXG_STATUS.ck_present = true →
    s.laneState g n.lane = 1 → Completes (.blockLock g n) s (fun t =>
      t.laneState g n.lane = 2 ∧ (∀ m, m ≠ n.lane.val → t.laneState g m = s.laneState g m) ∧ SameOutside (.rxg g) s t)) ∧
  (∀ (s : State) (g n : Fin 16), s.linkUp = true → 2 ≤ s.laneState g n → s.laneLock g n = true → Completes (.blockLockLoss g n) s (fun t =>
      t.laneState g n = (if s.laneState g n = 4 then 4 else 1) ∧ t.laneLock g n = false ∧ t.rd (.rxg g) (R.RXG_LANE.lock_lost n) = 1 ∧
      t.rd (.rxg g) (R.RXG_LANE_ERR.lock_losses n) = min (s.rd (.rxg g) (R.RXG_LANE_ERR.lock_losses n) + 1) (R.RXG_LANE_ERR.lock_losses n).top ∧
      (∀ m, m ≠ n.val → t.laneState g m = s.laneState g m) ∧ SameOutside (.rxg g) s t)) ∧
  (∀ (s : State) (g n : Fin 16), s.linkUp = true → 3 ≤ s.laneState g n → s.laneState g n ≤ 4 → Completes (.alignLoss g n) s (fun t =>
      t.laneState g n = (if s.laneState g n = 3 then 2 else 4) ∧ t.laneDesk g n = false ∧
      (∀ m, m ≠ n.val → t.laneState g m = s.laneState g m) ∧ SameOutside (.rxg g) s t)) ∧
  (∀ (s : State) (g : Fin 16) (a : AlignRx) (rows : List (Option AlignRx)) (b : Nat), s.linkUp = true → s.loops g = false →
    s.flag (.rxg g) R.RXG_STATUS.ck_present = true → s.laneOn g 1 = true → 2 ≤ s.laneState g 1 → s.laneLock g 1 = true →
    (takeLane g 1 a.bits s).2.align = some b → alLane b = 1 → a.late ≤ skewBlocks (s.rd (.rxg g) R.RXG_CFG.rate) →
    Completes (.rxAlign g (some a :: rows)) s (fun t =>
      t.rd (.rxg g) R.RXG_STATUS.active_mask = alActive b ∧ t.rd (.rxg g) R.RXG_STATUS.align_seq = alSeq b ∧
      t.rd (.rxg g) R.RXG_STATUS.rate_mismatch = bit (decide (alRate b ≠ s.rd (.rxg g) R.RXG_CFG.rate)) ∧
      t.laneState g 1 = (if alActive b % 2 = 1 then 3 else 4) ∧ (t.rx[g]).matched = true ∧ SameOutside (.rxg g) s t)) ∧
  (∀ (s : State) (g : Fin 16) (bs : List (BitVec 66)), s.linkUp = true → s.loops g = false → s.flag (.rxg g) R.RXG_STATUS.ck_present = true →
    (s.rx[g]).matched = true → s.rd (.rxg g) R.RXG_STATUS.rate_mismatch = 0 → s.rd (.rxg g) R.RXG_STATUS.split_mismatch = 0 →
    s.rd (.rxg g) R.RXG_CFG.split = 0 → s.ssState g 0 = 2 → s.ssState g 1 = 0 → s.ssState g 2 = 0 → s.ssState g 3 = 0 →
    s.ssState g 4 = 0 → s.delivering g = true → ((s.rx[g]).subs[0]).stale = false → s.rd (.rxg g) (R.RXG_SS.bonded 0) = 0 →
    s.rd (.rxg g) R.RXG_STATUS.active_mask = 0x7FFF →
    lanes15.all (fun n => s.laneOn g n && decide (s.laneState g n = 3) && !s.flag (.rxg g) (R.RXG_EQ.invert n)) = true →
    bs.length = 15 → bs.all (fun b => decide (b.toNat % 4 = 2)) = true → (s.rx[g]).ferry.length < 512 →
    Completes (.dataRow g bs) s (fun t =>
      t.rd (.rxg g) (R.RXG_SAMPLES.index 0) = (s.rd (.rxg g) (R.RXG_SAMPLES.index 0)
        + (((s.rx[g]).subs[0]).len + 960) / fmtBits ((s.rx[g]).subs[0]).fmt) % 2 ^ 64 ∧
      ((t.rx[g]).subs[0]).blocks = ((s.rx[g]).subs[0]).blocks + 15 ∧
      (t.rx[g]).ferry.length = (s.rx[g]).ferry.length + 1)) ∧
  (∀ (s : State) (g : Fin 16) (bs bs' : List (BitVec 66)), s.loops g = true →
    Completes (.dataRow g bs) s (fun t => exec (.dataRow g bs') s = .next t)) ∧
  (∀ (s : State) (g : Fin 16) (rows : List (Option AlignRx)), s.loops g = true → Completes (.rxAlign g rows) s (fun t => t = s)) ∧
  (∀ (s : State) (g : Fin 16) (k : Fin 5) (b : BitVec 48), s.linkUp = true → s.ssState g k ≠ 0 →
    b.toNat / 2 ^ 40 % 8 = s.rd (.rxg g) (R.RXG_SS.format k) → nbit b.toNat 43 = true → nbit b.toNat 46 = false →
    (s.rx[g]).matched = false ∨ s.subShort g k = false →
    Completes (.rxStatus g k b) s (fun t => t.ssState g k = 2 ∧ t.rd (.rxg g) (R.RXG_SAMPLES.index k) = 0 ∧
      ((t.rx[g]).subs[k]).run = ((s.rx[g]).subs[k]).run + 1 ∧ ((t.rx[g]).subs[k]).blocks = 0)) ∧
  (∀ (s : State) (g : Fin 16) (k : Fin 5) (b : BitVec 48), s.linkUp = true → s.ssState g k = 2 →
    b.toNat / 2 ^ 40 % 8 = s.rd (.rxg g) (R.RXG_SS.format k) → nbit b.toNat 43 = false →
    b.toNat % 2 ^ 40 = ((s.rx[g]).subs[k]).blocks % 2 ^ 40 → Completes (.rxStatus g k b) s (fun t =>
      t.ssState g k = (if nbit b.toNat 46 then 1 else 2) ∧ (∀ j, j ≠ k → t.ssState g j = s.ssState g j) ∧ t.rx = s.rx
      ∧ SameOutside (.rxg g) s t)) ∧
  (∀ (s : State) (g : Fin 16) (k : Fin 5), s.linkUp = true → s.ssState g k = 2 → Completes (.statusTimeout g k) s (fun t =>
      t.ssState g k = 3 ∧ (∀ j, j ≠ k → t.ssState g j = s.ssState g j) ∧ SameOutside (.rxg g) s t)) ∧
  (∀ (s : State) (g : Fin 16) (k : Fin 5) (b : BitVec 48), s.linkUp = true → s.ssState g k = 1 → Completes (.rxEpoch g k b) s (fun t =>
      t.rd (.rxg g) R.RXG_EPOCH_LAST.index = b.toNat ∧ t.rd (.rxg g) R.RXG_EPOCH_LAST.sub_stream = k.val ∧
      t.rd (.rxg g) R.RXG_EPOCH_LAST.valid = 1 ∧ SameOutside (.rxg g) s t)) ∧
  (∀ (s : State) (g : Fin 16) (k : Fin 5) (b : BitVec 48), s.linkUp = true → s.ssState g k = 2 → b.toNat / 2 ^ 31 % 2 ^ 17 ≠ 0 →
    Completes (.rxOvr g k b) s (fun t => ((t.rx[g]).subs[k]).spans.length = ((s.rx[g]).subs[k]).spans.length + 1 ∧
      t.ssState g k = 2 ∧ SameOutside (.rxg g) s t))

/-- Link commands received on RXG[g] are shown, kept and answered; those software sends wait for their answer or time out; a lane is
retired or restored by an announcement four ALIGN rows ahead, and never below the minimum of its split (R60, R69 to R71). -/
def Obligations.LinkCommands : Prop :=
  (∀ (s : State) (g : Fin 16) (l : BitVec 4) (e : BitVec 16) (a v : BitVec 8), s.linkUp = true →
    Completes (.lcRetire g l e a v) s (fun t => (t.rx[g]).ann = (s.rx[g]).ann ++ [(e.toNat, l.toNat, false)] ∧
      t.rd (.rxg g) R.RXG_LINKCMD_LAST.valid = 1 ∧
      t.rd (.rxg g) R.RXG_LINKCMD_LAST.body = linkBody 1 l.toNat e.toNat a.toNat v.toNat)) ∧
  (∀ (s : State) (g : Fin 16) (l : BitVec 4) (e : BitVec 16) (a v : BitVec 8), s.linkUp = true →
    Completes (.lcRestore g l e a v) s (fun t => (t.rx[g]).ann = (s.rx[g]).ann ++ [(e.toNat, l.toNat, true)] ∧
      t.rd (.rxg g) R.RXG_LINKCMD_LAST.body = linkBody 2 l.toNat e.toNat a.toNat v.toNat)) ∧
  (∀ (s : State) (g : Fin 16) (l : BitVec 4) (e : BitVec 16) (a v : BitVec 8), s.linkUp = true → s.txOn g = true →
    s.retireForbidden g l.toNat = false → Completes (.lcRetireReq g l e a v) s (fun t =>
      (t.tx[g]).ann = (s.tx[g]).ann ++ [((s.rd (.txg g) R.TXG_STATUS.align_seq + 4) % 65536, l.toNat, false)] ∧
      (t.tx[g]).urgent.length = (s.tx[g]).urgent.length + 2 ∧ (t.tx[g]).answers = (s.tx[g]).answers)) ∧
  (∀ (s : State) (g : Fin 16) (l : BitVec 4) (e : BitVec 16) (a v : BitVec 8), s.linkUp = true → s.txOn g = true →
    s.retireForbidden g l.toNat = true → Completes (.lcRetireReq g l e a v) s (fun t =>
      (t.tx[g]).answers = (s.tx[g]).answers ++ [BitVec.ofNat 48 (linkBody 9 l.toNat 0 2 v.toNat)] ∧ (t.tx[g]).ann = (s.tx[g]).ann)) ∧
  (∀ (s : State) (g : Fin 16) (l : BitVec 4) (e : BitVec 16) (a v : BitVec 8), s.linkUp = true → s.txOn g = true → s.txDrives g l.toNat = true →
    Completes (.lcRestoreReq g l e a v) s (fun t =>
      (t.tx[g]).ann = (s.tx[g]).ann ++ [((s.rd (.txg g) R.TXG_STATUS.align_seq + 4) % 65536, l.toNat, true)])) ∧
  (∀ (s : State) (g : Fin 16) (l : BitVec 4) (e : BitVec 16) (a v : BitVec 8), s.linkUp = true → s.txOn g = true → a.toNat ≤ 7 →
    Completes (.lcPreset g l e a v) s (fun t => (t.tx[g]).presetAt = (s.tx[g]).presetAt ++ [(e.toNat, l.toNat, a.toNat)] ∧
      (t.tx[g]).answers = (s.tx[g]).answers ++ [BitVec.ofNat 48 (linkBody 8 l.toNat e.toNat 5 v.toNat)])) ∧
  (∀ (s : State) (g : Fin 16) (l : BitVec 4) (e : BitVec 16) (a v : BitVec 8), s.linkUp = true → s.txOn g = true → l.toNat ≠ 0 →
    nbit (s.rd (.txg g) R.TXG_STATUS.active_mask) (l.toNat - 1) = false → Completes (.lcTrainStart g l e a v) s (fun t =>
      (t.tx[g]).trainAt = (s.tx[g]).trainAt ++ [(e.toNat, l.toNat, true)] ∧
      (t.tx[g]).answers = (s.tx[g]).answers ++ [BitVec.ofNat 48 (linkBody 8 l.toNat e.toNat 6 v.toNat)])) ∧
  (∀ (s : State) (g : Fin 16) (l : BitVec 4) (e : BitVec 16) (a v : BitVec 8), s.linkUp = true → s.txOn g = true → l.toNat ≠ 0 →
    nbit (s.rd (.txg g) R.TXG_STATUS.active_mask) (l.toNat - 1) = false → Completes (.lcTrainEnd g l e a v) s (fun t =>
      (t.tx[g]).trainAt = (s.tx[g]).trainAt ++ [(e.toNat, l.toNat, false)] ∧
      (t.tx[g]).answers = (s.tx[g]).answers ++ [BitVec.ofNat 48 (linkBody 8 l.toNat e.toNat 7 v.toNat)])) ∧
  (∀ (s : State) (g : Fin 16) (l : BitVec 4) (e : BitVec 16) (a v : BitVec 8), s.linkUp = true → s.awaits g a.toNat v.toNat = true →
    Completes (.lcAck g l e a v) s (fun t => t.rd (.txg g) R.TXG_LINKCMD.send = 0 ∧ t.rd (.txg g) R.TXG_LINKCMD.status = 0 ∧
      (t.tx[g]).waiting = none)) ∧
  (∀ (s : State) (g : Fin 16) (l : BitVec 4) (e : BitVec 16) (a v : BitVec 8) (c : Nat), s.linkUp = true →
    (s.tx[g]).waiting = some (c, v.toNat) → Completes (.lcNak g l e a v) s (fun t =>
      t.rd (.txg g) R.TXG_LINKCMD.send = 0 ∧ t.rd (.txg g) R.TXG_LINKCMD.status = 2 ∧ (t.tx[g]).waiting = none)) ∧
  (∀ (s : State) (g : Fin 16) (c l : BitVec 4) (e : BitVec 16) (a v : BitVec 8), s.linkUp = true → s.txOn g = true →
    (c = 0 ∨ 9 < c.toNat) → Completes (.linkcmdUnknown g c l e a v) s (fun t =>
      (t.tx[g]).answers = (s.tx[g]).answers ++ [BitVec.ofNat 48 (linkBody 9 l.toNat e.toNat 1 v.toNat)])) ∧
  (∀ (s : State) (g : Fin 16) (l : BitVec 4) (a v : BitVec 8), s.dev ≠ .off → s.dev ≠ .boot → s.flag (.txg g) R.TXG_LINKCMD.send = false →
    Completes (.txRetireReq g l a v) s (fun t => (t.tx[g]).waiting = some (3, v.toNat) ∧ t.rd (.txg g) R.TXG_LINKCMD.send = 1 ∧
      t.rd (.txg g) R.TXG_LINKCMD.status = 1 ∧ t.rd (.txg g) R.TXG_LINKCMD.eff_seq = (s.rd (.rxg g) R.RXG_STATUS.align_seq + 4) % 65536)) ∧
  (∀ (s : State) (g : Fin 16) (l : BitVec 4) (a v : BitVec 8), s.dev ≠ .off → s.dev ≠ .boot → s.flag (.txg g) R.TXG_LINKCMD.send = false →
    Completes (.txRestoreReq g l a v) s (fun t => (t.tx[g]).waiting = some (4, v.toNat) ∧ t.rd (.txg g) R.TXG_LINKCMD.send = 1)) ∧
  (∀ (s : State) (g : Fin 16) (l : BitVec 4) (a v : BitVec 8), s.dev ≠ .off → s.dev ≠ .boot → s.flag (.txg g) R.TXG_LINKCMD.send = false →
    Completes (.txPreset g l a v) s (fun t => (t.tx[g]).waiting = some (5, v.toNat) ∧ t.rd (.txg g) R.TXG_LINKCMD.send = 1)) ∧
  (∀ (s : State) (g : Fin 16) (l : BitVec 4) (a v : BitVec 8), s.dev ≠ .off → s.dev ≠ .boot → s.flag (.txg g) R.TXG_LINKCMD.send = false →
    Completes (.txTrainStart g l a v) s (fun t => (t.tx[g]).waiting = some (6, v.toNat) ∧ t.rd (.txg g) R.TXG_LINKCMD.send = 1)) ∧
  (∀ (s : State) (g : Fin 16) (l : BitVec 4) (a v : BitVec 8), s.dev ≠ .off → s.dev ≠ .boot → s.flag (.txg g) R.TXG_LINKCMD.send = false →
    Completes (.txTrainEnd g l a v) s (fun t => (t.tx[g]).waiting = some (7, v.toNat) ∧ t.rd (.txg g) R.TXG_LINKCMD.send = 1)) ∧
  (∀ (s : State) (g : Fin 16), s.flag (.txg g) R.TXG_LINKCMD.send = true → Completes (.linkcmdTimeout g) s (fun t =>
      t.rd (.txg g) R.TXG_LINKCMD.send = 0 ∧ t.rd (.txg g) R.TXG_LINKCMD.status = 3 ∧ SameOutside (.txg g) s t)) ∧
  (∀ (s : State) (g n : Fin 16), s.dev ≠ .off → s.dev ≠ .boot → n ≠ 0 → s.txOn g = true → s.retireForbidden g n = false → Completes (.laneRetire g n) s (fun t =>
      t.rd (.txg g) (R.TXG_LANE.retire n) = 1 ∧
      (t.tx[g]).ann = (s.tx[g]).ann ++ [((s.rd (.txg g) R.TXG_STATUS.align_seq + 4) % 65536, n.val, false)])) ∧
  (∀ (s : State) (g n : Fin 16), s.dev ≠ .off → s.dev ≠ .boot → n ≠ 0 → s.txOn g = true → s.retireForbidden g n = true → Completes (.laneRetire g n) s (fun t =>
      t.rd (.txg g) (R.TXG_LANE.refused n) = 1 ∧ t.tx = s.tx ∧ SameOutside (.txg g) s t)) ∧
  (∀ (s : State) (g n : Fin 16), s.dev ≠ .off → s.dev ≠ .boot → n ≠ 0 → s.txOn g = true → s.txDrives g n = true → Completes (.laneRestore g n) s (fun t =>
      t.rd (.txg g) (R.TXG_LANE.restore n) = 1 ∧
      (t.tx[g]).ann = (s.tx[g]).ann ++ [((s.rd (.txg g) R.TXG_STATUS.align_seq + 4) % 65536, n.val, true)]))

/-- Rows sent, the eye scan and the test patterns: an ALIGN row advances align_seq, a data row takes its samples from emit[g], a fill
row of a running sub-stream is IDLE on every lane the group drives and counts an underrun; what the scrambler sends, the descrambler with the
same history gives back (R50, R56, R69, R72, R74, R75, R77). -/
def Obligations.SentRowsAndTests : Prop :=
  (∀ (s : State) (g : Fin 16), s.txOn g = true → Completes (.txAlignRow g) s (fun t =>
      t.rd (.txg g) R.TXG_STATUS.align_seq = (s.rd (.txg g) R.TXG_STATUS.align_seq + 1) % 65536 ∧ (t.tx[g]).line.length = 1 ∧
      t.rx = s.rx ∧ t.mem = s.mem)) ∧
  (∀ h d : Nat, h < 2 ^ 58 → d < 2 ^ 64 → descramble h (scramble h d).1 = (d, (scramble h d).2)) ∧
  (∀ (s : State) (g : Fin 16) (k : Fin 5), s.txOn g = true → s.flag (.txg g) R.TXG_CFG.return_mode = false →
    s.flag (.txg g) (R.TXG_SS.enable k) = true → s.txLanes g k ≠ [] →
    fmtValid (s.rd (.txg g) (R.TXG_SS.format k)) = true → s.txRuns g k = true → ((s.tx[g]).subs[k]).sinceMsg < 1024 →
    64 * (s.txLanes g k).length ≤ (packGo (s.rd (.txg g) (R.TXG_SS.format k)) (64 * (s.txLanes g k).length) ((s.tx[g]).subs[k]).queue
      ((s.tx[g]).subs[k]).buf ((s.tx[g]).subs[k]).len 0).2.2.1 →
    Completes (.txDataRow g k) s (fun t =>
      ((t.tx[g]).subs[k]).blocks = ((s.tx[g]).subs[k]).blocks + (s.txLanes g k).length ∧
      t.rd (.txg g) (R.TXG_SAMPLES.index k) = (s.rd (.txg g) (R.TXG_SAMPLES.index k)
        + (packGo (s.rd (.txg g) (R.TXG_SS.format k)) (64 * (s.txLanes g k).length) ((s.tx[g]).subs[k]).queue
          ((s.tx[g]).subs[k]).buf ((s.tx[g]).subs[k]).len 0).2.2.2) % 2 ^ 64 ∧
      (t.tx[g]).line.length = 1 ∧ SameOutside (.txg g) s t)) ∧
  (∀ (s : State) (g : Fin 16) (k : Fin 5), s.txOn g = true → s.txLanes g k ≠ [] → s.txRuns g k = true →
    ((s.tx[g]).subs[k]).queue = [] → ((s.tx[g]).subs[k]).sinceMsg < 1024 → Completes (.fillRow g k) s (fun t =>
      (t.tx[g]).line = [(subLanes (s.rd (.txg g) R.TXG_CFG.split) k (s.txPowered g)).map (fun n => (n, ctrlBlock 0x1E 0))] ∧
      t.rd (.txg g) (R.TXG_UNDERRUN.rows k) = min (s.rd (.txg g) (R.TXG_UNDERRUN.rows k) + 1) (R.TXG_UNDERRUN.rows k).top ∧
      SameOutside (.txg g) s t)) ∧
  (∀ (s : State) (g n : Fin 16) (p : Nat) (c : BitVec 5) (d : BitVec 40), n ≠ 0 → s.linkUp = true → s.laneOn g n = true →
    Completes (.fomScan g n p c d) s (fun t => t.rd (.rxg g) (R.RXG_LANE.fom n) = min 255 p ∧ SameOutside (.rxg g) s t)) ∧
  (∀ (s : State) (g n : Fin 16), s.linkUp = true → s.laneOn g n = true → s.flag (.rxg g) (R.RXG_PRBS.check n) = true →
    Completes (.prbsSync g n) s (fun t => t.rd (.rxg g) (R.RXG_PRBS.sync n) = 1 ∧ SameOutside (.rxg g) s t)) ∧
  (∀ (s : State) (g n : Fin 16) (b e : Nat), s.linkUp = true → s.laneOn g n = true → s.flag (.rxg g) (R.RXG_PRBS.sync n) = true →
    Completes (.prbsSyncLoss g n b e) s (fun t => t.rd (.rxg g) (R.RXG_PRBS.sync n) = 0 ∧
      t.rd (.rxg g) (R.RXG_PRBS.errors n) = min (s.rd (.rxg g) (R.RXG_PRBS.errors n) + e) (R.RXG_PRBS.errors n).top ∧
      t.rd (.rxg g) (R.RXG_PRBS_BITS.sync_losses n)
        = min (s.rd (.rxg g) (R.RXG_PRBS_BITS.sync_losses n) + 1) (R.RXG_PRBS_BITS.sync_losses n).top ∧ SameOutside (.rxg g) s t)) ∧
  (∀ (s : State) (g n : Fin 16), s.dev ≠ .off → s.dev ≠ .boot → n ≠ 0 → s.txOn g = true → s.rd (.txg g) (R.TXG_PRBS.inject_mode n) = 1 → Completes (.inject g n) s (fun t =>
      t.rd (.txg g) (R.TXG_PRBS.injected n) = min (s.rd (.txg g) (R.TXG_PRBS.injected n) + 1) (R.TXG_PRBS.injected n).top ∧
      t.rd (.txg g) (R.TXG_PRBS.inject n) = 0 ∧ SameOutside (.txg g) s t))

/-! ### The Alnen core: scalars, predicates, flow (R225 to R241, R253, R254) -/

/-- R253: the operations of two scalar registers. -/
def Sys2Proof.Expected.scalarPairs : List ((Fin 17 → Syl → Instr) × (W32 → W32 → W32)) :=
  [(.add, fun a b => a + b), (.sub, fun a b => a - b), (.mul, fun a b => a * b), (.and, fun a b => a &&& b), (.or, fun a b => a ||| b),
   (.xor, fun a b => a ^^^ b), (.shl, fun a b => a <<< (b.toNat % 32)), (.shr, fun a b => a >>> (b.toNat % 32)),
   (.sra, fun a b => a.sshiftRight (b.toNat % 32)), (.min, fun a b => if a.slt b then a else b), (.max, fun a b => if a.slt b then b else a),
   (.slt, fun a b => if a.slt b then 1 else 0), (.sltu, fun a b => if a.ult b then 1 else 0)]

/-- R253: the operations of a scalar register and imm11. -/
def Sys2Proof.Expected.scalarImms : List ((Fin 17 → Syl → Instr) × (W32 → BitVec 11 → W32)) :=
  [(.addi, fun a m => a + m.signExtend 32), (.andi, fun a m => a &&& m.zeroExtend 32), (.ori, fun a m => a ||| m.zeroExtend 32),
   (.shli, fun a m => a <<< (m.toNat % 32)), (.shri, fun a m => a >>> (m.toNat % 32)), (.srai, fun a m => a.sshiftRight (m.toNat % 32))]

/-- The conditions of PCMP (R253). -/
def Sys2Proof.Expected.compares (n : Nat) (a b : W32) : Bool :=
  match n with
  | 0 => a == b | 1 => a != b | 2 => a.slt b | 3 => b.sle a | 4 => a.ult b | _ => b.ule a

/-- R253: the predicate operations of predicate registers a and b. -/
def Sys2Proof.Expected.predicates : List ((Fin 17 → Syl → Instr) × (Byte → Byte → Byte)) :=
  [(.pand, fun a b => a &&& b), (.por, fun a b => a ||| b), (.pxor, fun a b => a ^^^ b), (.pnot, fun a _ => ~~~a),
   (.pany, fun a _ => if a = 0 then 0 else 0xFF)]

/-- R253: what a predicate register gives a scalar register. -/
def Sys2Proof.Expected.predScalars : List ((Fin 17 → Syl → Instr) × (Byte → W32)) :=
  [(.ptos, fun p => p.zeroExtend 32),
   (.pcnt, fun p => BitVec.ofNat 32 ((List.range 8).filter (fun i => p.getLsbD i)).length),
   (.pffs, fun p => BitVec.ofNat 32 (((List.range 8).find? (fun i => p.getLsbD i)).getD 8)),
   (.pfls, fun p => match (List.range 8).reverse.find? (fun i => p.getLsbD i) with
     | some i => BitVec.ofNat 32 i
     | none => 0xFFFFFFFF)]

/-- R253: when a branch is taken. -/
def Sys2Proof.Expected.branches : List ((Fin 17 → Syl → Instr) × (CoreSt → Nat → Bool)) :=
  [(.br, fun _ _ => true), (.bz, fun k n => k.sreg n == 0), (.bnz, fun k n => k.sreg n != 0)]

/-- R253: when a branch on a predicate is taken. -/
def Sys2Proof.Expected.predBranches : List ((Fin 17 → Syl → Instr) × (CoreSt → Nat → Bool)) :=
  [(.bpa, fun k n => k.preg n != 0), (.bpn, fun k n => k.preg n == 0)]

/-- Scalar and predicate operations: a bundle of one syllable leaves its result in its register, which S0 and P0 discard, moves to the next
bundle, counts itself and changes nothing else; the operations of two registers write nothing where bit 0 of their guard is 0
(R225, R230, R253). -/
def Obligations.ScalarAndPredicateResults : Prop :=
  (∀ p ∈ Sys2Proof.Expected.scalarPairs, ∀ (s : State) (c : Fin 17) (y : Syl), s.Quiet c → y.last = true →
    exec (p.1 c y) s = .next (s.bundleDone c (if s.guard0 c y
      then (s.cores[c]).setS y.dn (p.2 ((s.cores[c]).sreg y.an) ((s.cores[c]).sreg y.bn)) else s.cores[c]) false)) ∧
  (∀ p ∈ Sys2Proof.Expected.scalarImms, ∀ (s : State) (c : Fin 17) (y : Syl), s.Quiet c → y.last = true →
    exec (p.1 c y) s = .next (s.bundleDone c ((s.cores[c]).setS y.dn (p.2 ((s.cores[c]).sreg y.an) y.m)) false)) ∧
  (∀ (s : State) (c : Fin 17) (y : Syl), s.Quiet c → y.last = true →
    exec (.li c y) s = .next (s.bundleDone c ((s.cores[c]).setS y.dn ((y.a ++ y.b ++ y.m).signExtend 32)) false)) ∧
  (∀ (s : State) (c : Fin 17) (y : Syl), s.Quiet c → y.last = true →
    exec (.liu c y) s = .next (s.bundleDone c ((s.cores[c]).setS y.dn
      ((y.a ++ y.b ++ y.m).extractLsb' 0 16 ++ ((s.cores[c]).sreg y.dn).extractLsb' 0 16)) false)) ∧
  (∀ (s : State) (c : Fin 17) (y : Syl), s.Quiet c → y.last = true → y.dn ≤ 7 → y.mn % 8 ≤ 5 →
    exec (.pcmp c y) s = .next (s.bundleDone c ((s.cores[c]).setP y.dn
      (if Sys2Proof.Expected.compares (y.mn % 8) ((s.cores[c]).sreg y.an) ((s.cores[c]).sreg y.bn) then 0xFF else 0)) false)) ∧
  (∀ p ∈ Sys2Proof.Expected.predicates, ∀ (s : State) (c : Fin 17) (y : Syl), s.Quiet c → y.last = true → y.dn ≤ 7 → y.an ≤ 7 →
    y.bn ≤ 7 → exec (p.1 c y) s = .next (s.bundleDone c
      ((s.cores[c]).setP y.dn (p.2 ((s.cores[c]).preg y.an) ((s.cores[c]).preg y.bn))) false)) ∧
  (∀ (s : State) (c : Fin 17) (y : Syl), s.Quiet c → y.last = true → y.dn ≤ 7 →
    exec (.pfroms c y) s = .next (s.bundleDone c ((s.cores[c]).setP y.dn (((s.cores[c]).sreg y.an).truncate 8)) false)) ∧
  (∀ p ∈ Sys2Proof.Expected.predScalars, ∀ (s : State) (c : Fin 17) (y : Syl), s.Quiet c → y.last = true → y.an ≤ 7 →
    exec (p.1 c y) s = .next (s.bundleDone c ((s.cores[c]).setS y.dn (p.2 ((s.cores[c]).preg y.an))) false))

/-- Branches, CALL and JR choose the next bundle; NOP, FENCE, SWI and HALT do what R229, R235, R239 and R246 give them: FENCE has nothing
to hold, for a store is performed when it issues (the model's choice, log 11). LOOP and LOOP.S open their level, or skip the body when the
count is 0; a bundle at the end of a level goes back to its start while passes are left, and closes the level after the last; a staged loop
renames and moves its stages (R229, R235 to R239, R246). -/
def Obligations.FlowAndLoops : Prop :=
  (∀ p ∈ Sys2Proof.Expected.branches, ∀ (s : State) (c : Fin 17) (y : Syl), s.Quiet c → y.last = true →
    exec (p.1 c y) s = .next (s.issued c (s.cores[c]) false
      (if p.2 (s.cores[c]) y.an then (y.b.extractLsb' 0 3 ++ y.m).toNat else s.pc c + 1))) ∧
  (∀ p ∈ Sys2Proof.Expected.predBranches, ∀ (s : State) (c : Fin 17) (y : Syl), s.Quiet c → y.last = true → y.an ≤ 7 →
    exec (p.1 c y) s = .next (s.issued c (s.cores[c]) false
      (if p.2 (s.cores[c]) y.an then (y.b.extractLsb' 0 3 ++ y.m).toNat else s.pc c + 1))) ∧
  (∀ (s : State) (c : Fin 17) (y : Syl), s.Quiet c → y.last = true →
    exec (.call c y) s = .next (s.issued c ((s.cores[c]).setS 31 (BitVec.ofNat 32 (s.pc c + 1))) false
      (y.b.extractLsb' 0 3 ++ y.m).toNat)) ∧
  (∀ (s : State) (c : Fin 17) (y : Syl), s.Quiet c → y.last = true →
    exec (.jr c y) s = .next (s.issued c (s.cores[c]) false (((s.cores[c]).sreg y.an).toNat % 2 ^ 14))) ∧
  (∀ p ∈ ([.nop, .fence] : List (Fin 17 → Syl → Instr)), ∀ (s : State) (c : Fin 17) (y : Syl), s.Quiet c → y.last = true →
    exec (p c y) s = .next (s.bundleDone c (s.cores[c]) false)) ∧
  (∀ (s : State) (c : Fin 17) (y : Syl), s.Quiet c → y.last = true →
    exec (.swi c y) s = .next ((s.coreInt c 14).bundleDone c (s.cores[c]) false)) ∧
  (∀ (s : State) (c : Fin 17) (y : Syl), s.Quiet c → y.last = true →
    exec (.halt c y) s = .next ((s.bundleDone c (s.cores[c]) false).wr (.core c) R.CORE_STATUS.state 3)) ∧
  (∀ (s : State) (c : Fin 17) (y : Syl), s.Quiet c → y.last = true → y.dn % 4 ≠ 3 → s.pc c + 1 ≤ y.target →
    (s.cores[c]).sreg y.an ≠ 0 → Completes (.loop c y) s (fun t =>
      t.rd (.core c) (R.LC.count (y.dn % 4)) = ((s.cores[c]).sreg y.an).toNat ∧
      t.rd (.core c) (R.LOOP_BOUNDS.start (y.dn % 4)) = s.pc c + 1 ∧ t.rd (.core c) (R.LOOP_BOUNDS.end_ (y.dn % 4)) = y.target ∧
      t.loopOn c (y.dn % 4) = true ∧ t.rd (.core c) R.CORE_LOOP.depth = 1 ∧ t.pc c = s.pc c + 1 ∧ t.cores = s.cores ∧ t.mem = s.mem
      ∧ SameOutside (.core c) s t)) ∧
  (∀ (s : State) (c : Fin 17) (y : Syl), s.Quiet c → y.last = true → y.dn % 4 ≠ 3 → s.pc c + 1 ≤ y.target → y.target < 16383 →
    (s.cores[c]).sreg y.an = 0 → Completes (.loop c y) s (fun t =>
      t.rd (.core c) (R.LC.count (y.dn % 4)) = 0 ∧ t.loopOn c (y.dn % 4) = false ∧ t.pc c = y.target + 1 ∧ t.cores = s.cores
      ∧ t.mem = s.mem ∧ SameOutside (.core c) s t)) ∧
  (∀ (s : State) (c : Fin 17) (y : Syl), s.Quiet c → y.last = true → y.dn % 4 = 0 → s.pc c + 1 ≤ y.target →
    (s.cores[c]).sreg y.an ≠ 0 → Completes (.loopS c y) s (fun t =>
      t.rd (.core c) (R.LC.count 0) = (((s.cores[c]).sreg y.an).toNat + y.dn / 4 % 4) % 2 ^ 32 ∧ t.staged c = true ∧ t.roff c = 0 ∧
      t.rd (.core c) R.CORE_LOOP.stages_m1 = y.dn / 4 % 4 ∧ t.rd (.core c) R.CORE_LOOP.fill = 0 ∧ t.loopOn c 0 = true ∧
      t.rd (.core c) (R.LOOP_BOUNDS.start 0) = s.pc c + 1 ∧ t.rd (.core c) (R.LOOP_BOUNDS.end_ 0) = y.target ∧
      (t.cores[c]).preg 5 = 0 ∧ (t.cores[c]).preg 6 = 0 ∧ (t.cores[c]).preg 7 = 0 ∧ t.mem = s.mem ∧ SameOutside (.core c) s t)) ∧
  (∀ (s : State) (c : Fin 17) (y : Syl) (k : Fin 3), s.issues c = true → (s.cores[c]).pipe = [] → (s.cores[c]).squash = false →
    (s.cores[c]).ctl = none → (s.cores[c]).newWait = none → (s.cores[c]).exc = none → y.last = true → s.staged c = false →
    s.loopOn c k = true → s.rd (.core c) (R.LOOP_BOUNDS.end_ k) = s.pc c → (∀ j : Fin 3, j.val < k.val → s.loopOn c j = false) →
    1 < s.rd (.core c) (R.LC.count k) → Completes (.nop c y) s (fun t =>
      t.pc c = s.rd (.core c) (R.LOOP_BOUNDS.start k) ∧ t.rd (.core c) (R.LC.count k) = s.rd (.core c) (R.LC.count k) - 1 ∧
      t.loopOn c k = true ∧ t.cores = s.cores ∧ SameOutside (.core c) s t)) ∧
  (∀ (s : State) (c : Fin 17) (y : Syl), s.issues c = true → (s.cores[c]).pipe = [] → (s.cores[c]).squash = false →
    (s.cores[c]).ctl = none → (s.cores[c]).newWait = none → (s.cores[c]).exc = none → y.last = true → s.staged c = false →
    s.loopOn c 0 = true → s.loopOn c 1 = false → s.loopOn c 2 = false → s.rd (.core c) (R.LOOP_BOUNDS.end_ 0) = s.pc c →
    s.pc c < 16383 → s.rd (.core c) (R.LC.count 0) ≤ 1 → Completes (.nop c y) s (fun t =>
      t.pc c = s.pc c + 1 ∧ t.loopOn c 0 = false ∧ t.rd (.core c) R.CORE_LOOP.depth = 0 ∧ t.cores = s.cores
      ∧ SameOutside (.core c) s t))

/-- MOVFC reads CSW, LOOPCTL and LC[0..2]; MOVTC writes them, CSW under the restrictions of R254: the scale clips to ±2, ovf and res can
only be cleared, in_exc and in_int are kept; LOOPCTL takes roff and fill. -/
def Obligations.ControlRegisters : Prop :=
  (∀ (s : State) (c : Fin 17) (y : Syl), s.Quiet c → y.last = true → y.mn % 16 = 0 → exec (.movfc c y) s =
    .next (s.bundleDone c ((s.cores[c]).setS y.dn (BitVec.ofNat 32 (s.rd (.core c) R.CORE_CSW.csw))) false)) ∧
  (∀ (s : State) (c : Fin 17) (y : Syl), s.Quiet c → y.last = true → y.mn % 16 = 1 → exec (.movfc c y) s =
    .next (s.bundleDone c ((s.cores[c]).setS y.dn (BitVec.ofNat 32 (s.rd (.core c) R.CORE_LOOP.loopctl))) false)) ∧
  (∀ (s : State) (c : Fin 17) (y : Syl) (k : Fin 3), s.Quiet c → y.last = true → y.mn % 16 = 2 + k.val → exec (.movfc c y) s =
    .next (s.bundleDone c ((s.cores[c]).setS y.dn (BitVec.ofNat 32 (s.rd (.core c) (R.LC.count k)))) false)) ∧
  (∀ (s : State) (c : Fin 17) (y : Syl), s.Quiet c → y.last = true → y.mn % 16 = 0 → Completes (.movtc c y) s (fun t =>
    t.cswScale c = max (-2) (min 2 (((s.cores[c]).sreg y.an).truncate 3 : BitVec 3).toInt) ∧
    t.cswSat c = ((s.cores[c]).sreg y.an).getLsbD 3 ∧ t.flag (.core c) R.CORE_CSW.ie = ((s.cores[c]).sreg y.an).getLsbD 5 ∧
    t.flag (.core c) R.CORE_CSW.ovf = (s.flag (.core c) R.CORE_CSW.ovf && ((s.cores[c]).sreg y.an).getLsbD 4) ∧
    t.flag (.core c) R.CORE_CSW.res = (s.flag (.core c) R.CORE_CSW.res && ((s.cores[c]).sreg y.an).getLsbD 6) ∧
    t.rd (.core c) R.CORE_CSW.in_exc = s.rd (.core c) R.CORE_CSW.in_exc ∧ t.rd (.core c) R.CORE_CSW.in_int = s.rd (.core c) R.CORE_CSW.in_int ∧
    t.pc c = s.pc c + 1 ∧ t.cores = s.cores ∧ t.mem = s.mem ∧ SameOutside (.core c) s t)) ∧
  (∀ (s : State) (c : Fin 17) (y : Syl), s.Quiet c → y.last = true → y.mn % 16 = 1 → Completes (.movtc c y) s (fun t =>
    t.roff c = ((s.cores[c]).sreg y.an).toNat % 16 ∧ t.rd (.core c) R.CORE_LOOP.fill = ((s.cores[c]).sreg y.an).toNat / 16 % 4 ∧
    t.rd (.core c) R.CORE_LOOP.stages_m1 = s.rd (.core c) R.CORE_LOOP.stages_m1 ∧ t.staged c = s.staged c ∧
    t.rd (.core c) R.CORE_LOOP.depth = s.rd (.core c) R.CORE_LOOP.depth ∧ t.pc c = s.pc c + 1 ∧ t.cores = s.cores ∧ t.mem = s.mem
    ∧ SameOutside (.core c) s t)) ∧
  (∀ (s : State) (c : Fin 17) (y : Syl) (k : Fin 3), s.Quiet c → y.last = true → y.mn % 16 = 2 + k.val → Completes (.movtc c y) s (fun t =>
    t.rd (.core c) (R.LC.count k) = ((s.cores[c]).sreg y.an).toNat ∧
    (∀ j : Fin 3, j ≠ k → t.rd (.core c) (R.LC.count j) = s.rd (.core c) (R.LC.count j)) ∧
    t.rd (.core c) R.CORE_CSW.csw = s.rd (.core c) R.CORE_CSW.csw ∧ t.pc c = s.pc c + 1 ∧ t.cores = s.cores ∧ t.mem = s.mem
    ∧ SameOutside (.core c) s t))

/-- Results in flight: a syllable that does not end its bundle joins its result to them and changes nothing else; at the end of a bundle
those due land and the others come one bundle nearer; reading an interlocked result completes it and counts the stall; the rest of a
bundle after a precise exception is not issued (R229, R230, R241). -/
def Obligations.BundlesAndLatency : Prop :=
  (∀ p ∈ Sys2Proof.Expected.scalarPairs, ∀ (s : State) (c : Fin 17) (y : Syl), s.issues c = true → (s.cores[c]).squash = false →
    (s.cores[c]).pipe.all (fun q => !q.fresh && !q.inter) = true → y.last = false → s.guard0 c y = true →
    ∃ v : Int, BitVec.ofInt 32 v = p.2 ((s.cores[c]).sreg y.an) ((s.cores[c]).sreg y.bn) ∧ exec (p.1 c y) s =
      .next (s.setCore c { s.cores[c] with pipe := (s.cores[c]).pipe ++ [⟨.s y.dn, v, 1, 0, false, true, true, false⟩] })) ∧
  (∀ (s : State) (c : Fin 17) (y : Syl) (n : Nat) (a b : Int) (k : CoreSt), k.pipe = [] → s.cores[c] = { k with pipe := [⟨.s n, a, 1, 1, false, false, true, false⟩,
      ⟨.a 2 5, b, 2, 2, false, false, true, false⟩] } → (s.setCore c k).Quiet c → y.last = true → exec (.nop c y) s =
    .next (s.bundleDone c ((k.setS n (BitVec.ofInt 32 a)).flying 1 2 false false [(.a 2 5, b)]) false)) ∧
  (∀ (s : State) (c : Fin 17) (y : Syl) (a : Int) (l : Nat) (k : CoreSt), k.pipe = [] → s.cores[c] = { k with pipe := [⟨.s y.an, a, l, 3, true, false, true, false⟩] } →
    (s.setCore c k).Quiet c → y.last = true → y.an ≠ 0 → Completes (.addi c y) s (fun t =>
      t.cores[c] = (k.setS y.an (BitVec.ofInt 32 a)).setS y.dn (BitVec.ofInt 32 a + y.m.signExtend 32) ∧
      t.rd (.core c) R.CORE_STALLS.interlock = min (s.rd (.core c) R.CORE_STALLS.interlock + l) R.CORE_STALLS.interlock.top ∧
      t.pc c = s.pc c + 1)) ∧
  (∀ p ∈ Sys2Proof.Expected.scalarPairs, ∀ (s : State) (c : Fin 17) (y : Syl), s.issues c = true → (s.cores[c]).squash = true →
    y.last = true → exec (p.1 c y) s = .next (s.setCore c { s.cores[c] with squash := false }))

/-- Interrupts, exceptions and their returns: an enabled pending interrupt saves pc and CSW and goes to bundle 16·n, an exception saves
EPC, ECAUSE and EADDR and goes to bundle 0x100 + 16·code, or faults the core when one is being handled; RTI and RTE restore (R240, R241). -/
def Obligations.InterruptsAndExceptions : Prop :=
  (∀ (s : State) (c : Fin 17) (n : Nat), s.coreRuns = true → s.coreState c = 1 ∨ s.coreState c = 2 → (s.cores[c]).between = true →
    (s.cores[c]).pipe = [] → s.flag (.core c) R.CORE_CSW.ie = true → s.flag (.core c) R.CORE_CSW.in_exc = false →
    s.intSource c = some n → n < 16 → Completes (.interrupt c) s (fun t =>
      t.pc c = 16 * n ∧ t.rd (.core c) R.CORE_ISAVE.pc = s.pc c ∧ t.rd (.core c) R.CORE_ISAVE.csw = s.csw c ∧
      (t.cores[c]).isave.pc = s.pc c ∧ (t.cores[c]).isave.csw = s.csw c ∧ t.rd (.core c) R.CORE_CSW.ie = 0 ∧
      t.rd (.core c) R.CORE_CSW.in_int = 1 ∧ t.coreState c = 1 ∧ t.mem = s.mem ∧ SameOutside (.core c) s t)) ∧
  (∀ (s : State) (c : Fin 17) (code : Fin 5) (addr : BitVec 32), s.Quiet c → s.flag (.core c) R.CORE_CSW.in_exc = false →
    code = 0 ∨ code = 1 ∨ code = 2 → Completes (.exception c code addr) s (fun t =>
      t.pc c = 0x100 + 16 * code.val ∧ t.rd (.core c) R.CORE_EXC.epc = s.pc c ∧ t.rd (.core c) R.CORE_EXC.ecause = code.val ∧
      t.rd (.core c) R.CORE_EXC.eaddr = addr.toNat ∧ t.rd (.core c) R.CORE_CSW.in_exc = 1 ∧ t.rd (.core c) R.CORE_CSW.ie = 0 ∧
      (t.cores[c]).esave.csw = s.csw c ∧ t.coreState c = 1 ∧ t.mem = s.mem ∧ SameOutside (.core c) s t)) ∧
  (∀ (s : State) (c : Fin 17) (code : Fin 5) (addr : BitVec 32), s.Quiet c → s.flag (.core c) R.CORE_CSW.in_exc = true →
    Completes (.exception c code addr) s (fun t => t.coreState c = 4 ∧ t.rd (.core c) R.CORE_FAULT.faulted = 1 ∧ t.mem = s.mem
      ∧ SameOutside (.core c) s t)) ∧
  (∀ (s : State) (c : Fin 17) (y : Syl), s.Quiet c → y.last = true → s.flag (.core c) R.CORE_CSW.in_int = true →
    (s.cores[c]).isave.wait = none → Completes (.rti c y) s (fun t => t.pc c = (s.cores[c]).isave.pc % 2 ^ 14 ∧
      t.csw c = (s.cores[c]).isave.csw % 2 ^ 32 ∧ t.coreState c = 1 ∧ t.cores = s.cores ∧ SameOutside (.core c) s t)) ∧
  (∀ (s : State) (c : Fin 17) (y : Syl), s.Quiet c → y.last = true → s.flag (.core c) R.CORE_CSW.in_exc = true →
    (s.cores[c]).esave.wait = none → Completes (.rte c y) s (fun t => t.pc c = (s.cores[c]).esave.pc % 2 ^ 14 ∧
      t.csw c = (s.cores[c]).esave.csw % 2 ^ 32 ∧ t.coreState c = 1 ∧ t.cores = s.cores ∧ SameOutside (.core c) s t)) ∧
  (∀ p ∈ ([.rti, .rte] : List (Fin 17 → Syl → Instr)), ∀ (s : State) (c : Fin 17) (y : Syl), s.Quiet c →
    s.flag (.core c) R.CORE_CSW.in_int = false → s.flag (.core c) R.CORE_CSW.in_exc = false → Completes (p c y) s (fun t =>
      t.pc c = 0x100 ∧ t.rd (.core c) R.CORE_EXC.ecause = 0 ∧ t.rd (.core c) R.CORE_EXC.epc = s.pc c))

/-- The sources of core interrupts outside the bundle, the forced stop, and waits (R239, R246, R262). -/
def Obligations.CoreEvents : Prop :=
  (∀ (s : State) (c : Fin 17), s.coreRuns = true → s.enabled (.core c) = true →
    s.rd (.core c) R.CORE_TIMER.compare ≤ s.rd (.core c) R.CORE_CYCLES.count → Completes (.coreTimer c) s (fun t =>
      nbit (t.rd (.core c) R.INT_PEND.pending) 6 = true ∧ t.cores = s.cores ∧ SameOutside (.core c) s t)) ∧
  (∀ (s : State) (c : Fin 17) (v : BitVec 64), s.dev ≠ .off → s.dev ≠ .boot → Completes (.mboxInWrite c v) s (fun t =>
      t.rd (.core c) R.MBOX_IN.value = v.toNat ∧ nbit (t.rd (.core c) R.INT_PEND.pending) 8 = true ∧ t.cores = s.cores
      ∧ SameOutside (.core c) s t)) ∧
  (∀ (s : State) (c d : Fin 17) (v : BitVec 64), c ≠ d → Completes (.peerDoorbell c d v) s (fun t =>
      t.rd (.core d) R.PEER_DOORBELL.value = v.toNat ∧ nbit (t.rd (.core d) R.INT_PEND.pending) 15 = true ∧ t.cores = s.cores
      ∧ SameOutside (.core d) s t)) ∧
  (∀ (s : State) (c : Fin 17), s.coreRuns = true → s.flag (.core c) R.BLOCK_STATUS.quiescing = true →
    s.coreState c = 1 ∨ s.coreState c = 2 → s.graceOver c = true → (s.cores[c]).between = true → Completes (.forcedStop c) s (fun t =>
      t.coreState c = 5 ∧ t.rd (.core c) R.CORE_FAULT.forced_stop = 1 ∧
      t.rd (.core c) R.CORE_COUNTS.forced_stops = min (s.rd (.core c) R.CORE_COUNTS.forced_stops + 1) R.CORE_COUNTS.forced_stops.top ∧
      t.cores = s.cores ∧ SameOutside (.core c) s t)) ∧
  (∀ (s : State) (c : Fin 17) (w : WaitCond), s.coreRuns = true → s.coreState c = 2 → (s.cores[c]).wait = some w →
    s.waitDone c w = true → Completes (.waitComplete c) s (fun t => t.coreState c = 1 ∧ (t.cores[c]).wait = none ∧
      t.mem = s.mem ∧ SameOutside (.core c) s t)) ∧
  (∀ (s : State) (c : Fin 17) (y : Syl), s.Quiet c → (s.cores[c]).wait = none → y.last = true → s.guard0 c y = true →
    Completes (.waitBoundary c y) s (fun t =>
      t.coreState c = 2 ∧ (t.cores[c]).wait = some (.boundary false) ∧ t.pc c = s.pc c + 1 ∧ SameOutside (.core c) s t)) ∧
  (∀ (s : State) (c : Fin 17) (y : Syl), s.Quiet c → (s.cores[c]).wait = none → y.last = true → s.guard0 c y = true → y.an ≤ 29 →
    s.tim.now < ofT96 ((s.cores[c]).sreg (y.an + 2) ++ (s.cores[c]).sreg (y.an + 1) ++ (s.cores[c]).sreg y.an) →
    Completes (.waitTime c y) s (fun t => t.coreState c = 2 ∧ t.pc c = s.pc c + 1 ∧ (t.cores[c]).wait =
      some (.time ((s.cores[c]).sreg (y.an + 2) ++ (s.cores[c]).sreg (y.an + 1) ++ (s.cores[c]).sreg y.an)))) ∧
  (∀ (s : State) (c : Fin 17) (y : Syl), s.Quiet c → (s.cores[c]).wait = none → y.last = true → s.guard0 c y = true →
    ((s.cores[c]).sreg y.an).toNat % 2 ^ 16 ≠ 0 → (((s.cores[c]).sreg y.an).truncate 16 : BitVec 16)
      &&& BitVec.ofNat 16 (s.rd (.core c) R.INT_PEND.pending) = 0 → Completes (.waitPend c y) s (fun t =>
      t.coreState c = 2 ∧ t.pc c = s.pc c + 1 ∧ (t.cores[c]).wait = some (.pend (((s.cores[c]).sreg y.an).truncate 16)))) ∧
  (∀ (s : State) (c : Fin 17) (y : Syl), s.Quiet c → (s.cores[c]).wait = none → y.last = true → s.guard0 c y = true →
    ((s.cores[c]).sreg y.an).toNat % 2 ^ 16 = 0 → Completes (.waitPend c y) s (fun t =>
      t.coreState c = 1 ∧ t.pc c = s.pc c + 1 ∧ (t.cores[c]).wait = none))

/-! ### The Alnen core: vectors, accumulators, memory, unit syllables (R225 to R236, R255 to R262) -/

/-- R255: the lane operations; exact results from the lanes of a and b, imm11 and the lane. -/
def Sys2Proof.Expected.laneOps : List ((Fin 17 → Syl → Instr) × ((Nat → Int) → (Nat → Int) → Nat → Nat → Int)) :=
  [(.vadd, fun a b _ l => a l + b l), (.vsub, fun a b _ l => a l - b l),
   (.vand, fun a b _ l => (BitVec.ofInt 24 (a l) &&& BitVec.ofInt 24 (b l)).toInt),
   (.vor, fun a b _ l => (BitVec.ofInt 24 (a l) ||| BitVec.ofInt 24 (b l)).toInt),
   (.vxor, fun a b _ l => (BitVec.ofInt 24 (a l) ^^^ BitVec.ofInt 24 (b l)).toInt),
   (.vmin, fun a b _ l => min (a l) (b l)), (.vmax, fun a b _ l => max (a l) (b l)), (.vabs, fun a _ _ l => |a l|),
   (.vneg, fun a _ _ l => -a l), (.vrot, fun a b m l => if l + m % 8 < 8 then a (l + m % 8) else b (l + m % 8 - 8)),
   (.vconj, fun a _ _ l => if l % 2 = 0 then a l else -a l), (.vswap, fun a _ _ l => if l % 2 = 0 then a (l + 1) else a (l - 1)),
   (.vmov, fun a _ _ l => a l)]

/-- R255: the shifts, whose count is at most 23; VSRA rounds to nearest, ties to even. -/
def Sys2Proof.Expected.laneShifts : List ((Fin 17 → Syl → Instr) × (Int → Nat → Int)) :=
  [(.vshl, fun a n => a * 2 ^ n), (.vsra, fun a n => rne a n)]

/-- The conditions of VCMP (R255). -/
def Sys2Proof.Expected.laneCompares (n : Nat) (a b : Int) : Bool :=
  match n with
  | 0 => decide (a = b) | 1 => decide (a ≠ b) | 2 => decide (a < b) | 3 => decide (b ≤ a) | 4 => decide (a ≤ b) | _ => decide (b < a)

/-- R256: exact products from the lanes of a and b, imm11 and the lane. -/
def Sys2Proof.Expected.products : List ((Fin 17 → Syl → Instr) × ((Nat → Int) → (Nat → Int) → Nat → Nat → Int)) :=
  [(.vmul, fun a b _ l => a l * b l),
   (.vmulC, fun a b _ l => if l % 2 = 0 then a l * b l - a (l + 1) * b (l + 1) else a (l - 1) * b l + a l * b (l - 1)),
   (.vmulL, fun a b m l => a l * b (m % 8)), (.aset, fun a _ _ l => a l * 2 ^ 23)]

/-- R256: exact sums of the accumulator lane with products. -/
def Sys2Proof.Expected.sums : List ((Fin 17 → Syl → Instr) × (Int → (Nat → Int) → (Nat → Int) → Nat → Nat → Int)) :=
  [(.vmac, fun s a b _ l => s + a l * b l), (.vmsu, fun s a b _ l => s - a l * b l),
   (.vmacC, fun s a b _ l => s + if l % 2 = 0 then a l * b l - a (l + 1) * b (l + 1) else a (l - 1) * b l + a l * b (l - 1)),
   (.vmacJ, fun s a b _ l => s + if l % 2 = 0 then a l * b l + a (l + 1) * b (l + 1) else a l * b (l - 1) - a (l - 1) * b l),
   (.vmacL, fun s a b m l => s + a l * b (m % 8))]

/-- R258: bytes a scalar load reads, and its results by destination number and value read. -/
def Sys2Proof.Expected.loads : List ((Fin 17 → Syl → Instr) × Nat × (Nat → Nat → List (Dst × Int))) :=
  [(.ldB, 1, fun d v => [(.s d, (BitVec.ofNat 8 v).toInt)]), (.ldBu, 1, fun d v => [(.s d, (v : Int))]),
   (.ldH, 2, fun d v => [(.s d, (BitVec.ofNat 16 v).toInt)]), (.ldHu, 2, fun d v => [(.s d, (v : Int))]),
   (.ldW, 4, fun d v => [(.s d, (v : Int))]),
   (.ldD, 8, fun d v => [(.s d, ((v % 2 ^ 32 : Nat) : Int)), (.s (d + 1), ((v / 2 ^ 32 : Nat) : Int))])]

/-- R258: bytes a scalar store writes, and its value. -/
noncomputable def Sys2Proof.Expected.stores : List ((Fin 17 → Syl → Instr) × Nat × (CoreSt → Nat → Nat)) :=
  [(.stB, 1, fun k d => (k.sreg d).toNat), (.stH, 2, fun k d => (k.sreg d).toNat), (.stW, 4, fun k d => (k.sreg d).toNat),
   (.stD, 8, fun k d => (k.sreg (d + 1) ++ k.sreg d).toNat)]

/-- The values a unit's QUERY, U.TIME and U.DENS CELL return (R94, R122, R144, R179, R189, R212, R259 to R262). -/
noncomputable def Sys2Proof.Expected.queries : List ((Fin 17 → Syl → Instr) × (State → Fin 17 → Syl → Nat)) :=
  [(.filtQuery, fun s c _ => (s.live (.filt c) R.FILT_STATUS.state.off).toNat % 2 ^ 32),
   (.fftQuery, fun s c _ => (s.live (.filt c) R.XF_STATUS.state.off).toNat % 2 ^ 32),
   (.trigQuery, fun s c _ => (s.live (.trig c) R.TRIG_STATUS.arm_state.off).toNat % 2 ^ 32),
   (.recQuery, fun s c _ => (s.live (.records c) R.REC_OPEN.held.off).toNat % 2 ^ 32),
   (.synQuery, fun s c _ => (s.live (.records c) R.SYN_STATUS.state.off).toNat % 2 ^ 32),
   (.chanQuery, fun s c _ => (s.live .chan (R.CHAN_CTRL.commit c).off).toNat % 2 ^ 32),
   (.densQuery, fun s c y => (s.live (.records c) (R.DENS_SAT.sat_count (((s.cores[c]).sreg y.an).toNat % 4)).off).toNat % 2 ^ 32),
   (.redQuery, fun s c _ => (s.cores[c]).tap.status),
   (.cell, fun s c y => s.cell c (((s.cores[c]).sreg y.an).toNat % 4) (((s.cores[c]).sreg y.bn).toNat % 256)
     (((s.cores[c]).sreg y.bn).toNat / 256 % 2 ^ 11)),
   (.bound, fun s _ _ => s.bTb % 2 ^ 16 + 2 ^ 16 * (s.quality % 4))]

/-- Fitting: a result that fits is kept; one that does not is clipped with CSW.sat, and otherwise keeps its low bits. Lane operations write
their guarded lanes, fitted to 24 bits, with CSW.ovf set when one did not fit, and nothing else; a result with a residue error is written all
the same, and is flagged and counted (R226, R228, R255). -/
def Obligations.LaneResults : Prop :=
  (∀ (w : Nat) (x : Int), 0 < w →
    (fit w true x).1 = max (-2 ^ (w - 1)) (min (2 ^ (w - 1) - 1) x) ∧ (fit w false x).1 = (BitVec.ofInt w x).toInt ∧
    ((fit w true x).2 = true ↔ x < -2 ^ (w - 1) ∨ 2 ^ (w - 1) ≤ x) ∧ (fit w false x).2 = (fit w true x).2) ∧
  (∀ p ∈ Sys2Proof.Expected.laneOps, ∀ (s : State) (c : Fin 17) (y : Syl), s.Quiet c → y.last = true → y.res = false →
    exec (p.1 c y) s = .next (s.bundleDone c ((s.cores[c]).puts
      (laneFits 24 (s.cswSat c) (.v (s.phys c y.dn)) (s.lanesOn c y) (p.2 (s.vr c y.an) (s.vr c y.bn) y.mn)).1)
      (laneFits 24 (s.cswSat c) (.v (s.phys c y.dn)) (s.lanesOn c y) (p.2 (s.vr c y.an) (s.vr c y.bn) y.mn)).2)) ∧
  (∀ p ∈ Sys2Proof.Expected.laneShifts, ∀ (s : State) (c : Fin 17) (y : Syl), s.Quiet c → y.last = true → y.res = false → y.mn % 32 ≤ 23 →
    exec (p.1 c y) s = .next (s.bundleDone c ((s.cores[c]).puts
      (laneFits 24 (s.cswSat c) (.v (s.phys c y.dn)) (s.lanesOn c y) (fun l => p.2 (s.vr c y.an l) (y.mn % 32))).1)
      (laneFits 24 (s.cswSat c) (.v (s.phys c y.dn)) (s.lanesOn c y) (fun l => p.2 (s.vr c y.an l) (y.mn % 32))).2)) ∧
  (∀ (s : State) (c : Fin 17) (y : Syl), s.Quiet c → y.last = true → y.res = false → exec (.vbcast c y) s = .next (s.bundleDone c ((s.cores[c]).puts
      (laneFits 24 (s.cswSat c) (.v (s.phys c y.dn)) (s.lanesOn c y) (fun _ => ((s.cores[c]).sreg y.an).toInt)).1)
      (laneFits 24 (s.cswSat c) (.v (s.phys c y.dn)) (s.lanesOn c y) (fun _ => ((s.cores[c]).sreg y.an).toInt)).2)) ∧
  (∀ (s : State) (c : Fin 17) (y : Syl), s.Quiet c → y.last = true → y.res = false → exec (.vins c y) s = .next (s.bundleDone c ((s.cores[c]).puts
      (laneFits 24 (s.cswSat c) (.v (s.phys c y.dn)) ([y.mn % 8].filter (s.guard c y)) (fun _ => ((s.cores[c]).sreg y.an).toInt)).1)
      (laneFits 24 (s.cswSat c) (.v (s.phys c y.dn)) ([y.mn % 8].filter (s.guard c y)) (fun _ => ((s.cores[c]).sreg y.an).toInt)).2)) ∧
  (∀ (s : State) (c : Fin 17) (y : Syl), s.Quiet c → y.last = true → y.res = false → exec (.vsel c y) s = .next (s.bundleDone c ((s.cores[c]).puts
      ((List.range 8).map (fun l => (Dst.v (s.phys c y.dn) l, if s.guard c y l then s.vr c y.an l else s.vr c y.bn l)))) false)) ∧
  (∀ p ∈ Sys2Proof.Expected.laneOps, ∀ (s : State) (c : Fin 17) (y : Syl), s.Quiet c → y.last = true → y.res = true → s.lanesOn c y ≠ [] →
    Completes (p.1 c y) s (fun t => t.flag (.core c) R.CORE_CSW.res = true ∧ t.rd (.core c) R.CORE_FAULT.residue = 1 ∧
      t.rd (.filt c) R.RESIDUE_CTRL.residue_errors
        = min (s.rd (.filt c) R.RESIDUE_CTRL.residue_errors + 1) R.RESIDUE_CTRL.residue_errors.top ∧
      (t.cores[c]).v = ((s.cores[c]).puts (laneFits 24 (s.cswSat c) (.v (s.phys c y.dn)) (s.lanesOn c y)
        (p.2 (s.vr c y.an) (s.vr c y.bn) y.mn)).1).v ∧ t.pc c = s.pc c + 1 ∧ t.mem = s.mem))

/-- The vector operations with a scalar or predicate result: VCMP sets its guarded bits of Pd, VEXT and VEXTR give a lane, VMAXX and
VMINX the index of the first best guarded lane or 8; VMAXR and VMINR keep the best value and its index by lane (R255). -/
def Obligations.LaneReductions : Prop :=
  (∀ (s : State) (c : Fin 17) (y : Syl), s.Quiet c → y.last = true → y.res = false → 0 < y.dn → y.dn ≤ 7 → y.mn % 8 ≤ 5 → Completes (.vcmp c y) s (fun t =>
    (∀ l, l < 8 → ((t.cores[c]).preg y.dn).getLsbD l = if s.guard c y l
      then Sys2Proof.Expected.laneCompares (y.mn % 8) (s.vr c y.an l) (s.vr c y.bn l) else ((s.cores[c]).preg y.dn).getLsbD l) ∧
    (∀ n, n ≠ y.dn → (t.cores[c]).preg n = (s.cores[c]).preg n) ∧ (t.cores[c]).v = (s.cores[c]).v ∧ (t.cores[c]).s = (s.cores[c]).s ∧
    t.pc c = s.pc c + 1 ∧ t.mem = s.mem ∧ SameOutside (.core c) s t)) ∧
  (∀ (s : State) (c : Fin 17) (y : Syl), s.Quiet c → y.last = true → y.res = false → exec (.vext c y) s = .next (s.bundleDone c
    (if s.guard0 c y then (s.cores[c]).setS y.dn (BitVec.ofInt 32 (s.vr c y.an (y.mn % 8))) else s.cores[c]) false)) ∧
  (∀ (s : State) (c : Fin 17) (y : Syl), s.Quiet c → y.last = true → y.res = false → exec (.vextr c y) s = .next (s.bundleDone c
    (if s.guard0 c y then (s.cores[c]).setS y.dn (BitVec.ofInt 32 (s.vr c y.an (((s.cores[c]).sreg y.bn).toNat % 8)))
     else s.cores[c]) false)) ∧
  (∀ (s : State) (c : Fin 17) (y : Syl) (m : Nat), s.Quiet c → y.last = true → y.res = false → m < 8 → s.guard c y m = true →
    (∀ l, l < 8 → s.guard c y l = true → s.vr c y.an l < s.vr c y.an m ∨ (s.vr c y.an l = s.vr c y.an m ∧ m ≤ l)) →
    exec (.vmaxx c y) s = .next (s.bundleDone c ((s.cores[c]).setS y.dn (BitVec.ofNat 32 m)) false)) ∧
  (∀ (s : State) (c : Fin 17) (y : Syl) (m : Nat), s.Quiet c → y.last = true → y.res = false → m < 8 → s.guard c y m = true →
    (∀ l, l < 8 → s.guard c y l = true → s.vr c y.an m < s.vr c y.an l ∨ (s.vr c y.an l = s.vr c y.an m ∧ m ≤ l)) →
    exec (.vminx c y) s = .next (s.bundleDone c ((s.cores[c]).setS y.dn (BitVec.ofNat 32 m)) false)) ∧
  (∀ p ∈ ([.vmaxx, .vminx] : List (Fin 17 → Syl → Instr)), ∀ (s : State) (c : Fin 17) (y : Syl), s.Quiet c → y.last = true → y.res = false →
    s.lanesOn c y = [] → exec (p c y) s = .next (s.bundleDone c ((s.cores[c]).setS y.dn 8) false)) ∧
  (∀ (s : State) (c : Fin 17) (y : Syl), s.Quiet c → y.last = true → y.res = false → y.dn % 2 = 0 → s.phys c (y.dn + 1) ≠ s.phys c y.dn →
    -2 ^ 23 ≤ ((s.cores[c]).sreg y.bn).toInt → ((s.cores[c]).sreg y.bn).toInt < 2 ^ 23 → Completes (.vmaxr c y) s (fun t =>
      (∀ l, l < 8 → (t.cores[c]).rv (s.phys c y.dn) l = (if s.guard c y l then max (s.vr c y.dn l) (s.vr c y.an l) else s.vr c y.dn l) ∧
        (t.cores[c]).rv (s.phys c (y.dn + 1)) l = (if s.guard c y l ∧ s.vr c y.dn l < s.vr c y.an l
          then ((s.cores[c]).sreg y.bn).toInt else s.vr c (y.dn + 1) l)) ∧ t.pc c = s.pc c + 1 ∧ SameOutside (.core c) s t)) ∧
  (∀ (s : State) (c : Fin 17) (y : Syl), s.Quiet c → y.last = true → y.res = false → y.dn % 2 = 0 → s.phys c (y.dn + 1) ≠ s.phys c y.dn →
    -2 ^ 23 ≤ ((s.cores[c]).sreg y.bn).toInt → ((s.cores[c]).sreg y.bn).toInt < 2 ^ 23 → Completes (.vminr c y) s (fun t =>
      (∀ l, l < 8 → (t.cores[c]).rv (s.phys c y.dn) l = (if s.guard c y l then min (s.vr c y.dn l) (s.vr c y.an l) else s.vr c y.dn l) ∧
        (t.cores[c]).rv (s.phys c (y.dn + 1)) l = (if s.guard c y l ∧ s.vr c y.an l < s.vr c y.dn l
          then ((s.cores[c]).sreg y.bn).toInt else s.vr c (y.dn + 1) l)) ∧ t.pc c = s.pc c + 1 ∧ SameOutside (.core c) s t))

/-- Multiply-accumulate and accumulator moves: their results, fitted to 56, 24 or 32 bits, are in flight for two more bundles, and nothing
else changes (R227, R230, R256, R257). -/
def Obligations.AccumulatorResults : Prop :=
  (∀ p ∈ Sys2Proof.Expected.products, ∀ (s : State) (c : Fin 17) (y : Syl), s.Quiet c → y.last = true → y.dn ≤ 7 →
    exec (p.1 c y) s = .next (s.bundleDone c ((s.cores[c]).flying 2 2 false y.res
      ((s.lanesOn c y).map (fun l => (Dst.a y.dn l, p.2 (s.vr c y.an) (s.vr c y.bn) y.mn l)))) false)) ∧
  (∀ p ∈ Sys2Proof.Expected.sums, ∀ (s : State) (c : Fin 17) (y : Syl), s.Quiet c → y.last = true → y.dn ≤ 7 →
    exec (p.1 c y) s = .next (s.bundleDone c ((s.cores[c]).flying 2 2 false y.res (withOvf (laneFits 56 (s.cswSat c) (.a y.dn) (s.lanesOn c y)
      (fun l => p.2 ((s.cores[c]).ra y.dn l) (s.vr c y.an) (s.vr c y.bn) y.mn l)))) false)) ∧
  (∀ (s : State) (c : Fin 17) (y : Syl), s.Quiet c → y.last = true → y.dn ≤ 7 → exec (.vmacP c y) s = .next (s.bundleDone c
    ((s.cores[c]).flying 2 2 false y.res (withOvf (laneFits 56 (s.cswSat c) (.a y.dn) ((s.lanesOn c y).filter (fun l => decide (l % 2 = 0)))
      (fun l => (s.cores[c]).ra y.dn l + s.vr c y.an l * s.vr c y.an l + s.vr c y.an (l + 1) * s.vr c y.an (l + 1))))) false)) ∧
  (∀ (s : State) (c : Fin 17) (y : Syl), s.Quiet c → y.last = true → y.dn ≤ 7 → exec (.vmulS c y) s = .next (s.bundleDone c
    ((s.cores[c]).flying 2 2 false y.res (withOvf ((s.lanesOn c y).map (fun l => (Dst.a y.dn l,
      s.vr c y.an l * (fit 24 (s.cswSat c) ((s.cores[c]).sreg y.bn).toInt).1)),
      (s.lanesOn c y).any (fun _ => (fit 24 (s.cswSat c) ((s.cores[c]).sreg y.bn).toInt).2)))) false)) ∧
  (∀ (s : State) (c : Fin 17) (y : Syl), s.Quiet c → y.last = true → y.dn ≤ 7 →
    (fit 24 (s.cswSat c) ((s.cores[c]).sreg y.bn).toInt).2 = false → exec (.vmacS c y) s = .next (s.bundleDone c
    ((s.cores[c]).flying 2 2 false y.res (withOvf (laneFits 56 (s.cswSat c) (.a y.dn) (s.lanesOn c y)
      (fun l => (s.cores[c]).ra y.dn l + s.vr c y.an l * ((s.cores[c]).sreg y.bn).toInt)))) false)) ∧
  (∀ (s : State) (c : Fin 17) (y : Syl), s.Quiet c → y.last = true → y.an ≤ 7 → exec (.amovV c y) s = .next (s.bundleDone c
    ((s.cores[c]).flying 2 2 false y.res (withOvf (laneFits 24 (s.cswSat c) (.v (s.phys c y.dn)) (s.lanesOn c y)
      (fun l => rne ((s.cores[c]).ra y.an l) (23 - s.cswScale c).toNat)))) false)) ∧
  (∀ (s : State) (c : Fin 17) (y : Syl), s.Quiet c → y.last = true → y.an ≤ 7 → s.guard0 c y = true → exec (.amovS c y) s =
    .next (s.bundleDone c ((s.cores[c]).flying 2 2 false y.res (withOvf (laneFits 32 (s.cswSat c) (fun _ => .s y.dn) [y.mn % 8]
      (fun l => rne ((s.cores[c]).ra y.an l) (23 - s.cswScale c).toNat)))) false)) ∧
  (∀ (s : State) (c : Fin 17) (y : Syl), s.Quiet c → y.last = true → y.an ≤ 7 → y.mn % 4 ≤ 2 → exec (.amovR c y) s = .next (s.bundleDone c
    ((s.cores[c]).flying 2 2 false y.res ((s.lanesOn c y).map (fun l => (Dst.v (s.phys c y.dn) l,
      (if y.mn % 4 = 2 then ((BitVec.ofInt 56 ((s.cores[c]).ra y.an l)).extractLsb' 48 8).toInt
       else ((BitVec.ofInt 56 ((s.cores[c]).ra y.an l)).extractLsb' (24 * (y.mn % 4)) 24).toInt))))) false)) ∧
  (∀ (s : State) (c : Fin 17) (y : Syl), s.Quiet c → y.last = true → y.dn ≤ 7 → exec (.aclr c y) s = .next (s.bundleDone c
    ((s.cores[c]).flying 2 2 false y.res ((s.lanesOn c y).map (fun l => (Dst.a y.dn l, 0)))) false)) ∧
  (∀ (s : State) (c : Fin 17) (y : Syl), s.Quiet c → y.last = true → y.dn ≤ 7 → y.an ≤ 7 → y.bn ≤ 7 → exec (.aadd c y) s =
    .next (s.bundleDone c ((s.cores[c]).flying 2 2 false y.res (withOvf (laneFits 56 (s.cswSat c) (.a y.dn) (s.lanesOn c y)
      (fun l => (s.cores[c]).ra y.an l + (s.cores[c]).ra y.bn l)))) false)) ∧
  (∀ (s : State) (c : Fin 17) (y : Syl), s.Quiet c → y.last = true → y.dn ≤ 7 → y.an ≤ 7 → exec (.asum c y) s = .next (s.bundleDone c
    ((s.cores[c]).flying 2 2 false y.res (withOvf (laneFits 56 (s.cswSat c) (.a y.dn) (List.range 8)
      (fun l => if l = 0 then ((s.lanesOn c y).map ((s.cores[c]).ra y.an)).sum else 0)))) false)) ∧
  (∀ (s : State) (c : Fin 17) (y : Syl), s.Quiet c → y.last = true → y.dn ≤ 7 → y.an ≤ 7 → exec (.asumC c y) s = .next (s.bundleDone c
    ((s.cores[c]).flying 2 2 false y.res (withOvf (laneFits 56 (s.cswSat c) (.a y.dn) (List.range 8)
      (fun l => if l < 2 then (((s.lanesOn c y).filter (fun i => decide (i % 2 = l))).map ((s.cores[c]).ra y.an)).sum else 0)))) false))

/-- Loads: the value at the address is in flight, interlocked, for three more bundles (four with a rotation), the address register takes
its post-increment, and nothing else changes; a form whose guard is 0 does nothing (R230, R232, R233, R236, R258). -/
def Obligations.LoadResults : Prop :=
  (∀ p ∈ Sys2Proof.Expected.loads, ∀ (s : State) (c : Fin 17) (y : Syl) (m : SramId) (o : Nat), s.Quiet c → y.last = true → y.an ≤ 15 →
    y.u = false → (p.2.1 = 8 → y.dn % 2 = 0) → s.guard0 c y = true → (s.cores[c]).rx y.an % 2 ^ 32 % p.2.1 = 0 →
    sramOffset c ((s.cores[c]).rx y.an % 2 ^ 32) p.2.1 = some (m, o) → s.firstBad m o p.2.1 = none →
    exec (p.1 c y) s = .next ((xAdvance ((s.cores[c]).rx y.an) (if y.r then ((s.cores[c]).sreg y.bn).toInt else y.memImm) s).2.bundleDone c
      (((s.cores[c]).put (.x y.an) (xAdvance ((s.cores[c]).rx y.an) (if y.r then ((s.cores[c]).sreg y.bn).toInt else y.memImm) s).1).flying
        3 3 true false (p.2.2 y.dn (leNat (s.sramRead m o p.2.1)))) false)) ∧
  (∀ p ∈ Sys2Proof.Expected.loads, ∀ (s : State) (c : Fin 17) (y : Syl), s.Quiet c → y.last = true → y.an ≤ 15 → y.u = false →
    (p.2.1 = 8 → y.dn % 2 = 0) → s.guard0 c y = false → exec (p.1 c y) s = .next (s.bundleDone c (s.cores[c]) false)) ∧
  (∀ (s : State) (c : Fin 17) (y : Syl) (m : SramId) (o : Nat), s.Quiet c → y.last = true → y.an ≤ 15 → s.lanesOn c y ≠ [] →
    ((s.cores[c]).rx y.an % 2 ^ 32 % 32 = 0 ∨ (y.u = true ∧ (s.cores[c]).rx y.an % 2 ^ 32 < 0x800000)) →
    sramOffset c ((s.cores[c]).rx y.an % 2 ^ 32) 32 = some (m, o) → s.firstBad m o 32 = none →
    exec (.vldW c y) s = .next ((xAdvance ((s.cores[c]).rx y.an) (if y.r then ((s.cores[c]).sreg y.bn).toInt else y.memImm) s).2.bundleDone c
      (((s.cores[c]).put (.x y.an) (xAdvance ((s.cores[c]).rx y.an) (if y.r then ((s.cores[c]).sreg y.bn).toInt else y.memImm) s).1).flying
        (if y.u then 4 else 3) 3 true false ((s.lanesOn c y).map (fun l => (Dst.v (s.phys c y.dn) l,
          (BitVec.ofNat 24 (leNat (((s.sramRead m o 32).drop (4 * l)).take 4))).toInt)))) false)) ∧
  (∀ (s : State) (c : Fin 17) (y : Syl) (m : SramId) (o : Nat), s.Quiet c → y.last = true → y.an ≤ 15 → s.lanesOn c y ≠ [] →
    ((s.cores[c]).rx y.an % 2 ^ 32 % 16 = 0 ∨ (y.u = true ∧ (s.cores[c]).rx y.an % 2 ^ 32 < 0x800000)) →
    sramOffset c ((s.cores[c]).rx y.an % 2 ^ 32) 16 = some (m, o) → s.firstBad m o 16 = none →
    exec (.vldH c y) s = .next ((xAdvance ((s.cores[c]).rx y.an) (if y.r then ((s.cores[c]).sreg y.bn).toInt else y.memImm) s).2.bundleDone c
      (((s.cores[c]).put (.x y.an) (xAdvance ((s.cores[c]).rx y.an) (if y.r then ((s.cores[c]).sreg y.bn).toInt else y.memImm) s).1).flying
        (if y.u then 4 else 3) 3 true false ((s.lanesOn c y).map (fun l => (Dst.v (s.phys c y.dn) l,
          256 * (BitVec.ofNat 16 (leNat (((s.sramRead m o 16).drop (2 * l)).take 2))).toInt)))) false))

/-- Stores write exactly their bytes, little-endian, and no other byte of any memory; a vector store only those of guarded lanes
(R232, R233, R258). -/
def Obligations.StoreResults : Prop :=
  (∀ p ∈ Sys2Proof.Expected.stores, ∀ (s : State) (c : Fin 17) (y : Syl) (m : SramId) (o : Nat), s.Quiet c → y.last = true → y.an ≤ 15 →
    y.u = false → (p.2.1 = 8 → y.dn % 2 = 0) → s.guard0 c y = true → (s.cores[c]).rx y.an % 2 ^ 32 % p.2.1 = 0 →
    sramOffset c ((s.cores[c]).rx y.an % 2 ^ 32) p.2.1 = some (m, o) → s.firstBad m o p.2.1 = none → Completes (p.1 c y) s (fun t =>
      (∀ a, SMap.get zeroByte (t.sram m) a = if o ≤ a ∧ a < o + p.2.1 then BitVec.ofNat 8 (p.2.2 (s.cores[c]) y.dn / 256 ^ (a - o))
        else SMap.get zeroByte (s.sram m) a) ∧ (∀ n, n ≠ m → t.sram n = s.sram n) ∧ t.mem.dram = s.mem.dram ∧
      (t.cores[c]).s = (s.cores[c]).s ∧ (t.cores[c]).v = (s.cores[c]).v ∧ (t.cores[c]).pipe = [] ∧ t.pc c = s.pc c + 1 ∧
      SameOutside (.core c) s t)) ∧
  (∀ (s : State) (c : Fin 17) (y : Syl) (m : SramId) (o : Nat), s.Quiet c → y.last = true → y.an ≤ 15 → s.lanesOn c y ≠ [] →
    (s.cores[c]).rx y.an % 2 ^ 32 % 32 = 0 → sramOffset c ((s.cores[c]).rx y.an % 2 ^ 32) 32 = some (m, o) → s.firstBad m o 32 = none →
    Completes (.vstW c y) s (fun t => (∀ a, SMap.get zeroByte (t.sram m) a = if o ≤ a ∧ a < o + 32 ∧ s.guard c y ((a - o) / 4) = true
        then BitVec.ofNat 8 (code 32 (s.vr c y.dn ((a - o) / 4)) / 256 ^ ((a - o) % 4)) else SMap.get zeroByte (s.sram m) a) ∧
      (∀ n, n ≠ m → t.sram n = s.sram n) ∧ t.mem.dram = s.mem.dram ∧ t.pc c = s.pc c + 1 ∧ SameOutside (.core c) s t)) ∧
  (∀ (s : State) (c : Fin 17) (y : Syl) (m : SramId) (o : Nat), s.Quiet c → y.last = true → y.an ≤ 15 → s.lanesOn c y ≠ [] →
    (s.cores[c]).rx y.an % 2 ^ 32 % 16 = 0 → sramOffset c ((s.cores[c]).rx y.an % 2 ^ 32) 16 = some (m, o) → s.firstBad m o 16 = none →
    Completes (.vstH c y) s (fun t => (∀ a, SMap.get zeroByte (t.sram m) a = if o ≤ a ∧ a < o + 16 ∧ s.guard c y ((a - o) / 2) = true
        then BitVec.ofNat 8 (code 16 (max (-32768) (min 32767 (rne (s.vr c y.dn ((a - o) / 2)) 8))) / 256 ^ ((a - o) % 2))
        else SMap.get zeroByte (s.sram m) a) ∧
      (∀ n, n ≠ m → t.sram n = s.sram n) ∧ t.mem.dram = s.mem.dram ∧ t.pc c = s.pc c + 1 ∧ SameOutside (.core c) s t))

/-- Address registers: XSET, XGET, XADD, and the linear, circular and bit-reversed post-increments; a wrap span above 23 bits in the last two
has no stated result and takes a free value. A misaligned access takes exception 2 with its address, an access outside the map exception 1,
and an illegal encoding exception 0; none writes memory (R232, R234, R236, R241, R251). -/
def Obligations.AddressesAndExceptions : Prop :=
  (∀ (s : State) (c : Fin 17) (y : Syl), s.Quiet c → y.last = true → y.dn ≤ 15 → exec (.xset c y) s = .next (s.bundleDone c
    ((s.cores[c]).put (.x y.dn) ((((s.cores[c]).sreg y.bn).extractLsb' 0 7 ++ (s.cores[c]).sreg y.an : BitVec 39).toNat : Int)) false)) ∧
  (∀ (s : State) (c : Fin 17) (y : Syl), s.Quiet c → y.last = true → y.an ≤ 15 → exec (.xget c y) s = .next (s.bundleDone c
    ((s.cores[c]).setS y.dn (BitVec.ofNat 32 ((s.cores[c]).rx y.an))) false)) ∧
  (∀ (s : State) (c : Fin 17) (y : Syl), s.Quiet c → y.last = true → y.an ≤ 15 → s.guard0 c y = true →
    exec (.xadd c y) s = .next ((xAdvance ((s.cores[c]).rx y.an) (if y.r then ((s.cores[c]).sreg y.bn).toInt else y.memImm) s).2.bundleDone c
      ((s.cores[c]).put (.x y.an) (xAdvance ((s.cores[c]).rx y.an) (if y.r then ((s.cores[c]).sreg y.bn).toInt else y.memImm) s).1) false)) ∧
  (∀ (s : State) (x : Nat) (i : Int), x / 2 ^ 32 % 4 = 0 → (xAdvance x i s).2 = s ∧
    (xAdvance x i s).1 % 2 ^ 32 = (BitVec.ofNat 32 x + BitVec.ofInt 32 i).toNat ∧ (xAdvance x i s).1 / 2 ^ 32 = x / 2 ^ 32) ∧
  (∀ (s : State) (x : Nat) (i : Int) (w : Nat), x / 2 ^ 32 % 4 = 1 → w = x / 2 ^ 34 % 32 → 4 ≤ w → w ≤ 23 → (xAdvance x i s).2 = s ∧
    ((xAdvance x i s).1 % 2 ^ w : Int) = (x + i) % 2 ^ w ∧ (xAdvance x i s).1 / 2 ^ w = x / 2 ^ w) ∧
  (∀ (s : State) (x : Nat) (i : Int) (w : Nat), x / 2 ^ 32 % 4 = 2 → w = x / 2 ^ 34 % 32 → 4 ≤ w → w ≤ 23 → (xAdvance x i s).2 = s ∧
    (xAdvance x i s).1 / 2 ^ w = x / 2 ^ w ∧
    bitRev w ((xAdvance x i s).1 % 2 ^ w) = (bitRev w (x % 2 ^ w) + bitRev w ((i % 2 ^ w).toNat)) % 2 ^ w) ∧
  (∀ p ∈ Sys2Proof.Expected.loads ++ [(.stH, 2, fun _ _ => []), (.stW, 4, fun _ _ => []), (.stD, 8, fun _ _ => [])], ∀ (s : State)
    (c : Fin 17) (y : Syl), s.Quiet c → s.flag (.core c) R.CORE_CSW.in_exc = false → y.an ≤ 15 → y.u = false → y.dn % 2 = 0 →
    s.guard0 c y = true → (s.cores[c]).rx y.an % 2 ^ 32 % p.2.1 ≠ 0 → Completes (p.1 c y) s (fun t =>
      t.pc c = 0x120 ∧ t.rd (.core c) R.CORE_EXC.ecause = 2 ∧ t.rd (.core c) R.CORE_EXC.eaddr = (s.cores[c]).rx y.an % 2 ^ 32 ∧
      t.rd (.core c) R.CORE_EXC.epc = s.pc c ∧ t.mem = s.mem ∧ (t.cores[c]).s = (s.cores[c]).s)) ∧
  (∀ p ∈ Sys2Proof.Expected.loads, ∀ (s : State) (c : Fin 17) (y : Syl), s.Quiet c → s.flag (.core c) R.CORE_CSW.in_exc = false →
    y.last = true → y.an ≤ 15 → y.u = false → y.dn % 2 = 0 → s.guard0 c y = true → (s.cores[c]).rx y.an % 2 ^ 32 % p.2.1 = 0 →
    0xC000000 ≤ (s.cores[c]).rx y.an % 2 ^ 32 → Completes (p.1 c y) s (fun t => t.pc c = 0x110 ∧
      t.rd (.core c) R.CORE_EXC.ecause = 1 ∧ t.rd (.core c) R.CORE_EXC.eaddr = (s.cores[c]).rx y.an % 2 ^ 32 ∧ t.mem = s.mem)) ∧
  (∀ p ∈ ([.vshl, .vsra] : List (Fin 17 → Syl → Instr)), ∀ (s : State) (c : Fin 17) (y : Syl), s.Quiet c →
    s.flag (.core c) R.CORE_CSW.in_exc = false → 23 < y.mn % 32 → Completes (p c y) s (fun t => t.pc c = 0x100 ∧
      t.rd (.core c) R.CORE_EXC.ecause = 0 ∧ t.rd (.core c) R.CORE_EXC.epc = s.pc c ∧ (t.cores[c]).v = (s.cores[c]).v)) ∧
  (∀ p ∈ Sys2Proof.Expected.products ++ [(.aclr, fun _ _ _ _ => 0)], ∀ (s : State) (c : Fin 17) (y : Syl), s.Quiet c →
    s.flag (.core c) R.CORE_CSW.in_exc = false → 7 < y.dn → Completes (p.1 c y) s (fun t => t.pc c = 0x100 ∧
      t.rd (.core c) R.CORE_EXC.ecause = 0 ∧ (t.cores[c]).a = (s.cores[c]).a ∧ (t.cores[c]).pipe = []))

/-- Unit syllables that return a value have it in flight, interlocked, for three more bundles; TAP takes the tap or is refused (R259 to R262). -/
def Obligations.UnitQueries : Prop :=
  (∀ p ∈ Sys2Proof.Expected.queries, ∀ (s : State) (c : Fin 17) (y : Syl), s.Quiet c → y.last = true → exec (p.1 c y) s =
    .next (s.bundleDone c (if s.guard0 c y then (s.cores[c]).flying 3 3 true false [(.s y.dn, (p.2 s c y : Int))] else s.cores[c]) false)) ∧
  (∀ (s : State) (c : Fin 17) (y : Syl), s.Quiet c → y.last = true → y.dn ≤ 29 → s.guard0 c y = true → exec (.now c y) s =
    .next (s.bundleDone c ((s.cores[c]).flying 3 3 true false [(.s y.dn, ((s.nowT96.extractLsb' 0 32).toNat : Int)),
      (.s (y.dn + 1), ((s.nowT96.extractLsb' 32 32).toNat : Int)), (.s (y.dn + 2), ((s.nowT96.extractLsb' 64 32).toNat : Int))]) false)) ∧
  (∀ (s : State) (c : Fin 17) (y : Syl), s.Quiet c → y.last = true → s.guard0 c y = true →
    s.tapRefused c (((s.cores[c]).sreg y.an).toNat % 2 ^ 20) (((s.cores[c]).sreg y.bn).toNat % 2 ^ 17) = false →
    Completes (.tap c y) s (fun t => (t.cores[c]).tap = ⟨true, false, false, false, false, ((s.cores[c]).sreg y.an).toNat % 2 ^ 20,
      ((s.cores[c]).sreg y.bn).toNat % 2 ^ 17, 0, 0, 0, 0, 0⟩ ∧ t.pc c = s.pc c + 1 ∧ t.mem = s.mem ∧ SameOutside (.core c) s t)) ∧
  (∀ (s : State) (c : Fin 17) (y : Syl), s.Quiet c → y.last = true → s.guard0 c y = true →
    s.tapRefused c (((s.cores[c]).sreg y.an).toNat % 2 ^ 20) (((s.cores[c]).sreg y.bn).toNat % 2 ^ 17) = true →
    Completes (.tap c y) s (fun t => (t.cores[c]).tap = { (s.cores[c]).tap with refused := true } ∧ t.mem = s.mem
      ∧ SameOutside (.core c) s t)) ∧
  (∀ (s : State) (c : Fin 17), s.coreRuns = true → (s.cores[c]).tap.busy = true → (s.cores[c]).tap.written = (s.cores[c]).tap.count →
    Completes (.tapDone c) s (fun t => (t.cores[c]).tap.busy = false ∧ (t.cores[c]).tap.done = true ∧ (t.cores[c]).tap.short = false ∧
      memRead (t.mem.lmem[c]) (8 * (s.cores[c]).tap.laddr) 32 = leBytes 8 (s.cores[c]).tap.first ++ leBytes 12 (s.cores[c]).tap.t96.toNat
        ++ leBytes 2 (s.cores[c]).tap.bound ++ leBytes 1 (s.cores[c]).tap.flags ++ [0] ++ leBytes 4 (s.cores[c]).tap.written
        ++ [0, 0, 0, 0] ∧ nbit (t.rd (.core c) R.INT_PEND.pending) 2 = true))

/-! ### Filter chain and transform engine (R81 to R122) -/

/-- Samples through a slice: a delivery takes one entry of ingest; off the decimation grid it only enters the history, a lost one clears
it, and on the grid an output is delivered. A new run discards the history and restarts the indices; a caravan boundary applies the
pending retune (R81, R88, R90, R95, R97, R436). -/
def Obligations.SamplesThroughSlice : Prop :=
  (∀ (s : State) (g : Fin 16) (i : Fin 17) (b : Batch) (x : Smp) (rest : List (List Batch)), s.coreRuns = true → s.sharedWedged 0 = false →
    s.flag (.filt i) R.BLOCK_STATUS.quiescing = false →
    (s.rx[g]).ferry = [b] :: rest → rest.length < 512 → b.bonded = false → b.samples = [x] → x.lost = false → s.takers b.ctx = [i] →
    (s.chains[i]).run = some b.run → (s.chains[i]).any = true → (s.chains[i]).next = b.first → s.tko = TkoSt.zero → s.tkoPhase = 0 →
    s.enabled (.trig i) = false → s.chainR i = 1 → s.chainH i = 0 → s.flag (.filt i) R.FILT_CFG.nco_enable = false →
    b.first % s.chainD i ≠ 0 → Completes (.sampleDelivery g []) s (fun t =>
      (t.rx[g]).ferry = rest ∧ t.rd (.rxg g) R.RXG_FERRY.level = rest.length ∧ (t.chains[i]).next = b.first + 1 ∧
      (t.chains[i]).fir = (⟨x.i, x.q, x.ovr⟩ :: (s.chains[i]).fir).take 256 ∧ t.mem = s.mem ∧
      t.rd (.filt i) R.OUT_INDEX.index = s.rd (.filt i) R.OUT_INDEX.index)) ∧
  (∀ (s : State) (g : Fin 16) (i : Fin 17) (b : Batch) (x : Smp) (rest : List (List Batch)), s.coreRuns = true → s.sharedWedged 0 = false →
    s.flag (.filt i) R.BLOCK_STATUS.quiescing = false →
    (s.rx[g]).ferry = [b] :: rest → b.bonded = false → b.samples = [x] → x.lost = true → s.takers b.ctx = [i] →
    (s.chains[i]).run = some b.run → (s.chains[i]).any = true → (s.chains[i]).next = b.first → s.tko = TkoSt.zero → s.tkoPhase = 0 →
    s.enabled (.trig i) = false → s.chainR i = 1 → s.chainH i = 0 → s.flag (.filt i) R.FILT_CFG.nco_enable = false →
    2 ≤ s.chainW i → b.first % s.chainD i ≠ 0 → Completes (.sampleDelivery g []) s (fun t =>
      (t.rx[g]).ferry = rest ∧ (t.chains[i]).next = b.first + 1 ∧ (t.chains[i]).fir = (⟨0, 0, false⟩ :: (s.chains[i]).fir).take 256 ∧
      t.rd (.filt i) R.OUT_INDEX.index = s.rd (.filt i) R.OUT_INDEX.index ∧ (t.chains[i]).lastLost = some b.first ∧ t.mem = s.mem)) ∧
  (∀ (s : State) (g : Fin 16) (i : Fin 17) (b : Batch) (x : Smp) (rest : List (List Batch)), s.coreRuns = true → s.sharedWedged 0 = false →
    s.flag (.filt i) R.BLOCK_STATUS.quiescing = false →
    (s.rx[g]).ferry = [b] :: rest → b.bonded = false → b.samples = [x] → x.lost = false → s.takers b.ctx = [i] →
    (s.chains[i]).run = some b.run → (s.chains[i]).any = true → (s.chains[i]).next = b.first → s.tko = TkoSt.zero → s.tkoPhase = 0 →
    s.enabled (.trig i) = false → s.enabled (.records i) = false → s.mode i = 1 → s.gangG i = 1 → s.forwards i = false → s.chanRuns i = false →
    (s.cores[i]).tap.busy = false → s.chainR i = 1 → s.chainH i = 0 → s.flag (.filt i) R.FILT_CFG.nco_enable = false →
    s.flag (.filt i) R.FILT_CFG.fir_enable = false → s.flag (.filt i) R.FILT_STATUS.fading = false → (s.chains[i]).carOpen = true →
    (s.chains[i]).gaps = [] → b.first % 4096 ≠ 0 → s.windowClean i b.first = true → (s.chains[i]).skipTo ≤ b.first →
    s.suppressed i b.first = false → Completes (.sampleDelivery g []) s (fun t =>
      (t.rx[g]).ferry = rest ∧ (t.chains[i]).next = b.first + 1 ∧ (t.chains[i]).pos = b.first + 1 ∧
      t.rd (.filt i) R.OUT_INDEX.index = (b.first + 1) % 2 ^ 64 ∧ t.rd (.filt i) R.OVR_OUTPUTS.count =
        min (s.rd (.filt i) R.OVR_OUTPUTS.count + bit x.ovr) R.OVR_OUTPUTS.count.top ∧ t.mem = s.mem)) ∧
  (∀ (s : State) (i : Fin 17) (c r q : Nat), s.coreRuns = true → s.enabled (.filt i) = true → s.streamOf i = some c →
    s.nextRun c = some r → (s.chains[i]).run = some q → q ≠ r → (s.chains[i]).any = false → s.enabled (.trig i) = false →
    s.gangG i = 1 → Completes (.newRun i) s (fun t => (t.chains[i]).run = some r ∧ (t.chains[i]).next = 0 ∧ (t.chains[i]).pos = 0 ∧
      (t.chains[i]).fir = [] ∧ (t.chains[i]).hb = [] ∧ t.rd (.filt i) R.OUT_INDEX.index = 0 ∧ t.rd (.filt i) R.FILT_STATUS.state = 1 ∧
      t.mem = s.mem ∧ SameOutside (.filt i) s t)) ∧
  (∀ (s : State) (i : Fin 17) (c : Nat), s.coreRuns = true → s.mode i = 1 → s.streamOf i = some c → s.enabled (.filt i) = true →
    s.flag (.filt i) R.BLOCK_STATUS.quiescing = false → s.gangG i = 1 → (s.chains[i]).any = true → (s.chains[i]).carOpen = true →
    (s.chains[i]).pos % 4096 = 0 → (s.chains[i]).boundaryAt ≠ some (s.chains[i]).pos → s.delivers i (s.chains[i]).pos = true →
    s.tko = TkoSt.zero → s.tkoPhase = 0 → s.enabled (.trig i) = false →
    s.chanRuns i = false → SMap.get (fun _ => none) s.cal.moves i = none → s.flag (.filt i) R.FILT_CFG.settle_on_retune = false →
    s.flag (.filt i) R.FILT_COMMIT.retune = true → s.flag (.filt i) R.FILT_COMMIT.switch = false →
    s.flag (.filt i) R.NCO_PHASE_STAGE.coherent = true → Completes (.caravanBoundary i) s (fun t =>
      t.rd (.filt i) R.NCO_FCW.fcw = s.rd (.filt i) R.NCO_FCW_STAGE.fcw ∧
      t.rd (.filt i) R.NCO_PHASE_BASE.phase = s.rd (.filt i) R.NCO_PHASE_STAGE.phase ∧ t.rd (.filt i) R.NCO_INDEX_BASE.index = 0 ∧
      t.rd (.filt i) R.FILT_COMMIT.retune = 0 ∧ t.rd (.filt i) R.FILT_COMMIT.last_status = 0 ∧
      t.rd (.filt i) R.FILT_STATUS.state = 2 ∧ (t.chains[i]).boundaryAt = some (s.chains[i]).pos ∧
      nbit (t.rd (.core i) R.INT_PEND.pending) 1 = true ∧ t.mem = s.mem))

/-- Retunes, bank switches and coefficient loads: a commit is pending until the boundary, a load runs until it is done or is refused, the
end of a fade leaves the new bank alone (R88, R91 to R94). -/
def Obligations.FilterCommits : Prop :=
  (∀ (s : State) (i : Fin 17), s.dev ≠ .off → s.dev ≠ .boot → Completes (.commitRetune i) s (fun t =>
      t.rd (.filt i) R.FILT_COMMIT.retune = 1 ∧ t.rd (.filt i) R.FILT_COMMIT.last_cmd = 1 ∧ t.rd (.filt i) R.FILT_COMMIT.last_status = 1 ∧
      t.rd (.filt i) R.FILT_STATUS.retune_pending = 1 ∧ t.rd (.filt i) R.FILT_COMMIT.switch = s.rd (.filt i) R.FILT_COMMIT.switch ∧
      t.chains = s.chains ∧ SameOutside (.filt i) s t)) ∧
  (∀ (s : State) (i : Fin 17), s.dev ≠ .off → s.dev ≠ .boot → Completes (.commitSwitch i) s (fun t =>
      t.rd (.filt i) R.FILT_COMMIT.switch = 1 ∧ t.rd (.filt i) R.FILT_COMMIT.last_cmd = 2 ∧ t.rd (.filt i) R.FILT_COMMIT.last_status = 1 ∧
      t.rd (.filt i) R.FILT_STATUS.switch_pending = 1 ∧ t.rd (.filt i) R.FILT_COMMIT.retune = s.rd (.filt i) R.FILT_COMMIT.retune ∧
      t.chains = s.chains ∧ SameOutside (.filt i) s t)) ∧
  (∀ (s : State) (c : Fin 17) (y : Syl), s.Quiet c → y.last = true → y.an % 2 = 0 → y.bn % 2 = 0 → s.guard0 c y = true →
    Completes (.retune c y) s (fun t =>
      t.rd (.filt c) R.NCO_FCW_STAGE.fcw = ((s.cores[c]).sreg (y.an + 1) ++ (s.cores[c]).sreg y.an : BitVec 64).toNat % 2 ^ 48 ∧
      t.rd (.filt c) R.NCO_PHASE_STAGE.phase = ((s.cores[c]).sreg (y.bn + 1) ++ (s.cores[c]).sreg y.bn : BitVec 64).toNat % 2 ^ 48 ∧
      t.flag (.filt c) R.NCO_PHASE_STAGE.coherent = ((s.cores[c]).sreg (y.bn + 1)).getLsbD 16 ∧
      t.rd (.filt c) R.FILT_COMMIT.retune = 1 ∧ t.rd (.filt c) R.FILT_COMMIT.last_status = 1 ∧ t.pc c = s.pc c + 1 ∧ t.mem = s.mem)) ∧
  (∀ (s : State) (c : Fin 17) (y : Syl), s.Quiet c → y.last = true → s.guard0 c y = true → Completes (.switch c y) s (fun t =>
      t.rd (.filt c) R.FIR_BANK_STAGE.bank = ((s.cores[c]).sreg y.an).toNat % 4 ∧
      t.flag (.filt c) R.FIR_BANK_STAGE.fade = ((s.cores[c]).sreg y.an).getLsbD 2 ∧ t.rd (.filt c) R.FILT_COMMIT.switch = 1 ∧
      t.rd (.filt c) R.FILT_COMMIT.last_status = 1 ∧ t.pc c = s.pc c + 1 ∧ t.mem = s.mem)) ∧
  (∀ (s : State) (i : Fin 17), s.enabled (.filt i) = true → s.coreRuns = true → s.flag (.filt i) R.FILT_STATUS.fading = true →
    s.rd (.filt i) R.FILT_STATUS.fade_remaining = 0 → Completes (.fadeEnd i) s (fun t =>
      t.rd (.filt i) R.FILT_STATUS.active_bank = s.rd (.filt i) R.FILT_STATUS.fade_target ∧ t.rd (.filt i) R.FILT_STATUS.fading = 0 ∧
      t.chains = s.chains ∧ SameOutside (.filt i) s t)) ∧
  (∀ (s : State) (i : Fin 17) (b : Fin 4) (v : BitVec 64), s.dev ≠ .off → s.dev ≠ .boot → (s.chains[i]).bankLoad[b] = none → s.bankBusy i b = false →
    0 < v.toNat / 2 ^ 20 % 2 ^ 9 → v.toNat / 2 ^ 20 % 2 ^ 9 ≤ 256 → Completes (.bankLoad i b v) s (fun t =>
      (t.chains[i]).bankLoad[b] = some (v.toNat % 2 ^ 20, v.toNat / 2 ^ 20 % 2 ^ 9) ∧ t.rd (.filt i) (R.FIR_BANK.load b) = 1 ∧
      t.rd (.filt i) (R.FIR_BANK.loaded b) = 0 ∧ t.mem = s.mem ∧ SameOutside (.filt i) s t)) ∧
  (∀ (s : State) (i : Fin 17) (b : Fin 4) (v : BitVec 64), s.dev ≠ .off → s.dev ≠ .boot → (s.chains[i]).bankLoad[b] = none → (s.bankBusy i b = true ∨
    v.toNat / 2 ^ 20 % 2 ^ 9 = 0 ∨ 256 < v.toNat / 2 ^ 20 % 2 ^ 9) → Completes (.bankLoad i b v) s (fun t =>
      t.rd (.filt i) R.FILT_FAULT.bank_load_refused = 1 ∧ t.rd (.filt i) (R.FIR_BANK.load b) = 0 ∧ t.chains = s.chains ∧
      SameOutside (.filt i) s t)) ∧
  (∀ (s : State) (i : Fin 17) (b : Fin 4) (a l : Nat), s.coreRuns = true → (s.chains[i]).bankLoad[b] = some (a, l) →
    s.firstBad (.lmem i) (8 * a % 2 ^ 23) (4 * ((l + 1) / 2)) = none →
    Completes (.bankLoadDone i b) s (fun t => (t.chains[i]).bankLoad[b] = none ∧ t.rd (.filt i) (R.FIR_BANK.loaded b) = 1 ∧
      t.rd (.filt i) (R.FIR_BANK.load b) = 0 ∧ (t.chains[i]).banks[b] = ⟨l, (List.range ((l + 1) / 2)).map (fun k =>
        (BitVec.ofNat 24 (memNat (s.mem.lmem[i]) ((8 * a + 4 * k) % 2 ^ 23) 4)).toInt)⟩ ∧ t.mem = s.mem ∧ SameOutside (.filt i) s t))

/-- Frames and windows: a frame whose outputs are all there is formed and counted; a window load runs until it is done or is refused; a
selection and an offset are staged for the boundary (R104, R109, R110, R114). -/
def Obligations.FramesAndWindows : Prop :=
  (∀ (s : State) (i : Fin 17) (j : FrameJob) (rest : List FrameJob), s.enabled (.filt i) = true → s.coreRuns = true → s.mode i = 0 →
    s.gangG i = 1 → (s.chains[i]).jobs = j :: rest → s.tkoPhase = 0 → s.enabled (.trig i) = false → s.enabled (.records i) = false →
    Completes (.frameFormed i FrameFault.none) s (fun t =>
      (t.chains[i]).jobs = rest ∧ t.rd (.filt i) R.XF_FRAMES.count = min (s.rd (.filt i) R.XF_FRAMES.count + 1) R.XF_FRAMES.count.top ∧
      t.rd (.filt i) R.XF_STATUS.state = 2 ∧ t.mem.dram = s.mem.dram ∧ t.mem.depot = s.mem.depot ∧
      (s.flag .placement (R.PL_SLICE.placed i) = false → t.mem = s.mem))) ∧
  (∀ (s : State) (i : Fin 17), s.dev ≠ .off → s.dev ≠ .boot →
    (s.chains[i]).winLoad[Fin.ofNat 2 (s.rd (.filt i) R.WIN_STAGE.store)] = none → Completes (.commitWindow i) s (fun t =>
      t.rd (.filt i) R.XF_COMMIT.window = 1 ∧ t.rd (.filt i) R.XF_COMMIT.last_cmd = 1 ∧ t.rd (.filt i) R.XF_COMMIT.last_status = 1 ∧
      t.rd (.filt i) R.XF_STATUS.window_pending = 1 ∧ t.chains = s.chains ∧ SameOutside (.filt i) s t)) ∧
  (∀ (s : State) (c : Fin 17) (y : Syl), s.Quiet c → y.last = true → s.guard0 c y = true → Completes (.fftSelect c y) s (fun t =>
      t.flag (.filt c) R.WIN_STAGE.store = ((s.cores[c]).sreg y.an).getLsbD 0 ∧ t.rd (.filt c) R.XF_COMMIT.window = 1 ∧
      t.rd (.filt c) R.XF_STATUS.window_pending = 1 ∧ nbit ((t.chains[c]).byCore) 2 = true ∧ t.pc c = s.pc c + 1 ∧ t.mem = s.mem)) ∧
  (∀ (s : State) (c : Fin 17) (y : Syl), s.Quiet c → y.last = true → s.guard0 c y = true → s.gangG c = 1 →
    Completes (.fftOffset c y) s (fun t => t.rd (.filt c) R.PWR_REF.pwr_offset = ((s.cores[c]).sreg y.an).toNat % 65536 ∧
      t.rd (.filt c) R.PWR_REF.ref128 = s.rd (.filt c) R.PWR_REF.ref128 ∧ t.chains = s.chains ∧ t.pc c = s.pc c + 1 ∧ t.mem = s.mem)) ∧
  (∀ (s : State) (i : Fin 17) (b : Fin 2), s.dev ≠ .off → s.dev ≠ .boot → (s.chains[i]).winLoad[b] = none → s.storeActive i b = false → s.storePending i b = false →
    s.winInvalid i b = false → Completes (.windowLoad i b .write) s (fun t =>
      ((t.chains[i]).winLoad[b]).isSome = true ∧ t.rd (.filt i) (R.WIN_STORE.load b) = 1 ∧ t.rd (.filt i) (R.WIN_STORE.loaded b) = 0 ∧
      t.rd (.filt i) R.XF_STATUS.load_busy = 1 ∧ t.mem = s.mem ∧ SameExcept [.filt i, .global] s t)) ∧
  (∀ (s : State) (i : Fin 17) (b : Fin 2), s.dev ≠ .off → s.dev ≠ .boot → (s.chains[i]).winLoad[b] = none → (s.storeActive i b = true ∨ s.storePending i b = true ∨
    s.winInvalid i b = true) → Completes (.windowLoad i b .write) s (fun t =>
      t.rd (.filt i) R.XF_FAULT.load_refused = 1 ∧ t.rd (.filt i) (R.WIN_STORE.load b) = 0 ∧ t.chains = s.chains ∧
      SameOutside (.filt i) s t)) ∧
  (∀ (s : State) (i : Fin 17) (b : Fin 2) (w : Word), s.coreRuns = true → (s.chains[i]).winLoad[b] = some w →
    (s.winValues i w.toNat (s.log2n i)).sum ≠ 0 → (w.toNat % 8 = 6 →
      s.firstBad (.lmem i) (8 * (w.toNat / 2 ^ 7 % 2 ^ 20) % 2 ^ 23) (4 * 2 ^ (w.toNat / 2 ^ 27 % 32)) = none) → Completes (.windowLoadDone i b) s (fun t =>
      (t.chains[i]).winLoad[b] = none ∧ (t.chains[i]).wins[b] = s.winValues i w.toNat (s.log2n i) ∧
      t.rd (.filt i) (R.WIN_STORE.loaded b) = 1 ∧ t.rd (.filt i) (R.WIN_STORE.n_loaded b) = s.log2n i ∧
      t.rd (.filt i) (R.WIN_STORE.load b) = 0 ∧ t.mem = s.mem ∧ SameExcept [.filt i, .global] s t))

/-! ### Triggers and the trigger bus (R124 to R159) -/

/-- Arming, disarming and forcing: the arm state moves as R139 says, a refused command says so, POST ends in HOLDOFF once post_len units
have been handed over; the unit syllables act as the register writes (R135, R139, R144). -/
def Obligations.TriggerControl : Prop :=
  (∀ (s : State) (i : Fin 17), s.dev ≠ .off → s.dev ≠ .boot → s.trigLive i = true → s.gangG i = 1 → s.arm i = 0 → Completes (.arm i .write) s (fun t =>
      t.arm i = 1 ∧ t.rd (.trig i) R.TRIG_CTRL.last_cmd = 1 ∧ t.rd (.trig i) R.TRIG_CTRL.last_status = 0 ∧ t.mem = s.mem ∧
      SameOutside (.trig i) s t)) ∧
  (∀ (s : State) (i : Fin 17) (y : Syl), s.dev ≠ .off → s.dev ≠ .boot → s.Quiet i → y.last = true → s.guard0 i y = true → s.trigLive i = true → s.gangG i = 1 →
    s.arm i = 0 → Completes (.arm i (.unit y)) s (fun t => t.arm i = 1 ∧ t.rd (.trig i) R.TRIG_CTRL.last_cmd = 1 ∧
      t.rd (.trig i) R.TRIG_CTRL.last_status = 0 ∧ t.pc i = s.pc i + 1)) ∧
  (∀ (s : State) (i : Fin 17), s.dev ≠ .off → s.dev ≠ .boot → s.trigLive i = true → (s.arm i = 1 ∨ s.arm i = 2 ∨ s.arm i = 3) → Completes (.disarm i .write) s (fun t =>
      t.arm i = s.arm i ∧ (t.trigs[i]).disarm = true ∧ t.rd (.trig i) R.TRIG_CTRL.last_cmd = 2 ∧
      t.rd (.trig i) R.TRIG_CTRL.last_status = 1 ∧ SameOutside (.trig i) s t)) ∧
  (∀ (s : State) (i : Fin 17), s.dev ≠ .off → s.dev ≠ .boot → s.trigLive i = true → s.gangG i = 1 → (s.arm i = 4 ∨ s.arm i = 5) → Completes (.disarm i .write) s (fun t =>
      t.arm i = 0 ∧ t.rd (.trig i) R.TRIG_CTRL.last_cmd = 2 ∧ t.rd (.trig i) R.TRIG_CTRL.last_status = 0 ∧ SameOutside (.trig i) s t)) ∧
  (∀ (s : State) (i : Fin 17), s.dev ≠ .off → s.dev ≠ .boot → s.trigLive i = true → nbit (s.refAhead i) 14 = true → Completes (.force i .write) s (fun t =>
      (t.trigs[i]).now = (s.trigs[i]).now ++ [Report.at_ 14 true true 0 0] ∧ t.rd (.trig i) R.TRIG_CTRL.last_cmd = 3 ∧
      t.rd (.trig i) R.TRIG_CTRL.last_status = 0 ∧ t.arm i = s.arm i ∧ SameOutside (.trig i) s t)) ∧
  (∀ (s : State) (i : Fin 17), s.dev ≠ .off → s.dev ≠ .boot → Completes (.trigCommit i .write) s (fun t =>
      t.rd (.trig i) R.TRIG_CTRL.commit = 1 ∧ t.rd (.trig i) R.TRIG_STATUS.commit_pending = 1 ∧ t.rd (.trig i) R.TRIG_CTRL.last_cmd = 4 ∧
      t.rd (.trig i) R.TRIG_CTRL.last_status = 1 ∧ t.trigs = s.trigs ∧ SameOutside (.trig i) s t)) ∧
  (∀ (s : State) (i : Fin 17) (y : Syl), s.dev ≠ .off → s.dev ≠ .boot → s.Quiet i → y.last = true → s.guard0 i y = true → Completes (.trigCommit i (.unit y)) s (fun t =>
      t.rd (.trig i) R.TRIG_CTRL.commit = 1 ∧ t.rd (.trig i) R.TRIG_CTRL.last_status = 1 ∧ nbit ((t.chains[i]).byCore) 3 = true ∧
      t.pc i = s.pc i + 1)) ∧
  (∀ p ∈ [((fun i => .arm i .write : Fin 17 → Instr), 1), (fun i => .disarm i .write, 2), (fun i => .force i .write, 3), (.timerArm, 5)],
    ∀ (s : State) (i : Fin 17), s.dev ≠ .off → s.dev ≠ .boot → s.trigLive i = false → Completes (p.1 i) s (fun t =>
      t.rd (.trig i) R.TRIG_CTRL.last_cmd = p.2 ∧ t.rd (.trig i) R.TRIG_CTRL.last_status = 2 ∧ t.trigs = s.trigs ∧ t.arm i = s.arm i ∧
      SameOutside (.trig i) s t)) ∧
  (∀ (s : State) (i : Fin 17), s.trigLive i = true → s.gangG i = 1 → s.arm i = 3 → s.framed i = false → (s.trigs[i]).axis = [] →
    (s.trigs[i]).disarm = false → (s.trigs[i]).postEnd ≤ (s.chains[i]).pos → Completes (.postEnd i) s (fun t =>
      t.arm i = 4 ∧ t.trigs = s.trigs ∧ t.mem = s.mem ∧ SameOutside (.trig i) s t))

/-- TIMER, the staging syllable and the combiner: TIMER waits or fires late, an index is evaluated, a candidate is accepted in ARMED,
declined in POST, counted when disarmed (R135 to R140, R144). -/
def Obligations.TriggerDecisions : Prop :=
  (∀ (s : State) (i : Fin 17), s.dev ≠ .off → s.dev ≠ .boot → s.trigLive i = true → s.tim.now < ofT96 (s.rdT96 (.trig i) R.TIMER_T96.lo) →
    Completes (.timerArm i) s (fun t => t.rd (.trig i) R.TRIG_CTRL.timer_arm = 1 ∧ t.rd (.trig i) R.TRIG_STATUS.timer_pending = 1 ∧
      t.rd (.trig i) R.TRIG_CTRL.last_cmd = 5 ∧ t.rd (.trig i) R.TRIG_CTRL.last_status = 1 ∧ t.trigs = s.trigs ∧ SameOutside (.trig i) s t)) ∧
  (∀ (s : State) (i : Fin 17), s.dev ≠ .off → s.dev ≠ .boot → s.trigLive i = true → ofT96 (s.rdT96 (.trig i) R.TIMER_T96.lo) ≤ s.tim.now →
    nbit (s.refAhead i) 15 = true → Completes (.timerArm i) s (fun t => t.rd (.trig i) R.TRIG_CTRL.timer_arm = 0 ∧
      t.rd (.trig i) R.TRIG_STATUS.timer_pending = 0 ∧ t.rd (.trig i) R.TRIG_CTRL.last_status = 0 ∧
      (t.trigs[i]).now.length = (s.trigs[i]).now.length + 1 ∧ t.rd (.trig i) R.TRIG_COUNTS2.late_events =
        min (s.rd (.trig i) R.TRIG_COUNTS2.late_events + 1) R.TRIG_COUNTS2.late_events.top ∧ SameOutside (.trig i) s t)) ∧
  (∀ (s : State) (i : Fin 17), s.trigLive i = true → s.flag (.trig i) R.TRIG_STATUS.timer_pending = true →
    ofT96 (s.rdT96 (.trig i) R.TIMER_T96.lo) ≤ s.tim.now → nbit (s.refAhead i) 15 = true → (s.trigs[i]).doneTo = none →
    (s.trigs[i]).reports = [] → Completes (.timerFire i) s (fun t => t.rd (.trig i) R.TRIG_STATUS.timer_pending = 0 ∧
      t.rd (.trig i) R.TRIG_CTRL.timer_arm = 0 ∧ (t.trigs[i]).reports = [{ Report.at_ 15 true true
        (ofT96 (s.rdT96 (.trig i) R.TIMER_T96.lo)) (ofT96 (s.rdT96 (.trig i) R.TIMER_T96.lo)) with
        qual := s.quality, tb := s.bTb }] ∧
      SameOutside (.trig i) s t)) ∧
  (∀ (s : State) (c : Fin 17) (y : Syl) (k : Fin 4), s.Quiet c → y.last = true → s.guard0 c y = true → y.an % 2 = 0 →
    ((s.cores[c]).sreg y.bn).toNat % 16 = k.val → Completes (.trigStage c y) s (fun t =>
      t.rd (.trig c) (R.TD_THR_STAGE.thr k) = ((s.cores[c]).sreg y.an).toNat % 2 ^ 24 ∧
      t.rd (.trig c) (R.TD_THR_STAGE.thr2 k) = ((s.cores[c]).sreg (y.an + 1) ++ (s.cores[c]).sreg y.an : BitVec 64).toNat / 2 ^ 24 % 2 ^ 24 ∧
      t.pc c = s.pc c + 1)) ∧
  (∀ (s : State) (c : Fin 17) (y : Syl) (k : Fin 4), s.Quiet c → y.last = true → s.guard0 c y = true → y.an % 2 = 0 →
    ((s.cores[c]).sreg y.bn).toNat % 16 = 8 + k.val → Completes (.trigStage c y) s (fun t =>
      t.rd (.trig c) (R.TERM_STAGE.req k) = ((s.cores[c]).sreg y.an).toNat % 2 ^ 16 ∧
      t.rd (.trig c) (R.TERM_STAGE.neg k) = ((s.cores[c]).sreg y.an).toNat / 2 ^ 16 ∧ t.pc c = s.pc c + 1)) ∧
  (∀ (s : State) (c : Fin 17) (y : Syl), s.Quiet c → y.last = true → s.guard0 c y = true → y.an % 2 = 0 →
    12 ≤ ((s.cores[c]).sreg y.bn).toNat % 16 → Completes (.trigStage c y) s (fun t =>
      t.rd (.trig c) R.TRIG_CTRL.last_status = 2 ∧ nbit (t.rd (.core c) R.INT_PEND.pending) 2 = true ∧ t.pc c = s.pc c + 1)) ∧
  (∀ (s : State) (i : Fin 17) (p : AxisPt) (ps : List AxisPt), s.trigLive i = true → (s.trigs[i]).axis = p :: ps → s.covered i p = true →
    p.fresh = false → p.boundary = false → p.terms = none → s.refMask i = 0 → s.arm i ≠ 4 → (∀ k : Fin 4, s.term i k = (0, 0)) →
    Completes (.combinerEvaluation i) s (fun t => t.rd (.trig i) R.TRIG_EVAL.index = p.m % 2 ^ 64 ∧ (t.trigs[i]).axis = ps ∧
      (t.trigs[i]).prevT = false ∧ t.arm i = s.arm i ∧ t.mem = s.mem ∧ SameOutside (.trig i) s t)) ∧
  (∀ (s : State) (i : Fin 17) (p : AxisPt) (ps : List AxisPt) (t0 : TrigSt), s.trigLive i = true → s.gangG i = 1 → s.trigs[i] = { t0 with
      axis := p :: ps, reports := [], now := [Report.at_ 14 true true 0 0], prevT := false, states := 0, setBy := [] } →
    s.covered i p = true → p.fresh = false → p.boundary = false → p.terms = none → s.term i 0 = (0x4000, 0) → s.term i 1 = (0, 0) →
    s.term i 2 = (0, 0) → s.term i 3 = (0, 0) → s.flag (.trig i) R.TRIG_CFG.window_enable = false → s.arm i = 2 →
    Completes (.combinerEvaluation i) s (fun t => t.arm i = 3 ∧ nbit (t.rd (.core i) R.INT_PEND.pending) 3 = true)) ∧
  (∀ (s : State) (i : Fin 17) (p : AxisPt) (ps : List AxisPt) (t0 : TrigSt), s.trigLive i = true → s.gangG i = 1 → s.trigs[i] = { t0 with
      axis := p :: ps, reports := [], now := [Report.at_ 14 true true 0 0], prevT := false, states := 0, setBy := [] } →
    s.covered i p = true → p.fresh = false → p.boundary = false → p.terms = none → s.term i 0 = (0x4000, 0) → s.term i 1 = (0, 0) →
    s.term i 2 = (0, 0) → s.term i 3 = (0, 0) → s.flag (.trig i) R.TRIG_CFG.window_enable = false → s.arm i = 3 →
    Completes (.combinerEvaluation i) s (fun t => nbit (t.rd (.core i) R.INT_PEND.pending) 4 = true)) ∧
  (∀ (s : State) (i : Fin 17) (p : AxisPt) (ps : List AxisPt) (t0 : TrigSt), s.trigLive i = true → s.gangG i = 1 → s.trigs[i] = { t0 with
      axis := p :: ps, reports := [], now := [Report.at_ 14 true true 0 0], prevT := false, states := 0, setBy := [] } →
    s.covered i p = true → p.fresh = false → p.boundary = false → p.terms = none → s.term i 0 = (0x4000, 0) → s.term i 1 = (0, 0) →
    s.term i 2 = (0, 0) → s.term i 3 = (0, 0) → s.flag (.trig i) R.TRIG_CFG.window_enable = false → s.arm i = 0 →
    Completes (.combinerEvaluation i) s (fun t => t.arm i = 0 ∧ t.rd (.trig i) R.TRIG_COUNTS2.disarmed_candidates =
      min (s.rd (.trig i) R.TRIG_COUNTS2.disarmed_candidates + 1) R.TRIG_COUNTS2.disarmed_candidates.top ∧ SameOutside (.trig i) s t))

/-- The TRIG pins: an edge of the configured polarity on TRIG_IN is counted and becomes an event or is merged; a pulse ends; a new
configuration of an active TRIG_OUT pin first drives it inactive. The bus: two SYNC pulses at the expected cycle lock the device (read from
R148 by inference, log 19), a missing one unlocks it; the master drives SYNC; a request is driven and counted, and answered when it is
latched (R133, R147 to R153). -/
def Obligations.TriggerPinsAndBus : Prop :=
  (∀ (s : State) (j : Fin 4) (falling : Bool) (k : Fin 512), s.timeRuns = true → s.flag .trigbus (R.TRIG_IN_CFG.edge j) = falling →
    s.flag .trigbus (R.TRIG_IN_CFG.enable j) = true → Completes (.trigInEdge j falling k) s (fun t =>
      t.tbus.inLevel[j] = !falling ∧ t.tbus.inLast[j] = some (s.edgeRaw (inInterp j) k) ∧
      (let f := [R.TRIG_IN_COUNT.in0, R.TRIG_IN_COUNT.in1, R.TRIG_IN_COUNT.in2, R.TRIG_IN_COUNT.in3][j];
       t.rd .trigbus f = min (s.rd .trigbus f + 1) f.top) ∧ t.mem = s.mem)) ∧
  (∀ (s : State) (j : Fin 4) (falling : Bool) (k : Fin 512), s.timeRuns = false → Completes (.trigInEdge j falling k) s (fun t =>
      t.tbus.inLevel[j] = !falling ∧ t.regs = s.regs ∧ t.trigs = s.trigs)) ∧
  (∀ (s : State) (j : Fin 4), s.timeRuns = true → s.pulseDone j = true → s.outHeld j = false → s.outLevel j = none →
    Completes (.pulseEnd j) s (fun t => t.tbus.outEnd[j] = none ∧
      t.pins.trigOut[j] = decide (s.outCfg j R.TRIG_OUT_CFG.polarity ≠ 0) ∧ t.regs = s.regs ∧ t.mem = s.mem)) ∧
  (∀ (s : State) (j : Fin 4), s.pulseDone j = false → Completes (.pulseEnd j) s (fun t => t = s)) ∧
  (∀ (s : State) (j : Fin 4) (v : BitVec 32), s.dev ≠ .off → s.dev ≠ .boot → Completes (.trigOutCfgWrite j v) s (fun t =>
      t.rd .trigbus (R.TRIG_OUT_CFG.source j) = v.toNat % 8 ∧ t.rd .trigbus (R.TRIG_OUT_CFG.slice j) = v.toNat / 8 % 32 ∧
      t.rd .trigbus (R.TRIG_OUT_CFG.index j) = v.toNat / 256 % 8 ∧ t.rd .trigbus (R.TRIG_OUT_CFG.width j) = v.toNat / 65536 ∧
      t.flag .trigbus (R.TRIG_OUT_CFG.polarity j) = v.getLsbD 11 ∧ t.pins = s.pins ∧ t.tbus = s.tbus ∧ SameOutside .trigbus s t)) ∧
  (∀ (s : State) (j : Fin 4), s.timeRuns = true → s.rdw .trigbus (0x200 + 8 * j.val) ≠ s.tbus.outCfg[j] → s.outActive j = true →
    (tickOuts s).tbus.outCfg[j] = s.rdw .trigbus (0x200 + 8 * j.val) ∧ (tickOuts s).outActive j = false ∧
      (tickOuts s).tbus.outHold[j] = some s.tim.raw ∧ (tickOuts s).tbus.outEnd[j] = none ∧ (tickOuts s).regs = s.regs) ∧
  (∀ (s : State) (r : Nat), s.enabled .trigbus = true → s.timeRuns = true → s.flag .trigbus R.TBUS_STATUS.sync_locked = false →
    s.tbus.syncAt = some r → s.tim.raw = r + 65536 * s.busCycle → 1 ≤ s.tbus.good → Completes .tbusSync s (fun t =>
      t.rd .trigbus R.TBUS_STATUS.sync_locked = 1 ∧ t.tbus.syncAt = some s.tim.raw ∧ t.tbus.zeroAt = s.tim.raw ∧
      SameOutside .trigbus s t)) ∧
  (∀ s : State, s.enabled .trigbus = true → s.timeRuns = true → s.flag .trigbus R.TBUS_STATUS.sync_locked = false →
    s.tbus.syncAt = none → Completes .tbusSync s (fun t =>
      t.rd .trigbus R.TBUS_STATUS.sync_locked = 0 ∧ t.tbus.syncAt = some s.tim.raw ∧ t.tbus.good = 0 ∧ t.regs = s.regs)) ∧
  (∀ s : State, s.enabled .trigbus = true → s.timeRuns = true → s.flag .trigbus R.TBUS_STATUS.sync_locked = true →
    s.tbus.out = [] → s.tbus.driving = [] → Completes .syncPulseMissing s (fun t =>
      t.rd .trigbus R.TBUS_STATUS.sync_locked = 0 ∧ t.rd .trigbus R.TBUS_STATUS.cycle = 0 ∧ t.tbus.syncAt = none ∧ t.tbus.good = 0)) ∧
  (∀ s : State, s.enabled .trigbus = true → s.timeRuns = true → s.flag .trigbus R.TBUS_CFG.master = true → Completes .syncDrive s (fun t =>
      t.pins.tbusSync = true ∧ t.tbus.drivenAt = s.tim.raw ∧ t.regs = s.regs ∧ t.mem = s.mem)) ∧
  (∀ (s : State) (l : Fin 8) (rq : List Nat) (es : List (Nat × List Nat)), s.tbus.out = (l.val, rq) :: es → s.tbusUp = true →
    s.flag .trigbus R.BLOCK_STATUS.quiescing = false →
    nbit (s.rd .trigbus R.TBUS_CFG.line_enable) l = true → Completes (.tbusRequest l) s (fun t =>
      t.pins.tbusDrive.getLsbD l = true ∧ t.tbus.driving = s.tbus.driving ++ [(l.val, rq)] ∧
      t.tbus.out = es.filter (fun e => e.1 ≠ l.val) ∧
      t.rd .trigbus (R.TBUS_COUNT.requests_sent l) = min (s.rd .trigbus (R.TBUS_COUNT.requests_sent l) + 1) 65535 ∧ t.mem = s.mem)) ∧
  (∀ (s : State) (l : Fin 8), s.tbusUp = true → nbit (s.rd .trigbus R.TBUS_CFG.line_enable) l = true → s.tbus.driving = [] →
    s.busRefuses l [] = false → s.coreRuns = false → s.tbus.inq.length < 16 → Completes (.busRequestLatched l true) s (fun t =>
      t.rd .trigbus (R.TBUS_COUNT.requests_seen l) = min (s.rd .trigbus (R.TBUS_COUNT.requests_seen l) + 1) 65535 ∧
      t.rd .trigbus (R.TBUS_COUNT.naks_seen l) = min (s.rd .trigbus (R.TBUS_COUNT.naks_seen l) + 1) 65535 ∧
      nbit (t.rd .trigbus R.TBUS_STATUS.nak_last) l = true ∧ t.pins.tbusNak.getLsbD l = false ∧
      t.tbus.inq.length = s.tbus.inq.length + 1 ∧ t.mem = s.mem))
/-! ### Queues and records (R171 to R203) -/

/-- CREATE, DESTROY, RESUME and INSPECT: each refusal of R193 with its cause, and the effect otherwise; a doorbell advances consumed or
is counted as invalid (R193, R195). -/
def Obligations.QueueCommands : Prop :=
  (∀ (s : State) (p : Port) (q : BitVec 20), s.dev ≠ .off → s.dev ≠ .boot → s.queue.destroying = none → (s.ctx q.toNat).on = false →
    (p ≠ .host ∨ (s.ctx q.toNat).placed = false) → 12 ≤ s.rdw .queue 0x050 % 64 → s.rdw .queue 0x050 % 64 ≤ 40 →
    s.rdw .queue 0x050 / 4096 * 4096 % 2 ^ (s.rdw .queue 0x050 % 64) = 0 → Completes (.create p q) s (fun t =>
      t.rd .queue R.QUEUE_CMD.op = 1 ∧ t.rd .queue R.QUEUE_CMD.queue = q.toNat ∧ t.rd .queue R.QUEUE_CMD.go = 0 ∧
      t.rd .queue R.QUEUE_CMD.last_status = 0 ∧ SMap.get (fun _ => 0) t.queue.alloc q.toNat = 0 ∧
      (∀ x ∈ t.queue.recs, x.q ≠ q.toNat) ∧ (s.cached q.toNat = true → (t.ctx q.toNat).w0 = s.rdw .queue 0x050 ∧
        (t.ctx q.toNat).w1 % 2 ^ 36 = 0 ∧ (t.ctx q.toNat).unsignalled = 0 ∧
        (t.ctx q.toNat).w1 / 2 ^ 36 % 2 ^ 18 = s.rdw .queue 0x058 / 2 ^ 36 % 2 ^ 18 ∧ (t.ctx q.toNat).w2 = 0 ∧
        (t.ctx q.toNat).w3 = 0 ∧ t.mem = s.mem ∧ SameOutside .queue s t))) ∧
  (∀ (s : State) (p : Port) (q : BitVec 20), s.dev ≠ .off → s.dev ≠ .boot → s.queue.destroying = none → (s.ctx q.toNat).on = true →
    Completes (.create p q) s (fun t => t.rd .queue R.QUEUE_CMD.last_status = 2 ∧ t.rd .queue R.QUEUE_CMD.last_cause = 1 ∧
      t.queue = s.queue ∧ t.mem = s.mem ∧ SameOutside .queue s t)) ∧
  (∀ (s : State) (q : BitVec 20), s.dev ≠ .off → s.dev ≠ .boot → s.queue.destroying = none → (s.ctx q.toNat).on = false → (s.ctx q.toNat).placed = true →
    Completes (.create .host q) s (fun t => t.rd .queue R.QUEUE_CMD.last_status = 2 ∧ t.queue = s.queue ∧ t.mem = s.mem)) ∧
  (∀ (s : State) (p : Port) (q : BitVec 20), s.dev ≠ .off → s.dev ≠ .boot → s.queue.destroying = none → (s.ctx q.toNat).on = false → (s.ctx q.toNat).placed = false →
    (s.rdw .queue 0x050 % 64 < 12 ∨ 40 < s.rdw .queue 0x050 % 64) → Completes (.create p q) s (fun t =>
      t.rd .queue R.QUEUE_CMD.last_status = 2 ∧ t.rd .queue R.QUEUE_CMD.last_cause = 2 ∧ t.rd .queue R.QUEUE_FAULT.align = 1 ∧
      t.queue = s.queue ∧ t.mem = s.mem ∧ SameOutside .queue s t)) ∧
  (∀ (s : State) (p : Port) (q : BitVec 20), s.dev ≠ .off → s.dev ≠ .boot → s.queue.destroying = none → s.ctxSound q.toNat → (s.ctx q.toNat).on = true →
    (p ≠ .host ∨ (s.ctx q.toNat).placed = false) → s.reservedOn q.toNat = false → Completes (.destroy p q) s (fun t =>
      t.rd .queue R.QUEUE_CMD.op = 2 ∧ t.rd .queue R.QUEUE_CMD.go = 0 ∧ t.rd .queue R.QUEUE_CMD.last_status = 0 ∧
      t.queue.destroying = none ∧ (s.cached q.toNat = true → (t.ctx q.toNat).on = false ∧ t.mem = s.mem ∧ SameOutside .queue s t))) ∧
  (∀ (s : State) (p : Port) (q : BitVec 20), s.dev ≠ .off → s.dev ≠ .boot → s.queue.destroying = none → s.ctxSound q.toNat → (s.ctx q.toNat).on = true →
    (p ≠ .host ∨ (s.ctx q.toNat).placed = false) → s.reservedOn q.toNat = true → Completes (.destroy p q) s (fun t =>
      t.rd .queue R.QUEUE_CMD.op = 2 ∧ t.rd .queue R.QUEUE_CMD.go = 1 ∧ t.rd .queue R.QUEUE_CMD.last_status = 1 ∧
      t.queue = { s.queue with destroying := some q.toNat } ∧ t.mem = s.mem ∧ SameOutside .queue s t)) ∧
  (∀ (s : State) (q : BitVec 20), s.dev ≠ .off → s.dev ≠ .boot → s.queue.destroying = none → s.ctxSound q.toNat → (s.ctx q.toNat).halted = true → Completes (.resume q) s (fun t =>
      t.rd .queue R.QUEUE_CMD.op = 3 ∧ t.rd .queue R.QUEUE_CMD.last_status = 0 ∧
      (s.cached q.toNat = true → (t.ctx q.toNat).halted = false ∧ t.mem = s.mem ∧ SameOutside .queue s t))) ∧
  (∀ (s : State) (q : BitVec 20), s.dev ≠ .off → s.dev ≠ .boot → s.queue.destroying = none → s.ctxSound q.toNat → (s.ctx q.toNat).halted = false → Completes (.resume q) s (fun t =>
      t.rd .queue R.QUEUE_CMD.op = 3 ∧ t.rd .queue R.QUEUE_CMD.last_status = 2 ∧ t.queue = s.queue ∧ t.mem = s.mem ∧
      SameOutside .queue s t)) ∧
  (∀ (s : State) (q : BitVec 20), s.dev ≠ .off → s.dev ≠ .boot → s.queue.destroying = none → s.ctxSound q.toNat → Completes (.inspect q) s (fun t =>
      t.rd .queue R.QUEUE_CMD.op = 4 ∧ t.rd .queue R.QUEUE_CMD.last_status = 0 ∧ t.rdw .queue 0x060 = (s.ctx q.toNat).w0 % 2 ^ 64 ∧
      t.rdw .queue 0x068 = (s.ctx q.toNat).w1 % 2 ^ 64 ∧ t.rdw .queue 0x070 = (s.ctx q.toNat).w2 % 2 ^ 64 ∧
      t.rdw .queue 0x078 = (s.ctx q.toNat).w3 % 2 ^ 64 ∧ t.queue = s.queue ∧ t.mem = s.mem ∧ SameOutside .queue s t)) ∧
  (∀ (s : State) (v : BitVec 64) (ann : AnnResult), s.dev ≠ .off → s.dev ≠ .boot → s.ctxSound (v.toNat % 2 ^ 20) →
    ann ≠ .ctxCorrected → ann ≠ .ctxBad → (s.ctx (v.toNat % 2 ^ 20)).on = true →
    (v.toNat / 2 ^ 20 % 2 ^ 36 + 2 ^ 36 - (s.ctx (v.toNat % 2 ^ 20)).consumed) % 2 ^ 36 ≤
      ((s.ctx (v.toNat % 2 ^ 20)).produced + 2 ^ 36 - (s.ctx (v.toNat % 2 ^ 20)).consumed) % 2 ^ 36 →
    (∀ r ∈ s.queue.recs, r.q = v.toNat % 2 ^ 20 → r.waits = false) → Completes (.doorbell v ann) s (fun t =>
      t.rd .queue R.QUEUE_DOORBELL.queue = v.toNat % 2 ^ 20 ∧ t.rd .queue R.QUEUE_DOORBELL.consumed = v.toNat / 2 ^ 20 % 2 ^ 36 ∧
      t.queue.recs = s.queue.recs ∧ (s.cached (v.toNat % 2 ^ 20) = true →
        (t.ctx (v.toNat % 2 ^ 20)).consumed = v.toNat / 2 ^ 20 % 2 ^ 36 ∧ t.mem = s.mem ∧ SameOutside .queue s t))) ∧
  (∀ (s : State) (v : BitVec 64) (ann : AnnResult), s.dev ≠ .off → s.dev ≠ .boot → s.ctxSound (v.toNat % 2 ^ 20) →
    ann ≠ .ctxCorrected → ann ≠ .ctxBad → ((s.ctx (v.toNat % 2 ^ 20)).on = false ∨
      ((s.ctx (v.toNat % 2 ^ 20)).produced + 2 ^ 36 - (s.ctx (v.toNat % 2 ^ 20)).consumed) % 2 ^ 36 <
        (v.toNat / 2 ^ 20 % 2 ^ 36 + 2 ^ 36 - (s.ctx (v.toNat % 2 ^ 20)).consumed) % 2 ^ 36) →
    Completes (.doorbell v ann) s (fun t => t.rd .queue R.QUEUE_FAULT.doorbell_invalid = 1 ∧
      t.rd .queue R.QUEUE_COUNTS.doorbell_invalid = min (s.rd .queue R.QUEUE_COUNTS.doorbell_invalid + 1) 65535 ∧
      t.queue = s.queue ∧ t.mem = s.mem ∧ SameOutside .queue s t))

/-- A record on its way: the reservation is granted at produced, or waits for space or for its context; a wait that ends is a refusal and
the sequence becomes absent; the seal, the publication, a failed write, the moderation timer, the arrival of a context and the
quiesce deadline act as R174 to R199 say. -/
def Obligations.RecordsOnTheirWay : Prop :=
  (∀ (s : State) (q : BitVec 20) (ann : AnnResult) (r : Rec) (rs : List Rec), s.Sole r rs → r.q = q.toNat → r.phase = .ready →
    r.typ ≠ 1 → s.coreRuns = true → s.enabled .queue = true → s.quiescedAt .queue = none → s.cached q.toNat = true →
    s.ctxSound q.toNat → ann ≠ .ctxCorrected → ann ≠ .ctxBad →
    (s.ctx q.toNat).halted = false → (s.ctx q.toNat).on = true → (s.ctx q.toNat).absent = 0 →
    recLen r.payload.length r.meas.length + 128 ≤ 64 * (s.ctx q.toNat).free → Completes (.reservationRequest q ann) s (fun t =>
      t.queue.recs = { r with phase := .granted, off := (s.ctx q.toNat).produced } :: rs ∧ t.ctx q.toNat = s.ctx q.toNat ∧
      t.mem = s.mem ∧ SameOutside .queue s t)) ∧
  (∀ (s : State) (q : BitVec 20) (ann : AnnResult) (r : Rec) (rs : List Rec), s.Sole r rs → r.q = q.toNat → r.phase = .ready →
    r.typ ≠ 1 → s.coreRuns = true → s.enabled .queue = true → s.quiescedAt .queue = none → s.cached q.toNat = true →
    s.ctxSound q.toNat → ann ≠ .ctxCorrected → ann ≠ .ctxBad →
    (s.ctx q.toNat).halted = false → (s.ctx q.toNat).absent = 0 →
    64 * (s.ctx q.toNat).free < recLen r.payload.length r.meas.length + 128 → Completes (.reservationRequest q ann) s (fun t =>
      t.queue.recs = { r with phase := .waiting s.tim.raw } :: rs ∧ t.ctx q.toNat = s.ctx q.toNat ∧ t.mem = s.mem ∧
      SameOutside .queue s t)) ∧
  (∀ (s : State) (q : BitVec 20) (ann : AnnResult) (r : Rec) (rs : List Rec), s.Sole r rs → r.q = q.toNat → r.phase = .ready →
    s.coreRuns = true → s.enabled .queue = true → s.quiescedAt .queue = none → s.cached q.toNat = false →
    q.toNat ∉ s.queue.fetching → Completes (.reservationRequest q ann) s (fun t =>
      t.queue.recs = { r with phase := .waiting s.tim.raw } :: rs ∧ t.queue.fetching = s.queue.fetching ++ [q.toNat] ∧
      t.rd .queue R.QUEUE_CACHE.misses = min (s.rd .queue R.QUEUE_CACHE.misses + 1) (2 ^ 32 - 1) ∧ t.mem = s.mem ∧
      SameOutside .queue s t)) ∧
  (∀ (s : State) (q : BitVec 20) (ann : AnnResult) (r : Rec) (rs : List Rec) (u : Nat), s.Sole r rs → r.q = q.toNat →
    r.phase = .waiting u → r.cls ≠ 11 → u + s.rd .queue R.QUEUE_CFG.full_wait * usUnits ≤ s.tim.raw → s.cached q.toNat = true →
    (s.ctx q.toNat).absent + 1 < 2 ^ 28 - 1 → Completes (.reservationTimeout q ann) s (fun t => t.queue.recs = rs ∧
      (t.ctx q.toNat).absent = (s.ctx q.toNat).absent + 1 ∧
      t.rd .queue R.QUEUE_COUNTS.refused = min (s.rd .queue R.QUEUE_COUNTS.refused + 1) (2 ^ 32 - 1) ∧
      t.rd (.records r.prod) R.REC_COUNTS.abandoned = min (s.rd (.records r.prod) R.REC_COUNTS.abandoned + 1) (2 ^ 32 - 1) ∧
      t.mem = s.mem)) ∧
  (∀ (s : State) (q : BitVec 20) (r : Rec) (rs : List Rec), s.Sole r rs → r.q = q.toNat → r.phase = .granted → r.cls ≠ 11 →
    s.enabled .check = true → s.coreRuns = true → s.bufStalls r.q r.off (recLen r.payload.length r.meas.length) = false →
    Completes (.recordSeal q .ok) s (fun t =>
      (∃ r', t.queue.recs = r' :: rs ∧ r'.phase = .sealed ∧ r'.alive = s.rd .check (R.CHK_ALIVE.alive (s.recUnit r)) ∧
        r'.len = recLen r.payload.length r.meas.length ∧ r'.q = r.q ∧ r'.seq = r.seq ∧ r'.off = r.off) ∧
      t.rd .check (R.CHK_ALIVE.alive (s.recUnit r)) = (s.rd .check (R.CHK_ALIVE.alive (s.recUnit r)) + 1) % 65536 ∧
      t.rd (.records r.prod) R.REC_COUNTS.sealed = min (s.rd (.records r.prod) R.REC_COUNTS.sealed + 1) (2 ^ 32 - 1))) ∧
  (∀ (s : State) (q : BitVec 20) (r : Rec) (rs : List Rec), s.Sole r rs → r.q = q.toNat → r.phase = .sealed → s.enabled .queue = true →
    s.coreRuns = true → s.hostOutFull = false → s.recNeedsFlush r = false → s.cached q.toNat = true → s.cqRoom (s.ctx q.toNat).cq = true →
    (s.cqSt (s.ctx q.toNat).cq).log2n ≤ 16 → s.queue.destroying = none → Completes (.publication q) s (fun t => t.queue.recs = rs ∧
      (t.ctx q.toNat).produced = (r.off + r.len / 64) % 2 ^ 36 ∧ (t.ctx q.toNat).pubSeq = (r.seq + 1) % 2 ^ 64 ∧
      t.rd .queue R.QUEUE_PUBLISHED.count = min (s.rd .queue R.QUEUE_PUBLISHED.count + 1) (2 ^ 64 - 1) ∧
      t.rd (cqBlk (s.ctx q.toNat).cq) (R.CQ_STATUS.tail ((s.ctx q.toNat).cq % 256)) =
        (s.rd (cqBlk (s.ctx q.toNat).cq) (R.CQ_STATUS.tail ((s.ctx q.toNat).cq % 256)) + 1) % 2 ^ (s.cqSt (s.ctx q.toNat).cq).log2n)) ∧
  (∀ (s : State) (q : BitVec 20) (r : Rec) (rs : List Rec), s.Sole r rs → r.q = q.toNat → r.phase = .granted → s.cached q.toNat = true →
    s.queue.destroying = none → Completes (.recordWriteFailure q) s (fun t => t.queue.recs = rs ∧ (t.ctx q.toNat).halted = true ∧
      t.rd .queue R.QUEUE_LAST_FAULT.queue = q.toNat ∧ t.rd .queue R.QUEUE_LAST_FAULT.cause = 2 ∧
      t.rd .queue R.QUEUE_FAULT.target = 1 ∧ t.mem = s.mem)) ∧
  (∀ (s : State) (q : BitVec 20) (u : Nat), SMap.get (fun _ => none) s.queue.timers q.toNat = some u → (s.ctx q.toNat).irq = true →
    (s.ctx q.toNat).modTimer ≠ 0 → (s.ctx q.toNat).unsignalled ≠ 0 → u + 2 ^ ((s.ctx q.toNat).modTimer - 1) * usUnits ≤ s.tim.raw →
    s.cached q.toNat = true → Completes (.moderationTimer q) s (fun t =>
      SMap.get (fun _ => none) t.queue.timers q.toNat = none ∧ (t.ctx q.toNat).unsignalled = 0 ∧ t.mem = s.mem ∧
      SameExcept [.queue, .dma] s t ∧
      (s.flag (cqBlk (s.ctx q.toNat).cq) (R.CQ_CFG.irq_enable ((s.ctx q.toNat).cq % 256)) = true →
        s.flag .dma R.PCIE_STATUS.msix_enable = true → s.endpointWedged = false → s.flag .dma R.PCIE_STATUS.bus_master = true →
        s.msixMasked (s.rd (cqBlk (s.ctx q.toNat).cq) (R.CQ_CFG.vector ((s.ctx q.toNat).cq % 256))) = false →
        t.host.sent = s.host.sent ++ [s.rd (cqBlk (s.ctx q.toNat).cq) (R.CQ_CFG.vector ((s.ctx q.toNat).cq % 256))]))) ∧
  (∀ (s : State) (q : BitVec 20) (ann : AnnResult), q.toNat ∈ s.queue.fetching → (s.ways q.toNat).length < 8 →
    s.dramOpen (s.ctxAddr q.toNat) 32 = true → s.badLine (s.ctxAddr q.toNat) = false → (∀ r ∈ s.queue.recs, r.q ≠ q.toNat) → Completes (.contextFetch q ann) s (fun t =>
      t.cached q.toNat = true ∧ t.ctx q.toNat = s.ctxTable q.toNat ∧ q.toNat ∉ t.queue.fetching ∧ t.regs = s.regs ∧ t.mem = s.mem)) ∧
  (∀ (s : State) (q : BitVec 20) (r : Rec) (rs : List Rec), s.Sole r rs → r.q = q.toNat → r.phase = .ready → r.cls ≠ 11 →
    s.coreRuns = true → s.enabled .queue = true → s.quiescedAt .queue = none → s.cached q.toNat = true →
    (s.ctx q.toNat).absent + 1 < 2 ^ 28 - 1 → Completes (.reservationRequest q .ctxBad) s (fun t => t.queue.recs = rs ∧
      (t.ctx q.toNat).halted = true ∧ (t.ctx q.toNat).absent = (s.ctx q.toNat).absent + 1 ∧
      t.rd .queue R.QUEUE_LAST_FAULT.queue = q.toNat ∧ t.rd .queue R.QUEUE_LAST_FAULT.cause = 0 ∧
      t.rd .queue R.QUEUE_FAULT.ctx_ecc = 1)) ∧
  (∀ (s : State) (r : Rec) (rs : List Rec) (u : Nat), s.Sole r rs → s.quiescedAt .queue = some u → s.coreRuns = true →
    u + 50 * usUnits ≤ s.tim.raw → r.phase = .granted → r.cls ≠ 11 → (∀ x ∈ rs, x.phase ≠ .granted) → s.cached r.q = true →
    Completes .quiesceSealDeadline s (fun t => t.queue.recs = rs ∧
      t.rd (.records r.prod) R.REC_COUNTS.abandoned = min (s.rd (.records r.prod) R.REC_COUNTS.abandoned + 1) (2 ^ 32 - 1)))

/-- The record engine: a complete ring slot is written header and samples, continuous capture starts and stops, and a held record goes on
with its measurement block, without one, or when its time-out ends (R171, R173, R179). -/
def Obligations.RecordEngine : Prop :=
  (∀ (s : State) (i : Fin 17) (d : SlotIn) (ds : List SlotIn) (a : Nat), s.recsLive i = true → (s.recs[i]).slots = d :: ds →
    (s.recs[i]).caps = [] → s.flag (.records i) R.CAP_CTRL.continuous = false → s.shadowing i = false → d.head.length = 64 →
    s.mem.dramBad = [] → s.memReady → (s.recs[i]).lost = none → a = s.rd (.records i) R.CAP_RING.base / 64 * 64 +
      d.c % max 1 (s.rd (.records i) R.CAP_CFG.slots) * s.slotSize i → Completes (.ringSlotWrite i) s (fun t =>
      (t.recs[i]).slots = ds ∧ t.rd (.records i) R.CAP_STATUS.head = d.c % 2 ^ 64 ∧
      (∀ k < 64, SMap.get zeroByte t.mem.dram (a + k) = d.head.getD k 0) ∧
      (∀ k < d.body.length, SMap.get zeroByte t.mem.dram (a + 64 + k) = d.body.getD k 0) ∧
      (∀ x, x < a ∨ a + 64 + d.body.length ≤ x → SMap.get zeroByte t.mem.dram x = SMap.get zeroByte s.mem.dram x) ∧
      SameExcept (.records i :: dramBlks) s t)) ∧
  (∀ (s : State) (i : Fin 17), s.dev ≠ .off → s.dev ≠ .boot → s.recsLive i = true → Completes (.contStart i .write) s (fun t =>
      t.rd (.records i) R.CAP_CTRL.continuous = 1 ∧ t.recs = s.recs ∧ t.mem = s.mem ∧ SameOutside (.records i) s t)) ∧
  (∀ (s : State) (i : Fin 17), s.dev ≠ .off → s.dev ≠ .boot → s.recsLive i = true → (s.recs[i]).cont = none → Completes (.contStop i .write) s (fun t =>
      t.rd (.records i) R.CAP_CTRL.continuous = 0 ∧ t.recs = s.recs ∧ t.mem = s.mem ∧ SameOutside (.records i) s t)) ∧
  (∀ p ∈ ([.contStart, .contStop] : List (Fin 17 → Via → Instr)), ∀ (s : State) (c : Fin 17) (y : Syl), s.dev ≠ .boot → s.Quiet c →
    y.last = true → s.guard0 c y = true → s.recsLive c = true → (s.recs[c]).cont = none → Completes (p c (.unit y)) s (fun t =>
      t.rd (.records c) R.CAP_CTRL.continuous = ((s.cores[c]).sreg y.an).toNat % 2 ∧ t.pc c = s.pc c + 1)) ∧
  (∀ (s : State) (c : Fin 17) (y : Syl) (r : Rec) (rs : List Rec) (u n a : Nat), s.Quiet c → y.last = true → s.guard0 c y = true →
    s.Sole r rs → r.prod = c.val → r.phase = .held u → (∀ x ∈ rs, x.prod ≠ r.prod) → s.tko.pairs = [] →
    n = ((s.cores[c]).sreg y.bn).toNat % 8192 → a = 8 * (((s.cores[c]).sreg y.an).toNat % 2 ^ 20) → 8 ≤ n → n ≤ 4096 → n % 8 = 0 →
    recLen r.payload.length n ≤ s.recLimit c r.cls → (s.cores[c]).resSince = false → a + n ≤ 2 ^ 23 → Completes (.append c y) s (fun t =>
      t.queue.recs = { r with meas := memRead (s.mem.lmem[c]) a n, phase := .ready } :: rs ∧ t.rd (.records c) R.REC_OPEN.held = 0 ∧
      t.pc c = s.pc c + 1 ∧ t.mem = s.mem)) ∧
  (∀ (s : State) (c : Fin 17) (y : Syl) (r : Rec) (rs : List Rec) (u n : Nat), s.Quiet c → y.last = true → s.guard0 c y = true →
    s.Sole r rs → r.prod = c.val → r.phase = .held u → (∀ x ∈ rs, x.prod ≠ r.prod) → s.tko.pairs = [] →
    n = ((s.cores[c]).sreg y.bn).toNat % 8192 → (n < 8 ∨ 4096 < n ∨ n % 8 ≠ 0 ∨ s.recLimit c r.cls < recLen r.payload.length n) →
    (s.cores[c]).resSince = false → Completes (.append c y) s (fun t =>
      t.queue.recs = { r with meas := [], phase := .ready } :: rs ∧ t.rd (.records c) R.REC_FAULT.meas_invalid = 1 ∧
      t.pc c = s.pc c + 1 ∧ t.mem = s.mem)) ∧
  (∀ (s : State) (c : Fin 17) (y : Syl) (r : Rec) (rs : List Rec) (u : Nat), s.Quiet c → y.last = true → s.guard0 c y = true →
    s.Sole r rs → r.prod = c.val → r.phase = .held u → (∀ x ∈ rs, x.prod ≠ r.prod) → s.tko.pairs = [] →
    Completes (.skip c y) s (fun t => t.queue.recs = { r with meas := [], phase := .ready } :: rs ∧
      t.rd (.records c) R.REC_OPEN.held = 0 ∧ t.pc c = s.pc c + 1 ∧ t.mem = s.mem)) ∧
  (∀ (s : State) (i : Fin 17) (r : Rec) (rs : List Rec) (u : Nat), s.Sole r rs → r.prod = i.val → r.phase = .held u →
    (∀ x ∈ rs, x.prod ≠ r.prod) → s.tko.pairs = [] → s.recsLive i = true →
    s.measExpired i r = true → Completes (.measTimeout i) s (fun t =>
      t.queue.recs = { r with meas := [], phase := .ready } :: rs ∧
      t.rd (.records i) R.REC_COUNTS2.meas_missed = min (s.rd (.records i) R.REC_COUNTS2.meas_missed + 1) 65535 ∧ t.mem = s.mem)) ∧
  (∀ p ∈ ([.append, .skip] : List (Fin 17 → Syl → Instr)), ∀ (s : State) (c : Fin 17) (y : Syl), s.Quiet c → y.last = true →
    s.guard0 c y = true → s.heldOf c = [] → Completes (p c y) s (fun t => t.rd (.records c) R.REC_FAULT.meas_invalid = 1 ∧
      t.queue = s.queue ∧ t.pc c = s.pc c + 1 ∧ t.mem = s.mem))

/-! ### Channeliser and synthesis (R184 to R222) -/

/-- The channeliser's commands: SELECT and COMMIT stage and commit the selection or are refused; a write of CHAN_CFG starts the generation
of the prototype, whose branches each sum to 2^17 when it is ready (R185, R189). The coefficients themselves are free values. -/
def Obligations.ChanneliserControl : Prop :=
  (∀ (s : State) (i : Fin 17), s.dev ≠ .off → s.dev ≠ .boot → 8 * s.rd .chan (R.CHAN_SEL.stage_laddr i) + s.chanM i / 8 ≤ 2 ^ 23 →
    Completes (.chanCommit i .write) s (fun t => t.rd .chan (R.CHAN_CTRL.commit i) = 1 ∧ t.rd .chan (R.CHAN_CTRL.last_status i) = 1 ∧
      t.chans = s.chans ∧ t.mem = s.mem ∧ SameOutside .chan s t)) ∧
  (∀ (s : State) (i : Fin 17), s.dev ≠ .off → s.dev ≠ .boot → 2 ^ 23 < 8 * s.rd .chan (R.CHAN_SEL.stage_laddr i) + s.chanM i / 8 →
    Completes (.chanCommit i .write) s (fun t => t.rd .chan (R.CHAN_CTRL.commit i) = 0 ∧ t.rd .chan (R.CHAN_CTRL.last_status i) = 3 ∧
      t.rd .chan (R.CHAN_FAULT.select_refused i) = 1 ∧ t.chans = s.chans ∧ t.mem = s.mem)) ∧
  (∀ (s : State) (c : Fin 17) (y : Syl), s.dev ≠ .off → s.dev ≠ .boot → s.Quiet c → y.last = true → s.guard0 c y = true →
    8 * s.rd .chan (R.CHAN_SEL.stage_laddr c) + s.chanM c / 8 ≤ 2 ^ 23 → Completes (.chanCommit c (.unit y)) s (fun t =>
      t.rd .chan (R.CHAN_CTRL.commit c) = 1 ∧ t.rd .chan (R.CHAN_CTRL.last_status c) = 1 ∧ t.pc c = s.pc c + 1 ∧ t.mem = s.mem)) ∧
  (∀ (s : State) (c : Fin 17) (y : Syl), s.Quiet c → y.last = true → s.guard0 c y = true →
    8 * (((s.cores[c]).sreg y.an).toNat % 2 ^ 20) + s.chanM c / 8 ≤ 2 ^ 23 → Completes (.chanSelect c y) s (fun t =>
      t.rd .chan (R.CHAN_SEL.stage_laddr c) = ((s.cores[c]).sreg y.an).toNat % 2 ^ 20 ∧ t.rd .chan (R.CHAN_CTRL.commit c) = 1 ∧
      t.rd .chan (R.CHAN_CTRL.last_status c) = 1 ∧ t.pc c = s.pc c + 1 ∧ t.mem = s.mem)) ∧
  (∀ (s : State) (c : Fin 17) (y : Syl), s.Quiet c → y.last = true → s.guard0 c y = true →
    2 ^ 23 < 8 * (((s.cores[c]).sreg y.an).toNat % 2 ^ 20) + s.chanM c / 8 → Completes (.chanSelect c y) s (fun t =>
      t.rd .chan (R.CHAN_CTRL.last_status c) = 3 ∧ t.rd .chan (R.CHAN_FAULT.select_refused c) = 1 ∧
      nbit (t.rd (.core c) R.INT_PEND.pending) 2 = true ∧ t.pc c = s.pc c + 1 ∧ t.mem = s.mem)) ∧
  (∀ (s : State) (i : Fin 17) (v : BitVec 64), s.dev ≠ .off → s.dev ≠ .boot → s.enabled (.filt i) = false → Completes (.prototypeGenerate i v) s (fun t =>
      t.rdw .chan (0x100 + 0x40 * i.val) = v.toNat % 2 ^ 44 ∧ (t.chans[i]).making = !v.getLsbD 7 ∧ t.mem = s.mem ∧
      (∀ j : Fin 17, j ≠ i → t.chans[j] = s.chans[j]) ∧ SameExcept [.chan, .global] s t)) ∧
  (∀ (s : State) (i : Fin 17) (v : BitVec 64), s.enabled (.filt i) = true → exec (.prototypeGenerate i v) s = .next s) ∧
  (∀ (s : State) (i : Fin 17), (s.chans[i]).making = true → Completes (.prototypeReady i) s (fun t => (t.chans[i]).making = false ∧
      SameOutside .global s t ∧ (s.protoStored i = false → t.mem = s.mem) ∧ ∃ p, (t.chans[i]).proto = some p ∧ p.length = s.chanL i ∧
      (∀ b < s.chanM i, ((List.range (s.chanT i)).map (fun k => p.getD (k * s.chanM i + b) 0)).sum = 2 ^ 17) ∧
      (s.protoStored i = true → s.flag .chan (R.CHAN_CFG.proto_user i) = false → s.mem.lmemBad[i] = [] →
        ∀ k < s.chanL i, signed 18 (memNat (t.mem.lmem[i]) (s.protoAddr i + 4 * k) 4) = p.getD k 0)))

/-- Start, stop, commit and FRAME of the synthesis path, and the instant a run begins: each accepted command and each refusal of R207, R208,
R212 and R215. -/
def Obligations.SynthesisControl : Prop :=
  (∀ (s : State) (i : Fin 17), s.dev ≠ .off → s.dev ≠ .boot → s.synLive i = true → s.mode i = 3 → (s.synState i = 0 ∨ s.synState i = 3) →
    s.tim.now + 20 * usUnits ≤ ofT96 (s.rdT96 (.records i) R.SYN_START_T96.lo) → Completes (.synStart i .write) s (fun t =>
      t.synState i = 1 ∧ t.rd (.records i) R.SYN_CTRL.start = 1 ∧ t.rd (.records i) R.SYN_CTRL.last_cmd = 1 ∧
      t.rd (.records i) R.SYN_CTRL.last_status = 1 ∧ t.synNext i = 0 ∧
      (t.syns[i]).start = (ofT96 (s.rdT96 (.records i) R.SYN_START_T96.lo) : Nat) ∧ (t.syns[i]).routes = (s.syns[i]).routes ∧
      t.mem = s.mem ∧ SameOutside (.records i) s t)) ∧
  (∀ (s : State) (i : Fin 17), s.dev ≠ .off → s.dev ≠ .boot → s.synLive i = true → s.mode i = 3 → (s.synState i = 0 ∨ s.synState i = 3) →
    ofT96 (s.rdT96 (.records i) R.SYN_START_T96.lo) < s.tim.now + 20 * usUnits → Completes (.synStart i .write) s (fun t =>
      t.synState i = s.synState i ∧ t.rd (.records i) R.SYN_CTRL.last_cmd = 1 ∧ t.rd (.records i) R.SYN_CTRL.last_status = 2 ∧
      t.rd (.records i) R.SYN_FAULT.start_late = 1 ∧ t.syns = s.syns ∧ t.mem = s.mem ∧ SameOutside (.records i) s t)) ∧
  (∀ (s : State) (c : Fin 17) (y : Syl), s.dev ≠ .off → s.dev ≠ .boot → s.Quiet c → y.last = true → s.guard0 c y = true → s.synLive c = true → s.mode c = 3 →
    (s.synState c = 0 ∨ s.synState c = 3) → s.tim.now + 20 * usUnits ≤ ofT96 (s.rdT96 (.records c) R.SYN_START_T96.lo) →
    Completes (.synStart c (.unit y)) s (fun t => t.synState c = 1 ∧ t.rd (.records c) R.SYN_CTRL.last_status = 1 ∧
      t.pc c = s.pc c + 1 ∧ t.mem = s.mem)) ∧
  (∀ (s : State) (i : Fin 17), s.synLive i = true → s.synState i = 1 → s.releaseDue i 0 = true → s.emitFull i = false → (s.syns[i]).stopAt = none →
    s.flag (.records i) R.SYN_CFG.loop = false → Completes (.startInstant i) s (fun t => t.synState i = 2 ∧
      t.rd (.records i) R.SYN_CTRL.start = 0 ∧ t.synNext i = (s.synNext i + 1) % 2 ^ 64 ∧ t.mem = s.mem)) ∧
  (∀ (s : State) (i : Fin 17), s.dev ≠ .off → s.dev ≠ .boot → s.synLive i = true → s.synState i = 1 → Completes (.synStop i .write) s (fun t => t.synState i = 0 ∧
      t.rd (.records i) R.SYN_CTRL.start = 0 ∧ t.rd (.records i) R.SYN_CTRL.last_cmd = 2 ∧
      t.rd (.records i) R.SYN_CTRL.last_status = 0 ∧ t.mem = s.mem ∧ SameOutside (.records i) s t)) ∧
  (∀ (s : State) (i : Fin 17), s.dev ≠ .off → s.dev ≠ .boot → s.synLive i = true → s.synState i = 2 → s.mode i = 3 → Completes (.synStop i .write) s (fun t =>
      t.synState i = 2 ∧ t.rd (.records i) R.SYN_CTRL.stop = 1 ∧ t.rd (.records i) R.SYN_CTRL.last_status = 1 ∧
      (t.syns[i]).stopAt = some ((s.synNext i + 4095) / 4096 * 4096) ∧ t.mem = s.mem ∧ SameOutside (.records i) s t)) ∧
  (∀ (s : State) (c : Fin 17) (y : Syl), s.dev ≠ .off → s.dev ≠ .boot → s.Quiet c → y.last = true → s.guard0 c y = true → s.synLive c = true → s.synState c = 1 →
    Completes (.synStop c (.unit y)) s (fun t => t.synState c = 0 ∧ t.rd (.records c) R.SYN_CTRL.last_status = 0 ∧
      t.pc c = s.pc c + 1)) ∧
  (∀ (s : State) (i : Fin 17), s.dev ≠ .off → s.dev ≠ .boot → Completes (.synCommit i .write) s (fun t => t.rd (.records i) R.SYN_CTRL.commit = 1 ∧
      t.rd (.records i) R.SYN_CTRL.last_cmd = 3 ∧ t.rd (.records i) R.SYN_CTRL.last_status = 1 ∧ t.syns = s.syns ∧ t.mem = s.mem ∧
      SameOutside (.records i) s t)) ∧
  (∀ (s : State) (c : Fin 17) (y : Syl), s.dev ≠ .off → s.dev ≠ .boot → s.Quiet c → y.last = true → s.guard0 c y = true → Completes (.synCommit c (.unit y)) s (fun t =>
      t.rd (.records c) R.SYN_CTRL.commit = 1 ∧ t.rd (.records c) R.SYN_CTRL.last_status = 1 ∧ t.pc c = s.pc c + 1)) ∧
  (∀ (s : State) (c : Fin 17) (y : Syl) (v : Nat), s.Quiet c → y.last = true → s.guard0 c y = true → ((s.syns[c]).frames).length < 4 →
    v = ((s.cores[c]).sreg y.an).toNat → Completes (.synFrame c y) s (fun t =>
      (t.syns[c]).frames = (s.syns[c]).frames ++ [⟨v % 2 ^ 20, if v / 2 ^ 20 % 64 = 0 then 64 else v / 2 ^ 20 % 64, v / 2 ^ 26⟩] ∧
      t.rd (.records c) R.SYN_STATUS.frames_queued = ((s.syns[c]).frames).length + 1 ∧ t.pc c = s.pc c + 1 ∧ t.mem = s.mem)) ∧
  (∀ (s : State) (c : Fin 17) (y : Syl), s.Quiet c → y.last = true → s.guard0 c y = true → 4 ≤ ((s.syns[c]).frames).length →
    Completes (.synFrame c y) s (fun t => (t.syns[c]).frames = (s.syns[c]).frames ∧ t.rd (.records c) R.SYN_CTRL.last_status = 2 ∧
      nbit (t.rd (.core c) R.INT_PEND.pending) 2 = true ∧ t.pc c = s.pc c + 1 ∧ t.mem = s.mem))

/-- What the synthesis path produces: frames are consumed or counted as missing, a playback sample leaves through the gain or as a zero,
a stop ends the run at its caravan boundary, a caravan is fetched or counted as underrun, a playback doorbell publishes (R206 to R217). -/
def Obligations.SynthesisOutput : Prop :=
  (∀ (s : State) (i : Fin 17) (q : SynFrames) (qs : List SynFrames), s.synLive i = true → s.mode i = 3 → s.synSrc i = 1 →
    (s.synState i = 1 ∨ s.synState i = 2) → (s.syns[i]).frames = q :: qs → q.left = 1 → Completes (.frameSynthesis i .none) s (fun t =>
      (t.syns[i]).frames = qs ∧ (t.syns[i]).nextF = (s.syns[i]).nextF + 1 ∧
      t.rd (.records i) R.SYN_STATUS.frames_queued = qs.length % 8 ∧
      t.rd (.records i) R.SYN_STATUS.frames_consumed = (s.rd (.records i) R.SYN_STATUS.frames_consumed + 1) % 2 ^ 32 ∧
      t.mem = s.mem)) ∧
  (∀ (s : State) (i : Fin 17), s.synLive i = true → s.mode i = 3 → s.synSrc i = 1 → (s.synState i = 1 ∨ s.synState i = 2) →
    (s.syns[i]).frames = [] → Completes (.frameSynthesis i .none) s (fun t => (t.syns[i]).nextF = (s.syns[i]).nextF + 1 ∧
      t.rd (.records i) R.SYN_COUNTS2.frames_missing = min (s.rd (.records i) R.SYN_COUNTS2.frames_missing + 1) 65535 ∧
      t.mem = s.mem ∧ SameOutside (.records i) s t)) ∧
  (∀ (s : State) (i : Fin 17) (p : SynSmp) (ps : List SynSmp) (g : Fin 16) (k : Fin 5), s.synLive i = true → s.mode i = 3 →
    s.synSrc i = 0 → s.synState i = 2 → s.releaseDue i (s.synNext i) = true → s.emitFull i = false → (s.syns[i]).stopAt = none → s.flag (.records i) R.SYN_CFG.loop = false →
    s.synNext i ≠ (s.syns[i]).base → s.synNext i % 4096 ≠ 0 → (s.syns[i]).pb = p :: ps → (s.syns[i]).pbFrom = s.synNext i →
    p.bad = none → (s.syns[i]).fcw = 0 → (s.syns[i]).routes = [(g.val, k.val)] → Completes (.sampleRelease i false) s (fun t =>
      t.synNext i = (s.synNext i + 1) % 2 ^ 64 ∧ (t.syns[i]).pb = ps ∧ (∃ o, ((t.tx[g]).subs[k]).queue = ((s.tx[g]).subs[k]).queue ++
        [⟨sat24 (rne (p.i * (s.syns[i]).outGain) 16), sat24 (rne (p.q * (s.syns[i]).outGain) 16), o, false, false⟩]) ∧
      t.mem = s.mem)) ∧
  (∀ (s : State) (i : Fin 17) (p : SynSmp) (ps : List SynSmp) (g : Fin 16) (k : Fin 5), s.synLive i = true → s.mode i = 3 →
    s.synSrc i = 0 → s.synState i = 2 → s.releaseDue i (s.synNext i) = true → s.emitFull i = false → (s.syns[i]).stopAt = none → s.flag (.records i) R.SYN_CFG.loop = false →
    s.synNext i ≠ (s.syns[i]).base → s.synNext i % 4096 ≠ 0 → (s.syns[i]).pb = p :: ps → (s.syns[i]).pbFrom = s.synNext i →
    p.bad = some 0 → (s.syns[i]).routes = [(g.val, k.val)] → Completes (.sampleRelease i false) s (fun t =>
      t.synNext i = (s.synNext i + 1) % 2 ^ 64 ∧ ((t.tx[g]).subs[k]).queue = ((s.tx[g]).subs[k]).queue ++ [⟨0, 0, false, false, false⟩] ∧
      t.mem = s.mem)) ∧
  (∀ (s : State) (i : Fin 17) (n : Nat), s.synLive i = true → s.mode i = 3 → s.synState i = 2 → s.releaseDue i (s.synNext i) = true → s.emitFull i = false →
    (s.syns[i]).stopAt = some n → s.flag (.records i) R.SYN_CFG.loop = false → n ≤ s.synNext i → Completes (.sampleRelease i false) s (fun t => t.synState i = 3 ∧
      t.rd (.records i) R.SYN_CTRL.stop = 0 ∧ (t.syns[i]).stopAt = none ∧ (t.syns[i]).pb = [] ∧ t.synNext i = s.synNext i ∧
      t.mem = s.mem)) ∧
  (∀ (s : State) (i : Fin 17) (n : Nat), s.synLive i = true → s.mode i = 3 → s.synSrc i ≠ 1 → (s.synState i = 1 ∨ s.synState i = 2) → s.pbOpen i = true →
    s.flag (.records i) R.SYN_CFG.loop = false → n = (s.syns[i]).pbFrom + ((s.syns[i]).pb).length → Completes (.playbackFetch i false) s
      (fun t => ((t.syns[i]).pb).length = ((s.syns[i]).pb).length + (4096 - n % 4096) ∧
        t.rd (.records i) R.SYN_FAULT.pb_target = 1 ∧ t.rd (.records i) R.SYN_COUNTS.underrun_samples =
          min (s.rd (.records i) R.SYN_COUNTS.underrun_samples + (4096 - n % 4096)) (2 ^ 32 - 1) ∧
        t.rd (.records i) R.SYN_LAST_EVENT.index = n % 2 ^ 60 ∧ t.rd (.records i) R.SYN_LAST_EVENT.cause = 5 ∧ t.mem = s.mem ∧
        SameOutside (.records i) s t)) ∧
  (∀ (s : State) (i : Fin 17) (n : Nat), s.synLive i = true → s.mode i = 3 → s.synSrc i ≠ 1 → (s.synState i = 1 ∨ s.synState i = 2) → s.pbOpen i = true →
    s.flag (.records i) R.SYN_CFG.loop = true → s.rd (.records i) R.PB_LOOP.loop_len ≠ 0 → s.rd (.records i) R.PB_LOOP.loop_count = 0 →
    n = (s.syns[i]).pbFrom + ((s.syns[i]).pb).length → s.pbFault i n (4096 - n % 4096) = none → Completes (.playbackFetch i true) s (fun t =>
      ((t.syns[i]).pb).length = ((s.syns[i]).pb).length + (4096 - n % 4096) ∧ (∀ p ∈ ((t.syns[i]).pb).drop ((s.syns[i]).pb).length,
        p.bad = none) ∧ t.regs = s.regs ∧ t.mem = s.mem)) ∧
  (∀ (s : State) (i : Fin 17) (v : BitVec 36), s.dev ≠ .off → s.dev ≠ .boot → s.flag (.records i) R.SYN_CFG.loop = false →
    (s.rd (.records i) R.PB_DOORBELL.produced + 2 ^ 36 - s.rd (.records i) R.PB_CONSUMED.consumed) % 2 ^ 36 ≤
      (v.toNat + 2 ^ 36 - s.rd (.records i) R.PB_CONSUMED.consumed) % 2 ^ 36 →
    (v.toNat + 2 ^ 36 - s.rd (.records i) R.PB_CONSUMED.consumed) % 2 ^ 36 ≤ 2 ^ (s.rd (.records i) R.PB_BASE.log2size - 6) →
    Completes (.pbDoorbell i v) s (fun t => t.rd (.records i) R.PB_DOORBELL.produced = v.toNat ∧ t.mem = s.mem ∧ t.syns = s.syns ∧
      SameOutside (.records i) s t)) ∧
  (∀ (s : State) (i : Fin 17) (v : BitVec 36), s.dev ≠ .off → s.dev ≠ .boot → s.flag (.records i) R.SYN_CFG.loop = false →
    ((v.toNat + 2 ^ 36 - s.rd (.records i) R.PB_CONSUMED.consumed) % 2 ^ 36 <
        (s.rd (.records i) R.PB_DOORBELL.produced + 2 ^ 36 - s.rd (.records i) R.PB_CONSUMED.consumed) % 2 ^ 36 ∨
      2 ^ (s.rd (.records i) R.PB_BASE.log2size - 6) < (v.toNat + 2 ^ 36 - s.rd (.records i) R.PB_CONSUMED.consumed) % 2 ^ 36) →
    Completes (.pbDoorbell i v) s (fun t => t.rd (.records i) R.PB_DOORBELL.produced = s.rd (.records i) R.PB_DOORBELL.produced ∧
      t.rd (.records i) R.SYN_FAULT.doorbell_invalid = 1 ∧ t.mem = s.mem ∧ SameOutside (.records i) s t)) ∧
  (∀ (s : State) (i : Fin 17) (v : BitVec 36), s.flag (.records i) R.SYN_CFG.loop = true → exec (.pbDoorbell i v) s = .next s)

/-! ### Placement, takeover and calibration (R264 to R314) -/

/-- SUBMIT, WITHDRAW and UPDATE: a command waits while the engine is busy; a sound stream and a sound destination are admitted, an unsound
stream and an analysis without a free slice are rejected with their reasons; a withdrawn destination is free again; a refused command
says so; an accepted UPDATE is a takeover with cause 8. The engine's next action: a withdrawn entry's cause is acted on, a pending command
is performed, a fall of the DRAM channels demotes a best-effort analysis; nothing happens without the CORE clock
(R264, R267 to R271, R274 to R276). -/
def Obligations.PlacementEngine : Prop :=
  (∀ s : State, s.dev ≠ .off → s.dev ≠ .boot → s.flag .placement R.PL_CTRL.go = false → s.plIdle = true → s.causes = [] → Completes .submit s (fun t =>
      t.rd .placement R.PL_CTRL.go = 0 ∧ t.rd .placement R.PL_CTRL.last_status = 0)) ∧
  (∀ (s : State) (e : Nat) (c : Nat), s.dev ≠ .off → s.dev ≠ .boot → s.flag .placement R.PL_CTRL.go = false → s.plIdle = true → s.causes = [] → s.pl.order = [] →
    s.toEvaluate 1 = [e] → s.toEvaluate 2 = [] → s.toEvaluate 3 = [] → s.streamSound e = true → s.linkCarries e = true →
    s.freeContext = some c → s.enabled .check = true → Completes .submit s (fun t => t.declState e = 1 ∧
      t.rd .placement (R.PL_STREAM.valid c) = 1 ∧ t.rd .placement (R.PL_STREAM.entry c) = e ∧
      nbits (t.declWord e 7) 5 0 = c % 64 ∧ t.mem = s.mem)) ∧
  (∀ (s : State) (e : Nat), s.dev ≠ .off → s.dev ≠ .boot → s.flag .placement R.PL_CTRL.go = false → s.plIdle = true → s.causes = [] → s.pl.order = [] →
    s.toEvaluate 1 = [e] → s.toEvaluate 2 = [] → s.toEvaluate 3 = [] → s.streamSound e = false → Completes .submit s (fun t =>
      t.declState e = 4 ∧ nbits (t.declWord e 0) 15 11 = 2 ∧
      t.rd .placement R.PL_COUNTS.rejections = min (s.rd .placement R.PL_COUNTS.rejections + 1) 65535 ∧ t.mem = s.mem)) ∧
  (∀ (s : State) (e n q : Nat), s.dev ≠ .off → s.dev ≠ .boot → s.flag .placement R.PL_CTRL.go = false → s.plIdle = true → s.causes = [] → s.pl.order = [] →
    s.toEvaluate 1 = [] → s.toEvaluate 2 = [] → s.toEvaluate 3 = [e] → n = nbits (s.declWord e 2) 12 0 → 1 ≤ n → n ≤ 4096 →
    s.declWord e 1 % 4096 = 0 → (∀ i < n, ctxAlignOk (s.destWord0 e i) = true) → s.enabled .check = true → s.enabled .queue = true →
    freeRun n s.queuesOn = some q → Completes .submit s (fun t => t.declState e = 1 ∧ nbits (t.declWord e 7) 19 0 = q % 2 ^ 20)) ∧
  (∀ (s : State) (e : Nat), s.dev ≠ .off → s.dev ≠ .boot → s.flag .placement R.PL_CTRL.go = false → s.plIdle = true → s.causes = [] → s.pl.order = [] →
    s.toEvaluate 1 = [] → s.toEvaluate 2 = [e] → s.toEvaluate 3 = [] → s.freeSlices e = [] → Completes .submit s (fun t =>
      t.declState e = 4 ∧ nbits (t.declWord e 0) 15 11 = 1 ∧ t.mem = s.mem)) ∧
  (∀ p ∈ ([(.submit, 1)] ++ (List.finRange 128).flatMap (fun e => [(.withdraw e, 2), (.update e, 3)]) : List (Instr × Nat)),
    ∀ s : State, s.dev ≠ .off → s.dev ≠ .boot → s.flag .placement R.PL_CTRL.go = false → (s.plIdle = false ∨ s.causes ≠ []) → Completes p.1 s (fun t =>
      t.rd .placement R.PL_CTRL.op = p.2 ∧ t.rd .placement R.PL_CTRL.go = 1 ∧ t.rd .placement R.PL_CTRL.last_status = 1 ∧
      t.pl = s.pl ∧ t.mem = s.mem ∧ SameExcept [.placement, .global] s t)) ∧
  (∀ (s : State) (e : Fin 128), s.dev ≠ .off → s.dev ≠ .boot → s.flag .placement R.PL_CTRL.go = false → s.plIdle = true → s.causes = [] →
    (s.declState e = 0 ∨ s.declState e = 5) → Completes (.withdraw e) s (fun t => t.rd .placement R.PL_CTRL.last_status = 2 ∧
      t.rd .placement R.PL_CTRL.go = 0 ∧ t.declState e = s.declState e ∧ t.mem = s.mem)) ∧
  (∀ (s : State) (e : Fin 128), s.dev ≠ .off → s.dev ≠ .boot → s.flag .placement R.PL_CTRL.go = false → s.plIdle = true → s.causes = [] → s.declState e = 4 →
    s.referenced e = false → Completes (.withdraw e) s (fun t => t.declState e = 0 ∧ t.rd .placement R.PL_CTRL.last_op = 2 ∧
      t.rd .placement R.PL_CTRL.last_status = 0 ∧ t.rd .placement R.PL_CTRL.go = 0 ∧ t.mem = s.mem)) ∧
  (∀ (s : State) (e : Fin 128), s.dev ≠ .off → s.dev ≠ .boot → s.flag .placement R.PL_CTRL.go = false → s.plIdle = true → s.causes = [] → s.declKind e = 3 →
    s.declState e = 1 → s.referenced e = false → s.tko.pairs = [] → s.destIdle e = true → Completes (.withdraw e) s (fun t =>
      t.declState e = 0 ∧ t.rd .placement R.PL_CTRL.last_status = 0 ∧ t.rd .placement R.PL_CTRL.go = 0 ∧ t.pl.jobs = [] ∧
      t.causes = [⟨9, e.val⟩])) ∧
  (∀ (s : State) (e : Fin 128), s.dev ≠ .off → s.dev ≠ .boot → s.flag .placement R.PL_CTRL.go = false → s.plIdle = true → s.causes = [] → s.declKind e ≠ 2 →
    Completes (.update e) s (fun t => t.rd .placement R.PL_CTRL.last_op = 3 ∧ t.rd .placement R.PL_CTRL.last_status = 2 ∧
      t.rd .placement R.PL_CTRL.go = 0 ∧ t.tko = s.tko ∧ t.mem = s.mem)) ∧
  (∀ (s : State) (e : Fin 128) (is ins : List Nat), s.dev ≠ .off → s.dev ≠ .boot → s.flag .placement R.PL_CTRL.go = false → s.plIdle = true → s.causes = [] →
    s.declKind e = 2 → (s.declState e = 1 ∨ s.declState e = 2) → s.imageStatus (s.imageBytes (s.flag .placement R.PL_ARG2.img_target,
      s.rd .placement R.PL_ARG.image, s.rd .placement R.PL_ARG2.length)) = 0 → is = s.declSlices e →
    ins = s.standIns e is.length false → ins.length = is.length → Completes (.update e) s (fun t => t.tkoPhase = 1 ∧
      t.rd .placement R.TKO_STATUS.cause = 8 ∧ t.tko.pairs = is.zip ins)) ∧
  (∀ s : State, s.coreRuns = false → exec .placementAction s = .next s) ∧
  (∀ (s : State) (e : Nat), s.coreRuns = true → s.enabled .placement = true → s.tko.fault = none → s.pl.jobs = [] →
    s.pl.order = [] → s.causes = [⟨9, e⟩] → Completes .placementAction s (fun t => t.causes = [] ∧ t.pl = s.pl ∧ t.mem = s.mem)) ∧
  (∀ (s : State) (e : Fin 128), s.tko.fault = none → s.plIdle = true → s.causes = [] → s.flag .placement R.PL_CTRL.go = true →
    s.rd .placement R.PL_CTRL.last_status = 1 → s.rd .placement R.PL_CTRL.op = 2 → s.rd .placement R.PL_CTRL.entry = e.val →
    s.declState e = 4 → s.referenced e = false → Completes .placementAction s (fun t => t.declState e = 0 ∧
      t.rd .placement R.PL_CTRL.go = 0 ∧ t.rd .placement R.PL_CTRL.last_status = 0 ∧ t.mem = s.mem)) ∧
  (∀ (s : State) (c : Fin 8) (e : Fin 128), s.coreRuns = true → s.enabled .placement = true → s.tko.fault = none → s.pl.jobs = [] →
    s.causes = [⟨4, c.val⟩] → s.pl.order = [e.val] → s.declState e = 1 → s.declBest e = true → s.allFit = false →
    Completes .placementAction s (fun t => t.declState e = 2 ∧ t.causes = [] ∧ t.rd .placement R.PL_EVENT.cause = 4 ∧
      t.rd .placement R.PL_EVENT.entry = e.val ∧ t.rd .placement R.PL_EVENT.result = 2 ∧
      t.rd .placement R.PL_COUNTS.demotions = min (s.rd .placement R.PL_COUNTS.demotions + 1) 65535 ∧ t.mem = s.mem))

/-- Calibration: what is due is started, asked for, refused, retried or abandoned; a stand-in joins; the limit of a shadow ends a takeover;
the self-test makes the slice the spare or retires it; trims move by at most one tap; a set without readings is stale
(R301 to R313). -/
def Obligations.Calibration : Prop :=
  (∀ (s : State) (i : Fin 17), s.flag .placement R.CAL_CFG.auto_cal = true → s.calClear = true → s.role i = 1 → s.placed i = false →
    (∀ j : Fin 17, j < i → s.role j ≠ 1) → s.rd .placement (R.CAL_SET.state i) = 2 → Completes .calibrationDue s (fun t =>
      t.mode i = 5 ∧ t.rd .placement (R.CAL_SET.state i) = 3 ∧ t.cal.slice = some i.val ∧ t.rd .placement R.CAL_STATUS.active = 1 ∧
      t.rd .placement R.CAL_STATUS.slice = i.val ∧ t.mem = s.mem)) ∧
  (∀ s : State, s.flag .placement R.CAL_CFG.auto_cal = false → Completes .calibrationDue s (fun t => t.cal = s.cal ∧
      t.causes = s.causes ∧ (∀ i : Fin 17, nbit (t.rd .placement R.CAL_STATUS.due) i = (decide (s.role i ≠ 2) && s.calDue i)) ∧
      t.mem = s.mem ∧ SameOutside .placement s t)) ∧
  (∀ (s : State) (i : Fin 17) (u : Nat), s.cal.retry = [(i.val, u)] → u + 60 * s.rd .placement R.CAL_CFG.cal_retry * secUnits ≤ s.tim.raw →
    s.placed i = true → s.role i = 0 → Completes (.calRetry i) s (fun t => t.causes = s.causes ++ [⟨1, i.val⟩] ∧ t.cal.retry = [] ∧
      t.mem = s.mem ∧ SameOutside .global s t)) ∧
  (∀ (s : State) (k : BitVec 5), s.dev ≠ .off → s.dev ≠ .boot → s.flag .placement R.CAL_CTRL.go = false → (17 ≤ k.toNat ∨ s.role k.toNat = 2) →
    Completes (.calGo k) s (fun t => t.rd .placement R.CAL_CTRL.last_cmd = 1 ∧ t.rd .placement R.CAL_CTRL.last_status = 2 ∧
      t.rd .placement R.CAL_CTRL.go = 0 ∧ t.cal = s.cal ∧ t.causes = s.causes ∧ SameOutside .placement s t)) ∧
  (∀ (s : State) (k : BitVec 5), s.dev ≠ .off → s.dev ≠ .boot → s.flag .placement R.CAL_CTRL.go = false → k.toNat < 17 → s.role k.toNat = 1 →
    s.placed k.toNat = false → s.flag .placement (R.CAL_SET.unconvergent k.toNat) = false → s.calClear = true →
    Completes (.calGo k) s (fun t => t.rd .placement R.CAL_CTRL.go = 1 ∧ t.rd .placement R.CAL_CTRL.last_status = 1 ∧
      t.cal.slice = some k.toNat ∧ t.mode k.toNat = 5 ∧ t.rd .placement (R.CAL_SET.state k.toNat) = 3 ∧ t.mem = s.mem)) ∧
  (∀ s : State, s.dev ≠ .off → s.dev ≠ .boot → (s.tkoPhase = 1 ∨ s.tkoPhase = 2 ∨ s.tkoPhase = 3) → s.rd .placement R.TKO_STATUS.cause = 2 →
    Completes .calAbort s (fun t => t.rd .placement R.CAL_CTRL.last_cmd = 2 ∧ t.rd .placement R.CAL_CTRL.last_status = 2 ∧
      t.tko = s.tko ∧ t.tkoPhase = s.tkoPhase ∧ t.mem = s.mem ∧ SameOutside .placement s t)) ∧
  (∀ s : State, s.dev ≠ .off → s.dev ≠ .boot → (s.tkoPhase = 1 ∨ s.tkoPhase = 2 ∨ s.tkoPhase = 3) → s.rd .placement R.TKO_STATUS.cause = 1 →
    Completes .calAbort s (fun t => t.rd .placement R.CAL_CTRL.last_cmd = 2 ∧ t.rd .placement R.CAL_CTRL.last_status = 0 ∧
      t.tkoPhase = 0 ∧ t.rd .placement R.TKO_LAST.result = 3 ∧ t.tko = TkoSt.zero)) ∧
  (∀ (s : State) (a b : Fin 17), s.coreRuns = true → s.tkoPhase = 1 → s.tko.pairs = [(a.val, b.val)] → Completes .join s (fun t =>
      t.tkoPhase = 2 ∧ t.shadowing b = true ∧ t.rd (.core b) R.SLICE_MODE.shadow_of = a.val ∧ t.tko.joinAt = s.tim.raw)) ∧
  (∀ s : State, s.rd .placement R.TKO_STATUS.cause = 1 → (s.tkoPhase = 2 ∨ s.tkoPhase = 3) →
    s.tko.joinAt + max 1 (s.rd .placement R.CAL_CFG.shadow_limit) * (100 * msUnits) ≤ s.tim.raw → Completes .shadowLimit s (fun t =>
      t.tkoPhase = 0 ∧ t.rd .placement R.TKO_LAST.result = 2 ∧ t.tko = TkoSt.zero ∧
      t.rd .placement R.TKO_COUNTS.abandoned = min (s.rd .placement R.TKO_COUNTS.abandoned + 1) 65535)) ∧
  (∀ (s : State) (k : Fin 17) (r : GatherResult), s.cal.slice = some k.val → s.cal.toFree = false → (s.spare = none ∨ s.spare = some k.val) →
    (∀ n < 12, 24 ≤ (widestRun 128 (r.sweeps.getD n 0).toNat).2) → Completes (.selftestDone r 0) s (fun t => t.role k = 1 ∧
      t.rd .placement (R.CAL_SET.state k) = 1 ∧ t.rd .placement (R.CAL_SET.selftest k) = 0 ∧ t.cal.slice = none ∧
      t.rd .placement R.CAL_STATUS.active = 0 ∧ t.rd .placement (R.CAL_SET.temp_tag k) = r.temp.toNat ∧
      t.rd .placement (R.CAL_SET.vdd_tag k) = r.vdd.toNat ∧ t.mem.lmem[k] = [] ∧ t.mem.imem[k] = [])) ∧
  (∀ (s : State) (k : Fin 17) (r : GatherResult) (x : Fin 6), s.cal.slice = some k.val →
    (∃ n < 12, (widestRun 128 (r.sweeps.getD n 0).toNat).2 < 24) → Completes (.selftestDone r x) s (fun t => t.role k = 2 ∧
      t.rd .placement (R.CAL_SET.state k) = 0 ∧ t.rd .placement (R.CAL_SET.selftest k) = 1 ∧ t.cal.slice = none ∧
      t.rd .placement R.TKO_COUNTS.selftest_retired = min (s.rd .placement R.TKO_COUNTS.selftest_retired + 1) 65535)) ∧
  (∀ (s : State) (i : Fin 17) (ds : List Int), s.flag .placement R.CAL_CFG.track_enable = true → s.role i = 0 →
    s.cal.slice ≠ some i.val → s.inJob i = false → (s.rd .placement (R.CAL_SET.state i) = 1 ∨ s.rd .placement (R.CAL_SET.state i) = 2) →
    s.coreRuns = true → s.placed i = true → SMap.get (fun _ => none) s.cal.track i.val = none → Completes (.trackingStep i ds) s (fun t =>
      SMap.get (fun _ => none) t.cal.moves i.val = some ((List.range 12).map (fun n => max (-1) (min 1 (ds.getD n 0)))) ∧
      t.regs = s.regs ∧ t.mem = s.mem)) ∧
  (∀ (s : State) (k : Fin 25), k.val < 17 → SMap.get (fun _ => 0) s.cal.readAt (2 * k.val) + secUnits ≤ s.tim.raw →
    s.rd .placement (R.CAL_SET.state k) = 1 → Completes (.readingTimeout k) s (fun t => t.rd .placement (R.CAL_SET.state k) = 2 ∧
      t.rd .placement (R.CAL_SET.stale_cause k) = 4 ∧ nbit (t.rd .placement R.CAL_STATUS.stale) k = true ∧
      t.rd .placement R.CAL_COUNTS.stale_events = min (s.rd .placement R.CAL_COUNTS.stale_events + 1) 65535 ∧ t.mem = s.mem ∧
      SameOutside .placement s t)) ∧
  (∀ (s : State) (k : Fin 25) (c : Fin 8), k.val = 17 + c.val → SMap.get (fun _ => 0) s.cal.readAt (2 * k.val) + secUnits ≤ s.tim.raw →
    (s.rd (.dram c) R.DRAM_STATUS.state = 2 ∨ s.rd (.dram c) R.DRAM_STATUS.state = 3) → Completes (.readingTimeout k) s (fun t =>
      t.rd (.dram c) R.DRAM_STATUS.stale = 1 ∧ t.mem = s.mem))

/-! ### Timebase, EPOCH_OUT and the TDC (R279 to R298) -/

/-- REF_IN and PPS_IN: windows judge REF_IN, the lock is gained after 64 ms and lost beyond 10 ns, holdover grows each millisecond, a PPS
edge is accepted, rejected, or takes a pending load, and PPS is lost (R281, R282, R285). -/
def Obligations.References : Prop :=
  (∀ (s : State) (n x : Nat), s.wedged .timebase = false → (s.rd .timebase R.TB_CFG.ref_sel = 1 ∧ x = 131072 ∨ s.rd .timebase R.TB_CFG.ref_sel = 2 ∧ x = 1310720) →
    ((n : Int) * 10 - x).natAbs * 1000 ≤ x → Completes (.refWindow n) s (fun t => t.tim.refGood = min 4 (s.tim.refGood + 1) ∧
      t.rd .timebase R.TB_STATUS.ref_present = (if 3 ≤ s.tim.refGood then 1 else s.rd .timebase R.TB_STATUS.ref_present) ∧
      t.rdi .timebase R.TB_REF.ref_dev = sat 16 (rneDiv (((n : Int) * 10 - x) * 1000000) x) ∧ t.mem = s.mem ∧
      SameOutside .timebase s t)) ∧
  (∀ (s : State) (n x : Nat), s.wedged .timebase = false → (s.rd .timebase R.TB_CFG.ref_sel = 1 ∧ x = 131072 ∨ s.rd .timebase R.TB_CFG.ref_sel = 2 ∧ x = 1310720) →
    x < ((n : Int) * 10 - x).natAbs * 1000 → s.flag .timebase R.TB_STATUS.ref_present = true → Completes (.refWindow n) s (fun t =>
      t.tim.refGood = 0 ∧ t.rd .timebase R.TB_STATUS.ref_present = 0 ∧ t.rd .timebase R.TB_STATUS.ref_locked = 0 ∧
      t.rd .timebase R.TB_REF.ref_losses = min (s.rd .timebase R.TB_REF.ref_losses + 1) 65535 ∧ t.mem = s.mem)) ∧
  (∀ s : State, s.wedged .timebase = false → s.flag .timebase R.TB_STATUS.ref_present = true → Completes .refTimeout s (fun t =>
      t.tim.refGood = 0 ∧ t.rd .timebase R.TB_STATUS.ref_present = 0 ∧ t.rd .timebase R.TB_STATUS.ref_locked = 0 ∧
      t.rd .timebase R.TB_REF.ref_losses = min (s.rd .timebase R.TB_REF.ref_losses + 1) 65535 ∧ t.mem = s.mem)) ∧
  (∀ (s : State) (err corr : Int), s.enabled .timebase = true → s.flag .timebase R.TB_STATUS.ref_present = true → s.timeRuns = true →
    s.flag .timebase R.TB_STATUS.ref_locked = false → s.tim.lockMs = 63 → err.natAbs ≤ 65536 → s.quality = 0 →
    Completes (.refLockCheck err corr) s (fun t => t.rd .timebase R.TB_STATUS.ref_locked = 1 ∧ t.quality = 1 ∧ t.tim.lockMs = 64 ∧
      t.rdi .timebase R.TB_PHASE.freq_corr = sat 32 corr ∧ t.mem = s.mem)) ∧
  (∀ (s : State) (err corr : Int), s.enabled .timebase = true → s.flag .timebase R.TB_STATUS.ref_present = true → s.timeRuns = true →
    s.flag .timebase R.TB_STATUS.ref_locked = true → 655360 < err.natAbs → Completes (.refLockCheck err corr) s (fun t =>
      t.rd .timebase R.TB_STATUS.ref_locked = 0 ∧ t.tim.lockMs = 0 ∧ t.mem = s.mem)) ∧
  (∀ (s : State) (err corr : Int), s.enabled .timebase = false → s.wedged .timebase = false → s.quality = 3 → s.flag .timebase R.TB_STATUS.ref_locked = false →
    Completes (.refLockCheck err corr) s (fun t => t.tim.growth = s.tim.growth + s.rd .timebase R.TB_UNC.rate_xo ∧
      t.tim.holdMs = s.tim.holdMs + 1 ∧ t.rd .timebase R.TB_STATUS.holdover_s = (s.tim.holdMs + 1) / 1000 % 2 ^ 32 ∧ t.mem = s.mem)) ∧
  (∀ (s : State) (falling : Bool) (k : Fin 512), s.edgeMerges 6 falling k = false → s.enabled .timebase = true →
    s.flag .timebase R.TB_CFG.pps_enable = true → s.timeRuns = true → (s.tim.interp[6]).hits.isSome = true →
    s.flag .timebase R.TB_CFG.pps_edge = falling → s.tim.ppsLast = none → s.flag .timebase R.TB_CTRL.load = false →
    s.flag .timebase R.TB_STATUS.time_loaded = false → Completes (.ppsEdge falling k) s (fun t =>
      t.rd .timebase R.TB_STATUS.pps_good = 1 ∧ t.tim.ppsLast.isSome = true ∧ t.tim.now = s.tim.now ∧ t.mem = s.mem ∧
      SameOutside .timebase s t)) ∧
  (∀ (s : State) (falling : Bool) (k : Fin 512), s.edgeMerges 6 falling k = false → s.enabled .timebase = true →
    s.flag .timebase R.TB_CFG.pps_enable = true → s.timeRuns = true → (s.tim.interp[6]).hits.isSome = true →
    s.flag .timebase R.TB_CFG.pps_edge = falling → s.ppsEarly (s.edgeTime 6 k) = true → Completes (.ppsEdge falling k) s (fun t =>
      t.rd .timebase R.TB_REF.pps_rejects = min (s.rd .timebase R.TB_REF.pps_rejects + 1) 65535 ∧
      t.rd .timebase R.TB_STATUS.pps_good = s.rd .timebase R.TB_STATUS.pps_good ∧ t.tim.now = s.tim.now ∧ t.mem = s.mem ∧
      SameOutside .timebase s t)) ∧
  (∀ (s : State) (falling : Bool) (k : Fin 512), s.edgeMerges 6 falling k = false → s.enabled .timebase = true →
    s.flag .timebase R.TB_CFG.pps_enable = true → s.timeRuns = true → (s.tim.interp[6]).hits.isSome = true →
    s.flag .timebase R.TB_CFG.pps_edge = falling → s.ppsEarly (s.edgeTime 6 k) = false → s.flag .timebase R.TB_CTRL.load = true →
    s.tim.loadAt < s.tim.raw → (s.dev ≠ .run ∨ s.edgeTime 6 k ≤ s.loadTime) → Completes (.ppsEdge falling k) s (fun t =>
      t.tim.now = ((s.tim.now : Int) + (s.rd .timebase R.TB_LOAD.seconds * secUnits + s.trustValue 256 - s.edgeTime 6 k)).toNat ∧
      t.rd .timebase R.TB_STATUS.time_loaded = 1 ∧ t.rd .timebase R.TB_CTRL.load = 0 ∧ t.rd .timebase R.TB_CTRL.last_cmd = 1 ∧
      t.rd .timebase R.TB_CTRL.last_status = 0 ∧ t.rd .timebase R.TB_COUNTS.loads = min (s.rd .timebase R.TB_COUNTS.loads + 1) 65535 ∧
      t.mem = s.mem)) ∧
  (∀ s : State, s.wedged .timebase = false → s.ppsStale = true → s.flag .timebase R.TB_STATUS.pps_valid = true → Completes .ppsLoss s (fun t =>
      t.rd .timebase R.TB_STATUS.pps_valid = 0 ∧ t.rd .timebase R.TB_STATUS.pps_good = 0 ∧
      t.rd .timebase R.TB_REF.pps_losses = min (s.rd .timebase R.TB_REF.pps_losses + 1) 65535 ∧ t.mem = s.mem))

/-- Loads of the time and the EPOCH_OUT schedule: a load waits or is withdrawn, load_now steps the time or is refused in RUN, the schedule
starts at its first instant, its edges are recorded, and it stops after the pulse (R284, R289). -/
def Obligations.TimeAndEpochs : Prop :=
  (∀ s : State, s.dev ≠ .off → s.dev ≠ .boot → s.wedged .timebase = false → Completes .tbLoad s (fun t => t.rd .timebase R.TB_CTRL.load = 1 ∧ t.rd .timebase R.TB_CTRL.last_cmd = 1 ∧
      t.rd .timebase R.TB_CTRL.last_status = 1 ∧ t.tim.now = s.tim.now ∧ t.tim.loadAt = s.tim.raw ∧ t.mem = s.mem ∧
      SameOutside .timebase s t)) ∧
  (∀ s : State, s.dev ≠ .off → s.dev ≠ .boot → s.wedged .timebase = false → (s.dev ≠ .run ∨ s.tim.now ≤ s.rd .timebase R.TB_LOAD.seconds * secUnits) → Completes .tbLoadNow s (fun t =>
      t.tim.now = s.rd .timebase R.TB_LOAD.seconds * secUnits ∧ t.tim.raw = s.tim.raw ∧ t.rd .timebase R.TB_CTRL.last_cmd = 2 ∧
      t.rd .timebase R.TB_CTRL.last_status = 0 ∧ t.rd .timebase R.TB_COUNTS.loads = min (s.rd .timebase R.TB_COUNTS.loads + 1) 65535 ∧
      (∀ c < 64, (s.map c).state = 1 → (t.map c).state = 3) ∧ t.mem = s.mem ∧ SameOutside .timebase s t)) ∧
  (∀ s : State, s.wedged .timebase = false → s.dev = .run → s.rd .timebase R.TB_LOAD.seconds * secUnits < s.tim.now → Completes .tbLoadNow s (fun t =>
      t.tim = s.tim ∧ t.rd .timebase R.TB_CTRL.last_cmd = 2 ∧ t.rd .timebase R.TB_CTRL.last_status = 2 ∧
      t.rd .timebase R.TB_STATUS.load_refused = 1 ∧ t.mem = s.mem ∧ SameOutside .timebase s t)) ∧
  (∀ s : State, s.dev ≠ .off → s.dev ≠ .boot → s.wedged .timebase = false → Completes .tbCancel s (fun t => t.rd .timebase R.TB_CTRL.load = 0 ∧ t.rd .timebase R.TB_CTRL.last_cmd = 3 ∧
      t.rd .timebase R.TB_CTRL.last_status = 0 ∧ t.tim = s.tim ∧ t.mem = s.mem ∧ SameOutside .timebase s t)) ∧
  (∀ s : State, s.dev ≠ .off → s.dev ≠ .boot → s.wedged .timebase = false → s.rd .timebase R.TB_EPOCH_CFG.period < 800000 → Completes .epochGo s (fun t => t.rd .timebase R.TB_CTRL.last_cmd = 4 ∧
      t.rd .timebase R.TB_CTRL.last_status = 2 ∧ t.rd .timebase R.TB_STATUS.epoch_running = s.rd .timebase R.TB_STATUS.epoch_running ∧
      t.tim = s.tim ∧ t.mem = s.mem ∧ SameOutside .timebase s t)) ∧
  (∀ (s : State) (a p : Nat), s.dev ≠ .off → s.dev ≠ .boot → s.wedged .timebase = false → p = s.rd .timebase R.TB_EPOCH_CFG.period → 800000 ≤ p → a = ofT96 (s.rdT96 .timebase R.TB_EPOCH_AT.lo) →
    Completes .epochGo s (fun t => t.rd .timebase R.TB_STATUS.epoch_running = 1 ∧ t.rd .timebase R.TB_CTRL.last_status = 0 ∧
      t.tim.epochAt = a ∧ t.tim.epochPeriod = p * tickUnits ∧ (∃ k, t.rdT96 .timebase R.TB_EPOCH_NEXT.lo = toT96 (a + k * (p * tickUnits) : Nat) 0
        ∧ s.tim.now ≤ a + k * (p * tickUnits) ∧ (∀ j < k, a + j * (p * tickUnits) < s.tim.now)) ∧ t.mem = s.mem ∧
      SameOutside .timebase s t)) ∧
  (∀ s : State, s.dev ≠ .off → s.dev ≠ .boot → s.wedged .timebase = false → s.pins.epochOut = false → Completes .epochStop s (fun t => t.rd .timebase R.TB_STATUS.epoch_running = 0 ∧
      t.rd .timebase R.TB_CTRL.last_cmd = 5 ∧ t.rd .timebase R.TB_CTRL.last_status = 0 ∧ t.pins = s.pins ∧ t.mem = s.mem ∧
      SameOutside .timebase s t)) ∧
  (∀ s : State, s.dev ≠ .off → s.dev ≠ .boot → s.wedged .timebase = false → s.pins.epochOut = true → Completes .epochStop s (fun t => t.pins = s.pins ∧ t.tim.epochStop = true ∧
      t.rd .timebase R.TB_STATUS.epoch_running = s.rd .timebase R.TB_STATUS.epoch_running ∧ t.rd .timebase R.TB_CTRL.last_status = 0)) ∧
  (∀ s : State, s.wedged .timebase = false → s.timeRuns = true → s.flag .timebase R.TB_STATUS.epoch_running = true →
    ofT96 (s.rdT96 .timebase R.TB_EPOCH_NEXT.lo) ≤ s.tim.now → Completes .epochEdge s (fun t => t.pins.epochOut = true ∧
      t.rd .timebase R.TB_EPOCH_COUNT.count = min (s.rd .timebase R.TB_EPOCH_COUNT.count + 1) (2 ^ 64 - 1) ∧
      t.tim.edgeSerial = s.tim.edgeSerial + 1 ∧ t.tim.epochEnd = s.tim.raw + s.epochWidth ∧ (∃ u, t.tim.edgeAt = some u ∧ ofT96 (s.rdT96 .timebase R.TB_EPOCH_NEXT.lo) ≤ u ∧
        u < ofT96 (s.rdT96 .timebase R.TB_EPOCH_NEXT.lo) + tickUnits ∧ t.rdT96 .timebase R.TB_EPOCH_LAST.lo = toT96 (u : Nat) s.quality) ∧
      t.mem = s.mem)) ∧
  (∀ s : State, s.wedged .timebase = false → s.pins.epochOut = true → s.tim.epochEnd ≤ s.tim.raw → s.tim.epochStop = false → Completes .epochPulseEnd s (fun t => t.pins.epochOut = false ∧
      t.regs = s.regs ∧ t.mem = s.mem)) ∧
  (∀ s : State, s.wedged .timebase = false → s.pins.epochOut = true → s.tim.epochEnd ≤ s.tim.raw → s.tim.epochStop = true → Completes .epochPulseEnd s (fun t => t.pins.epochOut = false ∧
      t.rd .timebase R.TB_STATUS.epoch_running = 0 ∧ t.tim.epochStop = false ∧ t.mem = s.mem ∧ SameOutside .timebase s t))

/-- The TDC: a code-density table is replaced, a measurement is armed, takes its start and its stop edge, is cancelled or times out, an
edge after it has ended is counted as ignored, and one within 10 ns of the edge before it changes nothing (R295 to R297). -/
def Obligations.TimeToDigital : Prop :=
  (∀ (s : State) (i : Fin 8) (h : List Nat), s.timeRuns = true → h.length = 512 → h.sum = s.tableHits → Completes (.tableRefresh i h) s
    (fun t => (t.tim.interp[i]).hits = some h ∧ nbit (t.rd .tdc R.TDC_CAL_STATUS.calibrated) i = true ∧
      t.rd .tdc R.TDC_CAL_STATUS.tables_refreshed = min (s.rd .tdc R.TDC_CAL_STATUS.tables_refreshed + 1) (2 ^ 32 - 1) ∧
      (∀ j : Fin 8, j ≠ i → t.tim.interp[j] = s.tim.interp[j]) ∧ t.mem = s.mem ∧ SameOutside .tdc s t)) ∧
  (∀ s : State, s.dev ≠ .off → s.dev ≠ .boot → s.enabled .tdc = true → Completes .tdcArm s (fun t => t.rd .tdc R.TDC_STATUS.state = 1 ∧
      t.rd .tdc R.TDC_STATUS.start_seen = 0 ∧ t.rd .tdc R.TDC_STATUS.stop_seen = 0 ∧ t.rd .tdc R.TDC_RESULT.result = 0 ∧
      t.rd .tdc R.TDC_CTRL.arm = 1 ∧ t.rd .tdc R.TDC_CTRL.last_cmd = 1 ∧ t.rd .tdc R.TDC_CTRL.last_status = 1 ∧
      t.tim.tdcArmedAt = s.tim.raw ∧ t.mem = s.mem ∧ SameOutside .tdc s t)) ∧
  (∀ s : State, s.dev ≠ .off → s.dev ≠ .boot → Completes .tdcCancel s (fun t => t.rd .tdc R.TDC_STATUS.state = 0 ∧ t.rd .tdc R.TDC_CTRL.arm = 0 ∧
      t.rd .tdc R.TDC_CTRL.last_cmd = 2 ∧ t.rd .tdc R.TDC_CTRL.last_status = 0 ∧
      t.rd .tdc R.TDC_RESULT.result = s.rd .tdc R.TDC_RESULT.result ∧ t.mem = s.mem ∧ SameOutside .tdc s t)) ∧
  (∀ (s : State) (falling : Bool) (k : Fin 512), s.timeRuns = true → s.tdcMerges 0 falling k = false → s.enabled .tdc = true → s.rd .tdc R.TDC_CFG.start_src = 0 →
    s.flag .tdc R.TDC_CFG.start_edge = falling → s.rd .tdc R.TDC_STATUS.state = 1 → s.flag .tdc R.TDC_STATUS.start_seen = false →
    s.tim.tdcArmedAt < s.tim.raw → s.tim.tdcStop = none → Completes (.tdcEdge .start falling k) s (fun t =>
      t.rd .tdc R.TDC_STATUS.state = 2 ∧ t.rd .tdc R.TDC_STATUS.start_seen = 1 ∧ t.tim.tdcStart = some (s.edgeTime 0 k) ∧
      t.rdT96 .tdc R.TDC_START_T96.lo = toT96 (s.edgeTime 0 k) s.quality ∧ t.mem = s.mem ∧ SameOutside .tdc s t)) ∧
  (∀ (s : State) (falling : Bool) (k : Fin 512) (a d : Int), s.timeRuns = true → s.tdcMerges 1 falling k = false → s.enabled .tdc = true →
    s.rd .tdc R.TDC_CFG.stop_src = 0 → s.flag .tdc R.TDC_CFG.stop_edge = falling → s.rd .tdc R.TDC_STATUS.state = 2 →
    s.flag .tdc R.TDC_STATUS.stop_seen = false → s.tim.tdcArmedAt < s.tim.raw → s.tim.tdcStart = some a →
    s.flag .tdc R.TDC_CFG.repeat = false → d = s.edgeTime 1 k - a → 256 ≤ d.natAbs → d.natAbs < 2 ^ 40 * tickUnits →
    Completes (.tdcEdge .stop falling k) s (fun t => t.rd .tdc R.TDC_STATUS.state = 3 ∧ t.rdi .tdc R.TDC_RESULT.result = rne d 8 ∧
      t.rd .tdc R.TDC_STATUS.order = (if d < 0 then 1 else 0) ∧ t.rd .tdc R.TDC_STATUS.close = 0 ∧ t.rd .tdc R.TDC_STATUS.range = 0 ∧
      t.rd .tdc R.TDC_CTRL.arm = 0 ∧ t.rd .tdc R.TDC_COUNTS.measurements = min (s.rd .tdc R.TDC_COUNTS.measurements + 1) (2 ^ 32 - 1) ∧
      t.mem = s.mem ∧ SameOutside .tdc s t)) ∧
  (∀ (s : State) (falling : Bool) (k : Fin 512), s.timeRuns = true → s.tdcMerges 0 falling k = false → s.enabled .tdc = true → s.rd .tdc R.TDC_CFG.start_src = 0 →
    s.flag .tdc R.TDC_CFG.start_edge = falling → s.rd .tdc R.TDC_STATUS.state = 3 → Completes (.tdcEdge .start falling k) s (fun t =>
      t.rd .tdc R.TDC_COUNTS.ignored_edges = min (s.rd .tdc R.TDC_COUNTS.ignored_edges + 1) 65535 ∧ t.tim.tdcStart = s.tim.tdcStart ∧ t.tim.tdcStop = s.tim.tdcStop ∧
      t.tim.now = s.tim.now ∧ t.rd .tdc R.TDC_STATUS.state = 3 ∧ t.mem = s.mem ∧ SameOutside .tdc s t)) ∧
  (∀ (s : State) (pin : TdcPin) (falling : Bool) (k : Fin 512), s.timeRuns = true → s.tdcMerges (tdcInterp pin) falling k = true →
    Completes (.tdcEdge pin falling k) s (fun t => t.regs = s.regs ∧ t.tim.tdcStart = s.tim.tdcStart ∧
      t.tim.tdcStop = s.tim.tdcStop ∧ t.mem = s.mem)) ∧
  (∀ s : State, (s.rd .tdc R.TDC_STATUS.state = 1 ∨ s.rd .tdc R.TDC_STATUS.state = 2) → s.tdcLate = true →
    Completes .tdcTimeout s (fun t => t.rd .tdc R.TDC_STATUS.state = 4 ∧ t.rd .tdc R.TDC_RESULT.result = 0 ∧
      t.rd .tdc R.TDC_CTRL.arm = 0 ∧ t.rd .tdc R.TDC_CTRL.last_status = 0 ∧
      t.rd .tdc R.TDC_COUNTS.timeouts = min (s.rd .tdc R.TDC_COUNTS.timeouts + 1) 65535 ∧ t.mem = s.mem ∧ SameOutside .tdc s t))

/-! ### On-chip memory, BAR2 and BAR4 (R315 to R329, R348) -/

/-- The counters of corrected and of uncorrectable errors of a memory (R318). -/
def Sys2Proof.Expected.eccCounts : SramId → Fld × Fld
  | .depot => (R.DEPOT_ECC.corrected, R.DEPOT_ECC.uncorrectable)
  | .lmem i => (R.LMEM_ECC.corrected i, R.LMEM_ECC.uncorrectable i)
  | .imem i => (R.IMEM_ECC.corrected i, R.IMEM_ECC.uncorrectable i)

/-- The patrol scrubber and the background bank test: a clean word passes, errors are corrected or marked and logged with agent 2, the
secure region is wiped at an uncorrectable error; a test copies, marches and restores its bank, and a failing bank is served by its
mirror (R318 to R322, R326). -/
def Obligations.OnChipMemory : Prop :=
  (∀ (s : State) (m : SramId) (a : Nat) (y : BitVec 8), s.badWord m a = false → (m ≠ .depot ∨ a ≠ 0x3FFFFF8) → a % 8 = 0 →
    Completes (.scrubRead m a .clean y) s (fun t => t = s)) ∧
  (∀ (s : State) (y : BitVec 8), s.badWord .depot 0x3FFFFF8 = false → s.enabled .depot = true → s.coreRuns = true →
    Completes (.scrubRead .depot 0x3FFFFF8 .clean y) s (fun t =>
      t.rd .depot R.DEPOT_COLL.scrub_sweeps = min (s.rd .depot R.DEPOT_COLL.scrub_sweeps + 1) (R.DEPOT_COLL.scrub_sweeps).top ∧
      t.mem = s.mem ∧ SameOutside .depot s t)) ∧
  (∀ (s : State) (m : SramId) (a : Nat) (y : BitVec 8), s.badWord m a = false → a < m.size → a % 8 = 0 → s.enabled .depot = true →
    s.coreRuns = true → Completes (.scrubRead m a .corrected y) s (fun t =>
      t.rd .depot (Sys2Proof.Expected.eccCounts m).1 = min (s.rd .depot (Sys2Proof.Expected.eccCounts m).1 + 1) (2 ^ 32 - 1) ∧
      t.mem = s.mem ∧ t.sec = s.sec)) ∧
  (∀ (s : State) (m : SramId) (a : Nat) (e : EccKind) (y : BitVec 8), (e = .uncorrectable ∨ s.badWord m a = true) → a < m.size →
    a % 8 = 0 → (m ≠ .depot ∨ a < 0x3F00000) → s.enabled .depot = true → s.coreRuns = true →
    Completes (.scrubRead m a e y) s (fun t => t.badWord m a = true ∧ (∀ n x, SMap.get zeroByte (t.sram n) x =
        SMap.get zeroByte (s.sram n) x) ∧ t.rd .depot (Sys2Proof.Expected.eccCounts m).2 =
        min (s.rd .depot (Sys2Proof.Expected.eccCounts m).2 + 1) (Sys2Proof.Expected.eccCounts m).2.top ∧ t.sec = s.sec ∧
      (m = .depot → t.rd .depot R.DEPOT_ERR_LAST.offset = a ∧ t.rd .depot R.DEPOT_ERR_LAST.agent = 2 ∧
        t.rd .depot R.DEPOT_ERR_LAST.syndrome = y.toNat ∧ t.rd .depot R.DEPOT_ERR_LAST.uncorrectable = 1 ∧
        t.rd .depot R.DEPOT_FAULT.uncorrectable = 1) ∧
      (∀ i, m = .lmem i → t.rd .depot (R.LMEM_ERR_LAST.address i) = a ∧ t.rd .depot (R.LMEM_ERR_LAST.imem i) = 0 ∧
        t.rd .depot (R.LMEM_ERR_LAST.agent i) = 2 ∧ t.rd .depot (R.LMEM_ERR_LAST.syndrome i) = y.toNat) ∧
      (∀ i, m = .imem i → t.rd .depot (R.LMEM_ERR_LAST.address i) = a ∧ t.rd .depot (R.LMEM_ERR_LAST.imem i) = 1 ∧
        t.rd .depot (R.LMEM_ERR_LAST.agent i) = 2))) ∧
  (∀ (s : State) (a : Nat) (y : BitVec 8), 0x3F00000 ≤ a → a < 0x4000000 → a % 8 = 0 → s.enabled .depot = true → s.coreRuns = true →
    Completes (.scrubRead .depot a .uncorrectable y) s (fun t => t.sec.region = Region.empty ∧ t.sec.copy0 = none ∧
      t.sec.copy1 = none ∧ t.rd .depot R.DEPOT_FAULT.secure_wiped = 1 ∧ t.badWord .depot a = false)) ∧
  (∀ s : State, s.enabled .depot = true → s.coreRuns = true → s.flag .depot R.DEPOT_CFG.test_enable = true →
    s.rd .depot R.DEPOT_STATUS.mirrors_free ≠ 0 → s.testPhase .depot = 0 → s.testDue .depot = true → Completes (.bankTestStart .depot) s (fun t =>
      t.testPhase .depot = 1 ∧ t.rd .depot R.DEPOT_STATUS.test_bank = s.nextBank .depot % 256 ∧
      t.rd .depot R.DEPOT_STATUS.mirrors_free = s.rd .depot R.DEPOT_STATUS.mirrors_free - 1 ∧ t.mem.depot = s.mem.depot ∧
      SameOutside .depot s t)) ∧
  (∀ (s : State) (i : Fin 17), s.enabled .depot = true → s.coreRuns = true → s.flag .depot R.DEPOT_CFG.test_enable = true →
    s.flag .depot (R.LMEM_STATUS.repaired i) = false → s.testPhase (.lmem i) = 0 → s.testDue (.lmem i) = true →
    Completes (.bankTestStart (.lmem i)) s (fun t =>
      t.testPhase (.lmem i) = 1 ∧ t.rd .depot (R.LMEM_STATUS.test_bank i) = s.nextBank (.lmem i) % 32 ∧ t.mem.lmem = s.mem.lmem ∧
      SameOutside .depot s t)) ∧
  (∀ (s : State) (m : SramId), (s.flag .depot R.DEPOT_CFG.test_enable = false ∨ s.testDue m = false) → Completes (.bankTestStart m) s (fun t => t = s)) ∧
  (∀ (s : State) (m : SramId), s.testPhase m = 1 → s.coreRuns = true →
    (∀ p ∈ s.sramBad m, m.inBank (s.testBank m) p.1 = false) → Completes (.mirrorCopyDone m none) s (fun t =>
      t.testPhase m = 2 ∧ t.mem = s.mem ∧ SameOutside .depot s t)) ∧
  (∀ (s : State) (m : SramId) (a : Nat), s.testPhase m = 1 → s.coreRuns = true → m.inBank (s.testBank m) a = true →
    (m ≠ .depot ∨ a < 0x3F00000) →
    Completes (.mirrorCopyDone m (some a)) s (fun t => t.testPhase m = 0 ∧ t.badWord m a = true ∧
      t.rd .depot (Sys2Proof.Expected.eccCounts m).2 =
        min (s.rd .depot (Sys2Proof.Expected.eccCounts m).2 + 1) (Sys2Proof.Expected.eccCounts m).2.top ∧
      (m = .depot → t.rd .depot R.DEPOT_STATUS.mirrors_free = (s.rd .depot R.DEPOT_STATUS.mirrors_free + 1) % 16 ∧
        t.rd .depot R.DEPOT_ERR_LAST.agent = 3) ∧ (∀ i, m = .lmem i → t.rd .depot (R.LMEM_ERR_LAST.agent i) = 3))) ∧
  (∀ (s : State) (m : SramId), s.testPhase m = 2 → s.coreRuns = true → Completes (.marchTestDone m true) s (fun t =>
      t.testPhase m = 3 ∧ t.rd .depot R.DEPOT_TEST.banks_tested = min (s.rd .depot R.DEPOT_TEST.banks_tested + 1) (2 ^ 32 - 1) ∧
      t.mem = s.mem ∧ SameOutside .depot s t)) ∧
  (∀ (s : State), s.testPhase .depot = 2 → s.coreRuns = true → Completes (.marchTestDone .depot false) s (fun t =>
      t.testPhase .depot = 0 ∧ t.bankRepaired .depot (s.rd .depot R.DEPOT_STATUS.test_bank) = true ∧
      t.rd .depot R.DEPOT_TEST.test_failures = min (s.rd .depot R.DEPOT_TEST.test_failures + 1) 65535 ∧
      t.rd .depot R.DEPOT_FAULT.test_fail = 1 ∧
      t.rd .depot R.DEPOT_STATUS.mirrors_free = s.rd .depot R.DEPOT_STATUS.mirrors_free ∧ t.mem = s.mem ∧ SameOutside .depot s t)) ∧
  (∀ (s : State) (i : Fin 17), s.testPhase (.lmem i) = 2 → s.coreRuns = true → Completes (.marchTestDone (.lmem i) false) s (fun t =>
      t.testPhase (.lmem i) = 0 ∧ t.rd .depot (R.LMEM_STATUS.repaired i) = 1 ∧
      t.rd .depot (R.LMEM_STATUS.repaired_bank i) = s.rd .depot (R.LMEM_STATUS.test_bank i) ∧
      t.rd .depot R.DEPOT_FAULT.test_fail = 1 ∧ t.mem = s.mem ∧ SameOutside .depot s t)) ∧
  (∀ (s : State) (m : SramId), s.testPhase m = 3 → s.coreRuns = true → Completes (.mirrorRestoreDone m) s (fun t =>
      t.testPhase m = 0 ∧ (m = .depot → t.rd .depot R.DEPOT_STATUS.mirrors_free =
        (s.rd .depot R.DEPOT_STATUS.mirrors_free + 1) % 16) ∧ t.mem = s.mem ∧ SameOutside .depot s t))

/-- The host's accesses through BAR2 and BAR4: the host region of the depot is written, the rest of it is refused, the secure region answers
with Completer Abort, a read carries its poison; BAR4 reaches the MSI-X table, the pending bits and the DRAM, and nothing between;
while the CORE domain stands, writes wait in host_in (R18, R328, R348). -/
def Obligations.HostAccesses : Prop :=
  (∀ (s : State) (off : Nat) (data : List (Option Byte)), s.barOpen = true → s.barClosed = false → s.coreRuns = true →
    s.hostBase ≤ off → off + data.length ≤ 0x3F00000 → s.mem.depotBad = [] → Completes (.bar2Write off data) s (fun t =>
      (∀ a, SMap.get zeroByte t.mem.depot a = match (if off ≤ a then data.getD (a - off) none else none) with
        | some b => b
        | none => SMap.get zeroByte s.mem.depot a) ∧ SameOutside .dma s t ∧ t.mem.dram = s.mem.dram ∧ t.mem.lmem = s.mem.lmem ∧
      t.host = s.host)) ∧
  (∀ (s : State) (off : Nat) (data : List (Option Byte)), s.barOpen = true → s.barClosed = false →
    off + data.length ≤ 0x3F00000 → off < s.hostBase → Completes (.bar2Write off data) s (fun t =>
      t.rd .depot R.DEPOT_TEST.bar2_refused = min (s.rd .depot R.DEPOT_TEST.bar2_refused + 1) 65535 ∧
      t.rd .depot R.DEPOT_FAULT.bar2_write_refused = 1 ∧ t.mem = s.mem ∧ SameOutside .depot s t)) ∧
  (∀ (s : State) (off : Nat) (data : List (Option Byte)), s.barOpen = true → (s.barClosed = true ∨ 0x3F00000 < off + data.length) →
    Completes (.bar2Write off data) s (fun t => t = { s with host := { s.host with aerAborts := s.host.aerAborts + 1 } })) ∧
  (∀ (s : State) (off len : Nat), s.barOpen = true → s.barClosed = false → s.coreRuns = true → off + len ≤ 0x3F00000 →
    s.firstBad .depot off len = none → Completes (.bar2Read off len) s (fun t => t.host.readOk = true ∧
      t.host.readPoisoned = false ∧ t.host.readBytes.length = len ∧
      (∀ i < len, t.host.readBytes.getD i 0 = SMap.get zeroByte s.mem.depot (off + i)) ∧ t.regs = s.regs ∧ t.mem = s.mem)) ∧
  (∀ (s : State) (off len w : Nat), s.barOpen = true → s.barClosed = false → s.coreRuns = true → off + len ≤ 0x3F00000 →
    s.firstBad .depot off len = some w → Completes (.bar2Read off len) s (fun t => t.host.readPoisoned = true ∧
      t.host.aerInternal = s.host.aerInternal + 1 ∧ t.rd .depot R.DEPOT_ERR_LAST.offset = w ∧
      t.rd .depot R.DEPOT_ERR_LAST.agent = 1 ∧ t.mem = s.mem)) ∧
  (∀ (s : State) (off len : Nat), s.barOpen = true → (s.barClosed = true ∨ 0x3F00000 < off + len) →
    Completes (.bar2Read off len) s (fun t => t.host.readOk = false ∧ t.host.readBytes = [] ∧
      t.host.aerAborts = s.host.aerAborts + 1 ∧ t.regs = s.regs ∧ t.mem = s.mem)) ∧
  (∀ (s : State) (off : Nat) (data : List (Option Byte)), s.barOpen = true → s.barClosed = false →
    28 ≤ s.rd .dma R.PCIE_STATUS.bar4_log2 → off + data.length ≤ 0x8000 → Completes (.bar4Access true off data) s (fun t =>
      (∀ a, SMap.get msixDefault t.host.msixTable a = match (if off ≤ a then data.getD (a - off) none else none) with
        | some b => b
        | none => SMap.get msixDefault s.host.msixTable a) ∧ t.mem = s.mem ∧ SameOutside .dma s t)) ∧
  (∀ (s : State) (off : Nat) (data : List (Option Byte)), s.barOpen = true → s.barClosed = false →
    28 ≤ s.rd .dma R.PCIE_STATUS.bar4_log2 → off + data.length ≤ 0x8000 → Completes (.bar4Access false off data) s (fun t =>
      t.host.readOk = true ∧ t.host.readBytes.length = data.length ∧
      (∀ i < data.length, t.host.readBytes.getD i 0 = SMap.get msixDefault s.host.msixTable (off + i)) ∧ t.regs = s.regs ∧
      t.mem = s.mem)) ∧
  (∀ (s : State) (off : Nat) (data : List (Option Byte)), s.barOpen = true → s.barClosed = false →
    28 ≤ s.rd .dma R.PCIE_STATUS.bar4_log2 → 0x8000 ≤ off → off + data.length ≤ 0x8100 →
    data ≠ [] → Completes (.bar4Access false off data) s (fun t => t.host.readBytes.length = data.length ∧
      (∀ i < data.length, ∀ j < 8, (t.host.readBytes.getD i 0).getLsbD j =
        SMap.get noBad s.host.pba (8 * (off - 0x8000 + i) + j)) ∧ t.regs = s.regs ∧ t.mem = s.mem)) ∧
  (∀ (s : State) (w : Bool) (off : Nat) (data : List (Option Byte)), s.barOpen = true →
    off + data.length ≤ 2 ^ s.rd .dma R.PCIE_STATUS.bar4_log2 → (s.barClosed = true ∨ (0x8100 < off + data.length ∧ off < 0x10000) ∨
      (0x10000 ≤ off ∧ s.dramIn (off - 0x10000) data.length = false)) → Completes (.bar4Access w off data) s (fun t =>
      t.host.aerAborts = s.host.aerAborts + 1 ∧ (w = false → t.host.readOk = false) ∧ t.regs = s.regs ∧ t.mem = s.mem)) ∧
  (∀ (s : State) (a : Nat) (data : List (Option Byte)), s.barOpen = true → s.barClosed = false →
    0x10000 + a + data.length ≤ 2 ^ s.rd .dma R.PCIE_STATUS.bar4_log2 → s.dramIn a data.length = true →
    s.coreRuns = true → s.memReady → data ≠ [] → s.mem.dramBad = [] → Completes (.bar4Access true (0x10000 + a) data) s (fun t =>
      (∀ x, SMap.get zeroByte t.mem.dram x = match (if a ≤ x then data.getD (x - a) none else none) with
        | some b => b
        | none => SMap.get zeroByte s.mem.dram x) ∧ SameExcept (.dma :: dramBlks) s t ∧ t.mem.depot = s.mem.depot)) ∧
  (∀ (s : State) (a : Nat) (data : List (Option Byte)), s.barOpen = true → s.barClosed = false →
    0x10000 + a + data.length ≤ 2 ^ s.rd .dma R.PCIE_STATUS.bar4_log2 → s.dramIn a data.length = true →
    s.coreRuns = true → s.dramOpen a data.length = true → data ≠ [] → s.firstBadLine a data.length = none →
    Completes (.bar4Access false (0x10000 + a) data) s (fun t => t.host.readOk = true ∧ t.host.readPoisoned = false ∧
      t.host.readBytes.length = data.length ∧
      (∀ i < data.length, t.host.readBytes.getD i 0 = SMap.get zeroByte s.mem.dram (a + i)) ∧ t.regs = s.regs ∧ t.mem = s.mem)) ∧
  (∀ (s : State) (off : Nat) (data : List (Option Byte)), s.barOpen = true → s.barClosed = false → s.coreRuns = false →
    s.hostBase ≤ off → off + data.length ≤ 0x3F00000 → Completes (.bar2Write off data) s (fun t =>
      t.host.hostIn = s.host.hostIn ++ [.depot off data] ∧ t.rd .dma R.HOST_IN_FERRY.level =
        min 512 (t.host.hostIn.map HostIn.entries).sum ∧ t.mem = s.mem ∧ SameOutside .dma s t)) ∧
  (∀ (s : State) (a : Nat) (data : List (Option Byte)), s.barOpen = true → s.barClosed = false → s.coreRuns = false →
    0x10000 + a + data.length ≤ 2 ^ s.rd .dma R.PCIE_STATUS.bar4_log2 → s.dramIn a data.length = true → data ≠ [] →
    Completes (.bar4Access true (0x10000 + a) data) s (fun t => t.host.hostIn = s.host.hostIn ++ [.dram a data] ∧ t.mem = s.mem ∧
      SameOutside .dma s t))

/-! ### DRAM (R331 to R345) -/

/-- A channel serves a read or a write: the row policy counts hits and activates, a row that matches a pending write is served in order,
errors are corrected or logged, and an address outside the space is a target error. Tracking moves a delay one step and makes the set stale
at the limit; a retraining is started or refused; copy, training and restore follow each other, and a failed training leaves the channel
FAILED (R332 to R342). -/
def Obligations.DramChannels : Prop :=
  (∀ (s : State) (c : Fin 8) (a : Nat) (data : List (Option Byte)) (y : BitVec 8) (b : Nat × Nat), s.dramChan a = c.val →
    s.dramIn a data.length = true → s.dramServes c.val = true → b = s.dramBank c.val (s.dramLocal a) → (s.dram[c]).pending = [] →
    s.openRow c b.1 = some b.2 → s.badLine a = false →
    Completes (.dramRequest false a data .clean y) s (fun t => (t.dram[c]).readOk = true ∧ (t.dram[c]).readPoisoned = false ∧
      (t.dram[c]).readBytes.length = data.length ∧
      (∀ i < data.length, (t.dram[c]).readBytes.getD i 0 = SMap.get zeroByte s.mem.dram (a + i)) ∧
      t.rd (.dram c) R.DRAM_COUNTS2.row_hits = min (s.rd (.dram c) R.DRAM_COUNTS2.row_hits + 1) (2 ^ 32 - 1) ∧ t.mem = s.mem ∧
      SameOutside (.dram c) s t)) ∧
  (∀ (s : State) (c : Fin 8) (a : Nat) (data : List (Option Byte)) (y : BitVec 8) (b : Nat × Nat), s.dramChan a = c.val →
    s.dramIn a data.length = true → s.dramServes c.val = true → b = s.dramBank c.val (s.dramLocal a) → (s.dram[c]).pending = [] →
    s.openRow c b.1 ≠ some b.2 → s.badLine a = false →
    Completes (.dramRequest false a data .clean y) s (fun t => (t.dram[c]).readOk = true ∧
      t.openRow c b.1 = some b.2 ∧
      t.rd (.dram c) R.DRAM_COUNTS.activates = min (s.rd (.dram c) R.DRAM_COUNTS.activates + 1) (2 ^ 32 - 1) ∧
      (t.rd (.dram c) R.DRAM_COUNTS.nbr_refreshes = s.rd (.dram c) R.DRAM_COUNTS.nbr_refreshes ∨
        t.rd (.dram c) R.DRAM_COUNTS.nbr_refreshes = min (s.rd (.dram c) R.DRAM_COUNTS.nbr_refreshes + 1) 65535) ∧
      t.rd (.dram c) R.DRAM_COUNTS2.row_hits = s.rd (.dram c) R.DRAM_COUNTS2.row_hits ∧ t.mem = s.mem ∧ SameOutside (.dram c) s t)) ∧
  (∀ (s : State) (c : Fin 8) (a : Nat) (data : List (Option Byte)) (e : EccKind) (y : BitVec 8) (b : Nat × Nat), s.dramChan a = c.val →
    s.dramIn a data.length = true → s.memReady → b = s.dramBank c.val (s.dramLocal a) → (s.dram[c]).pending = [] →
    s.mem.dramBad = [] → Completes (.dramRequest true a data e y) s (fun t =>
      (∀ x, SMap.get zeroByte t.mem.dram x = match (if a ≤ x then data.getD (x - a) none else none) with
        | some v => v
        | none => SMap.get zeroByte s.mem.dram x) ∧ (t.dram[c]).pending = [⟨b.1, b.2⟩] ∧ t.mem.depot = s.mem.depot ∧
      SameExcept dramBlks s t)) ∧
  (∀ (s : State) (c : Fin 8) (a : Nat) (data : List (Option Byte)) (y : BitVec 8) (b : Nat × Nat), s.dramChan a = c.val →
    s.dramIn a data.length = true → s.dramServes c.val = true → b = s.dramBank c.val (s.dramLocal a) →
    (⟨b.1, b.2⟩ : PendingWrite) ∈ (s.dram[c]).pending → Completes (.dramRequest false a data .clean y) s (fun t =>
      (∀ p ∈ (t.dram[c]).pending, p.bank ≠ b.1) ∧
      t.rd (.dram c) R.DRAM_COUNTS.inorder_events = min (s.rd (.dram c) R.DRAM_COUNTS.inorder_events + 1) 65535)) ∧
  (∀ (s : State) (c : Fin 8) (w : Bool) (a : Nat) (data : List (Option Byte)) (e : EccKind) (y : BitVec 8), s.dramChan a = c.val →
    s.dramIn a data.length = false → Completes (.dramRequest w a data e y) s (fun t => (t.dram[c]).readOk = false ∧
      (t.dram[c]).readBytes = [] ∧ t.regs = s.regs ∧ t.mem = s.mem)) ∧
  (∀ (s : State) (c : Fin 8) (a : Nat) (data : List (Option Byte)) (y : BitVec 8), s.dramChan a = c.val →
    s.dramIn a data.length = true → s.dramServes c.val = true → s.badLine a = false →
    Completes (.dramRequest false a data .corrected y) s (fun t => (t.dram[c]).readOk = true ∧ (t.dram[c]).readPoisoned = false ∧
      t.rd (.dram c) R.DRAM_ECC.corrected = min (s.rd (.dram c) R.DRAM_ECC.corrected + 1) (2 ^ 32 - 1) ∧ t.mem = s.mem)) ∧
  (∀ (s : State) (c : Fin 8) (a : Nat) (data : List (Option Byte)) (e : EccKind) (y : BitVec 8), s.dramChan a = c.val →
    s.dramIn a data.length = true → s.dramServes c.val = true → (e = .uncorrectable ∨ s.badLine a = true) →
    Completes (.dramRequest false a data e y) s (fun t => (t.dram[c]).readPoisoned = true ∧ t.badLine a = true ∧
      t.rd (.dram c) R.DRAM_ECC.uncorrectable = min (s.rd (.dram c) R.DRAM_ECC.uncorrectable + 1) 65535 ∧
      t.rd (.dram c) R.DRAM_FAULT.uncorrectable = 1 ∧ t.rd (.dram c) R.DRAM_ERR_LAST.symbol = y.toNat ∧
      t.rd (.dram c) R.DRAM_ERR_LAST.agent = 0 ∧ t.mem.dram = s.mem.dram)) ∧
  (∀ (s : State) (c : Fin 8) (a : Nat) (y : BitVec 8), s.badLine a = false → Completes (.dramScrub c a .clean y) s (fun t => t = s)) ∧
  (∀ (s : State) (c : Fin 8) (a : Nat) (y : BitVec 8), s.dramChan a = c.val → s.dramServes c.val = true → s.badLine a = false →
    Completes (.dramScrub c a .corrected y) s (fun t =>
      t.rd (.dram c) R.DRAM_ECC.corrected = min (s.rd (.dram c) R.DRAM_ECC.corrected + 1) (2 ^ 32 - 1) ∧ t.mem = s.mem ∧
      SameOutside (.dram c) s t)) ∧
  (∀ (s : State) (c : Fin 8) (a : Nat) (y : BitVec 8), s.dramChan a = c.val → s.dramServes c.val = true →
    Completes (.dramScrub c a .uncorrectable y) s (fun t => t.badLine a = true ∧ t.rd (.dram c) R.DRAM_ERR_LAST.agent = 1 ∧
      t.rd (.dram c) R.DRAM_ERR_LAST.local_address = s.dramLocal a / 64 % 2 ^ 30 ∧ t.mem.dram = s.mem.dram ∧
      SameOutside (.dram c) s t)) ∧
  (∀ (s : State) (c : Fin 8), Completes (.refresh c) s (fun t => (t.dram[c]).openRows = [] ∧ (t.dram[c]).pending = [] ∧
      t.regs = s.regs ∧ t.mem = s.mem)) ∧
  (∀ (s : State) (c : Fin 8) (rd wr : List Int) (new : List (Int × Int)), s.memClock = true → s.rd (.dram c) R.DRAM_STATUS.state = 2 →
    new = (List.range 10).map (fun l =>
      (max (-8) (min 8 (((s.dram[c]).track.getD l (0, 0)).1 + max (-1) (min 1 (rd.getD l 0)))),
        max (-8) (min 8 (((s.dram[c]).track.getD l (0, 0)).2 + max (-1) (min 1 (wr.getD l 0)))))) →
    Completes (.dramTracking c rd wr) s (fun t => (t.dram[c]).track = new ∧
      ((∃ m ∈ new, m.1.natAbs = 8 ∨ m.2.natAbs = 8) → t.rd (.dram c) R.DRAM_STATUS.stale = 1 ∧
        nbit (t.rd .placement R.CAL_STATUS.dram_stale) c = true) ∧
      ((∀ m ∈ new, m.1.natAbs ≠ 8 ∧ m.2.natAbs ≠ 8) → t.rd (.dram c) R.DRAM_STATUS.stale = s.rd (.dram c) R.DRAM_STATUS.stale ∧
        SameOutside (.dram c) s t) ∧ t.mem = s.mem)) ∧
  (∀ (s : State) (c : Fin 8) (rd wr : List Int), s.rd (.dram c) R.DRAM_STATUS.state ≠ 2 →
    Completes (.dramTracking c rd wr) s (fun t => t = s)) ∧
  (∀ (s : State) (c : Fin 8), s.dev ≠ .off → s.dev ≠ .boot → s.rd (.dram c) R.DRAM_STATUS.phase = 0 →
    s.rd (.dram c) R.DRAM_STATUS.state ≠ 5 → s.retrainRefused c = false → Completes (.retrain c) s (fun t =>
      t.rd (.dram c) R.DRAM_CTRL.retrain = 1 ∧ t.rd (.dram c) R.DRAM_CTRL.last_cmd = 1 ∧ t.rd (.dram c) R.DRAM_CTRL.last_status = 1 ∧
      t.rd (.dram c) R.DRAM_STATUS.phase = 1 ∧ t.rd (.dram c) R.DRAM_STATUS.state = 3 ∧
      t.causes = s.causes ++ [⟨4, c.val⟩] ∧ t.mem = s.mem ∧ SameExcept [.dram c, .global] s t)) ∧
  (∀ (s : State) (c : Fin 8), s.dev ≠ .off → s.dev ≠ .boot → s.rd (.dram c) R.DRAM_STATUS.phase = 0 → (s.flag (.dram 0) R.DRAM_MAP.reserve = false ∨ s.rd (.dram c) R.DRAM_STATUS.state = 4 ∨
      s.rd (.dram 0) R.DRAM_MAP.n_active_log2 = 0 ∨ s.enabled .placement = false ∨
      ∃ d : Fin 8, d ≠ c ∧ s.rd (.dram d) R.DRAM_STATUS.phase ≠ 0) → Completes (.retrain c) s (fun t =>
      t.rd (.dram c) R.DRAM_CTRL.retrain = 0 ∧ t.rd (.dram c) R.DRAM_CTRL.last_cmd = 1 ∧ t.rd (.dram c) R.DRAM_CTRL.last_status = 2 ∧
      t.rd (.dram c) R.DRAM_FAULT.retrain_refused = 1 ∧ t.rd (.dram c) R.DRAM_STATUS.phase = 0 ∧ t.causes = s.causes ∧ t.mem = s.mem ∧
      SameOutside (.dram c) s t)) ∧
  (∀ (s : State) (c : Fin 8), s.flag (.dram c) R.DRAM_STATUS.stale = true → s.flag (.dram c) R.DRAM_POLICY.auto_retrain = true →
    s.enabled (.dram c) = true → s.enabled .placement = true → s.rd (.dram c) R.DRAM_STATUS.state = 2 →
    s.rd (.dram c) R.DRAM_STATUS.phase = 0 → s.retrainRefused c = false → Completes (.autoRetrain c) s (fun t =>
      t.rd (.dram c) R.DRAM_STATUS.phase = 1 ∧ t.rd (.dram c) R.DRAM_STATUS.state = 3 ∧ t.causes = s.causes ++ [⟨4, c.val⟩] ∧
      t.mem = s.mem ∧ SameExcept [.dram c, .global] s t)) ∧
  (∀ (s : State) (c : Fin 8), (s.flag (.dram c) R.DRAM_STATUS.stale = false ∨ s.flag (.dram c) R.DRAM_POLICY.auto_retrain = false) →
    Completes (.autoRetrain c) s (fun t => t = s)) ∧
  (∀ (s : State) (c : Fin 8), s.memClock = true → s.coreRuns = true → s.rd (.dram c) R.DRAM_STATUS.phase = 1 →
    s.rd (.dram c) R.DRAM_STATUS.state ≠ 4 → Completes (.evacuationCopyDone c) s (fun t => t.rd (.dram c) R.DRAM_STATUS.phase = 2 ∧
      t.rd (.dram c) R.DRAM_STATUS.state = 1 ∧ (s.mem.dramBad = [] →
        t.rd (.dram c) R.DRAM_FAULT.evac_poisoned = s.rd (.dram c) R.DRAM_FAULT.evac_poisoned) ∧
      ((∃ p ∈ s.mem.dramBad, s.dramChan p.1 = c.val) → t.rd (.dram c) R.DRAM_FAULT.evac_poisoned = 1) ∧ t.mem = s.mem ∧
      SameOutside (.dram c) s t)) ∧
  (∀ (s : State) (c : Fin 8) (r : TrainResult), s.memClock = true → s.coreRuns = true → s.rd (.dram c) R.DRAM_STATUS.phase = 2 →
    s.rd (.dram c) R.DRAM_STATUS.state ≠ 4 → r.lanes.length = 10 →
    (∀ l ∈ r.lanes, 16 ≤ (widestRun 256 l.rdDqs.toNat).2 ∧ 16 ≤ (widestRun 256 l.wrDq.toNat).2) →
    Completes (.trainingDone c r) s (fun t => t.rd (.dram c) R.DRAM_STATUS.phase = 3 ∧ t.rd (.dram c) R.DRAM_STATUS.state = 3 ∧
      t.rd (.dram c) R.DRAM_STATUS.stale = 0 ∧ t.rd (.dram c) R.DRAM_TAG.temp_tag = r.temp.toNat ∧
      t.rd (.dram c) R.DRAM_TAG.vdd_tag = r.vdd.toNat ∧ (t.dram[c]).track = List.replicate 10 (0, 0) ∧
      t.rd (.dram c) R.DRAM_COUNTS2.retrains = min (s.rd (.dram c) R.DRAM_COUNTS2.retrains + 1) 65535 ∧
      (∀ l : Fin 10, ∀ x, r.lanes[l.val]? = some x → nbits (t.rdw (.dram c) (0x100 + 8 * l.val)) 7 0 =
        runCentre (widestRun 256 x.rdDqs.toNat) % 256) ∧ t.mem = s.mem)) ∧
  (∀ (s : State) (c : Fin 8) (r : TrainResult), s.memClock = true → s.coreRuns = true → s.rd (.dram c) R.DRAM_STATUS.phase = 2 →
    s.rd (.dram c) R.DRAM_STATUS.state ≠ 4 → (∃ l ∈ r.lanes, (widestRun 256 l.rdDqs.toNat).2 < 16) →
    Completes (.trainingDone c r) s (fun t => t.rd (.dram c) R.DRAM_STATUS.state = 4 ∧ t.rd (.dram c) R.DRAM_FAULT.train_failed = 1 ∧
      t.rd (.dram c) R.DRAM_CTRL.retrain = 0 ∧ t.mem = s.mem ∧ SameOutside (.dram c) s t)) ∧
  (∀ (s : State) (c : Fin 8), s.memClock = true → s.coreRuns = true → s.rd (.dram c) R.DRAM_STATUS.phase = 3 →
    s.rd (.dram c) R.DRAM_STATUS.state ≠ 4 → (s.dram[c]).deferredQuiesce = false → Completes (.evacuationRestoreDone c) s (fun t =>
      t.rd (.dram c) R.DRAM_STATUS.phase = 0 ∧ t.rd (.dram c) R.DRAM_STATUS.state = 2 ∧ t.rd (.dram c) R.DRAM_CTRL.retrain = 0 ∧
      t.rd (.dram c) R.DRAM_CTRL.last_status = 0 ∧ t.causes = s.causes ++ [⟨5, c.val⟩] ∧ t.mem = s.mem ∧ SameExcept [.dram c, .global] s t))
/-! ### Descriptor rings, completion queues and the endpoint (R347 to R364) -/

/-- The commands of a ring and its fetch: run samples the configuration or is refused, tail wakes a waiting ring, resume leaves HALTED
only, stop withdraws; a descriptor is fetched, waits for its owner, or cannot be read (R351, R353, R359). -/
def Obligations.DescriptorRings : Prop :=
  (∀ (s : State) (r : Fin 256) (v : BitVec 16), s.dev ≠ .off → s.dev ≠ .boot → Completes (.ringTail r v) s (fun t =>
      t.rd (ringBlk r) (R.RING_TAIL.tail (ringIx r)) = v.toNat ∧
      t.ringState r = (if s.ringState r = 2 then 1 else s.ringState r) ∧ t.host = s.host ∧ t.mem = s.mem ∧
      SameOutside (ringBlk r) s t)) ∧
  (∀ (s : State) (r : Fin 256) (m base : Nat), s.dev ≠ .off → s.dev ≠ .boot → m = s.rd (ringBlk r) (R.RING_BASE.log2n (ringIx r)) →
    base = s.rd (ringBlk r) (R.RING_BASE.base (ringIx r)) * 512 → 4 ≤ m → m ≤ 16 → base % (32 * 2 ^ m) = 0 →
    s.cqOn (s.rd (ringBlk r) (R.RING_CFG.cq (ringIx r))) = true → Completes (.ringRun r) s (fun t =>
      (t.ring r).base = base ∧ (t.ring r).log2n = m ∧ (t.ring r).target = s.flag (ringBlk r) (R.RING_BASE.target (ringIx r)) ∧
      (t.ring r).cq = s.rd (ringBlk r) (R.RING_CFG.cq (ringIx r)) ∧ (t.ring r).phase = (s.ring r).phase ∧
      (t.ring r).desc = (s.ring r).desc ∧ t.ringState r = (if s.ringState r = 2 then 2 else 1) ∧
      t.rd (ringBlk r) (R.RING_CTRL.last_cmd (ringIx r)) = 1 ∧ t.rd (ringBlk r) (R.RING_CTRL.last_status (ringIx r)) = 0 ∧
      t.mem = s.mem ∧ SameOutside (ringBlk r) s t)) ∧
  (∀ (s : State) (r : Fin 256) (m base : Nat), s.dev ≠ .off → s.dev ≠ .boot → m = s.rd (ringBlk r) (R.RING_BASE.log2n (ringIx r)) →
    base = s.rd (ringBlk r) (R.RING_BASE.base (ringIx r)) * 512 → (m < 4 ∨ 16 < m ∨ base % (32 * 2 ^ m) ≠ 0 ∨
      s.cqOn (s.rd (ringBlk r) (R.RING_CFG.cq (ringIx r))) = false) → Completes (.ringRun r) s (fun t =>
      t.rd (ringBlk r) (R.RING_CTRL.last_cmd (ringIx r)) = 1 ∧ t.rd (ringBlk r) (R.RING_CTRL.last_status (ringIx r)) = 2 ∧
      t.rd .dma R.DMA_FAULT.ring_refused = 1 ∧ t.ringState r = s.ringState r ∧ t.host = s.host ∧ t.mem = s.mem)) ∧
  (∀ (s : State) (r : Fin 256) (b n : Nat), s.dev ≠ .off → s.dev ≠ .boot → (s.ring r).phase = .idle → Completes (.ringStop r b n) s (fun t =>
      t.ringState r = (if s.ringState r = 4 then 4 else 3) ∧ t.rd (ringBlk r) (R.RING_CTRL.last_cmd (ringIx r)) = 2 ∧
      t.rd (ringBlk r) (R.RING_CTRL.last_status (ringIx r)) = 0 ∧ t.host = s.host ∧ t.mem = s.mem ∧ SameOutside (ringBlk r) s t)) ∧
  (∀ (s : State) (r : Fin 256) (b n : Nat) (d : Desc), s.dev ≠ .off → s.dev ≠ .boot → (s.ring r).phase = .fetched → (s.ring r).desc = some d →
    Completes (.ringStop r b n) s (fun t => t.ringState r = 3 ∧ (t.ring r).phase = .idle ∧ (t.ring r).desc = none ∧
      t.rd (ringBlk r) (R.RING_COUNTS.withdrawn_bursts (ringIx r)) =
        min (s.rd (ringBlk r) (R.RING_COUNTS.withdrawn_bursts (ringIx r)) + b) 65535 ∧
      t.rd (ringBlk r) (R.RING_COUNTS.completed (ringIx r)) =
        min (s.rd (ringBlk r) (R.RING_COUNTS.completed (ringIx r)) + 1) (2 ^ 32 - 1) ∧
      t.rd (ringBlk r) (R.RING_COUNTS.errors (ringIx r)) = s.rd (ringBlk r) (R.RING_COUNTS.errors (ringIx r)))) ∧
  (∀ (s : State) (r : Fin 256), s.dev ≠ .off → s.dev ≠ .boot → s.ringState r = 4 → Completes (.ringResume r) s (fun t => t.ringState r = 1 ∧
      t.rd (ringBlk r) (R.RING_CTRL.last_cmd (ringIx r)) = 3 ∧ t.rd (ringBlk r) (R.RING_CTRL.last_status (ringIx r)) = 0 ∧
      t.host = s.host ∧ t.mem = s.mem ∧ SameOutside (ringBlk r) s t)) ∧
  (∀ (s : State) (r : Fin 256), s.dev ≠ .off → s.dev ≠ .boot → s.ringState r ≠ 4 → Completes (.ringResume r) s (fun t => t.ringState r = s.ringState r ∧
      t.rd (ringBlk r) (R.RING_CTRL.last_cmd (ringIx r)) = 3 ∧ t.rd (ringBlk r) (R.RING_CTRL.last_status (ringIx r)) = 2 ∧
      t.host = s.host ∧ t.mem = s.mem ∧ SameOutside (ringBlk r) s t)) ∧
  (∀ (s : State) (r : Fin 256) (a : Nat) (d : Desc), s.ringLive r = true → s.ringState r = 1 → (s.ring r).phase = .idle →
    (s.ring r).out = [] → ((s.ring r).chainPc ≠ none ∨ s.rd (ringBlk r) (R.RING_STATUS.head (ringIx r)) ≠
      s.rd (ringBlk r) (R.RING_TAIL.tail (ringIx r))) →
    a = (s.ring r).chainPc.getD ((s.ring r).base + 32 * s.rd (ringBlk r) (R.RING_STATUS.head (ringIx r))) →
    ((s.ring r).target = true → s.dramIn a 32 = true ∧ s.dramOpen a 32 = true ∧ s.firstBadLine a 32 = none) →
    ((s.ring r).target = false → s.flag .dma R.PCIE_STATUS.bus_master = true) →
    d = ⟨a, s.rd (ringBlk r) (R.RING_STATUS.head (ringIx r)), (s.ring r).chainPc.isSome,
      BitVec.ofNat 64 (leNat (s.targetRead (s.ring r).target a 8)), BitVec.ofNat 64 (leNat (s.targetRead (s.ring r).target (a + 8) 8)),
      BitVec.ofNat 64 (leNat (s.targetRead (s.ring r).target (a + 16) 8)),
      BitVec.ofNat 64 (leNat (s.targetRead (s.ring r).target (a + 24) 8))⟩ → Completes (.descriptorFetch ⟨r, .ok⟩) s (fun t =>
      t.rd (ringBlk r) (R.RING_DESC.addr (ringIx r)) = a % 2 ^ 64 ∧
      (d.w0.getLsbD 63 = true → (t.ring r).desc = some d ∧ t.ringState r = 1 ∧ (d.opcode ≤ 5 ∨ d.opcode = 14 ∨ d.opcode = 15 →
        (t.ring r).phase = .fetched) ∧ (6 ≤ d.opcode → d.opcode ≠ 14 → d.opcode ≠ 15 →
        (t.ring r).phase = .performed ∧ (t.ring r).status = 7)) ∧
      (d.w0.getLsbD 63 = false → t.ringState r = 2 ∧ t.ring r = s.ring r ∧
        t.rd (ringBlk r) (R.RING_STATUS.not_owned (ringIx r)) =
          min (s.rd (ringBlk r) (R.RING_STATUS.not_owned (ringIx r)) + 1) 65535) ∧ t.mem = s.mem ∧ SameOutside (ringBlk r) s t)) ∧
  (∀ (s : State) (r : Fin 256) (a : Nat) (q : ReqResult), s.fetchAddr r = some a → (s.ring r).target = true → s.dramIn a 32 = false →
    Completes (.descriptorFetch ⟨r, q⟩) s (fun t => (t.ring r).phase = .performed ∧ (t.ring r).status = 1 ∧ (t.ring r).cause = 4 ∧
      (t.ring r).moved = 0 ∧ (t.ring r).failAt = a ∧ t.mem = s.mem ∧ SameOutside (ringBlk r) s t)) ∧
  (∀ (s : State) (r : Fin 256) (a : Nat) (c : Fin 6) (g : Nat), s.fetchAddr r = some a → ((s.ring r).target = true → s.dramIn a 32 = true) →
    Completes (.descriptorFetch ⟨r, .fail c g⟩) s (fun t => (t.ring r).phase = .performed ∧ (t.ring r).status = 1 ∧ (t.ring r).cause = c ∧
      (t.ring r).moved = 0 ∧ (t.ring r).failAt = a ∧ t.mem = s.mem ∧ SameOutside (ringBlk r) s t))

/-- The descriptors: NOP moves nothing; COPY, FILL and WRITE_IMM write their bytes to DRAM and nothing else, or report an unaligned
descriptor or the bytes moved before a failure; CHECK computes a CRC; PROGRAM_LOAD loads or is refused; LINK and RETURN follow and leave
a chain (R354 to R356, R244). -/
def Obligations.Descriptors : Prop :=
  (∀ (s : State) (r : Fin 256) (d : Desc) (q : ReqResult), s.ringLive r = true → (s.ring r).phase = .fetched →
    (s.ring r).desc = some d → d.opcode = 0 → Completes (.dmaNop r q) s (fun t => (t.ring r).phase = .performed ∧
      (t.ring r).status = 0 ∧ (t.ring r).moved = 0 ∧ t.regs = s.regs ∧ t.mem = s.mem ∧ t.host.mem = s.host.mem)) ∧
  (∀ (s : State) (r : Fin 256) (d : Desc) (n a : Nat), s.ringLive r = true → (s.ring r).phase = .fetched →
    (s.ring r).desc = some d → d.opcode = 1 → n = d.len → n ≠ 0 → n % 8 = 0 → d.src.addr % 8 = 0 → a = d.dst.addr → a % 8 = 0 →
    s.endDenied d.src n false = false → d.dst.space = 1 → s.dramIn a n = true → s.endLimit d.src n false = none →
    s.mem.dramBad = [] → s.memReady → s.srcIssued d = true → s.srcOpen d = true → Completes (.copy r .ok) s (fun t => (t.ring r).phase = .performed ∧ (t.ring r).status = 0 ∧
      (t.ring r).moved = n ∧ (∀ k < n, SMap.get zeroByte t.mem.dram (a + k) = (s.endRead d.src n).getD k 0) ∧
      (∀ x, x < a ∨ a + n ≤ x → SMap.get zeroByte t.mem.dram x = SMap.get zeroByte s.mem.dram x) ∧
      t.rd (ringBlk r) (R.RING_STATUS.link_count (ringIx r)) = 0 ∧ t.mem.depot = s.mem.depot ∧ t.mem.lmem = s.mem.lmem ∧
      t.host.mem = s.host.mem ∧ SameExcept (ringBlk r :: dramBlks) s t)) ∧
  (∀ (s : State) (r : Fin 256) (d : Desc) (c : Fin 6) (g n a : Nat), s.ringLive r = true → (s.ring r).phase = .fetched →
    (s.ring r).desc = some d → d.opcode = 1 → n = d.len → n ≠ 0 → n % 8 = 0 → d.src.addr % 8 = 0 → a = d.dst.addr → a % 8 = 0 →
    s.endDenied d.src n false = false → d.dst.space = 1 → s.dramIn a n = true → s.endLimit d.src n false = none →
    s.mem.dramBad = [] → s.memReady → s.srcIssued d = true → s.srcOpen d = true → Completes (.copy r (.fail c g)) s (fun t => (t.ring r).phase = .performed ∧ (t.ring r).status = 1 ∧
      (t.ring r).cause = c ∧ (t.ring r).moved = min g n ∧
      (∀ k < min g n, SMap.get zeroByte t.mem.dram (a + k) = (s.endRead d.src n).getD k 0) ∧
      (∀ x, x < a ∨ a + n ≤ x → SMap.get zeroByte t.mem.dram x = SMap.get zeroByte s.mem.dram x) ∧ SameExcept (ringBlk r :: dramBlks) s t)) ∧
  (∀ (s : State) (r : Fin 256) (d : Desc) (q : ReqResult), s.ringLive r = true → (s.ring r).phase = .fetched →
    (s.ring r).desc = some d → d.opcode = 1 → d.len ≠ 0 → (d.len % 8 ≠ 0 ∨ d.src.addr % 8 ≠ 0 ∨ d.dst.addr % 8 ≠ 0) →
    s.dmaOpen d q = true → Completes (.copy r q) s (fun t => (t.ring r).phase = .performed ∧ (t.ring r).status = 2 ∧ (t.ring r).moved = 0 ∧
      t.mem = s.mem ∧ t.host.mem = s.host.mem ∧ SameOutside (ringBlk r) s t)) ∧
  (∀ p ∈ ([(.fill, 2), (.writeImm, 3)] : List ((Fin 256 → ReqResult → Instr) × Nat)), ∀ (s : State) (r : Fin 256) (d : Desc) (n a : Nat),
    s.ringLive r = true → (s.ring r).phase = .fetched → (s.ring r).desc = some d → d.opcode = p.2 → n = d.len → n ≠ 0 →
    a = d.dst.addr → (p.2 = 2 → n % 8 = 0 ∧ a % 8 = 0) → (p.2 = 3 → (n = 4 ∨ n = 8) ∧ a % n = 0) → d.dst.space = 1 →
    s.dramIn a n = true → s.mem.dramBad = [] → s.memReady → Completes (p.1 r .ok) s (fun t => (t.ring r).phase = .performed ∧
      (t.ring r).status = 0 ∧ (t.ring r).moved = n ∧
      (∀ k < n, (SMap.get zeroByte t.mem.dram (a + k)).toNat = d.w2.toNat / 256 ^ (k % 8) % 256) ∧
      (∀ x, x < a ∨ a + n ≤ x → SMap.get zeroByte t.mem.dram x = SMap.get zeroByte s.mem.dram x) ∧ t.mem.depot = s.mem.depot ∧
      t.host.mem = s.host.mem ∧ SameExcept (ringBlk r :: dramBlks) s t)) ∧
  (∀ (s : State) (r : Fin 256) (d : Desc) (n v : Nat), s.ringLive r = true → (s.ring r).phase = .fetched → (s.ring r).desc = some d →
    d.opcode = 4 → n = d.len → n ≠ 0 → n % 8 = 0 → d.src.addr % 8 = 0 → s.endDenied d.src n false = false →
    s.endLimit d.src n false = none → v = crc (nbits d.w0.toNat 15 14) (s.endRead d.src n) → s.dmaOpen d .ok = true → Completes (.dmaCheck r .ok) s (fun t =>
      (t.ring r).phase = .performed ∧ (t.ring r).moved = n ∧ (t.ring r).crc = some (BitVec.ofNat 64 v) ∧
      (t.ring r).status = (if d.w0.getLsbD 21 = true ∧ v ≠ d.w3.toNat then 4 else 0) ∧
      t.rd .check (R.CHK_COUNTS.done 61) = min (s.rd .check (R.CHK_COUNTS.done 61) + 1) (R.CHK_COUNTS.done 61).top ∧
      t.mem = s.mem ∧ t.host.mem = s.host.mem)) ∧
  (∀ (s : State) (r : Fin 256) (d : Desc) (n st : Nat) (c : Fin 17) (img : List Byte), s.ringLive r = true →
    (s.ring r).phase = .fetched → (s.ring r).desc = some d → d.opcode = 5 → n = d.len → n ≠ 0 → n % 8 = 0 → n ≤ 0x400000 →
    d.src.addr % 8 = 0 → d.src.space ≤ 1 → d.slice = c.val → s.retired c.val = false → s.endLimit d.src n false = none →
    img = s.endRead d.src n → st = s.loadStatus c.val img (decide (crc 0 (img.take 28 ++ [0, 0, 0, 0] ++
      (img.take (min img.length (imgNat img 16 4))).drop 32) = imgNat img 28 4)) → s.dmaOpen d .ok = true → Completes (.programLoad r .ok) s (fun t =>
      (t.ring r).phase = .performed ∧ (t.ring r).status = (if st = 0 then 0 else 5) ∧ (t.ring r).moved = (if st = 0 then n else 0) ∧
      t.rd (.core c) R.CORE_IMAGE.load_status = st ∧ (st = 0 → t.rd (.core c) R.CORE_IMAGE.valid = 1 ∧
        t.rd (.core c) R.CORE_IMAGE.program_id = imgNat img 4 4 ∧ t.rd (.core c) R.CORE_IMAGE.version = imgNat img 8 2) ∧
      (st ≠ 0 → t.mem = s.mem ∧ t.rd (.core c) R.CORE_FAULT.load_refused = 1))) ∧
  (∀ (s : State) (r : Fin 256) (d : Desc) (q : ReqResult), s.ringLive r = true → (s.ring r).phase = .fetched →
    (s.ring r).desc = some d → d.opcode = 5 → d.len ≠ 0 → d.len % 8 = 0 → d.src.addr % 8 = 0 → d.src.space ≤ 1 →
    (16 < d.slice ∨ s.retired d.slice = true) → s.dmaOpen d q = true → Completes (.programLoad r q) s (fun t => (t.ring r).phase = .performed ∧
      (t.ring r).status = 8 ∧ t.mem = s.mem ∧ SameOutside (ringBlk r) s t)) ∧
  (∀ (s : State) (r : Fin 256) (d : Desc) (n : Nat), s.ringLive r = true → (s.ring r).phase = .fetched →
    (s.ring r).desc = some d → d.opcode = 15 → d.inChain = false → d.w2.toNat % 32 = 0 →
    n = s.rd (ringBlk r) (R.RING_STATUS.link_count (ringIx r)) + 1 → n < 16 → Completes (.dmaLink r .ok) s (fun t =>
      (t.ring r).chainPc = some d.w2.toNat ∧ (t.ring r).chainLink = some d ∧ (t.ring r).phase = .idle ∧
      t.rd (ringBlk r) (R.RING_STATUS.in_chain (ringIx r)) = 1 ∧ t.rd (ringBlk r) (R.RING_STATUS.link_count (ringIx r)) = n ∧
      t.rd (ringBlk r) (R.RING_STATUS.head (ringIx r)) = s.rd (ringBlk r) (R.RING_STATUS.head (ringIx r)) ∧
      t.ringState r = s.ringState r ∧ t.mem = s.mem ∧ t.host.mem = s.host.mem ∧ SameOutside (ringBlk r) s t)) ∧
  (∀ (s : State) (r : Fin 256) (d : Desc) (n : Nat), s.ringLive r = true → (s.ring r).phase = .fetched →
    (s.ring r).desc = some d → d.opcode = 15 → n = s.rd (ringBlk r) (R.RING_STATUS.link_count (ringIx r)) + 1 →
    (16 ≤ n ∨ (n < 16 ∧ d.w2.toNat % 32 ≠ 0)) → Completes (.dmaLink r .ok) s (fun t => t.ringState r = 4 ∧ (t.ring r).phase = .idle ∧
      t.rd (ringBlk r) (R.RING_STATUS.last_error (ringIx r)) = (if 16 ≤ n then 3 else 2) ∧
      t.rd .dma R.DMA_LAST_FAULT.ring = r.val ∧ t.rd .dma R.DMA_LAST_FAULT.status = (if 16 ≤ n then 3 else 2))) ∧
  (∀ (s : State) (r : Fin 256) (d l : Desc), s.ringLive r = true → (s.ring r).phase = .fetched → (s.ring r).desc = some d →
    d.opcode = 14 → (s.ring r).chainLink = some l → (s.ring r).log2n ≤ 16 → Completes (.dmaReturn r .ok) s (fun t =>
      (t.ring r).chainPc = none ∧ (t.ring r).chainLink = none ∧ (t.ring r).phase = .idle ∧ (t.ring r).desc = none ∧
      t.rd (ringBlk r) (R.RING_STATUS.in_chain (ringIx r)) = 0 ∧ t.ringState r = s.ringState r ∧
      t.rd (ringBlk r) (R.RING_STATUS.head (ringIx r)) =
        (s.rd (ringBlk r) (R.RING_STATUS.head (ringIx r)) + 1) % 2 ^ (s.ring r).log2n ∧
      t.rd (ringBlk r) (R.RING_COUNTS.completed (ringIx r)) =
        min (s.rd (ringBlk r) (R.RING_COUNTS.completed (ringIx r)) + 2) (2 ^ 32 - 1))) ∧
  (∀ (s : State) (r : Fin 256) (d : Desc), s.ringLive r = true → (s.ring r).phase = .fetched → (s.ring r).desc = some d →
    d.opcode = 14 → (s.ring r).chainLink = none → Completes (.dmaReturn r .ok) s (fun t => t.ringState r = 4 ∧
      t.rd (ringBlk r) (R.RING_STATUS.last_error (ringIx r)) = 7 ∧ (t.ring r).phase = .idle))

/-- A descriptor ends: it is written back with own = 0, head advances, an error halts the ring and is logged; a time-out is a target error
with cause 0; a flush read comes before the waybill, which enters a queue with room and waits for one without (R349, R354, R357,
R358, R361 to R363). -/
def Obligations.DescriptorsEnd : Prop :=
  (∀ (s : State) (r : Fin 256) (d : Desc), s.ringLive r = true → (s.ring r).phase = .performed → (s.ring r).desc = some d →
    s.needsFlush d (s.ring r).moved = false → (s.ring r).chainPc = none → (s.ring r).log2n ≤ 16 → (s.ring r).status < 16 →
    (s.ring r).cause < 16 → Completes (.descriptorComplete r) s (fun t => (t.ring r).phase = .idle ∧ (t.ring r).desc = none ∧
      t.rd (ringBlk r) (R.RING_COUNTS.completed (ringIx r)) =
        min (s.rd (ringBlk r) (R.RING_COUNTS.completed (ringIx r)) + 1) (2 ^ 32 - 1) ∧
      t.rd (ringBlk r) (R.RING_STATUS.head (ringIx r)) =
        (s.rd (ringBlk r) (R.RING_STATUS.head (ringIx r)) + 1) % 2 ^ (s.ring r).log2n ∧
      ((s.ring r).status = 0 ∨ (s.ring r).status = 4 ∨ (s.ring r).status = 5 → t.ringState r = s.ringState r) ∧
      ((s.ring r).status ∈ [1, 2, 3, 7, 8] → t.ringState r = 4 ∧
        t.rd (ringBlk r) (R.RING_STATUS.last_error (ringIx r)) = (s.ring r).status ∧
        t.rd (ringBlk r) (R.RING_STATUS.last_cause (ringIx r)) = (s.ring r).cause ∧
        t.rd .dma R.DMA_LAST_FAULT.ring = r.val ∧ t.rd .dma R.DMA_LAST_FAULT.status = (s.ring r).status ∧
        t.rd .dma R.DMA_COUNTS.halts = min (s.rd .dma R.DMA_COUNTS.halts + 1) 65535))) ∧
  (∀ (s : State) (r : Fin 256) (d : Desc), s.ringLive r = true → (s.ring r).phase = .performed → (s.ring r).desc = some d →
    s.needsFlush d (s.ring r).moved = false → (s.ring r).target = false → s.flag .dma R.PCIE_STATUS.bus_master = true →
    (s.ring r).status = 0 → (s.ring r).cause = 0 → (s.ring r).crc = none → d.w0.getLsbD 13 = false → (s.ring r).waybillAll = false →
    (s.ring r).out = [] → s.endpointWedged = false → Completes (.descriptorComplete r) s (fun t =>
      leNat (memRead t.host.mem d.addr 8) = d.w0.toNat % 2 ^ 48 + 2 ^ 56 * nbits d.w0.toNat 62 56 ∧
      leNat (memRead t.host.mem (d.addr + 8) 8) = d.len + 2 ^ 32 * ((s.ring r).moved % 2 ^ 32) ∧
      (∀ x, x < d.addr ∨ d.addr + 16 ≤ x → SMap.get zeroByte t.host.mem x = SMap.get zeroByte s.host.mem x) ∧ t.mem = s.mem)) ∧
  (∀ (s : State) (r : Fin 256) (d : Desc), s.ringLive r = true → (s.ring r).phase = .performed → (s.ring r).desc = some d →
    s.needsFlush d (s.ring r).moved = true → Completes (.descriptorComplete r) s (fun t => (t.ring r).phase = .flushing ∧
      (t.ring r).desc = some d ∧ t.rd .dma R.DMA_COUNTS2.flush_reads = min (s.rd .dma R.DMA_COUNTS2.flush_reads + 1) (2 ^ 32 - 1) ∧
      t.mem = s.mem ∧ t.host.mem = s.host.mem ∧ SameOutside .dma s t)) ∧
  (∀ (s : State) (r : Fin 256) (d : Desc) (g n a : Nat), s.ringLive r = true → s.flag .dma R.PCIE_STATUS.bus_master = true →
    (s.ring r).phase = .fetched → (s.ring r).desc = some d → d.opcode = 1 → n = d.len → n ≠ 0 → n % 8 = 0 → d.src.addr % 8 = 0 →
    a = d.dst.addr → a % 8 = 0 → s.endDenied d.src n false = false → d.dst.space = 1 → s.dramIn a n = true →
    s.endLimit d.src n false = none → s.mem.dramBad = [] → s.memReady → Completes (.completionTimeout r g) s (fun t =>
      (t.ring r).phase = .performed ∧ (t.ring r).status = 1 ∧ (t.ring r).cause = 0 ∧ (t.ring r).moved = min g n ∧
      (∀ k < min g n, SMap.get zeroByte t.mem.dram (a + k) = (s.endRead d.src n).getD k 0) ∧ SameExcept (ringBlk r :: dramBlks) s t)) ∧
  (∀ (s : State) (r : Fin 256) (d : Desc) (g : Nat), s.flag .dma R.PCIE_STATUS.bus_master = true → (s.ring r).phase = .flushing →
    (s.ring r).desc = some d → Completes (.completionTimeout r g) s (fun t => t.ringState r = 4 ∧ (t.ring r).phase = .idle ∧
      t.rd (ringBlk r) (R.RING_STATUS.last_error (ringIx r)) = 1 ∧ t.rd (ringBlk r) (R.RING_STATUS.last_cause (ringIx r)) = 0)) ∧
  (∀ (s : State) (r : Fin 256) (d : Desc), (s.ring r).phase = .flushing → (s.ring r).desc = some d →
    (s.ring r).status = 0 → (s.ring r).stopping = false → Completes (.flushReadComplete (.ring r) true) s (fun t => t.ringState r = s.ringState r ∧
      (t.ring r).phase = .idle ∧ t.rd (ringBlk r) (R.RING_COUNTS.completed (ringIx r)) =
        min (s.rd (ringBlk r) (R.RING_COUNTS.completed (ringIx r)) + 1) (2 ^ 32 - 1))) ∧
  (∀ (s : State) (r : Fin 256) (d : Desc), (s.ring r).phase = .flushing → (s.ring r).desc = some d →
    Completes (.flushReadComplete (.ring r) false) s (fun t => t.ringState r = 4 ∧ (t.ring r).phase = .idle ∧
      t.rd (ringBlk r) (R.RING_STATUS.last_error (ringIx r)) = 1)) ∧
  (∀ p ∈ ([(.flushing, fun q => .flushReadComplete (.queue q) true), (.stalled, fun q => .waybill (.queue q))] :
      List (RecPhase × (Nat → Instr))), ∀ (s : State) (q : BitVec 20) (r : Rec) (rs : List Rec), s.Sole r rs → r.q = q.toNat →
    r.phase = p.1 → s.cached q.toNat = true → s.cqRoom (s.ctx q.toNat).cq = true → (s.cqSt (s.ctx q.toNat).cq).log2n ≤ 16 →
    s.queue.destroying = none → s.enabled .queue = true → Completes (p.2 q.toNat) s (fun t => t.queue.recs = rs ∧
      (t.ctx q.toNat).produced = (r.off + r.len / 64) % 2 ^ 36 ∧ (t.ctx q.toNat).pubSeq = (r.seq + 1) % 2 ^ 64 ∧
      t.rd (cqBlk (s.ctx q.toNat).cq) (R.CQ_STATUS.tail ((s.ctx q.toNat).cq % 256)) =
        (s.rd (cqBlk (s.ctx q.toNat).cq) (R.CQ_STATUS.tail ((s.ctx q.toNat).cq % 256)) + 1) % 2 ^ (s.cqSt (s.ctx q.toNat).cq).log2n)) ∧
  (∀ (s : State) (q : BitVec 20) (r : Rec) (rs : List Rec), s.Sole r rs → r.q = q.toNat → r.phase = .flushing → s.cached q.toNat = true →
    s.queue.destroying = none → s.enabled .queue = true → Completes (.flushReadComplete (.queue q.toNat) false) s (fun t => t.queue.recs = rs ∧
      (t.ctx q.toNat).halted = true ∧ t.rd .queue R.QUEUE_LAST_FAULT.cause = 2 ∧ t.mem = s.mem)) ∧
  (∀ (s : State) (r : Fin 256) (w : Waybill) (c t0 ph a : Nat), (s.ring r).out = [w] → c = (s.ring r).cq → c < 1024 →
    s.cqRoom c = true → w.bytes.length = 32 → t0 = s.rd (cqBlk c) (R.CQ_STATUS.tail (c % 256)) →
    ph = s.rd (cqBlk c) (R.CQ_STATUS.phase (c % 256)) → a = (s.cqSt c).base + 32 * t0 → (s.cqSt c).target = false →
    (s.cqSt c).log2n ≤ 16 → s.flag .dma R.PCIE_STATUS.bus_master = true → s.endpointWedged = false →
    Completes (.waybill (.ring r)) s (fun t =>
      (t.ring r).out = [] ∧ (∀ k < 32, SMap.get zeroByte t.host.mem (a + k) =
        (if k = 1 then BitVec.ofNat 8 ph else w.bytes.getD k 0)) ∧
      (∀ x, x < a ∨ a + 32 ≤ x → SMap.get zeroByte t.host.mem x = SMap.get zeroByte s.host.mem x) ∧
      t.rd (cqBlk c) (R.CQ_STATUS.tail (c % 256)) = (t0 + 1) % 2 ^ (s.cqSt c).log2n ∧
      t.rd (cqBlk c) (R.CQ_STATUS.phase (c % 256)) = (if (t0 + 1) % 2 ^ (s.cqSt c).log2n = 0 then 1 - ph else ph) ∧
      t.mem = s.mem ∧ SameExcept [cqBlk c, .dma] s t)) ∧
  (∀ (s : State) (r : Fin 256) (w : Waybill) (ws : List Waybill) (c : Nat), (s.ring r).out = w :: ws → c = (s.ring r).cq → c < 1024 →
    s.cqRoom c = false → (s.ring r).waited = false → Completes (.waybill (.ring r)) s (fun t => (t.ring r).out = w :: ws ∧
      t.rd (cqBlk c) (R.CQ_STATUS.full_stalls (c % 256)) = min (s.rd (cqBlk c) (R.CQ_STATUS.full_stalls (c % 256)) + 1) 65535 ∧
      t.host.mem = s.host.mem ∧ t.mem = s.mem))

/-- Completion queues and the endpoint: head moves within what is unread, enable samples the base or is refused, an unmasked pending vector
is sent once, an endpoint reset halts every ring and disables every queue in host memory, a configuration request before the IDs are
passed is retried, and the IDs and the class code are read (R2, R347, R348, R350, R358, R361, R363, R364, R389). -/
def Obligations.CompletionQueuesAndEndpoint : Prop :=
  (∀ (s : State) (c : Fin 1024) (v : BitVec 16), s.dev ≠ .off → s.dev ≠ .boot → v.toNat < 2 ^ (s.cqSt c).log2n →
    (v.toNat + 2 ^ (s.cqSt c).log2n - s.rd (cqBlk c) (R.CQ_HEAD.head (c % 256)) % 2 ^ (s.cqSt c).log2n) % 2 ^ (s.cqSt c).log2n ≤
      s.cqUnread c → Completes (.cqHead c v) s (fun t => t.rd (cqBlk c) (R.CQ_HEAD.head (c.val % 256)) = v.toNat ∧
      t.rd (cqBlk c) (R.CQ_STATUS.tail (c.val % 256)) = s.rd (cqBlk c) (R.CQ_STATUS.tail (c.val % 256)) ∧ t.host = s.host ∧
      t.mem = s.mem ∧ SameOutside (cqBlk c) s t)) ∧
  (∀ (s : State) (c : Fin 1024) (v : BitVec 16), s.dev ≠ .off → s.dev ≠ .boot → 2 ^ (s.cqSt c).log2n ≤ v.toNat → Completes (.cqHead c v) s (fun t =>
      t.rd (cqBlk c) (R.CQ_STATUS.doorbell_invalid (c.val % 256)) = 1 ∧ t.rd .dma R.DMA_FAULT.cq_doorbell_invalid = 1 ∧
      t.rd (cqBlk c) (R.CQ_HEAD.head (c.val % 256)) = s.rd (cqBlk c) (R.CQ_HEAD.head (c.val % 256)) ∧ t.host = s.host ∧ t.mem = s.mem)) ∧
  (∀ (s : State) (c : Fin 1024) (j base : Nat), s.dev ≠ .off → s.dev ≠ .boot → s.cqOn c = false → j = s.rd (cqBlk c) (R.CQ_BASE.log2n (c.val % 256)) →
    base = s.rd (cqBlk c) (R.CQ_BASE.base (c.val % 256)) * 512 → 4 ≤ j → j ≤ 16 → base % (32 * 2 ^ j) = 0 →
    Completes (.cqEnable c) s (fun t => t.cqOn c = true ∧
      t.cqSt c = ⟨base, s.flag (cqBlk c) (R.CQ_BASE.target (c.val % 256)), j⟩ ∧ t.cqUnread c = 0 ∧
      t.rd (cqBlk c) (R.CQ_STATUS.tail (c.val % 256)) = 0 ∧ t.rd (cqBlk c) (R.CQ_HEAD.head (c.val % 256)) = 0 ∧
      t.rd (cqBlk c) (R.CQ_STATUS.phase (c.val % 256)) = 1 ∧ t.mem = s.mem ∧ SameOutside (cqBlk c) s t)) ∧
  (∀ (s : State) (c : Fin 1024) (j base : Nat), s.dev ≠ .off → s.dev ≠ .boot → s.cqOn c = false → j = s.rd (cqBlk c) (R.CQ_BASE.log2n (c.val % 256)) →
    base = s.rd (cqBlk c) (R.CQ_BASE.base (c.val % 256)) * 512 → (j < 4 ∨ 16 < j ∨ base % (32 * 2 ^ j) ≠ 0) →
    Completes (.cqEnable c) s (fun t => t.cqOn c = false ∧ t.rd (cqBlk c) (R.CQ_STATUS.enable_refused (c.val % 256)) = 1 ∧
      t.rd .dma R.DMA_FAULT.cq_refused = 1 ∧ t.host = s.host ∧ t.mem = s.mem)) ∧
  (∀ (s : State) (v : Fin 2048), s.host.pba = [(v.val, true)] → s.flag .dma R.PCIE_STATUS.msix_enable = true →
    s.flag .dma R.PCIE_STATUS.function_mask = false → s.flag .dma R.PCIE_STATUS.bus_master = true → s.endpointWedged = false →
    Completes (.msixUnmask v) s (fun t => t.host.sent = s.host.sent ++ [v.val] ∧ t.host.pba = [] ∧ t.msixMasked v = false ∧
      SameOutside .dma s t ∧ t.mem = s.mem)) ∧
  (∀ (s : State) (v : Fin 2048), s.host.pba = [] → Completes (.msixUnmask v) s (fun t => t.host.sent = s.host.sent ∧
      t.host.pba = [] ∧ (SMap.get msixDefault t.host.msixTable (16 * v.val + 12)).getLsbD 0 = false ∧ t.regs = s.regs ∧ t.mem = s.mem)) ∧
  (∀ s : State, s.endpointWedged = false → Completes .endpointReset s (fun t => t.host.memSpace = false ∧
      t.rd .dma R.PCIE_STATUS.bus_master = 0 ∧ t.rd .dma R.PCIE_STATUS.msix_enable = 0 ∧
      t.rd .dma R.PCIE_STATUS.link_downs = min (s.rd .dma R.PCIE_STATUS.link_downs + 1) 65535 ∧ (∀ r, t.ringState r = 4) ∧
      (∀ c : Fin 1024, (s.cqSt c).target = false → t.cqOn c = false) ∧ t.host.mem = s.host.mem)) ∧
  (∀ s : State, Completes .unexpectedCompletion s (fun t =>
      t = { s with host := { s.host with aerUnexpected := s.host.aerUnexpected + 1 } })) ∧
  (∀ (s : State) (o : CfgOp), s.dev ≠ .off → s.endpointWedged = false → s.boot.idsPassed = false → Completes (.configurationRequest o) s (fun t =>
      t = { s with host := { s.host with retries := s.host.retries + 1 } })) ∧
  (∀ (s : State) (m b : Bool), s.dev ≠ .off → s.endpointWedged = false → s.boot.idsPassed = true → Completes (.configurationRequest (.setCommand m b)) s (fun t =>
      t.host.memSpace = m ∧ t.rd .dma R.PCIE_STATUS.bus_master = (if b then 1 else 0) ∧
      t.host.hostOut = (if b then [] else s.host.hostOut) ∧ (b = false → t.host.mem = s.host.mem ∧ t.host.sent = s.host.sent) ∧
      t.mem = s.mem ∧ SameOutside .dma s t)) ∧
  (∀ (s : State) (n : Nat), s.dev ≠ .off → s.endpointWedged = false → s.boot.idsPassed = true → s.host.memSpace = false → 28 ≤ n → n ≤ 40 →
    Completes (.configurationRequest (.setBar4 n)) s (fun t => t.rd .dma R.PCIE_STATUS.bar4_log2 = n ∧ t.host = s.host ∧ t.mem = s.mem ∧
      SameOutside .dma s t)) ∧
  (∀ s : State, s.dev ≠ .off → s.endpointWedged = false → s.boot.idsPassed = true → Completes (.configurationRequest (.read 0)) s (fun t =>
      t.host.readOk = true ∧ t.host.readBytes = leBytes 2 s.boot.vendor ++ [0x20, 0x51] ∧ t.regs = s.regs ∧ t.mem = s.mem)) ∧
  (∀ s : State, s.dev ≠ .off → s.endpointWedged = false → s.boot.idsPassed = true → Completes (.configurationRequest (.read 2)) s (fun t =>
      t.host.readOk = true ∧ t.host.readBytes = [0xB1, 0x00, 0x80, 0x11] ∧ t.regs = s.regs ∧ t.mem = s.mem))

/-! ### Display (R371 to R377) -/

/-- The link and the events: training, unplug, the frame events with their bits, staged layers at VBLANK_START, the colour table, and AUX
transactions. The lines: without layers the background is sent, an opaque layer covers it, a layer without data in time blacks the rest of
the line and counts, a blank line sends nothing; a layer's data enters its ferry, or is dropped when its line has gone (R371 to R377). -/
def Obligations.DisplayOutput : Prop :=
  (∀ (s : State) (d : Fin 2), s.dispActive d = true → s.rd (.display d) R.DISP_STATUS.line = s.dispHeight d →
    s.flag (.display d) R.DISP_CTRL.commit = true → s.rd (.display d) R.DISP_CTRL.last_cmd = 1 → s.hadEvent d 0 = false → Completes (.vblankStart d) s (fun t =>
      (∀ n < 4, t.rdw (.display d) (0x118 + 0x40 * n) = s.rdw (.display d) (0x100 + 0x40 * n) ∧
        t.rdw (.display d) (0x120 + 0x40 * n) = s.rdw (.display d) (0x108 + 0x40 * n) ∧
        (t.disp[d]).ctrl.getD n 0 = s.rdw (.display d) (0x110 + 0x40 * n)) ∧ t.rd (.display d) R.DISP_CTRL.commit = 0 ∧
      t.rd (.display d) R.DISP_CTRL.last_status = 0 ∧ nbit (t.rd (.display d) R.DISP_EVENTS.events) 0 = true ∧
      t.mem = s.mem ∧ SameExcept [.display d, .dma] s t)) ∧
  (∀ (s : State) (d : Fin 2), s.dispActive d = true → s.rd (.display d) R.DISP_STATUS.line = s.dispHeight d →
    s.flag (.display d) R.DISP_CTRL.commit = false → s.hadEvent d 0 = false → Completes (.vblankStart d) s (fun t =>
      (t.disp[d]).ctrl = (s.disp[d]).ctrl ∧ (t.disp[d]).ct = (s.disp[d]).ctNext.getD (s.disp[d]).ct ∧ (t.disp[d]).ctNext = none ∧
      (∀ n < 4, t.rdw (.display d) (0x118 + 0x40 * n) = s.rdw (.display d) (0x118 + 0x40 * n)) ∧
      nbit (t.rd (.display d) R.DISP_EVENTS.events) 0 = true ∧ t.mem = s.mem ∧ SameExcept [.display d, .dma] s t)) ∧
  (∀ (s : State) (d : Fin 2), s.dispActive d = true →
    s.rd (.display d) R.DISP_STATUS.line = s.rd (.display d) R.DISP_IRQ.line_match → s.hadEvent d 1 = false → Completes (.lineMatch d) s (fun t =>
      nbit (t.rd (.display d) R.DISP_EVENTS.events) 1 = true ∧ t.hadEvent d 1 = true ∧ (t.disp[d]).ctrl = (s.disp[d]).ctrl ∧
      (t.disp[d]).ferry = (s.disp[d]).ferry ∧ t.mem = s.mem ∧
      (s.flag .dma R.PCIE_STATUS.msix_enable = true → s.flag .dma R.PCIE_STATUS.bus_master = true → s.endpointWedged = false →
        nbit (s.rd (.display d) R.DISP_IRQ.enable) 1 = true → s.msixMasked (s.rd (.display d) R.DISP_IRQ.vector) = false →
        t.host.sent = s.host.sent ++ [s.rd (.display d) R.DISP_IRQ.vector]) ∧ SameExcept [.display d, .dma] s t)) ∧
  (∀ (s : State) (d : Fin 2), s.rd (.display d) R.DISP_STATUS.line ≠ s.rd (.display d) R.DISP_IRQ.line_match ∨ s.hadEvent d 1 = true →
    Completes (.lineMatch d) s (fun t => t = s)) ∧
  (∀ (s : State) (d : Fin 2), s.dispActive d = true → s.dispHeight d ≤ s.rd (.display d) R.DISP_STATUS.line →
    s.hadEvent d 2 = false → Completes (.frameDone d) s (fun t => nbit (t.rd (.display d) R.DISP_EVENTS.events) 2 = true ∧
      t.rd (.display d) R.DISP_STATUS.frames = (s.rd (.display d) R.DISP_STATUS.frames + 1) % 2 ^ 32 ∧ t.hadEvent d 2 = true ∧
      (t.disp[d]).ctrl = (s.disp[d]).ctrl ∧ (t.disp[d]).ferry = (s.disp[d]).ferry ∧
      t.mem = s.mem ∧ SameExcept [.display d, .dma] s t)) ∧
  (∀ (s : State) (d : Fin 2), Completes (.hpdUnplug d) s (fun t => t.rd (.display d) R.DISP_STATUS.hpd = 0 ∧
      t.rd (.display d) R.DISP_STATUS.state = (if s.enabled (.display d) then 3 else s.rd (.display d) R.DISP_STATUS.state) ∧
      nbit (t.rd (.display d) R.DISP_EVENTS.events) 4 = true ∧
      t.rd (.display d) R.DISP_COUNTS.hpd_events = min (s.rd (.display d) R.DISP_COUNTS.hpd_events + 1) 65535 ∧ t.mem = s.mem ∧
      SameExcept [.display d, .dma] s t)) ∧
  (∀ (s : State) (d : Fin 2), Completes (.irqHpd d) s (fun t => nbit (t.rd (.display d) R.DISP_EVENTS.events) 4 = true ∧
      t.rd (.display d) R.DISP_STATUS.state = s.rd (.display d) R.DISP_STATUS.state ∧
      t.rd (.display d) R.DISP_COUNTS.hpd_events = min (s.rd (.display d) R.DISP_COUNTS.hpd_events + 1) 65535 ∧ t.mem = s.mem ∧
      SameExcept [.display d, .dma] s t)) ∧
  (∀ (s : State) (d : Fin 2) (ok : Bool), s.rd (.display d) R.DISP_STATUS.state = 1 → Completes (.linkTraining d ok) s (fun t =>
      t.rd (.display d) R.DISP_STATUS.state = (if ok then 2 else 3) ∧ (ok = false → t.rd (.display d) R.DISP_EVENTS.link_fail = 1) ∧
      t.disp = s.disp ∧ t.mem = s.mem ∧ SameOutside (.display d) s t)) ∧
  (∀ (s : State) (d : Fin 2) (ok : Bool), s.rd (.display d) R.DISP_STATUS.state ≠ 1 →
    Completes (.linkTraining d ok) s (fun t => t = s)) ∧
  (∀ (s : State) (d : Fin 2), s.dev ≠ .off → s.dev ≠ .boot → Completes (.dispCommit d) s (fun t => t.rd (.display d) R.DISP_CTRL.commit = 1 ∧
      t.rd (.display d) R.DISP_CTRL.last_cmd = 1 ∧ t.rd (.display d) R.DISP_CTRL.last_status = 1 ∧ t.disp = s.disp ∧ t.mem = s.mem ∧
      SameOutside (.display d) s t)) ∧
  (∀ (s : State) (d : Fin 2), s.dev ≠ .off → s.dev ≠ .boot → s.flag (.display d) R.DISP_CTRL.ct_load = false → Completes (.ctLoad d) s (fun t =>
      t.rd (.display d) R.DISP_CTRL.ct_load = 1 ∧ t.rd (.display d) R.DISP_CTRL.last_cmd = 2 ∧
      t.rd (.display d) R.DISP_CTRL.last_status = 1 ∧ (t.disp[d]).ct = (s.disp[d]).ct ∧
      (t.disp[d]).ctWait = ((s.layer d 0).on || (s.layer d 1).on) ∧ t.mem = s.mem ∧ SameOutside (.display d) s t)) ∧
  (∀ (s : State) (d : Fin 2) (a : Nat), s.flag (.display d) R.DISP_CTRL.ct_load = true → s.rd (.display d) R.DISP_CTRL.last_cmd = 2 →
    a = s.rd (.display d) R.DISP_CT.addr / 64 * 64 → s.dramIn a 4096 = true → s.dramOpen a 4096 = true → s.firstBadLine a 4096 = none →
    Completes (.ctLoadDone d) s (fun t => t.rd (.display d) R.DISP_CTRL.ct_load = 0 ∧ t.rd (.display d) R.DISP_CTRL.last_status = 0 ∧
      ((s.disp[d]).ctWait = false → ∀ k < 1024, SMap.get (fun _ => 0) (t.disp[d]).ct k =
        leNat (memRead s.mem.dram (a + 4 * k) 4) % 2 ^ 30) ∧
      ((s.disp[d]).ctWait = true → (t.disp[d]).ct = (s.disp[d]).ct ∧ ∃ m, (t.disp[d]).ctNext = some m ∧
        ∀ k < 1024, SMap.get (fun _ => 0) m k = leNat (memRead s.mem.dram (a + 4 * k) 4) % 2 ^ 30) ∧ t.mem = s.mem ∧
      SameOutside (.display d) s t)) ∧
  (∀ (s : State) (d : Fin 2), s.dev ≠ .off → s.dev ≠ .boot → Completes (.auxGo d) s (fun t => t.rd (.display d) R.DISP_AUX.go = 1 ∧
      t.rd (.display d) R.DISP_AUX.last_status = 1 ∧ t.disp = s.disp ∧ t.mem = s.mem ∧ SameOutside (.display d) s t)) ∧
  (∀ (s : State) (d : Fin 2) (r : AuxResult) (data : List Byte), s.flag (.display d) R.DISP_AUX.go = true → r ≠ .ack →
    Completes (.auxComplete d r data) s (fun t => t.rd (.display d) R.DISP_AUX.go = 0 ∧
      t.rd (.display d) R.DISP_AUX.last_status = (if r = .nack then 2 else 3) ∧
      (∀ j : Fin 2, t.rd (.display d) (R.DISP_AUX_DATA.data j) = s.rd (.display d) (R.DISP_AUX_DATA.data j)) ∧ t.mem = s.mem ∧
      SameOutside (.display d) s t)) ∧
  (∀ (s : State) (d : Fin 2) (data : List Byte), s.flag (.display d) R.DISP_AUX.go = true →
    (s.rd (.display d) R.DISP_AUX.type = 1 ∨ s.rd (.display d) R.DISP_AUX.type = 3) →
    data.length = s.rd (.display d) R.DISP_AUX.len_m1 + 1 → Completes (.auxComplete d .ack data) s (fun t =>
      t.rd (.display d) R.DISP_AUX.go = 0 ∧ t.rd (.display d) R.DISP_AUX.last_status = 0 ∧
      (∀ i < 16, t.rd (.display d) (R.DISP_AUX_DATA.data (i / 8)) / 256 ^ (i % 8) % 256 =
        (if i < data.length then (data.getD i 0).toNat
          else s.rd (.display d) (R.DISP_AUX_DATA.data (i / 8)) / 256 ^ (i % 8) % 256)) ∧ t.mem = s.mem ∧ SameOutside (.display d) s t)) ∧
  (∀ (s : State) (d : Fin 2) (v : Nat), s.dispActive d = true → v = s.rd (.display d) R.DISP_STATUS.line → v < s.dispHeight d →
    (∀ n < 4, (s.layer d n).on = false) → s.flag (.display d) R.DISP_LINK.bpc10 = true → Completes (.displayLine d) s (fun t =>
      (t.disp[d]).pixels = List.replicate (s.dispWidth d) (s.rd (.display d) R.DISP_BG.colour) ∧
      t.rd (.display d) R.DISP_STATUS.line = (if v + 1 < s.dispLines d then (v + 1) % 2 ^ 13 else 0) ∧
      t.rd (.display d) R.DISP_COUNTS.underrun_lines = s.rd (.display d) R.DISP_COUNTS.underrun_lines ∧ t.mem = s.mem ∧
      SameOutside (.display d) s t)) ∧
  (∀ (s : State) (d : Fin 2) (v : Nat), s.dispActive d = true → v = s.rd (.display d) R.DISP_STATUS.line → s.dispHeight d ≤ v →
    Completes (.displayLine d) s (fun t => (t.disp[d]).pixels = [] ∧
      t.rd (.display d) R.DISP_STATUS.line = (if v + 1 < s.dispLines d then (v + 1) % 2 ^ 13 else 0) ∧ t.mem = s.mem ∧
      SameOutside (.display d) s t)) ∧
  (∀ (s : State) (d : Fin 2) (v x0 e : Nat) (bs : List Byte), s.dispActive d = true → v = s.rd (.display d) R.DISP_STATUS.line →
    v < s.dispHeight d → (∀ n < 3, (s.layer d n).on = false) → (s.layer d 3).opaque_ = true →
    (s.layer d 3).span (s.dispWidth d) v = some (x0, e) → (s.disp[d]).line 3 v = some bs → bs.length = 4 * (e - x0) →
    s.flag (.display d) R.DISP_LINK.bpc10 = true → Completes (.displayLine d) s (fun t =>
      (t.disp[d]).pixels.length = s.dispWidth d ∧ (∀ x < s.dispWidth d, (t.disp[d]).pixels.getD x 0 =
        (if x0 ≤ x ∧ x < e then c10 (bs.getD (4 * (x - x0)) 0).toNat + 2 ^ 10 * c10 (bs.getD (4 * (x - x0) + 1) 0).toNat +
            2 ^ 20 * c10 (bs.getD (4 * (x - x0) + 2) 0).toNat
          else s.rd (.display d) R.DISP_BG.colour)) ∧
      (t.disp[d]).line 3 v = none ∧ t.mem = s.mem ∧ SameOutside (.display d) s t)) ∧
  (∀ (s : State) (d : Fin 2) (v x0 e : Nat), s.dispActive d = true → v = s.rd (.display d) R.DISP_STATUS.line →
    v < s.dispHeight d → (∀ n, n < 4 → n ≠ 3 → (s.layer d n).on = false) → (s.layer d 3).span (s.dispWidth d) v = some (x0, e) →
    (s.disp[d]).line 3 v = none → Completes (.displayLine d) s (fun t =>
      (∀ x, x0 ≤ x → x < s.dispWidth d → (t.disp[d]).pixels.getD x 1 = 0) ∧
      t.rd (.display d) R.DISP_COUNTS.underrun_lines = min (s.rd (.display d) R.DISP_COUNTS.underrun_lines + 1) (2 ^ 32 - 1) ∧
      t.rd (.display d) (R.LAYER_FERRY.discards 3) = min (s.rd (.display d) (R.LAYER_FERRY.discards 3) + 1) (2 ^ 32 - 1) ∧
      nbit (t.rd (.display d) R.DISP_EVENTS.events) 3 = true ∧ (3, v) ∈ (t.disp[d]).late ∧ t.mem = s.mem ∧
      SameExcept [.display d, .dma] s t)) ∧
  (∀ (s : State) (d : Fin 2) (n : Fin 4) (v : Nat) (bs : List Byte), (n.val, v) ∉ (s.disp[d]).late → s.dispActive d = true →
    s.fetched d n v = true → s.lineDue d v = true → (s.disp[d]).line n v = none →
    ((s.disp[d]).ferry.filter (fun e => e.1 = n.val)).length < 8 → s.layerBytes d (s.layer d n) v = some bs →
    Completes (.lineFetch d n v) s (fun t => (t.disp[d]).ferry = (s.disp[d]).ferry ++ [(n.val, v, bs)] ∧
      (t.disp[d]).line n v = some bs ∧ t.rd (.display d) (R.LAYER_FERRY.level n) =
        ((s.disp[d]).ferry.filter (fun e => e.1 = n.val)).length + 1 ∧ t.mem = s.mem ∧ SameOutside (.display d) s t)) ∧
  (∀ (s : State) (d : Fin 2) (n : Fin 4) (v : Nat), (n.val, v) ∈ (s.disp[d]).late → Completes (.lineFetch d n v) s (fun t =>
      (n.val, v) ∉ (t.disp[d]).late ∧ (t.disp[d]).ferry = (s.disp[d]).ferry ∧ t.regs = s.regs ∧ t.mem = s.mem))

/-! ### Authentication, the secure region and the tamper loop (R325 to R327, R393 to R398) -/

/-- A go with each operation code: one at a time, refused when its preconditions fail, waiting for presence, or executing at once in the
first life-cycle state; cancel, presence, and the end of the window (R393, R394, R395). -/
def Obligations.AuthOperations : Prop :=
  (∀ p ∈ ([(.trustCommit, 1), (.trustClear, 2), (.seedSet, 3), (.userCal, 4), (.fwUpdate true, 5), (.ucodeUpdate, 6), (.lcAdvance, 7),
      (.extestEnable, 8), (.wipe, 9)] : List (Instr × Nat)), ∀ s : State, s.dev ≠ .off → s.dev ≠ .boot →
    (s.sec.op ≠ none → Completes p.1 s (fun t => t.sec = s.sec ∧ t.rd .auth R.AUTH_CMD.op = p.2 ∧
      t.rd .auth R.AUTH_CMD.go = s.rd .auth R.AUTH_CMD.go ∧ t.mem = s.mem ∧ SameOutside .auth s t)) ∧
    (s.sec.op = none → s.authAccepts p.2 true = true → s.sec.lc ≠ 0 → Completes p.1 s (fun t =>
      t.rd .auth R.AUTH_CMD.last_cmd = p.2 ∧ t.rd .auth R.AUTH_CMD.go = 1 ∧ t.rd .auth R.AUTH_CMD.last_status = 1 ∧
      t.rd .auth R.AUTH_PRESENCE.window_open = 1 ∧ t.rd .auth R.AUTH_PRESENCE.remaining = 10000 ∧
      (∃ o, t.sec = { s.sec with op := some o } ∧ o.op = p.2 ∧ o.executing = false ∧ o.openedAt = s.tim.raw ∧
        (∀ i < 4, o.arg i = s.rdw .auth (0x050 + 8 * i))) ∧ t.mem = s.mem ∧ SameOutside .auth s t)) ∧
    (s.sec.op = none → s.authAccepts p.2 true = true → s.sec.lc = 0 → Completes p.1 s (fun t =>
      t.rd .auth R.AUTH_CMD.last_status = 2 ∧ t.rd .auth R.AUTH_PRESENCE.window_open = 0 ∧
      (∃ o, t.sec = { s.sec with op := some o } ∧ o.op = p.2 ∧ o.executing = true) ∧ t.mem = s.mem ∧ SameOutside .auth s t)) ∧
    (s.sec.op = none → s.authAccepts p.2 true = false → Completes p.1 s (fun t => t.rd .auth R.AUTH_CMD.last_cmd = p.2 ∧
      t.rd .auth R.AUTH_CMD.go = 0 ∧ t.rd .auth R.AUTH_CMD.last_status = 3 ∧
      t.rd .auth R.AUTH_COUNTS.refused = min (s.rd .auth R.AUTH_COUNTS.refused + 1) 65535 ∧ t.sec = s.sec ∧ t.mem = s.mem ∧
      SameOutside .auth s t))) ∧
  (∀ (s : State) (o : AuthOp), s.dev ≠ .off → s.dev ≠ .boot → s.sec.op = some o → o.executing = true → Completes .authCancel s (fun t => t = s)) ∧
  (∀ (s : State) (o : AuthOp), s.dev ≠ .off → s.dev ≠ .boot → s.sec.op = some o → o.executing = false → Completes .authCancel s (fun t =>
      t.sec = { s.sec with op := none } ∧ t.rd .auth R.AUTH_CMD.last_status = 7 ∧ t.rd .auth R.AUTH_CMD.go = 0 ∧
      t.rd .auth R.AUTH_PRESENCE.window_open = 0 ∧ t.mem = s.mem ∧ SameOutside .auth s t)) ∧
  (∀ (s : State) (o : AuthOp), s.sec.op = some o → o.executing = false → o.openedAt + 50 * msUnits ≤ s.tim.raw →
    s.tim.raw ≤ o.openedAt + 10 * secUnits → Completes .presenceProven s (fun t =>
      t.sec = { s.sec with op := some { o with executing := true } } ∧ t.rd .auth R.AUTH_CMD.last_status = 2 ∧
      t.rd .auth R.AUTH_PRESENCE.window_open = 0 ∧ t.mem = s.mem ∧ SameOutside .auth s t)) ∧
  (∀ (s : State) (o : AuthOp), s.sec.op = some o → (s.tim.raw < o.openedAt + 50 * msUnits ∨ o.openedAt + 10 * secUnits < s.tim.raw) →
    Completes .presenceProven s (fun t => t = s)) ∧
  (∀ (s : State) (o : AuthOp), s.sec.op = some o → s.tim.raw < o.openedAt + 10 * secUnits → Completes .windowExpired s (fun t => t = s)) ∧
  (∀ (s : State) (o : AuthOp), s.sec.op = some o → o.executing = false → o.openedAt + 10 * secUnits ≤ s.tim.raw → Completes .windowExpired s (fun t =>
      t.sec = { s.sec with op := none } ∧ t.rd .auth R.AUTH_CMD.last_status = 4 ∧
      t.rd .auth R.AUTH_COUNTS.expired = min (s.rd .auth R.AUTH_COUNTS.expired + 1) 65535 ∧ t.mem = s.mem ∧ SameOutside .auth s t)) ∧
  (∀ s : State, s.flag .auth R.AUTH_PRESENCE.window_open = false → s.dev ≠ .off → Completes .strayPresence s (fun t =>
      t.rd .auth R.AUTH_PRESENCE.stray_presence = min (s.rd .auth R.AUTH_PRESENCE.stray_presence + 1) 65535 ∧ t.sec = s.sec ∧
      t.mem = s.mem ∧ SameOutside .auth s t)) ∧
  (∀ s : State, s.flag .auth R.AUTH_PRESENCE.window_open = true → Completes .strayPresence s (fun t => t = s))

/-- What an executing operation does at its end, and the tamper loop: constants, seeds and items are stored and sealed, a failure of the
flash leaves the region, an image is stored in the slot that was not booted, the life-cycle state moves after a wipe; an armed loop that
opens wipes the region and ends the operation (R326, R327, R394 to R398). -/
def Obligations.AuthEffects : Prop :=
  (∀ (s : State) (o : AuthOp), s.sec.op = some o → o.executing = true → o.op = 1 → Completes (.authDone true) s (fun t =>
      SMap.get (fun _ => none) t.sec.region.trust (nbits o.stage0.toNat 8 0) =
        some { value := signed 48 (nbits o.stage0.toNat 63 16), unc := nbits o.stage1.toNat 15 0 } ∧
      t.sec.region.seeds = s.sec.region.seeds ∧ t.sec.region.userCal = s.sec.region.userCal ∧ t.sec.op = none ∧
      (∃ c, (t.sec.copy0 = some c ∨ t.sec.copy1 = some c) ∧ c.region = t.sec.region ∧ c.verifies = true) ∧
      t.rd .auth R.AUTH_CMD.last_status = 0 ∧ t.rd .auth R.AUTH_REGION.sealed_valid = 1 ∧
      t.rd .auth R.AUTH_COUNTS.done = min (s.rd .auth R.AUTH_COUNTS.done + 1) 65535)) ∧
  (∀ (s : State) (o : AuthOp), s.sec.op = some o → o.executing = true → o.op = 2 → Completes (.authDone true) s (fun t =>
      SMap.get (fun _ => none) t.sec.region.trust (o.arg 0) = none ∧ t.sec.region.seeds = s.sec.region.seeds ∧ t.sec.op = none ∧
      t.rd .auth R.AUTH_CMD.last_status = 0)) ∧
  (∀ (s : State) (o : AuthOp), s.sec.op = some o → o.executing = true → o.op = 3 → Completes (.authDone true) s (fun t =>
      SMap.get (fun _ => none) t.sec.region.seeds (o.arg 0) = some (BitVec.ofNat 16 (o.arg 1)) ∧
      t.sec.region.trust = s.sec.region.trust ∧ t.sec.op = none ∧ t.rd .auth R.AUTH_CMD.last_status = 0)) ∧
  (∀ (s : State) (o : AuthOp) (bs : List Byte), s.sec.op = some o → o.executing = true → o.op = 4 →
    s.authBytes (o.arg 1) (o.arg 2) = some bs → Completes (.authDone true) s (fun t => t.sec.op = none ∧
      (crc 0 bs = o.arg 3 → SMap.get (fun _ => none) t.sec.region.userCal (o.arg 0) = some bs ∧
        t.rd .auth R.AUTH_CMD.last_status = 0) ∧
      (crc 0 bs ≠ o.arg 3 → t.sec.region = s.sec.region ∧ t.rd .auth R.AUTH_CMD.last_status = 6))) ∧
  (∀ (s : State) (o : AuthOp), s.sec.op = some o → o.executing = true → (o.op = 1 ∨ o.op = 2 ∨ o.op = 3) →
    Completes (.authDone false) s (fun t => t.sec = { s.sec with op := none } ∧ t.rd .auth R.AUTH_CMD.last_status = 6 ∧
      t.mem = s.mem ∧ SameOutside .auth s t)) ∧
  (∀ (s : State) (o : AuthOp) (img bs : List Byte), s.sec.op = some o → o.executing = true → o.op = 5 →
    s.authBytes (o.arg 0) (o.arg 1) = some bs → imageCheck bs true = 0 → img = imageWithCounter bs (s.rd .clocks R.BOOT_COUNTER.counter + 1) →
    Completes (.authDone true) s (fun t => (s.rd .clocks R.BOOT_STATUS.booted = 0 → t.sec.imageB = some img ∧
        t.sec.imageA = s.sec.imageA) ∧ (s.rd .clocks R.BOOT_STATUS.booted ≠ 0 → t.sec.imageA = some img ∧
        t.sec.imageB = s.sec.imageB) ∧ t.sec.op = none ∧ t.rd .auth R.AUTH_CMD.last_status = 0 ∧ t.mem = s.mem ∧
      SameOutside .auth s t)) ∧
  (∀ (s : State) (o : AuthOp) (f : Bool) (bs : List Byte), s.sec.op = some o → o.executing = true → o.op = 6 →
    s.authBytes (o.arg 0) (o.arg 1) = some bs → crc 0 bs = o.arg 2 → Completes (.authDone f) s (fun t =>
      t.sec = { s.sec with op := none } ∧ t.rd .auth R.AUTH_CMD.last_status = 0 ∧ t.mem = s.mem ∧ SameExcept [.auth, .clocks] s t)) ∧
  (∀ (s : State) (o : AuthOp) (f : Bool) (bs : List Byte), s.sec.op = some o → o.executing = true → o.op = 6 →
    s.authBytes (o.arg 0) (o.arg 1) = some bs → crc 0 bs ≠ o.arg 2 → Completes (.authDone f) s (fun t =>
      t.sec = { s.sec with op := none } ∧ t.rd .auth R.AUTH_CMD.last_status = 6 ∧ t.mem = s.mem ∧ SameOutside .auth s t)) ∧
  (∀ (s : State) (o : AuthOp) (f : Bool), s.sec.op = some o → o.executing = true → o.op = 7 → o.arg 0 = s.sec.lc.toNat + 1 →
    o.arg 0 ≤ 3 → s.flag .auth R.AUTH_TAMPER.open_ = false → Completes (.authDone f) s (fun t => t.sec.lc.toNat = o.arg 0 ∧
      t.rd .auth R.AUTH_LC.lc_state = o.arg 0 ∧ t.sec.region = Region.empty ∧ t.sec.copy0 = none ∧ t.sec.copy1 = none ∧
      t.sec.op = none ∧ t.rd .auth R.AUTH_CMD.last_status = 0)) ∧
  (∀ (s : State) (o : AuthOp) (f : Bool), s.sec.op = some o → o.executing = true → o.op = 8 → Completes (.authDone f) s (fun t =>
      t.sec = { s.sec with extest := true, op := none } ∧ t.rd .auth R.AUTH_CMD.last_status = 0 ∧ t.mem = s.mem ∧
      SameOutside .auth s t)) ∧
  (∀ (s : State) (o : AuthOp) (f : Bool), s.sec.op = some o → o.executing = true → o.op = 9 → Completes (.authDone f) s (fun t =>
      t.sec.region = Region.empty ∧ t.sec.copy0 = none ∧ t.sec.copy1 = none ∧ t.sec.op = none ∧
      t.rd .depot R.DEPOT_FAULT.secure_wiped = 1 ∧ t.rd .auth R.AUTH_CMD.last_status = 0)) ∧
  (∀ s : State, s.dev ≠ .off → s.armed = true → s.flag .auth R.AUTH_TAMPER.open_ = false → Completes .tamperOpen s (fun t =>
      t.rd .auth R.AUTH_TAMPER.open_ = 1 ∧ t.sec.region = Region.empty ∧ t.sec.copy0 = none ∧ t.sec.copy1 = none ∧ t.sec.op = none ∧
      t.rd .auth R.AUTH_TAMPER.events = min (s.rd .auth R.AUTH_TAMPER.events + 1) 65535 ∧
      t.rd .auth R.AUTH_REGION.wipes = min (s.rd .auth R.AUTH_REGION.wipes + 1) 65535 ∧
      (s.sec.op ≠ none → t.rd .auth R.AUTH_CMD.last_status = 5))) ∧
  (∀ s : State, s.dev ≠ .off → s.armed = false → Completes .tamperOpen s (fun t => t.rd .auth R.AUTH_TAMPER.open_ = 1 ∧ t.sec = s.sec ∧ t.mem = s.mem ∧
      SameOutside .auth s t)) ∧
  (∀ s : State, s.dev ≠ .off → Completes .tamperClosed s (fun t => t.rd .auth R.AUTH_TAMPER.open_ = 0 ∧ t.sec = s.sec ∧ t.mem = s.mem ∧
      SameOutside .auth s t)) ∧
  (∀ (s : State) (v : Bool), s.dev ≠ .off → s.dev ≠ .boot → 2 ≤ s.sec.lc.toNat → Completes (.tamperArm v) s (fun t =>
      t.rd .auth R.AUTH_TAMPER.arm = s.rd .auth R.AUTH_TAMPER.arm ∧ t.rd .auth R.BLOCK_STATUS.locked_write = 1 ∧
      t.rd .auth R.AUTH_COUNTS.locked = min (s.rd .auth R.AUTH_COUNTS.locked + 1) 65535 ∧ t.sec = s.sec ∧ t.mem = s.mem ∧
      SameOutside .auth s t)) ∧
  (∀ (s : State) (v : Bool), s.dev ≠ .off → s.dev ≠ .boot → s.sec.lc.toNat < 2 → s.flag .auth R.AUTH_TAMPER.open_ = false → Completes (.tamperArm v) s (fun t =>
      t.rd .auth R.AUTH_TAMPER.arm = (if v then 1 else 0) ∧ t.sec = s.sec ∧ t.mem = s.mem ∧ SameOutside .auth s t)) ∧
  (∀ s : State, s.dev ≠ .off → s.dev ≠ .boot → s.sec.lc.toNat < 2 → s.flag .auth R.AUTH_TAMPER.open_ = true → s.flag .auth R.AUTH_TAMPER.arm = false →
    Completes (.tamperArm true) s (fun t => t.rd .auth R.AUTH_TAMPER.arm = 1 ∧ t.sec.region = Region.empty ∧
      t.rd .auth R.AUTH_TAMPER.events = min (s.rd .auth R.AUTH_TAMPER.events + 1) 65535))

/-! ### Observation, the test access port and housekeeping (R401 to R414) -/

/-- The trace and the test access port: a time mark is an entry at trace_head, enabling the trace clears its head, EXTEST is refused from
FIELD on without its permit and else puts the boundary register on the covered balls (MUSTER_OUT has cells 6 to 8), the others being released, IDCODE and BYPASS answer, OBSREAD reads the four observable blocks and refuses the others
(R403 to R406). -/
def Obligations.ObservationAndJtag : Prop :=
  (∀ s : State, s.coreRuns = true → s.flag .observe R.OBS_CTRL.trace_enable = true → s.flag .observe R.OBS_STATUS.stopped = false →
    s.obs.lost = 0 → s.slotTaken = false → s.obs.markAt + 2 ^ 20 ≤ s.obs.cycle → Completes .timeMark s (fun t =>
      (SMap.get (fun _ => 0) t.obs.trace (s.rd .observe R.OBS_STATUS.trace_head)).toNat =
        s.rd .observe R.OBS_CYCLES.count % 2 ^ 48 + 2 ^ 48 + 0xFF * 2 ^ 56 + markArg s.nowT96 % 2 ^ 64 * 2 ^ 64 ∧
      t.rd .observe R.OBS_STATUS.trace_head = (s.rd .observe R.OBS_STATUS.trace_head + 1) % 4096 ∧
      t.rd .observe R.OBS_COUNTS.trace_records = min (s.rd .observe R.OBS_COUNTS.trace_records + 1) (2 ^ 32 - 1) ∧
      (t.flag .observe R.OBS_STATUS.stopped = (decide (s.rd .observe R.OBS_STATUS.trace_head = 4095) &&
        !s.flag .observe R.OBS_CTRL.trace_wrap)) ∧ t.obs.markAt = s.obs.markAt + 2 ^ 20 ∧ t.mem = s.mem ∧ SameOutside .observe s t)) ∧
  (∀ s : State, (s.coreRuns = false ∨ s.flag .observe R.OBS_CTRL.trace_enable = false ∨ s.obs.cycle < s.obs.markAt + 2 ^ 20) →
    Completes .timeMark s (fun t => t = s)) ∧
  (∀ s : State, s.dev ≠ .off → s.dev ≠ .boot → s.flag .observe R.OBS_CTRL.trace_enable = false → Completes .traceEnable s (fun t => t.rd .observe R.OBS_CTRL.trace_enable = 1 ∧
      t.rd .observe R.OBS_STATUS.trace_head = 0 ∧ t.rd .observe R.OBS_STATUS.full = 0 ∧ t.rd .observe R.OBS_STATUS.stopped = 0 ∧
      t.obs.lost = 0 ∧ t.obs.trace = s.obs.trace ∧ t.mem = s.mem ∧ SameOutside .observe s t)) ∧
  (∀ s : State, (s.sec.lc.toNat < 2 ∨ s.sec.extest = true) → Completes .extest s (fun t => t.obs = { s.obs with jtagIr := 0 } ∧
      t.drives .musterOut = (if s.obs.boundary.getLsbD 8 then .level (s.obs.boundary.getLsbD 7) else .highZ) ∧
      t.drives (.epochOut false) = .highZ ∧ t.regs = s.regs ∧ t.mem = s.mem)) ∧
  (∀ s : State, 2 ≤ s.sec.lc.toNat → s.sec.extest = false → Completes .extest s (fun t => t.obs = { s.obs with jtagIr := 0x3F } ∧
      t.rd .observe R.OBS_JTAG.extest_refused = min (s.rd .observe R.OBS_JTAG.extest_refused + 1) (R.OBS_JTAG.extest_refused).top ∧
      t.mem = s.mem ∧ SameOutside .observe s t)) ∧
  (∀ (s : State) (x : BitVec 3993), Completes (.samplePreload x) s (fun t => t.obs.boundary = x ∧ t.obs.jtagIr = 1 ∧
      t.regs = s.regs ∧ t.mem = s.mem)) ∧
  (∀ s : State, Completes .idcode s (fun t => t.obs.jtagIr = 2 ∧ t.obs.jtagDr = 0x25120A6F ∧ t.obs.boundary = s.obs.boundary ∧
      t.regs = s.regs ∧ t.mem = s.mem)) ∧
  (∀ s : State, Completes .bypass s (fun t => t.obs.jtagIr = 0x3F ∧ t.obs.boundary = s.obs.boundary ∧ t.regs = s.regs ∧
      t.mem = s.mem)) ∧
  (∀ (s : State) (b : Blk) (a : BitVec 26), b ∈ [Blk.global, Blk.clocks, Blk.observe, Blk.auth] → a.toNat = b.base → s.dev ≠ .off →
    Completes (.obsread a) s (fun t => t.obs.jtagIr = 0x10 ∧ t.obs.jtagDr = BitVec.ofNat 96 ((s.word b.base).toNat + 2 ^ 64) ∧
      t.rd .observe R.OBS_JTAG.obsreads = min (s.rd .observe R.OBS_JTAG.obsreads + 1) (R.OBS_JTAG.obsreads).top ∧ t.mem = s.mem ∧
      SameOutside .observe s t)) ∧
  (∀ (s : State) (b : Blk) (o : Nat) (x : RegAt) (a : BitVec 26), accessAt a.toNat 64 = some (b, o, x) →
    b ∉ [Blk.global, Blk.clocks, Blk.observe, Blk.auth] → s.dev ≠ .off → Completes (.obsread a) s (fun t =>
      t.obs.jtagDr = BitVec.ofNat 96 (3 * 2 ^ 64) ∧
      t.rd .observe R.OBS_JTAG.refused = min (s.rd .observe R.OBS_JTAG.refused + 1) (R.OBS_JTAG.refused).top ∧ t.mem = s.mem ∧
      SameOutside .observe s t))

/-- The converters: a conversion delivers its corrected reading and the pass goes on, an overload is passed as it is, the common channel is
compared between the converters; an urgent conversion is taken once a pass and delivers in place of the scan, two requests of
one HK cycle being one (R408 to R413). -/
def Obligations.Housekeeping : Prop :=
  (∀ (s : State) (v : Fin 2) (c : Nat) (cs : List Nat) (x : BitVec 24) (eng : BitVec 16), s.dev ≠ .off → s.hk.urgent = false →
    (s.hk.conv[v]).todo = c :: cs → cs ≠ [] → c < 15 → Completes (.conversion v x false eng) s (fun t =>
      t.rdi .housekeeping (R.HK_RESULT.value v c) = s.hkCorrect v c x.toInt ∧ t.rd .housekeeping (R.HK_RESULT.ovr v c) = 0 ∧
      t.rd .housekeeping (R.HK_RESULT.valid v c) = (if s.hkValid v then 1 else 0) ∧
      t.rd .housekeeping (R.HK_RESULT.pass v c) = (s.hk.conv[v]).pass % 2 ^ 32 ∧ (t.hk.conv[v]).todo = cs ∧
      (t.hk.conv[v]).pass = (s.hk.conv[v]).pass ∧ t.rd .housekeeping (hkChan v) = cs.headD 8 % 16 ∧ t.mem = s.mem)) ∧
  (∀ (s : State) (v : Fin 2) (c : Nat) (cs : List Nat) (x : BitVec 24) (eng : BitVec 16), s.dev ≠ .off → s.hk.urgent = false →
    (s.hk.conv[v]).todo = c :: cs → cs ≠ [] → c < 15 → Completes (.conversion v x true eng) s (fun t =>
      t.rdi .housekeeping (R.HK_RESULT.value v c) = (if x.toInt < 0 then -0x800000 else 0x7FFFFF) ∧ t.rd .housekeeping (R.HK_RESULT.ovr v c) = 1 ∧
      t.rd .housekeeping (R.HK_RESULT.valid v c) = 0 ∧
      t.rd .housekeeping R.HK_COUNTS.ovr_events = min (s.rd .housekeeping R.HK_COUNTS.ovr_events + 1) 65535 ∧
      (s.enabled .housekeeping = true → nbit (t.rd .housekeeping R.HK_ALARM.bits) (16 * v + c) = true) ∧
      (t.hk.conv[v]).todo = cs ∧ t.mem = s.mem)) ∧
  (∀ (s : State) (v w : Fin 2) (x : BitVec 24) (eng : BitVec 16) (y z : Int) (u : Nat), s.dev ≠ .off → s.hk.urgent = false →
    (s.hk.conv[v]).todo = [15] → v ≠ w → (s.hk.conv[w]).last15 = some (z, u) → s.tim.raw ≤ u + 100 * msUnits →
    y = s.hkCorrect v 15 x.toInt → Completes (.conversion v x false eng) s (fun t =>
      ((y - z).natAbs ≤ s.rd .housekeeping R.HK_CFG.plaus_limit → t.rd .housekeeping (hkCheck v) = 1 ∧
        t.rd .housekeeping (hkCheck w) = 1 ∧ t.rd .housekeeping (R.HK_RESULT.valid v 15) = 1) ∧
      (s.rd .housekeeping R.HK_CFG.plaus_limit < (y - z).natAbs → t.rd .housekeeping (hkCheck v) = 2 ∧
        t.rd .housekeeping (hkCheck w) = 2 ∧ t.rd .housekeeping (R.HK_RESULT.valid v 15) = 0 ∧
        t.rd .housekeeping R.HK_COUNTS.plaus_mismatches = min (s.rd .housekeeping R.HK_COUNTS.plaus_mismatches + 1) 65535) ∧
      (t.hk.conv[v]).pass = ((s.hk.conv[v]).pass + 1) % 2 ^ 32 ∧ (t.hk.conv[v]).todo = s.hkUsers v ++ [8, 9, 10, 11, 12, 13, 14, 15] ∧
      t.mem = s.mem)) ∧
  (∀ (s : State) (v : Fin 2) (x : BitVec 24) (eng : BitVec 16), s.dev ≠ .off → s.hk.urgent = true → s.hk.urgentConv = v →
    s.hk.urgentChan < 15 → (s.hk.conv[v]).todo ≠ [] → Completes (.conversion v x false eng) s (fun t =>
      t.rdi .housekeeping R.HK_URGENT.value = s.hkCorrect v s.hk.urgentChan x.toInt ∧ t.rd .housekeeping R.HK_URGENT.ovr = 0 ∧
      t.rd .housekeeping R.HK_URGENT.channel = s.hk.urgentChan ∧ t.rd .housekeeping R.HK_URGENT.converter = v.val ∧
      t.hk.urgent = false ∧ t.rd .housekeeping R.HK_CTRL.urgent = 0 ∧ t.rd .housekeeping R.HK_CTRL.last_status = 0 ∧
      (t.hk.conv[v]).todo = (s.hk.conv[v]).todo ∧ t.mem = s.mem)) ∧
  (∀ (s : State) (v : Fin 2) (o : BitVec 24) (g : BitVec 32), Completes (.hkCalibration v o g) s (fun t =>
      t.rd .housekeeping (R.HK_CAL.off v) = o.toNat ∧ t.rd .housekeeping (R.HK_CAL.gain v) = g.toNat ∧ t.hk = s.hk ∧ t.mem = s.mem ∧
      SameOutside .housekeeping s t)) ∧
  (∀ p ∈ ([(.urgentRequest true, 1), (.urgentRequest false, 1), (.urgent, 2)] : List (Instr × Nat)), ∀ (s : State) (v : Fin 2),
    s.dev ≠ .off → s.dev ≠ .boot → s.sameRequest p.2 = false →
    (∀ b, p.1 = .urgentRequest b → s.flag .housekeeping R.HK_CFG.start_edge = b) → s.hk.urgent = false →
    v = Fin.ofNat 2 (s.rd .housekeeping R.HK_CFG.urgent_conv) →
    (s.enabled .housekeeping = true → s.flag .housekeeping R.BLOCK_STATUS.quiescing = false → (s.hk.conv[v]).urgentDone = false →
      Completes p.1 s (fun t => t.hk.urgent = true ∧ t.hk.urgentConv = v ∧
        t.hk.urgentChan = s.rd .housekeeping R.HK_CFG.urgent_chan ∧ t.rd .housekeeping R.HK_CTRL.urgent = 1 ∧
        t.rd .housekeeping R.HK_CTRL.urgent_src = p.2 ∧ t.rd .housekeeping R.HK_CTRL.last_status = 1 ∧
        (t.hk.conv[v]).urgentDone = true ∧ t.rdw .housekeeping 0x210 = s.nowT96.toNat % 2 ^ 64 ∧ t.mem = s.mem ∧
        SameOutside .housekeeping s t)) ∧
    ((s.enabled .housekeeping = false ∨ s.flag .housekeeping R.BLOCK_STATUS.quiescing = true ∨ (s.hk.conv[v]).urgentDone = true) →
      Completes p.1 s (fun t => t.hk.conv = s.hk.conv ∧ t.hk.urgent = false ∧ t.rd .housekeeping R.HK_CTRL.urgent = 0 ∧
        t.rd .housekeeping R.HK_CTRL.last_status = 2 ∧
        t.rd .housekeeping R.HK_COUNTS.urgent_dropped = min (s.rd .housekeeping R.HK_COUNTS.urgent_dropped + 1) 65535 ∧ t.mem = s.mem ∧
        SameOutside .housekeeping s t))) ∧
  (∀ s : State, s.dev ≠ .off → s.dev ≠ .boot → s.sameRequest 2 = true → s.hk.urgent = true → Completes .urgent s (fun t =>
      t.rd .housekeeping R.HK_CTRL.urgent_src = Nat.lor s.hk.urgentSrc 2 % 4 ∧ t.hk.conv = s.hk.conv ∧ t.mem = s.mem ∧
      SameOutside .housekeeping s t)) ∧
  (∀ (s : State) (b : Bool), s.flag .housekeeping R.HK_CFG.start_edge ≠ b → Completes (.urgentRequest b) s (fun t => t = s))
end

