-- ==== Sys2Proof/Laws/Balls.lean ====
section
/-!
SUPPORT. Sys2Proof/Laws/Balls.lean: what a ball shows, with EXTEST in the instruction register and without it.
-/
namespace Sys2Proof.Machine
open Sys2Proof

/-- MUSTER_OUT is the third covered ball of the array. -/
theorem cell_musterOut : Pin.cell .musterOut = some 6 := by decide +kernel

/-- EPOCH_OUT has no cells. -/
theorem cell_epochOut : Pin.cell (.epochOut false) = none := by decide +kernel

/-- Outside EXTEST the functions drive every ball. -/
theorem drives_functional (s : State) (p : Pin) (h : s.inExtest = false) : s.drives p = s.functional p := by
  simp [State.drives, h]

/-- In EXTEST a ball without cells is released. -/
theorem drives_uncovered (s : State) (p : Pin) (h : s.inExtest = true) (hc : p.cell = none) : s.drives p = .highZ := by
  simp [State.drives, h, hc]

/-- In EXTEST a covered ball that is not an input takes its output cell where its enable cell is 1. -/
theorem drives_cell (s : State) (p : Pin) (b : Nat) (h : s.inExtest = true) (hc : p.cell = some b) (hi : p.inputOnly = false) :
    s.drives p = if s.obs.boundary.getLsbD (b + 2) then .level (s.obs.boundary.getLsbD (b + 1)) else .highZ := by
  simp [State.drives, h, hc, hi]

end Sys2Proof.Machine
end

