-- ==== Sys2Proof/Laws/SMap.lean ====
section
/-!
SUPPORT. Sys2Proof/Laws/SMap.lean: the laws of sparse storage: a read after a write, and the canonical form that every write,
removal and restriction keeps.
-/
namespace Sys2Proof.Laws
open Sys2Proof Sys2Proof.Machine
variable {α : Type}

theorem get_erase_self (d : Nat → α) (m : SMap α) (k : Nat) : SMap.get d (SMap.erase m k) k = d k := by
  induction m with
  | nil => rfl
  | cons p m ih =>
    obtain ⟨a, v⟩ := p
    by_cases h : k = a
    · simp [SMap.erase, h]; rw [← h]; exact ih
    · simp [SMap.erase, SMap.get, h, ih]

theorem get_erase_ne (d : Nat → α) (m : SMap α) {k j : Nat} (h : j ≠ k) : SMap.get d (SMap.erase m k) j = SMap.get d m j := by
  induction m with
  | nil => rfl
  | cons p m ih =>
    obtain ⟨a, v⟩ := p
    by_cases hk : k = a
    · have : j ≠ a := fun e => h (e.trans hk.symm)
      simp [SMap.erase, SMap.get, hk, this]
      rw [← hk]; exact ih
    · by_cases hj : j = a
      · subst hj; simp [SMap.erase, SMap.get, hk]
      · simp [SMap.erase, SMap.get, hk, hj, ih]

theorem get_insert_ne (d : Nat → α) (m : SMap α) (v : α) {k j : Nat} (h : j ≠ k) :
    SMap.get d (SMap.insert m k v) j = SMap.get d m j := by
  induction m with
  | nil => simp [SMap.insert, SMap.get, h]
  | cons p m ih =>
    obtain ⟨a, w⟩ := p
    by_cases hk : k < a
    · simp [SMap.insert, SMap.get, hk, h]
    · by_cases hj : j = a
      · subst hj; simp [SMap.insert, SMap.get, hk]
      · simp [SMap.insert, SMap.get, hk, hj, ih]

theorem get_insert_self (d : Nat → α) (m : SMap α) (k : Nat) (v : α) (h : SMap.has m k = false) :
    SMap.get d (SMap.insert m k v) k = v := by
  induction m with
  | nil => simp [SMap.insert, SMap.get]
  | cons p m ih =>
    obtain ⟨a, w⟩ := p
    simp only [SMap.has, Bool.or_eq_false_iff, decide_eq_false_iff_not] at h
    by_cases hk : k < a
    · simp [SMap.insert, SMap.get, hk]
    · simp [SMap.insert, SMap.get, hk, h.1, ih h.2]

theorem has_erase_self (m : SMap α) (k : Nat) : SMap.has (SMap.erase m k) k = false := by
  induction m with
  | nil => rfl
  | cons p m ih =>
    obtain ⟨a, v⟩ := p
    by_cases h : k = a
    · simp only [SMap.erase, if_pos h]; exact ih
    · simp [SMap.erase, SMap.has, h, ih]

/-- A read after a write: the written value at the written key, what stood there at any other. -/
theorem get_set [DecidableEq α] (d : Nat → α) (m : SMap α) (k : Nat) (v : α) (j : Nat) :
    SMap.get d (SMap.set d m k v) j = if j = k then v else SMap.get d m j := by
  unfold SMap.set
  by_cases h : j = k
  · subst h
    by_cases hv : v = d j
    · simp [hv, get_erase_self]
    · simp [hv, get_insert_self d _ j v (has_erase_self m j)]
  · by_cases hv : v = d k
    · simp [hv, h, get_erase_ne d m h]
    · simp [hv, h, get_insert_ne d _ v h, get_erase_ne d m h]

theorem get_set_self [DecidableEq α] (d : Nat → α) (m : SMap α) (k : Nat) (v : α) : SMap.get d (SMap.set d m k v) k = v := by
  simp [get_set]

theorem get_set_ne [DecidableEq α] (d : Nat → α) (m : SMap α) (v : α) {k j : Nat} (h : j ≠ k) :
    SMap.get d (SMap.set d m k v) j = SMap.get d m j := by simp [get_set, h]

/-! ### The canonical form -/

theorem rising_mono {lo lo' : Nat} (h : lo' ≤ lo) (m : SMap α) : SMap.rising (some lo) m = true → SMap.rising (some lo') m = true := by
  cases m with
  | nil => exact fun h => h
  | cons p m =>
    simp only [SMap.rising, Bool.and_eq_true, decide_eq_true_eq]
    exact fun x => ⟨lt_of_le_of_lt h x.1, x.2⟩

theorem rising_none_of_some {lo : Nat} (m : SMap α) : SMap.rising (some lo) m = true → SMap.rising none m = true := by
  cases m with
  | nil => exact fun h => h
  | cons p m =>
    simp only [SMap.rising, Bool.and_eq_true]
    exact fun x => x.2

theorem rising_erase_some (m : SMap α) (k : Nat) : ∀ lo, SMap.rising (some lo) m = true → SMap.rising (some lo) (SMap.erase m k) = true := by
  induction m with
  | nil => exact fun _ h => h
  | cons p m ih =>
    obtain ⟨a, v⟩ := p
    intro lo h
    simp only [SMap.rising, Bool.and_eq_true, decide_eq_true_eq] at h
    by_cases hk : k = a
    · simp only [SMap.erase, if_pos hk]
      exact rising_mono (le_of_lt h.1) _ (ih a h.2)
    · simp only [SMap.erase, if_neg hk, SMap.rising, Bool.and_eq_true, decide_eq_true_eq]
      exact ⟨h.1, ih a h.2⟩

theorem rising_erase (m : SMap α) (k : Nat) (h : SMap.rising none m = true) : SMap.rising none (SMap.erase m k) = true := by
  cases m with
  | nil => exact h
  | cons p m =>
    obtain ⟨a, v⟩ := p
    simp only [SMap.rising] at h
    by_cases hk : k = a
    · simp only [SMap.erase, if_pos hk]
      exact rising_none_of_some _ (rising_erase_some m k a h)
    · simp only [SMap.erase, if_neg hk, SMap.rising]
      exact rising_erase_some m k a h

theorem rising_insert_some (m : SMap α) (k : Nat) (v : α) : ∀ lo, lo < k → SMap.rising (some lo) m = true →
    SMap.has m k = false → SMap.rising (some lo) (SMap.insert m k v) = true := by
  induction m with
  | nil => intro lo h _ _; simp [SMap.insert, SMap.rising, h]
  | cons p m ih =>
    obtain ⟨a, w⟩ := p
    intro lo hlo h hh
    simp only [SMap.rising, Bool.and_eq_true, decide_eq_true_eq] at h
    simp only [SMap.has, Bool.or_eq_false_iff, decide_eq_false_iff_not] at hh
    by_cases hk : k < a
    · simp [SMap.insert, hk, SMap.rising, hlo, h.2]
    · have ha : a < k := by omega
      simp only [SMap.insert, if_neg hk, SMap.rising, Bool.and_eq_true, decide_eq_true_eq]
      exact ⟨h.1, ih a ha h.2 hh.2⟩

theorem rising_insert (m : SMap α) (k : Nat) (v : α) (h : SMap.rising none m = true) (hh : SMap.has m k = false) :
    SMap.rising none (SMap.insert m k v) = true := by
  cases m with
  | nil => rfl
  | cons p m =>
    obtain ⟨a, w⟩ := p
    simp only [SMap.rising] at h
    simp only [SMap.has, Bool.or_eq_false_iff, decide_eq_false_iff_not] at hh
    by_cases hk : k < a
    · simp [SMap.insert, hk, SMap.rising, h]
    · have ha : a < k := by omega
      simp only [SMap.insert, if_neg hk, SMap.rising]
      exact rising_insert_some m k v a ha h hh.2

theorem lean_erase [DecidableEq α] (d : Nat → α) (m : SMap α) (k : Nat) (h : SMap.lean d m = true) :
    SMap.lean d (SMap.erase m k) = true := by
  induction m with
  | nil => rfl
  | cons p m ih =>
    obtain ⟨a, v⟩ := p
    simp only [SMap.lean, Bool.and_eq_true] at h
    by_cases hk : k = a
    · simp only [SMap.erase, if_pos hk]; exact ih h.2
    · simp only [SMap.erase, if_neg hk, SMap.lean, Bool.and_eq_true]; exact ⟨h.1, ih h.2⟩

theorem lean_insert [DecidableEq α] (d : Nat → α) (m : SMap α) (k : Nat) (v : α) (hv : v ≠ d k) (h : SMap.lean d m = true) :
    SMap.lean d (SMap.insert m k v) = true := by
  induction m with
  | nil => simp [SMap.insert, SMap.lean, hv]
  | cons p m ih =>
    obtain ⟨a, w⟩ := p
    by_cases hk : k < a
    · simp only [SMap.insert, if_pos hk, SMap.lean, Bool.and_eq_true, decide_eq_true_eq]
      simp only [SMap.lean, Bool.and_eq_true, decide_eq_true_eq] at h
      exact ⟨hv, h⟩
    · simp only [SMap.lean, Bool.and_eq_true] at h
      simp only [SMap.insert, if_neg hk, SMap.lean, Bool.and_eq_true]
      exact ⟨h.1, ih h.2⟩

theorem wf_erase [DecidableEq α] (d : Nat → α) (m : SMap α) (k : Nat) (h : SMap.wf d m = true) : SMap.wf d (SMap.erase m k) = true := by
  simp only [SMap.wf, Bool.and_eq_true] at h ⊢
  exact ⟨rising_erase m k h.1, lean_erase d m k h.2⟩

/-- A write keeps the canonical form. -/
theorem wf_set [DecidableEq α] (d : Nat → α) (m : SMap α) (k : Nat) (v : α) (h : SMap.wf d m = true) :
    SMap.wf d (SMap.set d m k v) = true := by
  unfold SMap.set
  split
  · exact wf_erase d m k h
  · rename_i hv
    have e := wf_erase d m k h
    simp only [SMap.wf, Bool.and_eq_true] at e ⊢
    exact ⟨rising_insert _ k v e.1 (has_erase_self m k), lean_insert d _ k v hv e.2⟩

theorem rising_filter_some (m : SMap α) (q : Nat × α → Bool) : ∀ lo, SMap.rising (some lo) m = true →
    SMap.rising (some lo) (m.filter q) = true := by
  induction m with
  | nil => exact fun _ h => h
  | cons p m ih =>
    intro lo h
    simp only [SMap.rising, Bool.and_eq_true, decide_eq_true_eq] at h
    by_cases hq : q p = true
    · simp only [List.filter_cons, if_pos hq, SMap.rising, Bool.and_eq_true, decide_eq_true_eq]
      exact ⟨h.1, ih _ h.2⟩
    · simp only [List.filter_cons, if_neg hq]
      exact rising_mono (le_of_lt h.1) _ (ih _ h.2)

theorem rising_filter (m : SMap α) (q : Nat × α → Bool) (h : SMap.rising none m = true) : SMap.rising none (m.filter q) = true := by
  cases m with
  | nil => rfl
  | cons p m =>
    simp only [SMap.rising] at h
    by_cases hq : q p = true
    · simp only [List.filter_cons, if_pos hq, SMap.rising]; exact rising_filter_some m q _ h
    · simp only [List.filter_cons, if_neg hq]; exact rising_none_of_some _ (rising_filter_some m q _ h)

theorem lean_filter [DecidableEq α] (d : Nat → α) (m : SMap α) (q : Nat × α → Bool) (h : SMap.lean d m = true) :
    SMap.lean d (m.filter q) = true := by
  induction m with
  | nil => rfl
  | cons p m ih =>
    simp only [SMap.lean, Bool.and_eq_true] at h
    by_cases hq : q p = true
    · simp only [List.filter_cons, if_pos hq, SMap.lean, Bool.and_eq_true]; exact ⟨h.1, ih h.2⟩
    · simp only [List.filter_cons, if_neg hq]; exact ih h.2

/-- Keeping only some of the entries keeps the canonical form. -/
theorem wf_filter [DecidableEq α] (d : Nat → α) (m : SMap α) (q : Nat × α → Bool) (h : SMap.wf d m = true) :
    SMap.wf d (m.filter q) = true := by
  simp only [SMap.wf, Bool.and_eq_true] at h ⊢
  exact ⟨rising_filter m q h.1, lean_filter d m q h.2⟩

theorem wf_nil [DecidableEq α] (d : Nat → α) : SMap.wf d ([] : SMap α) = true := rfl

/-! ### Bytes of the memories -/

/-- Writing bytes keeps the canonical form. -/
theorem wf_memWrite (bs : List Byte) : ∀ (m : SMap Byte) (a : Nat), SMap.wf zeroByte m = true → SMap.wf zeroByte (memWrite m a bs) = true := by
  induction bs with
  | nil => exact fun _ _ h => h
  | cons b bs ih => exact fun m a h => ih _ _ (wf_set _ _ _ _ h)

/-- Writing the enabled bytes keeps the canonical form. -/
theorem wf_memWriteOpt (bs : List (Option Byte)) : ∀ (m : SMap Byte) (a : Nat), SMap.wf zeroByte m = true →
    SMap.wf zeroByte (memWriteOpt m a bs) = true := by
  induction bs with
  | nil => exact fun _ _ h => h
  | cons b bs ih =>
    intro m a h
    cases b with
    | none => exact ih _ _ h
    | some b => exact ih _ _ (wf_set _ _ _ _ h)

/-- A byte outside the written range reads as before. -/
theorem get_memWrite_out (bs : List Byte) : ∀ (m : SMap Byte) (a x : Nat), x < a ∨ a + bs.length ≤ x →
    SMap.get zeroByte (memWrite m a bs) x = SMap.get zeroByte m x := by
  induction bs with
  | nil => exact fun _ _ _ _ => rfl
  | cons b bs ih =>
    intro m a x h
    simp only [List.length_cons] at h
    rw [memWrite, ih _ _ _ (by omega), get_set_ne _ _ _ (by omega)]

/-- A byte of the written range reads as the byte written there. -/
theorem get_memWrite_in (bs : List Byte) : ∀ (m : SMap Byte) (a i : Nat) (h : i < bs.length),
    SMap.get zeroByte (memWrite m a bs) (a + i) = bs[i] := by
  induction bs with
  | nil => intro m a i h; simp at h
  | cons b bs ih =>
    intro m a i h
    cases i with
    | zero => rw [memWrite, get_memWrite_out _ _ _ _ (by omega)]; simp [get_set]
    | succ i =>
      have := ih (SMap.set zeroByte m a b) (a + 1) i (by simpa using h)
      rw [memWrite, show a + (i + 1) = a + 1 + i by omega, this]; simp

end Sys2Proof.Laws
end

