-- ==== Sys2Proof/Laws/Fields.lean ====
section
/-!
SUPPORT. Sys2Proof/Laws/Fields.lean: what a read of a register field sees after a write of a field, of a word or of a counter.
-/
namespace Sys2Proof.Laws
open Sys2Proof Sys2Proof.Machine

theorem testBit_get (f : Fld) (w : Word) (i : Nat) :
    (f.get w).testBit i = (decide (i < f.width) && w.getLsbD (f.lo + i)) := by
  simp [Fld.get, Nat.testBit_mod_two_pow, BitVec.getLsbD]

/-- A field fits its word. -/
def fits (f : Fld) : Prop := f.lo + f.width ≤ 64

/-- Two fields of one word share no bit. -/
def apart (f g : Fld) : Prop := f.lo + f.width ≤ g.lo ∨ g.lo + g.width ≤ f.lo

theorem getLsbD_put (f : Fld) (w : Word) (v i : Nat) (hi : i < 64) :
    (f.put w v).getLsbD i = if f.lo ≤ i ∧ i < f.lo + f.width then v.testBit (i - f.lo) else w.getLsbD i := by
  unfold Fld.put
  simp only [BitVec.getLsbD_or, BitVec.getLsbD_and, BitVec.getLsbD_not, BitVec.getLsbD_shiftLeft, BitVec.getLsbD_ofNat,
    Nat.testBit_mod_two_pow, Nat.testBit_two_pow_sub_one, hi, decide_true, Bool.true_and]
  by_cases h1 : i < f.lo
  · have : ¬ (f.lo ≤ i ∧ i < f.lo + f.width) := by omega
    simp [h1, this]
  · by_cases h2 : i < f.lo + f.width
    · have h3 : f.lo ≤ i ∧ i < f.lo + f.width := by omega
      have h4 : i - f.lo < f.width := by omega
      have h5 : i - f.lo < 64 := by omega
      simp [h1, h3, h4, h5]
    · have h3 : ¬ (f.lo ≤ i ∧ i < f.lo + f.width) := by omega
      have h4 : ¬ (i - f.lo < f.width) := by omega
      simp [h3, h4]

/-- A field that was written reads as the low bits of what was written. -/
theorem get_put_self (f : Fld) (w : Word) (v : Nat) (h : fits f) : f.get (f.put w v) = v % 2 ^ f.width := by
  unfold fits at h
  apply Nat.eq_of_testBit_eq
  intro i
  rw [testBit_get, Nat.testBit_mod_two_pow]
  by_cases hi : i < f.width
  · have h1 : f.lo + i < 64 := by omega
    have h2 : f.lo ≤ f.lo + i ∧ f.lo + i < f.lo + f.width := by omega
    rw [getLsbD_put f w v _ h1, if_pos h2]
    simp
  · simp [hi]

/-- A field apart from the one written reads as before. -/
theorem get_put_ne (f g : Fld) (w : Word) (v : Nat) (h : apart f g) : f.get (g.put w v) = f.get w := by
  unfold apart at h
  apply Nat.eq_of_testBit_eq
  intro i
  rw [testBit_get, testBit_get]
  by_cases hi : i < f.width
  · by_cases h64 : f.lo + i < 64
    · have h2 : ¬ (g.lo ≤ f.lo + i ∧ f.lo + i < g.lo + g.width) := by omega
      rw [getLsbD_put g w v _ h64, if_neg h2]
    · rw [BitVec.getLsbD_of_ge _ _ (by omega), BitVec.getLsbD_of_ge _ _ (by omega)]
  · simp [hi]

/-- Every field of the machine is at most as large as its width says. -/
theorem get_lt (f : Fld) (w : Word) : f.get w < 2 ^ f.width := Nat.mod_lt _ (Nat.two_pow_pos _)

theorem word_setWord (s : State) (a : Nat) (w : Word) (b : Nat) : (s.setWord a w).word b = if b = a then w else s.word b := by
  simp [State.word, State.setWord, get_set]

/-- What any field reads as after a write of a field. -/
theorem rd_wr (s : State) (b c : Blk) (f g : Fld) (v : Nat) :
    (s.wr b f v).rd c g
      = if c.base + g.off = b.base + f.off then g.get (f.put (s.word (b.base + f.off)) v) else s.rd c g := by
  unfold State.rd State.wr
  rw [word_setWord]
  split <;> rfl

/-- The field itself. -/
theorem rd_wr_self (s : State) (b : Blk) (f : Fld) (v : Nat) (h : fits f) : (s.wr b f v).rd b f = v % 2 ^ f.width := by
  rw [rd_wr, if_pos rfl, get_put_self f _ v h]

/-- A field of the same word, apart from it. -/
theorem rd_wr_apart (s : State) (b : Blk) (f g : Fld) (v : Nat) (ho : g.off = f.off) (h : apart g f) :
    (s.wr b f v).rd b g = s.rd b g := by
  rw [rd_wr, if_pos (by rw [ho]), get_put_ne g f _ v h]
  unfold State.rd
  rw [ho]

/-- A field of another word. -/
theorem rd_wr_ne (s : State) (b c : Blk) (f g : Fld) (v : Nat) (h : c.base + g.off ≠ b.base + f.off) :
    (s.wr b f v).rd c g = s.rd c g := by
  rw [rd_wr, if_neg h]

theorem word_wr (s : State) (b : Blk) (f : Fld) (v a : Nat) :
    (s.wr b f v).word a = if a = b.base + f.off then f.put (s.word (b.base + f.off)) v else s.word a := by
  unfold State.wr
  rw [word_setWord]

theorem word_wrw (s : State) (b : Blk) (o v a : Nat) :
    (s.wrw b o v).word a = if a = b.base + o then BitVec.ofNat 64 v else s.word a := by
  unfold State.wrw
  rw [word_setWord]

theorem rd_wrw_ne (s : State) (b c : Blk) (o : Nat) (g : Fld) (v : Nat) (h : c.base + g.off ≠ b.base + o) :
    (s.wrw b o v).rd c g = s.rd c g := by
  unfold State.rd
  rw [word_wrw, if_neg h]

theorem rdw_wrw_self (s : State) (b : Blk) (o v : Nat) : (s.wrw b o v).rdw b o = v % 2 ^ 64 := by
  unfold State.rdw
  rw [word_wrw, if_pos rfl, BitVec.toNat_ofNat]

/-- A counter advances and stops at its maximum (R5). -/
theorem rd_cnt_self (s : State) (b : Blk) (f : Fld) (n : Nat) (h : fits f) :
    (s.cnt b f n).rd b f = min (s.rd b f + n) f.top := by
  have hp : 0 < 2 ^ f.width := Nat.two_pow_pos _
  have hl : s.rd b f < 2 ^ f.width := get_lt f _
  unfold State.cnt
  split
  · subst_vars
    unfold Fld.top
    omega
  · rw [rd_wr_self _ _ _ _ h, Nat.mod_eq_of_lt]
    unfold Fld.top
    omega

theorem rd_cnt_ne (s : State) (b c : Blk) (f g : Fld) (n : Nat) (h : c.base + g.off ≠ b.base + f.off) :
    (s.cnt b f n).rd c g = s.rd c g := by
  unfold State.cnt
  split
  · rfl
  · exact rd_wr_ne s b c f g _ h

theorem rd_cnt_apart (s : State) (b : Blk) (f g : Fld) (n : Nat) (ho : g.off = f.off) (h : apart g f) :
    (s.cnt b f n).rd b g = s.rd b g := by
  unfold State.cnt
  split
  · rfl
  · exact rd_wr_apart s b f g _ ho h

/-! ### The register map keeps its canonical form -/

/-- The register map is in canonical form. -/
def regsWf (s : State) : Prop := SMap.wf resetWord s.regs = true

theorem regsWf_setWord (s : State) (a : Nat) (w : Word) (h : regsWf s) : regsWf (s.setWord a w) := wf_set _ _ _ _ h
theorem regsWf_wr (s : State) (b : Blk) (f : Fld) (v : Nat) (h : regsWf s) : regsWf (s.wr b f v) := wf_set _ _ _ _ h
theorem regsWf_wrw (s : State) (b : Blk) (o v : Nat) (h : regsWf s) : regsWf (s.wrw b o v) := wf_set _ _ _ _ h

theorem regsWf_cnt (s : State) (b : Blk) (f : Fld) (n : Nat) (h : regsWf s) : regsWf (s.cnt b f n) := by
  unfold State.cnt
  split
  · exact h
  · exact regsWf_wr _ _ _ _ h

theorem regsWf_fault (s : State) (b : Blk) (f : Fld) (h : regsWf s) : regsWf (s.fault b f) := regsWf_wr _ _ _ _ (regsWf_wr _ _ _ _ h)

theorem regsWf_coreInt (s : State) (i n : Nat) (h : regsWf s) : regsWf (s.coreInt i n) := regsWf_wr _ _ _ _ h

theorem regsWf_when (s : State) (c : Bool) (g : Op) (h : regsWf s) (hg : regsWf (g s)) : regsWf (s.when c g) := by
  unfold State.when
  split
  · exact hg
  · exact h

theorem regsWf_each {β : Type} (l : List β) (g : β → Op) (hg : ∀ x s, regsWf s → regsWf (g x s)) :
    ∀ s, regsWf s → regsWf (s.each l g) := by
  induction l with
  | nil => exact fun _ h => h
  | cons x l ih => exact fun s h => ih _ (hg x s h)

end Sys2Proof.Laws
end

