-- ==== Sys2Proof/Laws/State.lean ====
section
/-!
SUPPORT. Sys2Proof/Laws/State.lean: what each named update of the state leaves of each field, so that no proof unfolds one.
-/
namespace Sys2Proof.Laws
open Sys2Proof Sys2Proof.Machine

/-! ### setWord -/

@[simp] theorem setWord_pending (s : State) (a : Nat) (w : Word) : (s.setWord a w).pending = s.pending := rfl
@[simp] theorem setWord_regs (s : State) (a : Nat) (w : Word) : (s.setWord a w).regs = SMap.set resetWord s.regs a w := rfl
@[simp] theorem setWord_dev (s : State) (a : Nat) (w : Word) : (s.setWord a w).dev = s.dev := rfl
@[simp] theorem setWord_pins (s : State) (a : Nat) (w : Word) : (s.setWord a w).pins = s.pins := rfl
@[simp] theorem setWord_boot (s : State) (a : Nat) (w : Word) : (s.setWord a w).boot = s.boot := rfl
@[simp] theorem setWord_sec (s : State) (a : Nat) (w : Word) : (s.setWord a w).sec = s.sec := rfl
@[simp] theorem setWord_clk (s : State) (a : Nat) (w : Word) : (s.setWord a w).clk = s.clk := rfl
@[simp] theorem setWord_tim (s : State) (a : Nat) (w : Word) : (s.setWord a w).tim = s.tim := rfl
@[simp] theorem setWord_muster (s : State) (a : Nat) (w : Word) : (s.setWord a w).muster = s.muster := rfl
@[simp] theorem setWord_host (s : State) (a : Nat) (w : Word) : (s.setWord a w).host = s.host := rfl
@[simp] theorem setWord_mem (s : State) (a : Nat) (w : Word) : (s.setWord a w).mem = s.mem := rfl
@[simp] theorem setWord_dram (s : State) (a : Nat) (w : Word) : (s.setWord a w).dram = s.dram := rfl
@[simp] theorem setWord_cores (s : State) (a : Nat) (w : Word) : (s.setWord a w).cores = s.cores := rfl
@[simp] theorem setWord_rx (s : State) (a : Nat) (w : Word) : (s.setWord a w).rx = s.rx := rfl
@[simp] theorem setWord_tx (s : State) (a : Nat) (w : Word) : (s.setWord a w).tx = s.tx := rfl
@[simp] theorem setWord_chains (s : State) (a : Nat) (w : Word) : (s.setWord a w).chains = s.chains := rfl
@[simp] theorem setWord_trigs (s : State) (a : Nat) (w : Word) : (s.setWord a w).trigs = s.trigs := rfl
@[simp] theorem setWord_recs (s : State) (a : Nat) (w : Word) : (s.setWord a w).recs = s.recs := rfl
@[simp] theorem setWord_chans (s : State) (a : Nat) (w : Word) : (s.setWord a w).chans = s.chans := rfl
@[simp] theorem setWord_syns (s : State) (a : Nat) (w : Word) : (s.setWord a w).syns = s.syns := rfl
@[simp] theorem setWord_tbus (s : State) (a : Nat) (w : Word) : (s.setWord a w).tbus = s.tbus := rfl
@[simp] theorem setWord_xbar (s : State) (a : Nat) (w : Word) : (s.setWord a w).xbar = s.xbar := rfl
@[simp] theorem setWord_queue (s : State) (a : Nat) (w : Word) : (s.setWord a w).queue = s.queue := rfl
@[simp] theorem setWord_causes (s : State) (a : Nat) (w : Word) : (s.setWord a w).causes = s.causes := rfl
@[simp] theorem setWord_tko (s : State) (a : Nat) (w : Word) : (s.setWord a w).tko = s.tko := rfl
@[simp] theorem setWord_pl (s : State) (a : Nat) (w : Word) : (s.setWord a w).pl = s.pl := rfl
@[simp] theorem setWord_cal (s : State) (a : Nat) (w : Word) : (s.setWord a w).cal = s.cal := rfl
@[simp] theorem setWord_disp (s : State) (a : Nat) (w : Word) : (s.setWord a w).disp = s.disp := rfl
@[simp] theorem setWord_hk (s : State) (a : Nat) (w : Word) : (s.setWord a w).hk = s.hk := rfl
@[simp] theorem setWord_obs (s : State) (a : Nat) (w : Word) : (s.setWord a w).obs = s.obs := rfl
@[simp] theorem setWord_stopped (s : State) (a : Nat) (w : Word) : (s.setWord a w).stopped = s.stopped := rfl
@[simp] theorem setWord_draw (s : State) (a : Nat) (w : Word) : (s.setWord a w).draw = s.draw := rfl

/-! ### wr -/

@[simp] theorem wr_pending (s : State) (b : Blk) (f : Fld) (v : Nat) : (s.wr b f v).pending = s.pending := rfl
@[simp] theorem wr_dev (s : State) (b : Blk) (f : Fld) (v : Nat) : (s.wr b f v).dev = s.dev := rfl
@[simp] theorem wr_pins (s : State) (b : Blk) (f : Fld) (v : Nat) : (s.wr b f v).pins = s.pins := rfl
@[simp] theorem wr_boot (s : State) (b : Blk) (f : Fld) (v : Nat) : (s.wr b f v).boot = s.boot := rfl
@[simp] theorem wr_sec (s : State) (b : Blk) (f : Fld) (v : Nat) : (s.wr b f v).sec = s.sec := rfl
@[simp] theorem wr_clk (s : State) (b : Blk) (f : Fld) (v : Nat) : (s.wr b f v).clk = s.clk := rfl
@[simp] theorem wr_tim (s : State) (b : Blk) (f : Fld) (v : Nat) : (s.wr b f v).tim = s.tim := rfl
@[simp] theorem wr_muster (s : State) (b : Blk) (f : Fld) (v : Nat) : (s.wr b f v).muster = s.muster := rfl
@[simp] theorem wr_host (s : State) (b : Blk) (f : Fld) (v : Nat) : (s.wr b f v).host = s.host := rfl
@[simp] theorem wr_mem (s : State) (b : Blk) (f : Fld) (v : Nat) : (s.wr b f v).mem = s.mem := rfl
@[simp] theorem wr_dram (s : State) (b : Blk) (f : Fld) (v : Nat) : (s.wr b f v).dram = s.dram := rfl
@[simp] theorem wr_cores (s : State) (b : Blk) (f : Fld) (v : Nat) : (s.wr b f v).cores = s.cores := rfl
@[simp] theorem wr_rx (s : State) (b : Blk) (f : Fld) (v : Nat) : (s.wr b f v).rx = s.rx := rfl
@[simp] theorem wr_tx (s : State) (b : Blk) (f : Fld) (v : Nat) : (s.wr b f v).tx = s.tx := rfl
@[simp] theorem wr_chains (s : State) (b : Blk) (f : Fld) (v : Nat) : (s.wr b f v).chains = s.chains := rfl
@[simp] theorem wr_trigs (s : State) (b : Blk) (f : Fld) (v : Nat) : (s.wr b f v).trigs = s.trigs := rfl
@[simp] theorem wr_recs (s : State) (b : Blk) (f : Fld) (v : Nat) : (s.wr b f v).recs = s.recs := rfl
@[simp] theorem wr_chans (s : State) (b : Blk) (f : Fld) (v : Nat) : (s.wr b f v).chans = s.chans := rfl
@[simp] theorem wr_syns (s : State) (b : Blk) (f : Fld) (v : Nat) : (s.wr b f v).syns = s.syns := rfl
@[simp] theorem wr_tbus (s : State) (b : Blk) (f : Fld) (v : Nat) : (s.wr b f v).tbus = s.tbus := rfl
@[simp] theorem wr_xbar (s : State) (b : Blk) (f : Fld) (v : Nat) : (s.wr b f v).xbar = s.xbar := rfl
@[simp] theorem wr_queue (s : State) (b : Blk) (f : Fld) (v : Nat) : (s.wr b f v).queue = s.queue := rfl
@[simp] theorem wr_causes (s : State) (b : Blk) (f : Fld) (v : Nat) : (s.wr b f v).causes = s.causes := rfl
@[simp] theorem wr_tko (s : State) (b : Blk) (f : Fld) (v : Nat) : (s.wr b f v).tko = s.tko := rfl
@[simp] theorem wr_pl (s : State) (b : Blk) (f : Fld) (v : Nat) : (s.wr b f v).pl = s.pl := rfl
@[simp] theorem wr_cal (s : State) (b : Blk) (f : Fld) (v : Nat) : (s.wr b f v).cal = s.cal := rfl
@[simp] theorem wr_disp (s : State) (b : Blk) (f : Fld) (v : Nat) : (s.wr b f v).disp = s.disp := rfl
@[simp] theorem wr_hk (s : State) (b : Blk) (f : Fld) (v : Nat) : (s.wr b f v).hk = s.hk := rfl
@[simp] theorem wr_obs (s : State) (b : Blk) (f : Fld) (v : Nat) : (s.wr b f v).obs = s.obs := rfl
@[simp] theorem wr_stopped (s : State) (b : Blk) (f : Fld) (v : Nat) : (s.wr b f v).stopped = s.stopped := rfl
@[simp] theorem wr_draw (s : State) (b : Blk) (f : Fld) (v : Nat) : (s.wr b f v).draw = s.draw := rfl

/-! ### wrw -/

@[simp] theorem wrw_pending (s : State) (b : Blk) (o v : Nat) : (s.wrw b o v).pending = s.pending := rfl
@[simp] theorem wrw_dev (s : State) (b : Blk) (o v : Nat) : (s.wrw b o v).dev = s.dev := rfl
@[simp] theorem wrw_pins (s : State) (b : Blk) (o v : Nat) : (s.wrw b o v).pins = s.pins := rfl
@[simp] theorem wrw_boot (s : State) (b : Blk) (o v : Nat) : (s.wrw b o v).boot = s.boot := rfl
@[simp] theorem wrw_sec (s : State) (b : Blk) (o v : Nat) : (s.wrw b o v).sec = s.sec := rfl
@[simp] theorem wrw_clk (s : State) (b : Blk) (o v : Nat) : (s.wrw b o v).clk = s.clk := rfl
@[simp] theorem wrw_tim (s : State) (b : Blk) (o v : Nat) : (s.wrw b o v).tim = s.tim := rfl
@[simp] theorem wrw_muster (s : State) (b : Blk) (o v : Nat) : (s.wrw b o v).muster = s.muster := rfl
@[simp] theorem wrw_host (s : State) (b : Blk) (o v : Nat) : (s.wrw b o v).host = s.host := rfl
@[simp] theorem wrw_mem (s : State) (b : Blk) (o v : Nat) : (s.wrw b o v).mem = s.mem := rfl
@[simp] theorem wrw_dram (s : State) (b : Blk) (o v : Nat) : (s.wrw b o v).dram = s.dram := rfl
@[simp] theorem wrw_cores (s : State) (b : Blk) (o v : Nat) : (s.wrw b o v).cores = s.cores := rfl
@[simp] theorem wrw_rx (s : State) (b : Blk) (o v : Nat) : (s.wrw b o v).rx = s.rx := rfl
@[simp] theorem wrw_tx (s : State) (b : Blk) (o v : Nat) : (s.wrw b o v).tx = s.tx := rfl
@[simp] theorem wrw_chains (s : State) (b : Blk) (o v : Nat) : (s.wrw b o v).chains = s.chains := rfl
@[simp] theorem wrw_trigs (s : State) (b : Blk) (o v : Nat) : (s.wrw b o v).trigs = s.trigs := rfl
@[simp] theorem wrw_recs (s : State) (b : Blk) (o v : Nat) : (s.wrw b o v).recs = s.recs := rfl
@[simp] theorem wrw_chans (s : State) (b : Blk) (o v : Nat) : (s.wrw b o v).chans = s.chans := rfl
@[simp] theorem wrw_syns (s : State) (b : Blk) (o v : Nat) : (s.wrw b o v).syns = s.syns := rfl
@[simp] theorem wrw_tbus (s : State) (b : Blk) (o v : Nat) : (s.wrw b o v).tbus = s.tbus := rfl
@[simp] theorem wrw_xbar (s : State) (b : Blk) (o v : Nat) : (s.wrw b o v).xbar = s.xbar := rfl
@[simp] theorem wrw_queue (s : State) (b : Blk) (o v : Nat) : (s.wrw b o v).queue = s.queue := rfl
@[simp] theorem wrw_causes (s : State) (b : Blk) (o v : Nat) : (s.wrw b o v).causes = s.causes := rfl
@[simp] theorem wrw_tko (s : State) (b : Blk) (o v : Nat) : (s.wrw b o v).tko = s.tko := rfl
@[simp] theorem wrw_pl (s : State) (b : Blk) (o v : Nat) : (s.wrw b o v).pl = s.pl := rfl
@[simp] theorem wrw_cal (s : State) (b : Blk) (o v : Nat) : (s.wrw b o v).cal = s.cal := rfl
@[simp] theorem wrw_disp (s : State) (b : Blk) (o v : Nat) : (s.wrw b o v).disp = s.disp := rfl
@[simp] theorem wrw_hk (s : State) (b : Blk) (o v : Nat) : (s.wrw b o v).hk = s.hk := rfl
@[simp] theorem wrw_obs (s : State) (b : Blk) (o v : Nat) : (s.wrw b o v).obs = s.obs := rfl
@[simp] theorem wrw_stopped (s : State) (b : Blk) (o v : Nat) : (s.wrw b o v).stopped = s.stopped := rfl
@[simp] theorem wrw_draw (s : State) (b : Blk) (o v : Nat) : (s.wrw b o v).draw = s.draw := rfl

/-! ### wri -/

@[simp] theorem wri_pending (s : State) (b : Blk) (f : Fld) (v : Int) : (s.wri b f v).pending = s.pending := rfl
@[simp] theorem wri_dev (s : State) (b : Blk) (f : Fld) (v : Int) : (s.wri b f v).dev = s.dev := rfl
@[simp] theorem wri_pins (s : State) (b : Blk) (f : Fld) (v : Int) : (s.wri b f v).pins = s.pins := rfl
@[simp] theorem wri_boot (s : State) (b : Blk) (f : Fld) (v : Int) : (s.wri b f v).boot = s.boot := rfl
@[simp] theorem wri_sec (s : State) (b : Blk) (f : Fld) (v : Int) : (s.wri b f v).sec = s.sec := rfl
@[simp] theorem wri_clk (s : State) (b : Blk) (f : Fld) (v : Int) : (s.wri b f v).clk = s.clk := rfl
@[simp] theorem wri_tim (s : State) (b : Blk) (f : Fld) (v : Int) : (s.wri b f v).tim = s.tim := rfl
@[simp] theorem wri_muster (s : State) (b : Blk) (f : Fld) (v : Int) : (s.wri b f v).muster = s.muster := rfl
@[simp] theorem wri_host (s : State) (b : Blk) (f : Fld) (v : Int) : (s.wri b f v).host = s.host := rfl
@[simp] theorem wri_mem (s : State) (b : Blk) (f : Fld) (v : Int) : (s.wri b f v).mem = s.mem := rfl
@[simp] theorem wri_dram (s : State) (b : Blk) (f : Fld) (v : Int) : (s.wri b f v).dram = s.dram := rfl
@[simp] theorem wri_cores (s : State) (b : Blk) (f : Fld) (v : Int) : (s.wri b f v).cores = s.cores := rfl
@[simp] theorem wri_rx (s : State) (b : Blk) (f : Fld) (v : Int) : (s.wri b f v).rx = s.rx := rfl
@[simp] theorem wri_tx (s : State) (b : Blk) (f : Fld) (v : Int) : (s.wri b f v).tx = s.tx := rfl
@[simp] theorem wri_chains (s : State) (b : Blk) (f : Fld) (v : Int) : (s.wri b f v).chains = s.chains := rfl
@[simp] theorem wri_trigs (s : State) (b : Blk) (f : Fld) (v : Int) : (s.wri b f v).trigs = s.trigs := rfl
@[simp] theorem wri_recs (s : State) (b : Blk) (f : Fld) (v : Int) : (s.wri b f v).recs = s.recs := rfl
@[simp] theorem wri_chans (s : State) (b : Blk) (f : Fld) (v : Int) : (s.wri b f v).chans = s.chans := rfl
@[simp] theorem wri_syns (s : State) (b : Blk) (f : Fld) (v : Int) : (s.wri b f v).syns = s.syns := rfl
@[simp] theorem wri_tbus (s : State) (b : Blk) (f : Fld) (v : Int) : (s.wri b f v).tbus = s.tbus := rfl
@[simp] theorem wri_xbar (s : State) (b : Blk) (f : Fld) (v : Int) : (s.wri b f v).xbar = s.xbar := rfl
@[simp] theorem wri_queue (s : State) (b : Blk) (f : Fld) (v : Int) : (s.wri b f v).queue = s.queue := rfl
@[simp] theorem wri_causes (s : State) (b : Blk) (f : Fld) (v : Int) : (s.wri b f v).causes = s.causes := rfl
@[simp] theorem wri_tko (s : State) (b : Blk) (f : Fld) (v : Int) : (s.wri b f v).tko = s.tko := rfl
@[simp] theorem wri_pl (s : State) (b : Blk) (f : Fld) (v : Int) : (s.wri b f v).pl = s.pl := rfl
@[simp] theorem wri_cal (s : State) (b : Blk) (f : Fld) (v : Int) : (s.wri b f v).cal = s.cal := rfl
@[simp] theorem wri_disp (s : State) (b : Blk) (f : Fld) (v : Int) : (s.wri b f v).disp = s.disp := rfl
@[simp] theorem wri_hk (s : State) (b : Blk) (f : Fld) (v : Int) : (s.wri b f v).hk = s.hk := rfl
@[simp] theorem wri_obs (s : State) (b : Blk) (f : Fld) (v : Int) : (s.wri b f v).obs = s.obs := rfl
@[simp] theorem wri_stopped (s : State) (b : Blk) (f : Fld) (v : Int) : (s.wri b f v).stopped = s.stopped := rfl
@[simp] theorem wri_draw (s : State) (b : Blk) (f : Fld) (v : Int) : (s.wri b f v).draw = s.draw := rfl

/-! ### wrT96 -/

@[simp] theorem wrT96_pending (s : State) (b : Blk) (f : Fld) (t : T96) : (s.wrT96 b f t).pending = s.pending := rfl
@[simp] theorem wrT96_dev (s : State) (b : Blk) (f : Fld) (t : T96) : (s.wrT96 b f t).dev = s.dev := rfl
@[simp] theorem wrT96_pins (s : State) (b : Blk) (f : Fld) (t : T96) : (s.wrT96 b f t).pins = s.pins := rfl
@[simp] theorem wrT96_boot (s : State) (b : Blk) (f : Fld) (t : T96) : (s.wrT96 b f t).boot = s.boot := rfl
@[simp] theorem wrT96_sec (s : State) (b : Blk) (f : Fld) (t : T96) : (s.wrT96 b f t).sec = s.sec := rfl
@[simp] theorem wrT96_clk (s : State) (b : Blk) (f : Fld) (t : T96) : (s.wrT96 b f t).clk = s.clk := rfl
@[simp] theorem wrT96_tim (s : State) (b : Blk) (f : Fld) (t : T96) : (s.wrT96 b f t).tim = s.tim := rfl
@[simp] theorem wrT96_muster (s : State) (b : Blk) (f : Fld) (t : T96) : (s.wrT96 b f t).muster = s.muster := rfl
@[simp] theorem wrT96_host (s : State) (b : Blk) (f : Fld) (t : T96) : (s.wrT96 b f t).host = s.host := rfl
@[simp] theorem wrT96_mem (s : State) (b : Blk) (f : Fld) (t : T96) : (s.wrT96 b f t).mem = s.mem := rfl
@[simp] theorem wrT96_dram (s : State) (b : Blk) (f : Fld) (t : T96) : (s.wrT96 b f t).dram = s.dram := rfl
@[simp] theorem wrT96_cores (s : State) (b : Blk) (f : Fld) (t : T96) : (s.wrT96 b f t).cores = s.cores := rfl
@[simp] theorem wrT96_rx (s : State) (b : Blk) (f : Fld) (t : T96) : (s.wrT96 b f t).rx = s.rx := rfl
@[simp] theorem wrT96_tx (s : State) (b : Blk) (f : Fld) (t : T96) : (s.wrT96 b f t).tx = s.tx := rfl
@[simp] theorem wrT96_chains (s : State) (b : Blk) (f : Fld) (t : T96) : (s.wrT96 b f t).chains = s.chains := rfl
@[simp] theorem wrT96_trigs (s : State) (b : Blk) (f : Fld) (t : T96) : (s.wrT96 b f t).trigs = s.trigs := rfl
@[simp] theorem wrT96_recs (s : State) (b : Blk) (f : Fld) (t : T96) : (s.wrT96 b f t).recs = s.recs := rfl
@[simp] theorem wrT96_chans (s : State) (b : Blk) (f : Fld) (t : T96) : (s.wrT96 b f t).chans = s.chans := rfl
@[simp] theorem wrT96_syns (s : State) (b : Blk) (f : Fld) (t : T96) : (s.wrT96 b f t).syns = s.syns := rfl
@[simp] theorem wrT96_tbus (s : State) (b : Blk) (f : Fld) (t : T96) : (s.wrT96 b f t).tbus = s.tbus := rfl
@[simp] theorem wrT96_xbar (s : State) (b : Blk) (f : Fld) (t : T96) : (s.wrT96 b f t).xbar = s.xbar := rfl
@[simp] theorem wrT96_queue (s : State) (b : Blk) (f : Fld) (t : T96) : (s.wrT96 b f t).queue = s.queue := rfl
@[simp] theorem wrT96_causes (s : State) (b : Blk) (f : Fld) (t : T96) : (s.wrT96 b f t).causes = s.causes := rfl
@[simp] theorem wrT96_tko (s : State) (b : Blk) (f : Fld) (t : T96) : (s.wrT96 b f t).tko = s.tko := rfl
@[simp] theorem wrT96_pl (s : State) (b : Blk) (f : Fld) (t : T96) : (s.wrT96 b f t).pl = s.pl := rfl
@[simp] theorem wrT96_cal (s : State) (b : Blk) (f : Fld) (t : T96) : (s.wrT96 b f t).cal = s.cal := rfl
@[simp] theorem wrT96_disp (s : State) (b : Blk) (f : Fld) (t : T96) : (s.wrT96 b f t).disp = s.disp := rfl
@[simp] theorem wrT96_hk (s : State) (b : Blk) (f : Fld) (t : T96) : (s.wrT96 b f t).hk = s.hk := rfl
@[simp] theorem wrT96_obs (s : State) (b : Blk) (f : Fld) (t : T96) : (s.wrT96 b f t).obs = s.obs := rfl
@[simp] theorem wrT96_stopped (s : State) (b : Blk) (f : Fld) (t : T96) : (s.wrT96 b f t).stopped = s.stopped := rfl
@[simp] theorem wrT96_draw (s : State) (b : Blk) (f : Fld) (t : T96) : (s.wrT96 b f t).draw = s.draw := rfl

/-! ### fault -/

@[simp] theorem fault_pending (s : State) (b : Blk) (f : Fld) : (s.fault b f).pending = s.pending := rfl
@[simp] theorem fault_dev (s : State) (b : Blk) (f : Fld) : (s.fault b f).dev = s.dev := rfl
@[simp] theorem fault_pins (s : State) (b : Blk) (f : Fld) : (s.fault b f).pins = s.pins := rfl
@[simp] theorem fault_boot (s : State) (b : Blk) (f : Fld) : (s.fault b f).boot = s.boot := rfl
@[simp] theorem fault_sec (s : State) (b : Blk) (f : Fld) : (s.fault b f).sec = s.sec := rfl
@[simp] theorem fault_clk (s : State) (b : Blk) (f : Fld) : (s.fault b f).clk = s.clk := rfl
@[simp] theorem fault_tim (s : State) (b : Blk) (f : Fld) : (s.fault b f).tim = s.tim := rfl
@[simp] theorem fault_muster (s : State) (b : Blk) (f : Fld) : (s.fault b f).muster = s.muster := rfl
@[simp] theorem fault_host (s : State) (b : Blk) (f : Fld) : (s.fault b f).host = s.host := rfl
@[simp] theorem fault_mem (s : State) (b : Blk) (f : Fld) : (s.fault b f).mem = s.mem := rfl
@[simp] theorem fault_dram (s : State) (b : Blk) (f : Fld) : (s.fault b f).dram = s.dram := rfl
@[simp] theorem fault_cores (s : State) (b : Blk) (f : Fld) : (s.fault b f).cores = s.cores := rfl
@[simp] theorem fault_rx (s : State) (b : Blk) (f : Fld) : (s.fault b f).rx = s.rx := rfl
@[simp] theorem fault_tx (s : State) (b : Blk) (f : Fld) : (s.fault b f).tx = s.tx := rfl
@[simp] theorem fault_chains (s : State) (b : Blk) (f : Fld) : (s.fault b f).chains = s.chains := rfl
@[simp] theorem fault_trigs (s : State) (b : Blk) (f : Fld) : (s.fault b f).trigs = s.trigs := rfl
@[simp] theorem fault_recs (s : State) (b : Blk) (f : Fld) : (s.fault b f).recs = s.recs := rfl
@[simp] theorem fault_chans (s : State) (b : Blk) (f : Fld) : (s.fault b f).chans = s.chans := rfl
@[simp] theorem fault_syns (s : State) (b : Blk) (f : Fld) : (s.fault b f).syns = s.syns := rfl
@[simp] theorem fault_tbus (s : State) (b : Blk) (f : Fld) : (s.fault b f).tbus = s.tbus := rfl
@[simp] theorem fault_xbar (s : State) (b : Blk) (f : Fld) : (s.fault b f).xbar = s.xbar := rfl
@[simp] theorem fault_queue (s : State) (b : Blk) (f : Fld) : (s.fault b f).queue = s.queue := rfl
@[simp] theorem fault_causes (s : State) (b : Blk) (f : Fld) : (s.fault b f).causes = s.causes := rfl
@[simp] theorem fault_tko (s : State) (b : Blk) (f : Fld) : (s.fault b f).tko = s.tko := rfl
@[simp] theorem fault_pl (s : State) (b : Blk) (f : Fld) : (s.fault b f).pl = s.pl := rfl
@[simp] theorem fault_cal (s : State) (b : Blk) (f : Fld) : (s.fault b f).cal = s.cal := rfl
@[simp] theorem fault_disp (s : State) (b : Blk) (f : Fld) : (s.fault b f).disp = s.disp := rfl
@[simp] theorem fault_hk (s : State) (b : Blk) (f : Fld) : (s.fault b f).hk = s.hk := rfl
@[simp] theorem fault_obs (s : State) (b : Blk) (f : Fld) : (s.fault b f).obs = s.obs := rfl
@[simp] theorem fault_stopped (s : State) (b : Blk) (f : Fld) : (s.fault b f).stopped = s.stopped := rfl
@[simp] theorem fault_draw (s : State) (b : Blk) (f : Fld) : (s.fault b f).draw = s.draw := rfl

/-! ### coreInt -/

@[simp] theorem coreInt_pending (s : State) (i n : Nat) : (s.coreInt i n).pending = s.pending := rfl
@[simp] theorem coreInt_dev (s : State) (i n : Nat) : (s.coreInt i n).dev = s.dev := rfl
@[simp] theorem coreInt_pins (s : State) (i n : Nat) : (s.coreInt i n).pins = s.pins := rfl
@[simp] theorem coreInt_boot (s : State) (i n : Nat) : (s.coreInt i n).boot = s.boot := rfl
@[simp] theorem coreInt_sec (s : State) (i n : Nat) : (s.coreInt i n).sec = s.sec := rfl
@[simp] theorem coreInt_clk (s : State) (i n : Nat) : (s.coreInt i n).clk = s.clk := rfl
@[simp] theorem coreInt_tim (s : State) (i n : Nat) : (s.coreInt i n).tim = s.tim := rfl
@[simp] theorem coreInt_muster (s : State) (i n : Nat) : (s.coreInt i n).muster = s.muster := rfl
@[simp] theorem coreInt_host (s : State) (i n : Nat) : (s.coreInt i n).host = s.host := rfl
@[simp] theorem coreInt_mem (s : State) (i n : Nat) : (s.coreInt i n).mem = s.mem := rfl
@[simp] theorem coreInt_dram (s : State) (i n : Nat) : (s.coreInt i n).dram = s.dram := rfl
@[simp] theorem coreInt_cores (s : State) (i n : Nat) : (s.coreInt i n).cores = s.cores := rfl
@[simp] theorem coreInt_rx (s : State) (i n : Nat) : (s.coreInt i n).rx = s.rx := rfl
@[simp] theorem coreInt_tx (s : State) (i n : Nat) : (s.coreInt i n).tx = s.tx := rfl
@[simp] theorem coreInt_chains (s : State) (i n : Nat) : (s.coreInt i n).chains = s.chains := rfl
@[simp] theorem coreInt_trigs (s : State) (i n : Nat) : (s.coreInt i n).trigs = s.trigs := rfl
@[simp] theorem coreInt_recs (s : State) (i n : Nat) : (s.coreInt i n).recs = s.recs := rfl
@[simp] theorem coreInt_chans (s : State) (i n : Nat) : (s.coreInt i n).chans = s.chans := rfl
@[simp] theorem coreInt_syns (s : State) (i n : Nat) : (s.coreInt i n).syns = s.syns := rfl
@[simp] theorem coreInt_tbus (s : State) (i n : Nat) : (s.coreInt i n).tbus = s.tbus := rfl
@[simp] theorem coreInt_xbar (s : State) (i n : Nat) : (s.coreInt i n).xbar = s.xbar := rfl
@[simp] theorem coreInt_queue (s : State) (i n : Nat) : (s.coreInt i n).queue = s.queue := rfl
@[simp] theorem coreInt_causes (s : State) (i n : Nat) : (s.coreInt i n).causes = s.causes := rfl
@[simp] theorem coreInt_tko (s : State) (i n : Nat) : (s.coreInt i n).tko = s.tko := rfl
@[simp] theorem coreInt_pl (s : State) (i n : Nat) : (s.coreInt i n).pl = s.pl := rfl
@[simp] theorem coreInt_cal (s : State) (i n : Nat) : (s.coreInt i n).cal = s.cal := rfl
@[simp] theorem coreInt_disp (s : State) (i n : Nat) : (s.coreInt i n).disp = s.disp := rfl
@[simp] theorem coreInt_hk (s : State) (i n : Nat) : (s.coreInt i n).hk = s.hk := rfl
@[simp] theorem coreInt_obs (s : State) (i n : Nat) : (s.coreInt i n).obs = s.obs := rfl
@[simp] theorem coreInt_stopped (s : State) (i n : Nat) : (s.coreInt i n).stopped = s.stopped := rfl
@[simp] theorem coreInt_draw (s : State) (i n : Nat) : (s.coreInt i n).draw = s.draw := rfl

/-! ### cnt -/

@[simp] theorem cnt_pending (s : State) (b : Blk) (f : Fld) (n : Nat) : (s.cnt b f n).pending = s.pending := by unfold State.cnt; split <;> rfl
@[simp] theorem cnt_dev (s : State) (b : Blk) (f : Fld) (n : Nat) : (s.cnt b f n).dev = s.dev := by unfold State.cnt; split <;> rfl
@[simp] theorem cnt_pins (s : State) (b : Blk) (f : Fld) (n : Nat) : (s.cnt b f n).pins = s.pins := by unfold State.cnt; split <;> rfl
@[simp] theorem cnt_boot (s : State) (b : Blk) (f : Fld) (n : Nat) : (s.cnt b f n).boot = s.boot := by unfold State.cnt; split <;> rfl
@[simp] theorem cnt_sec (s : State) (b : Blk) (f : Fld) (n : Nat) : (s.cnt b f n).sec = s.sec := by unfold State.cnt; split <;> rfl
@[simp] theorem cnt_clk (s : State) (b : Blk) (f : Fld) (n : Nat) : (s.cnt b f n).clk = s.clk := by unfold State.cnt; split <;> rfl
@[simp] theorem cnt_tim (s : State) (b : Blk) (f : Fld) (n : Nat) : (s.cnt b f n).tim = s.tim := by unfold State.cnt; split <;> rfl
@[simp] theorem cnt_muster (s : State) (b : Blk) (f : Fld) (n : Nat) : (s.cnt b f n).muster = s.muster := by unfold State.cnt; split <;> rfl
@[simp] theorem cnt_host (s : State) (b : Blk) (f : Fld) (n : Nat) : (s.cnt b f n).host = s.host := by unfold State.cnt; split <;> rfl
@[simp] theorem cnt_mem (s : State) (b : Blk) (f : Fld) (n : Nat) : (s.cnt b f n).mem = s.mem := by unfold State.cnt; split <;> rfl
@[simp] theorem cnt_dram (s : State) (b : Blk) (f : Fld) (n : Nat) : (s.cnt b f n).dram = s.dram := by unfold State.cnt; split <;> rfl
@[simp] theorem cnt_cores (s : State) (b : Blk) (f : Fld) (n : Nat) : (s.cnt b f n).cores = s.cores := by unfold State.cnt; split <;> rfl
@[simp] theorem cnt_rx (s : State) (b : Blk) (f : Fld) (n : Nat) : (s.cnt b f n).rx = s.rx := by unfold State.cnt; split <;> rfl
@[simp] theorem cnt_tx (s : State) (b : Blk) (f : Fld) (n : Nat) : (s.cnt b f n).tx = s.tx := by unfold State.cnt; split <;> rfl
@[simp] theorem cnt_chains (s : State) (b : Blk) (f : Fld) (n : Nat) : (s.cnt b f n).chains = s.chains := by unfold State.cnt; split <;> rfl
@[simp] theorem cnt_trigs (s : State) (b : Blk) (f : Fld) (n : Nat) : (s.cnt b f n).trigs = s.trigs := by unfold State.cnt; split <;> rfl
@[simp] theorem cnt_recs (s : State) (b : Blk) (f : Fld) (n : Nat) : (s.cnt b f n).recs = s.recs := by unfold State.cnt; split <;> rfl
@[simp] theorem cnt_chans (s : State) (b : Blk) (f : Fld) (n : Nat) : (s.cnt b f n).chans = s.chans := by unfold State.cnt; split <;> rfl
@[simp] theorem cnt_syns (s : State) (b : Blk) (f : Fld) (n : Nat) : (s.cnt b f n).syns = s.syns := by unfold State.cnt; split <;> rfl
@[simp] theorem cnt_tbus (s : State) (b : Blk) (f : Fld) (n : Nat) : (s.cnt b f n).tbus = s.tbus := by unfold State.cnt; split <;> rfl
@[simp] theorem cnt_xbar (s : State) (b : Blk) (f : Fld) (n : Nat) : (s.cnt b f n).xbar = s.xbar := by unfold State.cnt; split <;> rfl
@[simp] theorem cnt_queue (s : State) (b : Blk) (f : Fld) (n : Nat) : (s.cnt b f n).queue = s.queue := by unfold State.cnt; split <;> rfl
@[simp] theorem cnt_causes (s : State) (b : Blk) (f : Fld) (n : Nat) : (s.cnt b f n).causes = s.causes := by unfold State.cnt; split <;> rfl
@[simp] theorem cnt_tko (s : State) (b : Blk) (f : Fld) (n : Nat) : (s.cnt b f n).tko = s.tko := by unfold State.cnt; split <;> rfl
@[simp] theorem cnt_pl (s : State) (b : Blk) (f : Fld) (n : Nat) : (s.cnt b f n).pl = s.pl := by unfold State.cnt; split <;> rfl
@[simp] theorem cnt_cal (s : State) (b : Blk) (f : Fld) (n : Nat) : (s.cnt b f n).cal = s.cal := by unfold State.cnt; split <;> rfl
@[simp] theorem cnt_disp (s : State) (b : Blk) (f : Fld) (n : Nat) : (s.cnt b f n).disp = s.disp := by unfold State.cnt; split <;> rfl
@[simp] theorem cnt_hk (s : State) (b : Blk) (f : Fld) (n : Nat) : (s.cnt b f n).hk = s.hk := by unfold State.cnt; split <;> rfl
@[simp] theorem cnt_obs (s : State) (b : Blk) (f : Fld) (n : Nat) : (s.cnt b f n).obs = s.obs := by unfold State.cnt; split <;> rfl
@[simp] theorem cnt_stopped (s : State) (b : Blk) (f : Fld) (n : Nat) : (s.cnt b f n).stopped = s.stopped := by unfold State.cnt; split <;> rfl
@[simp] theorem cnt_draw (s : State) (b : Blk) (f : Fld) (n : Nat) : (s.cnt b f n).draw = s.draw := by unfold State.cnt; split <;> rfl

/-! ### setCore -/

@[simp] theorem setCore_pending (s : State) (c : Fin 17) (k : CoreSt) : (s.setCore c k).pending = s.pending := rfl
@[simp] theorem setCore_regs (s : State) (c : Fin 17) (k : CoreSt) : (s.setCore c k).regs = s.regs := rfl
@[simp] theorem setCore_dev (s : State) (c : Fin 17) (k : CoreSt) : (s.setCore c k).dev = s.dev := rfl
@[simp] theorem setCore_pins (s : State) (c : Fin 17) (k : CoreSt) : (s.setCore c k).pins = s.pins := rfl
@[simp] theorem setCore_boot (s : State) (c : Fin 17) (k : CoreSt) : (s.setCore c k).boot = s.boot := rfl
@[simp] theorem setCore_sec (s : State) (c : Fin 17) (k : CoreSt) : (s.setCore c k).sec = s.sec := rfl
@[simp] theorem setCore_clk (s : State) (c : Fin 17) (k : CoreSt) : (s.setCore c k).clk = s.clk := rfl
@[simp] theorem setCore_tim (s : State) (c : Fin 17) (k : CoreSt) : (s.setCore c k).tim = s.tim := rfl
@[simp] theorem setCore_muster (s : State) (c : Fin 17) (k : CoreSt) : (s.setCore c k).muster = s.muster := rfl
@[simp] theorem setCore_host (s : State) (c : Fin 17) (k : CoreSt) : (s.setCore c k).host = s.host := rfl
@[simp] theorem setCore_mem (s : State) (c : Fin 17) (k : CoreSt) : (s.setCore c k).mem = s.mem := rfl
@[simp] theorem setCore_dram (s : State) (c : Fin 17) (k : CoreSt) : (s.setCore c k).dram = s.dram := rfl
@[simp] theorem setCore_cores (s : State) (c : Fin 17) (k : CoreSt) : (s.setCore c k).cores = s.cores.set c k := rfl
@[simp] theorem setCore_rx (s : State) (c : Fin 17) (k : CoreSt) : (s.setCore c k).rx = s.rx := rfl
@[simp] theorem setCore_tx (s : State) (c : Fin 17) (k : CoreSt) : (s.setCore c k).tx = s.tx := rfl
@[simp] theorem setCore_chains (s : State) (c : Fin 17) (k : CoreSt) : (s.setCore c k).chains = s.chains := rfl
@[simp] theorem setCore_trigs (s : State) (c : Fin 17) (k : CoreSt) : (s.setCore c k).trigs = s.trigs := rfl
@[simp] theorem setCore_recs (s : State) (c : Fin 17) (k : CoreSt) : (s.setCore c k).recs = s.recs := rfl
@[simp] theorem setCore_chans (s : State) (c : Fin 17) (k : CoreSt) : (s.setCore c k).chans = s.chans := rfl
@[simp] theorem setCore_syns (s : State) (c : Fin 17) (k : CoreSt) : (s.setCore c k).syns = s.syns := rfl
@[simp] theorem setCore_tbus (s : State) (c : Fin 17) (k : CoreSt) : (s.setCore c k).tbus = s.tbus := rfl
@[simp] theorem setCore_xbar (s : State) (c : Fin 17) (k : CoreSt) : (s.setCore c k).xbar = s.xbar := rfl
@[simp] theorem setCore_queue (s : State) (c : Fin 17) (k : CoreSt) : (s.setCore c k).queue = s.queue := rfl
@[simp] theorem setCore_causes (s : State) (c : Fin 17) (k : CoreSt) : (s.setCore c k).causes = s.causes := rfl
@[simp] theorem setCore_tko (s : State) (c : Fin 17) (k : CoreSt) : (s.setCore c k).tko = s.tko := rfl
@[simp] theorem setCore_pl (s : State) (c : Fin 17) (k : CoreSt) : (s.setCore c k).pl = s.pl := rfl
@[simp] theorem setCore_cal (s : State) (c : Fin 17) (k : CoreSt) : (s.setCore c k).cal = s.cal := rfl
@[simp] theorem setCore_disp (s : State) (c : Fin 17) (k : CoreSt) : (s.setCore c k).disp = s.disp := rfl
@[simp] theorem setCore_hk (s : State) (c : Fin 17) (k : CoreSt) : (s.setCore c k).hk = s.hk := rfl
@[simp] theorem setCore_obs (s : State) (c : Fin 17) (k : CoreSt) : (s.setCore c k).obs = s.obs := rfl
@[simp] theorem setCore_stopped (s : State) (c : Fin 17) (k : CoreSt) : (s.setCore c k).stopped = s.stopped := rfl
@[simp] theorem setCore_draw (s : State) (c : Fin 17) (k : CoreSt) : (s.setCore c k).draw = s.draw := rfl
@[simp] theorem setCore_rd (s : State) (c : Fin 17) (k : CoreSt) (kb : Blk) (gf : Fld) : (s.setCore c k).rd kb gf = s.rd kb gf := rfl
@[simp] theorem setCore_word (s : State) (c : Fin 17) (k : CoreSt) (z : Nat) : (s.setCore c k).word z = s.word z := rfl

/-! ### setChain -/

@[simp] theorem setChain_pending (s : State) (i : Fin 17) (c : ChainSt) : (s.setChain i c).pending = s.pending := rfl
@[simp] theorem setChain_regs (s : State) (i : Fin 17) (c : ChainSt) : (s.setChain i c).regs = s.regs := rfl
@[simp] theorem setChain_dev (s : State) (i : Fin 17) (c : ChainSt) : (s.setChain i c).dev = s.dev := rfl
@[simp] theorem setChain_pins (s : State) (i : Fin 17) (c : ChainSt) : (s.setChain i c).pins = s.pins := rfl
@[simp] theorem setChain_boot (s : State) (i : Fin 17) (c : ChainSt) : (s.setChain i c).boot = s.boot := rfl
@[simp] theorem setChain_sec (s : State) (i : Fin 17) (c : ChainSt) : (s.setChain i c).sec = s.sec := rfl
@[simp] theorem setChain_clk (s : State) (i : Fin 17) (c : ChainSt) : (s.setChain i c).clk = s.clk := rfl
@[simp] theorem setChain_tim (s : State) (i : Fin 17) (c : ChainSt) : (s.setChain i c).tim = s.tim := rfl
@[simp] theorem setChain_muster (s : State) (i : Fin 17) (c : ChainSt) : (s.setChain i c).muster = s.muster := rfl
@[simp] theorem setChain_host (s : State) (i : Fin 17) (c : ChainSt) : (s.setChain i c).host = s.host := rfl
@[simp] theorem setChain_mem (s : State) (i : Fin 17) (c : ChainSt) : (s.setChain i c).mem = s.mem := rfl
@[simp] theorem setChain_dram (s : State) (i : Fin 17) (c : ChainSt) : (s.setChain i c).dram = s.dram := rfl
@[simp] theorem setChain_cores (s : State) (i : Fin 17) (c : ChainSt) : (s.setChain i c).cores = s.cores := rfl
@[simp] theorem setChain_rx (s : State) (i : Fin 17) (c : ChainSt) : (s.setChain i c).rx = s.rx := rfl
@[simp] theorem setChain_tx (s : State) (i : Fin 17) (c : ChainSt) : (s.setChain i c).tx = s.tx := rfl
@[simp] theorem setChain_chains (s : State) (i : Fin 17) (c : ChainSt) : (s.setChain i c).chains = s.chains.set i c := rfl
@[simp] theorem setChain_trigs (s : State) (i : Fin 17) (c : ChainSt) : (s.setChain i c).trigs = s.trigs := rfl
@[simp] theorem setChain_recs (s : State) (i : Fin 17) (c : ChainSt) : (s.setChain i c).recs = s.recs := rfl
@[simp] theorem setChain_chans (s : State) (i : Fin 17) (c : ChainSt) : (s.setChain i c).chans = s.chans := rfl
@[simp] theorem setChain_syns (s : State) (i : Fin 17) (c : ChainSt) : (s.setChain i c).syns = s.syns := rfl
@[simp] theorem setChain_tbus (s : State) (i : Fin 17) (c : ChainSt) : (s.setChain i c).tbus = s.tbus := rfl
@[simp] theorem setChain_xbar (s : State) (i : Fin 17) (c : ChainSt) : (s.setChain i c).xbar = s.xbar := rfl
@[simp] theorem setChain_queue (s : State) (i : Fin 17) (c : ChainSt) : (s.setChain i c).queue = s.queue := rfl
@[simp] theorem setChain_causes (s : State) (i : Fin 17) (c : ChainSt) : (s.setChain i c).causes = s.causes := rfl
@[simp] theorem setChain_tko (s : State) (i : Fin 17) (c : ChainSt) : (s.setChain i c).tko = s.tko := rfl
@[simp] theorem setChain_pl (s : State) (i : Fin 17) (c : ChainSt) : (s.setChain i c).pl = s.pl := rfl
@[simp] theorem setChain_cal (s : State) (i : Fin 17) (c : ChainSt) : (s.setChain i c).cal = s.cal := rfl
@[simp] theorem setChain_disp (s : State) (i : Fin 17) (c : ChainSt) : (s.setChain i c).disp = s.disp := rfl
@[simp] theorem setChain_hk (s : State) (i : Fin 17) (c : ChainSt) : (s.setChain i c).hk = s.hk := rfl
@[simp] theorem setChain_obs (s : State) (i : Fin 17) (c : ChainSt) : (s.setChain i c).obs = s.obs := rfl
@[simp] theorem setChain_stopped (s : State) (i : Fin 17) (c : ChainSt) : (s.setChain i c).stopped = s.stopped := rfl
@[simp] theorem setChain_draw (s : State) (i : Fin 17) (c : ChainSt) : (s.setChain i c).draw = s.draw := rfl
@[simp] theorem setChain_rd (s : State) (i : Fin 17) (c : ChainSt) (kb : Blk) (gf : Fld) : (s.setChain i c).rd kb gf = s.rd kb gf := rfl
@[simp] theorem setChain_word (s : State) (i : Fin 17) (c : ChainSt) (z : Nat) : (s.setChain i c).word z = s.word z := rfl

/-! ### setTrig -/

@[simp] theorem setTrig_pending (s : State) (i : Fin 17) (t : TrigSt) : (s.setTrig i t).pending = s.pending := rfl
@[simp] theorem setTrig_regs (s : State) (i : Fin 17) (t : TrigSt) : (s.setTrig i t).regs = s.regs := rfl
@[simp] theorem setTrig_dev (s : State) (i : Fin 17) (t : TrigSt) : (s.setTrig i t).dev = s.dev := rfl
@[simp] theorem setTrig_pins (s : State) (i : Fin 17) (t : TrigSt) : (s.setTrig i t).pins = s.pins := rfl
@[simp] theorem setTrig_boot (s : State) (i : Fin 17) (t : TrigSt) : (s.setTrig i t).boot = s.boot := rfl
@[simp] theorem setTrig_sec (s : State) (i : Fin 17) (t : TrigSt) : (s.setTrig i t).sec = s.sec := rfl
@[simp] theorem setTrig_clk (s : State) (i : Fin 17) (t : TrigSt) : (s.setTrig i t).clk = s.clk := rfl
@[simp] theorem setTrig_tim (s : State) (i : Fin 17) (t : TrigSt) : (s.setTrig i t).tim = s.tim := rfl
@[simp] theorem setTrig_muster (s : State) (i : Fin 17) (t : TrigSt) : (s.setTrig i t).muster = s.muster := rfl
@[simp] theorem setTrig_host (s : State) (i : Fin 17) (t : TrigSt) : (s.setTrig i t).host = s.host := rfl
@[simp] theorem setTrig_mem (s : State) (i : Fin 17) (t : TrigSt) : (s.setTrig i t).mem = s.mem := rfl
@[simp] theorem setTrig_dram (s : State) (i : Fin 17) (t : TrigSt) : (s.setTrig i t).dram = s.dram := rfl
@[simp] theorem setTrig_cores (s : State) (i : Fin 17) (t : TrigSt) : (s.setTrig i t).cores = s.cores := rfl
@[simp] theorem setTrig_rx (s : State) (i : Fin 17) (t : TrigSt) : (s.setTrig i t).rx = s.rx := rfl
@[simp] theorem setTrig_tx (s : State) (i : Fin 17) (t : TrigSt) : (s.setTrig i t).tx = s.tx := rfl
@[simp] theorem setTrig_chains (s : State) (i : Fin 17) (t : TrigSt) : (s.setTrig i t).chains = s.chains := rfl
@[simp] theorem setTrig_trigs (s : State) (i : Fin 17) (t : TrigSt) : (s.setTrig i t).trigs = s.trigs.set i t := rfl
@[simp] theorem setTrig_recs (s : State) (i : Fin 17) (t : TrigSt) : (s.setTrig i t).recs = s.recs := rfl
@[simp] theorem setTrig_chans (s : State) (i : Fin 17) (t : TrigSt) : (s.setTrig i t).chans = s.chans := rfl
@[simp] theorem setTrig_syns (s : State) (i : Fin 17) (t : TrigSt) : (s.setTrig i t).syns = s.syns := rfl
@[simp] theorem setTrig_tbus (s : State) (i : Fin 17) (t : TrigSt) : (s.setTrig i t).tbus = s.tbus := rfl
@[simp] theorem setTrig_xbar (s : State) (i : Fin 17) (t : TrigSt) : (s.setTrig i t).xbar = s.xbar := rfl
@[simp] theorem setTrig_queue (s : State) (i : Fin 17) (t : TrigSt) : (s.setTrig i t).queue = s.queue := rfl
@[simp] theorem setTrig_causes (s : State) (i : Fin 17) (t : TrigSt) : (s.setTrig i t).causes = s.causes := rfl
@[simp] theorem setTrig_tko (s : State) (i : Fin 17) (t : TrigSt) : (s.setTrig i t).tko = s.tko := rfl
@[simp] theorem setTrig_pl (s : State) (i : Fin 17) (t : TrigSt) : (s.setTrig i t).pl = s.pl := rfl
@[simp] theorem setTrig_cal (s : State) (i : Fin 17) (t : TrigSt) : (s.setTrig i t).cal = s.cal := rfl
@[simp] theorem setTrig_disp (s : State) (i : Fin 17) (t : TrigSt) : (s.setTrig i t).disp = s.disp := rfl
@[simp] theorem setTrig_hk (s : State) (i : Fin 17) (t : TrigSt) : (s.setTrig i t).hk = s.hk := rfl
@[simp] theorem setTrig_obs (s : State) (i : Fin 17) (t : TrigSt) : (s.setTrig i t).obs = s.obs := rfl
@[simp] theorem setTrig_stopped (s : State) (i : Fin 17) (t : TrigSt) : (s.setTrig i t).stopped = s.stopped := rfl
@[simp] theorem setTrig_draw (s : State) (i : Fin 17) (t : TrigSt) : (s.setTrig i t).draw = s.draw := rfl
@[simp] theorem setTrig_rd (s : State) (i : Fin 17) (t : TrigSt) (kb : Blk) (gf : Fld) : (s.setTrig i t).rd kb gf = s.rd kb gf := rfl
@[simp] theorem setTrig_word (s : State) (i : Fin 17) (t : TrigSt) (z : Nat) : (s.setTrig i t).word z = s.word z := rfl

/-! ### setRecs -/

@[simp] theorem setRecs_pending (s : State) (i : Fin 17) (r : RecSt) : (s.setRecs i r).pending = s.pending := rfl
@[simp] theorem setRecs_regs (s : State) (i : Fin 17) (r : RecSt) : (s.setRecs i r).regs = s.regs := rfl
@[simp] theorem setRecs_dev (s : State) (i : Fin 17) (r : RecSt) : (s.setRecs i r).dev = s.dev := rfl
@[simp] theorem setRecs_pins (s : State) (i : Fin 17) (r : RecSt) : (s.setRecs i r).pins = s.pins := rfl
@[simp] theorem setRecs_boot (s : State) (i : Fin 17) (r : RecSt) : (s.setRecs i r).boot = s.boot := rfl
@[simp] theorem setRecs_sec (s : State) (i : Fin 17) (r : RecSt) : (s.setRecs i r).sec = s.sec := rfl
@[simp] theorem setRecs_clk (s : State) (i : Fin 17) (r : RecSt) : (s.setRecs i r).clk = s.clk := rfl
@[simp] theorem setRecs_tim (s : State) (i : Fin 17) (r : RecSt) : (s.setRecs i r).tim = s.tim := rfl
@[simp] theorem setRecs_muster (s : State) (i : Fin 17) (r : RecSt) : (s.setRecs i r).muster = s.muster := rfl
@[simp] theorem setRecs_host (s : State) (i : Fin 17) (r : RecSt) : (s.setRecs i r).host = s.host := rfl
@[simp] theorem setRecs_mem (s : State) (i : Fin 17) (r : RecSt) : (s.setRecs i r).mem = s.mem := rfl
@[simp] theorem setRecs_dram (s : State) (i : Fin 17) (r : RecSt) : (s.setRecs i r).dram = s.dram := rfl
@[simp] theorem setRecs_cores (s : State) (i : Fin 17) (r : RecSt) : (s.setRecs i r).cores = s.cores := rfl
@[simp] theorem setRecs_rx (s : State) (i : Fin 17) (r : RecSt) : (s.setRecs i r).rx = s.rx := rfl
@[simp] theorem setRecs_tx (s : State) (i : Fin 17) (r : RecSt) : (s.setRecs i r).tx = s.tx := rfl
@[simp] theorem setRecs_chains (s : State) (i : Fin 17) (r : RecSt) : (s.setRecs i r).chains = s.chains := rfl
@[simp] theorem setRecs_trigs (s : State) (i : Fin 17) (r : RecSt) : (s.setRecs i r).trigs = s.trigs := rfl
@[simp] theorem setRecs_recs (s : State) (i : Fin 17) (r : RecSt) : (s.setRecs i r).recs = s.recs.set i r := rfl
@[simp] theorem setRecs_chans (s : State) (i : Fin 17) (r : RecSt) : (s.setRecs i r).chans = s.chans := rfl
@[simp] theorem setRecs_syns (s : State) (i : Fin 17) (r : RecSt) : (s.setRecs i r).syns = s.syns := rfl
@[simp] theorem setRecs_tbus (s : State) (i : Fin 17) (r : RecSt) : (s.setRecs i r).tbus = s.tbus := rfl
@[simp] theorem setRecs_xbar (s : State) (i : Fin 17) (r : RecSt) : (s.setRecs i r).xbar = s.xbar := rfl
@[simp] theorem setRecs_queue (s : State) (i : Fin 17) (r : RecSt) : (s.setRecs i r).queue = s.queue := rfl
@[simp] theorem setRecs_causes (s : State) (i : Fin 17) (r : RecSt) : (s.setRecs i r).causes = s.causes := rfl
@[simp] theorem setRecs_tko (s : State) (i : Fin 17) (r : RecSt) : (s.setRecs i r).tko = s.tko := rfl
@[simp] theorem setRecs_pl (s : State) (i : Fin 17) (r : RecSt) : (s.setRecs i r).pl = s.pl := rfl
@[simp] theorem setRecs_cal (s : State) (i : Fin 17) (r : RecSt) : (s.setRecs i r).cal = s.cal := rfl
@[simp] theorem setRecs_disp (s : State) (i : Fin 17) (r : RecSt) : (s.setRecs i r).disp = s.disp := rfl
@[simp] theorem setRecs_hk (s : State) (i : Fin 17) (r : RecSt) : (s.setRecs i r).hk = s.hk := rfl
@[simp] theorem setRecs_obs (s : State) (i : Fin 17) (r : RecSt) : (s.setRecs i r).obs = s.obs := rfl
@[simp] theorem setRecs_stopped (s : State) (i : Fin 17) (r : RecSt) : (s.setRecs i r).stopped = s.stopped := rfl
@[simp] theorem setRecs_draw (s : State) (i : Fin 17) (r : RecSt) : (s.setRecs i r).draw = s.draw := rfl
@[simp] theorem setRecs_rd (s : State) (i : Fin 17) (r : RecSt) (kb : Blk) (gf : Fld) : (s.setRecs i r).rd kb gf = s.rd kb gf := rfl
@[simp] theorem setRecs_word (s : State) (i : Fin 17) (r : RecSt) (z : Nat) : (s.setRecs i r).word z = s.word z := rfl

/-! ### setChan -/

@[simp] theorem setChan_pending (s : State) (i : Fin 17) (c : ChanSt) : (s.setChan i c).pending = s.pending := rfl
@[simp] theorem setChan_regs (s : State) (i : Fin 17) (c : ChanSt) : (s.setChan i c).regs = s.regs := rfl
@[simp] theorem setChan_dev (s : State) (i : Fin 17) (c : ChanSt) : (s.setChan i c).dev = s.dev := rfl
@[simp] theorem setChan_pins (s : State) (i : Fin 17) (c : ChanSt) : (s.setChan i c).pins = s.pins := rfl
@[simp] theorem setChan_boot (s : State) (i : Fin 17) (c : ChanSt) : (s.setChan i c).boot = s.boot := rfl
@[simp] theorem setChan_sec (s : State) (i : Fin 17) (c : ChanSt) : (s.setChan i c).sec = s.sec := rfl
@[simp] theorem setChan_clk (s : State) (i : Fin 17) (c : ChanSt) : (s.setChan i c).clk = s.clk := rfl
@[simp] theorem setChan_tim (s : State) (i : Fin 17) (c : ChanSt) : (s.setChan i c).tim = s.tim := rfl
@[simp] theorem setChan_muster (s : State) (i : Fin 17) (c : ChanSt) : (s.setChan i c).muster = s.muster := rfl
@[simp] theorem setChan_host (s : State) (i : Fin 17) (c : ChanSt) : (s.setChan i c).host = s.host := rfl
@[simp] theorem setChan_mem (s : State) (i : Fin 17) (c : ChanSt) : (s.setChan i c).mem = s.mem := rfl
@[simp] theorem setChan_dram (s : State) (i : Fin 17) (c : ChanSt) : (s.setChan i c).dram = s.dram := rfl
@[simp] theorem setChan_cores (s : State) (i : Fin 17) (c : ChanSt) : (s.setChan i c).cores = s.cores := rfl
@[simp] theorem setChan_rx (s : State) (i : Fin 17) (c : ChanSt) : (s.setChan i c).rx = s.rx := rfl
@[simp] theorem setChan_tx (s : State) (i : Fin 17) (c : ChanSt) : (s.setChan i c).tx = s.tx := rfl
@[simp] theorem setChan_chains (s : State) (i : Fin 17) (c : ChanSt) : (s.setChan i c).chains = s.chains := rfl
@[simp] theorem setChan_trigs (s : State) (i : Fin 17) (c : ChanSt) : (s.setChan i c).trigs = s.trigs := rfl
@[simp] theorem setChan_recs (s : State) (i : Fin 17) (c : ChanSt) : (s.setChan i c).recs = s.recs := rfl
@[simp] theorem setChan_chans (s : State) (i : Fin 17) (c : ChanSt) : (s.setChan i c).chans = s.chans.set i c := rfl
@[simp] theorem setChan_syns (s : State) (i : Fin 17) (c : ChanSt) : (s.setChan i c).syns = s.syns := rfl
@[simp] theorem setChan_tbus (s : State) (i : Fin 17) (c : ChanSt) : (s.setChan i c).tbus = s.tbus := rfl
@[simp] theorem setChan_xbar (s : State) (i : Fin 17) (c : ChanSt) : (s.setChan i c).xbar = s.xbar := rfl
@[simp] theorem setChan_queue (s : State) (i : Fin 17) (c : ChanSt) : (s.setChan i c).queue = s.queue := rfl
@[simp] theorem setChan_causes (s : State) (i : Fin 17) (c : ChanSt) : (s.setChan i c).causes = s.causes := rfl
@[simp] theorem setChan_tko (s : State) (i : Fin 17) (c : ChanSt) : (s.setChan i c).tko = s.tko := rfl
@[simp] theorem setChan_pl (s : State) (i : Fin 17) (c : ChanSt) : (s.setChan i c).pl = s.pl := rfl
@[simp] theorem setChan_cal (s : State) (i : Fin 17) (c : ChanSt) : (s.setChan i c).cal = s.cal := rfl
@[simp] theorem setChan_disp (s : State) (i : Fin 17) (c : ChanSt) : (s.setChan i c).disp = s.disp := rfl
@[simp] theorem setChan_hk (s : State) (i : Fin 17) (c : ChanSt) : (s.setChan i c).hk = s.hk := rfl
@[simp] theorem setChan_obs (s : State) (i : Fin 17) (c : ChanSt) : (s.setChan i c).obs = s.obs := rfl
@[simp] theorem setChan_stopped (s : State) (i : Fin 17) (c : ChanSt) : (s.setChan i c).stopped = s.stopped := rfl
@[simp] theorem setChan_draw (s : State) (i : Fin 17) (c : ChanSt) : (s.setChan i c).draw = s.draw := rfl
@[simp] theorem setChan_rd (s : State) (i : Fin 17) (c : ChanSt) (kb : Blk) (gf : Fld) : (s.setChan i c).rd kb gf = s.rd kb gf := rfl
@[simp] theorem setChan_word (s : State) (i : Fin 17) (c : ChanSt) (z : Nat) : (s.setChan i c).word z = s.word z := rfl

/-! ### setSyn -/

@[simp] theorem setSyn_pending (s : State) (i : Fin 17) (x : SynSt) : (s.setSyn i x).pending = s.pending := rfl
@[simp] theorem setSyn_regs (s : State) (i : Fin 17) (x : SynSt) : (s.setSyn i x).regs = s.regs := rfl
@[simp] theorem setSyn_dev (s : State) (i : Fin 17) (x : SynSt) : (s.setSyn i x).dev = s.dev := rfl
@[simp] theorem setSyn_pins (s : State) (i : Fin 17) (x : SynSt) : (s.setSyn i x).pins = s.pins := rfl
@[simp] theorem setSyn_boot (s : State) (i : Fin 17) (x : SynSt) : (s.setSyn i x).boot = s.boot := rfl
@[simp] theorem setSyn_sec (s : State) (i : Fin 17) (x : SynSt) : (s.setSyn i x).sec = s.sec := rfl
@[simp] theorem setSyn_clk (s : State) (i : Fin 17) (x : SynSt) : (s.setSyn i x).clk = s.clk := rfl
@[simp] theorem setSyn_tim (s : State) (i : Fin 17) (x : SynSt) : (s.setSyn i x).tim = s.tim := rfl
@[simp] theorem setSyn_muster (s : State) (i : Fin 17) (x : SynSt) : (s.setSyn i x).muster = s.muster := rfl
@[simp] theorem setSyn_host (s : State) (i : Fin 17) (x : SynSt) : (s.setSyn i x).host = s.host := rfl
@[simp] theorem setSyn_mem (s : State) (i : Fin 17) (x : SynSt) : (s.setSyn i x).mem = s.mem := rfl
@[simp] theorem setSyn_dram (s : State) (i : Fin 17) (x : SynSt) : (s.setSyn i x).dram = s.dram := rfl
@[simp] theorem setSyn_cores (s : State) (i : Fin 17) (x : SynSt) : (s.setSyn i x).cores = s.cores := rfl
@[simp] theorem setSyn_rx (s : State) (i : Fin 17) (x : SynSt) : (s.setSyn i x).rx = s.rx := rfl
@[simp] theorem setSyn_tx (s : State) (i : Fin 17) (x : SynSt) : (s.setSyn i x).tx = s.tx := rfl
@[simp] theorem setSyn_chains (s : State) (i : Fin 17) (x : SynSt) : (s.setSyn i x).chains = s.chains := rfl
@[simp] theorem setSyn_trigs (s : State) (i : Fin 17) (x : SynSt) : (s.setSyn i x).trigs = s.trigs := rfl
@[simp] theorem setSyn_recs (s : State) (i : Fin 17) (x : SynSt) : (s.setSyn i x).recs = s.recs := rfl
@[simp] theorem setSyn_chans (s : State) (i : Fin 17) (x : SynSt) : (s.setSyn i x).chans = s.chans := rfl
@[simp] theorem setSyn_syns (s : State) (i : Fin 17) (x : SynSt) : (s.setSyn i x).syns = s.syns.set i x := rfl
@[simp] theorem setSyn_tbus (s : State) (i : Fin 17) (x : SynSt) : (s.setSyn i x).tbus = s.tbus := rfl
@[simp] theorem setSyn_xbar (s : State) (i : Fin 17) (x : SynSt) : (s.setSyn i x).xbar = s.xbar := rfl
@[simp] theorem setSyn_queue (s : State) (i : Fin 17) (x : SynSt) : (s.setSyn i x).queue = s.queue := rfl
@[simp] theorem setSyn_causes (s : State) (i : Fin 17) (x : SynSt) : (s.setSyn i x).causes = s.causes := rfl
@[simp] theorem setSyn_tko (s : State) (i : Fin 17) (x : SynSt) : (s.setSyn i x).tko = s.tko := rfl
@[simp] theorem setSyn_pl (s : State) (i : Fin 17) (x : SynSt) : (s.setSyn i x).pl = s.pl := rfl
@[simp] theorem setSyn_cal (s : State) (i : Fin 17) (x : SynSt) : (s.setSyn i x).cal = s.cal := rfl
@[simp] theorem setSyn_disp (s : State) (i : Fin 17) (x : SynSt) : (s.setSyn i x).disp = s.disp := rfl
@[simp] theorem setSyn_hk (s : State) (i : Fin 17) (x : SynSt) : (s.setSyn i x).hk = s.hk := rfl
@[simp] theorem setSyn_obs (s : State) (i : Fin 17) (x : SynSt) : (s.setSyn i x).obs = s.obs := rfl
@[simp] theorem setSyn_stopped (s : State) (i : Fin 17) (x : SynSt) : (s.setSyn i x).stopped = s.stopped := rfl
@[simp] theorem setSyn_draw (s : State) (i : Fin 17) (x : SynSt) : (s.setSyn i x).draw = s.draw := rfl
@[simp] theorem setSyn_rd (s : State) (i : Fin 17) (x : SynSt) (kb : Blk) (gf : Fld) : (s.setSyn i x).rd kb gf = s.rd kb gf := rfl
@[simp] theorem setSyn_word (s : State) (i : Fin 17) (x : SynSt) (z : Nat) : (s.setSyn i x).word z = s.word z := rfl

/-! ### setRx -/

@[simp] theorem setRx_pending (s : State) (g : Fin 16) (r : RxSt) : (s.setRx g r).pending = s.pending := rfl
@[simp] theorem setRx_regs (s : State) (g : Fin 16) (r : RxSt) : (s.setRx g r).regs = s.regs := rfl
@[simp] theorem setRx_dev (s : State) (g : Fin 16) (r : RxSt) : (s.setRx g r).dev = s.dev := rfl
@[simp] theorem setRx_pins (s : State) (g : Fin 16) (r : RxSt) : (s.setRx g r).pins = s.pins := rfl
@[simp] theorem setRx_boot (s : State) (g : Fin 16) (r : RxSt) : (s.setRx g r).boot = s.boot := rfl
@[simp] theorem setRx_sec (s : State) (g : Fin 16) (r : RxSt) : (s.setRx g r).sec = s.sec := rfl
@[simp] theorem setRx_clk (s : State) (g : Fin 16) (r : RxSt) : (s.setRx g r).clk = s.clk := rfl
@[simp] theorem setRx_tim (s : State) (g : Fin 16) (r : RxSt) : (s.setRx g r).tim = s.tim := rfl
@[simp] theorem setRx_muster (s : State) (g : Fin 16) (r : RxSt) : (s.setRx g r).muster = s.muster := rfl
@[simp] theorem setRx_host (s : State) (g : Fin 16) (r : RxSt) : (s.setRx g r).host = s.host := rfl
@[simp] theorem setRx_mem (s : State) (g : Fin 16) (r : RxSt) : (s.setRx g r).mem = s.mem := rfl
@[simp] theorem setRx_dram (s : State) (g : Fin 16) (r : RxSt) : (s.setRx g r).dram = s.dram := rfl
@[simp] theorem setRx_cores (s : State) (g : Fin 16) (r : RxSt) : (s.setRx g r).cores = s.cores := rfl
@[simp] theorem setRx_rx (s : State) (g : Fin 16) (r : RxSt) : (s.setRx g r).rx = s.rx.set g r := rfl
@[simp] theorem setRx_tx (s : State) (g : Fin 16) (r : RxSt) : (s.setRx g r).tx = s.tx := rfl
@[simp] theorem setRx_chains (s : State) (g : Fin 16) (r : RxSt) : (s.setRx g r).chains = s.chains := rfl
@[simp] theorem setRx_trigs (s : State) (g : Fin 16) (r : RxSt) : (s.setRx g r).trigs = s.trigs := rfl
@[simp] theorem setRx_recs (s : State) (g : Fin 16) (r : RxSt) : (s.setRx g r).recs = s.recs := rfl
@[simp] theorem setRx_chans (s : State) (g : Fin 16) (r : RxSt) : (s.setRx g r).chans = s.chans := rfl
@[simp] theorem setRx_syns (s : State) (g : Fin 16) (r : RxSt) : (s.setRx g r).syns = s.syns := rfl
@[simp] theorem setRx_tbus (s : State) (g : Fin 16) (r : RxSt) : (s.setRx g r).tbus = s.tbus := rfl
@[simp] theorem setRx_xbar (s : State) (g : Fin 16) (r : RxSt) : (s.setRx g r).xbar = s.xbar := rfl
@[simp] theorem setRx_queue (s : State) (g : Fin 16) (r : RxSt) : (s.setRx g r).queue = s.queue := rfl
@[simp] theorem setRx_causes (s : State) (g : Fin 16) (r : RxSt) : (s.setRx g r).causes = s.causes := rfl
@[simp] theorem setRx_tko (s : State) (g : Fin 16) (r : RxSt) : (s.setRx g r).tko = s.tko := rfl
@[simp] theorem setRx_pl (s : State) (g : Fin 16) (r : RxSt) : (s.setRx g r).pl = s.pl := rfl
@[simp] theorem setRx_cal (s : State) (g : Fin 16) (r : RxSt) : (s.setRx g r).cal = s.cal := rfl
@[simp] theorem setRx_disp (s : State) (g : Fin 16) (r : RxSt) : (s.setRx g r).disp = s.disp := rfl
@[simp] theorem setRx_hk (s : State) (g : Fin 16) (r : RxSt) : (s.setRx g r).hk = s.hk := rfl
@[simp] theorem setRx_obs (s : State) (g : Fin 16) (r : RxSt) : (s.setRx g r).obs = s.obs := rfl
@[simp] theorem setRx_stopped (s : State) (g : Fin 16) (r : RxSt) : (s.setRx g r).stopped = s.stopped := rfl
@[simp] theorem setRx_draw (s : State) (g : Fin 16) (r : RxSt) : (s.setRx g r).draw = s.draw := rfl
@[simp] theorem setRx_rd (s : State) (g : Fin 16) (r : RxSt) (kb : Blk) (gf : Fld) : (s.setRx g r).rd kb gf = s.rd kb gf := rfl
@[simp] theorem setRx_word (s : State) (g : Fin 16) (r : RxSt) (z : Nat) : (s.setRx g r).word z = s.word z := rfl

/-! ### setTx -/

@[simp] theorem setTx_pending (s : State) (g : Fin 16) (x : TxSt) : (s.setTx g x).pending = s.pending := rfl
@[simp] theorem setTx_regs (s : State) (g : Fin 16) (x : TxSt) : (s.setTx g x).regs = s.regs := rfl
@[simp] theorem setTx_dev (s : State) (g : Fin 16) (x : TxSt) : (s.setTx g x).dev = s.dev := rfl
@[simp] theorem setTx_pins (s : State) (g : Fin 16) (x : TxSt) : (s.setTx g x).pins = s.pins := rfl
@[simp] theorem setTx_boot (s : State) (g : Fin 16) (x : TxSt) : (s.setTx g x).boot = s.boot := rfl
@[simp] theorem setTx_sec (s : State) (g : Fin 16) (x : TxSt) : (s.setTx g x).sec = s.sec := rfl
@[simp] theorem setTx_clk (s : State) (g : Fin 16) (x : TxSt) : (s.setTx g x).clk = s.clk := rfl
@[simp] theorem setTx_tim (s : State) (g : Fin 16) (x : TxSt) : (s.setTx g x).tim = s.tim := rfl
@[simp] theorem setTx_muster (s : State) (g : Fin 16) (x : TxSt) : (s.setTx g x).muster = s.muster := rfl
@[simp] theorem setTx_host (s : State) (g : Fin 16) (x : TxSt) : (s.setTx g x).host = s.host := rfl
@[simp] theorem setTx_mem (s : State) (g : Fin 16) (x : TxSt) : (s.setTx g x).mem = s.mem := rfl
@[simp] theorem setTx_dram (s : State) (g : Fin 16) (x : TxSt) : (s.setTx g x).dram = s.dram := rfl
@[simp] theorem setTx_cores (s : State) (g : Fin 16) (x : TxSt) : (s.setTx g x).cores = s.cores := rfl
@[simp] theorem setTx_rx (s : State) (g : Fin 16) (x : TxSt) : (s.setTx g x).rx = s.rx := rfl
@[simp] theorem setTx_tx (s : State) (g : Fin 16) (x : TxSt) : (s.setTx g x).tx = s.tx.set g x := rfl
@[simp] theorem setTx_chains (s : State) (g : Fin 16) (x : TxSt) : (s.setTx g x).chains = s.chains := rfl
@[simp] theorem setTx_trigs (s : State) (g : Fin 16) (x : TxSt) : (s.setTx g x).trigs = s.trigs := rfl
@[simp] theorem setTx_recs (s : State) (g : Fin 16) (x : TxSt) : (s.setTx g x).recs = s.recs := rfl
@[simp] theorem setTx_chans (s : State) (g : Fin 16) (x : TxSt) : (s.setTx g x).chans = s.chans := rfl
@[simp] theorem setTx_syns (s : State) (g : Fin 16) (x : TxSt) : (s.setTx g x).syns = s.syns := rfl
@[simp] theorem setTx_tbus (s : State) (g : Fin 16) (x : TxSt) : (s.setTx g x).tbus = s.tbus := rfl
@[simp] theorem setTx_xbar (s : State) (g : Fin 16) (x : TxSt) : (s.setTx g x).xbar = s.xbar := rfl
@[simp] theorem setTx_queue (s : State) (g : Fin 16) (x : TxSt) : (s.setTx g x).queue = s.queue := rfl
@[simp] theorem setTx_causes (s : State) (g : Fin 16) (x : TxSt) : (s.setTx g x).causes = s.causes := rfl
@[simp] theorem setTx_tko (s : State) (g : Fin 16) (x : TxSt) : (s.setTx g x).tko = s.tko := rfl
@[simp] theorem setTx_pl (s : State) (g : Fin 16) (x : TxSt) : (s.setTx g x).pl = s.pl := rfl
@[simp] theorem setTx_cal (s : State) (g : Fin 16) (x : TxSt) : (s.setTx g x).cal = s.cal := rfl
@[simp] theorem setTx_disp (s : State) (g : Fin 16) (x : TxSt) : (s.setTx g x).disp = s.disp := rfl
@[simp] theorem setTx_hk (s : State) (g : Fin 16) (x : TxSt) : (s.setTx g x).hk = s.hk := rfl
@[simp] theorem setTx_obs (s : State) (g : Fin 16) (x : TxSt) : (s.setTx g x).obs = s.obs := rfl
@[simp] theorem setTx_stopped (s : State) (g : Fin 16) (x : TxSt) : (s.setTx g x).stopped = s.stopped := rfl
@[simp] theorem setTx_draw (s : State) (g : Fin 16) (x : TxSt) : (s.setTx g x).draw = s.draw := rfl
@[simp] theorem setTx_rd (s : State) (g : Fin 16) (x : TxSt) (kb : Blk) (gf : Fld) : (s.setTx g x).rd kb gf = s.rd kb gf := rfl
@[simp] theorem setTx_word (s : State) (g : Fin 16) (x : TxSt) (z : Nat) : (s.setTx g x).word z = s.word z := rfl

/-! ### setDram -/

@[simp] theorem setDram_pending (s : State) (c : Fin 8) (d : DramSt) : (s.setDram c d).pending = s.pending := rfl
@[simp] theorem setDram_regs (s : State) (c : Fin 8) (d : DramSt) : (s.setDram c d).regs = s.regs := rfl
@[simp] theorem setDram_dev (s : State) (c : Fin 8) (d : DramSt) : (s.setDram c d).dev = s.dev := rfl
@[simp] theorem setDram_pins (s : State) (c : Fin 8) (d : DramSt) : (s.setDram c d).pins = s.pins := rfl
@[simp] theorem setDram_boot (s : State) (c : Fin 8) (d : DramSt) : (s.setDram c d).boot = s.boot := rfl
@[simp] theorem setDram_sec (s : State) (c : Fin 8) (d : DramSt) : (s.setDram c d).sec = s.sec := rfl
@[simp] theorem setDram_clk (s : State) (c : Fin 8) (d : DramSt) : (s.setDram c d).clk = s.clk := rfl
@[simp] theorem setDram_tim (s : State) (c : Fin 8) (d : DramSt) : (s.setDram c d).tim = s.tim := rfl
@[simp] theorem setDram_muster (s : State) (c : Fin 8) (d : DramSt) : (s.setDram c d).muster = s.muster := rfl
@[simp] theorem setDram_host (s : State) (c : Fin 8) (d : DramSt) : (s.setDram c d).host = s.host := rfl
@[simp] theorem setDram_mem (s : State) (c : Fin 8) (d : DramSt) : (s.setDram c d).mem = s.mem := rfl
@[simp] theorem setDram_dram (s : State) (c : Fin 8) (d : DramSt) : (s.setDram c d).dram = s.dram.set c d := rfl
@[simp] theorem setDram_cores (s : State) (c : Fin 8) (d : DramSt) : (s.setDram c d).cores = s.cores := rfl
@[simp] theorem setDram_rx (s : State) (c : Fin 8) (d : DramSt) : (s.setDram c d).rx = s.rx := rfl
@[simp] theorem setDram_tx (s : State) (c : Fin 8) (d : DramSt) : (s.setDram c d).tx = s.tx := rfl
@[simp] theorem setDram_chains (s : State) (c : Fin 8) (d : DramSt) : (s.setDram c d).chains = s.chains := rfl
@[simp] theorem setDram_trigs (s : State) (c : Fin 8) (d : DramSt) : (s.setDram c d).trigs = s.trigs := rfl
@[simp] theorem setDram_recs (s : State) (c : Fin 8) (d : DramSt) : (s.setDram c d).recs = s.recs := rfl
@[simp] theorem setDram_chans (s : State) (c : Fin 8) (d : DramSt) : (s.setDram c d).chans = s.chans := rfl
@[simp] theorem setDram_syns (s : State) (c : Fin 8) (d : DramSt) : (s.setDram c d).syns = s.syns := rfl
@[simp] theorem setDram_tbus (s : State) (c : Fin 8) (d : DramSt) : (s.setDram c d).tbus = s.tbus := rfl
@[simp] theorem setDram_xbar (s : State) (c : Fin 8) (d : DramSt) : (s.setDram c d).xbar = s.xbar := rfl
@[simp] theorem setDram_queue (s : State) (c : Fin 8) (d : DramSt) : (s.setDram c d).queue = s.queue := rfl
@[simp] theorem setDram_causes (s : State) (c : Fin 8) (d : DramSt) : (s.setDram c d).causes = s.causes := rfl
@[simp] theorem setDram_tko (s : State) (c : Fin 8) (d : DramSt) : (s.setDram c d).tko = s.tko := rfl
@[simp] theorem setDram_pl (s : State) (c : Fin 8) (d : DramSt) : (s.setDram c d).pl = s.pl := rfl
@[simp] theorem setDram_cal (s : State) (c : Fin 8) (d : DramSt) : (s.setDram c d).cal = s.cal := rfl
@[simp] theorem setDram_disp (s : State) (c : Fin 8) (d : DramSt) : (s.setDram c d).disp = s.disp := rfl
@[simp] theorem setDram_hk (s : State) (c : Fin 8) (d : DramSt) : (s.setDram c d).hk = s.hk := rfl
@[simp] theorem setDram_obs (s : State) (c : Fin 8) (d : DramSt) : (s.setDram c d).obs = s.obs := rfl
@[simp] theorem setDram_stopped (s : State) (c : Fin 8) (d : DramSt) : (s.setDram c d).stopped = s.stopped := rfl
@[simp] theorem setDram_draw (s : State) (c : Fin 8) (d : DramSt) : (s.setDram c d).draw = s.draw := rfl
@[simp] theorem setDram_rd (s : State) (c : Fin 8) (d : DramSt) (kb : Blk) (gf : Fld) : (s.setDram c d).rd kb gf = s.rd kb gf := rfl
@[simp] theorem setDram_word (s : State) (c : Fin 8) (d : DramSt) (z : Nat) : (s.setDram c d).word z = s.word z := rfl

/-! ### setDisp -/

@[simp] theorem setDisp_pending (s : State) (d : Fin 2) (x : DispSt) : (s.setDisp d x).pending = s.pending := rfl
@[simp] theorem setDisp_regs (s : State) (d : Fin 2) (x : DispSt) : (s.setDisp d x).regs = s.regs := rfl
@[simp] theorem setDisp_dev (s : State) (d : Fin 2) (x : DispSt) : (s.setDisp d x).dev = s.dev := rfl
@[simp] theorem setDisp_pins (s : State) (d : Fin 2) (x : DispSt) : (s.setDisp d x).pins = s.pins := rfl
@[simp] theorem setDisp_boot (s : State) (d : Fin 2) (x : DispSt) : (s.setDisp d x).boot = s.boot := rfl
@[simp] theorem setDisp_sec (s : State) (d : Fin 2) (x : DispSt) : (s.setDisp d x).sec = s.sec := rfl
@[simp] theorem setDisp_clk (s : State) (d : Fin 2) (x : DispSt) : (s.setDisp d x).clk = s.clk := rfl
@[simp] theorem setDisp_tim (s : State) (d : Fin 2) (x : DispSt) : (s.setDisp d x).tim = s.tim := rfl
@[simp] theorem setDisp_muster (s : State) (d : Fin 2) (x : DispSt) : (s.setDisp d x).muster = s.muster := rfl
@[simp] theorem setDisp_host (s : State) (d : Fin 2) (x : DispSt) : (s.setDisp d x).host = s.host := rfl
@[simp] theorem setDisp_mem (s : State) (d : Fin 2) (x : DispSt) : (s.setDisp d x).mem = s.mem := rfl
@[simp] theorem setDisp_dram (s : State) (d : Fin 2) (x : DispSt) : (s.setDisp d x).dram = s.dram := rfl
@[simp] theorem setDisp_cores (s : State) (d : Fin 2) (x : DispSt) : (s.setDisp d x).cores = s.cores := rfl
@[simp] theorem setDisp_rx (s : State) (d : Fin 2) (x : DispSt) : (s.setDisp d x).rx = s.rx := rfl
@[simp] theorem setDisp_tx (s : State) (d : Fin 2) (x : DispSt) : (s.setDisp d x).tx = s.tx := rfl
@[simp] theorem setDisp_chains (s : State) (d : Fin 2) (x : DispSt) : (s.setDisp d x).chains = s.chains := rfl
@[simp] theorem setDisp_trigs (s : State) (d : Fin 2) (x : DispSt) : (s.setDisp d x).trigs = s.trigs := rfl
@[simp] theorem setDisp_recs (s : State) (d : Fin 2) (x : DispSt) : (s.setDisp d x).recs = s.recs := rfl
@[simp] theorem setDisp_chans (s : State) (d : Fin 2) (x : DispSt) : (s.setDisp d x).chans = s.chans := rfl
@[simp] theorem setDisp_syns (s : State) (d : Fin 2) (x : DispSt) : (s.setDisp d x).syns = s.syns := rfl
@[simp] theorem setDisp_tbus (s : State) (d : Fin 2) (x : DispSt) : (s.setDisp d x).tbus = s.tbus := rfl
@[simp] theorem setDisp_xbar (s : State) (d : Fin 2) (x : DispSt) : (s.setDisp d x).xbar = s.xbar := rfl
@[simp] theorem setDisp_queue (s : State) (d : Fin 2) (x : DispSt) : (s.setDisp d x).queue = s.queue := rfl
@[simp] theorem setDisp_causes (s : State) (d : Fin 2) (x : DispSt) : (s.setDisp d x).causes = s.causes := rfl
@[simp] theorem setDisp_tko (s : State) (d : Fin 2) (x : DispSt) : (s.setDisp d x).tko = s.tko := rfl
@[simp] theorem setDisp_pl (s : State) (d : Fin 2) (x : DispSt) : (s.setDisp d x).pl = s.pl := rfl
@[simp] theorem setDisp_cal (s : State) (d : Fin 2) (x : DispSt) : (s.setDisp d x).cal = s.cal := rfl
@[simp] theorem setDisp_disp (s : State) (d : Fin 2) (x : DispSt) : (s.setDisp d x).disp = s.disp.set d x := rfl
@[simp] theorem setDisp_hk (s : State) (d : Fin 2) (x : DispSt) : (s.setDisp d x).hk = s.hk := rfl
@[simp] theorem setDisp_obs (s : State) (d : Fin 2) (x : DispSt) : (s.setDisp d x).obs = s.obs := rfl
@[simp] theorem setDisp_stopped (s : State) (d : Fin 2) (x : DispSt) : (s.setDisp d x).stopped = s.stopped := rfl
@[simp] theorem setDisp_draw (s : State) (d : Fin 2) (x : DispSt) : (s.setDisp d x).draw = s.draw := rfl
@[simp] theorem setDisp_rd (s : State) (d : Fin 2) (x : DispSt) (kb : Blk) (gf : Fld) : (s.setDisp d x).rd kb gf = s.rd kb gf := rfl
@[simp] theorem setDisp_word (s : State) (d : Fin 2) (x : DispSt) (z : Nat) : (s.setDisp d x).word z = s.word z := rfl

/-! ### setConv -/

@[simp] theorem setConv_pending (s : State) (v : Fin 2) (c : ConvSt) : (s.setConv v c).pending = s.pending := rfl
@[simp] theorem setConv_regs (s : State) (v : Fin 2) (c : ConvSt) : (s.setConv v c).regs = s.regs := rfl
@[simp] theorem setConv_dev (s : State) (v : Fin 2) (c : ConvSt) : (s.setConv v c).dev = s.dev := rfl
@[simp] theorem setConv_pins (s : State) (v : Fin 2) (c : ConvSt) : (s.setConv v c).pins = s.pins := rfl
@[simp] theorem setConv_boot (s : State) (v : Fin 2) (c : ConvSt) : (s.setConv v c).boot = s.boot := rfl
@[simp] theorem setConv_sec (s : State) (v : Fin 2) (c : ConvSt) : (s.setConv v c).sec = s.sec := rfl
@[simp] theorem setConv_clk (s : State) (v : Fin 2) (c : ConvSt) : (s.setConv v c).clk = s.clk := rfl
@[simp] theorem setConv_tim (s : State) (v : Fin 2) (c : ConvSt) : (s.setConv v c).tim = s.tim := rfl
@[simp] theorem setConv_muster (s : State) (v : Fin 2) (c : ConvSt) : (s.setConv v c).muster = s.muster := rfl
@[simp] theorem setConv_host (s : State) (v : Fin 2) (c : ConvSt) : (s.setConv v c).host = s.host := rfl
@[simp] theorem setConv_mem (s : State) (v : Fin 2) (c : ConvSt) : (s.setConv v c).mem = s.mem := rfl
@[simp] theorem setConv_dram (s : State) (v : Fin 2) (c : ConvSt) : (s.setConv v c).dram = s.dram := rfl
@[simp] theorem setConv_cores (s : State) (v : Fin 2) (c : ConvSt) : (s.setConv v c).cores = s.cores := rfl
@[simp] theorem setConv_rx (s : State) (v : Fin 2) (c : ConvSt) : (s.setConv v c).rx = s.rx := rfl
@[simp] theorem setConv_tx (s : State) (v : Fin 2) (c : ConvSt) : (s.setConv v c).tx = s.tx := rfl
@[simp] theorem setConv_chains (s : State) (v : Fin 2) (c : ConvSt) : (s.setConv v c).chains = s.chains := rfl
@[simp] theorem setConv_trigs (s : State) (v : Fin 2) (c : ConvSt) : (s.setConv v c).trigs = s.trigs := rfl
@[simp] theorem setConv_recs (s : State) (v : Fin 2) (c : ConvSt) : (s.setConv v c).recs = s.recs := rfl
@[simp] theorem setConv_chans (s : State) (v : Fin 2) (c : ConvSt) : (s.setConv v c).chans = s.chans := rfl
@[simp] theorem setConv_syns (s : State) (v : Fin 2) (c : ConvSt) : (s.setConv v c).syns = s.syns := rfl
@[simp] theorem setConv_tbus (s : State) (v : Fin 2) (c : ConvSt) : (s.setConv v c).tbus = s.tbus := rfl
@[simp] theorem setConv_xbar (s : State) (v : Fin 2) (c : ConvSt) : (s.setConv v c).xbar = s.xbar := rfl
@[simp] theorem setConv_queue (s : State) (v : Fin 2) (c : ConvSt) : (s.setConv v c).queue = s.queue := rfl
@[simp] theorem setConv_causes (s : State) (v : Fin 2) (c : ConvSt) : (s.setConv v c).causes = s.causes := rfl
@[simp] theorem setConv_tko (s : State) (v : Fin 2) (c : ConvSt) : (s.setConv v c).tko = s.tko := rfl
@[simp] theorem setConv_pl (s : State) (v : Fin 2) (c : ConvSt) : (s.setConv v c).pl = s.pl := rfl
@[simp] theorem setConv_cal (s : State) (v : Fin 2) (c : ConvSt) : (s.setConv v c).cal = s.cal := rfl
@[simp] theorem setConv_disp (s : State) (v : Fin 2) (c : ConvSt) : (s.setConv v c).disp = s.disp := rfl
@[simp] theorem setConv_obs (s : State) (v : Fin 2) (c : ConvSt) : (s.setConv v c).obs = s.obs := rfl
@[simp] theorem setConv_stopped (s : State) (v : Fin 2) (c : ConvSt) : (s.setConv v c).stopped = s.stopped := rfl
@[simp] theorem setConv_draw (s : State) (v : Fin 2) (c : ConvSt) : (s.setConv v c).draw = s.draw := rfl
@[simp] theorem setConv_rd (s : State) (v : Fin 2) (c : ConvSt) (kb : Blk) (gf : Fld) : (s.setConv v c).rd kb gf = s.rd kb gf := rfl
@[simp] theorem setConv_word (s : State) (v : Fin 2) (c : ConvSt) (z : Nat) : (s.setConv v c).word z = s.word z := rfl

/-! ### setRing -/

@[simp] theorem setRing_pending (s : State) (r : Fin 256) (x : RingSt) : (s.setRing r x).pending = s.pending := rfl
@[simp] theorem setRing_regs (s : State) (r : Fin 256) (x : RingSt) : (s.setRing r x).regs = s.regs := rfl
@[simp] theorem setRing_dev (s : State) (r : Fin 256) (x : RingSt) : (s.setRing r x).dev = s.dev := rfl
@[simp] theorem setRing_pins (s : State) (r : Fin 256) (x : RingSt) : (s.setRing r x).pins = s.pins := rfl
@[simp] theorem setRing_boot (s : State) (r : Fin 256) (x : RingSt) : (s.setRing r x).boot = s.boot := rfl
@[simp] theorem setRing_sec (s : State) (r : Fin 256) (x : RingSt) : (s.setRing r x).sec = s.sec := rfl
@[simp] theorem setRing_clk (s : State) (r : Fin 256) (x : RingSt) : (s.setRing r x).clk = s.clk := rfl
@[simp] theorem setRing_tim (s : State) (r : Fin 256) (x : RingSt) : (s.setRing r x).tim = s.tim := rfl
@[simp] theorem setRing_muster (s : State) (r : Fin 256) (x : RingSt) : (s.setRing r x).muster = s.muster := rfl
@[simp] theorem setRing_mem (s : State) (r : Fin 256) (x : RingSt) : (s.setRing r x).mem = s.mem := rfl
@[simp] theorem setRing_dram (s : State) (r : Fin 256) (x : RingSt) : (s.setRing r x).dram = s.dram := rfl
@[simp] theorem setRing_cores (s : State) (r : Fin 256) (x : RingSt) : (s.setRing r x).cores = s.cores := rfl
@[simp] theorem setRing_rx (s : State) (r : Fin 256) (x : RingSt) : (s.setRing r x).rx = s.rx := rfl
@[simp] theorem setRing_tx (s : State) (r : Fin 256) (x : RingSt) : (s.setRing r x).tx = s.tx := rfl
@[simp] theorem setRing_chains (s : State) (r : Fin 256) (x : RingSt) : (s.setRing r x).chains = s.chains := rfl
@[simp] theorem setRing_trigs (s : State) (r : Fin 256) (x : RingSt) : (s.setRing r x).trigs = s.trigs := rfl
@[simp] theorem setRing_recs (s : State) (r : Fin 256) (x : RingSt) : (s.setRing r x).recs = s.recs := rfl
@[simp] theorem setRing_chans (s : State) (r : Fin 256) (x : RingSt) : (s.setRing r x).chans = s.chans := rfl
@[simp] theorem setRing_syns (s : State) (r : Fin 256) (x : RingSt) : (s.setRing r x).syns = s.syns := rfl
@[simp] theorem setRing_tbus (s : State) (r : Fin 256) (x : RingSt) : (s.setRing r x).tbus = s.tbus := rfl
@[simp] theorem setRing_xbar (s : State) (r : Fin 256) (x : RingSt) : (s.setRing r x).xbar = s.xbar := rfl
@[simp] theorem setRing_queue (s : State) (r : Fin 256) (x : RingSt) : (s.setRing r x).queue = s.queue := rfl
@[simp] theorem setRing_causes (s : State) (r : Fin 256) (x : RingSt) : (s.setRing r x).causes = s.causes := rfl
@[simp] theorem setRing_tko (s : State) (r : Fin 256) (x : RingSt) : (s.setRing r x).tko = s.tko := rfl
@[simp] theorem setRing_pl (s : State) (r : Fin 256) (x : RingSt) : (s.setRing r x).pl = s.pl := rfl
@[simp] theorem setRing_cal (s : State) (r : Fin 256) (x : RingSt) : (s.setRing r x).cal = s.cal := rfl
@[simp] theorem setRing_disp (s : State) (r : Fin 256) (x : RingSt) : (s.setRing r x).disp = s.disp := rfl
@[simp] theorem setRing_hk (s : State) (r : Fin 256) (x : RingSt) : (s.setRing r x).hk = s.hk := rfl
@[simp] theorem setRing_obs (s : State) (r : Fin 256) (x : RingSt) : (s.setRing r x).obs = s.obs := rfl
@[simp] theorem setRing_stopped (s : State) (r : Fin 256) (x : RingSt) : (s.setRing r x).stopped = s.stopped := rfl
@[simp] theorem setRing_draw (s : State) (r : Fin 256) (x : RingSt) : (s.setRing r x).draw = s.draw := rfl
@[simp] theorem setRing_rd (s : State) (r : Fin 256) (x : RingSt) (kb : Blk) (gf : Fld) : (s.setRing r x).rd kb gf = s.rd kb gf := rfl
@[simp] theorem setRing_word (s : State) (r : Fin 256) (x : RingSt) (z : Nat) : (s.setRing r x).word z = s.word z := rfl

/-! ### aerAbort -/

@[simp] theorem aerAbort_pending (s : State) : (s.aerAbort).pending = s.pending := rfl
@[simp] theorem aerAbort_regs (s : State) : (s.aerAbort).regs = s.regs := rfl
@[simp] theorem aerAbort_dev (s : State) : (s.aerAbort).dev = s.dev := rfl
@[simp] theorem aerAbort_pins (s : State) : (s.aerAbort).pins = s.pins := rfl
@[simp] theorem aerAbort_boot (s : State) : (s.aerAbort).boot = s.boot := rfl
@[simp] theorem aerAbort_sec (s : State) : (s.aerAbort).sec = s.sec := rfl
@[simp] theorem aerAbort_clk (s : State) : (s.aerAbort).clk = s.clk := rfl
@[simp] theorem aerAbort_tim (s : State) : (s.aerAbort).tim = s.tim := rfl
@[simp] theorem aerAbort_muster (s : State) : (s.aerAbort).muster = s.muster := rfl
@[simp] theorem aerAbort_mem (s : State) : (s.aerAbort).mem = s.mem := rfl
@[simp] theorem aerAbort_dram (s : State) : (s.aerAbort).dram = s.dram := rfl
@[simp] theorem aerAbort_cores (s : State) : (s.aerAbort).cores = s.cores := rfl
@[simp] theorem aerAbort_rx (s : State) : (s.aerAbort).rx = s.rx := rfl
@[simp] theorem aerAbort_tx (s : State) : (s.aerAbort).tx = s.tx := rfl
@[simp] theorem aerAbort_chains (s : State) : (s.aerAbort).chains = s.chains := rfl
@[simp] theorem aerAbort_trigs (s : State) : (s.aerAbort).trigs = s.trigs := rfl
@[simp] theorem aerAbort_recs (s : State) : (s.aerAbort).recs = s.recs := rfl
@[simp] theorem aerAbort_chans (s : State) : (s.aerAbort).chans = s.chans := rfl
@[simp] theorem aerAbort_syns (s : State) : (s.aerAbort).syns = s.syns := rfl
@[simp] theorem aerAbort_tbus (s : State) : (s.aerAbort).tbus = s.tbus := rfl
@[simp] theorem aerAbort_xbar (s : State) : (s.aerAbort).xbar = s.xbar := rfl
@[simp] theorem aerAbort_queue (s : State) : (s.aerAbort).queue = s.queue := rfl
@[simp] theorem aerAbort_causes (s : State) : (s.aerAbort).causes = s.causes := rfl
@[simp] theorem aerAbort_tko (s : State) : (s.aerAbort).tko = s.tko := rfl
@[simp] theorem aerAbort_pl (s : State) : (s.aerAbort).pl = s.pl := rfl
@[simp] theorem aerAbort_cal (s : State) : (s.aerAbort).cal = s.cal := rfl
@[simp] theorem aerAbort_disp (s : State) : (s.aerAbort).disp = s.disp := rfl
@[simp] theorem aerAbort_hk (s : State) : (s.aerAbort).hk = s.hk := rfl
@[simp] theorem aerAbort_obs (s : State) : (s.aerAbort).obs = s.obs := rfl
@[simp] theorem aerAbort_stopped (s : State) : (s.aerAbort).stopped = s.stopped := rfl
@[simp] theorem aerAbort_draw (s : State) : (s.aerAbort).draw = s.draw := rfl
@[simp] theorem aerAbort_rd (s : State) (kb : Blk) (gf : Fld) : (s.aerAbort).rd kb gf = s.rd kb gf := rfl
@[simp] theorem aerAbort_word (s : State) (z : Nat) : (s.aerAbort).word z = s.word z := rfl

end Sys2Proof.Laws
end

