-- ==== Sys2Proof/Laws/Memory.lean ====
section
/-!
SUPPORT. Sys2Proof/Laws/Memory.lean: the memory operations keep the canonical form of every memory, and an access to one memory
leaves the others.
-/
namespace Sys2Proof.Laws
open Sys2Proof Sys2Proof.Machine

/-- The reset state's memories are in canonical form. -/
theorem memWf_reset : Memory.wf State.reset.mem = true := by decide

theorem all_vec_set {α : Type} {n : Nat} (p : α → Bool) (v : Vector α n) (i : Nat) (h : i < n) (x : α) (hv : v.toList.all p = true)
    (hx : p x = true) : (v.set i x h).toList.all p = true := by
  rw [List.all_eq_true] at hv ⊢
  intro y hy
  rw [Vector.toList_set] at hy
  rcases List.mem_or_eq_of_mem_set hy with h | h
  · exact hv y h
  · exact h ▸ hx

theorem all_vec_get {α : Type} {n : Nat} (p : α → Bool) (v : Vector α n) (i : Nat) (h : i < n) (hv : v.toList.all p = true) :
    p v[i] = true := by
  rw [List.all_eq_true] at hv
  exact hv _ (by simp)

/-- The canonical form of all memories, part by part. -/
theorem memWf_iff (m : MemSt) : Memory.wf m = true ↔
    SMap.wf zeroByte m.depot = true ∧ m.lmem.toList.all (SMap.wf zeroByte) = true ∧ m.imem.toList.all (SMap.wf zeroByte) = true
    ∧ SMap.wf zeroByte m.dram = true ∧ SMap.wf noBad m.depotBad = true ∧ m.lmemBad.toList.all (SMap.wf noBad) = true
    ∧ m.imemBad.toList.all (SMap.wf noBad) = true ∧ SMap.wf noBad m.dramBad = true := by
  simp only [Memory.wf, Bool.and_eq_true]; tauto

theorem wf_sram (s : State) (m : SramId) (h : Memory.wf s.mem = true) :
    SMap.wf zeroByte (s.sram m) = true ∧ SMap.wf noBad (s.sramBad m) = true := by
  rw [memWf_iff] at h
  obtain ⟨h1, h2, h3, -, h5, h6, h7, -⟩ := h
  cases m with
  | depot => exact ⟨h1, h5⟩
  | lmem i => exact ⟨all_vec_get _ _ i.val i.isLt h2, all_vec_get _ _ i.val i.isLt h6⟩
  | imem i => exact ⟨all_vec_get _ _ i.val i.isLt h3, all_vec_get _ _ i.val i.isLt h7⟩

theorem memWf_setSram (s : State) (m : SramId) (bs : SMap Byte) (bad : SMap Bool) (h : Memory.wf s.mem = true)
    (hb : SMap.wf zeroByte bs = true) (he : SMap.wf noBad bad = true) : Memory.wf (s.setSram m bs bad).mem = true := by
  rw [memWf_iff] at h ⊢
  obtain ⟨h1, h2, h3, h4, h5, h6, h7, h8⟩ := h
  cases m with
  | depot => exact ⟨hb, h2, h3, h4, he, h6, h7, h8⟩
  | lmem i => exact ⟨h1, all_vec_set _ _ i.val i.isLt _ h2 hb, h3, h4, h5, all_vec_set _ _ i.val i.isLt _ h6 he, h7, h8⟩
  | imem i => exact ⟨h1, h2, all_vec_set _ _ i.val i.isLt _ h3 hb, h4, h5, h6, all_vec_set _ _ i.val i.isLt _ h7 he, h8⟩

theorem wf_eccWriteWords (a : Nat) (data : List (Option Byte)) : ∀ (ws : List Nat) (bs : SMap Byte) (bad : SMap Bool) (n : Nat),
    SMap.wf zeroByte bs = true → SMap.wf noBad bad = true →
    SMap.wf zeroByte (eccWriteWords a data ws (bs, bad, n)).1 = true ∧ SMap.wf noBad (eccWriteWords a data ws (bs, bad, n)).2.1 = true := by
  intro ws
  induction ws with
  | nil => intro bs bad n h g; exact ⟨h, g⟩
  | cons w ws ih =>
    intro bs bad n h g
    unfold eccWriteWords
    dsimp only
    split
    · split
      · exact ih _ _ _ (wf_memWriteOpt _ _ _ h) (wf_erase _ _ _ g)
      · exact ih _ _ _ h g
    · exact ih _ _ _ (wf_memWriteOpt _ _ _ h) g

@[simp] theorem countDropped_mem (m : SramId) (n : Nat) (s : State) : (countDropped m n s).mem = s.mem := by
  cases m <;> simp [countDropped]

/-- A write to an on-chip memory keeps the canonical form. -/
theorem memWf_sramWrite (m : SramId) (a : Nat) (data : List (Option Byte)) (s : State) (h : Memory.wf s.mem = true) :
    Memory.wf (sramWrite m a data s).mem = true := by
  have hs := wf_sram s m h
  simp only [sramWrite, countDropped_mem]
  exact memWf_setSram _ _ _ _ h (wf_eccWriteWords _ _ _ _ _ _ hs.1 hs.2).1 (wf_eccWriteWords _ _ _ _ _ _ hs.1 hs.2).2

theorem setSram_sram_ne (s : State) (m k : SramId) (bs : SMap Byte) (bad : SMap Bool) (h : k ≠ m) :
    (s.setSram m bs bad).sram k = s.sram k := by
  cases m <;> cases k <;> first | rfl | skip
  · exact absurd rfl h
  · rename_i i j
    have : i.val ≠ j.val := fun e => h (by rw [Fin.ext e])
    simp [State.setSram, State.sram, this]
  · rename_i i j
    have : i.val ≠ j.val := fun e => h (by rw [Fin.ext e])
    simp [State.setSram, State.sram, this]

/-- A write to one on-chip memory leaves every other. -/
theorem sramWrite_sram_ne (m k : SramId) (a : Nat) (data : List (Option Byte)) (s : State) (h : k ≠ m) :
    (sramWrite m a data s).sram k = s.sram k := by
  have e : ∀ n t, (countDropped m n t).sram k = t.sram k := by intro n t; cases k <;> simp [State.sram]
  simp only [sramWrite, e]
  exact setSram_sram_ne _ _ _ _ _ h

@[simp] theorem sramWrite_dram (m : SramId) (a : Nat) (data : List (Option Byte)) (s : State) :
    (sramWrite m a data s).mem.dram = s.mem.dram := by
  cases m <;> simp [sramWrite, State.setSram]

theorem ferryPass_mem (b : Blk) (level hw : Fld) (depth n : Nat) (s : State) : (ferryPass b level hw depth n s).mem = s.mem := by
  unfold ferryPass; dsimp only; split <;> rfl

theorem showMemWr_mem (c : Fin 8) (s : State) : (showMemWr c s).mem = s.mem := by
  unfold showMemWr ferryLevel; dsimp only; split <;> rfl

/-- A line that reaches the array keeps the canonical form. -/
theorem memWf_dramPutLine (w : Nat) (ds : List (Option Byte)) (s : State) (h : Memory.wf s.mem = true) :
    Memory.wf (dramPutLine w ds s).mem = true := by
  obtain ⟨h1, h2, h3, h4, h5, h6, h7, h8⟩ := (memWf_iff s.mem).1 h
  unfold dramPutLine
  split
  · split
    · exact (memWf_iff _).2 ⟨h1, h2, h3, wf_memWriteOpt _ _ _ h4, h5, h6, h7, wf_erase _ _ _ h8⟩
    · split
      · exact h
      · rw [cnt_mem]; exact h
  · exact (memWf_iff _).2 ⟨h1, h2, h3, wf_memWriteOpt _ _ _ h4, h5, h6, h7, h8⟩

/-- The memories after a line is handed to mem_wr: as they were, while it waits or is lost, or as the array takes it. -/
theorem dramWriteLine_mem (w : Nat) (ds : List (Option Byte)) (s : State) :
    (dramWriteLine w ds s).mem = s.mem ∨ (dramWriteLine w ds s).mem = (dramPutLine w ds s).mem := by
  unfold dramWriteLine
  dsimp only
  split
  · exact .inl rfl
  · split
    · exact .inr (ferryPass_mem _ _ _ _ _ _)
    · exact .inl (showMemWr_mem _ _)

theorem memWf_dramWriteLines (a : Nat) (data : List (Option Byte)) : ∀ (ws : List Nat) (s : State), Memory.wf s.mem = true →
    Memory.wf (dramWriteLines a data ws s).mem = true := by
  intro ws
  induction ws with
  | nil => intro s h; exact h
  | cons w ws ih =>
    intro s h
    apply ih
    rcases dramWriteLine_mem w ((List.range 64).map (fun i => if a ≤ w + i then (data.getD (w + i - a) none) else none)) s with e | e
    · rw [e]; exact h
    · rw [e]; exact memWf_dramPutLine _ _ _ h

/-- A write to DRAM keeps the canonical form. -/
theorem memWf_dramWriteOpt (a : Nat) (data : List (Option Byte)) (s : State) (h : Memory.wf s.mem = true) :
    Memory.wf (dramWriteOpt a data s).mem = true := memWf_dramWriteLines _ _ _ _ h

theorem memWf_dramWrite (a : Nat) (data : List Byte) (s : State) (h : Memory.wf s.mem = true) :
    Memory.wf (dramWrite a data s).mem = true := memWf_dramWriteOpt _ _ _ h

/-- A byte of a memory after a write with enables. -/
theorem get_memWriteOpt (ds : List (Option Byte)) : ∀ (m : SMap Byte) (a x : Nat),
    SMap.get zeroByte (memWriteOpt m a ds) x = if a ≤ x then (ds.getD (x - a) none).getD (SMap.get zeroByte m x) else SMap.get zeroByte m x := by
  induction ds with
  | nil => intro m a x; simp [memWriteOpt]
  | cons o ds ih =>
    intro m a x
    by_cases hx : a = x
    · subst hx
      cases o with
      | none => simp [memWriteOpt, ih]
      | some b => simp [memWriteOpt, ih, get_set]
    · by_cases hlt : a ≤ x
      · have h1 : a + 1 ≤ x := by omega
        have h2 : x - a = (x - (a + 1)) + 1 := by omega
        cases o with
        | none => simp [memWriteOpt, ih, hlt, h1, h2]
        | some b => simp [memWriteOpt, ih, hlt, h1, h2, get_set, Ne.symm hx]
      · have h1 : ¬ a + 1 ≤ x := by omega
        cases o with
        | none => simp [memWriteOpt, ih, hlt, h1]
        | some b => simp [memWriteOpt, ih, hlt, h1, get_set, Ne.symm hx]

/-- The part of a write that falls in the `n` bytes from `w` writes no byte outside the written range. -/
theorem get_memWriteOpt_part (m : SMap Byte) (a w n x : Nat) (data : List (Option Byte)) (h : x < a ∨ a + data.length ≤ x) :
    SMap.get zeroByte (memWriteOpt m w ((List.range n).map (fun i => if a ≤ w + i then (data.getD (w + i - a) none) else none))) x
      = SMap.get zeroByte m x := by
  rw [get_memWriteOpt]
  split
  · rename_i hw
    by_cases hn : x - w < n
    · have hx : w + (x - w) = x := by omega
      simp only [List.getD_eq_getElem?_getD, List.getElem?_map, List.getElem?_range hn, Option.map_some, Option.getD_some, hx]
      split
      · have : data.length ≤ x - a := by omega
        simp [this]
      · rfl
    · simp [List.getD_eq_getElem?_getD, Nat.le_of_not_lt hn]
  · rfl

theorem get_eccWriteWords_out (a x : Nat) (data : List (Option Byte)) (h : x < a ∨ a + data.length ≤ x) :
    ∀ (ws : List Nat) (bs : SMap Byte) (bad : SMap Bool) (n : Nat),
    SMap.get zeroByte (eccWriteWords a data ws (bs, bad, n)).1 x = SMap.get zeroByte bs x := by
  intro ws
  induction ws with
  | nil => intro bs bad n; rfl
  | cons w ws ih =>
    intro bs bad n
    unfold eccWriteWords
    dsimp only
    split
    · split
      · rw [ih, get_memWriteOpt_part _ _ _ _ _ _ h]
      · rw [ih]
    · rw [ih, get_memWriteOpt_part _ _ _ _ _ _ h]

theorem setSram_sram_self (s : State) (m : SramId) (bs : SMap Byte) (bad : SMap Bool) : (s.setSram m bs bad).sram m = bs := by
  cases m <;> simp [State.setSram, State.sram]

/-- A write to an on-chip memory leaves every byte outside the written range. -/
theorem sramWrite_out (m : SramId) (a x : Nat) (data : List (Option Byte)) (s : State) (h : x < a ∨ a + data.length ≤ x) :
    SMap.get zeroByte ((sramWrite m a data s).sram m) x = SMap.get zeroByte (s.sram m) x := by
  have e : ∀ n t, (countDropped m n t).sram m = t.sram m := by intro n t; cases m <;> simp [State.sram, countDropped]
  simp only [sramWrite, e, setSram_sram_self]
  exact get_eccWriteWords_out _ _ _ h _ _ _ _

/-- A write to DRAM leaves every byte outside the written range. -/
theorem dramWriteOpt_out (a x : Nat) (data : List (Option Byte)) (s : State) (h : x < a ∨ a + data.length ≤ x) :
    SMap.get zeroByte (dramWriteOpt a data s).mem.dram x = SMap.get zeroByte s.mem.dram x := by
  unfold dramWriteOpt
  generalize linesOf a data.length = ws
  induction ws generalizing s with
  | nil => rfl
  | cons w ws ih =>
    unfold dramWriteLines
    rw [ih]
    rcases dramWriteLine_mem w ((List.range 64).map (fun i => if a ≤ w + i then (data.getD (w + i - a) none) else none)) s with e | e
    · rw [e]
    · rw [e]
      unfold dramPutLine
      split
      · split
        · exact get_memWriteOpt_part _ _ _ _ _ _ h
        · split
          · rfl
          · rw [cnt_mem]
      · exact get_memWriteOpt_part _ _ _ _ _ _ h

theorem ferryPass_host (b : Blk) (level hw : Fld) (depth n : Nat) (s : State) : (ferryPass b level hw depth n s).host = s.host := by
  unfold ferryPass; dsimp only; split <;> rfl

theorem ferryLevel_host (b : Blk) (level hw : Fld) (depth n : Nat) (s : State) : (ferryLevel b level hw depth n s).host = s.host := by
  unfold ferryLevel; dsimp only; split <;> rfl

/-- A request handed to the host link leaves the device's memories. -/
theorem toHost_mem (s : State) (q : HostReq) : (s.toHost q).mem = s.mem := by
  unfold State.toHost
  dsimp only
  split
  · cases q <;> exact ferryPass_mem _ _ _ _ _ _
  · unfold ferryLevel; dsimp only; split <;> rfl

/-- A request handed to the host link keeps host memory in canonical form. -/
theorem hostWf_toHost (s : State) (q : HostReq) (h : SMap.wf zeroByte s.host.mem = true) :
    SMap.wf zeroByte (s.toHost q).host.mem = true := by
  unfold State.toHost
  dsimp only
  split
  · cases q with
    | write a d => exact wf_memWrite _ _ _ (by rw [ferryPass_host]; exact h)
    | message v => show SMap.wf zeroByte (ferryPass _ _ _ _ _ _).host.mem = true; rw [ferryPass_host]; exact h
  · rw [ferryLevel_host]; exact h

/-- A write to a target keeps both host memory and the device's memories in canonical form. -/
theorem wf_targetWrite (d : Bool) (a : Nat) (bs : List Byte) (s : State) (h : Memory.wf s.mem = true) :
    Memory.wf (targetWrite d a bs s).mem = true := by
  unfold targetWrite
  split
  · exact memWf_dramWrite _ _ _ h
  · rw [toHost_mem]; exact h

/-- A lost eighth of the DRAM keeps the canonical form. -/
theorem memWf_pasrLose (s : State) (h : Memory.wf s.mem = true) : Memory.wf (pasrLose s).mem = true := by
  unfold pasrLose State.each
  generalize s.mem.dram = l
  revert h
  generalize hs : s = s0
  have gen : ∀ (l : List (Nat × Byte)) (st : State), Memory.wf st.mem = true → Memory.wf (l.foldl (fun st p =>
      if nbit (s0.rd (.dram 0) R.DRAM_PASR.keep) (p.1 / max 1 (s0.dramBytes 0 * 2 ^ s0.dramK / 8)) then st
      else
        let (x, st) := st.free 344
        let m := SMap.set zeroByte st.mem.dram p.1 (BitVec.ofNat 8 x)
        { st with mem := { st.mem with dram := m } }) st).mem = true := by
    intro l
    induction l with
    | nil => intro st h; exact h
    | cons p l ih =>
      intro st h
      obtain ⟨h1, h2, h3, h4, h5, h6, h7, h8⟩ := (memWf_iff st.mem).1 h
      simp only [List.foldl_cons]
      apply ih
      split
      · exact h
      · exact (memWf_iff _).2 ⟨h1, h2, h3, wf_set _ _ _ _ h4, h5, h6, h7, h8⟩
  exact gen l s0

/-- A cleared on-chip memory is in canonical form. -/
theorem memWf_clearSram (s : State) (h : Memory.wf s.mem = true) : Memory.wf (clearSram s).mem = true := by
  obtain ⟨-, -, -, h4, -, -, -, h8⟩ := (memWf_iff s.mem).1 h
  have hb : (Vector.replicate 17 ([] : SMap Byte)).toList.all (SMap.wf zeroByte) = true := by decide
  have he : (Vector.replicate 17 ([] : SMap Bool)).toList.all (SMap.wf noBad) = true := by decide
  exact (memWf_iff _).2 ⟨rfl, hb, hb, h4, rfl, he, he, h8⟩

end Sys2Proof.Laws
end

