-- ==== Sys2Proof/WellFormed.lean ====
section
/-!
DEFINITION. Sys2Proof/WellFormed.lean: which operands a command can carry. An operand that comes from outside the block stays
inside what the spec lets the outside give; the widths that a type fixes need no check.
-/
namespace Sys2Proof
open Sys2Proof.Machine

/-- The block stands in a slot of the map (R25). -/
def Machine.Blk.wf (b : Blk) : Bool := decide (slotBlk b.slot = some b)

/-- An access of a port: inside the 64 MiB of BAR0, of 1, 2, 4 or 8 bytes (R25, R26). -/
def accessWf (addr width : Nat) : Bool := decide (addr < 2 ^ 26) && [8, 16, 32, 64].contains width

/-- A boot image fits its slot of the flash (R387). -/
def imageLimit : Nat := 0x800000

/-- The training of a channel finds ten lanes (R339). -/
def Machine.TrainResult.wf (r : TrainResult) : Bool := decide (r.lanes.length = 10)

/-- Gathering a timing set makes twelve sweeps (R301). -/
def Machine.GatherResult.wf (g : GatherResult) : Bool := decide (g.sweeps.length = 12)

/-- The writer of a waybill is a ring or one of the 2^20 queues (R190). -/
def Machine.WaybillOwner.wf : WaybillOwner → Bool
  | .ring _ => true
  | .queue q => decide (q < 2 ^ 20)

/-- The operands of a command are ones it can carry. -/
def Instr.wf (i : Instr) : Bool :=
  match i with
  | .bootImageVerified a b _ => a.length ≤ imageLimit && b.length ≤ imageLimit
  | .bootComplete failed trained sets => failed.all (fun p => decide (p.2 < p.1.banks)) && trained.length = 8 && trained.all TrainResult.wf && sets.length = 17
      && sets.all GatherResult.wf
  | .wakeComplete tracked sets => tracked.length = 8 && tracked.all (fun t => decide (t.1.length = 10) && decide (t.2.length = 10)) && sets.length = 17
      && sets.all GatherResult.wf
  | .registerWrite _ addr width _ => accessWf addr width
  | .latchingRead _ addr width => accessWf addr width
  | .enable b => b.wf
  | .quiesce b => b.wf
  | .quiesceAck b => b.wf
  | .wedged u => match u with | .blk b => b.wf | .sampleCrossbar | .outputCrossbar | .endpoint => true
  | .rxAlign _ lanes => lanes.length = 15
  | .dataRow _ blocks => blocks.length = 15
  | .fomScan _ n openPoints _ _ => n ≠ 0 && openPoints ≤ 256
  | .prbsSyncLoss _ _ bits errors => errors ≤ bits
  | .selftestDone set _ => set.wf
  | .trackingStep _ shifts => shifts.length = 12
  | .tableRefresh _ hits => hits.length = 512
  | .scrubRead m addr _ _ => addr < m.size && addr % 8 = 0
  | .mirrorCopyDone m poisoned => match poisoned with | some a => decide (a < m.size) | none => true
  | .bar2Write off data => data ≠ [] && off + data.length ≤ 0x4000000
  | .bar2Read off len => len ≠ 0 && off + len ≤ 0x4000000
  | .bar4Access _ _ data => data ≠ []
  | .dramRequest _ _ data _ _ => data ≠ []
  | .dramScrub _ addr _ _ => addr % 64 = 0
  | .dramTracking _ rd wr => rd.length = 10 && wr.length = 10
  | .trainingDone _ result => result.wf
  | .auxComplete _ _ data => data.length ≤ 16
  | .flushReadComplete who _ => who.wf
  | .waybill who => who.wf
  | .powerOn _ | .supplyLoss | .resetN | .bootTimeout _ | .run | .stop | .deviceStopped | .standby | .wake _ | .fullReset _
  | .lossOfLock _ | .lockDeclared _ | .musterFire | .musterInEdge _ | .schedArm | .scheduledMuster | .muster | .busyClear
  | .rearm | .musterOutEnd | .ckWindow _ _ | .ckLoss _ | .blockLock _ _ | .blockLockLoss _ _ | .alignLoss _ _
  | .rxStatus _ _ _ | .statusTimeout _ _ | .rxEpoch _ _ _ | .rxOvr _ _ _ | .lcRetire _ _ _ _ _ | .lcRestore _ _ _ _ _
  | .lcRetireReq _ _ _ _ _ | .lcRestoreReq _ _ _ _ _ | .lcPreset _ _ _ _ _ | .lcTrainStart _ _ _ _ _ | .lcTrainEnd _ _ _ _ _
  | .lcAck _ _ _ _ _ | .lcNak _ _ _ _ _ | .linkcmdUnknown _ _ _ _ _ _ | .txRetireReq _ _ _ _ | .txRestoreReq _ _ _ _
  | .txPreset _ _ _ _ | .txTrainStart _ _ _ _ | .txTrainEnd _ _ _ _ | .linkcmdTimeout _ | .laneRetire _ _ | .laneRestore _ _
  | .txAlignRow _ | .txDataRow _ _ | .fillRow _ _ | .prbsSync _ _ | .inject _ _ | .hwmClear _ | .sampleDelivery _ _
  | .newRun _ | .caravanBoundary _ | .retune _ _ | .switch _ _ | .filtQuery _ _ | .commitRetune _ | .commitSwitch _
  | .fadeEnd _ | .bankLoad _ _ _ | .bankLoadDone _ _ | .frameFormed _ _ | .fftSelect _ _ | .commitWindow _ | .fftOffset _ _
  | .windowLoad _ _ _ | .windowLoadDone _ _ | .fftQuery _ _ | .trigInEdge _ _ _ | .combinerEvaluation _ | .postEnd _
  | .arm _ _ | .disarm _ _ | .force _ _ | .trigStage _ _ | .trigCommit _ _ | .trigQuery _ _ | .timerArm _ | .timerFire _
  | .pulseEnd _ | .trigOutCfgWrite _ _ | .tbusRequest _ | .busRequestLatched _ _ | .tbusSync | .syncDrive | .ringSlotWrite _
  | .contStart _ _ | .contStop _ _ | .append _ _ | .skip _ _ | .recQuery _ _ | .measTimeout _ | .reservationRequest _ _
  | .reservationTimeout _ _ | .recordSeal _ _ | .publication _ | .recordWriteFailure _ | .moderationTimer _
  | .contextFetch _ _ | .doorbell _ _ | .create _ _ | .destroy _ _ | .resume _ | .inspect _ | .chanSelect _ _
  | .chanCommit _ _ | .chanQuery _ _ | .prototypeGenerate _ _ | .prototypeReady _ | .synStart _ _ | .startInstant _
  | .synStop _ _ | .synCommit _ _ | .synFrame _ _ | .synQuery _ _ | .frameSynthesis _ _ | .sampleRelease _ _
  | .playbackFetch _ _ | .pbDoorbell _ _ | .interrupt _ | .exception _ _ _ | .coreTimer _ | .mboxInWrite _ _
  | .peerDoorbell _ _ _ | .forcedStop _ | .waitComplete _ | .nop _ _ | .add _ _ | .sub _ _ | .mul _ _ | .and _ _ | .or _ _
  | .xor _ _ | .shl _ _ | .shr _ _ | .sra _ _ | .min _ _ | .max _ _ | .slt _ _ | .sltu _ _ | .addi _ _ | .andi _ _
  | .ori _ _ | .shli _ _ | .shri _ _ | .srai _ _ | .li _ _ | .liu _ _ | .pcmp _ _ | .pand _ _ | .por _ _ | .pxor _ _
  | .pnot _ _ | .pany _ _ | .pfroms _ _ | .ptos _ _ | .pcnt _ _ | .pffs _ _ | .pfls _ _ | .br _ _ | .bz _ _ | .bnz _ _
  | .bpa _ _ | .bpn _ _ | .call _ _ | .jr _ _ | .loop _ _ | .loopS _ _ | .movfc _ _ | .movtc _ _ | .swi _ _ | .rti _ _
  | .rte _ _ | .halt _ _ | .fence _ _ | .vadd _ _ | .vsub _ _ | .vand _ _ | .vor _ _ | .vxor _ _ | .vmin _ _ | .vmax _ _
  | .vabs _ _ | .vneg _ _ | .vshl _ _ | .vsra _ _ | .vcmp _ _ | .vsel _ _ | .vbcast _ _ | .vins _ _ | .vext _ _ | .vextr _ _
  | .vrot _ _ | .vconj _ _ | .vswap _ _ | .vmaxx _ _ | .vminx _ _ | .vmaxr _ _ | .vminr _ _ | .vmov _ _ | .vmul _ _
  | .vmac _ _ | .vmsu _ _ | .vmulC _ _ | .vmacC _ _ | .vmacJ _ _ | .vmulS _ _ | .vmacS _ _ | .vmulL _ _ | .vmacL _ _
  | .vmacP _ _ | .amovV _ _ | .amovS _ _ | .amovR _ _ | .aset _ _ | .aclr _ _ | .aadd _ _ | .asum _ _ | .asumC _ _
  | .ldB _ _ | .ldBu _ _ | .ldH _ _ | .ldHu _ _ | .ldW _ _ | .ldD _ _ | .stB _ _ | .stH _ _ | .stW _ _ | .stD _ _
  | .vldW _ _ | .vldH _ _ | .vstW _ _ | .vstH _ _ | .xset _ _ | .xadd _ _ | .xget _ _ | .tap _ _ | .tapDone _
  | .redQuery _ _ | .cell _ _ | .densQuery _ _ | .now _ _ | .bound _ _ | .waitBoundary _ _ | .waitTime _ _ | .waitPend _ _
  | .submit | .withdraw _ | .update _ | .placementAction | .join | .shadowLimit | .calibrationDue | .calRetry _ | .calGo _
  | .calAbort | .readingTimeout _ | .refWindow _ | .refTimeout | .refLockCheck _ _ | .ppsEdge _ _ | .ppsLoss | .tbLoad
  | .tbLoadNow | .tbCancel | .epochGo | .epochStop | .epochEdge | .epochPulseEnd | .tdcArm | .tdcCancel | .tdcEdge _ _ _
  | .tdcTimeout | .bankTestStart _ | .marchTestDone _ _ | .mirrorRestoreDone _ | .refresh _ | .retrain _ | .autoRetrain _
  | .evacuationCopyDone _ | .evacuationRestoreDone _ | .ringTail _ _ | .ringRun _ | .ringStop _ _ _ | .ringResume _
  | .descriptorFetch _ | .dmaNop _ _ | .copy _ _ | .fill _ _ | .writeImm _ _ | .dmaCheck _ _ | .programLoad _ _
  | .dmaReturn _ _ | .dmaLink _ _ | .descriptorComplete _ | .completionTimeout _ _ | .cqHead _ _ | .cqEnable _
  | .msixUnmask _ | .endpointReset | .vblankStart _ | .lineMatch _ | .frameDone _ | .displayLine _ | .lineFetch _ _ _
  | .hpdUnplug _ | .irqHpd _ | .linkTraining _ _ | .dispCommit _ | .ctLoad _ | .ctLoadDone _ | .auxGo _ | .rampGo
  | .rampAbort | .rampSegmentEnd | .thermtrip | .trustCommit | .trustClear | .seedSet | .userCal | .fwUpdate _
  | .ucodeUpdate | .lcAdvance | .extestEnable | .wipe | .authCancel | .presenceProven | .windowExpired | .authDone _
  | .strayPresence | .tamperOpen | .tamperClosed | .tamperArm _ | .timeMark | .traceEnable | .extest | .samplePreload _
  | .idcode | .obsread _ | .bypass | .conversion _ _ _ _ | .hkCalibration _ _ _ | .urgentRequest _ | .urgent
  | .resetRelease _ _ | .configurationRequest _ | .syncPulseMissing | .unexpectedCompletion | .quiesceSealDeadline => true

end Sys2Proof
end

