-- ==== Sys2Proof/Laws/PerInstr.lean ====
section
/-!
SUPPORT. Sys2Proof/Laws/PerInstr.lean: the family Shape: no command is shut out by the checks on operands.
-/
namespace Sys2Proof.Laws
open Sys2Proof Sys2Proof.Machine

/-- The training of a channel with ten lanes. -/
def training : TrainResult := ⟨List.replicate 10 ⟨0, 0, 0, 0⟩, 0, 0⟩

/-- A timing set's twelve sweeps. -/
def gathering : GatherResult := ⟨List.replicate 12 0, 0, 0⟩

/-- Some command of this row of the table has operands that the checks admit. -/
def Shape.Statement (i : Instr) : Prop := ∃ j : Instr, j.ctorIdx = i.ctorIdx ∧ j.wf = true

/-- A command whose own operands are admitted. -/
theorem Shape.of_wf (i : Instr) (h : i.wf = true) : Shape.Statement i := ⟨i, rfl, h⟩

theorem Shape.powerOn (straps : BitVec 4) : Shape.Statement (.powerOn straps) := Shape.of_wf _ rfl
theorem Shape.supplyLoss : Shape.Statement (.supplyLoss) := Shape.of_wf _ rfl
theorem Shape.resetN : Shape.Statement (.resetN) := Shape.of_wf _ rfl
theorem Shape.bootImageVerified (a : List Byte) (b : List Byte) (sectionsOk : Bool) : Shape.Statement (.bootImageVerified a b sectionsOk) :=
  ⟨.bootImageVerified [] [] sectionsOk, rfl, by rfl⟩
theorem Shape.bootComplete (failed : List (SramId × Nat)) (trained : List TrainResult) (sets : List GatherResult) : Shape.Statement (.bootComplete failed trained sets) :=
  ⟨.bootComplete [] (List.replicate 8 training) (List.replicate 17 gathering), rfl, by rfl⟩
theorem Shape.bootTimeout (pll : Bool) : Shape.Statement (.bootTimeout pll) := Shape.of_wf _ rfl
theorem Shape.run : Shape.Statement (.run) := Shape.of_wf _ rfl
theorem Shape.stop : Shape.Statement (.stop) := Shape.of_wf _ rfl
theorem Shape.deviceStopped : Shape.Statement (.deviceStopped) := Shape.of_wf _ rfl
theorem Shape.standby : Shape.Statement (.standby) := Shape.of_wf _ rfl
theorem Shape.wake (gpio : Option GpioEdge) : Shape.Statement (.wake gpio) := Shape.of_wf _ rfl
theorem Shape.wakeComplete (tracked : List (List Int × List Int)) (sets : List GatherResult) : Shape.Statement (.wakeComplete tracked sets) :=
  ⟨.wakeComplete (List.replicate 8 (List.replicate 10 0, List.replicate 10 0)) (List.replicate 17 gathering), rfl, by rfl⟩
theorem Shape.fullReset (key : BitVec 8) : Shape.Statement (.fullReset key) := Shape.of_wf _ rfl
theorem Shape.registerWrite (port : Port) (addr : Nat) (width : Nat) (data : BitVec 64) : Shape.Statement (.registerWrite port addr width data) :=
  ⟨.registerWrite port 0x128 64 data, rfl, by rfl⟩
theorem Shape.latchingRead (port : Port) (addr : Nat) (width : Nat) : Shape.Statement (.latchingRead port addr width) :=
  ⟨.latchingRead port 0x128 64, rfl, by rfl⟩
theorem Shape.enable (b : Blk) : Shape.Statement (.enable b) :=
  ⟨.enable .depot, rfl, by rfl⟩
theorem Shape.quiesce (b : Blk) : Shape.Statement (.quiesce b) :=
  ⟨.quiesce .depot, rfl, by rfl⟩
theorem Shape.quiesceAck (b : Blk) : Shape.Statement (.quiesceAck b) :=
  ⟨.quiesceAck .depot, rfl, by rfl⟩
theorem Shape.wedged (u : DevUnit) : Shape.Statement (.wedged u) :=
  ⟨.wedged .endpoint, rfl, by rfl⟩
theorem Shape.lossOfLock (p : Fin 10) : Shape.Statement (.lossOfLock p) := Shape.of_wf _ rfl
theorem Shape.lockDeclared (p : Fin 10) : Shape.Statement (.lockDeclared p) := Shape.of_wf _ rfl
theorem Shape.musterFire : Shape.Statement (.musterFire) := Shape.of_wf _ rfl
theorem Shape.musterInEdge (falling : Bool) : Shape.Statement (.musterInEdge falling) := Shape.of_wf _ rfl
theorem Shape.schedArm : Shape.Statement (.schedArm) := Shape.of_wf _ rfl
theorem Shape.scheduledMuster : Shape.Statement (.scheduledMuster) := Shape.of_wf _ rfl
theorem Shape.muster : Shape.Statement (.muster) := Shape.of_wf _ rfl
theorem Shape.busyClear : Shape.Statement (.busyClear) := Shape.of_wf _ rfl
theorem Shape.rearm : Shape.Statement (.rearm) := Shape.of_wf _ rfl
theorem Shape.musterOutEnd : Shape.Statement (.musterOutEnd) := Shape.of_wf _ rfl
theorem Shape.ckWindow (g : Fin 16) (count : Nat) : Shape.Statement (.ckWindow g count) := Shape.of_wf _ rfl
theorem Shape.ckLoss (g : Fin 16) : Shape.Statement (.ckLoss g) := Shape.of_wf _ rfl
theorem Shape.blockLock (g : Fin 16) (n : LaneLine) : Shape.Statement (.blockLock g n) := Shape.of_wf _ rfl
theorem Shape.blockLockLoss (g : Fin 16) (n : Fin 16) : Shape.Statement (.blockLockLoss g n) := Shape.of_wf _ rfl
theorem Shape.alignLoss (g : Fin 16) (n : Fin 16) : Shape.Statement (.alignLoss g n) := Shape.of_wf _ rfl
theorem Shape.rxAlign (g : Fin 16) (lanes : List (Option AlignRx)) : Shape.Statement (.rxAlign g lanes) :=
  ⟨.rxAlign g (List.replicate 15 none), rfl, by rfl⟩
theorem Shape.dataRow (g : Fin 16) (lanes : List (BitVec 66)) : Shape.Statement (.dataRow g lanes) :=
  ⟨.dataRow g (List.replicate 15 0), rfl, by rfl⟩
theorem Shape.rxStatus (g : Fin 16) (k : Fin 5) (body : BitVec 48) : Shape.Statement (.rxStatus g k body) := Shape.of_wf _ rfl
theorem Shape.statusTimeout (g : Fin 16) (k : Fin 5) : Shape.Statement (.statusTimeout g k) := Shape.of_wf _ rfl
theorem Shape.rxEpoch (g : Fin 16) (k : Fin 5) (body : BitVec 48) : Shape.Statement (.rxEpoch g k body) := Shape.of_wf _ rfl
theorem Shape.rxOvr (g : Fin 16) (k : Fin 5) (body : BitVec 48) : Shape.Statement (.rxOvr g k body) := Shape.of_wf _ rfl
theorem Shape.lcRetire (g : Fin 16) (lane : BitVec 4) (eff : BitVec 16) (arg : BitVec 8) (tag : BitVec 8) : Shape.Statement (.lcRetire g lane eff arg tag) := Shape.of_wf _ rfl
theorem Shape.lcRestore (g : Fin 16) (lane : BitVec 4) (eff : BitVec 16) (arg : BitVec 8) (tag : BitVec 8) : Shape.Statement (.lcRestore g lane eff arg tag) := Shape.of_wf _ rfl
theorem Shape.lcRetireReq (g : Fin 16) (lane : BitVec 4) (eff : BitVec 16) (arg : BitVec 8) (tag : BitVec 8) : Shape.Statement (.lcRetireReq g lane eff arg tag) := Shape.of_wf _ rfl
theorem Shape.lcRestoreReq (g : Fin 16) (lane : BitVec 4) (eff : BitVec 16) (arg : BitVec 8) (tag : BitVec 8) : Shape.Statement (.lcRestoreReq g lane eff arg tag) := Shape.of_wf _ rfl
theorem Shape.lcPreset (g : Fin 16) (lane : BitVec 4) (eff : BitVec 16) (arg : BitVec 8) (tag : BitVec 8) : Shape.Statement (.lcPreset g lane eff arg tag) := Shape.of_wf _ rfl
theorem Shape.lcTrainStart (g : Fin 16) (lane : BitVec 4) (eff : BitVec 16) (arg : BitVec 8) (tag : BitVec 8) : Shape.Statement (.lcTrainStart g lane eff arg tag) := Shape.of_wf _ rfl
theorem Shape.lcTrainEnd (g : Fin 16) (lane : BitVec 4) (eff : BitVec 16) (arg : BitVec 8) (tag : BitVec 8) : Shape.Statement (.lcTrainEnd g lane eff arg tag) := Shape.of_wf _ rfl
theorem Shape.lcAck (g : Fin 16) (lane : BitVec 4) (eff : BitVec 16) (arg : BitVec 8) (tag : BitVec 8) : Shape.Statement (.lcAck g lane eff arg tag) := Shape.of_wf _ rfl
theorem Shape.lcNak (g : Fin 16) (lane : BitVec 4) (eff : BitVec 16) (arg : BitVec 8) (tag : BitVec 8) : Shape.Statement (.lcNak g lane eff arg tag) := Shape.of_wf _ rfl
theorem Shape.linkcmdUnknown (g : Fin 16) (cmd : BitVec 4) (lane : BitVec 4) (eff : BitVec 16) (arg : BitVec 8) (tag : BitVec 8) : Shape.Statement (.linkcmdUnknown g cmd lane eff arg tag) := Shape.of_wf _ rfl
theorem Shape.txRetireReq (g : Fin 16) (lane : BitVec 4) (arg : BitVec 8) (tag : BitVec 8) : Shape.Statement (.txRetireReq g lane arg tag) := Shape.of_wf _ rfl
theorem Shape.txRestoreReq (g : Fin 16) (lane : BitVec 4) (arg : BitVec 8) (tag : BitVec 8) : Shape.Statement (.txRestoreReq g lane arg tag) := Shape.of_wf _ rfl
theorem Shape.txPreset (g : Fin 16) (lane : BitVec 4) (arg : BitVec 8) (tag : BitVec 8) : Shape.Statement (.txPreset g lane arg tag) := Shape.of_wf _ rfl
theorem Shape.txTrainStart (g : Fin 16) (lane : BitVec 4) (arg : BitVec 8) (tag : BitVec 8) : Shape.Statement (.txTrainStart g lane arg tag) := Shape.of_wf _ rfl
theorem Shape.txTrainEnd (g : Fin 16) (lane : BitVec 4) (arg : BitVec 8) (tag : BitVec 8) : Shape.Statement (.txTrainEnd g lane arg tag) := Shape.of_wf _ rfl
theorem Shape.linkcmdTimeout (g : Fin 16) : Shape.Statement (.linkcmdTimeout g) := Shape.of_wf _ rfl
theorem Shape.laneRetire (g : Fin 16) (n : Fin 16) : Shape.Statement (.laneRetire g n) := Shape.of_wf _ rfl
theorem Shape.laneRestore (g : Fin 16) (n : Fin 16) : Shape.Statement (.laneRestore g n) := Shape.of_wf _ rfl
theorem Shape.txAlignRow (g : Fin 16) : Shape.Statement (.txAlignRow g) := Shape.of_wf _ rfl
theorem Shape.txDataRow (g : Fin 16) (k : Fin 5) : Shape.Statement (.txDataRow g k) := Shape.of_wf _ rfl
theorem Shape.fillRow (g : Fin 16) (k : Fin 5) : Shape.Statement (.fillRow g k) := Shape.of_wf _ rfl
theorem Shape.fomScan (g : Fin 16) (n : Fin 16) (openPoints : Nat) (ctle : BitVec 5) (dfe : BitVec 40) : Shape.Statement (.fomScan g n openPoints ctle dfe) :=
  ⟨.fomScan g 1 0 ctle dfe, rfl, by rfl⟩
theorem Shape.prbsSync (g : Fin 16) (n : Fin 16) : Shape.Statement (.prbsSync g n) := Shape.of_wf _ rfl
theorem Shape.prbsSyncLoss (g : Fin 16) (n : Fin 16) (bits : Nat) (errors : Nat) : Shape.Statement (.prbsSyncLoss g n bits errors) :=
  ⟨.prbsSyncLoss g n bits 0, rfl, by rfl⟩
theorem Shape.inject (g : Fin 16) (n : Fin 16) : Shape.Statement (.inject g n) := Shape.of_wf _ rfl
theorem Shape.hwmClear (ferry : FerryId) : Shape.Statement (.hwmClear ferry) := Shape.of_wf _ rfl
theorem Shape.sampleDelivery (g : Fin 16) (res : List ResFault) : Shape.Statement (.sampleDelivery g res) := Shape.of_wf _ rfl
theorem Shape.newRun (i : Fin 17) : Shape.Statement (.newRun i) := Shape.of_wf _ rfl
theorem Shape.caravanBoundary (i : Fin 17) : Shape.Statement (.caravanBoundary i) := Shape.of_wf _ rfl
theorem Shape.retune (c : Fin 17) (y : Syl) : Shape.Statement (.retune c y) := Shape.of_wf _ rfl
theorem Shape.switch (c : Fin 17) (y : Syl) : Shape.Statement (.switch c y) := Shape.of_wf _ rfl
theorem Shape.filtQuery (c : Fin 17) (y : Syl) : Shape.Statement (.filtQuery c y) := Shape.of_wf _ rfl
theorem Shape.commitRetune (i : Fin 17) : Shape.Statement (.commitRetune i) := Shape.of_wf _ rfl
theorem Shape.commitSwitch (i : Fin 17) : Shape.Statement (.commitSwitch i) := Shape.of_wf _ rfl
theorem Shape.fadeEnd (i : Fin 17) : Shape.Statement (.fadeEnd i) := Shape.of_wf _ rfl
theorem Shape.bankLoad (i : Fin 17) (b : Fin 4) (value : BitVec 64) : Shape.Statement (.bankLoad i b value) := Shape.of_wf _ rfl
theorem Shape.bankLoadDone (i : Fin 17) (b : Fin 4) : Shape.Statement (.bankLoadDone i b) := Shape.of_wf _ rfl
theorem Shape.frameFormed (i : Fin 17) (flt : FrameFault) : Shape.Statement (.frameFormed i flt) := Shape.of_wf _ rfl
theorem Shape.fftSelect (c : Fin 17) (y : Syl) : Shape.Statement (.fftSelect c y) := Shape.of_wf _ rfl
theorem Shape.commitWindow (i : Fin 17) : Shape.Statement (.commitWindow i) := Shape.of_wf _ rfl
theorem Shape.fftOffset (c : Fin 17) (y : Syl) : Shape.Statement (.fftOffset c y) := Shape.of_wf _ rfl
theorem Shape.windowLoad (i : Fin 17) (b : Fin 2) (via : Via) : Shape.Statement (.windowLoad i b via) := Shape.of_wf _ rfl
theorem Shape.windowLoadDone (i : Fin 17) (b : Fin 2) : Shape.Statement (.windowLoadDone i b) := Shape.of_wf _ rfl
theorem Shape.fftQuery (c : Fin 17) (y : Syl) : Shape.Statement (.fftQuery c y) := Shape.of_wf _ rfl
theorem Shape.trigInEdge (j : Fin 4) (falling : Bool) (tap : Fin 512) : Shape.Statement (.trigInEdge j falling tap) := Shape.of_wf _ rfl
theorem Shape.combinerEvaluation (i : Fin 17) : Shape.Statement (.combinerEvaluation i) := Shape.of_wf _ rfl
theorem Shape.postEnd (i : Fin 17) : Shape.Statement (.postEnd i) := Shape.of_wf _ rfl
theorem Shape.arm (c : Fin 17) (via : Via) : Shape.Statement (.arm c via) := Shape.of_wf _ rfl
theorem Shape.disarm (c : Fin 17) (via : Via) : Shape.Statement (.disarm c via) := Shape.of_wf _ rfl
theorem Shape.force (c : Fin 17) (via : Via) : Shape.Statement (.force c via) := Shape.of_wf _ rfl
theorem Shape.trigStage (c : Fin 17) (y : Syl) : Shape.Statement (.trigStage c y) := Shape.of_wf _ rfl
theorem Shape.trigCommit (c : Fin 17) (via : Via) : Shape.Statement (.trigCommit c via) := Shape.of_wf _ rfl
theorem Shape.trigQuery (c : Fin 17) (y : Syl) : Shape.Statement (.trigQuery c y) := Shape.of_wf _ rfl
theorem Shape.timerArm (i : Fin 17) : Shape.Statement (.timerArm i) := Shape.of_wf _ rfl
theorem Shape.timerFire (i : Fin 17) : Shape.Statement (.timerFire i) := Shape.of_wf _ rfl
theorem Shape.pulseEnd (j : Fin 4) : Shape.Statement (.pulseEnd j) := Shape.of_wf _ rfl
theorem Shape.trigOutCfgWrite (j : Fin 4) (value : BitVec 32) : Shape.Statement (.trigOutCfgWrite j value) := Shape.of_wf _ rfl
theorem Shape.tbusRequest (l : Fin 8) : Shape.Statement (.tbusRequest l) := Shape.of_wf _ rfl
theorem Shape.busRequestLatched (l : Fin 8) (nak : Bool) : Shape.Statement (.busRequestLatched l nak) := Shape.of_wf _ rfl
theorem Shape.tbusSync : Shape.Statement (.tbusSync) := Shape.of_wf _ rfl
theorem Shape.syncDrive : Shape.Statement (.syncDrive) := Shape.of_wf _ rfl
theorem Shape.ringSlotWrite (i : Fin 17) : Shape.Statement (.ringSlotWrite i) := Shape.of_wf _ rfl
theorem Shape.contStart (c : Fin 17) (via : Via) : Shape.Statement (.contStart c via) := Shape.of_wf _ rfl
theorem Shape.contStop (c : Fin 17) (via : Via) : Shape.Statement (.contStop c via) := Shape.of_wf _ rfl
theorem Shape.append (c : Fin 17) (y : Syl) : Shape.Statement (.append c y) := Shape.of_wf _ rfl
theorem Shape.skip (c : Fin 17) (y : Syl) : Shape.Statement (.skip c y) := Shape.of_wf _ rfl
theorem Shape.recQuery (c : Fin 17) (y : Syl) : Shape.Statement (.recQuery c y) := Shape.of_wf _ rfl
theorem Shape.measTimeout (i : Fin 17) : Shape.Statement (.measTimeout i) := Shape.of_wf _ rfl
theorem Shape.reservationRequest (q : BitVec 20) (ann : AnnResult) : Shape.Statement (.reservationRequest q ann) := Shape.of_wf _ rfl
theorem Shape.reservationTimeout (q : BitVec 20) (ann : AnnResult) : Shape.Statement (.reservationTimeout q ann) := Shape.of_wf _ rfl
theorem Shape.recordSeal (q : BitVec 20) (how : SealResult) : Shape.Statement (.recordSeal q how) := Shape.of_wf _ rfl
theorem Shape.publication (q : BitVec 20) : Shape.Statement (.publication q) := Shape.of_wf _ rfl
theorem Shape.recordWriteFailure (q : BitVec 20) : Shape.Statement (.recordWriteFailure q) := Shape.of_wf _ rfl
theorem Shape.moderationTimer (q : BitVec 20) : Shape.Statement (.moderationTimer q) := Shape.of_wf _ rfl
theorem Shape.contextFetch (q : BitVec 20) (ann : AnnResult) : Shape.Statement (.contextFetch q ann) := Shape.of_wf _ rfl
theorem Shape.doorbell (value : BitVec 64) (ann : AnnResult) : Shape.Statement (.doorbell value ann) := Shape.of_wf _ rfl
theorem Shape.create (port : Port) (q : BitVec 20) : Shape.Statement (.create port q) := Shape.of_wf _ rfl
theorem Shape.destroy (port : Port) (q : BitVec 20) : Shape.Statement (.destroy port q) := Shape.of_wf _ rfl
theorem Shape.resume (q : BitVec 20) : Shape.Statement (.resume q) := Shape.of_wf _ rfl
theorem Shape.inspect (q : BitVec 20) : Shape.Statement (.inspect q) := Shape.of_wf _ rfl
theorem Shape.chanSelect (c : Fin 17) (y : Syl) : Shape.Statement (.chanSelect c y) := Shape.of_wf _ rfl
theorem Shape.chanCommit (c : Fin 17) (via : Via) : Shape.Statement (.chanCommit c via) := Shape.of_wf _ rfl
theorem Shape.chanQuery (c : Fin 17) (y : Syl) : Shape.Statement (.chanQuery c y) := Shape.of_wf _ rfl
theorem Shape.prototypeGenerate (i : Fin 17) (value : BitVec 64) : Shape.Statement (.prototypeGenerate i value) := Shape.of_wf _ rfl
theorem Shape.prototypeReady (i : Fin 17) : Shape.Statement (.prototypeReady i) := Shape.of_wf _ rfl
theorem Shape.synStart (c : Fin 17) (via : Via) : Shape.Statement (.synStart c via) := Shape.of_wf _ rfl
theorem Shape.startInstant (i : Fin 17) : Shape.Statement (.startInstant i) := Shape.of_wf _ rfl
theorem Shape.synStop (c : Fin 17) (via : Via) : Shape.Statement (.synStop c via) := Shape.of_wf _ rfl
theorem Shape.synCommit (c : Fin 17) (via : Via) : Shape.Statement (.synCommit c via) := Shape.of_wf _ rfl
theorem Shape.synFrame (c : Fin 17) (y : Syl) : Shape.Statement (.synFrame c y) := Shape.of_wf _ rfl
theorem Shape.synQuery (c : Fin 17) (y : Syl) : Shape.Statement (.synQuery c y) := Shape.of_wf _ rfl
theorem Shape.frameSynthesis (i : Fin 17) (res : SynthFault) : Shape.Statement (.frameSynthesis i res) := Shape.of_wf _ rfl
theorem Shape.sampleRelease (i : Fin 17) (res : Bool) : Shape.Statement (.sampleRelease i res) := Shape.of_wf _ rfl
theorem Shape.playbackFetch (i : Fin 17) (ok : Bool) : Shape.Statement (.playbackFetch i ok) := Shape.of_wf _ rfl
theorem Shape.pbDoorbell (i : Fin 17) (produced : BitVec 36) : Shape.Statement (.pbDoorbell i produced) := Shape.of_wf _ rfl
theorem Shape.interrupt (c : Fin 17) : Shape.Statement (.interrupt c) := Shape.of_wf _ rfl
theorem Shape.exception (c : Fin 17) (code : Fin 5) (addr : BitVec 32) : Shape.Statement (.exception c code addr) := Shape.of_wf _ rfl
theorem Shape.coreTimer (c : Fin 17) : Shape.Statement (.coreTimer c) := Shape.of_wf _ rfl
theorem Shape.mboxInWrite (c : Fin 17) (value : BitVec 64) : Shape.Statement (.mboxInWrite c value) := Shape.of_wf _ rfl
theorem Shape.peerDoorbell (c : Fin 17) (t : Fin 17) (value : BitVec 64) : Shape.Statement (.peerDoorbell c t value) := Shape.of_wf _ rfl
theorem Shape.forcedStop (c : Fin 17) : Shape.Statement (.forcedStop c) := Shape.of_wf _ rfl
theorem Shape.waitComplete (c : Fin 17) : Shape.Statement (.waitComplete c) := Shape.of_wf _ rfl
theorem Shape.nop (c : Fin 17) (y : Syl) : Shape.Statement (.nop c y) := Shape.of_wf _ rfl
theorem Shape.add (c : Fin 17) (y : Syl) : Shape.Statement (.add c y) := Shape.of_wf _ rfl
theorem Shape.sub (c : Fin 17) (y : Syl) : Shape.Statement (.sub c y) := Shape.of_wf _ rfl
theorem Shape.mul (c : Fin 17) (y : Syl) : Shape.Statement (.mul c y) := Shape.of_wf _ rfl
theorem Shape.and (c : Fin 17) (y : Syl) : Shape.Statement (.and c y) := Shape.of_wf _ rfl
theorem Shape.or (c : Fin 17) (y : Syl) : Shape.Statement (.or c y) := Shape.of_wf _ rfl
theorem Shape.xor (c : Fin 17) (y : Syl) : Shape.Statement (.xor c y) := Shape.of_wf _ rfl
theorem Shape.shl (c : Fin 17) (y : Syl) : Shape.Statement (.shl c y) := Shape.of_wf _ rfl
theorem Shape.shr (c : Fin 17) (y : Syl) : Shape.Statement (.shr c y) := Shape.of_wf _ rfl
theorem Shape.sra (c : Fin 17) (y : Syl) : Shape.Statement (.sra c y) := Shape.of_wf _ rfl
theorem Shape.min (c : Fin 17) (y : Syl) : Shape.Statement (.min c y) := Shape.of_wf _ rfl
theorem Shape.max (c : Fin 17) (y : Syl) : Shape.Statement (.max c y) := Shape.of_wf _ rfl
theorem Shape.slt (c : Fin 17) (y : Syl) : Shape.Statement (.slt c y) := Shape.of_wf _ rfl
theorem Shape.sltu (c : Fin 17) (y : Syl) : Shape.Statement (.sltu c y) := Shape.of_wf _ rfl
theorem Shape.addi (c : Fin 17) (y : Syl) : Shape.Statement (.addi c y) := Shape.of_wf _ rfl
theorem Shape.andi (c : Fin 17) (y : Syl) : Shape.Statement (.andi c y) := Shape.of_wf _ rfl
theorem Shape.ori (c : Fin 17) (y : Syl) : Shape.Statement (.ori c y) := Shape.of_wf _ rfl
theorem Shape.shli (c : Fin 17) (y : Syl) : Shape.Statement (.shli c y) := Shape.of_wf _ rfl
theorem Shape.shri (c : Fin 17) (y : Syl) : Shape.Statement (.shri c y) := Shape.of_wf _ rfl
theorem Shape.srai (c : Fin 17) (y : Syl) : Shape.Statement (.srai c y) := Shape.of_wf _ rfl
theorem Shape.li (c : Fin 17) (y : Syl) : Shape.Statement (.li c y) := Shape.of_wf _ rfl
theorem Shape.liu (c : Fin 17) (y : Syl) : Shape.Statement (.liu c y) := Shape.of_wf _ rfl
theorem Shape.pcmp (c : Fin 17) (y : Syl) : Shape.Statement (.pcmp c y) := Shape.of_wf _ rfl
theorem Shape.pand (c : Fin 17) (y : Syl) : Shape.Statement (.pand c y) := Shape.of_wf _ rfl
theorem Shape.por (c : Fin 17) (y : Syl) : Shape.Statement (.por c y) := Shape.of_wf _ rfl
theorem Shape.pxor (c : Fin 17) (y : Syl) : Shape.Statement (.pxor c y) := Shape.of_wf _ rfl
theorem Shape.pnot (c : Fin 17) (y : Syl) : Shape.Statement (.pnot c y) := Shape.of_wf _ rfl
theorem Shape.pany (c : Fin 17) (y : Syl) : Shape.Statement (.pany c y) := Shape.of_wf _ rfl
theorem Shape.pfroms (c : Fin 17) (y : Syl) : Shape.Statement (.pfroms c y) := Shape.of_wf _ rfl
theorem Shape.ptos (c : Fin 17) (y : Syl) : Shape.Statement (.ptos c y) := Shape.of_wf _ rfl
theorem Shape.pcnt (c : Fin 17) (y : Syl) : Shape.Statement (.pcnt c y) := Shape.of_wf _ rfl
theorem Shape.pffs (c : Fin 17) (y : Syl) : Shape.Statement (.pffs c y) := Shape.of_wf _ rfl
theorem Shape.pfls (c : Fin 17) (y : Syl) : Shape.Statement (.pfls c y) := Shape.of_wf _ rfl
theorem Shape.br (c : Fin 17) (y : Syl) : Shape.Statement (.br c y) := Shape.of_wf _ rfl
theorem Shape.bz (c : Fin 17) (y : Syl) : Shape.Statement (.bz c y) := Shape.of_wf _ rfl
theorem Shape.bnz (c : Fin 17) (y : Syl) : Shape.Statement (.bnz c y) := Shape.of_wf _ rfl
theorem Shape.bpa (c : Fin 17) (y : Syl) : Shape.Statement (.bpa c y) := Shape.of_wf _ rfl
theorem Shape.bpn (c : Fin 17) (y : Syl) : Shape.Statement (.bpn c y) := Shape.of_wf _ rfl
theorem Shape.call (c : Fin 17) (y : Syl) : Shape.Statement (.call c y) := Shape.of_wf _ rfl
theorem Shape.jr (c : Fin 17) (y : Syl) : Shape.Statement (.jr c y) := Shape.of_wf _ rfl
theorem Shape.loop (c : Fin 17) (y : Syl) : Shape.Statement (.loop c y) := Shape.of_wf _ rfl
theorem Shape.loopS (c : Fin 17) (y : Syl) : Shape.Statement (.loopS c y) := Shape.of_wf _ rfl
theorem Shape.movfc (c : Fin 17) (y : Syl) : Shape.Statement (.movfc c y) := Shape.of_wf _ rfl
theorem Shape.movtc (c : Fin 17) (y : Syl) : Shape.Statement (.movtc c y) := Shape.of_wf _ rfl
theorem Shape.swi (c : Fin 17) (y : Syl) : Shape.Statement (.swi c y) := Shape.of_wf _ rfl
theorem Shape.rti (c : Fin 17) (y : Syl) : Shape.Statement (.rti c y) := Shape.of_wf _ rfl
theorem Shape.rte (c : Fin 17) (y : Syl) : Shape.Statement (.rte c y) := Shape.of_wf _ rfl
theorem Shape.halt (c : Fin 17) (y : Syl) : Shape.Statement (.halt c y) := Shape.of_wf _ rfl
theorem Shape.fence (c : Fin 17) (y : Syl) : Shape.Statement (.fence c y) := Shape.of_wf _ rfl
theorem Shape.vadd (c : Fin 17) (y : Syl) : Shape.Statement (.vadd c y) := Shape.of_wf _ rfl
theorem Shape.vsub (c : Fin 17) (y : Syl) : Shape.Statement (.vsub c y) := Shape.of_wf _ rfl
theorem Shape.vand (c : Fin 17) (y : Syl) : Shape.Statement (.vand c y) := Shape.of_wf _ rfl
theorem Shape.vor (c : Fin 17) (y : Syl) : Shape.Statement (.vor c y) := Shape.of_wf _ rfl
theorem Shape.vxor (c : Fin 17) (y : Syl) : Shape.Statement (.vxor c y) := Shape.of_wf _ rfl
theorem Shape.vmin (c : Fin 17) (y : Syl) : Shape.Statement (.vmin c y) := Shape.of_wf _ rfl
theorem Shape.vmax (c : Fin 17) (y : Syl) : Shape.Statement (.vmax c y) := Shape.of_wf _ rfl
theorem Shape.vabs (c : Fin 17) (y : Syl) : Shape.Statement (.vabs c y) := Shape.of_wf _ rfl
theorem Shape.vneg (c : Fin 17) (y : Syl) : Shape.Statement (.vneg c y) := Shape.of_wf _ rfl
theorem Shape.vshl (c : Fin 17) (y : Syl) : Shape.Statement (.vshl c y) := Shape.of_wf _ rfl
theorem Shape.vsra (c : Fin 17) (y : Syl) : Shape.Statement (.vsra c y) := Shape.of_wf _ rfl
theorem Shape.vcmp (c : Fin 17) (y : Syl) : Shape.Statement (.vcmp c y) := Shape.of_wf _ rfl
theorem Shape.vsel (c : Fin 17) (y : Syl) : Shape.Statement (.vsel c y) := Shape.of_wf _ rfl
theorem Shape.vbcast (c : Fin 17) (y : Syl) : Shape.Statement (.vbcast c y) := Shape.of_wf _ rfl
theorem Shape.vins (c : Fin 17) (y : Syl) : Shape.Statement (.vins c y) := Shape.of_wf _ rfl
theorem Shape.vext (c : Fin 17) (y : Syl) : Shape.Statement (.vext c y) := Shape.of_wf _ rfl
theorem Shape.vextr (c : Fin 17) (y : Syl) : Shape.Statement (.vextr c y) := Shape.of_wf _ rfl
theorem Shape.vrot (c : Fin 17) (y : Syl) : Shape.Statement (.vrot c y) := Shape.of_wf _ rfl
theorem Shape.vconj (c : Fin 17) (y : Syl) : Shape.Statement (.vconj c y) := Shape.of_wf _ rfl
theorem Shape.vswap (c : Fin 17) (y : Syl) : Shape.Statement (.vswap c y) := Shape.of_wf _ rfl
theorem Shape.vmaxx (c : Fin 17) (y : Syl) : Shape.Statement (.vmaxx c y) := Shape.of_wf _ rfl
theorem Shape.vminx (c : Fin 17) (y : Syl) : Shape.Statement (.vminx c y) := Shape.of_wf _ rfl
theorem Shape.vmaxr (c : Fin 17) (y : Syl) : Shape.Statement (.vmaxr c y) := Shape.of_wf _ rfl
theorem Shape.vminr (c : Fin 17) (y : Syl) : Shape.Statement (.vminr c y) := Shape.of_wf _ rfl
theorem Shape.vmov (c : Fin 17) (y : Syl) : Shape.Statement (.vmov c y) := Shape.of_wf _ rfl
theorem Shape.vmul (c : Fin 17) (y : Syl) : Shape.Statement (.vmul c y) := Shape.of_wf _ rfl
theorem Shape.vmac (c : Fin 17) (y : Syl) : Shape.Statement (.vmac c y) := Shape.of_wf _ rfl
theorem Shape.vmsu (c : Fin 17) (y : Syl) : Shape.Statement (.vmsu c y) := Shape.of_wf _ rfl
theorem Shape.vmulC (c : Fin 17) (y : Syl) : Shape.Statement (.vmulC c y) := Shape.of_wf _ rfl
theorem Shape.vmacC (c : Fin 17) (y : Syl) : Shape.Statement (.vmacC c y) := Shape.of_wf _ rfl
theorem Shape.vmacJ (c : Fin 17) (y : Syl) : Shape.Statement (.vmacJ c y) := Shape.of_wf _ rfl
theorem Shape.vmulS (c : Fin 17) (y : Syl) : Shape.Statement (.vmulS c y) := Shape.of_wf _ rfl
theorem Shape.vmacS (c : Fin 17) (y : Syl) : Shape.Statement (.vmacS c y) := Shape.of_wf _ rfl
theorem Shape.vmulL (c : Fin 17) (y : Syl) : Shape.Statement (.vmulL c y) := Shape.of_wf _ rfl
theorem Shape.vmacL (c : Fin 17) (y : Syl) : Shape.Statement (.vmacL c y) := Shape.of_wf _ rfl
theorem Shape.vmacP (c : Fin 17) (y : Syl) : Shape.Statement (.vmacP c y) := Shape.of_wf _ rfl
theorem Shape.amovV (c : Fin 17) (y : Syl) : Shape.Statement (.amovV c y) := Shape.of_wf _ rfl
theorem Shape.amovS (c : Fin 17) (y : Syl) : Shape.Statement (.amovS c y) := Shape.of_wf _ rfl
theorem Shape.amovR (c : Fin 17) (y : Syl) : Shape.Statement (.amovR c y) := Shape.of_wf _ rfl
theorem Shape.aset (c : Fin 17) (y : Syl) : Shape.Statement (.aset c y) := Shape.of_wf _ rfl
theorem Shape.aclr (c : Fin 17) (y : Syl) : Shape.Statement (.aclr c y) := Shape.of_wf _ rfl
theorem Shape.aadd (c : Fin 17) (y : Syl) : Shape.Statement (.aadd c y) := Shape.of_wf _ rfl
theorem Shape.asum (c : Fin 17) (y : Syl) : Shape.Statement (.asum c y) := Shape.of_wf _ rfl
theorem Shape.asumC (c : Fin 17) (y : Syl) : Shape.Statement (.asumC c y) := Shape.of_wf _ rfl
theorem Shape.ldB (c : Fin 17) (y : Syl) : Shape.Statement (.ldB c y) := Shape.of_wf _ rfl
theorem Shape.ldBu (c : Fin 17) (y : Syl) : Shape.Statement (.ldBu c y) := Shape.of_wf _ rfl
theorem Shape.ldH (c : Fin 17) (y : Syl) : Shape.Statement (.ldH c y) := Shape.of_wf _ rfl
theorem Shape.ldHu (c : Fin 17) (y : Syl) : Shape.Statement (.ldHu c y) := Shape.of_wf _ rfl
theorem Shape.ldW (c : Fin 17) (y : Syl) : Shape.Statement (.ldW c y) := Shape.of_wf _ rfl
theorem Shape.ldD (c : Fin 17) (y : Syl) : Shape.Statement (.ldD c y) := Shape.of_wf _ rfl
theorem Shape.stB (c : Fin 17) (y : Syl) : Shape.Statement (.stB c y) := Shape.of_wf _ rfl
theorem Shape.stH (c : Fin 17) (y : Syl) : Shape.Statement (.stH c y) := Shape.of_wf _ rfl
theorem Shape.stW (c : Fin 17) (y : Syl) : Shape.Statement (.stW c y) := Shape.of_wf _ rfl
theorem Shape.stD (c : Fin 17) (y : Syl) : Shape.Statement (.stD c y) := Shape.of_wf _ rfl
theorem Shape.vldW (c : Fin 17) (y : Syl) : Shape.Statement (.vldW c y) := Shape.of_wf _ rfl
theorem Shape.vldH (c : Fin 17) (y : Syl) : Shape.Statement (.vldH c y) := Shape.of_wf _ rfl
theorem Shape.vstW (c : Fin 17) (y : Syl) : Shape.Statement (.vstW c y) := Shape.of_wf _ rfl
theorem Shape.vstH (c : Fin 17) (y : Syl) : Shape.Statement (.vstH c y) := Shape.of_wf _ rfl
theorem Shape.xset (c : Fin 17) (y : Syl) : Shape.Statement (.xset c y) := Shape.of_wf _ rfl
theorem Shape.xadd (c : Fin 17) (y : Syl) : Shape.Statement (.xadd c y) := Shape.of_wf _ rfl
theorem Shape.xget (c : Fin 17) (y : Syl) : Shape.Statement (.xget c y) := Shape.of_wf _ rfl
theorem Shape.tap (c : Fin 17) (y : Syl) : Shape.Statement (.tap c y) := Shape.of_wf _ rfl
theorem Shape.tapDone (i : Fin 17) : Shape.Statement (.tapDone i) := Shape.of_wf _ rfl
theorem Shape.redQuery (c : Fin 17) (y : Syl) : Shape.Statement (.redQuery c y) := Shape.of_wf _ rfl
theorem Shape.cell (c : Fin 17) (y : Syl) : Shape.Statement (.cell c y) := Shape.of_wf _ rfl
theorem Shape.densQuery (c : Fin 17) (y : Syl) : Shape.Statement (.densQuery c y) := Shape.of_wf _ rfl
theorem Shape.now (c : Fin 17) (y : Syl) : Shape.Statement (.now c y) := Shape.of_wf _ rfl
theorem Shape.bound (c : Fin 17) (y : Syl) : Shape.Statement (.bound c y) := Shape.of_wf _ rfl
theorem Shape.waitBoundary (c : Fin 17) (y : Syl) : Shape.Statement (.waitBoundary c y) := Shape.of_wf _ rfl
theorem Shape.waitTime (c : Fin 17) (y : Syl) : Shape.Statement (.waitTime c y) := Shape.of_wf _ rfl
theorem Shape.waitPend (c : Fin 17) (y : Syl) : Shape.Statement (.waitPend c y) := Shape.of_wf _ rfl
theorem Shape.submit : Shape.Statement (.submit) := Shape.of_wf _ rfl
theorem Shape.withdraw (e : Fin 128) : Shape.Statement (.withdraw e) := Shape.of_wf _ rfl
theorem Shape.update (e : Fin 128) : Shape.Statement (.update e) := Shape.of_wf _ rfl
theorem Shape.placementAction : Shape.Statement (.placementAction) := Shape.of_wf _ rfl
theorem Shape.join : Shape.Statement (.join) := Shape.of_wf _ rfl
theorem Shape.shadowLimit : Shape.Statement (.shadowLimit) := Shape.of_wf _ rfl
theorem Shape.selftestDone (set : GatherResult) (test : Fin 6) : Shape.Statement (.selftestDone set test) :=
  ⟨.selftestDone gathering test, rfl, by rfl⟩
theorem Shape.calibrationDue : Shape.Statement (.calibrationDue) := Shape.of_wf _ rfl
theorem Shape.calRetry (i : Fin 17) : Shape.Statement (.calRetry i) := Shape.of_wf _ rfl
theorem Shape.calGo (slice : BitVec 5) : Shape.Statement (.calGo slice) := Shape.of_wf _ rfl
theorem Shape.calAbort : Shape.Statement (.calAbort) := Shape.of_wf _ rfl
theorem Shape.trackingStep (i : Fin 17) (shifts : List Int) : Shape.Statement (.trackingStep i shifts) :=
  ⟨.trackingStep i (List.replicate 12 0), rfl, by rfl⟩
theorem Shape.readingTimeout (k : Fin 25) : Shape.Statement (.readingTimeout k) := Shape.of_wf _ rfl
theorem Shape.refWindow (count : Nat) : Shape.Statement (.refWindow count) := Shape.of_wf _ rfl
theorem Shape.refTimeout : Shape.Statement (.refTimeout) := Shape.of_wf _ rfl
theorem Shape.refLockCheck (err : Int) (corr : Int) : Shape.Statement (.refLockCheck err corr) := Shape.of_wf _ rfl
theorem Shape.ppsEdge (falling : Bool) (tap : Fin 512) : Shape.Statement (.ppsEdge falling tap) := Shape.of_wf _ rfl
theorem Shape.ppsLoss : Shape.Statement (.ppsLoss) := Shape.of_wf _ rfl
theorem Shape.tbLoad : Shape.Statement (.tbLoad) := Shape.of_wf _ rfl
theorem Shape.tbLoadNow : Shape.Statement (.tbLoadNow) := Shape.of_wf _ rfl
theorem Shape.tbCancel : Shape.Statement (.tbCancel) := Shape.of_wf _ rfl
theorem Shape.epochGo : Shape.Statement (.epochGo) := Shape.of_wf _ rfl
theorem Shape.epochStop : Shape.Statement (.epochStop) := Shape.of_wf _ rfl
theorem Shape.epochEdge : Shape.Statement (.epochEdge) := Shape.of_wf _ rfl
theorem Shape.epochPulseEnd : Shape.Statement (.epochPulseEnd) := Shape.of_wf _ rfl
theorem Shape.tableRefresh (i : Fin 8) (hits : List Nat) : Shape.Statement (.tableRefresh i hits) :=
  ⟨.tableRefresh i (List.replicate 512 0), rfl, by unfold Instr.wf; simp only [List.length_replicate]; rfl⟩
theorem Shape.tdcArm : Shape.Statement (.tdcArm) := Shape.of_wf _ rfl
theorem Shape.tdcCancel : Shape.Statement (.tdcCancel) := Shape.of_wf _ rfl
theorem Shape.tdcEdge (pin : TdcPin) (falling : Bool) (tap : Fin 512) : Shape.Statement (.tdcEdge pin falling tap) := Shape.of_wf _ rfl
theorem Shape.tdcTimeout : Shape.Statement (.tdcTimeout) := Shape.of_wf _ rfl
theorem Shape.scrubRead (m : SramId) (addr : Nat) (err : EccKind) (syndrome : BitVec 8) : Shape.Statement (.scrubRead m addr err syndrome) :=
  ⟨.scrubRead m 0 err syndrome, rfl, by cases m <;> rfl⟩
theorem Shape.bankTestStart (m : SramId) : Shape.Statement (.bankTestStart m) := Shape.of_wf _ rfl
theorem Shape.mirrorCopyDone (m : SramId) (poisoned : Option Nat) : Shape.Statement (.mirrorCopyDone m poisoned) :=
  ⟨.mirrorCopyDone m none, rfl, by rfl⟩
theorem Shape.marchTestDone (m : SramId) (passed : Bool) : Shape.Statement (.marchTestDone m passed) := Shape.of_wf _ rfl
theorem Shape.mirrorRestoreDone (m : SramId) : Shape.Statement (.mirrorRestoreDone m) := Shape.of_wf _ rfl
theorem Shape.bar2Write (off : Nat) (data : List (Option Byte)) : Shape.Statement (.bar2Write off data) :=
  ⟨.bar2Write 0 [none], rfl, by rfl⟩
theorem Shape.bar2Read (off : Nat) (len : Nat) : Shape.Statement (.bar2Read off len) :=
  ⟨.bar2Read 0 1, rfl, by rfl⟩
theorem Shape.bar4Access (write : Bool) (off : Nat) (data : List (Option Byte)) : Shape.Statement (.bar4Access write off data) :=
  ⟨.bar4Access write off [none], rfl, by rfl⟩
theorem Shape.dramRequest (write : Bool) (addr : Nat) (data : List (Option Byte)) (err : EccKind) (symbol : BitVec 8) : Shape.Statement (.dramRequest write addr data err symbol) :=
  ⟨.dramRequest write addr [none] err symbol, rfl, by rfl⟩
theorem Shape.dramScrub (c : Fin 8) (addr : Nat) (err : EccKind) (symbol : BitVec 8) : Shape.Statement (.dramScrub c addr err symbol) :=
  ⟨.dramScrub c 0 err symbol, rfl, by rfl⟩
theorem Shape.refresh (c : Fin 8) : Shape.Statement (.refresh c) := Shape.of_wf _ rfl
theorem Shape.dramTracking (c : Fin 8) (rd : List Int) (wr : List Int) : Shape.Statement (.dramTracking c rd wr) :=
  ⟨.dramTracking c (List.replicate 10 0) (List.replicate 10 0), rfl, by rfl⟩
theorem Shape.retrain (c : Fin 8) : Shape.Statement (.retrain c) := Shape.of_wf _ rfl
theorem Shape.autoRetrain (c : Fin 8) : Shape.Statement (.autoRetrain c) := Shape.of_wf _ rfl
theorem Shape.evacuationCopyDone (c : Fin 8) : Shape.Statement (.evacuationCopyDone c) := Shape.of_wf _ rfl
theorem Shape.trainingDone (c : Fin 8) (result : TrainResult) : Shape.Statement (.trainingDone c result) :=
  ⟨.trainingDone c training, rfl, by rfl⟩
theorem Shape.evacuationRestoreDone (c : Fin 8) : Shape.Statement (.evacuationRestoreDone c) := Shape.of_wf _ rfl
theorem Shape.ringTail (ring : Fin 256) (tail : BitVec 16) : Shape.Statement (.ringTail ring tail) := Shape.of_wf _ rfl
theorem Shape.ringRun (ring : Fin 256) : Shape.Statement (.ringRun ring) := Shape.of_wf _ rfl
theorem Shape.ringStop (ring : Fin 256) (bursts : Nat) (movedBytes : Nat) : Shape.Statement (.ringStop ring bursts movedBytes) := Shape.of_wf _ rfl
theorem Shape.ringResume (ring : Fin 256) : Shape.Statement (.ringResume ring) := Shape.of_wf _ rfl
theorem Shape.descriptorFetch (ring : RingFetch) : Shape.Statement (.descriptorFetch ring) := Shape.of_wf _ rfl
theorem Shape.dmaNop (ring : Fin 256) (result : ReqResult) : Shape.Statement (.dmaNop ring result) := Shape.of_wf _ rfl
theorem Shape.copy (ring : Fin 256) (result : ReqResult) : Shape.Statement (.copy ring result) := Shape.of_wf _ rfl
theorem Shape.fill (ring : Fin 256) (result : ReqResult) : Shape.Statement (.fill ring result) := Shape.of_wf _ rfl
theorem Shape.writeImm (ring : Fin 256) (result : ReqResult) : Shape.Statement (.writeImm ring result) := Shape.of_wf _ rfl
theorem Shape.dmaCheck (ring : Fin 256) (result : ReqResult) : Shape.Statement (.dmaCheck ring result) := Shape.of_wf _ rfl
theorem Shape.programLoad (ring : Fin 256) (result : ReqResult) : Shape.Statement (.programLoad ring result) := Shape.of_wf _ rfl
theorem Shape.dmaReturn (ring : Fin 256) (result : ReqResult) : Shape.Statement (.dmaReturn ring result) := Shape.of_wf _ rfl
theorem Shape.dmaLink (ring : Fin 256) (result : ReqResult) : Shape.Statement (.dmaLink ring result) := Shape.of_wf _ rfl
theorem Shape.descriptorComplete (ring : Fin 256) : Shape.Statement (.descriptorComplete ring) := Shape.of_wf _ rfl
theorem Shape.completionTimeout (ring : Fin 256) (good : Nat) : Shape.Statement (.completionTimeout ring good) := Shape.of_wf _ rfl
theorem Shape.flushReadComplete (who : WaybillOwner) (ok : Bool) : Shape.Statement (.flushReadComplete who ok) :=
  ⟨.flushReadComplete (.ring 0) ok, rfl, by rfl⟩
theorem Shape.waybill (who : WaybillOwner) : Shape.Statement (.waybill who) :=
  ⟨.waybill (.ring 0), rfl, by rfl⟩
theorem Shape.cqHead (cq : Fin 1024) (head : BitVec 16) : Shape.Statement (.cqHead cq head) := Shape.of_wf _ rfl
theorem Shape.cqEnable (cq : Fin 1024) : Shape.Statement (.cqEnable cq) := Shape.of_wf _ rfl
theorem Shape.msixUnmask (v : Fin 2048) : Shape.Statement (.msixUnmask v) := Shape.of_wf _ rfl
theorem Shape.endpointReset : Shape.Statement (.endpointReset) := Shape.of_wf _ rfl
theorem Shape.vblankStart (d : Fin 2) : Shape.Statement (.vblankStart d) := Shape.of_wf _ rfl
theorem Shape.lineMatch (d : Fin 2) : Shape.Statement (.lineMatch d) := Shape.of_wf _ rfl
theorem Shape.frameDone (d : Fin 2) : Shape.Statement (.frameDone d) := Shape.of_wf _ rfl
theorem Shape.displayLine (d : Fin 2) : Shape.Statement (.displayLine d) := Shape.of_wf _ rfl
theorem Shape.lineFetch (d : Fin 2) (n : Fin 4) (v : Nat) : Shape.Statement (.lineFetch d n v) := Shape.of_wf _ rfl
theorem Shape.hpdUnplug (d : Fin 2) : Shape.Statement (.hpdUnplug d) := Shape.of_wf _ rfl
theorem Shape.irqHpd (d : Fin 2) : Shape.Statement (.irqHpd d) := Shape.of_wf _ rfl
theorem Shape.linkTraining (d : Fin 2) (ok : Bool) : Shape.Statement (.linkTraining d ok) := Shape.of_wf _ rfl
theorem Shape.dispCommit (d : Fin 2) : Shape.Statement (.dispCommit d) := Shape.of_wf _ rfl
theorem Shape.ctLoad (d : Fin 2) : Shape.Statement (.ctLoad d) := Shape.of_wf _ rfl
theorem Shape.ctLoadDone (d : Fin 2) : Shape.Statement (.ctLoadDone d) := Shape.of_wf _ rfl
theorem Shape.auxGo (d : Fin 2) : Shape.Statement (.auxGo d) := Shape.of_wf _ rfl
theorem Shape.auxComplete (d : Fin 2) (r : AuxResult) (data : List Byte) : Shape.Statement (.auxComplete d r data) :=
  ⟨.auxComplete d r [], rfl, by rfl⟩
theorem Shape.rampGo : Shape.Statement (.rampGo) := Shape.of_wf _ rfl
theorem Shape.rampAbort : Shape.Statement (.rampAbort) := Shape.of_wf _ rfl
theorem Shape.rampSegmentEnd : Shape.Statement (.rampSegmentEnd) := Shape.of_wf _ rfl
theorem Shape.thermtrip : Shape.Statement (.thermtrip) := Shape.of_wf _ rfl
theorem Shape.trustCommit : Shape.Statement (.trustCommit) := Shape.of_wf _ rfl
theorem Shape.trustClear : Shape.Statement (.trustClear) := Shape.of_wf _ rfl
theorem Shape.seedSet : Shape.Statement (.seedSet) := Shape.of_wf _ rfl
theorem Shape.userCal : Shape.Statement (.userCal) := Shape.of_wf _ rfl
theorem Shape.fwUpdate (sectionsOk : Bool) : Shape.Statement (.fwUpdate sectionsOk) := Shape.of_wf _ rfl
theorem Shape.ucodeUpdate : Shape.Statement (.ucodeUpdate) := Shape.of_wf _ rfl
theorem Shape.lcAdvance : Shape.Statement (.lcAdvance) := Shape.of_wf _ rfl
theorem Shape.extestEnable : Shape.Statement (.extestEnable) := Shape.of_wf _ rfl
theorem Shape.wipe : Shape.Statement (.wipe) := Shape.of_wf _ rfl
theorem Shape.authCancel : Shape.Statement (.authCancel) := Shape.of_wf _ rfl
theorem Shape.presenceProven : Shape.Statement (.presenceProven) := Shape.of_wf _ rfl
theorem Shape.windowExpired : Shape.Statement (.windowExpired) := Shape.of_wf _ rfl
theorem Shape.authDone (flashOk : Bool) : Shape.Statement (.authDone flashOk) := Shape.of_wf _ rfl
theorem Shape.strayPresence : Shape.Statement (.strayPresence) := Shape.of_wf _ rfl
theorem Shape.tamperOpen : Shape.Statement (.tamperOpen) := Shape.of_wf _ rfl
theorem Shape.tamperClosed : Shape.Statement (.tamperClosed) := Shape.of_wf _ rfl
theorem Shape.tamperArm (value : Bool) : Shape.Statement (.tamperArm value) := Shape.of_wf _ rfl
theorem Shape.timeMark : Shape.Statement (.timeMark) := Shape.of_wf _ rfl
theorem Shape.traceEnable : Shape.Statement (.traceEnable) := Shape.of_wf _ rfl
theorem Shape.extest : Shape.Statement (.extest) := Shape.of_wf _ rfl
theorem Shape.samplePreload (cells : BitVec 3993) : Shape.Statement (.samplePreload cells) := Shape.of_wf _ rfl
theorem Shape.idcode : Shape.Statement (.idcode) := Shape.of_wf _ rfl
theorem Shape.obsread (addr : BitVec 26) : Shape.Statement (.obsread addr) := Shape.of_wf _ rfl
theorem Shape.bypass : Shape.Statement (.bypass) := Shape.of_wf _ rfl
theorem Shape.conversion (v : Fin 2) (code : BitVec 24) (ovr : Bool) (eng : BitVec 16) : Shape.Statement (.conversion v code ovr eng) := Shape.of_wf _ rfl
theorem Shape.hkCalibration (v : Fin 2) (off : BitVec 24) (gain : BitVec 32) : Shape.Statement (.hkCalibration v off gain) := Shape.of_wf _ rfl
theorem Shape.urgentRequest (falling : Bool) : Shape.Statement (.urgentRequest falling) := Shape.of_wf _ rfl
theorem Shape.urgent : Shape.Statement (.urgent) := Shape.of_wf _ rfl
theorem Shape.resetRelease (straps : BitVec 4) (testMode : Bool) : Shape.Statement (.resetRelease straps testMode) := Shape.of_wf _ rfl
theorem Shape.configurationRequest (op : CfgOp) : Shape.Statement (.configurationRequest op) := Shape.of_wf _ rfl
theorem Shape.syncPulseMissing : Shape.Statement (.syncPulseMissing) := Shape.of_wf _ rfl
theorem Shape.unexpectedCompletion : Shape.Statement (.unexpectedCompletion) := Shape.of_wf _ rfl
theorem Shape.quiesceSealDeadline : Shape.Statement (.quiesceSealDeadline) := Shape.of_wf _ rfl

end Sys2Proof.Laws
end

