-- ==== Sys2Proof/Laws/Shared.lean ====
section
/-!
SUPPORT. Sys2Proof/Laws/Shared.lean: for each operation that many commands share, the whole of what it can change.
-/
namespace Sys2Proof.Laws
open Sys2Proof Sys2Proof.Machine

/-- `t` differs from `s` in registers alone. -/
def OnlyRegs (s t : State) : Prop := t = { s with regs := t.regs }

theorem OnlyRegs.refl (s : State) : OnlyRegs s s := rfl

theorem OnlyRegs.trans {s t u : State} (h : OnlyRegs s t) (g : OnlyRegs t u) : OnlyRegs s u := by
  unfold OnlyRegs at h g ⊢; rw [g, h]

theorem onlyRegs_setWord (s : State) (a : Nat) (w : Word) : OnlyRegs s (s.setWord a w) := rfl
theorem onlyRegs_wr (s : State) (b : Blk) (f : Fld) (v : Nat) : OnlyRegs s (s.wr b f v) := rfl
theorem onlyRegs_wrw (s : State) (b : Blk) (o v : Nat) : OnlyRegs s (s.wrw b o v) := rfl
theorem onlyRegs_fault (s : State) (b : Blk) (f : Fld) : OnlyRegs s (s.fault b f) := rfl
theorem onlyRegs_coreInt (s : State) (i n : Nat) : OnlyRegs s (s.coreInt i n) := rfl
theorem onlyRegs_markEnabled (b : Blk) (s : State) : OnlyRegs s (markEnabled b s) := rfl
theorem onlyRegs_checkUnit (u poly : Nat) (bs : List Byte) (s : State) : OnlyRegs s (checkUnit u poly bs s).1 := by
  simp only [checkUnit, State.cnt]; split <;> split <;> rfl
theorem onlyRegs_cnt (s : State) (b : Blk) (f : Fld) (n : Nat) : OnlyRegs s (s.cnt b f n) := by
  unfold State.cnt; split <;> rfl
theorem onlyRegs_checkFail (u : Nat) (s : State) : OnlyRegs s (checkFail u s) := onlyRegs_cnt _ _ _ _

theorem OnlyRegs.wr {s t : State} (h : OnlyRegs s t) (b : Blk) (f : Fld) (v : Nat) : OnlyRegs s (t.wr b f v) := h.trans rfl
theorem OnlyRegs.fault {s t : State} (h : OnlyRegs s t) (b : Blk) (f : Fld) : OnlyRegs s (t.fault b f) := h.trans rfl

theorem onlyRegs_each {β : Type} (l : List β) (g : β → Op) (h : ∀ x s, OnlyRegs s (g x s)) : ∀ s : State, OnlyRegs s (s.each l g) := by
  induction l with
  | nil => exact fun s => .refl s
  | cons x l ih => exact fun s => (h x s).trans (ih (g x s))

theorem onlyRegs_when (s : State) (c : Bool) (g : Op) (h : OnlyRegs s (g s)) : OnlyRegs s (s.when c g) := by
  unfold State.when; split
  · exact h
  · exact .refl s

/-- `t` differs from `s` in registers and in the trace. -/
def OnlyObs (s t : State) : Prop := t = { s with regs := t.regs, obs := t.obs }

theorem OnlyObs.refl (s : State) : OnlyObs s s := rfl

theorem OnlyObs.trans {s t u : State} (h : OnlyObs s t) (g : OnlyObs t u) : OnlyObs s u := by
  unfold OnlyObs at h g ⊢; rw [g, h]

theorem OnlyRegs.obs {s t : State} (h : OnlyRegs s t) : OnlyObs s t := by
  unfold OnlyRegs at h; unfold OnlyObs; rw [h]

theorem OnlyObs.lost {s t : State} (h : OnlyObs s t) (l : Nat) : OnlyObs s { t with obs.lost := l } := h.trans rfl

theorem onlyObs_each {β : Type} (l : List β) (g : β → Op) (h : ∀ x s, OnlyObs s (g x s)) : ∀ s : State, OnlyObs s (s.each l g) := by
  induction l with
  | nil => exact fun s => .refl s
  | cons x l ih => exact fun s => (h x s).trans (ih (g x s))

theorem onlyObs_tracePut (e : Nat) (s : State) : OnlyObs s (tracePut e s) := by
  unfold tracePut
  dsimp only
  refine .trans ?_ (onlyRegs_when _ _ _ ((onlyRegs_wr _ _ _ _).trans (onlyRegs_wr _ _ _ _))).obs
  refine .trans ?_ (onlyRegs_wr _ _ _ _).obs
  refine .trans ?_ (onlyRegs_cnt _ _ _ _).obs
  rfl

theorem onlyObs_traceDrop (s : State) : OnlyObs s (traceDrop s) := ((onlyRegs_cnt s _ _ _).obs).lost _

theorem onlyObs_traceSlot (e : Nat) (s : State) : OnlyObs s (traceSlot e s) := (onlyObs_tracePut e s).trans rfl

theorem onlyObs_traceWrite (ty ix arg : Nat) (s : State) : OnlyObs s (traceWrite ty ix arg s) := by
  have tail : ∀ (e : Nat) (s : State),
      OnlyObs s (if !s.tracing then s else if s.slotTaken then traceDrop s else traceSlot e s) := by
    intro e s
    split
    · exact .refl s
    · split
      · exact onlyObs_traceDrop s
      · exact onlyObs_traceSlot e s
  unfold traceWrite
  split
  · exact .refl s
  · split
    · exact onlyObs_traceDrop s
    · dsimp only
      refine OnlyObs.trans ?_ (tail _ _)
      split
      · exact .refl s
      · exact (onlyObs_traceSlot _ s).lost 0

/-- Observation changes counters and the trace (R401 to R404). -/
theorem onlyObs_observeAll (s : State) (evs : List (Nat × Nat × Nat)) (n : Nat) : OnlyObs s (s.observeAll evs n) := by
  unfold State.observeAll
  split
  · exact .refl s
  · exact (onlyRegs_when _ _ _ (onlyRegs_each _ _ (fun _ _ => onlyRegs_cnt _ _ _ _) s)).obs.trans
      (onlyObs_each _ _ (fun _ st => onlyObs_traceWrite _ _ _ st) _)

theorem onlyObs_observe (s : State) (u e n arg : Nat) : OnlyObs s (s.observe u e n arg) := onlyObs_observeAll s _ n

/-- A passage through a ferry, and a change of its level, show in its register alone (R19). -/
theorem onlyRegs_ferryPass (b : Blk) (level hw : Fld) (depth n : Nat) (s : State) : OnlyRegs s (ferryPass b level hw depth n s) := by
  unfold ferryPass; dsimp only; split <;> rfl

theorem onlyRegs_ferryLevel (b : Blk) (level hw : Fld) (depth n : Nat) (s : State) : OnlyRegs s (ferryLevel b level hw depth n s) := by
  unfold ferryLevel; dsimp only; split <;> rfl

/-- `t` differs from `s` in registers and on the host's side. -/
def OnlyHost (s t : State) : Prop := t = { s with regs := t.regs, host := t.host }

theorem OnlyRegs.host {s t : State} (h : OnlyRegs s t) : OnlyHost s t := by
  unfold OnlyRegs at h; unfold OnlyHost; rw [h]

theorem OnlyHost.trans {s t u : State} (h : OnlyHost s t) (g : OnlyHost t u) : OnlyHost s u := by
  unfold OnlyHost at h g ⊢; rw [g, h]

/-- A request to the host changes the host's side and the register of host_out (R18, R350). -/
theorem onlyHost_toHost (s : State) (q : HostReq) : OnlyHost s (s.toHost q) := by
  unfold State.toHost
  split
  · dsimp only
    refine OnlyHost.trans (t := ferryPass .dma R.HOST_OUT_FERRY.level R.HOST_OUT_FERRY.high_water 1024 q.entries s)
      (onlyRegs_ferryPass _ _ _ _ _ _).host ?_
    cases q <;> rfl
  · exact OnlyHost.trans (t := { s with host.hostOut := s.host.hostOut ++ [q] }) rfl (onlyRegs_ferryLevel _ _ _ _ _ _).host

/-- So does an MSI-X request (R364). -/
theorem onlyHost_msix (s : State) (v : Nat) : OnlyHost s (s.msix v) := by
  unfold State.msix
  split
  · rfl
  · split
    · exact onlyHost_toHost s _
    · split
      · rfl
      · exact onlyHost_toHost s _

/-- A placement cause joins those waiting; its message shows in the register of mgmt (R18, R275). -/
theorem placeCause_eq (c a : Nat) (s : State) :
    placeCause c a s = { s with regs := (placeCause c a s).regs, causes := s.causes ++ [⟨c, a⟩] } := by
  have h : OnlyRegs { s with causes := s.causes ++ [⟨c, a⟩] } (placeCause c a s) := onlyRegs_ferryPass _ _ _ _ _ _
  exact h

/-- The record of an uncorrectable error of an on-chip memory changes counters, faults and the trace (R318). -/
theorem onlyObs_logBad (m : SramId) (a agent syn : Nat) (s : State) : OnlyObs s (logBad m a agent syn s) := by
  unfold logBad
  refine (onlyObs_observe s m.obsUnit 4 1 a).trans (OnlyRegs.obs ?_)
  generalize s.observe m.obsUnit 4 1 a = s
  cases m
  · exact (((((onlyRegs_cnt s _ _ _).fault _ _).wr _ _ _).wr _ _ _).wr _ _ _).wr _ _ _
  · exact ((((((onlyRegs_cnt s _ _ _).wr _ _ _).wr _ _ _).wr _ _ _).wr _ _ _).wr _ _ _).wr _ _ _
  · exact ((((((onlyRegs_cnt s _ _ _).wr _ _ _).wr _ _ _).wr _ _ _).wr _ _ _).wr _ _ _).wr _ _ _

/-- The record of an uncorrectable error of a DRAM line changes the channel's registers (R334). -/
theorem onlyRegs_dramLog (c l sym agent : Nat) (s : State) : OnlyRegs s (dramLog c l sym agent s) :=
  (((((onlyRegs_cnt _ _ _ _).fault _ _).wr _ _ _).wr _ _ _).wr _ _ _).wr _ _ _

/-- No operation that changes registers or the trace alone touches the queue of commands, the memories or the device state. -/
theorem OnlyObs.frame {s t : State} (h : OnlyObs s t) : t.pending = s.pending ∧ t.mem = s.mem ∧ t.dev = s.dev ∧ t.cores = s.cores
    ∧ t.queue = s.queue ∧ t.host = s.host ∧ t.sec = s.sec := by
  unfold OnlyObs at h; rw [h]; exact ⟨rfl, rfl, rfl, rfl, rfl, rfl, rfl⟩

end Sys2Proof.Laws
end

