-- ==== Sys2Proof/Tests/Slice0.lean ====
section
/-!
SUPPORT. Sys2Proof/Tests/Slice0.lean: the model's own tests: operands that the checks refuse, figures of the spec's worked examples, and
for every statement with hypotheses a state and operands that meet each of its clauses.
-/
namespace Sys2Proof.Tests
open Sys2Proof Sys2Proof.Machine

/-! ### Small states -/

/-- The state with fields of registers set. -/
def pokes (l : List (Blk × Fld × Nat)) (s : State) : State := l.foldl (fun s p => s.wr p.1 p.2.1 p.2.2) s

/-- A device in RUN: every loop locked, the IDs passed, memory space open, the TIME domain running. -/
def live : State :=
  { State.reset with
    dev := .run
    regs := [(Blk.clocks.base + R.CLK_STATUS.locked.off, R.CLK_STATUS.locked.put (resetWord (Blk.clocks.base + R.CLK_STATUS.locked.off)) 0x3FF)]
    host := { State.reset.host with memSpace := true }
    boot := { State.reset.boot with idsPassed := true }
    pins := { State.reset.pins with supplies := true, resetN := true }
    tim := { State.reset.tim with running := true } }

/-- That device with fields of registers set. -/
def up (l : List (Blk × Fld × Nat)) : State := pokes l live

/-- The block is enabled. -/
def on (b : Blk) : Blk × Fld × Nat := (b, R.BLOCK_STATUS.enabled, 1)

/-- The state a command answers with. -/
def run : Host.Outcome State Fault Refusal → State
  | .next t => t
  | _ => State.reset

/-- A segment of a ramp. -/
def seg : RampSeg := ⟨4000, 1000⟩

/-- A boot image of one header and 64 bytes, its CRC right (R388). -/
def bootImg : List Byte :=
  imageWithCounter ([0x42, 0x58, 0x42, 0x54, 0, 0, 0, 0, 64, 0, 0, 0] ++ List.replicate 52 0) 1

/-- A device that executes LC_ADVANCE to the second life-cycle state, with its end next. -/
noncomputable def advancing : State :=
  { live with sec := { live.sec with lc := 0, op := some ⟨7, [1], 0, 0, true, 0⟩ }, pending := [.authDone true] }

/-- A device whose RXG[0] receives sub-stream 0 on all 15 lanes. -/
def receiving : State :=
  (up [on (.rxg 0), (.rxg 0, R.RXG_STATUS.ck_present, 1), (.rxg 0, R.RXG_STATUS.active_mask, 0x7FFF),
    (.rxg 0, R.RXG_STATUS.ss_state, 2)]).setRx 0 { RxSt.zero with matched := true, lane := (List.range 15).map (fun n => (n + 1, 3)) }

/-- A device whose TXG[0] sends sub-stream 0 on all 15 lanes and has a block time's samples waiting. -/
def sending : State :=
  (up [on (.txg 0), (.txg 0, R.TXG_STATUS.active_mask, 0x7FFF), (.txg 0, R.TXG_SS.enable 0, 1),
    (.txg 0, R.TXG_STATUS.ss_running, 1)]).setTx 0 { TxSt.zero with
      subs := TxSt.zero.subs.set 0 { TxSub.zero with sinceMsg := 1023, queue := List.replicate 40 ⟨5, -7, false, false, false⟩ } }

/-- Core 0 issues, with these registers. -/
def coreOf (k : CoreSt) : State := (up [on (.core 0), (.core 0, R.CORE_STATUS.state, 1)]).setCore 0 k

/-- Some registers. -/
def regs : CoreSt :=
  CoreSt.zero.puts [(.s 2, 64), (.s 3, -9), (.s 4, 0x10000), (.s 5, 16), (.x 2, 64), (.x 3, 65), (.x 4, 0xC000000), (.v 2 0, 8388607), (.v 2 7, -5),
    (.v 3 0, 1), (.v 3 1, -3), (.a 2 5, 77)]

/-- A core that issues. -/
def core : State := coreOf regs

/-- A syllable of destination 1 and sources 2 and 3 that ends its bundle. -/
def syl : Syl := ⟨1, 2, 3, 0, true, false⟩

/-- A batch of one sample of context 0 in run 3 at index `n`. -/
def batch (n : Nat) (lost : Bool) : Batch := ⟨0, 3, n, 0, 0, false, [⟨9, -4, true, lost, 70⟩]⟩

/-- Slice 0 receives context 0 in mode 1; output `n` is the next one due. -/
def flowing (n : Nat) (l : List (Blk × Fld × Nat)) : State :=
  (up ([(.placement, R.PL_STREAM.valid 0, 1), (.placement, R.PL_STREAM.consumers 0, 1), on (.filt 0), (.core 0, R.SLICE_MODE.mode, 1),
    (.filt 0, R.OUT_INDEX.index, n)] ++ l)).setChain 0 { ChainSt.zero with run := some 3, any := true, next := n, carOpen := true }

/-- That slice with a batch in the ferry. -/
def fed (n : Nat) (lost : Bool) (l : List (Blk × Fld × Nat)) : State :=
  (flowing n l).setRx 0 { RxSt.zero with ferry := [[batch n lost]] }

/-- Slice 0's trigger block runs in mode 1. -/
def armedIn (a : Nat) (l : List (Blk × Fld × Nat)) : State := up ([on (.trig 0), (.core 0, R.SLICE_MODE.mode, 1), (.trig 0, R.TRIG_STATUS.arm_state, a)] ++ l)

/-- A point of the index axis. -/
def point : AxisPt := ⟨5, 500, 600, 0, 0, false, none, false, 0⟩

/-- FORCE has been reported and is the one condition of term 0. -/
def forced (a : Nat) : State :=
  (armedIn a [(.trig 0, R.TERM.req 0, 0x4000)]).setTrig 0 { TrigSt.zero with axis := [point], now := [Report.at_ 14 true true 0 0] }

/-- A context of queue `q` with these words stands in the cache. -/
def cachedCtx (q w0 w1 w2 w3 : Nat) (s : State) : State :=
  { s with queue := { s.queue with cache := [(q % 1024, [⟨q, ⟨w0, w1, w2, w3⟩, false, false⟩])] } }

/-- A record of producer 0 for queue 5, class 2. -/
def recOf (p : RecPhase) : Rec := ⟨5, 0, 2, 7, 0, 2, 0, 0, 0, 0, 0, 0, 0, List.replicate 24 3, [], p, 4, 128, 0, 0⟩

/-- Queue 5 accepts records of a 4 KiB buffer, with this record on its way. -/
def queued (p : RecPhase) (l : List (Blk × Fld × Nat)) : State :=
  let s := cachedCtx 5 (0x100280 + 12) (2 ^ 36 + 4) 4 7 (up ([on .queue, on .check, on (.records 0), (.queue, R.QUEUE_CFG.full_wait, 50)] ++ l))
  { s with queue := { s.queue with recs := [recOf p] } }

/-- The synthesis path of slice 0 in this state of a run. -/
def synth (st : Nat) (l : List (Blk × Fld × Nat)) : State :=
  up ([on (.records 0), (.core 0, R.SLICE_MODE.mode, 3), (.records 0, R.SYN_STATUS.state, st), (.records 0, ⟨0x218, 0, 32⟩, 1)] ++ l)

/-- That path in RUN, long after the release instant of its next output. -/
def released (l : List (Blk × Fld × Nat)) : State := { synth 2 l with tim := { TimeSt.zero with running := true, now := 2 ^ 100 } }

/-- The device in HOLD. -/
def stoodStill (l : List (Blk × Fld × Nat)) : State := { up l with dev := .hold }

/-- Word `w` of declaration entry `e`. -/
def declFld (e w : Nat) : Fld := ⟨0x2000 + 0x40 * e + 8 * w, 0, 64⟩

/-- The placement engine is on, with these words of entry 5. -/
def placing (ws : List (Nat × Nat)) (l : List (Blk × Fld × Nat)) : State :=
  up ([on .placement, on .check] ++ ws.map (fun p => (.placement, declFld 5 p.1, p.2)) ++ l)

/-- A program image of one empty section, its CRC right (R243). -/
def progImg : List Byte :=
  let body : List Byte := [0x41, 0x4C, 0x4E, 0x4E, 0, 0, 0, 0, 0, 0, 1, 1, 0, 0, 0, 0, 48, 0, 0, 0, 1, 0, 0, 0, 0, 0, 0, 0]
  body ++ leBytes 4 (crc 0 (body ++ List.replicate 20 0)) ++ List.replicate 16 0

/-- The TIME domain runs and this much time has passed. -/
def timed (raw : Nat) (l : List (Blk × Fld × Nat)) : State := { up l with tim := { TimeSt.zero with running := true, raw := raw, now := raw } }

/-- What a calibration gathers: every sweep passes, or the last one fails. -/
def gathered (ok : Bool) : GatherResult :=
  ⟨List.replicate 11 (2 ^ 128 - 1) ++ [if ok then 2 ^ 128 - 2 else 0], 300, 900⟩

/-- The calibration has the core of the placement engine, with these registers set. -/
def calibrating (l : List (Blk × Fld × Nat)) : State := up ([on .placement, on .check] ++ l)

/-- The depot block is on, with these registers set. -/
def depotOn (l : List (Blk × Fld × Nat)) : State := up (on .depot :: l)

/-- Channel `c` of two serves: PLL_MEM runs and every channel is enabled and active. -/
def dramOn (l : List (Blk × Fld × Nat)) : State :=
  up ([on .placement, (.dram 0, R.DRAM_MAP.n_log2, 1), (.dram 0, R.DRAM_MAP.n_active_log2, 1), on (.dram 0), on (.dram 1),
    (.dram 0, R.DRAM_STATUS.state, 2), (.dram 1, R.DRAM_STATUS.state, 2)] ++ l)

/-- Every DRAM channel serves. -/
def serve : List (Blk × Fld × Nat) := (List.range 8).flatMap (fun c => [on (.dram c), (.dram c, R.DRAM_STATUS.state, 2)])
def allServe (l : List (Blk × Fld × Nat)) : State := up (serve ++ l)

/-- The lanes of a training: every read eye this wide. -/
def trained (w : BitVec 256) : TrainResult := ⟨List.replicate 10 ⟨w, 2 ^ 60 - 1, 2 ^ 200 - 2 ^ 100, 2 ^ 60 - 1⟩, 300, 900⟩

/-- Ring 255 in this state, in this phase. -/
def ringed (st : Nat) (x : RingSt) (l : List (Blk × Fld × Nat)) : State :=
  (up ([on .dma, on (.dmaRings 3), (.dmaRings 3, R.RING_STATUS.state 63, st), (.dma, R.PCIE_STATUS.bus_master, 1)] ++ l)).setRing 255 x

/-- A descriptor: opcode with its flags and spaces, length, source and destination. -/
def desc (w0 n a b : Nat) : Desc := ⟨0x4000, 2, false, BitVec.ofNat 64 w0, BitVec.ofNat 64 n, BitVec.ofNat 64 a, BitVec.ofNat 64 b⟩

/-- Ring 255 runs and has fetched this descriptor; two DRAM channels are active. -/
def held (d : Desc) (x : RingSt) (l : List (Blk × Fld × Nat)) : State :=
  ringed 1 { x with desc := some d } ([(.dram 0, R.DRAM_MAP.n_active_log2, 1)] ++ l)

/-- A ring's record with its descriptor fetched, or performed with `moved` bytes. -/
def fetchedRing : RingSt := { RingSt.idle with phase := .fetched, log2n := 4 }
def performedRing (m : Nat) : RingSt := { RingSt.idle with phase := .performed, log2n := 4, moved := m }

/-- Output 1 is active, 40 pixels by 3 lines. -/
def display (l : List (Blk × Fld × Nat)) : State :=
  up ([on (.display 1), (.display 1, R.DISP_STATUS.state, 2), (.display 1, R.DISP_H.active, 40), (.display 1, R.DISP_V.active, 3),
    (.display 1, R.DISP_V.front, 2), (.display 1, R.DISP_LINK.bpc10, 1), (.display 1, R.DISP_BG.colour, 7)] ++ l)

/-- Layer 3 of output 1 is active and opaque, 4 pixels from pixel 38, from line 1. -/
def layered (l : List (Blk × Fld × Nat)) (f : DispSt → DispSt) : State :=
  let s := display ([(.display 1, R.LAYER_ACTIVE2.x 3, 38), (.display 1, R.LAYER_ACTIVE2.y 3, 1), (.display 1, R.LAYER_ACTIVE2.w 3, 4),
    (.display 1, R.LAYER_ACTIVE2.h 3, 2), (.display 1, R.DISP_STATUS.line, 1), (.dram 0, R.DRAM_MAP.n_active_log2, 1)] ++ l)
  s.setDisp 1 (f { DispSt.zero with ctrl := [0, 0, 0, 3 + 255 * 4] })

/-! ### The checks on operands: a term each check refuses -/

/-- The training of a channel with nine lanes. -/
def shortTraining : TrainResult := ⟨List.replicate 9 ⟨0, 0, 0, 0⟩, 0, 0⟩

/-- A timing set of eleven sweeps. -/
def shortSet : GatherResult := ⟨List.replicate 11 0, 0, 0⟩

theorem test_wf_rejects_unused_slot : (Blk.rxg 16).wf = false := by decide
theorem test_wf_rejects_blocks_outside : ((Instr.enable (.core 17)).wf, (Instr.quiesce (.dram 8)).wf, (Instr.quiesceAck (.display 2)).wf,
    (Instr.wedged (.blk (.txg 16))).wf) = (false, false, false, false) := by decide
theorem test_wf_rejects_short_training : (Instr.trainingDone 0 shortTraining).wf = false := by decide
theorem test_wf_rejects_boot_with_seven_channels :
    (Instr.bootComplete [] (List.replicate 7 ⟨List.replicate 10 ⟨0, 0, 0, 0⟩, 0, 0⟩) []).wf = false := by decide
theorem test_wf_rejects_boot_of_absent_bank : (Instr.bootComplete [(.depot, 1000000)] [] []).wf = false := by decide
theorem test_wf_rejects_wake_without_sets : (Instr.wakeComplete (List.replicate 8 (List.replicate 10 0, List.replicate 10 0)) []).wf = false := by
  decide
theorem test_wf_rejects_access_widths : ((Instr.registerWrite .host 0x128 128 0).wf, (Instr.latchingRead .mgmt 0x128 24).wf) = (false, false) := by
  decide
theorem test_wf_rejects_access_outside_bar0 : (Instr.registerWrite .host 0x4000000 64 0).wf = false := by decide
theorem test_wf_rejects_14_lanes : ((Instr.rxAlign 0 (List.replicate 14 none)).wf, (Instr.dataRow 0 []).wf) = (false, false) := by decide
theorem test_wf_rejects_lane_0 : (Instr.fomScan 0 0 0 0 0).wf = false := by decide
theorem test_wf_rejects_more_errors_than_bits : (Instr.prbsSyncLoss 0 1 5 6).wf = false := by decide
theorem test_wf_rejects_short_set : (Instr.selftestDone shortSet 0).wf = false := by decide
theorem test_wf_rejects_11_shifts : (Instr.trackingStep 0 (List.replicate 11 0)).wf = false := by decide
theorem test_wf_rejects_short_table : (Instr.tableRefresh 0 [1]).wf = false := by decide
theorem test_wf_rejects_unaligned_scrub : ((Instr.scrubRead .depot 4 .clean 0).wf, (Instr.scrubRead .depot 0x4000000 .clean 0).wf)
    = (false, false) := by decide
theorem test_wf_rejects_poison_outside : (Instr.mirrorCopyDone .depot (some 0x4000000)).wf = false := by decide
theorem test_wf_rejects_bar2_overrun : ((Instr.bar2Write 0x3FFFFFF [none, none]).wf, (Instr.bar2Read 0 0).wf) = (false, false) := by decide
theorem test_wf_rejects_empty_writes : ((Instr.bar4Access true 0 []).wf, (Instr.dramRequest true 0 [] .clean 0).wf) = (false, false) := by decide
theorem test_wf_rejects_unaligned_line : (Instr.dramScrub 0 8 .clean 0).wf = false := by decide
theorem test_wf_rejects_nine_tracks : (Instr.dramTracking 0 [] (List.replicate 10 0)).wf = false := by decide
theorem test_wf_rejects_long_aux : (Instr.auxComplete 0 .ack (List.replicate 17 0)).wf = false := by decide
theorem test_wf_rejects_queue_2_20 : ((Instr.waybill (.queue 0x100000)).wf, (Instr.flushReadComplete (.queue 0x100000) true).wf)
    = (false, false) := by decide

/-! ### The spec's own figures -/

/-- The ASCII string of R366. -/
def digits : List Byte := [0x31, 0x32, 0x33, 0x34, 0x35, 0x36, 0x37, 0x38, 0x39]

/-- R366: the check values of the four CRCs. -/
theorem test_crc_of_digits : [crc 0 digits, crc 1 digits, crc 2 digits, crc 3 digits]
    = [0xE3069283, 0xCBF43926, 0x995DC9BBDF1939FA, 0x906E] := by decide +kernel

/-- R227: 5 × 2^28 moved with scale 0, 2 and −2. -/
theorem test_accumulator_scale : [rne (5 * 2 ^ 28) 23, rne (5 * 2 ^ 28) 21, rne (5 * 2 ^ 28) 25] = [160, 640, 40] := by decide

/-- Slice 0 with the chain of the worked example of "Ingest and the Filter Chain": HB7 three times, HB11, HB19, a FIR of 192 taps by 4. -/
def chained : State :=
  (up [(.filt 0, R.FILT_CFG.hb_stages, 5), (.filt 0, R.FILT_HB.design, 0 + 0 * 8 + 0 * 64 + 1 * 512 + 2 * 4096), (.filt 0, R.FILT_CFG.fir_enable, 1),
    (.filt 0, R.FILT_CFG.fir_decim, 3)]).setChain 0 { ChainSt.zero with banks := ChainSt.zero.banks.set 0 { ChainSt.zero.banks[0] with len := 192 } }

/-- R98: GROUP_DELAY reads 0x000C_BD00, W is 6,523 and the decimation 128. -/
theorem test_chain_geometry : (chained.chainGD 0, chained.chainW 0, chained.chainD 0) = (0x000CBD00, 6523, 128) := by decide +kernel

/-- R113: the last entry of LOG_ROM; R114: a full-scale tone under a Hann window of 1,024 reads −1. -/
theorem test_log_rom : logRom 511 = 65444 := by decide +kernel
theorem test_full_scale_power_word : powerWord (2 ^ 46 - 5348024557) 9 24660 0 = -1 := by decide +kernel

/-- R179, R174: the record of the worked capture is 14,033,600 bytes; that of the density stream 262,272; of the channel 4,224. -/
theorem test_record_lengths : [recLen 14033404 64, recLen 262176 0, recLen 4136 0] = [14033600, 262272, 4224] := by decide

/-- Eight channels of 64 GiB, x4, 16 Gb, two ranks, reserve 1. -/
def eightChannels : State :=
  up ([(.dram 0, R.DRAM_MAP.n_log2, 3), (.dram 0, R.DRAM_MAP.n_active_log2, 3), (.dram 0, R.DRAM_MAP.reserve, 1)]
    ++ (List.range 8).flatMap (fun c => [(.dram c, R.DRAM_CFG.density, 0), (.dram c, R.DRAM_CFG.ranks_m1, 1), (.dram c, R.DRAM_CFG.width, 0)]))

/-- R332, R333: the worked address lies in channel 6 at local 0x2_468A_C840: subchannel 1, group 3, bank 1, rank 1, row 0x2468. -/
theorem test_dram_map : (eightChannels.dramSpace, eightChannels.dramChan 0x1234567840, eightChannels.dramLocal 0x1234567840,
    eightChannels.dramBank 6 0x2468AC840) = (448 * 2 ^ 30, 6, 0x2468AC840, (1 + 2 * 3 + 16 * 1 + 64 * 1, 0x2468)) := by decide +kernel

/-- R169: a column peak of pw = −4,774 lies in row 74. -/
theorem test_density_row : (up [(.records 0, R.DENS_CFG.log2b 0, 0), (.records 0, R.DENS_CFG.rows_m1 0, 255), (.records 0, R.DENS_CFG.step 0, 64)]).densRow 0 0
    ⟨0, [-4774], [], 0, 0, 0, 0, 0, false, 0, 0, 0, 0, 0, 0⟩ 0 = 74 := by decide +kernel

/-- The cell of row 74 and column 300 of that plane, as 15_on_chip_memory.md works it out. -/
theorem test_density_cell : cellAddr 0x100000 512 74 300 = 0x112964 := by decide

/-- Slice 0 takes a 12 GS/s stream, N = 1,024 with this overlap code, in this mode; the front end's latency is 150 ns. -/
def twelve (mode overlap : Nat) : State :=
  let s := up [(.placement, R.PL_STREAM.valid 0, 1), (.placement, R.PL_STREAM.entry 0, 5), (.placement, R.PL_STREAM.consumers 0, 1),
    (.placement, declFld 5 1, 12000000000), (.core 0, R.SLICE_MODE.mode, mode), (.filt 0, R.XF_CFG.log2n, 10), (.filt 0, R.XF_CFG.overlap, overlap),
    (.clocks, R.CLK_CORE.freq, 6000), (.timebase, R.TB_BOUND.bound, 6)]
  { s with sec := { s.sec with region := { s.sec.region with trust := [(0, some ⟨150 * 65536, 2⟩)] } } }

/-- R105: XF_LOAD of the worked spectrum is 1,000, of the worked relay too. -/
theorem test_transform_load : ((twelve 0 2).xfLoad 0, (twelve 4 1).xfLoad 0) = (1000, 1000) := by decide +kernel

/-- R216: the worked relay's RELAY_MIN is 513 ticks, and 1 µs needs a release buffer of 42,720 bytes. -/
theorem test_relay_min : (ceilDiv ((twelve 4 1).relayUnits 0) tickUnits,
    (pokes [(.records 0, R.RELAY_CFG.latency, 800)] (twelve 4 1)).releaseBytes 0) = (513, 42720) := by decide +kernel

/-- R142: the worked burst monitor's trigger bound is 179. -/
theorem test_frame_trigger_bound : 6 + (twelve 0 2).boundTerm 0 513 1 = 179 := by decide +kernel

/-- R114: the reference of a window whose values sum to the worked Hann window's 67,108,352. -/
theorem test_window_reference : winRef [67108352] = 24660 := by decide +kernel

/-- R418: the signal, reserved and VSS balls of the array, and those of VDD_CORE, VDD_LINK, VDDA_LINK and VDDQ_MEM, as the zone table sums
them. -/
theorem test_ball_totals :
    [fun x => match x with | .signal _ => true | _ => false, (· == .reserved), (· == .vss), (· == .power .core), (· == .power .link),
        (· == .power .linkA), (· == .power .mem)].map (fun (f : Site → Bool) =>
      ((List.range 65).flatMap (fun r => (List.range 65).filter (fun c => f (site (r + 1) (c + 1))))).length)
      = [2495, 8, 880, 555, 140, 64, 64] := by decide +kernel

/-- R419, R420: the balls of the examples. -/
theorem test_ball_examples : (site 14 35, site 1 36, site 53 21, site 41 52)
    = (.signal (.lane false 3 7 true), .signal (.lane false 3 0 false), .signal (.lane true 12 15 false), .signal (.dram 5 (.dq 23))) := by
  decide +kernel

/-- R432: the boundary register covers 1,331 balls. -/
theorem test_boundary_cells : coveredPins.length = 1331 := by decide +kernel

/-! ### Witnesses of the hypotheses of the statements, clause by clause -/

theorem witness_StepRunsFrontCommand :
    (∃ (c : Instr), ∃ (cs : List Instr), ∃ (s : State), s.pending = c :: cs) :=
  ⟨.run, [.stop], { live with pending := [.run, .stop] }, by decide⟩

theorem witness_EmptyQueueIsOneTick :
    (∃ (s : State), s.pending = [] ∧ s.dev ≠ .off ∧ s.tim.running = true ∧ s.tim.shadow = none) :=
  ⟨live, by decide⟩

theorem witness_StepKeepsCanonical :
    (∃ (s t : State), s.Canonical ∧ step s = .next t) :=
  ⟨live, run (step live), ⟨by decide, by decide, by decide⟩, rfl⟩

theorem witness_LifeCycleOnlyAdvances :
    (∃ (s t : State), s.lcSound ∧ step s = .next t) :=
  ⟨advancing, run (step advancing), (fun o h _ => by cases h; decide), rfl⟩

theorem witness_PowerResetsAndBoot :
    (∃ (s : State), ∃ (k : BitVec 4), s.dev = .off) ∧
    (∃ (s : State), s.dev ≠ .off) ∧
    (∃ (s : State), ∃ (k : BitVec 4), ∃ (test : Bool), s.pins.resetN = false ∧ s.dev = .boot) ∧
    (∃ (s : State), ∃ (k : BitVec 4), ∃ (test : Bool), s.dev = .off) ∧
    (∃ (s : State), s.dev ≠ .off ∧ s.dev ≠ .boot) ∧
    (∃ (s : State), ∃ (a b : List Byte), ∃ (ok : Bool), ∃ (k : Fin 2), s.dev = .boot ∧ s.pins.resetN = true ∧ s.boot.verified = none ∧ s.nextImage (s.images a b).1 (s.images a b).2 = some k ∧ imageCheck (if k = 0 then (s.images a b).1 else (s.images a b).2) ok = 0) ∧
    (∃ (s : State), s.dev = .boot ∧ (s.pllRuns 0 && s.pllRuns 1 && s.pllRuns 3) = false) ∧
    (∃ (s : State), s.dev = .boot ∧ s.boot.verified = none ∧ s.boot.triedA = true ∧ s.boot.triedB = true) ∧
    (∃ (s : State), ∃ (f : List (SramId × Nat)), ∃ (tr : List TrainResult), ∃ (gs : List GatherResult), s.dev = .boot ∧ s.pins.resetN = true ∧ s.pins.testMode = false ∧ s.boot.verified.isSome = true ∧ (s.pllRuns 0 && s.pllRuns 1 && s.pllRuns 3) = true ∧ s.rd .clocks R.BOOT_STATUS.fail = 0) :=
  ⟨⟨{ State.reset with dev := .off }, 15, by decide⟩,
    ⟨live, by decide⟩,
    ⟨{ State.reset with pins := { State.reset.pins with resetN := false } }, 9, true, by decide⟩,
    ⟨{ State.reset with dev := .off }, 9, true, by decide⟩,
    ⟨live, by decide⟩,
    ⟨{ State.reset with pins := { State.reset.pins with resetN := true } }, bootImg, [], true, 0, by decide, by decide, by decide, (by decide +kernel), (by decide +kernel)⟩,
    ⟨State.reset, by decide⟩,
    ⟨{ State.reset with boot := { State.reset.boot with triedA := true, triedB := true } }, by decide⟩,
    ⟨{ live with dev := .boot, pins := { live.pins with resetN := true }, boot := { live.boot with verified := some 0 } }, [], [], [], by decide⟩⟩

theorem witness_DeviceControl :
    (∃ (s : State), s.dev = .ready) ∧
    (∃ (s : State), s.dev = .run ∧ s.flag .global R.DEVICE_CTRL.stop = false) ∧
    (∃ (s : State), s.dev = .run ∧ s.flag .global R.DEVICE_CTRL.stop = true ∧ s.stopped.any s.enabled = false) ∧
    (∃ (s : State), s.dev = .ready ∧ s.standbyRefused = false) ∧
    (∃ (s : State), s.dev = .standby) ∧
    (∃ (s : State), ∃ (e : GpioEdge), s.dev = .standby ∧ nbit (s.rd .clocks R.WAKE_CFG.enable) e.pin.val = true ∧ nbit (s.rd .clocks R.WAKE_CFG.edge) e.pin.val = e.falling) ∧
    (∃ (s : State), ∃ (tr : List (List Int × List Int)), ∃ (gs : List GatherResult), s.dev = .standby ∧ s.boot.waking = true ∧ (s.pllRuns 0 && s.pllRuns 1) = true) :=
  ⟨⟨{ live with dev := .ready }, by decide⟩,
    ⟨live, by decide⟩,
    ⟨up [(.global, R.DEVICE_CTRL.stop, 1)], by decide⟩,
    ⟨{ live with dev := .ready }, by decide⟩,
    ⟨{ live with dev := .standby }, by decide⟩,
    ⟨{ up [(.clocks, R.WAKE_CFG.enable, 0x8000)] with dev := .standby }, ⟨15, false⟩, by decide⟩,
    ⟨{ live with dev := .standby, boot := { live.boot with waking := true } }, [], [], by decide⟩⟩

theorem witness_DeviceCtrlRejects :
    (∃ (s : State), ∃ (w : Nat), ∃ (v : BitVec 64), ∃ (k : Nat), ∃ (ks : List Nat), s.dev ≠ .off ∧ s.dev ≠ .boot ∧ s.barOpen = true ∧ (w = 32 ∨ w = 64) ∧ deviceCommands v = k :: ks ∧ (ks ≠ [] ∨ listedTransition s.dev v k = false)) :=
  ⟨live, 32, 9, 0, [3], by decide⟩

theorem witness_BlockHandshake :
    (∃ (s : State), ∃ (b : Blk), s.reaches b = true ∧ b.alwaysOn = false ∧ s.flag b R.BLOCK_STATUS.wedged = false ∧ s.rd b R.BLOCK_STATUS.enabled = 0 ∧ (s.wr b R.BLOCK_CTRL.enable 1).enableRefuses b = false) ∧
    (∃ (s : State), ∃ (b : Blk), [Blk.depot, .dma, .queue, .placement, .timebase, .tdc, .housekeeping].contains b = true ∧ s.reaches b = true ∧ s.flag b R.BLOCK_STATUS.wedged = false ∧ s.rd b R.BLOCK_STATUS.enabled = 0) ∧
    (∃ (s : State), ∃ (b : Blk), s.reaches b = true ∧ b.alwaysOn = false ∧ s.flag b R.BLOCK_STATUS.wedged = false ∧ s.rd b R.BLOCK_STATUS.enabled = 0 ∧ (s.wr b R.BLOCK_CTRL.enable 1).enableRefuses b = true) ∧
    (∃ (s : State), ∃ (d : Fin 2), s.reaches (.display d) = true ∧ s.flag (.display d) R.BLOCK_STATUS.wedged = false ∧ s.rd (.display d) R.BLOCK_STATUS.enabled = 0 ∧ s.dispRefuses d = true) ∧
    (∃ (s : State), ∃ (b : Blk), s.reaches b = true ∧ b.alwaysOn = false ∧ s.flag b R.BLOCK_STATUS.wedged = true) ∧
    (∃ (s : State), ∃ (b : Blk), s.reaches b = true ∧ b.alwaysOn = false ∧ (b = .check → s.declsLive = false) ∧ s.enabled b = true ∧ s.flag b R.BLOCK_STATUS.quiescing = false) ∧
    (∃ (s : State), ∃ (b : Blk), s.reaches b = true ∧ b.alwaysOn = false ∧ (b = .check → s.declsLive = false) ∧ s.enabled b = true ∧ s.flag b R.BLOCK_STATUS.quiescing = false ∧ (∀ r : Fin 256, s.ringState r = 0 ∨ s.ringState r = 4)) ∧
    (∃ (s : State), ∃ (b : Blk), s.reaches b = true ∧ b.alwaysOn = false ∧ s.canAck b = true ∧ s.pl.jobs = [] ∧ s.rd b R.BLOCK_CTRL.enable = 0) ∧
    (∃ (s : State), ∃ (b : Blk), ∃ (since : Nat), b.real = true ∧ b.alwaysOn = false ∧ s.flag b R.BLOCK_STATUS.quiescing = true ∧ s.flag b R.BLOCK_STATUS.wedged = false ∧ s.domRuns b.dom = true ∧ s.quiescedAt b = some since ∧ since + 100 * usUnits ≤ s.tim.raw) ∧
    (∃ (s : State), s.coreRuns = true) :=
  ⟨⟨live, .depot, by decide⟩,
    ⟨live, .depot, by decide⟩,
    ⟨up [(.timebase, R.TB_CFG.ref_sel, 3)], .timebase, by decide⟩,
    ⟨up [(.display 0, R.DISP_H.active, 1)], 0, by decide⟩,
    ⟨up [(.depot, R.BLOCK_STATUS.enabled, 1), (.depot, R.BLOCK_STATUS.wedged, 1)], .depot, by decide⟩,
    ⟨up [(.depot, R.BLOCK_STATUS.enabled, 1)], .depot, by decide⟩,
    ⟨up [(.depot, R.BLOCK_STATUS.enabled, 1)], .depot, by decide +kernel⟩,
    ⟨up [(.dram 0, R.BLOCK_STATUS.enabled, 1), (.dram 0, R.BLOCK_STATUS.quiescing, 1)], .dram 0, by decide⟩,
    ⟨{ up [(.depot, R.BLOCK_STATUS.enabled, 1), (.depot, R.BLOCK_STATUS.quiescing, 1)] with quiesceAt := [(Blk.depot.base / 0x10000, some ⟨0, none⟩)], tim := { live.tim with raw := 100 * usUnits } }, .depot, 0, by decide⟩,
    ⟨live, by decide⟩⟩

theorem witness_LoopsAndRamps :
    (∃ (s : State), ∃ (p : Fin 10), 4 ≤ p.val ∧ s.pllRuns p = true) ∧
    (∃ (s : State), s.pllRuns 0 = true ∧ (s.dev = .ready ∨ s.dev = .run)) ∧
    (∃ (s : State), ∃ (p : Fin 10), 4 ≤ p.val ∧ s.pllRuns p = false ∧ s.pllRef p = true ∧ s.pllKept p = true ∧ s.mayLock p = true) ∧
    (∃ (s : State), ∃ (p : Fin 10), s.mayLock p = false) ∧
    (∃ (s : State), (s.dev = .ready ∨ s.dev = .run) ∧ s.rampRefusal = 0 ∧ s.rampSegs.all (fun g => s.inBand g.target) = true) ∧
    (∃ (s : State), s.dev ≠ .off ∧ s.dev ≠ .boot ∧ s.rampRefusal ≠ 0) ∧
    (∃ (s : State), ∃ (g h : RampSeg), ∃ (gs : List RampSeg), s.rd .clocks R.CLK_STATUS.ramp_state = 2 ∧ s.clk.ramp = g :: h :: gs ∧ s.clk.segAt + max 1 g.micros * usUnits ≤ s.tim.raw) ∧
    (∃ (s : State), ∃ (g : RampSeg), s.rd .clocks R.CLK_STATUS.ramp_state = 2 ∧ s.clk.ramp = [g] ∧ s.clk.segAt + max 1 g.micros * usUnits ≤ s.tim.raw) ∧
    (∃ (s : State), s.dev ≠ .off ∧ s.dev ≠ .boot ∧ s.rd .clocks R.CLK_STATUS.ramp_state = 2) :=
  ⟨⟨live, 9, by decide⟩,
    ⟨live, by decide⟩,
    ⟨up [(.clocks, R.CLK_STATUS.locked, 0xf)], 9, by decide⟩,
    ⟨{ live with clk := { live.clk with seeking := [(9, some 0)] } }, 9, by decide⟩,
    ⟨up [on .clocks, on .placement, (.clocks, R.CLK_RAMP.target 0, 5980), (.clocks, R.CLK_RAMP.duration 0, 1)], by decide⟩,
    ⟨up [(.clocks, R.CLK_STATUS.ramp_state, 1)], by decide⟩,
    ⟨{ up [(.clocks, R.CLK_STATUS.ramp_state, 2)] with clk := { live.clk with ramp := [seg, seg] }, tim := { live.tim with raw := 1000 * usUnits } }, seg, seg, [], by decide⟩,
    ⟨{ up [(.clocks, R.CLK_STATUS.ramp_state, 2)] with clk := { live.clk with ramp := [seg] }, tim := { live.tim with raw := 1000 * usUnits } }, seg, by decide⟩,
    ⟨up [(.clocks, R.CLK_STATUS.ramp_state, 2)], by decide⟩⟩

theorem witness_MusterCycle :
    (∃ (s : State), s.dev ≠ .off ∧ s.dev ≠ .boot ∧ s.timeRuns = true ∧ s.rd .muster R.MUSTER_STATUS.armed = 1 ∧ s.rd .muster R.MUSTER_STATUS.busy = 0) ∧
    (∃ (s : State), s.dev ≠ .off ∧ s.dev ≠ .boot ∧ s.timeRuns = true ∧ (s.rd .muster R.MUSTER_STATUS.armed = 0 ∨ s.rd .muster R.MUSTER_STATUS.busy = 1)) ∧
    (∃ (s : State), ∃ (falling : Bool), s.timeRuns = true ∧ s.flag .muster R.MUSTER_CTRL.in_enable = true ∧ s.flag .muster R.MUSTER_CTRL.in_edge = falling ∧ s.rd .muster R.MUSTER_STATUS.armed = 1 ∧ s.rd .muster R.MUSTER_STATUS.busy = 0) ∧
    (∃ (s : State), s.dev ≠ .off ∧ s.dev ≠ .boot) ∧
    (∃ (s : State), s.timeRuns = true ∧ s.flag .muster R.MUSTER_CTRL.sched_arm = true ∧ s.rd .muster R.MUSTER_STATUS.armed = 1 ∧ s.rd .muster R.MUSTER_STATUS.busy = 0 ∧ ofT96 (s.rdT96 .muster R.MUSTER_SCHED_T96.lo) ≤ s.tim.now) ∧
    (∃ (s : State), s.timeRuns = true ∧ s.muster.req ≠ 0 ∧ s.dev ≠ .standby ∧ s.flag .muster R.MUSTER_CTRL.out_enable = true) ∧
    (∃ (s : State), s.flag .muster R.MUSTER_STATUS.busy = true) ∧
    (∃ (s : State), s.dev ≠ .off ∧ s.dev ≠ .boot ∧ s.flag .muster R.MUSTER_STATUS.busy = false) ∧
    (∃ (s : State), s.dev ≠ .off ∧ s.dev ≠ .boot ∧ s.flag .muster R.MUSTER_STATUS.busy = true) :=
  ⟨⟨live, by decide⟩,
    ⟨up [(.muster, R.MUSTER_STATUS.armed, 0)], by decide⟩,
    ⟨up [(.muster, R.MUSTER_CTRL.in_enable, 1), (.muster, R.MUSTER_CTRL.in_edge, 1)], true, by decide⟩,
    ⟨live, by decide⟩,
    ⟨up [(.muster, R.MUSTER_CTRL.sched_arm, 1)], by decide⟩,
    ⟨{ up [(.muster, R.MUSTER_CTRL.out_enable, 1)] with muster := { live.muster with req := 4 } }, by decide⟩,
    ⟨up [(.muster, R.MUSTER_STATUS.busy, 1)], by decide⟩,
    ⟨live, by decide⟩,
    ⟨up [(.muster, R.MUSTER_STATUS.busy, 1)], by decide⟩⟩

theorem witness_SnapshotsAtMuster :
    (∃ (s : State), s.timeRuns = true ∧ s.muster.req ≠ 0 ∧ s.dev ≠ .off ∧ s.dev ≠ .standby) :=
  ⟨(let s := timed 7 [(.clocks, R.CLK_LOSSES.losses 9, 5), (.auth, R.AUTH_TAMPER.events, 6), (.housekeeping, ⟨0x288, 0, 32⟩, 77), (.housekeeping, ⟨0x1F8, 0, 64⟩, 78), (.observe, ⟨0x5F8, 0, 64⟩, 79), (.observe, ⟨0x48, 0, 64⟩, 80)]; { s with muster := { s.muster with req := 4 } }), by decide⟩

theorem witness_RegisterAccesses :
    (∃ (s : State), ∃ (p : Port), ∃ (o w : Nat), ∃ (x : RegAt), ∃ (v : BitVec 64), s.dev ≠ .off ∧ s.dev ≠ .boot ∧ (p = .mgmt ∨ (p = .host ∧ s.barOpen = true)) ∧ o < 0x10000 ∧ o / 8 ≠ 1 ∧ Blk.check.regAt (o / 8 * 8) = some x ∧ (w = 32 ∨ w = 64) ∧ o % (w / 8) = 0) ∧
    (∃ (s : State), ∃ (v : BitVec 64), s.dev ≠ .off ∧ s.dev ≠ .boot ∧ s.barOpen = true) ∧
    (∃ (s : State), ∃ (c : Fin 17), ∃ (v : BitVec 64), s.coreRuns = true ∧ s.dev ≠ .boot) ∧
    (∃ (s : State), ∃ (g : Fin 16), ∃ (v : BitVec 64), (s.dev = .ready ∨ s.dev = .run) ∧ s.barOpen = true ∧ s.enabled (.rxg g) = true) ∧
    (∃ (s : State), ∃ (v : BitVec 64), s.dev ≠ .off ∧ s.dev ≠ .boot) ∧
    (∃ (s : State), ∃ (a w : Nat), ∃ (v : BitVec 64), s.dev ≠ .off ∧ s.barOpen = true ∧ ((w ≠ 32 ∧ w ≠ 64) ∨ a % (w / 8) ≠ 0 ∨ slotBlk (a / 0x10000) = none)) ∧
    (∃ (s : State), ∃ (a w : Nat), ∃ (b : Blk), ∃ (o : Nat), ∃ (x : RegAt), s.dev ≠ .off ∧ s.dev ≠ .boot ∧ s.barOpen = true ∧ b ≠ .global ∧ accessAt a w = some (b, o, x) ∧ s.latch .host = none) ∧
    (∃ (s : State), ∃ (a w : Nat), ∃ (b : Blk), ∃ (o : Nat), ∃ (x : RegAt), s.dev ≠ .off ∧ s.dev ≠ .boot ∧ s.barOpen = true ∧ accessAt a w = some (b, o, x)) ∧
    (∃ (s : State), ∃ (p : Port), ∃ (a w : Nat), ∃ (b : Blk), ∃ (o : Nat), ∃ (x : RegAt), s.dev ≠ .off ∧ s.dev ≠ .boot ∧ p ≠ .host ∧ s.portLive p = true ∧ accessAt a w = some (b, o, x)) ∧
    (∃ (s : State), s.dev ≠ .off ∧ s.dev ≠ .boot ∧ s.barOpen = true) ∧
    (∃ (s : State), ∃ (lo hi : Word), s.dev ≠ .off ∧ s.dev ≠ .boot ∧ s.barOpen = true ∧ s.latch .host = some ⟨0x10060, [(0, lo), (1, hi)]⟩) ∧
    (∃ (s : State), ∃ (f : FerryId), s.reaches f.reg.1 = true) :=
  ⟨⟨live, .host, 0x200, 64, (Blk.check.regAt 0x200).getD ⟨0, 0, roAcc⟩, -1, by decide⟩,
    ⟨live, -1, by decide⟩,
    ⟨live, 16, -1, by decide⟩,
    ⟨up [(.rxg 15, R.BLOCK_STATUS.enabled, 1)], 15, -1, by decide⟩,
    ⟨live, 1, by decide⟩,
    ⟨live, 0x40, 16, 0, by decide⟩,
    ⟨live, 0x10010, 64, .muster, 0x10, (Blk.regAt .muster 0x10).getD ⟨0, 0, roAcc⟩, by decide⟩,
    ⟨live, 0x128, 64, .global, 0x128, (Blk.regAt .global 0x128).getD ⟨0, 0, roAcc⟩, by decide⟩,
    ⟨live, .mgmt, 0x128, 64, .global, 0x128, (Blk.regAt .global 0x128).getD ⟨0, 0, roAcc⟩, by decide⟩,
    ⟨live, by decide⟩,
    ⟨{ live with host := { live.host with latches := [(0, some ⟨0x10060, [(0, 1), (1, 2)]⟩)] } }, 1, 2, by decide⟩,
    ⟨up [(FerryId.reg (.rxg 15)).1 |> fun b => (b, R.BLOCK_STATUS.enabled, 1)], .rxg 15, by decide⟩⟩

theorem witness_ReceivedLanesAndRows :
    (∃ (s : State), ∃ (g : Fin 16), ∃ (c : Nat), s.linkUp = true ∧ s.loops g = false ∧ s.flag (.rxg g) R.RXG_STATUS.ck_present = false ∧ c = ckNominal (s.rd (.rxg g) R.RXG_CFG.rate)) ∧
    (∃ (s : State), ∃ (g : Fin 16), ∃ (c : Nat), s.linkUp = true ∧ s.loops g = false ∧ s.flag (.rxg g) R.RXG_STATUS.ck_present = true ∧ ((c : Int) * 1000000 < 999400 * (ckNominal (s.rd (.rxg g) R.RXG_CFG.rate) : Int) ∨ 1001800 * (ckNominal (s.rd (.rxg g) R.RXG_CFG.rate) : Int) < (c : Int) * 1000000)) ∧
    (∃ (s : State), ∃ (g : Fin 16), s.linkUp = true ∧ s.loops g = false ∧ s.flag (.rxg g) R.RXG_STATUS.ck_present = true) ∧
    (∃ (s : State), ∃ (g : Fin 16), ∃ (n : LaneLine), s.linkUp = true ∧ s.laneOn g n.lane = true ∧ s.flag (.rxg g) R.RXG_STATUS.ck_present = true ∧ s.laneState g n.lane = 1) ∧
    (∃ (s : State), ∃ (g n : Fin 16), s.linkUp = true ∧ 2 ≤ s.laneState g n ∧ s.laneLock g n = true) ∧
    (∃ (s : State), ∃ (g n : Fin 16), s.linkUp = true ∧ 3 ≤ s.laneState g n ∧ s.laneState g n ≤ 4) ∧
    (∃ (s : State), ∃ (g : Fin 16), ∃ (a : AlignRx), ∃ (rows : List (Option AlignRx)), ∃ (b : Nat), s.linkUp = true ∧ s.loops g = false ∧ s.flag (.rxg g) R.RXG_STATUS.ck_present = true ∧ s.laneOn g 1 = true ∧ 2 ≤ s.laneState g 1 ∧ s.laneLock g 1 = true ∧ (takeLane g 1 a.bits s).2.align = some b ∧ alLane b = 1 ∧ a.late ≤ skewBlocks (s.rd (.rxg g) R.RXG_CFG.rate)) ∧
    (∃ (s : State), ∃ (g : Fin 16), ∃ (bs : List (BitVec 66)), s.linkUp = true ∧ s.loops g = false ∧ s.flag (.rxg g) R.RXG_STATUS.ck_present = true ∧ (s.rx[g]).matched = true ∧ s.rd (.rxg g) R.RXG_STATUS.rate_mismatch = 0 ∧ s.rd (.rxg g) R.RXG_STATUS.split_mismatch = 0 ∧ s.rd (.rxg g) R.RXG_CFG.split = 0 ∧ s.ssState g 0 = 2 ∧ s.ssState g 1 = 0 ∧ s.ssState g 2 = 0 ∧ s.ssState g 3 = 0 ∧ s.ssState g 4 = 0 ∧ s.delivering g = true ∧ ((s.rx[g]).subs[0]).stale = false ∧ s.rd (.rxg g) (R.RXG_SS.bonded 0) = 0 ∧ s.rd (.rxg g) R.RXG_STATUS.active_mask = 0x7FFF ∧ lanes15.all (fun n => s.laneOn g n && decide (s.laneState g n = 3) && !s.flag (.rxg g) (R.RXG_EQ.invert n)) = true ∧ bs.length = 15 ∧ bs.all (fun b => decide (b.toNat % 4 = 2)) = true ∧ (s.rx[g]).ferry.length < 512) ∧
    (∃ (s : State), ∃ (g : Fin 16), ∃ (bs bs' : List (BitVec 66)), s.loops g = true) ∧
    (∃ (s : State), ∃ (g : Fin 16), ∃ (rows : List (Option AlignRx)), s.loops g = true) ∧
    (∃ (s : State), ∃ (g : Fin 16), ∃ (k : Fin 5), ∃ (b : BitVec 48), s.linkUp = true ∧ s.ssState g k ≠ 0 ∧ b.toNat / 2 ^ 40 % 8 = s.rd (.rxg g) (R.RXG_SS.format k) ∧ nbit b.toNat 43 = true ∧ nbit b.toNat 46 = false ∧ ((s.rx[g]).matched = false ∨ s.subShort g k = false)) ∧
    (∃ (s : State), ∃ (g : Fin 16), ∃ (k : Fin 5), ∃ (b : BitVec 48), s.linkUp = true ∧ s.ssState g k = 2 ∧ b.toNat / 2 ^ 40 % 8 = s.rd (.rxg g) (R.RXG_SS.format k) ∧ nbit b.toNat 43 = false ∧ b.toNat % 2 ^ 40 = ((s.rx[g]).subs[k]).blocks % 2 ^ 40) ∧
    (∃ (s : State), ∃ (g : Fin 16), ∃ (k : Fin 5), s.linkUp = true ∧ s.ssState g k = 2) ∧
    (∃ (s : State), ∃ (g : Fin 16), ∃ (k : Fin 5), ∃ (b : BitVec 48), s.linkUp = true ∧ s.ssState g k = 1) ∧
    (∃ (s : State), ∃ (g : Fin 16), ∃ (k : Fin 5), ∃ (b : BitVec 48), s.linkUp = true ∧ s.ssState g k = 2 ∧ b.toNat / 2 ^ 31 % 2 ^ 17 ≠ 0) :=
  ⟨⟨live, 15, _, by decide, by decide, by decide, rfl⟩,
    ⟨up [(.rxg 15, R.RXG_STATUS.ck_present, 1)], 15, 0, by decide⟩,
    ⟨up [(.rxg 15, R.RXG_STATUS.ck_present, 1)], 15, by decide⟩,
    ⟨(up [(.rxg 0, R.RXG_STATUS.ck_present, 1)]).setRx 0 { RxSt.zero with lane := [(15, 1)] }, 0, ⟨15, 0⟩, by decide⟩,
    ⟨(up [(.rxg 0, R.RXG_STATUS.ck_present, 1)]).setRx 0 { RxSt.zero with lane := [(15, 2)], lock := [(15, true)] }, 0, 15, by decide⟩,
    ⟨(up [(.rxg 0, R.RXG_STATUS.ck_present, 1)]).setRx 0 { RxSt.zero with lane := [(15, 3)] }, 0, 15, by decide⟩,
    ⟨(up [(.rxg 0, R.RXG_STATUS.ck_present, 1)]).setRx 0 { RxSt.zero with lane := [(1, 2)], lock := [(1, true)] }, 0, ⟨BitVec.ofNat 66 (1 + 4 * (scramble 0 (ctrlBlock 0x4B 0x7FFF000501).payload.toNat).1), 0⟩, List.replicate 14 none, 0x7FFF000501, by decide +kernel⟩,
    ⟨receiving, 0, List.replicate 15 2, by decide⟩,
    ⟨up [(.rxg 0, R.RXG_CFG.loopback, 1)], 0, [2], [], by decide⟩,
    ⟨up [(.rxg 0, R.RXG_CFG.loopback, 1)], 0, [], by decide⟩,
    ⟨up [(.rxg 0, R.RXG_STATUS.ss_state, 1)], 0, 0, 0x80000000000, by decide⟩,
    ⟨up [(.rxg 0, R.RXG_STATUS.ss_state, 2)], 0, 0, 0, by decide⟩,
    ⟨up [(.rxg 0, R.RXG_STATUS.ss_state, 2)], 0, 0, by decide⟩,
    ⟨up [(.rxg 0, R.RXG_STATUS.ss_state, 1)], 0, 0, 5, by decide⟩,
    ⟨up [(.rxg 0, R.RXG_STATUS.ss_state, 2)], 0, 0, 0x800000007, by decide⟩⟩

theorem witness_LinkCommands :
    (∃ (s : State), ∃ (g : Fin 16), ∃ (l : BitVec 4), ∃ (e : BitVec 16), ∃ (a v : BitVec 8), s.linkUp = true) ∧
    (∃ (s : State), ∃ (g : Fin 16), ∃ (l : BitVec 4), ∃ (e : BitVec 16), ∃ (a v : BitVec 8), s.linkUp = true ∧ s.txOn g = true ∧ s.retireForbidden g l.toNat = false) ∧
    (∃ (s : State), ∃ (g : Fin 16), ∃ (l : BitVec 4), ∃ (e : BitVec 16), ∃ (a v : BitVec 8), s.linkUp = true ∧ s.txOn g = true ∧ s.retireForbidden g l.toNat = true) ∧
    (∃ (s : State), ∃ (g : Fin 16), ∃ (l : BitVec 4), ∃ (e : BitVec 16), ∃ (a v : BitVec 8), s.linkUp = true ∧ s.txOn g = true ∧ s.txDrives g l.toNat = true) ∧
    (∃ (s : State), ∃ (g : Fin 16), ∃ (l : BitVec 4), ∃ (e : BitVec 16), ∃ (a v : BitVec 8), s.linkUp = true ∧ s.txOn g = true ∧ a.toNat ≤ 7) ∧
    (∃ (s : State), ∃ (g : Fin 16), ∃ (l : BitVec 4), ∃ (e : BitVec 16), ∃ (a v : BitVec 8), s.linkUp = true ∧ s.txOn g = true ∧ l.toNat ≠ 0 ∧ nbit (s.rd (.txg g) R.TXG_STATUS.active_mask) (l.toNat - 1) = false) ∧
    (∃ (s : State), ∃ (g : Fin 16), ∃ (l : BitVec 4), ∃ (e : BitVec 16), ∃ (a v : BitVec 8), s.linkUp = true ∧ s.awaits g a.toNat v.toNat = true) ∧
    (∃ (s : State), ∃ (g : Fin 16), ∃ (l : BitVec 4), ∃ (e : BitVec 16), ∃ (a v : BitVec 8), ∃ (c : Nat), s.linkUp = true ∧ (s.tx[g]).waiting = some (c, v.toNat)) ∧
    (∃ (s : State), ∃ (g : Fin 16), ∃ (c l : BitVec 4), ∃ (e : BitVec 16), ∃ (a v : BitVec 8), s.linkUp = true ∧ s.txOn g = true ∧ (c = 0 ∨ 9 < c.toNat)) ∧
    (∃ (s : State), ∃ (g : Fin 16), ∃ (l : BitVec 4), ∃ (a v : BitVec 8), s.dev ≠ .off ∧ s.dev ≠ .boot ∧ s.flag (.txg g) R.TXG_LINKCMD.send = false) ∧
    (∃ (s : State), ∃ (g : Fin 16), s.flag (.txg g) R.TXG_LINKCMD.send = true) ∧
    (∃ (s : State), ∃ (g n : Fin 16), s.dev ≠ .off ∧ s.dev ≠ .boot ∧ n ≠ 0 ∧ s.txOn g = true ∧ s.retireForbidden g n = false) ∧
    (∃ (s : State), ∃ (g n : Fin 16), s.dev ≠ .off ∧ s.dev ≠ .boot ∧ n ≠ 0 ∧ s.txOn g = true ∧ s.retireForbidden g n = true) ∧
    (∃ (s : State), ∃ (g n : Fin 16), s.dev ≠ .off ∧ s.dev ≠ .boot ∧ n ≠ 0 ∧ s.txOn g = true ∧ s.txDrives g n = true) :=
  ⟨⟨live, 0, 15, 9, 0, 255, by decide⟩,
    ⟨up [on (.txg 0), (.txg 0, R.TXG_STATUS.active_mask, 0x7FFF)], 0, 15, 0, 0, 0, by decide⟩,
    ⟨up [on (.txg 0), (.txg 0, R.TXG_STATUS.active_mask, 1)], 0, 1, 0, 0, 0, by decide⟩,
    ⟨up [on (.txg 0)], 0, 15, 0, 0, 0, by decide⟩,
    ⟨up [on (.txg 0)], 0, 15, 0, 7, 0, by decide⟩,
    ⟨up [on (.txg 0)], 0, 15, 0, 0, 0, by decide⟩,
    ⟨live.setTx 0 { TxSt.zero with waiting := some (6, 255) }, 0, 0, 0, 6, 255, by decide⟩,
    ⟨live.setTx 0 { TxSt.zero with waiting := some (6, 255) }, 0, 0, 0, 0, 255, 6, by decide⟩,
    ⟨up [on (.txg 0)], 0, 10, 0, 0, 0, 0, by decide⟩,
    ⟨live, 0, 15, 0, 0, by decide⟩,
    ⟨up [(.txg 0, R.TXG_LINKCMD.send, 1)], 0, by decide⟩,
    ⟨up [on (.txg 0), (.txg 0, R.TXG_STATUS.active_mask, 0x7FFF)], 0, 15, by decide⟩,
    ⟨up [on (.txg 0), (.txg 0, R.TXG_STATUS.active_mask, 1)], 0, 1, by decide⟩,
    ⟨up [on (.txg 0)], 0, 15, by decide⟩⟩

theorem witness_SentRowsAndTests :
    (∃ (s : State), ∃ (g : Fin 16), s.txOn g = true) ∧
    (∃ (h d : Nat), h < 2 ^ 58 ∧ d < 2 ^ 64) ∧
    (∃ (s : State), ∃ (g : Fin 16), ∃ (k : Fin 5), s.txOn g = true ∧ s.flag (.txg g) R.TXG_CFG.return_mode = false ∧ s.flag (.txg g) (R.TXG_SS.enable k) = true ∧ s.txLanes g k ≠ [] ∧ fmtValid (s.rd (.txg g) (R.TXG_SS.format k)) = true ∧ s.txRuns g k = true ∧ ((s.tx[g]).subs[k]).sinceMsg < 1024 ∧ 64 * (s.txLanes g k).length ≤ (packGo (s.rd (.txg g) (R.TXG_SS.format k)) (64 * (s.txLanes g k).length) ((s.tx[g]).subs[k]).queue ((s.tx[g]).subs[k]).buf ((s.tx[g]).subs[k]).len 0).2.2.1) ∧
    (∃ (s : State), ∃ (g : Fin 16), ∃ (k : Fin 5), s.txOn g = true ∧ s.txLanes g k ≠ [] ∧ s.txRuns g k = true ∧ ((s.tx[g]).subs[k]).queue = [] ∧ ((s.tx[g]).subs[k]).sinceMsg < 1024) ∧
    (∃ (s : State), ∃ (g n : Fin 16), ∃ (p : Nat), ∃ (c : BitVec 5), ∃ (d : BitVec 40), n ≠ 0 ∧ s.linkUp = true ∧ s.laneOn g n = true) ∧
    (∃ (s : State), ∃ (g n : Fin 16), s.linkUp = true ∧ s.laneOn g n = true ∧ s.flag (.rxg g) (R.RXG_PRBS.check n) = true) ∧
    (∃ (s : State), ∃ (g n : Fin 16), ∃ (b e : Nat), s.linkUp = true ∧ s.laneOn g n = true ∧ s.flag (.rxg g) (R.RXG_PRBS.sync n) = true) ∧
    (∃ (s : State), ∃ (g n : Fin 16), s.dev ≠ .off ∧ s.dev ≠ .boot ∧ n ≠ 0 ∧ s.txOn g = true ∧ s.rd (.txg g) (R.TXG_PRBS.inject_mode n) = 1) :=
  ⟨⟨up [on (.txg 0)], 0, by decide⟩,
    ⟨2 ^ 57 + 5, 2 ^ 63 + 9, by decide⟩,
    ⟨sending, 0, 0, by decide⟩,
    ⟨sending.setTx 0 { TxSt.zero with subs := TxSt.zero.subs.set 0 { TxSub.zero with sinceMsg := 1023 } }, 0, 0, by decide⟩,
    ⟨live, 0, 15, 200, 0, 0, by decide⟩,
    ⟨up [(.rxg 0, R.RXG_PRBS.check 15, 1)], 0, 15, by decide⟩,
    ⟨up [(.rxg 0, R.RXG_PRBS.sync 15, 1)], 0, 15, 3, 2, by decide⟩,
    ⟨up [on (.txg 0), (.txg 0, R.TXG_PRBS.inject_mode 15, 1)], 0, 15, by decide⟩⟩

theorem witness_ScalarAndPredicateResults :
    (∃ p, p ∈ Sys2Proof.Expected.scalarPairs ∧ ∃ (s : State), ∃ (c : Fin 17), ∃ (y : Syl), s.Quiet c ∧ y.last = true) ∧
    (∃ p, p ∈ Sys2Proof.Expected.scalarImms ∧ ∃ (s : State), ∃ (c : Fin 17), ∃ (y : Syl), s.Quiet c ∧ y.last = true) ∧
    (∃ (s : State), ∃ (c : Fin 17), ∃ (y : Syl), s.Quiet c ∧ y.last = true) ∧
    (∃ (s : State), ∃ (c : Fin 17), ∃ (y : Syl), s.Quiet c ∧ y.last = true ∧ y.dn ≤ 7 ∧ y.mn % 8 ≤ 5) ∧
    (∃ p, p ∈ Sys2Proof.Expected.predicates ∧ ∃ (s : State), ∃ (c : Fin 17), ∃ (y : Syl), s.Quiet c ∧ y.last = true ∧ y.dn ≤ 7 ∧ y.an ≤ 7 ∧ y.bn ≤ 7) ∧
    (∃ (s : State), ∃ (c : Fin 17), ∃ (y : Syl), s.Quiet c ∧ y.last = true ∧ y.dn ≤ 7) ∧
    (∃ p, p ∈ Sys2Proof.Expected.predScalars ∧ ∃ (s : State), ∃ (c : Fin 17), ∃ (y : Syl), s.Quiet c ∧ y.last = true ∧ y.an ≤ 7) :=
  ⟨⟨_, List.getElem_mem (l := Sys2Proof.Expected.scalarPairs) (n := 0) (by decide), core, 0, syl, by unfold State.Quiet; decide, by decide⟩,
    ⟨_, List.getElem_mem (l := Sys2Proof.Expected.scalarImms) (n := 0) (by decide), core, 0, syl, by unfold State.Quiet; decide, by decide⟩,
    ⟨core, 0, syl, by unfold State.Quiet; decide, by decide⟩,
    ⟨core, 0, syl, by unfold State.Quiet; decide, by decide⟩,
    ⟨_, List.getElem_mem (l := Sys2Proof.Expected.predicates) (n := 0) (by decide), core, 0, syl, by unfold State.Quiet; decide, by decide⟩,
    ⟨core, 0, syl, by unfold State.Quiet; decide, by decide⟩,
    ⟨_, List.getElem_mem (l := Sys2Proof.Expected.predScalars) (n := 0) (by decide), core, 0, syl, by unfold State.Quiet; decide, by decide⟩⟩

theorem witness_FlowAndLoops :
    (∃ p, p ∈ Sys2Proof.Expected.branches ∧ ∃ (s : State), ∃ (c : Fin 17), ∃ (y : Syl), s.Quiet c ∧ y.last = true) ∧
    (∃ p, p ∈ Sys2Proof.Expected.predBranches ∧ ∃ (s : State), ∃ (c : Fin 17), ∃ (y : Syl), s.Quiet c ∧ y.last = true ∧ y.an ≤ 7) ∧
    (∃ (s : State), ∃ (c : Fin 17), ∃ (y : Syl), s.Quiet c ∧ y.last = true) ∧
    (∃ p, p ∈ ([.nop, .fence] : List (Fin 17 → Syl → Instr)) ∧ ∃ (s : State), ∃ (c : Fin 17), ∃ (y : Syl), s.Quiet c ∧ y.last = true) ∧
    (∃ (s : State), ∃ (c : Fin 17), ∃ (y : Syl), s.Quiet c ∧ y.last = true ∧ y.dn % 4 ≠ 3 ∧ s.pc c + 1 ≤ y.target ∧ (s.cores[c]).sreg y.an ≠ 0) ∧
    (∃ (s : State), ∃ (c : Fin 17), ∃ (y : Syl), s.Quiet c ∧ y.last = true ∧ y.dn % 4 ≠ 3 ∧ s.pc c + 1 ≤ y.target ∧ y.target < 16383 ∧ (s.cores[c]).sreg y.an = 0) ∧
    (∃ (s : State), ∃ (c : Fin 17), ∃ (y : Syl), s.Quiet c ∧ y.last = true ∧ y.dn % 4 = 0 ∧ s.pc c + 1 ≤ y.target ∧ (s.cores[c]).sreg y.an ≠ 0) ∧
    (∃ (s : State), ∃ (c : Fin 17), ∃ (y : Syl), ∃ (k : Fin 3), s.issues c = true ∧ (s.cores[c]).pipe = [] ∧ (s.cores[c]).squash = false ∧ (s.cores[c]).ctl = none ∧ (s.cores[c]).newWait = none ∧ (s.cores[c]).exc = none ∧ y.last = true ∧ s.staged c = false ∧ s.loopOn c k = true ∧ s.rd (.core c) (R.LOOP_BOUNDS.end_ k) = s.pc c ∧ (∀ j : Fin 3, j.val < k.val → s.loopOn c j = false) ∧ 1 < s.rd (.core c) (R.LC.count k)) ∧
    (∃ (s : State), ∃ (c : Fin 17), ∃ (y : Syl), s.issues c = true ∧ (s.cores[c]).pipe = [] ∧ (s.cores[c]).squash = false ∧ (s.cores[c]).ctl = none ∧ (s.cores[c]).newWait = none ∧ (s.cores[c]).exc = none ∧ y.last = true ∧ s.staged c = false ∧ s.loopOn c 0 = true ∧ s.loopOn c 1 = false ∧ s.loopOn c 2 = false ∧ s.rd (.core c) (R.LOOP_BOUNDS.end_ 0) = s.pc c ∧ s.pc c < 16383 ∧ s.rd (.core c) (R.LC.count 0) ≤ 1) :=
  ⟨⟨_, List.getElem_mem (l := Sys2Proof.Expected.branches) (n := 0) (by decide), core, 0, syl, by unfold State.Quiet; decide, by decide⟩,
    ⟨_, List.getElem_mem (l := Sys2Proof.Expected.predBranches) (n := 0) (by decide), core, 0, syl, by unfold State.Quiet; decide, by decide⟩,
    ⟨core, 0, syl, by unfold State.Quiet; decide, by decide⟩,
    ⟨_, List.getElem_mem (l := ([.nop, .fence] : List (Fin 17 → Syl → Instr))) (n := 0) (by decide), core, 0, syl, by unfold State.Quiet; decide, by decide⟩,
    ⟨core, 0, ⟨1, 2, 7, 2047, true, false⟩, by unfold State.Quiet; decide, by decide⟩,
    ⟨core, 0, ⟨1, 1, 0, 5, true, false⟩, by unfold State.Quiet; decide, by decide⟩,
    ⟨core, 0, ⟨0, 2, 7, 2047, true, false⟩, by unfold State.Quiet; decide, by decide⟩,
    ⟨(up [on (.core 0), (.core 0, R.CORE_STATUS.state, 1), (.core 0, R.LOOP_BOUNDS.active 1, 1), (.core 0, R.LC.count 1, 2), (.core 0, R.LOOP_BOUNDS.start 1, 7), (.core 0, R.LOOP_BOUNDS.end_ 1, 9), (.core 0, R.CORE_STATUS.pc, 9)]).setCore 0 regs, 0, syl, 1, by decide⟩,
    ⟨(up [on (.core 0), (.core 0, R.CORE_STATUS.state, 1), (.core 0, R.LOOP_BOUNDS.active 0, 1), (.core 0, R.LC.count 0, 1), (.core 0, R.LOOP_BOUNDS.end_ 0, 9), (.core 0, R.CORE_STATUS.pc, 9)]).setCore 0 regs, 0, syl, by decide⟩⟩

theorem witness_ControlRegisters :
    (∃ (s : State), ∃ (c : Fin 17), ∃ (y : Syl), s.Quiet c ∧ y.last = true ∧ y.mn % 16 = 0) ∧
    (∃ (s : State), ∃ (c : Fin 17), ∃ (y : Syl), s.Quiet c ∧ y.last = true ∧ y.mn % 16 = 1) ∧
    (∃ (s : State), ∃ (c : Fin 17), ∃ (y : Syl), ∃ (k : Fin 3), s.Quiet c ∧ y.last = true ∧ y.mn % 16 = 2 + k.val) :=
  ⟨⟨core, 0, syl, by unfold State.Quiet; decide, by decide⟩,
    ⟨core, 0, ⟨1, 2, 3, 1, true, false⟩, by unfold State.Quiet; decide, by decide⟩,
    ⟨core, 0, ⟨1, 2, 3, 4, true, false⟩, 2, by unfold State.Quiet; decide, by decide⟩⟩

theorem witness_BundlesAndLatency :
    (∃ p, p ∈ Sys2Proof.Expected.scalarPairs ∧ ∃ (s : State), ∃ (c : Fin 17), ∃ (y : Syl), s.issues c = true ∧ (s.cores[c]).squash = false ∧ (s.cores[c]).pipe.all (fun q => !q.fresh && !q.inter) = true ∧ y.last = false ∧ s.guard0 c y = true) ∧
    (∃ (s : State), ∃ (c : Fin 17), ∃ (y : Syl), ∃ (n : Nat), ∃ (a b : Int), ∃ (k : CoreSt), k.pipe = [] ∧ s.cores[c] = { k with pipe := [⟨.s n, a, 1, 1, false, false, true, false⟩, ⟨.a 2 5, b, 2, 2, false, false, true, false⟩] } ∧ (s.setCore c k).Quiet c ∧ y.last = true) ∧
    (∃ (s : State), ∃ (c : Fin 17), ∃ (y : Syl), ∃ (a : Int), ∃ (l : Nat), ∃ (k : CoreSt), k.pipe = [] ∧ s.cores[c] = { k with pipe := [⟨.s y.an, a, l, 3, true, false, true, false⟩] } ∧ (s.setCore c k).Quiet c ∧ y.last = true ∧ y.an ≠ 0) ∧
    (∃ p, p ∈ Sys2Proof.Expected.scalarPairs ∧ ∃ (s : State), ∃ (c : Fin 17), ∃ (y : Syl), s.issues c = true ∧ (s.cores[c]).squash = true ∧ y.last = true) :=
  ⟨⟨_, List.getElem_mem (l := Sys2Proof.Expected.scalarPairs) (n := 0) (by decide), core, 0, ⟨1, 2, 3, 0, false, false⟩, by decide⟩,
    ⟨coreOf { regs with pipe := [⟨.s 9, 5, 1, 1, false, false, true, false⟩, ⟨.a 2 5, 6, 2, 2, false, false, true, false⟩] }, 0, syl, 9, 5, 6, regs, by decide, rfl, by unfold State.Quiet; decide, by decide⟩,
    ⟨coreOf { regs with pipe := [⟨.s 2, 5, 4, 3, true, false, true, false⟩] }, 0, syl, 5, 4, regs, by decide, rfl, by unfold State.Quiet; decide, by decide⟩,
    ⟨_, List.getElem_mem (l := Sys2Proof.Expected.scalarPairs) (n := 0) (by decide), coreOf { regs with squash := true }, 0, syl, by decide⟩⟩

theorem witness_InterruptsAndExceptions :
    (∃ (s : State), ∃ (c : Fin 17), ∃ (n : Nat), s.coreRuns = true ∧ (s.coreState c = 1 ∨ s.coreState c = 2) ∧ (s.cores[c]).between = true ∧ (s.cores[c]).pipe = [] ∧ s.flag (.core c) R.CORE_CSW.ie = true ∧ s.flag (.core c) R.CORE_CSW.in_exc = false ∧ s.intSource c = some n ∧ n < 16) ∧
    (∃ (s : State), ∃ (c : Fin 17), ∃ (code : Fin 5), ∃ (addr : BitVec 32), s.Quiet c ∧ s.flag (.core c) R.CORE_CSW.in_exc = false ∧ (code = 0 ∨ code = 1 ∨ code = 2)) ∧
    (∃ (s : State), ∃ (c : Fin 17), ∃ (code : Fin 5), ∃ (addr : BitVec 32), s.Quiet c ∧ s.flag (.core c) R.CORE_CSW.in_exc = true) ∧
    (∃ (s : State), ∃ (c : Fin 17), ∃ (y : Syl), s.Quiet c ∧ y.last = true ∧ s.flag (.core c) R.CORE_CSW.in_int = true ∧ (s.cores[c]).isave.wait = none) ∧
    (∃ (s : State), ∃ (c : Fin 17), ∃ (y : Syl), s.Quiet c ∧ y.last = true ∧ s.flag (.core c) R.CORE_CSW.in_exc = true ∧ (s.cores[c]).esave.wait = none) ∧
    (∃ p, p ∈ ([.rti, .rte] : List (Fin 17 → Syl → Instr)) ∧ ∃ (s : State), ∃ (c : Fin 17), ∃ (y : Syl), s.Quiet c ∧ s.flag (.core c) R.CORE_CSW.in_int = false ∧ s.flag (.core c) R.CORE_CSW.in_exc = false) :=
  ⟨⟨(up [on (.core 0), (.core 0, R.CORE_STATUS.state, 1), (.core 0, R.CORE_CSW.ie, 1), (.core 0, R.INT_EN.enable, 0x8000), (.core 0, R.INT_PEND.pending, 0x8001)]).setCore 0 regs, 0, 15, by decide⟩,
    ⟨core, 0, 2, 5, by unfold State.Quiet; decide, by decide⟩,
    ⟨(up [on (.core 0), (.core 0, R.CORE_STATUS.state, 1), (.core 0, R.CORE_CSW.in_exc, 1)]).setCore 0 regs, 0, 0, 0, by unfold State.Quiet; decide, by decide⟩,
    ⟨(up [on (.core 0), (.core 0, R.CORE_STATUS.state, 1), (.core 0, R.CORE_CSW.in_int, 1)]).setCore 0 regs, 0, syl, by unfold State.Quiet; decide, by decide⟩,
    ⟨(up [on (.core 0), (.core 0, R.CORE_STATUS.state, 1), (.core 0, R.CORE_CSW.in_exc, 1)]).setCore 0 regs, 0, syl, by unfold State.Quiet; decide, by decide⟩,
    ⟨_, List.getElem_mem (l := ([.rti, .rte] : List (Fin 17 → Syl → Instr))) (n := 0) (by decide), core, 0, syl, by unfold State.Quiet; decide, by decide⟩⟩

theorem witness_CoreEvents :
    (∃ (s : State), ∃ (c : Fin 17), s.coreRuns = true ∧ s.enabled (.core c) = true ∧ s.rd (.core c) R.CORE_TIMER.compare ≤ s.rd (.core c) R.CORE_CYCLES.count) ∧
    (∃ (s : State), ∃ (c : Fin 17), ∃ (v : BitVec 64), s.dev ≠ .off ∧ s.dev ≠ .boot) ∧
    (∃ (s : State), ∃ (c d : Fin 17), ∃ (v : BitVec 64), c ≠ d) ∧
    (∃ (s : State), ∃ (c : Fin 17), s.coreRuns = true ∧ s.flag (.core c) R.BLOCK_STATUS.quiescing = true ∧ (s.coreState c = 1 ∨ s.coreState c = 2) ∧ s.graceOver c = true ∧ (s.cores[c]).between = true) ∧
    (∃ (s : State), ∃ (c : Fin 17), ∃ (w : WaitCond), s.coreRuns = true ∧ s.coreState c = 2 ∧ (s.cores[c]).wait = some w ∧ s.waitDone c w = true) ∧
    (∃ (s : State), ∃ (c : Fin 17), ∃ (y : Syl), s.Quiet c ∧ (s.cores[c]).wait = none ∧ y.last = true ∧ s.guard0 c y = true) ∧
    (∃ (s : State), ∃ (c : Fin 17), ∃ (y : Syl), s.Quiet c ∧ (s.cores[c]).wait = none ∧ y.last = true ∧ s.guard0 c y = true ∧ y.an ≤ 29 ∧ s.tim.now < ofT96 ((s.cores[c]).sreg (y.an + 2) ++ (s.cores[c]).sreg (y.an + 1) ++ (s.cores[c]).sreg y.an)) ∧
    (∃ (s : State), ∃ (c : Fin 17), ∃ (y : Syl), s.Quiet c ∧ (s.cores[c]).wait = none ∧ y.last = true ∧ s.guard0 c y = true ∧ ((s.cores[c]).sreg y.an).toNat % 2 ^ 16 ≠ 0 ∧ (((s.cores[c]).sreg y.an).truncate 16 : BitVec 16) &&& BitVec.ofNat 16 (s.rd (.core c) R.INT_PEND.pending) = 0) ∧
    (∃ (s : State), ∃ (c : Fin 17), ∃ (y : Syl), s.Quiet c ∧ (s.cores[c]).wait = none ∧ y.last = true ∧ s.guard0 c y = true ∧ ((s.cores[c]).sreg y.an).toNat % 2 ^ 16 = 0) :=
  ⟨⟨up [on (.core 0), (.core 0, R.CORE_TIMER.compare, 0)], 0, by decide⟩,
    ⟨core, 0, 0, by decide⟩,
    ⟨core, 0, 16, 7, by decide⟩,
    ⟨{ (up [on (.core 0), (.core 0, R.CORE_STATUS.state, 2), (.core 0, R.BLOCK_STATUS.quiescing, 1)]).setCore 0 regs with quiesceAt := [((Blk.core 0).base / 0x10000, some ⟨0, none⟩)], tim := { live.tim with raw := 10 * usUnits * 1000 } }, 0, by decide⟩,
    ⟨(up [on (.core 0), (.core 0, R.CORE_STATUS.state, 2)]).setCore 0 { regs with wait := some (.time 0) }, 0, .time 0, by decide⟩,
    ⟨core, 0, syl, by unfold State.Quiet; decide, by decide⟩,
    ⟨core, 0, ⟨1, 2, 3, 0, true, false⟩, by unfold State.Quiet; decide, by decide⟩,
    ⟨core, 0, syl, by unfold State.Quiet; decide, by decide⟩,
    ⟨core, 0, ⟨1, 1, 3, 0, true, false⟩, by unfold State.Quiet; decide, by decide⟩⟩

theorem witness_LaneResults :
    (∃ (w : Nat), ∃ (x : Int), 0 < w) ∧
    (∃ p, p ∈ Sys2Proof.Expected.laneOps ∧ ∃ (s : State), ∃ (c : Fin 17), ∃ (y : Syl), s.Quiet c ∧ y.last = true ∧ y.res = false) ∧
    (∃ p, p ∈ Sys2Proof.Expected.laneShifts ∧ ∃ (s : State), ∃ (c : Fin 17), ∃ (y : Syl), s.Quiet c ∧ y.last = true ∧ y.res = false ∧ y.mn % 32 ≤ 23) ∧
    (∃ (s : State), ∃ (c : Fin 17), ∃ (y : Syl), s.Quiet c ∧ y.last = true ∧ y.res = false) ∧
    (∃ p, p ∈ Sys2Proof.Expected.laneOps ∧ ∃ (s : State), ∃ (c : Fin 17), ∃ (y : Syl), s.Quiet c ∧ y.last = true ∧ y.res = true ∧ s.lanesOn c y ≠ []) :=
  ⟨⟨1, 3, by decide⟩,
    ⟨_, List.getElem_mem (l := Sys2Proof.Expected.laneOps) (n := 0) (by decide), core, 0, syl, by unfold State.Quiet; decide, by decide⟩,
    ⟨_, List.getElem_mem (l := Sys2Proof.Expected.laneShifts) (n := 0) (by decide), core, 0, ⟨1, 2, 3, 23, true, false⟩, by unfold State.Quiet; decide, by decide⟩,
    ⟨core, 0, syl, by unfold State.Quiet; decide, by decide⟩,
    ⟨_, List.getElem_mem (l := Sys2Proof.Expected.laneOps) (n := 0) (by decide), core, 0, ⟨1, 2, 3, 0, true, true⟩, by unfold State.Quiet; decide, by decide⟩⟩

theorem witness_LaneReductions :
    (∃ (s : State), ∃ (c : Fin 17), ∃ (y : Syl), s.Quiet c ∧ y.last = true ∧ y.res = false ∧ 0 < y.dn ∧ y.dn ≤ 7 ∧ y.mn % 8 ≤ 5) ∧
    (∃ (s : State), ∃ (c : Fin 17), ∃ (y : Syl), s.Quiet c ∧ y.last = true ∧ y.res = false) ∧
    (∃ (s : State), ∃ (c : Fin 17), ∃ (y : Syl), ∃ (m : Nat), s.Quiet c ∧ y.last = true ∧ y.res = false ∧ m < 8 ∧ s.guard c y m = true ∧ (∀ l, l < 8 → s.guard c y l = true → s.vr c y.an l < s.vr c y.an m ∨ (s.vr c y.an l = s.vr c y.an m ∧ m ≤ l))) ∧
    (∃ (s : State), ∃ (c : Fin 17), ∃ (y : Syl), ∃ (m : Nat), s.Quiet c ∧ y.last = true ∧ y.res = false ∧ m < 8 ∧ s.guard c y m = true ∧ (∀ l, l < 8 → s.guard c y l = true → s.vr c y.an m < s.vr c y.an l ∨ (s.vr c y.an l = s.vr c y.an m ∧ m ≤ l))) ∧
    (∃ p, p ∈ ([.vmaxx, .vminx] : List (Fin 17 → Syl → Instr)) ∧ ∃ (s : State), ∃ (c : Fin 17), ∃ (y : Syl), s.Quiet c ∧ y.last = true ∧ y.res = false ∧ s.lanesOn c y = []) ∧
    (∃ (s : State), ∃ (c : Fin 17), ∃ (y : Syl), s.Quiet c ∧ y.last = true ∧ y.res = false ∧ y.dn % 2 = 0 ∧ s.phys c (y.dn + 1) ≠ s.phys c y.dn ∧ -2 ^ 23 ≤ ((s.cores[c]).sreg y.bn).toInt ∧ ((s.cores[c]).sreg y.bn).toInt < 2 ^ 23) :=
  ⟨⟨core, 0, ⟨7, 2, 3, 5, true, false⟩, by unfold State.Quiet; decide, by decide⟩,
    ⟨core, 0, syl, by unfold State.Quiet; decide, by decide⟩,
    ⟨core, 0, syl, 0, by unfold State.Quiet; decide, by decide⟩,
    ⟨core, 0, syl, 7, by unfold State.Quiet; decide, by decide⟩,
    ⟨_, List.getElem_mem (l := ([.vmaxx, .vminx] : List (Fin 17 → Syl → Instr))) (n := 0) (by decide), core, 0, ⟨1, 2, 3, 0x700, true, false⟩, by unfold State.Quiet; decide, by decide⟩,
    ⟨core, 0, ⟨30, 2, 3, 0, true, false⟩, by unfold State.Quiet; decide, by decide⟩⟩

theorem witness_AccumulatorResults :
    (∃ p, p ∈ Sys2Proof.Expected.products ∧ ∃ (s : State), ∃ (c : Fin 17), ∃ (y : Syl), s.Quiet c ∧ y.last = true ∧ y.dn ≤ 7) ∧
    (∃ p, p ∈ Sys2Proof.Expected.sums ∧ ∃ (s : State), ∃ (c : Fin 17), ∃ (y : Syl), s.Quiet c ∧ y.last = true ∧ y.dn ≤ 7) ∧
    (∃ (s : State), ∃ (c : Fin 17), ∃ (y : Syl), s.Quiet c ∧ y.last = true ∧ y.dn ≤ 7) ∧
    (∃ (s : State), ∃ (c : Fin 17), ∃ (y : Syl), s.Quiet c ∧ y.last = true ∧ y.dn ≤ 7 ∧ (fit 24 (s.cswSat c) ((s.cores[c]).sreg y.bn).toInt).2 = false) ∧
    (∃ (s : State), ∃ (c : Fin 17), ∃ (y : Syl), s.Quiet c ∧ y.last = true ∧ y.an ≤ 7) ∧
    (∃ (s : State), ∃ (c : Fin 17), ∃ (y : Syl), s.Quiet c ∧ y.last = true ∧ y.an ≤ 7 ∧ s.guard0 c y = true) ∧
    (∃ (s : State), ∃ (c : Fin 17), ∃ (y : Syl), s.Quiet c ∧ y.last = true ∧ y.an ≤ 7 ∧ y.mn % 4 ≤ 2) ∧
    (∃ (s : State), ∃ (c : Fin 17), ∃ (y : Syl), s.Quiet c ∧ y.last = true ∧ y.dn ≤ 7 ∧ y.an ≤ 7 ∧ y.bn ≤ 7) ∧
    (∃ (s : State), ∃ (c : Fin 17), ∃ (y : Syl), s.Quiet c ∧ y.last = true ∧ y.dn ≤ 7 ∧ y.an ≤ 7) :=
  ⟨⟨_, List.getElem_mem (l := Sys2Proof.Expected.products) (n := 0) (by decide), core, 0, syl, by unfold State.Quiet; decide, by decide⟩,
    ⟨_, List.getElem_mem (l := Sys2Proof.Expected.sums) (n := 0) (by decide), core, 0, syl, by unfold State.Quiet; decide, by decide⟩,
    ⟨core, 0, syl, by unfold State.Quiet; decide, by decide⟩,
    ⟨core, 0, syl, by unfold State.Quiet; decide, by decide⟩,
    ⟨core, 0, syl, by unfold State.Quiet; decide, by decide⟩,
    ⟨core, 0, syl, by unfold State.Quiet; decide, by decide⟩,
    ⟨core, 0, ⟨1, 2, 3, 2, true, false⟩, by unfold State.Quiet; decide, by decide⟩,
    ⟨core, 0, syl, by unfold State.Quiet; decide, by decide⟩,
    ⟨core, 0, syl, by unfold State.Quiet; decide, by decide⟩⟩

theorem witness_LoadResults :
    (∃ p, p ∈ Sys2Proof.Expected.loads ∧ ∃ (s : State), ∃ (c : Fin 17), ∃ (y : Syl), ∃ (m : SramId), ∃ (o : Nat), s.Quiet c ∧ y.last = true ∧ y.an ≤ 15 ∧ y.u = false ∧ (p.2.1 = 8 → y.dn % 2 = 0) ∧ s.guard0 c y = true ∧ (s.cores[c]).rx y.an % 2 ^ 32 % p.2.1 = 0 ∧ sramOffset c ((s.cores[c]).rx y.an % 2 ^ 32) p.2.1 = some (m, o) ∧ s.firstBad m o p.2.1 = none) ∧
    (∃ p, p ∈ Sys2Proof.Expected.loads ∧ ∃ (s : State), ∃ (c : Fin 17), ∃ (y : Syl), s.Quiet c ∧ y.last = true ∧ y.an ≤ 15 ∧ y.u = false ∧ (p.2.1 = 8 → y.dn % 2 = 0) ∧ s.guard0 c y = false) ∧
    (∃ (s : State), ∃ (c : Fin 17), ∃ (y : Syl), ∃ (m : SramId), ∃ (o : Nat), s.Quiet c ∧ y.last = true ∧ y.an ≤ 15 ∧ s.lanesOn c y ≠ [] ∧ ((s.cores[c]).rx y.an % 2 ^ 32 % 32 = 0 ∨ (y.u = true ∧ (s.cores[c]).rx y.an % 2 ^ 32 < 0x800000)) ∧ sramOffset c ((s.cores[c]).rx y.an % 2 ^ 32) 32 = some (m, o) ∧ s.firstBad m o 32 = none) ∧
    (∃ (s : State), ∃ (c : Fin 17), ∃ (y : Syl), ∃ (m : SramId), ∃ (o : Nat), s.Quiet c ∧ y.last = true ∧ y.an ≤ 15 ∧ s.lanesOn c y ≠ [] ∧ ((s.cores[c]).rx y.an % 2 ^ 32 % 16 = 0 ∨ (y.u = true ∧ (s.cores[c]).rx y.an % 2 ^ 32 < 0x800000)) ∧ sramOffset c ((s.cores[c]).rx y.an % 2 ^ 32) 16 = some (m, o) ∧ s.firstBad m o 16 = none) :=
  ⟨⟨_, List.getElem_mem (l := Sys2Proof.Expected.loads) (n := 0) (by decide), core, 0, ⟨1, 2, 3, 0, true, false⟩, .lmem 0, 64, by unfold State.Quiet; decide, by decide⟩,
    ⟨_, List.getElem_mem (l := Sys2Proof.Expected.loads) (n := 0) (by decide), core, 0, ⟨1, 2, 3, 0x700, true, false⟩, by unfold State.Quiet; decide, by decide⟩,
    ⟨core, 0, syl, .lmem 0, 64, by unfold State.Quiet; decide, by decide⟩,
    ⟨core, 0, syl, .lmem 0, 64, by unfold State.Quiet; decide, by decide⟩⟩

theorem witness_StoreResults :
    (∃ p, p ∈ Sys2Proof.Expected.stores ∧ ∃ (s : State), ∃ (c : Fin 17), ∃ (y : Syl), ∃ (m : SramId), ∃ (o : Nat), s.Quiet c ∧ y.last = true ∧ y.an ≤ 15 ∧ y.u = false ∧ (p.2.1 = 8 → y.dn % 2 = 0) ∧ s.guard0 c y = true ∧ (s.cores[c]).rx y.an % 2 ^ 32 % p.2.1 = 0 ∧ sramOffset c ((s.cores[c]).rx y.an % 2 ^ 32) p.2.1 = some (m, o) ∧ s.firstBad m o p.2.1 = none) ∧
    (∃ (s : State), ∃ (c : Fin 17), ∃ (y : Syl), ∃ (m : SramId), ∃ (o : Nat), s.Quiet c ∧ y.last = true ∧ y.an ≤ 15 ∧ s.lanesOn c y ≠ [] ∧ (s.cores[c]).rx y.an % 2 ^ 32 % 32 = 0 ∧ sramOffset c ((s.cores[c]).rx y.an % 2 ^ 32) 32 = some (m, o) ∧ s.firstBad m o 32 = none) ∧
    (∃ (s : State), ∃ (c : Fin 17), ∃ (y : Syl), ∃ (m : SramId), ∃ (o : Nat), s.Quiet c ∧ y.last = true ∧ y.an ≤ 15 ∧ s.lanesOn c y ≠ [] ∧ (s.cores[c]).rx y.an % 2 ^ 32 % 16 = 0 ∧ sramOffset c ((s.cores[c]).rx y.an % 2 ^ 32) 16 = some (m, o) ∧ s.firstBad m o 16 = none) :=
  ⟨⟨_, List.getElem_mem (l := Sys2Proof.Expected.stores) (n := 0) (by decide), core, 0, syl, .lmem 0, 64, by unfold State.Quiet; decide, by decide⟩,
    ⟨core, 0, syl, .lmem 0, 64, by unfold State.Quiet; decide, by decide⟩,
    ⟨core, 0, syl, .lmem 0, 64, by unfold State.Quiet; decide, by decide⟩⟩

theorem witness_AddressesAndExceptions :
    (∃ (s : State), ∃ (c : Fin 17), ∃ (y : Syl), s.Quiet c ∧ y.last = true ∧ y.dn ≤ 15) ∧
    (∃ (s : State), ∃ (c : Fin 17), ∃ (y : Syl), s.Quiet c ∧ y.last = true ∧ y.an ≤ 15) ∧
    (∃ (s : State), ∃ (c : Fin 17), ∃ (y : Syl), s.Quiet c ∧ y.last = true ∧ y.an ≤ 15 ∧ s.guard0 c y = true) ∧
    (∃ (s : State), ∃ (x : Nat), ∃ (i : Int), x / 2 ^ 32 % 4 = 0) ∧
    (∃ (s : State), ∃ (x : Nat), ∃ (i : Int), ∃ (w : Nat), x / 2 ^ 32 % 4 = 1 ∧ w = x / 2 ^ 34 % 32 ∧ 4 ≤ w ∧ w ≤ 23) ∧
    (∃ (s : State), ∃ (x : Nat), ∃ (i : Int), ∃ (w : Nat), x / 2 ^ 32 % 4 = 2 ∧ w = x / 2 ^ 34 % 32 ∧ 4 ≤ w ∧ w ≤ 23) ∧
    (∃ p, p ∈ Sys2Proof.Expected.loads ++ [(.stH, 2, fun _ _ => []), (.stW, 4, fun _ _ => []), (.stD, 8, fun _ _ => [])] ∧ ∃ (s : State), ∃ (c : Fin 17), ∃ (y : Syl), s.Quiet c ∧ s.flag (.core c) R.CORE_CSW.in_exc = false ∧ y.an ≤ 15 ∧ y.u = false ∧ y.dn % 2 = 0 ∧ s.guard0 c y = true ∧ (s.cores[c]).rx y.an % 2 ^ 32 % p.2.1 ≠ 0) ∧
    (∃ p, p ∈ Sys2Proof.Expected.loads ∧ ∃ (s : State), ∃ (c : Fin 17), ∃ (y : Syl), s.Quiet c ∧ s.flag (.core c) R.CORE_CSW.in_exc = false ∧ y.last = true ∧ y.an ≤ 15 ∧ y.u = false ∧ y.dn % 2 = 0 ∧ s.guard0 c y = true ∧ (s.cores[c]).rx y.an % 2 ^ 32 % p.2.1 = 0 ∧ 0xC000000 ≤ (s.cores[c]).rx y.an % 2 ^ 32) ∧
    (∃ p, p ∈ ([.vshl, .vsra] : List (Fin 17 → Syl → Instr)) ∧ ∃ (s : State), ∃ (c : Fin 17), ∃ (y : Syl), s.Quiet c ∧ s.flag (.core c) R.CORE_CSW.in_exc = false ∧ 23 < y.mn % 32) ∧
    (∃ p, p ∈ Sys2Proof.Expected.products ++ [(.aclr, fun _ _ _ _ => 0)] ∧ ∃ (s : State), ∃ (c : Fin 17), ∃ (y : Syl), s.Quiet c ∧ s.flag (.core c) R.CORE_CSW.in_exc = false ∧ 7 < y.dn) :=
  ⟨⟨core, 0, syl, by unfold State.Quiet; decide, by decide⟩,
    ⟨core, 0, syl, by unfold State.Quiet; decide, by decide⟩,
    ⟨core, 0, syl, by unfold State.Quiet; decide, by decide⟩,
    ⟨core, 0xFFFFFFFF, 3, by decide⟩,
    ⟨core, 2 ^ 32 + 23 * 2 ^ 34 + 0x7FFFFF, 3, _, by decide, rfl, by decide⟩,
    ⟨core, 2 * 2 ^ 32 + 23 * 2 ^ 34 + 0x7FFFFF, 3, _, by decide, rfl, by decide⟩,
    ⟨_, List.getElem_mem (l := Sys2Proof.Expected.loads ++ [(.stH, 2, fun _ _ => []), (.stW, 4, fun _ _ => []), (.stD, 8, fun _ _ => [])]) (n := 2) (by decide), core, 0, ⟨2, 3, 3, 0, true, false⟩, by unfold State.Quiet; decide, by decide⟩,
    ⟨_, List.getElem_mem (l := Sys2Proof.Expected.loads) (n := 0) (by decide), core, 0, ⟨2, 4, 3, 0, true, false⟩, by unfold State.Quiet; decide, by decide⟩,
    ⟨_, List.getElem_mem (l := ([.vshl, .vsra] : List (Fin 17 → Syl → Instr))) (n := 0) (by decide), core, 0, ⟨2, 4, 3, 24, true, false⟩, by unfold State.Quiet; decide, by decide⟩,
    ⟨_, List.getElem_mem (l := Sys2Proof.Expected.products ++ [(.aclr, fun _ _ _ _ => 0)]) (n := 0) (by decide), core, 0, ⟨8, 4, 3, 24, true, false⟩, by unfold State.Quiet; decide, by decide⟩⟩

theorem witness_UnitQueries :
    (∃ p, p ∈ Sys2Proof.Expected.queries ∧ ∃ (s : State), ∃ (c : Fin 17), ∃ (y : Syl), s.Quiet c ∧ y.last = true) ∧
    (∃ (s : State), ∃ (c : Fin 17), ∃ (y : Syl), s.Quiet c ∧ y.last = true ∧ y.dn ≤ 29 ∧ s.guard0 c y = true) ∧
    (∃ (s : State), ∃ (c : Fin 17), ∃ (y : Syl), s.Quiet c ∧ y.last = true ∧ s.guard0 c y = true ∧ s.tapRefused c (((s.cores[c]).sreg y.an).toNat % 2 ^ 20) (((s.cores[c]).sreg y.bn).toNat % 2 ^ 17) = false) ∧
    (∃ (s : State), ∃ (c : Fin 17), ∃ (y : Syl), s.Quiet c ∧ y.last = true ∧ s.guard0 c y = true ∧ s.tapRefused c (((s.cores[c]).sreg y.an).toNat % 2 ^ 20) (((s.cores[c]).sreg y.bn).toNat % 2 ^ 17) = true) ∧
    (∃ (s : State), ∃ (c : Fin 17), s.coreRuns = true ∧ (s.cores[c]).tap.busy = true ∧ (s.cores[c]).tap.written = (s.cores[c]).tap.count) :=
  ⟨⟨_, List.getElem_mem (l := Sys2Proof.Expected.queries) (n := 0) (by decide), core, 0, syl, by unfold State.Quiet; decide, by decide⟩,
    ⟨core, 0, syl, by unfold State.Quiet; decide, by decide⟩,
    ⟨(up [on (.core 0), (.core 0, R.CORE_STATUS.state, 1), (.core 0, R.CORE_IMAGE2.data_top, 128), (.core 0, R.SLICE_MODE.mode, 0)]).setCore 0 regs, 0, ⟨1, 2, 4, 0, true, false⟩, by unfold State.Quiet; decide, by decide⟩,
    ⟨core, 0, ⟨1, 2, 1, 0, true, false⟩, by unfold State.Quiet; decide, by decide⟩,
    ⟨coreOf { regs with tap := { regs.tap with busy := true } }, 0, by decide⟩⟩

theorem witness_SamplesThroughSlice :
    (∃ (s : State), ∃ (g : Fin 16), ∃ (i : Fin 17), ∃ (b : Batch), ∃ (x : Smp), ∃ (rest : List (List Batch)), s.coreRuns = true ∧ s.sharedWedged 0 = false ∧ s.flag (.filt i) R.BLOCK_STATUS.quiescing = false ∧ (s.rx[g]).ferry = [b] :: rest ∧ rest.length < 512 ∧ b.bonded = false ∧ b.samples = [x] ∧ x.lost = false ∧ s.takers b.ctx = [i] ∧ (s.chains[i]).run = some b.run ∧ (s.chains[i]).any = true ∧ (s.chains[i]).next = b.first ∧ s.tko = TkoSt.zero ∧ s.tkoPhase = 0 ∧ s.enabled (.trig i) = false ∧ s.chainR i = 1 ∧ s.chainH i = 0 ∧ s.flag (.filt i) R.FILT_CFG.nco_enable = false ∧ b.first % s.chainD i ≠ 0) ∧
    (∃ (s : State), ∃ (g : Fin 16), ∃ (i : Fin 17), ∃ (b : Batch), ∃ (x : Smp), ∃ (rest : List (List Batch)), s.coreRuns = true ∧ s.sharedWedged 0 = false ∧ s.flag (.filt i) R.BLOCK_STATUS.quiescing = false ∧ (s.rx[g]).ferry = [b] :: rest ∧ b.bonded = false ∧ b.samples = [x] ∧ x.lost = true ∧ s.takers b.ctx = [i] ∧ (s.chains[i]).run = some b.run ∧ (s.chains[i]).any = true ∧ (s.chains[i]).next = b.first ∧ s.tko = TkoSt.zero ∧ s.tkoPhase = 0 ∧ s.enabled (.trig i) = false ∧ s.chainR i = 1 ∧ s.chainH i = 0 ∧ s.flag (.filt i) R.FILT_CFG.nco_enable = false ∧ 2 ≤ s.chainW i ∧ b.first % s.chainD i ≠ 0) ∧
    (∃ (s : State), ∃ (g : Fin 16), ∃ (i : Fin 17), ∃ (b : Batch), ∃ (x : Smp), ∃ (rest : List (List Batch)), s.coreRuns = true ∧ s.sharedWedged 0 = false ∧ s.flag (.filt i) R.BLOCK_STATUS.quiescing = false ∧ (s.rx[g]).ferry = [b] :: rest ∧ b.bonded = false ∧ b.samples = [x] ∧ x.lost = false ∧ s.takers b.ctx = [i] ∧ (s.chains[i]).run = some b.run ∧ (s.chains[i]).any = true ∧ (s.chains[i]).next = b.first ∧ s.tko = TkoSt.zero ∧ s.tkoPhase = 0 ∧ s.enabled (.trig i) = false ∧ s.enabled (.records i) = false ∧ s.mode i = 1 ∧ s.gangG i = 1 ∧ s.forwards i = false ∧ s.chanRuns i = false ∧ (s.cores[i]).tap.busy = false ∧ s.chainR i = 1 ∧ s.chainH i = 0 ∧ s.flag (.filt i) R.FILT_CFG.nco_enable = false ∧ s.flag (.filt i) R.FILT_CFG.fir_enable = false ∧ s.flag (.filt i) R.FILT_STATUS.fading = false ∧ (s.chains[i]).carOpen = true ∧ (s.chains[i]).gaps = [] ∧ b.first % 4096 ≠ 0 ∧ s.windowClean i b.first = true ∧ (s.chains[i]).skipTo ≤ b.first ∧ s.suppressed i b.first = false) ∧
    (∃ (s : State), ∃ (i : Fin 17), ∃ (c r q : Nat), s.coreRuns = true ∧ s.enabled (.filt i) = true ∧ s.streamOf i = some c ∧ s.nextRun c = some r ∧ (s.chains[i]).run = some q ∧ q ≠ r ∧ (s.chains[i]).any = false ∧ s.enabled (.trig i) = false ∧ s.gangG i = 1) ∧
    (∃ (s : State), ∃ (i : Fin 17), ∃ (c : Nat), s.coreRuns = true ∧ s.mode i = 1 ∧ s.streamOf i = some c ∧ s.enabled (.filt i) = true ∧ s.flag (.filt i) R.BLOCK_STATUS.quiescing = false ∧ s.gangG i = 1 ∧ (s.chains[i]).any = true ∧ (s.chains[i]).carOpen = true ∧ (s.chains[i]).pos % 4096 = 0 ∧ (s.chains[i]).boundaryAt ≠ some (s.chains[i]).pos ∧ s.delivers i (s.chains[i]).pos = true ∧ s.tko = TkoSt.zero ∧ s.tkoPhase = 0 ∧ s.enabled (.trig i) = false ∧ s.chanRuns i = false ∧ SMap.get (fun _ => none) s.cal.moves i = none ∧ s.flag (.filt i) R.FILT_CFG.settle_on_retune = false ∧ s.flag (.filt i) R.FILT_COMMIT.retune = true ∧ s.flag (.filt i) R.FILT_COMMIT.switch = false ∧ s.flag (.filt i) R.NCO_PHASE_STAGE.coherent = true) :=
  ⟨⟨fed 1 false [(.filt 0, R.FILT_CFG.fir_enable, 1), (.filt 0, R.FILT_CFG.fir_decim, 1)], 0, 0, batch 1 false, ⟨9, -4, true, false, 70⟩, [], by decide⟩,
    ⟨(fed 1 true [(.filt 0, R.FILT_CFG.fir_enable, 1), (.filt 0, R.FILT_CFG.fir_decim, 1)]).setChain 0 { (flowing 1 []).chains[0] with banks := ChainSt.zero.banks.set 0 ⟨5, [1, 2, 3]⟩ }, 0, 0, batch 1 true, ⟨9, -4, true, true, 70⟩, [], by decide⟩,
    ⟨fed 5 false [], 0, 0, batch 5 false, ⟨9, -4, true, false, 70⟩, [], by decide⟩,
    ⟨((flowing 0 []).setChain 0 { ChainSt.zero with run := some 3, fir := [⟨1, 1, false⟩] }).setRx 0 { RxSt.zero with ferry := [[{ batch 0 false with run := 4 }]] }, 0, 0, 4, 3, by decide⟩,
    ⟨flowing 8192 [(.filt 0, R.FILT_COMMIT.retune, 1), (.filt 0, R.NCO_PHASE_STAGE.coherent, 1), (.filt 0, R.NCO_FCW_STAGE.fcw, 0x123456789ABC), (.filt 0, R.NCO_PHASE_STAGE.phase, 77), (.filt 0, R.FILT_CFG.settle_on_retune, 0)], 0, 0, by decide⟩⟩

theorem witness_FilterCommits :
    (∃ (s : State), ∃ (i : Fin 17), s.dev ≠ .off ∧ s.dev ≠ .boot) ∧
    (∃ (s : State), ∃ (c : Fin 17), ∃ (y : Syl), s.Quiet c ∧ y.last = true ∧ y.an % 2 = 0 ∧ y.bn % 2 = 0 ∧ s.guard0 c y = true) ∧
    (∃ (s : State), ∃ (c : Fin 17), ∃ (y : Syl), s.Quiet c ∧ y.last = true ∧ s.guard0 c y = true) ∧
    (∃ (s : State), ∃ (i : Fin 17), s.enabled (.filt i) = true ∧ s.coreRuns = true ∧ s.flag (.filt i) R.FILT_STATUS.fading = true ∧ s.rd (.filt i) R.FILT_STATUS.fade_remaining = 0) ∧
    (∃ (s : State), ∃ (i : Fin 17), ∃ (b : Fin 4), ∃ (v : BitVec 64), s.dev ≠ .off ∧ s.dev ≠ .boot ∧ (s.chains[i]).bankLoad[b] = none ∧ s.bankBusy i b = false ∧ 0 < v.toNat / 2 ^ 20 % 2 ^ 9 ∧ v.toNat / 2 ^ 20 % 2 ^ 9 ≤ 256) ∧
    (∃ (s : State), ∃ (i : Fin 17), ∃ (b : Fin 4), ∃ (v : BitVec 64), s.dev ≠ .off ∧ s.dev ≠ .boot ∧ (s.chains[i]).bankLoad[b] = none ∧ (s.bankBusy i b = true ∨ v.toNat / 2 ^ 20 % 2 ^ 9 = 0 ∨ 256 < v.toNat / 2 ^ 20 % 2 ^ 9)) ∧
    (∃ (s : State), ∃ (i : Fin 17), ∃ (b : Fin 4), ∃ (a l : Nat), s.coreRuns = true ∧ (s.chains[i]).bankLoad[b] = some (a, l) ∧ s.firstBad (.lmem i) (8 * a % 2 ^ 23) (4 * ((l + 1) / 2)) = none) :=
  ⟨⟨live, 16, by decide⟩,
    ⟨core, 0, ⟨0, 2, 4, 0, true, false⟩, by unfold State.Quiet; decide, by decide⟩,
    ⟨core, 0, ⟨0, 4, 3, 0, true, false⟩, by unfold State.Quiet; decide, by decide⟩,
    ⟨up [on (.filt 0), (.filt 0, R.FILT_STATUS.fading, 1), (.filt 0, R.FILT_STATUS.fade_target, 3), (.filt 0, R.FILT_STATUS.fade_remaining, 0)], 0, by decide⟩,
    ⟨live, 0, 3, 0x10000001, by decide⟩,
    ⟨live, 0, 3, 0, by decide⟩,
    ⟨(live.setChain 0 { ChainSt.zero with bankLoad := ChainSt.zero.bankLoad.set 3 (some (1, 3)) }).setSram (.lmem 0) [(8, 5), (10, 128), (12, 7)] [], 0, 3, 1, 3, by decide⟩⟩

theorem witness_FramesAndWindows :
    (∃ (s : State), ∃ (i : Fin 17), ∃ (j : FrameJob), ∃ (rest : List FrameJob), s.enabled (.filt i) = true ∧ s.coreRuns = true ∧ s.mode i = 0 ∧ s.gangG i = 1 ∧ (s.chains[i]).jobs = j :: rest ∧ s.tkoPhase = 0 ∧ s.enabled (.trig i) = false ∧ s.enabled (.records i) = false) ∧
    (∃ (s : State), ∃ (i : Fin 17), s.dev ≠ .off ∧ s.dev ≠ .boot ∧ (s.chains[i]).winLoad[Fin.ofNat 2 (s.rd (.filt i) R.WIN_STAGE.store)] = none) ∧
    (∃ (s : State), ∃ (c : Fin 17), ∃ (y : Syl), s.Quiet c ∧ y.last = true ∧ s.guard0 c y = true) ∧
    (∃ (s : State), ∃ (c : Fin 17), ∃ (y : Syl), s.Quiet c ∧ y.last = true ∧ s.guard0 c y = true ∧ s.gangG c = 1) ∧
    (∃ (s : State), ∃ (i : Fin 17), ∃ (b : Fin 2), s.dev ≠ .off ∧ s.dev ≠ .boot ∧ (s.chains[i]).winLoad[b] = none ∧ s.storeActive i b = false ∧ s.storePending i b = false ∧ s.winInvalid i b = false) ∧
    (∃ (s : State), ∃ (i : Fin 17), ∃ (b : Fin 2), s.dev ≠ .off ∧ s.dev ≠ .boot ∧ (s.chains[i]).winLoad[b] = none ∧ (s.storeActive i b = true ∨ s.storePending i b = true ∨ s.winInvalid i b = true)) ∧
    (∃ (s : State), ∃ (i : Fin 17), ∃ (b : Fin 2), ∃ (w : Word), s.coreRuns = true ∧ (s.chains[i]).winLoad[b] = some w ∧ (s.winValues i w.toNat (s.log2n i)).sum ≠ 0 ∧ (w.toNat % 8 = 6 → s.firstBad (.lmem i) (8 * (w.toNat / 2 ^ 7 % 2 ^ 20) % 2 ^ 23) (4 * 2 ^ (w.toNat / 2 ^ 27 % 32)) = none)) :=
  ⟨⟨(up [on (.filt 0), (.core 0, R.SLICE_MODE.mode, 0)]).setChain 0 { ChainSt.zero with jobs := [⟨⟨0, 0, 0, false, (0, 0), (0, 0), 0⟩, [], 0, false⟩] }, 0, ⟨⟨0, 0, 0, false, (0, 0), (0, 0), 0⟩, [], 0, false⟩, [], by decide⟩,
    ⟨live, 16, by decide⟩,
    ⟨core, 0, syl, by unfold State.Quiet; decide, by decide⟩,
    ⟨core, 0, ⟨0, 4, 0, 0, true, false⟩, by unfold State.Quiet; decide, by decide⟩,
    ⟨live, 0, 1, by decide⟩,
    ⟨up [on (.filt 0), (.core 0, R.SLICE_MODE.mode, 0)], 0, 0, by decide⟩,
    ⟨live.setChain 0 { ChainSt.zero with winLoad := ChainSt.zero.winLoad.set 1 (some 0) }, 0, 1, 0, by decide, by decide, (by decide +kernel), by decide⟩⟩

theorem witness_TriggerControl :
    (∃ (s : State), ∃ (i : Fin 17), s.dev ≠ .off ∧ s.dev ≠ .boot ∧ s.trigLive i = true ∧ s.gangG i = 1 ∧ s.arm i = 0) ∧
    (∃ (s : State), ∃ (i : Fin 17), ∃ (y : Syl), s.dev ≠ .off ∧ s.dev ≠ .boot ∧ s.Quiet i ∧ y.last = true ∧ s.guard0 i y = true ∧ s.trigLive i = true ∧ s.gangG i = 1 ∧ s.arm i = 0) ∧
    (∃ (s : State), ∃ (i : Fin 17), s.dev ≠ .off ∧ s.dev ≠ .boot ∧ s.trigLive i = true ∧ (s.arm i = 1 ∨ s.arm i = 2 ∨ s.arm i = 3)) ∧
    (∃ (s : State), ∃ (i : Fin 17), s.dev ≠ .off ∧ s.dev ≠ .boot ∧ s.trigLive i = true ∧ s.gangG i = 1 ∧ (s.arm i = 4 ∨ s.arm i = 5)) ∧
    (∃ (s : State), ∃ (i : Fin 17), s.dev ≠ .off ∧ s.dev ≠ .boot ∧ s.trigLive i = true ∧ nbit (s.refAhead i) 14 = true) ∧
    (∃ (s : State), ∃ (i : Fin 17), s.dev ≠ .off ∧ s.dev ≠ .boot) ∧
    (∃ (s : State), ∃ (i : Fin 17), ∃ (y : Syl), s.dev ≠ .off ∧ s.dev ≠ .boot ∧ s.Quiet i ∧ y.last = true ∧ s.guard0 i y = true) ∧
    (∃ p, p ∈ [((fun i => .arm i .write : Fin 17 → Instr), 1), (fun i => .disarm i .write, 2), (fun i => .force i .write, 3), (.timerArm, 5)] ∧ ∃ (s : State), ∃ (i : Fin 17), s.dev ≠ .off ∧ s.dev ≠ .boot ∧ s.trigLive i = false) ∧
    (∃ (s : State), ∃ (i : Fin 17), s.trigLive i = true ∧ s.gangG i = 1 ∧ s.arm i = 3 ∧ s.framed i = false ∧ (s.trigs[i]).axis = [] ∧ (s.trigs[i]).disarm = false ∧ (s.trigs[i]).postEnd ≤ (s.chains[i]).pos) :=
  ⟨⟨armedIn 0 [], 0, by decide⟩,
    ⟨pokes [on (.trig 0), (.core 0, R.SLICE_MODE.mode, 1)] core, 0, syl, by decide, by decide, by unfold State.Quiet; decide, by decide⟩,
    ⟨armedIn 2 [], 0, by decide⟩,
    ⟨armedIn 4 [], 0, by decide⟩,
    ⟨armedIn 2 [(.trig 0, R.TERM.req 0, 0x4000)], 0, by decide⟩,
    ⟨live, 0, by decide⟩,
    ⟨core, 0, syl, by decide, by decide, by unfold State.Quiet; decide, by decide⟩,
    ⟨_, List.getElem_mem (l := [((fun i => .arm i .write : Fin 17 → Instr), 1), (fun i => .disarm i .write, 2), (fun i => .force i .write, 3), (.timerArm, 5)]) (n := 3) (by decide), live, 16, by decide⟩,
    ⟨armedIn 3 [], 0, by decide⟩⟩

theorem witness_TriggerDecisions :
    (∃ (s : State), ∃ (i : Fin 17), s.dev ≠ .off ∧ s.dev ≠ .boot ∧ s.trigLive i = true ∧ s.tim.now < ofT96 (s.rdT96 (.trig i) R.TIMER_T96.lo)) ∧
    (∃ (s : State), ∃ (i : Fin 17), s.dev ≠ .off ∧ s.dev ≠ .boot ∧ s.trigLive i = true ∧ ofT96 (s.rdT96 (.trig i) R.TIMER_T96.lo) ≤ s.tim.now ∧ nbit (s.refAhead i) 15 = true) ∧
    (∃ (s : State), ∃ (i : Fin 17), s.trigLive i = true ∧ s.flag (.trig i) R.TRIG_STATUS.timer_pending = true ∧ ofT96 (s.rdT96 (.trig i) R.TIMER_T96.lo) ≤ s.tim.now ∧ nbit (s.refAhead i) 15 = true ∧ (s.trigs[i]).doneTo = none ∧ (s.trigs[i]).reports = []) ∧
    (∃ (s : State), ∃ (c : Fin 17), ∃ (y : Syl), ∃ (k : Fin 4), s.Quiet c ∧ y.last = true ∧ s.guard0 c y = true ∧ y.an % 2 = 0 ∧ ((s.cores[c]).sreg y.bn).toNat % 16 = k.val) ∧
    (∃ (s : State), ∃ (c : Fin 17), ∃ (y : Syl), ∃ (k : Fin 4), s.Quiet c ∧ y.last = true ∧ s.guard0 c y = true ∧ y.an % 2 = 0 ∧ ((s.cores[c]).sreg y.bn).toNat % 16 = 8 + k.val) ∧
    (∃ (s : State), ∃ (c : Fin 17), ∃ (y : Syl), s.Quiet c ∧ y.last = true ∧ s.guard0 c y = true ∧ y.an % 2 = 0 ∧ 12 ≤ ((s.cores[c]).sreg y.bn).toNat % 16) ∧
    (∃ (s : State), ∃ (i : Fin 17), ∃ (p : AxisPt), ∃ (ps : List AxisPt), s.trigLive i = true ∧ (s.trigs[i]).axis = p :: ps ∧ s.covered i p = true ∧ p.fresh = false ∧ p.boundary = false ∧ p.terms = none ∧ s.refMask i = 0 ∧ s.arm i ≠ 4 ∧ (∀ k : Fin 4, s.term i k = (0, 0))) ∧
    (∃ (s : State), ∃ (i : Fin 17), ∃ (p : AxisPt), ∃ (ps : List AxisPt), ∃ (t0 : TrigSt), s.trigLive i = true ∧ s.gangG i = 1 ∧ s.trigs[i] = { t0 with axis := p :: ps, reports := [], now := [Report.at_ 14 true true 0 0], prevT := false, states := 0, setBy := [] } ∧ s.covered i p = true ∧ p.fresh = false ∧ p.boundary = false ∧ p.terms = none ∧ s.term i 0 = (0x4000, 0) ∧ s.term i 1 = (0, 0) ∧ s.term i 2 = (0, 0) ∧ s.term i 3 = (0, 0) ∧ s.flag (.trig i) R.TRIG_CFG.window_enable = false ∧ s.arm i = 2) ∧
    (∃ (s : State), ∃ (i : Fin 17), ∃ (p : AxisPt), ∃ (ps : List AxisPt), ∃ (t0 : TrigSt), s.trigLive i = true ∧ s.gangG i = 1 ∧ s.trigs[i] = { t0 with axis := p :: ps, reports := [], now := [Report.at_ 14 true true 0 0], prevT := false, states := 0, setBy := [] } ∧ s.covered i p = true ∧ p.fresh = false ∧ p.boundary = false ∧ p.terms = none ∧ s.term i 0 = (0x4000, 0) ∧ s.term i 1 = (0, 0) ∧ s.term i 2 = (0, 0) ∧ s.term i 3 = (0, 0) ∧ s.flag (.trig i) R.TRIG_CFG.window_enable = false ∧ s.arm i = 3) ∧
    (∃ (s : State), ∃ (i : Fin 17), ∃ (p : AxisPt), ∃ (ps : List AxisPt), ∃ (t0 : TrigSt), s.trigLive i = true ∧ s.gangG i = 1 ∧ s.trigs[i] = { t0 with axis := p :: ps, reports := [], now := [Report.at_ 14 true true 0 0], prevT := false, states := 0, setBy := [] } ∧ s.covered i p = true ∧ p.fresh = false ∧ p.boundary = false ∧ p.terms = none ∧ s.term i 0 = (0x4000, 0) ∧ s.term i 1 = (0, 0) ∧ s.term i 2 = (0, 0) ∧ s.term i 3 = (0, 0) ∧ s.flag (.trig i) R.TRIG_CFG.window_enable = false ∧ s.arm i = 0) :=
  ⟨⟨armedIn 2 [(.trig 0, R.TIMER_T96.lo, 0x10000000)], 0, by decide⟩,
    ⟨armedIn 2 [(.trig 0, R.TERM.neg 3, 0x8000)], 0, by decide⟩,
    ⟨armedIn 2 [(.trig 0, R.TERM.req 0, 0x8000), (.trig 0, R.TRIG_STATUS.timer_pending, 1), (.trig 0, R.TRIG_CTRL.timer_arm, 1)], 0, by decide⟩,
    ⟨coreOf (regs.puts [(.s 5, 3)]), 0, ⟨0, 2, 5, 0, true, false⟩, 3, by unfold State.Quiet; decide, by decide⟩,
    ⟨coreOf (regs.puts [(.s 5, 11)]), 0, ⟨0, 2, 5, 0, true, false⟩, 3, by unfold State.Quiet; decide, by decide⟩,
    ⟨coreOf (regs.puts [(.s 5, 12)]), 0, ⟨0, 2, 5, 0, true, false⟩, by unfold State.Quiet; decide, by decide⟩,
    ⟨(armedIn 2 []).setTrig 0 { TrigSt.zero with axis := [point] }, 0, point, [], by decide⟩,
    ⟨forced 2, 0, point, [], TrigSt.zero, by decide⟩,
    ⟨forced 3, 0, point, [], TrigSt.zero, by decide⟩,
    ⟨forced 0, 0, point, [], TrigSt.zero, by decide⟩⟩

theorem witness_TriggerPinsAndBus :
    (∃ (s : State), ∃ (j : Fin 4), ∃ (falling : Bool), ∃ (k : Fin 512), s.timeRuns = true ∧ s.flag .trigbus (R.TRIG_IN_CFG.edge j) = falling ∧ s.flag .trigbus (R.TRIG_IN_CFG.enable j) = true) ∧
    (∃ (s : State), ∃ (j : Fin 4), ∃ (falling : Bool), ∃ (k : Fin 512), s.timeRuns = false) ∧
    (∃ (s : State), ∃ (j : Fin 4), s.timeRuns = true ∧ s.pulseDone j = true ∧ s.outHeld j = false ∧ s.outLevel j = none) ∧
    (∃ (s : State), ∃ (j : Fin 4), s.pulseDone j = false) ∧
    (∃ (s : State), ∃ (j : Fin 4), ∃ (v : BitVec 32), s.dev ≠ .off ∧ s.dev ≠ .boot) ∧
    (∃ (s : State), ∃ (j : Fin 4), s.timeRuns = true ∧ s.rdw .trigbus (0x200 + 8 * j.val) ≠ s.tbus.outCfg[j] ∧ s.outActive j = true) ∧
    (∃ (s : State), ∃ (r : Nat), s.enabled .trigbus = true ∧ s.timeRuns = true ∧ s.flag .trigbus R.TBUS_STATUS.sync_locked = false ∧ s.tbus.syncAt = some r ∧ s.tim.raw = r + 65536 * s.busCycle ∧ 1 ≤ s.tbus.good) ∧
    (∃ (s : State), s.enabled .trigbus = true ∧ s.timeRuns = true ∧ s.flag .trigbus R.TBUS_STATUS.sync_locked = false ∧ s.tbus.syncAt = none) ∧
    (∃ (s : State), s.enabled .trigbus = true ∧ s.timeRuns = true ∧ s.flag .trigbus R.TBUS_STATUS.sync_locked = true ∧ s.tbus.out = [] ∧ s.tbus.driving = []) ∧
    (∃ (s : State), s.enabled .trigbus = true ∧ s.timeRuns = true ∧ s.flag .trigbus R.TBUS_CFG.master = true) ∧
    (∃ (s : State), ∃ (l : Fin 8), ∃ (rq : List Nat), ∃ (es : List (Nat × List Nat)), s.tbus.out = (l.val, rq) :: es ∧ s.tbusUp = true ∧ s.flag .trigbus R.BLOCK_STATUS.quiescing = false ∧ nbit (s.rd .trigbus R.TBUS_CFG.line_enable) l = true) ∧
    (∃ (s : State), ∃ (l : Fin 8), s.tbusUp = true ∧ nbit (s.rd .trigbus R.TBUS_CFG.line_enable) l = true ∧ s.tbus.driving = [] ∧ s.busRefuses l [] = false ∧ s.coreRuns = false ∧ s.tbus.inq.length < 16) :=
  ⟨⟨up [(.trigbus, R.TRIG_IN_CFG.enable 3, 1)], 3, false, 511, by decide⟩,
    ⟨{ live with tim := TimeSt.zero }, 3, true, 511, by decide⟩,
    ⟨{ live with tbus := { TbusSt.zero with outEnd := TbusSt.zero.outEnd.set 3 (some 4) }, tim := { live.tim with raw := 5 } }, 3, by decide⟩,
    ⟨{ live with tbus := { TbusSt.zero with outEnd := TbusSt.zero.outEnd.set 3 (some 4) } }, 3, by decide⟩,
    ⟨{ live with pins := { live.pins with trigOut := live.pins.trigOut.set 3 true } }, 3, 0xFFFFFFFF, by decide⟩,
    ⟨{ up [(.trigbus, R.TRIG_OUT_CFG.width 3, 9)] with pins := { live.pins with trigOut := live.pins.trigOut.set 3 true } }, 3, by decide⟩,
    ⟨{ up [on .trigbus] with tbus := { TbusSt.zero with syncAt := some 0, good := 1 }, tim := { TimeSt.zero with running := true, raw := 327680 * 65536 } }, 0, by decide⟩,
    ⟨up [on .trigbus], by decide⟩,
    ⟨up [on .trigbus, (.trigbus, R.TBUS_STATUS.sync_locked, 1), (.trigbus, R.TBUS_STATUS.cycle, 9)], by decide⟩,
    ⟨up [on .trigbus, (.trigbus, R.TBUS_CFG.master, 1)], by decide⟩,
    ⟨{ up [on .trigbus, (.trigbus, R.TBUS_STATUS.sync_locked, 1), (.trigbus, R.TBUS_CFG.line_enable, 0x80)] with tbus := { TbusSt.zero with out := [(7, [3])] } }, 7, [3], [], by decide⟩,
    ⟨{ up [on .trigbus, (.trigbus, R.TBUS_STATUS.sync_locked, 1), (.trigbus, R.TBUS_CFG.line_enable, 0x80)] with dev := .hold }, 7, by decide⟩⟩

theorem witness_QueueCommands :
    (∃ (s : State), ∃ (p : Port), ∃ (q : BitVec 20), s.dev ≠ .off ∧ s.dev ≠ .boot ∧ s.queue.destroying = none ∧ (s.ctx q.toNat).on = false ∧ (p ≠ .host ∨ (s.ctx q.toNat).placed = false) ∧ 12 ≤ s.rdw .queue 0x050 % 64 ∧ s.rdw .queue 0x050 % 64 ≤ 40 ∧ s.rdw .queue 0x050 / 4096 * 4096 % 2 ^ (s.rdw .queue 0x050 % 64) = 0) ∧
    (∃ (s : State), ∃ (p : Port), ∃ (q : BitVec 20), s.dev ≠ .off ∧ s.dev ≠ .boot ∧ s.queue.destroying = none ∧ (s.ctx q.toNat).on = true) ∧
    (∃ (s : State), ∃ (q : BitVec 20), s.dev ≠ .off ∧ s.dev ≠ .boot ∧ s.queue.destroying = none ∧ (s.ctx q.toNat).on = false ∧ (s.ctx q.toNat).placed = true) ∧
    (∃ (s : State), ∃ (p : Port), ∃ (q : BitVec 20), s.dev ≠ .off ∧ s.dev ≠ .boot ∧ s.queue.destroying = none ∧ (s.ctx q.toNat).on = false ∧ (s.ctx q.toNat).placed = false ∧ (s.rdw .queue 0x050 % 64 < 12 ∨ 40 < s.rdw .queue 0x050 % 64)) ∧
    (∃ (s : State), ∃ (p : Port), ∃ (q : BitVec 20), s.dev ≠ .off ∧ s.dev ≠ .boot ∧ s.queue.destroying = none ∧ s.ctxSound q.toNat ∧ (s.ctx q.toNat).on = true ∧ (p ≠ .host ∨ (s.ctx q.toNat).placed = false) ∧ s.reservedOn q.toNat = false) ∧
    (∃ (s : State), ∃ (p : Port), ∃ (q : BitVec 20), s.dev ≠ .off ∧ s.dev ≠ .boot ∧ s.queue.destroying = none ∧ s.ctxSound q.toNat ∧ (s.ctx q.toNat).on = true ∧ (p ≠ .host ∨ (s.ctx q.toNat).placed = false) ∧ s.reservedOn q.toNat = true) ∧
    (∃ (s : State), ∃ (q : BitVec 20), s.dev ≠ .off ∧ s.dev ≠ .boot ∧ s.queue.destroying = none ∧ s.ctxSound q.toNat ∧ (s.ctx q.toNat).halted = true) ∧
    (∃ (s : State), ∃ (q : BitVec 20), s.dev ≠ .off ∧ s.dev ≠ .boot ∧ s.queue.destroying = none ∧ s.ctxSound q.toNat ∧ (s.ctx q.toNat).halted = false) ∧
    (∃ (s : State), ∃ (q : BitVec 20), s.dev ≠ .off ∧ s.dev ≠ .boot ∧ s.queue.destroying = none ∧ s.ctxSound q.toNat) ∧
    (∃ (s : State), ∃ (v : BitVec 64), ∃ (ann : AnnResult), s.dev ≠ .off ∧ s.dev ≠ .boot ∧ s.ctxSound (v.toNat % 2 ^ 20) ∧ ann ≠ .ctxCorrected ∧ ann ≠ .ctxBad ∧ (s.ctx (v.toNat % 2 ^ 20)).on = true ∧ (v.toNat / 2 ^ 20 % 2 ^ 36 + 2 ^ 36 - (s.ctx (v.toNat % 2 ^ 20)).consumed) % 2 ^ 36 ≤ ((s.ctx (v.toNat % 2 ^ 20)).produced + 2 ^ 36 - (s.ctx (v.toNat % 2 ^ 20)).consumed) % 2 ^ 36 ∧ (∀ r ∈ s.queue.recs, r.q = v.toNat % 2 ^ 20 → r.waits = false)) ∧
    (∃ (s : State), ∃ (v : BitVec 64), ∃ (ann : AnnResult), s.dev ≠ .off ∧ s.dev ≠ .boot ∧ s.ctxSound (v.toNat % 2 ^ 20) ∧ ann ≠ .ctxCorrected ∧ ann ≠ .ctxBad ∧ ((s.ctx (v.toNat % 2 ^ 20)).on = false ∨ ((s.ctx (v.toNat % 2 ^ 20)).produced + 2 ^ 36 - (s.ctx (v.toNat % 2 ^ 20)).consumed) % 2 ^ 36 < (v.toNat / 2 ^ 20 % 2 ^ 36 + 2 ^ 36 - (s.ctx (v.toNat % 2 ^ 20)).consumed) % 2 ^ 36)) :=
  ⟨⟨cachedCtx 1029 12 9 8 7 (pokes [(.queue, ⟨0x50, 0, 64⟩, 0x100280 + 12), (.queue, ⟨0x58, 0, 64⟩, 0x123456789ABCDEF0)] live), .host, 1029, by decide⟩,
    ⟨cachedCtx 1029 (128 + 12) 9 8 7 live, .host, 1029, by decide⟩,
    ⟨cachedCtx 1029 (1024 + 12) 9 8 7 live, 1029, by decide⟩,
    ⟨live, .mgmt, 1029, by decide⟩,
    ⟨cachedCtx 1029 (128 + 12) 9 8 7 live, .host, 1029, by decide, by decide, by decide, by unfold State.ctxSound; decide, by decide⟩,
    ⟨queued .granted [], .host, 5, by decide, by decide, by decide, by unfold State.ctxSound; decide, by decide⟩,
    ⟨cachedCtx 1029 (256 + 128 + 12) 9 8 7 live, 1029, by decide, by decide, by decide, by unfold State.ctxSound; decide, by decide⟩,
    ⟨cachedCtx 1029 (128 + 12) 9 8 7 live, 1029, by decide, by decide, by decide, by unfold State.ctxSound; decide, by decide⟩,
    ⟨cachedCtx 1029 (128 + 12) 9 8 7 live, 1029, by decide, by decide, by decide, by unfold State.ctxSound; decide⟩,
    ⟨cachedCtx 1029 (128 + 12) 3 (2 ^ 36 - 2) 7 live, 0xFFFFFFFFF00405, .ok, by decide, by decide, by unfold State.ctxSound; decide, by decide⟩,
    ⟨cachedCtx 1029 (128 + 12) 3 (2 ^ 36 - 2) 7 live, 0x400405, .ok, by decide, by decide, by unfold State.ctxSound; decide, by decide⟩⟩

theorem witness_RecordsOnTheirWay :
    (∃ (s : State), ∃ (q : BitVec 20), ∃ (ann : AnnResult), ∃ (r : Rec), ∃ (rs : List Rec), s.Sole r rs ∧ r.q = q.toNat ∧ r.phase = .ready ∧ r.typ ≠ 1 ∧ s.coreRuns = true ∧ s.enabled .queue = true ∧ s.quiescedAt .queue = none ∧ s.cached q.toNat = true ∧ s.ctxSound q.toNat ∧ ann ≠ .ctxCorrected ∧ ann ≠ .ctxBad ∧ (s.ctx q.toNat).halted = false ∧ (s.ctx q.toNat).on = true ∧ (s.ctx q.toNat).absent = 0 ∧ recLen r.payload.length r.meas.length + 128 ≤ 64 * (s.ctx q.toNat).free) ∧
    (∃ (s : State), ∃ (q : BitVec 20), ∃ (ann : AnnResult), ∃ (r : Rec), ∃ (rs : List Rec), s.Sole r rs ∧ r.q = q.toNat ∧ r.phase = .ready ∧ r.typ ≠ 1 ∧ s.coreRuns = true ∧ s.enabled .queue = true ∧ s.quiescedAt .queue = none ∧ s.cached q.toNat = true ∧ s.ctxSound q.toNat ∧ ann ≠ .ctxCorrected ∧ ann ≠ .ctxBad ∧ (s.ctx q.toNat).halted = false ∧ (s.ctx q.toNat).absent = 0 ∧ 64 * (s.ctx q.toNat).free < recLen r.payload.length r.meas.length + 128) ∧
    (∃ (s : State), ∃ (q : BitVec 20), ∃ (ann : AnnResult), ∃ (r : Rec), ∃ (rs : List Rec), s.Sole r rs ∧ r.q = q.toNat ∧ r.phase = .ready ∧ s.coreRuns = true ∧ s.enabled .queue = true ∧ s.quiescedAt .queue = none ∧ s.cached q.toNat = false ∧ q.toNat ∉ s.queue.fetching) ∧
    (∃ (s : State), ∃ (q : BitVec 20), ∃ (ann : AnnResult), ∃ (r : Rec), ∃ (rs : List Rec), ∃ (u : Nat), s.Sole r rs ∧ r.q = q.toNat ∧ r.phase = .waiting u ∧ r.cls ≠ 11 ∧ u + s.rd .queue R.QUEUE_CFG.full_wait * usUnits ≤ s.tim.raw ∧ s.cached q.toNat = true ∧ (s.ctx q.toNat).absent + 1 < 2 ^ 28 - 1) ∧
    (∃ (s : State), ∃ (q : BitVec 20), ∃ (r : Rec), ∃ (rs : List Rec), s.Sole r rs ∧ r.q = q.toNat ∧ r.phase = .granted ∧ r.cls ≠ 11 ∧ s.enabled .check = true ∧ s.coreRuns = true ∧ s.bufStalls r.q r.off (recLen r.payload.length r.meas.length) = false) ∧
    (∃ (s : State), ∃ (q : BitVec 20), ∃ (r : Rec), ∃ (rs : List Rec), s.Sole r rs ∧ r.q = q.toNat ∧ r.phase = .sealed ∧ s.enabled .queue = true ∧ s.coreRuns = true ∧ s.hostOutFull = false ∧ s.recNeedsFlush r = false ∧ s.cached q.toNat = true ∧ s.cqRoom (s.ctx q.toNat).cq = true ∧ (s.cqSt (s.ctx q.toNat).cq).log2n ≤ 16 ∧ s.queue.destroying = none) ∧
    (∃ (s : State), ∃ (q : BitVec 20), ∃ (r : Rec), ∃ (rs : List Rec), s.Sole r rs ∧ r.q = q.toNat ∧ r.phase = .granted ∧ s.cached q.toNat = true ∧ s.queue.destroying = none) ∧
    (∃ (s : State), ∃ (q : BitVec 20), ∃ (u : Nat), SMap.get (fun _ => none) s.queue.timers q.toNat = some u ∧ (s.ctx q.toNat).irq = true ∧ (s.ctx q.toNat).modTimer ≠ 0 ∧ (s.ctx q.toNat).unsignalled ≠ 0 ∧ u + 2 ^ ((s.ctx q.toNat).modTimer - 1) * usUnits ≤ s.tim.raw ∧ s.cached q.toNat = true) ∧
    (∃ (s : State), ∃ (q : BitVec 20), ∃ (ann : AnnResult), q.toNat ∈ s.queue.fetching ∧ (s.ways q.toNat).length < 8 ∧ s.dramOpen (s.ctxAddr q.toNat) 32 = true ∧ s.badLine (s.ctxAddr q.toNat) = false ∧ (∀ r ∈ s.queue.recs, r.q ≠ q.toNat)) ∧
    (∃ (s : State), ∃ (q : BitVec 20), ∃ (r : Rec), ∃ (rs : List Rec), s.Sole r rs ∧ r.q = q.toNat ∧ r.phase = .ready ∧ r.cls ≠ 11 ∧ s.coreRuns = true ∧ s.enabled .queue = true ∧ s.quiescedAt .queue = none ∧ s.cached q.toNat = true ∧ (s.ctx q.toNat).absent + 1 < 2 ^ 28 - 1) ∧
    (∃ (s : State), ∃ (r : Rec), ∃ (rs : List Rec), ∃ (u : Nat), s.Sole r rs ∧ s.quiescedAt .queue = some u ∧ s.coreRuns = true ∧ u + 50 * usUnits ≤ s.tim.raw ∧ r.phase = .granted ∧ r.cls ≠ 11 ∧ (∀ x ∈ rs, x.phase ≠ .granted) ∧ s.cached r.q = true) :=
  ⟨⟨queued .ready [], 5, .ok, recOf .ready, [], by unfold State.Sole; decide, by decide, by decide, by decide, by decide, by decide, by decide, by decide, by unfold State.ctxSound; decide, by decide⟩,
    ⟨cachedCtx 5 (0x100280 + 12) (2 ^ 36 + 4) (4 + 2 ^ 36 - 63) 7 (queued .ready []), 5, .ok, recOf .ready, [], by unfold State.Sole; decide, by decide, by decide, by decide, by decide, by decide, by decide, by decide, by unfold State.ctxSound; decide, by decide⟩,
    ⟨cachedCtx 6 0 0 0 0 (queued .ready []), 5, .ok, recOf .ready, [], by unfold State.Sole; decide, by decide⟩,
    ⟨{ queued (.waiting 0) [] with tim := { TimeSt.zero with raw := 2 ^ 50 } }, 5, .ok, recOf (.waiting 0), [], 0, by unfold State.Sole; decide, by decide⟩,
    ⟨queued .granted [], 5, recOf .granted, [], by unfold State.Sole; decide, by decide⟩,
    ⟨queued .sealed [(.dmaRings 0, R.CQ_CFG.enable 1, 1)], 5, recOf .sealed, [], by unfold State.Sole; decide, by decide⟩,
    ⟨queued .granted [], 5, recOf .granted, [], by unfold State.Sole; decide, by decide⟩,
    ⟨(let s := cachedCtx 5 (0x100280 + 12) (2 ^ 36 + 4 + 2 ^ 50 + 2 ^ 54) 4 7 (up [(.dmaRings 0, R.CQ_CFG.irq_enable 1, 1), (.dmaRings 0, R.CQ_CFG.vector 1, 9), (.dma, R.PCIE_STATUS.msix_enable, 1), (.dma, R.PCIE_STATUS.bus_master, 1), (.dma, R.PCIE_STATUS.function_mask, 0)]); { s with queue := { s.queue with timers := [(5, some 0)] }, tim := { TimeSt.zero with raw := 2 ^ 40 }, host := { s.host with msixTable := [(156, 0)] } }), 5, 0, by decide⟩,
    ⟨{ allServe [] with queue := { live.queue with fetching := [4, 5] } }, 5, .ok, by decide +kernel⟩,
    ⟨queued .ready [], 5, recOf .ready, [], by unfold State.Sole; decide, by decide⟩,
    ⟨{ queued .granted [] with quiesceAt := [(Blk.queue.base / 0x10000, some ⟨0, none⟩)], tim := { TimeSt.zero with raw := 2 ^ 40 } }, recOf .granted, [], 0, by unfold State.Sole; decide, by decide⟩⟩

theorem witness_RecordEngine :
    (∃ (s : State), ∃ (i : Fin 17), ∃ (d : SlotIn), ∃ (ds : List SlotIn), ∃ (a : Nat), s.recsLive i = true ∧ (s.recs[i]).slots = d :: ds ∧ (s.recs[i]).caps = [] ∧ s.flag (.records i) R.CAP_CTRL.continuous = false ∧ s.shadowing i = false ∧ d.head.length = 64 ∧ s.mem.dramBad = [] ∧ s.memReady ∧ (s.recs[i]).lost = none ∧ a = s.rd (.records i) R.CAP_RING.base / 64 * 64 + d.c % max 1 (s.rd (.records i) R.CAP_CFG.slots) * s.slotSize i) ∧
    (∃ (s : State), ∃ (i : Fin 17), s.dev ≠ .off ∧ s.dev ≠ .boot ∧ s.recsLive i = true) ∧
    (∃ (s : State), ∃ (i : Fin 17), s.dev ≠ .off ∧ s.dev ≠ .boot ∧ s.recsLive i = true ∧ (s.recs[i]).cont = none) ∧
    (∃ p, p ∈ ([.contStart, .contStop] : List (Fin 17 → Via → Instr)) ∧ ∃ (s : State), ∃ (c : Fin 17), ∃ (y : Syl), s.dev ≠ .boot ∧ s.Quiet c ∧ y.last = true ∧ s.guard0 c y = true ∧ s.recsLive c = true ∧ (s.recs[c]).cont = none) ∧
    (∃ (s : State), ∃ (c : Fin 17), ∃ (y : Syl), ∃ (r : Rec), ∃ (rs : List Rec), ∃ (u n a : Nat), s.Quiet c ∧ y.last = true ∧ s.guard0 c y = true ∧ s.Sole r rs ∧ r.prod = c.val ∧ r.phase = .held u ∧ (∀ x ∈ rs, x.prod ≠ r.prod) ∧ s.tko.pairs = [] ∧ n = ((s.cores[c]).sreg y.bn).toNat % 8192 ∧ a = 8 * (((s.cores[c]).sreg y.an).toNat % 2 ^ 20) ∧ 8 ≤ n ∧ n ≤ 4096 ∧ n % 8 = 0 ∧ recLen r.payload.length n ≤ s.recLimit c r.cls ∧ (s.cores[c]).resSince = false ∧ a + n ≤ 2 ^ 23) ∧
    (∃ (s : State), ∃ (c : Fin 17), ∃ (y : Syl), ∃ (r : Rec), ∃ (rs : List Rec), ∃ (u n : Nat), s.Quiet c ∧ y.last = true ∧ s.guard0 c y = true ∧ s.Sole r rs ∧ r.prod = c.val ∧ r.phase = .held u ∧ (∀ x ∈ rs, x.prod ≠ r.prod) ∧ s.tko.pairs = [] ∧ n = ((s.cores[c]).sreg y.bn).toNat % 8192 ∧ (n < 8 ∨ 4096 < n ∨ n % 8 ≠ 0 ∨ s.recLimit c r.cls < recLen r.payload.length n) ∧ (s.cores[c]).resSince = false) ∧
    (∃ (s : State), ∃ (c : Fin 17), ∃ (y : Syl), ∃ (r : Rec), ∃ (rs : List Rec), ∃ (u : Nat), s.Quiet c ∧ y.last = true ∧ s.guard0 c y = true ∧ s.Sole r rs ∧ r.prod = c.val ∧ r.phase = .held u ∧ (∀ x ∈ rs, x.prod ≠ r.prod) ∧ s.tko.pairs = []) ∧
    (∃ (s : State), ∃ (i : Fin 17), ∃ (r : Rec), ∃ (rs : List Rec), ∃ (u : Nat), s.Sole r rs ∧ r.prod = i.val ∧ r.phase = .held u ∧ (∀ x ∈ rs, x.prod ≠ r.prod) ∧ s.tko.pairs = [] ∧ s.recsLive i = true ∧ s.measExpired i r = true) ∧
    (∃ p, p ∈ ([.append, .skip] : List (Fin 17 → Syl → Instr)) ∧ ∃ (s : State), ∃ (c : Fin 17), ∃ (y : Syl), s.Quiet c ∧ y.last = true ∧ s.guard0 c y = true ∧ s.heldOf c = []) :=
  ⟨⟨(allServe [on (.records 0), (.core 0, R.SLICE_MODE.mode, 1), (.records 0, R.CAP_CFG.slots, 2), (.records 0, R.CAP_RING.base, 0x1000)]).setRecs 0 { RecSt.zero with slots := [⟨3, 12288, 0, List.replicate 64 1, List.replicate 40 2, [], [], 0, 0, 0, 0⟩] }, 0, ⟨3, 12288, 0, List.replicate 64 1, List.replicate 40 2, [], [], 0, 0, 0, 0⟩, [], _, by decide +kernel, by decide +kernel, by decide +kernel, by decide +kernel, by decide +kernel, by decide +kernel, by decide +kernel, by unfold State.memReady; decide +kernel, by decide +kernel, rfl⟩,
    ⟨up [on (.records 0)], 0, by decide⟩,
    ⟨up [on (.records 0), (.records 0, R.CAP_CTRL.continuous, 1)], 0, by decide⟩,
    ⟨_, List.getElem_mem (l := ([.contStart, .contStop] : List (Fin 17 → Via → Instr))) (n := 0) (by decide), pokes [on (.records 0)] core, 0, syl, by decide, by unfold State.Quiet; decide, by decide⟩,
    ⟨((queued (.held 3) [on (.core 0), (.core 0, R.CORE_STATUS.state, 1), (.records 0, R.REC_CFG.rec_max_log2, 12), (.records 0, R.REC_CLASS.queue 2, 5)]).setCore 0 regs).setSram (.lmem 0) [(513, 7)] [], 0, ⟨0, 2, 5, 0, true, false⟩, recOf (.held 3), [], 3, _, _, by unfold State.Quiet; decide, by decide, by decide, by unfold State.Sole; decide, by decide, by decide, by decide, by decide, rfl, rfl, by decide⟩,
    ⟨(queued (.held 3) [on (.core 0), (.core 0, R.CORE_STATUS.state, 1)]).setCore 0 regs, 0, ⟨0, 2, 3, 0, true, false⟩, recOf (.held 3), [], 3, _, by unfold State.Quiet; decide, by decide, by decide, by unfold State.Sole; decide, by decide, by decide, by decide, by decide, rfl, by decide⟩,
    ⟨(queued (.held 3) [on (.core 0), (.core 0, R.CORE_STATUS.state, 1)]).setCore 0 regs, 0, ⟨0, 2, 3, 0, true, false⟩, recOf (.held 3), [], 3, by unfold State.Quiet; decide, by decide, by decide, by unfold State.Sole; decide, by decide⟩,
    ⟨{ queued (.held 3) [(.clocks, R.CLK_CORE.freq, 4000)] with tim := { TimeSt.zero with raw := 2 ^ 50 } }, 0, recOf (.held 3), [], 3, by unfold State.Sole; decide, by decide⟩,
    ⟨Instr.append, by simp, core, 0, syl, by unfold State.Quiet; decide, by decide⟩⟩

theorem witness_ChanneliserControl :
    (∃ (s : State), ∃ (i : Fin 17), s.dev ≠ .off ∧ s.dev ≠ .boot ∧ 8 * s.rd .chan (R.CHAN_SEL.stage_laddr i) + s.chanM i / 8 ≤ 2 ^ 23) ∧
    (∃ (s : State), ∃ (i : Fin 17), s.dev ≠ .off ∧ s.dev ≠ .boot ∧ 2 ^ 23 < 8 * s.rd .chan (R.CHAN_SEL.stage_laddr i) + s.chanM i / 8) ∧
    (∃ (s : State), ∃ (c : Fin 17), ∃ (y : Syl), s.dev ≠ .off ∧ s.dev ≠ .boot ∧ s.Quiet c ∧ y.last = true ∧ s.guard0 c y = true ∧ 8 * s.rd .chan (R.CHAN_SEL.stage_laddr c) + s.chanM c / 8 ≤ 2 ^ 23) ∧
    (∃ (s : State), ∃ (c : Fin 17), ∃ (y : Syl), s.Quiet c ∧ y.last = true ∧ s.guard0 c y = true ∧ 8 * (((s.cores[c]).sreg y.an).toNat % 2 ^ 20) + s.chanM c / 8 ≤ 2 ^ 23) ∧
    (∃ (s : State), ∃ (c : Fin 17), ∃ (y : Syl), s.Quiet c ∧ y.last = true ∧ s.guard0 c y = true ∧ 2 ^ 23 < 8 * (((s.cores[c]).sreg y.an).toNat % 2 ^ 20) + s.chanM c / 8) ∧
    (∃ (s : State), ∃ (i : Fin 17), ∃ (v : BitVec 64), s.dev ≠ .off ∧ s.dev ≠ .boot ∧ s.enabled (.filt i) = false) ∧
    (∃ (s : State), ∃ (i : Fin 17), ∃ (v : BitVec 64), s.enabled (.filt i) = true) ∧
    (∃ (s : State), ∃ (i : Fin 17), (s.chans[i]).making = true) :=
  ⟨⟨live, 16, by decide⟩,
    ⟨up [(.chan, R.CHAN_CFG.log2m 16, 10), (.chan, R.CHAN_SEL.stage_laddr 16, 2 ^ 20 - 1)], 16, by decide⟩,
    ⟨core, 0, syl, by decide, by decide, by unfold State.Quiet; decide, by decide⟩,
    ⟨core, 0, syl, by unfold State.Quiet; decide, by decide⟩,
    ⟨pokes [(.chan, R.CHAN_CFG.log2m 0, 10)] core, 0, ⟨0, 3, 0, 0, true, false⟩, by unfold State.Quiet; decide, by decide⟩,
    ⟨live, 16, 0xFFFFFFFFFFFFFFFF, by decide⟩,
    ⟨up [on (.filt 0)], 0, 0, by decide⟩,
    ⟨live.setChan 0 { ChanSt.zero with making := true }, 0, by decide⟩⟩

theorem witness_SynthesisControl :
    (∃ (s : State), ∃ (i : Fin 17), s.dev ≠ .off ∧ s.dev ≠ .boot ∧ s.synLive i = true ∧ s.mode i = 3 ∧ (s.synState i = 0 ∨ s.synState i = 3) ∧ s.tim.now + 20 * usUnits ≤ ofT96 (s.rdT96 (.records i) R.SYN_START_T96.lo)) ∧
    (∃ (s : State), ∃ (i : Fin 17), s.dev ≠ .off ∧ s.dev ≠ .boot ∧ s.synLive i = true ∧ s.mode i = 3 ∧ (s.synState i = 0 ∨ s.synState i = 3) ∧ ofT96 (s.rdT96 (.records i) R.SYN_START_T96.lo) < s.tim.now + 20 * usUnits) ∧
    (∃ (s : State), ∃ (c : Fin 17), ∃ (y : Syl), s.dev ≠ .off ∧ s.dev ≠ .boot ∧ s.Quiet c ∧ y.last = true ∧ s.guard0 c y = true ∧ s.synLive c = true ∧ s.mode c = 3 ∧ (s.synState c = 0 ∨ s.synState c = 3) ∧ s.tim.now + 20 * usUnits ≤ ofT96 (s.rdT96 (.records c) R.SYN_START_T96.lo)) ∧
    (∃ (s : State), ∃ (i : Fin 17), s.synLive i = true ∧ s.synState i = 1 ∧ s.releaseDue i 0 = true ∧ s.emitFull i = false ∧ (s.syns[i]).stopAt = none ∧ s.flag (.records i) R.SYN_CFG.loop = false) ∧
    (∃ (s : State), ∃ (i : Fin 17), s.dev ≠ .off ∧ s.dev ≠ .boot ∧ s.synLive i = true ∧ s.synState i = 1) ∧
    (∃ (s : State), ∃ (i : Fin 17), s.dev ≠ .off ∧ s.dev ≠ .boot ∧ s.synLive i = true ∧ s.synState i = 2 ∧ s.mode i = 3) ∧
    (∃ (s : State), ∃ (c : Fin 17), ∃ (y : Syl), s.dev ≠ .off ∧ s.dev ≠ .boot ∧ s.Quiet c ∧ y.last = true ∧ s.guard0 c y = true ∧ s.synLive c = true ∧ s.synState c = 1) ∧
    (∃ (s : State), ∃ (i : Fin 17), s.dev ≠ .off ∧ s.dev ≠ .boot) ∧
    (∃ (s : State), ∃ (c : Fin 17), ∃ (y : Syl), s.dev ≠ .off ∧ s.dev ≠ .boot ∧ s.Quiet c ∧ y.last = true ∧ s.guard0 c y = true) ∧
    (∃ (s : State), ∃ (c : Fin 17), ∃ (y : Syl), ∃ (v : Nat), s.Quiet c ∧ y.last = true ∧ s.guard0 c y = true ∧ ((s.syns[c]).frames).length < 4 ∧ v = ((s.cores[c]).sreg y.an).toNat) ∧
    (∃ (s : State), ∃ (c : Fin 17), ∃ (y : Syl), s.Quiet c ∧ y.last = true ∧ s.guard0 c y = true ∧ 4 ≤ ((s.syns[c]).frames).length) :=
  ⟨⟨synth 3 [], 0, by decide⟩,
    ⟨{ synth 3 [] with tim := { TimeSt.zero with now := 2 ^ 64 } }, 0, by decide⟩,
    ⟨(synth 3 [on (.core 0), (.core 0, R.CORE_STATUS.state, 1)]).setCore 0 regs, 0, syl, by decide, by decide, by unfold State.Quiet; decide, by decide⟩,
    ⟨synth 1 [], 0, by decide⟩,
    ⟨synth 1 [(.records 0, R.SYN_CTRL.start, 1)], 0, by decide⟩,
    ⟨synth 2 [(.records 0, R.SYN_INDEX.index, 4097)], 0, by decide⟩,
    ⟨(synth 1 [on (.core 0), (.core 0, R.CORE_STATUS.state, 1)]).setCore 0 regs, 0, syl, by decide, by decide, by unfold State.Quiet; decide, by decide⟩,
    ⟨live, 16, by decide⟩,
    ⟨core, 0, syl, by decide, by decide, by unfold State.Quiet; decide, by decide⟩,
    ⟨core, 0, ⟨0, 3, 0, 0, true, false⟩, _, by unfold State.Quiet; decide, by decide, by decide, by decide, rfl⟩,
    ⟨core.setSyn 0 { SynSt.zero with frames := List.replicate 4 ⟨0, 1, 0⟩ }, 0, syl, by unfold State.Quiet; decide, by decide⟩⟩

theorem witness_SynthesisOutput :
    (∃ (s : State), ∃ (i : Fin 17), ∃ (q : SynFrames), ∃ (qs : List SynFrames), s.synLive i = true ∧ s.mode i = 3 ∧ s.synSrc i = 1 ∧ (s.synState i = 1 ∨ s.synState i = 2) ∧ (s.syns[i]).frames = q :: qs ∧ q.left = 1) ∧
    (∃ (s : State), ∃ (i : Fin 17), s.synLive i = true ∧ s.mode i = 3 ∧ s.synSrc i = 1 ∧ (s.synState i = 1 ∨ s.synState i = 2) ∧ (s.syns[i]).frames = []) ∧
    (∃ (s : State), ∃ (i : Fin 17), ∃ (p : SynSmp), ∃ (ps : List SynSmp), ∃ (g : Fin 16), ∃ (k : Fin 5), s.synLive i = true ∧ s.mode i = 3 ∧ s.synSrc i = 0 ∧ s.synState i = 2 ∧ s.releaseDue i (s.synNext i) = true ∧ s.emitFull i = false ∧ (s.syns[i]).stopAt = none ∧ s.flag (.records i) R.SYN_CFG.loop = false ∧ s.synNext i ≠ (s.syns[i]).base ∧ s.synNext i % 4096 ≠ 0 ∧ (s.syns[i]).pb = p :: ps ∧ (s.syns[i]).pbFrom = s.synNext i ∧ p.bad = none ∧ (s.syns[i]).fcw = 0 ∧ (s.syns[i]).routes = [(g.val, k.val)]) ∧
    (∃ (s : State), ∃ (i : Fin 17), ∃ (p : SynSmp), ∃ (ps : List SynSmp), ∃ (g : Fin 16), ∃ (k : Fin 5), s.synLive i = true ∧ s.mode i = 3 ∧ s.synSrc i = 0 ∧ s.synState i = 2 ∧ s.releaseDue i (s.synNext i) = true ∧ s.emitFull i = false ∧ (s.syns[i]).stopAt = none ∧ s.flag (.records i) R.SYN_CFG.loop = false ∧ s.synNext i ≠ (s.syns[i]).base ∧ s.synNext i % 4096 ≠ 0 ∧ (s.syns[i]).pb = p :: ps ∧ (s.syns[i]).pbFrom = s.synNext i ∧ p.bad = some 0 ∧ (s.syns[i]).routes = [(g.val, k.val)]) ∧
    (∃ (s : State), ∃ (i : Fin 17), ∃ (n : Nat), s.synLive i = true ∧ s.mode i = 3 ∧ s.synState i = 2 ∧ s.releaseDue i (s.synNext i) = true ∧ s.emitFull i = false ∧ (s.syns[i]).stopAt = some n ∧ s.flag (.records i) R.SYN_CFG.loop = false ∧ n ≤ s.synNext i) ∧
    (∃ (s : State), ∃ (i : Fin 17), ∃ (n : Nat), s.synLive i = true ∧ s.mode i = 3 ∧ s.synSrc i ≠ 1 ∧ (s.synState i = 1 ∨ s.synState i = 2) ∧ s.pbOpen i = true ∧ s.flag (.records i) R.SYN_CFG.loop = false ∧ n = (s.syns[i]).pbFrom + ((s.syns[i]).pb).length) ∧
    (∃ (s : State), ∃ (i : Fin 17), ∃ (n : Nat), s.synLive i = true ∧ s.mode i = 3 ∧ s.synSrc i ≠ 1 ∧ (s.synState i = 1 ∨ s.synState i = 2) ∧ s.pbOpen i = true ∧ s.flag (.records i) R.SYN_CFG.loop = true ∧ s.rd (.records i) R.PB_LOOP.loop_len ≠ 0 ∧ s.rd (.records i) R.PB_LOOP.loop_count = 0 ∧ n = (s.syns[i]).pbFrom + ((s.syns[i]).pb).length ∧ s.pbFault i n (4096 - n % 4096) = none) ∧
    (∃ (s : State), ∃ (i : Fin 17), ∃ (v : BitVec 36), s.dev ≠ .off ∧ s.dev ≠ .boot ∧ s.flag (.records i) R.SYN_CFG.loop = false ∧ (s.rd (.records i) R.PB_DOORBELL.produced + 2 ^ 36 - s.rd (.records i) R.PB_CONSUMED.consumed) % 2 ^ 36 ≤ (v.toNat + 2 ^ 36 - s.rd (.records i) R.PB_CONSUMED.consumed) % 2 ^ 36 ∧ (v.toNat + 2 ^ 36 - s.rd (.records i) R.PB_CONSUMED.consumed) % 2 ^ 36 ≤ 2 ^ (s.rd (.records i) R.PB_BASE.log2size - 6)) ∧
    (∃ (s : State), ∃ (i : Fin 17), ∃ (v : BitVec 36), s.dev ≠ .off ∧ s.dev ≠ .boot ∧ s.flag (.records i) R.SYN_CFG.loop = false ∧ ((v.toNat + 2 ^ 36 - s.rd (.records i) R.PB_CONSUMED.consumed) % 2 ^ 36 < (s.rd (.records i) R.PB_DOORBELL.produced + 2 ^ 36 - s.rd (.records i) R.PB_CONSUMED.consumed) % 2 ^ 36 ∨ 2 ^ (s.rd (.records i) R.PB_BASE.log2size - 6) < (v.toNat + 2 ^ 36 - s.rd (.records i) R.PB_CONSUMED.consumed) % 2 ^ 36)) ∧
    (∃ (s : State), ∃ (i : Fin 17), ∃ (v : BitVec 36), s.flag (.records i) R.SYN_CFG.loop = true) :=
  ⟨⟨(synth 2 [(.records 0, R.SYN_CFG.src, 1)]).setSyn 0 { SynSt.zero with frames := [⟨64, 1, 2⟩, ⟨0, 1, 0⟩] }, 0, ⟨64, 1, 2⟩, [⟨0, 1, 0⟩], by decide⟩,
    ⟨synth 2 [(.records 0, R.SYN_CFG.src, 1)], 0, by decide⟩,
    ⟨(released [(.records 0, R.SYN_INDEX.index, 5)]).setSyn 0 { SynSt.zero with pb := [⟨500, -70, false, none⟩], pbFrom := 5, routes := [(15, 4)], outGain := 98304 }, 0, ⟨500, -70, false, none⟩, [], 15, 4, by decide⟩,
    ⟨(released [(.records 0, R.SYN_INDEX.index, 5)]).setSyn 0 { SynSt.zero with pb := [⟨500, -70, false, some 0⟩], pbFrom := 5, routes := [(15, 4)] }, 0, ⟨500, -70, false, some 0⟩, [], 15, 4, by decide⟩,
    ⟨(released [(.records 0, R.SYN_INDEX.index, 4096), (.records 0, R.SYN_CTRL.stop, 1)]).setSyn 0 { SynSt.zero with stopAt := some 4096, pb := [⟨500, -70, false, some 0⟩] }, 0, 4096, by decide⟩,
    ⟨(synth 2 []).setSyn 0 { SynSt.zero with pb := [⟨500, -70, false, none⟩], pbFrom := 4090 }, 0, _, by decide, by decide, by decide, by decide, by decide, by decide, rfl⟩,
    ⟨(synth 2 [(.records 0, R.SYN_CFG.loop, 1), (.records 0, R.PB_LOOP.loop_len, 10)]).setSyn 0 { SynSt.zero with pbFrom := 8190 }, 0, _, by decide, by decide, by decide, by decide, by decide, by decide, by decide, by decide, rfl, by decide⟩,
    ⟨up [(.records 0, R.PB_CONSUMED.consumed, 2 ^ 36 - 1), (.records 0, R.PB_BASE.log2size, 12)], 0, 3, by decide⟩,
    ⟨up [(.records 0, R.PB_CONSUMED.consumed, 2 ^ 36 - 1), (.records 0, R.PB_BASE.log2size, 12)], 0, 64, by decide⟩,
    ⟨up [(.records 0, R.SYN_CFG.loop, 1)], 0, 0, by decide⟩⟩

theorem witness_PlacementEngine :
    (∃ (s : State), s.dev ≠ .off ∧ s.dev ≠ .boot ∧ s.flag .placement R.PL_CTRL.go = false ∧ s.plIdle = true ∧ s.causes = []) ∧
    (∃ (s : State), ∃ (e : Nat), ∃ (c : Nat), s.dev ≠ .off ∧ s.dev ≠ .boot ∧ s.flag .placement R.PL_CTRL.go = false ∧ s.plIdle = true ∧ s.causes = [] ∧ s.pl.order = [] ∧ s.toEvaluate 1 = [e] ∧ s.toEvaluate 2 = [] ∧ s.toEvaluate 3 = [] ∧ s.streamSound e = true ∧ s.linkCarries e = true ∧ s.freeContext = some c ∧ s.enabled .check = true) ∧
    (∃ (s : State), ∃ (e : Nat), s.dev ≠ .off ∧ s.dev ≠ .boot ∧ s.flag .placement R.PL_CTRL.go = false ∧ s.plIdle = true ∧ s.causes = [] ∧ s.pl.order = [] ∧ s.toEvaluate 1 = [e] ∧ s.toEvaluate 2 = [] ∧ s.toEvaluate 3 = [] ∧ s.streamSound e = false) ∧
    (∃ (s : State), ∃ (e n q : Nat), s.dev ≠ .off ∧ s.dev ≠ .boot ∧ s.flag .placement R.PL_CTRL.go = false ∧ s.plIdle = true ∧ s.causes = [] ∧ s.pl.order = [] ∧ s.toEvaluate 1 = [] ∧ s.toEvaluate 2 = [] ∧ s.toEvaluate 3 = [e] ∧ n = nbits (s.declWord e 2) 12 0 ∧ 1 ≤ n ∧ n ≤ 4096 ∧ s.declWord e 1 % 4096 = 0 ∧ (∀ i < n, ctxAlignOk (s.destWord0 e i) = true) ∧ s.enabled .check = true ∧ s.enabled .queue = true ∧ freeRun n s.queuesOn = some q) ∧
    (∃ (s : State), ∃ (e : Nat), s.dev ≠ .off ∧ s.dev ≠ .boot ∧ s.flag .placement R.PL_CTRL.go = false ∧ s.plIdle = true ∧ s.causes = [] ∧ s.pl.order = [] ∧ s.toEvaluate 1 = [] ∧ s.toEvaluate 2 = [e] ∧ s.toEvaluate 3 = [] ∧ s.freeSlices e = []) ∧
    (∃ p, p ∈ ([(.submit, 1)] ++ (List.finRange 128).flatMap (fun e => [(.withdraw e, 2), (.update e, 3)]) : List (Instr × Nat)) ∧ ∃ (s : State), s.dev ≠ .off ∧ s.dev ≠ .boot ∧ s.flag .placement R.PL_CTRL.go = false ∧ (s.plIdle = false ∨ s.causes ≠ [])) ∧
    (∃ (s : State), ∃ (e : Fin 128), s.dev ≠ .off ∧ s.dev ≠ .boot ∧ s.flag .placement R.PL_CTRL.go = false ∧ s.plIdle = true ∧ s.causes = [] ∧ (s.declState e = 0 ∨ s.declState e = 5)) ∧
    (∃ (s : State), ∃ (e : Fin 128), s.dev ≠ .off ∧ s.dev ≠ .boot ∧ s.flag .placement R.PL_CTRL.go = false ∧ s.plIdle = true ∧ s.causes = [] ∧ s.declState e = 4 ∧ s.referenced e = false) ∧
    (∃ (s : State), ∃ (e : Fin 128), s.dev ≠ .off ∧ s.dev ≠ .boot ∧ s.flag .placement R.PL_CTRL.go = false ∧ s.plIdle = true ∧ s.causes = [] ∧ s.declKind e = 3 ∧ s.declState e = 1 ∧ s.referenced e = false ∧ s.tko.pairs = [] ∧ s.destIdle e = true) ∧
    (∃ (s : State), ∃ (e : Fin 128), s.dev ≠ .off ∧ s.dev ≠ .boot ∧ s.flag .placement R.PL_CTRL.go = false ∧ s.plIdle = true ∧ s.causes = [] ∧ s.declKind e ≠ 2) ∧
    (∃ (s : State), ∃ (e : Fin 128), ∃ (is ins : List Nat), s.dev ≠ .off ∧ s.dev ≠ .boot ∧ s.flag .placement R.PL_CTRL.go = false ∧ s.plIdle = true ∧ s.causes = [] ∧ s.declKind e = 2 ∧ (s.declState e = 1 ∨ s.declState e = 2) ∧ s.imageStatus (s.imageBytes (s.flag .placement R.PL_ARG2.img_target, s.rd .placement R.PL_ARG.image, s.rd .placement R.PL_ARG2.length)) = 0 ∧ is = s.declSlices e ∧ ins = s.standIns e is.length false ∧ ins.length = is.length) ∧
    (∃ (s : State), s.coreRuns = false) ∧
    (∃ (s : State), ∃ (e : Nat), s.coreRuns = true ∧ s.enabled .placement = true ∧ s.tko.fault = none ∧ s.pl.jobs = [] ∧ s.pl.order = [] ∧ s.causes = [⟨9, e⟩]) ∧
    (∃ (s : State), ∃ (e : Fin 128), s.tko.fault = none ∧ s.plIdle = true ∧ s.causes = [] ∧ s.flag .placement R.PL_CTRL.go = true ∧ s.rd .placement R.PL_CTRL.last_status = 1 ∧ s.rd .placement R.PL_CTRL.op = 2 ∧ s.rd .placement R.PL_CTRL.entry = e.val ∧ s.declState e = 4 ∧ s.referenced e = false) ∧
    (∃ (s : State), ∃ (c : Fin 8), ∃ (e : Fin 128), s.coreRuns = true ∧ s.enabled .placement = true ∧ s.tko.fault = none ∧ s.pl.jobs = [] ∧ s.causes = [⟨4, c.val⟩] ∧ s.pl.order = [e.val] ∧ s.declState e = 1 ∧ s.declBest e = true ∧ s.allFit = false) :=
  ⟨⟨placing [] [], by decide⟩,
    ⟨placing [(0, 1), (1, 1000000)] [(.rxg 0, R.RXG_STATUS.active_mask, 0x7FFF)], 5, 0, by decide +kernel⟩,
    ⟨placing [(0, 1), (1, 0)] [], 5, by decide⟩,
    ⟨placing [(0, 3 + 12 * 2 ^ 17), (1, 0x4000), (2, 4)] [on .queue], 5, _, 0, by decide, by decide, by decide, by decide, by decide, by decide, by decide, by decide, by decide, rfl, by decide⟩,
    ⟨placing [(0, 2)] ((List.range 17).map (fun i => (.core i, R.SLICE_MODE.role, 2))), 5, by decide +kernel⟩,
    ⟨_, List.getElem_mem (l := ([(.submit, 1)] ++ (List.finRange 128).flatMap (fun e => [(.withdraw e, 2), (.update e, 3)]) : List (Instr × Nat))) (n := 256) (by decide +kernel), { placing [] [] with causes := [⟨9, 1⟩] }, by decide +kernel⟩,
    ⟨placing [] [], 5, by decide⟩,
    ⟨placing [(0, 4 * 256)] [], 5, by decide⟩,
    ⟨placing [(0, 3 + 256), (2, 1)] [], 5, by decide⟩,
    ⟨placing [(0, 3 + 256), (2, 1)] [], 5, by decide⟩,
    ⟨(let s := placing [(0, 2 + 256)] [(.placement, R.PL_ARG2.length, 48), (.placement, R.PL_SLICE.placed 3, 1), (.placement, R.PL_SLICE.entry 3, 5)]; { s with host := { s.host with mem := memWrite s.host.mem 0 progImg } }), 5, _, _, by decide +kernel, by decide +kernel, by decide +kernel, by decide +kernel, by decide +kernel, by decide +kernel, by decide +kernel, by decide +kernel, rfl, rfl, by decide +kernel⟩,
    ⟨State.reset, by decide⟩,
    ⟨{ placing [] [] with causes := [⟨9, 5⟩] }, 5, by decide⟩,
    ⟨placing [(0, 4 * 256)] [(.placement, R.PL_CTRL.go, 1), (.placement, R.PL_CTRL.last_status, 1), (.placement, R.PL_CTRL.op, 2), (.placement, R.PL_CTRL.entry, 5)], 5, by decide⟩,
    ⟨(let s := placing [(0, 2 + 4 + 256)] []; { s with causes := [⟨4, 7⟩], pl := { s.pl with order := [5], need := [⟨5, 1, 0, 0⟩] } }), 7, 5, by decide +kernel⟩⟩

theorem witness_Calibration :
    (∃ (s : State), ∃ (i : Fin 17), s.flag .placement R.CAL_CFG.auto_cal = true ∧ s.calClear = true ∧ s.role i = 1 ∧ s.placed i = false ∧ (∀ j : Fin 17, j < i → s.role j ≠ 1) ∧ s.rd .placement (R.CAL_SET.state i) = 2) ∧
    (∃ (s : State), s.flag .placement R.CAL_CFG.auto_cal = false) ∧
    (∃ (s : State), ∃ (i : Fin 17), ∃ (u : Nat), s.cal.retry = [(i.val, u)] ∧ u + 60 * s.rd .placement R.CAL_CFG.cal_retry * secUnits ≤ s.tim.raw ∧ s.placed i = true ∧ s.role i = 0) ∧
    (∃ (s : State), ∃ (k : BitVec 5), s.dev ≠ .off ∧ s.dev ≠ .boot ∧ s.flag .placement R.CAL_CTRL.go = false ∧ (17 ≤ k.toNat ∨ s.role k.toNat = 2)) ∧
    (∃ (s : State), ∃ (k : BitVec 5), s.dev ≠ .off ∧ s.dev ≠ .boot ∧ s.flag .placement R.CAL_CTRL.go = false ∧ k.toNat < 17 ∧ s.role k.toNat = 1 ∧ s.placed k.toNat = false ∧ s.flag .placement (R.CAL_SET.unconvergent k.toNat) = false ∧ s.calClear = true) ∧
    (∃ (s : State), s.dev ≠ .off ∧ s.dev ≠ .boot ∧ (s.tkoPhase = 1 ∨ s.tkoPhase = 2 ∨ s.tkoPhase = 3) ∧ s.rd .placement R.TKO_STATUS.cause = 2) ∧
    (∃ (s : State), s.dev ≠ .off ∧ s.dev ≠ .boot ∧ (s.tkoPhase = 1 ∨ s.tkoPhase = 2 ∨ s.tkoPhase = 3) ∧ s.rd .placement R.TKO_STATUS.cause = 1) ∧
    (∃ (s : State), ∃ (a b : Fin 17), s.coreRuns = true ∧ s.tkoPhase = 1 ∧ s.tko.pairs = [(a.val, b.val)]) ∧
    (∃ (s : State), s.rd .placement R.TKO_STATUS.cause = 1 ∧ (s.tkoPhase = 2 ∨ s.tkoPhase = 3) ∧ s.tko.joinAt + max 1 (s.rd .placement R.CAL_CFG.shadow_limit) * (100 * msUnits) ≤ s.tim.raw) ∧
    (∃ (s : State), ∃ (k : Fin 17), ∃ (r : GatherResult), s.cal.slice = some k.val ∧ s.cal.toFree = false ∧ (s.spare = none ∨ s.spare = some k.val) ∧ (∀ n < 12, 24 ≤ (widestRun 128 (r.sweeps.getD n 0).toNat).2)) ∧
    (∃ (s : State), ∃ (k : Fin 17), ∃ (r : GatherResult), ∃ (x : Fin 6), s.cal.slice = some k.val ∧ (∃ n < 12, (widestRun 128 (r.sweeps.getD n 0).toNat).2 < 24)) ∧
    (∃ (s : State), ∃ (i : Fin 17), ∃ (ds : List Int), s.flag .placement R.CAL_CFG.track_enable = true ∧ s.role i = 0 ∧ s.cal.slice ≠ some i.val ∧ s.inJob i = false ∧ (s.rd .placement (R.CAL_SET.state i) = 1 ∨ s.rd .placement (R.CAL_SET.state i) = 2) ∧ s.coreRuns = true ∧ s.placed i = true ∧ SMap.get (fun _ => none) s.cal.track i.val = none) ∧
    (∃ (s : State), ∃ (k : Fin 25), k.val < 17 ∧ SMap.get (fun _ => 0) s.cal.readAt (2 * k.val) + secUnits ≤ s.tim.raw ∧ s.rd .placement (R.CAL_SET.state k) = 1) ∧
    (∃ (s : State), ∃ (k : Fin 25), ∃ (c : Fin 8), k.val = 17 + c.val ∧ SMap.get (fun _ => 0) s.cal.readAt (2 * k.val) + secUnits ≤ s.tim.raw ∧ (s.rd (.dram c) R.DRAM_STATUS.state = 2 ∨ s.rd (.dram c) R.DRAM_STATUS.state = 3)) :=
  ⟨⟨calibrating [(.core 16, R.SLICE_MODE.role, 1), (.placement, R.CAL_SET.state 16, 2)], 16, by decide +kernel⟩,
    ⟨calibrating [(.placement, R.CAL_CFG.auto_cal, 0), (.core 16, R.SLICE_MODE.role, 1), (.placement, R.CAL_SET.state 16, 2)], by decide⟩,
    ⟨{ timed (2 ^ 60) [on .placement, (.placement, R.PL_SLICE.placed 3, 1)] with cal := { CalSt.zero with retry := [(3, 0)] } }, 3, 0, by decide⟩,
    ⟨live, 17, by decide⟩,
    ⟨calibrating [(.core 16, R.SLICE_MODE.role, 1)], 16, by decide⟩,
    ⟨up [(.placement, R.TKO_STATUS.phase, 2), (.placement, R.TKO_STATUS.cause, 2)], by decide⟩,
    ⟨{ up [(.placement, R.TKO_STATUS.phase, 2), (.placement, R.TKO_STATUS.cause, 1)] with tko := { TkoSt.zero with pairs := [(3, 16)] } }, by decide⟩,
    ⟨{ up [(.placement, R.TKO_STATUS.phase, 1)] with tko := { TkoSt.zero with pairs := [(3, 16)] } }, 3, 16, by decide⟩,
    ⟨{ timed (2 ^ 60) [(.placement, R.TKO_STATUS.phase, 2), (.placement, R.TKO_STATUS.cause, 1)] with tko := { TkoSt.zero with pairs := [(3, 16)] } }, by decide⟩,
    ⟨{ calibrating [on (.core 16)] with cal := { CalSt.zero with slice := some 16 } }, 16, gathered true, by decide +kernel, by decide +kernel, by decide +kernel, (by decide +kernel)⟩,
    ⟨{ calibrating [on (.core 16)] with cal := { CalSt.zero with slice := some 16 } }, 16, gathered false, 5, by decide +kernel, ⟨11, by decide, by decide⟩⟩,
    ⟨calibrating [(.placement, R.PL_SLICE.placed 3, 1), (.placement, R.CAL_SET.state 3, 1)], 3, [5, -4, 0], by decide⟩,
    ⟨timed (2 ^ 60) [(.placement, R.CAL_SET.state 16, 1)], 16, by decide⟩,
    ⟨timed (2 ^ 60) [(.dram 7, R.DRAM_STATUS.state, 2)], 24, 7, by decide⟩⟩

theorem witness_References :
    (∃ (s : State), ∃ (n x : Nat), s.wedged .timebase = false ∧ (s.rd .timebase R.TB_CFG.ref_sel = 1 ∧ x = 131072 ∨ s.rd .timebase R.TB_CFG.ref_sel = 2 ∧ x = 1310720) ∧ ((n : Int) * 10 - x).natAbs * 1000 ≤ x) ∧
    (∃ (s : State), ∃ (n x : Nat), s.wedged .timebase = false ∧ (s.rd .timebase R.TB_CFG.ref_sel = 1 ∧ x = 131072 ∨ s.rd .timebase R.TB_CFG.ref_sel = 2 ∧ x = 1310720) ∧ x < ((n : Int) * 10 - x).natAbs * 1000 ∧ s.flag .timebase R.TB_STATUS.ref_present = true) ∧
    (∃ (s : State), s.wedged .timebase = false ∧ s.flag .timebase R.TB_STATUS.ref_present = true) ∧
    (∃ (s : State), ∃ (err corr : Int), s.enabled .timebase = true ∧ s.flag .timebase R.TB_STATUS.ref_present = true ∧ s.timeRuns = true ∧ s.flag .timebase R.TB_STATUS.ref_locked = false ∧ s.tim.lockMs = 63 ∧ err.natAbs ≤ 65536 ∧ s.quality = 0) ∧
    (∃ (s : State), ∃ (err corr : Int), s.enabled .timebase = true ∧ s.flag .timebase R.TB_STATUS.ref_present = true ∧ s.timeRuns = true ∧ s.flag .timebase R.TB_STATUS.ref_locked = true ∧ 655360 < err.natAbs) ∧
    (∃ (s : State), ∃ (err corr : Int), s.enabled .timebase = false ∧ s.wedged .timebase = false ∧ s.quality = 3 ∧ s.flag .timebase R.TB_STATUS.ref_locked = false) ∧
    (∃ (s : State), ∃ (falling : Bool), ∃ (k : Fin 512), s.edgeMerges 6 falling k = false ∧ s.enabled .timebase = true ∧ s.flag .timebase R.TB_CFG.pps_enable = true ∧ s.timeRuns = true ∧ (s.tim.interp[6]).hits.isSome = true ∧ s.flag .timebase R.TB_CFG.pps_edge = falling ∧ s.tim.ppsLast = none ∧ s.flag .timebase R.TB_CTRL.load = false ∧ s.flag .timebase R.TB_STATUS.time_loaded = false) ∧
    (∃ (s : State), ∃ (falling : Bool), ∃ (k : Fin 512), s.edgeMerges 6 falling k = false ∧ s.enabled .timebase = true ∧ s.flag .timebase R.TB_CFG.pps_enable = true ∧ s.timeRuns = true ∧ (s.tim.interp[6]).hits.isSome = true ∧ s.flag .timebase R.TB_CFG.pps_edge = falling ∧ s.ppsEarly (s.edgeTime 6 k) = true) ∧
    (∃ (s : State), ∃ (falling : Bool), ∃ (k : Fin 512), s.edgeMerges 6 falling k = false ∧ s.enabled .timebase = true ∧ s.flag .timebase R.TB_CFG.pps_enable = true ∧ s.timeRuns = true ∧ (s.tim.interp[6]).hits.isSome = true ∧ s.flag .timebase R.TB_CFG.pps_edge = falling ∧ s.ppsEarly (s.edgeTime 6 k) = false ∧ s.flag .timebase R.TB_CTRL.load = true ∧ s.tim.loadAt < s.tim.raw ∧ (s.dev ≠ .run ∨ s.edgeTime 6 k ≤ s.loadTime)) ∧
    (∃ (s : State), s.wedged .timebase = false ∧ s.ppsStale = true ∧ s.flag .timebase R.TB_STATUS.pps_valid = true) :=
  ⟨⟨up [on .timebase, (.timebase, R.TB_CFG.ref_sel, 2)], 131073, 1310720, by decide⟩,
    ⟨up [on .timebase, (.timebase, R.TB_CFG.ref_sel, 2), (.timebase, R.TB_STATUS.ref_present, 1)], 132383, 1310720, by decide⟩,
    ⟨up [on .timebase, (.timebase, R.TB_STATUS.ref_present, 1), (.timebase, R.TB_STATUS.ref_locked, 1)], by decide⟩,
    ⟨(let s := timed 5 [on .timebase, (.timebase, R.TB_STATUS.ref_present, 1)]; { s with tim := { s.tim with lockMs := 63 } }), -65536, -3, by decide⟩,
    ⟨timed 5 [on .timebase, (.timebase, R.TB_STATUS.ref_present, 1), (.timebase, R.TB_STATUS.ref_locked, 1)], -655361, -3, by decide⟩,
    ⟨(let s := timed 5 [(.timebase, R.TB_STATUS.quality, 3)]; { s with tim := { s.tim with holdMs := 999 } }), 0, 0, by decide⟩,
    ⟨(let s := timed 5 [on .timebase, (.timebase, R.TB_CFG.pps_enable, 1)]; { s with tim := { s.tim with interp := Vector.replicate 8 ⟨some (List.replicate 512 2048), none, none, none, none⟩ } }), false, 511, by decide⟩,
    ⟨(let s := timed (2 ^ 40) [on .timebase, (.timebase, R.TB_CFG.pps_enable, 1)]; { s with tim := { s.tim with ppsLast := some (2 ^ 39), interp := Vector.replicate 8 ⟨some (List.replicate 512 2048), none, none, none, none⟩ } }), false, 511, by decide +kernel⟩,
    ⟨(let s := timed (2 ^ 40) [on .timebase, (.timebase, R.TB_CFG.pps_enable, 1), (.timebase, R.TB_CTRL.load, 1), (.timebase, R.TB_LOAD.seconds, 100)]; { s with dev := .hold, tim := { s.tim with interp := Vector.replicate 8 ⟨some (List.replicate 512 2048), none, none, none, none⟩ } }), false, 511, by decide +kernel⟩,
    ⟨up [(.timebase, R.TB_STATUS.pps_valid, 1)], by decide⟩⟩

theorem witness_TimeAndEpochs :
    (∃ (s : State), s.dev ≠ .off ∧ s.dev ≠ .boot ∧ s.wedged .timebase = false) ∧
    (∃ (s : State), s.dev ≠ .off ∧ s.dev ≠ .boot ∧ s.wedged .timebase = false ∧ (s.dev ≠ .run ∨ s.tim.now ≤ s.rd .timebase R.TB_LOAD.seconds * secUnits)) ∧
    (∃ (s : State), s.wedged .timebase = false ∧ s.dev = .run ∧ s.rd .timebase R.TB_LOAD.seconds * secUnits < s.tim.now) ∧
    (∃ (s : State), s.dev ≠ .off ∧ s.dev ≠ .boot ∧ s.wedged .timebase = false ∧ s.rd .timebase R.TB_EPOCH_CFG.period < 800000) ∧
    (∃ (s : State), ∃ (a p : Nat), s.dev ≠ .off ∧ s.dev ≠ .boot ∧ s.wedged .timebase = false ∧ p = s.rd .timebase R.TB_EPOCH_CFG.period ∧ 800000 ≤ p ∧ a = ofT96 (s.rdT96 .timebase R.TB_EPOCH_AT.lo)) ∧
    (∃ (s : State), s.dev ≠ .off ∧ s.dev ≠ .boot ∧ s.wedged .timebase = false ∧ s.pins.epochOut = false) ∧
    (∃ (s : State), s.dev ≠ .off ∧ s.dev ≠ .boot ∧ s.wedged .timebase = false ∧ s.pins.epochOut = true) ∧
    (∃ (s : State), s.wedged .timebase = false ∧ s.timeRuns = true ∧ s.flag .timebase R.TB_STATUS.epoch_running = true ∧ ofT96 (s.rdT96 .timebase R.TB_EPOCH_NEXT.lo) ≤ s.tim.now) ∧
    (∃ (s : State), s.wedged .timebase = false ∧ s.pins.epochOut = true ∧ s.tim.epochEnd ≤ s.tim.raw ∧ s.tim.epochStop = false) ∧
    (∃ (s : State), s.wedged .timebase = false ∧ s.pins.epochOut = true ∧ s.tim.epochEnd ≤ s.tim.raw ∧ s.tim.epochStop = true) :=
  ⟨⟨live, by decide⟩,
    ⟨{ timed (2 ^ 60) [(.timebase, R.TB_LOAD.seconds, 100000)] with tim := { TimeSt.zero with maps := [] } }, by decide⟩,
    ⟨timed (2 ^ 60) [(.timebase, R.TB_LOAD.seconds, 1)], by decide⟩,
    ⟨up [(.timebase, R.TB_EPOCH_CFG.period, 799999)], by decide⟩,
    ⟨timed (2 ^ 50) [on .timebase], _, _, by decide, by decide, by decide, rfl, by decide, rfl⟩,
    ⟨up [(.timebase, R.TB_STATUS.epoch_running, 1)], by decide⟩,
    ⟨{ up [(.timebase, R.TB_STATUS.epoch_running, 1)] with pins := { PinSt.zero with epochOut := true } }, by decide⟩,
    ⟨timed (2 ^ 50) [(.timebase, R.TB_STATUS.epoch_running, 1)], by decide⟩,
    ⟨{ live with pins := { PinSt.zero with epochOut := true } }, by decide⟩,
    ⟨{ up [(.timebase, R.TB_STATUS.epoch_running, 1)] with pins := { PinSt.zero with epochOut := true }, tim := { TimeSt.zero with epochStop := true } }, by decide⟩⟩

theorem witness_TimeToDigital :
    (∃ (s : State), ∃ (i : Fin 8), ∃ (h : List Nat), s.timeRuns = true ∧ h.length = 512 ∧ h.sum = s.tableHits) ∧
    (∃ (s : State), s.dev ≠ .off ∧ s.dev ≠ .boot ∧ s.enabled .tdc = true) ∧
    (∃ (s : State), s.dev ≠ .off ∧ s.dev ≠ .boot) ∧
    (∃ (s : State), ∃ (falling : Bool), ∃ (k : Fin 512), s.timeRuns = true ∧ s.tdcMerges 0 falling k = false ∧ s.enabled .tdc = true ∧ s.rd .tdc R.TDC_CFG.start_src = 0 ∧ s.flag .tdc R.TDC_CFG.start_edge = falling ∧ s.rd .tdc R.TDC_STATUS.state = 1 ∧ s.flag .tdc R.TDC_STATUS.start_seen = false ∧ s.tim.tdcArmedAt < s.tim.raw ∧ s.tim.tdcStop = none) ∧
    (∃ (s : State), ∃ (falling : Bool), ∃ (k : Fin 512), ∃ (a d : Int), s.timeRuns = true ∧ s.tdcMerges 1 falling k = false ∧ s.enabled .tdc = true ∧ s.rd .tdc R.TDC_CFG.stop_src = 0 ∧ s.flag .tdc R.TDC_CFG.stop_edge = falling ∧ s.rd .tdc R.TDC_STATUS.state = 2 ∧ s.flag .tdc R.TDC_STATUS.stop_seen = false ∧ s.tim.tdcArmedAt < s.tim.raw ∧ s.tim.tdcStart = some a ∧ s.flag .tdc R.TDC_CFG.repeat = false ∧ d = s.edgeTime 1 k - a ∧ 256 ≤ d.natAbs ∧ d.natAbs < 2 ^ 40 * tickUnits) ∧
    (∃ (s : State), ∃ (falling : Bool), ∃ (k : Fin 512), s.timeRuns = true ∧ s.tdcMerges 0 falling k = false ∧ s.enabled .tdc = true ∧ s.rd .tdc R.TDC_CFG.start_src = 0 ∧ s.flag .tdc R.TDC_CFG.start_edge = falling ∧ s.rd .tdc R.TDC_STATUS.state = 3) ∧
    (∃ (s : State), ∃ (pin : TdcPin), ∃ (falling : Bool), ∃ (k : Fin 512), s.timeRuns = true ∧ s.tdcMerges (tdcInterp pin) falling k = true) ∧
    (∃ (s : State), (s.rd .tdc R.TDC_STATUS.state = 1 ∨ s.rd .tdc R.TDC_STATUS.state = 2) ∧ s.tdcLate = true) :=
  ⟨⟨live, 7, List.replicate 511 0 ++ [2 ^ 20], by decide +kernel⟩,
    ⟨up [on .tdc], by decide⟩,
    ⟨live, by decide⟩,
    ⟨timed 7 [on .tdc, (.tdc, R.TDC_CFG.start_edge, 1), (.tdc, R.TDC_STATUS.state, 1)], true, 511, by decide⟩,
    ⟨(let s := timed 7 [on .tdc, (.tdc, R.TDC_STATUS.state, 2)]; { s with tim := { s.tim with tdcStart := some (-7000000) } }), false, 511, -7000000, _, by decide +kernel, by decide +kernel, by decide +kernel, by decide +kernel, by decide +kernel, by decide +kernel, by decide +kernel, by decide +kernel, by decide +kernel, by decide +kernel, rfl, by decide +kernel⟩,
    ⟨timed 7 [on .tdc, (.tdc, R.TDC_CFG.start_edge, 1), (.tdc, R.TDC_STATUS.state, 3)], true, 511, by decide⟩,
    ⟨(let s := timed 7 [on .tdc, (.tdc, R.TDC_STATUS.state, 1), (.tdc, R.TDC_CFG.start_edge, 1)]; { s with tim := { s.tim with interp := Vector.replicate 8 ⟨none, none, none, some 0, some (s.edgeRaw (tdcInterp .start) 511)⟩ } }), .start, true, 511, by decide⟩,
    ⟨timed (2 ^ 60) [on .tdc, (.tdc, R.TDC_STATUS.state, 2), (.tdc, R.TDC_CFG.timeout, 1)], by decide⟩⟩

theorem witness_OnChipMemory :
    (∃ (s : State), ∃ (m : SramId), ∃ (a : Nat), ∃ (y : BitVec 8), s.badWord m a = false ∧ (m ≠ .depot ∨ a ≠ 0x3FFFFF8) ∧ a % 8 = 0) ∧
    (∃ (s : State), ∃ (y : BitVec 8), s.badWord .depot 0x3FFFFF8 = false ∧ s.enabled .depot = true ∧ s.coreRuns = true) ∧
    (∃ (s : State), ∃ (m : SramId), ∃ (a : Nat), ∃ (y : BitVec 8), s.badWord m a = false ∧ a < m.size ∧ a % 8 = 0 ∧ s.enabled .depot = true ∧ s.coreRuns = true) ∧
    (∃ (s : State), ∃ (m : SramId), ∃ (a : Nat), ∃ (e : EccKind), ∃ (y : BitVec 8), (e = .uncorrectable ∨ s.badWord m a = true) ∧ a < m.size ∧ a % 8 = 0 ∧ (m ≠ .depot ∨ a < 0x3F00000) ∧ s.enabled .depot = true ∧ s.coreRuns = true) ∧
    (∃ (s : State), ∃ (a : Nat), ∃ (y : BitVec 8), 0x3F00000 ≤ a ∧ a < 0x4000000 ∧ a % 8 = 0 ∧ s.enabled .depot = true ∧ s.coreRuns = true) ∧
    (∃ (s : State), s.enabled .depot = true ∧ s.coreRuns = true ∧ s.flag .depot R.DEPOT_CFG.test_enable = true ∧ s.rd .depot R.DEPOT_STATUS.mirrors_free ≠ 0 ∧ s.testPhase .depot = 0 ∧ s.testDue .depot = true) ∧
    (∃ (s : State), ∃ (i : Fin 17), s.enabled .depot = true ∧ s.coreRuns = true ∧ s.flag .depot R.DEPOT_CFG.test_enable = true ∧ s.flag .depot (R.LMEM_STATUS.repaired i) = false ∧ s.testPhase (.lmem i) = 0 ∧ s.testDue (.lmem i) = true) ∧
    (∃ (s : State), ∃ (m : SramId), (s.flag .depot R.DEPOT_CFG.test_enable = false ∨ s.testDue m = false)) ∧
    (∃ (s : State), ∃ (m : SramId), s.testPhase m = 1 ∧ s.coreRuns = true ∧ (∀ p ∈ s.sramBad m, m.inBank (s.testBank m) p.1 = false)) ∧
    (∃ (s : State), ∃ (m : SramId), ∃ (a : Nat), s.testPhase m = 1 ∧ s.coreRuns = true ∧ m.inBank (s.testBank m) a = true ∧ (m ≠ .depot ∨ a < 0x3F00000)) ∧
    (∃ (s : State), ∃ (m : SramId), s.testPhase m = 2 ∧ s.coreRuns = true) ∧
    (∃ (s : State), s.testPhase .depot = 2 ∧ s.coreRuns = true) ∧
    (∃ (s : State), ∃ (i : Fin 17), s.testPhase (.lmem i) = 2 ∧ s.coreRuns = true) ∧
    (∃ (s : State), ∃ (m : SramId), s.testPhase m = 3 ∧ s.coreRuns = true) :=
  ⟨⟨live, .lmem 16, 8, 0, by decide⟩,
    ⟨depotOn [], 0, by decide⟩,
    ⟨depotOn [], .imem 16, 8, 0, by decide⟩,
    ⟨depotOn [], .lmem 16, 0x7FFFF8, .uncorrectable, 77, by decide⟩,
    ⟨depotOn [], 0x3FFFFF8, 0, by decide⟩,
    ⟨depotOn [], by decide⟩,
    ⟨depotOn [], 16, by decide⟩,
    ⟨depotOn [(.depot, R.DEPOT_CFG.test_enable, 0)], .depot, by decide⟩,
    ⟨depotOn [(.depot, R.LMEM_STATUS.test_phase 16, 1)], .lmem 16, by decide⟩,
    ⟨depotOn [(.depot, R.DEPOT_STATUS.test_bank, 255), (.depot, R.DEPOT_STATUS.test_phase, 1), (.depot, R.DEPOT_STATUS.mirrors_free, 7)], .depot, 0x3EFFFF8, by decide⟩,
    ⟨depotOn [(.depot, R.LMEM_STATUS.test_phase 16, 2)], .lmem 16, by decide⟩,
    ⟨depotOn [(.depot, R.DEPOT_STATUS.test_phase, 2), (.depot, R.DEPOT_STATUS.mirrors_free, 7), (.depot, R.DEPOT_STATUS.test_bank, 255)], by decide⟩,
    ⟨depotOn [(.depot, R.LMEM_STATUS.test_phase 16, 2), (.depot, R.LMEM_STATUS.test_bank 16, 31)], 16, by decide⟩,
    ⟨depotOn [(.depot, R.DEPOT_STATUS.test_phase, 3), (.depot, R.DEPOT_STATUS.mirrors_free, 7)], .depot, by decide⟩⟩

theorem witness_HostAccesses :
    (∃ (s : State), ∃ (off : Nat), ∃ (data : List (Option Byte)), s.barOpen = true ∧ s.barClosed = false ∧ s.coreRuns = true ∧ s.hostBase ≤ off ∧ off + data.length ≤ 0x3F00000 ∧ s.mem.depotBad = []) ∧
    (∃ (s : State), ∃ (off : Nat), ∃ (data : List (Option Byte)), s.barOpen = true ∧ s.barClosed = false ∧ off + data.length ≤ 0x3F00000 ∧ off < s.hostBase) ∧
    (∃ (s : State), ∃ (off : Nat), ∃ (data : List (Option Byte)), s.barOpen = true ∧ (s.barClosed = true ∨ 0x3F00000 < off + data.length)) ∧
    (∃ (s : State), ∃ (off len : Nat), s.barOpen = true ∧ s.barClosed = false ∧ s.coreRuns = true ∧ off + len ≤ 0x3F00000 ∧ s.firstBad .depot off len = none) ∧
    (∃ (s : State), ∃ (off len w : Nat), s.barOpen = true ∧ s.barClosed = false ∧ s.coreRuns = true ∧ off + len ≤ 0x3F00000 ∧ s.firstBad .depot off len = some w) ∧
    (∃ (s : State), ∃ (off len : Nat), s.barOpen = true ∧ (s.barClosed = true ∨ 0x3F00000 < off + len)) ∧
    (∃ (s : State), ∃ (off : Nat), ∃ (data : List (Option Byte)), s.barOpen = true ∧ s.barClosed = false ∧ 28 ≤ s.rd .dma R.PCIE_STATUS.bar4_log2 ∧ off + data.length ≤ 0x8000) ∧
    (∃ (s : State), ∃ (off : Nat), ∃ (data : List (Option Byte)), s.barOpen = true ∧ s.barClosed = false ∧ 28 ≤ s.rd .dma R.PCIE_STATUS.bar4_log2 ∧ 0x8000 ≤ off ∧ off + data.length ≤ 0x8100 ∧ data ≠ []) ∧
    (∃ (s : State), ∃ (w : Bool), ∃ (off : Nat), ∃ (data : List (Option Byte)), s.barOpen = true ∧ off + data.length ≤ 2 ^ s.rd .dma R.PCIE_STATUS.bar4_log2 ∧ (s.barClosed = true ∨ (0x8100 < off + data.length ∧ off < 0x10000) ∨ (0x10000 ≤ off ∧ s.dramIn (off - 0x10000) data.length = false))) ∧
    (∃ (s : State), ∃ (a : Nat), ∃ (data : List (Option Byte)), s.barOpen = true ∧ s.barClosed = false ∧ 0x10000 + a + data.length ≤ 2 ^ s.rd .dma R.PCIE_STATUS.bar4_log2 ∧ s.dramIn a data.length = true ∧ s.coreRuns = true ∧ s.memReady ∧ data ≠ [] ∧ s.mem.dramBad = []) ∧
    (∃ (s : State), ∃ (a : Nat), ∃ (data : List (Option Byte)), s.barOpen = true ∧ s.barClosed = false ∧ 0x10000 + a + data.length ≤ 2 ^ s.rd .dma R.PCIE_STATUS.bar4_log2 ∧ s.dramIn a data.length = true ∧ s.coreRuns = true ∧ s.dramOpen a data.length = true ∧ data ≠ [] ∧ s.firstBadLine a data.length = none) ∧
    (∃ (s : State), ∃ (off : Nat), ∃ (data : List (Option Byte)), s.barOpen = true ∧ s.barClosed = false ∧ s.coreRuns = false ∧ s.hostBase ≤ off ∧ off + data.length ≤ 0x3F00000) ∧
    (∃ (s : State), ∃ (a : Nat), ∃ (data : List (Option Byte)), s.barOpen = true ∧ s.barClosed = false ∧ s.coreRuns = false ∧ 0x10000 + a + data.length ≤ 2 ^ s.rd .dma R.PCIE_STATUS.bar4_log2 ∧ s.dramIn a data.length = true ∧ data ≠ []) :=
  ⟨⟨up [(.depot, R.DEPOT_CFG.host_size, 1)], 0x3EFFFFD, [some 1, none, some 3], by decide⟩,
    ⟨up [(.depot, R.DEPOT_CFG.host_size, 1)], 0x3DFFFFF, [some 1], by decide⟩,
    ⟨live, 0x3EFFFFF, [some 1, some 2], by decide⟩,
    ⟨live.setSram .depot [(0x3EFFFFF, 9)] [], 0x3EFFFFE, 2, by decide⟩,
    ⟨live.setSram .depot [(0x3EFFFFF, 9)] [(0x3EFFFF8, true)], 0x3EFFFFE, 2, 0x3EFFFF8, by decide⟩,
    ⟨live, 0x3EFFFFF, 2, by decide⟩,
    ⟨live, 0x7FFE, [some 4, none], by decide⟩,
    ⟨{ live with host := { live.host with pba := [(2047, true)] } }, 0x80FF, [none], by decide⟩,
    ⟨live, true, 0x8100, [some 1], by decide⟩,
    ⟨allServe [(.dram 0, R.DRAM_MAP.n_log2, 3), (.dram 0, R.DRAM_MAP.n_active_log2, 3)], 62, [some 1, none, some 3], by decide +kernel, by decide +kernel, by decide +kernel, by decide +kernel, by decide +kernel, by unfold State.memReady; decide +kernel, by decide +kernel⟩,
    ⟨{ dramOn [] with mem := { MemSt.zero with dram := [(64, 7)] } }, 62, [some 1, none, some 3], by decide⟩,
    ⟨stoodStill [(.depot, R.DEPOT_CFG.host_size, 1)], 0x3EFFFFD, [some 1, none, some 3], by decide⟩,
    ⟨stoodStill [(.dram 0, R.DRAM_MAP.n_log2, 1), (.dram 0, R.DRAM_MAP.n_active_log2, 1)], 62, [some 1, none, some 3], by decide⟩⟩

theorem witness_DramChannels :
    (∃ (s : State), ∃ (c : Fin 8), ∃ (a : Nat), ∃ (data : List (Option Byte)), ∃ (y : BitVec 8), ∃ (b : Nat × Nat), s.dramChan a = c.val ∧ s.dramIn a data.length = true ∧ s.dramServes c.val = true ∧ b = s.dramBank c.val (s.dramLocal a) ∧ (s.dram[c]).pending = [] ∧ s.openRow c b.1 = some b.2 ∧ s.badLine a = false) ∧
    (∃ (s : State), ∃ (c : Fin 8), ∃ (a : Nat), ∃ (data : List (Option Byte)), ∃ (y : BitVec 8), ∃ (b : Nat × Nat), s.dramChan a = c.val ∧ s.dramIn a data.length = true ∧ s.dramServes c.val = true ∧ b = s.dramBank c.val (s.dramLocal a) ∧ (s.dram[c]).pending = [] ∧ s.openRow c b.1 ≠ some b.2 ∧ s.badLine a = false) ∧
    (∃ (s : State), ∃ (c : Fin 8), ∃ (a : Nat), ∃ (data : List (Option Byte)), ∃ (e : EccKind), ∃ (y : BitVec 8), ∃ (b : Nat × Nat), s.dramChan a = c.val ∧ s.dramIn a data.length = true ∧ s.memReady ∧ b = s.dramBank c.val (s.dramLocal a) ∧ (s.dram[c]).pending = [] ∧ s.mem.dramBad = []) ∧
    (∃ (s : State), ∃ (c : Fin 8), ∃ (a : Nat), ∃ (data : List (Option Byte)), ∃ (y : BitVec 8), ∃ (b : Nat × Nat), s.dramChan a = c.val ∧ s.dramIn a data.length = true ∧ s.dramServes c.val = true ∧ b = s.dramBank c.val (s.dramLocal a) ∧ (⟨b.1, b.2⟩ : PendingWrite) ∈ (s.dram[c]).pending) ∧
    (∃ (s : State), ∃ (c : Fin 8), ∃ (w : Bool), ∃ (a : Nat), ∃ (data : List (Option Byte)), ∃ (e : EccKind), ∃ (y : BitVec 8), s.dramChan a = c.val ∧ s.dramIn a data.length = false) ∧
    (∃ (s : State), ∃ (c : Fin 8), ∃ (a : Nat), ∃ (data : List (Option Byte)), ∃ (y : BitVec 8), s.dramChan a = c.val ∧ s.dramIn a data.length = true ∧ s.dramServes c.val = true ∧ s.badLine a = false) ∧
    (∃ (s : State), ∃ (c : Fin 8), ∃ (a : Nat), ∃ (data : List (Option Byte)), ∃ (e : EccKind), ∃ (y : BitVec 8), s.dramChan a = c.val ∧ s.dramIn a data.length = true ∧ s.dramServes c.val = true ∧ (e = .uncorrectable ∨ s.badLine a = true)) ∧
    (∃ (s : State), ∃ (c : Fin 8), ∃ (a : Nat), ∃ (y : BitVec 8), s.badLine a = false) ∧
    (∃ (s : State), ∃ (c : Fin 8), ∃ (a : Nat), ∃ (y : BitVec 8), s.dramChan a = c.val ∧ s.dramServes c.val = true ∧ s.badLine a = false) ∧
    (∃ (s : State), ∃ (c : Fin 8), ∃ (a : Nat), ∃ (y : BitVec 8), s.dramChan a = c.val ∧ s.dramServes c.val = true) ∧
    (∃ (s : State), ∃ (c : Fin 8), ∃ (rd wr : List Int), ∃ (new : List (Int × Int)), s.memClock = true ∧ s.rd (.dram c) R.DRAM_STATUS.state = 2 ∧ new = (List.range 10).map (fun l => (max (-8) (min 8 (((s.dram[c]).track.getD l (0, 0)).1 + max (-1) (min 1 (rd.getD l 0)))), max (-8) (min 8 (((s.dram[c]).track.getD l (0, 0)).2 + max (-1) (min 1 (wr.getD l 0))))))) ∧
    (∃ (s : State), ∃ (c : Fin 8), ∃ (rd wr : List Int), s.rd (.dram c) R.DRAM_STATUS.state ≠ 2) ∧
    (∃ (s : State), ∃ (c : Fin 8), s.dev ≠ .off ∧ s.dev ≠ .boot ∧ s.rd (.dram c) R.DRAM_STATUS.phase = 0 ∧ s.rd (.dram c) R.DRAM_STATUS.state ≠ 5 ∧ s.retrainRefused c = false) ∧
    (∃ (s : State), ∃ (c : Fin 8), s.dev ≠ .off ∧ s.dev ≠ .boot ∧ s.rd (.dram c) R.DRAM_STATUS.phase = 0 ∧ (s.flag (.dram 0) R.DRAM_MAP.reserve = false ∨ s.rd (.dram c) R.DRAM_STATUS.state = 4 ∨ s.rd (.dram 0) R.DRAM_MAP.n_active_log2 = 0 ∨ s.enabled .placement = false ∨ ∃ d : Fin 8, d ≠ c ∧ s.rd (.dram d) R.DRAM_STATUS.phase ≠ 0)) ∧
    (∃ (s : State), ∃ (c : Fin 8), s.flag (.dram c) R.DRAM_STATUS.stale = true ∧ s.flag (.dram c) R.DRAM_POLICY.auto_retrain = true ∧ s.enabled (.dram c) = true ∧ s.enabled .placement = true ∧ s.rd (.dram c) R.DRAM_STATUS.state = 2 ∧ s.rd (.dram c) R.DRAM_STATUS.phase = 0 ∧ s.retrainRefused c = false) ∧
    (∃ (s : State), ∃ (c : Fin 8), (s.flag (.dram c) R.DRAM_STATUS.stale = false ∨ s.flag (.dram c) R.DRAM_POLICY.auto_retrain = false)) ∧
    (∃ (s : State), ∃ (c : Fin 8), s.memClock = true ∧ s.coreRuns = true ∧ s.rd (.dram c) R.DRAM_STATUS.phase = 1 ∧ s.rd (.dram c) R.DRAM_STATUS.state ≠ 4) ∧
    (∃ (s : State), ∃ (c : Fin 8), ∃ (r : TrainResult), s.memClock = true ∧ s.coreRuns = true ∧ s.rd (.dram c) R.DRAM_STATUS.phase = 2 ∧ s.rd (.dram c) R.DRAM_STATUS.state ≠ 4 ∧ r.lanes.length = 10 ∧ (∀ l ∈ r.lanes, 16 ≤ (widestRun 256 l.rdDqs.toNat).2 ∧ 16 ≤ (widestRun 256 l.wrDq.toNat).2)) ∧
    (∃ (s : State), ∃ (c : Fin 8), ∃ (r : TrainResult), s.memClock = true ∧ s.coreRuns = true ∧ s.rd (.dram c) R.DRAM_STATUS.phase = 2 ∧ s.rd (.dram c) R.DRAM_STATUS.state ≠ 4 ∧ (∃ l ∈ r.lanes, (widestRun 256 l.rdDqs.toNat).2 < 16)) ∧
    (∃ (s : State), ∃ (c : Fin 8), s.memClock = true ∧ s.coreRuns = true ∧ s.rd (.dram c) R.DRAM_STATUS.phase = 3 ∧ s.rd (.dram c) R.DRAM_STATUS.state ≠ 4 ∧ (s.dram[c]).deferredQuiesce = false) :=
  ⟨⟨(let s := dramOn []; s.setDram 1 { s.dram[1] with openRows := [(0, some 0)] }), 1, 0x1003, [none, none], 0, _, by decide +kernel, by decide +kernel, by decide +kernel, rfl, by decide +kernel⟩,
    ⟨dramOn [], 1, 0x1003, [none, none], 0, _, by decide, by decide, by decide, rfl, by decide⟩,
    ⟨allServe [(.dram 0, R.DRAM_MAP.n_log2, 1), (.dram 0, R.DRAM_MAP.n_active_log2, 1)], 1, 0x1003, [some 5, none], .clean, 0, _, by decide +kernel, by decide +kernel, by unfold State.memReady; decide +kernel, rfl, by decide +kernel⟩,
    ⟨(let s := dramOn []; s.setDram 1 { s.dram[1] with pending := [⟨0, 0⟩] }), 1, 0x1003, [none, none], 0, _, by decide +kernel, by decide +kernel, by decide +kernel, rfl, by decide +kernel⟩,
    ⟨dramOn [], 1, true, 2 ^ 40 + 0x1000, [], .clean, 0, by decide⟩,
    ⟨dramOn [], 1, 0x1003, [none, none], 0, by decide⟩,
    ⟨dramOn [], 1, 0x1003, [none, none], .uncorrectable, 9, by decide⟩,
    ⟨live, 7, 0, 0, by decide⟩,
    ⟨dramOn [], 1, 0x1040, 0, by decide⟩,
    ⟨dramOn [], 1, 0x1040, 9, by decide⟩,
    ⟨(let s := dramOn []; s.setDram 1 { s.dram[1] with track := [(7, 0), (0, 0)] }), 1, [5, -5, 0, 0, 0, 0, 0, 0, 0, 1], [1, 0, 0, 0, 0, 0, 0, 0, 0, -9], _, by decide, by decide, rfl⟩,
    ⟨live, 7, [], [], by decide⟩,
    ⟨dramOn [(.dram 0, R.DRAM_MAP.reserve, 1)], 1, by decide⟩,
    ⟨dramOn [], 1, by decide⟩,
    ⟨dramOn [(.dram 0, R.DRAM_MAP.reserve, 1), (.dram 1, R.DRAM_STATUS.stale, 1)], 1, by decide⟩,
    ⟨dramOn [(.dram 0, R.DRAM_MAP.reserve, 1), (.dram 1, R.DRAM_STATUS.stale, 1), (.dram 1, R.DRAM_POLICY.auto_retrain, 0)], 1, by decide⟩,
    ⟨{ dramOn [(.dram 1, R.DRAM_STATUS.phase, 1)] with mem := { MemSt.zero with dramBad := [(0x1040, true)] } }, 1, by decide⟩,
    ⟨dramOn [(.dram 1, R.DRAM_STATUS.phase, 2), (.dram 1, R.DRAM_STATUS.state, 1)], 1, trained (2 ^ 19 - 2 ^ 3), by decide +kernel⟩,
    ⟨dramOn [(.dram 1, R.DRAM_STATUS.phase, 2), (.dram 1, R.DRAM_STATUS.state, 1)], 1, trained (2 ^ 18 - 2 ^ 3), by decide +kernel, by decide +kernel, by decide +kernel, by decide +kernel, ⟨_, List.getElem_mem (n := 9) (by decide), by decide +kernel⟩⟩,
    ⟨dramOn [(.dram 1, R.DRAM_STATUS.phase, 3), (.dram 1, R.DRAM_STATUS.state, 3)], 1, by decide⟩⟩

theorem witness_DescriptorRings :
    (∃ (s : State), ∃ (r : Fin 256), ∃ (v : BitVec 16), s.dev ≠ .off ∧ s.dev ≠ .boot) ∧
    (∃ (s : State), ∃ (r : Fin 256), ∃ (m base : Nat), s.dev ≠ .off ∧ s.dev ≠ .boot ∧ m = s.rd (ringBlk r) (R.RING_BASE.log2n (ringIx r)) ∧ base = s.rd (ringBlk r) (R.RING_BASE.base (ringIx r)) * 512 ∧ 4 ≤ m ∧ m ≤ 16 ∧ base % (32 * 2 ^ m) = 0 ∧ s.cqOn (s.rd (ringBlk r) (R.RING_CFG.cq (ringIx r))) = true) ∧
    (∃ (s : State), ∃ (r : Fin 256), ∃ (m base : Nat), s.dev ≠ .off ∧ s.dev ≠ .boot ∧ m = s.rd (ringBlk r) (R.RING_BASE.log2n (ringIx r)) ∧ base = s.rd (ringBlk r) (R.RING_BASE.base (ringIx r)) * 512 ∧ (m < 4 ∨ 16 < m ∨ base % (32 * 2 ^ m) ≠ 0 ∨ s.cqOn (s.rd (ringBlk r) (R.RING_CFG.cq (ringIx r))) = false)) ∧
    (∃ (s : State), ∃ (r : Fin 256), ∃ (b n : Nat), s.dev ≠ .off ∧ s.dev ≠ .boot ∧ (s.ring r).phase = .idle) ∧
    (∃ (s : State), ∃ (r : Fin 256), ∃ (b n : Nat), ∃ (d : Desc), s.dev ≠ .off ∧ s.dev ≠ .boot ∧ (s.ring r).phase = .fetched ∧ (s.ring r).desc = some d) ∧
    (∃ (s : State), ∃ (r : Fin 256), s.dev ≠ .off ∧ s.dev ≠ .boot ∧ s.ringState r = 4) ∧
    (∃ (s : State), ∃ (r : Fin 256), s.dev ≠ .off ∧ s.dev ≠ .boot ∧ s.ringState r ≠ 4) ∧
    (∃ (s : State), ∃ (r : Fin 256), ∃ (a : Nat), ∃ (d : Desc), s.ringLive r = true ∧ s.ringState r = 1 ∧ (s.ring r).phase = .idle ∧ (s.ring r).out = [] ∧ ((s.ring r).chainPc ≠ none ∨ s.rd (ringBlk r) (R.RING_STATUS.head (ringIx r)) ≠ s.rd (ringBlk r) (R.RING_TAIL.tail (ringIx r))) ∧ a = (s.ring r).chainPc.getD ((s.ring r).base + 32 * s.rd (ringBlk r) (R.RING_STATUS.head (ringIx r))) ∧ ((s.ring r).target = true → s.dramIn a 32 = true ∧ s.dramOpen a 32 = true ∧ s.firstBadLine a 32 = none) ∧ ((s.ring r).target = false → s.flag .dma R.PCIE_STATUS.bus_master = true) ∧ d = ⟨a, s.rd (ringBlk r) (R.RING_STATUS.head (ringIx r)), (s.ring r).chainPc.isSome, BitVec.ofNat 64 (leNat (s.targetRead (s.ring r).target a 8)), BitVec.ofNat 64 (leNat (s.targetRead (s.ring r).target (a + 8) 8)), BitVec.ofNat 64 (leNat (s.targetRead (s.ring r).target (a + 16) 8)), BitVec.ofNat 64 (leNat (s.targetRead (s.ring r).target (a + 24) 8))⟩) ∧
    (∃ (s : State), ∃ (r : Fin 256), ∃ (a : Nat), ∃ (q : ReqResult), s.fetchAddr r = some a ∧ (s.ring r).target = true ∧ s.dramIn a 32 = false) ∧
    (∃ (s : State), ∃ (r : Fin 256), ∃ (a : Nat), ∃ (c : Fin 6), ∃ (g : Nat), s.fetchAddr r = some a ∧ ((s.ring r).target = true → s.dramIn a 32 = true)) :=
  ⟨⟨live, 255, 0xFFFF, by decide⟩,
    ⟨ringed 0 RingSt.idle [(.dmaRings 3, R.RING_BASE.log2n 63, 16), (.dmaRings 3, R.RING_BASE.base 63, 4096), (.dmaRings 3, R.RING_CFG.cq 63, 1023), (.dmaRings 3, R.CQ_CFG.enable 255, 1)], 255, _, _, by decide, by decide, rfl, rfl, by decide⟩,
    ⟨ringed 0 RingSt.idle [(.dmaRings 3, R.RING_BASE.log2n 63, 17), (.dmaRings 3, R.RING_CFG.cq 63, 1023), (.dmaRings 3, R.CQ_CFG.enable 255, 1)], 255, _, _, by decide, by decide, rfl, rfl, by decide⟩,
    ⟨ringed 1 RingSt.idle [], 255, 0, 0, by decide⟩,
    ⟨ringed 1 { RingSt.idle with phase := .fetched, desc := some ⟨64, 2, false, 3, 0, 0, 0⟩ } [], 255, 0, 0, ⟨64, 2, false, 3, 0, 0, 0⟩, by decide⟩,
    ⟨ringed 4 RingSt.idle [], 255, by decide⟩,
    ⟨live, 255, by decide⟩,
    ⟨(let s := ringed 1 { RingSt.idle with base := 0x2000 } [(.dmaRings 3, R.RING_STATUS.head 63, 1), (.dmaRings 3, R.RING_TAIL.tail 63, 2)]; { s with host := { s.host with mem := [(0x2020, 3), (0x2028, 1), (0x203F, 0x80)] } }), 255, _, _, by decide, by decide, by decide, by decide, by decide, rfl, by decide, by decide, rfl⟩,
    ⟨ringed 1 { RingSt.idle with base := 2 ^ 50, target := true } [(.dmaRings 3, R.RING_STATUS.head 63, 1), (.dmaRings 3, R.RING_TAIL.tail 63, 2)], 255, 2 ^ 50 + 32, .ok, by decide⟩,
    ⟨ringed 1 { RingSt.idle with base := 0x2000 } [(.dmaRings 3, R.RING_STATUS.head 63, 1), (.dmaRings 3, R.RING_TAIL.tail 63, 2)], 255, 0x2020, 0, 0, by decide⟩⟩

theorem witness_Descriptors :
    (∃ (s : State), ∃ (r : Fin 256), ∃ (d : Desc), ∃ (q : ReqResult), s.ringLive r = true ∧ (s.ring r).phase = .fetched ∧ (s.ring r).desc = some d ∧ d.opcode = 0) ∧
    (∃ (s : State), ∃ (r : Fin 256), ∃ (d : Desc), ∃ (n a : Nat), s.ringLive r = true ∧ (s.ring r).phase = .fetched ∧ (s.ring r).desc = some d ∧ d.opcode = 1 ∧ n = d.len ∧ n ≠ 0 ∧ n % 8 = 0 ∧ d.src.addr % 8 = 0 ∧ a = d.dst.addr ∧ a % 8 = 0 ∧ s.endDenied d.src n false = false ∧ d.dst.space = 1 ∧ s.dramIn a n = true ∧ s.endLimit d.src n false = none ∧ s.mem.dramBad = [] ∧ s.memReady ∧ s.srcIssued d = true ∧ s.srcOpen d = true) ∧
    (∃ (s : State), ∃ (r : Fin 256), ∃ (d : Desc), ∃ (c : Fin 6), ∃ (g n a : Nat), s.ringLive r = true ∧ (s.ring r).phase = .fetched ∧ (s.ring r).desc = some d ∧ d.opcode = 1 ∧ n = d.len ∧ n ≠ 0 ∧ n % 8 = 0 ∧ d.src.addr % 8 = 0 ∧ a = d.dst.addr ∧ a % 8 = 0 ∧ s.endDenied d.src n false = false ∧ d.dst.space = 1 ∧ s.dramIn a n = true ∧ s.endLimit d.src n false = none ∧ s.mem.dramBad = [] ∧ s.memReady ∧ s.srcIssued d = true ∧ s.srcOpen d = true) ∧
    (∃ (s : State), ∃ (r : Fin 256), ∃ (d : Desc), ∃ (q : ReqResult), s.ringLive r = true ∧ (s.ring r).phase = .fetched ∧ (s.ring r).desc = some d ∧ d.opcode = 1 ∧ d.len ≠ 0 ∧ (d.len % 8 ≠ 0 ∨ d.src.addr % 8 ≠ 0 ∨ d.dst.addr % 8 ≠ 0) ∧ s.dmaOpen d q = true) ∧
    (∃ p, p ∈ ([(.fill, 2), (.writeImm, 3)] : List ((Fin 256 → ReqResult → Instr) × Nat)) ∧ ∃ (s : State), ∃ (r : Fin 256), ∃ (d : Desc), ∃ (n a : Nat), s.ringLive r = true ∧ (s.ring r).phase = .fetched ∧ (s.ring r).desc = some d ∧ d.opcode = p.2 ∧ n = d.len ∧ n ≠ 0 ∧ a = d.dst.addr ∧ (p.2 = 2 → n % 8 = 0 ∧ a % 8 = 0) ∧ (p.2 = 3 → (n = 4 ∨ n = 8) ∧ a % n = 0) ∧ d.dst.space = 1 ∧ s.dramIn a n = true ∧ s.mem.dramBad = [] ∧ s.memReady) ∧
    (∃ (s : State), ∃ (r : Fin 256), ∃ (d : Desc), ∃ (n v : Nat), s.ringLive r = true ∧ (s.ring r).phase = .fetched ∧ (s.ring r).desc = some d ∧ d.opcode = 4 ∧ n = d.len ∧ n ≠ 0 ∧ n % 8 = 0 ∧ d.src.addr % 8 = 0 ∧ s.endDenied d.src n false = false ∧ s.endLimit d.src n false = none ∧ v = crc (nbits d.w0.toNat 15 14) (s.endRead d.src n) ∧ s.dmaOpen d .ok = true) ∧
    (∃ (s : State), ∃ (r : Fin 256), ∃ (d : Desc), ∃ (n st : Nat), ∃ (c : Fin 17), ∃ (img : List Byte), s.ringLive r = true ∧ (s.ring r).phase = .fetched ∧ (s.ring r).desc = some d ∧ d.opcode = 5 ∧ n = d.len ∧ n ≠ 0 ∧ n % 8 = 0 ∧ n ≤ 0x400000 ∧ d.src.addr % 8 = 0 ∧ d.src.space ≤ 1 ∧ d.slice = c.val ∧ s.retired c.val = false ∧ s.endLimit d.src n false = none ∧ img = s.endRead d.src n ∧ st = s.loadStatus c.val img (decide (crc 0 (img.take 28 ++ [0, 0, 0, 0] ++ (img.take (min img.length (imgNat img 16 4))).drop 32) = imgNat img 28 4)) ∧ s.dmaOpen d .ok = true) ∧
    (∃ (s : State), ∃ (r : Fin 256), ∃ (d : Desc), ∃ (q : ReqResult), s.ringLive r = true ∧ (s.ring r).phase = .fetched ∧ (s.ring r).desc = some d ∧ d.opcode = 5 ∧ d.len ≠ 0 ∧ d.len % 8 = 0 ∧ d.src.addr % 8 = 0 ∧ d.src.space ≤ 1 ∧ (16 < d.slice ∨ s.retired d.slice = true) ∧ s.dmaOpen d q = true) ∧
    (∃ (s : State), ∃ (r : Fin 256), ∃ (d : Desc), ∃ (n : Nat), s.ringLive r = true ∧ (s.ring r).phase = .fetched ∧ (s.ring r).desc = some d ∧ d.opcode = 15 ∧ d.inChain = false ∧ d.w2.toNat % 32 = 0 ∧ n = s.rd (ringBlk r) (R.RING_STATUS.link_count (ringIx r)) + 1 ∧ n < 16) ∧
    (∃ (s : State), ∃ (r : Fin 256), ∃ (d : Desc), ∃ (n : Nat), s.ringLive r = true ∧ (s.ring r).phase = .fetched ∧ (s.ring r).desc = some d ∧ d.opcode = 15 ∧ n = s.rd (ringBlk r) (R.RING_STATUS.link_count (ringIx r)) + 1 ∧ (16 ≤ n ∨ (n < 16 ∧ d.w2.toNat % 32 ≠ 0))) ∧
    (∃ (s : State), ∃ (r : Fin 256), ∃ (d l : Desc), s.ringLive r = true ∧ (s.ring r).phase = .fetched ∧ (s.ring r).desc = some d ∧ d.opcode = 14 ∧ (s.ring r).chainLink = some l ∧ (s.ring r).log2n ≤ 16) ∧
    (∃ (s : State), ∃ (r : Fin 256), ∃ (d : Desc), s.ringLive r = true ∧ (s.ring r).phase = .fetched ∧ (s.ring r).desc = some d ∧ d.opcode = 14 ∧ (s.ring r).chainLink = none) :=
  ⟨⟨held (desc 0 0 0 0) fetchedRing [], 255, desc 0 0 0 0, .ok, by decide⟩,
    ⟨(let s := held (desc (1 + 2 ^ 10) 16 0x100 0x208) fetchedRing serve; { s with host := { s.host with mem := [(0x101, 7), (0x10F, 9)] } }), 255, desc (1 + 2 ^ 10) 16 0x100 0x208, _, _, by decide +kernel, by decide +kernel, by decide +kernel, by decide +kernel, rfl, by decide +kernel, by decide +kernel, by decide +kernel, rfl, by decide +kernel, by decide +kernel, by decide +kernel, by decide +kernel, by decide +kernel, by decide +kernel, by unfold State.memReady; decide +kernel, by decide +kernel⟩,
    ⟨(let s := held (desc (1 + 2 ^ 10) 16 0x100 0x208) fetchedRing serve; { s with host := { s.host with mem := [(0x101, 7), (0x10F, 9)] } }), 255, desc (1 + 2 ^ 10) 16 0x100 0x208, 5, 9, _, _, by decide +kernel, by decide +kernel, by decide +kernel, by decide +kernel, rfl, by decide +kernel, by decide +kernel, by decide +kernel, rfl, by decide +kernel, by decide +kernel, by decide +kernel, by decide +kernel, by decide +kernel, by decide +kernel, by unfold State.memReady; decide +kernel, by decide +kernel⟩,
    ⟨held (desc (1 + 2 ^ 10) 12 0x100 0x208) fetchedRing [], 255, desc (1 + 2 ^ 10) 12 0x100 0x208, .ok, by decide⟩,
    ⟨_, List.getElem_mem (l := ([(.fill, 2), (.writeImm, 3)] : List ((Fin 256 → ReqResult → Instr) × Nat))) (n := 1) (by decide +kernel), held (desc (3 + 2 ^ 10) 4 0x8070605040302010 0x20C) fetchedRing serve, 255, desc (3 + 2 ^ 10) 4 0x8070605040302010 0x20C, _, _, by decide +kernel, by decide +kernel, by decide +kernel, by decide +kernel, rfl, by decide +kernel, rfl, by decide +kernel, by decide +kernel, by decide +kernel, by decide +kernel, by decide +kernel, by unfold State.memReady; decide +kernel⟩,
    ⟨(let s := held (desc (4 + 2 ^ 21) 16 0x100 0) fetchedRing []; { s with host := { s.host with mem := [(0x101, 7), (0x10F, 9)] } }), 255, desc (4 + 2 ^ 21) 16 0x100 0, _, _, by decide, by decide, by decide, by decide, rfl, by decide, by decide, by decide, by decide, by decide, rfl, by decide⟩,
    ⟨(let s := held (desc (5 + 16 * 2 ^ 16) 48 0x100 0) fetchedRing []; { s with host := { s.host with mem := memWrite [] 0x100 progImg } }), 255, desc (5 + 16 * 2 ^ 16) 48 0x100 0, _, _, 16, _, by decide +kernel, by decide +kernel, by decide +kernel, by decide +kernel, rfl, by decide +kernel, by decide +kernel, by decide +kernel, by decide +kernel, by decide +kernel, by decide +kernel, by decide +kernel, by decide +kernel, rfl, rfl, by decide +kernel⟩,
    ⟨held (desc (5 + 17 * 2 ^ 16) 48 0x100 0) fetchedRing [], 255, desc (5 + 17 * 2 ^ 16) 48 0x100 0, .ok, by decide⟩,
    ⟨held (desc 15 0 0x1000 0) fetchedRing [(.dmaRings 3, R.RING_STATUS.link_count 63, 14)], 255, desc 15 0 0x1000 0, _, by decide, by decide, by decide, by decide, by decide, by decide, rfl, by decide⟩,
    ⟨held (desc 15 0 0x1000 0) fetchedRing [(.dmaRings 3, R.RING_STATUS.link_count 63, 15)], 255, desc 15 0 0x1000 0, _, by decide, by decide, by decide, by decide, rfl, by decide⟩,
    ⟨held (desc 14 0 0 0) { fetchedRing with chainLink := some (desc 15 0 0x1000 0), chainPc := some 0x1020 } [(.dmaRings 3, R.RING_STATUS.head 63, 15), (.dmaRings 3, R.RING_STATUS.in_chain 63, 1)], 255, desc 14 0 0 0, desc 15 0 0x1000 0, by decide⟩,
    ⟨held (desc 14 0 0 0) fetchedRing [], 255, desc 14 0 0 0, by decide⟩⟩

theorem witness_DescriptorsEnd :
    (∃ (s : State), ∃ (r : Fin 256), ∃ (d : Desc), s.ringLive r = true ∧ (s.ring r).phase = .performed ∧ (s.ring r).desc = some d ∧ s.needsFlush d (s.ring r).moved = false ∧ (s.ring r).chainPc = none ∧ (s.ring r).log2n ≤ 16 ∧ (s.ring r).status < 16 ∧ (s.ring r).cause < 16) ∧
    (∃ (s : State), ∃ (r : Fin 256), ∃ (d : Desc), s.ringLive r = true ∧ (s.ring r).phase = .performed ∧ (s.ring r).desc = some d ∧ s.needsFlush d (s.ring r).moved = false ∧ (s.ring r).target = false ∧ s.flag .dma R.PCIE_STATUS.bus_master = true ∧ (s.ring r).status = 0 ∧ (s.ring r).cause = 0 ∧ (s.ring r).crc = none ∧ d.w0.getLsbD 13 = false ∧ (s.ring r).waybillAll = false ∧ (s.ring r).out = [] ∧ s.endpointWedged = false) ∧
    (∃ (s : State), ∃ (r : Fin 256), ∃ (d : Desc), s.ringLive r = true ∧ (s.ring r).phase = .performed ∧ (s.ring r).desc = some d ∧ s.needsFlush d (s.ring r).moved = true) ∧
    (∃ (s : State), ∃ (r : Fin 256), ∃ (d : Desc), ∃ (g n a : Nat), s.ringLive r = true ∧ s.flag .dma R.PCIE_STATUS.bus_master = true ∧ (s.ring r).phase = .fetched ∧ (s.ring r).desc = some d ∧ d.opcode = 1 ∧ n = d.len ∧ n ≠ 0 ∧ n % 8 = 0 ∧ d.src.addr % 8 = 0 ∧ a = d.dst.addr ∧ a % 8 = 0 ∧ s.endDenied d.src n false = false ∧ d.dst.space = 1 ∧ s.dramIn a n = true ∧ s.endLimit d.src n false = none ∧ s.mem.dramBad = [] ∧ s.memReady) ∧
    (∃ (s : State), ∃ (r : Fin 256), ∃ (d : Desc), ∃ (g : Nat), s.flag .dma R.PCIE_STATUS.bus_master = true ∧ (s.ring r).phase = .flushing ∧ (s.ring r).desc = some d) ∧
    (∃ (s : State), ∃ (r : Fin 256), ∃ (d : Desc), (s.ring r).phase = .flushing ∧ (s.ring r).desc = some d ∧ (s.ring r).status = 0 ∧ (s.ring r).stopping = false) ∧
    (∃ (s : State), ∃ (r : Fin 256), ∃ (d : Desc), (s.ring r).phase = .flushing ∧ (s.ring r).desc = some d) ∧
    (∃ p, p ∈ ([(.flushing, fun q => .flushReadComplete (.queue q) true), (.stalled, fun q => .waybill (.queue q))] : List (RecPhase × (Nat → Instr))) ∧ ∃ (s : State), ∃ (q : BitVec 20), ∃ (r : Rec), ∃ (rs : List Rec), s.Sole r rs ∧ r.q = q.toNat ∧ r.phase = p.1 ∧ s.cached q.toNat = true ∧ s.cqRoom (s.ctx q.toNat).cq = true ∧ (s.cqSt (s.ctx q.toNat).cq).log2n ≤ 16 ∧ s.queue.destroying = none ∧ s.enabled .queue = true) ∧
    (∃ (s : State), ∃ (q : BitVec 20), ∃ (r : Rec), ∃ (rs : List Rec), s.Sole r rs ∧ r.q = q.toNat ∧ r.phase = .flushing ∧ s.cached q.toNat = true ∧ s.queue.destroying = none ∧ s.enabled .queue = true) ∧
    (∃ (s : State), ∃ (r : Fin 256), ∃ (w : Waybill), ∃ (c t0 ph a : Nat), (s.ring r).out = [w] ∧ c = (s.ring r).cq ∧ c < 1024 ∧ s.cqRoom c = true ∧ w.bytes.length = 32 ∧ t0 = s.rd (cqBlk c) (R.CQ_STATUS.tail (c % 256)) ∧ ph = s.rd (cqBlk c) (R.CQ_STATUS.phase (c % 256)) ∧ a = (s.cqSt c).base + 32 * t0 ∧ (s.cqSt c).target = false ∧ (s.cqSt c).log2n ≤ 16 ∧ s.flag .dma R.PCIE_STATUS.bus_master = true ∧ s.endpointWedged = false) ∧
    (∃ (s : State), ∃ (r : Fin 256), ∃ (w : Waybill), ∃ (ws : List Waybill), ∃ (c : Nat), (s.ring r).out = w :: ws ∧ c = (s.ring r).cq ∧ c < 1024 ∧ s.cqRoom c = false ∧ (s.ring r).waited = false) :=
  ⟨⟨held (desc 1 16 0 0) { performedRing 16 with status := 1, cause := 4 } [(.dmaRings 3, R.RING_STATUS.head 63, 15)], 255, desc 1 16 0 0, by decide⟩,
    ⟨held (desc (1 + 2 ^ 63 + 2 ^ 57) 16 0 0) (performedRing 16) [], 255, desc (1 + 2 ^ 63 + 2 ^ 57) 16 0 0, by decide⟩,
    ⟨held (desc 1 16 0 0x1000) (performedRing 16) [(.dma, R.P2P_WIN.enable 3, 1), (.dma, R.P2P_WIN.limit 3, 1)], 255, desc 1 16 0 0x1000, by decide⟩,
    ⟨(let s := held (desc (1 + 2 ^ 10) 16 0x100 0x208) fetchedRing serve; { s with host := { s.host with mem := [(0x101, 7), (0x10F, 9)] } }), 255, desc (1 + 2 ^ 10) 16 0x100 0x208, 9, _, _, by decide +kernel, by decide +kernel, by decide +kernel, by decide +kernel, by decide +kernel, rfl, by decide +kernel, by decide +kernel, by decide +kernel, rfl, by decide +kernel, by decide +kernel, by decide +kernel, by decide +kernel, by decide +kernel, by decide +kernel, by unfold State.memReady; decide +kernel⟩,
    ⟨held (desc 1 16 0 0x1000) { performedRing 16 with phase := .flushing } [], 255, desc 1 16 0 0x1000, 0, by decide⟩,
    ⟨held (desc 1 16 0 0x1000) { performedRing 16 with phase := .flushing } [], 255, desc 1 16 0 0x1000, by decide⟩,
    ⟨held (desc 1 16 0 0x1000) { performedRing 16 with phase := .flushing } [], 255, desc 1 16 0 0x1000, by decide⟩,
    ⟨_, List.getElem_mem (l := ([(.flushing, fun q => .flushReadComplete (.queue q) true), (.stalled, fun q => .waybill (.queue q))] : List (RecPhase × (Nat → Instr)))) (n := 1) (by decide), queued .stalled [(.dmaRings 0, R.CQ_CFG.enable 1, 1)], 5, recOf .stalled, [], by unfold State.Sole; decide, by decide⟩,
    ⟨queued .flushing [], 5, recOf .flushing, [], by unfold State.Sole; decide, by decide⟩,
    ⟨ringed 1 { RingSt.idle with cq := 1023, out := [⟨List.replicate 32 6, true⟩] } [(.dmaRings 3, R.CQ_CFG.enable 255, 1), (.dmaRings 3, R.CQ_STATUS.tail 255, 15), (.dmaRings 3, R.CQ_HEAD.head 255, 3)], 255, ⟨List.replicate 32 6, true⟩, _, _, _, _, by decide, rfl, by decide, by decide, by decide, rfl, rfl, rfl, by decide⟩,
    ⟨ringed 1 { RingSt.idle with cq := 1023, out := [⟨List.replicate 32 6, true⟩] } [], 255, ⟨List.replicate 32 6, true⟩, [], _, by decide, rfl, by decide⟩⟩

theorem witness_CompletionQueuesAndEndpoint :
    (∃ (s : State), ∃ (c : Fin 1024), ∃ (v : BitVec 16), s.dev ≠ .off ∧ s.dev ≠ .boot ∧ v.toNat < 2 ^ (s.cqSt c).log2n ∧ (v.toNat + 2 ^ (s.cqSt c).log2n - s.rd (cqBlk c) (R.CQ_HEAD.head (c % 256)) % 2 ^ (s.cqSt c).log2n) % 2 ^ (s.cqSt c).log2n ≤ s.cqUnread c) ∧
    (∃ (s : State), ∃ (c : Fin 1024), ∃ (v : BitVec 16), s.dev ≠ .off ∧ s.dev ≠ .boot ∧ 2 ^ (s.cqSt c).log2n ≤ v.toNat) ∧
    (∃ (s : State), ∃ (c : Fin 1024), ∃ (j base : Nat), s.dev ≠ .off ∧ s.dev ≠ .boot ∧ s.cqOn c = false ∧ j = s.rd (cqBlk c) (R.CQ_BASE.log2n (c.val % 256)) ∧ base = s.rd (cqBlk c) (R.CQ_BASE.base (c.val % 256)) * 512 ∧ 4 ≤ j ∧ j ≤ 16 ∧ base % (32 * 2 ^ j) = 0) ∧
    (∃ (s : State), ∃ (c : Fin 1024), ∃ (j base : Nat), s.dev ≠ .off ∧ s.dev ≠ .boot ∧ s.cqOn c = false ∧ j = s.rd (cqBlk c) (R.CQ_BASE.log2n (c.val % 256)) ∧ base = s.rd (cqBlk c) (R.CQ_BASE.base (c.val % 256)) * 512 ∧ (j < 4 ∨ 16 < j ∨ base % (32 * 2 ^ j) ≠ 0)) ∧
    (∃ (s : State), ∃ (v : Fin 2048), s.host.pba = [(v.val, true)] ∧ s.flag .dma R.PCIE_STATUS.msix_enable = true ∧ s.flag .dma R.PCIE_STATUS.function_mask = false ∧ s.flag .dma R.PCIE_STATUS.bus_master = true ∧ s.endpointWedged = false) ∧
    (∃ (s : State), ∃ (v : Fin 2048), s.host.pba = []) ∧
    (∃ (s : State), s.endpointWedged = false) ∧
    (∃ (s : State), ∃ (o : CfgOp), s.dev ≠ .off ∧ s.endpointWedged = false ∧ s.boot.idsPassed = false) ∧
    (∃ (s : State), ∃ (m b : Bool), s.dev ≠ .off ∧ s.endpointWedged = false ∧ s.boot.idsPassed = true) ∧
    (∃ (s : State), ∃ (n : Nat), s.dev ≠ .off ∧ s.endpointWedged = false ∧ s.boot.idsPassed = true ∧ s.host.memSpace = false ∧ 28 ≤ n ∧ n ≤ 40) ∧
    (∃ (s : State), s.dev ≠ .off ∧ s.endpointWedged = false ∧ s.boot.idsPassed = true) :=
  ⟨⟨up [(.dmaRings 3, R.CQ_STATUS.tail 255, 2), (.dmaRings 3, R.CQ_HEAD.head 255, 15)], 1023, 1, by decide⟩,
    ⟨live, 1023, 16, by decide⟩,
    ⟨up [on .dma, on (.dmaRings 3), (.dmaRings 3, R.CQ_BASE.log2n 255, 16), (.dmaRings 3, R.CQ_BASE.base 255, 4096)], 1023, _, _, by decide, by decide, by decide, rfl, rfl, by decide⟩,
    ⟨up [on .dma, on (.dmaRings 3), (.dmaRings 3, R.CQ_BASE.log2n 255, 16), (.dmaRings 3, R.CQ_BASE.base 255, 1)], 1023, _, _, by decide, by decide, by decide, rfl, rfl, by decide⟩,
    ⟨(let s := up [(.dma, R.PCIE_STATUS.msix_enable, 1), (.dma, R.PCIE_STATUS.bus_master, 1)]; { s with host := { s.host with pba := [(2047, true)] } }), 2047, by decide⟩,
    ⟨live, 2047, by decide⟩,
    ⟨live, by decide⟩,
    ⟨{ live with boot := State.reset.boot }, .read 0, by decide⟩,
    ⟨live, true, true, by decide⟩,
    ⟨{ live with host := HostSt.zero }, 40, by decide⟩,
    ⟨live, by decide⟩⟩

theorem witness_DisplayOutput :
    (∃ (s : State), ∃ (d : Fin 2), s.dispActive d = true ∧ s.rd (.display d) R.DISP_STATUS.line = s.dispHeight d ∧ s.flag (.display d) R.DISP_CTRL.commit = true ∧ s.rd (.display d) R.DISP_CTRL.last_cmd = 1 ∧ s.hadEvent d 0 = false) ∧
    (∃ (s : State), ∃ (d : Fin 2), s.dispActive d = true ∧ s.rd (.display d) R.DISP_STATUS.line = s.dispHeight d ∧ s.flag (.display d) R.DISP_CTRL.commit = false ∧ s.hadEvent d 0 = false) ∧
    (∃ (s : State), ∃ (d : Fin 2), s.dispActive d = true ∧ s.rd (.display d) R.DISP_STATUS.line = s.rd (.display d) R.DISP_IRQ.line_match ∧ s.hadEvent d 1 = false) ∧
    (∃ (s : State), ∃ (d : Fin 2), (s.rd (.display d) R.DISP_STATUS.line ≠ s.rd (.display d) R.DISP_IRQ.line_match ∨ s.hadEvent d 1 = true)) ∧
    (∃ (s : State), ∃ (d : Fin 2), s.dispActive d = true ∧ s.dispHeight d ≤ s.rd (.display d) R.DISP_STATUS.line ∧ s.hadEvent d 2 = false) ∧
    (∃ (s : State), ∃ (d : Fin 2), ∃ (ok : Bool), s.rd (.display d) R.DISP_STATUS.state = 1) ∧
    (∃ (s : State), ∃ (d : Fin 2), ∃ (ok : Bool), s.rd (.display d) R.DISP_STATUS.state ≠ 1) ∧
    (∃ (s : State), ∃ (d : Fin 2), s.dev ≠ .off ∧ s.dev ≠ .boot) ∧
    (∃ (s : State), ∃ (d : Fin 2), s.dev ≠ .off ∧ s.dev ≠ .boot ∧ s.flag (.display d) R.DISP_CTRL.ct_load = false) ∧
    (∃ (s : State), ∃ (d : Fin 2), ∃ (a : Nat), s.flag (.display d) R.DISP_CTRL.ct_load = true ∧ s.rd (.display d) R.DISP_CTRL.last_cmd = 2 ∧ a = s.rd (.display d) R.DISP_CT.addr / 64 * 64 ∧ s.dramIn a 4096 = true ∧ s.dramOpen a 4096 = true ∧ s.firstBadLine a 4096 = none) ∧
    (∃ (s : State), ∃ (d : Fin 2), ∃ (r : AuxResult), ∃ (data : List Byte), s.flag (.display d) R.DISP_AUX.go = true ∧ r ≠ .ack) ∧
    (∃ (s : State), ∃ (d : Fin 2), ∃ (data : List Byte), s.flag (.display d) R.DISP_AUX.go = true ∧ (s.rd (.display d) R.DISP_AUX.type = 1 ∨ s.rd (.display d) R.DISP_AUX.type = 3) ∧ data.length = s.rd (.display d) R.DISP_AUX.len_m1 + 1) ∧
    (∃ (s : State), ∃ (d : Fin 2), ∃ (v : Nat), s.dispActive d = true ∧ v = s.rd (.display d) R.DISP_STATUS.line ∧ v < s.dispHeight d ∧ (∀ n < 4, (s.layer d n).on = false) ∧ s.flag (.display d) R.DISP_LINK.bpc10 = true) ∧
    (∃ (s : State), ∃ (d : Fin 2), ∃ (v : Nat), s.dispActive d = true ∧ v = s.rd (.display d) R.DISP_STATUS.line ∧ s.dispHeight d ≤ v) ∧
    (∃ (s : State), ∃ (d : Fin 2), ∃ (v x0 e : Nat), ∃ (bs : List Byte), s.dispActive d = true ∧ v = s.rd (.display d) R.DISP_STATUS.line ∧ v < s.dispHeight d ∧ (∀ n < 3, (s.layer d n).on = false) ∧ (s.layer d 3).opaque_ = true ∧ (s.layer d 3).span (s.dispWidth d) v = some (x0, e) ∧ (s.disp[d]).line 3 v = some bs ∧ bs.length = 4 * (e - x0) ∧ s.flag (.display d) R.DISP_LINK.bpc10 = true) ∧
    (∃ (s : State), ∃ (d : Fin 2), ∃ (v x0 e : Nat), s.dispActive d = true ∧ v = s.rd (.display d) R.DISP_STATUS.line ∧ v < s.dispHeight d ∧ (∀ n, n < 4 → n ≠ 3 → (s.layer d n).on = false) ∧ (s.layer d 3).span (s.dispWidth d) v = some (x0, e) ∧ (s.disp[d]).line 3 v = none) ∧
    (∃ (s : State), ∃ (d : Fin 2), ∃ (n : Fin 4), ∃ (v : Nat), ∃ (bs : List Byte), (n.val, v) ∉ (s.disp[d]).late ∧ s.dispActive d = true ∧ s.fetched d n v = true ∧ s.lineDue d v = true ∧ (s.disp[d]).line n v = none ∧ ((s.disp[d]).ferry.filter (fun e => e.1 = n.val)).length < 8 ∧ s.layerBytes d (s.layer d n) v = some bs) ∧
    (∃ (s : State), ∃ (d : Fin 2), ∃ (n : Fin 4), ∃ (v : Nat), (n.val, v) ∈ (s.disp[d]).late) :=
  ⟨⟨display [(.display 1, R.DISP_STATUS.line, 3), (.display 1, R.DISP_CTRL.commit, 1), (.display 1, R.DISP_CTRL.last_cmd, 1), (.display 1, ⟨0x1C0, 0, 64⟩, 0x1234567890), (.display 1, ⟨0x1D0, 0, 64⟩, 0x12345)], 1, by decide⟩,
    ⟨(display [(.display 1, R.DISP_STATUS.line, 3)]).setDisp 1 { DispSt.zero with ctNext := some [(3, 4)] }, 1, by decide⟩,
    ⟨(let s := display [(.display 1, R.DISP_STATUS.line, 3), (.display 1, R.DISP_IRQ.line_match, 3), (.display 1, R.DISP_IRQ.enable, 2), (.display 1, R.DISP_IRQ.vector, 9), (.dma, R.PCIE_STATUS.msix_enable, 1), (.dma, R.PCIE_STATUS.bus_master, 1)]; { s with host := { s.host with msixTable := [(156, 0)] } }), 1, by decide⟩,
    ⟨display [(.display 1, R.DISP_STATUS.line, 2), (.display 1, R.DISP_IRQ.line_match, 3)], 1, by decide⟩,
    ⟨display [(.display 1, R.DISP_STATUS.line, 4)], 1, by decide⟩,
    ⟨up [(.display 1, R.DISP_STATUS.state, 1)], 1, false, by decide⟩,
    ⟨display [], 1, true, by decide⟩,
    ⟨live, 1, by decide⟩,
    ⟨live, 1, by decide⟩,
    ⟨dramOn [(.display 1, R.DISP_CTRL.ct_load, 1), (.display 1, R.DISP_CTRL.last_cmd, 2), (.display 1, R.DISP_CT.addr, 0x107F)], 1, _, by decide, by decide, rfl, by decide⟩,
    ⟨up [(.display 1, R.DISP_AUX.go, 1)], 1, .nack, [], by decide⟩,
    ⟨up [(.display 1, R.DISP_AUX.go, 1), (.display 1, R.DISP_AUX.type, 3), (.display 1, R.DISP_AUX.len_m1, 8)], 1, [4, 5, 6, 7, 8, 9, 10, 11, 12], by decide⟩,
    ⟨display [(.display 1, R.DISP_STATUS.line, 2)], 1, _, by decide, rfl, by decide⟩,
    ⟨display [(.display 1, R.DISP_STATUS.line, 4)], 1, _, by decide, rfl, by decide⟩,
    ⟨layered [] (fun x => { x with ferry := [(3, 1, [1, 2, 3, 4, 5, 6, 7, 8])] }), 1, _, 38, 40, [1, 2, 3, 4, 5, 6, 7, 8], by decide, rfl, by decide⟩,
    ⟨layered [] id, 1, _, 38, 40, by decide, rfl, by decide⟩,
    ⟨pokes [on .placement, on (.dram 0), on (.dram 1), (.dram 0, R.DRAM_STATUS.state, 2), (.dram 1, R.DRAM_STATUS.state, 2), (.dram 0, R.DRAM_MAP.n_log2, 1)] (layered [] id), 1, 3, 2, List.replicate 8 0, by decide +kernel⟩,
    ⟨layered [] (fun x => { x with late := [(3, 2)] }), 1, 3, 2, by decide⟩⟩

theorem witness_AuthOperations :
    (∃ p, p ∈ ([(.trustCommit, 1), (.trustClear, 2), (.seedSet, 3), (.userCal, 4), (.fwUpdate true, 5), (.ucodeUpdate, 6), (.lcAdvance, 7), (.extestEnable, 8), (.wipe, 9)] : List (Instr × Nat)) ∧ ∃ (s : State), s.dev ≠ .off ∧ s.dev ≠ .boot ∧ s.sec.op ≠ none) ∧
    (∃ p, p ∈ ([(.trustCommit, 1), (.trustClear, 2), (.seedSet, 3), (.userCal, 4), (.fwUpdate true, 5), (.ucodeUpdate, 6), (.lcAdvance, 7), (.extestEnable, 8), (.wipe, 9)] : List (Instr × Nat)) ∧ ∃ (s : State), s.dev ≠ .off ∧ s.dev ≠ .boot ∧ s.sec.op = none ∧ s.authAccepts p.2 true = true ∧ s.sec.lc ≠ 0) ∧
    (∃ p, p ∈ ([(.trustCommit, 1), (.trustClear, 2), (.seedSet, 3), (.userCal, 4), (.fwUpdate true, 5), (.ucodeUpdate, 6), (.lcAdvance, 7), (.extestEnable, 8), (.wipe, 9)] : List (Instr × Nat)) ∧ ∃ (s : State), s.dev ≠ .off ∧ s.dev ≠ .boot ∧ s.sec.op = none ∧ s.authAccepts p.2 true = true ∧ s.sec.lc = 0) ∧
    (∃ p, p ∈ ([(.trustCommit, 1), (.trustClear, 2), (.seedSet, 3), (.userCal, 4), (.fwUpdate true, 5), (.ucodeUpdate, 6), (.lcAdvance, 7), (.extestEnable, 8), (.wipe, 9)] : List (Instr × Nat)) ∧ ∃ (s : State), s.dev ≠ .off ∧ s.dev ≠ .boot ∧ s.sec.op = none ∧ s.authAccepts p.2 true = false) ∧
    (∃ (s : State), ∃ (o : AuthOp), s.dev ≠ .off ∧ s.dev ≠ .boot ∧ s.sec.op = some o ∧ o.executing = true) ∧
    (∃ (s : State), ∃ (o : AuthOp), s.dev ≠ .off ∧ s.dev ≠ .boot ∧ s.sec.op = some o ∧ o.executing = false) ∧
    (∃ (s : State), ∃ (o : AuthOp), s.sec.op = some o ∧ o.executing = false ∧ o.openedAt + 50 * msUnits ≤ s.tim.raw ∧ s.tim.raw ≤ o.openedAt + 10 * secUnits) ∧
    (∃ (s : State), ∃ (o : AuthOp), s.sec.op = some o ∧ (s.tim.raw < o.openedAt + 50 * msUnits ∨ o.openedAt + 10 * secUnits < s.tim.raw)) ∧
    (∃ (s : State), ∃ (o : AuthOp), s.sec.op = some o ∧ s.tim.raw < o.openedAt + 10 * secUnits) ∧
    (∃ (s : State), ∃ (o : AuthOp), s.sec.op = some o ∧ o.executing = false ∧ o.openedAt + 10 * secUnits ≤ s.tim.raw) ∧
    (∃ (s : State), s.flag .auth R.AUTH_PRESENCE.window_open = false ∧ s.dev ≠ .off) ∧
    (∃ (s : State), s.flag .auth R.AUTH_PRESENCE.window_open = true) :=
  ⟨⟨_, List.getElem_mem (l := ([(.trustCommit, 1), (.trustClear, 2), (.seedSet, 3), (.userCal, 4), (.fwUpdate true, 5), (.ucodeUpdate, 6), (.lcAdvance, 7), (.extestEnable, 8), (.wipe, 9)] : List (Instr × Nat))) (n := 8) (by decide), { live with sec := { live.sec with op := some ⟨3, [], 0, 0, false, 0⟩ } }, by decide⟩,
    ⟨_, List.getElem_mem (l := ([(.trustCommit, 1), (.trustClear, 2), (.seedSet, 3), (.userCal, 4), (.fwUpdate true, 5), (.ucodeUpdate, 6), (.lcAdvance, 7), (.extestEnable, 8), (.wipe, 9)] : List (Instr × Nat))) (n := 6) (by decide), (let s := up [(.auth, R.AUTH_ARG.value 0, 2)]; { s with sec := { s.sec with lc := 1 } }), by decide, (by decide +kernel), by decide⟩,
    ⟨_, List.getElem_mem (l := ([(.trustCommit, 1), (.trustClear, 2), (.seedSet, 3), (.userCal, 4), (.fwUpdate true, 5), (.ucodeUpdate, 6), (.lcAdvance, 7), (.extestEnable, 8), (.wipe, 9)] : List (Instr × Nat))) (n := 6) (by decide), (let s := up [(.auth, R.AUTH_ARG.value 0, 1)]; { s with sec := { s.sec with lc := 0 } }), by decide, (by decide +kernel), by decide⟩,
    ⟨_, List.getElem_mem (l := ([(.trustCommit, 1), (.trustClear, 2), (.seedSet, 3), (.userCal, 4), (.fwUpdate true, 5), (.ucodeUpdate, 6), (.lcAdvance, 7), (.extestEnable, 8), (.wipe, 9)] : List (Instr × Nat))) (n := 6) (by decide), (let s := up [(.auth, R.AUTH_ARG.value 0, 2)]; { s with sec := { s.sec with lc := 0 } }), by decide, (by decide +kernel), by decide⟩,
    ⟨{ live with sec := { live.sec with op := some ⟨3, [], 0, 0, true, 0⟩ } }, ⟨3, [], 0, 0, true, 0⟩, by decide⟩,
    ⟨{ live with sec := { live.sec with op := some ⟨3, [], 0, 0, false, 0⟩ } }, ⟨3, [], 0, 0, false, 0⟩, by decide⟩,
    ⟨{ timed (2 ^ 43) [] with sec := { live.sec with op := some ⟨3, [], 0, 0, false, 0⟩ } }, ⟨3, [], 0, 0, false, 0⟩, by decide⟩,
    ⟨{ live with sec := { live.sec with op := some ⟨3, [], 0, 0, false, 0⟩ } }, ⟨3, [], 0, 0, false, 0⟩, by decide⟩,
    ⟨{ live with sec := { live.sec with op := some ⟨3, [], 0, 0, false, 0⟩ } }, ⟨3, [], 0, 0, false, 0⟩, by decide⟩,
    ⟨{ timed (2 ^ 50) [] with sec := { live.sec with op := some ⟨3, [], 0, 0, false, 0⟩ } }, ⟨3, [], 0, 0, false, 0⟩, by decide⟩,
    ⟨live, by decide⟩,
    ⟨up [(.auth, R.AUTH_PRESENCE.window_open, 1)], by decide⟩⟩

theorem witness_AuthEffects :
    (∃ (s : State), ∃ (o : AuthOp), s.sec.op = some o ∧ o.executing = true ∧ o.op = 1) ∧
    (∃ (s : State), ∃ (o : AuthOp), s.sec.op = some o ∧ o.executing = true ∧ o.op = 2) ∧
    (∃ (s : State), ∃ (o : AuthOp), s.sec.op = some o ∧ o.executing = true ∧ o.op = 3) ∧
    (∃ (s : State), ∃ (o : AuthOp), ∃ (bs : List Byte), s.sec.op = some o ∧ o.executing = true ∧ o.op = 4 ∧ s.authBytes (o.arg 1) (o.arg 2) = some bs) ∧
    (∃ (s : State), ∃ (o : AuthOp), s.sec.op = some o ∧ o.executing = true ∧ (o.op = 1 ∨ o.op = 2 ∨ o.op = 3)) ∧
    (∃ (s : State), ∃ (o : AuthOp), ∃ (img bs : List Byte), s.sec.op = some o ∧ o.executing = true ∧ o.op = 5 ∧ s.authBytes (o.arg 0) (o.arg 1) = some bs ∧ imageCheck bs true = 0 ∧ img = imageWithCounter bs (s.rd .clocks R.BOOT_COUNTER.counter + 1)) ∧
    (∃ (s : State), ∃ (o : AuthOp), ∃ (f : Bool), ∃ (bs : List Byte), s.sec.op = some o ∧ o.executing = true ∧ o.op = 6 ∧ s.authBytes (o.arg 0) (o.arg 1) = some bs ∧ crc 0 bs = o.arg 2) ∧
    (∃ (s : State), ∃ (o : AuthOp), ∃ (f : Bool), ∃ (bs : List Byte), s.sec.op = some o ∧ o.executing = true ∧ o.op = 6 ∧ s.authBytes (o.arg 0) (o.arg 1) = some bs ∧ crc 0 bs ≠ o.arg 2) ∧
    (∃ (s : State), ∃ (o : AuthOp), ∃ (f : Bool), s.sec.op = some o ∧ o.executing = true ∧ o.op = 7 ∧ o.arg 0 = s.sec.lc.toNat + 1 ∧ o.arg 0 ≤ 3 ∧ s.flag .auth R.AUTH_TAMPER.open_ = false) ∧
    (∃ (s : State), ∃ (o : AuthOp), ∃ (f : Bool), s.sec.op = some o ∧ o.executing = true ∧ o.op = 8) ∧
    (∃ (s : State), ∃ (o : AuthOp), ∃ (f : Bool), s.sec.op = some o ∧ o.executing = true ∧ o.op = 9) ∧
    (∃ (s : State), s.dev ≠ .off ∧ s.armed = true ∧ s.flag .auth R.AUTH_TAMPER.open_ = false) ∧
    (∃ (s : State), s.dev ≠ .off ∧ s.armed = false) ∧
    (∃ (s : State), s.dev ≠ .off) ∧
    (∃ (s : State), ∃ (v : Bool), s.dev ≠ .off ∧ s.dev ≠ .boot ∧ 2 ≤ s.sec.lc.toNat) ∧
    (∃ (s : State), ∃ (v : Bool), s.dev ≠ .off ∧ s.dev ≠ .boot ∧ s.sec.lc.toNat < 2 ∧ s.flag .auth R.AUTH_TAMPER.open_ = false) ∧
    (∃ (s : State), s.dev ≠ .off ∧ s.dev ≠ .boot ∧ s.sec.lc.toNat < 2 ∧ s.flag .auth R.AUTH_TAMPER.open_ = true ∧ s.flag .auth R.AUTH_TAMPER.arm = false) :=
  ⟨⟨{ live with sec := { live.sec with op := some ⟨1, [], 0xFFFFFFFFFFFB0104, 77, true, 0⟩ } }, ⟨1, [], 0xFFFFFFFFFFFB0104, 77, true, 0⟩, by decide⟩,
    ⟨{ live with sec := { live.sec with op := some ⟨2, [260], 0, 0, true, 0⟩, region := { Region.empty with trust := [(260, some ⟨-5, 7⟩)] } } }, ⟨2, [260], 0, 0, true, 0⟩, by decide⟩,
    ⟨{ live with sec := { live.sec with op := some ⟨3, [59, 0x1FFFF], 0, 0, true, 0⟩ } }, ⟨3, [59, 0x1FFFF], 0, 0, true, 0⟩, by decide⟩,
    ⟨{ allServe [] with sec := { live.sec with op := some ⟨4, [7, 0x1000, 8, 0], 0, 0, true, 0⟩ }, mem := { MemSt.zero with dram := [(0x1001, 9)] } }, ⟨4, [7, 0x1000, 8, 0], 0, 0, true, 0⟩, [0, 9, 0, 0, 0, 0, 0, 0], by decide +kernel⟩,
    ⟨{ live with sec := { live.sec with op := some ⟨3, [59, 0x1FFFF], 0, 0, true, 0⟩ } }, ⟨3, [59, 0x1FFFF], 0, 0, true, 0⟩, by decide⟩,
    ⟨{ allServe [] with sec := { live.sec with op := some ⟨5, [0x1000, 64], 0, 0, true, 0⟩ }, mem := { MemSt.zero with dram := memWrite [] 0x1000 bootImg } }, ⟨5, [0x1000, 64], 0, 0, true, 0⟩, _, bootImg, by decide +kernel, by decide +kernel, by decide +kernel, by decide +kernel, by decide +kernel, rfl⟩,
    ⟨{ allServe [] with sec := { live.sec with op := some ⟨6, [0x1000, 64, crc 0 (List.replicate 64 0)], 0, 0, true, 0⟩ } }, ⟨6, [0x1000, 64, crc 0 (List.replicate 64 0)], 0, 0, true, 0⟩, true, List.replicate 64 0, by decide +kernel⟩,
    ⟨{ allServe [] with sec := { live.sec with op := some ⟨6, [0x1000, 64, 5], 0, 0, true, 0⟩ } }, ⟨6, [0x1000, 64, 5], 0, 0, true, 0⟩, true, List.replicate 64 0, by decide +kernel⟩,
    ⟨{ live with sec := { live.sec with lc := 0, op := some ⟨7, [1], 0, 0, true, 0⟩ } }, ⟨7, [1], 0, 0, true, 0⟩, true, by decide⟩,
    ⟨{ live with sec := { live.sec with op := some ⟨8, [], 0, 0, true, 0⟩ } }, ⟨8, [], 0, 0, true, 0⟩, true, by decide⟩,
    ⟨{ live with sec := { live.sec with op := some ⟨9, [], 0, 0, true, 0⟩ } }, ⟨9, [], 0, 0, true, 0⟩, true, by decide⟩,
    ⟨{ up [(.auth, R.AUTH_TAMPER.arm, 1)] with sec := { live.sec with op := some ⟨3, [], 0, 0, false, 0⟩ } }, by decide⟩,
    ⟨live, by decide⟩,
    ⟨live, by decide⟩,
    ⟨{ live with sec := { live.sec with lc := 3 } }, true, by decide⟩,
    ⟨live, true, by decide⟩,
    ⟨up [(.auth, R.AUTH_TAMPER.open_, 1)], by decide⟩⟩

theorem witness_ObservationAndJtag :
    (∃ (s : State), s.coreRuns = true ∧ s.flag .observe R.OBS_CTRL.trace_enable = true ∧ s.flag .observe R.OBS_STATUS.stopped = false ∧ s.obs.lost = 0 ∧ s.slotTaken = false ∧ s.obs.markAt + 2 ^ 20 ≤ s.obs.cycle) ∧
    (∃ (s : State), (s.coreRuns = false ∨ s.flag .observe R.OBS_CTRL.trace_enable = false ∨ s.obs.cycle < s.obs.markAt + 2 ^ 20)) ∧
    (∃ (s : State), s.dev ≠ .off ∧ s.dev ≠ .boot ∧ s.flag .observe R.OBS_CTRL.trace_enable = false) ∧
    (∃ (s : State), (s.sec.lc.toNat < 2 ∨ s.sec.extest = true)) ∧
    (∃ (s : State), 2 ≤ s.sec.lc.toNat ∧ s.sec.extest = false) ∧
    (∃ (s : State), ∃ (b : Blk), ∃ (a : BitVec 26), b ∈ [Blk.global, Blk.clocks, Blk.observe, Blk.auth] ∧ a.toNat = b.base ∧ s.dev ≠ .off) ∧
    (∃ (s : State), ∃ (b : Blk), ∃ (o : Nat), ∃ (x : RegAt), ∃ (a : BitVec 26), accessAt a.toNat 64 = some (b, o, x) ∧ b ∉ [Blk.global, Blk.clocks, Blk.observe, Blk.auth] ∧ s.dev ≠ .off) :=
  ⟨⟨{ up [on .observe, (.observe, R.OBS_CTRL.trace_enable, 1), (.observe, R.OBS_STATUS.trace_head, 4095)] with obs := { live.obs with cycle := 2 ^ 20 } }, by decide⟩,
    ⟨live, by decide⟩,
    ⟨live, by decide⟩,
    ⟨live, by decide⟩,
    ⟨{ live with sec := { live.sec with lc := 2 } }, by decide⟩,
    ⟨live, Blk.auth, 0xA0000, by decide +kernel⟩,
    ⟨live, Blk.muster, 0x48, ((Blk.muster.regAt 0x48).getD ⟨0, 0, roAcc⟩), 0x10048, by decide +kernel⟩⟩

theorem witness_Housekeeping :
    (∃ (s : State), ∃ (v : Fin 2), ∃ (c : Nat), ∃ (cs : List Nat), ∃ (x : BitVec 24), ∃ (eng : BitVec 16), s.dev ≠ .off ∧ s.hk.urgent = false ∧ (s.hk.conv[v]).todo = c :: cs ∧ cs ≠ [] ∧ c < 15) ∧
    (∃ (s : State), ∃ (v w : Fin 2), ∃ (x : BitVec 24), ∃ (eng : BitVec 16), ∃ (y z : Int), ∃ (u : Nat), s.dev ≠ .off ∧ s.hk.urgent = false ∧ (s.hk.conv[v]).todo = [15] ∧ v ≠ w ∧ (s.hk.conv[w]).last15 = some (z, u) ∧ s.tim.raw ≤ u + 100 * msUnits ∧ y = s.hkCorrect v 15 x.toInt) ∧
    (∃ (s : State), ∃ (v : Fin 2), ∃ (x : BitVec 24), ∃ (eng : BitVec 16), s.dev ≠ .off ∧ s.hk.urgent = true ∧ s.hk.urgentConv = v ∧ s.hk.urgentChan < 15 ∧ (s.hk.conv[v]).todo ≠ []) ∧
    (∃ p, p ∈ ([(.urgentRequest true, 1), (.urgentRequest false, 1), (.urgent, 2)] : List (Instr × Nat)) ∧ ∃ (s : State), ∃ (v : Fin 2), s.dev ≠ .off ∧ s.dev ≠ .boot ∧ s.sameRequest p.2 = false ∧ (∀ b, p.1 = .urgentRequest b → s.flag .housekeeping R.HK_CFG.start_edge = b) ∧ s.hk.urgent = false ∧ v = Fin.ofNat 2 (s.rd .housekeeping R.HK_CFG.urgent_conv) ∧ s.enabled .housekeeping = true ∧ s.flag .housekeeping R.BLOCK_STATUS.quiescing = false ∧ (s.hk.conv[v]).urgentDone = false) ∧
    (∃ p, p ∈ ([(.urgentRequest true, 1), (.urgentRequest false, 1), (.urgent, 2)] : List (Instr × Nat)) ∧ ∃ (s : State), ∃ (v : Fin 2), s.dev ≠ .off ∧ s.dev ≠ .boot ∧ s.sameRequest p.2 = false ∧ (∀ b, p.1 = .urgentRequest b → s.flag .housekeeping R.HK_CFG.start_edge = b) ∧ s.hk.urgent = false ∧ v = Fin.ofNat 2 (s.rd .housekeeping R.HK_CFG.urgent_conv) ∧ (s.enabled .housekeeping = false ∨ s.flag .housekeeping R.BLOCK_STATUS.quiescing = true ∨ (s.hk.conv[v]).urgentDone = true)) ∧
    (∃ (s : State), s.dev ≠ .off ∧ s.dev ≠ .boot ∧ s.sameRequest 2 = true ∧ s.hk.urgent = true) ∧
    (∃ (s : State), ∃ (b : Bool), s.flag .housekeeping R.HK_CFG.start_edge ≠ b) :=
  ⟨⟨(let s := up [on .housekeeping]; s.setConv 1 { ConvSt.zero with todo := [14, 15], pass := 2 ^ 32 - 1 }), 1, 14, [15], 0xFFFFFF, 5, by decide⟩,
    ⟨((up [on .housekeeping]).setConv 1 { ConvSt.zero with todo := [15], pass := 2 ^ 32 - 1 }).setConv 0 { ConvSt.zero with last15 := some (10, 0) }, 1, 0, 5000, 0, _, 10, 0, by decide, by decide, by decide, by decide, by decide, by decide, rfl⟩,
    ⟨(let s := up [on .housekeeping]; { s with hk := { s.hk with urgent := true, urgentConv := 1, urgentChan := 14 } }), 1, 0xFFFFFF, 5, by decide⟩,
    ⟨_, List.getElem_mem (l := ([(.urgentRequest true, 1), (.urgentRequest false, 1), (.urgent, 2)] : List (Instr × Nat))) (n := 2) (by decide), up [on .housekeeping, (.housekeeping, R.HK_CFG.urgent_conv, 1), (.housekeeping, R.HK_CFG.urgent_chan, 9)], _, by decide, by decide, by decide, (by intro b h; cases h), by decide, rfl, by decide⟩,
    ⟨_, List.getElem_mem (l := ([(.urgentRequest true, 1), (.urgentRequest false, 1), (.urgent, 2)] : List (Instr × Nat))) (n := 2) (by decide), live, _, by decide, by decide, by decide, (by intro b h; cases h), by decide, rfl, by decide⟩,
    ⟨{ live with hk := { live.hk with urgent := true, urgentSrc := 1, urgentAt := 0 } }, by decide⟩,
    ⟨live, true, by decide⟩⟩

end Sys2Proof.Tests
end

namespace Sys2Proof.Proofs
open Sys2Proof Sys2Proof.Machine Sys2Proof.Laws

/-! ### Which register words an operation writes -/

/-- `t` differs from `s` in register words of `W` alone. -/
structure WritesOnly (W : Nat → Prop) (s t : State) : Prop where
  only : OnlyRegs s t
  word : ∀ a, ¬ W a → t.word a = s.word a

/-- The word at `a` lies in the slot of block `b`. -/
def InSlot (b : Blk) (a : Nat) : Prop := a / 0x10000 = b.slot

theorem inSlot_base (b : Blk) {o : Nat} (h : o < 0x10000) : InSlot b (b.base + o) := by
  unfold InSlot Blk.base
  omega

section WritesOnly
variable {W V : Nat → Prop} {s t u : State}

theorem WritesOnly.refl (W : Nat → Prop) (s : State) : WritesOnly W s s := ⟨.refl s, fun _ _ => rfl⟩

theorem WritesOnly.trans (h : WritesOnly W s t) (g : WritesOnly W t u) : WritesOnly W s u :=
  ⟨h.only.trans g.only, fun a ha => (g.word a ha).trans (h.word a ha)⟩

theorem WritesOnly.mono (h : WritesOnly W s t) (hv : ∀ a, W a → V a) : WritesOnly V s t :=
  ⟨h.only, fun a ha => h.word a (fun w => ha (hv a w))⟩

theorem writesOnly_wr (s : State) {b : Blk} {f : Fld} (v : Nat) (h : W (b.base + f.off)) : WritesOnly W s (s.wr b f v) :=
  ⟨onlyRegs_wr s b f v, fun a ha => by rw [word_wr, if_neg (by rintro rfl; exact ha h)]⟩

theorem writesOnly_wrw (s : State) {b : Blk} {o : Nat} (v : Nat) (h : W (b.base + o)) : WritesOnly W s (s.wrw b o v) :=
  ⟨onlyRegs_wrw s b o v, fun a ha => by rw [word_wrw, if_neg (by rintro rfl; exact ha h)]⟩

theorem WritesOnly.wr (h : WritesOnly W s t) {b : Blk} {f : Fld} (v : Nat) (hw : W (b.base + f.off)) :
    WritesOnly W s (t.wr b f v) := h.trans (writesOnly_wr t v hw)

theorem WritesOnly.cnt (h : WritesOnly W s t) {b : Blk} {f : Fld} (n : Nat) (hw : W (b.base + f.off)) :
    WritesOnly W s (t.cnt b f n) := by
  unfold State.cnt
  split
  · exact h
  · exact h.wr _ hw

theorem WritesOnly.fault (h : WritesOnly W s t) {b : Blk} {f : Fld} (hw : W (b.base + f.off))
    (hb : W (b.base + R.BLOCK_STATUS.fault.off)) : WritesOnly W s (t.fault b f) := (h.wr 1 hw).wr 1 hb

theorem WritesOnly.each {β : Type} (l : List β) (g : β → Op) (hg : ∀ x ∈ l, ∀ s, WritesOnly W s (g x s)) :
    ∀ s : State, WritesOnly W s (s.each l g) := by
  induction l with
  | nil => exact fun s => .refl W s
  | cons x l ih =>
    exact fun s => (hg x List.mem_cons_self s).trans (ih (fun y hy => hg y (List.mem_cons_of_mem x hy)) (g x s))

theorem writesOnly_ferryPass {b : Blk} {level hw : Fld} (depth n : Nat) (s : State) (h : W (b.base + hw.off)) :
    WritesOnly W s (ferryPass b level hw depth n s) := by
  unfold ferryPass
  dsimp only
  split
  · exact writesOnly_wr s _ h
  · exact .refl W s

theorem writesOnly_ferryLevel {b : Blk} {level hw : Fld} (depth n : Nat) (s : State) (hl : W (b.base + level.off))
    (h : W (b.base + hw.off)) : WritesOnly W s (ferryLevel b level hw depth n s) := by
  unfold ferryLevel
  dsimp only
  split
  · exact (writesOnly_wr s _ hl).wr _ h
  · exact writesOnly_wr s _ hl

theorem WritesOnly.sameOutside {b : Blk} (h : WritesOnly W s t) (hw : ∀ a, W a → InSlot b a) : SameOutside b s t :=
  fun a ha => h.word a (fun w => ha (hw a w))

theorem WritesOnly.rd (h : WritesOnly W s t) {b : Blk} {f : Fld} (hw : ¬ W (b.base + f.off)) : t.rd b f = s.rd b f := by
  unfold State.rd
  rw [h.word _ hw]

end WritesOnly

section OnlyRegs
variable {s t : State}

theorem onlyRegs_mem (h : OnlyRegs s t) : t.mem = s.mem := by unfold OnlyRegs at h; rw [h]
theorem onlyRegs_cores (h : OnlyRegs s t) : t.cores = s.cores := by unfold OnlyRegs at h; rw [h]
theorem onlyRegs_host (h : OnlyRegs s t) : t.host = s.host := by unfold OnlyRegs at h; rw [h]
theorem onlyRegs_dev (h : OnlyRegs s t) : t.dev = s.dev := by unfold OnlyRegs at h; rw [h]
theorem onlyRegs_sec (h : OnlyRegs s t) : t.sec = s.sec := by unfold OnlyRegs at h; rw [h]
theorem onlyRegs_queue (h : OnlyRegs s t) : t.queue = s.queue := by unfold OnlyRegs at h; rw [h]

end OnlyRegs

/-! ### Fields of one block -/

/-- The field just written. -/
theorem rd_wr_val (s : State) (b : Blk) (f : Fld) (v : Nat) (h : f.lo + f.width ≤ 64) : (s.wr b f v).rd b f = v % 2 ^ f.width :=
  rd_wr_self s b f v h

/-- A field of the same block that shares no bit with the one written. -/
theorem rd_wr_keep (s : State) (b : Blk) (f g : Fld) (v : Nat)
    (h : g.off ≠ f.off ∨ g.lo + g.width ≤ f.lo ∨ f.lo + f.width ≤ g.lo) : (s.wr b f v).rd b g = s.rd b g := by
  by_cases ho : g.off = f.off
  · exact rd_wr_apart s b f g v ho (h.resolve_left (fun n => n ho))
  · exact rd_wr_ne s b b f g v (fun e => ho (Nat.add_left_cancel e))

theorem rd_cnt_val (s : State) (b : Blk) (f : Fld) (n : Nat) (h : f.lo + f.width ≤ 64) :
    (s.cnt b f n).rd b f = min (s.rd b f + n) f.top := rd_cnt_self s b f n h

theorem rd_cnt_keep (s : State) (b : Blk) (f g : Fld) (n : Nat)
    (h : g.off ≠ f.off ∨ g.lo + g.width ≤ f.lo ∨ f.lo + f.width ≤ g.lo) : (s.cnt b f n).rd b g = s.rd b g := by
  unfold State.cnt
  split
  · rfl
  · exact rd_wr_keep s b f g _ h

/-! ### Bits of a register word after a write (R5) -/

theorem nbit_eq_testBit (x i : Nat) : nbit x i = x.testBit i := (Nat.testBit_eq_decide_div_mod_eq).symm

/-- Bit `i` of what `writeBits` puts into a word `w`: bits of `take` come from `v`, bits of `clr` clear. -/
theorem testBit_taken (w v take clr i : Nat) (hi : i < 64) :
    (Nat.land (Nat.lor (Nat.land w (Nat.xor take (2 ^ 64 - 1))) (Nat.land v take)) (Nat.xor clr (2 ^ 64 - 1))).testBit i
      = ((if take.testBit i then v.testBit i else w.testBit i) && !clr.testBit i) := by
  have hx : ∀ m : Nat, (m ^^^ (2 ^ 64 - 1)).testBit i = !m.testBit i := fun m => by
    rw [Nat.testBit_xor, Nat.testBit_two_pow_sub_one, decide_eq_true hi, Bool.xor_true]
  change ((w &&& (take ^^^ (2 ^ 64 - 1)) ||| v &&& take) &&& (clr ^^^ (2 ^ 64 - 1))).testBit i = _
  rw [Nat.testBit_and, Nat.testBit_or, Nat.testBit_and, Nat.testBit_and, hx, hx]
  cases take.testBit i <;> simp

/-- A LIVE or CNT bit that the access covers takes the bit written. -/
theorem bitAfter_live {x : WordAcc} {off : Bool} {mask old v i : Nat} (hm : nbit mask i = true) (hl : nbit x.live i = true)
    (hc : nbit x.w1c i = false) : bitAfter x off mask old v i = nbit v i := by
  simp [bitAfter, hm, hl, hc]

/-- A bit that is not LIVE, CNT or W1C keeps its value, if no CFG write takes it. -/
theorem bitAfter_keep {x : WordAcc} {off : Bool} {mask old v i : Nat} (hl : nbit x.live i = false)
    (hg : (nbit x.cfg i && off) = false) (hc : nbit x.w1c i = false) : bitAfter x off mask old v i = nbit old i := by
  simp [bitAfter, hl, hg, hc]

/-- The words a write to the word at `o` of block `b` can change: that word, and where an ignored CFG write is recorded (R32, R33). -/
def WrittenWith (b : Blk) (o a : Nat) : Prop :=
  a = b.base + o ∨ a = b.base + 0x010 ∨ a = b.base + 0x018 ∨ a = b.base + 0x020

theorem WrittenWith.inSlot {b : Blk} {o : Nat} (ho : o < 0x10000) (a : Nat) (h : WrittenWith b o a) : InSlot b a := by
  obtain rfl | rfl | rfl | rfl := h
  · exact inSlot_base b ho
  · exact inSlot_base b (by decide)
  · exact inSlot_base b (by decide)
  · exact inSlot_base b (by decide)

/-- An ignored CFG write is recorded in BLOCK_STATUS, LAST_IGNORED and IGNORED_WRITES (R33). -/
theorem writesOnly_cfgIgnored (p : Port) (b : Blk) (o : Nat) (s : State) :
    WritesOnly (fun a => a = b.base + 0x010 ∨ a = b.base + 0x018 ∨ a = b.base + 0x020) s (cfgIgnored p b o s) := by
  unfold cfgIgnored
  exact ((((writesOnly_wr s _ (.inl rfl)).wr _ (.inr (.inl rfl))).wr _ (.inr (.inl rfl))).wr _ (.inr (.inl rfl))).cnt _
    (.inr (.inr rfl))

theorem cfgIgnored_rd (p : Port) (b : Blk) (o : Nat) (s : State) :
    (cfgIgnored p b o s).rd b R.BLOCK_STATUS.cfg_write_ignored = 1 ∧
    (cfgIgnored p b o s).rd b R.LAST_IGNORED.offset = o % 2 ^ 16 ∧
    (cfgIgnored p b o s).rd b R.LAST_IGNORED.port = p.code % 4 ∧
    (cfgIgnored p b o s).rd b R.IGNORED_WRITES.count = min (s.rd b R.IGNORED_WRITES.count + 1) (2 ^ 32 - 1) := by
  unfold cfgIgnored
  refine ⟨?_, ?_, ?_, ?_⟩
  · simp (disch := decide) only [rd_cnt_keep, rd_wr_keep, rd_wr_val]
    rfl
  · simp (disch := decide) only [rd_cnt_keep, rd_wr_keep, rd_wr_val]
    rfl
  · simp (disch := decide) only [rd_cnt_keep, rd_wr_keep, rd_wr_val]
    rfl
  · simp (disch := decide) only [rd_cnt_val, rd_wr_keep]
    rfl

/-- CFG bits of the word at `o` of block `b` take a write: their owner is disabled, or has no enable (R33). -/
def cfgOpen (b : Blk) (o : Nat) (s : State) : Bool :=
  !s.flag (b.owner o) R.BLOCK_STATUS.enabled || (b.owner o).alwaysOn

/-- The word `writeBits` leaves where `w` stood, with CFG bits open or not. -/
def wordAfter (acc : WordAcc) (off : Bool) (mask w v : Nat) : Nat :=
  let take := Nat.lor (Nat.land acc.live mask) (if off then Nat.land acc.cfg mask else 0)
  Nat.land (Nat.lor (Nat.land w (Nat.xor take (2 ^ 64 - 1))) (Nat.land v take))
    (Nat.xor (Nat.land (Nat.land acc.w1c mask) v) (2 ^ 64 - 1))

theorem testBit_wordAfter (acc : WordAcc) (off : Bool) (mask w v i : Nat) (hi : i < 64) :
    (wordAfter acc off mask w v).testBit i = bitAfter acc off mask w v i := by
  have htake : (Nat.lor (Nat.land acc.live mask) (if off then Nat.land acc.cfg mask else 0)).testBit i
      = (mask.testBit i && (acc.live.testBit i || (acc.cfg.testBit i && off))) := by
    change ((acc.live &&& mask) ||| (if off then acc.cfg &&& mask else 0)).testBit i = _
    rw [Nat.testBit_or, Nat.testBit_and]
    cases off <;> cases h : mask.testBit i <;> simp [h]
  have hclr : (Nat.land (Nat.land acc.w1c mask) v).testBit i = (mask.testBit i && acc.w1c.testBit i && v.testBit i) := by
    change ((acc.w1c &&& mask) &&& v).testBit i = _
    rw [Nat.testBit_and, Nat.testBit_and, Bool.and_comm (acc.w1c.testBit i)]
  unfold wordAfter bitAfter
  dsimp only
  rw [testBit_taken _ _ _ _ _ hi, htake, hclr]
  simp only [nbit_eq_testBit]

/-- `writeBits` writes the word, and records the write where it had CFG bits that the word's owner keeps. -/
theorem writeBits_eq (p : Port) (b : Blk) (o mask v : Nat) (acc : WordAcc) (s : State) :
    writeBits p b o mask v acc s =
      let t := s.wrw b o (wordAfter acc (cfgOpen b o s) mask (s.rdw b o) v)
      if Nat.land acc.cfg mask ≠ 0 && !cfgOpen b o s then cfgIgnored p b (if mask = 2 ^ 64 - 2 ^ 32 then o + 4 else o) t else t :=
  rfl

theorem writesOnly_writeBits (p : Port) (b : Blk) (o mask v : Nat) (acc : WordAcc) (s : State) :
    WritesOnly (WrittenWith b o) s (writeBits p b o mask v acc s) := by
  rw [writeBits_eq]
  dsimp only
  split
  · exact (writesOnly_wrw s _ (.inl rfl)).trans ((writesOnly_cfgIgnored _ _ _ _).mono fun a h => .inr h)
  · exact writesOnly_wrw s _ (.inl rfl)

/-- Where no CFG write is ignored, only the word itself is written. -/
theorem writesOnly_writeBits_taken (p : Port) (b : Blk) (o mask v : Nat) (acc : WordAcc) (s : State)
    (h : acc.cfg = 0 ∨ cfgOpen b o s = true) : WritesOnly (· = b.base + o) s (writeBits p b o mask v acc s) := by
  have hc : (Nat.land acc.cfg mask ≠ 0 && !cfgOpen b o s) = false := by
    obtain h | h := h
    · simp [h]
    · simp [h]
  rw [writeBits_eq, hc]
  exact writesOnly_wrw s _ rfl

/-- A write that finds CFG bits closed is recorded (R33). -/
theorem writeBits_ignored_rd (p : Port) (b : Blk) (o mask v : Nat) (acc : WordAcc) (s : State) (hc : cfgOpen b o s = false)
    (hcfg : Nat.land acc.cfg mask ≠ 0) (hmask : mask ≠ 2 ^ 64 - 2 ^ 32) (ho : o ≠ 0x020) :
    (writeBits p b o mask v acc s).rd b R.BLOCK_STATUS.cfg_write_ignored = 1 ∧
    (writeBits p b o mask v acc s).rd b R.LAST_IGNORED.offset = o % 2 ^ 16 ∧
    (writeBits p b o mask v acc s).rd b R.LAST_IGNORED.port = p.code % 4 ∧
    (writeBits p b o mask v acc s).rd b R.IGNORED_WRITES.count = min (s.rd b R.IGNORED_WRITES.count + 1) (2 ^ 32 - 1) := by
  have hw : writeBits p b o mask v acc s = cfgIgnored p b o (s.wrw b o (wordAfter acc false mask (s.rdw b o) v)) := by
    rw [writeBits_eq, hc, if_neg hmask]
    exact if_pos (by rw [decide_eq_true hcfg]; rfl)
  obtain ⟨hign, hlast, hport, hcount⟩ := cfgIgnored_rd p b o (s.wrw b o (wordAfter acc false mask (s.rdw b o) v))
  rw [rd_wrw_ne _ _ _ _ _ _ (fun e => ho (Nat.add_left_cancel e).symm)] at hcount
  rw [hw]
  exact ⟨hign, hlast, hport, hcount⟩

/-- Every bit of the word follows its access type (R5), in a word that records no ignored write. -/
theorem getLsbD_writeBits (p : Port) (b : Blk) (o mask v : Nat) (acc : WordAcc) (s : State)
    (h : o = 0x010 ∨ o = 0x018 ∨ o = 0x020 → acc.cfg = 0) {i : Nat} (hi : i < 64) :
    ((writeBits p b o mask v acc s).word (b.base + o)).getLsbD i = bitAfter acc (cfgOpen b o s) mask (s.rdw b o) v i := by
  have hw : (s.wrw b o (wordAfter acc (cfgOpen b o s) mask (s.rdw b o) v)).word (b.base + o)
      = BitVec.ofNat 64 (wordAfter acc (cfgOpen b o s) mask (s.rdw b o) v) := by rw [word_wrw, if_pos rfl]
  have hr : (writeBits p b o mask v acc s).word (b.base + o)
      = BitVec.ofNat 64 (wordAfter acc (cfgOpen b o s) mask (s.rdw b o) v) := by
    rw [writeBits_eq]
    dsimp only
    split
    · rename_i hc
      rw [(writesOnly_cfgIgnored _ _ _ _).word, hw]
      intro ho
      have := h (by omega)
      simp [this] at hc
    · exact hw
  rw [hr, BitVec.getLsbD_ofNat, decide_eq_true hi, Bool.true_and, testBit_wordAfter _ _ _ _ _ _ hi]
end Sys2Proof.Proofs

namespace Sys2Proof.Proofs
open Sys2Proof Sys2Proof.Machine Sys2Proof.Laws

/-! ### The path of a register access (R18, R26, R30) -/

theorem Port.index_injective {p q : Port} (h : p.index = q.index) : p = q := by
  cases p with
  | host => cases q <;> simp [Port.index] at h ⊢; omega
  | alnen i =>
    cases q with
    | host => simp [Port.index] at h
    | alnen j => exact congrArg Port.alnen (Fin.ext (by simpa [Port.index] using h))
    | mgmt => simp [Port.index] at h; omega
  | mgmt => cases q <;> simp [Port.index] at h ⊢; omega


theorem latch_setLatch_self (p : Port) (l : Option LatchSt) (s : State) : (setLatch p l s).latch p = l := get_set_self _ _ _ _

theorem latch_setLatch_ne {p q : Port} (l : Option LatchSt) (s : State) (h : q ≠ p) : (setLatch p l s).latch q = s.latch q :=
  get_set_ne _ _ _ (fun e => h (Port.index_injective e))

/-- A host access shows in the marks of reg_req and reg_rsp, an access of another port in none (R18, R19). -/
theorem writesOnly_regFerries (p : Port) (s : State) : WritesOnly (fun a => a = 0x140 ∨ a = 0x148) s (regFerries p s) := by
  unfold regFerries
  split
  · exact (writesOnly_ferryPass _ _ _ (.inl (by decide))).trans (writesOnly_ferryPass _ _ _ (.inr (by decide)))
  · exact .refl _ s

theorem regFerries_latch (p q : Port) (s : State) : (regFerries p s).latch q = s.latch q := by
  unfold State.latch
  rw [onlyRegs_host (writesOnly_regFerries p s).only]

@[simp] theorem aerAbort_latch (s : State) (p : Port) : s.aerAbort.latch p = s.latch p := rfl

theorem regFerries_of_ne_host {p : Port} (h : p ≠ .host) (s : State) : regFerries p s = s := if_neg h

/-- The state a write or a rejected access of port `p` works on: the ferries have passed it, and the port's latch is released. -/
def accessed (p : Port) (s : State) : State := setLatch p none (regFerries p s)

theorem accessed_word (p : Port) (s : State) {a : Nat} (h : a ≠ 0x140) (g : a ≠ 0x148) : (accessed p s).word a = s.word a :=
  (writesOnly_regFerries p s).word a (by rintro (e | e); exacts [h e, g e])

theorem accessed_word_of_ne_host {p : Port} (h : p ≠ .host) (s : State) (a : Nat) : (accessed p s).word a = s.word a := by
  unfold accessed
  rw [regFerries_of_ne_host h]
  rfl

theorem slot_pos {b : Blk} (hb : b ≠ .global) : 1 ≤ b.slot := by
  cases b <;> simp_all [Blk.slot] <;> omega

/-- The registers of the ferries lie in GLOBAL. -/
theorem ne_regFerry {b : Blk} (hb : b ≠ .global) (o : Nat) : b.base + o ≠ 0x140 ∧ b.base + o ≠ 0x148 := by
  have := slot_pos hb
  unfold Blk.base
  omega

theorem accessed_rd (p : Port) (s : State) {b : Blk} (f : Fld) (h : b ≠ .global) : (accessed p s).rd b f = s.rd b f := by
  unfold State.rd
  rw [accessed_word p s (ne_regFerry h _).1 (ne_regFerry h _).2]

theorem accessed_mem (p : Port) (s : State) : (accessed p s).mem = s.mem := by
  change (regFerries p s).mem = _
  exact onlyRegs_mem (writesOnly_regFerries p s).only

theorem accessed_cores (p : Port) (s : State) : (accessed p s).cores = s.cores := by
  change (regFerries p s).cores = _
  exact onlyRegs_cores (writesOnly_regFerries p s).only

theorem accessed_dev (p : Port) (s : State) : (accessed p s).dev = s.dev := by
  change (regFerries p s).dev = _
  exact onlyRegs_dev (writesOnly_regFerries p s).only

theorem accessed_sec (p : Port) (s : State) : (accessed p s).sec = s.sec := by
  change (regFerries p s).sec = _
  exact onlyRegs_sec (writesOnly_regFerries p s).only

theorem accessed_aerAborts (p : Port) (s : State) : (accessed p s).host.aerAborts = s.host.aerAborts := by
  change (regFerries p s).host.aerAborts = _
  rw [onlyRegs_host (writesOnly_regFerries p s).only]

theorem portLive_host {s : State} (h : s.dev ≠ .off) (hb : s.barOpen = true) : s.portLive .host = true := by
  simp [State.portLive, h, hb]

theorem portLive_mgmt {s : State} (h : s.dev ≠ .off) : s.portLive .mgmt = true := by simp [State.portLive, h]

/-- A write that decoding accepts. -/
theorem exec_registerWrite_accepted {p : Port} {addr w : Nat} {v : BitVec 64} {s : State} {b : Blk} {o : Nat} {x : RegAt}
    (hlive : s.portLive p = true) (hacc : accessAt addr w = some (b, o, x)) (hboot : s.dev ≠ .boot)
    (hmay : portMayWrite p b o = true) : exec (.registerWrite p addr w v) s =
      .next (regWrite p b (o / 8 * 8) (coverMask o w) (writeValue o w v.toNat) x.acc (accessed p s)) := by
  have hb : (regFerries p s).dev ≠ .boot := by rw [onlyRegs_dev (writesOnly_regFerries p s).only]; exact hboot
  change Host.Outcome.next (opRegisterWrite p addr w v s) = _
  unfold opRegisterWrite portWrite
  simp only [hlive, hacc, hb, hmay]
  rfl

/-- A 64-bit write that decoding accepts. -/
theorem exec_registerWrite_word {p : Port} {addr : Nat} {s : State} {b : Blk} {o : Nat} {x : RegAt} (v : BitVec 64)
    (hlive : s.portLive p = true) (hacc : accessAt addr 64 = some (b, o, x)) (hboot : s.dev ≠ .boot)
    (hmay : portMayWrite p b o = true) (ho : o % 8 = 0) : exec (.registerWrite p addr 64 v) s =
      .next (regWrite p b o (2 ^ 64 - 1) v.toNat x.acc (accessed p s)) := by
  have hv : writeValue o 64 v.toNat = v.toNat := Nat.mod_eq_of_lt v.isLt
  rw [exec_registerWrite_accepted hlive hacc hboot hmay, hv, Nat.div_mul_cancel (Nat.dvd_of_mod_eq_zero ho)]
  rfl

/-- A 32-bit write to the low half of a word that decoding accepts. -/
theorem exec_registerWrite_low {p : Port} {addr : Nat} {s : State} {b : Blk} {o : Nat} {x : RegAt} (v : BitVec 64)
    (hlive : s.portLive p = true) (hacc : accessAt addr 32 = some (b, o, x)) (hboot : s.dev ≠ .boot)
    (hmay : portMayWrite p b o = true) (ho : o % 8 = 0) : exec (.registerWrite p addr 32 v) s =
      .next (regWrite p b o (2 ^ 32 - 1) (v.toNat % 2 ^ 32) x.acc (accessed p s)) := by
  have hv : writeValue o 32 v.toNat = v.toNat % 2 ^ 32 := by simp [writeValue, ho]
  have hm : coverMask o 32 = 2 ^ 32 - 1 := by simp [coverMask, ho]
  rw [exec_registerWrite_accepted hlive hacc hboot hmay, hv, hm, Nat.div_mul_cancel (Nat.dvd_of_mod_eq_zero ho)]

/-- A write that decoding rejects (R26). -/
theorem exec_registerWrite_rejected {p : Port} {addr w : Nat} {v : BitVec 64} {s : State} (hlive : s.portLive p = true)
    (hacc : accessAt addr w = none) : exec (.registerWrite p addr w v) s = .next (busError p addr (accessed p s)) := by
  change Host.Outcome.next (opRegisterWrite p addr w v s) = _
  unfold opRegisterWrite portWrite
  simp only [hlive, hacc]
  rfl

section hostAnswer
variable (ok poisoned : Bool) (bs : List Byte) (s : State)

@[simp] theorem hostAnswer_word (a : Nat) : (hostAnswer ok poisoned bs s).word a = s.word a := rfl
@[simp] theorem hostAnswer_mem : (hostAnswer ok poisoned bs s).mem = s.mem := rfl
@[simp] theorem hostAnswer_cores : (hostAnswer ok poisoned bs s).cores = s.cores := rfl
@[simp] theorem hostAnswer_queue : (hostAnswer ok poisoned bs s).queue = s.queue := rfl
@[simp] theorem hostAnswer_latch (p : Port) : (hostAnswer ok poisoned bs s).latch p = s.latch p := rfl
@[simp] theorem hostAnswer_readOk : (hostAnswer ok poisoned bs s).host.readOk = ok := rfl
@[simp] theorem hostAnswer_readBytes : (hostAnswer ok poisoned bs s).host.readBytes = bs := rfl

end hostAnswer

/-- A read that decoding accepts, before the answer goes to the host. -/
theorem portRead_accepted {p : Port} {addr w : Nat} {s : State} {b : Blk} {o : Nat} {x : RegAt}
    (hacc : accessAt addr w = some (b, o, x)) (hboot : s.dev ≠ .boot) :
    portRead p addr w (regFerries p s) = some (readReg p b o w x (regFerries p s)) := by
  have hb : (regFerries p s).dev ≠ .boot := by rw [onlyRegs_dev (writesOnly_regFerries p s).only]; exact hboot
  simp only [portRead, hacc, if_neg hb]

/-- A host read that decoding accepts is answered. -/
theorem exec_latchingRead_host {addr w : Nat} {s : State} {b : Blk} {o : Nat} {x : RegAt} (hlive : s.portLive .host = true)
    (hacc : accessAt addr w = some (b, o, x)) (hboot : s.dev ≠ .boot) : exec (.latchingRead .host addr w) s =
      .next (hostAnswer true false (leBytes (w / 8) (readReg .host b o w x (regFerries .host s)).2.toNat)
        (readReg .host b o w x (regFerries .host s)).1) := by
  change Host.Outcome.next (opLatchingRead .host addr w s) = _
  unfold opLatchingRead
  simp only [hlive, portRead_accepted hacc hboot]
  rfl

/-- A read of another port that decoding accepts leaves its latch. -/
theorem exec_latchingRead_other {p : Port} {addr w : Nat} {s : State} {b : Blk} {o : Nat} {x : RegAt} (hp : p ≠ .host)
    (hlive : s.portLive p = true) (hacc : accessAt addr w = some (b, o, x)) (hboot : s.dev ≠ .boot) :
    exec (.latchingRead p addr w) s = .next (readReg p b o w x s).1 := by
  change Host.Outcome.next (opLatchingRead p addr w s) = _
  have hread := portRead_accepted (p := p) hacc hboot
  unfold opLatchingRead
  simp only [hlive, hread, if_neg hp]
  rw [regFerries_of_ne_host hp]
  rfl

/-- A read touches the latch of its port, or nothing (R30). -/
theorem readReg_state (p : Port) (b : Blk) (o w : Nat) (x : RegAt) (s : State) :
    (readReg p b o w x s).1 = s ∨ ∃ l, (readReg p b o w x s).1 = setLatch p l s := by
  unfold readReg
  dsimp only
  split
  · split
    · dsimp only
      split
      · exact .inr ⟨_, rfl⟩
      · exact .inl rfl
    · exact .inr ⟨_, rfl⟩
  · exact .inr ⟨_, rfl⟩

/-- Without a latch a read answers the word as it stands. -/
theorem readReg_value {p : Port} {s : State} (h : s.latch p = none) (b : Blk) (o w : Nat) (x : RegAt) :
    (readReg p b o w x s).2 = wordPart (s.readWord b (o / 8 * 8)) o w := by
  unfold readReg
  rw [h]

end Sys2Proof.Proofs

namespace Sys2Proof.Proofs
open Sys2Proof Sys2Proof.Machine Sys2Proof.Laws

/-! ### Where a register row ends (R27) -/

/-- The first offset after the words of a register row. -/
def rowEnd (r : RegRow) : Nat := r.off + (r.n - 1) * r.stride + 8 * r.words.length

theorem find_lt_rowEnd {r : RegRow} {o : Nat} {y : Nat × Nat × WordAcc} (h : r.find o = some y) : o < rowEnd r := by
  unfold RegRow.find at h
  split at h
  · cases h
  rename_i ho
  dsimp only at h
  generalize hk : (if r.stride = 0 then 0 else (o - r.off) / r.stride) = k at h
  split at h
  · rename_i hn
    obtain ⟨a, ha, -⟩ := Option.map_eq_some_iff.1 h
    have hlen := (List.getElem?_eq_some_iff.1 ha).1
    have hks : k * r.stride ≤ (r.n - 1) * r.stride := Nat.mul_le_mul_right _ (by omega)
    unfold rowEnd
    omega
  · cases h

theorem at_lt {r : RegRow} {o n : Nat} {x : RegAt} (h : r.at_ o = some x) (hr : rowEnd r ≤ n) (hc : rowEnd r.copies ≤ n) :
    o < n := by
  unfold RegRow.at_ at h
  split at h
  · rename_i hf
    exact lt_of_lt_of_le (find_lt_rowEnd hf) hr
  · split at h
    · cases h
    · obtain ⟨y, hy, -⟩ := Option.map_eq_some_iff.1 h
      exact lt_of_lt_of_le (find_lt_rowEnd hy) hc

/-- Every register of CHECK stands inside the window of 16 KiB (R25). -/
theorem check_regAt_lt {o : Nat} {x : RegAt} (h : Blk.check.regAt o = some x) : o < 0x4000 := by
  have rows : ∀ r ∈ headerRows ++ Blk.check.rows, rowEnd r ≤ 0x4000 ∧ rowEnd r.copies ≤ 0x4000 := by decide
  unfold Blk.regAt at h
  split at h
  · rename_i y hy
    obtain ⟨r, hr, hx⟩ := List.exists_of_findSome?_eq_some hy
    exact at_lt hx (rows r hr).1 (rows r hr).2
  · cases h

/-- The words of CHECK that record an ignored write hold no CFG bit (R32). -/
theorem check_record_noCfg {o : Nat} {x : RegAt} (h : Blk.check.regAt o = some x)
    (ho : o = 0x010 ∨ o = 0x018 ∨ o = 0x020) : x.acc.cfg = 0 := by
  have e : ∀ k ∈ [0x010, 0x018, 0x020], (Blk.check.regAt k).map (fun x => x.acc.cfg) = some 0 := by decide
  have := e o (by simpa using ho)
  rw [h] at this
  simpa using this

theorem accessAt_check {o w : Nat} {x : RegAt} (ho : o < 0x10000) (hx : Blk.check.regAt (o / 8 * 8) = some x)
    (hw : w = 32 ∨ w = 64) (ha : o % (w / 8) = 0) : accessAt (Blk.check.base + o) w = some (.check, o, x) := by
  have hlt := check_regAt_lt hx
  have hslot : (Blk.check.base + o) / 0x10000 = 8 := by simp only [Blk.base, Blk.slot]; omega
  have hoff : (Blk.check.base + o) % 0x10000 % 0x4000 = o := by simp only [Blk.base, Blk.slot]; omega
  have hok : ¬ ((w ≠ 32 ∧ w ≠ 64) ∨ (Blk.check.base + o) % (w / 8) ≠ 0) := by
    simp only [Blk.base, Blk.slot]
    obtain rfl | rfl := hw
    · norm_num at ha ⊢; omega
    · norm_num at ha ⊢; omega
  have hdec : decodeBar0 (Blk.check.base + o) = some (.check, o) := by
    rw [decodeBar0, hslot]
    change some (Blk.check, (Blk.check.base + o) % 0x10000 % 0x4000) = _
    rw [hoff]
  rw [accessAt, if_neg hok, hdec]
  change (Blk.check.regAt (o / 8 * 8)).map _ = _
  rw [hx]
  rfl

/-! ### Writes (R5, R33, R34) -/

/-- A write to a word of CHECK but BLOCK_CTRL does nothing beyond its bits. -/
theorem regWrite_check (p : Port) {o : Nat} (mask v : Nat) (acc : WordAcc) (s : State) (ho : o ≠ 0x008) :
    regWrite p .check o mask v acc s = writeBits p .check o mask v acc s := by
  simp [regWrite, Blk.slice, writeOne, ho, sharedWrite, sharedEffect]

theorem write_check (s : State) (p : Port) (o w : Nat) (x : RegAt) (v : BitVec 64) (hoff : s.dev ≠ .off) (hboot : s.dev ≠ .boot)
    (hp : p = .mgmt ∨ (p = .host ∧ s.barOpen = true)) (ho : o < 0x10000) (h8 : o / 8 ≠ 1)
    (hx : Blk.check.regAt (o / 8 * 8) = some x) (hw : w = 32 ∨ w = 64) (ha : o % (w / 8) = 0) :
    Completes (.registerWrite p (Blk.check.base + o) w v) s (fun t =>
      (∀ i : Fin 64, (t.word (Blk.check.base + o / 8 * 8)).getLsbD i =
        bitAfter x.acc (s.rd .check R.BLOCK_STATUS.enabled = 0) (coverMask o w) (s.rdw .check (o / 8 * 8)) (writeValue o w v.toNat) i)
      ∧ SameExcept [.check, .global] s t ∧ t.mem = s.mem ∧ t.cores = s.cores) := by
  have hlive : s.portLive p = true := by
    obtain rfl | ⟨rfl, hb⟩ := hp
    · exact portLive_mgmt hoff
    · exact portLive_host hoff hb
  have hmay : portMayWrite p .check o = true := by obtain rfl | ⟨rfl, -⟩ := hp <;> rfl
  refine ⟨_, exec_registerWrite_accepted hlive (accessAt_check ho hx hw ha) hboot hmay, ?_⟩
  rw [regWrite_check _ _ _ _ _ (by omega)]
  have hword : ∀ k, (accessed p s).word (Blk.check.base + k) = s.word (Blk.check.base + k) := fun k =>
    accessed_word p s (ne_regFerry (by decide) k).1 (ne_regFerry (by decide) k).2
  have hopen : cfgOpen .check (o / 8 * 8) (accessed p s) = decide (s.rd .check R.BLOCK_STATUS.enabled = 0) := by
    simp [cfgOpen, Blk.owner, Blk.alwaysOn, State.flag, accessed_rd p s R.BLOCK_STATUS.enabled (b := .check) (by decide)]
  have hold : (accessed p s).rdw .check (o / 8 * 8) = s.rdw .check (o / 8 * 8) := congrArg BitVec.toNat (hword _)
  have hwr := writesOnly_writeBits p .check (o / 8 * 8) (coverMask o w) (writeValue o w v.toNat) x.acc (accessed p s)
  refine ⟨fun i => ?_, fun a hout => ?_, (onlyRegs_mem hwr.only).trans (accessed_mem p s),
    (onlyRegs_cores hwr.only).trans (accessed_cores p s)⟩
  · rw [getLsbD_writeBits _ _ _ _ _ _ _ (check_record_noCfg hx) i.isLt, hopen, hold]
  · have hc := hout .check (by simp)
    have hg := hout .global (by simp)
    rw [hwr.word a (fun h => hc (h.inSlot (by omega) a)), accessed_word p s (by rintro rfl; exact hg rfl) (by rintro rfl; exact hg rfl)]

end Sys2Proof.Proofs

namespace Sys2Proof.Proofs
open Sys2Proof Sys2Proof.Machine Sys2Proof.Laws

theorem nbit_ones {n i : Nat} (h : i < n) : nbit (2 ^ n - 1) i = true := by
  rw [nbit_eq_testBit, Nat.testBit_two_pow_sub_one, decide_eq_true h]

theorem nbit_zero (i : Nat) : nbit 0 i = false := by simp [nbit]

/-- A word of LIVE and CNT bits takes a 64-bit write whole. -/
theorem writeBits_live_word (p : Port) (b : Blk) (o : Nat) (v : BitVec 64) (s : State) :
    (writeBits p b o (2 ^ 64 - 1) v.toNat ⟨2 ^ 64 - 1, 0, 0, 0⟩ s).word (b.base + o) = v := by
  refine BitVec.eq_of_getLsbD_eq fun i hi => ?_
  rw [getLsbD_writeBits _ _ _ _ _ _ _ (fun _ => rfl) hi, bitAfter_live (nbit_ones hi) (nbit_ones hi) (nbit_zero i),
    nbit_eq_testBit]
  rfl

/-- A word whose only writable bits are CFG bits keeps a value that its owner holds closed (R33). -/
theorem writeBits_closed_word (p : Port) (b : Blk) (o mask v cfg : Nat) (s : State) (hc : cfg = 0 ∨ cfgOpen b o s = false)
    (ho : o ≠ 0x010 ∧ o ≠ 0x018 ∧ o ≠ 0x020) :
    (writeBits p b o mask v ⟨0, cfg, 0, 0⟩ s).word (b.base + o) = s.word (b.base + o) := by
  refine BitVec.eq_of_getLsbD_eq fun i hi => ?_
  have hcfg : (nbit cfg i && cfgOpen b o s) = false := by
    obtain rfl | h := hc
    · simp [nbit_zero]
    · simp [h]
  rw [getLsbD_writeBits _ _ _ _ _ _ _ (by omega) hi, bitAfter_keep (nbit_zero i) hcfg (nbit_zero i), nbit_eq_testBit]
  rfl

theorem write_scratch (s : State) (v : BitVec 64) (hoff : s.dev ≠ .off) (hboot : s.dev ≠ .boot) (hb : s.barOpen = true) :
    Completes (.registerWrite .host 0x128 64 v) s (fun t => t.word 0x128 = v ∧
      (∀ a, a ≠ 0x128 → a ≠ 0x140 → a ≠ 0x148 → t.word a = s.word a) ∧ t.mem = s.mem ∧ t.cores = s.cores) := by
  have hacc : accessAt 0x128 64 = some (.global, 0x128, ⟨0x128, 8, ⟨2 ^ 64 - 1, 0, 0, 0⟩⟩) := by decide
  refine ⟨_, exec_registerWrite_word v (portLive_host hoff hb) hacc hboot rfl rfl, ?_⟩
  have hw : regWrite .host .global 0x128 (2 ^ 64 - 1) v.toNat ⟨2 ^ 64 - 1, 0, 0, 0⟩ (accessed .host s)
      = writeBits .host .global 0x128 (2 ^ 64 - 1) v.toNat ⟨2 ^ 64 - 1, 0, 0, 0⟩ (accessed .host s) := rfl
  have hwr := writesOnly_writeBits_taken .host .global 0x128 (2 ^ 64 - 1) v.toNat ⟨2 ^ 64 - 1, 0, 0, 0⟩ (accessed .host s) (.inl rfl)
  rw [hw]
  exact ⟨writeBits_live_word .host .global 0x128 v _, fun a h1 h2 h3 => (hwr.word a h1).trans (accessed_word _ s h2 h3),
    (onlyRegs_mem hwr.only).trans (accessed_mem _ s), (onlyRegs_cores hwr.only).trans (accessed_cores _ s)⟩

/-- INT_EN is written without further effect by its core's own port. -/
theorem regWrite_intEn (c : Fin 17) (mask v : Nat) (acc : WordAcc) (s : State) :
    regWrite (.alnen c) (.core c) 0xB8 mask v acc s = writeBits (.alnen c) (.core c) 0xB8 mask v acc s := by
  simp [regWrite, Blk.slice, State.writeTargets, State.each, Blk.inSlice, writeOne, sliceWrite, sliceEffect, R.SLICE_MODE.mode,
    R.MBOX_IN.value, R.MBOX_OUT.value, R.PEER_DOORBELL.value]

/-- A LIVE field at bit 0 reads as the low bits of a 32-bit write. -/
theorem writeBits_live_rd (p : Port) (b : Blk) (f : Fld) (n v : Nat) (s : State) (hf : f = ⟨f.off, 0, n⟩) (hn : n ≤ 32) :
    (writeBits p b f.off (2 ^ 32 - 1) (v % 2 ^ 32) ⟨2 ^ n - 1, 0, 0, 0⟩ s).rd b f = v % 2 ^ n := by
  refine Nat.eq_of_testBit_eq fun i => ?_
  have hlo : f.lo = 0 := congrArg Fld.lo hf
  have hwidth : f.width = n := congrArg Fld.width hf
  unfold State.rd
  rw [testBit_get, Nat.testBit_mod_two_pow, hlo, hwidth, Nat.zero_add]
  by_cases hi : i < n
  · rw [getLsbD_writeBits _ _ _ _ _ _ _ (fun _ => rfl) (by omega), bitAfter_live (nbit_ones (by omega)) (nbit_ones hi) (nbit_zero i),
      nbit_eq_testBit, Nat.testBit_mod_two_pow, decide_eq_true (by omega : i < 32), Bool.true_and]
  · simp [hi]

theorem write_intEn (s : State) (c : Fin 17) (v : BitVec 64) (hrun : s.coreRuns = true) (hboot : s.dev ≠ .boot) :
    Completes (.registerWrite (.alnen c) ((Blk.core c).base + 0xB8) 32 v) s (fun t =>
      t.rd (.core c) R.INT_EN.enable = v.toNat % 2 ^ 16 ∧ (∀ a, a ≠ (Blk.core c).base + 0xB8 → t.word a = s.word a) ∧ t.mem = s.mem) := by
  have hacc : ∀ c : Fin 17, accessAt ((Blk.core c).base + 0xB8) 32 = some (.core c, 0xB8, ⟨0xB8, 4, ⟨2 ^ 16 - 1, 0, 0, 0⟩⟩) := by
    decide
  have hlive : s.portLive (.alnen c) = true := by
    have : s.dev ≠ .off := by rintro h; simp [State.coreRuns, h] at hrun
    simp [State.portLive, this, hrun]
  refine ⟨_, exec_registerWrite_low v hlive (hacc c) hboot (by simp [portMayWrite, Blk.slice]) rfl, ?_⟩
  rw [regWrite_intEn]
  have hwr := writesOnly_writeBits_taken (.alnen c) (.core c) 0xB8 (2 ^ 32 - 1) (v.toNat % 2 ^ 32) ⟨2 ^ 16 - 1, 0, 0, 0⟩
    (accessed (.alnen c) s) (.inl rfl)
  exact ⟨writeBits_live_rd _ _ R.INT_EN.enable 16 _ _ rfl (by decide),
    fun a ha => (hwr.word a ha).trans (accessed_word_of_ne_host (by simp) s a), (onlyRegs_mem hwr.only).trans (accessed_mem _ s)⟩

/-! ### Ignored and locked writes (R33, R34) -/

/-- The sub-streams and the group state stand in RXG_STATUS. -/
theorem writesOnly_syncSubs (g : Fin 16) (s : State) : WritesOnly (· = (Blk.rxg g).base + 0x070) s (syncSubs g s) := by
  unfold syncSubs showGroup
  refine .wr (.each _ _ (fun k _ s => ?_) s) _ rfl
  unfold syncSub
  split
  · exact writesOnly_wr s _ rfl
  · split
    · exact writesOnly_wr s _ rfl
    · exact .refl _ s

theorem regWrite_rxgSs (p : Port) (g : Fin 16) (mask v : Nat) (acc : WordAcc) (s : State) :
    regWrite p (.rxg g) 0x058 mask v acc s = syncSubs g (writeBits p (.rxg g) 0x058 mask v acc s) := by
  simp [regWrite, Blk.slice, writeOne, sharedWrite, sharedEffect, place]

theorem write_enabledCfg (s : State) (g : Fin 16) (v : BitVec 64) (hdev : s.dev = .ready ∨ s.dev = .run) (hb : s.barOpen = true)
    (hon : s.enabled (.rxg g) = true) : Completes (.registerWrite .host (0x10000 * (0x40 + g.val) + 0x058) 64 v) s (fun t =>
      t.word (0x10000 * (0x40 + g.val) + 0x058) = s.word (0x10000 * (0x40 + g.val) + 0x058) ∧
      t.rd (.rxg g) R.BLOCK_STATUS.cfg_write_ignored = 1 ∧ t.rd (.rxg g) R.LAST_IGNORED.offset = 0x058 ∧
      t.rd (.rxg g) R.LAST_IGNORED.port = 0 ∧
      t.rd (.rxg g) R.IGNORED_WRITES.count = min (s.rd (.rxg g) R.IGNORED_WRITES.count + 1) (2 ^ 32 - 1)) := by
  have hacc : ∀ g : Fin 16, accessAt ((Blk.rxg g).base + 0x058) 64 = some (.rxg g, 0x058, ⟨0x058, 4, ⟨0, 0x1ffff, 0, 0⟩⟩) := by
    decide
  have hoff : s.dev ≠ .off := by rintro h; simp [h] at hdev
  have hboot : s.dev ≠ .boot := by rintro h; simp [h] at hdev
  have hclosed : cfgOpen (.rxg g) 0x058 (accessed .host s) = false := by
    have : s.flag (.rxg g) R.BLOCK_STATUS.enabled = true := by simp [State.enabled] at hon; exact hon.1
    simpa [cfgOpen, Blk.owner, Blk.alwaysOn, State.flag, accessed_rd .host s R.BLOCK_STATUS.enabled (b := .rxg g) (by simp)]
      using this
  refine ⟨_, exec_registerWrite_word v (portLive_host hoff hb) (hacc g) hboot rfl rfl, ?_⟩
  rw [regWrite_rxgSs, show 0x10000 * (0x40 + g.val) + 0x058 = (Blk.rxg g).base + 0x058 from rfl]
  have hword := writeBits_closed_word .host (.rxg g) 0x058 (2 ^ 64 - 1) v.toNat 0x1ffff (accessed .host s) (.inr hclosed) (by decide)
  obtain ⟨hign, hlast, hport, hcount⟩ := writeBits_ignored_rd .host (.rxg g) 0x058 (2 ^ 64 - 1) v.toNat
    ⟨0, 0x1ffff, 0, 0⟩ (accessed .host s) hclosed (by decide) (by decide) (by decide)
  rw [accessed_rd .host s _ (by simp)] at hcount
  rw [accessed_word .host s (ne_regFerry (by simp) _).1 (ne_regFerry (by simp) _).2] at hword
  generalize writeBits .host (.rxg g) 0x058 (2 ^ 64 - 1) v.toNat ⟨0, 0x1ffff, 0, 0⟩ (accessed .host s) = u
    at hword hign hlast hport hcount
  have hsync := writesOnly_syncSubs g u
  have keep : ∀ f : Fld, f.off ≠ 0x070 → (syncSubs g u).rd (.rxg g) f = u.rd (.rxg g) f := fun f hf =>
    hsync.rd (fun e => hf (Nat.add_left_cancel e))
  exact ⟨(hsync.word _ (fun e => absurd (Nat.add_left_cancel e) (by decide))).trans hword, (keep _ (by decide)).trans hign,
    (keep _ (by decide)).trans hlast, (keep _ (by decide)).trans hport, (keep _ (by decide)).trans hcount⟩

/-- A locked write is recorded in the block's header (R34). -/
theorem writesOnly_lockedWrite (b : Blk) (s : State) :
    WritesOnly (fun a => a = b.base + 0x010 ∨ a = b.base + 0x028) s (lockedWrite b s) :=
  (writesOnly_wr s 1 (.inl rfl)).cnt 1 (.inr rfl)

theorem lockedWrite_rd (b : Blk) (s : State) : (lockedWrite b s).rd b R.BLOCK_STATUS.locked_write = 1 ∧
    (lockedWrite b s).rd b R.LOCKED_WRITES.count = min (s.rd b R.LOCKED_WRITES.count + 1) (2 ^ 32 - 1) := by
  unfold lockedWrite
  constructor
  · simp (disch := decide) only [rd_cnt_keep, rd_wr_val]
    rfl
  · simp (disch := decide) only [rd_cnt_val, rd_wr_keep]
    rfl

theorem write_locked (s : State) (v : BitVec 64) (hoff : s.dev ≠ .off) (hboot : s.dev ≠ .boot) :
    Completes (.registerWrite .mgmt (Blk.auth.base + 0x040) 32 v) s (fun t =>
    t.word (Blk.auth.base + 0x040) = s.word (Blk.auth.base + 0x040) ∧ t.rd .auth R.BLOCK_STATUS.locked_write = 1 ∧
    t.rd .auth R.LOCKED_WRITES.count = min (s.rd .auth R.LOCKED_WRITES.count + 1) (2 ^ 32 - 1) ∧ SameOutside .auth s t ∧ t.sec = s.sec) := by
  have hacc : accessAt (Blk.auth.base + 0x040) 32 = some (.auth, 0x040, ⟨0x040, 4, ⟨0, 0, 0, 0⟩⟩) := by decide
  refine ⟨_, exec_registerWrite_low v (portLive_mgmt hoff) hacc hboot rfl rfl, ?_⟩
  have hw : regWrite .mgmt .auth 0x040 (2 ^ 32 - 1) (v.toNat % 2 ^ 32) ⟨0, 0, 0, 0⟩ (accessed .mgmt s)
      = lockedWrite .auth (writeBits .mgmt .auth 0x040 (2 ^ 32 - 1) (v.toNat % 2 ^ 32) ⟨0, 0, 0, 0⟩ (accessed .mgmt s)) := rfl
  rw [hw]
  have hbits := writesOnly_writeBits_taken .mgmt .auth 0x040 (2 ^ 32 - 1) (v.toNat % 2 ^ 32) ⟨0, 0, 0, 0⟩ (accessed .mgmt s) (.inl rfl)
  have hlock := writesOnly_lockedWrite .auth (writeBits .mgmt .auth 0x040 (2 ^ 32 - 1) (v.toNat % 2 ^ 32) ⟨0, 0, 0, 0⟩ (accessed .mgmt s))
  have hword := writeBits_closed_word .mgmt .auth 0x040 (2 ^ 32 - 1) (v.toNat % 2 ^ 32) 0 (accessed .mgmt s) (.inl rfl) (by decide)
  obtain ⟨hflag, hcount⟩ := lockedWrite_rd .auth (writeBits .mgmt .auth 0x040 (2 ^ 32 - 1) (v.toNat % 2 ^ 32) ⟨0, 0, 0, 0⟩ (accessed .mgmt s))
  rw [hbits.rd (by decide)] at hcount
  refine ⟨(hlock.word _ (by decide)).trans hword, hflag, hcount, fun a ha => ?_, ?_⟩
  · have hin : ∀ o, o < 0x10000 → a ≠ Blk.auth.base + o := fun o ho e => ha (e ▸ inSlot_base .auth ho)
    rw [hlock.word a (by rintro (e | e); exacts [hin _ (by decide) e, hin _ (by decide) e]), hbits.word a (hin _ (by decide)),
      accessed_word_of_ne_host (by simp) s a]
  · exact ((onlyRegs_sec hlock.only).trans (onlyRegs_sec hbits.only)).trans (accessed_sec _ s)

end Sys2Proof.Proofs

namespace Sys2Proof.Proofs
open Sys2Proof Sys2Proof.Machine Sys2Proof.Laws

/-! ### Rejected accesses and reads (R26, R30) -/

theorem write_rejected (s : State) (a w : Nat) (v : BitVec 64) (hoff : s.dev ≠ .off) (hb : s.barOpen = true)
    (hbad : (w ≠ 32 ∧ w ≠ 64) ∨ a % (w / 8) ≠ 0 ∨ slotBlk (a / 0x10000) = none) :
    Completes (.registerWrite .host a w v) s (fun t => t.host.aerAborts = s.host.aerAborts + 1 ∧ t.latch .host = none ∧
      (∀ b, b ≠ 0x140 → b ≠ 0x148 → t.word b = s.word b) ∧ t.mem = s.mem ∧ t.cores = s.cores ∧ t.dev = s.dev) := by
  have hacc : accessAt a w = none := by
    unfold accessAt
    split
    · rfl
    · rename_i hok
      have hslot : slotBlk (a / 0x10000) = none := by tauto
      simp [decodeBar0, hslot]
  refine ⟨_, exec_registerWrite_rejected (portLive_host hoff hb) hacc, ?_⟩
  rw [show busError .host a (accessed .host s) = (accessed .host s).aerAbort from rfl]
  exact ⟨congrArg (· + 1) (accessed_aerAborts .host s), (aerAbort_latch _ _).trans (latch_setLatch_self _ _ _),
    fun b h1 h2 => (aerAbort_word _ b).trans (accessed_word _ s h1 h2), (aerAbort_mem _).trans (accessed_mem _ s),
    (aerAbort_cores _).trans (accessed_cores _ s), (aerAbort_dev _).trans (accessed_dev _ s)⟩

/-- The registers of a block other than GLOBAL read alike in two states that agree from the second slot on. -/
theorem word_congr {s t : State} (hw : ∀ a, 0x10000 ≤ a → t.word a = s.word a) {b : Blk} (hb : b ≠ .global) (o : Nat) :
    t.word (b.base + o) = s.word (b.base + o) :=
  hw _ (le_trans (le_trans (by decide) (Nat.mul_le_mul_left 0x10000 (slot_pos hb))) (Nat.le_add_right _ o))

theorem rd_congr {s t : State} (hw : ∀ a, 0x10000 ≤ a → t.word a = s.word a) {b : Blk} (hb : b ≠ .global) (f : Fld) :
    t.rd b f = s.rd b f := by
  unfold State.rd
  rw [word_congr hw hb]

theorem flag_congr {s t : State} (hw : ∀ a, 0x10000 ≤ a → t.word a = s.word a) {b : Blk} (hb : b ≠ .global) (f : Fld) :
    t.flag b f = s.flag b f := by
  unfold State.flag
  rw [rd_congr hw hb]

/-- What a word shows depends on registers outside GLOBAL and on the rest of the state. -/
theorem live_congr {s t : State} (ht : OnlyRegs s t) (hw : ∀ a, 0x10000 ≤ a → t.word a = s.word a) {b : Blk} (hb : b ≠ .global)
    (o : Nat) : t.live b o = s.live b o := by
  have word := word_congr hw hb o
  have rd := rd_congr hw hb
  have flag := flag_congr hw hb
  obtain ⟨r, rfl⟩ : ∃ r, t = { s with regs := r } := ⟨_, ht⟩
  cases b with
  | global => exact absurd rfl hb
  | timebase =>
    have hnow : State.nowT96 { s with regs := r } = s.nowT96 := congrArg (toT96 s.tim.now) (rd R.TB_STATUS.quality)
    simp only [State.live, word, hnow]
  | observe => simp only [State.live, word, rd]
  | auth =>
    have hlevel : State.presenceLevel { s with regs := r } = s.presenceLevel := rfl
    have hleft : State.windowLeft { s with regs := r } = s.windowLeft := rfl
    simp only [State.live, word, flag, hlevel, hleft]
  | core i => simp only [State.live, word]
  | _ => exact word

/-- WIN_READ.value: entry `a` of a window store that is loaded with `2 ^ n` entries. -/
def winEntry (win : Nat → Nat → Int) (loaded : Bool) (k a n : Nat) : Nat :=
  if loaded && decide (a < 2 ^ n) then code 18 (win k a) else 0

/-- A word of a filter slot beyond HB_ROM and LOG_ROM depends on the slice's chain and on the slot's registers. -/
theorem readWord_filt (s : State) (i o : Nat) (h1 : ¬ (0x1000 ≤ o ∧ o < 0x1600)) (h2 : ¬ (0x2000 ≤ o ∧ o < 0x3000))
    (h3 : ¬ (0x3000 ≤ o ∧ o < 0x4000)) : s.readWord (.filt i) o =
      let k := s.rd (.filt i) R.WIN_READ.store
      if o = R.WIN_READ.value.off then
        R.WIN_READ.value.put (s.live (.filt i) o) (winEntry (fun k a => s.chains[Fin.ofNat 17 i].wins[Fin.ofNat 2 k].getD a 0)
          (s.flag (.filt i) (R.WIN_STORE.loaded k)) k (s.rd (.filt i) R.WIN_READ.addr) (s.rd (.filt i) (R.WIN_STORE.n_loaded k)))
      else s.live (.filt i) o := by
  simp only [State.readWord, if_neg h1, if_neg h2, if_neg h3]
  rfl

theorem readWord_congr {s t : State} (ht : OnlyRegs s t) (hw : ∀ a, 0x10000 ≤ a → t.word a = s.word a) {b : Blk}
    (hb : b ≠ .global) (o : Nat) : t.readWord b o = s.readWord b o := by
  have live := live_congr ht hw hb o
  have word := word_congr hw hb
  have rd := rd_congr hw hb
  have flag := flag_congr hw hb
  obtain ⟨r, rfl⟩ : ∃ r, t = { s with regs := r } := ⟨_, ht⟩
  cases b with
  | placement =>
    have hdecl : ∀ i w, State.declWord { s with regs := r } i w = s.declWord i w := fun i w => congrArg BitVec.toNat (word _)
    simp only [State.readWord, live, State.declImpl, hdecl]
  | filt i =>
    by_cases h1 : 0x1000 ≤ o ∧ o < 0x1600
    · simp only [State.readWord, if_pos h1]
    by_cases h2 : 0x2000 ≤ o ∧ o < 0x3000
    · simp only [State.readWord, if_neg h1, if_pos h2]
    by_cases h3 : 0x3000 ≤ o ∧ o < 0x4000
    · simp only [State.readWord, if_neg h1, if_neg h2, if_pos h3]
    simp only [readWord_filt _ i o h1 h2 h3, live, rd, flag]
  | _ => exact live

theorem read_unlatched (s : State) (a w : Nat) (b : Blk) (o : Nat) (x : RegAt) (hoff : s.dev ≠ .off) (hboot : s.dev ≠ .boot)
    (hb : s.barOpen = true) (hg : b ≠ .global) (hacc : accessAt a w = some (b, o, x)) (hl : s.latch .host = none) :
    Completes (.latchingRead .host a w) s (fun t =>
      t.host.readOk = true ∧ t.host.readBytes = leBytes (w / 8) (wordPart (s.readWord b (o / 8 * 8)) o w).toNat) := by
  refine ⟨_, exec_latchingRead_host (portLive_host hoff hb) hacc hboot, hostAnswer_readOk _ _ _ _, ?_⟩
  have hf := writesOnly_regFerries .host s
  rw [hostAnswer_readBytes, readReg_value ((regFerries_latch _ _ _).trans hl),
    readWord_congr hf.only (fun c hc => hf.word c (by omega)) hg]

/-- A read changes only the latch of its port (R30). -/
theorem readReg_keeps (p : Port) (b : Blk) (o w : Nat) (x : RegAt) (s : State) : let t := (readReg p b o w x s).1
    t.regs = s.regs ∧ t.mem = s.mem ∧ t.cores = s.cores ∧ t.queue = s.queue ∧ ∀ q : Port, q ≠ p → t.latch q = s.latch q := by
  obtain h | ⟨l, h⟩ := readReg_state p b o w x s
  · rw [h]
    exact ⟨rfl, rfl, rfl, rfl, fun _ _ => rfl⟩
  · rw [h]
    exact ⟨rfl, rfl, rfl, rfl, fun q hq => latch_setLatch_ne l s hq⟩

theorem read_host (s : State) (a w : Nat) (b : Blk) (o : Nat) (x : RegAt) (hoff : s.dev ≠ .off) (hboot : s.dev ≠ .boot)
    (hb : s.barOpen = true) (hacc : accessAt a w = some (b, o, x)) : Completes (.latchingRead .host a w) s (fun t =>
      (∀ c, c ≠ 0x140 → c ≠ 0x148 → t.word c = s.word c) ∧ t.mem = s.mem ∧ t.cores = s.cores ∧ t.queue = s.queue ∧
      t.host.readOk = true ∧ (∀ p : Port, p ≠ .host → t.latch p = s.latch p)) := by
  refine ⟨_, exec_latchingRead_host (portLive_host hoff hb) hacc hboot, ?_⟩
  have hf := writesOnly_regFerries .host s
  obtain ⟨hregs, hmem, hcores, hqueue, hlatch⟩ := readReg_keeps .host b o w x (regFerries .host s)
  simp only [hostAnswer_word, hostAnswer_mem, hostAnswer_cores, hostAnswer_queue, hostAnswer_readOk, hostAnswer_latch, hmem, hcores,
    hqueue, onlyRegs_mem hf.only, onlyRegs_cores hf.only, onlyRegs_queue hf.only, true_and]
  refine ⟨fun c h1 h2 => ?_, fun p hp => (hlatch p hp).trans (regFerries_latch _ _ _)⟩
  exact (congrArg (SMap.get resetWord · c) hregs).trans (hf.word c (by rintro (e | e); exacts [h1 e, h2 e]))

theorem read_otherPort (s : State) (p : Port) (a w : Nat) (b : Blk) (o : Nat) (x : RegAt) (hboot : s.dev ≠ .boot)
    (hp : p ≠ .host) (hlive : s.portLive p = true) (hacc : accessAt a w = some (b, o, x)) :
    Completes (.latchingRead p a w) s (fun t =>
      t.regs = s.regs ∧ t.mem = s.mem ∧ t.cores = s.cores ∧ ∀ q : Port, q ≠ p → t.latch q = s.latch q) := by
  obtain ⟨hregs, hmem, hcores, -, hlatch⟩ := readReg_keeps p b o w x s
  exact ⟨_, exec_latchingRead_other hp hlive hacc hboot, hregs, hmem, hcores, hlatch⟩

/-- MUSTER_T96: two words, of which the second holds 32 bits (R30). -/
theorem accessAt_musterT96 : accessAt 0x10060 64 = some (.muster, 0x60, ⟨0x60, 12, roAcc⟩) ∧
    accessAt 0x10068 32 = some (.muster, 0x68, ⟨0x60, 12, roAcc⟩) := by decide

theorem read_t96_low (s : State) (hoff : s.dev ≠ .off) (hboot : s.dev ≠ .boot) (hb : s.barOpen = true) :
    Completes (.latchingRead .host 0x10060 64) s (fun t =>
      t.host.readBytes = leBytes 8 (s.word 0x10060).toNat ∧
      t.latch .host = some ⟨0x10060, [(0, s.word 0x10060), (1, s.word 0x10068)]⟩) := by
  refine ⟨_, exec_latchingRead_host (portLive_host hoff hb) accessAt_musterT96.1 hboot, ?_⟩
  have hf := writesOnly_regFerries .host s
  rw [← hf.word 0x10060 (by decide), ← hf.word 0x10068 (by decide)]
  generalize regFerries .host s = u
  have hfresh : readReg .host .muster 0x60 64 ⟨0x60, 12, roAcc⟩ u
      = (setLatch .host (some ⟨0x10060, [(0, u.word 0x10060), (1, u.word 0x10068)]⟩) u, u.word 0x10060) := by
    unfold readReg
    cases u.latch .host with
    | none => rfl
    | some l => exact if_neg (fun h => absurd h.2 (by decide))
  rw [hfresh]
  exact ⟨rfl, (hostAnswer_latch _ _ _ _ _).trans (latch_setLatch_self _ _ _)⟩

theorem read_t96_high (s : State) (lo hi : Word) (hoff : s.dev ≠ .off) (hboot : s.dev ≠ .boot) (hb : s.barOpen = true)
    (hl : s.latch .host = some ⟨0x10060, [(0, lo), (1, hi)]⟩) : Completes (.latchingRead .host 0x10068 32) s (fun t =>
      t.host.readBytes = leBytes 4 (hi.toNat % 2 ^ 32) ∧ t.latch .host = none) := by
  refine ⟨_, exec_latchingRead_host (portLive_host hoff hb) accessAt_musterT96.2 hboot, ?_⟩
  have hlu : (regFerries .host s).latch .host = some ⟨0x10060, [(0, lo), (1, hi)]⟩ := (regFerries_latch _ _ _).trans hl
  generalize regFerries .host s = u at hlu
  have hheld : readReg .host .muster 0x68 32 ⟨0x60, 12, roAcc⟩ u = (setLatch .host none u, hi &&& 0xFFFFFFFF) := by
    unfold readReg
    rw [hlu]
    rfl
  have hlow : (hi &&& 0xFFFFFFFF).toNat = hi.toNat % 2 ^ 32 := by
    rw [BitVec.toNat_and]
    exact Nat.and_two_pow_sub_one_eq_mod _ 32
  rw [hheld]
  exact ⟨congrArg (leBytes 4) hlow, (hostAnswer_latch _ _ _ _ _).trans (latch_setLatch_self _ _ _)⟩

/-! ### hwm_clear (R19) -/

/-- The level and the mark of a ferry stand in one word, at bits 0 and 16. -/
theorem ferryReg_fields (f : FerryId) : ∃ o < 0x10000, f.reg.2.1 = ⟨o, 0, 11⟩ ∧ f.reg.2.2 = ⟨o, 16, 11⟩ := by
  cases f with
  | layer d n => exact ⟨0x128 + 0x40 * n.val, by omega, rfl, rfl⟩
  | _ => exact ⟨_, by decide, rfl, rfl⟩

theorem hwmClear_sets_mark (s : State) (f : FerryId) (hr : s.reaches f.reg.1 = true) : Completes (.hwmClear f) s (fun t =>
    t.rd f.reg.1 f.reg.2.2 = s.rd f.reg.1 f.reg.2.1 ∧ t.rd f.reg.1 f.reg.2.1 = s.rd f.reg.1 f.reg.2.1 ∧ SameOutside f.reg.1 s t) := by
  refine ⟨s.wr f.reg.1 f.reg.2.2 (s.rd f.reg.1 f.reg.2.1), congrArg Host.Outcome.next (if_pos hr), ?_⟩
  obtain ⟨o, ho, hlevel, hmark⟩ := ferryReg_fields f
  rw [hlevel, hmark]
  refine ⟨?_, rd_wr_keep _ _ _ _ _ (.inr (.inl (by simp))), (writesOnly_wr s _ (inSlot_base _ ho)).sameOutside fun _ h => h⟩
  rw [rd_wr_val _ _ _ _ (by simp)]
  exact Nat.mod_eq_of_lt (get_lt _ _)

/-- Settles O15: each clause is the lemma on its kind of access. That hwm_clear sets the mark to the present level is log 34. -/
theorem registerAccesses : Obligations.RegisterAccesses := by
  unfold Obligations.RegisterAccesses
  refine ⟨write_check, write_scratch, write_intEn, write_enabledCfg, write_locked, write_rejected, read_unlatched, read_host,
    fun s p a w b o x _ => read_otherPort s p a w b o x, read_t96_low, read_t96_high, hwmClear_sets_mark⟩

end Sys2Proof.Proofs

namespace Sys2Proof.Proofs
open Sys2Proof Sys2Proof.Machine Sys2Proof.Laws

/-! ### Fields of different blocks, and fault flags -/

/-- A field of another slot than the one written. -/
theorem rd_wr_slot (s : State) {b c : Blk} {f g : Fld} (v : Nat) (h : c.slot ≠ b.slot) (hf : f.off < 0x10000) (hg : g.off < 0x10000) :
    (s.wr b f v).rd c g = s.rd c g := by
  refine rd_wr_ne s b c f g v (fun e => h ?_)
  unfold Blk.base at e
  omega

theorem rd_fault_val (s : State) (b : Blk) (f : Fld) (hf : f.lo + 1 ≤ 64) (hw : f.width = 1) (ho : f.off ≠ R.BLOCK_STATUS.fault.off) :
    (s.fault b f).rd b f = 1 := by
  unfold State.fault
  rw [rd_wr_keep _ _ _ _ _ (.inl ho), rd_wr_val _ _ _ _ (by omega), hw]
  rfl

theorem rd_fault_slot (s : State) {b c : Blk} {f g : Fld} (h : c.slot ≠ b.slot) (hf : f.off < 0x10000) (hg : g.off < 0x10000) :
    (s.fault b f).rd c g = s.rd c g := by
  unfold State.fault
  rw [rd_wr_slot _ _ h (by decide) hg, rd_wr_slot _ _ h hf hg]

/-! ### Completion queues (R361, R363) -/

/-- The registers of a completion queue lie in its slot. -/
theorem cqReg_off_lt (c : Fin 1024) : 0x1118 + 0x20 * (c.val % 256) < 0x10000 := by omega

theorem cqBlk_slot_ne_dma (c : Nat) : (cqBlk c).slot ≠ Blk.dma.slot := by
  change 0x021 + c / 256 ≠ 0x020
  omega

/-- A write that has a row of its own takes effect outside OFF and BOOT (R16). -/
theorem onWrite_of_on {s : State} (f : State → State) (hoff : s.dev ≠ .off) (hboot : s.dev ≠ .boot) : onWrite f s = f s :=
  if_neg (by rintro (h | h); exacts [hoff h, hboot h])

theorem exec_cqHead {s : State} (c : Fin 1024) (v : BitVec 16) (hoff : s.dev ≠ .off) (hboot : s.dev ≠ .boot) :
    exec (.cqHead c v) s = .next (opCqHead c v s) := congrArg Host.Outcome.next (onWrite_of_on _ hoff hboot)

theorem exec_cqEnable {s : State} (c : Fin 1024) (hoff : s.dev ≠ .off) (hboot : s.dev ≠ .boot) :
    exec (.cqEnable c) s = .next (opCqEnable c s) := congrArg Host.Outcome.next (onWrite_of_on _ hoff hboot)

/-- CQ_STATUS.full is shown in the queue's slot. -/
theorem writesOnly_syncCqFull (c : Fin 1024) (s : State) :
    WritesOnly (· = (cqBlk c).base + (0x1118 + 0x20 * (c.val % 256))) s (syncCqFull c s) := writesOnly_wr s _ rfl

theorem cqHead_moves (s : State) (c : Fin 1024) (v : BitVec 16) (hoff : s.dev ≠ .off) (hboot : s.dev ≠ .boot)
    (hv : v.toNat < 2 ^ (s.cqSt c).log2n)
    (hadv : (v.toNat + 2 ^ (s.cqSt c).log2n - s.rd (cqBlk c) (R.CQ_HEAD.head (c % 256)) % 2 ^ (s.cqSt c).log2n)
      % 2 ^ (s.cqSt c).log2n ≤ s.cqUnread c) : Completes (.cqHead c v) s (fun t => t.rd (cqBlk c) (R.CQ_HEAD.head (c.val % 256)) = v.toNat ∧
      t.rd (cqBlk c) (R.CQ_STATUS.tail (c.val % 256)) = s.rd (cqBlk c) (R.CQ_STATUS.tail (c.val % 256)) ∧ t.host = s.host ∧
      t.mem = s.mem ∧ SameOutside (cqBlk c) s t) := by
  refine ⟨_, exec_cqHead c v hoff hboot, ?_⟩
  have hop : opCqHead c v s = syncCqFull c (s.wr (cqBlk c) (R.CQ_HEAD.head (c.val % 256)) v.toNat) :=
    if_neg (by rintro (h | h); exacts [absurd hv (not_lt.2 h), absurd hadv (not_le.2 h)])
  rw [hop]
  have hwr : WritesOnly (InSlot (cqBlk c)) s (syncCqFull c (s.wr (cqBlk c) (R.CQ_HEAD.head (c.val % 256)) v.toNat)) := by
    have := cqReg_off_lt c
    exact (writesOnly_wr s _ (inSlot_base _ (by simp only [R.CQ_HEAD.head]; omega))).trans
      ((writesOnly_syncCqFull c _).mono (by rintro _ rfl; exact inSlot_base _ this))
  refine ⟨?_, ?_, onlyRegs_host hwr.only, onlyRegs_mem hwr.only, hwr.sameOutside fun _ h => h⟩
  · unfold syncCqFull
    rw [rd_wr_keep _ _ _ _ _ (.inl (by simp [R.CQ_HEAD.head, R.CQ_STATUS.full])), rd_wr_val _ _ _ _ (by simp [R.CQ_HEAD.head])]
    exact Nat.mod_eq_of_lt v.isLt
  · unfold syncCqFull
    rw [rd_wr_keep _ _ _ _ _ (.inr (.inl (by simp [R.CQ_STATUS.tail, R.CQ_STATUS.full]))),
      rd_wr_keep _ _ _ _ _ (.inl (by simp [R.CQ_HEAD.head, R.CQ_STATUS.tail]))]

theorem cqHead_invalid (s : State) (c : Fin 1024) (v : BitVec 16) (hoff : s.dev ≠ .off) (hboot : s.dev ≠ .boot)
    (hv : 2 ^ (s.cqSt c).log2n ≤ v.toNat) : Completes (.cqHead c v) s (fun t =>
      t.rd (cqBlk c) (R.CQ_STATUS.doorbell_invalid (c.val % 256)) = 1 ∧ t.rd .dma R.DMA_FAULT.cq_doorbell_invalid = 1 ∧
      t.rd (cqBlk c) (R.CQ_HEAD.head (c.val % 256)) = s.rd (cqBlk c) (R.CQ_HEAD.head (c.val % 256)) ∧ t.host = s.host ∧ t.mem = s.mem) := by
  refine ⟨_, exec_cqHead c v hoff hboot, ?_⟩
  have hop : opCqHead c v s = (s.wr (cqBlk c) (R.CQ_STATUS.doorbell_invalid (c.val % 256)) 1).fault .dma R.DMA_FAULT.cq_doorbell_invalid :=
    if_pos (.inl hv)
  have hlt := cqReg_off_lt c
  rw [hop]
  refine ⟨?_, rd_fault_val _ _ _ (by decide) rfl (by decide), ?_, rfl, rfl⟩
  · rw [rd_fault_slot _ (cqBlk_slot_ne_dma _) (by decide) hlt, rd_wr_val _ _ _ _ (by simp [R.CQ_STATUS.doorbell_invalid])]
    rfl
  · rw [rd_fault_slot _ (cqBlk_slot_ne_dma _) (by decide) (by simp only [R.CQ_HEAD.head]; omega),
      rd_wr_keep _ _ _ _ _ (.inl (by simp [R.CQ_HEAD.head, R.CQ_STATUS.doorbell_invalid]))]

theorem cqEnable_refused (s : State) (c : Fin 1024) (j base : Nat) (hoff : s.dev ≠ .off) (hboot : s.dev ≠ .boot)
    (hon : s.cqOn c = false) (hj : j = s.rd (cqBlk c) (R.CQ_BASE.log2n (c.val % 256)))
    (hbase : base = s.rd (cqBlk c) (R.CQ_BASE.base (c.val % 256)) * 512) (hbad : j < 4 ∨ 16 < j ∨ base % (32 * 2 ^ j) ≠ 0) :
    Completes (.cqEnable c) s (fun t => t.cqOn c = false ∧ t.rd (cqBlk c) (R.CQ_STATUS.enable_refused (c.val % 256)) = 1 ∧
      t.rd .dma R.DMA_FAULT.cq_refused = 1 ∧ t.host = s.host ∧ t.mem = s.mem) := by
  subst hj hbase
  refine ⟨_, exec_cqEnable c hoff hboot, ?_⟩
  have hop : opCqEnable c s = (s.wr (cqBlk c) (R.CQ_STATUS.enable_refused (c.val % 256)) 1).fault .dma R.DMA_FAULT.cq_refused :=
    (if_neg (by simp [hon])).trans (if_pos hbad)
  have hlt := cqReg_off_lt c
  rw [hop]
  refine ⟨?_, ?_, rd_fault_val _ _ _ (by decide) rfl (by decide), rfl, rfl⟩
  · rw [← hon]
    unfold State.cqOn State.flag
    rw [rd_fault_slot _ (cqBlk_slot_ne_dma _) (by decide) (by simp only [R.CQ_CFG.enable]; omega),
      rd_wr_keep _ _ _ _ _ (.inl (by simp [R.CQ_CFG.enable, R.CQ_STATUS.enable_refused]))]
  · rw [rd_fault_slot _ (cqBlk_slot_ne_dma _) (by decide) hlt, rd_wr_val _ _ _ _ (by simp [R.CQ_STATUS.enable_refused])]
    rfl

/-- The registers of completion queue `c` as an accepted enable leaves them: enabled, tail and head 0, phase 1, not full (R361). -/
def cqStarted (c : Fin 1024) (s : State) : State :=
  let b := cqBlk c.val
  let i := c.val % 256
  ((((s.wr b (R.CQ_CFG.enable i) 1).wr b (R.CQ_STATUS.tail i) 0).wr b (R.CQ_HEAD.head i) 0).wr b (R.CQ_STATUS.phase i) 1).wr b
    (R.CQ_STATUS.full i) 0

theorem writesOnly_cqStarted (c : Fin 1024) (s : State) : WritesOnly (InSlot (cqBlk c)) s (cqStarted c s) := by
  have := cqReg_off_lt c
  have hin : ∀ o, o ≤ 0x1118 + 0x20 * (c.val % 256) → InSlot (cqBlk c) ((cqBlk c).base + o) := fun o ho => inSlot_base _ (by omega)
  exact ((((writesOnly_wr s 1 (hin _ (by simp only [R.CQ_CFG.enable]; omega))).wr 0 (hin _ le_rfl)).wr 0
    (hin _ (by simp only [R.CQ_HEAD.head]; omega))).wr 1 (hin _ le_rfl)).wr 0 (hin _ le_rfl)

theorem cqStarted_rd (c : Fin 1024) (s : State) :
    (cqStarted c s).rd (cqBlk c) (R.CQ_CFG.enable (c.val % 256)) = 1 ∧ (cqStarted c s).rd (cqBlk c) (R.CQ_STATUS.tail (c.val % 256)) = 0 ∧
    (cqStarted c s).rd (cqBlk c) (R.CQ_HEAD.head (c.val % 256)) = 0 ∧ (cqStarted c s).rd (cqBlk c) (R.CQ_STATUS.phase (c.val % 256)) = 1 := by
  unfold cqStarted
  dsimp only [R.CQ_CFG.enable, R.CQ_STATUS.tail, R.CQ_HEAD.head, R.CQ_STATUS.phase, R.CQ_STATUS.full]
  generalize c.val % 256 = i
  refine ⟨?_, ?_, ?_, ?_⟩ <;> simp (disch := dsimp only; omega) only [rd_wr_keep, rd_wr_val] <;> rfl

theorem cqEnable_samples (s : State) (c : Fin 1024) (j base : Nat) (hoff : s.dev ≠ .off) (hboot : s.dev ≠ .boot)
    (hon : s.cqOn c = false) (hj : j = s.rd (cqBlk c) (R.CQ_BASE.log2n (c.val % 256)))
    (hbase : base = s.rd (cqBlk c) (R.CQ_BASE.base (c.val % 256)) * 512) (h4 : 4 ≤ j) (h16 : j ≤ 16) (hal : base % (32 * 2 ^ j) = 0) :
    Completes (.cqEnable c) s (fun t => t.cqOn c = true ∧
      t.cqSt c = ⟨base, s.flag (cqBlk c) (R.CQ_BASE.target (c.val % 256)), j⟩ ∧ t.cqUnread c = 0 ∧
      t.rd (cqBlk c) (R.CQ_STATUS.tail (c.val % 256)) = 0 ∧ t.rd (cqBlk c) (R.CQ_HEAD.head (c.val % 256)) = 0 ∧
      t.rd (cqBlk c) (R.CQ_STATUS.phase (c.val % 256)) = 1 ∧ t.mem = s.mem ∧ SameOutside (cqBlk c) s t) := by
  subst hj hbase
  refine ⟨_, exec_cqEnable c hoff hboot, ?_⟩
  have hop : ∃ u : State, opCqEnable c s = cqStarted c u ∧ u.regs = s.regs ∧ u.mem = s.mem ∧ u.cqSt c =
      ⟨s.rd (cqBlk c) (R.CQ_BASE.base (c.val % 256)) * 512, s.flag (cqBlk c) (R.CQ_BASE.target (c.val % 256)),
        s.rd (cqBlk c) (R.CQ_BASE.log2n (c.val % 256))⟩ :=
    ⟨_, (if_neg (by simp [hon])).trans (if_neg (by omega)), rfl, rfl, get_set_self _ _ _ _⟩
  obtain ⟨u, hu, hregs, hmem, hst⟩ := hop
  rw [hu]
  have hwr := writesOnly_cqStarted c u
  obtain ⟨henable, htail, hhead, hphase⟩ := cqStarted_rd c u
  have hst' : (cqStarted c u).cqSt c = u.cqSt c := by unfold State.cqSt; rw [onlyRegs_host hwr.only]
  refine ⟨by simp [State.cqOn, State.flag, henable], hst'.trans hst, ?_, htail, hhead, hphase, (onlyRegs_mem hwr.only).trans hmem, ?_⟩
  · unfold State.cqUnread
    simp [htail, hhead]
  · intro a ha
    exact (hwr.word a ha).trans (congrArg (SMap.get resetWord · a) hregs)

end Sys2Proof.Proofs

namespace Sys2Proof.Proofs
open Sys2Proof Sys2Proof.Machine Sys2Proof.Laws

/-! ### host_out with Bus Master Enable set (R18, R350) -/

/-- What a request does to the host's side once the link takes it. -/
def delivered (q : HostReq) (h : HostSt) : HostSt :=
  match q with
  | .write a d => { h with mem := memWrite h.mem a d }
  | .message v => { h with sent := h.sent ++ [v] }

/-- The link takes requests: Bus Master Enable is set and the endpoint is not wedged. -/
def LinkOpen (s : State) : Prop := s.flag .dma R.PCIE_STATUS.bus_master = true ∧ s.endpointWedged = false

/-- The word that shows host_out. -/
def hostOutWord : Nat := Blk.dma.base + R.HOST_OUT_FERRY.level.off

/-- `t` comes from `s` by requests that the link takes: host_out, the enables and the memories stay. -/
structure LinkStep (s t : State) : Prop where
  word : ∀ a, a ≠ hostOutWord → t.word a = s.word a
  hostOut : t.host.hostOut = s.host.hostOut
  memSpace : t.host.memSpace = s.host.memSpace
  mem : t.mem = s.mem

theorem LinkStep.refl (s : State) : LinkStep s s := ⟨fun _ _ => rfl, rfl, rfl, rfl⟩

theorem LinkStep.trans {s t u : State} (h : LinkStep s t) (g : LinkStep t u) : LinkStep s u :=
  ⟨fun a ha => (g.word a ha).trans (h.word a ha), g.hostOut.trans h.hostOut, g.memSpace.trans h.memSpace, g.mem.trans h.mem⟩

theorem LinkStep.rd {s t : State} (h : LinkStep s t) {b : Blk} {f : Fld} (hf : b.base + f.off ≠ hostOutWord) : t.rd b f = s.rd b f := by
  unfold State.rd
  rw [h.word _ hf]

theorem LinkStep.linkOpen {s t : State} (h : LinkStep s t) (ho : LinkOpen s) : LinkOpen t := by
  obtain ⟨hbm, hw⟩ := ho
  constructor
  · unfold State.flag at hbm ⊢
    rwa [h.rd (by decide)]
  · unfold State.endpointWedged State.sharedWedged at hw ⊢
    rwa [h.rd (by decide)]

/-- The state with the host's side replaced. -/
def onHost (h : HostSt) (s : State) : State := { s with host := h }

section onHost
variable (h : HostSt) (s : State)

@[simp] theorem onHost_host : (onHost h s).host = h := rfl
@[simp] theorem onHost_mem : (onHost h s).mem = s.mem := rfl
@[simp] theorem onHost_rd (b : Blk) (f : Fld) : (onHost h s).rd b f = s.rd b f := rfl
@[simp] theorem onHost_flag (b : Blk) (f : Fld) : (onHost h s).flag b f = s.flag b f := rfl
@[simp] theorem onHost_endpointWedged : (onHost h s).endpointWedged = s.endpointWedged := rfl

end onHost

/-- An open link takes a request through host_out. -/
theorem toHost_open {s : State} (h : LinkOpen s) (q : HostReq) : s.toHost q = onHost (delivered q s.host)
    (ferryPass .dma R.HOST_OUT_FERRY.level R.HOST_OUT_FERRY.high_water 1024 q.entries s) := by
  obtain ⟨hbm, hw⟩ := h
  have hhost := ferryPass_host .dma R.HOST_OUT_FERRY.level R.HOST_OUT_FERRY.high_water 1024 q.entries s
  unfold State.toHost
  rw [if_pos (by simp [hbm, hw]), ← hhost]
  cases q <;> rfl

theorem linkStep_toHost {s : State} (h : LinkOpen s) (q : HostReq) : LinkStep s (s.toHost q) := by
  have hp : WritesOnly (· = hostOutWord) s (ferryPass .dma R.HOST_OUT_FERRY.level R.HOST_OUT_FERRY.high_water 1024 q.entries s) :=
    writesOnly_ferryPass _ _ _ rfl
  rw [toHost_open h]
  exact ⟨hp.word, by cases q <;> rfl, by cases q <;> rfl, (onHost_mem _ _).trans (onlyRegs_mem hp.only)⟩

/-- What waited in host_out goes out, in order. -/
theorem linkStep_each (l : List HostReq) : ∀ {s : State}, LinkOpen s → LinkStep s (s.each l (fun q st => st.toHost q)) := by
  induction l with
  | nil => exact fun _ => .refl _
  | cons q l ih => exact fun h => (linkStep_toHost h q).trans (ih ((linkStep_toHost h q).linkOpen h))

/-! ### MSI-X (R364) -/

/-- The MSI-X table with vector `v` unmasked. -/
def unmaskedTable (v : Nat) (m : SMap Byte) : SMap Byte :=
  SMap.set msixDefault m (16 * v + 12) (SMap.get msixDefault m (16 * v + 12) &&& 0xFE)

theorem unmaskedTable_bit (v : Nat) (m : SMap Byte) : (SMap.get msixDefault (unmaskedTable v m) (16 * v + 12)).getLsbD 0 = false := by
  unfold unmaskedTable
  rw [get_set_self]
  simp

theorem exec_msixUnmask (v : Fin 2048) (s : State) : exec (.msixUnmask v) s =
    .next (msixFlush (onHost { s.host with msixTable := unmaskedTable v s.host.msixTable } s)) := rfl

/-- The only pending vector is sent once it is unmasked. -/
theorem msixFlush_one {s : State} {v : Nat} (hpba : s.host.pba = [(v, true)]) (hen : s.flag .dma R.PCIE_STATUS.msix_enable = true)
    (hm : s.msixMasked v = false) : msixFlush s = (onHost { s.host with pba := [] } s).toHost (.message v) := by
  have herase : SMap.erase s.host.pba v = [] := by simp [hpba, SMap.erase]
  unfold msixFlush State.each
  rw [hpba, List.foldl_cons, List.foldl_nil]
  refine (if_pos (by simp [hen, hm])).trans ?_
  rw [herase]
  rfl

theorem msixUnmask_sends (s : State) (v : Fin 2048) (hpba : s.host.pba = [(v.val, true)])
    (hen : s.flag .dma R.PCIE_STATUS.msix_enable = true) (hfm : s.flag .dma R.PCIE_STATUS.function_mask = false)
    (hbm : s.flag .dma R.PCIE_STATUS.bus_master = true) (hw : s.endpointWedged = false) :
    Completes (.msixUnmask v) s (fun t => t.host.sent = s.host.sent ++ [v.val] ∧ t.host.pba = [] ∧ t.msixMasked v = false ∧
      SameOutside .dma s t ∧ t.mem = s.mem) := by
  have hm : (onHost { s.host with msixTable := unmaskedTable v s.host.msixTable } s).msixMasked v = false := by
    unfold State.msixMasked
    rw [onHost_flag, hfm, Bool.false_or]
    exact unmaskedTable_bit _ _
  refine ⟨_, (exec_msixUnmask v s).trans (congrArg _ (msixFlush_one hpba hen hm)), ?_⟩
  generalize hu : onHost _ (onHost _ s) = u
  have hopen : LinkOpen u := by subst hu; exact ⟨hbm, hw⟩
  have hstep := linkStep_toHost hopen (.message v)
  have hhost : (u.toHost (.message v)).host = delivered (.message v) u.host := by rw [toHost_open hopen]; rfl
  refine ⟨?_, ?_, ?_, fun a ha => ?_, ?_⟩
  · rw [hhost, ← hu]; rfl
  · rw [hhost, ← hu]; rfl
  · unfold State.msixMasked State.flag
    rw [hstep.rd (by decide), hhost, ← hu]
    exact hm
  · rw [hstep.word a (by rintro rfl; exact ha rfl), ← hu]; rfl
  · rw [hstep.mem, ← hu]; rfl

theorem msixUnmask_idle (s : State) (v : Fin 2048) (hpba : s.host.pba = []) : Completes (.msixUnmask v) s (fun t =>
      t.host.sent = s.host.sent ∧ t.host.pba = [] ∧ (SMap.get msixDefault t.host.msixTable (16 * v.val + 12)).getLsbD 0 = false ∧
      t.regs = s.regs ∧ t.mem = s.mem) := by
  have hflush : msixFlush (onHost { s.host with msixTable := unmaskedTable v s.host.msixTable } s)
      = onHost { s.host with msixTable := unmaskedTable v s.host.msixTable } s := by
    unfold msixFlush State.each
    rw [onHost_host, hpba, List.foldl_nil]
  exact ⟨_, (exec_msixUnmask v s).trans (congrArg _ hflush), rfl, hpba, unmaskedTable_bit _ _, rfl, rfl⟩

/-! ### Configuration requests (R347, R348, R350, R389) -/

theorem unexpectedCompletion_counts (s : State) : Completes .unexpectedCompletion s (fun t =>
    t = { s with host := { s.host with aerUnexpected := s.host.aerUnexpected + 1 } }) := ⟨_, rfl, rfl⟩

theorem configurationRequest_retried (s : State) (o : CfgOp) (hoff : s.dev ≠ .off) (hw : s.endpointWedged = false)
    (hids : s.boot.idsPassed = false) : Completes (.configurationRequest o) s (fun t =>
      t = { s with host := { s.host with retries := s.host.retries + 1 } }) := by
  refine ⟨_, congrArg Host.Outcome.next ?_, rfl⟩
  unfold opConfigurationRequest
  rw [if_neg (by simp [hoff, hw]), if_pos hids]

/-- After the IDs are passed a configuration request is served. -/
theorem opConfigurationRequest_served {s : State} (o : CfgOp) (hoff : s.dev ≠ .off) (hw : s.endpointWedged = false)
    (hids : s.boot.idsPassed = true) : opConfigurationRequest o s = match o with
    | .read n => hostAnswer true false (configDword n s).1 (configDword n s).2
    | .setCommand mem bm =>
      let u := (onHost { s.host with memSpace := mem } s).wr .dma R.PCIE_STATUS.bus_master (bit bm)
      if bm then drainHostOut u else u
    | .setMsix en fm => msixFlush ((s.wr .dma R.PCIE_STATUS.msix_enable (bit en)).wr .dma R.PCIE_STATUS.function_mask (bit fm))
    | .setBar4 n => if s.host.memSpace || decide (n < 28) || decide (40 < n) then s else s.wr .dma R.PCIE_STATUS.bar4_log2 n
    | .linkUp sp w => (s.wr .dma R.PCIE_STATUS.speed sp).wr .dma R.PCIE_STATUS.width w := by
  unfold opConfigurationRequest
  rw [if_neg (by simp [hoff, hw]), if_neg (by simp [hids])]
  cases o <;> rfl

theorem exec_configurationRequest (o : CfgOp) (s : State) : exec (.configurationRequest o) s = .next (opConfigurationRequest o s) := rfl

/-- The Command register written: Memory Space Enable and Bus Master Enable. -/
def commandSet (m b : Bool) (s : State) : State := (onHost { s.host with memSpace := m } s).wr .dma R.PCIE_STATUS.bus_master (bit b)

theorem commandSet_busMaster (m b : Bool) (s : State) : (commandSet m b s).rd .dma R.PCIE_STATUS.bus_master = if b then 1 else 0 := by
  unfold commandSet
  rw [rd_wr_val _ _ _ _ (by decide)]
  cases b <;> rfl

theorem writesOnly_commandSet (m b : Bool) (s : State) :
    WritesOnly (InSlot .dma) (onHost { s.host with memSpace := m } s) (commandSet m b s) :=
  writesOnly_wr _ _ (inSlot_base _ (by decide))

/-- A field of the dma slot does not wedge the endpoint. -/
theorem endpointWedged_wr_dma (s : State) (f : Fld) (v : Nat) (hf : f.off < 0x10000) :
    (s.wr .dma f v).endpointWedged = s.endpointWedged := by
  unfold State.endpointWedged State.sharedWedged
  rw [rd_wr_slot _ _ (by decide) hf (by decide)]

/-- What `drainHostOut` does once the link takes requests. -/
theorem drainHostOut_open {u : State} (h : LinkOpen u) :
    LinkStep ((onHost { u.host with hostOut := [] } u).wr .dma R.HOST_OUT_FERRY.level 0) (drainHostOut u) := by
  obtain ⟨hbm, hw⟩ := h
  refine linkStep_each _ ⟨?_, ?_⟩
  · unfold State.flag at hbm ⊢
    rwa [rd_wr_keep _ _ _ _ _ (.inl (by decide)), onHost_rd]
  · rwa [endpointWedged_wr_dma _ _ _ (by decide), onHost_endpointWedged]

theorem setCommand_served (s : State) (m b : Bool) (hoff : s.dev ≠ .off) (hw : s.endpointWedged = false)
    (hids : s.boot.idsPassed = true) : Completes (.configurationRequest (.setCommand m b)) s (fun t =>
      t.host.memSpace = m ∧ t.rd .dma R.PCIE_STATUS.bus_master = (if b then 1 else 0) ∧
      t.host.hostOut = (if b then [] else s.host.hostOut) ∧ (b = false → t.host.mem = s.host.mem ∧ t.host.sent = s.host.sent) ∧
      t.mem = s.mem ∧ SameOutside .dma s t) := by
  have hop : opConfigurationRequest (.setCommand m b) s = if b then drainHostOut (commandSet m b s) else commandSet m b s :=
    opConfigurationRequest_served _ hoff hw hids
  have hbm := commandSet_busMaster m b s
  have hset : SameOutside .dma s (commandSet m b s) := (writesOnly_commandSet m b s).word
  cases b with
  | false => exact ⟨_, (exec_configurationRequest _ _).trans (congrArg Host.Outcome.next hop), rfl, hbm, rfl, fun _ => ⟨rfl, rfl⟩, rfl, hset⟩
  | true =>
    have hopen : LinkOpen (commandSet m true s) := by
      refine ⟨?_, ?_⟩
      · unfold State.flag
        rw [hbm]
        rfl
      · unfold commandSet
        rwa [endpointWedged_wr_dma _ _ _ (by decide), onHost_endpointWedged]
    have hstep := drainHostOut_open hopen
    refine ⟨_, (exec_configurationRequest _ _).trans (congrArg Host.Outcome.next hop), hstep.memSpace, ?_, hstep.hostOut,
      fun h => Bool.noConfusion h, hstep.mem, fun a ha => ?_⟩
    · rw [if_pos rfl, hstep.rd (by decide), rd_wr_keep _ _ _ _ _ (.inl (by decide)), onHost_rd]
      exact hbm
    · rw [if_pos rfl, hstep.word a (by rintro rfl; exact ha rfl)]
      exact ((writesOnly_wr _ _ rfl).word a (by rintro rfl; exact ha rfl)).trans (hset a ha)

theorem setBar4_served (s : State) (n : Nat) (hoff : s.dev ≠ .off) (hw : s.endpointWedged = false) (hids : s.boot.idsPassed = true)
    (hms : s.host.memSpace = false) (h28 : 28 ≤ n) (h40 : n ≤ 40) : Completes (.configurationRequest (.setBar4 n)) s (fun t =>
      t.rd .dma R.PCIE_STATUS.bar4_log2 = n ∧ t.host = s.host ∧ t.mem = s.mem ∧ SameOutside .dma s t) := by
  have hop : opConfigurationRequest (.setBar4 n) s = s.wr .dma R.PCIE_STATUS.bar4_log2 n :=
    (opConfigurationRequest_served _ hoff hw hids).trans (if_neg (by simp [hms]; omega))
  have hwr : WritesOnly (InSlot .dma) s (s.wr .dma R.PCIE_STATUS.bar4_log2 n) := writesOnly_wr s n (inSlot_base _ (by decide))
  refine ⟨_, (exec_configurationRequest _ _).trans (congrArg Host.Outcome.next hop), ?_, rfl, rfl, hwr.word⟩
  rw [rd_wr_val _ _ _ _ (by decide)]
  exact Nat.mod_eq_of_lt (h40.trans_lt (by decide))

/-- A read of a double word that the IDs give is answered with it. -/
theorem configRead_served {s : State} {n : Nat} {bs : List Byte} (hoff : s.dev ≠ .off) (hw : s.endpointWedged = false)
    (hids : s.boot.idsPassed = true) (hn : configDword n s = (bs, s)) : Completes (.configurationRequest (.read n)) s (fun t =>
      t.host.readOk = true ∧ t.host.readBytes = bs ∧ t.regs = s.regs ∧ t.mem = s.mem) := by
  have hop : opConfigurationRequest (.read n) s = hostAnswer true false bs s :=
    (opConfigurationRequest_served _ hoff hw hids).trans (by dsimp only; rw [hn])
  exact ⟨_, (exec_configurationRequest _ _).trans (congrArg Host.Outcome.next hop), rfl, rfl, rfl, rfl⟩

theorem configDword_ids (s : State) : configDword 0 s = (leBytes 2 s.boot.vendor ++ [0x20, 0x51], s) :=
  congrArg (fun bs => (leBytes 2 s.boot.vendor ++ bs, s)) (by decide)

theorem configDword_class (s : State) : configDword 2 s = ([0xB1, 0x00, 0x80, 0x11], s) :=
  congrArg (fun bs : List Byte => (bs, s)) (by decide)

end Sys2Proof.Proofs

namespace Sys2Proof.Proofs
open Sys2Proof Sys2Proof.Machine Sys2Proof.Laws

/-! ### Operations that leave the host's memory alone -/

/-- `t` differs from `s` in register words of `W`, in the rings' own records, and in what is neither a register nor the host's. -/
structure HostKeeps (W : Nat → Prop) (s t : State) : Prop where
  word : ∀ a, ¬ W a → t.word a = s.word a
  host : t.host = { s.host with rings := t.host.rings }

section HostKeeps
variable {W V : Nat → Prop} {s t u : State}

theorem HostKeeps.refl (W : Nat → Prop) (s : State) : HostKeeps W s s := ⟨fun _ _ => rfl, rfl⟩

theorem HostKeeps.trans (h : HostKeeps W s t) (g : HostKeeps W t u) : HostKeeps W s u :=
  ⟨fun a ha => (g.word a ha).trans (h.word a ha), by rw [g.host, h.host]⟩

theorem HostKeeps.mono (h : HostKeeps W s t) (hv : ∀ a, W a → V a) : HostKeeps V s t :=
  ⟨fun a ha => h.word a (fun w => ha (hv a w)), h.host⟩

theorem WritesOnly.hostKeeps (h : WritesOnly W s t) : HostKeeps W s t := ⟨h.word, by rw [onlyRegs_host h.only]⟩

theorem HostKeeps.wr (h : HostKeeps W s t) {b : Blk} {f : Fld} (v : Nat) (hw : W (b.base + f.off)) : HostKeeps W s (t.wr b f v) :=
  h.trans (writesOnly_wr t v hw).hostKeeps

theorem HostKeeps.cnt (h : HostKeeps W s t) {b : Blk} {f : Fld} (n : Nat) (hw : W (b.base + f.off)) : HostKeeps W s (t.cnt b f n) :=
  h.trans ((WritesOnly.refl W t).cnt n hw).hostKeeps

/-- What is neither a register nor the host's may change. -/
theorem HostKeeps.same (h : HostKeeps W s t) (hr : u.regs = t.regs) (hh : u.host = t.host) : HostKeeps W s u :=
  ⟨fun a ha => (congrArg (SMap.get resetWord · a) hr).trans (h.word a ha), hh ▸ h.host⟩

theorem HostKeeps.setRing (h : HostKeeps W s t) (r : Fin 256) (x : RingSt) : HostKeeps W s (t.setRing r x) :=
  h.trans ⟨fun _ _ => rfl, rfl⟩

theorem HostKeeps.each {β : Type} (l : List β) (g : β → Op) (hg : ∀ x ∈ l, ∀ s, HostKeeps W s (g x s)) :
    ∀ s : State, HostKeeps W s (s.each l g) := by
  induction l with
  | nil => exact fun s => .refl W s
  | cons x l ih =>
    exact fun s => (hg x List.mem_cons_self s).trans (ih (fun y hy => hg y (List.mem_cons_of_mem x hy)) (g x s))

theorem HostKeeps.rd (h : HostKeeps W s t) {b : Blk} {f : Fld} (hw : ¬ W (b.base + f.off)) : t.rd b f = s.rd b f := by
  unfold State.rd
  rw [h.word _ hw]

end HostKeeps

/-- The place of a register in its slot. -/
theorem base_add_mod (b : Blk) {o : Nat} (h : o < 0x10000) : (b.base + o) % 0x10000 = o := by
  unfold Blk.base
  omega

/-- A loop whose pass for `x` establishes `Q x`, and keeps the `Q` of every other item, establishes them all. -/
theorem each_establishes {β : Type} {Q : β → State → Prop} {g : β → Op} (hset : ∀ x s, Q x (g x s))
    (hkeep : ∀ x y s, x ≠ y → Q y s → Q y (g x s)) (l : List β) : ∀ s : State, ∀ y, (y ∈ l ∨ Q y s) → Q y (s.each l g) := by
  induction l with
  | nil => exact fun s y h => h.resolve_left (by simp)
  | cons x l ih =>
    intro s y h
    refine ih (g x s) y ?_
    by_cases hxy : x = y
    · exact .inr (hxy ▸ hset x s)
    · obtain h | h := h
      · exact .inl ((List.mem_cons.1 h).resolve_left (Ne.symm hxy))
      · exact .inr (hkeep x y s hxy h)

/-! ### Writes to DRAM (R334, R337) -/

/-- The registers a DRAM write may touch: DRAM_ECC and DRAM_FERRY_WR of its channel. -/
def DramWord (a : Nat) : Prop := a % 0x10000 = 0x170 ∨ a % 0x10000 = 0x190

theorem hostKeeps_dramPutLine (w : Nat) (ds : List (Option Byte)) (s : State) : HostKeeps DramWord s (dramPutLine w ds s) := by
  unfold dramPutLine
  split
  · split
    · exact (HostKeeps.refl _ s).same rfl rfl
    · split
      · exact .refl _ s
      · exact (HostKeeps.refl _ s).cnt _ (.inl (base_add_mod _ (by decide)))
  · exact (HostKeeps.refl _ s).same rfl rfl

theorem hostKeeps_dramWriteLine (w : Nat) (ds : List (Option Byte)) (s : State) : HostKeeps DramWord s (dramWriteLine w ds s) := by
  have hferry : ∀ c : Nat, DramWord ((Blk.dram c).base + 0x190) := fun c => .inr (base_add_mod _ (by decide))
  unfold dramWriteLine
  dsimp only
  split
  · exact .refl _ s
  · split
    · exact (hostKeeps_dramPutLine w ds s).trans (writesOnly_ferryPass _ _ _ (hferry _)).hostKeeps
    · unfold showMemWr
      refine HostKeeps.trans ?_ (writesOnly_ferryLevel _ _ _ (hferry _) (hferry _)).hostKeeps
      exact (HostKeeps.refl _ s).same rfl rfl

theorem hostKeeps_dramWriteLines (a : Nat) (data : List (Option Byte)) (ws : List Nat) :
    ∀ s : State, HostKeeps DramWord s (dramWriteLines a data ws s) := by
  induction ws with
  | nil => exact fun s => .refl _ s
  | cons w ws ih => exact fun s => (hostKeeps_dramWriteLine w _ s).trans (ih _)

theorem hostKeeps_dramWrite (a : Nat) (data : List Byte) (s : State) : HostKeeps DramWord s (dramWrite a data s) :=
  hostKeeps_dramWriteLines a _ _ s

/-! ### The rings at an endpoint reset (R350, R357) -/

/-- The word of PCIE_STATUS. -/
def pcieWord : Nat := Blk.dma.base + 0x48

/-- The word of RING_STATUS of ring `r`. -/
def ringStatusWord (r : Fin 256) : Nat := (ringBlk r).base + (0x120 + 0x40 * ringIx r)

/-- The registers a ring's end may touch: those of the ring, those of DMA but PCIE_STATUS, and those of a DRAM write. -/
def RingWords (r : Fin 256) (a : Nat) : Prop :=
  (InSlot .dma a ∧ a ≠ pcieWord) ∨
  (InSlot (ringBlk r) a ∧ 0x100 + 0x40 * ringIx r ≤ a % 0x10000 ∧ a % 0x10000 < 0x140 + 0x40 * ringIx r) ∨ DramWord a

theorem ringIx_lt (r : Fin 256) : ringIx r < 64 := Nat.mod_lt _ (by decide)

theorem ringWords_dma (r : Fin 256) {o : Nat} (ho : o < 0x10000) (hn : o ≠ 0x48) : RingWords r (Blk.dma.base + o) :=
  .inl ⟨inSlot_base _ ho, fun e => hn (Nat.add_left_cancel e)⟩

theorem ringWords_own (r : Fin 256) {o : Nat} (hlo : 0x100 ≤ o) (hhi : o < 0x140) :
    RingWords r ((ringBlk r).base + (o + 0x40 * ringIx r)) := by
  have := ringIx_lt r
  have hlt : o + 0x40 * ringIx r < 0x10000 := by omega
  refine .inr (.inl ⟨inSlot_base _ hlt, ?_, ?_⟩)
  · rw [base_add_mod _ hlt]
    omega
  · rw [base_add_mod _ hlt]
    omega

/-- A ring whose descriptors lie in DRAM writes one back. -/
theorem hostKeeps_writeBack {r : Fin 256} {s : State} (h : (s.ring r).target = true) (d : Desc) (status cause moved : Nat) :
    HostKeeps (RingWords r) s (writeBack r d status cause moved none s) := by
  have hdram : ∀ a bs s, HostKeeps (RingWords r) s (targetWrite true a bs s) := fun a bs s =>
    (hostKeeps_dramWrite a bs s).mono fun _ hw => .inr (.inr hw)
  have hown : ∀ o, 0x100 ≤ o → o < 0x140 → RingWords r ((ringBlk r).base + (o + 0x40 * ringIx r)) := fun o => ringWords_own r
  unfold writeBack
  dsimp only
  rw [h]
  have hmem := ((hdram (d.addr + 8) (leBytes 8 (d.len + 2 ^ 32 * (moved % 2 ^ 32))) s).trans (hdram d.addr
    (leBytes 8 (d.w0.toNat % 2 ^ 48 + 2 ^ 48 * status + 2 ^ 52 * cause + 2 ^ 56 * nbits d.w0.toNat 62 56)) _))
  have hcounts := (hmem.cnt (f := R.RING_COUNTS.completed (ringIx r)) 1 (hown 0x130 (by decide) (by decide))).cnt
    (f := R.DMA_COUNTS.descriptors) 1 (ringWords_dma r (by decide) (by decide))
  have hbytes : ∀ t, HostKeeps (RingWords r) s t → HostKeeps (RingWords r) s
      ((t.cnt (ringBlk r) (R.RING_BYTES.count (ringIx r)) moved).cnt .dma R.DMA_BYTES.count moved) := fun t ht =>
    (ht.cnt _ (hown 0x138 (by decide) (by decide))).cnt _ (ringWords_dma r (by decide) (by decide))
  have herrors : ∀ c : Prop, [Decidable c] → ∀ t, HostKeeps (RingWords r) s t → HostKeeps (RingWords r) s
      (if c then t else t.cnt (ringBlk r) (R.RING_COUNTS.errors (ringIx r)) 1) := fun c _ t ht => by
    split
    · exact ht
    · exact ht.cnt _ (hown 0x130 (by decide) (by decide))
  split
  · exact (hbytes _ (herrors _ _ hcounts)).setRing _ _
  · exact hbytes _ (herrors _ _ hcounts)

/-- TARGET halts the ring and is logged. -/
theorem hostKeeps_ringAfter (r : Fin 256) (d : Desc) (cause : Nat) (s : State) :
    HostKeeps (RingWords r) s (ringAfter r d 1 cause s) := by
  have hstatus : RingWords r (ringStatusWord r) := ringWords_own r (by decide) (by decide)
  have hdma : ∀ o, o < 0x10000 → o ≠ 0x48 → RingWords r (Blk.dma.base + o) := fun o => ringWords_dma r
  unfold ringAfter
  dsimp only
  rw [if_neg (by decide), if_neg (by decide), if_pos rfl, if_pos rfl]
  have hring := (((((HostKeeps.refl (RingWords r) s).wr (f := R.RING_STATUS.state (ringIx r)) 4 hstatus).wr
    (f := R.RING_STATUS.last_error (ringIx r)) 1 hstatus).wr (f := R.RING_STATUS.last_cause (ringIx r)) cause hstatus).cnt
    (f := R.DMA_COUNTS.halts) 1 (hdma _ (by decide) (by decide))).cnt
    (f := R.DMA_COUNTS.target_errors) 1 (hdma _ (by decide) (by decide))
  have hlog := (((hring.wr (f := R.DMA_LAST_FAULT.ring) r.val (hdma _ (by decide) (by decide))).wr
    (f := R.DMA_LAST_FAULT.status) 1 (hdma _ (by decide) (by decide))).wr
    (f := R.DMA_LAST_FAULT.cause) cause (hdma _ (by decide) (by decide))).wr
    (f := R.DMA_LAST_FAULT.index) d.index (hdma _ (by decide) (by decide))
  exact ((hlog.wr (f := R.DMA_LAST_FAULT.address) _ (hdma _ (by decide) (by decide))).wr
    (f := R.DMA_FAULT.target) 1 (hdma _ (by decide) (by decide))).wr 1 (hdma _ (by decide) (by decide))

theorem hostKeeps_ringPast (r : Fin 256) (s : State) : HostKeeps (RingWords r) s (ringPast r s) := by
  unfold ringPast
  dsimp only
  split
  · exact (HostKeeps.refl _ s).setRing _ _
  · exact ((HostKeeps.refl _ s).setRing _ _).wr _ (ringWords_own r (by decide) (by decide))

/-- The descriptor in progress, if there is one, fails with TARGET, cause 5. -/
def failDesc (r : Fin 256) (s : State) : State :=
  let x := s.ring r
  match x.desc with
  | some d =>
    let t := s.setRing r { x with failAt := d.dst.addr + x.moved, stopping := false }
    ringPast r (ringAfter r d 1 5 (if x.target then writeBack r d 1 5 x.moved none t else t))
  | none => s

theorem ringsReset_eq (s : State) : ringsReset s = s.each (List.finRange 256) (fun r st => setRingState r 4 (failDesc r st)) := rfl

theorem ring_setRing (s : State) (r : Fin 256) (x : RingSt) : (s.setRing r x).ring r = x := get_set_self _ _ _ _

theorem hostKeeps_failDesc (r : Fin 256) (s : State) : HostKeeps (RingWords r) s (failDesc r s) := by
  unfold failDesc
  dsimp only
  split
  · next d hd =>
    refine HostKeeps.trans ?_ (hostKeeps_ringPast r _)
    refine HostKeeps.trans ?_ (hostKeeps_ringAfter r d 5 _)
    have hset := (HostKeeps.refl (RingWords r) s).setRing r
      { s.ring r with failAt := d.dst.addr + (s.ring r).moved, stopping := false }
    split
    · next ht => exact hset.trans (hostKeeps_writeBack (by rw [ring_setRing]; exact ht) d 1 5 _)
    · exact hset
  · exact .refl _ s

theorem hostKeeps_resetRing (r : Fin 256) (s : State) : HostKeeps (RingWords r) s (setRingState r 4 (failDesc r s)) :=
  (hostKeeps_failDesc r s).wr _ (ringWords_own r (by decide) (by decide))

theorem ringStatusWord_not_ringWords {q r : Fin 256} (h : q ≠ r) : ¬ RingWords q (ringStatusWord r) := by
  have hr := ringIx_lt r
  have hq := ringIx_lt q
  have hne : ¬ (q.val / 64 = r.val / 64 ∧ q.val % 64 = r.val % 64) := fun ⟨hd, hm⟩ => h (Fin.ext (by omega))
  have hmod : ringStatusWord r % 0x10000 = 0x120 + 0x40 * ringIx r := base_add_mod _ (by omega)
  have hdiv : ringStatusWord r / 0x10000 = 0x21 + r.val / 64 := inSlot_base (ringBlk r) (by omega)
  rintro (⟨hs, -⟩ | ⟨hs, hlo, hhi⟩ | hd)
  · change _ = 0x20 at hs
    omega
  · change _ = 0x21 + q.val / 64 at hs
    unfold ringIx at *
    omega
  · unfold DramWord at hd
    omega

/-- Every ring is HALTED. -/
theorem ringsReset_halted (s : State) (r : Fin 256) : (ringsReset s).ringState r = 4 := by
  rw [ringsReset_eq]
  refine each_establishes (Q := fun r s => State.ringState s r = 4) (fun x s => ?_) (fun x y s hxy hy => ?_) _ s r
    (.inl (List.mem_finRange r))
  · exact rd_wr_val _ _ _ _ (show (0 : Nat) + 3 ≤ 64 by decide)
  · exact ((hostKeeps_resetRing x s).rd (b := ringBlk y) (f := R.RING_STATUS.state (ringIx y)) (ringStatusWord_not_ringWords hxy)).trans hy

/-- The rings' part of an endpoint reset leaves PCIE_STATUS. -/
theorem hostKeeps_ringsReset (s : State) : HostKeeps (· ≠ pcieWord) s (ringsReset s) := by
  have hpcie : ∀ r, ¬ RingWords r pcieWord := by
    intro r
    rintro (⟨-, hn⟩ | ⟨hs, -⟩ | hd)
    · exact hn rfl
    · change 0x20 = 0x21 + r.val / 64 at hs
      omega
    · exact absurd hd (by unfold DramWord; decide)
  rw [ringsReset_eq]
  exact .each _ _ (fun r _ s => (hostKeeps_resetRing r s).mono (by rintro a ha rfl; exact hpcie r ha)) s

/-! ### The queues at an endpoint reset (R197) -/

/-- The registers the queue engine may touch when a write to a target fails: those of slots above DMA's, and those of a DRAM write. -/
def QueueWords (a : Nat) : Prop := 0x25 ≤ a / 0x10000 ∨ DramWord a

theorem queueWords_of_high {b : Blk} (o : Nat) (hb : 0x25 ≤ b.slot) : QueueWords (b.base + o) := by
  unfold QueueWords Blk.base
  omega

theorem hostKeeps_setCtx (q : Nat) (c : Ctx) (s : State) : HostKeeps QueueWords s (setCtx q c s) := by
  unfold setCtx
  split
  · exact (HostKeeps.refl _ s).same rfl rfl
  · exact (hostKeeps_dramWrite _ _ s).mono fun _ h => .inr h

theorem hostKeeps_dropRec (r : Rec) (s : State) : HostKeeps QueueWords s (dropRec r s) := (HostKeeps.refl _ s).same rfl rfl

theorem hostKeeps_countRec (r : Rec) (s : State) : HostKeeps QueueWords s (countRec r false s) := by
  have hcount : countRec r false s = if r.cls = 11 then s.cnt .chan (R.CHAN_COUNTS.records_abandoned r.prod) 1
      else s.cnt (.records r.prod) R.REC_COUNTS.abandoned 1 := rfl
  rw [hcount]
  split
  · exact (HostKeeps.refl _ s).cnt 1 (queueWords_of_high (b := .chan) _ (show 0x25 ≤ 0x31 by decide))
  · exact (HostKeeps.refl _ s).cnt 1 (queueWords_of_high (b := .records r.prod) _ (show 0x25 ≤ 0x83 + 4 * r.prod by omega))

theorem queueWords_queue (o : Nat) : QueueWords (Blk.queue.base + o) := queueWords_of_high o (by decide)

theorem hostKeeps_haltQueue (q cause : Nat) (s : State) : HostKeeps QueueWords s (haltQueue q cause s) :=
  ((((hostKeeps_setCtx q _ s).wr _ (queueWords_queue _)).wr _ (queueWords_queue _)).wr _ (queueWords_queue _)).wr _ (queueWords_queue _)

theorem hostKeeps_absorb (q n : Nat) : ∀ s : State, HostKeeps QueueWords s (absorb q n s) := by
  induction n with
  | zero => exact fun s => .refl _ s
  | succ n ih =>
    intro s
    unfold absorb
    split
    · next r _ =>
      split
      · refine HostKeeps.trans ?_ (ih _)
        have hhalt : ∀ (c : Prop) [Decidable c] (t : State), HostKeeps QueueWords t (if c then haltQueue q 1 t else t) := fun c _ t => by
          split
          · exact hostKeeps_haltQueue q 1 t
          · exact .refl _ t
        refine HostKeeps.trans ?_ (hhalt _ _)
        refine HostKeeps.trans ?_ (hostKeeps_setCtx q _ _)
        exact (hostKeeps_dropRec r s).same rfl rfl
      · exact .refl _ s
    · exact .refl _ s

theorem hostKeeps_abandon (r : Rec) (why : Nat) (s : State) : HostKeeps QueueWords s (abandon r why s) := by
  unfold abandon
  split
  · exact .refl _ s
  · split
    · exact hostKeeps_dropRec r s
    · refine HostKeeps.trans ?_ (hostKeeps_absorb _ _ _)
      refine HostKeeps.trans ?_ (hostKeeps_countRec r _)
      exact (HostKeeps.refl _ s).same rfl rfl

theorem hostKeeps_showStaging (s : State) : HostKeeps QueueWords s (showStaging s) :=
  (((HostKeeps.refl _ s).wr _ (queueWords_queue _)).wr _ (queueWords_queue _)).wr _ (queueWords_queue _)

theorem hostKeeps_destroyCheck (s : State) : HostKeeps QueueWords s (destroyCheck s) := by
  unfold destroyCheck
  split
  · exact .refl _ s
  · next q _ =>
    split
    · exact .refl _ s
    · have hctx : HostKeeps QueueWords s { setCtx q ((s.ctx q).setBit 7 0) s with
          queue := { (setCtx q ((s.ctx q).setBit 7 0) s).queue with destroying := none } } := (hostKeeps_setCtx q _ s).same rfl rfl
      exact ((hctx.wr _ (queueWords_queue _)).wr _ (queueWords_queue _)).wr _ (queueWords_queue _)

theorem hostKeeps_writeFailed (r : Rec) (s : State) : HostKeeps QueueWords s (writeFailed r s) := by
  have hgone : HostKeeps QueueWords s (if r.count = 0 then abandon r 7 s
      else match (dropRec r s).headRec r.q with
        | some x => if x.reserved then abandon x 7 (dropRec r s) else dropRec r s
        | none => dropRec r s) := by
    split
    · exact hostKeeps_abandon r 7 s
    · split
      · split
        · exact (hostKeeps_dropRec r s).trans (hostKeeps_abandon _ 7 _)
        · exact hostKeeps_dropRec r s
      · exact hostKeeps_dropRec r s
  unfold writeFailed
  exact ((hgone.trans (hostKeeps_haltQueue r.q 2 _)).trans (hostKeeps_destroyCheck _)).trans (hostKeeps_showStaging _)

/-! ### The endpoint reset (R350) -/

/-- Word of CQ_CFG of queue `c`. -/
def cqCfgWord (c : Nat) : Nat := (cqBlk c).base + (0x1108 + 0x20 * (c % 256))

theorem cqCfgWord_inj {c d : Nat} (h : cqCfgWord c = cqCfgWord d) : c = d := by
  change 0x10000 * (0x21 + c / 256) + _ = 0x10000 * (0x21 + d / 256) + _ at h
  omega

theorem pcieWord_ne_cqCfgWord (c : Nat) : pcieWord ≠ cqCfgWord c := by
  change 0x10000 * 0x20 + 0x48 ≠ 0x10000 * (0x21 + c / 256) + _
  omega

theorem ringStatusWord_ne_cqCfgWord (r : Fin 256) (c : Nat) : ringStatusWord r ≠ cqCfgWord c := by
  have := ringIx_lt r
  change 0x10000 * (0x21 + r.val / 64) + _ ≠ 0x10000 * (0x21 + c / 256) + _
  omega

theorem pcieWord_not_queueWords : ¬ QueueWords pcieWord := by unfold QueueWords DramWord; decide

theorem ringStatusWord_not_queueWords (r : Fin 256) : ¬ QueueWords (ringStatusWord r) := by
  have := ringIx_lt r
  have hmod : ringStatusWord r % 0x10000 = 0x120 + 0x40 * ringIx r := base_add_mod _ (by omega)
  have hdiv : ringStatusWord r / 0x10000 = 0x21 + r.val / 64 := inSlot_base (ringBlk r) (by omega)
  unfold QueueWords DramWord
  omega

/-- The endpoint's own state at a reset: nothing waits, Memory Space Enable is clear. -/
def endpointCleared (h : HostSt) : HostSt := { h with memSpace := false, hostOut := [], msixTable := [], pba := [] }

/-- PCIE_STATUS and host_out at a reset. -/
def linkCleared (s : State) : State :=
  (((((((s.wr .dma R.HOST_OUT_FERRY.level 0).wr .dma R.PCIE_STATUS.bus_master 0).wr .dma R.PCIE_STATUS.msix_enable 0).wr .dma
    R.PCIE_STATUS.function_mask 0).wr .dma R.PCIE_STATUS.bar4_log2 28).cnt .dma R.PCIE_STATUS.link_downs 1).wr .dma
    R.PCIE_STATUS.speed 0).wr .dma R.PCIE_STATUS.width 0

/-- The writes of the queue engine to host memory fail. -/
def queuesReset (s : State) : State :=
  s.each (s.queue.recs.filter (fun r => r.reserved && !(s.ctx r.q).target)) (fun r st =>
    match st.queue.recs.find? (fun x => x.q = r.q ∧ x.seq = r.seq ∧ x.count = r.count) with
    | some x => writeFailed x st
    | none => st)

/-- A completion queue in host memory is disabled. -/
def cqReset (c : Nat) (s : State) : State :=
  if s.cqOn c && !(s.cqSt c).target then s.wr (cqBlk c) (R.CQ_CFG.enable (c % 256)) 0 else s

/-- Each completion queue of `l` in host memory is disabled. -/
def cqsReset (l : List Nat) (s : State) : State := s.each l cqReset

theorem endpointReset_eq {s : State} (h : s.endpointWedged = false) :
    endpointReset s = cqsReset (List.range 1024) (queuesReset (ringsReset (linkCleared (onHost (endpointCleared s.host) s)))) := by
  unfold endpointReset
  rw [if_neg (by simp [h])]
  unfold cqsReset queuesReset linkCleared onHost endpointCleared
  dsimp only
  congr 1

theorem linkCleared_rd (s : State) : (linkCleared s).rd .dma R.PCIE_STATUS.bus_master = 0 ∧
    (linkCleared s).rd .dma R.PCIE_STATUS.msix_enable = 0 ∧
    (linkCleared s).rd .dma R.PCIE_STATUS.link_downs = min (s.rd .dma R.PCIE_STATUS.link_downs + 1) 65535 := by
  unfold linkCleared
  refine ⟨?_, ?_, ?_⟩
  · simp (disch := decide) only [rd_wr_keep, rd_cnt_keep, rd_wr_val]
    rfl
  · simp (disch := decide) only [rd_wr_keep, rd_cnt_keep, rd_wr_val]
    rfl
  · simp (disch := decide) only [rd_wr_keep, rd_cnt_val]
    rfl

theorem linkCleared_host (s : State) : (linkCleared s).host = s.host := by
  have h : WritesOnly (fun _ => True) s (linkCleared s) :=
    ((((((((WritesOnly.refl _ s).wr 0 trivial).wr 0 trivial).wr 0 trivial).wr 0 trivial).wr 28 trivial).cnt 1 trivial).wr 0
      trivial).wr 0 trivial
  exact onlyRegs_host h.only

theorem hostKeeps_queuesReset (s : State) : HostKeeps QueueWords s (queuesReset s) := by
  unfold queuesReset
  refine HostKeeps.each _ _ (fun r _ st => ?_) s
  split
  · exact hostKeeps_writeFailed _ st
  · exact .refl _ st

theorem writesOnly_cqReset (c : Nat) (s : State) : WritesOnly (· = cqCfgWord c) s (cqReset c s) := by
  unfold cqReset
  split
  · exact writesOnly_wr s _ rfl
  · exact .refl _ s

theorem writesOnly_cqsReset (l : List Nat) (s : State) : WritesOnly (fun a => ∃ c, a = cqCfgWord c) s (cqsReset l s) :=
  .each _ _ (fun c _ st => (writesOnly_cqReset c st).mono fun _ h => ⟨c, h⟩) s

theorem cqSt_of_writesOnly {W : Nat → Prop} {s t : State} (h : WritesOnly W s t) (c : Nat) : t.cqSt c = s.cqSt c := by
  unfold State.cqSt
  rw [onlyRegs_host h.only]

/-- No completion queue in host memory is left enabled. -/
theorem cqsReset_off {l : List Nat} (s : State) {c : Nat} (hc : c ∈ l) (ht : (s.cqSt c).target = false) : (cqsReset l s).cqOn c = false := by
  refine each_establishes (Q := fun c s => (s.cqSt c).target = false → s.cqOn c = false) (fun c s h => ?_)
    (fun c d s hcd hd h => ?_) l s c (.inl hc) ((congrArg CqSt.target (cqSt_of_writesOnly (writesOnly_cqsReset l s) c)).trans ht)
  · rw [cqSt_of_writesOnly (writesOnly_cqReset c s)] at h
    unfold cqReset
    split
    · unfold State.cqOn State.flag
      rw [rd_wr_val _ _ _ _ (show 12 + 1 ≤ 64 by decide)]
      rfl
    · next hn => simpa [h] using hn
  · have hstep := writesOnly_cqReset c s
    rw [cqSt_of_writesOnly hstep] at h
    unfold State.cqOn State.flag
    rw [hstep.rd (b := cqBlk d) (f := R.CQ_CFG.enable (d % 256)) (fun e => hcd (cqCfgWord_inj e).symm)]
    exact hd h

theorem endpointReset_halts (s : State) (h : s.endpointWedged = false) : Completes .endpointReset s (fun t => t.host.memSpace = false ∧
      t.rd .dma R.PCIE_STATUS.bus_master = 0 ∧ t.rd .dma R.PCIE_STATUS.msix_enable = 0 ∧
      t.rd .dma R.PCIE_STATUS.link_downs = min (s.rd .dma R.PCIE_STATUS.link_downs + 1) 65535 ∧ (∀ r, t.ringState r = 4) ∧
      (∀ c : Fin 1024, (s.cqSt c).target = false → t.cqOn c = false) ∧ t.host.mem = s.host.mem) := by
  have hexec : exec .endpointReset s = .next (endpointReset s) := rfl
  rw [endpointReset_eq h] at hexec
  refine ⟨_, hexec, ?_⟩
  have hmem : ∀ c : Fin 1024, c.val ∈ List.range 1024 := fun c => List.mem_range.2 c.isLt
  generalize List.range 1024 = l at *
  obtain ⟨hbm, hmsix, hdowns⟩ := linkCleared_rd (onHost (endpointCleared s.host) s)
  have hlink := linkCleared_host (onHost (endpointCleared s.host) s)
  generalize linkCleared (onHost (endpointCleared s.host) s) = u at *
  have hrings := hostKeeps_ringsReset u
  have hqueues := hostKeeps_queuesReset (ringsReset u)
  have hcqs := (writesOnly_cqsReset l (queuesReset (ringsReset u))).hostKeeps
  have hbefore : HostKeeps (· ≠ pcieWord) u (queuesReset (ringsReset u)) :=
    hrings.trans (hqueues.mono (by rintro a ha rfl; exact pcieWord_not_queueWords ha))
  have hall : HostKeeps (· ≠ pcieWord) u (cqsReset l (queuesReset (ringsReset u))) :=
    hbefore.trans (hcqs.mono (by rintro a ⟨c, hc⟩ rfl; exact pcieWord_ne_cqCfgWord c hc))
  have hpcie : ∀ f : Fld, f.off = 0x48 → (cqsReset l (queuesReset (ringsReset u))).rd .dma f = u.rd .dma f := fun f hf =>
    hall.rd (fun hn => hn (by unfold pcieWord; rw [hf]))
  refine ⟨?_, (hpcie _ rfl).trans hbm, (hpcie _ rfl).trans hmsix, (hpcie _ rfl).trans hdowns, fun r => ?_, fun c hc => ?_, ?_⟩
  · rw [hall.host, hlink]
    rfl
  · refine ((hqueues.mono (V := (· ≠ ringStatusWord r)) ?_).trans (hcqs.mono ?_)).rd (fun hn => hn rfl) |>.trans
      (ringsReset_halted u r)
    · rintro a ha rfl
      exact ringStatusWord_not_queueWords r ha
    · rintro a ⟨c, hc⟩ rfl
      exact ringStatusWord_ne_cqCfgWord r c hc
  · refine cqsReset_off _ (hmem c) ?_
    unfold State.cqSt
    rw [hbefore.host, hlink]
    exact hc
  · rw [hall.host, hlink]
    rfl

/-- Settles O55: the completion queues and MSI-X from the writes of one command each; host_out drains under an invariant of the link
(`LinkStep`), and an endpoint reset is followed stage by stage through the words each stage can write (`HostKeeps`). The configuration-space
places of the IDs and the details of the endpoint reset are log 8's. -/
theorem completionQueuesAndEndpoint : Obligations.CompletionQueuesAndEndpoint := by
  unfold Obligations.CompletionQueuesAndEndpoint
  exact ⟨cqHead_moves, cqHead_invalid, cqEnable_samples, cqEnable_refused, msixUnmask_sends, msixUnmask_idle, endpointReset_halts,
    unexpectedCompletion_counts, configurationRequest_retried, setCommand_served, setBar4_served,
    fun s hoff hw hids => configRead_served hoff hw hids (configDword_ids s),
    fun s hoff hw hids => configRead_served hoff hw hids (configDword_class s)⟩

end Sys2Proof.Proofs
namespace Sys2Proof.Proofs
open Sys2Proof Sys2Proof.Machine Sys2Proof.Laws

/-- On-chip memory is clear at reset (R324). -/
theorem sram_reset (m : SramId) (a : Nat) : SMap.get zeroByte (State.reset.sram m) a = 0 := by
  cases m with
  | depot => rfl
  | lmem i => simp [State.sram, State.reset, MemSt.zero, SMap.get, zeroByte]
  | imem i => simp [State.sram, State.reset, MemSt.zero, SMap.get, zeroByte]

/-- Settles O4: closed facts of the reset state, block by block. -/
theorem resetHolds : Obligations.ResetHolds := by
  unfold Obligations.ResetHolds
  refine ⟨rfl, rfl, by decide +kernel, by decide +kernel, by decide +kernel, by decide +kernel, rfl, by decide +kernel, sram_reset⟩

end Sys2Proof.Proofs
namespace Sys2Proof.Proofs
open Sys2Proof Sys2Proof.Machine Sys2Proof.Laws

/-! ### What a loop keeps -/

/-- What every pass of a loop keeps, the loop keeps. -/
theorem each_keeps {β γ : Type} (π : State → γ) {l : List β} {g : β → Op} (h : ∀ x s, π (g x s) = π s) :
    ∀ s : State, π (s.each l g) = π s := by
  induction l with
  | nil => exact fun _ => rfl
  | cons x l ih => exact fun s => (ih (g x s)).trans (h x s)

/-! ### The full device reset (R24, R391) -/

/-- A state without its DRAM bytes and its draws of free values. -/
def noDram (s : State) : State := { s with mem := { s.mem with dram := [] }, draw := 0 }

theorem noDram_dramUndefined (s : State) : noDram (dramUndefined s) = noDram s := by
  unfold dramUndefined
  refine each_keeps noDram ?_ s
  exact fun _ _ => rfl

theorem noDram_frame {s t : State} (h : noDram t = noDram s) : t.regs = s.regs ∧ t.dev = s.dev ∧ t.mem.depot = s.mem.depot ∧
    t.queue = s.queue ∧ t.cores = s.cores ∧ t.sec = s.sec := by
  have part : ∀ {γ : Type} (π : State → γ), π (noDram t) = π (noDram s) := fun π => congrArg π h
  exact ⟨part State.regs, part State.dev, part (fun s => s.mem.depot), part State.queue, part State.cores, part State.sec⟩

/-- A field reads as it stands in the registers. -/
theorem rd_of_regs {s t : State} (h : t.regs = s.regs) (b : Blk) (f : Fld) : t.rd b f = s.rd b f := by
  unfold State.rd State.word
  rw [h]

/-- The flash as an interrupted firmware update leaves it (log 6). -/
def flashed (s : State) : State :=
  match s.sec.op with
  | some o => if o.executing ∧ o.op = 5 then storeImage [] s else s
  | none => s

theorem flashed_lc (s : State) : (flashed s).sec.lc = s.sec.lc := by
  unfold flashed storeImage
  split
  · split
    · split <;> rfl
    · rfl
  · rfl

/-- `t` is `s` after a full device reset with that cause, that count of boots and those straps. -/
structure ResetOf (cause boots straps : Nat) (s t : State) : Prop where
  dev : t.dev = .boot
  cause : t.rd .clocks R.CLK_RESET_CAUSE.cause = cause % 8
  boots : t.rd .clocks R.CLK_RESET_CAUSE.boots = boots % 65536
  straps : t.rd .global R.STRAPS.straps = straps % 16
  depot : t.mem.depot = []
  queue : t.queue = QueueSt.zero
  cores : t.cores = Vector.replicate 17 CoreSt.zero
  lc : t.sec.lc = s.sec.lc
  region : t.sec.region = Region.empty

/-- What a reset writes last: its cause, the count of boots and the straps, into a device at its reset values. -/
theorem resetTo_shape (cause boots straps : Nat) (s : State) : ∃ n : State,
    n.dev = .boot ∧ n.mem.depot = [] ∧ n.queue = QueueSt.zero ∧ n.cores = Vector.replicate 17 CoreSt.zero ∧ n.sec.lc = s.sec.lc ∧
    n.sec.region = Region.empty ∧
    noDram (resetTo cause boots straps s) = noDram (((n.wr .clocks R.CLK_RESET_CAUSE.cause cause).wr .clocks
      R.CLK_RESET_CAUSE.boots boots).wr .global R.STRAPS.straps straps) := by
  have hlc : (flashed s).sec.lc = s.sec.lc := flashed_lc s
  unfold resetTo
  refine ⟨_, ?_, ?_, ?_, ?_, ?_, ?_, noDram_dramUndefined _⟩
  · rfl
  · rfl
  · rfl
  · rfl
  · exact hlc
  · rfl

theorem resetTo_resets (cause boots straps : Nat) (s : State) : ResetOf cause boots straps s (resetTo cause boots straps s) := by
  obtain ⟨n, hdev, hdepot, hqueue, hcores, hlc, hregion, h⟩ := resetTo_shape cause boots straps s
  obtain ⟨hregs, hdev', hdepot', hqueue', hcores', hsec⟩ := noDram_frame h
  have hrd := rd_of_regs hregs
  refine ⟨hdev'.trans hdev, ?_, ?_, ?_, hdepot'.trans hdepot, hqueue'.trans hqueue, hcores'.trans hcores, hsec ▸ hlc, hsec ▸ hregion⟩
  · rw [hrd, rd_wr_slot _ _ (by decide) (by decide) (by decide), rd_wr_keep _ _ _ _ _ (by decide)]
    exact rd_wr_val _ _ _ _ (by decide)
  · rw [hrd, rd_wr_slot _ _ (by decide) (by decide) (by decide)]
    exact rd_wr_val _ _ _ _ (by decide)
  · rw [hrd]
    exact rd_wr_val _ _ _ _ (by decide)

/-! ### Power and RESET_N (R15, R385, R386) -/

theorem exec_powerOn (k : BitVec 4) (s : State) : exec (.powerOn k) s = .next (opPowerOn k s) := rfl
theorem exec_resetN (s : State) : exec .resetN s = .next (opResetN s) := rfl
theorem exec_resetRelease (k : BitVec 4) (test : Bool) (s : State) : exec (.resetRelease k test) s = .next (opResetRelease k test s) := rfl
theorem exec_fullReset (key : BitVec 8) (s : State) : exec (.fullReset key) s = .next (opFullReset key s) := rfl

/-- Straps fit their field. -/
theorem straps_mod (k : BitVec 4) : k.toNat % 16 = k.toNat := Nat.mod_eq_of_lt k.isLt

theorem powerOn_boots (s : State) (k : BitVec 4) (h : s.dev = .off) : Completes (.powerOn k) s (fun t =>
    t.dev = .boot ∧ t.rd .global R.STRAPS.straps = k.toNat ∧ t.pins.supplies = true ∧ t.pins.resetN = true
      ∧ t.mem.depot = [] ∧ t.queue = QueueSt.zero ∧ t.sec.lc = s.sec.lc) := by
  have hr := resetTo_resets 0 0 k.toNat s
  refine ⟨_, (exec_powerOn k s).trans (congrArg _ (if_neg (not_not.2 h))), hr.dev, ?_, rfl, rfl, hr.depot, hr.queue, hr.lc⟩
  exact hr.straps.trans (straps_mod k)

theorem supplyLoss_off (s : State) : Completes .supplyLoss s (fun t => t.dev = .off ∧ t.pins.supplies = false ∧ t.sec.lc = s.sec.lc) :=
  ⟨_, rfl, rfl, rfl, (resetTo_resets 0 0 0 s).lc⟩

theorem resetN_boots (s : State) (h : s.dev ≠ .off) : Completes .resetN s (fun t =>
    t.dev = .boot ∧ t.pins.resetN = false ∧ t.pins.thermtrip = false ∧ t.rd .clocks R.CLK_RESET_CAUSE.cause = 1
      ∧ t.rd .clocks R.CLK_RESET_CAUSE.boots = min 65535 (s.rd .clocks R.CLK_RESET_CAUSE.boots + 1) ∧ t.queue = QueueSt.zero) := by
  have hr := resetTo_resets 1 (min 65535 (s.rd .clocks R.CLK_RESET_CAUSE.boots + 1)) (s.rd .global R.STRAPS.straps) s
  have hop : opResetN s =
      (let u := fullReset 1 s; ({ u with pins := { u.pins with resetN := false, thermtrip := false } } : State)) := by
    unfold opResetN
    rw [if_neg h]
  refine ⟨_, (exec_resetN s).trans (congrArg _ hop), hr.dev, rfl, rfl, hr.cause, ?_, hr.queue⟩
  exact hr.boots.trans (Nat.mod_eq_of_lt (by omega))

/-- The straps and pins as the rise of RESET_N leaves them (R385). -/
def released (k : BitVec 4) (test : Bool) (s : State) : State :=
  let u := s.wr .global R.STRAPS.straps k.toNat
  ({ u with pins := { u.pins with supplies := true, resetN := true, testMode := test } } : State).when test outputsUndefined

theorem released_keeps (k : BitVec 4) (test : Bool) (s : State) : (released k test s).dev = s.dev ∧
    (released k test s).pins.resetN = true ∧ (released k test s).pins.testMode = test ∧
    (released k test s).rd .global R.STRAPS.straps = k.toNat := by
  have hk : (s.wr .global R.STRAPS.straps k.toNat).rd .global R.STRAPS.straps = k.toNat :=
    (rd_wr_val _ _ _ _ (by decide)).trans (straps_mod k)
  cases test with
  | false => exact ⟨rfl, rfl, rfl, hk⟩
  | true => exact ⟨rfl, rfl, rfl, hk⟩

theorem resetRelease_fromReset (s : State) (k : BitVec 4) (test : Bool) (hn : s.pins.resetN = false) (hb : s.dev = .boot) :
    Completes (.resetRelease k test) s (fun t =>
      t.dev = .boot ∧ t.pins.resetN = true ∧ t.pins.testMode = test ∧ t.rd .global R.STRAPS.straps = k.toNat) := by
  have hop : opResetRelease k test s = released k test s := by simp [opResetRelease, hn, hb, released]
  obtain ⟨hdev, hkept⟩ := released_keeps k test s
  exact ⟨_, (exec_resetRelease k test s).trans (congrArg _ hop), hdev.trans hb, hkept⟩

theorem resetRelease_fromOff (s : State) (k : BitVec 4) (test : Bool) (ho : s.dev = .off) : Completes (.resetRelease k test) s (fun t =>
    t.dev = .boot ∧ t.pins.resetN = true ∧ t.rd .global R.STRAPS.straps = k.toNat) := by
  have hop : opResetRelease k test s = released k test (resetTo 0 0 0 s) := by simp [opResetRelease, ho, released]
  obtain ⟨hdev, hn, -, hk⟩ := released_keeps k test (resetTo 0 0 0 s)
  exact ⟨_, (exec_resetRelease k test s).trans (congrArg _ hop), hdev.trans (resetTo_resets 0 0 0 s).dev, hn, hk⟩

/-- Writes to GLOBAL take effect from READY on (R16). -/
theorem globalOpen_of {s : State} (ho : s.dev ≠ .off) (hb : s.dev ≠ .boot) : s.globalOpen = true := by
  have hreal : Blk.global.real = true := by decide
  unfold State.globalOpen State.reaches
  rw [hreal]
  split
  · contradiction
  · contradiction
  · rfl

theorem fullReset_keyed (s : State) (ho : s.dev ≠ .off) (hb : s.dev ≠ .boot) : Completes (.fullReset 0xA5) s (fun t =>
    t.dev = .boot ∧ t.rd .clocks R.CLK_RESET_CAUSE.cause = 2 ∧ t.rd .global R.STRAPS.straps = s.rd .global R.STRAPS.straps
      ∧ t.cores = Vector.replicate 17 CoreSt.zero ∧ t.queue = QueueSt.zero ∧ t.sec.region = Region.empty) := by
  have hop : opFullReset 0xA5 s = fullReset 2 (s.wr .global R.DEVICE_CTRL.key 0xA5) := by
    unfold opFullReset devReset
    rw [if_neg (by simp [globalOpen_of ho hb])]
    rfl
  have hr := resetTo_resets 2 (min 65535 ((s.wr .global R.DEVICE_CTRL.key 0xA5).rd .clocks R.CLK_RESET_CAUSE.boots + 1))
    ((s.wr .global R.DEVICE_CTRL.key 0xA5).rd .global R.STRAPS.straps) (s.wr .global R.DEVICE_CTRL.key 0xA5)
  refine ⟨_, (exec_fullReset _ s).trans (congrArg _ hop), hr.dev, hr.cause, ?_, hr.cores, hr.queue, hr.region⟩
  rw [fullReset, hr.straps, rd_wr_keep _ _ _ _ _ (by decide)]
  exact Nat.mod_eq_of_lt (get_lt _ _)

/-! ### Boot (R388 to R391) -/

/-- How far the device is in its life: its state and BOOT's progress. -/
def phase (s : State) : DevState × BootSt := (s.dev, s.boot)

theorem onlyRegs_phase {s t : State} (h : OnlyRegs s t) : phase t = phase s := by
  unfold OnlyRegs at h
  rw [h]
  rfl

@[simp] theorem phase_wr (s : State) (b : Blk) (f : Fld) (v : Nat) : phase (s.wr b f v) = phase s := onlyRegs_phase (onlyRegs_wr s b f v)
@[simp] theorem phase_wrw (s : State) (b : Blk) (o v : Nat) : phase (s.wrw b o v) = phase s := onlyRegs_phase (onlyRegs_wrw s b o v)
@[simp] theorem phase_fault (s : State) (b : Blk) (f : Fld) : phase (s.fault b f) = phase s := onlyRegs_phase (onlyRegs_fault s b f)
@[simp] theorem phase_cnt (s : State) (b : Blk) (f : Fld) (n : Nat) : phase (s.cnt b f n) = phase s := onlyRegs_phase (onlyRegs_cnt s b f n)
@[simp] theorem phase_checkFail (u : Nat) (s : State) : phase (checkFail u s) = phase s := by simp [checkFail]

@[simp] theorem phase_syncGeom (c : Nat) (s : State) : phase (syncGeom c s) = phase s := by
  unfold syncGeom
  split <;> simp

@[simp] theorem phase_enterHoldover (cause : Nat) (s : State) : phase (enterHoldover cause s) = phase s :=
  phase_cnt (((s.wr _ _ _).wr _ _ _).wr _ _ _ |>.wr _ _ _) _ _ _

@[simp] theorem phase_dropQuality (cause : Nat) (low : Bool) (s : State) : phase (dropQuality cause low s) = phase s := by
  unfold dropQuality
  split
  · exact phase_enterHoldover cause s
  · split <;> rfl

@[simp] theorem phase_syncRegion (s : State) : phase (syncRegion s) = phase s := by
  unfold syncRegion
  simp only [phase_wr]
  refine each_keeps phase ?_ s
  exact fun _ _ => rfl

@[simp] theorem phase_setRegion (r : Region) (s : State) : phase (setRegion r s) = phase s := by
  unfold setRegion
  dsimp only
  split
  · exact (phase_dropQuality _ _ _).trans (phase_syncRegion _)
  · exact phase_syncRegion _

/-- The region is taken from copy `c`, or left empty when no copy verifies (R327). -/
def restoreFrom (c : Option SealedCopy) (s : State) : State :=
  match c with
  | some c => ((setRegion c.region s).wr .auth R.AUTH_REGION.sealed_valid 1).wr .auth R.AUTH_REGION.restore_failed 0
  | none =>
    let s := (setRegion .empty s).wr .auth R.AUTH_REGION.sealed_valid 0
    if s.sec.copy0.isNone && s.sec.copy1.isNone then s
    else ((checkFail 63 s).fault .depot R.DEPOT_FAULT.restore_failed).wr .auth R.AUTH_REGION.restore_failed 1

@[simp] theorem phase_restoreFrom (c : Option SealedCopy) (s : State) : phase (restoreFrom c s) = phase s := by
  cases c with
  | some c => simp [restoreFrom]
  | none =>
    have hempty : phase ((setRegion .empty s).wr .auth R.AUTH_REGION.sealed_valid 0) = phase s :=
      (phase_wr _ _ _ _).trans (phase_setRegion _ _)
    unfold restoreFrom
    dsimp only
    generalize (setRegion .empty s).wr .auth R.AUTH_REGION.sealed_valid 0 = u at *
    split
    · exact hempty
    · simp only [phase_wr, phase_fault, phase_checkFail, hempty]

/-- Unit 63 reads the sealed copies there are. -/
def copiesRead (s : State) : State :=
  if s.sec.copy0.isSome || s.sec.copy1.isSome then
    let (x, s) := s.free 63
    (s.wr .check (R.CHK_LAST.crc 63) x).cnt .check (R.CHK_COUNTS.done 63) 1
  else s

@[simp] theorem phase_copiesRead (s : State) : phase (copiesRead s) = phase s := by
  unfold copiesRead
  split
  · exact phase_cnt _ _ _ _
  · rfl

theorem restoreRegion_eq (s : State) : restoreRegion s =
    if (decide (2 ≤ s.sec.lc.toNat) || s.flag .auth R.AUTH_TAMPER.arm) && s.flag .auth R.AUTH_TAMPER.open_ then setRegion .empty s
    else restoreFrom (copiesRead s).sec.bestCopy (copiesRead s) := rfl

@[simp] theorem phase_restoreRegion (s : State) : phase (restoreRegion s) = phase s := by
  rw [restoreRegion_eq]
  split <;> simp

/-- The header of a valid image passes the IDs (R388, R389). -/
theorem phase_applyHeader (img : List Byte) (s : State) : (applyHeader img s).dev = s.dev ∧
    (applyHeader img s).boot.verified = s.boot.verified ∧ (applyHeader img s).boot.idsPassed = true := by
  have hkeep : ∀ (l : List Nat) (v : Nat) (s : State), phase (s.each l (fun c st =>
      syncGeom c ((st.wrw (.dram c) R.DRAM_CFG.speed.off v).wr (.dram c) R.DRAM_STATUS.state 1))) = phase s := fun l v =>
    each_keeps phase (by simp)
  unfold applyHeader
  dsimp only
  generalize hu : State.each _ _ _ = u
  have hp : phase u = _ := hu ▸ hkeep _ _ _
  exact ⟨congrArg Prod.fst hp, congrArg (fun p => p.2.verified) hp, congrArg (fun p => p.2.idsPassed) hp⟩

/-- A valid image becomes the verified one, and its header takes effect. -/
def imageBooted (k : Fin 2) (img : List Byte) (s : State) : State :=
  let u := { s with boot := { s.boot with verified := some k } }
  restoreRegion (applyHeader img (u.wr .clocks R.BOOT_STATUS.booted k.val))

theorem imageBooted_phase (k : Fin 2) (img : List Byte) (s : State) : (imageBooted k img s).dev = s.dev ∧
    (imageBooted k img s).boot.verified = some k ∧ (imageBooted k img s).boot.idsPassed = true := by
  unfold imageBooted
  dsimp only
  generalize hu : State.wr _ _ _ _ = u
  obtain ⟨hdev, hver, hids⟩ := phase_applyHeader img u
  have hp := phase_restoreRegion (applyHeader img u)
  have hboot := congrArg Prod.snd hp
  refine ⟨(congrArg Prod.fst hp).trans (hdev.trans (hu ▸ rfl)), ?_, ?_⟩
  · exact (congrArg BootSt.verified hboot).trans (hver.trans (hu ▸ rfl))
  · exact (congrArg BootSt.idsPassed hboot).trans hids

theorem opBootImageVerified_valid {s : State} {a b : List Byte} {ok : Bool} {k : Fin 2} (hb : s.dev = .boot) (hn : s.pins.resetN = true)
    (hv : s.boot.verified = none) (hnext : s.nextImage (s.images a b).1 (s.images a b).2 = some k)
    (hok : imageCheck (if k = 0 then (s.images a b).1 else (s.images a b).2) ok = 0) :
    ∃ u, u.dev = .boot ∧ opBootImageVerified a b ok s = imageBooted k (if k = 0 then (s.images a b).1 else (s.images a b).2) u := by
  unfold opBootImageVerified
  rw [if_neg (by simp [hb, hn, hv])]
  dsimp only
  rw [hnext]
  dsimp only
  rw [hok]
  rw [if_neg (show ¬ (0 : Nat) = 1 by decide), if_neg (show ¬ (0 : Nat) = 2 by decide)]
  refine ⟨_, ?_, rfl⟩
  have hcheck : ∀ (img : List Byte) (u : State), (checkUnit 62 0 img u).1.dev = u.dev := fun img u => by
    have h := onlyRegs_checkUnit 62 0 img u
    unfold OnlyRegs at h
    rw [h]
  rw [wr_dev, hcheck]
  split
  · exact hb
  · exact hb

theorem bootImageVerified_valid (s : State) (a b : List Byte) (ok : Bool) (k : Fin 2) (hb : s.dev = .boot) (hn : s.pins.resetN = true)
    (hv : s.boot.verified = none) (hnext : s.nextImage (s.images a b).1 (s.images a b).2 = some k)
    (hok : imageCheck (if k = 0 then (s.images a b).1 else (s.images a b).2) ok = 0) :
    Completes (.bootImageVerified a b ok) s (fun t => t.boot.verified = some k ∧ t.boot.idsPassed = true ∧ t.dev = .boot) := by
  obtain ⟨u, hu, hop⟩ := opBootImageVerified_valid hb hn hv hnext hok
  obtain ⟨hdev, hver, hids⟩ := imageBooted_phase k (if k = 0 then (s.images a b).1 else (s.images a b).2) u
  have hexec : exec (.bootImageVerified a b ok) s = .next (opBootImageVerified a b ok s) := rfl
  exact ⟨_, hexec.trans (congrArg _ hop), hver, hids, hdev.trans hu⟩

theorem exec_bootTimeout (pll : Bool) (s : State) : exec (.bootTimeout pll) s = .next (opBootTimeout pll s) := rfl

theorem bootTimeout_fails (s : State) (pll : Bool) (n : Nat) (hb : s.dev = .boot) (hn : n < 2 ^ R.BOOT_STATUS.fail.width)
    (hop : opBootTimeout pll s = s.wr .clocks R.BOOT_STATUS.fail n) :
    Completes (.bootTimeout pll) s (fun t => t.rd .clocks R.BOOT_STATUS.fail = n ∧ t.dev = .boot) :=
  ⟨_, (exec_bootTimeout pll s).trans (congrArg _ hop), (rd_wr_val _ _ _ _ (by decide)).trans (Nat.mod_eq_of_lt hn), hb⟩

theorem bootTimeout_pll (s : State) (hb : s.dev = .boot) (hp : (s.pllRuns 0 && s.pllRuns 1 && s.pllRuns 3) = false) :
    Completes (.bootTimeout true) s (fun t => t.rd .clocks R.BOOT_STATUS.fail = 2 ∧ t.dev = .boot) := by
  refine bootTimeout_fails s true 2 hb (by decide) ?_
  unfold opBootTimeout
  rw [if_neg (not_not.2 hb), if_pos rfl, hp]
  rfl

theorem bootTimeout_images (s : State) (hb : s.dev = .boot) (hv : s.boot.verified = none) (ha : s.boot.triedA = true)
    (hbt : s.boot.triedB = true) :
    Completes (.bootTimeout false) s (fun t => t.rd .clocks R.BOOT_STATUS.fail = 1 ∧ t.dev = .boot) := by
  refine bootTimeout_fails s false 1 hb (by decide) ?_
  unfold opBootTimeout
  rw [if_neg (not_not.2 hb), if_neg (by decide), if_pos (by simp [hv, ha, hbt])]

/-! ### The end of BOOT (R389) -/

theorem onlyRegs_setDramStale (c : Nat) (v : Bool) (s : State) : OnlyRegs s (setDramStale c v s) :=
  (onlyRegs_wr s _ _ _).wr _ _ _

/-- The trained set of a channel stands in registers, its tracking starts anew (R339). -/
theorem mem_storeTraining (c : Fin 8) (r : TrainResult) (s : State) : (storeTraining c r s).mem = s.mem := by
  unfold storeTraining
  dsimp only
  rw [onlyRegs_mem (onlyRegs_setDramStale _ _ _), wr_mem, wr_mem, wr_mem]
  refine (each_keeps State.mem ?_ _).trans (setDram_mem _ _ _)
  intro l u
  split
  · exact wrw_mem _ _ _ _
  · rfl

theorem mem_bootTrain (tr : List TrainResult) (c : Fin 8) (s : State) : (bootTrain tr c s).mem = s.mem := by
  unfold bootTrain
  dsimp only
  split
  · rw [wr_mem, mem_storeTraining]
  · rfl

theorem onlyRegs_showSlices (s : State) : OnlyRegs s (showSlices s) := by
  unfold showSlices
  dsimp only
  iterate 6 refine OnlyRegs.wr ?_ _ _ _
  exact onlyRegs_each _ _ (fun _ st => (onlyRegs_wr st _ _ _).wr _ _ _) s

theorem onlyRegs_showPlacement (s : State) : OnlyRegs s (showPlacement s) := by
  unfold showPlacement
  dsimp only
  refine OnlyRegs.trans ?_ (onlyRegs_showSlices _)
  iterate 8 refine OnlyRegs.wr ?_ _ _ _
  exact .refl s

theorem mem_storeSet (i : Nat) (r : GatherResult) (s : State) : (storeSet i r s).mem = s.mem := by
  unfold storeSet
  simp only [cnt_mem, wr_mem, wrw_mem]

theorem mem_gatherAll (sets : List GatherResult) (s : State) : (gatherAll sets s).mem = s.mem := by
  have hset : ∀ i s, (if s.role i = 2 then s else storeSet i (sets.getD i ⟨[], 0, 0⟩) s).mem = s.mem := fun i s => by
    split
    · rfl
    · exact mem_storeSet i _ s
  unfold gatherAll
  dsimp only
  rw [onlyRegs_mem (onlyRegs_showPlacement _), onlyRegs_mem (onlyRegs_showSlices _)]
  split
  · rw [wr_mem]
    exact each_keeps State.mem hset s
  · exact each_keeps State.mem hset s

theorem bootComplete_ready (s : State) (f : List (SramId × Nat)) (tr : List TrainResult) (gs : List GatherResult) (hb : s.dev = .boot)
    (hn : s.pins.resetN = true) (ht : s.pins.testMode = false) (hv : s.boot.verified.isSome = true)
    (hp : (s.pllRuns 0 && s.pllRuns 1 && s.pllRuns 3) = true) (hf : s.rd .clocks R.BOOT_STATUS.fail = 0) :
    Completes (.bootComplete f tr gs) s (fun t =>
      t.dev = .ready ∧ t.mem.depot = [] ∧ (∀ i : Fin 17, t.mem.lmem[i] = [] ∧ t.mem.imem[i] = [])) := by
  have hop : ∃ u : State, u.mem = (clearSram (s.each f bootRepair)).mem ∧
      opBootComplete f tr gs s = { gatherAll gs u with dev := .ready } := by
    have hnone : s.boot.verified.isNone = false := by cases h : s.boot.verified <;> simp_all
    unfold opBootComplete
    rw [if_neg (by simp only [hb, hn, ht, hnone, hp, hf]; decide)]
    dsimp only
    refine ⟨_, ?_, rfl⟩
    rw [wr_mem]
    exact each_keeps State.mem (mem_bootTrain tr) _
  obtain ⟨u, hu, hop⟩ := hop
  have hmem : (gatherAll gs u).mem = (clearSram (s.each f bootRepair)).mem := (mem_gatherAll gs u).trans hu
  have hexec : exec (.bootComplete f tr gs) s = .next (opBootComplete f tr gs s) := rfl
  generalize s.each f bootRepair = v at *
  have hclear : (clearSram v).mem.depot = [] ∧ (∀ i : Fin 17, (clearSram v).mem.lmem[i] = [] ∧ (clearSram v).mem.imem[i] = []) := by
    simp [clearSram]
  refine ⟨_, hexec.trans (congrArg _ hop), rfl, ?_⟩
  change (gatherAll gs u).mem.depot = [] ∧ ∀ i : Fin 17, (gatherAll gs u).mem.lmem[i] = [] ∧ (gatherAll gs u).mem.imem[i] = []
  rw [hmem]
  exact hclear

/-- Settles O8: power, RESET_N and full_reset through what every full reset determines (`ResetOf`), BOOT through what its steps keep of
the device's phase and of its memories. -/
theorem powerResetsAndBoot : Obligations.PowerResetsAndBoot := by
  unfold Obligations.PowerResetsAndBoot
  exact ⟨powerOn_boots, supplyLoss_off, resetN_boots, resetRelease_fromReset, resetRelease_fromOff, fullReset_keyed, fun s => ⟨_, rfl, rfl⟩,
    bootImageVerified_valid, bootTimeout_pll, bootTimeout_images, bootComplete_ready⟩

end Sys2Proof.Proofs
namespace Sys2Proof.Proofs
open Sys2Proof Sys2Proof.Machine Sys2Proof.Laws

/-! ### DEVICE_CTRL (R15, R45) -/

theorem exec_run (s : State) : exec .run s = .next (devRun s) := rfl
theorem exec_stop (s : State) : exec .stop s = .next (devStop s) := rfl
theorem exec_deviceStopped (s : State) : exec .deviceStopped s = .next (opDeviceStopped s) := rfl
theorem exec_standby (s : State) : exec .standby s = .next (devStandby s) := rfl
theorem exec_wake (e : Option GpioEdge) (s : State) : exec (.wake e) s = .next (opWake e s) := rfl

/-- DEVICE_CTRL shows the command and its status. -/
theorem devStatus_shown (c n : Nat) (hc : c < 8) (hn : n < 4) (s : State) :
    (devStatus c n s).rd .global R.DEVICE_CTRL.last_cmd = c ∧ (devStatus c n s).rd .global R.DEVICE_CTRL.last_status = n := by
  unfold devStatus
  refine ⟨?_, (rd_wr_val _ _ _ _ (by decide)).trans (Nat.mod_eq_of_lt hn)⟩
  rw [rd_wr_keep _ _ _ _ _ (by decide), rd_wr_val _ _ _ _ (by decide)]
  exact Nat.mod_eq_of_lt hc

theorem onlyRegs_devStatus (c n : Nat) (s : State) : OnlyRegs s (devStatus c n s) := (onlyRegs_wr s _ _ _).wr _ _ _

theorem globalOpen_dev {s : State} {d : DevState} (h : s.dev = d) (ho : d ≠ .off) (hb : d ≠ .boot) : s.globalOpen = true :=
  globalOpen_of (h ▸ ho) (h ▸ hb)

theorem run_fromReady (s : State) (h : s.dev = .ready) : Completes .run s (fun t =>
    t.dev = .run ∧ t.stopped = [] ∧ t.rd .global R.DEVICE_CTRL.last_cmd = 1 ∧ t.rd .global R.DEVICE_CTRL.last_status = 0) := by
  have hop : devRun s = devStatus 1 0 { s.each s.stopped enableBlk with dev := .run, stopped := [] } := by
    unfold devRun
    rw [if_neg (by simp [globalOpen_dev h]), if_neg (not_not.2 h)]
  exact ⟨_, (exec_run s).trans (congrArg _ hop), rfl, rfl, devStatus_shown 1 0 (by decide) (by decide) _⟩

theorem stop_fromRun (s : State) (h : s.dev = .run) (hstop : s.flag .global R.DEVICE_CTRL.stop = false) : Completes .stop s (fun t =>
    t.rd .global R.DEVICE_CTRL.stop = 1 ∧ t.rd .global R.DEVICE_CTRL.last_cmd = 2 ∧ t.rd .global R.DEVICE_CTRL.last_status = 1
      ∧ t.stopped = ((List.range 17).flatMap sliceSlots).filter s.enabled) := by
  have hop : devStop s = (let bs := ((List.range 17).flatMap sliceSlots).filter s.enabled
      { devStatus 2 1 ((s.each bs requestQuiesce).wr .global R.DEVICE_CTRL.stop 1) with stopped := bs }) := by
    unfold devStop
    rw [if_neg (by simp [globalOpen_dev h]), if_neg (not_not.2 h), if_neg (by simp [hstop])]
  refine ⟨_, (exec_stop s).trans (congrArg _ hop), ?_⟩
  dsimp only
  generalize State.each _ _ _ = u
  obtain ⟨hcmd, hstatus⟩ := devStatus_shown 2 1 (by decide) (by decide) (u.wr .global R.DEVICE_CTRL.stop 1)
  have hset : (devStatus 2 1 (u.wr .global R.DEVICE_CTRL.stop 1)).rd .global R.DEVICE_CTRL.stop = 1 := by
    unfold devStatus
    simp (disch := decide) only [rd_wr_keep, rd_wr_val]
    rfl
  exact ⟨hset, hcmd, hstatus, rfl⟩

theorem deviceStopped_ready (s : State) (h : s.dev = .run) (hstop : s.flag .global R.DEVICE_CTRL.stop = true)
    (hq : s.stopped.any s.enabled = false) :
    Completes .deviceStopped s (fun t => t.dev = .ready ∧ t.rd .global R.DEVICE_CTRL.stop = 0 ∧ t.mem = s.mem ∧ t.stopped = s.stopped) := by
  have hclear : (s.wr .global R.DEVICE_CTRL.stop 0).rd .global R.DEVICE_CTRL.stop = 0 := rd_wr_val _ _ _ _ (by decide)
  have hop : ∃ u, (u = s.wr .global R.DEVICE_CTRL.stop 0 ∨ u = (s.wr .global R.DEVICE_CTRL.stop 0).wr .global R.DEVICE_CTRL.last_status 0) ∧
      opDeviceStopped s = { u with dev := .ready } := by
    unfold opDeviceStopped
    rw [if_neg (by simp [h, hstop, hq])]
    refine ⟨if (s.wr .global R.DEVICE_CTRL.stop 0).rd .global R.DEVICE_CTRL.last_cmd = 2 then
      (s.wr .global R.DEVICE_CTRL.stop 0).wr .global R.DEVICE_CTRL.last_status 0 else s.wr .global R.DEVICE_CTRL.stop 0, ?_, rfl⟩
    split
    · exact .inr rfl
    · exact .inl rfl
  obtain ⟨u, hu, hop⟩ := hop
  have hu' : u.rd .global R.DEVICE_CTRL.stop = 0 ∧ u.mem = s.mem ∧ u.stopped = s.stopped := by
    obtain rfl | rfl := hu
    · exact ⟨hclear, rfl, rfl⟩
    · exact ⟨(rd_wr_keep _ _ _ _ _ (by decide)).trans hclear, rfl, rfl⟩
  exact ⟨_, (exec_deviceStopped s).trans (congrArg _ hop), rfl, hu'⟩

/-! ### STANDBY (R392) -/

theorem noDram_pasrLose (s : State) : noDram (pasrLose s) = noDram s := by
  unfold pasrLose
  refine each_keeps noDram ?_ s
  intro p u
  split <;> rfl

theorem onlyRegs_syncTdcRead (s : State) : OnlyRegs s (syncTdcRead s) := by
  unfold syncTdcRead
  dsimp only
  split
  · exact ((onlyRegs_wr s _ _ _).wr _ _ _).wr _ _ _
  · exact ((onlyRegs_wr s _ _ _).wr _ _ _).wr _ _ _

/-- The blocks that are not kept stand at their reset values; the secure part is kept. -/
theorem powerGate_parts (s : State) : ∃ u, u.queue = QueueSt.zero ∧ u.cores = Vector.replicate 17 CoreSt.zero ∧ u.sec = s.sec ∧
    OnlyRegs u (powerGate s) := by
  unfold powerGate
  dsimp only
  refine ⟨_, ?_, ?_, ?_, OnlyRegs.trans (OnlyRegs.trans (onlyRegs_each _ _ ?_ _) ((onlyRegs_wr _ _ _ _).trans (onlyRegs_syncTdcRead _)))
    (onlyRegs_each _ _ ?_ _)⟩
  · rfl
  · rfl
  · rfl
  · exact fun b st => onlyRegs_wrw st _ _ _
  · intro i st
    split
    · exact onlyRegs_wr st _ _ _
    · exact .refl st

theorem standby_fromReady (s : State) (h : s.dev = .ready) (hr : s.standbyRefused = false) : Completes .standby s (fun t =>
    t.dev = .standby ∧ t.rd .global R.DEVICE_CTRL.last_cmd = 3 ∧ t.rd .global R.DEVICE_CTRL.last_status = 0
      ∧ t.queue = QueueSt.zero ∧ t.cores = Vector.replicate 17 CoreSt.zero ∧ t.sec = s.sec) := by
  have hop : ∃ u, OnlyRegs (powerGate (pasrLose s)) u ∧ devStandby s = { devStatus 3 0 u with dev := .standby } := by
    unfold devStandby
    rw [if_neg (by simp [globalOpen_dev h]), if_neg (by simp [h, hr])]
    refine ⟨_, ?_, rfl⟩
    refine OnlyRegs.wr (OnlyRegs.wr (onlyRegs_each _ _ ?_ _) _ _ _) _ _ _
    intro c st
    split
    · exact onlyRegs_wr st _ _ _
    · exact .refl st
  obtain ⟨u, hu, hop⟩ := hop
  obtain ⟨v, hqueue, hcores, hsec, hv⟩ := powerGate_parts (pasrLose s)
  obtain ⟨-, -, -, -, -, hlose⟩ := noDram_frame (noDram_pasrLose s)
  obtain ⟨hcmd, hstatus⟩ := devStatus_shown 3 0 (by decide) (by decide) u
  have hall : OnlyRegs v (devStatus 3 0 u) := (hv.trans hu).trans (onlyRegs_devStatus 3 0 u)
  exact ⟨_, (exec_standby s).trans (congrArg _ hop), rfl, hcmd, hstatus, (onlyRegs_queue hall).trans hqueue,
    (onlyRegs_cores hall).trans hcores, (onlyRegs_sec hall).trans (hsec.trans hlose)⟩

/-- A state without the clocks' own record. -/
def noClk (s : State) : State := { s with clk := State.reset.clk }

theorem noClk_seekLock (p : Nat) (s : State) : noClk (seekLock p s) = noClk s := by
  unfold seekLock
  split <;> rfl

theorem startWake_parts (s : State) : (startWake s).boot.waking = true ∧ (startWake s).dev = s.dev ∧ (startWake s).regs = s.regs ∧
    (startWake s).pins = s.pins := by
  unfold startWake
  split
  · next h => exact ⟨h, rfl, rfl, rfl⟩
  · have hk := each_keeps noClk noClk_seekLock (l := [0, 1, 4, 5, 6, 7, 8, 9]) { s with boot := { s.boot with waking := true } }
    generalize State.each _ _ seekLock = u at *
    have part : ∀ {γ : Type} (π : State → γ), π (noClk u) = π (noClk _) := fun π => congrArg π hk
    exact ⟨part (fun s => s.boot.waking), part State.dev, part State.regs, part State.pins⟩

theorem wake_commanded (s : State) (h : s.dev = .standby) : Completes (.wake none) s (fun t =>
    t.dev = .standby ∧ t.boot.waking = true ∧ t.rd .global R.DEVICE_CTRL.last_status = 1 ∧ t.rd .global R.DEVICE_CTRL.last_cmd = 4) := by
  have hop : opWake none s = startWake (devStatus 4 1 (s.wr .global R.DEVICE_CTRL.wake 1)) := by
    unfold opWake devWake
    dsimp only
    rw [if_neg (by simp [globalOpen_dev h]), if_neg (not_not.2 h)]
  have hdev : (devStatus 4 1 (s.wr .global R.DEVICE_CTRL.wake 1)).dev = .standby := h
  obtain ⟨hcmd, hstatus⟩ := devStatus_shown 4 1 (by decide) (by decide) (s.wr .global R.DEVICE_CTRL.wake 1)
  generalize devStatus 4 1 (s.wr .global R.DEVICE_CTRL.wake 1) = u at *
  obtain ⟨hwake, hdev', hregs, -⟩ := startWake_parts u
  exact ⟨_, (exec_wake none s).trans (congrArg _ hop), hdev'.trans hdev, hwake, (rd_of_regs hregs _ _).trans hstatus,
    (rd_of_regs hregs _ _).trans hcmd⟩

theorem nbit_lor_self (m k : Nat) : nbit (Nat.lor m (2 ^ k)) k = true := by
  change nbit (m ||| 2 ^ k) k = true
  rw [nbit_eq_testBit, Nat.testBit_or, Nat.testBit_two_pow_self, Bool.or_true]

/-- A bit taken out of a mask is clear. -/
theorem nbit_cleared (m k : Nat) : nbit (if nbit m k then m - 2 ^ k else m) k = false := by
  split
  · next h =>
    have hle : 2 ^ k * 1 ≤ m := by
      by_contra hlt
      have : m / 2 ^ k = 0 := Nat.div_eq_of_lt (by omega)
      simp [nbit, this] at h
    have hdiv : (m - 2 ^ k) / 2 ^ k = m / 2 ^ k - 1 := by
      rw [← Nat.sub_mul_div m (2 ^ k) 1 , mul_one]
    simp only [nbit, hdiv, decide_eq_true_eq, decide_eq_false_iff_not] at h ⊢
    omega
  · next h => simpa using h

/-- The level of a pin after an edge on it. -/
theorem nbit_edge (m k : Nat) (falling : Bool) (hm : m < 2 ^ 16) (hk : k < 16) :
    nbit (BitVec.ofNat 16 (if falling then (if nbit m k then m - 2 ^ k else m) else Nat.lor m (2 ^ k))).toNat k = !falling := by
  have hlt : (if falling then (if nbit m k then m - 2 ^ k else m) else Nat.lor m (2 ^ k)) < 2 ^ 16 := by
    split
    · split
      · exact (Nat.sub_le _ _).trans_lt hm
      · exact hm
    · exact Nat.or_lt_two_pow hm (Nat.pow_lt_pow_right (by decide) hk)
  rw [BitVec.toNat_ofNat, Nat.mod_eq_of_lt hlt]
  cases falling with
  | false => exact nbit_lor_self m k
  | true => exact nbit_cleared m k

theorem wake_byEdge (s : State) (e : GpioEdge) (h : s.dev = .standby) (hen : nbit (s.rd .clocks R.WAKE_CFG.enable) e.pin.val = true)
    (hedge : nbit (s.rd .clocks R.WAKE_CFG.edge) e.pin.val = e.falling) : Completes (.wake (some e)) s (fun t =>
      t.boot.waking = true ∧ nbit t.pins.gpio.toNat e.pin.val = !e.falling ∧ t.regs = s.regs) := by
  have hop : ∃ u : State, nbit u.pins.gpio.toNat e.pin.val = (!e.falling) ∧ u.regs = s.regs ∧ opWake (some e) s = startWake u := by
    unfold opWake gpioEdge
    dsimp only
    rw [if_pos ⟨h, hen, hedge⟩]
    refine ⟨_, nbit_edge _ _ _ s.pins.gpio.isLt e.pin.isLt, ?_, rfl⟩
    rfl
  obtain ⟨u, hpin, hregs, hop⟩ := hop
  obtain ⟨hwake, -, hregs', hpins⟩ := startWake_parts u
  exact ⟨_, (exec_wake _ s).trans (congrArg _ hop), hwake, by rw [hpins]; exact hpin, hregs'.trans hregs⟩

theorem wakeComplete_ready (s : State) (tr : List (List Int × List Int)) (gs : List GatherResult) (h : s.dev = .standby)
    (hw : s.boot.waking = true) (hp : (s.pllRuns 0 && s.pllRuns 1) = true) : Completes (.wakeComplete tr gs) s (fun t =>
      t.dev = .ready ∧ t.boot.waking = false ∧ t.rd .global R.DEVICE_CTRL.wake = 0) := by
  have hexec : exec (.wakeComplete tr gs) s = .next (opWakeComplete tr gs s) := rfl
  have hop : ∃ u v : State, v = u.wr .global R.DEVICE_CTRL.wake 0 ∧ opWakeComplete tr gs s =
      (let w := if v.rd .global R.DEVICE_CTRL.last_cmd = 4 then v.wr .global R.DEVICE_CTRL.last_status 0 else v
      { w with dev := .ready, boot := { w.boot with waking := false } }) := by
    unfold opWakeComplete
    rw [if_neg (by simp [h, hw, Bool.and_eq_true] at *; simp [hp])]
    exact ⟨_, _, rfl, rfl⟩
  obtain ⟨u, v, hv, hop⟩ := hop
  refine ⟨_, hexec.trans (congrArg _ hop), rfl, rfl, ?_⟩
  have hclear : v.rd .global R.DEVICE_CTRL.wake = 0 := by
    rw [hv]
    exact rd_wr_val _ _ _ _ (by decide)
  change (if v.rd .global R.DEVICE_CTRL.last_cmd = 4 then v.wr .global R.DEVICE_CTRL.last_status 0 else v).rd .global R.DEVICE_CTRL.wake = 0
  split
  · exact (rd_wr_keep _ _ _ _ _ (by decide)).trans hclear
  · exact hclear

/-- Settles O9: each command by its own branch of R15; a block that STANDBY does not keep is at its reset value (`powerGate_parts`), and a
wake leaves the registers alone. Which slots STOP stops and RUN enables again, and what STANDBY resets, is log 6's. -/
theorem deviceControl : Obligations.DeviceControl := by
  unfold Obligations.DeviceControl
  exact ⟨run_fromReady, stop_fromRun, deviceStopped_ready, standby_fromReady, wake_commanded, wake_byEdge, wakeComplete_ready⟩

end Sys2Proof.Proofs
namespace Sys2Proof.Proofs
open Sys2Proof Sys2Proof.Machine Sys2Proof.Laws

/-! ### Loss of lock and lock of a loop (R17, R379) -/

theorem exec_lossOfLock (p : Fin 10) (s : State) : exec (.lossOfLock p) s = .next (opLossOfLock p s) := rfl
theorem exec_lockDeclared (p : Fin 10) (s : State) : exec (.lockDeclared p) s = .next (opLockDeclared p s) := rfl

/-- The word at `a` lies in the slot of a transmit group. -/
def InTx (a : Nat) : Prop := ∃ g, g < 16 ∧ InSlot (.txg g) a

theorem not_inTx_clocks {o : Nat} (ho : o < 0x10000) : ¬ InTx (Blk.clocks.base + o) := by
  rintro ⟨g, hg, h⟩
  have hslot := (inSlot_base .clocks ho).symm.trans h
  simp only [Blk.slot] at hslot
  omega

theorem writesOnly_showTxLoop (p : Nat) (s : State) : WritesOnly InTx s (showTxLoop p s) := by
  unfold showTxLoop
  split
  · exact WritesOnly.each _ _ (fun j _ u => writesOnly_wr u _ ⟨_, (Fin.ofNat 16 (4 * (p - 4) + j)).isLt, inSlot_base _ (by decide)⟩) s
  · exact .refl _ s

/-- `t` differs from `s` in the loops' records and in register words of CLOCKS and of the transmit groups. -/
structure LoopStep (s t : State) : Prop where
  dev : t.dev = s.dev
  mem : t.mem = s.mem
  words : SameExcept (Blk.clocks :: (List.range 16).map Blk.txg) s t

section LoopStep
variable {s t u : State}

theorem LoopStep.trans (h : LoopStep s t) (g : LoopStep t u) : LoopStep s u :=
  ⟨g.dev.trans h.dev, g.mem.trans h.mem, fun a ha => (g.words a ha).trans (h.words a ha)⟩

/-- A step of the loops is one that writes no register word outside CLOCKS and the transmit groups. -/
theorem WritesOnly.loopStep (h : WritesOnly (fun a => InSlot .clocks a ∨ InTx a) s t) : LoopStep s t := by
  refine ⟨onlyRegs_dev h.only, onlyRegs_mem h.only, fun a ha => h.word a ?_⟩
  rintro (hc | ⟨g, hg, htx⟩)
  · exact ha _ (List.mem_cons_self ..) hc
  · exact ha _ (List.mem_cons_of_mem _ (List.mem_map_of_mem (List.mem_range.2 hg))) htx

theorem loopStep_wr (s : State) (f : Fld) (v : Nat) (hf : f.off < 0x10000) : LoopStep s (s.wr .clocks f v) :=
  (writesOnly_wr (W := fun a => InSlot .clocks a ∨ InTx a) s v (.inl (inSlot_base _ hf))).loopStep

theorem loopStep_cnt (s : State) (f : Fld) (n : Nat) (hf : f.off < 0x10000) : LoopStep s (s.cnt .clocks f n) :=
  ((WritesOnly.refl _ s).cnt (W := fun a => InSlot .clocks a ∨ InTx a) n (.inl (inSlot_base _ hf))).loopStep

theorem loopStep_showTxLoop (p : Nat) (s : State) : LoopStep s (showTxLoop p s) :=
  ((writesOnly_showTxLoop p s).mono (fun _ => .inr)).loopStep

theorem loopStep_seekLock (p : Nat) (s : State) : LoopStep s (seekLock p s) := by
  unfold seekLock
  split
  · exact ⟨rfl, rfl, fun _ _ => rfl⟩
  · exact ⟨rfl, rfl, fun _ _ => rfl⟩

theorem loopStep_noteClocks (s : State) : LoopStep s (noteClocks s) := ⟨rfl, rfl, fun _ _ => rfl⟩

end LoopStep

theorem regs_seekLock (p : Nat) (s : State) : (seekLock p s).regs = s.regs := by
  unfold seekLock
  split <;> rfl

theorem rd_showTxLoop (p : Nat) (s : State) (f : Fld) (hf : f.off < 0x10000) : (showTxLoop p s).rd .clocks f = s.rd .clocks f :=
  (writesOnly_showTxLoop p s).rd (not_inTx_clocks hf)

theorem rd_noteClocks (s : State) (b : Blk) (f : Fld) : (noteClocks s).rd b f = s.rd b f := rfl

/-- A bit of a mask register of ten bits. -/
theorem nbit_mod_ten (m : Nat) (p : Fin 10) : nbit (m % 2 ^ 10) p = nbit m p := by
  rw [nbit_eq_testBit, nbit_eq_testBit, Nat.testBit_mod_two_pow, decide_eq_true p.isLt, Bool.true_and]

/-- A gated loop is neither locked nor running, and its losses are not counted here. -/
theorem gatePll_shown (p : Fin 10) (s : State) :
    nbit ((gatePll p s).rd .clocks R.CLK_STATUS.locked) p = false ∧ nbit ((gatePll p s).rd .clocks R.CLK_STATUS.gated) p = true ∧
    (∀ k : Fin 10, (gatePll p s).rd .clocks (R.CLK_LOSSES.losses k) = s.rd .clocks (R.CLK_LOSSES.losses k)) ∧
    LoopStep s (gatePll p s) := by
  have hread : ∀ (u : State) (f : Fld), f.off < 0x10000 → (showTxLoop p (seekLock p u)).rd .clocks f = u.rd .clocks f :=
    fun u f hf => (rd_showTxLoop _ _ _ hf).trans (rd_of_regs (regs_seekLock _ _) _ _)
  unfold gatePll
  dsimp only
  refine ⟨?_, ?_, fun k => ?_, ((loopStep_wr _ _ _ (by decide)).trans (loopStep_wr _ _ _ (by decide))).trans
    ((loopStep_seekLock _ _).trans (loopStep_showTxLoop _ _))⟩
  · rw [hread _ _ (by decide), rd_wr_keep _ _ _ _ _ (by decide), rd_wr_val _ _ _ _ (by decide)]
    exact (nbit_mod_ten _ p).trans (nbit_cleared _ _)
  · rw [hread _ _ (by decide), rd_wr_val _ _ _ _ (by decide)]
    exact (nbit_mod_ten _ p).trans (nbit_lor_self _ _)
  · have hoff : (R.CLK_LOSSES.losses k).off ≠ 0x40 := by simp only [R.CLK_LOSSES.losses]; omega
    rw [hread _ _ (by simp only [R.CLK_LOSSES.losses]; omega), rd_wr_keep _ _ _ _ _ (.inl hoff), rd_wr_keep _ _ _ _ _ (.inl hoff)]

/-- Loss of lock of a transmit or DRAM loop gates it and counts. -/
theorem lossOfLock_gates (s : State) (p : Fin 10) (hp : 4 ≤ p.val) (hr : s.pllRuns p = true) : Completes (.lossOfLock p) s (fun t =>
    t.pllRuns p = false ∧ nbit (t.rd .clocks R.CLK_STATUS.gated) p = true ∧
    t.rd .clocks (R.CLK_LOSSES.losses p) = min (s.rd .clocks (R.CLK_LOSSES.losses p) + 1) 65535 ∧ t.dev = s.dev ∧ t.mem = s.mem
    ∧ SameExcept (Blk.clocks :: (List.range 16).map Blk.txg) s t) := by
  have hop : opLossOfLock p s = noteClocks ((gatePll p s).cnt .clocks (R.CLK_LOSSES.losses p) 1) := by
    unfold opLossOfLock
    rw [if_neg (by simp [hr])]
    obtain ⟨_ | _ | _ | _ | n, hn⟩ := p
    · simp at hp
    · simp at hp
    · simp at hp
    · simp at hp
    · rfl
  obtain ⟨hlock, hgate, hloss, hstep⟩ := gatePll_shown p s
  generalize gatePll p s = u at *
  have hoff : ∀ f : Fld, f.off = 0x40 → (u.cnt .clocks (R.CLK_LOSSES.losses p) 1).rd .clocks f = u.rd .clocks f :=
    fun f hf => rd_cnt_keep _ _ _ _ _ (.inl (by rw [hf]; simp only [R.CLK_LOSSES.losses]; omega))
  have hcount : (u.cnt .clocks (R.CLK_LOSSES.losses p) 1).rd .clocks (R.CLK_LOSSES.losses p)
      = min (s.rd .clocks (R.CLK_LOSSES.losses p) + 1) 65535 := by
    rw [rd_cnt_val _ _ _ _ (by decide : 0 + 16 ≤ 64), hloss]
    rfl
  have hall : LoopStep s (u.cnt .clocks (R.CLK_LOSSES.losses p) 1) :=
    hstep.trans (loopStep_cnt _ _ _ (by simp only [R.CLK_LOSSES.losses]; omega))
  have hrun : (noteClocks (u.cnt .clocks (R.CLK_LOSSES.losses p) 1)).pllRuns p = false := by
    unfold State.pllRuns
    rw [rd_noteClocks, hoff _ rfl, hlock, Bool.false_and]
  exact ⟨_, (exec_lossOfLock p s).trans (congrArg _ hop), hrun, (congrArg (nbit · p) (hoff _ rfl)).trans hgate, hcount, hall.dev,
    hall.mem, hall.words⟩

/-- Loss of lock of PLL_CORE in READY or RUN is entry into HOLD. -/
theorem lossOfLock_holds (s : State) (hr : s.pllRuns 0 = true) (hdev : s.dev = .ready ∨ s.dev = .run) :
    Completes (.lossOfLock 0) s (fun t => t.dev = .hold ∧ t.coreRuns = false) := by
  obtain ⟨-, -, -, hstep⟩ := gatePll_shown 0 s
  have hd : ((gatePll 0 s).cnt .clocks (R.CLK_LOSSES.losses 0) 1).dev = s.dev :=
    (loopStep_cnt _ _ _ (by decide)).dev.trans hstep.dev
  have hop : opLossOfLock 0 s
      = noteClocks (enterHold (abandonRamp ((gatePll 0 s).cnt .clocks (R.CLK_LOSSES.losses 0) 1))) := by
    unfold opLossOfLock
    rw [if_neg (by simp [hr])]
    exact congrArg noteClocks (if_pos (by rw [← hd] at hdev; exact hdev))
  have hhold : ∀ u : State, (noteClocks (enterHold u)).dev = .hold := fun _ => rfl
  refine ⟨_, (exec_lossOfLock 0 s).trans (congrArg _ hop), hhold _, ?_⟩
  unfold State.coreRuns
  rw [hhold]
  simp

/-- A declared lock ungates the loop; a relock counts. -/
theorem lockDeclared_ungates (s : State) (p : Fin 10) (hp : 4 ≤ p.val) (hr : s.pllRuns p = false) (href : s.pllRef p = true)
    (hk : s.pllKept p = true) (hm : s.mayLock p = true) : Completes (.lockDeclared p) s (fun t => t.pllRuns p = true ∧
      t.rd .clocks (R.CLK_LOSSES.relocks p) = min (s.rd .clocks (R.CLK_LOSSES.relocks p) + bit (nbit (s.rd .clocks R.CLK_STATUS.gated) p)) 65535
      ∧ t.dev = s.dev ∧ t.mem = s.mem ∧ SameExcept (Blk.clocks :: (List.range 16).map Blk.txg) s t) := by
  have hop : opLockDeclared p s = noteClocks (showTxLoop p (((s.wr .clocks R.CLK_STATUS.locked
      (Nat.lor (s.rd .clocks R.CLK_STATUS.locked) (2 ^ p.val))).wr .clocks R.CLK_STATUS.gated
      (if nbit (s.rd .clocks R.CLK_STATUS.gated) p then s.rd .clocks R.CLK_STATUS.gated - 2 ^ p.val else s.rd .clocks R.CLK_STATUS.gated)).cnt
      .clocks (R.CLK_LOSSES.relocks p) (bit (nbit (s.rd .clocks R.CLK_STATUS.gated) p)))) := by
    unfold opLockDeclared
    rw [if_neg (by simp [hr, href, hk, hm])]
    obtain ⟨_ | _ | _ | _ | n, hn⟩ := p
    · simp at hp
    · simp at hp
    · simp at hp
    · simp at hp
    · rfl
  have hread : ∀ (u : State) (f : Fld), f.off < 0x10000 → (noteClocks (showTxLoop p u)).rd .clocks f = u.rd .clocks f :=
    fun u f hf => (rd_noteClocks _ _ _).trans (rd_showTxLoop _ _ _ hf)
  have hapart : ∀ f : Fld, f.off = 0x40 → f.off ≠ (R.CLK_LOSSES.relocks p).off :=
    fun f hf => by rw [hf]; simp only [R.CLK_LOSSES.relocks]; omega
  have hsmall : (R.CLK_LOSSES.relocks p).off < 0x10000 := by simp only [R.CLK_LOSSES.relocks]; omega
  have hall : ∀ m g n, LoopStep s (noteClocks (showTxLoop p (((s.wr .clocks R.CLK_STATUS.locked m).wr .clocks R.CLK_STATUS.gated g).cnt
      .clocks (R.CLK_LOSSES.relocks p) n))) := fun m g n =>
    (((loopStep_wr _ _ _ (by decide)).trans (loopStep_wr _ _ _ (by decide))).trans (loopStep_cnt _ _ _ hsmall)).trans
      ((loopStep_showTxLoop _ _).trans (loopStep_noteClocks _))
  refine ⟨_, (exec_lockDeclared p s).trans (congrArg _ hop), ?_, ?_, ?_⟩
  · unfold State.pllRuns
    rw [hread _ _ (by decide), hread _ _ (by decide), rd_cnt_keep _ _ _ _ _ (.inl (hapart _ rfl)),
      rd_cnt_keep _ _ _ _ _ (.inl (hapart _ rfl)), rd_wr_keep _ _ _ _ _ (by decide), rd_wr_val _ _ _ _ (by decide),
      rd_wr_val _ _ _ _ (by decide)]
    have hlocked := (nbit_mod_ten _ p).trans (nbit_lor_self (s.rd .clocks R.CLK_STATUS.locked) p)
    have hgated := (nbit_mod_ten _ p).trans (nbit_cleared (s.rd .clocks R.CLK_STATUS.gated) p)
    simp only [R.CLK_STATUS.locked, R.CLK_STATUS.gated] at hlocked hgated ⊢
    rw [hlocked, hgated]
    rfl
  · rw [hread _ _ hsmall, rd_cnt_val _ _ _ _ (by decide : 16 + 16 ≤ 64), rd_wr_keep _ _ _ _ _ (.inl (hapart _ rfl).symm),
      rd_wr_keep _ _ _ _ _ (.inl (hapart _ rfl).symm)]
    rfl
  · exact ⟨(hall _ _ _).dev, (hall _ _ _).mem, (hall _ _ _).words⟩

/-- Before its 8 windows are over a loop declares no lock. -/
theorem lockDeclared_early (s : State) (p : Fin 10) (hm : s.mayLock p = false) : Completes (.lockDeclared p) s (fun t => t = s) := by
  refine ⟨_, exec_lockDeclared p s, ?_⟩
  unfold opLockDeclared
  rw [if_pos (by simp [hm])]

/-! ### Ramps (R381, R383, R384) -/

theorem exec_rampGo {s : State} (ho : s.dev ≠ .off) (hb : s.dev ≠ .boot) : exec .rampGo s = .next (rampGo s) :=
  congrArg Host.Outcome.next (if_neg (by simp [ho, hb]))
theorem exec_rampAbort {s : State} (ho : s.dev ≠ .off) (hb : s.dev ≠ .boot) : exec .rampAbort s = .next (rampAbort s) :=
  congrArg Host.Outcome.next (if_neg (by simp [ho, hb]))
theorem exec_rampSegmentEnd (s : State) : exec .rampSegmentEnd s = .next (opRampSegmentEnd s) := rfl

/-- A placement cause joins the queue; of the registers it changes the mark of mgmt alone. -/
theorem placeCause_shown (c a : Nat) (s : State) : (placeCause c a s).causes = s.causes ++ [⟨c, a⟩] ∧ (placeCause c a s).clk = s.clk ∧
    ∀ f : Fld, f.off < 0x10000 → (placeCause c a s).rd .clocks f = s.rd .clocks f := by
  refine ⟨by rw [placeCause_eq], by rw [placeCause_eq], fun f hf => ?_⟩
  have hw : WritesOnly (InSlot .global) { s with causes := s.causes ++ [⟨c, a⟩] } (placeCause c a s) :=
    writesOnly_ferryPass _ _ _ (inSlot_base .global (by decide))
  refine hw.rd (fun h => ?_)
  have := (inSlot_base .clocks hf).symm.trans h
  simp only [Blk.slot] at this
  omega

/-- A new CORE frequency shows in CLK_CORE and in the loads of the slots; no other field of CLOCKS changes. -/
theorem setFreq_shown (f : Nat) (s : State) : (setFreq f s).rd .clocks R.CLK_CORE.freq = f % 8192 ∧ OnlyRegs s (setFreq f s) ∧
    ∀ g : Fld, g.off < 0x10000 → g.off ≠ R.CLK_CORE.freq.off → (setFreq f s).rd .clocks g = s.rd .clocks g := by
  have hloads : WritesOnly (fun a => ∃ i, i < 17 ∧ InSlot (.filt i) a) (s.wr .clocks R.CLK_CORE.freq f) (setFreq f s) := by
    refine WritesOnly.each _ _ (fun i hi u => writesOnly_wr u _ ⟨i, ?_, inSlot_base _ (by decide)⟩) _
    exact List.mem_range.1 (List.mem_filter.1 hi).1
  have hclocks : ∀ o, o < 0x10000 → ¬ ∃ i, i < 17 ∧ InSlot (.filt i) (Blk.clocks.base + o) := by
    rintro o ho ⟨i, hi, h⟩
    have := (inSlot_base .clocks ho).symm.trans h
    simp only [Blk.slot] at this
    omega
  refine ⟨?_, (onlyRegs_wr s _ _ _).trans hloads.only, fun g hg hne => ?_⟩
  · rw [hloads.rd (hclocks _ (by decide)), rd_wr_val _ _ _ _ (by decide)]
    rfl
  · rw [hloads.rd (hclocks _ hg), rd_wr_keep _ _ _ _ _ (.inl hne)]

/-- The profile has at most 16 segments, so a write of CLK_RAMP_CTRL beside the number of segments leaves it. -/
theorem rampSegs_wr (s : State) (v : Nat) : (s.wr .clocks R.CLK_RAMP_CTRL.last_cmd v).rampSegs = s.rampSegs := by
  unfold State.rampSegs
  rw [rd_wr_keep _ _ _ _ _ (by decide)]
  refine List.map_congr_left (fun i hi => ?_)
  have hlt : s.rd .clocks R.CLK_RAMP_CTRL.segments_m1 < 16 := get_lt _ _
  have hoff : 0x80 + 0x8 * i ≠ 0x100 := by
    have := List.mem_range.1 hi
    omega
  rw [rd_wr_keep _ _ _ _ _ (.inl hoff), rd_wr_keep _ _ _ _ _ (.inl hoff)]

theorem rampSegs_ne_nil (s : State) : s.rampSegs ≠ [] := by
  unfold State.rampSegs
  simp

theorem inBand_wr (s : State) (v f : Nat) : (s.wr .clocks R.CLK_RAMP_CTRL.last_cmd v).inBand f = s.inBand f := by
  unfold State.inBand State.flag
  rw [rd_wr_keep _ _ _ _ _ (by decide)]

/-- The last of a list's elements has what all of them have. -/
theorem getLastD_of_all {β : Type} (P : β → Bool) (d : β) : ∀ l : List β, l ≠ [] → l.all P = true → P (l.getLastD d) = true := by
  intro l hne h
  rw [List.getLastD_eq_getLast?, List.getLast?_eq_some_getLast hne]
  exact List.all_eq_true.1 h _ (List.getLast_mem hne)

theorem rampGo_starts (s : State) (hdev : s.dev = .ready ∨ s.dev = .run) (hr : s.rampRefusal = 0)
    (hb : s.rampSegs.all (fun g => s.inBand g.target) = true) : Completes .rampGo s (fun t =>
      t.rd .clocks R.CLK_RAMP_CTRL.go = 1 ∧ t.rd .clocks R.CLK_RAMP_CTRL.last_status = 1 ∧ t.rd .clocks R.CLK_STATUS.ramp_state = 1
        ∧ t.rd .clocks R.CLK_CORE.freq = s.rd .clocks R.CLK_CORE.freq ∧ t.clk.ramp = s.rampSegs ∧ t.causes.length = s.causes.length + 1) := by
  have hop : ∃ u : State, ∃ low, rampGo s = placeCause 7 low u ∧ u.clk.ramp = s.rampSegs ∧ u.causes = s.causes ∧
      u.regs = (((((s.wr .clocks R.CLK_RAMP_CTRL.last_cmd 1).wr .clocks R.CLK_RAMP_CTRL.go 1).wr .clocks R.CLK_RAMP_CTRL.last_status 1).wr
        .clocks R.CLK_RAMP_CTRL.refuse_cause 0).wr .clocks R.CLK_STATUS.ramp_state 1).regs := by
    unfold rampGo
    dsimp only
    rw [if_neg (not_not.2 hr)]
    refine ⟨_, _, rfl, ?_, rfl, rfl⟩
    dsimp only
    rw [rampSegs_wr, inBand_wr, getLastD_of_all (fun g => s.inBand g.target) _ _ (rampSegs_ne_nil s) hb]
    rfl
  obtain ⟨u, low, hop, hramp, hcauses, hregs⟩ := hop
  obtain ⟨hc, hclk, hread⟩ := placeCause_shown 7 low u
  have hno : s.dev ≠ .off ∧ s.dev ≠ .boot := by obtain h | h := hdev <;> simp [h]
  refine ⟨_, (exec_rampGo hno.1 hno.2).trans (congrArg _ hop), ?_, ?_, ?_, ?_, (congrArg ClkSt.ramp hclk).trans hramp, ?_⟩
  · rw [hread _ (by decide), rd_of_regs hregs]
    simp (disch := decide) only [rd_wr_keep, rd_wr_val]
    rfl
  · rw [hread _ (by decide), rd_of_regs hregs]
    simp (disch := decide) only [rd_wr_keep, rd_wr_val]
    rfl
  · rw [hread _ (by decide), rd_of_regs hregs, rd_wr_val _ _ _ _ (by decide)]
    rfl
  · rw [hread _ (by decide), rd_of_regs hregs]
    simp (disch := decide) only [rd_wr_keep]
  · rw [hc, hcauses, List.length_append, List.length_singleton]

/-- Every refusal code is one of five. -/
theorem rampRefusal_lt (s : State) : s.rampRefusal < 8 := by
  unfold State.rampRefusal
  dsimp only
  repeat' split
  all_goals decide

theorem rampGo_refused (s : State) (ho : s.dev ≠ .off) (hb : s.dev ≠ .boot) (hr : s.rampRefusal ≠ 0) : Completes .rampGo s (fun t =>
    t.rd .clocks R.CLK_RAMP_CTRL.last_status = 2 ∧ t.rd .clocks R.CLK_RAMP_CTRL.refuse_cause = s.rampRefusal ∧ t.clk = s.clk
      ∧ t.causes = s.causes) := by
  have hop : rampGo s = ((s.wr .clocks R.CLK_RAMP_CTRL.last_cmd 1).wr .clocks R.CLK_RAMP_CTRL.last_status 2).wr .clocks
      R.CLK_RAMP_CTRL.refuse_cause s.rampRefusal := by
    unfold rampGo
    exact if_pos hr
  refine ⟨_, (exec_rampGo ho hb).trans (congrArg _ hop), ?_, ?_, rfl, rfl⟩
  · simp (disch := decide) only [rd_wr_keep, rd_wr_val]
    rfl
  · rw [rd_wr_val _ _ _ _ (by decide)]
    exact Nat.mod_eq_of_lt (rampRefusal_lt s)

theorem rampSegmentEnd_next (s : State) (g h : RampSeg) (gs : List RampSeg) (hst : s.rd .clocks R.CLK_STATUS.ramp_state = 2)
    (hramp : s.clk.ramp = g :: h :: gs) (ht : s.clk.segAt + max 1 g.micros * usUnits ≤ s.tim.raw) :
    Completes .rampSegmentEnd s (fun t =>
      t.clk.ramp = h :: gs ∧ t.clk.from_ = g.target ∧ t.clk.segAt = s.clk.segAt + max 1 g.micros * usUnits ∧
      t.rd .clocks R.CLK_STATUS.ramp_segment = (s.rd .clocks R.CLK_STATUS.ramp_segment + 1) % 16 ∧ t.causes = s.causes) := by
  have hop : ∃ u : State, opRampSegmentEnd s
        = setFreq h.target (u.wr .clocks R.CLK_STATUS.ramp_segment (s.rd .clocks R.CLK_STATUS.ramp_segment + 1)) ∧
      u.clk.ramp = h :: gs ∧ u.clk.from_ = g.target ∧ u.clk.segAt = s.clk.segAt + max 1 g.micros * usUnits ∧ u.causes = s.causes := by
    unfold opRampSegmentEnd
    dsimp only
    rw [if_neg (not_not.2 hst), hramp]
    dsimp only
    rw [if_neg (not_lt.2 ht)]
    exact ⟨_, rfl, rfl, rfl, rfl, rfl⟩
  obtain ⟨u, hop, hr, hf, hat, hc⟩ := hop
  obtain ⟨-, honly, hread⟩ := setFreq_shown h.target
    (u.wr .clocks R.CLK_STATUS.ramp_segment (s.rd .clocks R.CLK_STATUS.ramp_segment + 1))
  have hclk := congrArg State.clk ((onlyRegs_wr u _ _ _).trans honly)
  have hcauses := congrArg State.causes ((onlyRegs_wr u _ _ _).trans honly)
  dsimp only at hclk hcauses
  refine ⟨_, (exec_rampSegmentEnd s).trans (congrArg _ hop), (congrArg ClkSt.ramp hclk).trans hr, (congrArg ClkSt.from_ hclk).trans hf,
    (congrArg ClkSt.segAt hclk).trans hat, ?_, hcauses.trans hc⟩
  rw [hread _ (by decide) (by decide), rd_wr_val _ _ _ _ (by decide)]
  rfl

theorem rampSegmentEnd_last (s : State) (g : RampSeg) (hst : s.rd .clocks R.CLK_STATUS.ramp_state = 2) (hramp : s.clk.ramp = [g])
    (ht : s.clk.segAt + max 1 g.micros * usUnits ≤ s.tim.raw) : Completes .rampSegmentEnd s (fun t =>
      t.clk.ramp = [] ∧ t.rd .clocks R.CLK_STATUS.ramp_state = 1 ∧ t.rd .clocks R.CLK_CORE.freq = g.target % 8192
      ∧ t.causes = s.causes ++ [⟨7, g.target⟩]) := by
  have hop : ∃ u : State, opRampSegmentEnd s
        = placeCause 7 g.target (setFreq g.target (u.wr .clocks R.CLK_STATUS.ramp_state 1)) ∧ u.clk.ramp = [] ∧ u.causes = s.causes := by
    unfold opRampSegmentEnd
    dsimp only
    rw [if_neg (not_not.2 hst), hramp]
    dsimp only
    rw [if_neg (not_lt.2 ht)]
    exact ⟨_, rfl, rfl, rfl⟩
  obtain ⟨u, hop, hr, hc⟩ := hop
  obtain ⟨hfreq, honly, hread⟩ := setFreq_shown g.target (u.wr .clocks R.CLK_STATUS.ramp_state 1)
  have hclk := congrArg State.clk ((onlyRegs_wr u _ _ _).trans honly)
  have hcauses := congrArg State.causes ((onlyRegs_wr u _ _ _).trans honly)
  have hstate : (setFreq g.target (u.wr .clocks R.CLK_STATUS.ramp_state 1)).rd .clocks R.CLK_STATUS.ramp_state = 1 :=
    (hread _ (by decide) (by decide)).trans (rd_wr_val _ _ _ _ (by decide))
  dsimp only at hclk hcauses
  generalize setFreq g.target (u.wr .clocks R.CLK_STATUS.ramp_state 1) = v at *
  obtain ⟨hpc, hpclk, hpread⟩ := placeCause_shown 7 g.target v
  refine ⟨_, (exec_rampSegmentEnd s).trans (congrArg _ hop), ?_, (hpread _ (by decide)).trans hstate, (hpread _ (by decide)).trans hfreq, ?_⟩
  · rw [hpclk, hclk, hr]
  · rw [hpc, hcauses, hc]

theorem rampAbort_stops (s : State) (ho : s.dev ≠ .off) (hb : s.dev ≠ .boot) (hst : s.rd .clocks R.CLK_STATUS.ramp_state = 2) :
    Completes .rampAbort s (fun t =>
      t.rd .clocks R.CLK_STATUS.ramp_state = 0 ∧ t.clk.ramp = [] ∧ t.rd .clocks R.CLK_RAMP_CTRL.go = 0 ∧
      t.rd .clocks R.CLK_CORE.freq = s.coreFreqNow % 8192 ∧ t.rd .clocks R.CLK_RAMP_CTRL.last_cmd = 2) := by
  have hfreq : (s.wr .clocks R.CLK_RAMP_CTRL.last_cmd 2).coreFreqNow = s.coreFreqNow := by
    have hstate := rd_wr_keep s .clocks R.CLK_RAMP_CTRL.last_cmd R.CLK_STATUS.ramp_state 2 (by decide)
    have hcore := rd_wr_keep s .clocks R.CLK_RAMP_CTRL.last_cmd R.CLK_CORE.freq 2 (by decide)
    unfold State.coreFreqNow
    rw [hstate, hcore]
    rfl
  have hst' : (s.wr .clocks R.CLK_RAMP_CTRL.last_cmd 2).rd .clocks R.CLK_STATUS.ramp_state = 2 :=
    (rd_wr_keep _ _ _ _ _ (by decide)).trans hst
  have hcmd : (s.wr .clocks R.CLK_RAMP_CTRL.last_cmd 2).rd .clocks R.CLK_RAMP_CTRL.last_cmd = 2 := rd_wr_val _ _ _ _ (by decide)
  obtain ⟨hshow, -, hkeep⟩ := setFreq_shown s.coreFreqNow ((s.wr .clocks R.CLK_RAMP_CTRL.last_cmd 2).wr .clocks R.CLK_STATUS.ramp_state 0)
  have hzero : (setFreq s.coreFreqNow ((s.wr .clocks R.CLK_RAMP_CTRL.last_cmd 2).wr .clocks R.CLK_STATUS.ramp_state 0)).rd .clocks
      R.CLK_STATUS.ramp_state = 0 := (hkeep _ (by decide) (by decide)).trans (rd_wr_val _ _ _ _ (by decide))
  have hcmd' := ((hkeep R.CLK_RAMP_CTRL.last_cmd (by decide) (by decide)).trans (rd_wr_keep _ _ _ _ _ (by decide))).trans hcmd
  have hop : ∃ v : State, rampAbort s = (placeCause 7 s.coreFreqNow v).wr .clocks R.CLK_RAMP_CTRL.last_status 0 ∧ v.clk.ramp = [] ∧
      v.regs = ((((setFreq s.coreFreqNow ((s.wr .clocks R.CLK_RAMP_CTRL.last_cmd 2).wr .clocks R.CLK_STATUS.ramp_state 0)).wr
        .clocks R.CLK_RAMP_CTRL.go 0).wr .clocks R.CLK_RAMP_CTRL.last_status 0).wr .clocks R.CLK_STATUS.ramp_segment 0).regs := by
    unfold rampAbort abortRamp
    dsimp only
    rw [if_neg (by simp [hst']), hfreq]
    exact ⟨_, rfl, rfl, rfl⟩
  generalize setFreq s.coreFreqNow _ = u at *
  obtain ⟨v, hop, hramp, hregs⟩ := hop
  obtain ⟨-, hclk, hread⟩ := placeCause_shown 7 s.coreFreqNow v
  have hfield : ∀ f : Fld, f.off < 0x10000 → (f.off ≠ 0x100 ∨ f.lo + f.width ≤ 10 ∨ 12 ≤ f.lo) →
      ((placeCause 7 s.coreFreqNow v).wr .clocks R.CLK_RAMP_CTRL.last_status 0).rd .clocks f = v.rd .clocks f :=
    fun f hf h => (rd_wr_keep _ _ _ _ _ h).trans (hread f hf)
  refine ⟨_, (exec_rampAbort ho hb).trans (congrArg _ hop), ?_, (congrArg ClkSt.ramp hclk).trans hramp, ?_, ?_, ?_⟩
  · rw [hfield _ (by decide) (by decide), rd_of_regs hregs]
    simp (disch := decide) only [rd_wr_keep, hzero]
  · rw [hfield _ (by decide) (by decide), rd_of_regs hregs]
    simp (disch := decide) only [rd_wr_keep, rd_wr_val]
    rfl
  · rw [hfield _ (by decide) (by decide), rd_of_regs hregs]
    simp (disch := decide) only [rd_wr_keep, hshow]
  · rw [hfield _ (by decide) (by decide), rd_of_regs hregs]
    simp (disch := decide) only [rd_wr_keep, hcmd']

/-- Settles O12: losses and locks write CLOCKS and the transmit groups' states alone, and each ramp command is followed write by write.
The count of a relock at a gated loop and the causes of `rampRefusal` are the readings of log 30, the frequency inside a segment is that of
log 26, and an untimely declared lock changes nothing by log 3; the statement has no loss of lock of PLL_MEM, PLL_HOST or PLL_TIME. -/
theorem loopsAndRamps : Obligations.LoopsAndRamps :=
  ⟨lossOfLock_gates, lossOfLock_holds, lockDeclared_ungates, lockDeclared_early, rampGo_starts, rampGo_refused, rampSegmentEnd_next,
    rampSegmentEnd_last, rampAbort_stops⟩

end Sys2Proof.Proofs
namespace Sys2Proof.Proofs
open Sys2Proof Sys2Proof.Machine Sys2Proof.Laws

/-! ### What a write with byte enables leaves in a memory -/

/-- The byte that a write of `data` from address `a` enables at `x`. -/
def enabledByte (a : Nat) (data : List (Option Byte)) (x : Nat) : Option Byte := if a ≤ x then data.getD (x - a) none else none

/-- The part of a write that falls in the `n` bytes from `w`. -/
def windowOf (a : Nat) (data : List (Option Byte)) (w n : Nat) : List (Option Byte) :=
  (List.range n).map (fun i => if a ≤ w + i then data.getD (w + i - a) none else none)

theorem enabledByte_out {a x : Nat} {data : List (Option Byte)} (h : x < a ∨ a + data.length ≤ x) : enabledByte a data x = none := by
  unfold enabledByte
  split
  · have : data.length ≤ x - a := by omega
    simp [this]
  · rfl

theorem get_memWriteOpt_window (m : SMap Byte) (a w n x : Nat) (data : List (Option Byte)) :
    SMap.get zeroByte (memWriteOpt m w (windowOf a data w n)) x
      = if w ≤ x ∧ x < w + n then (enabledByte a data x).getD (SMap.get zeroByte m x) else SMap.get zeroByte m x := by
  rw [get_memWriteOpt]
  by_cases hw : w ≤ x
  · by_cases hn : x - w < n
    · have hx : w + (x - w) = x := by omega
      simp only [hw, if_pos, windowOf, List.getD_eq_getElem?_getD, List.getElem?_map, List.getElem?_range hn, Option.map_some,
        Option.getD_some, hx, if_pos (show True ∧ x < w + n from ⟨trivial, by omega⟩), enabledByte]
    · rw [if_pos hw, if_neg (by omega)]
      simp [windowOf, List.getD_eq_getElem?_getD, Nat.le_of_not_lt hn]
  · rw [if_neg hw, if_neg (fun h => hw h.1)]

/-- Bytes `m'` are bytes `m` with `data` written from `a`, in the windows of `n` bytes that begin at the addresses in `ws`. -/
def WroteIn (a : Nat) (data : List (Option Byte)) (n : Nat) (ws : List Nat) (m m' : SMap Byte) : Prop :=
  ∀ x, SMap.get zeroByte m' x
    = if ∃ w ∈ ws, w ≤ x ∧ x < w + n then (enabledByte a data x).getD (SMap.get zeroByte m x) else SMap.get zeroByte m x

theorem wroteIn_nil (a : Nat) (data : List (Option Byte)) (n : Nat) (m : SMap Byte) : WroteIn a data n [] m m := fun x => by simp

/-- One more window is written first. -/
theorem WroteIn.cons {a n w : Nat} {data : List (Option Byte)} {ws : List Nat} {m m' : SMap Byte}
    (h : WroteIn a data n ws (memWriteOpt m w (windowOf a data w n)) m') : WroteIn a data n (w :: ws) m m' := by
  intro x
  rw [h x, get_memWriteOpt_window]
  by_cases hw : w ≤ x ∧ x < w + n
  · by_cases hws : ∃ v ∈ ws, v ≤ x ∧ x < v + n
    · cases h : enabledByte a data x <;> simp [hw, hws]
    · simp [hw, hws]
  · by_cases hws : ∃ v ∈ ws, v ≤ x ∧ x < v + n
    · simp [hw, hws]
    · simp [hw, hws]

/-- Windows that cover the written range leave what was written, and every other byte. -/
theorem WroteIn.covered {a n : Nat} {data : List (Option Byte)} {ws : List Nat} {m m' : SMap Byte} (h : WroteIn a data n ws m m')
    (hc : ∀ x, a ≤ x → x < a + data.length → ∃ w ∈ ws, w ≤ x ∧ x < w + n) (x : Nat) :
    SMap.get zeroByte m' x = (enabledByte a data x).getD (SMap.get zeroByte m x) := by
  rw [h x]
  split
  · rfl
  · next hx =>
    rw [enabledByte_out]
    · rfl
    · by_contra hin
      exact hx (hc x (by omega) (by omega))

/-- The aligned windows of `n` bytes that a range touches cover it. -/
theorem windows_cover (a len n x : Nat) (hn : 0 < n) (h : a ≤ x) (hx : x < a + len) :
    ∃ w ∈ (List.range ((a + len + (n - 1)) / n - a / n)).map (fun k => (a / n + k) * n), w ≤ x ∧ x < w + n := by
  have hle : a / n ≤ x / n := Nat.div_le_div_right h
  have hlt : x / n < (a + len + (n - 1)) / n := by
    rw [Nat.lt_iff_add_one_le, ← Nat.add_div_right x hn]
    exact Nat.div_le_div_right (by omega)
  refine ⟨x / n * n, List.mem_map.2 ⟨x / n - a / n, List.mem_range.2 (by omega), ?_⟩, Nat.div_mul_le_self x n, ?_⟩
  · rw [Nat.add_sub_cancel' hle]
  · exact Nat.lt_div_mul_add hn

/-! ### The depot and DRAM without errors -/

theorem eccWriteWords_sound (a : Nat) (data : List (Option Byte)) (ws : List Nat) : ∀ (bs : SMap Byte) (n : Nat),
    (eccWriteWords a data ws (bs, [], n)).2 = ([], n) ∧ WroteIn a data 8 ws bs (eccWriteWords a data ws (bs, [], n)).1 := by
  induction ws with
  | nil => exact fun bs n => ⟨rfl, wroteIn_nil a data 8 bs⟩
  | cons w ws ih =>
    intro bs n
    have hstep : eccWriteWords a data (w :: ws) (bs, [], n) = eccWriteWords a data ws (memWriteOpt bs w (windowOf a data w 8), [], n) := rfl
    rw [hstep]
    exact ⟨(ih _ n).1, (ih _ n).2.cons⟩

/-- A write to a depot without errors leaves what was written, and changes nothing else. -/
theorem sramWrite_depot (a : Nat) (data : List (Option Byte)) (s : State) (h : s.mem.depotBad = []) :
    ∃ bs, sramWrite .depot a data s = { s with mem := { s.mem with depot := bs, depotBad := [] } } ∧
      ∀ x, SMap.get zeroByte bs x = (enabledByte a data x).getD (SMap.get zeroByte s.mem.depot x) := by
  obtain ⟨hbad, hw⟩ := eccWriteWords_sound a data
    ((List.range ((a + data.length + 7) / 8 - a / 8)).map (fun k => (a / 8 + k) * 8)) s.mem.depot 0
  refine ⟨_, ?_, hw.covered (fun x => windows_cover a data.length 8 x (by decide))⟩
  unfold sramWrite
  simp only [State.sram, State.sramBad, h, hbad]
  rfl

/-- The register where mem_wr[c] shows its high water. -/
def MemWrWord (a : Nat) : Prop := ∃ c : Fin 8, a = (Blk.dram c).base + R.DRAM_FERRY_WR.high_water.off

theorem memWrWord_dram {a : Nat} (h : MemWrWord a) : ∃ b ∈ dramBlks, InSlot b a := by
  obtain ⟨c, rfl⟩ := h
  exact ⟨.dram c, List.mem_map_of_mem (List.mem_range.2 c.isLt), inSlot_base _ (by decide)⟩

/-- `t` differs from `s` in the bytes of DRAM and in the high-water marks of mem_wr. -/
structure DramStep (s t : State) : Prop where
  word : ∀ a, ¬ MemWrWord a → t.word a = s.word a
  bad : t.mem.dramBad = s.mem.dramBad
  depot : t.mem.depot = s.mem.depot

theorem DramStep.refl (s : State) : DramStep s s := ⟨fun _ _ => rfl, rfl, rfl⟩

theorem DramStep.trans {s t u : State} (h : DramStep s t) (g : DramStep t u) : DramStep s u :=
  ⟨fun a ha => (g.word a ha).trans (h.word a ha), g.bad.trans h.bad, g.depot.trans h.depot⟩

/-- No field but the mark shares its place. -/
theorem DramStep.rd {s t : State} (h : DramStep s t) (b : Blk) (f : Fld) (hf : f.off < 0x10000) (hne : f.off ≠ R.DRAM_FERRY_WR.high_water.off) :
    t.rd b f = s.rd b f := by
  unfold State.rd
  rw [h.word]
  rintro ⟨c, hc⟩
  have : R.DRAM_FERRY_WR.high_water.off < 0x10000 := by decide
  unfold Blk.base at hc
  omega

theorem DramStep.memReady {s t : State} (h : DramStep s t) (hr : s.memReady) : t.memReady := by
  intro c
  have hread := fun (f : Fld) (hf : f.off < 0x10000) (hne : f.off ≠ R.DRAM_FERRY_WR.high_water.off) => h.rd (.dram c) f hf hne
  have hclk := fun (f : Fld) (hf : f.off < 0x10000) (hne : f.off ≠ R.DRAM_FERRY_WR.high_water.off) => h.rd .clocks f hf hne
  have hs := hr c
  unfold State.dramServes State.memClock State.pllRuns State.enabled State.wedged State.flag at hs ⊢
  rwa [hclk _ (by decide) (by decide), hclk _ (by decide) (by decide), hread _ (by decide) (by decide), hread _ (by decide) (by decide),
    hread _ (by decide) (by decide), hread _ (by decide) (by decide), hread _ (by decide) (by decide)]

theorem dramWriteLine_serves {s : State} (hr : s.memReady) (hb : s.mem.dramBad = []) (w : Nat) (ds : List (Option Byte)) :
    DramStep s (dramWriteLine w ds s) ∧ (dramWriteLine w ds s).mem.dram = memWriteOpt s.mem.dram w ds := by
  obtain ⟨hserve, hwedge⟩ := hr (Fin.ofNat 8 (s.dramChan w))
  have hput : dramPutLine w ds s = { s with mem := { s.mem with dram := memWriteOpt s.mem.dram w ds } } := by
    unfold dramPutLine
    exact if_neg (by simp [State.badLine, hb, SMap.get, noBad])
  have hop : dramWriteLine w ds s = ferryPass (.dram (Fin.ofNat 8 (s.dramChan w)).val) R.DRAM_FERRY_WR.level R.DRAM_FERRY_WR.high_water 256 1
      { s with mem := { s.mem with dram := memWriteOpt s.mem.dram w ds } } := by
    unfold dramWriteLine
    dsimp only
    rw [if_neg (by simpa [State.wedged] using hwedge), if_pos hserve, hput]
  have hw : WritesOnly MemWrWord { s with mem := { s.mem with dram := memWriteOpt s.mem.dram w ds } } (dramWriteLine w ds s) := by
    rw [hop]
    exact writesOnly_ferryPass _ _ _ ⟨_, rfl⟩
  have hmem := onlyRegs_mem hw.only
  exact ⟨⟨hw.word, by rw [hmem], by rw [hmem]⟩, by rw [hmem]⟩

theorem dramWriteLines_serves (a : Nat) (data : List (Option Byte)) (ws : List Nat) : ∀ {s : State}, s.memReady → s.mem.dramBad = [] →
    DramStep s (dramWriteLines a data ws s) ∧ WroteIn a data 64 ws s.mem.dram (dramWriteLines a data ws s).mem.dram := by
  induction ws with
  | nil => exact fun _ _ => ⟨.refl _, wroteIn_nil _ _ _ _⟩
  | cons w ws ih =>
    intro s hr hb
    obtain ⟨hstep, hbytes⟩ := dramWriteLine_serves hr hb w (windowOf a data w 64)
    obtain ⟨hrest, hwrote⟩ := ih (hstep.memReady hr) (hstep.bad.trans hb)
    rw [hbytes] at hwrote
    exact ⟨hstep.trans hrest, hwrote.cons⟩

/-! ### The host's path (R18, R350) -/

/-- `t` differs from `s` in the registers of the DMA block and on the host's side, where the MSI-X table stays. -/
structure HostSide (s t : State) : Prop where
  word : SameOutside .dma s t
  mem : t.mem = s.mem
  table : t.host.msixTable = s.host.msixTable

theorem HostSide.refl (s : State) : HostSide s s := ⟨fun _ _ => rfl, rfl, rfl⟩

theorem HostSide.trans {s t u : State} (h : HostSide s t) (g : HostSide t u) : HostSide s u :=
  ⟨fun a ha => (g.word a ha).trans (h.word a ha), g.mem.trans h.mem, g.table.trans h.table⟩

theorem HostSide.each {β : Type} (g : β → Op) (hg : ∀ x s, HostSide s (g x s)) : ∀ (l : List β) (s : State), HostSide s (s.each l g)
  | [], s => .refl s
  | x :: l, s => (hg x s).trans (HostSide.each g hg l (g x s))

theorem WritesOnly.hostSide {s t : State} (h : WritesOnly (InSlot .dma) s t) : HostSide s t :=
  ⟨fun a ha => h.word a ha, onlyRegs_mem h.only, by rw [onlyRegs_host h.only]⟩

theorem hostSide_toHost (q : HostReq) (s : State) : HostSide s (s.toHost q) := by
  unfold State.toHost
  split
  · dsimp only
    refine HostSide.trans (t := ferryPass .dma R.HOST_OUT_FERRY.level R.HOST_OUT_FERRY.high_water 1024 q.entries s)
      (writesOnly_ferryPass _ _ _ (inSlot_base _ (by decide))).hostSide ?_
    cases q <;> exact ⟨fun _ _ => rfl, rfl, rfl⟩
  · exact HostSide.trans (t := { s with host.hostOut := s.host.hostOut ++ [q] }) ⟨fun _ _ => rfl, rfl, rfl⟩
      (writesOnly_ferryLevel _ _ _ (inSlot_base _ (by decide)) (inSlot_base _ (by decide))).hostSide

theorem hostSide_msixFlush (s : State) : HostSide s (msixFlush s) := by
  unfold msixFlush
  refine HostSide.each _ (fun p st => ?_) _ _
  split
  · exact HostSide.trans (t := onHost { st.host with pba := SMap.erase st.host.pba p.1 } st) ⟨fun _ _ => rfl, rfl, rfl⟩
      (hostSide_toHost _ _)
  · exact .refl st

/-- A write that waits joins host_in, and its level shows. -/
theorem hostInWait_waits (x : HostIn) (s : State) : (hostInWait x s).host.hostIn = s.host.hostIn ++ [x] ∧
    (hostInWait x s).rd .dma R.HOST_IN_FERRY.level = min 512 ((s.host.hostIn ++ [x]).map HostIn.entries).sum ∧
    (hostInWait x s).mem = s.mem ∧ SameOutside .dma s (hostInWait x s) := by
  have hw : WritesOnly (InSlot .dma) { s with host := { s.host with hostIn := s.host.hostIn ++ [x] } } (hostInWait x s) :=
    writesOnly_ferryLevel _ _ _ (inSlot_base _ (by decide)) (inSlot_base _ (by decide))
  have hmem := onlyRegs_mem hw.only
  refine ⟨by rw [onlyRegs_host hw.only], ?_, hmem, fun a ha => hw.word a ha⟩
  have hlevel : ∀ (n : Nat) (u : State), (ferryLevel .dma R.HOST_IN_FERRY.level R.HOST_IN_FERRY.high_water 512 n u).rd .dma
      R.HOST_IN_FERRY.level = min 512 n := by
    intro n u
    have hval : (u.wr .dma R.HOST_IN_FERRY.level (min 512 n)).rd .dma R.HOST_IN_FERRY.level = min 512 n :=
      (rd_wr_val _ _ _ _ (by decide)).trans (Nat.mod_eq_of_lt (lt_of_le_of_lt (Nat.min_le_left ..) (by decide)))
    unfold ferryLevel
    dsimp only
    split
    · exact (rd_wr_keep _ _ _ _ _ (by decide)).trans hval
    · exact hval
  exact hlevel _ _

/-! ### BAR2 (R328) -/

theorem exec_bar2Write (off : Nat) (data : List (Option Byte)) (s : State) :
    exec (.bar2Write off data) s = .next (opBar2Write off data s) := rfl
theorem exec_bar2Read (off len : Nat) (s : State) : exec (.bar2Read off len) s = .next (opBar2Read off len s) := rfl
theorem exec_bar4Access (w : Bool) (off : Nat) (data : List (Option Byte)) (s : State) :
    exec (.bar4Access w off data) s = .next (opBar4Access w off data s) := rfl

/-- What no BAR2 access reaches: anything in a state without memory access, and the secure region. -/
theorem bar2_unreached {s : State} {e : Nat} (h : s.barClosed = true ∨ 0x3F00000 < e) : (s.barClosed || decide (secureBase < e)) = true := by
  rw [Bool.or_eq_true, decide_eq_true_eq]
  exact h

/-- What BAR2 reaches. -/
theorem bar2_reached {s : State} {e : Nat} (h : s.barClosed = false) (he : e ≤ 0x3F00000) :
    ¬ (s.barClosed || decide (secureBase < e)) = true := by
  rw [h, Bool.false_or, decide_eq_true_eq]
  exact Nat.not_lt.2 he

/-- A write that host_in takes leaves the DMA block's registers alone to differ. -/
theorem hostInPass_shown (n : Nat) (s : State) : SameOutside .dma s (hostInPass n s) ∧ (hostInPass n s).mem = s.mem ∧
    (hostInPass n s).host = s.host := by
  have hw : WritesOnly (InSlot .dma) s (hostInPass n s) := writesOnly_ferryPass _ _ _ (inSlot_base _ (by decide))
  exact ⟨fun a ha => hw.word a ha, onlyRegs_mem hw.only, onlyRegs_host hw.only⟩

theorem bar2Write_writes (s : State) (off : Nat) (data : List (Option Byte)) (ho : s.barOpen = true) (hc : s.barClosed = false)
    (hcore : s.coreRuns = true) (hbase : s.hostBase ≤ off) (hend : off + data.length ≤ 0x3F00000) (hbad : s.mem.depotBad = []) :
    Completes (.bar2Write off data) s (fun t =>
      (∀ a, SMap.get zeroByte t.mem.depot a = (enabledByte off data a).getD (SMap.get zeroByte s.mem.depot a)) ∧ SameOutside .dma s t ∧
      t.mem.dram = s.mem.dram ∧ t.mem.lmem = s.mem.lmem ∧ t.host = s.host) := by
  have hop : opBar2Write off data s = hostInPass data.length (sramWrite .depot off data s) := by
    unfold opBar2Write
    rw [if_neg (by simp [ho]), if_neg (bar2_reached hc hend), if_neg (by simp [hbase]), if_neg (by simp [hcore])]
  obtain ⟨bs, hw, hbytes⟩ := sramWrite_depot off data s hbad
  obtain ⟨hout, hmem, hhost⟩ := hostInPass_shown data.length (sramWrite .depot off data s)
  refine ⟨_, (exec_bar2Write off data s).trans (congrArg _ hop), ?_⟩
  dsimp only
  rw [hmem, hhost, hw]
  rw [hw] at hout
  exact ⟨hbytes, hout, rfl, rfl, rfl⟩

theorem bar2Write_refused (s : State) (off : Nat) (data : List (Option Byte)) (ho : s.barOpen = true) (hc : s.barClosed = false)
    (hend : off + data.length ≤ 0x3F00000) (hbase : off < s.hostBase) : Completes (.bar2Write off data) s (fun t =>
      t.rd .depot R.DEPOT_TEST.bar2_refused = min (s.rd .depot R.DEPOT_TEST.bar2_refused + 1) 65535 ∧
      t.rd .depot R.DEPOT_FAULT.bar2_write_refused = 1 ∧ t.mem = s.mem ∧ SameOutside .depot s t) := by
  have hop : opBar2Write off data s = (s.cnt .depot R.DEPOT_TEST.bar2_refused 1).fault .depot R.DEPOT_FAULT.bar2_write_refused := by
    unfold opBar2Write
    rw [if_neg (by simp [ho]), if_neg (bar2_reached hc hend), if_pos (by simp [hbase])]
  have hw : WritesOnly (InSlot .depot) s ((s.cnt .depot R.DEPOT_TEST.bar2_refused 1).fault .depot R.DEPOT_FAULT.bar2_write_refused) :=
    ((WritesOnly.refl _ s).cnt _ (inSlot_base _ (by decide))).fault (inSlot_base _ (by decide)) (inSlot_base _ (by decide))
  refine ⟨_, (exec_bar2Write off data s).trans (congrArg _ hop), ?_, ?_, onlyRegs_mem hw.only, fun a ha => hw.word a ha⟩
  · unfold State.fault
    rw [rd_wr_keep _ _ _ _ _ (by decide), rd_wr_keep _ _ _ _ _ (by decide), rd_cnt_val _ _ _ _ (by decide)]
    rfl
  · unfold State.fault
    rw [rd_wr_keep _ _ _ _ _ (by decide), rd_wr_val _ _ _ _ (by decide)]
    rfl

theorem bar2Write_aborts (s : State) (off : Nat) (data : List (Option Byte)) (ho : s.barOpen = true)
    (h : s.barClosed = true ∨ 0x3F00000 < off + data.length) : Completes (.bar2Write off data) s (fun t =>
      t = { s with host := { s.host with aerAborts := s.host.aerAborts + 1 } }) := by
  refine ⟨_, exec_bar2Write off data s, ?_⟩
  unfold opBar2Write
  rw [if_neg (by simp [ho]), if_pos (bar2_unreached h)]
  rfl

theorem bar2Read_aborts (s : State) (off len : Nat) (ho : s.barOpen = true) (h : s.barClosed = true ∨ 0x3F00000 < off + len) :
    Completes (.bar2Read off len) s (fun t => t.host.readOk = false ∧ t.host.readBytes = [] ∧
      t.host.aerAborts = s.host.aerAborts + 1 ∧ t.regs = s.regs ∧ t.mem = s.mem) := by
  have hop : opBar2Read off len s = hostAnswer false false [] s.aerAbort := by
    unfold opBar2Read
    rw [if_neg (by simp [ho]), if_pos (bar2_unreached h)]
  exact ⟨_, (exec_bar2Read off len s).trans (congrArg _ hop), rfl, rfl, rfl, rfl, rfl⟩

theorem length_memRead (m : SMap Byte) (a n : Nat) : (memRead m a n).length = n := by simp [memRead]

/-- Entry `i` of a list given by its index. -/
theorem getD_map_range {n i : Nat} (g : Nat → Byte) (h : i < n) : ((List.range n).map g).getD i 0 = g i := by
  simp [List.getD_eq_getElem?_getD, h]

theorem bar2Read_reads (s : State) (off len : Nat) (ho : s.barOpen = true) (hc : s.barClosed = false) (hcore : s.coreRuns = true)
    (hend : off + len ≤ 0x3F00000) (hbad : s.firstBad .depot off len = none) : Completes (.bar2Read off len) s (fun t =>
      t.host.readOk = true ∧ t.host.readPoisoned = false ∧ t.host.readBytes.length = len ∧
      (∀ i < len, t.host.readBytes.getD i 0 = SMap.get zeroByte s.mem.depot (off + i)) ∧ t.regs = s.regs ∧ t.mem = s.mem) := by
  have hop : opBar2Read off len s = hostAnswer true false (s.sramRead .depot off len) s := by
    unfold opBar2Read
    rw [if_neg (by simp [ho]), if_neg (bar2_reached hc hend), if_neg (by simp [hcore]), hbad]
  exact ⟨_, (exec_bar2Read off len s).trans (congrArg _ hop), rfl, rfl, length_memRead _ _ _, fun i hi => getD_map_range _ hi, rfl, rfl⟩

theorem bar2Read_poisoned (s : State) (off len w : Nat) (ho : s.barOpen = true) (hc : s.barClosed = false) (hcore : s.coreRuns = true)
    (hend : off + len ≤ 0x3F00000) (hbad : s.firstBad .depot off len = some w) : Completes (.bar2Read off len) s (fun t =>
      t.host.readPoisoned = true ∧ t.host.aerInternal = s.host.aerInternal + 1 ∧ t.rd .depot R.DEPOT_ERR_LAST.offset = w ∧
      t.rd .depot R.DEPOT_ERR_LAST.agent = 1 ∧ t.mem = s.mem) := by
  have hw : w < 2 ^ 26 := by
    obtain ⟨k, hk, rfl⟩ := List.mem_map.1 (List.mem_of_find?_eq_some hbad)
    have := List.mem_range.1 hk
    omega
  have hop : ∃ (u : State) (bs : List Byte) (syn : Nat), opBar2Read off len s
        = hostAnswer true true bs { u with host := { u.host with aerInternal := u.host.aerInternal + 1 } } ∧
      u = logBad .depot w 1 syn { s with draw := s.draw + 1 } := by
    unfold opBar2Read
    rw [if_neg (by simp [ho]), if_neg (bar2_reached hc hend), if_neg (by simp [hcore]), hbad]
    refine ⟨_, _, Config.free 15 s.draw % 256, rfl, ?_⟩
    unfold checkRead
    rw [hbad]
    rfl
  obtain ⟨u, bs, syn, hop, hu⟩ := hop
  have hobs := onlyObs_logBad .depot w 1 syn { s with draw := s.draw + 1 }
  have hlog : (logBad .depot w 1 syn { s with draw := s.draw + 1 }).rd .depot R.DEPOT_ERR_LAST.offset = w ∧
      (logBad .depot w 1 syn { s with draw := s.draw + 1 }).rd .depot R.DEPOT_ERR_LAST.agent = 1 := by
    unfold logBad
    dsimp only
    refine ⟨?_, ?_⟩
    · simp (disch := decide) only [rd_wr_keep, rd_wr_val]
      exact Nat.mod_eq_of_lt hw
    · simp (disch := decide) only [rd_wr_keep, rd_wr_val]
      rfl
  rw [← hu] at hobs hlog
  have hmem := congrArg State.mem hobs
  have hhost := congrArg (fun v => v.host.aerInternal) hobs
  dsimp only at hmem hhost
  exact ⟨_, (exec_bar2Read off len s).trans (congrArg _ hop), rfl, congrArg (· + 1) hhost, hlog.1, hlog.2, hmem⟩

theorem bar2Write_waits (s : State) (off : Nat) (data : List (Option Byte)) (ho : s.barOpen = true) (hc : s.barClosed = false)
    (hcore : s.coreRuns = false) (hbase : s.hostBase ≤ off) (hend : off + data.length ≤ 0x3F00000) :
    Completes (.bar2Write off data) s (fun t =>
      t.host.hostIn = s.host.hostIn ++ [.depot off data] ∧ t.rd .dma R.HOST_IN_FERRY.level =
        min 512 (t.host.hostIn.map HostIn.entries).sum ∧ t.mem = s.mem ∧ SameOutside .dma s t) := by
  have hop : opBar2Write off data s = hostInWait (.depot off data) s := by
    unfold opBar2Write
    rw [if_neg (by simp [ho]), if_neg (bar2_reached hc hend), if_neg (by simp [hbase]), if_pos (by simp [hcore])]
  obtain ⟨hin, hlevel, hmem, hout⟩ := hostInWait_waits (.depot off data) s
  exact ⟨_, (exec_bar2Write off data s).trans (congrArg _ hop), hin, by rw [hin, hlevel], hmem, hout⟩

/-! ### BAR4 (R348) -/

/-- The MSI-X table once the first `n` bytes of an access are written. -/
def msixWritten (off : Nat) (data : List (Option Byte)) (m : SMap Byte) (n : Nat) : SMap Byte :=
  (List.range n).foldl (fun m i => match data.getD i none with
    | some b => SMap.set msixDefault m (off + i) b
    | none => m) m

theorem get_msixWritten (off : Nat) (data : List (Option Byte)) (m : SMap Byte) (x : Nat) : ∀ n,
    SMap.get msixDefault (msixWritten off data m n) x
    = if off ≤ x ∧ x < off + n then (enabledByte off data x).getD (SMap.get msixDefault m x) else SMap.get msixDefault m x := by
  intro n
  induction n with
  | zero => rw [if_neg (by omega)]; rfl
  | succ n ih =>
    unfold msixWritten at ih ⊢
    rw [List.range_succ, List.foldl_append, List.foldl_cons, List.foldl_nil]
    by_cases hx : x = off + n
    · subst hx
      rw [if_neg (by omega)] at ih
      have he : enabledByte off data (off + n) = data.getD n none := by
        unfold enabledByte
        rw [if_pos (Nat.le_add_right off n), Nat.add_sub_cancel_left]
      rw [if_pos (by omega), he]
      cases data.getD n none with
      | none => exact ih
      | some b => exact get_set_self ..
    · have hiff : (off ≤ x ∧ x < off + (n + 1)) = (off ≤ x ∧ x < off + n) := propext (by omega)
      simp only [hiff]
      rw [← ih]
      cases data.getD n none with
      | none => rfl
      | some b => exact get_set_ne _ _ _ hx

/-- What holds of each bit in turn is the binary numeral that the fold builds. -/
theorem testBit_foldl_bits (p : Nat → Bool) : ∀ n, ((List.range n).foldl (fun m j => if p j then m + 2 ^ j else m) 0) < 2 ^ n ∧
    ∀ j < n, ((List.range n).foldl (fun m j => if p j then m + 2 ^ j else m) 0).testBit j = p j := by
  intro n
  induction n with
  | zero => simp
  | succ n ih =>
    obtain ⟨hlt, hbits⟩ := ih
    rw [List.range_succ, List.foldl_append, List.foldl_cons, List.foldl_nil]
    generalize (List.range n).foldl (fun m j => if p j then m + 2 ^ j else m) 0 = m at *
    have hpow : 2 ^ (n + 1) = 2 ^ n + 2 ^ n := by rw [pow_succ, mul_two]
    split
    · next h =>
      refine ⟨by omega, fun j hj => ?_⟩
      rw [Nat.add_comm]
      obtain rfl | hj := Nat.eq_or_lt_of_le (Nat.le_of_lt_succ hj)
      · rw [Nat.testBit_two_pow_add_eq, Nat.testBit_lt_two_pow hlt, h]
        rfl
      · rw [Nat.testBit_two_pow_add_gt hj, hbits j hj]
    · next h =>
      refine ⟨by omega, fun j hj => ?_⟩
      obtain rfl | hj := Nat.eq_or_lt_of_le (Nat.le_of_lt_succ hj)
      · rw [Nat.testBit_lt_two_pow hlt]
        simpa using h
      · exact hbits j hj

/-- A byte of the pending-bit array shows its eight vectors. -/
theorem getLsbD_pbaBytes (s : State) (o n : Nat) {i j : Nat} (hi : i < n) (hj : j < 8) :
    ((s.pbaBytes o n).getD i 0).getLsbD j = SMap.get noBad s.host.pba (8 * (o + i) + j) := by
  obtain ⟨-, hbits⟩ := testBit_foldl_bits (fun j => SMap.get noBad s.host.pba (8 * (o + i) + j)) 8
  unfold State.pbaBytes
  rw [getD_map_range _ hi, BitVec.getLsbD_ofNat, decide_eq_true hj, Bool.true_and]
  exact hbits j hj

/-- An access within the window of BAR4, of a device that answers. -/
structure Bar4Open (s : State) (off n : Nat) : Prop where
  opened : s.barOpen = true
  closed : s.barClosed = false
  inside : off + n ≤ 2 ^ s.rd .dma R.PCIE_STATUS.bar4_log2

/-- The MSI-X structures lie within every window of BAR4. -/
theorem bar4Open_low {s : State} {off n : Nat} (ho : s.barOpen = true) (hc : s.barClosed = false)
    (hsize : 28 ≤ s.rd .dma R.PCIE_STATUS.bar4_log2) (hn : off + n ≤ 0x8100) : Bar4Open s off n :=
  ⟨ho, hc, hn.trans ((by decide : 0x8100 ≤ 2 ^ 28).trans (Nat.pow_le_pow_right (by decide) hsize))⟩

section Bar4
variable {s : State} {off : Nat} {data : List (Option Byte)} (h : Bar4Open s off data.length)
include h

theorem bar4Access_table (ht : off + data.length ≤ 0x8000) : opBar4Access true off data s =
    msixFlush { s with host := { s.host with msixTable := msixWritten off data s.host.msixTable data.length } } := by
  unfold opBar4Access
  dsimp only
  rw [if_neg (by simp [h.opened, h.inside]), if_neg (by simp [h.closed]), if_pos ht]
  rfl

theorem bar4Access_tableRead (ht : off + data.length ≤ 0x8000) : opBar4Access false off data s =
    hostAnswer true false ((List.range data.length).map (fun i => SMap.get msixDefault s.host.msixTable (off + i))) s := by
  unfold opBar4Access
  dsimp only
  rw [if_neg (by simp [h.opened, h.inside]), if_neg (by simp [h.closed]), if_pos ht]
  rfl

theorem bar4Access_pending (hlo : 0x8000 ≤ off) (hhi : off + data.length ≤ 0x8100) (hne : data ≠ []) :
    opBar4Access false off data s = hostAnswer true false (s.pbaBytes (off - 0x8000) data.length) s := by
  have hpos := List.length_pos_iff.2 hne
  unfold opBar4Access
  dsimp only
  rw [if_neg (by simp [h.opened, h.inside]), if_neg (by simp [h.closed]), if_neg (by omega), if_pos ⟨hlo, hhi⟩]
  rfl

end Bar4

section Bar4Dram
variable {s : State} {a : Nat} {data : List (Option Byte)} (h : Bar4Open s (0x10000 + a) data.length) (hin : s.dramIn a data.length = true)
include h hin

theorem bar4Access_dramWrite : opBar4Access true (0x10000 + a) data s = hostWrite (.dram a data) s := by
  unfold opBar4Access
  dsimp only
  rw [if_neg (by simp [h.opened, h.inside]), if_neg (by simp [h.closed]), if_neg (by omega), if_neg (by omega),
    Nat.add_sub_cancel_left, if_neg (by simp [hin])]
  rfl

theorem bar4Access_dramRead (hcore : s.coreRuns = true) (hopen : s.dramOpen a data.length = true)
    (hbad : s.firstBadLine a data.length = none) :
    opBar4Access false (0x10000 + a) data s = hostAnswer true false (s.dramRead a data.length) s := by
  unfold opBar4Access
  dsimp only
  rw [if_neg (by simp [h.opened, h.inside]), if_neg (by simp [h.closed]), if_neg (by omega), if_neg (by omega),
    Nat.add_sub_cancel_left, if_neg (by simp [hin]), if_neg Bool.false_ne_true, if_neg (by simp [hcore, hopen]), hbad]

end Bar4Dram

theorem bar4Access_writesTable (s : State) (off : Nat) (data : List (Option Byte)) (ho : s.barOpen = true) (hc : s.barClosed = false)
    (hsize : 28 ≤ s.rd .dma R.PCIE_STATUS.bar4_log2) (ht : off + data.length ≤ 0x8000) :
    Completes (.bar4Access true off data) s (fun t =>
      (∀ a, SMap.get msixDefault t.host.msixTable a = (enabledByte off data a).getD (SMap.get msixDefault s.host.msixTable a)) ∧
      t.mem = s.mem ∧ SameOutside .dma s t) := by
  have hop := bar4Access_table (bar4Open_low ho hc hsize (ht.trans (by decide))) ht
  refine ⟨_, (exec_bar4Access true off data s).trans (congrArg _ hop), fun x => ?_, (hostSide_msixFlush _).mem, (hostSide_msixFlush _).word⟩
  rw [(hostSide_msixFlush _).table]
  dsimp only
  rw [get_msixWritten]
  split
  · rfl
  · rw [enabledByte_out (by omega)]
    rfl

theorem bar4Access_readsTable (s : State) (off : Nat) (data : List (Option Byte)) (ho : s.barOpen = true) (hc : s.barClosed = false)
    (hsize : 28 ≤ s.rd .dma R.PCIE_STATUS.bar4_log2) (ht : off + data.length ≤ 0x8000) :
    Completes (.bar4Access false off data) s (fun t => t.host.readOk = true ∧ t.host.readBytes.length = data.length ∧
      (∀ i < data.length, t.host.readBytes.getD i 0 = SMap.get msixDefault s.host.msixTable (off + i)) ∧ t.regs = s.regs ∧
      t.mem = s.mem) := by
  have hop := bar4Access_tableRead (bar4Open_low ho hc hsize (ht.trans (by decide))) ht
  exact ⟨_, (exec_bar4Access false off data s).trans (congrArg _ hop), rfl, by simp, fun i hi => getD_map_range _ hi, rfl, rfl⟩

theorem bar4Access_readsPending (s : State) (off : Nat) (data : List (Option Byte)) (ho : s.barOpen = true) (hc : s.barClosed = false)
    (hsize : 28 ≤ s.rd .dma R.PCIE_STATUS.bar4_log2) (hlo : 0x8000 ≤ off) (hhi : off + data.length ≤ 0x8100) (hne : data ≠ []) :
    Completes (.bar4Access false off data) s (fun t => t.host.readBytes.length = data.length ∧
      (∀ i < data.length, ∀ j < 8, (t.host.readBytes.getD i 0).getLsbD j =
        SMap.get noBad s.host.pba (8 * (off - 0x8000 + i) + j)) ∧ t.regs = s.regs ∧ t.mem = s.mem) := by
  have hop := bar4Access_pending (bar4Open_low ho hc hsize hhi) hlo hhi hne
  exact ⟨_, (exec_bar4Access false off data s).trans (congrArg _ hop), by simp [State.pbaBytes],
    fun i hi j hj => getLsbD_pbaBytes s _ _ hi hj, rfl, rfl⟩

theorem bar4Access_aborts (s : State) (w : Bool) (off : Nat) (data : List (Option Byte)) (ho : s.barOpen = true)
    (hin : off + data.length ≤ 2 ^ s.rd .dma R.PCIE_STATUS.bar4_log2)
    (h : s.barClosed = true ∨ (0x8100 < off + data.length ∧ off < 0x10000) ∨
      (0x10000 ≤ off ∧ s.dramIn (off - 0x10000) data.length = false)) : Completes (.bar4Access w off data) s (fun t =>
      t.host.aerAborts = s.host.aerAborts + 1 ∧ (w = false → t.host.readOk = false) ∧ t.regs = s.regs ∧ t.mem = s.mem) := by
  have hop : opBar4Access w off data s = if w then s.aerAbort else hostAnswer false false [] s.aerAbort := by
    unfold opBar4Access
    dsimp only
    rw [if_neg (by simp [ho, hin])]
    split
    · rfl
    · next hc =>
      have hfar : 0x8100 < off + data.length := by
        obtain h | ⟨h, -⟩ | ⟨h, -⟩ := h
        · exact absurd h hc
        · exact h
        · omega
      rw [if_neg (by omega), if_neg (by omega), if_pos]
      obtain h | ⟨-, h⟩ | ⟨-, h⟩ := h
      · exact absurd h hc
      · exact .inl h
      · exact .inr h
  refine ⟨_, (exec_bar4Access w off data s).trans (congrArg _ hop), ?_⟩
  cases w with
  | true => exact ⟨rfl, fun h => absurd h (by decide), rfl, rfl⟩
  | false => exact ⟨rfl, fun _ => rfl, rfl, rfl⟩

theorem bar4Access_writesDram (s : State) (a : Nat) (data : List (Option Byte)) (ho : s.barOpen = true) (hc : s.barClosed = false)
    (hsize : 0x10000 + a + data.length ≤ 2 ^ s.rd .dma R.PCIE_STATUS.bar4_log2) (hin : s.dramIn a data.length = true)
    (hcore : s.coreRuns = true) (hready : s.memReady) (hbad : s.mem.dramBad = []) :
    Completes (.bar4Access true (0x10000 + a) data) s (fun t =>
      (∀ x, SMap.get zeroByte t.mem.dram x = (enabledByte a data x).getD (SMap.get zeroByte s.mem.dram x)) ∧
      SameExcept (.dma :: dramBlks) s t ∧ t.mem.depot = s.mem.depot) := by
  have hop := (bar4Access_dramWrite ⟨ho, hc, hsize⟩ hin).trans (show hostWrite (.dram a data) s
    = ferryPass .dma R.HOST_IN_FERRY.level R.HOST_IN_FERRY.high_water 512 (HostIn.dram a data).entries (dramWriteOpt a data s) from
      if_pos hcore)
  obtain ⟨hstep, hwrote⟩ := dramWriteLines_serves a data (linesOf a data.length) hready hbad
  have hbytes := hwrote.covered (fun x => windows_cover a data.length 64 x (by decide))
  have hw : WritesOnly (InSlot .dma) (dramWriteOpt a data s) (ferryPass .dma R.HOST_IN_FERRY.level R.HOST_IN_FERRY.high_water 512
      (HostIn.dram a data).entries (dramWriteOpt a data s)) := writesOnly_ferryPass _ _ _ (inSlot_base _ (by decide))
  refine ⟨_, (exec_bar4Access true _ data s).trans (congrArg _ hop), fun x => ?_, fun x hx => ?_, ?_⟩
  · rw [onlyRegs_mem hw.only]
    exact hbytes x
  · refine (hw.word x (hx _ (List.mem_cons_self ..))).trans (hstep.word x (fun hm => ?_))
    obtain ⟨b, hb, hslot⟩ := memWrWord_dram hm
    exact hx b (List.mem_cons_of_mem _ hb) hslot
  · rw [onlyRegs_mem hw.only]
    exact hstep.depot

theorem bar4Access_readsDram (s : State) (a : Nat) (data : List (Option Byte)) (ho : s.barOpen = true) (hc : s.barClosed = false)
    (hsize : 0x10000 + a + data.length ≤ 2 ^ s.rd .dma R.PCIE_STATUS.bar4_log2) (hin : s.dramIn a data.length = true)
    (hcore : s.coreRuns = true) (hopen : s.dramOpen a data.length = true) (hbad : s.firstBadLine a data.length = none) :
    Completes (.bar4Access false (0x10000 + a) data) s (fun t => t.host.readOk = true ∧ t.host.readPoisoned = false ∧
      t.host.readBytes.length = data.length ∧
      (∀ i < data.length, t.host.readBytes.getD i 0 = SMap.get zeroByte s.mem.dram (a + i)) ∧ t.regs = s.regs ∧ t.mem = s.mem) := by
  have hop := bar4Access_dramRead ⟨ho, hc, hsize⟩ hin hcore hopen hbad
  exact ⟨_, (exec_bar4Access false _ data s).trans (congrArg _ hop), rfl, rfl, length_memRead _ _ _, fun i hi => getD_map_range _ hi,
    rfl, rfl⟩

theorem bar4Access_waits (s : State) (a : Nat) (data : List (Option Byte)) (ho : s.barOpen = true) (hc : s.barClosed = false)
    (hcore : s.coreRuns = false) (hsize : 0x10000 + a + data.length ≤ 2 ^ s.rd .dma R.PCIE_STATUS.bar4_log2)
    (hin : s.dramIn a data.length = true) : Completes (.bar4Access true (0x10000 + a) data) s (fun t =>
      t.host.hostIn = s.host.hostIn ++ [.dram a data] ∧ t.mem = s.mem ∧ SameOutside .dma s t) := by
  have hop := (bar4Access_dramWrite ⟨ho, hc, hsize⟩ hin).trans (show hostWrite (.dram a data) s = hostInWait (.dram a data) s from
    if_neg (by simp [hcore]))
  obtain ⟨hwait, -, hmem, hout⟩ := hostInWait_waits (.dram a data) s
  exact ⟨_, (exec_bar4Access true _ data s).trans (congrArg _ hop), hwait, hmem, hout⟩

/-- The byte an access leaves, as the statement of O50 writes it. -/
theorem enabledByte_getD (a : Nat) (data : List (Option Byte)) (x : Nat) (b : Byte) :
    (enabledByte a data x).getD b = match (if a ≤ x then data.getD (x - a) none else none) with
      | some v => v
      | none => b := by
  unfold enabledByte
  cases (if a ≤ x then data.getD (x - a) none else none) <;> rfl

/-- What an access establishes follows from any equivalent account of it. -/
theorem completes_imp {c : Instr} {s : State} {p q : State → Prop} (h : Completes c s p) (hpq : ∀ t, p t → q t) : Completes c s q := by
  obtain ⟨t, ht, hp⟩ := h
  exact ⟨t, ht, hpq t hp⟩

/-- Settles O50: each access is followed to the one case of BAR2 or BAR4 it falls in; the bytes it leaves are those of the windows that
its lines and words cut from it, when no word or line holds an error. -/
theorem hostAccesses : Obligations.HostAccesses := by
  unfold Obligations.HostAccesses
  refine ⟨?_, bar2Write_refused, bar2Write_aborts, bar2Read_reads, bar2Read_poisoned, bar2Read_aborts, ?_, bar4Access_readsTable,
    bar4Access_readsPending, bar4Access_aborts, ?_, ?_, bar2Write_waits, ?_⟩
  · intro s off data ho hc hcore hbase hend hbad
    exact completes_imp (bar2Write_writes s off data ho hc hcore hbase hend hbad)
      (fun t ⟨hbytes, hrest⟩ => ⟨fun x => (hbytes x).trans (enabledByte_getD ..), hrest⟩)
  · intro s off data ho hc hsize ht
    exact completes_imp (bar4Access_writesTable s off data ho hc hsize ht)
      (fun t ⟨hbytes, hrest⟩ => ⟨fun x => (hbytes x).trans (enabledByte_getD ..), hrest⟩)
  · intro s a data ho hc hsize hin hcore hready _ hbad
    exact completes_imp (bar4Access_writesDram s a data ho hc hsize hin hcore hready hbad)
      (fun t ⟨hbytes, hrest⟩ => ⟨fun x => (hbytes x).trans (enabledByte_getD ..), hrest⟩)
  · exact fun s a data ho hc hsize hin hcore hopen _ hbad => bar4Access_readsDram s a data ho hc hsize hin hcore hopen hbad
  · exact fun s a data ho hc hcore hsize hin _ => bar4Access_waits s a data ho hc hcore hsize hin

end Sys2Proof.Proofs
namespace Sys2Proof.Proofs
open Sys2Proof Sys2Proof.Machine Sys2Proof.Laws

/-! ### A wedge beside a stray placement job (R23) -/

/-- The index at which a declaration entry would lie over the header of core 0, its third word over BLOCK_STATUS: the table of 128 entries
ends long before it. -/
def strayEntry : Nat := ((Blk.core 0).base - (Blk.placement.base + 0x2000)) / 0x40

/-- Core 0 has not acknowledged a quiesce for 100 µs of running clock; a job waits to reload the stray entry. -/
def strayState : State :=
  let s := { State.reset with dev := .ready }
  let s := (s.wr .clocks R.CLK_STATUS.locked 1).wr (.core 0) R.BLOCK_STATUS.enabled 1
  let s := setQuiescedAt (.core 0) (some ⟨0, none⟩) (s.wr (.core 0) R.BLOCK_STATUS.quiescing 1)
  { s with
    tim := { s.tim with raw := 100 * usUnits }
    pl := { s.pl with jobs := [⟨[], .reload strayEntry⟩] } }

/-- The wedge lets the placement engine settle the waiting job, and the entry it writes is the status word of core 0. -/
theorem strayState_unwedged : (opWedged (.blk (.core 0)) strayState).rd (.core 0) R.BLOCK_STATUS.wedged = 0 := by decide +kernel

/-- Refutes O11, in its clause on the wedge of a block: where a placement job names a declaration entry beyond the table, settling that
job right after the wedge overwrites BLOCK_STATUS.wedged. The statement has no hypothesis that keeps the entries of jobs below 128; its
clause on the sample crossbar, which rests on log 31, plays no part. -/
theorem not_blockHandshake : ¬ Obligations.BlockHandshake := by
  unfold Obligations.BlockHandshake
  rintro ⟨-, -, -, -, -, -, -, -, hwedge, -⟩
  obtain ⟨t, ht, hset, -⟩ := hwedge strayState (.core 0) 0 (by decide) rfl (by decide) (by decide) (by decide) (by decide) (by decide)
  obtain rfl : opWedged (.blk (.core 0)) strayState = t := Host.Outcome.next.inj ht
  exact absurd (strayState_unwedged.symm.trans hset) (by decide)

end Sys2Proof.Proofs
namespace Sys2Proof.Proofs
open Sys2Proof Sys2Proof.Machine Sys2Proof.Laws

/-! ### Commands of DEVICE_CTRL that are rejected (R45) -/

/-- Command `c` was rejected: its number and the status of a rejection show, and nothing but registers differs. -/
structure CommandRejected (c : Nat) (s t : State) : Prop where
  only : OnlyRegs s t
  cmd : t.rd .global R.DEVICE_CTRL.last_cmd = c
  status : t.rd .global R.DEVICE_CTRL.last_status = 2

theorem devStatus_rejected {c : Nat} (hc : c < 8) (s : State) : CommandRejected c s (devStatus c 2 s) :=
  ⟨onlyRegs_devStatus c 2 s, (devStatus_shown c 2 hc (by decide) s).1, (devStatus_shown c 2 hc (by decide) s).2⟩

theorem CommandRejected.of_onlyRegs {c : Nat} {s t u : State} (h : CommandRejected c t u) (hs : OnlyRegs s t) : CommandRejected c s u :=
  ⟨hs.trans h.only, h.cmd, h.status⟩

theorem devRun_unlisted {s : State} (hg : s.globalOpen = true) (h : s.dev ≠ .ready) : devRun s = devStatus 1 2 s := by
  unfold devRun
  rw [if_neg (by simp [hg]), if_pos h]

theorem devStop_unlisted {s : State} (hg : s.globalOpen = true) (h : s.dev ≠ .run) : devStop s = devStatus 2 2 s := by
  unfold devStop
  rw [if_neg (by simp [hg]), if_pos h]

theorem devStandby_unlisted {s : State} (hg : s.globalOpen = true) (h : s.dev ≠ .ready) : devStandby s = devStatus 3 2 s := by
  unfold devStandby
  rw [if_neg (by simp [hg]), if_pos (.inl h)]

theorem devWake_unlisted {s : State} (hg : s.globalOpen = true) (h : s.dev ≠ .standby) : devWake s = devStatus 4 2 s := by
  unfold devWake
  rw [if_neg (by simp [hg]), if_pos h]

theorem devReset_keyless {s : State} {key : Nat} (hg : s.globalOpen = true) (h : key ≠ 0xA5) :
    devReset key s = devStatus 5 2 (s.wr .global R.DEVICE_CTRL.key key) := by
  unfold devReset
  dsimp only
  rw [if_neg (by simp [hg]), if_neg h]

/-- One command whose transition R15 does not list, or a full_reset without its key. -/
theorem devCommand_unlisted {s : State} {set k : Nat} {v : BitVec 64} (hg : s.globalOpen = true)
    (hset : (List.range 5).filter (nbit set) = [k]) (h : listedTransition s.dev v k = false) :
    CommandRejected (k + 1) s (devCommand set ((v >>> 8).toNat % 256) s) := by
  have hk : k < 5 := List.mem_range.1 (List.mem_of_mem_filter (hset ▸ List.mem_singleton_self k))
  unfold devCommand
  rw [hset]
  match k, hk with
  | 0, _ => exact devRun_unlisted hg (of_decide_eq_false h) ▸ devStatus_rejected (by decide) s
  | 1, _ => exact devStop_unlisted hg (of_decide_eq_false h) ▸ devStatus_rejected (by decide) s
  | 2, _ => exact devStandby_unlisted hg (of_decide_eq_false h) ▸ devStatus_rejected (by decide) s
  | 3, _ => exact devWake_unlisted hg (of_decide_eq_false h) ▸ devStatus_rejected (by decide) s
  | 4, _ =>
    exact devReset_keyless hg (of_decide_eq_false h) ▸ (devStatus_rejected (by decide) _).of_onlyRegs (onlyRegs_wr s _ _ _)

/-- Several commands in one write: the lowest is named. -/
theorem devCommand_several {s : State} {set key k : Nat} {ks : List Nat} (hset : (List.range 5).filter (nbit set) = k :: ks)
    (hne : ks ≠ []) : CommandRejected (k + 1) s (devCommand set key s) := by
  have hk : k < 5 := List.mem_range.1 (List.mem_of_mem_filter (hset ▸ List.mem_cons_self))
  unfold devCommand
  rw [hset]
  cases ks with
  | nil => exact absurd rfl hne
  | cons j js => exact devStatus_rejected (by omega) s

/-! ### The write to DEVICE_CTRL -/

/-- The low half of a word is written as the access gives it, in either width. -/
theorem writeValue_mod {o w : Nat} (ho : o % 8 = 0) (hw : w = 32 ∨ w = 64) (v : BitVec 64) :
    writeValue o w v.toNat % 2 ^ 32 = v.toNat % 2 ^ 32 := by
  obtain rfl | rfl := hw
  · simp [writeValue, ho]
  · simp [writeValue]

/-- The command bits that a write sets. -/
theorem commandBits_written {w : Nat} (hw : w = 32 ∨ w = 64) (v : BitVec 64) :
    (List.range 5).filter (nbit (Nat.land (Nat.land 0x1F (coverMask 0x110 w)) (writeValue 0x110 w v.toNat))) = deviceCommands v := by
  have hmask : Nat.land 0x1F (coverMask 0x110 w) = 0x1F := by obtain rfl | rfl := hw <;> rfl
  refine List.filter_congr fun i hi => ?_
  have hi : i < 5 := List.mem_range.1 hi
  have hlow : ∀ x : Nat, (x % 2 ^ 32).testBit i = x.testBit i := fun x => by
    rw [Nat.testBit_mod_two_pow, decide_eq_true (by omega), Bool.true_and]
  rw [hmask, nbit_eq_testBit]
  change ((2 ^ 5 - 1) &&& _).testBit i = _
  rw [Nat.testBit_and, Nat.testBit_two_pow_sub_one, decide_eq_true hi, Bool.true_and, ← hlow, writeValue_mod rfl hw, hlow]
  rfl

/-- The key that a write gives. -/
theorem key_written {w : Nat} (hw : w = 32 ∨ w = 64) (v : BitVec 64) :
    nbits (writeValue 0x110 w v.toNat) 15 8 = (v >>> 8).toNat % 256 := by
  have h := writeValue_mod (o := 0x110) rfl hw v
  rw [BitVec.toNat_ushiftRight, Nat.shiftRight_eq_div_pow]
  unfold nbits
  omega

/-- An access to DEVICE_CTRL decodes to its word: only the key takes a write, and the command bits are W1S. -/
theorem accessAt_deviceCtrl {w : Nat} (hw : w = 32 ∨ w = 64) :
    accessAt 0x110 w = some (.global, 0x110, ⟨0x110, 4, ⟨0xFF00, 0, 0, 0x1F⟩⟩) := by
  obtain rfl | rfl := hw
  · decide
  · decide

theorem accessed_queue (p : Port) (s : State) : (accessed p s).queue = s.queue := by
  change (regFerries p s).queue = _
  exact onlyRegs_queue (writesOnly_regFerries p s).only

/-- A write to DEVICE_CTRL gives the commands of its word to the state in which its own bits stand. -/
theorem exec_deviceCtrlWrite {s : State} {w : Nat} (v : BitVec 64) (hoff : s.dev ≠ .off) (hboot : s.dev ≠ .boot)
    (hb : s.barOpen = true) (hw : w = 32 ∨ w = 64) : ∃ set u, OnlyRegs (accessed .host s) u ∧
      (List.range 5).filter (nbit set) = deviceCommands v ∧
      exec (.registerWrite .host 0x110 w v) s = .next (devCommand set ((v >>> 8).toNat % 256) u) := by
  refine ⟨_, _, (writesOnly_writeBits .host .global 0x110 (coverMask 0x110 w) (writeValue 0x110 w v.toNat) ⟨0xFF00, 0, 0, 0x1F⟩ _).only,
    commandBits_written hw v, ?_⟩
  rw [exec_registerWrite_accepted (portLive_host hoff hb) (accessAt_deviceCtrl hw) hboot rfl, ← key_written hw]
  rfl

/-- Settles O10: the write stores its own bits, its command bits come to `devCommand`, and each way to a rejection ends in `devStatus`,
which touches registers alone. -/
theorem deviceCtrlRejects : Obligations.DeviceCtrlRejects := by
  unfold Obligations.DeviceCtrlRejects
  intro s w v k ks hoff hboot hb hw hcmds hrej
  obtain ⟨set, u, hu, hset, hexec⟩ := exec_deviceCtrlWrite v hoff hboot hb hw
  have hdev : u.dev = s.dev := (onlyRegs_dev hu).trans (accessed_dev .host s)
  rw [hcmds] at hset
  have hres : CommandRejected (k + 1) u (devCommand set ((v >>> 8).toNat % 256) u) := by
    by_cases hks : ks = []
    · subst hks
      have hun : listedTransition u.dev v k = false := hdev ▸ hrej.resolve_left (absurd rfl)
      exact devCommand_unlisted (globalOpen_of (hdev ▸ hoff) (hdev ▸ hboot)) hset hun
    · exact devCommand_several hset hks
  have hall := hu.trans hres.only
  exact ⟨_, hexec, hres.status, hres.cmd, (onlyRegs_dev hall).trans (accessed_dev .host s), (onlyRegs_mem hall).trans (accessed_mem .host s),
    (onlyRegs_cores hall).trans (accessed_cores .host s), (onlyRegs_queue hall).trans (accessed_queue .host s)⟩

end Sys2Proof.Proofs
namespace Sys2Proof.Proofs
open Sys2Proof Sys2Proof.Machine Sys2Proof.Laws

/-! ### Requests to the muster unit (R39, R40) -/

theorem exec_musterFire {s : State} (hoff : s.dev ≠ .off) (hboot : s.dev ≠ .boot) : exec .musterFire s = .next (opMusterFire s) :=
  congrArg Host.Outcome.next (if_neg (by simp [hoff, hboot]))
theorem exec_schedArm {s : State} (hoff : s.dev ≠ .off) (hboot : s.dev ≠ .boot) : exec .schedArm s = .next (opSchedArm s) :=
  congrArg Host.Outcome.next (if_neg (by simp [hoff, hboot]))
theorem exec_rearm {s : State} (hoff : s.dev ≠ .off) (hboot : s.dev ≠ .boot) : exec .rearm s = .next (opRearm s) :=
  congrArg Host.Outcome.next (if_neg (by simp [hoff, hboot]))
theorem exec_musterInEdge (falling : Bool) (s : State) : exec (.musterInEdge falling) s = .next (opMusterInEdge falling s) := rfl
theorem exec_scheduledMuster (s : State) : exec .scheduledMuster s = .next (opScheduledMuster s) := rfl
theorem exec_muster (s : State) : exec .muster s = .next (opMuster s) := rfl
theorem exec_busyClear (s : State) : exec .busyClear s = .next (opBusyClear s) := rfl
theorem exec_musterOutEnd (s : State) : exec .musterOutEnd s = .next (opMusterOutEnd s) := rfl

theorem musterRefuses_of_ready {s : State} (ha : s.rd .muster R.MUSTER_STATUS.armed = 1) (hb : s.rd .muster R.MUSTER_STATUS.busy = 0) :
    s.musterRefuses = false := by
  simp [State.musterRefuses, State.flag, ha, hb]

theorem musterRefuses_of_not_ready {s : State} (h : s.rd .muster R.MUSTER_STATUS.armed = 0 ∨ s.rd .muster R.MUSTER_STATUS.busy = 1) :
    s.musterRefuses = true := by
  obtain h | h := h <;> simp [State.musterRefuses, State.flag, h]

/-- A request that the unit accepts waits for the next tick. -/
theorem requestMuster_accepted {s : State} (m : Nat) (h : s.musterRefuses = false) :
    requestMuster m s = { s with muster.req := s.muster.req ||| BitVec.ofNat 5 m } :=
  if_neg (by simp [h])

theorem requestMuster_declined {s : State} (m : Nat) (ht : s.timeRuns = true) (h : s.musterRefuses = true) :
    requestMuster m s = declineMuster m s :=
  if_pos (by simp [ht, h])

/-- MUSTER_CTRL.fire is no part of what the unit looks at. -/
theorem musterRefuses_fire (s : State) (v : Nat) : (s.wr .muster R.MUSTER_CTRL.fire v).musterRefuses = s.musterRefuses := by
  unfold State.musterRefuses State.flag
  rw [rd_wr_keep _ _ _ _ _ (by decide), rd_wr_keep _ _ _ _ _ (by decide)]

theorem timeRuns_fire (s : State) (v : Nat) : (s.wr .muster R.MUSTER_CTRL.fire v).timeRuns = s.timeRuns := by
  unfold State.timeRuns State.timeGated State.flag
  rw [rd_wr_slot _ _ (by decide) (by decide) (by decide)]
  rfl

/-- A declined request of software clears fire, is counted, and is named (R40). -/
theorem declineMuster_fire (s : State) : (declineMuster 1 s).muster = s.muster ∧
    (declineMuster 1 s).rd .muster R.MUSTER_CTRL.fire = 0 ∧
    (declineMuster 1 s).rd .muster R.MUSTER_DECLINED.count = min (s.rd .muster R.MUSTER_DECLINED.count + 1) (2 ^ 32 - 1) ∧
    nbit ((declineMuster 1 s).rd .muster R.MUSTER_STATUS.last_declined_sources) 0 = true := by
  have hop : declineMuster 1 s = (let u := s.cnt .muster R.MUSTER_DECLINED.count 1
      (u.wr .muster R.MUSTER_STATUS.last_declined_sources (Nat.lor (u.rd .muster R.MUSTER_STATUS.last_declined_sources) (2 ^ 0))).wr
        .muster R.MUSTER_CTRL.fire 0) := rfl
  rw [hop]
  dsimp only
  refine ⟨by simp, rd_wr_val _ _ _ _ (by decide), ?_, ?_⟩
  · rw [rd_wr_keep _ _ _ _ _ (by decide), rd_wr_keep _ _ _ _ _ (by decide), rd_cnt_val _ _ _ _ (by decide)]
    rfl
  · rw [rd_wr_keep _ _ _ _ _ (by decide), rd_wr_val _ _ _ _ (by decide), nbit_eq_testBit, Nat.testBit_mod_two_pow,
      ← nbit_eq_testBit, nbit_lor_self]
    rfl

theorem musterFire_requests (s : State) (hoff : s.dev ≠ .off) (hboot : s.dev ≠ .boot) (ha : s.rd .muster R.MUSTER_STATUS.armed = 1)
    (hb : s.rd .muster R.MUSTER_STATUS.busy = 0) : Completes .musterFire s (fun t =>
      t.muster.req = s.muster.req ||| 1 ∧ t.rd .muster R.MUSTER_CTRL.fire = 1 ∧
      t.rd .muster R.MUSTER_DECLINED.count = s.rd .muster R.MUSTER_DECLINED.count) := by
  have hop := requestMuster_accepted 1 ((musterRefuses_fire s 1).trans (musterRefuses_of_ready ha hb))
  exact ⟨_, (exec_musterFire hoff hboot).trans (congrArg _ hop), rfl, rd_wr_val s _ R.MUSTER_CTRL.fire 1 (by decide),
    rd_wr_keep s _ R.MUSTER_CTRL.fire _ 1 (by decide)⟩

theorem musterFire_declined (s : State) (hoff : s.dev ≠ .off) (hboot : s.dev ≠ .boot) (ht : s.timeRuns = true)
    (h : s.rd .muster R.MUSTER_STATUS.armed = 0 ∨ s.rd .muster R.MUSTER_STATUS.busy = 1) : Completes .musterFire s (fun t =>
      t.muster.req = s.muster.req ∧ t.rd .muster R.MUSTER_CTRL.fire = 0 ∧
      t.rd .muster R.MUSTER_DECLINED.count = min (s.rd .muster R.MUSTER_DECLINED.count + 1) (2 ^ 32 - 1) ∧
      nbit (t.rd .muster R.MUSTER_STATUS.last_declined_sources) 0 = true) := by
  have hop := requestMuster_declined 1 ((timeRuns_fire s 1).trans ht) ((musterRefuses_fire s 1).trans (musterRefuses_of_not_ready h))
  obtain ⟨hmuster, hfire, hcount, hnamed⟩ := declineMuster_fire (s.wr .muster R.MUSTER_CTRL.fire 1)
  rw [rd_wr_keep _ _ _ _ _ (by decide)] at hcount
  exact ⟨_, (exec_musterFire hoff hboot).trans (congrArg _ hop), congrArg MusterSt.req hmuster, hfire, hcount, hnamed⟩

theorem musterInEdge_requests (s : State) (falling : Bool) (ht : s.timeRuns = true) (hen : s.flag .muster R.MUSTER_CTRL.in_enable = true)
    (hedge : s.flag .muster R.MUSTER_CTRL.in_edge = falling) (ha : s.rd .muster R.MUSTER_STATUS.armed = 1)
    (hb : s.rd .muster R.MUSTER_STATUS.busy = 0) : Completes (.musterInEdge falling) s (fun t =>
      t.muster.req = s.muster.req ||| 2 ∧ t.regs = s.regs) := by
  have hop : opMusterInEdge falling s = _ := (if_pos (by simp [ht, hen, hedge])).trans
    (requestMuster_accepted 2 (musterRefuses_of_ready ha hb))
  exact ⟨_, (exec_musterInEdge falling s).trans (congrArg _ hop), rfl, rfl⟩

theorem schedArm_arms (s : State) (hoff : s.dev ≠ .off) (hboot : s.dev ≠ .boot) : Completes .schedArm s (fun t =>
    t.rd .muster R.MUSTER_CTRL.sched_arm = 1 ∧ SameOutside .muster s t) :=
  ⟨_, exec_schedArm hoff hboot, rd_wr_val s _ R.MUSTER_CTRL.sched_arm 1 (by decide),
    (writesOnly_wr s 1 (inSlot_base .muster (by decide))).sameOutside fun _ h => h⟩

theorem scheduledMuster_requests (s : State) (ht : s.timeRuns = true) (harm : s.flag .muster R.MUSTER_CTRL.sched_arm = true)
    (ha : s.rd .muster R.MUSTER_STATUS.armed = 1) (hb : s.rd .muster R.MUSTER_STATUS.busy = 0)
    (hnow : ofT96 (s.rdT96 .muster R.MUSTER_SCHED_T96.lo) ≤ s.tim.now) : Completes .scheduledMuster s (fun t =>
      t.muster.req = s.muster.req ||| 4 ∧ t.regs = s.regs) := by
  have hop : opScheduledMuster s = _ := (if_pos (by simp [ht, harm, hnow])).trans
    (requestMuster_accepted 4 (musterRefuses_of_ready ha hb))
  exact ⟨_, (exec_scheduledMuster s).trans (congrArg _ hop), rfl, rfl⟩

/-! ### What the capture of the snapshots writes (R41, R403) -/

/-- The register words a capture may write: SNAP_SEQ, the pending interrupts of a core, and the snapshot pages. -/
def CaptureWord (a : Nat) : Prop := a % 0x10000 = R.SNAP_SEQ.seq.off ∨ a % 0x10000 = R.INT_PEND.pending.off ∨ 0x800 ≤ a % 0x10000

theorem captureWord_page (b : Blk) {o : Nat} (hlo : 0x800 ≤ o) (hhi : o < 0x10000) : CaptureWord (b.base + o) :=
  .inr (.inr ((base_add_mod b hhi).symm ▸ hlo))

/-- The snapshot copies of a register row stand in the upper half of its block's first 4 KiB page, or above. -/
theorem snap_in_page (b : Blk) : ∀ r ∈ b.rows, r.snap = 0 ∨ (0x800 ≤ r.snap ∧ rowEnd r.copies ≤ 0x10000) := by
  cases b <;> (dsimp only [Blk.rows]; decide)

theorem offsets_copies {r : RegRow} {o : Nat × Nat} (h : o ∈ r.offsets) : r.snap ≤ o.2 ∧ o.2 < rowEnd r.copies := by
  unfold RegRow.offsets at h
  obtain ⟨k, hk, h⟩ := List.mem_flatMap.1 h
  obtain ⟨w, hw, rfl⟩ := List.mem_map.1 h
  have hk := List.mem_range.1 hk
  have hw := List.mem_range.1 hw
  have hstride : k * r.snapStride ≤ (r.n - 1) * r.snapStride := Nat.mul_le_mul_right _ (by omega)
  unfold rowEnd RegRow.copies
  dsimp only
  omega

theorem writesOnly_setWord {W : Nat → Prop} (s : State) {a : Nat} (w : Word) (h : W a) : WritesOnly W s (s.setWord a w) :=
  ⟨onlyRegs_setWord s a w, fun x hx => by rw [word_setWord, if_neg (by rintro rfl; exact hx h)]⟩

theorem writesOnly_captureRow {b : Blk} {r : RegRow} (hr : r ∈ b.rows) (s : State) : WritesOnly CaptureWord s (captureRow b r s) := by
  unfold captureRow
  split
  · exact .refl _ s
  · next h =>
    obtain ⟨hlo, hhi⟩ := (snap_in_page b r hr).resolve_left (fun h0 => h (.inl h0))
    refine .each _ _ (fun o ho st => writesOnly_setWord st _ ?_) s
    have ho := offsets_copies ho
    exact captureWord_page b (hlo.trans ho.1) (ho.2.trans_le hhi)

theorem writesOnly_captureBlk (b : Blk) (s : State) : WritesOnly CaptureWord s (captureBlk b s) := by
  have seqNoted : ∀ u, WritesOnly CaptureWord s u → WritesOnly CaptureWord s
      (if u.domRuns b.dom then u.wr b R.SNAP_SEQ.seq (u.rd .muster R.MUSTER_SEQ.seq) else u) := fun u hu => by
    split
    · exact hu.wr _ (.inl (base_add_mod b (by decide)))
    · exact hu
  have hrows : WritesOnly CaptureWord s (s.each b.rows (captureRow b)) := .each _ _ (fun r hr st => writesOnly_captureRow hr st) s
  unfold captureBlk
  refine seqNoted _ ?_
  cases b with
  | core i =>
    dsimp only
    split
    · have hfile := hrows.trans (WritesOnly.each (List.range 248)
        (fun k st => st.setWord ((Blk.core i).base + 0x2000 + 8 * k) (st.live (.core i) (0x1000 + 8 * k))) (fun k hk st => by
          have hk := List.mem_range.1 hk
          refine writesOnly_setWord st _ ?_
          rw [Nat.add_assoc]
          exact captureWord_page _ (by omega) (by omega)) _)
      exact (hfile.wr _ (.inr (.inl (base_add_mod (.core i) (by decide))))).trans
        (writesOnly_wrw _ _ (captureWord_page _ (by decide) (by decide)))
    · exact hrows
  | _ => exact hrows

section Trace
variable {W : Nat → Prop} {s t : State}

theorem HostKeeps.when (h : HostKeeps W s t) (c : Bool) {g : Op} (hg : HostKeeps W t (g t)) : HostKeeps W s (t.when c g) := by
  unfold State.when
  split
  · exact h.trans hg
  · exact h

/-- The trace's own registers lie in OBSERVE. -/
theorem hostKeeps_tracePut (e : Nat) (s : State) : HostKeeps (InSlot .observe) s (tracePut e s) := by
  have own : ∀ {o : Nat}, o < 0x10000 → InSlot .observe (Blk.observe.base + o) := inSlot_base .observe
  unfold tracePut
  dsimp only
  refine HostKeeps.when ?_ _ (((HostKeeps.refl _ _).wr _ (own (by decide))).wr _ (own (by decide)))
  refine HostKeeps.wr (HostKeeps.cnt ?_ _ (own (by decide))) _ (own (by decide))
  exact (HostKeeps.refl _ s).same rfl rfl

theorem hostKeeps_traceSlot (e : Nat) (s : State) : HostKeeps (InSlot .observe) s (traceSlot e s) := (hostKeeps_tracePut e s).same rfl rfl

theorem hostKeeps_traceDrop (s : State) : HostKeeps (InSlot .observe) s (traceDrop s) :=
  ((HostKeeps.refl _ s).cnt 1 (inSlot_base .observe (by decide))).same rfl rfl

theorem hostKeeps_traceWrite (ty ix arg : Nat) (s : State) : HostKeeps (InSlot .observe) s (traceWrite ty ix arg s) := by
  have entry : ∀ (e : Nat) (u : State), HostKeeps (InSlot .observe) s u →
      HostKeeps (InSlot .observe) s (if !u.tracing then u else if u.slotTaken then traceDrop u else traceSlot e u) := fun e u hu => by
    split
    · exact hu
    · split
      · exact hu.trans (hostKeeps_traceDrop u)
      · exact hu.trans (hostKeeps_traceSlot e u)
  unfold traceWrite
  split
  · exact .refl _ s
  · split
    · exact hostKeeps_traceDrop s
    · refine entry _ _ ?_
      split
      · exact .refl _ s
      · exact (hostKeeps_traceSlot _ s).same rfl rfl

end Trace

/-- The mark of a muster is OBSERVE's own affair. -/
theorem hostKeeps_obsMuster (s : State) : HostKeeps (InSlot .observe) s (obsMuster s) := by
  unfold obsMuster
  split
  · exact .refl _ s
  · dsimp only
    split
    · exact (hostKeeps_traceWrite _ _ _ s).wr _ (inSlot_base .observe (by decide))
    · exact hostKeeps_traceWrite _ _ _ s

theorem onlyObs_obsMuster (s : State) : OnlyObs s (obsMuster s) := by
  unfold obsMuster
  split
  · exact .refl s
  · dsimp only
    split
    · exact (onlyObs_traceWrite _ _ _ s).trans (onlyRegs_wr _ _ _ _).obs
    · exact onlyObs_traceWrite _ _ _ s

/-- The captures and the trace leave the muster unit's own words, its state and its pin. -/
theorem muster_after_capture (u : State) : (obsMuster (u.each Blk.all captureBlk)).muster = u.muster ∧
    (obsMuster (u.each Blk.all captureBlk)).pins = u.pins ∧
    ∀ f : Fld, f.off < 0x800 → f.off ≠ R.SNAP_SEQ.seq.off → f.off ≠ R.INT_PEND.pending.off →
      (obsMuster (u.each Blk.all captureBlk)).rd .muster f = u.rd .muster f := by
  have hcap : WritesOnly CaptureWord u (u.each Blk.all captureBlk) := .each _ _ (fun b _ s => writesOnly_captureBlk b s) u
  generalize u.each Blk.all captureBlk = t at hcap ⊢
  have hobs := hcap.only.obs.trans (onlyObs_obsMuster t)
  refine ⟨by rw [hobs], by rw [hobs], fun f hlt hseq hint => ?_⟩
  have hplace : f.off < 0x10000 := by omega
  rw [(hostKeeps_obsMuster t).rd fun h => absurd (h.symm.trans (inSlot_base .muster hplace)) (by decide)]
  refine hcap.rd ?_
  unfold CaptureWord
  rw [base_add_mod _ hplace]
  omega

/-- So MUSTER_OUT stays high where it was raised before the captures. -/
theorem musterOut_after_capture (u : State) :
    (obsMuster (({ u with pins.musterOut := true } : State).each Blk.all captureBlk)).muster = u.muster ∧
    (obsMuster (({ u with pins.musterOut := true } : State).each Blk.all captureBlk)).pins.musterOut = true ∧
    ∀ f : Fld, f.off < 0x800 → f.off ≠ R.SNAP_SEQ.seq.off → f.off ≠ R.INT_PEND.pending.off →
      (obsMuster (({ u with pins.musterOut := true } : State).each Blk.all captureBlk)).rd .muster f = u.rd .muster f := by
  obtain ⟨hunit, hpins, hrd⟩ := muster_after_capture { u with pins.musterOut := true }
  exact ⟨hunit, congrArg PinSt.musterOut hpins, hrd⟩

/-! ### The muster (R43) -/

/-- What a muster from the sources `src` sets first: busy, its number and its sources. -/
def musterCounted (src : Nat) (s : State) : State :=
  let s := (s.wr .muster R.MUSTER_STATUS.busy 1).wr .muster R.MUSTER_STATUS.armed 0
  let s := s.wr .muster R.MUSTER_SEQ.seq (s.rd .muster R.MUSTER_SEQ.seq + 1)
  s.wr .muster R.MUSTER_STATUS.last_sources src

/-- Then the commands that the muster answers clear. -/
def commandsAnswered (src : Nat) (s : State) : State :=
  let s := s.when (nbit src 0) (fun s => s.wr .muster R.MUSTER_CTRL.fire 0)
  s.when (nbit src 2) (fun s => s.wr .muster R.MUSTER_CTRL.sched_arm 0)

/-- And its time and what it missed show. -/
def musterNoted (src : Nat) (s : State) : State :=
  let s := commandsAnswered src s
  let s := s.wrT96 .muster R.MUSTER_T96.lo s.nowT96
  let s := s.wr .muster R.MUSTER_BOUND.bound s.bTb
  let s := s.wr .muster R.MUSTER_STATUS.missed_domains s.missedDomains
  let s := s.wr .muster R.MUSTER_STATUS.missed_link (if s.missedLinks = 0 then 0 else 1)
  let s := s.wr .muster R.MUSTER_MISSED_LINK.rxg s.missedLinks
  s.wr .muster R.MUSTER_MISSED_LINK.txg (s.missedLinks / 2 ^ 16)

/-- Which registers these are, whatever they show. -/
theorem musterNoted_shape (src : Nat) (s : State) : ∃ (t : T96) (bound domains link rxg txg : Nat), musterNoted src s =
    ((((((commandsAnswered src s).wrT96 .muster R.MUSTER_T96.lo t).wr .muster R.MUSTER_BOUND.bound bound).wr .muster
      R.MUSTER_STATUS.missed_domains domains).wr .muster R.MUSTER_STATUS.missed_link link).wr .muster R.MUSTER_MISSED_LINK.rxg rxg).wr
        .muster R.MUSTER_MISSED_LINK.txg txg :=
  ⟨_, _, _, _, _, _, rfl⟩

theorem musterCounted_shown (src : Nat) (hsrc : src < 32) (s : State) :
    (musterCounted src s).rd .muster R.MUSTER_STATUS.busy = 1 ∧ (musterCounted src s).rd .muster R.MUSTER_STATUS.armed = 0 ∧
    (musterCounted src s).rd .muster R.MUSTER_SEQ.seq = (s.rd .muster R.MUSTER_SEQ.seq + 1) % 2 ^ 32 ∧
    (musterCounted src s).rd .muster R.MUSTER_STATUS.last_sources = src ∧
    (musterCounted src s).rd .muster R.MUSTER_CTRL.out_enable = s.rd .muster R.MUSTER_CTRL.out_enable := by
  unfold musterCounted
  simp (disch := decide) only [rd_wr_keep, rd_wr_val]
  exact ⟨rfl, rfl, rfl, Nat.mod_eq_of_lt hsrc, trivial⟩

theorem when_true (s : State) (g : Op) : s.when true g = g s := rfl

theorem rd_whenWr_keep (s : State) (c : Bool) (b : Blk) (f g : Fld) (v : Nat)
    (h : g.off ≠ f.off ∨ g.lo + g.width ≤ f.lo ∨ f.lo + f.width ≤ g.lo) : (s.when c (fun s => s.wr b f v)).rd b g = s.rd b g := by
  unfold State.when
  split
  · exact rd_wr_keep s b f g v h
  · rfl

theorem rd_wrT96_keep (s : State) (b : Blk) (f g : Fld) (t : T96) (hlo : g.off ≠ f.off) (hhi : g.off ≠ f.off + 8) :
    (s.wrT96 b f t).rd b g = s.rd b g := by
  unfold State.wrT96
  rw [rd_wrw_ne _ _ _ _ _ _ (fun e => hhi (Nat.add_left_cancel e)), rd_wrw_ne _ _ _ _ _ _ (fun e => hlo (Nat.add_left_cancel e))]

/-- The fields that `musterNoted` writes beside the time. -/
def notedFields : List Fld :=
  [R.MUSTER_CTRL.fire, R.MUSTER_CTRL.sched_arm, R.MUSTER_BOUND.bound, R.MUSTER_STATUS.missed_domains, R.MUSTER_STATUS.missed_link,
    R.MUSTER_MISSED_LINK.rxg, R.MUSTER_MISSED_LINK.txg]

theorem musterNoted_rd (src : Nat) (s : State) {f : Fld} (hlo : f.off ≠ R.MUSTER_T96.lo.off) (hhi : f.off ≠ R.MUSTER_T96.lo.off + 8)
    (h : ∀ g ∈ notedFields, f.off ≠ g.off ∨ f.lo + f.width ≤ g.lo ∨ g.lo + g.width ≤ f.lo) :
    (musterNoted src s).rd .muster f = s.rd .muster f := by
  obtain ⟨t, bound, domains, link, rxg, txg, hop⟩ := musterNoted_shape src s
  have keep : ∀ g ∈ notedFields, ∀ (u : State) (v : Nat), (u.wr .muster g v).rd .muster f = u.rd .muster f := fun g hg u v =>
    rd_wr_keep u .muster g f v (h g hg)
  rw [hop]
  unfold commandsAnswered
  simp (disch := decide) only [keep]
  rw [rd_wrT96_keep _ _ _ _ _ hlo hhi, rd_whenWr_keep _ _ _ R.MUSTER_CTRL.sched_arm f _ (h _ (by decide)),
    rd_whenWr_keep _ _ _ R.MUSTER_CTRL.fire f _ (h _ (by decide))]

theorem onlyRegs_commandsAnswered (src : Nat) (s : State) : OnlyRegs s (commandsAnswered src s) := by
  unfold commandsAnswered
  exact (onlyRegs_when s _ _ (onlyRegs_wr _ _ _ _)).trans (onlyRegs_when _ _ _ (onlyRegs_wr _ _ _ _))

theorem onlyRegs_musterNoted (src : Nat) (s : State) : OnlyRegs s (musterNoted src s) := by
  obtain ⟨t, bound, domains, link, rxg, txg, hop⟩ := musterNoted_shape src s
  have htime := ((onlyRegs_commandsAnswered src s).trans (onlyRegs_wrw _ .muster R.MUSTER_T96.lo.off (t.toNat % 2 ^ 64))).trans
    (onlyRegs_wrw _ .muster (R.MUSTER_T96.lo.off + 8) (t.toNat / 2 ^ 64))
  rw [hop]
  exact ((((htime.wr _ _ _).wr _ _ _).wr _ _ _).wr _ _ _).wr _ _ _

/-- The request is taken, and the registers of the muster show, before any block captures. -/
def musterShown (s : State) : State :=
  musterNoted s.muster.req.toNat (musterCounted s.muster.req.toNat { s with muster := { s.muster with req := 0 } })

theorem opMuster_eq {s : State} (hreq : s.muster.req ≠ 0) (ht : s.timeRuns = true) (hdev : s.dev ≠ .standby) :
    opMuster s = obsMuster (((musterShown s).when ((musterShown s).flag .muster R.MUSTER_CTRL.out_enable)
      (fun s => { s with pins.musterOut := true })).each Blk.all captureBlk) :=
  if_neg (by
    rintro (h | h | h)
    · exact hreq h
    · exact absurd (ht.symm.trans h) (by decide)
    · exact hdev h)

/-- What stands in the registers of the unit when the blocks capture. -/
theorem musterShown_rd (s : State) : (musterShown s).muster.req = 0 ∧
    (musterShown s).rd .muster R.MUSTER_STATUS.busy = 1 ∧ (musterShown s).rd .muster R.MUSTER_STATUS.armed = 0 ∧
    (musterShown s).rd .muster R.MUSTER_SEQ.seq = (s.rd .muster R.MUSTER_SEQ.seq + 1) % 2 ^ 32 ∧
    (musterShown s).rd .muster R.MUSTER_STATUS.last_sources = s.muster.req.toNat ∧
    (musterShown s).rd .muster R.MUSTER_CTRL.out_enable = s.rd .muster R.MUSTER_CTRL.out_enable := by
  obtain ⟨hbusy, harmed, hseq, hsources, hpin⟩ :=
    musterCounted_shown s.muster.req.toNat s.muster.req.isLt { s with muster := { s.muster with req := 0 } }
  have hregs : ∀ f : Fld, ({ s with muster := { s.muster with req := 0 } } : State).rd .muster f = s.rd .muster f := fun _ => rfl
  rw [hregs] at hseq hpin
  have htaken : (musterCounted s.muster.req.toNat { s with muster := { s.muster with req := 0 } }).muster.req = 0 := rfl
  unfold musterShown
  generalize musterCounted _ _ = v at hbusy harmed hseq hsources hpin htaken ⊢
  have hnoted : (musterNoted s.muster.req.toNat v).muster = v.muster := by rw [onlyRegs_musterNoted]
  exact ⟨(congrArg MusterSt.req hnoted).trans htaken,
    (musterNoted_rd _ v (f := R.MUSTER_STATUS.busy) (by decide) (by decide) (by decide)).trans hbusy,
    (musterNoted_rd _ v (f := R.MUSTER_STATUS.armed) (by decide) (by decide) (by decide)).trans harmed,
    (musterNoted_rd _ v (f := R.MUSTER_SEQ.seq) (by decide) (by decide) (by decide)).trans hseq,
    (musterNoted_rd _ v (f := R.MUSTER_STATUS.last_sources) (by decide) (by decide) (by decide)).trans hsources,
    (musterNoted_rd _ v (f := R.MUSTER_CTRL.out_enable) (by decide) (by decide) (by decide)).trans hpin⟩

theorem muster_strikes (s : State) (ht : s.timeRuns = true) (hreq : s.muster.req ≠ 0) (hdev : s.dev ≠ .standby)
    (hout : s.flag .muster R.MUSTER_CTRL.out_enable = true) : Completes .muster s (fun t =>
      t.muster.req = 0 ∧ t.pins.musterOut = true ∧ t.rd .muster R.MUSTER_STATUS.busy = 1 ∧ t.rd .muster R.MUSTER_STATUS.armed = 0 ∧
      t.rd .muster R.MUSTER_SEQ.seq = (s.rd .muster R.MUSTER_SEQ.seq + 1) % 2 ^ 32 ∧
      t.rd .muster R.MUSTER_STATUS.last_sources = s.muster.req.toNat) := by
  have hop := opMuster_eq hreq ht hdev
  obtain ⟨htaken, hbusy, harmed, hseq, hsources, hpin⟩ := musterShown_rd s
  have hflag : (musterShown s).flag .muster R.MUSTER_CTRL.out_enable = true := by
    unfold State.flag at hout ⊢
    rw [hpin]
    exact hout
  rw [hflag, when_true] at hop
  obtain ⟨hunit, hraised, hrd⟩ := musterOut_after_capture (musterShown s)
  exact ⟨_, (exec_muster s).trans (congrArg _ hop), (congrArg MusterSt.req hunit).trans htaken, hraised,
    (hrd R.MUSTER_STATUS.busy (by decide) (by decide) (by decide)).trans hbusy,
    (hrd R.MUSTER_STATUS.armed (by decide) (by decide) (by decide)).trans harmed,
    (hrd R.MUSTER_SEQ.seq (by decide) (by decide) (by decide)).trans hseq,
    (hrd R.MUSTER_STATUS.last_sources (by decide) (by decide) (by decide)).trans hsources⟩

/-! ### Busy and rearm (R43) -/

theorem musterRearm_shown (s : State) : (musterRearm s).rd .muster R.MUSTER_STATUS.armed = 1 ∧
    (musterRearm s).rd .muster R.MUSTER_STATUS.busy = s.rd .muster R.MUSTER_STATUS.busy ∧ (musterRearm s).muster.rearm = false ∧
    SameOutside .muster s (musterRearm s) := by
  have hrd : ∀ f : Fld, (musterRearm s).rd .muster f
      = ((s.wr .muster R.MUSTER_STATUS.armed 1).wr .muster R.MUSTER_CTRL.rearm 0).rd .muster f := fun _ => rfl
  have hslot : WritesOnly (InSlot .muster) s ((s.wr .muster R.MUSTER_STATUS.armed 1).wr .muster R.MUSTER_CTRL.rearm 0) :=
    (writesOnly_wr s 1 (inSlot_base .muster (by decide))).wr 0 (inSlot_base .muster (by decide))
  refine ⟨?_, ?_, rfl, hslot.sameOutside fun _ h => h⟩
  · rw [hrd, rd_wr_keep _ _ _ _ _ (by decide), rd_wr_val _ _ _ _ (by decide)]
    rfl
  · rw [hrd, rd_wr_keep _ _ _ _ _ (by decide), rd_wr_keep _ _ _ _ _ (by decide)]

theorem busyClear_rearms (s : State) (hbusy : s.flag .muster R.MUSTER_STATUS.busy = true) : Completes .busyClear s (fun t =>
    t.rd .muster R.MUSTER_STATUS.busy = 0 ∧ t.rd .muster R.MUSTER_STATUS.armed =
      if s.flag .muster R.MUSTER_CTRL.auto_rearm || s.muster.rearm then 1 else s.rd .muster R.MUSTER_STATUS.armed) := by
  have hclear : (s.wr .muster R.MUSTER_STATUS.busy 0).rd .muster R.MUSTER_STATUS.busy = 0 := rd_wr_val _ _ _ _ (by decide)
  have hauto : (s.wr .muster R.MUSTER_STATUS.busy 0).flag .muster R.MUSTER_CTRL.auto_rearm = s.flag .muster R.MUSTER_CTRL.auto_rearm := by
    unfold State.flag
    rw [rd_wr_keep _ _ _ _ _ (by decide)]
  have hop : opBusyClear s = if s.flag .muster R.MUSTER_CTRL.auto_rearm || s.muster.rearm then
      musterRearm (s.wr .muster R.MUSTER_STATUS.busy 0) else s.wr .muster R.MUSTER_STATUS.busy 0 := by
    unfold opBusyClear
    dsimp only
    rw [if_neg (by simp [hbusy]), hauto]
    rfl
  refine ⟨_, (exec_busyClear s).trans (congrArg _ hop), ?_⟩
  dsimp only
  split
  · obtain ⟨harmed, hkeep, -⟩ := musterRearm_shown (s.wr .muster R.MUSTER_STATUS.busy 0)
    exact ⟨hkeep.trans hclear, harmed⟩
  · exact ⟨hclear, rd_wr_keep _ _ _ _ _ (by decide)⟩

theorem rearm_atOnce (s : State) (hoff : s.dev ≠ .off) (hboot : s.dev ≠ .boot) (hbusy : s.flag .muster R.MUSTER_STATUS.busy = false) :
    Completes .rearm s (fun t => t.rd .muster R.MUSTER_STATUS.armed = 1 ∧ t.muster.rearm = false ∧ SameOutside .muster s t) := by
  have hop : opRearm s = musterRearm s := if_neg (by simp [hbusy])
  obtain ⟨harmed, -, hrearm, hout⟩ := musterRearm_shown s
  exact ⟨_, (exec_rearm hoff hboot).trans (congrArg _ hop), harmed, hrearm, hout⟩

theorem rearm_waits (s : State) (hoff : s.dev ≠ .off) (hboot : s.dev ≠ .boot) (hbusy : s.flag .muster R.MUSTER_STATUS.busy = true) :
    Completes .rearm s (fun t => t.muster.rearm = true ∧ t.rd .muster R.MUSTER_STATUS.armed = s.rd .muster R.MUSTER_STATUS.armed) :=
  ⟨_, (exec_rearm hoff hboot).trans (congrArg _ (if_pos hbusy)), rfl, rd_wr_keep s _ R.MUSTER_CTRL.rearm _ 1 (by decide)⟩

/-- Settles O13: the three sources that the statement covers by what `requestMuster` does with them; the muster through its own registers
first (`musterCounted`, `musterNoted`), which no capture and no trace entry then reaches (`muster_after_capture`); busy and rearm by
`musterRearm`. -/
theorem musterCycle : Obligations.MusterCycle := by
  unfold Obligations.MusterCycle
  exact ⟨fun s hoff hboot _ => musterFire_requests s hoff hboot, musterFire_declined, musterInEdge_requests, schedArm_arms,
    scheduledMuster_requests, muster_strikes, busyClear_rearms, rearm_atOnce, rearm_waits,
    fun s => ⟨_, exec_musterOutEnd s, rfl⟩⟩

end Sys2Proof.Proofs

namespace Sys2Proof.Proofs
open Sys2Proof Sys2Proof.Machine Sys2Proof.Laws

/-! ### A group's state beside its registers -/

theorem setRx_self (s : State) (g : Fin 16) (r : RxSt) : (s.setRx g r).rx[g] = r := Vector.getElem_set_self _
theorem setTx_self (s : State) (g : Fin 16) (x : TxSt) : (s.setTx g x).tx[g] = x := Vector.getElem_set_self _

section HostKeeps
variable {W : Nat → Prop} {s t : State}

theorem HostKeeps.setRx (h : HostKeeps W s t) (g : Fin 16) (r : RxSt) : HostKeeps W s (t.setRx g r) := h.same rfl rfl
theorem HostKeeps.setTx (h : HostKeeps W s t) (g : Fin 16) (x : TxSt) : HostKeeps W s (t.setTx g x) := h.same rfl rfl
theorem HostKeeps.sameOutside {b : Blk} (h : HostKeeps (InSlot b) s t) : SameOutside b s t := h.word

end HostKeeps

theorem slot_txg_ne_rxg (g : Fin 16) : (Blk.txg g).slot ≠ (Blk.rxg g).slot := by
  simp only [Blk.slot]
  omega

/-! ### LINKCMD received (R60, R69 to R71) -/

/-- What a valid LINKCMD with code `c` does once it is shown. -/
def linkcmdAct (g : Fin 16) (c lane eff arg tag : Nat) (s : State) : State :=
  match c with
  | 1 => lcNotice g false lane eff tag s
  | 2 => lcNotice g true lane eff tag s
  | 3 => lcRetireReq g lane tag s
  | 4 => lcRestoreReq g lane tag s
  | 5 => lcPresetReq g lane eff arg tag s
  | 6 => lcTrainReq g true lane eff tag s
  | 7 => lcTrainReq g false lane eff tag s
  | 8 => if s.awaits g arg tag then linkDone g 0 s else s
  | 9 => if (s.tx[g]).waiting.any (fun w => w.2 = tag) then linkDone g 2 s else s
  | _ => lcOther g lane eff tag s

theorem linkcmdBody_eq (g : Fin 16) (w : Nat) (s : State) : linkcmdBody g w s =
    linkcmdAct g (w % 16) (w / 16 % 16) (w / 2 ^ 8 % 65536) (w / 2 ^ 24 % 256) (w / 2 ^ 32 % 256) (noteLinkcmd g w s) := rfl

/-- A LINKCMD body holds its five fields (R60). -/
theorem linkBody_fields {c l e a v : Nat} (hc : c < 16) (hl : l < 16) (he : e < 65536) (ha : a < 256) (hv : v < 256) :
    linkBody c l e a v % 16 = c ∧ linkBody c l e a v / 16 % 16 = l ∧ linkBody c l e a v / 2 ^ 8 % 65536 = e ∧
    linkBody c l e a v / 2 ^ 24 % 256 = a ∧ linkBody c l e a v / 2 ^ 32 % 256 = v := by
  unfold linkBody
  omega

theorem linkBody_lt (c l e a v : Nat) : linkBody c l e a v < 2 ^ 48 := by
  unfold linkBody
  omega

section Received
variable (s : State) (g : Fin 16) (l : BitVec 4) (e : BitVec 16) (a v : BitVec 8)

/-- A received LINKCMD is shown, then performed. -/
theorem rxLinkcmd_up {c : Nat} (hup : s.linkUp = true) (hc : c < 16) : rxLinkcmd g c l e a v s =
    linkcmdAct g c l.toNat e.toNat a.toNat v.toNat (noteLinkcmd g (linkBody c l.toNat e.toNat a.toNat v.toNat) s) := by
  obtain ⟨h1, h2, h3, h4, h5⟩ := linkBody_fields hc l.isLt e.isLt a.isLt v.isLt
  unfold rxLinkcmd
  rw [if_pos hup, linkcmdBody_eq, h1, h2, h3, h4, h5]

/-! #### What showing a LINKCMD leaves -/

variable (w : Nat)

theorem noteLinkcmd_shown (hw : w < 2 ^ 48) : (noteLinkcmd g w s).rd (.rxg g) R.RXG_LINKCMD_LAST.valid = 1 ∧
    (noteLinkcmd g w s).rd (.rxg g) R.RXG_LINKCMD_LAST.body = w := by
  unfold noteLinkcmd
  refine ⟨rd_wr_val _ _ _ _ (by decide), ?_⟩
  rw [rd_wr_keep _ _ _ _ _ (by decide), rd_wr_val _ _ _ _ (by decide)]
  exact Nat.mod_eq_of_lt hw

@[simp] theorem noteLinkcmd_rx : (noteLinkcmd g w s).rx = s.rx := rfl
@[simp] theorem noteLinkcmd_tx : (noteLinkcmd g w s).tx = s.tx := rfl
@[simp] theorem noteLinkcmd_awaits (c tag : Nat) : (noteLinkcmd g w s).awaits g c tag = s.awaits g c tag := rfl

theorem noteLinkcmd_rd {b : Blk} (f : Fld) (hb : b.slot ≠ (Blk.rxg g).slot) (hf : f.off < 0x10000) :
    (noteLinkcmd g w s).rd b f = s.rd b f := by
  unfold noteLinkcmd
  rw [rd_wr_slot _ _ hb (by decide) hf, rd_wr_slot _ _ hb (by decide) hf]

theorem noteLinkcmd_rd_txg (f : Fld) (hf : f.off < 0x10000) : (noteLinkcmd g w s).rd (.txg g) f = s.rd (.txg g) f :=
  noteLinkcmd_rd s g w f (slot_txg_ne_rxg g) hf

theorem noteLinkcmd_flag_txg (f : Fld) (hf : f.off < 0x10000) : (noteLinkcmd g w s).flag (.txg g) f = s.flag (.txg g) f := by
  unfold State.flag
  rw [noteLinkcmd_rd_txg s g w f hf]

theorem noteLinkcmd_txOn : (noteLinkcmd g w s).txOn g = s.txOn g := by
  have hclk : Blk.clocks.slot ≠ (Blk.rxg g).slot := by
    simp only [Blk.slot]
    omega
  simp (disch := decide) only [State.txOn, State.enabled, State.pllRuns, noteLinkcmd_flag_txg]
  rw [noteLinkcmd_rd s g w _ hclk (by decide), noteLinkcmd_rd s g w _ hclk (by decide)]

theorem noteLinkcmd_txPowered : (noteLinkcmd g w s).txPowered g = s.txPowered g := by
  simp (disch := decide) only [State.txPowered, noteLinkcmd_flag_txg, noteLinkcmd_rd_txg]

theorem noteLinkcmd_retireForbidden (n : Nat) : (noteLinkcmd g w s).retireForbidden g n = s.retireForbidden g n := by
  simp (disch := decide) only [State.retireForbidden, State.txMaskAfter, noteLinkcmd_txPowered, noteLinkcmd_rd_txg, noteLinkcmd_tx]

theorem noteLinkcmd_txDrives (n : Nat) : (noteLinkcmd g w s).txDrives g n = s.txDrives g n := by
  simp only [State.txDrives, noteLinkcmd_txPowered]

theorem noteLinkcmd_txEff : (noteLinkcmd g w s).txEff g = (s.rd (.txg g) R.TXG_STATUS.align_seq + 4) % 65536 := by
  simp (disch := decide) only [State.txEff, noteLinkcmd_rd_txg]

end Received
/-! #### What the commands of the link do -/

theorem linkDone_shown (g : Fin 16) (n : Nat) (hn : n < 4) (s : State) : (linkDone g n s).rd (.txg g) R.TXG_LINKCMD.send = 0 ∧
    (linkDone g n s).rd (.txg g) R.TXG_LINKCMD.status = n ∧ ((linkDone g n s).tx[g]).waiting = none ∧
    HostKeeps (InSlot (.txg g)) s (linkDone g n s) ∧ (linkDone g n s).rx = s.rx := by
  unfold linkDone
  refine ⟨?_, ?_, by simp, ?_, rfl⟩
  · rw [setTx_rd, rd_wr_keep _ _ _ _ _ (by decide), rd_wr_val _ _ _ _ (by decide)]
    rfl
  · rw [setTx_rd, rd_wr_val _ _ _ _ (by decide)]
    exact Nat.mod_eq_of_lt hn
  · exact (((HostKeeps.refl _ s).wr _ (inSlot_base _ (by decide))).wr _ (inSlot_base _ (by decide))).setTx _ _

theorem announce_tx (g : Fin 16) (n : Nat) (restore : Bool) (tag : Nat) (s : State) :
    ((announce g n restore tag s).tx[g]).ann = (s.tx[g]).ann ++ [(s.txEff g, n, restore)] ∧
    ((announce g n restore tag s).tx[g]).urgent.length = (s.tx[g]).urgent.length + 2 ∧
    ((announce g n restore tag s).tx[g]).answers = (s.tx[g]).answers := by
  unfold announce
  simp

theorem answer_tx (g : Fin 16) (c l e a v : Nat) (s : State) : (answer g c l e a v s).tx[g] =
    { s.tx[g] with answers := (s.tx[g]).answers ++ [BitVec.ofNat 48 (linkBody c l e a v)] } := by
  unfold answer
  simp

/-- A notice leaves RXG[g]'s registers as they stand, and is kept. -/
theorem lcNotice_kept (g : Fin 16) (restore : Bool) (l e v : Nat) (s : State) :
    ((lcNotice g restore l e v s).rx[g]).ann = (s.rx[g]).ann ++ [(e, l, restore)] ∧
    ∀ f : Fld, f.off < 0x10000 → (lcNotice g restore l e v s).rd (.rxg g) f = s.rd (.rxg g) f := by
  unfold lcNotice
  dsimp only
  generalize hu : s.setRx g { s.rx[g] with ann := (s.rx[g]).ann ++ [(e, l, restore)] } = u
  have hann : (u.rx[g]).ann = (s.rx[g]).ann ++ [(e, l, restore)] := by simp [← hu]
  have hrd : ∀ f : Fld, u.rd (.rxg g) f = s.rd (.rxg g) f := fun f => by rw [← hu, setRx_rd]
  by_cases hw : u.awaits g (if restore then 4 else 3) v = true
  · obtain ⟨-, -, -, hkeep, hrx⟩ := linkDone_shown g 0 (by decide) u
    rw [if_pos hw]
    refine ⟨by rw [hrx, hann], fun f hf => (hkeep.rd ?_).trans (hrd f)⟩
    exact fun h => slot_txg_ne_rxg g (h.symm.trans (inSlot_base (.rxg g) hf))
  · rw [if_neg hw]
    exact ⟨hann, fun f _ => hrd f⟩

theorem lcRetireReq_allowed {g : Fin 16} {n v : Nat} {s : State} (hon : s.txOn g = true) (hmin : s.retireForbidden g n = false) :
    lcRetireReq g n v s = announce g n false v s := by
  simp [lcRetireReq, hon, hmin]

theorem lcRetireReq_forbidden {g : Fin 16} {n v : Nat} {s : State} (hon : s.txOn g = true) (hmin : s.retireForbidden g n = true) :
    lcRetireReq g n v s = answer g 9 n 0 2 v s := by
  simp [lcRetireReq, hon, hmin]

theorem lcRestoreReq_driven {g : Fin 16} {n v : Nat} {s : State} (hon : s.txOn g = true) (hdr : s.txDrives g n = true) :
    lcRestoreReq g n v s = announce g n true v s := by
  simp [lcRestoreReq, hon, hdr]

theorem lcPresetReq_supported {g : Fin 16} {n e a v : Nat} {s : State} (hon : s.txOn g = true) (ha : a ≤ 7) :
    ((lcPresetReq g n e a v s).tx[g]).presetAt = (s.tx[g]).presetAt ++ [(e, n, a)] ∧
    ((lcPresetReq g n e a v s).tx[g]).answers = (s.tx[g]).answers ++ [BitVec.ofNat 48 (linkBody 8 n e 5 v)] := by
  have hop : lcPresetReq g n e a v s =
      answer g 8 n e 5 v (s.setTx g { s.tx[g] with presetAt := (s.tx[g]).presetAt ++ [(e, n, a)] }) := by
    simp [lcPresetReq, hon, Nat.not_lt.2 ha]
  rw [hop, answer_tx, setTx_self]
  exact ⟨rfl, rfl⟩

/-- Training of a lane that is not active begins or ends at its row, and is acknowledged. -/
theorem lcTrainReq_retired {g : Fin 16} {start : Bool} {n e v : Nat} {s : State} (hon : s.txOn g = true) (hn : n ≠ 0)
    (hact : nbit (s.rd (.txg g) R.TXG_STATUS.active_mask) (n - 1) = false) :
    ((lcTrainReq g start n e v s).tx[g]).trainAt = (s.tx[g]).trainAt ++ [(e, n, start)] ∧
    ((lcTrainReq g start n e v s).tx[g]).answers =
      (s.tx[g]).answers ++ [BitVec.ofNat 48 (linkBody 8 n e (if start then 6 else 7) v)] := by
  have hop : lcTrainReq g start n e v s = answer g 8 n e (if start then 6 else 7) v
      (s.setTx g { s.tx[g] with trainAt := (s.tx[g]).trainAt ++ [(e, n, start)] }) := by
    simp [lcTrainReq, hon, hn, hact]
  rw [hop, answer_tx, setTx_self]
  exact ⟨rfl, rfl⟩

/-! #### The commands received -/

section Clauses
variable (s : State) (g : Fin 16) (l : BitVec 4) (e : BitVec 16) (a v : BitVec 8)

/-- A LINKCMD that is received is shown, and what it asks for is done then. -/
theorem linkcmd_completes {c : Nat} {i : Instr} {q : State → Prop} (act : State → State) (hup : s.linkUp = true) (hc : c < 16)
    (hexec : exec i s = .next (rxLinkcmd g c l e a v s)) (hact : linkcmdAct g c l.toNat e.toNat a.toNat v.toNat = act)
    (h : q (act (noteLinkcmd g (linkBody c l.toNat e.toNat a.toNat v.toNat) s))) : Completes i s q :=
  ⟨_, hexec.trans (congrArg _ (rxLinkcmd_up s g l e a v hup hc)), hact ▸ h⟩

/-- A notice, RETIRE or RESTORE, is shown and kept. -/
theorem lcNotice_shown {c : Nat} {restore : Bool} :
    let t := lcNotice g restore l.toNat e.toNat v.toNat (noteLinkcmd g (linkBody c l.toNat e.toNat a.toNat v.toNat) s)
    (t.rx[g]).ann = (s.rx[g]).ann ++ [(e.toNat, l.toNat, restore)] ∧ t.rd (.rxg g) R.RXG_LINKCMD_LAST.valid = 1 ∧
      t.rd (.rxg g) R.RXG_LINKCMD_LAST.body = linkBody c l.toNat e.toNat a.toNat v.toNat := by
  obtain ⟨hann, hrd⟩ := lcNotice_kept g restore l.toNat e.toNat v.toNat (noteLinkcmd g (linkBody c l.toNat e.toNat a.toNat v.toNat) s)
  obtain ⟨hvalid, hbody⟩ := noteLinkcmd_shown s g _ (linkBody_lt c l.toNat e.toNat a.toNat v.toNat)
  exact ⟨hann, (hrd _ (by decide)).trans hvalid, (hrd _ (by decide)).trans hbody⟩

theorem lcRetireReq_announced (hup : s.linkUp = true) (hon : s.txOn g = true) (hmin : s.retireForbidden g l.toNat = false) :
    Completes (.lcRetireReq g l e a v) s (fun t =>
      (t.tx[g]).ann = (s.tx[g]).ann ++ [((s.rd (.txg g) R.TXG_STATUS.align_seq + 4) % 65536, l.toNat, false)] ∧
      (t.tx[g]).urgent.length = (s.tx[g]).urgent.length + 2 ∧ (t.tx[g]).answers = (s.tx[g]).answers) := by
  refine linkcmd_completes s g l e a v (c := 3) (lcRetireReq g l.toNat v.toNat) hup (by decide) rfl rfl ?_
  rw [← noteLinkcmd_txEff s g (linkBody 3 l.toNat e.toNat a.toNat v.toNat)]
  rw [lcRetireReq_allowed ((noteLinkcmd_txOn ..).trans hon) ((noteLinkcmd_retireForbidden ..).trans hmin)]
  exact announce_tx ..

theorem lcRetireReq_refused (hup : s.linkUp = true) (hon : s.txOn g = true) (hmin : s.retireForbidden g l.toNat = true) :
    Completes (.lcRetireReq g l e a v) s (fun t =>
      (t.tx[g]).answers = (s.tx[g]).answers ++ [BitVec.ofNat 48 (linkBody 9 l.toNat 0 2 v.toNat)] ∧ (t.tx[g]).ann = (s.tx[g]).ann) := by
  refine linkcmd_completes s g l e a v (c := 3) (lcRetireReq g l.toNat v.toNat) hup (by decide) rfl rfl ?_
  rw [lcRetireReq_forbidden ((noteLinkcmd_txOn ..).trans hon) ((noteLinkcmd_retireForbidden ..).trans hmin), answer_tx]
  exact ⟨rfl, rfl⟩

theorem lcRestoreReq_announced (hup : s.linkUp = true) (hon : s.txOn g = true) (hdr : s.txDrives g l.toNat = true) :
    Completes (.lcRestoreReq g l e a v) s (fun t =>
      (t.tx[g]).ann = (s.tx[g]).ann ++ [((s.rd (.txg g) R.TXG_STATUS.align_seq + 4) % 65536, l.toNat, true)]) := by
  refine linkcmd_completes s g l e a v (c := 4) (lcRestoreReq g l.toNat v.toNat) hup (by decide) rfl rfl ?_
  rw [← noteLinkcmd_txEff s g (linkBody 4 l.toNat e.toNat a.toNat v.toNat)]
  rw [lcRestoreReq_driven ((noteLinkcmd_txOn ..).trans hon) ((noteLinkcmd_txDrives ..).trans hdr)]
  exact (announce_tx ..).1

theorem lcPreset_acknowledged (hup : s.linkUp = true) (hon : s.txOn g = true) (ha : a.toNat ≤ 7) :
    Completes (.lcPreset g l e a v) s (fun t => (t.tx[g]).presetAt = (s.tx[g]).presetAt ++ [(e.toNat, l.toNat, a.toNat)] ∧
      (t.tx[g]).answers = (s.tx[g]).answers ++ [BitVec.ofNat 48 (linkBody 8 l.toNat e.toNat 5 v.toNat)]) :=
  linkcmd_completes s g l e a v (c := 5) (lcPresetReq g l.toNat e.toNat a.toNat v.toNat) hup (by decide) rfl rfl
    (lcPresetReq_supported ((noteLinkcmd_txOn ..).trans hon) ha)

theorem lcTrain_acknowledged {c : Nat} {start : Bool} (hon : s.txOn g = true) (hl : l.toNat ≠ 0)
    (hact : nbit (s.rd (.txg g) R.TXG_STATUS.active_mask) (l.toNat - 1) = false) :
    let t := lcTrainReq g start l.toNat e.toNat v.toNat (noteLinkcmd g (linkBody c l.toNat e.toNat a.toNat v.toNat) s)
    (t.tx[g]).trainAt = (s.tx[g]).trainAt ++ [(e.toNat, l.toNat, start)] ∧ (t.tx[g]).answers =
      (s.tx[g]).answers ++ [BitVec.ofNat 48 (linkBody 8 l.toNat e.toNat (if start then 6 else 7) v.toNat)] :=
  lcTrainReq_retired ((noteLinkcmd_txOn ..).trans hon) hl ((congrArg (nbit · _) (noteLinkcmd_rd_txg _ _ _ _ (by decide))).trans hact)

theorem lcAck_completes (hup : s.linkUp = true) (hw : s.awaits g a.toNat v.toNat = true) :
    Completes (.lcAck g l e a v) s (fun t => t.rd (.txg g) R.TXG_LINKCMD.send = 0 ∧ t.rd (.txg g) R.TXG_LINKCMD.status = 0 ∧
      (t.tx[g]).waiting = none) := by
  refine linkcmd_completes s g l e a v (c := 8) (fun u => if u.awaits g a.toNat v.toNat then linkDone g 0 u else u) hup (by decide) rfl rfl ?_
  obtain ⟨hsend, hstatus, hwait, -⟩ := linkDone_shown g 0 (by decide) (noteLinkcmd g (linkBody 8 l.toNat e.toNat a.toNat v.toNat) s)
  rw [if_pos ((noteLinkcmd_awaits ..).trans hw)]
  exact ⟨hsend, hstatus, hwait⟩

theorem lcNak_completes (c : Nat) (hup : s.linkUp = true) (hw : (s.tx[g]).waiting = some (c, v.toNat)) :
    Completes (.lcNak g l e a v) s (fun t =>
      t.rd (.txg g) R.TXG_LINKCMD.send = 0 ∧ t.rd (.txg g) R.TXG_LINKCMD.status = 2 ∧ (t.tx[g]).waiting = none) := by
  refine linkcmd_completes s g l e a v (c := 9) (fun u =>
    if (u.tx[g]).waiting.any (fun w => w.2 = v.toNat) then linkDone g 2 u else u) hup (by decide) rfl rfl ?_
  obtain ⟨hsend, hstatus, hwait, -⟩ := linkDone_shown g 2 (by decide) (noteLinkcmd g (linkBody 9 l.toNat e.toNat a.toNat v.toNat) s)
  rw [if_pos (by rw [noteLinkcmd_tx, hw]; exact decide_eq_true rfl)]
  exact ⟨hsend, hstatus, hwait⟩

theorem linkcmdUnknown_refused (c : BitVec 4) (hup : s.linkUp = true) (hon : s.txOn g = true) (hc : c = 0 ∨ 9 < c.toNat) :
    Completes (.linkcmdUnknown g c l e a v) s (fun t =>
      (t.tx[g]).answers = (s.tx[g]).answers ++ [BitVec.ofNat 48 (linkBody 9 l.toNat e.toNat 1 v.toNat)]) := by
  have hexec : exec (.linkcmdUnknown g c l e a v) s = .next (rxLinkcmd g c.toNat l e a v s) := congrArg _ (if_pos hc)
  have hother : ∀ u, linkcmdAct g c.toNat l.toNat e.toNat a.toNat v.toNat u = lcOther g l.toNat e.toNat v.toNat u := fun u => by
    obtain h | ⟨j, h⟩ : c.toNat = 0 ∨ ∃ j, c.toNat = j + 10 :=
      hc.imp (fun h => by rw [h]; rfl) (fun h => ⟨c.toNat - 10, by omega⟩)
    · rw [h]
      rfl
    · rw [h]
      rfl
  refine linkcmd_completes s g l e a v _ hup c.isLt hexec (funext hother) ?_
  rw [lcOther, if_pos ((noteLinkcmd_txOn ..).trans hon), answer_tx]
  rfl

end Clauses

/-! ### Link commands of software, and lane requests (R60, R69 to R71) -/

/-- What a send shows of its request: cmd, lane, arg and tag. -/
def linkFields (g : Fin 16) (c l a v : Nat) (s : State) : State :=
  (((s.wr (.txg g) R.TXG_LINKCMD.cmd c).wr (.txg g) R.TXG_LINKCMD.lane l).wr (.txg g) R.TXG_LINKCMD.arg a).wr (.txg g) R.TXG_LINKCMD.tag v

/-- The request goes out for the row `eff`, if TXG[g] frames. -/
def linkAsked (g : Fin 16) (c l a v eff : Nat) (s : State) : State :=
  let s := s.wr (.txg g) R.TXG_LINKCMD.eff_seq eff
  let x := s.tx[g]
  s.when (s.txOn g) (fun s => s.setTx g { x with answers := x.answers ++ [BitVec.ofNat 48 (linkBody c l eff a v)] })

/-- Its answer is awaited. -/
def linkWaits (g : Fin 16) (c v : Nat) (s : State) : State :=
  let s := (s.wr (.txg g) R.TXG_LINKCMD.send 1).wr (.txg g) R.TXG_LINKCMD.status 1
  s.setTx g { s.tx[g] with waiting := some (c, v) }

theorem rd_linkFields_rxg (g : Fin 16) (c l a v : Nat) (s : State) (f : Fld) (hf : f.off < 0x10000) :
    (linkFields g c l a v s).rd (.rxg g) f = s.rd (.rxg g) f := by
  have hne := (slot_txg_ne_rxg g).symm
  unfold linkFields
  rw [rd_wr_slot _ _ hne (by decide) hf, rd_wr_slot _ _ hne (by decide) hf, rd_wr_slot _ _ hne (by decide) hf,
    rd_wr_slot _ _ hne (by decide) hf]

/-- What `when` does beside the registers leaves them. -/
theorem rd_when {s : State} {c : Bool} {act : Op} {b : Blk} {f : Fld} (h : (act s).rd b f = s.rd b f) :
    (s.when c act).rd b f = s.rd b f := by
  unfold State.when
  split
  · exact h
  · rfl

theorem rd_linkAsked_effSeq (g : Fin 16) (c l a v eff : Nat) (s : State) :
    (linkAsked g c l a v eff s).rd (.txg g) R.TXG_LINKCMD.eff_seq = eff % 65536 :=
  (rd_when (setTx_rd ..)).trans (rd_wr_val s _ R.TXG_LINKCMD.eff_seq eff (by decide))

theorem linkWaits_shown (g : Fin 16) (c v : Nat) (s : State) : ((linkWaits g c v s).tx[g]).waiting = some (c, v) ∧
    (linkWaits g c v s).rd (.txg g) R.TXG_LINKCMD.send = 1 ∧ (linkWaits g c v s).rd (.txg g) R.TXG_LINKCMD.status = 1 ∧
    (linkWaits g c v s).rd (.txg g) R.TXG_LINKCMD.eff_seq = s.rd (.txg g) R.TXG_LINKCMD.eff_seq := by
  unfold linkWaits
  refine ⟨congrArg TxSt.waiting (setTx_self ..), ?_, ?_, ?_⟩
  · rw [setTx_rd, rd_wr_keep _ _ _ _ _ (by decide), rd_wr_val _ _ _ _ (by decide)]
    rfl
  · rw [setTx_rd, rd_wr_val _ _ _ _ (by decide)]
    rfl
  · rw [setTx_rd, rd_wr_keep _ _ _ _ _ (by decide), rd_wr_keep _ _ _ _ _ (by decide)]

theorem linkSend_request {g : Fin 16} {c l a v : Nat} {s : State} (hsend : s.flag (.txg g) R.TXG_LINKCMD.send = false)
    (hc : c ≠ 1 ∧ c ≠ 2 ∧ c ≠ 8 ∧ c ≠ 9) : linkSend g c l a v s = linkWaits g c v
      (linkAsked g c l a v (((linkFields g c l a v s).rd (.rxg g) R.RXG_STATUS.align_seq + 4) % 65536) (linkFields g c l a v s)) := by
  unfold linkSend
  dsimp only
  rw [if_neg (by simp [hsend]), if_neg (by omega)]
  rfl

/-- A request of software waits for its answer; its eff_seq is four ALIGN rows ahead of those RXG[g] receives (log 12). -/
theorem linkSend_waits (s : State) (g : Fin 16) {c l a v : Nat} {i : Instr} (hexec : exec i s = .next (onWrite (linkSend g c l a v) s))
    (hoff : s.dev ≠ .off) (hboot : s.dev ≠ .boot) (hsend : s.flag (.txg g) R.TXG_LINKCMD.send = false)
    (hc : c ≠ 1 ∧ c ≠ 2 ∧ c ≠ 8 ∧ c ≠ 9) : Completes i s (fun t => (t.tx[g]).waiting = some (c, v) ∧
      t.rd (.txg g) R.TXG_LINKCMD.send = 1 ∧ t.rd (.txg g) R.TXG_LINKCMD.status = 1 ∧
      t.rd (.txg g) R.TXG_LINKCMD.eff_seq = (s.rd (.rxg g) R.RXG_STATUS.align_seq + 4) % 65536) := by
  refine ⟨_, hexec.trans (congrArg _ ((onWrite_of_on _ hoff hboot).trans (linkSend_request hsend hc))), ?_⟩
  rw [rd_linkFields_rxg _ _ _ _ _ _ _ (by decide)]
  obtain ⟨hwait, hsent, hstatus, heff⟩ := linkWaits_shown g c v
    (linkAsked g c l a v ((s.rd (.rxg g) R.RXG_STATUS.align_seq + 4) % 65536) (linkFields g c l a v s))
  exact ⟨hwait, hsent, hstatus, heff.trans ((rd_linkAsked_effSeq ..).trans (Nat.mod_mod _ _))⟩

theorem linkSend_awaits (s : State) (g : Fin 16) {c l a v : Nat} {i : Instr} (hexec : exec i s = .next (onWrite (linkSend g c l a v) s))
    (hc : c ≠ 1 ∧ c ≠ 2 ∧ c ≠ 8 ∧ c ≠ 9) (hoff : s.dev ≠ .off) (hboot : s.dev ≠ .boot)
    (hsend : s.flag (.txg g) R.TXG_LINKCMD.send = false) :
    Completes i s (fun t => (t.tx[g]).waiting = some (c, v) ∧ t.rd (.txg g) R.TXG_LINKCMD.send = 1) :=
  completes_imp (linkSend_waits s g hexec hoff hboot hsend hc) fun _ ⟨hwait, hsent, _⟩ => ⟨hwait, hsent⟩

theorem linkcmdTimeout_completes (s : State) (g : Fin 16) (hsend : s.flag (.txg g) R.TXG_LINKCMD.send = true) :
    Completes (.linkcmdTimeout g) s (fun t => t.rd (.txg g) R.TXG_LINKCMD.send = 0 ∧ t.rd (.txg g) R.TXG_LINKCMD.status = 3 ∧
      SameOutside (.txg g) s t) := by
  have hop : opLinkcmdTimeout g s = linkDone g 3 s := if_pos hsend
  obtain ⟨hsent, hstatus, -, hkeep, -⟩ := linkDone_shown g 3 (by decide) s
  exact ⟨_, congrArg Host.Outcome.next hop, hsent, hstatus, hkeep.sameOutside⟩

/-! #### Requests on a lane -/

section Lanes
variable (s : State) (g n : Fin 16)

/-- The registers of lane `n` lie in the slot of TXG[g]. -/
theorem inSlot_txLane {f : Fld} (hf : f.off = 0x100 + 0x8 * n.val) : InSlot (.txg g) ((Blk.txg g).base + f.off) :=
  inSlot_base _ (by omega)

/-- A lane register apart from those that say what TXG[g] drives. -/
theorem rd_wr_txLane {f h : Fld} (v : Nat) (hf : f.off = 0x100 + 0x8 * n.val) (hh : h.off < 0x100) :
    (s.wr (.txg g) f v).rd (.txg g) h = s.rd (.txg g) h := rd_wr_keep _ _ _ _ _ (.inl (by omega))

theorem laneRetire_announces (hoff : s.dev ≠ .off) (hboot : s.dev ≠ .boot) (hn : n ≠ 0) (hon : s.txOn g = true)
    (hmin : s.retireForbidden g n = false) : Completes (.laneRetire g n) s (fun t => t.rd (.txg g) (R.TXG_LANE.retire n) = 1 ∧
      (t.tx[g]).ann = (s.tx[g]).ann ++ [((s.rd (.txg g) R.TXG_STATUS.align_seq + 4) % 65536, n.val, false)]) := by
  have hop : opLaneRetire g n s = announce g n false 0 (s.wr (.txg g) (R.TXG_LANE.retire n) 1) := by
    simp [opLaneRetire, hn, hon, hmin]
  refine ⟨_, congrArg Host.Outcome.next ((onWrite_of_on _ hoff hboot).trans hop), ?_, ?_⟩
  · exact rd_wr_val s _ (R.TXG_LANE.retire n) 1 (by simp [R.TXG_LANE.retire])
  · rw [(announce_tx ..).1, State.txEff, rd_wr_txLane s g n 1 rfl (by decide), wr_tx]

theorem laneRetire_refused (hoff : s.dev ≠ .off) (hboot : s.dev ≠ .boot) (hn : n ≠ 0) (hon : s.txOn g = true)
    (hmin : s.retireForbidden g n = true) : Completes (.laneRetire g n) s (fun t => t.rd (.txg g) (R.TXG_LANE.refused n) = 1 ∧
      t.tx = s.tx ∧ SameOutside (.txg g) s t) := by
  have hop : opLaneRetire g n s = (s.wr (.txg g) (R.TXG_LANE.refused n) 1).wr (.txg g) (R.TXG_LANE.retire n) 0 := by
    simp [opLaneRetire, hn, hon, hmin]
  refine ⟨_, congrArg Host.Outcome.next ((onWrite_of_on _ hoff hboot).trans hop), ?_, rfl, ?_⟩
  · rw [rd_wr_keep _ _ _ _ _ (.inr (.inr (by simp [R.TXG_LANE.refused, R.TXG_LANE.retire]))),
      rd_wr_val _ _ _ _ (by simp [R.TXG_LANE.refused])]
    rfl
  · exact (((HostKeeps.refl _ s).wr _ (inSlot_txLane g n rfl)).wr _ (inSlot_txLane g n rfl)).sameOutside

theorem laneRestore_announces (hoff : s.dev ≠ .off) (hboot : s.dev ≠ .boot) (hn : n ≠ 0) (hon : s.txOn g = true)
    (hdr : s.txDrives g n = true) : Completes (.laneRestore g n) s (fun t => t.rd (.txg g) (R.TXG_LANE.restore n) = 1 ∧
      (t.tx[g]).ann = (s.tx[g]).ann ++ [((s.rd (.txg g) R.TXG_STATUS.align_seq + 4) % 65536, n.val, true)]) := by
  have hop : opLaneRestore g n s = announce g n true 0 (s.wr (.txg g) (R.TXG_LANE.restore n) 1) := by
    simp [opLaneRestore, hn, hon, hdr]
  refine ⟨_, congrArg Host.Outcome.next ((onWrite_of_on _ hoff hboot).trans hop), ?_, ?_⟩
  · exact rd_wr_val s _ (R.TXG_LANE.restore n) 1 (by simp [R.TXG_LANE.restore])
  · rw [(announce_tx ..).1, State.txEff, rd_wr_txLane s g n 1 rfl (by decide), wr_tx]

end Lanes

/-- Settles O17: a received LINKCMD is shown and then performed (`linkcmd_completes`), each code by the lemma on what it does; a request of
software by `linkSend_waits`, and lane requests by the announcement they make. That an announcement names the row four ahead, that it goes
out twice, and the eff_seq of software's requests are log 12's. -/
theorem linkCommands : Obligations.LinkCommands := by
  unfold Obligations.LinkCommands
  refine ⟨?retire, ?restore, lcRetireReq_announced, lcRetireReq_refused, lcRestoreReq_announced, lcPreset_acknowledged, ?trainStart,
    ?trainEnd, lcAck_completes, lcNak_completes, fun s g c l e a v => linkcmdUnknown_refused s g l e a v c,
    fun s g _ _ _ hoff hboot hsend => linkSend_waits s g rfl hoff hboot hsend (by decide),
    fun s g _ _ _ => linkSend_awaits s g rfl (by decide), fun s g _ _ _ => linkSend_awaits s g rfl (by decide),
    fun s g _ _ _ => linkSend_awaits s g rfl (by decide), fun s g _ _ _ => linkSend_awaits s g rfl (by decide),
    linkcmdTimeout_completes, laneRetire_announces, laneRetire_refused, laneRestore_announces⟩
  case retire =>
    exact fun s g l e a v hup => linkcmd_completes s g l e a v (c := 1) (lcNotice g false l.toNat e.toNat v.toNat) hup (by decide) rfl rfl
      (lcNotice_shown s g l e a v)
  case restore =>
    refine fun s g l e a v hup => linkcmd_completes s g l e a v (c := 2) (lcNotice g true l.toNat e.toNat v.toNat) hup (by decide) rfl rfl ?_
    obtain ⟨hann, -, hbody⟩ := lcNotice_shown s g l e a v (c := 2) (restore := true)
    exact ⟨hann, hbody⟩
  case trainStart =>
    exact fun s g l e a v hup hon hl hact => linkcmd_completes s g l e a v (c := 6) (lcTrainReq g true l.toNat e.toNat v.toNat) hup
      (by decide) rfl rfl (lcTrain_acknowledged s g l e a v hon hl hact)
  case trainEnd =>
    exact fun s g l e a v hup hon hl hact => linkcmd_completes s g l e a v (c := 7) (lcTrainReq g false l.toNat e.toNat v.toNat) hup
      (by decide) rfl rfl (lcTrain_acknowledged s g l e a v hon hl hact)

end Sys2Proof.Proofs

namespace Sys2Proof.Proofs
open Sys2Proof Sys2Proof.Machine Sys2Proof.Laws

/-! ### The scrambler (R50) -/

theorem testBit_concat {a n : Nat} (h : a < 2 ^ n) (b i : Nat) :
    (a + b * 2 ^ n).testBit i = if i < n then a.testBit i else b.testBit (i - n) := by
  rw [Nat.add_comm, Nat.mul_comm]
  exact Nat.testBit_two_pow_mul_add _ h _

/-- The first 39 bits the scrambler sends. -/
def scrambleLow (h d : Nat) : Nat := (d ^^^ h / 2 ^ 19 ^^^ h) % 2 ^ 39

/-- The 25 bits that follow the first 39, `lo`. -/
def scrambleHigh (h d lo : Nat) : Nat := (d / 2 ^ 39 ^^^ lo ^^^ (h + lo * 2 ^ 58) / 2 ^ 39) % 2 ^ 25

/-- The 64 bits the scrambler sends. -/
def scrambled (h d : Nat) : Nat := scrambleLow h d + scrambleHigh h d (scrambleLow h d) * 2 ^ 39

theorem scramble_eq {h : Nat} (hh : h < 2 ^ 58) (d : Nat) : scramble h d = (scrambled h d, (h + scrambled h d * 2 ^ 58) / 2 ^ 64) := by
  unfold scramble
  rw [Nat.mod_eq_of_lt hh]
  rfl

theorem descramble_eq {h c : Nat} (hh : h < 2 ^ 58) (hc : c < 2 ^ 64) : descramble h c =
    (((h + c * 2 ^ 58) / 2 ^ 58 ^^^ (h + c * 2 ^ 58) / 2 ^ 19 ^^^ (h + c * 2 ^ 58)) % 2 ^ 64, (h + c * 2 ^ 58) / 2 ^ 64) := by
  unfold descramble
  rw [Nat.mod_eq_of_lt hh, Nat.mod_eq_of_lt hc]
  rfl

theorem scrambleLow_lt (h d : Nat) : scrambleLow h d < 2 ^ 39 := Nat.mod_lt _ (by decide)

theorem scrambled_lt (h d : Nat) : scrambled h d < 2 ^ 64 := by
  have hlo := scrambleLow_lt h d
  have hhi : scrambleHigh h d (scrambleLow h d) < 2 ^ 25 := Nat.mod_lt _ (by decide)
  unfold scrambled
  omega

/-- A bit that rests on the history alone. -/
theorem testBit_scrambled_low (h d : Nat) {i : Nat} (hi : i < 39) :
    (scrambled h d).testBit i = (d.testBit i ^^ h.testBit (i + 19) ^^ h.testBit i) := by
  unfold scrambled
  rw [testBit_concat (scrambleLow_lt h d), if_pos hi]
  unfold scrambleLow
  rw [Nat.testBit_mod_two_pow, decide_eq_true hi, Bool.true_and, Nat.testBit_xor, Nat.testBit_xor, Nat.testBit_div_two_pow]

theorem testBit_scrambled_recent (h d : Nat) {j : Nat} (hj : j < 39) : (scrambled h d).testBit j = (scrambleLow h d).testBit j := by
  unfold scrambled
  rw [testBit_concat (scrambleLow_lt h d), if_pos hj]

/-- What the last 25 bits look back on is settled by the first 39. -/
theorem testBit_history_recent {h : Nat} (hh : h < 2 ^ 58) (d : Nat) {i : Nat} (hi : i < 64) :
    (h + scrambleLow h d * 2 ^ 58).testBit i = (h + scrambled h d * 2 ^ 58).testBit i := by
  rw [testBit_concat hh, testBit_concat hh, testBit_scrambled_recent h d (show i - 58 < 39 by omega)]

/-- A bit that rests on bits just sent too: the one 39 before it, and the one 58 before it in the history followed by what was sent. -/
theorem testBit_scrambled_high (h d : Nat) (hh : h < 2 ^ 58) {i : Nat} (hlo : 39 ≤ i) (hi : i < 64) : (scrambled h d).testBit i =
    (d.testBit i ^^ (scrambled h d).testBit (i - 39) ^^ (h + scrambled h d * 2 ^ 58).testBit i) := by
  have hhigh : (scrambled h d).testBit i = (scrambleHigh h d (scrambleLow h d)).testBit (i - 39) := by
    unfold scrambled
    rw [testBit_concat (scrambleLow_lt h d), if_neg (by omega)]
  rw [hhigh, testBit_scrambled_recent h d (show i - 39 < 39 by omega), ← testBit_history_recent hh d hi]
  unfold scrambleHigh
  rw [Nat.testBit_mod_two_pow, decide_eq_true (show i - 39 < 25 by omega), Bool.true_and, Nat.testBit_xor, Nat.testBit_xor,
    Nat.testBit_div_two_pow, Nat.testBit_div_two_pow, Nat.sub_add_cancel hlo]

theorem descramble_scramble (h d : Nat) (hh : h < 2 ^ 58) (hd : d < 2 ^ 64) :
    descramble h (scramble h d).1 = (d, (scramble h d).2) := by
  rw [scramble_eq hh]
  dsimp only
  rw [descramble_eq hh (scrambled_lt h d)]
  refine Prod.ext (Nat.eq_of_testBit_eq fun i => ?_) rfl
  dsimp only
  rw [Nat.testBit_mod_two_pow]
  by_cases hi : i < 64
  case neg => rw [decide_eq_false hi, Bool.false_and, Nat.testBit_lt_two_pow (hd.trans_le (Nat.pow_le_pow_right (by decide) (by omega)))]
  rw [decide_eq_true hi, Bool.true_and, Nat.testBit_xor, Nat.testBit_xor, Nat.testBit_div_two_pow, Nat.testBit_div_two_pow,
    testBit_concat hh _ (i + 58), if_neg (by omega), Nat.add_sub_cancel, testBit_concat hh _ (i + 19)]
  by_cases hlo : i < 39
  · rw [if_pos (by omega), testBit_concat hh, if_pos (by omega), testBit_scrambled_low h d hlo]
    cases d.testBit i <;> cases h.testBit (i + 19) <;> cases h.testBit i <;> rfl
  · rw [if_neg (by omega), testBit_scrambled_high h d hh (by omega) hi, show i + 19 - 58 = i - 39 by omega]
    cases d.testBit i <;> cases (scrambled h d).testBit (i - 39) <;> cases (h + scrambled h d * 2 ^ 58).testBit i <;> rfl

/-! ### What sending rows leaves (R50, R74 to R76) -/

/-- `t` comes from `s` by rows that TXG[g] sends: words of its slot from the pattern registers on, and its own records but for its
sub-streams. -/
structure SendStep (g : Fin 16) (s t : State) : Prop where
  keeps : HostKeeps (InSlot (.txg g)) s t
  rd : ∀ f : Fld, f.off < 0x300 → t.rd (.txg g) f = s.rd (.txg g) f
  rx : t.rx = s.rx
  mem : t.mem = s.mem
  subs : (t.tx[g]).subs = (s.tx[g]).subs

section SendStep
variable {g : Fin 16} {s t u : State}

theorem SendStep.refl (g : Fin 16) (s : State) : SendStep g s s := ⟨.refl _ s, fun _ _ => rfl, rfl, rfl, rfl⟩

theorem SendStep.trans (h : SendStep g s t) (k : SendStep g t u) : SendStep g s u :=
  ⟨h.keeps.trans k.keeps, fun f hf => (k.rd f hf).trans (h.rd f hf), k.rx.trans h.rx, k.mem.trans h.mem, k.subs.trans h.subs⟩

theorem SendStep.setTx (h : SendStep g s t) {x : TxSt} (hx : x.subs = (t.tx[g]).subs) : SendStep g s (t.setTx g x) :=
  ⟨h.keeps.setTx g x, h.rd, h.rx, h.mem, by rw [setTx_self, hx, h.subs]⟩

theorem SendStep.free (h : SendStep g s t) (tag : Nat) : SendStep g s (t.free tag).2 :=
  ⟨h.keeps.same rfl rfl, h.rd, h.rx, h.mem, h.subs⟩

/-- A count of lane `n`'s pattern register. -/
theorem SendStep.cnt (h : SendStep g s t) {f : Fld} (n : Nat) (hlo : 0x300 ≤ f.off) (hhi : f.off < 0x10000) :
    SendStep g s (t.cnt (.txg g) f n) := by
  have hregs := onlyRegs_cnt t (.txg g) f n
  unfold OnlyRegs at hregs
  refine h.trans ⟨(HostKeeps.refl _ t).cnt n (inSlot_base _ hhi), fun k hk => rd_cnt_keep _ _ _ _ _ (.inl (by omega)), ?_, ?_, ?_⟩
  · rw [hregs]
  · rw [hregs]
  · rw [hregs]

/-- A draw that is taken or not. -/
theorem sendStep_drawn {c : Prop} [Decidable c] {q z tag : Nat} (h : (if c then s.free tag else (q, s)) = (z, u)) : SendStep g s u := by
  split at h
  · have hu : (s.free tag).2 = u := congrArg Prod.snd h
    exact hu ▸ (SendStep.refl g s).free tag
  · have hu : s = u := congrArg Prod.snd h
    exact hu ▸ SendStep.refl g s

/-- The pattern and the scrambler are kept as they stand: what they compute is no matter here. -/
theorem sendStep_rawLane (g : Fin 16) (n : Nat) (b : LBlock) (s : State) : SendStep g s (rawLane g n b s).1 := by
  unfold rawLane
  generalize prbsGo = pattern
  generalize scramble = scrambler
  split
  · extract_lets len q
    split
    next hdraw =>
      dsimp only
      exact (sendStep_drawn hdraw).setTx rfl
  · exact (SendStep.refl g s).setTx rfl

theorem sendStep_injectLane (g : Fin 16) {n : Nat} (hn : n < 16) (w : Nat) (s : State) : SendStep g s (injectLane g n w s).1 := by
  have hlo : 0x300 ≤ (R.TXG_PRBS.injected n).off := Nat.le_add_right _ _
  have hhi : (R.TXG_PRBS.injected n).off < 0x10000 := by
    change 0x300 + 0x8 * n < 0x10000
    omega
  unfold injectLane
  dsimp only
  split
  · exact (SendStep.refl g s).setTx rfl
  · split
    · exact (SendStep.refl g s).setTx rfl
    · refine SendStep.cnt (SendStep.setTx (SendStep.refl g s) ?_) 1 hlo hhi
      rfl

theorem sendStep_sendLane (g : Fin 16) {n : Nat} (hn : n < 16) (b : LBlock) (s : State) : SendStep g s (sendLane g n b s).1 :=
  (sendStep_rawLane g n b s).trans (sendStep_injectLane g hn (rawLane g n b s).2 (rawLane g n b s).1)

theorem sendStep_sendRow (g : Fin 16) (r : List (Nat × LBlock)) : ∀ s : State, (∀ x ∈ r, x.1 < 16) → SendStep g s (sendRow g r s).1 := by
  induction r with
  | nil => exact fun s _ => .refl g s
  | cons x r ih =>
    intro s hr
    have hhead := sendStep_sendLane g (hr x List.mem_cons_self) x.2 s
    exact hhead.trans (ih (sendLane g x.1 x.2 s).1 fun y hy => hr y (List.mem_cons_of_mem x hy))

/-- The rows of one call, one after the other, with the bits each puts on the line. -/
def sentRow (g : Fin 16) (z : State × List (List (Nat × BitVec 66))) (r : List (Nat × LBlock)) : State × List (List (Nat × BitVec 66)) :=
  ((sendRow g r z.1).1, z.2 ++ [(sendRow g r z.1).2])

theorem sendStep_sentRows (g : Fin 16) (rows : List (List (Nat × LBlock))) : ∀ z : State × List (List (Nat × BitVec 66)),
    (∀ r ∈ rows, ∀ x ∈ r, x.1 < 16) → SendStep g z.1 (rows.foldl (sentRow g) z).1 := by
  induction rows with
  | nil => exact fun z _ => .refl g z.1
  | cons r rows ih =>
    exact fun z h => (sendStep_sendRow g r z.1 (h r List.mem_cons_self)).trans
      (ih (sentRow g z r) fun r' hr' => h r' (List.mem_cons_of_mem r hr'))

theorem sendStep_sendRows (g : Fin 16) (rows : List (List (Nat × LBlock))) (s : State) (h : ∀ r ∈ rows, ∀ x ∈ r, x.1 < 16) :
    SendStep g s (sendRows g rows s) := (sendStep_sentRows g rows (s, []) h).setTx rfl

theorem line_sendRows (g : Fin 16) (rows : List (List (Nat × LBlock))) (s : State) : ((sendRows g rows s).tx[g]).line = rows := by
  unfold sendRows
  dsimp only
  rw [setTx_self]

end SendStep
end Sys2Proof.Proofs

namespace Sys2Proof.Proofs
open Sys2Proof Sys2Proof.Machine Sys2Proof.Laws

/-! ### The ALIGN row sent (R56) -/

theorem mem_lanes15 {n : Nat} (h : n ∈ lanes15) : 1 ≤ n ∧ n < 16 := by
  simp only [lanes15, List.mem_map, List.mem_range] at h
  omega

/-- What the ALIGN row is to leave once its number is shown: the number, the receive groups and the memories. -/
def afterSeq (g : Fin 16) (s : State) := (s.rd (.txg g) R.TXG_STATUS.align_seq, s.rx, s.mem)

section AfterSeq
variable (g : Fin 16) (s : State)

theorem afterSeq_wr (f : Fld) (v : Nat) (h : R.TXG_STATUS.align_seq.off ≠ f.off ∨ 24 + 16 ≤ f.lo ∨ f.lo + f.width ≤ 24) :
    afterSeq g (s.wr (.txg g) f v) = afterSeq g s :=
  congrArg (fun x => (x, s.rx, s.mem)) (rd_wr_keep s (.txg g) f R.TXG_STATUS.align_seq v h)

/-- The lane registers stand apart from TXG_STATUS. -/
theorem afterSeq_wrLane (f : Fld) (v : Nat) (h : 0x100 ≤ f.off) : afterSeq g (s.wr (.txg g) f v) = afterSeq g s :=
  afterSeq_wr g s f v (.inl (Nat.ne_of_lt (Nat.lt_of_lt_of_le (by decide) h)))

theorem afterSeq_setTx (x : TxSt) : afterSeq g (s.setTx g x) = afterSeq g s := rfl

theorem afterSeq_free (tag : Nat) : afterSeq g (s.free tag).2 = afterSeq g s := rfl

theorem SendStep.afterSeq {g : Fin 16} {s t : State} (h : SendStep g s t) : afterSeq g t = afterSeq g s := by
  unfold Proofs.afterSeq
  rw [h.rd _ (by decide), h.rx, h.mem]

theorem afterSeq_showTx : afterSeq g (showTx g s) = afterSeq g s := afterSeq_wr g s _ _ (.inr (.inr (by decide)))

theorem afterSeq_postpone (seq : Nat) : afterSeq g (postpone g seq s) = afterSeq g s := by
  unfold postpone
  refine each_keeps (afterSeq g) (fun a u => ?_) s
  dsimp only
  split
  · rfl
  · split
    · rfl
    · rfl

/-- A change that takes effect clears its lane's request. -/
theorem afterSeq_changeDone (a : Nat × Nat × Bool) : afterSeq g (s.each (lanesOf a.2.1) (fun n st =>
    (if a.2.2 then st.wr (.txg g) (R.TXG_LANE.restore n) 0 else st.wr (.txg g) (R.TXG_LANE.retire n) 0))) = afterSeq g s := by
  refine each_keeps (afterSeq g) (fun n u => ?_) s
  split
  · exact afterSeq_wrLane g u _ _ (Nat.le_add_right _ _)
  · exact afterSeq_wrLane g u _ _ (Nat.le_add_right _ _)

theorem opTxAlignRow_shape (h : s.txOn g = true) : ∃ (row : List (Nat × LBlock)) (u : State),
    opTxAlignRow g s = showTx g (sendRows g [row] u) ∧ (∀ x ∈ row, x.1 < 16) ∧
    afterSeq g u = afterSeq g (s.wr (.txg g) R.TXG_STATUS.align_seq ((s.rd (.txg g) R.TXG_STATUS.align_seq + 1) % 65536)) := by
  unfold opTxAlignRow
  rw [if_neg (by simp [h])]
  refine ⟨_, _, rfl, ?_, ?_⟩
  · intro x hx
    obtain ⟨n, hn, rfl⟩ := List.mem_map.1 hx
    exact (mem_lanes15 (List.mem_of_mem_filter hn)).2
  · refine (afterSeq_setTx g _ _).trans ((afterSeq_free g _ 30).trans ?_)
    refine (each_keeps (afterSeq g) (fun a u => ?preset) _).trans ((each_keeps (afterSeq g) (fun n u => ?retired) _).trans ?_)
    case preset => exact each_keeps (afterSeq g) (fun n u => afterSeq_wrLane g u _ _ (Nat.le_add_right _ _)) u
    case retired => exact afterSeq_wrLane g u _ _ (Nat.le_add_right _ _)
    refine (each_keeps (afterSeq g) (fun a u => afterSeq_changeDone g u a) _).trans ?_
    exact (afterSeq_wr _ _ _ _ (.inr (.inr (by decide)))).trans (afterSeq_postpone g _ _)

end AfterSeq

theorem line_showTx (g : Fin 16) (s : State) : (showTx g s).tx = s.tx := rfl

theorem txAlignRow_sent (s : State) (g : Fin 16) (h : s.txOn g = true) : Completes (.txAlignRow g) s (fun t =>
    t.rd (.txg g) R.TXG_STATUS.align_seq = (s.rd (.txg g) R.TXG_STATUS.align_seq + 1) % 65536 ∧ (t.tx[g]).line.length = 1 ∧
    t.rx = s.rx ∧ t.mem = s.mem) := by
  obtain ⟨row, u, hop, hrow, hu⟩ := opTxAlignRow_shape g s h
  have hsent : ∀ r ∈ [row], ∀ x ∈ r, x.1 < 16 := fun r hr => by rwa [List.mem_singleton.1 hr]
  have hseq := (afterSeq_showTx g _).trans ((sendStep_sendRows g [row] u hsent).afterSeq.trans hu)
  refine ⟨_, congrArg Host.Outcome.next hop, ?_, ?_, congrArg (·.2.1) hseq, congrArg (·.2.2) hseq⟩
  · refine (congrArg (·.1) hseq).trans ((rd_wr_val s _ R.TXG_STATUS.align_seq _ (by decide)).trans (Nat.mod_mod _ _))
  · rw [line_showTx, line_sendRows]
    rfl

/-! ### Data and fill rows sent (R77) -/

section TxSub
variable (s : State) (g : Fin 16) (k : Fin 5)

theorem setTxSub_tx (x : TxSub) : (s.setTxSub g k x).tx[g] = { s.tx[g] with subs := (s.tx[g]).subs.set k x } := setTx_self _ _ _

theorem setTxSub_self (x : TxSub) : ((s.setTxSub g k x).tx[g]).subs[k] = x := by
  rw [setTxSub_tx]
  exact Vector.getElem_set_self _

/-- A sub-stream put where it stands. -/
theorem setTxSub_same : s.setTxSub g k (s.tx[g]).subs[k] = s := by
  have hsubs : (s.tx[g]).subs.set k (s.tx[g]).subs[k] = (s.tx[g]).subs := Vector.set_getElem_self _
  have htx : s.tx.set g (s.tx[g]) = s.tx := Vector.set_getElem_self _
  change { s with tx := s.tx.set g { s.tx[g] with subs := (s.tx[g]).subs.set k (s.tx[g]).subs[k] } } = s
  rw [hsubs]
  exact congrArg (fun tx => { s with tx := tx }) htx

theorem setTxSub_blocks : s.setTxSub g k { (s.tx[g]).subs[k] with blocks := ((s.tx[g]).subs[k]).blocks } = s := setTxSub_same s g k

end TxSub

theorem mem_subLanes {sp k mask n : Nat} (h : n ∈ subLanes sp k mask) : n < 16 := by
  unfold subLanes at h
  split at h
  · simp at h
  · next hk =>
    obtain ⟨j, hj, rfl⟩ := List.mem_map.1 (List.mem_of_mem_filter h)
    have hj' := List.mem_range.1 hj
    unfold splitSubs at hk
    unfold splitLanes at hj' ⊢
    split at hk <;> simp at hk hj' ⊢ <;> omega

section TxLine
variable (g : Fin 16) (k : Fin 5) (s : State)

theorem mem_wholeRow {row : List (Nat × LBlock)} {y : Nat × LBlock} (h : y ∈ s.wholeRow g k row) : y.1 < 16 := by
  obtain ⟨n, hn, rfl⟩ := List.mem_map.1 h
  have hlane : ((row.find? fun x => x.1 = n).getD (n, ctrlBlock 0x1E 0)).1 = n := by
    cases hf : row.find? fun x => x.1 = n with
    | none => rfl
    | some x => exact of_decide_eq_true (List.find?_some (p := fun x : Nat × LBlock => decide (x.1 = n)) hf)
  rw [hlane]
  exact mem_subLanes hn

/-- The sub-stream whose block times rows take. -/
def rowsPass (rows : Nat) (s : State) : State :=
  let y := (s.tx[g]).subs[k]
  s.setTxSub g k { y with sinceMsg := y.sinceMsg + rows, sinceCmd := y.sinceCmd + rows }

theorem txLine_eq (rows : List (List (Nat × LBlock))) :
    txLine g k rows s = showEmit g (sendRows g (rows.map (s.wholeRow g k)) (rowsPass g k rows.length s)) := rfl

theorem sendStep_txLine (rows : List (List (Nat × LBlock))) :
    SendStep g (rowsPass g k rows.length s) (sendRows g (rows.map (s.wholeRow g k)) (rowsPass g k rows.length s)) := by
  refine sendStep_sendRows g _ _ fun r hr y hy => ?_
  obtain ⟨row, -, rfl⟩ := List.mem_map.1 hr
  exact mem_wholeRow g k s hy

theorem txLine_line (rows : List (List (Nat × LBlock))) : ((txLine g k rows s).tx[g]).line = rows.map (s.wholeRow g k) :=
  line_sendRows g _ _

theorem txLine_blocks (rows : List (List (Nat × LBlock))) : (((txLine g k rows s).tx[g]).subs[k]).blocks = ((s.tx[g]).subs[k]).blocks := by
  have hsubs := (sendStep_txLine g k s rows).subs
  change (((sendRows g (rows.map (s.wholeRow g k)) (rowsPass g k rows.length s)).tx[g]).subs[k]).blocks = _
  rw [hsubs]
  unfold rowsPass
  dsimp only
  rw [setTxSub_self]

/-- Sending shows in the pattern registers and in the level of emit[g]. -/
theorem txLine_rd (rows : List (List (Nat × LBlock))) (f : Fld) (hf : f.off < 0x300) (hlevel : f.off ≠ R.TXG_FERRY.level.off) :
    (txLine g k rows s).rd (.txg g) f = s.rd (.txg g) f := by
  have hmark : f.off ≠ R.TXG_FERRY.high_water.off := hlevel
  rw [txLine_eq]
  unfold showEmit
  dsimp only
  rw [rd_wr_keep _ _ _ _ _ (.inl hmark), rd_wr_keep _ _ _ _ _ (.inl hlevel), (sendStep_txLine g k s rows).rd f hf]
  rfl

theorem txLine_keeps (rows : List (List (Nat × LBlock))) : HostKeeps (InSlot (.txg g)) s (txLine g k rows s) := by
  have hpass : HostKeeps (InSlot (.txg g)) s (rowsPass g k rows.length s) := (HostKeeps.refl _ s).setTx _ _
  rw [txLine_eq]
  exact ((hpass.trans (sendStep_txLine g k s rows).keeps).wr _ (inSlot_base _ (by decide))).wr _ (inSlot_base _ (by decide))

end TxLine

theorem takeMessage_none {g : Fin 16} {k : Fin 5} {s : State} (h : ((s.tx[g]).subs[k]).sinceMsg < 1024) : takeMessage g k s = (s, []) := by
  unfold takeMessage
  exact if_pos (Bool.or_eq_true_iff.2 (.inl (decide_eq_true h)))

section Rows
variable (s : State) (g : Fin 16) (k : Fin 5)

/-- What packing the next data row of sub-stream `k` takes from emit[g] (R53, R77): the rest of the queue, the bits, their count, and the samples. -/
def packed : List EmitSmp × Nat × Nat × Nat :=
  packGo (s.rd (.txg g) (R.TXG_SS.format k)) (64 * (s.txLanes g k).length) ((s.tx[g]).subs[k]).queue ((s.tx[g]).subs[k]).buf
    ((s.tx[g]).subs[k]).len 0

/-- A whole data row of a run under way, with no message due. -/
theorem opTxDataRow_whole (hon : s.txOn g = true) (hret : s.flag (.txg g) R.TXG_CFG.return_mode = false)
    (hen : s.flag (.txg g) (R.TXG_SS.enable k) = true) (hns : s.txLanes g k ≠ [])
    (hfmt : fmtValid (s.rd (.txg g) (R.TXG_SS.format k)) = true) (hrun : s.txRuns g k = true) (hmsg : ((s.tx[g]).subs[k]).sinceMsg < 1024)
    (hwhole : 64 * (s.txLanes g k).length ≤ (packed s g k).2.2.1) : ∃ row x,
      opTxDataRow g k s = txLine g k [row] (((s.free 31).2.wr (.txg g) (R.TXG_SAMPLES.index k)
        (s.rd (.txg g) (R.TXG_SAMPLES.index k) + (packed s g k).2.2.2)).setTxSub g k x) ∧
      x.blocks = ((s.tx[g]).subs[k]).blocks + (s.txLanes g k).length := by
  have hlt : ¬ (packed s g k).2.2.1 < 64 * (s.txLanes g k).length := Nat.not_lt.2 hwhole
  unfold packed at hlt ⊢
  unfold opTxDataRow
  simp only [hon, hret, hen, hns, hfmt, hrun, setTxSub_blocks, takeMessage_none hmsg, hlt, Bool.not_true, Bool.or_false, Bool.false_and,
    decide_false, if_false, Bool.false_eq_true]
  exact ⟨_, _, rfl, rfl⟩

theorem txDataRow_sent (hon : s.txOn g = true) (hret : s.flag (.txg g) R.TXG_CFG.return_mode = false)
    (hen : s.flag (.txg g) (R.TXG_SS.enable k) = true) (hns : s.txLanes g k ≠ [])
    (hfmt : fmtValid (s.rd (.txg g) (R.TXG_SS.format k)) = true) (hrun : s.txRuns g k = true) (hmsg : ((s.tx[g]).subs[k]).sinceMsg < 1024)
    (hwhole : 64 * (s.txLanes g k).length ≤ (packed s g k).2.2.1) : Completes (.txDataRow g k) s (fun t =>
      ((t.tx[g]).subs[k]).blocks = ((s.tx[g]).subs[k]).blocks + (s.txLanes g k).length ∧
      t.rd (.txg g) (R.TXG_SAMPLES.index k) = (s.rd (.txg g) (R.TXG_SAMPLES.index k) + (packed s g k).2.2.2) % 2 ^ 64 ∧
      (t.tx[g]).line.length = 1 ∧ SameOutside (.txg g) s t) := by
  have hoff : (R.TXG_SAMPLES.index k).off < 0xA8 := by
    change 0x80 + 0x8 * k.val < 0xA8
    omega
  obtain ⟨row, x, hop, hx⟩ := opTxDataRow_whole s g k hon hret hen hns hfmt hrun hmsg hwhole
  refine ⟨_, congrArg Host.Outcome.next hop, ?_, ?_, ?_, ?_⟩
  · rw [txLine_blocks, setTxSub_self, hx]
  · rw [txLine_rd _ _ _ _ _ (hoff.trans (by decide)) (Nat.ne_of_lt (hoff.trans (by decide)))]
    exact rd_wr_val _ _ _ _ (by simp [R.TXG_SAMPLES.index])
  · rw [txLine_line]
    rfl
  · have hidx : InSlot (.txg g) ((Blk.txg g).base + (R.TXG_SAMPLES.index k).off) := inSlot_base _ (hoff.trans (by decide))
    have hfree : HostKeeps (InSlot (.txg g)) s (s.free 31).2 := (HostKeeps.refl _ s).same rfl rfl
    exact ((((hfree.wr _ hidx).setTx _ _).trans (txLine_keeps g k _ _))).sameOutside

/-- A fill row of a running sub-stream with an empty queue and no message due: IDLE, counted. -/
theorem opFillRow_idle (hon : s.txOn g = true) (hns : s.txLanes g k ≠ []) (hrun : s.txRuns g k = true)
    (hq : ((s.tx[g]).subs[k]).queue = []) (hmsg : ((s.tx[g]).subs[k]).sinceMsg < 1024) : opFillRow g k s =
      txLine g k [(s.txLanes g k).map (fun n => (n, ctrlBlock 0x1E 0))] (s.cnt (.txg g) (R.TXG_UNDERRUN.rows k) 1) := by
  unfold opFillRow
  simp only [hon, hns, hq, hrun, takeMessage_none hmsg, Bool.not_true, Bool.or_false, decide_false, if_false, if_true, Bool.false_eq_true]
  rfl

/-- A row of IDLE is IDLE on every lane TXG[g] drives. -/
theorem wholeRow_idle (ns : List Nat) : s.wholeRow g k (ns.map fun n => (n, ctrlBlock 0x1E 0)) =
    (subLanes (s.rd (.txg g) R.TXG_CFG.split) k (s.txPowered g)).map (fun n => (n, ctrlBlock 0x1E 0)) := by
  unfold State.wholeRow
  refine List.map_congr_left fun n _ => ?_
  cases hf : (ns.map fun n => (n, ctrlBlock 0x1E 0)).find? fun x => x.1 = n with
  | none => rfl
  | some x =>
    obtain ⟨m, -, rfl⟩ := List.mem_map.1 (List.mem_of_find?_eq_some hf)
    have hm : m = n := of_decide_eq_true (List.find?_some (p := fun x : Nat × LBlock => decide (x.1 = n)) hf)
    rw [hm]
    rfl

theorem fillRow_idle (hon : s.txOn g = true) (hns : s.txLanes g k ≠ []) (hrun : s.txRuns g k = true)
    (hq : ((s.tx[g]).subs[k]).queue = []) (hmsg : ((s.tx[g]).subs[k]).sinceMsg < 1024) : Completes (.fillRow g k) s (fun t =>
      (t.tx[g]).line = [(subLanes (s.rd (.txg g) R.TXG_CFG.split) k (s.txPowered g)).map (fun n => (n, ctrlBlock 0x1E 0))] ∧
      t.rd (.txg g) (R.TXG_UNDERRUN.rows k) = min (s.rd (.txg g) (R.TXG_UNDERRUN.rows k) + 1) (R.TXG_UNDERRUN.rows k).top ∧
      SameOutside (.txg g) s t) := by
  have hlo : 0xA8 ≤ (R.TXG_UNDERRUN.rows k).off := Nat.le_add_right _ _
  have hhi : (R.TXG_UNDERRUN.rows k).off < 0xD0 := by
    change 0xA8 + 0x8 * k.val < 0xD0
    omega
  have hcfg : ∀ f : Fld, f.off < 0xA8 → (s.cnt (.txg g) (R.TXG_UNDERRUN.rows k) 1).rd (.txg g) f = s.rd (.txg g) f := fun f hf =>
    rd_cnt_keep _ _ _ _ _ (.inl (Nat.ne_of_lt (hf.trans_le hlo)))
  have hpow : (s.cnt (.txg g) (R.TXG_UNDERRUN.rows k) 1).txPowered g = s.txPowered g := by
    unfold State.txPowered State.flag
    rw [hcfg _ (by decide), hcfg _ (by decide)]
  refine ⟨_, congrArg Host.Outcome.next (opFillRow_idle s g k hon hns hrun hq hmsg), ?_, ?_, ?_⟩
  · rw [txLine_line, List.map_singleton, wholeRow_idle, hpow, hcfg _ (by decide)]
  · rw [txLine_rd _ _ _ _ _ (hhi.trans (by decide)) (Nat.ne_of_lt (hhi.trans (by decide)))]
    exact rd_cnt_val _ _ _ _ (by simp [R.TXG_UNDERRUN.rows])
  · exact (((HostKeeps.refl _ s).cnt 1 (inSlot_base _ (hhi.trans (by decide)))).trans (txLine_keeps g k _ _)).sameOutside

end Rows
end Sys2Proof.Proofs

namespace Sys2Proof.Proofs
open Sys2Proof Sys2Proof.Machine Sys2Proof.Laws

/-! ### The state of a receive lane (R64, R74) -/

section Lane
variable (g : Fin 16) (n : Nat) (s : State)

/-- The registers of a lane lie in the slot of RXG[g]. -/
theorem inSlot_rxLane {o n : Nat} {f : Fld} (g : Fin 16) (hn : n < 16) (ho : o < 0x8000) (hf : f.off = o + 0x8 * n) :
    InSlot (.rxg g) ((Blk.rxg g).base + f.off) := inSlot_base _ (by omega)

/-- RXG_LANE[n] shows the state in its low bits. -/
theorem rd_showLane (f : Fld) (h : f.off ≠ 0x100 + 0x8 * n ∨ 4 ≤ f.lo) : (showLane g n s).rd (.rxg g) f = s.rd (.rxg g) f := by
  unfold showLane
  dsimp only
  rw [rd_wr_keep _ _ _ _ _ (h.imp_right .inr), rd_wr_keep _ _ _ _ _ (h.imp_right fun h => .inr (Nat.le_of_succ_le h))]

theorem showLane_keeps (hn : n < 16) : HostKeeps (InSlot (.rxg g)) s (showLane g n s) :=
  ((HostKeeps.refl _ s).wr _ (inSlot_rxLane g hn (by decide) rfl)).wr _ (inSlot_rxLane g hn (by decide) rfl)

theorem syncChecker_keeps (hn : n < 16) : HostKeeps (InSlot (.rxg g)) s (syncChecker g n s) :=
  (((HostKeeps.refl _ s).setRx g _).wr _ (inSlot_rxLane g hn (by decide) rfl)).trans (showLane_keeps g n _ hn)

end Lane

/-! ### Pattern checkers and generators (R74, R75) -/

section Patterns
variable (s : State) (g n : Fin 16)

theorem prbsSync_declared (hup : s.linkUp = true) (hon : s.laneOn g n = true) (hcheck : s.flag (.rxg g) (R.RXG_PRBS.check n) = true) :
    Completes (.prbsSync g n) s (fun t => t.rd (.rxg g) (R.RXG_PRBS.sync n) = 1 ∧ SameOutside (.rxg g) s t) := by
  have hop : opPrbsSync g n s = s.wr (.rxg g) (R.RXG_PRBS.sync n) 1 := if_pos (by simp [hup, hon, hcheck])
  refine ⟨_, congrArg Host.Outcome.next hop, rd_wr_val _ _ _ _ (by simp [R.RXG_PRBS.sync]), ?_⟩
  exact ((HostKeeps.refl _ s).wr _ (inSlot_rxLane g n.isLt (by decide) rfl)).sameOutside

/-- The counters of a checker that loses sync. -/
def lossCounted (b e : Nat) : State :=
  ((s.cnt (.rxg g) (R.RXG_PRBS_BITS.bits n) b).cnt (.rxg g) (R.RXG_PRBS.errors n) e).cnt (.rxg g) (R.RXG_PRBS_BITS.sync_losses n) 1

theorem lossCounted_rd (b e : Nat) :
    (lossCounted s g n b e).rd (.rxg g) (R.RXG_PRBS.errors n) = min (s.rd (.rxg g) (R.RXG_PRBS.errors n) + e) (R.RXG_PRBS.errors n).top ∧
    (lossCounted s g n b e).rd (.rxg g) (R.RXG_PRBS_BITS.sync_losses n)
      = min (s.rd (.rxg g) (R.RXG_PRBS_BITS.sync_losses n) + 1) (R.RXG_PRBS_BITS.sync_losses n).top := by
  have hbits : (R.RXG_PRBS.errors n).off ≠ (R.RXG_PRBS_BITS.bits n).off := by simp [R.RXG_PRBS.errors, R.RXG_PRBS_BITS.bits]
  have hlosses : (R.RXG_PRBS.errors n).off ≠ (R.RXG_PRBS_BITS.sync_losses n).off := hbits
  unfold lossCounted
  constructor
  · rw [rd_cnt_keep _ _ _ _ _ (.inl hlosses), rd_cnt_val _ _ _ _ (by simp [R.RXG_PRBS.errors]), rd_cnt_keep _ _ _ _ _ (.inl hbits)]
  · rw [rd_cnt_val _ _ _ _ (by simp [R.RXG_PRBS_BITS.sync_losses]), rd_cnt_keep _ _ _ _ _ (.inl hlosses.symm),
      rd_cnt_keep _ _ _ _ _ (.inr (.inr (by simp [R.RXG_PRBS_BITS.sync_losses, R.RXG_PRBS_BITS.bits])))]

theorem lossCounted_keeps (b e : Nat) : HostKeeps (InSlot (.rxg g)) s (lossCounted s g n b e) :=
  (((HostKeeps.refl _ s).cnt b (inSlot_rxLane g n.isLt (by decide) rfl)).cnt e (inSlot_rxLane g n.isLt (by decide) rfl)).cnt 1
    (inSlot_rxLane g n.isLt (by decide) rfl)

/-- A checker that starts anew is out of sync; its counts stand. -/
theorem rd_syncChecker : (syncChecker g n s).rd (.rxg g) (R.RXG_PRBS.sync n) = 0 ∧
    ∀ f : Fld, 0x200 ≤ f.off → f.off ≠ (R.RXG_PRBS.sync n).off ∨ 4 ≤ f.lo → (syncChecker g n s).rd (.rxg g) f = s.rd (.rxg g) f := by
  have hlane : ∀ f : Fld, 0x200 ≤ f.off → f.off ≠ 0x100 + 0x8 * n.val ∨ 4 ≤ f.lo := fun f hf => .inl (by omega)
  unfold syncChecker
  dsimp only
  constructor
  · rw [rd_showLane _ _ _ _ (hlane _ (by simp only [R.RXG_PRBS.sync]; omega)), rd_wr_val _ _ _ _ (by simp [R.RXG_PRBS.sync])]
    rfl
  · intro f hf hapart
    rw [rd_showLane _ _ _ _ (hlane f hf), rd_wr_keep _ _ _ _ _ (hapart.imp_right fun h => .inr h), setRx_rd]

theorem prbsSyncLoss_counted (b e : Nat) (hup : s.linkUp = true) (hon : s.laneOn g n = true)
    (hsync : s.flag (.rxg g) (R.RXG_PRBS.sync n) = true) :
    Completes (.prbsSyncLoss g n b e) s (fun t => t.rd (.rxg g) (R.RXG_PRBS.sync n) = 0 ∧
      t.rd (.rxg g) (R.RXG_PRBS.errors n) = min (s.rd (.rxg g) (R.RXG_PRBS.errors n) + e) (R.RXG_PRBS.errors n).top ∧
      t.rd (.rxg g) (R.RXG_PRBS_BITS.sync_losses n)
        = min (s.rd (.rxg g) (R.RXG_PRBS_BITS.sync_losses n) + 1) (R.RXG_PRBS_BITS.sync_losses n).top ∧ SameOutside (.rxg g) s t) := by
  have hop : opPrbsSyncLoss g n b e s = syncChecker g n (lossCounted s g n b e) := if_neg (by simp [hup, hon, hsync])
  obtain ⟨hzero, hkeep⟩ := rd_syncChecker (lossCounted s g n b e) g n
  obtain ⟨herrors, hlosses⟩ := lossCounted_rd s g n b e
  refine ⟨_, congrArg Host.Outcome.next hop, hzero, (hkeep _ ?_ ?_).trans herrors, (hkeep _ ?_ ?_).trans hlosses, ?_⟩
  · simp only [R.RXG_PRBS.errors]
    omega
  · exact .inr (by simp [R.RXG_PRBS.errors])
  · simp only [R.RXG_PRBS_BITS.sync_losses]
    omega
  · exact .inr (by simp [R.RXG_PRBS_BITS.sync_losses])
  · exact ((lossCounted_keeps s g n b e).trans (syncChecker_keeps g n _ n.isLt)).sameOutside

theorem inject_counted (hoff : s.dev ≠ .off) (hboot : s.dev ≠ .boot) (hn : n ≠ 0) (hon : s.txOn g = true)
    (hmode : s.rd (.txg g) (R.TXG_PRBS.inject_mode n) = 1) : Completes (.inject g n) s (fun t =>
      t.rd (.txg g) (R.TXG_PRBS.injected n) = min (s.rd (.txg g) (R.TXG_PRBS.injected n) + 1) (R.TXG_PRBS.injected n).top ∧
      t.rd (.txg g) (R.TXG_PRBS.inject n) = 0 ∧ SameOutside (.txg g) s t) := by
  have hmode' : (s.wr (.txg g) (R.TXG_PRBS.inject n) 0).rd (.txg g) (R.TXG_PRBS.inject_mode n) = 1 := by
    rw [rd_wr_keep _ _ _ _ _ (.inr (.inl (by simp [R.TXG_PRBS.inject_mode, R.TXG_PRBS.inject]))), hmode]
  have hop : opInject g n s = invertBits g n 1 (s.wr (.txg g) (R.TXG_PRBS.inject n) 0) := by
    unfold opInject
    rw [if_neg (by simp [hn, hon])]
    dsimp only
    rw [hmode']
    rfl
  have hslot : ∀ f : Fld, f.off = 0x300 + 0x8 * n.val → InSlot (.txg g) ((Blk.txg g).base + f.off) := fun f hf => inSlot_base _ (by omega)
  have hapart : (R.TXG_PRBS.inject n).lo + (R.TXG_PRBS.inject n).width ≤ (R.TXG_PRBS.injected n).lo := by
    simp [R.TXG_PRBS.inject, R.TXG_PRBS.injected]
  refine ⟨_, congrArg Host.Outcome.next ((onWrite_of_on _ hoff hboot).trans hop), ?_, ?_, ?_⟩
  · exact (rd_cnt_val _ _ _ _ (by simp [R.TXG_PRBS.injected])).trans (by rw [setTx_rd, rd_wr_keep _ _ _ _ _ (.inr (.inr hapart))])
  · exact (rd_cnt_keep _ _ _ _ _ (.inr (.inl hapart))).trans (rd_wr_val _ _ _ _ (by simp [R.TXG_PRBS.inject]))
  · exact ((((HostKeeps.refl _ s).wr _ (hslot _ rfl)).setTx _ _).cnt _ (hslot _ rfl)).sameOutside

end Patterns

/-! ### The eye scan (R72) -/

/-- The scan of lane `n` shows `v`, and nothing outside RXG[g]'s slot differs from `s`. -/
structure FomShown (g n : Fin 16) (v : Nat) (s t : State) : Prop where
  fom : t.rd (.rxg g) (R.RXG_LANE.fom n) = v
  keeps : HostKeeps (InSlot (.rxg g)) s t

theorem FomShown.wr {g n : Fin 16} {v : Nat} {s t : State} (h : FomShown g n v s t) {f : Fld} (x o : Nat) (hf : f.off = o + 0x8 * n.val)
    (ho : o < 0x8000) (hapart : o ≠ 0x100 ∨ f.lo + f.width ≤ 8) : FomShown g n v s (t.wr (.rxg g) f x) := by
  refine ⟨(rd_wr_keep _ _ _ _ _ ?_).trans h.fom, h.keeps.wr x (inSlot_rxLane g n.isLt ho hf)⟩
  have hoff : (R.RXG_LANE.fom n).off = 0x100 + 0x8 * n.val := rfl
  exact hapart.imp (by omega) fun h => .inr h

theorem FomShown.ite {g n : Fin 16} {v : Nat} {s t u : State} {c : Prop} [Decidable c] (ht : FomShown g n v s t) (hu : FomShown g n v s u) :
    FomShown g n v s (if c then t else u) := iteInduction (fun _ => ht) (fun _ => hu)

theorem fomScan_shown (s : State) (g n : Fin 16) (p : Nat) (c : BitVec 5) (d : BitVec 40) (hn : n ≠ 0) (hup : s.linkUp = true)
    (hon : s.laneOn g n = true) : Completes (.fomScan g n p c d) s (fun t =>
      t.rd (.rxg g) (R.RXG_LANE.fom n) = min 255 p ∧ SameOutside (.rxg g) s t) := by
  have hfom : FomShown g n (min 255 p) s (s.wr (.rxg g) (R.RXG_LANE.fom n) (min 255 p)) := by
    refine ⟨(rd_wr_val _ _ _ _ (by simp [R.RXG_LANE.fom])).trans (Nat.mod_eq_of_lt ?_),
      (HostKeeps.refl _ s).wr _ (inSlot_rxLane g n.isLt (by decide) rfl)⟩
    change min 255 p < 256
    omega
  have hscan : FomShown g n (min 255 p) s (opFomScan g n p c d s) := by
    unfold opFomScan
    rw [if_neg (by simp [hn, hup, hon])]
    extract_lets fom shown adapted warned low group scanned
    have hadapted : FomShown g n (min 255 p) s adapted :=
      hfom.ite ((hfom.wr _ 0x280 rfl (by decide) (.inl (by decide))).wr _ 0x280 rfl (by decide) (.inl (by decide)))
    have hwarned : FomShown g n (min 255 p) s warned :=
      (hadapted.wr 1 0x100 rfl (by decide) (.inr (by simp [R.RXG_LANE.fom_warn]))).ite hadapted
    have hscanned : FomShown g n (min 255 p) s scanned := ⟨hwarned.fom, hwarned.keeps.setRx g _⟩
    exact FomShown.ite ⟨hscanned.fom, hscanned.keeps.setTx g _⟩ hscanned
  exact ⟨_, rfl, hscan.fom, hscan.keeps.sameOutside⟩

/-- Settles O18: sent rows by what sending leaves of TXG[g] (`SendStep`, `txLine_rd`); the scrambler bit by bit, for each bit rests on
bits that the descrambler has; scans and patterns by their own registers. -/
theorem sentRowsAndTests : Obligations.SentRowsAndTests := by
  unfold Obligations.SentRowsAndTests
  exact ⟨txAlignRow_sent, descramble_scramble, txDataRow_sent, fillRow_idle, fomScan_shown, prbsSync_declared, prbsSyncLoss_counted,
    inject_counted⟩

end Sys2Proof.Proofs

namespace Sys2Proof.Proofs
open Sys2Proof Sys2Proof.Machine Sys2Proof.Laws

/-! ### What a change of lane states leaves (R64) -/

/-- `t` comes from `s` by changes of the states of lanes in `N`: of RXG[g]'s registers those from RXG_LANE on may change, of its own records
the lanes' states. -/
structure LaneStep (g : Fin 16) (N : Nat → Prop) (s t : State) : Prop where
  keeps : HostKeeps (InSlot (.rxg g)) s t
  rd : ∀ f : Fld, f.off < 0x100 → t.rd (.rxg g) f = s.rd (.rxg g) f
  rest : t.rx[g] = { s.rx[g] with lane := (t.rx[g]).lane, lock := (t.rx[g]).lock, desk := (t.rx[g]).desk }
  lane : ∀ m, ¬ N m → t.laneState g m = s.laneState g m

section LaneStep
variable {g : Fin 16} {N : Nat → Prop} {s t u : State}

theorem LaneStep.refl (g : Fin 16) (N : Nat → Prop) (s : State) : LaneStep g N s s :=
  ⟨.refl _ s, fun _ _ => rfl, rfl, fun _ _ => rfl⟩

theorem LaneStep.trans (h : LaneStep g N s t) (k : LaneStep g N t u) : LaneStep g N s u :=
  ⟨h.keeps.trans k.keeps, fun f hf => (k.rd f hf).trans (h.rd f hf), by rw [k.rest, h.rest], fun m hm => (k.lane m hm).trans (h.lane m hm)⟩

theorem LaneStep.mono {M : Nat → Prop} (h : LaneStep g N s t) (hm : ∀ n, N n → M n) : LaneStep g M s t :=
  ⟨h.keeps, h.rd, h.rest, fun m hn => h.lane m fun k => hn (hm m k)⟩

theorem LaneStep.each {β : Type} (l : List β) (f : β → Op) (hf : ∀ x ∈ l, ∀ s, LaneStep g N s (f x s)) :
    ∀ s : State, LaneStep g N s (s.each l f) := by
  induction l with
  | nil => exact fun s => .refl g N s
  | cons x l ih => exact fun s => (hf x List.mem_cons_self s).trans (ih (fun y hy => hf y (List.mem_cons_of_mem x hy)) (f x s))

theorem LaneStep.flag (h : LaneStep g N s t) (f : Fld) (hf : f.off < 0x100) : t.flag (.rxg g) f = s.flag (.rxg g) f := by
  unfold State.flag
  rw [h.rd f hf]

theorem LaneStep.matched (h : LaneStep g N s t) : (t.rx[g]).matched = (s.rx[g]).matched := by rw [h.rest]

theorem LaneStep.laneOn (h : LaneStep g N s t) (n : Nat) : t.laneOn g n = s.laneOn g n := by
  unfold State.laneOn
  rw [h.rd _ (by decide)]

/-- A register of the lanes that says nothing of their states. -/
theorem laneStep_wr {o n : Nat} {f : Fld} (v : Nat) (hn : n < 16) (ho : 0x100 ≤ o) (ho' : o < 0x8000) (hf : f.off = o + 0x8 * n) (s : State) :
    LaneStep g N s (s.wr (.rxg g) f v) :=
  ⟨(HostKeeps.refl _ s).wr v (inSlot_rxLane g hn ho' hf), fun k hk => rd_wr_keep _ _ _ _ _ (.inl (by omega)), rfl, fun _ _ => rfl⟩

theorem laneStep_cnt {o n : Nat} {f : Fld} (v : Nat) (hn : n < 16) (ho : 0x100 ≤ o) (ho' : o < 0x8000) (hf : f.off = o + 0x8 * n) (s : State) :
    LaneStep g N s (s.cnt (.rxg g) f v) := by
  unfold State.cnt
  split
  · exact .refl g N s
  · exact laneStep_wr _ hn ho ho' hf s

end LaneStep

section SetLane
variable (g : Fin 16) (n st : Nat) (lock desk : Bool) (s : State)

theorem setLaneTo_rx : (setLaneTo g n st lock desk s).rx[g] = { s.rx[g] with
    lane := SMap.set (fun _ => 0) (s.rx[g]).lane n st
    lock := SMap.set noBad (s.rx[g]).lock n lock
    desk := SMap.set noBad (s.rx[g]).desk n desk } := setRx_self _ _ _

theorem laneState_setLaneTo (m : Nat) : (setLaneTo g n st lock desk s).laneState g m = if m = n then st else s.laneState g m := by
  unfold State.laneState
  rw [setLaneTo_rx]
  exact get_set _ _ _ _ _

theorem laneLock_setLaneTo : (setLaneTo g n st lock desk s).laneLock g n = lock := by
  unfold State.laneLock
  rw [setLaneTo_rx]
  exact get_set_self _ _ _ _

theorem laneDesk_setLaneTo : (setLaneTo g n st lock desk s).laneDesk g n = desk := by
  unfold State.laneDesk
  rw [setLaneTo_rx]
  exact get_set_self _ _ _ _

theorem rd_setLaneTo (f : Fld) (h : f.off ≠ 0x100 + 0x8 * n ∨ 4 ≤ f.lo) : (setLaneTo g n st lock desk s).rd (.rxg g) f = s.rd (.rxg g) f :=
  rd_showLane g n _ f h

theorem laneStep_setLaneTo (hn : n < 16) : LaneStep g (· = n) s (setLaneTo g n st lock desk s) := by
  refine ⟨((HostKeeps.refl _ s).setRx g _).trans (showLane_keeps g n _ hn), fun f hf => rd_setLaneTo _ _ _ _ _ _ f (.inl (by omega)), ?_, ?_⟩
  · rw [setLaneTo_rx]
  · exact fun m hm => (laneState_setLaneTo ..).trans (if_neg hm)

end SetLane

/-! ### The group state (R437) -/

section ShowGroup
variable (g : Fin 16) (s : State)

theorem rd_showGroup (f : Fld) (h : f.off ≠ 0x70 ∨ 3 ≤ f.lo) : (showGroup g s).rd (.rxg g) f = s.rd (.rxg g) f :=
  rd_wr_keep _ _ _ _ _ (h.imp_right .inr)

theorem showGroup_keeps : HostKeeps (InSlot (.rxg g)) s (showGroup g s) := (HostKeeps.refl _ s).wr _ (inSlot_base _ (by decide))

@[simp] theorem showGroup_rx : (showGroup g s).rx = s.rx := rfl
@[simp] theorem showGroup_laneState (n : Nat) : (showGroup g s).laneState g n = s.laneState g n := rfl
@[simp] theorem showGroup_laneLock (n : Nat) : (showGroup g s).laneLock g n = s.laneLock g n := rfl
@[simp] theorem showGroup_laneDesk (n : Nat) : (showGroup g s).laneDesk g n = s.laneDesk g n := rfl

/-- A lane takes a state, and the group shows it. -/
theorem showGroup_setLaneTo (n : Fin 16) (st : Nat) (lock desk : Bool) : let t := showGroup g (setLaneTo g n st lock desk s)
    t.laneState g n = st ∧ t.laneLock g n = lock ∧ t.laneDesk g n = desk ∧ (∀ m, m ≠ n.val → t.laneState g m = s.laneState g m) ∧
    HostKeeps (InSlot (.rxg g)) s t := by
  refine ⟨?_, ?_, ?_, fun m hm => ?_, (laneStep_setLaneTo g n st lock desk s n.isLt).keeps.trans (showGroup_keeps g _)⟩
  · rw [showGroup_laneState, laneState_setLaneTo, if_pos rfl]
  · rw [showGroup_laneLock, laneLock_setLaneTo]
  · rw [showGroup_laneDesk, laneDesk_setLaneTo]
  · rw [showGroup_laneState, laneState_setLaneTo, if_neg hm]

end ShowGroup

/-! ### The states of the sub-streams -/

section SubStates
variable (g : Fin 16) (k : Fin 5) (s : State)

theorem ssState_wr (v : Nat) (j : Fin 5) : (s.wr (.rxg g) (ssFld k) v).ssState g j = if j = k then v % 8 else s.ssState g j := by
  have hoff : ∀ i : Fin 5, (ssFld i).off = 0x70 ∧ (ssFld i).lo = 40 + 3 * i.val ∧ (ssFld i).width = 3 := fun i => ⟨rfl, rfl, rfl⟩
  obtain ⟨-, hlo, hw⟩ := hoff k
  obtain ⟨-, hlo', hw'⟩ := hoff j
  unfold State.ssState
  by_cases h : j = k
  · rw [if_pos h, h, rd_wr_val _ _ _ _ (by omega)]
    rfl
  · have hv : j.val ≠ k.val := fun e => h (Fin.ext e)
    rw [if_neg h, rd_wr_keep _ _ _ _ _ (.inr (by omega))]

/-- The states of the sub-streams stand in RXG_STATUS from bit 40 on. -/
theorem rd_wr_ssFld (v : Nat) (f : Fld) (h : f.off ≠ 0x70 ∨ f.lo + f.width ≤ 40) :
    (s.wr (.rxg g) (ssFld k) v).rd (.rxg g) f = s.rd (.rxg g) f :=
  rd_wr_keep _ _ _ _ _ (h.imp_right fun h => .inl (Nat.le_trans h (Nat.le_add_right _ _)))

theorem inSlot_ssFld : InSlot (.rxg g) ((Blk.rxg g).base + (ssFld k).off) := inSlot_base (.rxg g) (show 0x70 < 0x10000 by decide)

theorem setSub_rx (x : RxSub) : (s.setSub g k x).rx[g] = { s.rx[g] with subs := (s.rx[g]).subs.set k x } := setRx_self _ _ _

theorem setSub_self (x : RxSub) : ((s.setSub g k x).rx[g]).subs[k] = x := by
  rw [setSub_rx]
  exact Vector.getElem_set_self _

@[simp] theorem setSub_rd (x : RxSub) (b : Blk) (f : Fld) : (s.setSub g k x).rd b f = s.rd b f := rfl
@[simp] theorem setSub_ssState (x : RxSub) (j : Fin 5) : (s.setSub g k x).ssState g j = s.ssState g j := rfl

theorem setSub_laneState (x : RxSub) (n : Nat) : (s.setSub g k x).laneState g n = s.laneState g n := by
  unfold State.laneState
  rw [setSub_rx]

theorem resync_running (reason : Nat) (h : s.ssState g k = 2) : resync g k reason s =
    (s.wr (.rxg g) (ssFld k) 3).setSub g k { (s.rx[g]).subs[k] with hole := reason, stale := false } := if_pos h

theorem ssState_resync (reason : Nat) (j : Fin 5) :
    (resync g k reason s).ssState g j = if j = k ∧ s.ssState g k = 2 then 3 else s.ssState g j := by
  by_cases h : s.ssState g k = 2
  · rw [resync_running g k s reason h, setSub_ssState, ssState_wr]
    simp [h]
  · simp [resync, h]

theorem rd_resync (reason : Nat) (f : Fld) (h : f.off ≠ 0x70 ∨ f.lo + f.width ≤ 40) :
    (resync g k reason s).rd (.rxg g) f = s.rd (.rxg g) f := by
  unfold resync
  split
  · exact rd_wr_ssFld g k s 3 f h
  · rfl

theorem resync_keeps (reason : Nat) : HostKeeps (InSlot (.rxg g)) s (resync g k reason s) := by
  unfold resync
  split
  · exact ((HostKeeps.refl _ s).wr 3 (inSlot_ssFld g k)).setRx _ _
  · exact .refl _ s

theorem laneState_resync (reason : Nat) (n : Nat) : (resync g k reason s).laneState g n = s.laneState g n := by
  unfold resync
  split
  · exact setSub_laneState g k _ _ n
  · rfl

theorem mem_subs5 : ∀ k : Fin 5, k ∈ subs5 := by decide

/-- Every running sub-stream resynchronises. -/
theorem ssState_resyncs (reason : Nat) (l : List (Fin 5)) : ∀ s : State, (s.ssState g k = 3 ∨ s.ssState g k = 2 ∧ k ∈ l) →
    (s.each l (fun j => resync g j reason)).ssState g k = 3 := by
  induction l with
  | nil => exact fun s h => h.resolve_right (by simp)
  | cons j l ih =>
    intro s h
    refine ih (resync g j reason s) ?_
    rw [ssState_resync]
    obtain h | ⟨h, hmem⟩ := h
    · by_cases hj : k = j
      · subst hj
        exact .inl (by simp [h])
      · exact .inl (by simp [hj, h])
    · by_cases hj : k = j
      · subst hj
        exact .inl (by simp [h])
      · exact .inr ⟨by simp [hj, h], (List.mem_cons.1 hmem).resolve_left hj⟩

end SubStates

/-! ### CK (R63) -/

/-- Every enabled lane hunts. -/
def lanesHunt (g : Fin 16) (s : State) : State := s.each (lanes15.filter (s.laneOn g)) (fun n => setLane g n 1 false)

theorem laneStep_lanesHunt (g : Fin 16) (s : State) : LaneStep g (fun _ => True) s (lanesHunt g s) :=
  LaneStep.each _ _ (fun n hn u => (laneStep_setLaneTo g n 1 _ false u (mem_lanes15 (List.mem_of_mem_filter hn)).2).mono fun _ _ => trivial) s

theorem laneState_lanesHunt (g : Fin 16) (s : State) {n : Nat} (hn : n ∈ lanes15) (hon : s.laneOn g n = true) :
    (lanesHunt g s).laneState g n = 1 := by
  refine each_establishes (Q := fun n u => u.laneState g n = 1) (fun m u => ?_) (fun m j u hmj hj => ?_) _ s n
    (.inl (List.mem_filter.2 ⟨hn, hon⟩))
  · exact (laneState_setLaneTo ..).trans (if_pos rfl)
  · exact (laneState_setLaneTo ..).trans ((if_neg hmj.symm).trans hj)

/-- CK present again: no ALIGN row is matched yet. -/
def ckSeen (g : Fin 16) (s : State) : State := (s.wr (.rxg g) R.RXG_STATUS.ck_present 1).setRx g { s.rx[g] with matched := false }

/-- CK lost and counted. -/
def ckCounted (g : Fin 16) (s : State) : State := (s.wr (.rxg g) R.RXG_STATUS.ck_present 0).cnt (.rxg g) R.RXG_CK.ck_losses 1

theorem laneOn_of_rd {g : Fin 16} {s t : State} (h : t.rd (.rxg g) R.RXG_CFG.lane_enable = s.rd (.rxg g) R.RXG_CFG.lane_enable) (n : Nat) :
    t.laneOn g n = s.laneOn g n := by
  unfold State.laneOn
  rw [h]

theorem ckLost_eq {g : Fin 16} {s : State} (h : s.flag (.rxg g) R.RXG_STATUS.ck_present = true) :
    ckLost g s = noteClocks (showGroup g ((lanesHunt g (ckCounted g s)).each subs5 (fun k => resync g k 1))) := if_neg (by simp [h])

/-- The loss of CK: shown and counted; enabled lanes hunt, running sub-streams resynchronise. -/
theorem ckLost_shown (g : Fin 16) (s : State) (h : s.flag (.rxg g) R.RXG_STATUS.ck_present = true) :
    (ckLost g s).rd (.rxg g) R.RXG_STATUS.ck_present = 0 ∧
    (ckLost g s).rd (.rxg g) R.RXG_CK.ck_losses = min (s.rd (.rxg g) R.RXG_CK.ck_losses + 1) 65535 ∧
    (∀ n ∈ lanes15, s.laneOn g n = true → (ckLost g s).laneState g n = 1) ∧
    (∀ k, s.ssState g k = 2 → (ckLost g s).ssState g k = 3) ∧ HostKeeps (InSlot (.rxg g)) s (ckLost g s) := by
  have hlane := laneStep_lanesHunt g (ckCounted g s)
  have hfld : ∀ f : Fld, f.off < 0x100 → f.off ≠ 0x70 ∨ 3 ≤ f.lo ∧ f.lo + f.width ≤ 40 →
      (ckLost g s).rd (.rxg g) f = (ckCounted g s).rd (.rxg g) f := fun f hf hapart => by
    rw [ckLost_eq h, rd_noteClocks, rd_showGroup _ _ _ (hapart.imp_right And.left)]
    exact (each_keeps (·.rd (.rxg g) f) (fun k u => rd_resync g k u 1 f (hapart.imp_right And.right)) _).trans (hlane.rd f hf)
  refine ⟨(hfld _ (by decide) (.inr (by decide))).trans ?_, (hfld _ (by decide) (.inl (by decide))).trans ?_, fun n hn hon => ?_,
    fun k hk => ?_, ?_⟩
  · exact (rd_cnt_keep _ _ _ _ _ (by decide)).trans (rd_wr_val _ _ _ _ (by decide))
  · refine (rd_cnt_val _ _ _ _ (by decide)).trans ?_
    rw [rd_wr_keep _ _ _ _ _ (by decide)]
    rfl
  · have hcfg : (ckCounted g s).rd (.rxg g) R.RXG_CFG.lane_enable = s.rd (.rxg g) R.RXG_CFG.lane_enable :=
      (rd_cnt_keep _ _ _ _ _ (by decide)).trans (rd_wr_keep _ _ _ _ _ (by decide))
    have hon' : (ckCounted g s).laneOn g n = true := (laneOn_of_rd hcfg n).trans hon
    rw [ckLost_eq h]
    exact (each_keeps (·.laneState g n) (fun k u => laneState_resync g k u 1 n) _).trans (laneState_lanesHunt g _ hn hon')
  · have hss : (lanesHunt g (ckCounted g s)).ssState g k = s.ssState g k :=
      (hlane.rd (ssFld k) (show 0x70 < 0x100 by decide)).trans ((rd_cnt_keep _ _ _ _ _ (.inl (show 0x70 ≠ 0x78 by decide))).trans
        (rd_wr_keep _ _ _ _ _ (.inr (.inr (show 3 + 1 ≤ 40 + 3 * k.val by omega)))))
    rw [ckLost_eq h]
    refine (rd_showGroup g _ (ssFld k) (.inr (show 3 ≤ 40 + 3 * k.val by omega))).trans ?_
    exact ssState_resyncs g k 1 subs5 _ (.inr ⟨hss.trans hk, mem_subs5 k⟩)
  · have hcount : HostKeeps (InSlot (.rxg g)) s (ckCounted g s) :=
      ((HostKeeps.refl _ s).wr 0 (inSlot_base _ (by decide))).cnt 1 (inSlot_base _ (by decide))
    rw [ckLost_eq h]
    exact (((hcount.trans hlane.keeps).trans (HostKeeps.each _ _ (fun k _ u => resync_keeps g k u 1) _)).trans (showGroup_keeps g _)).same rfl rfl

end Sys2Proof.Proofs

namespace Sys2Proof.Proofs
open Sys2Proof Sys2Proof.Machine Sys2Proof.Laws

/-! ### CK windows (R63) -/

section Ck
variable (s : State) (g : Fin 16) (c : Nat)

/-- The deviation of `c` edges from the nominal count, in units of 10^-6 of an edge. -/
def ckDeviation : Int := ((c : Int) - ckNominal (s.rd (.rxg g) R.RXG_CFG.rate)) * 1000000

/-- The deviation is shown. -/
def ckMeasured : State :=
  s.wri (.rxg g) R.RXG_CK.ck_dev (sat 16 (rneDiv (ckDeviation s g c) (ckNominal (s.rd (.rxg g) R.RXG_CFG.rate))))

theorem rd_ckMeasured (f : Fld) (h : f.off ≠ 0x78 ∨ 16 ≤ f.lo) : (ckMeasured s g c).rd (.rxg g) f = s.rd (.rxg g) f :=
  rd_wr_keep _ _ _ _ _ (h.imp_right .inr)

theorem ckMeasured_keeps : HostKeeps (InSlot (.rxg g)) s (ckMeasured s g c) := (HostKeeps.refl _ s).wr _ (inSlot_base _ (by decide))

theorem flag_ckMeasured : (ckMeasured s g c).flag (.rxg g) R.RXG_STATUS.ck_present = s.flag (.rxg g) R.RXG_STATUS.ck_present := by
  unfold State.flag
  rw [rd_ckMeasured _ _ _ _ (by decide)]

/-- The count is within -600 and 1800 ppm of the nominal one. -/
def ckWithin : Prop := -600 * (ckNominal (s.rd (.rxg g) R.RXG_CFG.rate) : Int) ≤ ckDeviation s g c ∧
  ckDeviation s g c ≤ 1800 * (ckNominal (s.rd (.rxg g) R.RXG_CFG.rate) : Int)

section
variable {s g c} (hup : s.linkUp = true) (hloop : s.loops g = false)
include hup hloop

theorem opCkWindow_within (hin : ckWithin s g c) (hck : s.flag (.rxg g) R.RXG_STATUS.ck_present = false) :
    opCkWindow g c s = noteClocks (showGroup g (lanesHunt g (ckSeen g (ckMeasured s g c)))) := by
  have hck' := (flag_ckMeasured s g c).trans hck
  unfold ckWithin ckDeviation at hin
  unfold ckMeasured ckDeviation at hck' ⊢
  unfold opCkWindow
  simp only [hup, hloop, Bool.not_true, Bool.false_eq_true, if_false]
  rw [if_pos hin, if_neg (Bool.eq_false_iff.1 hck')]
  rfl

theorem opCkWindow_outside (hout : ¬ ckWithin s g c) : opCkWindow g c s = ckLost g (ckMeasured s g c) := by
  unfold ckWithin ckDeviation at hout
  unfold opCkWindow
  simp only [hup, hloop, Bool.not_true, Bool.false_eq_true, if_false]
  rw [if_neg hout]
  rfl

end

theorem ckNominal_pos (r : Nat) : 0 < ckNominal r := by
  unfold ckNominal
  split <;> decide

theorem ckDeviation_nominal : ckDeviation s g (ckNominal (s.rd (.rxg g) R.RXG_CFG.rate)) = 0 := by
  unfold ckDeviation
  rw [sub_self, zero_mul]

/-- No deviation is shown as 0. -/
theorem rd_ckMeasured_nominal : (ckMeasured s g (ckNominal (s.rd (.rxg g) R.RXG_CFG.rate))).rd (.rxg g) R.RXG_CK.ck_dev = 0 := by
  have hround : rneDiv 0 (ckNominal (s.rd (.rxg g) R.RXG_CFG.rate)) = 0 := by
    simp [rneDiv, ckNominal_pos]
  unfold ckMeasured
  rw [ckDeviation_nominal, hround]
  exact rd_wr_val _ _ _ _ (by decide)

theorem ckWindow_present (hup : s.linkUp = true) (hloop : s.loops g = false)
    (hck : s.flag (.rxg g) R.RXG_STATUS.ck_present = false) (hc : c = ckNominal (s.rd (.rxg g) R.RXG_CFG.rate)) :
    Completes (.ckWindow g c) s (fun t =>
      t.rd (.rxg g) R.RXG_STATUS.ck_present = 1 ∧ t.rd (.rxg g) R.RXG_CK.ck_dev = 0 ∧ (t.rx[g]).matched = false ∧
      (∀ n ∈ lanes15, s.laneOn g n = true → t.laneState g n = 1) ∧ SameOutside (.rxg g) s t) := by
  have hin : ckWithin s g c := by
    unfold ckWithin
    rw [hc, ckDeviation_nominal]
    omega
  have hdev : (ckMeasured s g c).rd (.rxg g) R.RXG_CK.ck_dev = 0 := hc ▸ rd_ckMeasured_nominal s g
  have hcfg : (ckMeasured s g c).rd (.rxg g) R.RXG_CFG.lane_enable = s.rd (.rxg g) R.RXG_CFG.lane_enable := rd_ckMeasured _ _ _ _ (by decide)
  have hkeep := ckMeasured_keeps s g c
  refine ⟨_, congrArg Host.Outcome.next (opCkWindow_within hup hloop hin hck), ?_⟩
  generalize ckMeasured s g c = u at hdev hcfg hkeep ⊢
  have hlane := laneStep_lanesHunt g (ckSeen g u)
  have hrd : ∀ f : Fld, f.off < 0x100 → f.off ≠ 0x70 ∨ 3 ≤ f.lo →
      (noteClocks (showGroup g (lanesHunt g (ckSeen g u)))).rd (.rxg g) f = (ckSeen g u).rd (.rxg g) f := fun f hf hapart => by
    rw [rd_noteClocks, rd_showGroup g _ f hapart, hlane.rd f hf]
  refine ⟨(hrd _ (by decide) (.inr (by decide))).trans ?_, (hrd _ (by decide) (.inl (by decide))).trans ?_, ?_, fun n hn hon => ?_, ?_⟩
  · exact rd_wr_val u _ R.RXG_STATUS.ck_present 1 (by decide)
  · exact (rd_wr_keep u _ R.RXG_STATUS.ck_present _ 1 (by decide)).trans hdev
  · change ((lanesHunt g (ckSeen g u)).rx[g]).matched = false
    rw [hlane.matched]
    unfold ckSeen
    rw [setRx_self]
  · have hseen : (ckSeen g u).rd (.rxg g) R.RXG_CFG.lane_enable = s.rd (.rxg g) R.RXG_CFG.lane_enable :=
      (rd_wr_keep u _ R.RXG_STATUS.ck_present _ 1 (by decide)).trans hcfg
    exact laneState_lanesHunt g _ hn ((laneOn_of_rd hseen n).trans hon)
  · have hseen : HostKeeps (InSlot (.rxg g)) s (ckSeen g u) := (hkeep.wr 1 (inSlot_base _ (by decide))).setRx g _
    exact (((hseen.trans hlane.keeps).trans (showGroup_keeps g _)).same rfl rfl).sameOutside

theorem ckWindow_lost (hup : s.linkUp = true) (hloop : s.loops g = false) (hck : s.flag (.rxg g) R.RXG_STATUS.ck_present = true)
    (hc : (c : Int) * 1000000 < 999400 * (ckNominal (s.rd (.rxg g) R.RXG_CFG.rate) : Int) ∨
      1001800 * (ckNominal (s.rd (.rxg g) R.RXG_CFG.rate) : Int) < (c : Int) * 1000000) : Completes (.ckWindow g c) s (fun t =>
      t.rd (.rxg g) R.RXG_STATUS.ck_present = 0 ∧
      t.rd (.rxg g) R.RXG_CK.ck_losses = min (s.rd (.rxg g) R.RXG_CK.ck_losses + 1) 65535 ∧ SameOutside (.rxg g) s t) := by
  have hout : ¬ ckWithin s g c := by
    unfold ckWithin ckDeviation
    omega
  obtain ⟨hpresent, hlosses, -, -, hkeep⟩ := ckLost_shown g (ckMeasured s g c) ((flag_ckMeasured s g c).trans hck)
  rw [rd_ckMeasured _ _ _ _ (by decide)] at hlosses
  exact ⟨_, congrArg Host.Outcome.next (opCkWindow_outside hup hloop hout), hpresent, hlosses,
    ((ckMeasured_keeps s g c).trans hkeep).sameOutside⟩

theorem ckLoss_lost (hup : s.linkUp = true) (hloop : s.loops g = false) (hck : s.flag (.rxg g) R.RXG_STATUS.ck_present = true) :
    Completes (.ckLoss g) s (fun t => t.rd (.rxg g) R.RXG_STATUS.ck_present = 0 ∧
      t.rd (.rxg g) R.RXG_CK.ck_losses = min (s.rd (.rxg g) R.RXG_CK.ck_losses + 1) 65535 ∧
      (∀ n ∈ lanes15, s.laneOn g n = true → t.laneState g n = 1) ∧ (∀ k, s.ssState g k = 2 → t.ssState g k = 3) ∧
      SameOutside (.rxg g) s t) := by
  have hop : opCkLoss g s = ckLost g s := if_pos (by simp [hup, hloop])
  obtain ⟨hpresent, hlosses, hlanes, hsubs, hkeep⟩ := ckLost_shown g s hck
  exact ⟨_, congrArg Host.Outcome.next hop, hpresent, hlosses, hlanes, hsubs, hkeep.sameOutside⟩

end Ck

/-! ### Block lock and alignment (R64) -/

section Lanes
variable (s : State) (g : Fin 16)

theorem blockLock_locks (n : LaneLine) (hup : s.linkUp = true) (hon : s.laneOn g n.lane = true)
    (hck : s.flag (.rxg g) R.RXG_STATUS.ck_present = true) (hst : s.laneState g n.lane = 1) : Completes (.blockLock g n) s (fun t =>
      t.laneState g n.lane = 2 ∧ (∀ m, m ≠ n.lane.val → t.laneState g m = s.laneState g m) ∧ SameOutside (.rxg g) s t) := by
  obtain ⟨u, hop, hlanes, hkeep⟩ : ∃ u, opBlockLock g n.lane n.line s = showGroup g (setLaneTo g n.lane 2 true false u) ∧
      (∀ m, u.laneState g m = s.laneState g m) ∧ HostKeeps (InSlot (.rxg g)) s u := by
    unfold opBlockLock
    simp only [hup, hon, hck, hst, Bool.and_self, Bool.not_true, Bool.false_eq_true, if_false, true_or, if_true]
    refine ⟨_, rfl, fun m => ?_, ?_⟩
    · split
      · rfl
      · unfold State.laneState
        rw [setRx_self]
    · exact iteInduction (fun _ => .refl _ s) (fun _ => (HostKeeps.refl _ s).setRx g _)
  obtain ⟨hstate, -, -, hother, hshow⟩ := showGroup_setLaneTo g u n.lane 2 true false
  exact ⟨_, congrArg Host.Outcome.next hop, hstate, fun m hm => (hother m hm).trans (hlanes m), (hkeep.trans hshow).sameOutside⟩

/-- Lost block lock is flagged and counted. -/
def lockLossShown (n : Fin 16) : State := (s.cnt (.rxg g) (R.RXG_LANE_ERR.lock_losses n) 1).wr (.rxg g) (R.RXG_LANE.lock_lost n) 1

theorem blockLockLoss_hunts (n : Fin 16) (hup : s.linkUp = true) (hst : 2 ≤ s.laneState g n) (hlock : s.laneLock g n = true) :
    Completes (.blockLockLoss g n) s (fun t =>
      t.laneState g n = (if s.laneState g n = 4 then 4 else 1) ∧ t.laneLock g n = false ∧ t.rd (.rxg g) (R.RXG_LANE.lock_lost n) = 1 ∧
      t.rd (.rxg g) (R.RXG_LANE_ERR.lock_losses n) = min (s.rd (.rxg g) (R.RXG_LANE_ERR.lock_losses n) + 1) (R.RXG_LANE_ERR.lock_losses n).top ∧
      (∀ m, m ≠ n.val → t.laneState g m = s.laneState g m) ∧ SameOutside (.rxg g) s t) := by
  have hop : opBlockLockLoss g n s =
      showGroup g (setLaneTo g n (if s.laneState g n = 4 then 4 else 1) false false (lockLossShown s g n)) := by
    unfold opBlockLockLoss
    dsimp only
    rw [if_neg (by simpa [hup, hlock] using Nat.lt_of_succ_le hst)]
    rfl
  have hlanes : ∀ m, (lockLossShown s g n).laneState g m = s.laneState g m := fun m => by
    have hrx : (lockLossShown s g n).rx = s.rx := by
      unfold lockLossShown State.cnt
      rfl
    unfold State.laneState
    rw [hrx]
  obtain ⟨hstate, hnone, -, hother, hshow⟩ :=
    showGroup_setLaneTo g (lockLossShown s g n) n (if s.laneState g n = 4 then 4 else 1) false false
  have hlost : (R.RXG_LANE.lock_lost n).off = 0x100 + 0x8 * n.val := rfl
  have hlosses : (R.RXG_LANE_ERR.lock_losses n).off = 0x200 + 0x8 * n.val := rfl
  refine ⟨_, congrArg Host.Outcome.next hop, hstate, hnone, ?_, ?_, fun m hm => (hother m hm).trans (hlanes m), ?_⟩
  · rw [rd_showGroup g _ _ (.inl (by omega)), rd_setLaneTo _ _ _ _ _ _ _ (.inr (by simp [R.RXG_LANE.lock_lost]))]
    exact rd_wr_val _ _ _ _ (by simp [R.RXG_LANE.lock_lost])
  · rw [rd_showGroup g _ _ (.inl (by omega)), rd_setLaneTo _ _ _ _ _ _ _ (.inl (by omega))]
    exact (rd_wr_keep _ _ _ _ _ (.inl (by omega))).trans (rd_cnt_val _ _ _ _ (by simp [R.RXG_LANE_ERR.lock_losses]))
  · have hkeep : HostKeeps (InSlot (.rxg g)) s (lockLossShown s g n) :=
      ((HostKeeps.refl _ s).cnt 1 (inSlot_rxLane g n.isLt (by decide) hlosses)).wr 1 (inSlot_rxLane g n.isLt (by decide) hlost)
    exact (hkeep.trans hshow).sameOutside

theorem alignLoss_locked (n : Fin 16) (hup : s.linkUp = true) (hlo : 3 ≤ s.laneState g n) (hhi : s.laneState g n ≤ 4) :
    Completes (.alignLoss g n) s (fun t =>
      t.laneState g n = (if s.laneState g n = 3 then 2 else 4) ∧ t.laneDesk g n = false ∧
      (∀ m, m ≠ n.val → t.laneState g m = s.laneState g m) ∧ SameOutside (.rxg g) s t) := by
  obtain ⟨lock, hop⟩ : ∃ lock, opAlignLoss g n s = showGroup g (setLaneTo g n (if s.laneState g n = 3 then 2 else 4) lock false s) := by
    unfold opAlignLoss
    dsimp only
    obtain h | h : s.laneState g n = 3 ∨ s.laneState g n = 4 := by omega
    · rw [if_pos (by simp [hup, h]), if_pos h]
      exact ⟨_, rfl⟩
    · rw [if_neg (by simp [h]), if_pos (by simp [hup, h]), if_neg (by simp [h])]
      exact ⟨_, rfl⟩
  obtain ⟨hstate, -, hdesk, hother, hshow⟩ := showGroup_setLaneTo g s n (if s.laneState g n = 3 then 2 else 4) lock false
  exact ⟨_, congrArg Host.Outcome.next hop, hstate, hdesk, hother, hshow.sameOutside⟩

end Lanes
end Sys2Proof.Proofs

namespace Sys2Proof.Proofs
open Sys2Proof Sys2Proof.Machine Sys2Proof.Laws

/-! ### A stream's map, changed by a receiver -/

section Maps
variable (s : State) (c : Nat) (m : EpochMap) (g : Fin 16)

theorem writesOnly_syncMap : WritesOnly (InSlot .timebase) s (syncMap s) := by
  have hslot : ∀ {f : Fld}, f.off < 0x10000 → InSlot .timebase (Blk.timebase.base + f.off) := fun h => inSlot_base _ h
  unfold syncMap State.wri
  extract_lets em at_ u v w
  have hu : WritesOnly (InSlot .timebase) s u := (writesOnly_wrw s (o := R.TB_MAP.n_e.off) _ (hslot (by decide))).trans
    (writesOnly_wrw _ (o := R.TB_MAP.t_e_lo.off) _ (hslot (by decide)))
  have hv : WritesOnly (InSlot .timebase) s v := (hu.wr _ (hslot (by decide))).wr _ (hslot (by decide))
  have hw : WritesOnly (InSlot .timebase) s w := (hv.wr _ (hslot (by decide))).wr _ (hslot (by decide))
  exact (hw.wr _ (hslot (by decide))).wr _ (hslot (by decide))

/-- A new map shows in the registers of the timebase only. -/
theorem setMap_keeps : HostKeeps (InSlot .timebase) s (s.setMap c m) :=
  let u : State := { s with tim.maps := SMap.set (fun _ => EpochMap.unmapped) s.tim.maps c m }
  have hu : HostKeeps (InSlot .timebase) s u := (HostKeeps.refl _ s).same rfl rfl
  hu.trans (writesOnly_syncMap u).hostKeeps

theorem setMap_rx : (s.setMap c m).rx = s.rx := by
  have h := (writesOnly_syncMap { s with tim.maps := SMap.set (fun _ => EpochMap.unmapped) s.tim.maps c m }).only
  unfold OnlyRegs at h
  unfold State.setMap
  rw [h]

theorem setMap_rd (f : Fld) (hf : f.off < 0x10000) : (s.setMap c m).rd (.rxg g) f = s.rd (.rxg g) f :=
  (setMap_keeps s c m).rd (by simp only [InSlot, Blk.base, Blk.slot]; omega)

end Maps

/-! ### STATUS (R57, R66, R67) -/

section Status
variable (s : State) (g : Fin 16) (k : Fin 5)

/-- The registers and records of a run that begins, but for its stream's map. -/
def runShown (fmt : Nat) : State :=
  ((s.setSub g k { RxSub.zero with
      run := ((s.rx[g]).subs[k]).run + 1, fmt := fmt, ctx := s.rd (.rxg g) (R.RXG_SS.stream k), crcRows := ((s.rx[g]).subs[k]).crcRows }).wr
    (.rxg g) (R.RXG_SAMPLES.index k) 0).wr (.rxg g) (ssFld k) 2

/-- The stream's map starts anew with the run; in a bond member 0's does. -/
def runMapped (fmt : Nat) : State :=
  if (runShown s g k fmt).flag (.rxg g) (R.RXG_SS.bonded k) && decide ((runShown s g k fmt).rd (.rxg g) (R.RXG_SS.member k) ≠ 0)
  then runShown s g k fmt else mapNewRun (s.rd (.rxg g) (R.RXG_SS.stream k)) (runShown s g k fmt)

theorem rxStart_eq (fmt : Nat) : rxStart g k fmt s =
    if ((runMapped s g k fmt).rx[g]).matched then stopBelowMin g k (runMapped s g k fmt) else runMapped s g k fmt := rfl

theorem stopBelowMin_enough (h : s.subShort g k = false) : stopBelowMin g k s = s := if_neg (by simp [h])

theorem subShort_of_rd {s t : State} {g : Fin 16} (k : Fin 5) (hsplit : t.rd (.rxg g) R.RXG_CFG.split = s.rd (.rxg g) R.RXG_CFG.split)
    (hmask : t.rd (.rxg g) R.RXG_STATUS.active_mask = s.rd (.rxg g) R.RXG_STATUS.active_mask) : t.subShort g k = s.subShort g k := by
  unfold State.subShort
  rw [hsplit, hmask]

theorem runShown_sub (fmt : Nat) : ((runShown s g k fmt).rx[g]).subs[k] = { RxSub.zero with
    run := ((s.rx[g]).subs[k]).run + 1, fmt := fmt, ctx := s.rd (.rxg g) (R.RXG_SS.stream k), crcRows := ((s.rx[g]).subs[k]).crcRows } :=
  setSub_self g k s _

theorem runShown_matched (fmt : Nat) : ((runShown s g k fmt).rx[g]).matched = (s.rx[g]).matched := by
  have hrx : (runShown s g k fmt).rx[g] = _ := setSub_rx g k s _
  rw [hrx]

theorem runMapped_rx (fmt : Nat) : (runMapped s g k fmt).rx = (runShown s g k fmt).rx := by
  unfold runMapped mapNewRun
  split
  · rfl
  · exact setMap_rx ..

theorem rd_runMapped (fmt : Nat) (f : Fld) (hf : f.off < 0x10000) :
    (runMapped s g k fmt).rd (.rxg g) f = (runShown s g k fmt).rd (.rxg g) f := by
  unfold runMapped mapNewRun
  split
  · rfl
  · exact setMap_rd _ _ _ g f hf

/-- A run begins where the active lanes are enough; its format register stays. -/
theorem rxStart_shown (fmt : Nat) (h : (s.rx[g]).matched = false ∨ s.subShort g k = false) :
    (rxStart g k fmt s).ssState g k = 2 ∧ (rxStart g k fmt s).rd (.rxg g) (R.RXG_SAMPLES.index k) = 0 ∧
    (((rxStart g k fmt s).rx[g]).subs[k]).run = ((s.rx[g]).subs[k]).run + 1 ∧ (((rxStart g k fmt s).rx[g]).subs[k]).blocks = 0 := by
  have hrx : ((runMapped s g k fmt).rx[g]) = ((runShown s g k fmt).rx[g]) := by rw [runMapped_rx]
  have hkeep : ∀ f : Fld, f.off ≠ 0x80 + 0x8 * k.val → f.off < 0x10000 → f.lo + f.width ≤ 40 →
      (runMapped s g k fmt).rd (.rxg g) f = s.rd (.rxg g) f := fun f hi hf hs =>
    (rd_runMapped s g k fmt f hf).trans ((rd_wr_ssFld g k _ 2 f (.inr hs)).trans (rd_wr_keep _ _ _ _ _ (.inl hi)))
  have hstart : rxStart g k fmt s = runMapped s g k fmt := by
    have hshort : (runMapped s g k fmt).subShort g k = s.subShort g k :=
      subShort_of_rd k (hkeep _ (show 0x40 ≠ 0x80 + 0x8 * k.val by omega) (by decide) (by decide))
        (hkeep _ (show 0x70 ≠ 0x80 + 0x8 * k.val by omega) (by decide) (by decide))
    rw [rxStart_eq]
    obtain hnone | henough := h
    · refine if_neg ?_
      rw [hrx, runShown_matched]
      exact Bool.eq_false_iff.1 hnone
    · rw [stopBelowMin_enough _ g k (hshort.trans henough), ite_self]
  have hoff : (R.RXG_SAMPLES.index k).off ≠ 0x70 := show 0x80 + 0x8 * k.val ≠ 0x70 by omega
  rw [hstart, hrx]
  refine ⟨?_, ?_, ?_, ?_⟩
  · exact (rd_runMapped s g k fmt _ (show 0x70 < 0x10000 by decide)).trans ((ssState_wr g k _ 2 k).trans (if_pos rfl))
  · rw [rd_runMapped s g k fmt _ (show 0x80 + 0x8 * k.val < 0x10000 by omega)]
    exact (rd_wr_ssFld g k _ 2 _ (.inl hoff)).trans (rd_wr_val _ _ _ _ (show 0 + 64 ≤ 64 by decide))
  · rw [runShown_sub]
  · rw [runShown_sub]
    rfl

theorem statusBody_start {body : Nat} (hon : s.ssState g k ≠ 0) (hfmt : body / 2 ^ 40 % 8 = s.rd (.rxg g) (R.RXG_SS.format k))
    (hstart : nbit body 43 = true) : statusBody g k body s = rxStart g k (body / 2 ^ 40 % 8) s := by
  unfold statusBody
  dsimp only
  rw [if_neg hon, if_neg (not_not.2 hfmt), if_pos hstart]

theorem statusStop_none {body : Nat} (hstop : nbit body 46 = false) : statusStop g k body s = s := if_neg (by simp [hstop])

theorem rxStatus_starts (b : BitVec 48) (hup : s.linkUp = true) (hon : s.ssState g k ≠ 0)
    (hfmt : b.toNat / 2 ^ 40 % 8 = s.rd (.rxg g) (R.RXG_SS.format k)) (hstart : nbit b.toNat 43 = true) (hstop : nbit b.toNat 46 = false)
    (h : (s.rx[g]).matched = false ∨ s.subShort g k = false) :
    Completes (.rxStatus g k b) s (fun t => t.ssState g k = 2 ∧ t.rd (.rxg g) (R.RXG_SAMPLES.index k) = 0 ∧
      ((t.rx[g]).subs[k]).run = ((s.rx[g]).subs[k]).run + 1 ∧ ((t.rx[g]).subs[k]).blocks = 0) := by
  have hop : opRxStatus g k b s = rxStart g k (b.toNat / 2 ^ 40 % 8) s := by
    unfold opRxStatus
    rw [if_pos hup, statusStop_none _ g k hstop, statusBody_start s g k hon hfmt hstart]
  exact ⟨_, congrArg Host.Outcome.next hop, rxStart_shown s g k _ h⟩

theorem statusTimeout_resync (hup : s.linkUp = true) (hrun : s.ssState g k = 2) : Completes (.statusTimeout g k) s (fun t =>
    t.ssState g k = 3 ∧ (∀ j, j ≠ k → t.ssState g j = s.ssState g j) ∧ SameOutside (.rxg g) s t) := by
  have hop : opStatusTimeout g k s = resync g k 1 s := if_pos hup
  refine ⟨_, congrArg Host.Outcome.next hop, ?_, fun j hj => ?_, (resync_keeps g k s 1).sameOutside⟩
  · rw [ssState_resync, if_pos ⟨rfl, hrun⟩]
  · rw [ssState_resync, if_neg (fun h => hj h.1)]

/-- A STATUS whose count agrees changes nothing but by its stop. -/
theorem statusBody_agrees {body : Nat} (hrun : s.ssState g k = 2) (hfmt : body / 2 ^ 40 % 8 = s.rd (.rxg g) (R.RXG_SS.format k))
    (hstart : nbit body 43 = false) (hcount : body % 2 ^ 40 = ((s.rx[g]).subs[k]).blocks % 2 ^ 40) : statusBody g k body s = s := by
  have hdiff : wrapS 40 (((body % 2 ^ 40 : Nat) : Int) - ((s.rx[g]).subs[k]).blocks) = 0 := by
    unfold wrapS
    omega
  unfold statusBody
  dsimp only
  rw [if_neg (by omega), if_neg (not_not.2 hfmt), hstart, hrun]
  exact (if_neg Bool.false_ne_true).trans (if_pos hdiff)

theorem rxStatus_agrees (b : BitVec 48) (hup : s.linkUp = true) (hrun : s.ssState g k = 2)
    (hfmt : b.toNat / 2 ^ 40 % 8 = s.rd (.rxg g) (R.RXG_SS.format k)) (hstart : nbit b.toNat 43 = false)
    (hcount : b.toNat % 2 ^ 40 = ((s.rx[g]).subs[k]).blocks % 2 ^ 40) : Completes (.rxStatus g k b) s (fun t =>
      t.ssState g k = (if nbit b.toNat 46 then 1 else 2) ∧ (∀ j, j ≠ k → t.ssState g j = s.ssState g j) ∧ t.rx = s.rx
      ∧ SameOutside (.rxg g) s t) := by
  have hop : opRxStatus g k b s = if nbit b.toNat 46 then s.wr (.rxg g) (ssFld k) 1 else s := by
    unfold opRxStatus
    rw [if_pos hup, statusBody_agrees s g k hrun hfmt hstart hcount]
    unfold statusStop
    rw [hrun, hfmt]
    simp
  refine ⟨_, congrArg Host.Outcome.next hop, ?_⟩
  by_cases hstop : nbit b.toNat 46 = true
  · rw [if_pos hstop, if_pos hstop]
    refine ⟨?_, fun j hj => ?_, rfl, ((HostKeeps.refl _ s).wr 1 (inSlot_ssFld g k)).sameOutside⟩
    · rw [ssState_wr, if_pos rfl]
    · rw [ssState_wr, if_neg hj]
  · rw [if_neg hstop, if_neg hstop]
    exact ⟨hrun, fun _ _ => rfl, rfl, fun _ _ => rfl⟩

end Status

/-! ### EPOCH and OVR (R58, R59) -/

section Marks
variable (s : State) (g : Fin 16) (k : Fin 5) (b : BitVec 48)

/-- A sub-stream that waits for its start shows EPOCH and pairs nothing. -/
theorem rxEpoch_shown (hup : s.linkUp = true) (hwait : s.ssState g k = 1) : Completes (.rxEpoch g k b) s (fun t =>
      t.rd (.rxg g) R.RXG_EPOCH_LAST.index = b.toNat ∧ t.rd (.rxg g) R.RXG_EPOCH_LAST.sub_stream = k.val ∧
      t.rd (.rxg g) R.RXG_EPOCH_LAST.valid = 1 ∧ SameOutside (.rxg g) s t) := by
  let t := ((s.wr (.rxg g) R.RXG_EPOCH_LAST.index b.toNat).wr (.rxg g) R.RXG_EPOCH_LAST.sub_stream k.val).wr (.rxg g) R.RXG_EPOCH_LAST.valid 1
  have hss : t.ssState g k = 1 := by
    have hoff : ∀ {f : Fld}, f.off = 0xd0 → (ssFld k).off ≠ f.off := fun h => h ▸ show 0x70 ≠ 0xd0 by decide
    exact (rd_wr_keep _ _ _ _ _ (.inl (hoff rfl))).trans
      ((rd_wr_keep _ _ _ _ _ (.inl (hoff rfl))).trans ((rd_wr_keep _ _ _ _ _ (.inl (hoff rfl))).trans hwait))
  have hwaits : t.ssState g k ≠ 2 ∧ t.ssState g k ≠ 3 := by omega
  have hop : opRxEpoch g k b s = t := by
    unfold opRxEpoch epochBody
    dsimp only
    rw [if_pos hup, if_neg (by omega)]
    exact if_pos hwaits
  refine ⟨t, congrArg Host.Outcome.next hop, ?_, ?_, rd_wr_val _ _ _ _ (by decide), ?_⟩
  · rw [rd_wr_keep _ _ _ _ _ (by decide), rd_wr_keep _ _ _ _ _ (by decide), rd_wr_val _ _ _ _ (by decide)]
    exact Nat.mod_eq_of_lt b.isLt
  · rw [rd_wr_keep _ _ _ _ _ (by decide), rd_wr_val _ _ _ _ (by decide)]
    exact Nat.mod_eq_of_lt (show k.val < 2 ^ 3 by omega)
  · exact ((((HostKeeps.refl _ s).wr _ (inSlot_base _ (by decide))).wr _ (inSlot_base _ (by decide))).wr _
      (inSlot_base _ (by decide))).sameOutside

/-- A span that begins before the next sample is counted as late. -/
def lateCounted (late : Bool) : State := s.when late (fun u => u.cnt (.rxg g) R.RXG_ERRCNT2.late_ovr 1)

theorem lateCounted_rx (late : Bool) : (lateCounted s g late).rx = s.rx := by
  cases late <;> rfl

theorem lateCounted_keeps (late : Bool) : HostKeeps (InSlot (.rxg g)) s (lateCounted s g late) :=
  (HostKeeps.refl _ s).when late ((HostKeeps.refl _ s).cnt 1 (inSlot_base _ (by decide)))

theorem ssState_lateCounted (late : Bool) : (lateCounted s g late).ssState g k = s.ssState g k := by
  cases late
  · rfl
  · exact rd_cnt_keep s (.rxg g) R.RXG_ERRCNT2.late_ovr (ssFld k) 1 (.inl (show 0x70 ≠ 0xf0 by decide))

/-- OVR adds its span to those of a running sub-stream. -/
theorem rxOvr_spans (hup : s.linkUp = true) (hrun : s.ssState g k = 2) (hcount : b.toNat / 2 ^ 31 % 2 ^ 17 ≠ 0) :
    Completes (.rxOvr g k b) s (fun t => ((t.rx[g]).subs[k]).spans.length = ((s.rx[g]).subs[k]).spans.length + 1 ∧
      t.ssState g k = 2 ∧ SameOutside (.rxg g) s t) := by
  obtain ⟨late, span, hop⟩ : ∃ late span, opRxOvr g k b s = (lateCounted s g late).setSub g k
      { ((lateCounted s g late).rx[g]).subs[k] with spans := (((lateCounted s g late).rx[g]).subs[k]).spans ++ [span] } := by
    unfold opRxOvr ovrBody
    dsimp only
    rw [if_pos hup, if_neg hcount, if_neg (by simp [hrun])]
    exact ⟨_, _, rfl⟩
  refine ⟨_, congrArg Host.Outcome.next hop, ?_, ?_, ?_⟩
  · rw [setSub_self, lateCounted_rx, List.length_append]
    rfl
  · exact (setSub_ssState ..).trans ((ssState_lateCounted s g k late).trans hrun)
  · exact ((lateCounted_keeps s g late).setRx g _).sameOutside

end Marks

/-! ### Loopback (R76) -/

section Loopback
variable (s : State) (g : Fin 16) (hloop : s.loops g = true)
include hloop

/-- In loopback no row comes from the pins. -/
theorem dataRow_loops (bs bs' : List (BitVec 66)) : Completes (.dataRow g bs) s (fun t => exec (.dataRow g bs') s = .next t) := by
  have hop : opDataRow g bs' s = opDataRow g bs s := by
    unfold opDataRow
    rw [if_pos hloop, if_pos hloop]
  exact ⟨_, rfl, congrArg Host.Outcome.next hop⟩

theorem rxAlign_loops (rows : List (Option AlignRx)) : Completes (.rxAlign g rows) s (fun t => t = s) :=
  ⟨_, rfl, if_pos (by simp [hloop])⟩

end Loopback
end Sys2Proof.Proofs

namespace Sys2Proof.Proofs
open Sys2Proof Sys2Proof.Machine Sys2Proof.Laws

/-! ### What taking in line bits leaves (R50, R74) -/

/-- `t` comes from `s` by lanes that take in line bits: of RXG[g]'s registers those of the pattern checkers may change, of its own records
the checkers and the descramblers' histories. -/
structure Listens (g : Fin 16) (s t : State) : Prop where
  keeps : HostKeeps (InSlot (.rxg g)) s t
  rd : ∀ f : Fld, f.off < 0x300 → t.rd (.rxg g) f = s.rd (.rxg g) f
  rest : t.rx[g] = { s.rx[g] with desc := (t.rx[g]).desc, chk := (t.rx[g]).chk }

section Listens
variable {g : Fin 16} {s t u : State}

theorem Listens.refl (g : Fin 16) (s : State) : Listens g s s := ⟨.refl _ s, fun _ _ => rfl, rfl⟩

theorem Listens.trans (h : Listens g s t) (k : Listens g t u) : Listens g s u :=
  ⟨h.keeps.trans k.keeps, fun f hf => (k.rd f hf).trans (h.rd f hf), by rw [k.rest, h.rest]⟩

theorem Listens.flag (h : Listens g s t) (f : Fld) (hf : f.off < 0x300) : t.flag (.rxg g) f = s.flag (.rxg g) f := by
  unfold State.flag
  rw [h.rd f hf]

theorem Listens.laneOn (h : Listens g s t) (n : Nat) : t.laneOn g n = s.laneOn g n := laneOn_of_rd (h.rd _ (by decide)) n

theorem Listens.laneState (h : Listens g s t) (n : Nat) : t.laneState g n = s.laneState g n := by
  unfold State.laneState
  rw [h.rest]

theorem Listens.laneLock (h : Listens g s t) (n : Nat) : t.laneLock g n = s.laneLock g n := by
  unfold State.laneLock
  rw [h.rest]

/-- What a pattern checker leaves in its registers after a run `c`. -/
def checkShown (g : Fin 16) (n : Nat) (c : ChkRun) (s : State) : State :=
  let u := s.setRx g { s.rx[g] with chk := SMap.set (fun _ => .zero) (s.rx[g]).chk n c.chk }
  (((u.cnt (.rxg g) (R.RXG_PRBS_BITS.bits n) c.bits).cnt (.rxg g) (R.RXG_PRBS.errors n) c.errors).cnt (.rxg g)
    (R.RXG_PRBS_BITS.sync_losses n) c.losses).wr (.rxg g) (R.RXG_PRBS.sync n) (bit c.sync)

theorem listens_checkShown {n : Nat} (hn : n < 16) (c : ChkRun) (s : State) : Listens g s (checkShown g n c s) := by
  have hprbs : ∀ {f : Fld}, f.off = 0x300 + 0x8 * n → InSlot (.rxg g) ((Blk.rxg g).base + f.off) := inSlot_rxLane g hn (by decide)
  have hbits : ∀ {f : Fld}, f.off = 0x380 + 0x8 * n → InSlot (.rxg g) ((Blk.rxg g).base + f.off) := inSlot_rxLane g hn (by decide)
  unfold checkShown
  refine ⟨(((((HostKeeps.refl _ s).setRx g _).cnt _ (hbits rfl)).cnt _ (hprbs rfl)).cnt _ (hbits rfl)).wr _ (hprbs rfl), fun f hf => ?_, ?_⟩
  · have hp : f.off ≠ 0x300 + 0x8 * n := by omega
    have hb : f.off ≠ 0x380 + 0x8 * n := by omega
    rw [rd_wr_keep _ _ _ _ _ (.inl hp), rd_cnt_keep _ _ _ _ _ (.inl hb), rd_cnt_keep _ _ _ _ _ (.inl hp), rd_cnt_keep _ _ _ _ _ (.inl hb),
      setRx_rd]
  · simp only [wr_rx, cnt_rx, setRx_self]

theorem listens_checkLane {n : Nat} (hn : n < 16) (w : Nat) (s : State) : Listens g s (checkLane g n w s) := by
  obtain ⟨c, hc⟩ : ∃ c, checkLane g n w s = if !s.flag (.rxg g) (R.RXG_PRBS.check n) then s else checkShown g n c s := ⟨_, rfl⟩
  rw [hc]
  split
  · exact .refl g s
  · exact listens_checkShown hn c s

theorem takeLane_fst (n : Nat) (w : BitVec 66) (s : State) : ∃ v h, (takeLane g n w s).1 =
    (checkLane g n v s).setRx g { (checkLane g n v s).rx[g] with desc := SMap.set (fun _ => 0) ((checkLane g n v s).rx[g]).desc n h } :=
  ⟨_, _, rfl⟩

theorem listens_takeLane {n : Nat} (hn : n < 16) (w : BitVec 66) (s : State) : Listens g s (takeLane g n w s).1 := by
  obtain ⟨v, h, htake⟩ := takeLane_fst (g := g) n w s
  have hcheck := listens_checkLane (g := g) hn v s
  rw [htake]
  refine hcheck.trans ⟨(HostKeeps.refl _ _).setRx g _, fun f _ => setRx_rd .., ?_⟩
  rw [setRx_self]

/-- A lane whose polarity is not inverted takes its header from the line. -/
theorem takeLane_hdr (n : Nat) (w : BitVec 66) (s : State) (hinv : s.flag (.rxg g) (R.RXG_EQ.invert n) = false) :
    (takeLane g n w s).2.hdr = (LBlock.ofBits w.toNat).hdr := by
  have h : ∃ p, (takeLane g n w s).2 = { LBlock.ofBits (if s.flag (.rxg g) (R.RXG_EQ.invert n) then 2 ^ 66 - 1 - w.toNat else w.toNat) with
    payload := p } := ⟨_, rfl⟩
  obtain ⟨p, hp⟩ := h
  rw [hp, hinv]
  rfl

section TakeRow
variable (bits : Nat → Option (BitVec 66))

theorem takeRow_none {n : Nat} {ns : List Nat} (h : (if s.laneOn g n then bits n else none) = none) :
    takeRow g bits (n :: ns) s = takeRow g bits ns s := by
  rw [takeRow, h]

theorem takeRow_some {n : Nat} {ns : List Nat} {w : BitVec 66} (h : (if s.laneOn g n then bits n else none) = some w) :
    takeRow g bits (n :: ns) s = ((takeRow g bits ns (takeLane g n w s).1).1,
      SMap.set (fun _ => none) (takeRow g bits ns (takeLane g n w s).1).2 n (some (takeLane g n w s).2)) := by
  rw [takeRow, h]

theorem listens_takeRow (ns : List Nat) (hns : ∀ n ∈ ns, n < 16) : ∀ s : State, Listens g s (takeRow g bits ns s).1 := by
  induction ns with
  | nil => exact fun s => .refl g s
  | cons n ns ih =>
    intro s
    have hrest := ih fun m hm => hns m (List.mem_cons_of_mem n hm)
    cases hw : (if s.laneOn g n then bits n else none) with
    | none =>
      rw [takeRow_none bits hw]
      exact hrest s
    | some w =>
      rw [takeRow_some bits hw]
      exact (listens_takeLane (hns n List.mem_cons_self) w s).trans (hrest _)

/-- Every lane that is enabled and receives bits gives a block; what holds of each block a lane may take holds of it. -/
theorem takeRow_blocks {P : Nat → LBlock → Prop} (ns : List Nat) (hns : ∀ n ∈ ns, n < 16) : ∀ s : State,
    (∀ n ∈ ns, s.laneOn g n = true ∧ ∃ w, bits n = some w ∧ ∀ u, Listens g s u → P n (takeLane g n w u).2) →
    ∀ n ∈ ns, ∃ b, SMap.get (fun _ => none) (takeRow g bits ns s).2 n = some b ∧ P n b := by
  induction ns with
  | nil => exact fun _ _ _ h => absurd h List.not_mem_nil
  | cons m ns ih =>
    intro s hall n hn
    obtain ⟨hon, w, hw, hP⟩ := hall m List.mem_cons_self
    have hfirst : (if s.laneOn g m then bits m else none) = some w := (if_pos hon).trans hw
    have hlisten := listens_takeLane (g := g) (hns m List.mem_cons_self) w s
    rw [takeRow_some bits hfirst]
    dsimp only
    by_cases hnm : n = m
    · subst hnm
      exact ⟨_, get_set_self (fun _ => none) _ _ _, hP s (.refl g s)⟩
    · rw [get_set_ne _ _ _ hnm]
      refine ih (fun k hk => hns k (List.mem_cons_of_mem m hk)) _ (fun k hk => ?_) n ((List.mem_cons.1 hn).resolve_left hnm)
      obtain ⟨hon', w', hw', hP'⟩ := hall k (List.mem_cons_of_mem m hk)
      exact ⟨(hlisten.laneOn k).trans hon', w', hw', fun u hu => hP' u (hlisten.trans hu)⟩

end TakeRow
end Listens

/-! ### ALIGN rows (R64, R65, R69) -/

/-- D01 is the lowest lane. -/
theorem lanes15_cons : ∃ rest, lanes15 = 1 :: rest ∧ ∀ n ∈ rest, n < 16 ∧ n ≠ 1 :=
  ⟨(List.range 14).map (· + 2), by decide, by decide⟩

section Align
variable (g : Fin 16) (s : State)

/-- A lane that carries the row's ALIGN is aligned, or retired where the row does not name it active. -/
theorem alignLane_valid {act n late : Nat} {x : Bool} (hon : s.laneOn g n = true) (hst : 2 ≤ s.laneState g n) :
    (alignLane g act n (some late) x s).laneState g n = if nbit act (n - 1) then 3 else 4 := by
  unfold alignLane
  dsimp only
  rw [if_neg (by simpa [hon] using Nat.lt_of_succ_le hst), laneState_setLaneTo, if_pos rfl]

theorem laneStep_alignLane (act : Nat) {n : Nat} (hn : n < 16) (valid : Option Nat) (late : Bool) :
    LaneStep g (· = n) s (alignLane g act n valid late s) := by
  have hset : ∀ (st : Nat) (lock desk : Bool) (u : State), LaneStep g (· = n) u (setLaneTo g n st lock desk u) := fun st lock desk u =>
    laneStep_setLaneTo g n st lock desk u hn
  have hskew : ∀ (v : Nat) (u : State), LaneStep g (· = n) u (u.wr (.rxg g) (R.RXG_LANE.skew n) v) := fun v u =>
    laneStep_wr v hn (by decide) (by decide) rfl u
  have hmiss : LaneStep g (· = n) s (s.cnt (.rxg g) (R.RXG_LANE_ERR.align_misses n) 1) :=
    laneStep_cnt 1 hn (by decide) (by decide) rfl s
  unfold alignLane
  refine iteInduction (fun _ => .refl g _ s) fun _ => ?_
  cases valid with
  | some k => exact (hskew k s).trans (hset _ _ _ _)
  | none =>
    dsimp only
    refine hmiss.trans ?_
    generalize s.cnt (.rxg g) (R.RXG_LANE_ERR.align_misses n) 1 = u
    split
    · exact (hskew 16 u).trans (hset _ _ _ _)
    · split
      · exact hset _ _ _ _
      · split
        · exact hset _ _ _ _
        · exact .refl g _ u

/-- The lanes that name another lane are flagged. -/
def idsFlagged (wrong : Nat → Bool) : State := s.each (lanes15.filter wrong) (fun n st => st.wr (.rxg g) (R.RXG_LANE.id_mismatch n) 1)

theorem laneStep_idsFlagged (wrong : Nat → Bool) : LaneStep g (fun _ => False) s (idsFlagged g s wrong) :=
  LaneStep.each _ _ (fun _ hn u => laneStep_wr 1 (mem_lanes15 (List.mem_of_mem_filter hn)).2 (by decide) (by decide) rfl u) s

/-- Rates and splits are compared with those set. -/
def ratesShown (b off : Nat) : State :=
  let u := s.cnt (.rxg g) R.RXG_ERRCNT1.mask_mismatches off
  let v := u.wr (.rxg g) R.RXG_STATUS.rate_mismatch (bit (decide (alRate b ≠ u.rd (.rxg g) R.RXG_CFG.rate)))
  v.wr (.rxg g) R.RXG_STATUS.split_mismatch (bit (decide (alSplit b ≠ v.rd (.rxg g) R.RXG_CFG.split)))

/-- The row's active set and number are shown. -/
def alignShown (b off : Nat) : State :=
  let u := ratesShown g s b off
  let told := announced (u.rx[g]).ann (alSeq b) (u.rd (.rxg g) R.RXG_STATUS.active_mask)
  let v := u.when ((u.rx[g]).matched && decide (told ≠ alActive b)) (fun u => u.cnt (.rxg g) R.RXG_ERRCNT1.mask_mismatches 1)
  let w := (v.wr (.rxg g) R.RXG_STATUS.active_mask (alActive b)).wr (.rxg g) R.RXG_STATUS.align_seq (alSeq b)
  w.setRx g { w.rx[g] with matched := true, ann := (w.rx[g]).ann.filter (fun a => a.1 ≠ alSeq b) }

/-- The lanes follow the row, sub-streams below their minimum stop, and the group shows its state. -/
def alignFollowed (act : Nat) (row : Nat → Option Nat) (late : Nat → Bool) : State :=
  showGroup g ((s.each lanes15 (fun n st => alignLane g act n (row n) (late n) st)).each subs5 (stopBelowMin g))

/-- A row in which D01 carries a valid ALIGN of its own, in time, is the row of D01's ALIGN: D01 is its lowest lane. -/
theorem alignRow_first {rows : Nat → Option AlignIn} {a : AlignIn} (hrow : rows 1 = some a) (hon : s.laneOn g 1 = true)
    (hst : 2 ≤ s.laneState g 1) (hlock : s.laneLock g 1 = true) (hid : alLane a.body = 1)
    (hlate : a.late ≤ skewBlocks (s.rd (.rxg g) R.RXG_CFG.rate)) : ∃ wrong off row late, row 1 = some a.late ∧
      alignRow g rows s = alignFollowed g (alignShown g (idsFlagged g s wrong) a.body off) (alActive a.body) row late := by
  have hrate : ∀ wrong, (idsFlagged g s wrong).rd (.rxg g) R.RXG_CFG.rate = s.rd (.rxg g) R.RXG_CFG.rate := fun wrong =>
    (laneStep_idsFlagged g s wrong).rd _ (by decide)
  unfold alignRow
  extract_lets wrong heard u came late good
  have hgood : good 1 = some a := by
    have hcame : came 1 = some a := by simp [came, heard, wrong, hrow, hon, hst, hlock, hid]
    have hin : late a = false := by
      refine decide_eq_false (Nat.not_lt.2 ?_)
      exact hlate.trans (Nat.le_of_eq (congrArg skewBlocks (hrate _).symm))
    simp [good, hcame, hin]
  have hhead : (lanes15.filterMap good).head? = some a := by
    obtain ⟨rest, hl, -⟩ := lanes15_cons
    rw [hl, List.filterMap_cons_some hgood]
    rfl
  rw [hhead]
  refine ⟨_, _, _, _, ?_, rfl⟩
  simp [hgood]

/-! #### What the row shows -/

section Shown
variable (b off : Nat)

theorem ratesShown_rx : (ratesShown g s b off).rx = s.rx := by simp [ratesShown]

theorem rd_ratesShown (f : Fld) (hf : f.off ≠ 0x70) (hc : f.off ≠ 0xe8) : (ratesShown g s b off).rd (.rxg g) f = s.rd (.rxg g) f := by
  unfold ratesShown
  dsimp only
  rw [rd_wr_keep _ _ _ _ _ (.inl hf), rd_wr_keep _ _ _ _ _ (.inl hf), rd_cnt_keep _ _ _ _ _ (.inl hc)]

theorem rate_ratesShown :
    (ratesShown g s b off).rd (.rxg g) R.RXG_STATUS.rate_mismatch = bit (decide (alRate b ≠ s.rd (.rxg g) R.RXG_CFG.rate)) := by
  have hbit : ∀ c : Bool, bit c % 2 ^ 1 = bit c := by decide
  unfold ratesShown
  dsimp only
  rw [rd_wr_keep _ _ _ _ _ (by decide), rd_wr_val _ _ _ _ (by decide), rd_cnt_keep _ _ _ _ _ (by decide)]
  exact hbit _

theorem ratesShown_keeps : HostKeeps (InSlot (.rxg g)) s (ratesShown g s b off) :=
  (((HostKeeps.refl _ s).cnt off (inSlot_base _ (by decide))).wr _ (inSlot_base _ (by decide))).wr _ (inSlot_base _ (by decide))

/-- A mask other than the one announced is counted. -/
def maskCounted (wrong : Bool) : State := s.when wrong (fun u => u.cnt (.rxg g) R.RXG_ERRCNT1.mask_mismatches 1)

theorem maskCounted_rx (wrong : Bool) : (maskCounted g s wrong).rx = s.rx := by
  cases wrong
  · rfl
  · exact cnt_rx s (.rxg g) R.RXG_ERRCNT1.mask_mismatches 1

theorem rd_maskCounted (wrong : Bool) (f : Fld) (hc : f.off ≠ 0xe8) : (maskCounted g s wrong).rd (.rxg g) f = s.rd (.rxg g) f := by
  cases wrong
  · rfl
  · exact rd_cnt_keep s (.rxg g) R.RXG_ERRCNT1.mask_mismatches f 1 (.inl hc)

theorem maskCounted_keeps (wrong : Bool) : HostKeeps (InSlot (.rxg g)) s (maskCounted g s wrong) :=
  (HostKeeps.refl _ s).when wrong ((HostKeeps.refl _ s).cnt 1 (inSlot_base _ (by decide)))

/-- The stages of the row's registers, with the records beside them. -/
theorem alignShown_eq : ∃ wrong, alignShown g s b off =
    (((maskCounted g (ratesShown g s b off) wrong).wr (.rxg g) R.RXG_STATUS.active_mask (alActive b)).wr (.rxg g)
      R.RXG_STATUS.align_seq (alSeq b)).setRx g
      { s.rx[g] with matched := true, ann := (s.rx[g]).ann.filter (fun a => a.1 ≠ alSeq b) } := by
  have hrx : ∀ wrong, (maskCounted g (ratesShown g s b off) wrong).rx = s.rx := fun wrong =>
    (maskCounted_rx ..).trans (ratesShown_rx ..)
  have hstages : ∃ wrong, alignShown g s b off =
      let w := ((maskCounted g (ratesShown g s b off) wrong).wr (.rxg g) R.RXG_STATUS.active_mask (alActive b)).wr (.rxg g)
        R.RXG_STATUS.align_seq (alSeq b)
      w.setRx g { w.rx[g] with matched := true, ann := (w.rx[g]).ann.filter (fun a => a.1 ≠ alSeq b) } := ⟨_, rfl⟩
  obtain ⟨wrong, h⟩ := hstages
  refine ⟨wrong, h.trans ?_⟩
  simp only [wr_rx, hrx]

theorem alignShown_shows : let t := alignShown g s b off
    t.rd (.rxg g) R.RXG_STATUS.active_mask = alActive b ∧ t.rd (.rxg g) R.RXG_STATUS.align_seq = alSeq b ∧
    t.rd (.rxg g) R.RXG_STATUS.rate_mismatch = bit (decide (alRate b ≠ s.rd (.rxg g) R.RXG_CFG.rate)) ∧
    (t.rx[g]).matched = true ∧ (∀ n, t.laneOn g n = s.laneOn g n) ∧ (∀ n, t.laneState g n = s.laneState g n) ∧
    HostKeeps (InSlot (.rxg g)) s t := by
  obtain ⟨wrong, ht⟩ := alignShown_eq g s b off
  rw [ht]
  refine ⟨?_, ?_, ?_, ?_, fun n => laneOn_of_rd ?_ n, fun n => ?_, ?_⟩
  · rw [setRx_rd, rd_wr_keep _ _ _ _ _ (by decide), rd_wr_val _ _ _ _ (by decide)]
    exact Nat.mod_eq_of_lt (Nat.mod_lt _ (by decide))
  · rw [setRx_rd, rd_wr_val _ _ _ _ (by decide)]
    exact Nat.mod_eq_of_lt (Nat.mod_lt _ (by decide))
  · rw [setRx_rd, rd_wr_keep _ _ _ _ _ (by decide), rd_wr_keep _ _ _ _ _ (by decide), rd_maskCounted _ _ _ _ (by decide), rate_ratesShown]
  · rw [setRx_self]
  · rw [setRx_rd, rd_wr_keep _ _ _ _ _ (by decide), rd_wr_keep _ _ _ _ _ (by decide), rd_maskCounted _ _ _ _ (by decide),
      rd_ratesShown _ _ _ _ _ (by decide) (by decide)]
  · unfold State.laneState
    rw [setRx_self]
  · exact ((((ratesShown_keeps g s b off).trans (maskCounted_keeps g _ wrong)).wr _ (inSlot_base _ (by decide))).wr _
      (inSlot_base _ (by decide))).setRx g _

end Shown

/-! #### What the lanes and sub-streams do -/

theorem stopBelowMin_rx (k : Fin 5) : (stopBelowMin g k s).rx = s.rx := by
  unfold stopBelowMin
  split <;> rfl

theorem rd_stopBelowMin (k : Fin 5) (f : Fld) (hf : f.off ≠ 0x70 ∨ f.lo + f.width ≤ 40) :
    (stopBelowMin g k s).rd (.rxg g) f = s.rd (.rxg g) f := by
  unfold stopBelowMin
  split
  · exact rd_wr_ssFld g k s 4 f hf
  · rfl

theorem stopBelowMin_keeps (k : Fin 5) : HostKeeps (InSlot (.rxg g)) s (stopBelowMin g k s) := by
  unfold stopBelowMin
  split
  · exact (HostKeeps.refl _ s).wr 4 (inSlot_ssFld g k)
  · exact .refl _ s

/-- Every lane of the row. -/
def lanesAligned (act : Nat) (row : Nat → Option Nat) (late : Nat → Bool) : State :=
  s.each lanes15 (fun n st => alignLane g act n (row n) (late n) st)

theorem laneStep_lanesAligned (act : Nat) (row : Nat → Option Nat) (late : Nat → Bool) :
    LaneStep g (fun _ => True) s (lanesAligned g s act row late) :=
  LaneStep.each _ _ (fun n hn u => (laneStep_alignLane g u act (mem_lanes15 hn).2 (row n) (late n)).mono fun _ _ => trivial) s

/-- D01 follows its own ALIGN. -/
theorem laneState_lanesAligned {act l : Nat} {row : Nat → Option Nat} (late : Nat → Bool) (hrow : row 1 = some l)
    (hon : s.laneOn g 1 = true) (hst : 2 ≤ s.laneState g 1) :
    (lanesAligned g s act row late).laneState g 1 = if nbit act 0 then 3 else 4 := by
  obtain ⟨rest, hl, hrest⟩ := lanes15_cons
  have hfirst : (alignLane g act 1 (row 1) (late 1) s).laneState g 1 = if nbit act 0 then 3 else 4 := by
    rw [hrow]
    exact alignLane_valid g s hon hst
  have hothers : ∀ u : State, LaneStep g (· ≠ 1) u (u.each rest (fun n st => alignLane g act n (row n) (late n) st)) :=
    LaneStep.each _ _ fun n hn u => (laneStep_alignLane g u act (hrest n hn).1 (row n) (late n)).mono fun m hm => hm ▸ (hrest n hn).2
  have hsplit : lanesAligned g s act row late =
      (alignLane g act 1 (row 1) (late 1) s).each rest (fun n st => alignLane g act n (row n) (late n) st) := by
    unfold lanesAligned
    rw [hl]
    rfl
  rw [hsplit]
  exact ((hothers _).lane 1 (fun h => h rfl)).trans hfirst

theorem alignFollowed_eq (act : Nat) (row : Nat → Option Nat) (late : Nat → Bool) :
    alignFollowed g s act row late = showGroup g ((lanesAligned g s act row late).each subs5 (stopBelowMin g)) := rfl

theorem alignFollowed_shows (act : Nat) {l : Nat} {row : Nat → Option Nat} (late : Nat → Bool) (hrow : row 1 = some l)
    (hon : s.laneOn g 1 = true) (hst : 2 ≤ s.laneState g 1) : let t := alignFollowed g s act row late
    (∀ f : Fld, f.off = 0x70 → 3 ≤ f.lo → f.lo + f.width ≤ 40 → t.rd (.rxg g) f = s.rd (.rxg g) f) ∧
    (t.rx[g]).matched = (s.rx[g]).matched ∧ t.laneState g 1 = (if nbit act 0 then 3 else 4) ∧ HostKeeps (InSlot (.rxg g)) s t := by
  have hstep := laneStep_lanesAligned g s act row late
  have hrx : (alignFollowed g s act row late).rx = (lanesAligned g s act row late).rx := by
    rw [alignFollowed_eq, showGroup_rx]
    exact each_keeps (·.rx) (fun k u => stopBelowMin_rx g u k) _
  refine ⟨fun f ho hlo hhi => ?_, ?_, ?_, ?_⟩
  · rw [alignFollowed_eq, rd_showGroup _ _ _ (.inr hlo)]
    exact (each_keeps (·.rd (.rxg g) f) (fun k u => rd_stopBelowMin g u k f (.inr hhi)) _).trans (hstep.rd f (by omega))
  · rw [hrx, hstep.matched]
  · have hlane := laneState_lanesAligned g s late (act := act) hrow hon hst
    unfold State.laneState at hlane ⊢
    rw [hrx, hlane]
  · exact (hstep.keeps.trans (HostKeeps.each _ _ (fun k _ u => stopBelowMin_keeps g u k) _)).trans (showGroup_keeps g _)

end Align

/-- The bits of the lanes of a row at the pins. -/
def pinBits (rows : List (Option AlignRx)) (n : Nat) : Option (BitVec 66) := ((rows[n - 1]?).join).map (·.bits)

/-- The valid ALIGN of each lane of a row at the pins, from its blocks `m`. -/
def pinAligns (rows : List (Option AlignRx)) (m : SMap (Option LBlock)) (n : Nat) : Option AlignIn :=
  ((SMap.get (fun _ => none) m n).bind LBlock.align).map (fun b => ⟨b, (((rows[n - 1]?).join).map (·.late)).getD 0⟩)

theorem opRxAlign_taken {s u : State} {g : Fin 16} {rows : List (Option AlignRx)} {m : SMap (Option LBlock)} (hup : s.linkUp = true)
    (hloop : s.loops g = false) (hck : s.flag (.rxg g) R.RXG_STATUS.ck_present = true) (htake : takeRow g (pinBits rows) lanes15 s = (u, m)) :
    opRxAlign g rows s = alignRow g (pinAligns rows m) u := by
  unfold opRxAlign
  rw [if_neg (by simp [hup, hloop, hck])]
  extract_lets at_
  have htake' : takeRow g (fun n => (at_ n).map (·.bits)) lanes15 s = (u, m) := htake
  rw [htake']
  rfl

/-- An ALIGN row whose first lane carries a valid ALIGN of its own, in time. -/
theorem rxAlign_first (s : State) (g : Fin 16) (a : AlignRx) (rows : List (Option AlignRx)) (b : Nat) (hup : s.linkUp = true)
    (hloop : s.loops g = false) (hck : s.flag (.rxg g) R.RXG_STATUS.ck_present = true) (hon : s.laneOn g 1 = true)
    (hst : 2 ≤ s.laneState g 1) (hlock : s.laneLock g 1 = true) (halign : (takeLane g 1 a.bits s).2.align = some b) (hid : alLane b = 1)
    (hlate : a.late ≤ skewBlocks (s.rd (.rxg g) R.RXG_CFG.rate)) : Completes (.rxAlign g (some a :: rows)) s (fun t =>
      t.rd (.rxg g) R.RXG_STATUS.active_mask = alActive b ∧ t.rd (.rxg g) R.RXG_STATUS.align_seq = alSeq b ∧
      t.rd (.rxg g) R.RXG_STATUS.rate_mismatch = bit (decide (alRate b ≠ s.rd (.rxg g) R.RXG_CFG.rate)) ∧
      t.laneState g 1 = (if alActive b % 2 = 1 then 3 else 4) ∧ (t.rx[g]).matched = true ∧ SameOutside (.rxg g) s t) := by
  obtain ⟨u, m, htake⟩ : ∃ u m, takeRow g (pinBits (some a :: rows)) lanes15 s = (u, m) := ⟨_, _, rfl⟩
  have hop := opRxAlign_taken hup hloop hck htake
  have hlisten : Listens g s u := by
    have h := listens_takeRow (g := g) (pinBits (some a :: rows)) lanes15 (fun n hn => (mem_lanes15 hn).2) s
    rwa [htake] at h
  have hrow : pinAligns (some a :: rows) m 1 = some ⟨b, a.late⟩ := by
    obtain ⟨rest, hl, -⟩ := lanes15_cons
    have hfirst : (if s.laneOn g 1 then pinBits (some a :: rows) 1 else none) = some a.bits := if_pos hon
    rw [hl, takeRow_some _ hfirst] at htake
    have hblock : SMap.get (fun _ => none) m 1 = some (takeLane g 1 a.bits s).2 := by
      rw [← (Prod.mk.inj htake).2]
      exact get_set_self (fun _ => none) _ _ _
    unfold pinAligns
    rw [hblock]
    simp [halign]
  have hrate := hlisten.rd R.RXG_CFG.rate (by decide)
  obtain ⟨wrong, off, lates, late, hlate1, hrowEq⟩ := alignRow_first g u (a := ⟨b, a.late⟩) hrow ((hlisten.laneOn 1).trans hon)
    (hst.trans_eq (hlisten.laneState 1).symm) ((hlisten.laneLock 1).trans hlock) hid (hrate ▸ hlate)
  have hids := laneStep_idsFlagged g u wrong
  obtain ⟨hmask, hseq, hmis, hmatched, hlaneOn, hlanes, hkeep⟩ := alignShown_shows g (idsFlagged g u wrong) b off
  have hon' : (alignShown g (idsFlagged g u wrong) b off).laneOn g 1 = true := by
    rw [hlaneOn, hids.laneOn, hlisten.laneOn, hon]
  have hst' : 2 ≤ (alignShown g (idsFlagged g u wrong) b off).laneState g 1 := by
    rw [hlanes, hids.lane 1 not_false, hlisten.laneState]
    exact hst
  obtain ⟨hfld, hmatch, hlane, hkeep'⟩ := alignFollowed_shows g _ (alActive b) late hlate1 hon' hst'
  refine ⟨_, congrArg Host.Outcome.next (hop.trans hrowEq), ?_, ?_, ?_, ?_, hmatch.trans hmatched, ?_⟩
  · exact (hfld _ rfl (by decide) (by decide)).trans hmask
  · exact (hfld _ rfl (by decide) (by decide)).trans hseq
  · refine (hfld _ rfl (by decide) (by decide)).trans (hmis.trans ?_)
    rw [hids.rd _ (by decide), hrate]
  · refine hlane.trans (if_congr ?_ rfl rfl)
    simp [nbit]
  · exact (((hlisten.keeps.trans hids.keeps).trans hkeep).trans hkeep').sameOutside

end Sys2Proof.Proofs

namespace Sys2Proof.Proofs
open Sys2Proof Sys2Proof.Machine Sys2Proof.Laws

/-! ### The samples of a row (R52, R66) -/

theorem appendBits_len (bs : List LBlock) : ∀ v m l : Nat, (appendBits bs v m l).2.2 = l + 64 * bs.length := by
  induction bs with
  | nil => exact fun _ _ _ => rfl
  | cons b bs ih =>
    intro v m l
    rw [appendBits]
    split
    · rw [ih, List.length_cons]
      omega
    · rw [ih, List.length_cons]
      omega

theorem takeSamples_length (b n : Nat) : ∀ v m : Nat, (takeSamples b n v m).length = n := by
  induction n with
  | zero => exact fun _ _ => rfl
  | succ n ih => exact fun v m => congrArg (· + 1) (ih _ _)

theorem mkSamples_length (fmt : Nat) (crc : Bool) (idx : Nat → Nat) (spans : List (Nat × Nat)) (raws : List (Nat × Bool)) :
    ∀ (n : Nat) (ts : List Int), (mkSamples fmt crc idx spans n raws ts).length = raws.length := by
  induction raws with
  | nil => exact fun _ _ => rfl
  | cons x raws ih => exact fun n ts => congrArg (· + 1) (ih (n + 1) ts.tail)

theorem cutBatches_ne_nil (ctx run at_ : Nat) (bonded : Bool) (idx : Nat → Nat) (n hole : Nat) {xs : List Smp} (h : 0 < xs.length) :
    cutBatches ctx run at_ bonded idx n hole xs ≠ [] := by
  cases xs with
  | nil => exact absurd h (Nat.lt_irrefl 0)
  | cons x xs =>
    rw [cutBatches]
    split
    · split <;> exact List.cons_ne_nil _ _
    · exact List.cons_ne_nil _ _

/-- Every format's sample fits in a row. -/
theorem fmtBits_bounds (f : Nat) : 0 < fmtBits f ∧ fmtBits f ≤ 48 := by
  unfold fmtBits
  split <;> decide

section RxData
variable (s : State) (g : Fin 16) (k : Fin 5) (blks : List LBlock)

/-- Stamping changes the stream's map alone. -/
theorem stampRow_fst (c n count at0 at1 : Nat) : ∃ m, (stampRow c n count at0 at1 s).1 = s.setMap c m := ⟨_, rfl⟩

/-- The data row of a running sub-stream that delivers and is not bonded: its samples are stamped, lost ones counted, the index moves on. -/
theorem rxData_running {v m l : Nat} {w : State} {ts : List Int} (hrun : s.ssState g k = 2) (hdel : s.delivering g = true)
    (hstale : ((s.rx[g]).subs[k]).stale = false) (hbond : s.flag (.rxg g) (R.RXG_SS.bonded 0) = false)
    (happ : appendBits blks ((s.rx[g]).subs[k]).buf ((s.rx[g]).subs[k]).bad ((s.rx[g]).subs[k]).len = (v, m, l))
    (hstamp : stampRow ((s.rx[g]).subs[k]).ctx (s.rd (.rxg g) (R.RXG_SAMPLES.index k)) (l / fmtBits ((s.rx[g]).subs[k]).fmt)
      (if ((s.rx[g]).subs[k]).len = 0 then s.tim.now else ((s.rx[g]).subs[k]).prevT) s.tim.now s = (w, ts)) :
    ∃ lost y out, rxData g k blks s =
      (((w.cnt (.rxg g) (R.RXG_LOST.lost k) lost).wr (.rxg g) (R.RXG_SAMPLES.index k)
        (s.rd (.rxg g) (R.RXG_SAMPLES.index k) + l / fmtBits ((s.rx[g]).subs[k]).fmt)).setSub g k y, out) ∧
      y.blocks = ((s.rx[g]).subs[k]).blocks + blks.length ∧ (0 < l / fmtBits ((s.rx[g]).subs[k]).fmt → out ≠ []) := by
  unfold rxData
  dsimp only
  rw [if_neg (not_not.2 hrun), hstale, hdel, if_neg (by decide), happ]
  dsimp only
  rw [if_neg (by simp [hbond]), hstamp]
  refine ⟨_, _, _, rfl, rfl, fun hcnt => cutBatches_ne_nil _ _ _ _ _ _ _ ?_⟩
  rwa [mkSamples_length, takeSamples_length]

theorem rxData_shows (hrun : s.ssState g k = 2) (hdel : s.delivering g = true) (hstale : ((s.rx[g]).subs[k]).stale = false)
    (hbond : s.flag (.rxg g) (R.RXG_SS.bonded 0) = false) (hlen : blks.length = 15) : let r := rxData g k blks s
    r.1.rd (.rxg g) (R.RXG_SAMPLES.index k) = (s.rd (.rxg g) (R.RXG_SAMPLES.index k)
      + (((s.rx[g]).subs[k]).len + 960) / fmtBits ((s.rx[g]).subs[k]).fmt) % 2 ^ 64 ∧
    (∀ f : Fld, f.off < 0x80 → r.1.rd (.rxg g) f = s.rd (.rxg g) f) ∧
    ((r.1.rx[g]).subs[k]).blocks = ((s.rx[g]).subs[k]).blocks + 15 ∧ (r.1.rx[g]).ferry = (s.rx[g]).ferry ∧ r.2 ≠ [] := by
  obtain ⟨v, m, l, happ⟩ : ∃ v m l, appendBits blks ((s.rx[g]).subs[k]).buf ((s.rx[g]).subs[k]).bad ((s.rx[g]).subs[k]).len = (v, m, l) :=
    ⟨_, _, _, rfl⟩
  have hl : l = ((s.rx[g]).subs[k]).len + 960 := by
    have h := appendBits_len blks ((s.rx[g]).subs[k]).buf ((s.rx[g]).subs[k]).bad ((s.rx[g]).subs[k]).len
    rwa [happ, hlen] at h
  obtain ⟨w, ts, hstamp⟩ : ∃ w ts, stampRow ((s.rx[g]).subs[k]).ctx (s.rd (.rxg g) (R.RXG_SAMPLES.index k))
      (l / fmtBits ((s.rx[g]).subs[k]).fmt) (if ((s.rx[g]).subs[k]).len = 0 then s.tim.now else ((s.rx[g]).subs[k]).prevT)
      s.tim.now s = (w, ts) := ⟨_, _, rfl⟩
  obtain ⟨map, hmap⟩ : ∃ map, w = s.setMap ((s.rx[g]).subs[k]).ctx map := by
    obtain ⟨map, h⟩ := stampRow_fst s ((s.rx[g]).subs[k]).ctx (s.rd (.rxg g) (R.RXG_SAMPLES.index k))
      (l / fmtBits ((s.rx[g]).subs[k]).fmt) (if ((s.rx[g]).subs[k]).len = 0 then s.tim.now else ((s.rx[g]).subs[k]).prevT) s.tim.now
    rw [hstamp] at h
    exact ⟨map, h⟩
  obtain ⟨lost, y, out, hdata, hblocks, hout⟩ := rxData_running s g k blks hrun hdel hstale hbond happ hstamp
  obtain ⟨hpos, hmax⟩ := fmtBits_bounds ((s.rx[g]).subs[k]).fmt
  rw [hdata]
  dsimp only
  refine ⟨?_, fun f hf => ?_, ?_, ?_, hout (Nat.div_pos (by omega) hpos)⟩
  · rw [setSub_rd, rd_wr_val _ _ _ _ (show 0 + 64 ≤ 64 by decide), hl]
    rfl
  · have hi : f.off ≠ 0x80 + 0x8 * k.val := by omega
    have ho : f.off ≠ 0xa8 + 0x8 * k.val := by omega
    rw [setSub_rd, rd_wr_keep _ _ _ _ _ (.inl hi), rd_cnt_keep _ _ _ _ _ (.inl ho), hmap, setMap_rd _ _ _ _ _ (by omega)]
  · rw [setSub_self, hblocks, hlen]
  · rw [setSub_rx, wr_rx, cnt_rx, hmap, setMap_rx]

end RxData

/-! ### A block time of a group (R51, R66) -/

section Rows
variable (g : Fin 16) (blocks : Nat → LBlock) (k : Fin 5) (s : State) (out : List Batch)

/-- The blocks of sub-stream `k` in a row. -/
def subBlocks : List LBlock :=
  (subLanes (s.rd (.rxg g) R.RXG_CFG.split) k (s.rd (.rxg g) R.RXG_STATUS.active_mask)).map
    (fun n => if s.laneState g n = 3 then blocks n else ⟨.invalid, 0⟩)

/-- A data block is none of the control ones. -/
theorem filter_hdr_of_data {bs : List LBlock} (h : ∀ b ∈ bs, b.hdr = .data) :
    bs.filter (fun b => b.hdr = .data) = bs ∧ bs.filter (fun b => b.hdr = .control) = [] :=
  ⟨List.filter_eq_self.2 fun b hb => decide_eq_true (h b hb), List.filter_eq_nil_iff.2 fun b hb => by simp [h b hb]⟩

theorem subRow_off (hoff : s.ssState g k = 0) (hnone : subBlocks g blocks k s = []) : subRow g blocks k (s, out) = (s, out) := by
  unfold subBlocks at hnone
  unfold subRow
  dsimp only
  rw [hnone, if_pos hoff]
  rfl

/-- A row of data blocks of a sub-stream that is on. -/
theorem subRow_data (hon : s.ssState g k ≠ 0) (hdata : ∀ b ∈ subBlocks g blocks k s, b.hdr = .data)
    (hsome : 0 < (subBlocks g blocks k s).length) :
    ∃ x : RxSub, x = { (s.rx[g]).subs[k] with crcRows := x.crcRows } ∧ subRow g blocks k (s, out) =
      let r := rxData g k (subBlocks g blocks k s) (s.setSub g k x)
      (r.1, out ++ r.2) := by
  obtain ⟨hall, hnone⟩ := filter_hdr_of_data hdata
  unfold subBlocks at hall hnone hsome ⊢
  unfold subRow
  dsimp only
  rw [hall, hnone, if_neg hon, if_neg (by simpa using Nat.ne_of_gt hsome), if_pos (by simpa using hsome)]
  exact ⟨_, rfl, rfl⟩

/-- Batches enter a ferry that has room. -/
theorem ingest_room {bs : List Batch} (hbs : bs ≠ []) (hroom : (s.rx[g]).ferry.length < 512) : let t := ingest g bs s
    (t.rx[g]).ferry.length = (s.rx[g]).ferry.length + 1 ∧ (t.rx[g]).subs = (s.rx[g]).subs ∧
    (∀ f : Fld, f.off ≠ 0xf8 → t.rd (.rxg g) f = s.rd (.rxg g) f) := by
  unfold ingest
  rw [if_neg hbs]
  dsimp only
  rw [if_pos hroom]
  refine ⟨?_, ?_, fun f hf => ?_⟩
  · rw [wr_rx, wr_rx, setRx_self, List.length_append]
    rfl
  · rw [wr_rx, wr_rx, setRx_self]
  · rw [rd_wr_keep _ _ _ _ _ (.inl hf), rd_wr_keep _ _ _ _ _ (.inl hf), setRx_rd]

/-- Where no lane shows an invalid header and rate and split match, the rows of the sub-streams go to ingest[g]. -/
theorem rxRow_matched (ks : List (Fin 5)) {m : SMap (Option LBlock)} {t : State} {out : List Batch}
    (hvalid : ∀ n ∈ lanes15, ((SMap.get (fun _ => none) m n).getD ⟨.invalid, 0⟩).hdr ≠ .invalid) (hmatched : (s.rx[g]).matched = true)
    (hrate : s.flag (.rxg g) R.RXG_STATUS.rate_mismatch = false) (hsplit : s.flag (.rxg g) R.RXG_STATUS.split_mismatch = false)
    (hrows : ks.foldl (fun st k => subRow g (fun n => (SMap.get (fun _ => none) m n).getD ⟨.invalid, 0⟩) k st) (s, []) = (t, out)) :
    rxRow g ks m s = ingest g out t := by
  unfold rxRow
  extract_lets at_ heard u
  have hu : u = s := by
    have hnil : heard.filter (fun n => decide ((at_ n).hdr = .invalid)) = [] :=
      List.filter_eq_nil_iff.2 fun n hn h => hvalid n (List.mem_of_mem_filter hn) (of_decide_eq_true h)
    show s.each (heard.filter _) _ = s
    rw [hnil]
    rfl
  rw [hu, hmatched, hrate, hsplit, if_neg (by decide), hrows]

/-- In split 0 sub-stream 0 has every active lane, the others none (R52). -/
theorem subLanes_whole : subLanes 0 0 0x7FFF = lanes15 := by decide
theorem subLanes_beyond (k : Fin 5) (hk : k ≠ 0) (mask : Nat) : subLanes 0 k mask = [] :=
  if_pos (Nat.one_le_iff_ne_zero.2 fun h => hk (Fin.ext h))

/-- The sub-streams that have no lanes leave the row as it is. -/
theorem subRows_off (hsplit : s.rd (.rxg g) R.RXG_CFG.split = 0) (ks : List (Fin 5)) (hks : ∀ k ∈ ks, k ≠ 0 ∧ s.ssState g k = 0) :
    ks.foldl (fun st k => subRow g blocks k st) (s, out) = (s, out) := by
  induction ks with
  | nil => rfl
  | cons k ks ih =>
    obtain ⟨hk, hoff⟩ := hks k List.mem_cons_self
    have hnone : subBlocks g blocks k s = [] := by
      unfold subBlocks
      rw [hsplit, subLanes_beyond k hk]
      rfl
    rw [List.foldl_cons, subRow_off g blocks k s out hoff hnone]
    exact ih fun j hj => hks j (List.mem_cons_of_mem k hj)

end Rows

/-! ### A data row (R66) -/

section DataRow
variable (s : State) (g : Fin 16)

/-- In split 0, with every lane active and aligned, a row of data blocks on all lanes is one of sub-stream 0. -/
theorem subRows_whole (blocks : Nat → LBlock) (hsplit : s.rd (.rxg g) R.RXG_CFG.split = 0)
    (hmask : s.rd (.rxg g) R.RXG_STATUS.active_mask = 0x7FFF) (hlanes : ∀ n ∈ lanes15, s.laneState g n = 3)
    (hdata : ∀ n ∈ lanes15, (blocks n).hdr = .data) (hrun : s.ssState g 0 = 2) (hothers : ∀ k : Fin 5, k ≠ 0 → s.ssState g k = 0)
    (hdel : s.delivering g = true) (hstale : ((s.rx[g]).subs[0]).stale = false) (hbond : s.flag (.rxg g) (R.RXG_SS.bonded 0) = false) :
    ∃ t out, subs5.foldl (fun st k => subRow g blocks k st) (s, []) = (t, out) ∧ out ≠ [] ∧
      t.rd (.rxg g) (R.RXG_SAMPLES.index 0) = (s.rd (.rxg g) (R.RXG_SAMPLES.index 0)
        + (((s.rx[g]).subs[0]).len + 960) / fmtBits ((s.rx[g]).subs[0]).fmt) % 2 ^ 64 ∧
      ((t.rx[g]).subs[0]).blocks = ((s.rx[g]).subs[0]).blocks + 15 ∧ (t.rx[g]).ferry = (s.rx[g]).ferry := by
  have hblks : subBlocks g blocks 0 s = lanes15.map (fun n => if s.laneState g n = 3 then blocks n else ⟨.invalid, 0⟩) := by
    unfold subBlocks
    rw [hsplit, hmask]
    exact congrArg (List.map _) subLanes_whole
  have hlen : (subBlocks g blocks 0 s).length = 15 := by
    rw [hblks, List.length_map]
    rfl
  have hall : ∀ b ∈ subBlocks g blocks 0 s, b.hdr = .data := by
    rw [hblks]
    intro b hb
    obtain ⟨n, hn, rfl⟩ := List.mem_map.1 hb
    rw [if_pos (hlanes n hn)]
    exact hdata n hn
  obtain ⟨x, hx, hrow⟩ := subRow_data g blocks 0 s [] (by omega) hall (by omega)
  have hself : ((s.setSub g 0 x).rx[g]).subs[(0 : Fin 5)] = x := setSub_self g 0 s x
  have hrx : (s.setSub g 0 x).rx[g] = _ := setSub_rx g 0 s x
  obtain ⟨hidx, hkeep, hblocks, hferry, hout⟩ := rxData_shows (s.setSub g 0 x) g 0 (subBlocks g blocks 0 s) hrun hdel
    ((congrArg RxSub.stale (hself.trans hx)).trans hstale) hbond hlen
  generalize rxData g 0 (subBlocks g blocks 0 s) (s.setSub g 0 x) = r at hrow hidx hkeep hblocks hferry hout
  refine ⟨r.1, r.2, ?_, hout, ?_, ?_, ?_⟩
  · have hrest : subs5 = 0 :: [1, 2, 3, 4] := rfl
    have hoff : ∀ k ∈ ([1, 2, 3, 4] : List (Fin 5)), k ≠ 0 := by decide
    rw [hrest, List.foldl_cons, hrow]
    exact subRows_off g blocks r.1 r.2 ((hkeep _ (by decide)).trans hsplit) _ fun k hk =>
      ⟨hoff k hk, (hkeep (ssFld k) (show 0x70 < 0x80 by decide)).trans (hothers k (hoff k hk))⟩
  · refine hidx.trans ?_
    rw [hself, congrArg RxSub.len hx, congrArg RxSub.fmt hx]
    rfl
  · refine hblocks.trans ?_
    rw [hself, congrArg RxSub.blocks hx]
    rfl
  · rw [hferry, hrx]

/-- A block time of a group whose receiver is up and does not loop. -/
theorem opDataRow_pins {s u : State} {g : Fin 16} {bs : List (BitVec 66)} {m : SMap (Option LBlock)} (hup : s.linkUp = true)
    (hloop : s.loops g = false) (hck : s.flag (.rxg g) R.RXG_STATUS.ck_present = true)
    (htake : takeRow g (fun n => bs[n - 1]?) lanes15 s = (u, m)) : opDataRow g bs s = rxRow g subs5 m u := by
  unfold opDataRow
  rw [if_neg (by simp [hup, hck]), if_neg (by simp [hloop]), htake]

/-- Line bits whose header is 01 hold data. -/
theorem ofBits_data {w : Nat} (h : w % 4 = 2) : (LBlock.ofBits w).hdr = .data := by
  unfold LBlock.ofBits
  rw [h]
  rfl

theorem flag_eq_false_of_rd {s : State} {b : Blk} {f : Fld} (h : s.rd b f = 0) : s.flag b f = false := by
  unfold State.flag
  rw [h]
  rfl

/-- A row of 15 data blocks gives every lane that is enabled and not inverted its data block. -/
theorem takeRow_data {u : State} {m : SMap (Option LBlock)} (bs : List (BitVec 66))
    (hlanes : ∀ n ∈ lanes15, s.laneOn g n = true ∧ s.flag (.rxg g) (R.RXG_EQ.invert n) = false) (hlen : bs.length = 15)
    (hhdr : bs.all (fun b => decide (b.toNat % 4 = 2)) = true) (htake : takeRow g (fun n => bs[n - 1]?) lanes15 s = (u, m)) :
    ∀ n ∈ lanes15, ((SMap.get (fun _ => none) m n).getD ⟨.invalid, 0⟩).hdr = .data := by
  intro n hn
  have h := takeRow_blocks (g := g) (fun n => bs[n - 1]?) (P := fun _ b => b.hdr = .data) lanes15 (fun n hn => (mem_lanes15 hn).2) s
    fun n hn => by
      obtain ⟨hlo, hhi⟩ := mem_lanes15 hn
      obtain ⟨hon, hinv⟩ := hlanes n hn
      have hin : n - 1 < bs.length := by omega
      refine ⟨hon, bs[n - 1], List.getElem?_eq_getElem hin, fun v hv => ?_⟩
      rw [takeLane_hdr n _ v ((hv.flag _ (show 0x280 + 0x8 * n < 0x300 by omega)).trans hinv)]
      exact ofBits_data (of_decide_eq_true (List.all_eq_true.1 hhdr _ (List.getElem_mem hin)))
  rw [htake] at h
  obtain ⟨b, hb, hd⟩ := h n hn
  rw [hb]
  exact hd

theorem dataRow_delivered (bs : List (BitVec 66)) (hup : s.linkUp = true) (hloop : s.loops g = false)
    (hck : s.flag (.rxg g) R.RXG_STATUS.ck_present = true) (hmatched : (s.rx[g]).matched = true)
    (hrate : s.rd (.rxg g) R.RXG_STATUS.rate_mismatch = 0) (hmis : s.rd (.rxg g) R.RXG_STATUS.split_mismatch = 0)
    (hsplit : s.rd (.rxg g) R.RXG_CFG.split = 0) (h0 : s.ssState g 0 = 2) (h1 : s.ssState g 1 = 0) (h2 : s.ssState g 2 = 0)
    (h3 : s.ssState g 3 = 0) (h4 : s.ssState g 4 = 0) (hdel : s.delivering g = true) (hstale : ((s.rx[g]).subs[0]).stale = false)
    (hbond : s.rd (.rxg g) (R.RXG_SS.bonded 0) = 0) (hmask : s.rd (.rxg g) R.RXG_STATUS.active_mask = 0x7FFF)
    (hlanes : lanes15.all (fun n => s.laneOn g n && decide (s.laneState g n = 3) && !s.flag (.rxg g) (R.RXG_EQ.invert n)) = true)
    (hlen : bs.length = 15) (hhdr : bs.all (fun b => decide (b.toNat % 4 = 2)) = true) (hroom : (s.rx[g]).ferry.length < 512) :
    Completes (.dataRow g bs) s (fun t =>
      t.rd (.rxg g) (R.RXG_SAMPLES.index 0) = (s.rd (.rxg g) (R.RXG_SAMPLES.index 0)
        + (((s.rx[g]).subs[0]).len + 960) / fmtBits ((s.rx[g]).subs[0]).fmt) % 2 ^ 64 ∧
      ((t.rx[g]).subs[0]).blocks = ((s.rx[g]).subs[0]).blocks + 15 ∧
      (t.rx[g]).ferry.length = (s.rx[g]).ferry.length + 1) := by
  have hlane : ∀ n ∈ lanes15, s.laneOn g n = true ∧ s.laneState g n = 3 ∧ s.flag (.rxg g) (R.RXG_EQ.invert n) = false := by
    simpa [and_assoc] using hlanes
  obtain ⟨u, m, htake⟩ : ∃ u m, takeRow g (fun n => bs[n - 1]?) lanes15 s = (u, m) := ⟨_, _, rfl⟩
  have hlisten : Listens g s u := by
    have h := listens_takeRow (g := g) (fun n => bs[n - 1]?) lanes15 (fun n hn => (mem_lanes15 hn).2) s
    rwa [htake] at h
  have hdata := takeRow_data s g bs (fun n hn => ⟨(hlane n hn).1, (hlane n hn).2.2⟩) hlen hhdr htake
  have hrx : (u.rx[g]).subs = (s.rx[g]).subs := by rw [hlisten.rest]
  have hferry : (u.rx[g]).ferry = (s.rx[g]).ferry := by rw [hlisten.rest]
  have hss : ∀ k : Fin 5, u.ssState g k = s.ssState g k := fun k => hlisten.rd (ssFld k) (show 0x70 < 0x300 by decide)
  have hothers : ∀ k : Fin 5, k ≠ 0 → u.ssState g k = 0 := fun k hk => (hss k).trans (by
    match k, hk with
    | 1, _ => exact h1
    | 2, _ => exact h2
    | 3, _ => exact h3
    | 4, _ => exact h4)
  have hdel' : u.delivering g = true := by
    unfold State.delivering State.enabled at hdel ⊢
    rwa [hlisten.flag _ (by decide), hlisten.flag _ (by decide), hlisten.flag _ (by decide)]
  obtain ⟨t, out, hrows, hout, hidx, hblk, hferry'⟩ := subRows_whole u g _ ((hlisten.rd _ (by decide)).trans hsplit)
    ((hlisten.rd _ (by decide)).trans hmask) (fun n hn => (hlisten.laneState n).trans (hlane n hn).2.1) hdata ((hss 0).trans h0) hothers hdel'
    (by rw [hrx]; exact hstale) (flag_eq_false_of_rd ((hlisten.rd _ (by decide)).trans hbond))
  have hvalid : ∀ n ∈ lanes15, ((SMap.get (fun _ => none) m n).getD ⟨.invalid, 0⟩).hdr ≠ .invalid := fun n hn => by
    rw [hdata n hn]
    decide
  have hop : opDataRow g bs s = ingest g out t := (opDataRow_pins hup hloop hck htake).trans
    (rxRow_matched g u subs5 hvalid (by rw [hlisten.rest]; exact hmatched) (flag_eq_false_of_rd ((hlisten.rd _ (by decide)).trans hrate))
      (flag_eq_false_of_rd ((hlisten.rd _ (by decide)).trans hmis)) hrows)
  obtain ⟨hentry, hsubs, hrd⟩ := ingest_room g t hout (by rw [hferry', hferry]; exact hroom)
  refine ⟨_, congrArg Host.Outcome.next hop, ?_, ?_, ?_⟩
  · rw [hrd _ (by decide), hidx, hlisten.rd _ (by decide), hrx]
  · rw [hsubs, hblk, hrx]
  · rw [hentry, hferry', hferry]

end DataRow

/-- Settles O16: each command is reduced to the operation it performs on lanes and sub-streams; what that leaves is said by a step relation of
its own (`LaneStep` for lane states, `Listens` for line bits taken in). -/
theorem receivedLanesAndRows : Obligations.ReceivedLanesAndRows := by
  unfold Obligations.ReceivedLanesAndRows
  exact ⟨ckWindow_present, ckWindow_lost, fun s g => ckLoss_lost s g, blockLock_locks, blockLockLoss_hunts, alignLoss_locked, rxAlign_first,
    dataRow_delivered, fun s g bs bs' h => dataRow_loops s g h bs bs', fun s g rows h => rxAlign_loops s g h rows, rxStatus_starts,
    rxStatus_agrees, statusTimeout_resync, rxEpoch_shown, rxOvr_spans⟩

end Sys2Proof.Proofs
namespace Sys2Proof.Proofs
open Sys2Proof Sys2Proof.Machine Sys2Proof.Laws

/-! ### A chain beside its registers -/

theorem setChain_self (s : State) (i : Fin 17) (c : ChainSt) : (s.setChain i c).chains[i] = c := Vector.getElem_set_self _

theorem WritesOnly.chains {W : Nat → Prop} {s t : State} (h : WritesOnly W s t) : t.chains = s.chains := by
  have := h.only
  unfold OnlyRegs at this
  rw [this]

theorem rd_lt (s : State) (b : Blk) (f : Fld) : s.rd b f < 2 ^ f.width := get_lt f _

theorem wr_setChain (s : State) (i : Fin 17) (c : ChainSt) (b : Blk) (f : Fld) (v : Nat) :
    (s.setChain i c).wr b f v = (s.wr b f v).setChain i c := rfl

/-- The bits of a word that a field shows. -/
theorem get_eq_div (f : Fld) (w : Word) : f.get w = w.toNat / 2 ^ f.lo % 2 ^ f.width := by
  unfold Fld.get
  rw [BitVec.toNat_ushiftRight, Nat.shiftRight_eq_div_pow]

/-- The low `w` bits of a number as a bit vector and as the model's two's complement. -/
theorem signed24_eq_toInt (x : Nat) : signed 24 x = (BitVec.ofNat 24 x).toInt := by
  rw [BitVec.toInt_ofNat']
  unfold signed wrapS Int.bmod
  dsimp only
  split
  · omega
  · omega

/-! ### Commits (R94) -/

section FiltCommit
variable (i : Fin 17) (s : State)

theorem showPending_setChain (c : ChainSt) : showPending i (s.setChain i c) = (showPending i s).setChain i c := rfl

/-- A commit of the slice's core is one by register that the chain notes as the core's. -/
theorem filtCommit_byCore (cmd : Nat) : ∃ c, filtCommit i cmd true s = (filtCommit i cmd false s).setChain i c :=
  ⟨_, showPending_setChain _ _ _⟩

theorem writesOnly_showPending : WritesOnly (InSlot (.filt i)) s (showPending i s) :=
  (writesOnly_wr s _ (inSlot_base _ (by decide))).wr _ (inSlot_base _ (by decide))

/-- A commit by register writes registers of its slot alone. -/
theorem writesOnly_filtCommit (cmd : Nat) : WritesOnly (InSlot (.filt i)) s (filtCommit i cmd false s) := by
  have hwr : ∀ (c : Bool) (f : Fld) (u : State), f.off < 0x10000 →
      WritesOnly (InSlot (.filt i)) u (if c then u.wr (.filt i) f 1 else u) := by
    intro c f u hf
    cases c
    · exact .refl _ u
    · exact writesOnly_wr u 1 (inSlot_base _ hf)
  unfold filtCommit
  refine .trans ?_ (writesOnly_showPending i _)
  exact (((hwr _ _ s (by decide)).trans (hwr _ _ _ (by decide))).wr _ (inSlot_base _ (by decide))).wr _ (inSlot_base _ (by decide))

/-- The pending flags are bits 20 and 21 of FILT_STATUS. -/
theorem rd_showPending {f : Fld} (h : f.off ≠ 0x70 ∨ f.lo + f.width ≤ 20) : (showPending i s).rd (.filt i) f = s.rd (.filt i) f := by
  unfold showPending
  dsimp only
  rw [rd_wr_keep, rd_wr_keep]
  · exact h.imp id .inl
  · exact h.imp id fun h => .inl (Nat.le_succ_of_le h)

theorem showPending_shown : (showPending i s).rd (.filt i) R.FILT_STATUS.retune_pending = s.rd (.filt i) R.FILT_COMMIT.retune ∧
    (showPending i s).rd (.filt i) R.FILT_STATUS.switch_pending = s.rd (.filt i) R.FILT_COMMIT.switch := by
  unfold showPending
  simp (disch := decide) only [rd_wr_keep, rd_wr_val]
  exact ⟨Nat.mod_eq_of_lt (rd_lt s _ _), Nat.mod_eq_of_lt (rd_lt s _ _)⟩

/-- What a commit by register shows: the changes it names are pending, any other stays as it was. -/
theorem filtCommit_shown (cmd : Nat) : let t := filtCommit i cmd false s
    t.rd (.filt i) R.FILT_COMMIT.retune = (if nbit cmd 0 then 1 else s.rd (.filt i) R.FILT_COMMIT.retune) ∧
    t.rd (.filt i) R.FILT_COMMIT.switch = (if nbit cmd 1 then 1 else s.rd (.filt i) R.FILT_COMMIT.switch) ∧
    t.rd (.filt i) R.FILT_COMMIT.last_cmd = cmd % 4 ∧ t.rd (.filt i) R.FILT_COMMIT.last_status = 1 ∧
    t.rd (.filt i) R.FILT_STATUS.retune_pending = t.rd (.filt i) R.FILT_COMMIT.retune ∧
    t.rd (.filt i) R.FILT_STATUS.switch_pending = t.rd (.filt i) R.FILT_COMMIT.switch := by
  unfold filtCommit
  dsimp only
  rw [(showPending_shown i _).1, (showPending_shown i _).2]
  simp (disch := decide) only [rd_showPending, State.when, Bool.false_eq_true, if_false, rd_wr_keep, rd_wr_val]
  refine ⟨?_, ?_, rfl, rfl, trivial, trivial⟩
  · cases nbit cmd 0 <;> cases nbit cmd 1 <;>
      simp (disch := decide) only [Bool.false_eq_true, if_false, if_true, rd_wr_keep, rd_wr_val] <;> rfl
  · cases nbit cmd 0 <;> cases nbit cmd 1 <;>
      simp (disch := decide) only [Bool.false_eq_true, if_false, if_true, rd_wr_keep, rd_wr_val] <;> rfl

/-- A commit leaves the staging registers as they are. -/
theorem rd_filtCommit (cmd : Nat) {f : Fld} (h : f.off ≠ 0x68 ∧ f.off ≠ 0x70) :
    (filtCommit i cmd false s).rd (.filt i) f = s.rd (.filt i) f := by
  unfold filtCommit
  dsimp only
  rw [rd_showPending i _ (.inl h.2)]
  change ((State.wr _ _ R.FILT_COMMIT.last_cmd cmd).wr (.filt i) R.FILT_COMMIT.last_status 1).rd (.filt i) f = _
  rw [rd_wr_keep _ _ _ _ _ (.inl h.1), rd_wr_keep _ _ _ _ _ (.inl h.1)]
  cases nbit cmd 0 <;> cases nbit cmd 1
  · rfl
  · exact rd_wr_keep _ _ _ _ _ (.inl h.1)
  · exact rd_wr_keep _ _ _ _ _ (.inl h.1)
  · exact (rd_wr_keep _ _ _ _ _ (.inl h.1)).trans (rd_wr_keep _ _ _ _ _ (.inl h.1))

end FiltCommit

theorem commitRetune_pending (s : State) (i : Fin 17) (hoff : s.dev ≠ .off) (hboot : s.dev ≠ .boot) :
    Completes (.commitRetune i) s (fun t =>
      t.rd (.filt i) R.FILT_COMMIT.retune = 1 ∧ t.rd (.filt i) R.FILT_COMMIT.last_cmd = 1 ∧ t.rd (.filt i) R.FILT_COMMIT.last_status = 1 ∧
      t.rd (.filt i) R.FILT_STATUS.retune_pending = 1 ∧ t.rd (.filt i) R.FILT_COMMIT.switch = s.rd (.filt i) R.FILT_COMMIT.switch ∧
      t.chains = s.chains ∧ SameOutside (.filt i) s t) := by
  obtain ⟨hretune, hswitch, hcmd, hstatus, hpending, -⟩ := filtCommit_shown i s 1
  have hkeep := writesOnly_filtCommit i s 1
  exact ⟨_, congrArg Host.Outcome.next (onWrite_of_on _ hoff hboot), hretune, hcmd, hstatus, hpending.trans hretune, hswitch,
    hkeep.chains, hkeep.sameOutside fun _ h => h⟩

theorem commitSwitch_pending (s : State) (i : Fin 17) (hoff : s.dev ≠ .off) (hboot : s.dev ≠ .boot) :
    Completes (.commitSwitch i) s (fun t =>
      t.rd (.filt i) R.FILT_COMMIT.switch = 1 ∧ t.rd (.filt i) R.FILT_COMMIT.last_cmd = 2 ∧ t.rd (.filt i) R.FILT_COMMIT.last_status = 1 ∧
      t.rd (.filt i) R.FILT_STATUS.switch_pending = 1 ∧ t.rd (.filt i) R.FILT_COMMIT.retune = s.rd (.filt i) R.FILT_COMMIT.retune ∧
      t.chains = s.chains ∧ SameOutside (.filt i) s t) := by
  obtain ⟨hretune, hswitch, hcmd, hstatus, -, hpending⟩ := filtCommit_shown i s 2
  have hkeep := writesOnly_filtCommit i s 2
  exact ⟨_, congrArg Host.Outcome.next (onWrite_of_on _ hoff hboot), hswitch, hcmd, hstatus, hpending.trans hswitch, hretune,
    hkeep.chains, hkeep.sameOutside fun _ h => h⟩


/-! ### Unit syllables of a quiet core that write registers (R229, R242, R252) -/

section UnitWrite
variable {c : Fin 17} {s u : State}

theorem loopEnds_idle (pc : Nat) (ks : List Nat) (h : ∀ k ∈ ks, s.loopOn c.val k = false) : loopEnds c pc ks s = (s, pc + 1) := by
  induction ks with
  | nil => rfl
  | cons k ks ih =>
    unfold loopEnds
    rw [h k List.mem_cons_self]
    exact ih fun j hj => h j (List.mem_cons_of_mem k hj)

/-- A bundle that leaves the core as it was, with nothing in flight and no loop, is followed by the next one. -/
theorem bundleEnd_idle (hq : s.Quiet c) (hcores : u.cores = s.cores) (hrd : ∀ f, f.off < 0x10000 → u.rd (.core c) f = s.rd (.core c) f) :
    bundleEnd c u = u.bundleDone c (u.cores[c]) false := by
  obtain ⟨-, hpipe, -, hctl, hwait, hexc, hloops, hpc⟩ := hq
  rw [← hcores] at hpipe hctl hwait hexc
  have hcore : { u.cores[c] with pipe := [], ctl := none, newWait := none, exc := none } = u.cores[c] := by
    generalize u.cores[c] = k at hpipe hctl hwait hexc
    cases k
    simp_all
  have hcnt : ∀ f : Fld, f.off < 0x10000 → f.off ≠ 0xf0 →
      ((u.setCore c u.cores[c]).cnt (.core c) R.CORE_BUNDLES.count 1).rd (.core c) f = s.rd (.core c) f := fun f hf ho =>
    (rd_cnt_keep _ _ _ _ _ (.inl ho)).trans (hrd f hf)
  have hidle : ∀ k ∈ [0, 1, 2], ((u.setCore c u.cores[c]).cnt (.core c) R.CORE_BUNDLES.count 1).loopOn c.val k = false := by
    intro k hk
    have hk3 : k < 3 := by
      simp only [List.mem_cons, List.not_mem_nil, or_false] at hk
      omega
    have hoff : (R.LOOP_BOUNDS.active k).off = 0x90 + 0x8 * k := rfl
    unfold State.loopOn State.flag
    rw [hcnt _ (by omega) (by omega)]
    exact hloops ⟨k, hk3⟩
  have hnext : ((u.setCore c u.cores[c]).cnt (.core c) R.CORE_BUNDLES.count 1).pc c.val = s.pc c.val := hcnt _ (by decide) (by decide)
  have hpc' : u.pc c.val = s.pc c.val := hrd _ (by decide)
  unfold bundleEnd
  simp only [hpipe, hctl, hwait, hexc, List.map_nil, List.filter_nil, hcore]
  change goTo c (loopEnds c _ [0, 1, 2] _).2 (loopEnds c _ [0, 1, 2] _).1 = _
  rw [landAll, landGo, loopEnds_idle _ _ hidle, hnext]
  unfold goTo State.bundleDone State.issued
  rw [if_neg (by omega), hpc']
  rfl

/-- A unit syllable that writes registers outside its core ends its bundle, and nothing else of the core changes. -/
theorem unitWrite_quiet {y : Syl} {rds : List Dst} {bad : Bool} {f : Op} (hq : s.Quiet c) (hlast : y.last = true) (hbad : bad = false)
    (hg : s.guard0 c y = true) (hf : f (setLatch (.alnen c) none s) = u) (hcores : u.cores = s.cores)
    (hrd : ∀ f, f.off < 0x10000 → u.rd (.core c) f = s.rd (.core c) f) :
    unitWrite c y rds bad f s = u.bundleDone c (u.cores[c]) false := by
  obtain ⟨hissues, hpipe, hsquash, -⟩ := id hq
  have htouch : touch c rds s = s := by
    unfold touch
    dsimp only
    rw [hpipe]
    rfl
  unfold unitWrite unitOp issue
  rw [hissues, hsquash]
  simp only [htouch, hbad, illegal, hlast, hg, if_true, Bool.false_eq_true, if_false, hf]
  exact bundleEnd_idle hq hcores hrd

theorem bundleDone_rd (k : CoreSt) {b : Blk} {f : Fld} (hb : b.slot ≠ (Blk.core c).slot) (hf : f.off < 0x10000) :
    (u.bundleDone c k false).rd b f = u.rd b f := by
  unfold State.bundleDone State.issued
  have hne : b.base + f.off ≠ (Blk.core c).base + R.CORE_BUNDLES.count.off := by
    intro e
    have : R.CORE_BUNDLES.count.off = 0xf0 := rfl
    unfold Blk.base at e
    omega
  exact (rd_wr_slot _ _ hb (by decide) hf).trans (rd_cnt_ne _ _ _ _ _ _ hne)

theorem bundleDone_pc (k : CoreSt) (h : u.pc c.val < 16383) : (u.bundleDone c k false).pc c.val = u.pc c.val + 1 := by
  refine (rd_wr_val _ _ _ _ (by decide)).trans (Nat.mod_eq_of_lt ?_)
  change _ < 2 ^ 14
  omega

theorem bundleDone_mem (k : CoreSt) : (u.bundleDone c k false).mem = u.mem := by
  exact onlyRegs_mem (s := u.setCore c k)
    ((onlyRegs_cnt (u.setCore c k) (.core c) R.CORE_BUNDLES.count 1).wr (.core c) R.CORE_STATUS.pc (u.pc c + 1))

end UnitWrite

theorem slot_filt_ne_core (i j : Fin 17) : (Blk.filt i).slot ≠ (Blk.core j).slot := by
  change 0x081 + 4 * i.val ≠ 0x080 + 4 * j.val
  omega

/-- A register write of the core into its filter slot, which the chain may note, followed by the end of its bundle. -/
theorem filtUnitWrite_completes {c : Fin 17} {s u : State} {k : ChainSt} {y : Syl} {rds : List Dst} {bad : Bool} {f : Op} {i : Instr}
    {q : State → Prop} (hexec : exec i s = .next (unitWrite c y rds bad f s)) (hq : s.Quiet c) (hlast : y.last = true) (hbad : bad = false)
    (hg : s.guard0 c y = true) (hf : f (setLatch (.alnen c) none s) = u.setChain c k)
    (hu : WritesOnly (InSlot (.filt c)) (setLatch (.alnen c) none s) u)
    (hshown : ∀ t : State, (∀ f : Fld, f.off < 0x10000 → t.rd (.filt c) f = u.rd (.filt c) f) → t.pc c = s.pc c + 1 → t.mem = s.mem → q t) :
    Completes i s q := by
  have hcores : u.cores = s.cores := onlyRegs_cores (s := setLatch (.alnen c) none s) hu.only
  have hmem : u.mem = s.mem := onlyRegs_mem (s := setLatch (.alnen c) none s) hu.only
  have hrd : ∀ f : Fld, f.off < 0x10000 → (u.setChain c k).rd (.core c) f = s.rd (.core c) f := fun f hf =>
    hu.rd fun h => slot_filt_ne_core c c (h.symm.trans (inSlot_base (.core c) hf))
  have hpc : (u.setChain c k).pc c.val = s.pc c.val := hrd _ (by decide)
  obtain ⟨-, -, -, -, -, -, -, hlt⟩ := id hq
  refine ⟨_, hexec.trans (congrArg Host.Outcome.next (unitWrite_quiet hq hlast hbad hg hf hcores hrd)), hshown _ (fun f hf => ?_) ?_ ?_⟩
  · exact bundleDone_rd _ (slot_filt_ne_core c c) hf
  · rw [bundleDone_pc _ (by omega), hpc]
  · exact (bundleDone_mem _).trans hmem

/-- A unit syllable that writes staging registers by `stage` and commits what they stage (R94): the staging registers read as `stage` leaves
them, FILT_COMMIT as a commit by register leaves it. -/
theorem unitCommit_completes {c : Fin 17} {s : State} {y : Syl} {rds : List Dst} {bad : Bool} {stage : Op} {cmd : Nat} {i : Instr}
    {q : State → Prop} (hexec : exec i s = .next (unitWrite c y rds bad (fun s => filtCommit c cmd true (stage s)) s)) (hq : s.Quiet c)
    (hlast : y.last = true) (hbad : bad = false) (hg : s.guard0 c y = true)
    (hstage : WritesOnly (InSlot (.filt c)) (setLatch (.alnen c) none s) (stage (setLatch (.alnen c) none s)))
    (hshown : ∀ t : State, (∀ f : Fld, f.off < 0x68 → t.rd (.filt c) f = (stage (setLatch (.alnen c) none s)).rd (.filt c) f) →
      (∀ f : Fld, f.off = 0x68 → t.rd (.filt c) f = (filtCommit c cmd false (stage (setLatch (.alnen c) none s))).rd (.filt c) f) →
      t.pc c = s.pc c + 1 → t.mem = s.mem → q t) : Completes i s q := by
  obtain ⟨k, hk⟩ := filtCommit_byCore c (stage (setLatch (.alnen c) none s)) cmd
  refine filtUnitWrite_completes hexec hq hlast hbad hg hk (hstage.trans (writesOnly_filtCommit c _ cmd)) fun t ht hpc hmem =>
    hshown t (fun f hf => ?_) (fun f hf => ht f (by omega)) hpc hmem
  exact (ht f (by omega)).trans (rd_filtCommit c _ cmd ⟨by omega, by omega⟩)

theorem sreg_toNat (k : CoreSt) (n : Nat) : (k.sreg n).toNat = k.rs n := rfl

theorem pair_eq_append (k : CoreSt) (n : Nat) : k.pair n = (k.sreg (n + 1) ++ k.sreg n : BitVec 64).toNat := by
  have hlow : (k.sreg n).toNat < 2 ^ 32 := (k.sreg n).isLt
  rw [BitVec.toNat_append, ← Nat.shiftLeft_add_eq_or_of_lt hlow, Nat.shiftLeft_eq, sreg_toNat, sreg_toNat, CoreSt.pair]
  omega

/-- A bit of a scalar register that is written to a flag of a register. -/
theorem bit_ne_zero (k : CoreSt) (n j : Nat) : decide (k.rs n / 2 ^ j % 2 ≠ 0) = (k.sreg n).getLsbD j := by
  rw [← sreg_toNat, BitVec.getLsbD, Nat.testBit_eq_decide_div_mod_eq]
  by_cases h : (k.sreg n).toNat / 2 ^ j % 2 = 1
  · rw [h]
    rfl
  · simp [(Nat.mod_two_eq_zero_or_one _).resolve_right h]

/-- The registers U.FILT RETUNE writes before its commit. -/
def retuneStaged (c : Fin 17) (y : Syl) (s : State) : State :=
  ((s.wr (.filt c) R.NCO_FCW_STAGE.fcw ((s.cores[c]).pair y.an)).wr (.filt c) R.NCO_PHASE_STAGE.phase ((s.cores[c]).pair y.bn)).wr
    (.filt c) R.NCO_PHASE_STAGE.coherent ((s.cores[c]).rs (y.bn + 1) / 2 ^ 16 % 2)

/-- The registers U.FILT SWITCH writes before its commit. -/
def switchStaged (c : Fin 17) (y : Syl) (s : State) : State :=
  (s.wr (.filt c) R.FIR_BANK_STAGE.bank ((s.cores[c]).rs y.an)).wr (.filt c) R.FIR_BANK_STAGE.fade ((s.cores[c]).rs y.an / 4 % 2)

theorem exec_retune (c : Fin 17) (y : Syl) (s : State) : exec (.retune c y) s = .next (unitWrite c y (pairDst y.an ++ pairDst y.bn)
    (decide (y.an % 2 = 1) || decide (y.bn % 2 = 1)) (fun s => filtCommit c 1 true (retuneStaged c y s)) s) := rfl

theorem exec_switch (c : Fin 17) (y : Syl) (s : State) : exec (.switch c y) s =
    .next (unitWrite c y [.s y.an] false (fun s => filtCommit c 2 true (switchStaged c y s)) s) := rfl

theorem writesOnly_retuneStaged (c : Fin 17) (y : Syl) (s : State) : WritesOnly (InSlot (.filt c)) s (retuneStaged c y s) :=
  ((writesOnly_wr s _ (inSlot_base _ (by decide))).wr _ (inSlot_base _ (by decide))).wr _ (inSlot_base _ (by decide))

theorem writesOnly_switchStaged (c : Fin 17) (y : Syl) (s : State) : WritesOnly (InSlot (.filt c)) s (switchStaged c y s) :=
  (writesOnly_wr s _ (inSlot_base _ (by decide))).wr _ (inSlot_base _ (by decide))

theorem retuneStaged_rd (c : Fin 17) (y : Syl) (s : State) :
    (retuneStaged c y s).rd (.filt c) R.NCO_FCW_STAGE.fcw
      = ((s.cores[c]).sreg (y.an + 1) ++ (s.cores[c]).sreg y.an : BitVec 64).toNat % 2 ^ 48 ∧
    (retuneStaged c y s).rd (.filt c) R.NCO_PHASE_STAGE.phase
      = ((s.cores[c]).sreg (y.bn + 1) ++ (s.cores[c]).sreg y.bn : BitVec 64).toNat % 2 ^ 48 ∧
    (retuneStaged c y s).flag (.filt c) R.NCO_PHASE_STAGE.coherent = ((s.cores[c]).sreg (y.bn + 1)).getLsbD 16 := by
  unfold retuneStaged State.flag
  simp (disch := decide) only [rd_wr_keep, rd_wr_val, pair_eq_append]
  exact ⟨rfl, rfl, (congrArg (fun n => decide (n ≠ 0)) (Nat.mod_mod _ 2)).trans (bit_ne_zero _ _ _)⟩

theorem switchStaged_rd (c : Fin 17) (y : Syl) (s : State) :
    (switchStaged c y s).rd (.filt c) R.FIR_BANK_STAGE.bank = ((s.cores[c]).sreg y.an).toNat % 4 ∧
    (switchStaged c y s).flag (.filt c) R.FIR_BANK_STAGE.fade = ((s.cores[c]).sreg y.an).getLsbD 2 := by
  unfold switchStaged State.flag
  simp (disch := decide) only [rd_wr_keep, rd_wr_val]
  exact ⟨rfl, (congrArg (fun n => decide (n ≠ 0)) (Nat.mod_mod _ 2)).trans (bit_ne_zero _ _ 2)⟩

theorem unitRetune_pending (s : State) (c : Fin 17) (y : Syl) (hq : s.Quiet c) (hlast : y.last = true) (ha : y.an % 2 = 0)
    (hb : y.bn % 2 = 0) (hg : s.guard0 c y = true) : Completes (.retune c y) s (fun t =>
      t.rd (.filt c) R.NCO_FCW_STAGE.fcw = ((s.cores[c]).sreg (y.an + 1) ++ (s.cores[c]).sreg y.an : BitVec 64).toNat % 2 ^ 48 ∧
      t.rd (.filt c) R.NCO_PHASE_STAGE.phase = ((s.cores[c]).sreg (y.bn + 1) ++ (s.cores[c]).sreg y.bn : BitVec 64).toNat % 2 ^ 48 ∧
      t.flag (.filt c) R.NCO_PHASE_STAGE.coherent = ((s.cores[c]).sreg (y.bn + 1)).getLsbD 16 ∧
      t.rd (.filt c) R.FILT_COMMIT.retune = 1 ∧ t.rd (.filt c) R.FILT_COMMIT.last_status = 1 ∧ t.pc c = s.pc c + 1 ∧ t.mem = s.mem) := by
  obtain ⟨hfcw, hphase, hcoherent⟩ := retuneStaged_rd c y (setLatch (.alnen c) none s)
  obtain ⟨hretune, -, -, hstatus, -⟩ := filtCommit_shown c (retuneStaged c y (setLatch (.alnen c) none s)) 1
  refine unitCommit_completes (exec_retune c y s) hq hlast (by simp [ha, hb]) hg (writesOnly_retuneStaged c y _) fun t hstage hcommit hpc hmem =>
    ⟨(hstage _ (by decide)).trans hfcw, (hstage _ (by decide)).trans hphase, ?_, (hcommit _ rfl).trans hretune, (hcommit _ rfl).trans hstatus,
      hpc, hmem⟩
  exact (congrArg (fun n => decide (n ≠ 0)) (hstage R.NCO_PHASE_STAGE.coherent (by decide))).trans hcoherent

theorem unitSwitch_pending (s : State) (c : Fin 17) (y : Syl) (hq : s.Quiet c) (hlast : y.last = true) (hg : s.guard0 c y = true) :
    Completes (.switch c y) s (fun t =>
      t.rd (.filt c) R.FIR_BANK_STAGE.bank = ((s.cores[c]).sreg y.an).toNat % 4 ∧
      t.flag (.filt c) R.FIR_BANK_STAGE.fade = ((s.cores[c]).sreg y.an).getLsbD 2 ∧ t.rd (.filt c) R.FILT_COMMIT.switch = 1 ∧
      t.rd (.filt c) R.FILT_COMMIT.last_status = 1 ∧ t.pc c = s.pc c + 1 ∧ t.mem = s.mem) := by
  obtain ⟨hbank, hfade⟩ := switchStaged_rd c y (setLatch (.alnen c) none s)
  obtain ⟨-, hswitch, -, hstatus, -⟩ := filtCommit_shown c (switchStaged c y (setLatch (.alnen c) none s)) 2
  refine unitCommit_completes (exec_switch c y s) hq hlast rfl hg (writesOnly_switchStaged c y _) fun t hstage hcommit hpc hmem =>
    ⟨(hstage _ (by decide)).trans hbank, ?_, (hcommit _ rfl).trans hswitch, (hcommit _ rfl).trans hstatus, hpc, hmem⟩
  exact (congrArg (fun n => decide (n ≠ 0)) (hstage R.FIR_BANK_STAGE.fade (by decide))).trans hfade

/-! ### The end of a fade (R92) -/

section Geometry
variable (i : Fin 17) (s : State)

theorem writesOnly_showGeom : WritesOnly (InSlot (.filt i)) s (showGeom i s) := by
  unfold showGeom
  exact (((writesOnly_wr s _ (inSlot_base _ (by decide))).wr _ (inSlot_base _ (by decide))).wr _ (inSlot_base _ (by decide))).wr _
    (inSlot_base _ (by decide))

/-- The geometry stands in GROUP_DELAY and CHAIN_GEOM. -/
theorem rd_showGeom {f : Fld} (h : f.off ≠ 0x78 ∧ f.off ≠ 0x80) : (showGeom i s).rd (.filt i) f = s.rd (.filt i) f := by
  unfold showGeom
  dsimp only
  rw [rd_wr_keep _ _ _ _ _ (.inl h.2), rd_wr_keep _ _ _ _ _ (.inl h.2), rd_wr_keep _ _ _ _ _ (.inl h.1),
    rd_wr_keep _ _ _ _ _ (.inl h.1)]

/-- The switch to the new bank at the end of a fade, before the geometry follows it. -/
def fadeEnded : State :=
  (s.wr (.filt i) R.FILT_STATUS.active_bank (s.rd (.filt i) R.FILT_STATUS.fade_target)).wr (.filt i) R.FILT_STATUS.fading 0

theorem writesOnly_fadeEnded : WritesOnly (InSlot (.filt i)) s (fadeEnded i s) :=
  (writesOnly_wr s _ (inSlot_base _ (by decide))).wr _ (inSlot_base _ (by decide))

theorem fadeFinish_over (hfading : s.flag (.filt i) R.FILT_STATUS.fading = true) (hleft : s.rd (.filt i) R.FILT_STATUS.fade_remaining = 0) :
    fadeFinish i s = showGeom i (fadeEnded i s) := by
  unfold fadeFinish
  rw [if_pos (by simp [hfading, hleft])]
  rfl

theorem fadeFinish_idle (hfading : s.flag (.filt i) R.FILT_STATUS.fading = false) : fadeFinish i s = s := by
  unfold fadeFinish
  rw [if_neg (by simp [hfading])]

end Geometry

theorem fadeEnd_switches (s : State) (i : Fin 17) (hen : s.enabled (.filt i) = true) (hrun : s.coreRuns = true)
    (hfading : s.flag (.filt i) R.FILT_STATUS.fading = true) (hleft : s.rd (.filt i) R.FILT_STATUS.fade_remaining = 0) :
    Completes (.fadeEnd i) s (fun t =>
      t.rd (.filt i) R.FILT_STATUS.active_bank = s.rd (.filt i) R.FILT_STATUS.fade_target ∧ t.rd (.filt i) R.FILT_STATUS.fading = 0 ∧
      t.chains = s.chains ∧ SameOutside (.filt i) s t) := by
  have hop : opFadeEnd i s = showGeom i (fadeEnded i s) := by
    unfold opFadeEnd
    rw [if_pos (by simp [hen, hrun]), fadeFinish_over i s hfading hleft]
  have hkeep := (writesOnly_fadeEnded i s).trans (writesOnly_showGeom i _)
  refine ⟨_, congrArg Host.Outcome.next hop, ?_, ?_, hkeep.chains, hkeep.sameOutside fun _ h => h⟩
  · rw [rd_showGeom _ _ (by decide), fadeEnded, rd_wr_keep _ _ _ _ _ (by decide), rd_wr_val _ _ _ _ (by decide)]
    exact Nat.mod_eq_of_lt (rd_lt s _ R.FILT_STATUS.fade_target)
  · rw [rd_showGeom _ _ (by decide), fadeEnded, rd_wr_val _ _ _ _ (by decide)]
    rfl

/-- A command that leaves a chain replaced and the registers of its filter slot changed. -/
theorem setChain_completes {s u : State} {i : Fin 17} {k : ChainSt} {c : Instr} {q : State → Prop} (hexec : exec c s = .next (u.setChain i k))
    (hout : SameOutside (.filt i) s u) (hmem : u.mem = s.mem)
    (hshown : ∀ t : State, t.chains[i] = k → (∀ f, t.rd (.filt i) f = u.rd (.filt i) f) → t.mem = s.mem → SameOutside (.filt i) s t → q t) :
    Completes c s q :=
  ⟨_, hexec, hshown _ (setChain_self u i k) (fun _ => rfl) hmem hout⟩

/-! ### Coefficient loads (R91) -/

section BankLoad
variable (s : State) (i : Fin 17) (b : Fin 4) (v : BitVec 64)

/-- FIR_BANK[b] takes the address and the length written. -/
def bankWritten : State :=
  (s.wr (.filt i) (R.FIR_BANK.laddr b) ((R.FIR_BANK.laddr b).get v)).wr (.filt i) (R.FIR_BANK.length b) ((R.FIR_BANK.length b).get v)

/-- The load bit of FIR_BANK[b] is set and the loaded bit cleared. -/
def bankLoadShown : State := (s.wr (.filt i) (R.FIR_BANK.load b) 1).wr (.filt i) (R.FIR_BANK.loaded b) 0

theorem inSlot_bank {f : Fld} (hf : f.off = 0x100 + 0x8 * b.val) : InSlot (.filt i) ((Blk.filt i).base + f.off) := inSlot_base _ (by omega)

theorem writesOnly_bankWritten : WritesOnly (InSlot (.filt i)) s (bankWritten s i b v) :=
  (writesOnly_wr s _ (inSlot_bank i b rfl)).wr _ (inSlot_bank i b rfl)

theorem writesOnly_bankLoadShown : WritesOnly (InSlot (.filt i)) s (bankLoadShown s i b) :=
  (writesOnly_wr s _ (inSlot_bank i b rfl)).wr _ (inSlot_bank i b rfl)

/-- The chain with the load of bank `b` under way, or none. -/
def bankLoadNoted (x : Option (Nat × Nat)) : ChainSt := { s.chains[i] with bankLoad := (s.chains[i]).bankLoad.set b x }

theorem bankLoadNoted_self (x : Option (Nat × Nat)) : (bankLoadNoted s i b x).bankLoad[b] = x := Vector.getElem_set_self _

theorem bankLoadShown_rd : (bankLoadShown s i b).rd (.filt i) (R.FIR_BANK.load b) = 1 ∧
    (bankLoadShown s i b).rd (.filt i) (R.FIR_BANK.loaded b) = 0 ∧
    (bankLoadShown s i b).rd (.filt i) (R.FIR_BANK.laddr b) = s.rd (.filt i) (R.FIR_BANK.laddr b) :=
  ⟨(rd_wr_keep _ _ _ _ _ (.inr (.inl (by decide : 29 + 1 ≤ 30)))).trans (rd_wr_val _ _ _ _ (by decide : 29 + 1 ≤ 64)),
    rd_wr_val _ _ _ _ (by decide : 30 + 1 ≤ 64),
    (rd_wr_keep _ _ _ _ _ (.inr (.inl (by decide : 0 + 20 ≤ 30)))).trans
      (rd_wr_keep _ _ _ _ _ (.inr (.inl (by decide : 0 + 20 ≤ 29))))⟩

/-- The load bit of FIR_BANK[b] is cleared and the loaded bit set. -/
def bankLoadEnded : State := (s.wr (.filt i) (R.FIR_BANK.load b) 0).wr (.filt i) (R.FIR_BANK.loaded b) 1

theorem writesOnly_bankLoadEnded : WritesOnly (InSlot (.filt i)) s (bankLoadEnded s i b) :=
  (writesOnly_wr s _ (inSlot_bank i b rfl)).wr _ (inSlot_bank i b rfl)

theorem bankLoadEnded_rd : (bankLoadEnded s i b).rd (.filt i) (R.FIR_BANK.load b) = 0 ∧
    (bankLoadEnded s i b).rd (.filt i) (R.FIR_BANK.loaded b) = 1 :=
  ⟨(rd_wr_keep _ _ _ _ _ (.inr (.inl (by decide : 29 + 1 ≤ 30)))).trans (rd_wr_val _ _ _ _ (by decide : 29 + 1 ≤ 64)),
    rd_wr_val _ _ _ _ (by decide : 30 + 1 ≤ 64)⟩

/-- The chain with bank `b` loaded. -/
def bankFilled (x : Bank) : ChainSt := { bankLoadNoted s i b none with banks := (s.chains[i]).banks.set b x }

theorem bankFilled_self (x : Bank) : (bankFilled s i b x).banks[b] = x := Vector.getElem_set_self _

theorem bankWritten_rd : (bankWritten s i b v).rd (.filt i) (R.FIR_BANK.laddr b) = v.toNat % 2 ^ 20 ∧
    (bankWritten s i b v).rd (.filt i) (R.FIR_BANK.length b) = v.toNat / 2 ^ 20 % 2 ^ 9 := by
  refine ⟨?_, ?_⟩
  · refine (rd_wr_keep _ _ _ _ _ (.inr (.inl (by decide : 0 + 20 ≤ 20)))).trans ((rd_wr_val _ _ _ _ (by decide : 0 + 20 ≤ 64)).trans ?_)
    rw [get_eq_div]
    change v.toNat / 2 ^ 0 % 2 ^ 20 % 2 ^ 20 = _
    rw [Nat.mod_mod, Nat.pow_zero, Nat.div_one]
  · refine (rd_wr_val _ _ _ _ (by decide : 20 + 9 ≤ 64)).trans ?_
    rw [get_eq_div]
    exact Nat.mod_mod _ _

/-- The registers below the banks' stand apart from them. -/
theorem bankWritten_low {f : Fld} (hf : f.off < 0x100) : (bankWritten s i b v).rd (.filt i) f = s.rd (.filt i) f := by
  have hl : f.off ≠ (R.FIR_BANK.length b).off := Nat.ne_of_lt (Nat.lt_of_lt_of_le hf (Nat.le_add_right _ _))
  exact (rd_wr_keep _ _ _ _ _ (.inl hl)).trans (rd_wr_keep _ _ _ _ _ (.inl hl))

theorem bankWritten_busy : (bankWritten s i b v).bankBusy i b = s.bankBusy i b := by
  unfold State.bankBusy State.enabled State.flag
  simp (disch := decide) only [bankWritten_low]

variable {s i b v}

theorem bankLoading_none (hidle : (s.chains[i]).bankLoad[b] = none) : (bankWritten s i b v).bankLoading i b = false := by
  have hb : (s.chains[i]).bankLoad[Fin.ofNat 4 b.val] = (s.chains[i]).bankLoad[b] :=
    congrArg (fun j : Fin 4 => (s.chains[i]).bankLoad[j]) (Fin.ofNat_val_eq_self b)
  exact congrArg Option.isSome (hb.trans hidle)

theorem bankLoad_starts (s : State) (i : Fin 17) (b : Fin 4) (v : BitVec 64) (hoff : s.dev ≠ .off) (hboot : s.dev ≠ .boot)
    (hidle : (s.chains[i]).bankLoad[b] = none) (hbusy : s.bankBusy i b = false)
    (hlo : 0 < v.toNat / 2 ^ 20 % 2 ^ 9) (hhi : v.toNat / 2 ^ 20 % 2 ^ 9 ≤ 256) : Completes (.bankLoad i b v) s (fun t =>
      (t.chains[i]).bankLoad[b] = some (v.toNat % 2 ^ 20, v.toNat / 2 ^ 20 % 2 ^ 9) ∧ t.rd (.filt i) (R.FIR_BANK.load b) = 1 ∧
      t.rd (.filt i) (R.FIR_BANK.loaded b) = 0 ∧ t.mem = s.mem ∧ SameOutside (.filt i) s t) := by
  obtain ⟨haddr, hlen⟩ := bankWritten_rd s i b v
  have hbusy' := (bankWritten_busy s i b v).trans hbusy
  have hload := bankLoading_none (v := v) hidle
  have hkeep := writesOnly_bankWritten s i b v
  have hop : onWrite (opBankLoad i b v) s = bankLoadStart i b (bankWritten s i b v) := onWrite_of_on _ hoff hboot
  generalize bankWritten s i b v = w at haddr hlen hbusy' hload hkeep hop
  have hshown := writesOnly_bankLoadShown w i b
  obtain ⟨hset, hclear, haddr'⟩ := bankLoadShown_rd w i b
  have hstart : bankLoadStart i b w = (bankLoadShown w i b).setChain i (bankLoadNoted (bankLoadShown w i b) i b
      (some ((bankLoadShown w i b).rd (.filt i) (R.FIR_BANK.laddr b), v.toNat / 2 ^ 20 % 2 ^ 9))) := by
    unfold bankLoadStart
    dsimp only
    rw [hload, hlen, hbusy', if_neg Bool.false_ne_true, if_neg (by simp; omega)]
    unfold bankLoadNoted bankLoadShown
    rfl
  rw [haddr', haddr] at hstart
  have hnoted := bankLoadNoted_self (bankLoadShown w i b) i b (some (v.toNat % 2 ^ 20, v.toNat / 2 ^ 20 % 2 ^ 9))
  have hmem := (onlyRegs_mem hshown.only).trans (onlyRegs_mem hkeep.only)
  have hout : SameOutside (.filt i) s (bankLoadShown w i b) := (hkeep.trans hshown).sameOutside fun _ h => h
  exact setChain_completes (congrArg Host.Outcome.next (hop.trans hstart)) hout hmem fun t hchain hrd hmem hout =>
    ⟨(congrArg (fun k => k.bankLoad[b]) hchain).trans hnoted, (hrd _).trans hset, (hrd _).trans hclear, hmem, hout⟩

theorem bankLoad_refused (s : State) (i : Fin 17) (b : Fin 4) (v : BitVec 64) (hoff : s.dev ≠ .off) (hboot : s.dev ≠ .boot)
    (hidle : (s.chains[i]).bankLoad[b] = none)
    (hbad : s.bankBusy i b = true ∨ v.toNat / 2 ^ 20 % 2 ^ 9 = 0 ∨ 256 < v.toNat / 2 ^ 20 % 2 ^ 9) : Completes (.bankLoad i b v) s (fun t =>
      t.rd (.filt i) R.FILT_FAULT.bank_load_refused = 1 ∧ t.rd (.filt i) (R.FIR_BANK.load b) = 0 ∧ t.chains = s.chains ∧
      SameOutside (.filt i) s t) := by
  obtain ⟨-, hlen⟩ := bankWritten_rd s i b v
  have hbusy := bankWritten_busy s i b v
  have hload := bankLoading_none (v := v) hidle
  have hkeep := writesOnly_bankWritten s i b v
  have hop : onWrite (opBankLoad i b v) s = bankLoadStart i b (bankWritten s i b v) := onWrite_of_on _ hoff hboot
  generalize bankWritten s i b v = w at hlen hbusy hload hkeep hop
  have hstart : bankLoadStart i b w =
      (w.wr (.filt i) R.FILT_FAULT.bank_load_refused 1).wr (.filt i) (R.FIR_BANK.load b) 0 := by
    unfold bankLoadStart
    dsimp only
    rw [hload, hlen, hbusy, if_neg Bool.false_ne_true, if_pos]
    simp only [Bool.or_eq_true, decide_eq_true_eq, or_assoc]
    exact hbad
  have hrefused : WritesOnly (InSlot (.filt i)) w ((w.wr (.filt i) R.FILT_FAULT.bank_load_refused 1).wr (.filt i) (R.FIR_BANK.load b) 0) :=
    (writesOnly_wr w _ (inSlot_base _ (by decide))).wr _ (inSlot_bank i b rfl)
  have hoff' : R.FILT_FAULT.bank_load_refused.off ≠ (R.FIR_BANK.load b).off :=
    Nat.ne_of_lt (Nat.lt_of_lt_of_le (by decide) (Nat.le_add_right 0x100 _))
  refine ⟨_, congrArg Host.Outcome.next (hop.trans hstart), ?_, rd_wr_val _ _ _ _ (by decide : 29 + 1 ≤ 64), ?_, ?_⟩
  · exact (rd_wr_keep _ _ _ _ _ (.inl hoff')).trans (rd_wr_val _ _ _ _ (by decide))
  · exact hrefused.chains.trans hkeep.chains
  · exact (hkeep.trans hrefused).sameOutside fun _ h => h

theorem bankLoadDone_loads (s : State) (i : Fin 17) (b : Fin 4) (a l : Nat) (hrun : s.coreRuns = true)
    (hload : (s.chains[i]).bankLoad[b] = some (a, l)) (hsound : s.firstBad (.lmem i) (8 * a % 2 ^ 23) (4 * ((l + 1) / 2)) = none) :
    Completes (.bankLoadDone i b) s (fun t => (t.chains[i]).bankLoad[b] = none ∧ t.rd (.filt i) (R.FIR_BANK.loaded b) = 1 ∧
      t.rd (.filt i) (R.FIR_BANK.load b) = 0 ∧ (t.chains[i]).banks[b] = ⟨l, (List.range ((l + 1) / 2)).map (fun k =>
        (BitVec.ofNat 24 (memNat (s.mem.lmem[i]) ((8 * a + 4 * k) % 2 ^ 23) 4)).toInt)⟩ ∧ t.mem = s.mem ∧ SameOutside (.filt i) s t) := by
  have hwords : s.lmemWords i a ((l + 1) / 2) 24 = (List.range ((l + 1) / 2)).map (fun k =>
      (BitVec.ofNat 24 (memNat (s.mem.lmem[i]) ((8 * a + 4 * k) % 2 ^ 23) 4)).toInt) :=
    List.map_congr_left fun k _ => signed24_eq_toInt _
  have hop : opBankLoadDone i b s = (bankLoadEnded s i b).setChain i (bankFilled s i b ⟨l, s.lmemWords i a ((l + 1) / 2) 24⟩) := by
    unfold opBankLoadDone bankLoadEnd
    rw [if_pos hrun]
    dsimp only
    rw [hload]
    dsimp only
    rw [hsound]
    unfold bankFilled bankLoadNoted bankLoadEnded
    rfl
  obtain ⟨hclear, hset⟩ := bankLoadEnded_rd s i b
  have hkeep := writesOnly_bankLoadEnded s i b
  have hnone : (bankFilled s i b ⟨l, s.lmemWords i a ((l + 1) / 2) 24⟩).bankLoad[b] = none := bankLoadNoted_self s i b none
  have hfilled := bankFilled_self s i b ⟨l, s.lmemWords i a ((l + 1) / 2) 24⟩
  have hout : SameOutside (.filt i) s (bankLoadEnded s i b) := hkeep.sameOutside fun _ h => h
  have hmem := onlyRegs_mem hkeep.only
  exact setChain_completes (congrArg Host.Outcome.next hop) hout hmem fun t hchain hrd hmem hout =>
    ⟨(congrArg (fun k => k.bankLoad[b]) hchain).trans hnone, (hrd _).trans hset, (hrd _).trans hclear,
      (congrArg (fun k => k.banks[b]) hchain).trans (hfilled.trans (congrArg (Bank.mk l) hwords)), hmem, hout⟩

end BankLoad

/-- Settles O33: a commit by what `filtCommit` shows, a core's commit with the end of its bundle behind it, a load by what its write leaves
of FIR_BANK[b]. -/
theorem filterCommits : Obligations.FilterCommits := by
  unfold Obligations.FilterCommits
  exact ⟨commitRetune_pending, commitSwitch_pending, unitRetune_pending, unitSwitch_pending, fadeEnd_switches, bankLoad_starts,
    bankLoad_refused, bankLoadDone_loads⟩


end Sys2Proof.Proofs

namespace Sys2Proof.Proofs
open Sys2Proof Sys2Proof.Machine Sys2Proof.Laws

/-! ### A batch of a stray stream context (R81) -/

/-- The context whose PL_STREAM word would lie over RXG_FERRY of receive group 0: the table of 64 contexts ends long before it. -/
def strayContext : Nat := ((Blk.rxg 0).base + R.RXG_FERRY.level.off - (Blk.placement.base + 0x1200)) / 8

/-- One sample of the stray context, the second of run 3. -/
def strayBatch : Batch := ⟨strayContext, 3, 1, 0, 0, false, [⟨9, -4, true, false, 70⟩]⟩

/-- Slice 0 decimates by 2 and takes the stray context, by what stands in RXG_FERRY; the ferry of group 0 holds its batch. -/
def strayDelivery : State :=
  let s := { State.reset with dev := .run }
  let s := (s.wr .clocks R.CLK_STATUS.locked 1).wr (.filt 0) R.BLOCK_STATUS.enabled 1
  let s := (s.wr (.filt 0) R.FILT_CFG.fir_enable 1).wr (.filt 0) R.FILT_CFG.fir_decim 1
  let s := (s.wr .placement (R.PL_STREAM.valid strayContext) 1).wr .placement (R.PL_STREAM.consumers strayContext) 1
  (s.setChain 0 { ChainSt.zero with run := some 3, any := true, next := 1 }).setRx 0 { RxSt.zero with ferry := [[strayBatch]] }

/-- Taking the entry out of ingest writes RXG_FERRY.level, and with it the word that names slice 0: no slice is left to take the batch. -/
theorem strayDelivery_undelivered : ((opSampleDelivery 0 [] strayDelivery).chains[(0 : Fin 17)]).next = 1 := by decide +kernel

/-- Refutes O32, in its clause on a sample off the decimation grid: nothing in it keeps a batch's context below the 64 of PL_STREAM.
That a lost sample enters the history as zero, as R97 has it, and does not clear it, plays no part. -/
theorem not_samplesThroughSlice : ¬ Obligations.SamplesThroughSlice := by
  unfold Obligations.SamplesThroughSlice
  rintro ⟨hoffGrid, -⟩
  obtain ⟨t, ht, -, -, hnext, -⟩ := hoffGrid strayDelivery 0 0 strayBatch ⟨9, -4, true, false, 70⟩ [] (by decide) (by decide) (by decide)
    rfl (by decide) rfl rfl rfl (by decide) rfl rfl rfl rfl (by decide) (by decide) (by decide) (by decide) (by decide) (by decide)
  obtain rfl : opSampleDelivery 0 [] strayDelivery = t := Host.Outcome.next.inj ht
  exact absurd (strayDelivery_undelivered.symm.trans hnext) (by decide)


end Sys2Proof.Proofs

namespace Sys2Proof.Proofs
open Sys2Proof Sys2Proof.Machine Sys2Proof.Laws

/-! ### Chains replaced -/

theorem setChain_setChain (s : State) (i : Fin 17) (a b : ChainSt) : (s.setChain i a).setChain i b = s.setChain i b :=
  congrArg (fun v => { s with chains := v }) (Vector.set_set _ i.isLt)

theorem setChain_same (s : State) (i : Fin 17) : s.setChain i s.chains[i] = s :=
  congrArg (fun v => { s with chains := v }) (Vector.set_getElem_self i.isLt)

/-! ### The window registers (R109, R110) -/

/-- XF_STATUS shows whether a load is under way (`busy`) and whether a selection is pending. -/
def xfShown (i : Fin 17) (busy : Bool) (s : State) : State :=
  let s := s.wr (.filt i) R.XF_STATUS.load_busy (bit busy)
  s.wr (.filt i) R.XF_STATUS.window_pending (s.rd (.filt i) R.XF_COMMIT.window)

section XfShown
variable (i : Fin 17) (busy : Bool) (s : State)

/-- A load of one of the stores of chain `k` is under way. -/
def winBusy (k : ChainSt) : Bool := (k.winLoad[0]).isSome || (k.winLoad[1]).isSome

theorem showXf_eq : showXf i s = xfShown i (winBusy s.chains[i]) s := rfl

theorem showXf_setChain (k : ChainSt) : showXf i (s.setChain i k) = (xfShown i (winBusy k) s).setChain i k := by
  rw [showXf_eq, setChain_self]
  rfl

theorem writesOnly_xfShown : WritesOnly (InSlot (.filt i)) s (xfShown i busy s) :=
  (writesOnly_wr s _ (inSlot_base _ (by decide))).wr _ (inSlot_base _ (by decide))

/-- Both flags stand in XF_STATUS. -/
theorem rd_xfShown {f : Fld} (h : f.off ≠ 0x430) : (xfShown i busy s).rd (.filt i) f = s.rd (.filt i) f :=
  (rd_wr_keep _ _ _ _ _ (.inl h)).trans (rd_wr_keep _ _ _ _ _ (.inl h))

theorem xfShown_shown : (xfShown i busy s).rd (.filt i) R.XF_STATUS.load_busy = bit busy ∧
    (xfShown i busy s).rd (.filt i) R.XF_STATUS.window_pending = s.rd (.filt i) R.XF_COMMIT.window := by
  unfold xfShown
  simp (disch := decide) only [rd_wr_keep, rd_wr_val]
  refine ⟨?_, Nat.mod_eq_of_lt (rd_lt s _ _)⟩
  cases busy <;> rfl

end XfShown

/-! ### Selections (R110) -/

/-- A store chosen by WIN_STAGE is being loaded. -/
def stagedLoading (i : Fin 17) (s : State) : Bool :=
  ((s.chains[i]).winLoad[Fin.ofNat 2 (s.rd (.filt i) R.WIN_STAGE.store)]).isSome

/-- XF_COMMIT takes a commit of the staged selection, with status `st`. -/
def winNoted (i : Fin 17) (st : Nat) (s : State) : State :=
  ((s.wr (.filt i) R.XF_COMMIT.window 1).wr (.filt i) R.XF_COMMIT.last_cmd 1).wr (.filt i) R.XF_COMMIT.last_status st

section WinCommit
variable (i : Fin 17) (s : State)

theorem writesOnly_winNoted (st : Nat) : WritesOnly (InSlot (.filt i)) s (winNoted i st s) :=
  ((writesOnly_wr s _ (inSlot_base _ (by decide))).wr _ (inSlot_base _ (by decide))).wr _ (inSlot_base _ (by decide))

theorem rd_winNoted (st : Nat) {f : Fld} (h : f.off ≠ 0x428) : (winNoted i st s).rd (.filt i) f = s.rd (.filt i) f :=
  (rd_wr_keep _ _ _ _ _ (.inl h)).trans ((rd_wr_keep _ _ _ _ _ (.inl h)).trans (rd_wr_keep _ _ _ _ _ (.inl h)))

theorem winNoted_shown (st : Nat) : (winNoted i st s).rd (.filt i) R.XF_COMMIT.window = 1 ∧
    (winNoted i st s).rd (.filt i) R.XF_COMMIT.last_cmd = 1 ∧ (winNoted i st s).rd (.filt i) R.XF_COMMIT.last_status = st % 4 := by
  unfold winNoted
  simp (disch := decide) only [rd_wr_keep, rd_wr_val]
  exact ⟨rfl, rfl, rfl⟩

/-- The chain notes that the slice's own core committed a selection. -/
def coreNoted : State := s.setChain i { s.chains[i] with byCore := Nat.lor (s.chains[i]).byCore 4 }

/-- A commit whose store is being loaded is deferred, which the core that made it is told at once. -/
theorem winCommit_eq (byCore : Bool) : winCommit i byCore s =
    let u := (winNoted i (if stagedLoading i s then 2 else 1) s).when byCore (coreNoted i)
    showXf i (if stagedLoading i s then commitDone i 2 false u else u) := by
  have hload : stagedLoading i ((s.wr (.filt i) R.XF_COMMIT.window 1).wr (.filt i) R.XF_COMMIT.last_cmd 1) = stagedLoading i s :=
    congrArg (fun b => ((s.chains[i]).winLoad[Fin.ofNat 2 b]).isSome)
      ((rd_wr_keep _ _ _ _ _ (by decide)).trans (rd_wr_keep _ _ _ _ _ (by decide)))
  rw [← hload]
  rfl

variable {i s}

theorem commitWindow_pending (hoff : s.dev ≠ .off) (hboot : s.dev ≠ .boot)
    (hidle : (s.chains[i]).winLoad[Fin.ofNat 2 (s.rd (.filt i) R.WIN_STAGE.store)] = none) : Completes (.commitWindow i) s (fun t =>
      t.rd (.filt i) R.XF_COMMIT.window = 1 ∧ t.rd (.filt i) R.XF_COMMIT.last_cmd = 1 ∧ t.rd (.filt i) R.XF_COMMIT.last_status = 1 ∧
      t.rd (.filt i) R.XF_STATUS.window_pending = 1 ∧ t.chains = s.chains ∧ SameOutside (.filt i) s t) := by
  have hload : stagedLoading i s = false := congrArg Option.isSome hidle
  have hop : onWrite (opCommitWindow i) s = xfShown i (winBusy (winNoted i 1 s).chains[i]) (winNoted i 1 s) := by
    refine (onWrite_of_on _ hoff hboot).trans ((winCommit_eq i s false).trans ?_)
    rw [hload]
    rfl
  have hkeep := (writesOnly_winNoted i s 1).trans (writesOnly_xfShown i (winBusy (winNoted i 1 s).chains[i]) _)
  obtain ⟨hwindow, hcmd, hstatus⟩ := winNoted_shown i s 1
  refine ⟨_, congrArg Host.Outcome.next hop, ?_, ?_, ?_, ?_, hkeep.chains, hkeep.sameOutside fun _ h => h⟩
  · exact (rd_xfShown _ _ _ (by decide)).trans hwindow
  · exact (rd_xfShown _ _ _ (by decide)).trans hcmd
  · exact (rd_xfShown _ _ _ (by decide)).trans hstatus
  · exact (xfShown_shown _ _ _).2.trans hwindow

end WinCommit

end Sys2Proof.Proofs

namespace Sys2Proof.Proofs
open Sys2Proof Sys2Proof.Machine Sys2Proof.Laws

/-! ### Unit syllables of a quiet core (R229, R242) -/

/-- The word of INT_PEND of core `c`. -/
def pendWord (c : Fin 17) : Nat := (Blk.core c).base + R.INT_PEND.pending.off

/-- A unit syllable writes its filter slot, and may raise UNIT_DONE. -/
def UnitWord (c : Fin 17) (a : Nat) : Prop := InSlot (.filt c) a ∨ a = pendWord c

section UnitEnd
variable {c : Fin 17} {s u : State}

theorem rd_core_unitWord (h : WritesOnly (UnitWord c) s u) {f : Fld} (hf : f.off < 0x10000) (hp : f.off ≠ 0xc0) :
    u.rd (.core c) f = s.rd (.core c) f := by
  refine h.rd fun hw => ?_
  obtain hslot | hpend := hw
  · exact slot_filt_ne_core c c (hslot.symm.trans (inSlot_base (.core c) hf))
  · exact hp (Nat.add_left_cancel hpend)

/-- A bundle of a core with nothing in flight and no loop is followed by the next one. `bundleEnd_idle` asks that every register of the core
stands as it was; here a deferred commit may have raised UNIT_DONE in INT_PEND. -/
theorem bundleEnd_clear (hpipe : (u.cores[c]).pipe = []) (hctl : (u.cores[c]).ctl = none) (hwait : (u.cores[c]).newWait = none)
    (hexc : (u.cores[c]).exc = none) (hloops : ∀ k : Fin 3, u.loopOn c.val k.val = false) (hpc : u.pc c.val < 16383) :
    bundleEnd c u = u.bundleDone c (u.cores[c]) false := by
  have hcore : { u.cores[c] with pipe := [], ctl := none, newWait := none, exc := none } = u.cores[c] := by
    rw [← hpipe, ← hctl, ← hwait, ← hexc]
  have hcnt : ∀ f : Fld, f.off ≠ 0xf0 → ((u.setCore c u.cores[c]).cnt (.core c) R.CORE_BUNDLES.count 1).rd (.core c) f = u.rd (.core c) f :=
    fun f ho => rd_cnt_keep _ _ _ _ _ (.inl ho)
  have hidle : ∀ k ∈ [0, 1, 2], ((u.setCore c u.cores[c]).cnt (.core c) R.CORE_BUNDLES.count 1).loopOn c.val k = false := by
    intro k hk
    have hk3 : k < 3 := by simpa using List.mem_range.1 (show k ∈ List.range 3 from hk)
    have hoff : (R.LOOP_BOUNDS.active k).off = 0x90 + 0x8 * k := rfl
    unfold State.loopOn State.flag
    rw [hcnt _ (by omega)]
    exact hloops ⟨k, hk3⟩
  have hnext : ((u.setCore c u.cores[c]).cnt (.core c) R.CORE_BUNDLES.count 1).pc c.val = u.pc c.val := hcnt _ (by decide)
  unfold bundleEnd
  simp only [hpipe, hctl, hwait, hexc, List.map_nil, List.filter_nil, hcore]
  change goTo c (loopEnds c _ [0, 1, 2] _).2 (loopEnds c _ [0, 1, 2] _).1 = _
  rw [landAll, landGo, loopEnds_idle _ _ hidle, hnext]
  unfold goTo
  rw [if_neg (by omega)]
  rfl

theorem bundleDone_chains (k : CoreSt) : (u.bundleDone c k false).chains = u.chains := by
  have h : OnlyRegs (u.setCore c k) (u.bundleDone c k false) :=
    (onlyRegs_cnt (u.setCore c k) (.core c) R.CORE_BUNDLES.count 1).wr (.core c) R.CORE_STATUS.pc (u.pc c + 1)
  unfold OnlyRegs at h
  rw [h]
  rfl

/-- A quiet core's unit syllable acts and ends its bundle. -/
theorem unitWrite_issues {y : Syl} {rds : List Dst} {bad : Bool} {f : Op} (hq : s.Quiet c) (hlast : y.last = true) (hbad : bad = false)
    (hg : s.guard0 c y = true) : unitWrite c y rds bad f s = bundleEnd c (f (setLatch (.alnen c) none s)) := by
  obtain ⟨hissues, hpipe, hsquash, -⟩ := hq
  have htouch : touch c rds s = s := by
    unfold touch
    dsimp only
    rw [hpipe]
    rfl
  unfold unitWrite unitOp issue
  rw [hissues, hsquash]
  simp only [htouch, hbad, illegal, hlast, hg, if_true, Bool.not_true, Bool.false_eq_true, if_false]

/-- A unit syllable that writes its filter slot, and may raise UNIT_DONE, ends its bundle: nothing else of the core changes, and the
chain stands as `k`. -/
theorem unitWrite_completes {k : ChainSt} {y : Syl} {rds : List Dst} {bad : Bool} {f : Op} {i : Instr} {q : State → Prop}
    (hexec : exec i s = .next (unitWrite c y rds bad f s)) (hq : s.Quiet c) (hlast : y.last = true) (hbad : bad = false)
    (hg : s.guard0 c y = true) (hf : f (setLatch (.alnen c) none s) = u.setChain c k)
    (hu : WritesOnly (UnitWord c) (setLatch (.alnen c) none s) u)
    (hshown : ∀ t : State, (∀ f : Fld, f.off < 0x10000 → t.rd (.filt c) f = u.rd (.filt c) f) → t.chains = s.chains.set c k →
      t.pc c = s.pc c + 1 → t.mem = s.mem → q t) : Completes i s q := by
  have hcores : u.cores = s.cores := onlyRegs_cores (s := setLatch (.alnen c) none s) hu.only
  have hmem : u.mem = s.mem := onlyRegs_mem (s := setLatch (.alnen c) none s) hu.only
  have hchains : u.chains = s.chains := WritesOnly.chains (s := setLatch (.alnen c) none s) hu
  have hrd : ∀ f : Fld, f.off < 0x10000 → f.off ≠ 0xc0 → (u.setChain c k).rd (.core c) f = s.rd (.core c) f := fun f =>
    rd_core_unitWord hu
  have hpc : (u.setChain c k).pc c.val = s.pc c.val := hrd _ (by decide) (by decide)
  obtain ⟨-, hpipe, -, hctl, hwait, hexc, hloops, hlt⟩ := id hq
  rw [← hcores] at hpipe hctl hwait hexc
  have hidle : ∀ j : Fin 3, (u.setChain c k).loopOn c.val j.val = false := fun j => by
    have hoff : (R.LOOP_BOUNDS.active j.val).off = 0x90 + 0x8 * j.val := rfl
    unfold State.loopOn State.flag
    rw [hrd _ (by omega) (by omega)]
    exact hloops j
  have hend := bundleEnd_clear (u := u.setChain c k) hpipe hctl hwait hexc hidle (by omega)
  refine ⟨_, hexec.trans (congrArg Host.Outcome.next ((unitWrite_issues hq hlast hbad hg).trans ((congrArg (bundleEnd c) hf).trans hend))),
    hshown _ (fun f hf => bundleDone_rd _ (slot_filt_ne_core c c) hf) ?_ ?_ ?_⟩
  · rw [← hchains]
    exact bundleDone_chains _
  · rw [bundleDone_pc _ (by omega), hpc]
  · exact (bundleDone_mem _).trans hmem

end UnitEnd

/-! ### U.FFT SELECT and U.FFT OFFSET (R110, R114) -/

section CoreCommit
variable (i : Fin 17) (s : State)

theorem coreNoted_bit : nbit ((coreNoted i s).chains[i]).byCore 2 = true := by
  have h : ((coreNoted i s).chains[i]).byCore = (s.chains[i]).byCore ||| 4 := congrArg ChainSt.byCore (setChain_self s i _)
  rw [h, nbit_eq_testBit, Nat.testBit_or, Bool.or_eq_true]
  exact .inr rfl

/-- A core whose commit is deferred is told, and its commit stays noted. -/
theorem commitDone_told {b : Nat} (h : nbit (s.chains[i]).byCore b = true) :
    commitDone i b false s = (s.coreInt i.val 2).setChain i s.chains[i] := if_pos h

theorem writesOnly_coreInt (n : Nat) : WritesOnly (· = pendWord i) s (s.coreInt i.val n) := writesOnly_wr s _ rfl

/-- The selection noted in the chain, with UNIT_DONE raised if it is deferred. -/
theorem coreNoted_told (loading : Bool) : ∃ w, (if loading then commitDone i 2 false (coreNoted i s) else coreNoted i s) =
    w.setChain i (coreNoted i s).chains[i] ∧ WritesOnly (· = pendWord i) s w := by
  cases loading with
  | false => exact ⟨s, by rw [coreNoted, setChain_self]; rfl, .refl _ s⟩
  | true =>
    refine ⟨s.coreInt i.val 2, ?_, writesOnly_coreInt i s 2⟩
    rw [if_pos rfl, commitDone_told i _ (coreNoted_bit i s)]
    exact setChain_setChain (s.coreInt i.val 2) i _ _

/-- What a commit of the slice's own core leaves: the selection pending, noted in the chain. -/
theorem winCommit_core : ∃ u k, winCommit i true s = u.setChain i k ∧ WritesOnly (UnitWord i) s u ∧ nbit k.byCore 2 = true ∧
    (∀ f : Fld, f.off < 0x428 → u.rd (.filt i) f = s.rd (.filt i) f) ∧ u.rd (.filt i) R.XF_COMMIT.window = 1 ∧
    u.rd (.filt i) R.XF_STATUS.window_pending = 1 := by
  have hnoted := writesOnly_winNoted i s (if stagedLoading i s then 2 else 1)
  have hkeep := fun f => rd_winNoted i s (if stagedLoading i s then 2 else 1) (f := f)
  obtain ⟨hwindow, -⟩ := winNoted_shown i s (if stagedLoading i s then 2 else 1)
  have hcommit := winCommit_eq i s true
  rw [when_true] at hcommit
  generalize winNoted i (if stagedLoading i s then 2 else 1) s = v at hnoted hkeep hwindow hcommit
  obtain ⟨w, hw, htold⟩ := coreNoted_told i v (stagedLoading i s)
  have hfilt : ∀ f : Fld, f.off < 0x10000 → w.rd (.filt i) f = v.rd (.filt i) f := fun f hf => htold.rd fun h =>
    slot_filt_ne_core i i ((inSlot_base (.filt i) hf).symm.trans (h ▸ inSlot_base (.core i) (by decide)))
  have hbit := coreNoted_bit i v
  generalize (coreNoted i v).chains[i] = k at hw hbit
  have hshown := writesOnly_xfShown i (winBusy k) w
  have hwindow' : w.rd (.filt i) R.XF_COMMIT.window = 1 := (hfilt _ (by decide)).trans hwindow
  refine ⟨xfShown i (winBusy k) w, k, ?_, ?_, hbit, fun f hf => ?_, ?_, ?_⟩
  · rw [hcommit]
    dsimp only
    rw [hw, showXf_setChain]
  · exact ((hnoted.mono fun _ => .inl).trans (htold.mono fun _ => .inr)).trans (hshown.mono fun _ => .inl)
  · exact (rd_xfShown i _ w (by omega)).trans ((hfilt f (by omega)).trans (hkeep f (by omega)))
  · exact (rd_xfShown i _ w (by decide)).trans hwindow'
  · exact (xfShown_shown i _ w).2.trans hwindow'

end CoreCommit

/-- The register U.FFT SELECT writes before its commit. -/
def selectStaged (c : Fin 17) (y : Syl) (s : State) : State := s.wr (.filt c) R.WIN_STAGE.store ((s.cores[c]).rs y.an % 2)

theorem selectStaged_flag (c : Fin 17) (y : Syl) (s : State) :
    (selectStaged c y s).flag (.filt c) R.WIN_STAGE.store = ((s.cores[c]).sreg y.an).getLsbD 0 := by
  unfold selectStaged State.flag
  rw [rd_wr_val _ _ _ _ (by decide)]
  have hbit := bit_ne_zero (s.cores[c]) y.an 0
  rw [Nat.pow_zero, Nat.div_one] at hbit
  exact (congrArg (fun n => decide (n ≠ 0)) (Nat.mod_mod _ 2)).trans hbit

theorem exec_fftSelect (c : Fin 17) (y : Syl) (s : State) : exec (.fftSelect c y) s =
    .next (unitWrite c y [.s y.an] false (fun s => winCommit c true (selectStaged c y s)) s) := rfl

theorem unitSelect_pending (s : State) (c : Fin 17) (y : Syl) (hq : s.Quiet c) (hlast : y.last = true) (hg : s.guard0 c y = true) :
    Completes (.fftSelect c y) s (fun t =>
      t.flag (.filt c) R.WIN_STAGE.store = ((s.cores[c]).sreg y.an).getLsbD 0 ∧ t.rd (.filt c) R.XF_COMMIT.window = 1 ∧
      t.rd (.filt c) R.XF_STATUS.window_pending = 1 ∧ nbit ((t.chains[c]).byCore) 2 = true ∧ t.pc c = s.pc c + 1 ∧ t.mem = s.mem) := by
  have hstore := selectStaged_flag c y (setLatch (.alnen c) none s)
  have hstaged : WritesOnly (UnitWord c) (setLatch (.alnen c) none s) (selectStaged c y (setLatch (.alnen c) none s)) :=
    writesOnly_wr _ _ (.inl (inSlot_base _ (by decide)))
  obtain ⟨u, k, hcommit, hu, hbit, hkeep, hwindow, hpending⟩ := winCommit_core c (selectStaged c y (setLatch (.alnen c) none s))
  refine unitWrite_completes (exec_fftSelect c y s) hq hlast rfl hg hcommit (hstaged.trans hu) fun t hrd hchains hpc hmem =>
    ⟨?_, (hrd _ (by decide)).trans hwindow, (hrd _ (by decide)).trans hpending, ?_, hpc, hmem⟩
  · exact (congrArg (fun n => decide (n ≠ 0)) ((hrd R.WIN_STAGE.store (by decide)).trans (hkeep _ (by decide)))).trans hstore
  · have hk : t.chains[c] = k := by
      rw [hchains]
      exact Vector.getElem_set_self _
    rwa [hk]

/-- The offset goes to every member of the gang. -/
def offsetWritten (c : Fin 17) (y : Syl) (s : State) : State :=
  s.each (s.gang c) (fun m st => st.wr (.filt m) R.PWR_REF.pwr_offset ((s.cores[c]).rs y.an))

theorem exec_fftOffset (c : Fin 17) (y : Syl) (s : State) : exec (.fftOffset c y) s =
    .next (unitWrite c y [.s y.an] false (offsetWritten c y) s) := rfl

/-- A slice that is not ganged takes the offset alone. -/
theorem offsetWritten_alone {c : Fin 17} {s : State} (y : Syl) (hgang : s.gangG c = 1) :
    offsetWritten c y s = (s.wr (.filt c) R.PWR_REF.pwr_offset ((s.cores[c]).rs y.an)).setChain c s.chains[c] := by
  have halone : s.gang c = [c] := if_pos hgang
  unfold offsetWritten
  rw [halone]
  exact (setChain_same _ c).symm

theorem unitOffset_written (s : State) (c : Fin 17) (y : Syl) (hq : s.Quiet c) (hlast : y.last = true) (hg : s.guard0 c y = true)
    (hgang : s.gangG c = 1) : Completes (.fftOffset c y) s (fun t =>
      t.rd (.filt c) R.PWR_REF.pwr_offset = ((s.cores[c]).sreg y.an).toNat % 65536 ∧
      t.rd (.filt c) R.PWR_REF.ref128 = s.rd (.filt c) R.PWR_REF.ref128 ∧ t.chains = s.chains ∧ t.pc c = s.pc c + 1 ∧ t.mem = s.mem) := by
  refine unitWrite_completes (exec_fftOffset c y s) hq hlast rfl hg (offsetWritten_alone (s := setLatch (.alnen c) none s) y hgang)
    (writesOnly_wr _ _ (.inl (inSlot_base _ (by decide)))) fun t hrd hchains hpc hmem => ⟨?_, ?_, ?_, hpc, hmem⟩
  · exact (hrd _ (by decide)).trans (rd_wr_val _ _ _ _ (by decide))
  · exact (hrd _ (by decide)).trans (rd_wr_keep _ _ _ _ _ (by decide))
  · exact hchains.trans (Vector.set_getElem_self c.isLt)

end Sys2Proof.Proofs

namespace Sys2Proof.Proofs
open Sys2Proof Sys2Proof.Machine Sys2Proof.Laws

/-! ### Window loads (R108, R109) -/

section WinLoad
variable {i : Fin 17} {b : Fin 2} {s : State}

/-- A window load writes its slice's filter slot, and the mark of a management ferry. -/
def LoadWord (i : Fin 17) (a : Nat) : Prop := InSlot (.filt i) a ∨ InSlot .global a

theorem WritesOnly.sameExcept {t : State} (h : WritesOnly (LoadWord i) s t) : SameExcept [.filt i, .global] s t := fun a ha =>
  h.word a (by
    rintro (hf | hg)
    · exact ha (.filt i) (by simp) hf
    · exact ha .global (by simp) hg)

/-- A command that writes the words of a window load and leaves the chain as `k`. -/
theorem load_completes {u : State} {k : ChainSt} {c : Instr} {q : State → Prop} (hexec : exec c s = .next (u.setChain i k))
    (hu : WritesOnly (LoadWord i) s u) (hshown : ∀ t : State, t.chains[i] = k → (∀ f, t.rd (.filt i) f = u.rd (.filt i) f) →
      t.mem = s.mem → SameExcept [.filt i, .global] s t → q t) : Completes c s q := by
  have hmem := onlyRegs_mem hu.only
  exact ⟨_, hexec, hshown _ (setChain_self u i k) (fun _ => rfl) hmem hu.sameExcept⟩

theorem writesOnly_when {W : Nat → Prop} {c : Bool} {g : Op} (h : WritesOnly W s (g s)) : WritesOnly W s (s.when c g) := by
  cases c with
  | false => exact .refl W s
  | true => exact h

theorem writesOnly_mgmtUp (s : State) : WritesOnly (InSlot .global) s (mgmtUp s) :=
  writesOnly_ferryPass 32 1 s (inSlot_base .global (by decide))

theorem writesOnly_mgmtDown (s : State) : WritesOnly (InSlot .global) s (mgmtDown s) :=
  writesOnly_ferryPass 32 1 s (inSlot_base .global (by decide))

theorem rd_filt_global {t : State} (h : WritesOnly (InSlot .global) s t) {f : Fld} (hf : f.off < 0x10000) :
    t.rd (.filt i) f = s.rd (.filt i) f := h.rd fun hg => by
  have hslot : (Blk.filt i).slot = Blk.global.slot := (inSlot_base (.filt i) hf).symm.trans hg
  simp [Blk.slot] at hslot

/-- The registers WIN_STORE end before XF_COMMIT. -/
theorem inSlot_winStore {f : Fld} (hf : f.off = 0x418 + 0x8 * b.val) : InSlot (.filt i) ((Blk.filt i).base + f.off) :=
  inSlot_base _ (by omega)

/-- WIN_STORE[b] shows a load under way and no window. -/
def winLoadShown (i : Fin 17) (b : Fin 2) (s : State) : State := (s.wr (.filt i) (R.WIN_STORE.load b) 1).wr (.filt i) (R.WIN_STORE.loaded b) 0

/-- The load of store `b` is under way with the word `w` of WIN_STORE[b], or none is. -/
def winLoadNoted (b : Fin 2) (w : Option Word) (k : ChainSt) : ChainSt := { k with winLoad := k.winLoad.set b w }

theorem winLoadNoted_self (w : Option Word) (k : ChainSt) : (winLoadNoted b w k).winLoad[b] = w := Vector.getElem_set_self _

theorem winBusy_of_load {k : ChainSt} (h : (k.winLoad[b]).isSome = true) : winBusy k = true := by
  unfold winBusy
  rw [Bool.or_eq_true]
  match b with
  | 0 => exact .inl h
  | 1 => exact .inr h

/-- The management controller is asked for the window, unless it is a user table. -/
def winAsked (i : Fin 17) (b : Fin 2) (s : State) : State :=
  (winLoadShown i b s).when (decide ((winLoadShown i b s).rd (.filt i) (R.WIN_STORE.type b) ≠ 6)) mgmtUp

theorem winLoadStart_free (hidle : (s.chains[i]).winLoad[b] = none) (hactive : s.storeActive i b = false)
    (hpending : s.storePending i b = false) (hvalid : s.winInvalid i b = false) : ∃ w, winLoadStart i b s =
      (xfShown i true (winAsked i b s)).setChain i (winLoadNoted b (some w) s.chains[i]) := by
  have hstart : winLoadStart i b s = showXf i ((winAsked i b s).setChain i (winLoadNoted b
      (some (BitVec.ofNat 64 ((winAsked i b s).rdw (.filt i) (0x418 + 8 * b.val)))) s.chains[i])) := by
    unfold winLoadStart
    dsimp only
    rw [hidle, hactive, hpending, hvalid]
    rfl
  generalize BitVec.ofNat 64 ((winAsked i b s).rdw (.filt i) (0x418 + 8 * b.val)) = w at hstart
  refine ⟨w, hstart.trans ?_⟩
  rw [showXf_setChain, winBusy_of_load (congrArg Option.isSome (winLoadNoted_self (some w) _))]

theorem writesOnly_winLoadShown : WritesOnly (InSlot (.filt i)) s (winLoadShown i b s) :=
  (writesOnly_wr s _ (inSlot_winStore rfl)).wr _ (inSlot_winStore rfl)

theorem winLoadShown_rd : (winLoadShown i b s).rd (.filt i) (R.WIN_STORE.load b) = 1 ∧
    (winLoadShown i b s).rd (.filt i) (R.WIN_STORE.loaded b) = 0 :=
  ⟨(rd_wr_keep _ _ _ _ _ (.inr (.inl (by decide : 32 + 1 ≤ 33)))).trans (rd_wr_val _ _ _ _ (by decide : 32 + 1 ≤ 64)),
    rd_wr_val _ _ _ _ (by decide : 33 + 1 ≤ 64)⟩

theorem windowLoad_starts (hoff : s.dev ≠ .off) (hboot : s.dev ≠ .boot) (hidle : (s.chains[i]).winLoad[b] = none)
    (hactive : s.storeActive i b = false) (hpending : s.storePending i b = false) (hvalid : s.winInvalid i b = false) :
    Completes (.windowLoad i b .write) s (fun t =>
      ((t.chains[i]).winLoad[b]).isSome = true ∧ t.rd (.filt i) (R.WIN_STORE.load b) = 1 ∧ t.rd (.filt i) (R.WIN_STORE.loaded b) = 0 ∧
      t.rd (.filt i) R.XF_STATUS.load_busy = 1 ∧ t.mem = s.mem ∧ SameExcept [.filt i, .global] s t) := by
  obtain ⟨w, hstart⟩ := winLoadStart_free hidle hactive hpending hvalid
  have hasked : WritesOnly (InSlot .global) (winLoadShown i b s) (winAsked i b s) := writesOnly_when (writesOnly_mgmtUp _)
  have hbusy := writesOnly_xfShown i true (winAsked i b s)
  have hkeep : WritesOnly (LoadWord i) s (xfShown i true (winAsked i b s)) :=
    ((writesOnly_winLoadShown.mono fun _ => .inl).trans (hasked.mono fun _ => .inr)).trans (hbusy.mono fun _ => .inl)
  obtain ⟨hload, hloaded⟩ := winLoadShown_rd (i := i) (b := b) (s := s)
  have hstore : ∀ f : Fld, f.off = 0x418 + 0x8 * b.val →
      (xfShown i true (winAsked i b s)).rd (.filt i) f = (winLoadShown i b s).rd (.filt i) f := fun f hf =>
    (rd_xfShown i _ _ (by omega)).trans (rd_filt_global hasked (by omega))
  have hchain : ((winLoadNoted b (some w) s.chains[i]).winLoad[b]).isSome = true := congrArg Option.isSome (winLoadNoted_self _ _)
  exact load_completes (congrArg Host.Outcome.next ((onWrite_of_on _ hoff hboot).trans hstart)) hkeep fun t ht hrd hmem hout =>
    ⟨by rwa [ht], (hrd _).trans ((hstore _ rfl).trans hload), (hrd _).trans ((hstore _ rfl).trans hloaded),
      (hrd _).trans (xfShown_shown i true _).1, hmem, hout⟩

/-- A load into a store in use, chosen next, or of a window that cannot be made, is refused. -/
theorem winLoadStart_refuses (hidle : (s.chains[i]).winLoad[b] = none)
    (hbad : s.storeActive i b = true ∨ s.storePending i b = true ∨ s.winInvalid i b = true) : winLoadStart i b s =
      (s.wr (.filt i) R.XF_FAULT.load_refused 1).wr (.filt i) (R.WIN_STORE.load b) 0 := by
  unfold winLoadStart
  dsimp only
  rw [hidle, if_neg (by decide), if_pos]
  simp only [Bool.or_eq_true, or_assoc]
  exact hbad

theorem windowLoad_refused (hoff : s.dev ≠ .off) (hboot : s.dev ≠ .boot) (hidle : (s.chains[i]).winLoad[b] = none)
    (hbad : s.storeActive i b = true ∨ s.storePending i b = true ∨ s.winInvalid i b = true) :
    Completes (.windowLoad i b .write) s (fun t =>
      t.rd (.filt i) R.XF_FAULT.load_refused = 1 ∧ t.rd (.filt i) (R.WIN_STORE.load b) = 0 ∧ t.chains = s.chains ∧
      SameOutside (.filt i) s t) := by
  have hkeep : WritesOnly (InSlot (.filt i)) s ((s.wr (.filt i) R.XF_FAULT.load_refused 1).wr (.filt i) (R.WIN_STORE.load b) 0) :=
    (writesOnly_wr s _ (inSlot_base _ (by decide))).wr _ (inSlot_winStore rfl)
  have hapart : R.XF_FAULT.load_refused.off ≠ (R.WIN_STORE.load b).off := by
    change 0x490 ≠ 0x418 + 0x8 * b.val
    omega
  refine ⟨_, congrArg Host.Outcome.next ((onWrite_of_on _ hoff hboot).trans (winLoadStart_refuses hidle hbad)), ?_,
    rd_wr_val _ _ _ _ (by decide : 32 + 1 ≤ 64), hkeep.chains, hkeep.sameOutside fun _ h => h⟩
  exact (rd_wr_keep _ _ _ _ _ (.inl hapart)).trans (rd_wr_val _ _ _ _ (by decide))

/-! ### The end of a window load (R108, R109) -/

theorem firstBad_congr {t : State} (h : t.mem = s.mem) (m : SramId) (a n : Nat) : t.firstBad m a n = s.firstBad m a n := by
  have hbad : t.sramBad m = s.sramBad m := by
    unfold State.sramBad
    rw [h]
  unfold State.firstBad State.badWord
  rw [hbad]

/-- The words of a user table without an error are copied with nothing to log. -/
theorem winCheck_sound {w : Nat} (h : s.firstBad (.lmem i) (8 * (w / 2 ^ 7 % 2 ^ 20) % 2 ^ 23) (4 * 2 ^ (w / 2 ^ 27 % 32)) = none) :
    winCheck i w s = s := by
  unfold winCheck
  exact if_pos (by rw [h]; rfl)

/-- The load of WIN_STORE[b] with word `w` is over: the management controller has given the window, unless it is a user table. -/
def winGiven (i : Fin 17) (b : Fin 2) (w : Word) (s : State) : State :=
  (s.when (decide (w.toNat % 8 ≠ 6)) mgmtDown).wr (.filt i) (R.WIN_STORE.load b) 0

/-- WIN_STORE[b] shows a window of 2^`l` points. -/
def winLoaded (i : Fin 17) (b : Fin 2) (l : Nat) (s : State) : State :=
  (s.wr (.filt i) (R.WIN_STORE.loaded b) 1).wr (.filt i) (R.WIN_STORE.n_loaded b) l

/-- WIN_INFO and PWR_REF show the window `u` of store `b`. -/
def winInfoShown (i : Fin 17) (b : Fin 2) (u : List Int) (s : State) : State :=
  showRef i (((s.wri (.filt i) (R.WIN_INFO.sum b) u.sum).wr (.filt i) (R.WIN_INFO.enbw b) (winEnbw u)).wri (.filt i)
    (R.WIN_INFO.ref_c b) (sat 16 (winRef u)))

/-- Store `b` holds the window `u`. -/
def winFilled (b : Fin 2) (u : List Int) (k : ChainSt) : ChainSt := { k with wins := k.wins.set b u }

theorem winFilled_self (u : List Int) (k : ChainSt) : (winFilled b u k).wins[b] = u := Vector.getElem_set_self _

/-- A load whose values do not sum to 0 fills its store. -/
theorem winLoadEnd_eq {w : Word} (hload : (s.chains[i]).winLoad[b] = some w) (hsum : (s.winValues i w.toNat (s.log2n i)).sum ≠ 0) :
    winLoadEnd i b s =
      let given := (winGiven i b w s).when (decide (w.toNat % 8 = 6)) (winCheck i w.toNat)
      let ended := given.setChain i (winLoadNoted b none given.chains[i])
      let filled := ended.setChain i (winFilled b (s.winValues i w.toNat (s.log2n i)) ended.chains[i])
      showXf i (winInfoShown i b (s.winValues i w.toNat (s.log2n i)) (winLoaded i b (filled.log2n i) filled)) := by
  unfold winLoadEnd
  extract_lets c
  split
  · rename_i hnone
    exact absurd (hnone.symm.trans hload) (by simp)
  · rename_i v hv
    obtain rfl : v = w := Option.some.inj (hv.symm.trans hload)
    exact if_neg hsum

theorem winFilled_load (u : List Int) (k : ChainSt) : (winFilled b u (winLoadNoted b none k)).winLoad[b] = none :=
  winLoadNoted_self none k

/-- The registers after a load, ahead of XF_STATUS. -/
def winEnded (i : Fin 17) (b : Fin 2) (u : List Int) (s : State) : State := winInfoShown i b u (winLoaded i b (s.log2n i) s)

theorem showRef_setChain (k : ChainSt) : showRef i (s.setChain i k) = (showRef i s).setChain i k := wr_setChain _ _ _ _ _ _

theorem winLoaded_setChain (l : Nat) (k : ChainSt) : winLoaded i b l (s.setChain i k) = (winLoaded i b l s).setChain i k := by
  unfold winLoaded
  rw [wr_setChain, wr_setChain]

theorem winEnded_setChain (u : List Int) (k : ChainSt) : winEnded i b u (s.setChain i k) = (winEnded i b u s).setChain i k := by
  have hlog2n : (s.setChain i k).log2n i = s.log2n i := rfl
  unfold winEnded winInfoShown State.wri
  rw [hlog2n, winLoaded_setChain, wr_setChain, wr_setChain, wr_setChain, showRef_setChain]

theorem winGiven_writes (w : Word) : WritesOnly (LoadWord i) s (winGiven i b w s) :=
  ((writesOnly_when (writesOnly_mgmtDown s)).mono fun _ => .inr).wr _ (.inl (inSlot_winStore rfl))

theorem winLoadEnd_loads {w : Word} (hload : (s.chains[i]).winLoad[b] = some w) (hsum : (s.winValues i w.toNat (s.log2n i)).sum ≠ 0)
    (hsound : w.toNat % 8 = 6 →
      s.firstBad (.lmem i) (8 * (w.toNat / 2 ^ 7 % 2 ^ 20) % 2 ^ 23) (4 * 2 ^ (w.toNat / 2 ^ 27 % 32)) = none) :
    let u := s.winValues i w.toNat (s.log2n i)
    let k := winFilled b u (winLoadNoted b none s.chains[i])
    winLoadEnd i b s = (xfShown i (winBusy k) (winEnded i b u (winGiven i b w s))).setChain i k := by
  have hgiven := winGiven_writes (i := i) (b := b) (s := s) w
  have hcheck : (winGiven i b w s).when (decide (w.toNat % 8 = 6)) (winCheck i w.toNat) = winGiven i b w s := by
    by_cases huser : w.toNat % 8 = 6
    · rw [decide_eq_true huser, when_true]
      exact winCheck_sound ((firstBad_congr (onlyRegs_mem hgiven.only) _ _ _).trans (hsound huser))
    · rw [decide_eq_false huser]
      rfl
  have hend := winLoadEnd_eq hload hsum
  rw [hcheck] at hend
  dsimp only at hend ⊢
  rw [setChain_self, setChain_setChain, hgiven.chains] at hend
  rw [hend, ← showXf_setChain, ← winEnded_setChain]
  rfl

theorem inSlot_winInfo {f : Fld} (hf : f.off ≤ 0x458 + 0x10 * b.val) : InSlot (.filt i) ((Blk.filt i).base + f.off) :=
  inSlot_base _ (by omega)

theorem writesOnly_winInfoShown (u : List Int) : WritesOnly (InSlot (.filt i)) s (winInfoShown i b u s) :=
  (((writesOnly_wr s _ (inSlot_winInfo (b := b) (Nat.add_le_add_right (by decide) _))).wr _
    (inSlot_winInfo (b := b) (Nat.add_le_add_right (by decide) _))).wr _ (inSlot_winInfo (b := b) le_rfl)).wr _ (inSlot_base _ (by decide))

/-- WIN_INFO and PWR_REF lie above WIN_STORE. -/
theorem rd_winInfoShown (u : List Int) {f : Fld} (hf : f.off < 0x430) : (winInfoShown i b u s).rd (.filt i) f = s.rd (.filt i) f := by
  have hsum : (R.WIN_INFO.sum b.val).off = 0x450 + 0x10 * b.val := rfl
  have henbw : (R.WIN_INFO.enbw b.val).off = 0x450 + 0x10 * b.val := rfl
  have href : (R.WIN_INFO.ref_c b.val).off = 0x458 + 0x10 * b.val := rfl
  have hpwr : R.PWR_REF.ref128.off = 0x440 := rfl
  unfold winInfoShown showRef State.wri
  dsimp only
  rw [rd_wr_keep _ _ _ _ _ (.inl (by omega)), rd_wr_keep _ _ _ _ _ (.inl (by omega)), rd_wr_keep _ _ _ _ _ (.inl (by omega)),
    rd_wr_keep _ _ _ _ _ (.inl (by omega))]

theorem writesOnly_winLoaded (l : Nat) : WritesOnly (InSlot (.filt i)) s (winLoaded i b l s) :=
  (writesOnly_wr s _ (inSlot_winStore rfl)).wr _ (inSlot_winStore rfl)

theorem winLoaded_rd (l : Nat) : (winLoaded i b l s).rd (.filt i) (R.WIN_STORE.loaded b) = 1 ∧
    (winLoaded i b l s).rd (.filt i) (R.WIN_STORE.n_loaded b) = l % 32 ∧
    (winLoaded i b l s).rd (.filt i) (R.WIN_STORE.load b) = s.rd (.filt i) (R.WIN_STORE.load b) :=
  ⟨(rd_wr_keep _ _ _ _ _ (.inr (.inl (by decide : 33 + 1 ≤ 34)))).trans (rd_wr_val _ _ _ _ (by decide : 33 + 1 ≤ 64)),
    rd_wr_val _ _ _ _ (by decide : 34 + 5 ≤ 64),
    (rd_wr_keep _ _ _ _ _ (.inr (.inl (by decide : 32 + 1 ≤ 34)))).trans (rd_wr_keep _ _ _ _ _ (.inr (.inl (by decide : 32 + 1 ≤ 33))))⟩

theorem winGiven_log2n (w : Word) : (winGiven i b w s).log2n i = s.log2n i :=
  (rd_wr_keep _ _ _ _ _ (.inl (by change 0x400 ≠ 0x418 + 0x8 * b.val; omega))).trans
    (rd_filt_global (writesOnly_when (writesOnly_mgmtDown s)) (by decide))

theorem windowLoadDone_loads {w : Word} (hrun : s.coreRuns = true) (hload : (s.chains[i]).winLoad[b] = some w)
    (hsum : (s.winValues i w.toNat (s.log2n i)).sum ≠ 0) (hsound : w.toNat % 8 = 6 →
      s.firstBad (.lmem i) (8 * (w.toNat / 2 ^ 7 % 2 ^ 20) % 2 ^ 23) (4 * 2 ^ (w.toNat / 2 ^ 27 % 32)) = none) :
    Completes (.windowLoadDone i b) s (fun t =>
      (t.chains[i]).winLoad[b] = none ∧ (t.chains[i]).wins[b] = s.winValues i w.toNat (s.log2n i) ∧
      t.rd (.filt i) (R.WIN_STORE.loaded b) = 1 ∧ t.rd (.filt i) (R.WIN_STORE.n_loaded b) = s.log2n i ∧
      t.rd (.filt i) (R.WIN_STORE.load b) = 0 ∧ t.mem = s.mem ∧ SameExcept [.filt i, .global] s t) := by
  have hop : opWindowLoadDone i b s = _ := (if_pos hrun).trans (winLoadEnd_loads hload hsum hsound)
  have hlog2n := winGiven_log2n (i := i) (b := b) (s := s) w
  have hclear : (winGiven i b w s).rd (.filt i) (R.WIN_STORE.load b) = 0 := rd_wr_val _ _ _ _ (by decide : 32 + 1 ≤ 64)
  have hgiven := winGiven_writes (i := i) (b := b) (s := s) w
  generalize s.winValues i w.toNat (s.log2n i) = u at hop
  generalize winGiven i b w s = g at hop hlog2n hclear hgiven
  have hnone := winFilled_load (b := b) u s.chains[i]
  have hwin := winFilled_self (b := b) u (winLoadNoted b none s.chains[i])
  generalize winFilled b u (winLoadNoted b none s.chains[i]) = k at hop hnone hwin
  have hkeep : WritesOnly (LoadWord i) s (xfShown i (winBusy k) (winEnded i b u g)) := hgiven.trans
    (((writesOnly_winLoaded _).trans (writesOnly_winInfoShown u)).trans (writesOnly_xfShown i _ _) |>.mono fun _ => .inl)
  have hstore : ∀ f : Fld, f.off = 0x418 + 0x8 * b.val →
      (xfShown i (winBusy k) (winEnded i b u g)).rd (.filt i) f = (winLoaded i b (g.log2n i) g).rd (.filt i) f := fun f hf =>
    (rd_xfShown i _ _ (by omega)).trans (rd_winInfoShown u (by omega))
  obtain ⟨hloaded, hn, hload'⟩ := winLoaded_rd (i := i) (b := b) (s := g) (g.log2n i)
  refine load_completes (congrArg Host.Outcome.next hop) hkeep fun t ht hrd hmem hout =>
    ⟨by rwa [ht], by rwa [ht], (hrd _).trans ((hstore _ rfl).trans hloaded), (hrd _).trans ((hstore _ rfl).trans (hn.trans ?_)),
      (hrd _).trans ((hstore _ rfl).trans (hload'.trans hclear)), hmem, hout⟩
  rw [hlog2n]
  exact Nat.mod_eq_of_lt (rd_lt s _ R.XF_CFG.log2n)

end WinLoad

end Sys2Proof.Proofs

namespace Sys2Proof.Proofs
open Sys2Proof Sys2Proof.Machine Sys2Proof.Laws

/-! ### Frames formed (R104) -/

/-- A write to a local memory touches its words and the counter of its dropped writes. -/
theorem sramWrite_lmem (i : Fin 17) (a : Nat) (data : List (Option Byte)) (s : State) :
    ∃ bs bad n, sramWrite (.lmem i) a data s = (s.setSram (.lmem i) bs bad).cnt .depot (R.LMEM_ECC.rmw_dropped i) n :=
  ⟨_, _, _, rfl⟩

/-- A slice that is not placed has no buffers. -/
theorem bufferFrame_unplaced {m : Fin 17} {s : State} (h : s.flag .placement (R.PL_SLICE.placed m) = false) : bufferFrame m s = s := by
  unfold bufferFrame
  rw [h]
  rfl

/-- The buffers of a slice that is placed take free bytes. -/
theorem bufferFrame_placed {m : Fin 17} {s : State} (h : s.flag .placement (R.PL_SLICE.placed m) = true) :
    ∃ bs bad n, bufferFrame m s = ((freeBytes (8 * s.rd (.filt m) R.XF_MEM.size) s).2.setSram (.lmem m) bs bad).cnt
      .depot (R.LMEM_ECC.rmw_dropped m) n := by
  unfold bufferFrame
  rw [h]
  exact sramWrite_lmem m _ _ _

/-- What the frame buffer of slice `m` leaves as it was: the depot and the DRAM, every chain, the registers but the depot's. -/
structure BufferStep (s t : State) : Prop where
  chains : t.chains = s.chains
  dram : t.mem.dram = s.mem.dram
  depot : t.mem.depot = s.mem.depot
  outside : SameOutside .depot s t

theorem BufferStep.rd {s t : State} (h : BufferStep s t) {b : Blk} {f : Fld} (hb : b.slot ≠ Blk.depot.slot) (hf : f.off < 0x10000) :
    t.rd b f = s.rd b f := by
  have hslot : (b.base + f.off) / 0x10000 = b.slot := inSlot_base b hf
  unfold State.rd
  rw [h.outside _ (by rwa [hslot])]

theorem bufferStep_bufferFrame (m : Fin 17) (s : State) : BufferStep s (bufferFrame m s) := by
  by_cases hplaced : s.flag .placement (R.PL_SLICE.placed m) = true
  · obtain ⟨bs, bad, n, h⟩ := bufferFrame_placed hplaced
    rw [h]
    generalize hu : (freeBytes (8 * s.rd (.filt m) R.XF_MEM.size) s).2.setSram (.lmem m) bs bad = u
    have hcnt := (WritesOnly.refl (InSlot .depot) u).cnt (b := .depot) (f := R.LMEM_ECC.rmw_dropped m) n
      (inSlot_base _ (by change 0x208 + 0x20 * m.val < _; omega))
    subst hu
    exact ⟨hcnt.chains, by rw [onlyRegs_mem hcnt.only]; rfl, by rw [onlyRegs_mem hcnt.only]; rfl, hcnt.sameOutside fun _ h => h⟩
  · rw [bufferFrame_unplaced (by simpa using hplaced)]
    exact ⟨rfl, rfl, rfl, fun _ _ => rfl⟩

theorem tkoItem_idle {s : State} (h : s.tkoPhase = 0) (i kind : Nat) (key : List Nat) (hash : Nat) : tkoItem i kind key hash s = s :=
  if_pos (.inl (by rw [h]; decide))

/-- No takeover compares the frame. -/
theorem frameItem_idle {s : State} (h : s.tkoPhase = 0) (i m : Fin 17) (f hash : Nat) : frameItem i m f hash s = s := by
  unfold frameItem
  simp only [tkoItem_idle h, ite_self]
  split
  · rfl
  · split <;> rfl

/-- XF_FRAMES and XF_STATUS show the frame that member `m` formed, with exponent `e`. -/
def frameShown (m : Fin 17) (e : Nat) (s : State) : State :=
  ((s.cnt (.filt m) R.XF_FRAMES.count 1).wr (.filt m) R.XF_STATUS.last_exp e).wr (.filt m) R.XF_STATUS.state 2

theorem writesOnly_frameShown (m : Fin 17) (e : Nat) (s : State) : WritesOnly (InSlot (.filt m)) s (frameShown m e s) :=
  (((WritesOnly.refl _ s).cnt 1 (inSlot_base _ (by decide))).wr _ (inSlot_base _ (by decide))).wr _ (inSlot_base _ (by decide))

theorem frameShown_rd (m : Fin 17) (e : Nat) (s : State) :
    (frameShown m e s).rd (.filt m) R.XF_FRAMES.count = min (s.rd (.filt m) R.XF_FRAMES.count + 1) R.XF_FRAMES.count.top ∧
    (frameShown m e s).rd (.filt m) R.XF_STATUS.state = 2 := by
  unfold frameShown
  simp (disch := decide) only [rd_wr_keep, rd_wr_val, rd_cnt_val]
  exact ⟨trivial, rfl⟩

/-- What forming a frame leaves, apart from the frame. -/
theorem formFrame_state (i : Fin 17) (job : FrameJob) (s : State) : ∃ e hash fr, formFrame i job s =
    (frameShown (s.memberOf i job.st.f) e (frameItem i (s.memberOf i job.st.f) job.st.f hash (bufferFrame (s.memberOf i job.st.f) s)), fr) :=
  ⟨_, _, _, rfl⟩

theorem formFrame_alone {i : Fin 17} {s : State} (job : FrameJob) (hg : s.gangG i = 1) (hp : s.tkoPhase = 0) :
    ∃ e fr, formFrame i job s = (frameShown i e (bufferFrame i s), fr) := by
  have hphase : (bufferFrame i s).tkoPhase = 0 := ((bufferStep_bufferFrame i s).rd (b := .placement) (by decide) (by decide)).trans hp
  have hm : s.memberOf i job.st.f = i := if_pos hg
  obtain ⟨e, hash, fr, h⟩ := formFrame_state i job s
  rw [hm, frameItem_idle hphase] at h
  exact ⟨e, fr, h⟩

/-- The state from which the oldest job of slice `i` is formed. -/
def jobTaken (i : Fin 17) (s : State) : State :=
  s.setChain i { s.chains[i] with fgaps := [], jobs := (s.chains[i]).jobs.tail }

theorem jobTaken_eq (i : Fin 17) (s : State) : let g := s.setChain i { s.chains[i] with fgaps := [] }
    g.setChain i { g.chains[i] with jobs := (g.chains[i]).jobs.tail } = jobTaken i s := by
  dsimp only
  rw [setChain_setChain, setChain_self]
  rfl

theorem jobTaken_jobs (i : Fin 17) (s : State) : ((jobTaken i s).chains[i]).jobs = (s.chains[i]).jobs.tail :=
  congrArg ChainSt.jobs (setChain_self s i _)

theorem frameGaps_unrecorded {i : Fin 17} {s : State} (h : s.enabled (.records i) = false) :
    frameGaps i s = s.setChain i { s.chains[i] with fgaps := [] } := by
  unfold frameGaps
  exact if_pos (by rw [show (s.setChain i _).enabled (.records i) = s.enabled (.records i) from rfl, h]; simp)

theorem trigFrame_off {i : Fin 17} {s : State} (h : s.enabled (.trig i) = false) (job : FrameJob) (fr : Frame) (bad : Bool) :
    trigFrame i job fr bad s = s := by
  unfold trigFrame
  rw [h]
  rfl

theorem relayFrame_off {i : Fin 17} {s : State} (h : s.enabled (.records i) = false) (gain : Nat) (fr : Frame) :
    relayFrame i gain fr s = s := by
  unfold relayFrame State.synLive
  rw [h]
  simp

theorem slot_trig_apart (i : Fin 17) : (Blk.trig i).slot ≠ Blk.depot.slot ∧ (Blk.trig i).slot ≠ (Blk.filt i).slot := by
  change 0x082 + 4 * i.val ≠ 0x00B ∧ 0x082 + 4 * i.val ≠ 0x081 + 4 * i.val
  omega

theorem slot_records_apart (i : Fin 17) : (Blk.records i).slot ≠ Blk.depot.slot ∧ (Blk.records i).slot ≠ (Blk.filt i).slot := by
  change 0x083 + 4 * i.val ≠ 0x00B ∧ 0x083 + 4 * i.val ≠ 0x081 + 4 * i.val
  omega

theorem slot_filt_ne_depot (i : Fin 17) : (Blk.filt i).slot ≠ Blk.depot.slot := by
  change 0x081 + 4 * i.val ≠ 0x00B
  omega

/-- Forming a frame enables and disables nothing outside the filter slot and the depot. -/
theorem enabled_frameShown {i : Fin 17} {e : Nat} {s u : State} (hu : BufferStep s u) {b : Blk}
    (hb : b.slot ≠ Blk.depot.slot ∧ b.slot ≠ (Blk.filt i).slot) : (frameShown i e u).enabled b = s.enabled b := by
  have hrd : ∀ f : Fld, f.off < 0x10000 → (frameShown i e u).rd b f = s.rd b f := fun f ho =>
    ((writesOnly_frameShown i e u).rd fun h => hb.2 ((inSlot_base b ho).symm.trans h)).trans (hu.rd hb.1 ho)
  unfold State.enabled State.flag
  rw [hrd _ (by decide), hrd _ (by decide)]

theorem xformFault_none (m : Fin 17) (store : Nat) (s : State) : xformFault m store .none s = s := rfl

theorem when_false (s : State) (g : Op) : s.when false g = s := rfl

theorem formNext_state {i : Fin 17} {s : State} {j : FrameJob} {rest : List FrameJob} (hg : s.gangG i = 1)
    (hjobs : (s.chains[i]).jobs = j :: rest) (hp : s.tkoPhase = 0) (htrig : s.enabled (.trig i) = false)
    (hrec : s.enabled (.records i) = false) : ∃ e, formNext i .none s = frameShown i e (bufferFrame i (jobTaken i s)) := by
  obtain ⟨e, fr, hform⟩ := formFrame_alone (i := i) (s := jobTaken i s) j hg hp
  have hstep := bufferStep_bufferFrame i (jobTaken i s)
  generalize bufferFrame i (jobTaken i s) = u at hform hstep
  have htrig' : (frameShown i e u).enabled (.trig i) = false := (enabled_frameShown hstep (slot_trig_apart i)).trans htrig
  have hrec' : (frameShown i e u).enabled (.records i) = false := (enabled_frameShown hstep (slot_records_apart i)).trans hrec
  refine ⟨e, ?_⟩
  unfold formNext
  rw [hjobs]
  dsimp only
  have hm : (s.setChain i { s.chains[i] with fgaps := [] }).memberOf i j.st.f = i := if_pos hg
  rw [frameGaps_unrecorded hrec, hm, jobTaken_eq i s, xformFault_none, hform]
  simp only [FrameFault.none, when_false, trigFrame_off htrig', hrec', relayFrame_off hrec']

theorem frameFormed_counts (s : State) (i : Fin 17) (j : FrameJob) (rest : List FrameJob) (hen : s.enabled (.filt i) = true)
    (hrun : s.coreRuns = true) (hg : s.gangG i = 1) (hjobs : (s.chains[i]).jobs = j :: rest)
    (hp : s.tkoPhase = 0) (htrig : s.enabled (.trig i) = false) (hrec : s.enabled (.records i) = false) :
    Completes (.frameFormed i FrameFault.none) s (fun t =>
      (t.chains[i]).jobs = rest ∧ t.rd (.filt i) R.XF_FRAMES.count = min (s.rd (.filt i) R.XF_FRAMES.count + 1) R.XF_FRAMES.count.top ∧
      t.rd (.filt i) R.XF_STATUS.state = 2 ∧ t.mem.dram = s.mem.dram ∧ t.mem.depot = s.mem.depot ∧
      (s.flag .placement (R.PL_SLICE.placed i) = false → t.mem = s.mem)) := by
  obtain ⟨e, hform⟩ := formNext_state hg hjobs hp htrig hrec
  have hop : opFrameFormed i .none s = frameShown i e (bufferFrame i (jobTaken i s)) :=
    (if_pos (by rw [hen, hrun]; rfl)).trans hform
  obtain ⟨hchains, hdram, hdepot, -⟩ := bufferStep_bufferFrame i (jobTaken i s)
  have hcount := (bufferStep_bufferFrame i (jobTaken i s)).rd (f := R.XF_FRAMES.count) (slot_filt_ne_depot i) (by decide)
  obtain ⟨hframes, hstate⟩ := frameShown_rd i e (bufferFrame i (jobTaken i s))
  have hshown := writesOnly_frameShown i e (bufferFrame i (jobTaken i s))
  have hmem := onlyRegs_mem hshown.only
  refine ⟨_, congrArg Host.Outcome.next hop, ?_, ?_, hstate, ?_, ?_, fun hplaced => ?_⟩
  · rw [hshown.chains, hchains, jobTaken_jobs, hjobs]
    rfl
  · rw [hframes, hcount]
    rfl
  · rw [hmem, hdram]
    rfl
  · rw [hmem, hdepot]
    rfl
  · exact hmem.trans (by rw [bufferFrame_unplaced (s := jobTaken i s) hplaced]; rfl)

/-- Settles O34: a formed frame by what `formNext` leaves of a slice with no trigger unit, records or takeover; a selection by `winCommit_eq`,
a core's with the end of its bundle behind it; a window load by the words it writes and the chain it leaves. -/
theorem framesAndWindows : Obligations.FramesAndWindows := by
  unfold Obligations.FramesAndWindows
  exact ⟨fun s i j rest hen hrun _ => frameFormed_counts s i j rest hen hrun, fun _ _ => commitWindow_pending, unitSelect_pending,
    unitOffset_written, fun _ _ _ => windowLoad_starts, fun _ _ _ => windowLoad_refused, fun _ _ _ _ => windowLoadDone_loads⟩

end Sys2Proof.Proofs

namespace Sys2Proof.Proofs
open Sys2Proof Sys2Proof.Machine Sys2Proof.Laws

/-! ### The trigger units beside their registers -/

/-- `t` differs from `s` in register words of `W` and in what the trigger units hold beside their registers. -/
structure TrigStep (W : Nat → Prop) (s t : State) : Prop where
  rest : t = { s with regs := t.regs, trigs := t.trigs }
  word : ∀ a, ¬ W a → t.word a = s.word a

section TrigStep
variable {W V : Nat → Prop} {s t u : State}

theorem TrigStep.refl (W : Nat → Prop) (s : State) : TrigStep W s s := ⟨rfl, fun _ _ => rfl⟩

theorem TrigStep.trans (h : TrigStep W s t) (g : TrigStep W t u) : TrigStep W s u :=
  ⟨by rw [g.rest, h.rest], fun a ha => (g.word a ha).trans (h.word a ha)⟩

theorem TrigStep.mono (h : TrigStep W s t) (hv : ∀ a, W a → V a) : TrigStep V s t :=
  ⟨h.rest, fun a ha => h.word a fun w => ha (hv a w)⟩

theorem WritesOnly.trigStep (h : WritesOnly W s t) : TrigStep W s t := by
  refine ⟨?_, h.word⟩
  have honly := h.only
  unfold OnlyRegs at honly
  rw [honly]

theorem TrigStep.wr (h : TrigStep W s t) {b : Blk} {f : Fld} (v : Nat) (hw : W (b.base + f.off)) : TrigStep W s (t.wr b f v) :=
  h.trans (writesOnly_wr t v hw).trigStep

theorem TrigStep.cnt (h : TrigStep W s t) {b : Blk} {f : Fld} (n : Nat) (hw : W (b.base + f.off)) : TrigStep W s (t.cnt b f n) :=
  h.trans ((WritesOnly.refl W t).cnt n hw).trigStep

theorem TrigStep.setTrig (h : TrigStep W s t) (i : Fin 17) (x : TrigSt) : TrigStep W s (t.setTrig i x) :=
  h.trans ⟨rfl, fun _ _ => rfl⟩

theorem TrigStep.each {β : Type} (l : List β) (g : β → Op) (hg : ∀ x ∈ l, ∀ s, TrigStep W s (g x s)) :
    ∀ s : State, TrigStep W s (s.each l g) := by
  induction l with
  | nil => exact fun s => .refl W s
  | cons x l ih =>
    exact fun s => (hg x List.mem_cons_self s).trans (ih (fun y hy => hg y (List.mem_cons_of_mem x hy)) (g x s))

theorem TrigStep.mem (h : TrigStep W s t) : t.mem = s.mem := by rw [h.rest]
theorem TrigStep.tbus (h : TrigStep W s t) : t.tbus = s.tbus := by rw [h.rest]
theorem TrigStep.cores (h : TrigStep W s t) : t.cores = s.cores := by rw [h.rest]

theorem TrigStep.sameOutside {b : Blk} (h : TrigStep (InSlot b) s t) : SameOutside b s t := h.word

theorem TrigStep.rd (h : TrigStep W s t) {b : Blk} {f : Fld} (hw : ¬ W (b.base + f.off)) : t.rd b f = s.rd b f := by
  unfold State.rd
  rw [h.word _ hw]

/-- A field of another block. -/
theorem TrigStep.rd_slot {b c : Blk} (h : TrigStep (InSlot b) s t) (hb : c.slot ≠ b.slot) {f : Fld} (hf : f.off < 0x10000) :
    t.rd c f = s.rd c f :=
  h.rd fun hw => hb ((inSlot_base c hf).symm.trans hw)

end TrigStep

theorem setTrig_self (s : State) (i : Fin 17) (x : TrigSt) : (s.setTrig i x).trigs[i] = x := Vector.getElem_set_self _

theorem setTrig_setTrig (s : State) (i : Fin 17) (x y : TrigSt) : (s.setTrig i x).setTrig i y = s.setTrig i y :=
  congrArg (fun v => { s with trigs := v }) (Vector.set_set _ i.isLt)

theorem slot_trig_ne_filt (i j : Fin 17) : (Blk.filt j).slot ≠ (Blk.trig i).slot := by
  change 0x081 + 4 * j.val ≠ 0x082 + 4 * i.val
  omega

theorem slot_core_ne_trig (i j : Fin 17) : (Blk.core j).slot ≠ (Blk.trig i).slot := by
  change 0x080 + 4 * j.val ≠ 0x082 + 4 * i.val
  omega

/-! ### The status of a command of TRIG_CTRL -/

section Status
variable (i : Fin 17) (s : State)

theorem writesOnly_trigStatus (cmd st : Nat) : WritesOnly (InSlot (.trig i)) s (trigStatus i cmd st s) :=
  (writesOnly_wr s _ (inSlot_base _ (by decide))).wr _ (inSlot_base _ (by decide))

/-- last_cmd and last_status are bits 8 to 12 of TRIG_CTRL. -/
theorem rd_trigStatus (cmd st : Nat) {f : Fld} (h : f.off ≠ 0x58 ∨ f.lo + f.width ≤ 8) :
    (trigStatus i cmd st s).rd (.trig i) f = s.rd (.trig i) f :=
  (rd_wr_keep _ _ _ _ _ (h.imp id fun h => .inl (h.trans (by decide)))).trans (rd_wr_keep _ _ _ _ _ (h.imp id .inl))

theorem trigStatus_shown (cmd st : Nat) : (trigStatus i cmd st s).rd (.trig i) R.TRIG_CTRL.last_cmd = cmd % 8 ∧
    (trigStatus i cmd st s).rd (.trig i) R.TRIG_CTRL.last_status = st % 4 := by
  unfold trigStatus
  simp (disch := decide) only [rd_wr_keep, rd_wr_val]
  exact ⟨rfl, rfl⟩

end Status

/-- A command of TRIG_CTRL that ends with a status: the status stands in TRIG_CTRL, and the rest is what the command did before. -/
theorem trigCommand_completes {i : Fin 17} {s u : State} {c : Instr} {cmd st : Nat} {q : State → Prop}
    (hexec : exec c s = .next (trigStatus i cmd st u)) (hu : TrigStep (InSlot (.trig i)) s u)
    (hshown : ∀ t : State, t.trigs = u.trigs →
      (∀ f : Fld, f.off ≠ 0x58 ∨ f.lo + f.width ≤ 8 → t.rd (.trig i) f = u.rd (.trig i) f) →
      t.rd (.trig i) R.TRIG_CTRL.last_cmd = cmd % 8 → t.rd (.trig i) R.TRIG_CTRL.last_status = st % 4 → t.mem = s.mem →
      SameOutside (.trig i) s t → q t) : Completes c s q := by
  have hstatus := (writesOnly_trigStatus i u cmd st).trigStep
  obtain ⟨hcmd, hst⟩ := trigStatus_shown i u cmd st
  refine ⟨_, hexec, hshown _ rfl (fun f hf => rd_trigStatus i u cmd st hf) hcmd hst (hu.trans hstatus).mem (hu.trans hstatus).sameOutside⟩

/-! ### The arm state (R139) -/

section Arm
variable (i : Fin 17) {s : State}

theorem gangG_of_trigStep {t : State} (h : TrigStep (InSlot (.trig i)) s t) (j : Fin 17) : t.gangG j = s.gangG j :=
  congrArg (· + 1) (h.rd_slot (slot_trig_ne_filt i j) (by decide))

/-- The members of a gang follow their lead; a slice alone shows its own state. -/
theorem setArm_alone (a : Nat) (hg : s.gangG i = 1) : setArm i a s = s.wr (.trig i) R.TRIG_STATUS.arm_state a :=
  if_pos ((gangG_of_trigStep i (writesOnly_wr s a (inSlot_base _ (by decide))).trigStep i).trans hg)

theorem trigStep_wrArm (a : Nat) {t : State} (h : TrigStep (InSlot (.trig i)) s t) :
    TrigStep (InSlot (.trig i)) s (t.wr (.trig i) R.TRIG_STATUS.arm_state a) := h.wr a (inSlot_base _ (by decide))

theorem arm_wrArm (a : Nat) (s : State) : (s.wr (.trig i) R.TRIG_STATUS.arm_state a).arm i = a % 8 := rd_wr_val _ _ _ _ (by decide)

/-- The trigger unit without a disarm that waits, and without a start of pre-trigger counting. -/
def disarmed (x : TrigSt) : TrigSt := { x with disarm := false, preFrom := none }

theorem disarmNow_alone (hg : s.gangG i = 1) : TrigStep (InSlot (.trig i)) s (disarmNow i s) ∧ (disarmNow i s).arm i = 0 := by
  have hnow : disarmNow i s = State.when ((s.setTrig i (disarmed s.trigs[i])).wr (.trig i) R.TRIG_STATUS.arm_state 0) _ (trigStatus i 2 0) :=
    congrArg (fun u => State.when u ((s.trigs[i]).disarm && decide (u.rd (.trig i) R.TRIG_CTRL.last_cmd = 2)) (trigStatus i 2 0))
      (setArm_alone i 0 (s := s.setTrig i _) hg)
  rw [hnow]
  refine ⟨(trigStep_wrArm i 0 ((TrigStep.refl _ s).setTrig i _)).trans (writesOnly_when (writesOnly_trigStatus i _ 2 0)).trigStep, ?_⟩
  exact (rd_when (rd_trigStatus i _ 2 0 (.inl (by decide)))).trans (arm_wrArm i 0 _)

end Arm

/-! ### Arming and disarming (R139) -/

section Commands
variable {s : State} {i : Fin 17}

theorem exec_arm (i : Fin 17) (hoff : s.dev ≠ .off) (hboot : s.dev ≠ .boot) : exec (.arm i .write) s = .next (trigArm i s) :=
  congrArg Host.Outcome.next (onWrite_of_on _ hoff hboot)

theorem exec_disarm (i : Fin 17) (hoff : s.dev ≠ .off) (hboot : s.dev ≠ .boot) : exec (.disarm i .write) s = .next (trigDisarm i s) :=
  congrArg Host.Outcome.next (onWrite_of_on _ hoff hboot)

theorem exec_force (i : Fin 17) (hoff : s.dev ≠ .off) (hboot : s.dev ≠ .boot) : exec (.force i .write) s = .next (trigForce i s) :=
  congrArg Host.Outcome.next (onWrite_of_on _ hoff hboot)

theorem exec_timerArm (i : Fin 17) (hoff : s.dev ≠ .off) (hboot : s.dev ≠ .boot) : exec (.timerArm i) s = .next (timerArm i s) :=
  congrArg Host.Outcome.next (onWrite_of_on _ hoff hboot)

/-- A slot whose state lets no command act refuses it. -/
theorem trigArm_dead (h : s.trigLive i = false) : trigArm i s = trigStatus i 1 2 s := if_pos (by rw [h]; rfl)
theorem trigDisarm_dead (h : s.trigLive i = false) : trigDisarm i s = trigStatus i 2 2 s := if_pos (by rw [h]; rfl)
theorem trigForce_dead (h : s.trigLive i = false) : trigForce i s = trigStatus i 3 2 s := if_pos (by rw [h]; rfl)
theorem timerArm_dead (h : s.trigLive i = false) : timerArm i s = trigStatus i 5 2 s := if_pos (by rw [h]; rfl)

/-- The state that arming a DISARMED unit leaves, before its status. -/
def armPending (i : Fin 17) (s : State) : State :=
  (s.setTrig i { s.trigs[i] with disarm := false }).wr (.trig i) R.TRIG_STATUS.arm_state 1

theorem trigArm_disarmed (h : s.trigLive i = true) (hg : s.gangG i = 1) (ha : s.arm i = 0) :
    trigArm i s = trigStatus i 1 0 (armPending i s) := by
  unfold trigArm armPending
  rw [h, if_pos ha, setArm_alone i 1 (s := s.setTrig i _) hg]
  rfl

theorem trigStep_armPending (i : Fin 17) (s : State) : TrigStep (InSlot (.trig i)) s (armPending i s) :=
  trigStep_wrArm i 1 ((TrigStep.refl _ s).setTrig i _)

theorem arm_pends (hoff : s.dev ≠ .off) (hboot : s.dev ≠ .boot) (h : s.trigLive i = true) (hg : s.gangG i = 1) (ha : s.arm i = 0) :
    Completes (.arm i .write) s (fun t =>
      t.arm i = 1 ∧ t.rd (.trig i) R.TRIG_CTRL.last_cmd = 1 ∧ t.rd (.trig i) R.TRIG_CTRL.last_status = 0 ∧ t.mem = s.mem ∧
      SameOutside (.trig i) s t) :=
  trigCommand_completes ((exec_arm i hoff hboot).trans (congrArg Host.Outcome.next (trigArm_disarmed h hg ha))) (trigStep_armPending i s)
    fun _ _ hkeep hcmd hst hmem hout => ⟨(hkeep _ (.inl (by decide))).trans (arm_wrArm i 1 _), hcmd, hst, hmem, hout⟩

theorem trigDisarm_later (h : s.trigLive i = true) (ha : s.arm i = 1 ∨ s.arm i = 2 ∨ s.arm i = 3) :
    trigDisarm i s = trigStatus i 2 1 (s.setTrig i { s.trigs[i] with disarm := true }) := by
  unfold trigDisarm
  rw [h]
  obtain ha | ha | ha := ha
  all_goals
    rw [ha]
    rfl

theorem disarm_waits (hoff : s.dev ≠ .off) (hboot : s.dev ≠ .boot) (h : s.trigLive i = true)
    (ha : s.arm i = 1 ∨ s.arm i = 2 ∨ s.arm i = 3) : Completes (.disarm i .write) s (fun t =>
      t.arm i = s.arm i ∧ (t.trigs[i]).disarm = true ∧ t.rd (.trig i) R.TRIG_CTRL.last_cmd = 2 ∧
      t.rd (.trig i) R.TRIG_CTRL.last_status = 1 ∧ SameOutside (.trig i) s t) := by
  refine trigCommand_completes ((exec_disarm i hoff hboot).trans (congrArg Host.Outcome.next (trigDisarm_later h ha)))
    ((TrigStep.refl _ s).setTrig i _) fun t htrigs hkeep hcmd hst _ hout => ⟨hkeep _ (.inl (by decide)), ?_, hcmd, hst, hout⟩
  rw [htrigs, setTrig_self]

theorem trigDisarm_now (h : s.trigLive i = true) (ha : s.arm i = 4 ∨ s.arm i = 5) : trigDisarm i s = trigStatus i 2 0 (disarmNow i s) := by
  unfold trigDisarm
  rw [h]
  obtain ha | ha := ha
  all_goals
    rw [ha]
    rfl

theorem disarm_ends (hoff : s.dev ≠ .off) (hboot : s.dev ≠ .boot) (h : s.trigLive i = true) (hg : s.gangG i = 1)
    (ha : s.arm i = 4 ∨ s.arm i = 5) : Completes (.disarm i .write) s (fun t =>
      t.arm i = 0 ∧ t.rd (.trig i) R.TRIG_CTRL.last_cmd = 2 ∧ t.rd (.trig i) R.TRIG_CTRL.last_status = 0 ∧
      SameOutside (.trig i) s t) := by
  obtain ⟨hstep, hzero⟩ := disarmNow_alone i hg
  exact trigCommand_completes ((exec_disarm i hoff hboot).trans (congrArg Host.Outcome.next (trigDisarm_now h ha))) hstep
    fun _ _ hkeep hcmd hst _ hout => ⟨(hkeep _ (.inl (by decide))).trans hzero, hcmd, hst, hout⟩

theorem trigForce_event (h : s.trigLive i = true) (href : nbit (s.refAhead i) 14 = true) :
    trigForce i s = trigStatus i 3 0 (pushNow i (Report.at_ 14 true true 0 0) s) := by
  unfold trigForce
  rw [h, href]
  rfl

theorem force_event (hoff : s.dev ≠ .off) (hboot : s.dev ≠ .boot) (h : s.trigLive i = true) (href : nbit (s.refAhead i) 14 = true) :
    Completes (.force i .write) s (fun t =>
      (t.trigs[i]).now = (s.trigs[i]).now ++ [Report.at_ 14 true true 0 0] ∧ t.rd (.trig i) R.TRIG_CTRL.last_cmd = 3 ∧
      t.rd (.trig i) R.TRIG_CTRL.last_status = 0 ∧ t.arm i = s.arm i ∧ SameOutside (.trig i) s t) := by
  refine trigCommand_completes ((exec_force i hoff hboot).trans (congrArg Host.Outcome.next (trigForce_event h href)))
    ((TrigStep.refl _ s).setTrig i _) fun t htrigs hkeep hcmd hst _ hout => ⟨?_, hcmd, hst, hkeep _ (.inl (by decide)), hout⟩
  rw [htrigs]
  exact congrArg TrigSt.now (setTrig_self s i _)

/-- A slot whose state lets no command act shows status 2 (log 17) and keeps its units and its arm state. -/
theorem trigCommand_refused {c : Instr} {cmd : Nat} (hexec : exec c s = .next (trigStatus i cmd 2 s)) (hcmd : cmd < 8) :
    Completes c s (fun t => t.rd (.trig i) R.TRIG_CTRL.last_cmd = cmd ∧ t.rd (.trig i) R.TRIG_CTRL.last_status = 2 ∧ t.trigs = s.trigs ∧
      t.arm i = s.arm i ∧ SameOutside (.trig i) s t) :=
  trigCommand_completes hexec (.refl _ s) fun _ htrigs hkeep hcmd' hst _ hout =>
    ⟨hcmd'.trans (Nat.mod_eq_of_lt hcmd), hst, htrigs, hkeep _ (.inl (by decide)), hout⟩

theorem trigCommands_refused : ∀ p ∈ [((fun i => .arm i .write : Fin 17 → Instr), 1), (fun i => .disarm i .write, 2),
      (fun i => .force i .write, 3), (.timerArm, 5)],
    ∀ (s : State) (i : Fin 17), s.dev ≠ .off → s.dev ≠ .boot → s.trigLive i = false → Completes (p.1 i) s (fun t =>
      t.rd (.trig i) R.TRIG_CTRL.last_cmd = p.2 ∧ t.rd (.trig i) R.TRIG_CTRL.last_status = 2 ∧ t.trigs = s.trigs ∧ t.arm i = s.arm i ∧
      SameOutside (.trig i) s t) := by
  simp only [List.forall_mem_cons, List.not_mem_nil, false_implies, implies_true, and_true]
  refine ⟨fun s i hoff hboot h => ?_, fun s i hoff hboot h => ?_, fun s i hoff hboot h => ?_, fun s i hoff hboot h => ?_⟩
  · exact trigCommand_refused ((exec_arm i hoff hboot).trans (congrArg Host.Outcome.next (trigArm_dead h))) (by decide)
  · exact trigCommand_refused ((exec_disarm i hoff hboot).trans (congrArg Host.Outcome.next (trigDisarm_dead h))) (by decide)
  · exact trigCommand_refused ((exec_force i hoff hboot).trans (congrArg Host.Outcome.next (trigForce_dead h))) (by decide)
  · exact trigCommand_refused ((exec_timerArm i hoff hboot).trans (congrArg Host.Outcome.next (timerArm_dead h))) (by decide)

/-- POST has handed over its units, no index before its end waits to be evaluated, and no disarm waits. -/
theorem postEnd_holdsOff (h : s.trigLive i = true) (hg : s.gangG i = 1) (ha : s.arm i = 3) (hf : s.framed i = false)
    (haxis : (s.trigs[i]).axis = []) (hd : (s.trigs[i]).disarm = false) (hend : (s.trigs[i]).postEnd ≤ (s.chains[i]).pos) :
    Completes (.postEnd i) s (fun t => t.arm i = 4 ∧ t.trigs = s.trigs ∧ t.mem = s.mem ∧ SameOutside (.trig i) s t) := by
  have hop : opPostEnd i s = s.wr (.trig i) R.TRIG_STATUS.arm_state 4 := by
    unfold opPostEnd
    dsimp only
    rw [haxis, hf, h, ha, hd, setArm_alone i 4 hg, if_neg Bool.false_ne_true, if_neg Bool.false_ne_true,
      decide_eq_false (Nat.not_lt.2 hend)]
    rfl
  have hstep := trigStep_wrArm i 4 (TrigStep.refl (InSlot (.trig i)) s)
  exact ⟨_, congrArg Host.Outcome.next hop, arm_wrArm i 4 s, rfl, rfl, hstep.sameOutside⟩

end Commands

/-! ### Commits of the trigger staging (R144) -/

section Commit
variable (i : Fin 17) (s : State)

/-- TRIG_CTRL and TRIG_STATUS take a commit. -/
def trigPending : State := trigStatus i 4 1 ((s.wr (.trig i) R.TRIG_CTRL.commit 1).wr (.trig i) R.TRIG_STATUS.commit_pending 1)

theorem writesOnly_trigPending : WritesOnly (InSlot (.trig i)) s (trigPending i s) :=
  ((writesOnly_wr s _ (inSlot_base _ (by decide))).wr _ (inSlot_base _ (by decide))).trans (writesOnly_trigStatus i _ 4 1)

theorem trigPending_shown : (trigPending i s).rd (.trig i) R.TRIG_CTRL.commit = 1 ∧
    (trigPending i s).rd (.trig i) R.TRIG_STATUS.commit_pending = 1 ∧ (trigPending i s).rd (.trig i) R.TRIG_CTRL.last_cmd = 4 ∧
    (trigPending i s).rd (.trig i) R.TRIG_CTRL.last_status = 1 := by
  unfold trigPending trigStatus
  simp (disch := decide) only [rd_wr_keep, rd_wr_val]
  exact ⟨rfl, rfl, rfl, rfl⟩

/-- The chain notes that the slice's own core committed the trigger staging. -/
def trigNoted : State := s.setChain i { s.chains[i] with byCore := Nat.lor (s.chains[i]).byCore 8 }

theorem trigCommit_host : trigCommit i false s = trigPending i s := rfl
theorem trigCommit_core : trigCommit i true s = trigNoted i (trigPending i s) := rfl

theorem trigNoted_bit : nbit ((trigNoted i s).chains[i]).byCore 3 = true := by
  have h : ((trigNoted i s).chains[i]).byCore = (s.chains[i]).byCore ||| 8 := congrArg ChainSt.byCore (setChain_self s i _)
  rw [h, nbit_eq_testBit, Nat.testBit_or, Bool.or_eq_true]
  exact .inr rfl

variable {i s}

theorem trigCommit_pends (hoff : s.dev ≠ .off) (hboot : s.dev ≠ .boot) : Completes (.trigCommit i .write) s (fun t =>
      t.rd (.trig i) R.TRIG_CTRL.commit = 1 ∧ t.rd (.trig i) R.TRIG_STATUS.commit_pending = 1 ∧ t.rd (.trig i) R.TRIG_CTRL.last_cmd = 4 ∧
      t.rd (.trig i) R.TRIG_CTRL.last_status = 1 ∧ t.trigs = s.trigs ∧ SameOutside (.trig i) s t) := by
  obtain ⟨hcommit, hpending, hcmd, hst⟩ := trigPending_shown i s
  exact ⟨_, congrArg Host.Outcome.next ((onWrite_of_on _ hoff hboot).trans (trigCommit_host i s)), hcommit, hpending, hcmd, hst, rfl,
    (writesOnly_trigPending i s).sameOutside fun _ h => h⟩

end Commit

/-! ### Unit syllables of a quiet core on its trigger slot (R144, R229, R242) -/

section TrigUnit
variable {c : Fin 17} {s u : State}

/-- A field of the core's own slot outside its status and its count of bundles. -/
theorem bundleDone_rd_core (k : CoreSt) {f : Fld} (hcount : f.off ≠ R.CORE_BUNDLES.count.off) (hpc : f.off ≠ R.CORE_STATUS.pc.off) :
    (u.bundleDone c k false).rd (.core c) f = u.rd (.core c) f :=
  (rd_wr_keep _ _ _ _ _ (.inl hpc)).trans (rd_cnt_keep (u.setCore c k) _ _ _ _ (.inl hcount))

/-- A unit syllable of a quiet core that leaves the core as it was, but for what INT_PEND shows, ends its bundle. -/
theorem unitWrite_ends {y : Syl} {rds : List Dst} {bad : Bool} {f : Op} (hq : s.Quiet c) (hlast : y.last = true) (hbad : bad = false)
    (hg : s.guard0 c y = true) (hf : f (setLatch (.alnen c) none s) = u) (hcores : u.cores = s.cores)
    (hrd : ∀ f : Fld, f.off < 0x10000 → f.off ≠ 0xc0 → u.rd (.core c) f = s.rd (.core c) f) :
    unitWrite c y rds bad f s = u.bundleDone c (u.cores[c]) false ∧ (u.bundleDone c (u.cores[c]) false).pc c = s.pc c + 1 := by
  have hpc : u.pc c.val = s.pc c.val := hrd _ (by decide) (by decide)
  obtain ⟨-, hpipe, -, hctl, hwait, hexc, hloops, hlt⟩ := id hq
  rw [← hcores] at hpipe hctl hwait hexc
  have hidle : ∀ j : Fin 3, u.loopOn c.val j.val = false := fun j => by
    have hoff : (R.LOOP_BOUNDS.active j.val).off = 0x90 + 0x8 * j.val := rfl
    unfold State.loopOn State.flag
    rw [hrd _ (by omega) (by omega)]
    exact hloops j
  have hend := bundleEnd_clear hpipe hctl hwait hexc hidle (by omega)
  refine ⟨(unitWrite_issues hq hlast hbad hg).trans ((congrArg (bundleEnd c) hf).trans hend), ?_⟩
  rw [bundleDone_pc _ (by omega), hpc]

theorem trigUnit_completes {y : Syl} {rds : List Dst} {bad : Bool} {f : Op} {i : Instr} {q : State → Prop}
    (hexec : exec i s = .next (unitWrite c y rds bad f s)) (hq : s.Quiet c) (hlast : y.last = true) (hbad : bad = false)
    (hg : s.guard0 c y = true) (hf : f (setLatch (.alnen c) none s) = u) (hcores : u.cores = s.cores)
    (hrd : ∀ f : Fld, f.off < 0x10000 → f.off ≠ 0xc0 → u.rd (.core c) f = s.rd (.core c) f)
    (hshown : ∀ t : State, (∀ f : Fld, f.off < 0x10000 → t.rd (.trig c) f = u.rd (.trig c) f) →
      t.rd (.core c) R.INT_PEND.pending = u.rd (.core c) R.INT_PEND.pending → t.chains = u.chains → t.pc c = s.pc c + 1 → q t) :
    Completes i s q := by
  obtain ⟨hend, hpc⟩ := unitWrite_ends hq hlast hbad hg hf hcores hrd
  exact ⟨_, hexec.trans (congrArg Host.Outcome.next hend), hshown _ (fun f hf => bundleDone_rd _ (slot_core_ne_trig c c).symm hf)
    (bundleDone_rd_core _ (by decide) (by decide)) (bundleDone_chains _) hpc⟩

/-- A command that the unit does not refuse raises no UNIT_DONE at once. -/
theorem refusedDone_taken {core : Bool} {b : Blk} {status : Fld} {f : Op} (h : (f s).rd b status ≠ 2) :
    refusedDone c core b status f s = f s := if_neg (by simp [h])

theorem exec_armUnit (y : Syl) (hoff : s.dev ≠ .off) (hboot : s.dev ≠ .boot) : exec (.arm c (.unit y)) s =
    .next (unitWrite c y [] false (refusedDone c true (.trig c.val) R.TRIG_CTRL.last_status (trigArm c)) s) :=
  congrArg Host.Outcome.next (onWrite_of_on _ hoff hboot)

theorem armUnit_pends {y : Syl} (hoff : s.dev ≠ .off) (hboot : s.dev ≠ .boot) (hq : s.Quiet c) (hlast : y.last = true)
    (hg : s.guard0 c y = true) (h : s.trigLive c = true) (hgang : s.gangG c = 1) (ha : s.arm c = 0) :
    Completes (.arm c (.unit y)) s (fun t => t.arm c = 1 ∧ t.rd (.trig c) R.TRIG_CTRL.last_cmd = 1 ∧
      t.rd (.trig c) R.TRIG_CTRL.last_status = 0 ∧ t.pc c = s.pc c + 1) := by
  let s' := setLatch (.alnen c) none s
  have harm : trigArm c s' = trigStatus c 1 0 (armPending c s') := trigArm_disarmed h hgang ha
  obtain ⟨hcmd, hst⟩ := trigStatus_shown c (armPending c s') 1 0
  have hf : refusedDone c true (.trig c.val) R.TRIG_CTRL.last_status (trigArm c) s' = trigStatus c 1 0 (armPending c s') :=
    (refusedDone_taken (by rw [harm, hst]; decide)).trans harm
  have hstep := (trigStep_armPending c s').trans (writesOnly_trigStatus c _ 1 0).trigStep
  exact trigUnit_completes (exec_armUnit y hoff hboot) hq hlast rfl hg hf hstep.cores
    (fun f hf _ => hstep.rd_slot (slot_core_ne_trig c c) hf) fun t hrd _ _ hpc =>
    ⟨(hrd _ (by decide)).trans ((rd_trigStatus c _ 1 0 (.inl (by decide))).trans (arm_wrArm c 1 _)), (hrd _ (by decide)).trans hcmd,
      (hrd _ (by decide)).trans hst, hpc⟩

theorem exec_trigCommitUnit (y : Syl) (hoff : s.dev ≠ .off) (hboot : s.dev ≠ .boot) : exec (.trigCommit c (.unit y)) s =
    .next (unitWrite c y [] false (trigCommit c true) s) := congrArg Host.Outcome.next (onWrite_of_on _ hoff hboot)

theorem trigCommitUnit_pends {y : Syl} (hoff : s.dev ≠ .off) (hboot : s.dev ≠ .boot) (hq : s.Quiet c) (hlast : y.last = true)
    (hg : s.guard0 c y = true) : Completes (.trigCommit c (.unit y)) s (fun t =>
      t.rd (.trig c) R.TRIG_CTRL.commit = 1 ∧ t.rd (.trig c) R.TRIG_CTRL.last_status = 1 ∧ nbit ((t.chains[c]).byCore) 3 = true ∧
      t.pc c = s.pc c + 1) := by
  let s' := setLatch (.alnen c) none s
  obtain ⟨hcommit, -, -, hst⟩ := trigPending_shown c s'
  have hstep := (writesOnly_trigPending c s').trigStep
  refine trigUnit_completes (exec_trigCommitUnit y hoff hboot) hq hlast rfl hg (trigCommit_core c s') hstep.cores
    (fun f hf _ => hstep.rd_slot (slot_core_ne_trig c c) hf) fun t hrd _ hchains hpc =>
    ⟨(hrd _ (by decide)).trans hcommit, (hrd _ (by decide)).trans hst, ?_, hpc⟩
  rw [hchains]
  exact trigNoted_bit c _

end TrigUnit

/-- Settles O35: each command of TRIG_CTRL by the state it leaves before its status; U.TRIG ARM and COMMIT by the same, with the end of
their bundle behind it. That disarm acts at once in HOLDOFF and REARM_PENDING and waits in ARM_PENDING, and status 2 of a disabled slot,
are log 17. -/
theorem triggerControl : Obligations.TriggerControl := by
  unfold Obligations.TriggerControl
  exact ⟨fun _ _ => arm_pends, fun _ _ _ => armUnit_pends, fun _ _ => disarm_waits, fun _ _ => disarm_ends, fun _ _ => force_event,
    fun _ _ => trigCommit_pends, fun _ _ _ => trigCommitUnit_pends, trigCommands_refused, fun _ _ => postEnd_holdsOff⟩

end Sys2Proof.Proofs

namespace Sys2Proof.Proofs
open Sys2Proof Sys2Proof.Machine Sys2Proof.Laws

/-! ### TRIG_CTRL and TRIG_STATUS (R135, R139) -/

/-- The words of TRIG_CTRL and TRIG_STATUS. -/
def CtrlWord (i : Fin 17) (a : Nat) : Prop := a = (Blk.trig i).base + 0x58 ∨ a = (Blk.trig i).base + 0x60

section Ctrl
variable {i : Fin 17} {s t : State}

theorem CtrlWord.inSlot (a : Nat) (h : CtrlWord i a) : InSlot (.trig i) a := by
  obtain rfl | rfl := h
  · exact inSlot_base _ (by decide)
  · exact inSlot_base _ (by decide)

theorem not_ctrlWord {o : Nat} (hctrl : o ≠ 0x58) (hstatus : o ≠ 0x60) : ¬ CtrlWord i ((Blk.trig i).base + o) := by
  rintro (h | h)
  · exact hctrl (Nat.add_left_cancel h)
  · exact hstatus (Nat.add_left_cancel h)

theorem not_ctrlWord_of_slot {b : Blk} (hb : b.slot ≠ (Blk.trig i).slot) {o : Nat} (ho : o < 0x10000) : ¬ CtrlWord i (b.base + o) :=
  fun h => hb ((inSlot_base b ho).symm.trans h.inSlot)

theorem WritesOnly.trigs {W : Nat → Prop} (h : WritesOnly W s t) : t.trigs = s.trigs := by
  have honly := h.only
  unfold OnlyRegs at honly
  rw [honly]

/-- The terms stand in registers of their own. -/
theorem term_ctrl (h : WritesOnly (CtrlWord i) s t) (k : Nat) : t.term i k = s.term i k := by
  have hoff : 0x60 < (R.TERM.req k).off := Nat.lt_add_right _ (by decide)
  unfold State.term
  rw [h.rd (not_ctrlWord (by omega) (by omega)), h.rd (f := R.TERM.neg k) (not_ctrlWord (show (R.TERM.req k).off ≠ _ by omega)
    (show (R.TERM.req k).off ≠ _ by omega))]

theorem refAhead_ctrl (h : WritesOnly (CtrlWord i) s t) : t.refAhead i = s.refAhead i := by
  unfold State.refAhead State.refMask
  simp only [term_ctrl h, h.chains, h.trigs]

theorem timer_ctrl (h : WritesOnly (CtrlWord i) s t) : t.rdT96 (.trig i) R.TIMER_T96.lo = s.rdT96 (.trig i) R.TIMER_T96.lo := by
  unfold State.rdT96 State.rdw
  rw [h.word _ (not_ctrlWord (by decide) (by decide)), h.word _ (not_ctrlWord (by decide) (by decide))]

theorem slot_timebase_ne_trig (i : Fin 17) : Blk.timebase.slot ≠ (Blk.trig i).slot := by
  change 0x003 ≠ 0x082 + 4 * i.val
  omega

theorem quality_ctrl (h : WritesOnly (CtrlWord i) s t) : t.quality = s.quality :=
  h.rd (not_ctrlWord_of_slot (slot_timebase_ne_trig i) (by decide))

theorem bTb_ctrl (h : WritesOnly (CtrlWord i) s t) : t.bTb = s.bTb :=
  h.rd (not_ctrlWord_of_slot (slot_timebase_ne_trig i) (by decide))

theorem writesOnly_trigStatus_ctrl (i : Fin 17) (s : State) (cmd st : Nat) : WritesOnly (CtrlWord i) s (trigStatus i cmd st s) :=
  (writesOnly_wr s _ (.inl rfl)).wr _ (.inl rfl)

end Ctrl

/-! ### Late events and reports (R125, R126) -/

section Reports
variable (i : Fin 17) (r : Report) (s : State)

theorem trigStep_lateEvent : TrigStep (InSlot (.trig i)) s (lateEvent i r s) :=
  ((TrigStep.refl _ s).cnt 1 (inSlot_base _ (by decide))).setTrig i _

theorem lateEvent_now : ((lateEvent i r s).trigs[i]).now = (s.trigs[i]).now ++ [{ r with late := true }] := by
  have hcnt : (s.cnt (.trig i) R.TRIG_COUNTS2.late_events 1).trigs = s.trigs :=
    ((WritesOnly.refl (InSlot (.trig i)) s).cnt 1 (inSlot_base _ (by decide))).trigs
  refine (congrArg TrigSt.now (setTrig_self _ i _)).trans ?_
  rw [hcnt]

theorem lateEvent_count : (lateEvent i r s).rd (.trig i) R.TRIG_COUNTS2.late_events =
    min (s.rd (.trig i) R.TRIG_COUNTS2.late_events + 1) R.TRIG_COUNTS2.late_events.top := rd_cnt_val s _ _ _ (by decide)

theorem rd_lateEvent {f : Fld} (h : f.off ≠ 0x210) : (lateEvent i r s).rd (.trig i) f = s.rd (.trig i) f :=
  rd_cnt_keep s _ _ _ _ (.inl h)

/-- A report whose index is still to come waits for it. -/
theorem pushReport_waits (hdone : (s.trigs[i]).doneTo = none) (hempty : (s.trigs[i]).reports = []) :
    pushReport i r s = s.setTrig i { s.trigs[i] with reports := [r] } := by
  unfold pushReport
  dsimp only
  rw [hdone, hempty]
  simp

end Reports

/-! ### TIMER (R135) -/

section Timer
variable (i : Fin 17) (s : State)

/-- The TIMER is armed, and its command stays without an end. -/
def timerPending : State := trigStatus i 5 1 ((s.wr (.trig i) R.TRIG_CTRL.timer_arm 1).wr (.trig i) R.TRIG_STATUS.timer_pending 1)

/-- The TIMER is armed no longer. -/
def timerOff : State := (s.wr (.trig i) R.TRIG_CTRL.timer_arm 0).wr (.trig i) R.TRIG_STATUS.timer_pending 0

/-- The TIMER is armed no longer, and the command that armed it is done. -/
def timerCleared : State := (timerOff i s).when (decide ((timerOff i s).rd (.trig i) R.TRIG_CTRL.last_cmd = 5)) (trigStatus i 5 0)

/-- The event of the TIMER. -/
def timerReport : Report :=
  { Report.at_ 15 true true (ofT96 (s.rdT96 (.trig i) R.TIMER_T96.lo)) (ofT96 (s.rdT96 (.trig i) R.TIMER_T96.lo)) with
    qual := s.quality, tb := s.bTb }

theorem writesOnly_timerPending : WritesOnly (CtrlWord i) s (timerPending i s) :=
  ((writesOnly_wr s _ (.inl rfl)).wr _ (.inr rfl)).trans (writesOnly_trigStatus_ctrl i _ 5 1)

theorem timerPending_shown : (timerPending i s).rd (.trig i) R.TRIG_CTRL.timer_arm = 1 ∧
    (timerPending i s).rd (.trig i) R.TRIG_STATUS.timer_pending = 1 ∧ (timerPending i s).rd (.trig i) R.TRIG_CTRL.last_cmd = 5 ∧
    (timerPending i s).rd (.trig i) R.TRIG_CTRL.last_status = 1 := by
  unfold timerPending trigStatus
  simp (disch := decide) only [rd_wr_keep, rd_wr_val]
  exact ⟨rfl, rfl, rfl, rfl⟩

theorem writesOnly_timerCleared : WritesOnly (CtrlWord i) s (timerCleared i s) :=
  ((writesOnly_wr s _ (.inl rfl)).wr _ (.inr rfl)).trans (writesOnly_when (writesOnly_trigStatus_ctrl i _ 5 0))

theorem timerCleared_shown : (timerCleared i s).rd (.trig i) R.TRIG_CTRL.timer_arm = 0 ∧
    (timerCleared i s).rd (.trig i) R.TRIG_STATUS.timer_pending = 0 := by
  have hoff : (timerOff i s).rd (.trig i) R.TRIG_CTRL.timer_arm = 0 ∧ (timerOff i s).rd (.trig i) R.TRIG_STATUS.timer_pending = 0 := by
    unfold timerOff
    simp (disch := decide) only [rd_wr_keep, rd_wr_val]
    exact ⟨rfl, rfl⟩
  exact ⟨(rd_when (rd_trigStatus i _ 5 0 (.inr (by decide)))).trans hoff.1, (rd_when (rd_trigStatus i _ 5 0 (.inl (by decide)))).trans hoff.2⟩

/-- The command that armed the TIMER, if no other came since, ends with it. -/
theorem timerCleared_status (h : s.rd (.trig i) R.TRIG_CTRL.last_cmd = 5) :
    (timerCleared i s).rd (.trig i) R.TRIG_CTRL.last_status = 0 := by
  have hcmd : (timerOff i s).rd (.trig i) R.TRIG_CTRL.last_cmd = 5 :=
    ((rd_wr_keep _ _ _ _ _ (by decide)).trans (rd_wr_keep _ _ _ _ _ (by decide))).trans h
  unfold timerCleared
  rw [hcmd]
  exact (trigStatus_shown i _ 5 0).2

theorem timerFire_eq (late : Bool) : timerFire i late s =
    let u := timerCleared i s
    let r := { timerReport i s with qual := u.quality, tb := u.bTb }
    if !nbit (u.refAhead i) 15 then u else if late then lateEvent i r u else pushReport i r u := rfl

variable {i s}

/-- A TIMER that a term references, or will reference, fires its event. -/
theorem timerFire_referenced (late : Bool) (href : nbit (s.refAhead i) 15 = true) : timerFire i late s =
    if late then lateEvent i (timerReport i s) (timerCleared i s) else pushReport i (timerReport i s) (timerCleared i s) := by
  have hctrl := writesOnly_timerCleared i s
  rw [timerFire_eq]
  dsimp only
  rw [refAhead_ctrl hctrl, href, quality_ctrl hctrl, bTb_ctrl hctrl]
  rfl

theorem timerArm_live (h : s.trigLive i = true) : timerArm i s =
    if ofT96 (s.rdT96 (.trig i) R.TIMER_T96.lo) ≤ s.tim.now then timerFire i true (timerPending i s) else timerPending i s := by
  rw [← timer_ctrl (writesOnly_timerPending i s)]
  unfold timerArm timerPending
  rw [h, if_neg (show (!true) ≠ true from Bool.false_ne_true)]
  exact if_congr Iff.rfl rfl rfl

theorem timerArm_pends (hoff : s.dev ≠ .off) (hboot : s.dev ≠ .boot) (h : s.trigLive i = true)
    (hnow : s.tim.now < ofT96 (s.rdT96 (.trig i) R.TIMER_T96.lo)) : Completes (.timerArm i) s (fun t =>
      t.rd (.trig i) R.TRIG_CTRL.timer_arm = 1 ∧ t.rd (.trig i) R.TRIG_STATUS.timer_pending = 1 ∧
      t.rd (.trig i) R.TRIG_CTRL.last_cmd = 5 ∧ t.rd (.trig i) R.TRIG_CTRL.last_status = 1 ∧ t.trigs = s.trigs ∧
      SameOutside (.trig i) s t) := by
  have hop : timerArm i s = timerPending i s := (timerArm_live h).trans (if_neg (Nat.not_le.2 hnow))
  have hctrl := writesOnly_timerPending i s
  obtain ⟨harm, hpending, hcmd, hst⟩ := timerPending_shown i s
  exact ⟨_, (exec_timerArm i hoff hboot).trans (congrArg Host.Outcome.next hop), harm, hpending, hcmd, hst, hctrl.trigs,
    hctrl.sameOutside CtrlWord.inSlot⟩

theorem timerArm_late (hoff : s.dev ≠ .off) (hboot : s.dev ≠ .boot) (h : s.trigLive i = true)
    (hnow : ofT96 (s.rdT96 (.trig i) R.TIMER_T96.lo) ≤ s.tim.now) (href : nbit (s.refAhead i) 15 = true) :
    Completes (.timerArm i) s (fun t => t.rd (.trig i) R.TRIG_CTRL.timer_arm = 0 ∧
      t.rd (.trig i) R.TRIG_STATUS.timer_pending = 0 ∧ t.rd (.trig i) R.TRIG_CTRL.last_status = 0 ∧
      (t.trigs[i]).now.length = (s.trigs[i]).now.length + 1 ∧ t.rd (.trig i) R.TRIG_COUNTS2.late_events =
        min (s.rd (.trig i) R.TRIG_COUNTS2.late_events + 1) R.TRIG_COUNTS2.late_events.top ∧ SameOutside (.trig i) s t) := by
  have hpend := writesOnly_timerPending i s
  have hctrl := hpend.trans (writesOnly_timerCleared i (timerPending i s))
  have hop : timerArm i s = lateEvent i (timerReport i (timerPending i s)) (timerCleared i (timerPending i s)) :=
    ((timerArm_live h).trans (if_pos hnow)).trans (timerFire_referenced true ((congrArg (nbit · 15) (refAhead_ctrl hpend)).trans href))
  obtain ⟨harm, hpending⟩ := timerCleared_shown i (timerPending i s)
  have hst := timerCleared_status i _ (timerPending_shown i s).2.2.1
  generalize timerCleared i (timerPending i s) = u at hctrl hop harm hpending hst
  refine ⟨_, (exec_timerArm i hoff hboot).trans (congrArg Host.Outcome.next hop), ?_, ?_, ?_, ?_, ?_, ?_⟩
  · exact (rd_lateEvent i _ u (by decide)).trans harm
  · exact (rd_lateEvent i _ u (by decide)).trans hpending
  · exact (rd_lateEvent i _ u (by decide)).trans hst
  · rw [lateEvent_now, List.length_append, hctrl.trigs]
    rfl
  · rw [lateEvent_count, hctrl.rd (not_ctrlWord (by decide) (by decide))]
  · exact ((hctrl.mono CtrlWord.inSlot).trigStep.trans (trigStep_lateEvent i _ u)).sameOutside

theorem timerFire_fires (h : s.trigLive i = true) (hpend : s.flag (.trig i) R.TRIG_STATUS.timer_pending = true)
    (hnow : ofT96 (s.rdT96 (.trig i) R.TIMER_T96.lo) ≤ s.tim.now) (href : nbit (s.refAhead i) 15 = true)
    (hdone : (s.trigs[i]).doneTo = none) (hempty : (s.trigs[i]).reports = []) : Completes (.timerFire i) s (fun t =>
      t.rd (.trig i) R.TRIG_STATUS.timer_pending = 0 ∧ t.rd (.trig i) R.TRIG_CTRL.timer_arm = 0 ∧
      (t.trigs[i]).reports = [timerReport i s] ∧ SameOutside (.trig i) s t) := by
  have hctrl := writesOnly_timerCleared i s
  obtain ⟨harm, hpending⟩ := timerCleared_shown i s
  have hfire := timerFire_referenced false href
  generalize timerCleared i s = u at hctrl harm hpending hfire
  have htrigs : u.trigs[i] = s.trigs[i] := by rw [hctrl.trigs]
  have hop : opTimerFire i s = u.setTrig i { u.trigs[i] with reports := [timerReport i s] } := by
    have hdue : (s.trigLive i && s.flag (.trig i) R.TRIG_STATUS.timer_pending
        && decide (ofT96 (s.rdT96 (.trig i) R.TIMER_T96.lo) ≤ s.tim.now)) = true := by
      rw [h, hpend, decide_eq_true hnow]
      rfl
    exact ((if_pos hdue).trans hfire).trans (pushReport_waits i _ u (by rw [htrigs, hdone]) (by rw [htrigs, hempty]))
  refine ⟨_, congrArg Host.Outcome.next hop, hpending, harm, ?_, ?_⟩
  · exact congrArg TrigSt.reports (setTrig_self u i _)
  · exact ((hctrl.mono CtrlWord.inSlot).trigStep.setTrig i _).sameOutside

end Timer
end Sys2Proof.Proofs

namespace Sys2Proof.Proofs
open Sys2Proof Sys2Proof.Machine Sys2Proof.Laws

/-! ### U.TRIG STAGE (R144) -/

/-- A field of LIVE bits takes its bits of a value written to its whole word. -/
theorem rd_writeBits_live (p : Port) (b : Blk) {f : Fld} (n v : Nat) (s : State) (hf : f.lo + f.width ≤ n) (hn : n ≤ 64) :
    (writeBits p b f.off (2 ^ 64 - 1) v ⟨2 ^ n - 1, 0, 0, 0⟩ s).rd b f = v / 2 ^ f.lo % 2 ^ f.width := by
  apply Nat.eq_of_testBit_eq
  intro j
  unfold State.rd
  rw [testBit_get, Nat.testBit_mod_two_pow, Nat.testBit_div_two_pow]
  by_cases hj : j < f.width
  · rw [getLsbD_writeBits _ _ _ _ _ _ _ (fun _ => rfl) (by omega), bitAfter_live (nbit_ones (by omega)) (nbit_ones (by omega)) (nbit_zero _),
      nbit_eq_testBit, Nat.add_comm]
  · simp [hj]

section Stage
variable {c : Fin 17} {s : State}

/-- What U.TRIG STAGE does once its guard holds: it writes the staging word its selector names, or is refused. -/
theorem exec_trigStage (c : Fin 17) (y : Syl) (s : State) : ∃ f : Op,
    exec (.trigStage c y) s = .next (unitWrite c y (pairDst y.an ++ [.s y.bn]) (decide (y.an % 2 = 1)) f s) ∧
    (∀ t : State, trigStageWord ((t.cores[c]).rs y.bn % 16) = none →
      f t = (t.wr (.trig c) R.TRIG_CTRL.last_status 2).coreInt c 2) ∧
    (∀ (t : State) (o : Nat) (x : RegAt), trigStageWord ((t.cores[c]).rs y.bn % 16) = some o → (Blk.trig c).regAt o = some x →
      f t = writeBits (.alnen c) (.trig c) o (2 ^ 64 - 1) ((t.cores[c]).pair y.an) x.acc t) :=
  ⟨_, rfl, fun t h => by simp only [h], fun t o x h hx => by simp only [h, hx]⟩

theorem trigStageWord_thr (k : Fin 4) : trigStageWord k.val = some (R.TD_THR_STAGE.thr k).off := if_pos k.isLt

theorem trigStageWord_term (k : Fin 4) : trigStageWord (8 + k.val) = some (R.TERM_STAGE.req k).off := by
  unfold trigStageWord
  rw [if_neg (by omega), if_neg (by omega), if_neg (by omega), if_pos (by omega), Nat.add_sub_cancel_left]

theorem trigStageWord_none {n : Nat} (h : 12 ≤ n) : trigStageWord n = none := by
  unfold trigStageWord
  rw [if_neg (by omega), if_neg (by omega), if_neg (by omega), if_neg (by omega)]

/-- TD_THR_STAGE takes 48 LIVE bits, TERM_STAGE 32. -/
theorem regAt_thrStage (c : Fin 17) : ∀ k : Fin 4, (Blk.trig c).regAt (R.TD_THR_STAGE.thr k).off =
    some ⟨(R.TD_THR_STAGE.thr k).off, 8, ⟨2 ^ 48 - 1, 0, 0, 0⟩⟩
  | 0 => rfl
  | 1 => rfl
  | 2 => rfl
  | 3 => rfl

theorem regAt_termStage (c : Fin 17) : ∀ k : Fin 4, (Blk.trig c).regAt (R.TERM_STAGE.req k).off =
    some ⟨(R.TERM_STAGE.req k).off, 4, ⟨2 ^ 32 - 1, 0, 0, 0⟩⟩
  | 0 => rfl
  | 1 => rfl
  | 2 => rfl
  | 3 => rfl

/-- A staging word with `n` LIVE bits takes the pair, and the bundle ends. -/
theorem trigStage_written {y : Syl} {o key bytes n : Nat} {q : State → Prop} (hq : s.Quiet c) (hlast : y.last = true)
    (hg : s.guard0 c y = true) (ha : y.an % 2 = 0) (hword : trigStageWord ((s.cores[c]).rs y.bn % 16) = some o)
    (hreg : (Blk.trig c).regAt o = some ⟨key, bytes, ⟨2 ^ n - 1, 0, 0, 0⟩⟩) (ho : o < 0x10000) (hn : n ≤ 64)
    (hshown : ∀ t : State, (∀ lo w : Nat, lo + w ≤ n → t.rd (.trig c) ⟨o, lo, w⟩ = (s.cores[c]).pair y.an / 2 ^ lo % 2 ^ w) →
      t.pc c = s.pc c + 1 → q t) :
    Completes (.trigStage c y) s q := by
  obtain ⟨f, hexec, -, hwrite⟩ := exec_trigStage c y s
  have hf := hwrite (setLatch (.alnen c) none s) o _ hword hreg
  have hwrites := (writesOnly_writeBits (.alnen c) (.trig c) o (2 ^ 64 - 1) ((s.cores[c]).pair y.an) ⟨2 ^ n - 1, 0, 0, 0⟩
    (setLatch (.alnen c) none s)).mono (WrittenWith.inSlot ho)
  refine trigUnit_completes hexec hq hlast (by simp [ha]) hg hf hwrites.trigStep.cores
    (fun f hf _ => hwrites.trigStep.rd_slot (slot_core_ne_trig c c) hf) fun t hrd _ _ hpc => hshown t (fun lo w hfit => ?_) hpc
  exact (hrd ⟨o, lo, w⟩ ho).trans (rd_writeBits_live _ _ (f := ⟨o, lo, w⟩) n _ _ hfit hn)

theorem trigStage_threshold {y : Syl} {k : Fin 4} (hq : s.Quiet c) (hlast : y.last = true) (hg : s.guard0 c y = true)
    (ha : y.an % 2 = 0) (hsel : ((s.cores[c]).sreg y.bn).toNat % 16 = k.val) : Completes (.trigStage c y) s (fun t =>
      t.rd (.trig c) (R.TD_THR_STAGE.thr k) = ((s.cores[c]).sreg y.an).toNat % 2 ^ 24 ∧
      t.rd (.trig c) (R.TD_THR_STAGE.thr2 k) =
        ((s.cores[c]).sreg (y.an + 1) ++ (s.cores[c]).sreg y.an : BitVec 64).toNat / 2 ^ 24 % 2 ^ 24 ∧ t.pc c = s.pc c + 1) := by
  have hsel' : (s.cores[c]).rs y.bn % 16 = k.val := hsel
  have hoff : (R.TD_THR_STAGE.thr k).off = 0x108 + 0x20 * k.val := rfl
  refine trigStage_written hq hlast hg ha ((congrArg trigStageWord hsel').trans (trigStageWord_thr k)) (regAt_thrStage c k) (by omega)
    (by decide) fun t hrd hpc => ⟨(hrd 0 24 (by decide)).trans ?_, ?_, hpc⟩
  · rw [sreg_toNat, CoreSt.pair]
    omega
  · rw [← pair_eq_append]
    exact hrd 24 24 (by decide)

theorem trigStage_term {y : Syl} {k : Fin 4} (hq : s.Quiet c) (hlast : y.last = true) (hg : s.guard0 c y = true)
    (ha : y.an % 2 = 0) (hsel : ((s.cores[c]).sreg y.bn).toNat % 16 = 8 + k.val) : Completes (.trigStage c y) s (fun t =>
      t.rd (.trig c) (R.TERM_STAGE.req k) = ((s.cores[c]).sreg y.an).toNat % 2 ^ 16 ∧
      t.rd (.trig c) (R.TERM_STAGE.neg k) = ((s.cores[c]).sreg y.an).toNat / 2 ^ 16 ∧ t.pc c = s.pc c + 1) := by
  have hsel' : (s.cores[c]).rs y.bn % 16 = 8 + k.val := hsel
  have hoff : (R.TERM_STAGE.req k).off = 0xa0 + 0x8 * k.val := rfl
  have hlow : ((s.cores[c]).sreg y.an).toNat < 2 ^ 32 := ((s.cores[c]).sreg y.an).isLt
  rw [sreg_toNat] at hlow
  refine trigStage_written hq hlast hg ha ((congrArg trigStageWord hsel').trans (trigStageWord_term k)) (regAt_termStage c k) (by omega)
    (by decide) fun t hrd hpc => ⟨(hrd 0 16 (by decide)).trans ?_, (hrd 16 16 (by decide)).trans ?_, hpc⟩
  · rw [sreg_toNat, CoreSt.pair]
    omega
  · rw [sreg_toNat, CoreSt.pair]
    omega

/-- An interrupt source that is set stands in INT_PEND. -/
theorem coreInt_pending (i : Fin 17) (s : State) {n : Nat} (hn : n < 16) :
    nbit ((s.coreInt i.val n).rd (.core i) R.INT_PEND.pending) n = true := by
  unfold State.coreInt
  rw [rd_wr_val _ _ _ _ (by decide), nbit_eq_testBit, Nat.testBit_mod_two_pow, decide_eq_true (show n < R.INT_PEND.pending.width from hn)]
  change (_ ||| 2 ^ n).testBit n = true
  rw [Nat.testBit_or, Nat.testBit_two_pow_self, Bool.or_true]

theorem trigStage_refused {y : Syl} (hq : s.Quiet c) (hlast : y.last = true) (hg : s.guard0 c y = true) (ha : y.an % 2 = 0)
    (hsel : 12 ≤ ((s.cores[c]).sreg y.bn).toNat % 16) : Completes (.trigStage c y) s (fun t =>
      t.rd (.trig c) R.TRIG_CTRL.last_status = 2 ∧ nbit (t.rd (.core c) R.INT_PEND.pending) 2 = true ∧ t.pc c = s.pc c + 1) := by
  obtain ⟨f, hexec, hnone, -⟩ := exec_trigStage c y s
  have hf := hnone (setLatch (.alnen c) none s) (trigStageWord_none hsel)
  have hslot := slot_core_ne_trig c c
  refine trigUnit_completes hexec hq hlast (by simp [ha]) hg hf rfl (fun f hf hpend => ?_) fun t hrd hpend _ hpc => ⟨?_, ?_, hpc⟩
  · exact (rd_wr_keep _ _ _ _ _ (.inl hpend)).trans (rd_wr_slot _ _ hslot (by decide) hf)
  · exact (hrd _ (by decide)).trans ((rd_wr_slot _ _ hslot.symm (by decide) (by decide)).trans (rd_wr_val _ _ _ _ (by decide)))
  · rw [hpend]
    exact coreInt_pending c _ (by decide)

end Stage
end Sys2Proof.Proofs

namespace Sys2Proof.Proofs
open Sys2Proof Sys2Proof.Machine Sys2Proof.Laws

/-! ### An index of the evaluation axis (R126, R136) -/

section Point
variable {i : Fin 17} {p : AxisPt} {s : State}

/-- The reports that take effect at index `p`. -/
def dueReports (p : AxisPt) (x : TrigSt) : List Report := x.reports.filter (fun r => decide (r.key < p.tEnd)) ++ x.now

/-- The state conditions that are true at index `p`. -/
def statesAt (p : AxisPt) (x : TrigSt) : Nat := ((dueReports p x).filter (fun r => !r.event)).foldl applyState x.states

/-- The conditions that are true at index `p`. -/
def truthAt (p : AxisPt) (x : TrigSt) : Nat :=
  ((dueReports p x).filter (·.event)).foldl (fun m r => Nat.lor m (2 ^ r.cond)) (statesAt p x)

/-- TRIG_EVAL and TRIG_STATUS show the index and the conditions true at it. -/
def pointShown (i : Fin 17) (p : AxisPt) (truth : Nat) (s : State) : State :=
  (s.wr (.trig i) R.TRIG_EVAL.index p.m).wr (.trig i) R.TRIG_STATUS.cond_state (Nat.land truth (s.refMask i))

theorem holdoffEnd_idle (t : Int) (h : s.arm i ≠ 4) : holdoffEnd i t s = s := if_neg fun hold => h hold.1

theorem evalPoint_plain (hfresh : p.fresh = false) (hboundary : p.boundary = false) (hterms : p.terms = none) (ha : s.arm i ≠ 4) :
    let terms := s.termsTrue i (truthAt p s.trigs[i])
    ∃ (x : TrigSt) (mets : List Report) (held mask : Nat), x.axis = (s.trigs[i]).axis.tail ∧ x.prevT = decide (terms ≠ []) ∧
      let u := (pointShown i p (truthAt p s.trigs[i]) s).setTrig i x
      evalPoint i p s = if terms = [] ∨ (s.trigs[i]).prevT = true then u else candidate i p mets held mask terms u := by
  obtain ⟨e, hpoint⟩ : ∃ e, evalPoint i p s = e := ⟨_, rfl⟩
  have he := hpoint
  unfold evalPoint at he
  extract_lets t taken inGap late reps due src reported known loaded old states setBy evs truth terms prev held stepped b shown src'
    evaluated req neg isMet mask heldMask mets at he
  have hlate : late = taken := congrArg (fun l => taken.each l (lateEvent i)) (if_neg (by rw [hfresh]; decide) : inGap = [])
  have hsrc : src = { t with axis := t.axis.tail } := (congrArg (fun u : State => u.trigs[i]) hlate).trans (setTrig_self s i _)
  obtain ⟨y, hreported, hyaxis⟩ : ∃ y, reported = s.setTrig i y ∧ y.axis = t.axis.tail :=
    ⟨_, (congrArg (fun u : State => u.setTrig i _) hlate).trans (setTrig_setTrig s i _ _), congrArg TrigSt.axis hsrc⟩
  have hloaded : loaded = s.setTrig i y := by
    refine Eq.trans ?_ hreported
    simp only [loaded, hterms]
  have hreps : reps = t.reports := if_neg (by rw [hfresh]; decide)
  have hnow : (late.trigs[i]).now = t.now := by
    change src.now = _
    rw [hsrc]
  have hdue : due = dueReports p t := by simp only [due, hreps, hnow, dueReports]
  have hold : old = t.states := (if_neg (by rw [hfresh]; decide)).trans (if_neg (by rw [hterms]; decide))
  have htruth : truth = truthAt p t := by simp only [truth, evs, states, hdue, hold, truthAt, statesAt]
  have hterms' : terms = s.termsTrue i (truthAt p t) := by simp only [terms, hloaded, htruth]; rfl
  have hprev : prev = t.prevT := if_neg (by rw [hfresh]; decide)
  have hstepped : stepped = s.setTrig i y := by
    have hheld : held = s.setTrig i y := by
      simp only [held, hloaded]
      exact holdoffEnd_idle (s := s.setTrig i y) p.t ha
    simp only [stepped, hboundary, when_false, hheld]
  have hshown : shown = (pointShown i p (truthAt p t) s).setTrig i y := by
    simp only [shown, hstepped, htruth]
    rfl
  refine ⟨{ src' with states := states, setBy := setBy, prevT := decide (terms ≠ []), fresh := false }, mets, heldMask, mask, ?_, ?_, ?_⟩
  · exact (congrArg TrigSt.axis ((congrArg (fun u : State => u.trigs[i]) hshown).trans (setTrig_self _ i y))).trans hyaxis
  · exact congrArg (fun l : List Nat => decide (l ≠ [])) hterms'
  · have hevaluated : evaluated = _ := (congrArg (fun u : State => u.setTrig i _) hshown).trans (setTrig_setTrig _ i y _)
    rw [← hterms', ← hprev]
    exact hpoint.trans (he.symm.trans (by rw [hevaluated]))
theorem writesOnly_pointShown (i : Fin 17) (p : AxisPt) (truth : Nat) (s : State) :
    WritesOnly (InSlot (.trig i)) s (pointShown i p truth s) :=
  (writesOnly_wr s _ (inSlot_base _ (by decide))).wr _ (inSlot_base _ (by decide))

/-- TRIG_EVAL is a word of its own, and cond_state is bits 8 to 23 of TRIG_STATUS. -/
theorem rd_pointShown (truth : Nat) {f : Fld} (heval : f.off ≠ 0x68) (hstatus : f.off ≠ 0x60 ∨ f.lo + f.width ≤ 8) :
    (pointShown i p truth s).rd (.trig i) f = s.rd (.trig i) f :=
  (rd_wr_keep _ _ _ _ _ (hstatus.imp id .inl)).trans (rd_wr_keep _ _ _ _ _ (.inl heval))

theorem pointShown_index (truth : Nat) : (pointShown i p truth s).rd (.trig i) R.TRIG_EVAL.index = p.m % 2 ^ 64 :=
  (rd_wr_keep _ _ _ _ _ (by decide)).trans (rd_wr_val _ _ _ _ (by decide))

/-- The combiner evaluates the front of the axis once every condition it references has reported. -/
theorem exec_combinerEvaluation {ps : List AxisPt} (h : s.trigLive i = true) (haxis : (s.trigs[i]).axis = p :: ps)
    (hcovered : s.covered i p = true) : exec (.combinerEvaluation i) s = .next (evalPoint i p s) := by
  refine congrArg Host.Outcome.next ?_
  unfold opCombinerEvaluation
  rw [haxis]
  exact if_pos (by rw [h, hcovered]; rfl)

/-- Terms that reference nothing are not true. -/
theorem termsTrue_empty (truth : Nat) (h : ∀ k : Fin 4, s.term i k = (0, 0)) : s.termsTrue i truth = [] := by
  unfold State.termsTrue
  refine List.filter_eq_nil_iff.2 fun k hk => ?_
  have hterm : s.term i k = (0, 0) := h ⟨k, List.mem_range.1 hk⟩
  rw [hterm]
  exact Bool.false_ne_true

theorem combiner_shows {ps : List AxisPt} (h : s.trigLive i = true) (haxis : (s.trigs[i]).axis = p :: ps)
    (hcovered : s.covered i p = true) (hfresh : p.fresh = false) (hboundary : p.boundary = false) (hterms : p.terms = none)
    (ha : s.arm i ≠ 4) (hnone : ∀ k : Fin 4, s.term i k = (0, 0)) :
    Completes (.combinerEvaluation i) s (fun t => t.rd (.trig i) R.TRIG_EVAL.index = p.m % 2 ^ 64 ∧ (t.trigs[i]).axis = ps ∧
      (t.trigs[i]).prevT = false ∧ t.arm i = s.arm i ∧ t.mem = s.mem ∧ SameOutside (.trig i) s t) := by
  obtain ⟨x, mets, held, mask, haxis', hprev, hpoint⟩ := evalPoint_plain hfresh hboundary hterms ha
  rw [termsTrue_empty _ hnone] at hprev hpoint
  dsimp only at hpoint
  rw [if_pos (.inl rfl)] at hpoint
  have hstep := (writesOnly_pointShown i p (truthAt p s.trigs[i]) s).trigStep.setTrig i x
  refine ⟨_, (exec_combinerEvaluation h haxis hcovered).trans (congrArg Host.Outcome.next hpoint),
    (setTrig_rd _ i x _ _).trans (pointShown_index _), ?_, ?_,
    (setTrig_rd _ i x _ R.TRIG_STATUS.arm_state).trans (rd_pointShown _ (by decide) (.inr (by decide))), hstep.mem, hstep.sameOutside⟩
  · rw [setTrig_self, haxis', haxis]
    rfl
  · rw [setTrig_self, hprev]
    rfl

end Point

/-! ### Candidates (R137 to R140) -/

section Candidate
variable {i : Fin 17} {p : AxisPt} {s : State}

/-- With no window a candidate counts for nothing in DISARMED. -/
theorem candidate_disarmed {mets : List Report} {held mask : Nat} {terms : List Nat}
    (hwindow : s.flag (.trig i) R.TRIG_CFG.window_enable = false) (ha : s.arm i = 0) :
    candidate i p mets held mask terms s = s.cnt (.trig i) R.TRIG_COUNTS2.disarmed_candidates 1 := by
  unfold candidate
  rw [hwindow, ha]
  rfl

/-- In ARMED it is accepted: the unit is in POST and its core has the interrupt of an accepted trigger. -/
theorem candidate_armed {mets : List Report} {held mask : Nat} {terms : List Nat}
    (hwindow : s.flag (.trig i) R.TRIG_CFG.window_enable = false) (ha : s.arm i = 2) :
    ∃ u : State, candidate i p mets held mask terms s = (setArm i 3 u).coreInt i.val 3 := by
  unfold candidate
  rw [hwindow, ha]
  exact ⟨_, rfl⟩

/-- In POST it is declined, and the core has the interrupt of a declined trigger. -/
theorem candidate_post {mets : List Report} {held mask : Nat} {terms : List Nat}
    (hwindow : s.flag (.trig i) R.TRIG_CFG.window_enable = false) (ha : s.arm i = 3) :
    ∃ u : State, candidate i p mets held mask terms s = u.coreInt i.val 4 := by
  unfold candidate
  rw [hwindow, ha]
  exact ⟨_, rfl⟩

/-- A property that every pass of a loop keeps holds after the loop. -/
theorem each_preserves {β : Type} {P : State → Prop} {g : β → Op} {l : List β} (h : ∀ x ∈ l, ∀ s, P s → P (g x s)) :
    ∀ s : State, P s → P (s.each l g) := by
  induction l with
  | nil => exact fun _ hs => hs
  | cons x l ih => exact fun s hs => ih (fun y hy => h y (List.mem_cons_of_mem x hy)) (g x s) (h x List.mem_cons_self s hs)

/-- Every unit of a gang shows the state its lead takes. -/
theorem setArm_arm (a : Nat) : (setArm i a s).arm i = a % 8 := by
  unfold setArm
  dsimp only
  split
  · exact arm_wrArm i a s
  · refine each_preserves (P := fun u => u.arm i = a % 8) (fun j _ u hu => ?_) _ (arm_wrArm i a s)
    split
    · by_cases hj : j = i.val
      · rw [hj]
        exact arm_wrArm i a u
      · refine (rd_wr_slot u a ?_ (by decide) (by decide)).trans hu
        change 0x082 + 4 * i.val ≠ 0x082 + 4 * j
        omega
    · exact hu

/-- What the combiner finds at an index to which a SOFT event comes, where the first term asks for SOFT alone. -/
theorem truthAt_soft {x : TrigSt} (hreports : x.reports = []) (hnow : x.now = [Report.at_ 14 true true 0 0]) (hstates : x.states = 0) :
    truthAt p x = 0x4000 := by
  unfold truthAt statesAt dueReports
  rw [hreports, hnow, hstates]
  change Nat.lor 0 (2 ^ 14) = 0x4000
  decide

theorem termsTrue_soft (h : s.term i 0 = (0x4000, 0)) : s.termsTrue i 0x4000 ≠ [] := by
  refine List.ne_nil_of_mem (a := 0) (List.mem_filter.2 ⟨by decide, ?_⟩)
  rw [h]
  rfl

end Candidate

section Soft
variable {i : Fin 17} {p : AxisPt} {ps : List AxisPt} {t0 : TrigSt} {s : State} (h : s.trigLive i = true)
  (htrig : s.trigs[i] = { t0 with
    axis := p :: ps, reports := [], now := [Report.at_ 14 true true 0 0], prevT := false, states := 0, setBy := [] })
  (hcovered : s.covered i p = true) (hfresh : p.fresh = false) (hboundary : p.boundary = false) (hterms : p.terms = none)
  (hterm : s.term i 0 = (0x4000, 0)) (hwindow : s.flag (.trig i) R.TRIG_CFG.window_enable = false)
include h htrig hcovered hfresh hboundary hterms hterm hwindow

/-- A SOFT event at an index makes a candidate there, on a state that shows the index and keeps every counter. -/
theorem combiner_candidate (ha : s.arm i ≠ 4) : ∃ u mets held mask terms,
    exec (.combinerEvaluation i) s = .next (candidate i p mets held mask terms u) ∧ TrigStep (InSlot (.trig i)) s u ∧
    u.flag (.trig i) R.TRIG_CFG.window_enable = false ∧ u.arm i = s.arm i ∧
    u.rd (.trig i) R.TRIG_COUNTS2.disarmed_candidates = s.rd (.trig i) R.TRIG_COUNTS2.disarmed_candidates := by
  obtain ⟨x, mets, held, mask, -, -, hpoint⟩ := evalPoint_plain hfresh hboundary hterms ha
  have htruth : truthAt p s.trigs[i] = 0x4000 := truthAt_soft (by rw [htrig]) (by rw [htrig]) (by rw [htrig])
  have hprev : (s.trigs[i]).prevT = false := by rw [htrig]
  have hnew : ¬ (s.termsTrue i 0x4000 = [] ∨ false = true) := by
    rintro (hnil | hfalse)
    · exact termsTrue_soft hterm hnil
    · exact Bool.false_ne_true hfalse
  rw [htruth, hprev] at hpoint
  dsimp only at hpoint
  rw [if_neg hnew] at hpoint
  have hkeep : ∀ f : Fld, f.off ≠ 0x68 → f.off ≠ 0x60 ∨ f.lo + f.width ≤ 8 →
      ((pointShown i p 0x4000 s).setTrig i x).rd (.trig i) f = s.rd (.trig i) f := fun f heval hstatus =>
    (setTrig_rd _ i x _ f).trans (rd_pointShown _ heval hstatus)
  exact ⟨_, mets, held, mask, _, (exec_combinerEvaluation h (by rw [htrig]) hcovered).trans (congrArg Host.Outcome.next hpoint),
    (writesOnly_pointShown i p _ s).trigStep.setTrig i x,
    (congrArg (fun n => decide (n ≠ 0)) (hkeep R.TRIG_CFG.window_enable (by decide) (by decide))).trans hwindow,
    hkeep R.TRIG_STATUS.arm_state (by decide) (.inr (by decide)), hkeep _ (by decide) (by decide)⟩

theorem combiner_accepts (ha : s.arm i = 2) : Completes (.combinerEvaluation i) s (fun t =>
    t.arm i = 3 ∧ nbit (t.rd (.core i) R.INT_PEND.pending) 3 = true) := by
  obtain ⟨u, mets, held, mask, terms, hexec, -, hwin, harm, -⟩ :=
    combiner_candidate h htrig hcovered hfresh hboundary hterms hterm hwindow (by rw [ha]; decide)
  obtain ⟨v, hv⟩ := candidate_armed (p := p) (mets := mets) (held := held) (mask := mask) (terms := terms) hwin (harm.trans ha)
  rw [hv] at hexec
  exact ⟨_, hexec, (rd_wr_slot _ _ (slot_core_ne_trig i i).symm (by decide) (by decide)).trans (setArm_arm 3),
    coreInt_pending i _ (by decide)⟩

theorem combiner_declines (ha : s.arm i = 3) : Completes (.combinerEvaluation i) s (fun t =>
    nbit (t.rd (.core i) R.INT_PEND.pending) 4 = true) := by
  obtain ⟨u, mets, held, mask, terms, hexec, -, hwin, harm, -⟩ :=
    combiner_candidate h htrig hcovered hfresh hboundary hterms hterm hwindow (by rw [ha]; decide)
  obtain ⟨v, hv⟩ := candidate_post (p := p) (mets := mets) (held := held) (mask := mask) (terms := terms) hwin (harm.trans ha)
  rw [hv] at hexec
  exact ⟨_, hexec, coreInt_pending i v (by decide)⟩

theorem combiner_counts (ha : s.arm i = 0) : Completes (.combinerEvaluation i) s (fun t =>
    t.arm i = 0 ∧ t.rd (.trig i) R.TRIG_COUNTS2.disarmed_candidates =
      min (s.rd (.trig i) R.TRIG_COUNTS2.disarmed_candidates + 1) R.TRIG_COUNTS2.disarmed_candidates.top ∧
    SameOutside (.trig i) s t) := by
  obtain ⟨u, mets, held, mask, terms, hexec, hstep, hwin, harm, hcount⟩ :=
    combiner_candidate h htrig hcovered hfresh hboundary hterms hterm hwindow (by rw [ha]; decide)
  rw [candidate_disarmed hwin (harm.trans ha)] at hexec
  refine ⟨_, hexec, ?_, ?_, (hstep.cnt 1 (inSlot_base _ (by decide))).sameOutside⟩
  · exact (rd_cnt_keep u _ _ _ _ (by decide)).trans (harm.trans ha)
  · rw [rd_cnt_val _ _ _ _ (by decide), hcount]

end Soft

/-- Settles O36: TIMER by what its command and its firing write in TRIG_CTRL and TRIG_STATUS, the staging syllable by the one word it
writes, and the combiner by what an index that is neither a boundary nor the first after a reset leaves, with its candidate behind it. -/
theorem triggerDecisions : Obligations.TriggerDecisions := by
  unfold Obligations.TriggerDecisions
  exact ⟨fun _ _ => timerArm_pends, fun _ _ => timerArm_late, fun _ _ => timerFire_fires, fun _ _ _ _ => trigStage_threshold,
    fun _ _ _ _ => trigStage_term, fun _ _ _ => trigStage_refused, fun _ _ _ _ h haxis hcov hf hb ht _ => combiner_shows h haxis hcov hf hb ht,
    fun _ _ _ _ _ h _ htrig hcov hf hb ht hterm _ _ _ hw => combiner_accepts h htrig hcov hf hb ht hterm hw,
    fun _ _ _ _ _ h _ htrig hcov hf hb ht hterm _ _ _ hw => combiner_declines h htrig hcov hf hb ht hterm hw,
    fun _ _ _ _ _ h _ htrig hcov hf hb ht hterm _ _ _ hw => combiner_counts h htrig hcov hf hb ht hterm hw⟩

end Sys2Proof.Proofs

namespace Sys2Proof.Proofs
open Sys2Proof Sys2Proof.Machine Sys2Proof.Laws

/-! ### The TRIG_OUT pins (R147) -/

/-- `t` differs from `s` in the levels of the TRIG_OUT pins, in the ends of their pulses and in the pins held inactive. -/
def OutStep (s t : State) : Prop :=
  t = { s with
    pins := { s.pins with trigOut := t.pins.trigOut }
    tbus := { s.tbus with outEnd := t.tbus.outEnd, outHold := t.tbus.outHold } }

section OutStep
variable {s t u : State}

theorem OutStep.refl (s : State) : OutStep s s := rfl

theorem OutStep.trans (h : OutStep s t) (g : OutStep t u) : OutStep s u := by
  unfold OutStep at h g ⊢
  rw [g, h]

theorem OutStep.regs (h : OutStep s t) : t.regs = s.regs := by unfold OutStep at h; rw [h]
theorem OutStep.dev (h : OutStep s t) : t.dev = s.dev := by unfold OutStep at h; rw [h]
theorem OutStep.mem (h : OutStep s t) : t.mem = s.mem := by unfold OutStep at h; rw [h]
theorem OutStep.tim (h : OutStep s t) : t.tim = s.tim := by unfold OutStep at h; rw [h]
theorem OutStep.inLevel (h : OutStep s t) : t.tbus.inLevel = s.tbus.inLevel := by unfold OutStep at h; rw [h]
theorem OutStep.inq (h : OutStep s t) : t.tbus.inq = s.tbus.inq := by unfold OutStep at h; rw [h]
theorem OutStep.tbusNak (h : OutStep s t) : t.pins.tbusNak = s.pins.tbusNak := by unfold OutStep at h; rw [h]

theorem outStep_refreshOut (j : Fin 4) (s : State) : OutStep s (refreshOut j s) := by
  unfold refreshOut
  split
  · exact .refl s
  · dsimp only
    split
    · exact rfl
    · exact rfl

theorem outStep_pulseOut (j : Fin 4) (s : State) : OutStep s (pulseOut j s) := by
  unfold pulseOut
  dsimp only
  split
  · exact rfl
  · exact rfl

theorem OutStep.each {β : Type} (l : List β) (g : β → Op) (hg : ∀ x s, OutStep s (g x s)) (s : State) : OutStep s (s.each l g) :=
  each_preserves (P := OutStep s) (fun x _ u hu => hu.trans (hg x u)) s (.refl s)

theorem outStep_outOccurs (src slice index : Nat) (s : State) : OutStep s (outOccurs src slice index s) := by
  unfold outOccurs
  split
  · exact .refl s
  · refine .each _ _ (fun j u => ?_) s
    dsimp only
    split
    · exact outStep_pulseOut j u
    · exact .refl u

theorem outStep_refreshOuts (s : State) : OutStep s (refreshOuts s) := by
  unfold refreshOuts
  split
  · exact .refl s
  · refine .each _ _ (fun j u => ?_) s
    split
    · exact outStep_refreshOut j u
    · exact .refl u

end OutStep

section Pulse
variable {s : State} {j : Fin 4}

theorem driveOut_pin (on : Bool) : (driveOut j on s).pins.trigOut[j] = (on != decide (s.outCfg j R.TRIG_OUT_CFG.polarity ≠ 0)) :=
  Vector.getElem_set_self _

/-- A pin whose pulse is over, that is not held and follows no level, goes inactive. -/
theorem pulseEnd_inactive (hrun : s.timeRuns = true) (hdone : s.pulseDone j = true) (hheld : s.outHeld j = false)
    (hlevel : s.outLevel j = none) : Completes (.pulseEnd j) s (fun t => t.tbus.outEnd[j] = none ∧
      t.pins.trigOut[j] = decide (s.outCfg j R.TRIG_OUT_CFG.polarity ≠ 0) ∧ t.regs = s.regs ∧ t.mem = s.mem) := by
  let u : State := { s with tbus.outEnd := s.tbus.outEnd.set j none }
  let v : State := { u with tbus.outHold := u.tbus.outHold.set j none }
  have hend : v.tbus.outEnd[j] = none := Vector.getElem_set_self _
  have hrefresh : refreshOut j u = driveOut j false v := by
    unfold refreshOut
    rw [show u.outHeld j = false from hheld, if_neg Bool.false_ne_true]
    dsimp only
    rw [show v.outLevel j = none from hlevel, hend]
    rfl
  have hop : opPulseEnd j s = driveOut j false v := by
    unfold opPulseEnd
    rw [hdone, hrun]
    exact hrefresh
  exact ⟨_, congrArg Host.Outcome.next hop, hend, (driveOut_pin false).trans (Bool.false_bne _), rfl, rfl⟩

theorem pulseEnd_early (hdone : s.pulseDone j = false) : Completes (.pulseEnd j) s (fun t => t = s) := by
  refine ⟨_, congrArg Host.Outcome.next (if_pos ?_), rfl⟩
  rw [hdone]
  rfl

end Pulse

/-! ### TRIG_OUT_CFG (R147) -/

section OutCfg
variable {s : State} {j : Fin 4}

/-- A field of a word that was written as a whole. -/
theorem rd_wrw_self (s : State) (b : Blk) (f : Fld) (v : Nat) : (s.wrw b f.off v).rd b f = v % 2 ^ 64 / 2 ^ f.lo % 2 ^ f.width := by
  unfold State.rd
  rw [word_wrw, if_pos rfl, get_eq_div, BitVec.toNat_ofNat]

/-- The low half of the word takes the value written, without its two reserved bits. -/
theorem opTrigOutCfgWrite_word (v : BitVec 32) : ∃ x, opTrigOutCfgWrite j v s = s.wrw .trigbus (0x200 + 8 * j.val) x ∧
    x % 2 ^ 64 % 2 ^ 32 = v.toNat - v.toNat / 2 ^ 14 % 4 * 2 ^ 14 := by
  have hv : v.toNat < 2 ^ 32 := v.isLt
  refine ⟨_, rfl, ?_⟩
  generalize s.rdw .trigbus (0x200 + 8 * j.val) = w
  simp only [putBits, nbits]
  omega

theorem trigOutCfg_written (v : BitVec 32) (hoff : s.dev ≠ .off) (hboot : s.dev ≠ .boot) : Completes (.trigOutCfgWrite j v) s (fun t =>
      t.rd .trigbus (R.TRIG_OUT_CFG.source j) = v.toNat % 8 ∧ t.rd .trigbus (R.TRIG_OUT_CFG.slice j) = v.toNat / 8 % 32 ∧
      t.rd .trigbus (R.TRIG_OUT_CFG.index j) = v.toNat / 256 % 8 ∧ t.rd .trigbus (R.TRIG_OUT_CFG.width j) = v.toNat / 65536 ∧
      t.flag .trigbus (R.TRIG_OUT_CFG.polarity j) = v.getLsbD 11 ∧ t.pins = s.pins ∧ t.tbus = s.tbus ∧ SameOutside .trigbus s t) := by
  obtain ⟨x, hop, hx⟩ := opTrigOutCfgWrite_word (s := s) (j := j) v
  have hv : v.toNat < 2 ^ 32 := v.isLt
  have hfield : ∀ lo w : Nat, (s.wrw .trigbus (0x200 + 8 * j.val) x).rd .trigbus ⟨0x200 + 8 * j.val, lo, w⟩ = x % 2 ^ 64 / 2 ^ lo % 2 ^ w :=
    fun lo w => rd_wrw_self s .trigbus ⟨0x200 + 8 * j.val, lo, w⟩ x
  have hout : SameOutside .trigbus s (s.wrw .trigbus (0x200 + 8 * j.val) x) :=
    (writesOnly_wrw s x (inSlot_base .trigbus (by omega))).sameOutside fun _ h => h
  have hbit : x % 2 ^ 64 / 2 ^ 11 % 2 ^ 1 = v.toNat / 2 ^ 11 % 2 := by omega
  have hpolarity : decide (v.toNat / 2 ^ 11 % 2 ≠ 0) = v.getLsbD 11 := by
    rw [BitVec.getLsbD, Nat.testBit_eq_decide_div_mod_eq]
    exact decide_eq_decide.2 (by omega)
  exact ⟨_, congrArg Host.Outcome.next ((onWrite_of_on _ hoff hboot).trans hop), (hfield 0 3).trans (by omega), (hfield 3 5).trans (by omega),
    (hfield 8 3).trans (by omega), (hfield 16 16).trans (by omega),
    (congrArg (fun n => decide (n ≠ 0)) ((hfield 11 1).trans hbit)).trans hpolarity, rfl, rfl, hout⟩

/-- What happens to other pins leaves pin `j`, the registers and the time as they were. -/
structure PinKeeps (j : Fin 4) (s t : State) : Prop where
  regs : t.regs = s.regs
  tim : t.tim = s.tim
  cfg : t.tbus.outCfg[j] = s.tbus.outCfg[j]
  pulse : t.tbus.outEnd[j] = s.tbus.outEnd[j]
  hold : t.tbus.outHold[j] = s.tbus.outHold[j]
  level : t.pins.trigOut[j] = s.pins.trigOut[j]

theorem PinKeeps.refl (j : Fin 4) (s : State) : PinKeeps j s s := ⟨rfl, rfl, rfl, rfl, rfl, rfl⟩

theorem PinKeeps.trans {t u : State} (h : PinKeeps j s t) (g : PinKeeps j t u) : PinKeeps j s u :=
  ⟨g.regs.trans h.regs, g.tim.trans h.tim, g.cfg.trans h.cfg, g.pulse.trans h.pulse, g.hold.trans h.hold, g.level.trans h.level⟩

theorem PinKeeps.outActive {t : State} (h : PinKeeps j s t) : t.outActive j = s.outActive j := by
  unfold State.outActive State.outCfg
  rw [h.level, h.cfg]

/-- An item of a vector of the four pins stays when another is replaced. -/
theorem pin_set_ne {α : Type} (v : Vector α 4) {k j : Fin 4} (h : k ≠ j) (x : α) : (v.set k x)[j] = v[j] :=
  Vector.getElem_set_ne _ _ fun e => h (Fin.ext e)

theorem pinKeeps_driveOut {k : Fin 4} (h : k ≠ j) (on : Bool) (s : State) : PinKeeps j s (driveOut k on s) :=
  ⟨rfl, rfl, rfl, rfl, rfl, pin_set_ne _ h _⟩

theorem pinKeeps_refreshOut {k : Fin 4} (h : k ≠ j) (s : State) : PinKeeps j s (refreshOut k s) := by
  have hfree : PinKeeps j s { s with tbus.outHold := s.tbus.outHold.set k none } := ⟨rfl, rfl, rfl, rfl, pin_set_ne _ h _, rfl⟩
  unfold refreshOut
  split
  · exact .refl j s
  · dsimp only
    split
    · exact hfree.trans (pinKeeps_driveOut h _ _)
    · exact hfree.trans (pinKeeps_driveOut h _ _)

theorem pinKeeps_takeOutCfg {k : Fin 4} (h : k ≠ j) (s : State) : PinKeeps j s (takeOutCfg k s) := by
  unfold takeOutCfg
  dsimp only
  split
  · exact .refl j s
  · refine PinKeeps.trans ?_ (pinKeeps_driveOut h false _)
    exact ⟨rfl, rfl, pin_set_ne _ h _, pin_set_ne _ h _, pin_set_ne _ h _, rfl⟩

/-- Pin `j` stands under the configuration word `w`, inactive and held from time `r`, without a pulse. -/
structure PinHeld (j : Fin 4) (w r : Nat) (t : State) : Prop where
  cfg : t.tbus.outCfg[j] = w
  inactive : t.outActive j = false
  hold : t.tbus.outHold[j] = some r
  pulse : t.tbus.outEnd[j] = none

theorem PinHeld.keeps {w r : Nat} {t u : State} (h : PinHeld j w r t) (g : PinKeeps j t u) : PinHeld j w r u :=
  ⟨g.cfg.trans h.cfg, g.outActive.trans h.inactive, g.hold.trans h.hold, g.pulse.trans h.pulse⟩

/-- A changed configuration of an active pin makes it inactive first. -/
theorem takeOutCfg_holds (hnew : s.rdw .trigbus (0x200 + 8 * j.val) ≠ s.tbus.outCfg[j]) (hactive : s.outActive j = true) :
    PinHeld j (s.rdw .trigbus (0x200 + 8 * j.val)) s.tim.raw (takeOutCfg j s) ∧ (takeOutCfg j s).regs = s.regs ∧
      (takeOutCfg j s).tim = s.tim := by
  unfold takeOutCfg
  dsimp only
  rw [if_neg hnew, hactive]
  refine ⟨⟨Vector.getElem_set_self _, ?_, Vector.getElem_set_self _, Vector.getElem_set_self _⟩, rfl, rfl⟩
  unfold State.outActive
  rw [driveOut_pin]
  exact (congrArg (fun b => bne b _) (Bool.false_bne _)).trans (bne_self_eq_false _)

/-- A pin held inactive in this tick stays as it is. -/
theorem refreshOut_held {t : State} (h : t.tbus.outHold[j] = some t.tim.raw) : refreshOut j t = t := by
  refine if_pos ?_
  unfold State.outHeld
  rw [h]
  exact decide_eq_true (Nat.lt_add_of_pos_right (by decide))

/-- A loop that passes once over `j`: its pass turns `P` into `Q`, and the passes over the others keep both. -/
theorem each_once {β : Type} {P Q : State → Prop} {g : β → Op} {j : β} (hbefore : ∀ x ≠ j, ∀ s, P s → P (g x s))
    (hpass : ∀ s, P s → Q (g j s)) (hafter : ∀ x ≠ j, ∀ s, Q s → Q (g x s)) :
    ∀ {l : List β}, l.Nodup → j ∈ l → ∀ s, P s → Q (s.each l g)
  | x :: l, hl, hj, s, hs => by
    obtain ⟨hx, hl⟩ := List.nodup_cons.1 hl
    obtain rfl | hj := List.mem_cons.1 hj
    · exact each_preserves (fun y hy u hu => hafter y (fun e => hx (e ▸ hy)) u hu) _ (hpass s hs)
    · exact each_once hbefore hpass hafter hl hj _ (hbefore x (fun e => hx (e ▸ hj)) s hs)

theorem tickOuts_holds (hrun : s.timeRuns = true) (hnew : s.rdw .trigbus (0x200 + 8 * j.val) ≠ s.tbus.outCfg[j])
    (hactive : s.outActive j = true) :
    (tickOuts s).tbus.outCfg[j] = s.rdw .trigbus (0x200 + 8 * j.val) ∧ (tickOuts s).outActive j = false ∧
      (tickOuts s).tbus.outHold[j] = some s.tim.raw ∧ (tickOuts s).tbus.outEnd[j] = none ∧ (tickOuts s).regs = s.regs := by
  have hothers : ∀ k ≠ j, ∀ u, PinKeeps j u (refreshOut k (takeOutCfg k u)) := fun k hk u =>
    (pinKeeps_takeOutCfg hk u).trans (pinKeeps_refreshOut hk _)
  have hword : ∀ u : State, u.regs = s.regs → u.rdw .trigbus (0x200 + 8 * j.val) = s.rdw .trigbus (0x200 + 8 * j.val) := fun u h =>
    congrArg (fun m => (SMap.get resetWord m (Blk.trigbus.base + (0x200 + 8 * j.val))).toNat) h
  have hpass : ∀ u, PinKeeps j s u → PinHeld j (s.rdw .trigbus (0x200 + 8 * j.val)) s.tim.raw (refreshOut j (takeOutCfg j u)) ∧
      (refreshOut j (takeOutCfg j u)).regs = s.regs := fun u hu => by
    obtain ⟨hheld, hregs, htim⟩ := takeOutCfg_holds (s := u) (j := j) (by rwa [hword u hu.regs, hu.cfg]) (hu.outActive.trans hactive)
    rw [hword u hu.regs, hu.tim] at hheld
    rw [refreshOut_held (hheld.hold.trans (by rw [htim, hu.tim]))]
    exact ⟨hheld, hregs.trans hu.regs⟩
  have hop : tickOuts s = s.each (List.finRange 4) (fun k u => refreshOut k (takeOutCfg k u)) := if_neg (by rw [hrun]; decide)
  rw [hop]
  obtain ⟨⟨hcfg, hinactive, hhold, hpulse⟩, hregs⟩ := each_once (P := PinKeeps j s)
    (Q := fun u => PinHeld j (s.rdw .trigbus (0x200 + 8 * j.val)) s.tim.raw u ∧ u.regs = s.regs)
    (fun k hk u hu => hu.trans (hothers k hk u)) hpass
    (fun k hk u hu => ⟨hu.1.keeps (hothers k hk u), (hothers k hk u).regs.trans hu.2⟩) (List.nodup_finRange 4) (List.mem_finRange j) s (.refl j s)
  exact ⟨hcfg, hinactive, hhold, hpulse, hregs⟩

end OutCfg
end Sys2Proof.Proofs

namespace Sys2Proof.Proofs
open Sys2Proof Sys2Proof.Machine Sys2Proof.Laws

/-! ### TRIG_IN (R133) -/

/-- The registers of some trigger unit. -/
def InTrig (a : Nat) : Prop := ∃ i : Fin 17, InSlot (.trig i) a

theorem slot_trigbus_ne_trig (i : Fin 17) : Blk.trigbus.slot ≠ (Blk.trig i).slot := by
  change 0x005 ≠ 0x082 + 4 * i.val
  omega

theorem not_inTrig_trigbus {o : Nat} (h : o < 0x10000) : ¬ InTrig (Blk.trigbus.base + o) := fun ⟨i, hi⟩ =>
  slot_trigbus_ne_trig i ((inSlot_base .trigbus h).symm.trans hi)

section TrigIn
variable {s u : State} {j : Fin 4} {k : Nat}

theorem trigStep_pushReport (i : Fin 17) (r : Report) (s : State) : TrigStep (InSlot (.trig i)) s (pushReport i r s) := by
  have hplaces : ∀ (late done : Bool) (x y : TrigSt),
      TrigStep (InSlot (.trig i)) s (if late then lateEvent i r s else if done then s.setTrig i x else s.setTrig i y) := by
    intro late done x y
    split
    · exact trigStep_lateEvent i r s
    · split
      · exact (TrigStep.refl _ s).setTrig i x
      · exact (TrigStep.refl _ s).setTrig i y
  exact hplaces _ _ _ _

theorem trigStep_pushAll (cnd : Nat) (r : Report) (s : State) : TrigStep InTrig s (pushAll cnd r s) := by
  refine .each _ _ (fun i _ u => ?_) s
  split
  · exact (trigStep_pushReport i r u).mono fun _ h => ⟨i, h⟩
  · exact .refl _ u

/-- The counter of TRIG_IN[j]. -/
def inCount (j : Fin 4) : Fld := ⟨0x180, 16 * j.val, 16⟩

theorem inCount_eq : ∀ j : Fin 4, [R.TRIG_IN_COUNT.in0, R.TRIG_IN_COUNT.in1, R.TRIG_IN_COUNT.in2, R.TRIG_IN_COUNT.in3][j] = inCount j := by
  decide

/-- TRIG_IN[j] with an edge counted and its time noted. -/
def edgeNoted (j : Fin 4) (k : Nat) (s : State) : State :=
  let u := s.cnt .trigbus (inCount j) 1
  { u with tbus.inLast := u.tbus.inLast.set j (some (u.edgeRaw (inInterp j) k)) }

/-- An edge is counted and noted; one that does not merge shows its time and goes to the slices that reference it. -/
theorem inEvent_cases (j : Fin 4) (k : Nat) (s : State) : inEvent j k s = edgeNoted j k s ∨
    ∃ r t, inEvent j k s = pushAll (8 + j.val) r ((edgeNoted j k s).wrT96 .trigbus ⟨0x140 + 0x10 * j.val, 0, 64⟩ t) := by
  obtain ⟨e, he⟩ : ∃ e, inEvent j k s = e := ⟨_, rfl⟩
  have hcounter : ∀ j : Fin 4, (match j with
      | 0 => R.TRIG_IN_COUNT.in0
      | 1 => R.TRIG_IN_COUNT.in1
      | 2 => R.TRIG_IN_COUNT.in2
      | _ => R.TRIG_IN_COUNT.in3) = inCount j := by decide
  have hevent := he
  unfold inEvent at he
  extract_lets f counted merged src noted interp time place shown cal at he
  have hf : f = inCount j := hcounter j
  have hnoted : noted = edgeNoted j k s := by
    simp only [noted, counted, hf]
    rfl
  rw [hevent]
  by_cases hm : merged = true
  · rw [if_pos hm] at he
    exact .inl (he.symm.trans hnoted)
  · rw [if_neg hm] at he
    exact .inr ⟨_, _, he.symm.trans (by simp only [shown, hnoted]; rfl)⟩

/-- What an event leaves: the edge noted, every other part of TRIG_IN and the memories as they were. -/
theorem inEvent_leaves (j : Fin 4) (k : Nat) (s : State) : (inEvent j k s).tbus = (edgeNoted j k s).tbus ∧
    (inEvent j k s).mem = (edgeNoted j k s).mem ∧
    (inEvent j k s).rd .trigbus (inCount j) = (edgeNoted j k s).rd .trigbus (inCount j) := by
  obtain h | ⟨r, t, h⟩ := inEvent_cases j k s
  · rw [h]
    exact ⟨rfl, rfl, rfl⟩
  · rw [h]
    generalize edgeNoted j k s = u
    have hpush := trigStep_pushAll (8 + j.val) r (u.wrT96 .trigbus ⟨0x140 + 0x10 * j.val, 0, 64⟩ t)
    have hoff : (inCount j).off = 0x180 := rfl
    refine ⟨hpush.tbus, hpush.mem, (hpush.rd (not_inTrig_trigbus (by omega))).trans (rd_wrT96_keep _ _ _ _ _ ?_ ?_)⟩
    · change 0x180 ≠ 0x140 + 0x10 * j.val
      omega
    · change 0x180 ≠ 0x140 + 0x10 * j.val + 8
      omega

theorem edgeNoted_count : (edgeNoted j k s).rd .trigbus (inCount j) = min (s.rd .trigbus (inCount j) + 1) (inCount j).top :=
  rd_cnt_val s _ _ _ (by change 16 * j.val + 16 ≤ 64; omega)

/-- The level that an edge leaves on TRIG_IN[j]. -/
def levelTaken (j : Fin 4) (falling : Bool) (s : State) : State := { s with tbus.inLevel := s.tbus.inLevel.set j (!falling) }

theorem levelTaken_level (falling : Bool) : (levelTaken j falling s).tbus.inLevel[j] = !falling := Vector.getElem_set_self _

/-- What an edge does: the level changes; while TIME runs the TRIG_OUT pins follow, and it may become an event. -/
theorem opTrigInEdge_eq (falling : Bool) : opTrigInEdge j falling k s =
    let u := levelTaken j falling s
    if !s.timeRuns then u else
    let hit := s.flag .trigbus (R.TRIG_IN_CFG.edge j) == falling
    let v := (refreshOuts u).when hit (outOccurs 4 0 j.val)
    v.when (hit && v.flag .trigbus (R.TRIG_IN_CFG.enable j)) (inEvent j k) := rfl

/-- An edge of the configured polarity on an enabled pin drives the TRIG_OUT pins that follow it, and becomes an event. -/
theorem opTrigInEdge_event {falling : Bool} (hrun : s.timeRuns = true) (hedge : s.flag .trigbus (R.TRIG_IN_CFG.edge j) = falling)
    (hen : s.flag .trigbus (R.TRIG_IN_CFG.enable j) = true) :
    ∃ u, OutStep (levelTaken j falling s) u ∧ opTrigInEdge j falling k s = inEvent j k u := by
  have hout : OutStep (levelTaken j falling s) (outOccurs 4 0 j.val (refreshOuts (levelTaken j falling s))) :=
    (outStep_refreshOuts _).trans (outStep_outOccurs 4 0 j.val _)
  have hen' : (outOccurs 4 0 j.val (refreshOuts (levelTaken j falling s))).flag .trigbus (R.TRIG_IN_CFG.enable j) = true :=
    (congrArg (fun n => decide (n ≠ 0)) (rd_of_regs hout.regs _ _)).trans hen
  refine ⟨_, hout, ?_⟩
  rw [opTrigInEdge_eq]
  dsimp only
  rw [hrun, hedge, beq_self_eq_true, when_true, hen', Bool.and_self, when_true]
  exact if_neg Bool.false_ne_true

theorem edgeRaw_of_tim {t : State} (h : t.tim = s.tim) (n : Fin 8) (k : Nat) : t.edgeRaw n k = s.edgeRaw n k := by
  unfold State.edgeRaw State.edgeTime
  rw [h]

theorem trigInEdge_counts (falling : Bool) (k : Fin 512) (hrun : s.timeRuns = true)
    (hedge : s.flag .trigbus (R.TRIG_IN_CFG.edge j) = falling) (hen : s.flag .trigbus (R.TRIG_IN_CFG.enable j) = true) :
    Completes (.trigInEdge j falling k) s (fun t =>
      t.tbus.inLevel[j] = !falling ∧ t.tbus.inLast[j] = some (s.edgeRaw (inInterp j) k) ∧
      (let f := [R.TRIG_IN_COUNT.in0, R.TRIG_IN_COUNT.in1, R.TRIG_IN_COUNT.in2, R.TRIG_IN_COUNT.in3][j];
       t.rd .trigbus f = min (s.rd .trigbus f + 1) f.top) ∧ t.mem = s.mem) := by
  obtain ⟨u, hout, hop⟩ := opTrigInEdge_event (k := k) hrun hedge hen
  obtain ⟨htbus, hmem, hcount⟩ := inEvent_leaves j k u
  have hcnt : OnlyRegs u (u.cnt .trigbus (inCount j) 1) := onlyRegs_cnt _ _ _ _
  refine ⟨_, congrArg Host.Outcome.next hop, ?_, ?_, ?_, ?_⟩
  · rw [htbus]
    change (u.cnt .trigbus (inCount j) 1).tbus.inLevel[j] = _
    rw [show (u.cnt .trigbus (inCount j) 1).tbus = u.tbus by rw [hcnt], hout.inLevel]
    exact levelTaken_level falling
  · rw [htbus]
    refine (Vector.getElem_set_self _).trans (congrArg some (edgeRaw_of_tim ?_ _ _))
    rw [hcnt]
    exact hout.tim
  · rw [inCount_eq]
    dsimp only
    rw [hcount, edgeNoted_count, rd_of_regs hout.regs]
    rfl
  · exact hmem.trans ((onlyRegs_mem hcnt).trans hout.mem)

/-- While TIME does not run, an edge moves the level alone. -/
theorem trigInEdge_stopped (falling : Bool) (k : Fin 512) (hrun : s.timeRuns = false) : Completes (.trigInEdge j falling k) s (fun t =>
    t.tbus.inLevel[j] = !falling ∧ t.regs = s.regs ∧ t.trigs = s.trigs) := by
  have hop : opTrigInEdge j falling k s = levelTaken j falling s :=
    (opTrigInEdge_eq falling).trans (if_pos (by rw [hrun]; rfl))
  exact ⟨_, congrArg Host.Outcome.next hop, levelTaken_level falling, rfl, rfl⟩

end TrigIn
end Sys2Proof.Proofs

namespace Sys2Proof.Proofs
open Sys2Proof Sys2Proof.Machine Sys2Proof.Laws

/-! ### SYNC pulses (R148) -/

section Sync
variable {s : State}

/-- No SYNC pulse has come at the expected cycle. -/
def syncLost (s : State) : State := { s with tbus.syncAt := none, tbus.good := 0 }

/-- A SYNC pulse has come now, the `n`-th at the expected cycle. -/
def syncNoted (n : Nat) (s : State) : State := { s with tbus.syncAt := some s.tim.raw, tbus.good := n }

/-- The device is locked, and the cycle now, of length `cyc`, has number 0. -/
def syncLocked (cyc : Nat) (s : State) : State :=
  let u := s.wr .trigbus R.TBUS_STATUS.phase (s.tim.raw / tickUnits % (cyc / tickUnits))
  { u.wr .trigbus R.TBUS_STATUS.sync_locked 1 with tbus.zeroAt := s.tim.raw }

/-- A SYNC pulse now comes at the cycle where it is expected after the last one. -/
def syncGood (s : State) : Bool :=
  match s.tbus.syncAt with
  | some r => decide (r + 65536 * s.busCycle < s.tim.raw + s.busCycle) && decide (s.tim.raw < r + 65536 * s.busCycle + s.busCycle)
  | none => false

theorem opTbusSync_eq (s : State) : opTbusSync s = if !(s.enabled .trigbus && s.timeRuns) then s else
    let u := s.when (s.flag .trigbus R.TBUS_STATUS.sync_locked && !syncGood s) tbusUnlock
    let n := if syncGood s then min 2 (u.tbus.good + 1) else 0
    if n = 2 ∧ (syncNoted n u).flag .trigbus R.TBUS_STATUS.sync_locked = false then syncLocked s.busCycle (syncNoted n u)
    else syncNoted n u := rfl

theorem busCycle_pos (s : State) : 0 < s.busCycle := by
  unfold State.busCycle
  split
  · decide
  · decide

theorem syncGood_expected {r : Nat} (hsync : s.tbus.syncAt = some r) (hraw : s.tim.raw = r + 65536 * s.busCycle) : syncGood s = true := by
  have hpos := busCycle_pos s
  unfold syncGood
  rw [hsync, hraw]
  simp only [Bool.and_eq_true, decide_eq_true_eq]
  omega

theorem syncGood_first (hsync : s.tbus.syncAt = none) : syncGood s = false := by
  unfold syncGood
  rw [hsync]

/-- What a pulse does to a device that is not locked. -/
theorem opTbusSync_unlocked (hen : s.enabled .trigbus = true) (hrun : s.timeRuns = true)
    (hlock : s.flag .trigbus R.TBUS_STATUS.sync_locked = false) : opTbusSync s =
      let n := if syncGood s then min 2 (s.tbus.good + 1) else 0
      if n = 2 then syncLocked s.busCycle (syncNoted n s) else syncNoted n s := by
  have hflag : ∀ n, (syncNoted n s).flag .trigbus R.TBUS_STATUS.sync_locked = false := fun _ => hlock
  rw [opTbusSync_eq, hen, hrun, hlock]
  simp only [Bool.false_and, when_false, hflag, and_true]
  exact if_neg Bool.false_ne_true

theorem syncLocked_shown (cyc : Nat) (s : State) : (syncLocked cyc s).rd .trigbus R.TBUS_STATUS.sync_locked = 1 :=
  rd_wr_val (s.wr .trigbus R.TBUS_STATUS.phase _) .trigbus R.TBUS_STATUS.sync_locked 1 (by decide)

theorem syncLocked_outside (cyc : Nat) (s : State) : SameOutside .trigbus s (syncLocked cyc s) := by
  have hout : ∀ phase, SameOutside .trigbus s ((s.wr .trigbus R.TBUS_STATUS.phase phase).wr .trigbus R.TBUS_STATUS.sync_locked 1) :=
    fun phase => ((writesOnly_wr s phase (inSlot_base .trigbus (by decide))).wr 1 (inSlot_base .trigbus (by decide))).sameOutside
      fun _ h => h
  exact hout _

/-- A pulse at the expected cycle after another one there locks the device (log 19). -/
theorem tbusSync_locks (r : Nat) (hen : s.enabled .trigbus = true) (hrun : s.timeRuns = true)
    (hlock : s.flag .trigbus R.TBUS_STATUS.sync_locked = false) (hsync : s.tbus.syncAt = some r)
    (hraw : s.tim.raw = r + 65536 * s.busCycle) (hgood : 1 ≤ s.tbus.good) : Completes .tbusSync s (fun t =>
      t.rd .trigbus R.TBUS_STATUS.sync_locked = 1 ∧ t.tbus.syncAt = some s.tim.raw ∧ t.tbus.zeroAt = s.tim.raw ∧
      SameOutside .trigbus s t) := by
  have hn : min 2 (s.tbus.good + 1) = 2 := by omega
  have hop : opTbusSync s = syncLocked s.busCycle (syncNoted 2 s) := by
    rw [opTbusSync_unlocked hen hrun hlock, syncGood_expected hsync hraw]
    dsimp only
    rw [if_pos rfl, hn, if_pos rfl]
  exact ⟨_, congrArg Host.Outcome.next hop, syncLocked_shown _ _, rfl, rfl, syncLocked_outside _ (syncNoted 2 s)⟩

theorem tbusSync_first (hen : s.enabled .trigbus = true) (hrun : s.timeRuns = true)
    (hlock : s.flag .trigbus R.TBUS_STATUS.sync_locked = false) (hsync : s.tbus.syncAt = none) : Completes .tbusSync s (fun t =>
      t.rd .trigbus R.TBUS_STATUS.sync_locked = 0 ∧ t.tbus.syncAt = some s.tim.raw ∧ t.tbus.good = 0 ∧ t.regs = s.regs) := by
  have hop : opTbusSync s = syncNoted 0 s := by
    rw [opTbusSync_unlocked hen hrun hlock, syncGood_first hsync]
    rfl
  exact ⟨_, congrArg Host.Outcome.next hop, not_not.1 (of_decide_eq_false hlock), rfl, rfl, rfl⟩

theorem syncDrive_drives (hen : s.enabled .trigbus = true) (hrun : s.timeRuns = true)
    (hmaster : s.flag .trigbus R.TBUS_CFG.master = true) : Completes .syncDrive s (fun t =>
      t.pins.tbusSync = true ∧ t.tbus.drivenAt = s.tim.raw ∧ t.regs = s.regs ∧ t.mem = s.mem) :=
  ⟨_, congrArg Host.Outcome.next (if_pos (by rw [hen, hrun, hmaster]; rfl)), rfl, rfl, rfl, rfl⟩

end Sync

/-! ### tbus_out (R18, R152) -/

section BusOut
variable {s t : State}

theorem writesOnly_showTbusOut (s : State) : WritesOnly (InSlot .global) s (showTbusOut s) :=
  (writesOnly_wr s _ (inSlot_base _ (by decide))).wr _ (inSlot_base _ (by decide))

/-- A field of a block other than GLOBAL. -/
theorem rd_of_global (h : WritesOnly (InSlot .global) s t) {b : Blk} (hb : b.slot ≠ Blk.global.slot) {f : Fld} (hf : f.off < 0x10000) :
    t.rd b f = s.rd b f := h.rd fun hw => hb ((inSlot_base b hf).symm.trans hw)

theorem tbusUp_of_global (h : WritesOnly (InSlot .global) s t) : t.tbusUp = s.tbusUp := by
  have hbus : ∀ f : Fld, f.off < 0x10000 → t.rd .trigbus f = s.rd .trigbus f := fun f => rd_of_global h (by decide)
  have htim : t.tim = s.tim := by
    have honly := h.only
    unfold OnlyRegs at honly
    rw [honly]
  unfold State.tbusUp State.enabled State.timeRuns State.timeGated State.flag
  rw [hbus _ (by decide), hbus _ (by decide), hbus _ (by decide), rd_of_global h (b := .timebase) (by decide) (by decide), htim]

theorem discardOut_empty (hout : s.tbus.out = []) : discardOut s = showTbusOut { s with tbus.out := [] } := by
  unfold discardOut
  rw [hout]
  rfl

theorem dropDriven_none (hdriving : s.tbus.driving = []) : dropDriven s =
    { s with tbus.driving := [], pins.tbusDrive := 0, pins.tbusNak := 0 } := by
  unfold dropDriven
  rw [hdriving]
  rfl

/-- The device is not locked, and no cycle is under way. -/
def unlockShown (s : State) : State := (s.wr .trigbus R.TBUS_STATUS.sync_locked 0).wr .trigbus R.TBUS_STATUS.cycle 0

theorem unlockShown_shown (s : State) : (unlockShown s).rd .trigbus R.TBUS_STATUS.sync_locked = 0 ∧
    (unlockShown s).rd .trigbus R.TBUS_STATUS.cycle = 0 := by
  unfold unlockShown
  simp (disch := decide) only [rd_wr_keep, rd_wr_val]
  exact ⟨rfl, rfl⟩

/-- Where nothing waits and nothing is driven, unlocking discards nothing. -/
theorem tbusUnlock_idle (hout : s.tbus.out = []) (hdriving : s.tbus.driving = []) : tbusUnlock s =
    let u := showTbusOut { syncLost (unlockShown s) with tbus.out := [] }
    { u with tbus.driving := [], pins.tbusDrive := 0, pins.tbusNak := 0 } := by
  have hwait : tbusUnlock s = dropDriven (discardOut (syncLost (unlockShown s))) := rfl
  rw [hwait, discardOut_empty (s := syncLost (unlockShown s)) hout,
    dropDriven_none (s := showTbusOut { syncLost (unlockShown s) with tbus.out := [] }) hdriving]

/-- A locked device that misses a pulse, with nothing waiting and nothing driven, is not locked. -/
theorem syncMissing_unlocks (hen : s.enabled .trigbus = true) (hrun : s.timeRuns = true)
    (hlock : s.flag .trigbus R.TBUS_STATUS.sync_locked = true) (hout : s.tbus.out = []) (hdriving : s.tbus.driving = []) :
    Completes .syncPulseMissing s (fun t => t.rd .trigbus R.TBUS_STATUS.sync_locked = 0 ∧ t.rd .trigbus R.TBUS_STATUS.cycle = 0 ∧
      t.tbus.syncAt = none ∧ t.tbus.good = 0) := by
  have hop : opSyncPulseMissing s = tbusUnlock s := by
    unfold opSyncPulseMissing
    rw [hen, hrun, if_neg (by decide), if_pos hlock]
  rw [tbusUnlock_idle hout hdriving] at hop
  have hshow := writesOnly_showTbusOut { syncLost (unlockShown s) with tbus.out := [] }
  obtain ⟨hlocked, hcycle⟩ := unlockShown_shown s
  exact ⟨_, congrArg Host.Outcome.next hop, (rd_of_global hshow (by decide) (by decide)).trans hlocked,
    (rd_of_global hshow (by decide) (by decide)).trans hcycle, rfl, rfl⟩

/-- A bit of a vector of eight lines. -/
theorem line_set (x : BitVec 8) (l : Fin 8) : (x ||| BitVec.ofNat 8 (2 ^ l.val)).getLsbD l = true := by
  rw [BitVec.getLsbD_or, BitVec.getLsbD_ofNat, Nat.testBit_two_pow_self, decide_eq_true l.isLt]
  exact Bool.or_true _

theorem line_cleared (x : BitVec 8) (l : Fin 8) : ((x &&& ~~~ BitVec.ofNat 8 (2 ^ l.val)) ||| 0).getLsbD l = false := by
  rw [BitVec.getLsbD_or, BitVec.getLsbD_and, BitVec.getLsbD_not, BitVec.getLsbD_ofNat, Nat.testBit_two_pow_self, decide_eq_true l.isLt]
  simp

/-- A counter of 16 bits stops at 65535. -/
theorem top_16 {f : Fld} (h : f.width = 16) : f.top = 65535 := by
  unfold Fld.top
  rw [h]
  rfl

/-- Request `e` is counted and driven on line `l`. -/
def requestDriven (l : Fin 8) (e : Nat × List Nat) (s : State) : State :=
  let u := s.cnt .trigbus (R.TBUS_COUNT.requests_sent l) 1
  { u with pins.tbusDrive := u.pins.tbusDrive ||| BitVec.ofNat 8 (2 ^ l.val), tbus.driving := u.tbus.driving ++ [e] }

theorem requestDriven_leaves (l : Fin 8) (e : Nat × List Nat) (s : State) :
    (requestDriven l e s).tbus.driving = s.tbus.driving ++ [e] ∧ (requestDriven l e s).tbus.out = s.tbus.out ∧
      (requestDriven l e s).mem = s.mem := by
  have hcnt : OnlyRegs s (s.cnt .trigbus (R.TBUS_COUNT.requests_sent l) 1) := onlyRegs_cnt _ _ _ _
  unfold requestDriven
  dsimp only
  rw [hcnt]
  exact ⟨rfl, rfl, rfl⟩

theorem requestDriven_count (l : Fin 8) (e : Nat × List Nat) (s : State) :
    (requestDriven l e s).rd .trigbus (R.TBUS_COUNT.requests_sent l) = min (s.rd .trigbus (R.TBUS_COUNT.requests_sent l) + 1) 65535 := by
  have hcount := rd_cnt_val s .trigbus (R.TBUS_COUNT.requests_sent l) 1 (show 16 ≤ 64 by decide)
  rw [top_16 rfl] at hcount
  exact (rd_of_regs (s := s.cnt .trigbus (R.TBUS_COUNT.requests_sent l) 1) rfl _ _).trans hcount

/-- The first request that waits leaves tbus_out and is driven on its line. -/
theorem opTbusRequest_first (l : Fin 8) (rq : List Nat) (es : List (Nat × List Nat)) (hout : s.tbus.out = (l.val, rq) :: es)
    (hup : s.tbusUp = true) (hq : s.flag .trigbus R.BLOCK_STATUS.quiescing = false)
    (hline : nbit (s.rd .trigbus R.TBUS_CFG.line_enable) l = true) :
    opTbusRequest l s = requestDriven l (l.val, rq) (showTbusOut { s with tbus.out := es.filter (fun e => e.1 ≠ l.val) }) := by
  have hshow := writesOnly_showTbusOut { s with tbus.out := es.filter (fun e => e.1 ≠ l.val) }
  have hup' : (showTbusOut { s with tbus.out := es.filter (fun e => e.1 ≠ l.val) }).tbusUp = true := (tbusUp_of_global hshow).trans hup
  have hline' : nbit ((showTbusOut { s with tbus.out := es.filter (fun e => e.1 ≠ l.val) }).rd .trigbus R.TBUS_CFG.line_enable) l = true :=
    (congrArg (nbit · l) (rd_of_global hshow (by decide) (by decide))).trans hline
  have hfind : s.tbus.out.find? (fun e => e.1 = l.val) = some (l.val, rq) := by
    rw [hout]
    exact List.find?_cons_of_pos (by simp)
  have hfilter : s.tbus.out.filter (fun e => e.1 ≠ l.val) = es.filter (fun e => e.1 ≠ l.val) := by
    rw [hout]
    exact List.filter_cons_of_neg (by simp)
  unfold opTbusRequest
  rw [hfind]
  dsimp only
  rw [hq, if_neg Bool.false_ne_true, hfilter]
  exact if_neg (by rw [hup', hline']; decide)

theorem tbusRequest_drives (l : Fin 8) (rq : List Nat) (es : List (Nat × List Nat)) (hout : s.tbus.out = (l.val, rq) :: es)
    (hup : s.tbusUp = true) (hq : s.flag .trigbus R.BLOCK_STATUS.quiescing = false)
    (hline : nbit (s.rd .trigbus R.TBUS_CFG.line_enable) l = true) : Completes (.tbusRequest l) s (fun t =>
      t.pins.tbusDrive.getLsbD l = true ∧ t.tbus.driving = s.tbus.driving ++ [(l.val, rq)] ∧
      t.tbus.out = es.filter (fun e => e.1 ≠ l.val) ∧
      t.rd .trigbus (R.TBUS_COUNT.requests_sent l) = min (s.rd .trigbus (R.TBUS_COUNT.requests_sent l) + 1) 65535 ∧ t.mem = s.mem) := by
  let v : State := { s with tbus.out := es.filter (fun e => e.1 ≠ l.val) }
  have hshow := writesOnly_showTbusOut v
  have hoff : (R.TBUS_COUNT.requests_sent l).off = 0xc0 + 0x8 * l.val := rfl
  have hkeep : (showTbusOut v).rd .trigbus (R.TBUS_COUNT.requests_sent l) = s.rd .trigbus (R.TBUS_COUNT.requests_sent l) :=
    (rd_of_global hshow (by decide) (by omega)).trans (rd_of_regs (s := s) (t := v) rfl _ _)
  obtain ⟨hdriving, hwaits, hmem⟩ := requestDriven_leaves l (l.val, rq) (showTbusOut v)
  refine ⟨_, congrArg Host.Outcome.next (opTbusRequest_first l rq es hout hup hq hline), line_set _ l, hdriving, hwaits, ?_,
    hmem.trans (onlyRegs_mem (s := v) hshow.only)⟩
  rw [← hkeep]
  exact requestDriven_count l _ _

end BusOut
end Sys2Proof.Proofs

namespace Sys2Proof.Proofs
open Sys2Proof Sys2Proof.Machine Sys2Proof.Laws

/-! ### Requests latched (R149 to R153) -/

section Latch
variable {s t : State}

/-- The counters and TBUS_STATUS show a request on line `l` and whether it was refused. -/
def latchShown (l : Fin 8) (refused : Bool) (s : State) : State :=
  let u := (s.cnt .trigbus (R.TBUS_COUNT.requests_seen l) 1).cnt .trigbus (R.TBUS_COUNT.naks_seen l) (bit refused)
  u.wr .trigbus R.TBUS_STATUS.nak_last (putBits (u.rd .trigbus R.TBUS_STATUS.nak_last) l.val l.val (bit refused))

/-- Line `l` is released, and its answer line is driven if the device itself refuses. -/
def lineAnswered (l : Fin 8) (own : Bool) (s : State) : State :=
  let u := releaseNak s
  { u with
    tbus.driving := u.tbus.driving.filter (fun e => e.1 ≠ l.val)
    tbus.nakEnd := u.tim.raw - (s.tim.raw - s.tbus.zeroAt) % s.busCycle + u.busCycle
    pins.tbusDrive := u.pins.tbusDrive &&& ~~~ BitVec.ofNat 8 (2 ^ l.val)
    pins.tbusNak := (u.pins.tbusNak &&& ~~~ BitVec.ofNat 8 (2 ^ l.val)) ||| (if own then BitVec.ofNat 8 (2 ^ l.val) else 0) }

/-- tbus_in takes a request. -/
def requestQueued (q : BusIn) (s : State) : State :=
  let u := { s with tbus.inq := s.tbus.inq ++ [q] }
  let u := u.wr .global R.TBUS_IN_FERRY.level u.tbus.inq.length
  u.wr .global R.TBUS_IN_FERRY.high_water (max (s.tbus.inq ++ [q]).length (u.rd .global R.TBUS_IN_FERRY.high_water))

theorem writesOnly_latchShown (l : Fin 8) (refused : Bool) (s : State) : WritesOnly (InSlot .trigbus) s (latchShown l refused s) := by
  have hseen : (R.TBUS_COUNT.requests_seen l).off = 0xc0 + 0x8 * l.val := rfl
  have hnaks : (R.TBUS_COUNT.naks_seen l).off = 0xc0 + 0x8 * l.val := rfl
  exact (((WritesOnly.refl _ s).cnt 1 (inSlot_base _ (by omega))).cnt _ (inSlot_base _ (by omega))).wr _ (inSlot_base _ (by decide))

/-- Setting bit `l` of a number. -/
theorem putBits_one (x : Nat) (l : Fin 8) : nbit (putBits x l.val l.val 1 % 2 ^ 8) l.val = true := by
  have hwidth : l.val + 1 - l.val = 1 := by omega
  have hput : putBits x l.val l.val 1 = x - x / 2 ^ l.val % 2 * 2 ^ l.val + 2 ^ l.val := by
    unfold putBits nbits
    rw [hwidth, pow_one, Nat.one_mod, one_mul]
  have hset : putBits x l.val l.val 1 / 2 ^ l.val % 2 = 1 := by
    have hpos : 0 < 2 ^ l.val := Nat.two_pow_pos _
    rw [hput, Nat.add_div_right _ hpos, Nat.mul_comm, Nat.sub_mul_div]
    omega
  rw [nbit_eq_testBit, Nat.testBit_mod_two_pow, decide_eq_true l.isLt, Bool.true_and, ← nbit_eq_testBit]
  exact decide_eq_true hset

theorem latchShown_shown (l : Fin 8) (s : State) :
    (latchShown l true s).rd .trigbus (R.TBUS_COUNT.requests_seen l) = min (s.rd .trigbus (R.TBUS_COUNT.requests_seen l) + 1) 65535 ∧
    (latchShown l true s).rd .trigbus (R.TBUS_COUNT.naks_seen l) = min (s.rd .trigbus (R.TBUS_COUNT.naks_seen l) + 1) 65535 ∧
    nbit ((latchShown l true s).rd .trigbus R.TBUS_STATUS.nak_last) l.val = true := by
  have hseen : (R.TBUS_COUNT.requests_seen l).off ≠ R.TBUS_STATUS.nak_last.off := show 0xc0 + 0x8 * l.val ≠ 0x48 by omega
  have hnaks : (R.TBUS_COUNT.naks_seen l).off ≠ R.TBUS_STATUS.nak_last.off := show 0xc0 + 0x8 * l.val ≠ 0x48 by omega
  unfold latchShown
  dsimp only
  refine ⟨?_, ?_, ?_⟩
  · rw [rd_wr_keep _ .trigbus R.TBUS_STATUS.nak_last _ _ (.inl hseen),
      rd_cnt_keep _ .trigbus (R.TBUS_COUNT.naks_seen l) (R.TBUS_COUNT.requests_seen l) _ (.inr (.inl (show 16 + 16 ≤ 32 by decide))),
      rd_cnt_val _ .trigbus (R.TBUS_COUNT.requests_seen l) _ (show 16 + 16 ≤ 64 by decide), top_16 rfl]
  · rw [rd_wr_keep _ .trigbus R.TBUS_STATUS.nak_last _ _ (.inl hnaks),
      rd_cnt_val _ .trigbus (R.TBUS_COUNT.naks_seen l) _ (show 32 + 16 ≤ 64 by decide),
      rd_cnt_keep _ .trigbus (R.TBUS_COUNT.requests_seen l) (R.TBUS_COUNT.naks_seen l) _ (.inr (.inr (show 16 + 16 ≤ 32 by decide))), top_16 rfl]
    rfl
  · rw [rd_wr_val _ .trigbus R.TBUS_STATUS.nak_last _ (show 32 + 8 ≤ 64 by decide)]
    exact putBits_one _ l

theorem releaseNak_eq (s : State) : releaseNak s = { s with pins.tbusNak := (releaseNak s).pins.tbusNak } := by
  unfold releaseNak
  split
  · rfl
  · rfl

theorem lineAnswered_leaves (l : Fin 8) (own : Bool) (s : State) : (lineAnswered l own s).regs = s.regs ∧
    (lineAnswered l own s).dev = s.dev ∧ (lineAnswered l own s).mem = s.mem ∧ (lineAnswered l own s).tbus.inq = s.tbus.inq := by
  unfold lineAnswered
  dsimp only
  rw [releaseNak_eq]
  exact ⟨rfl, rfl, rfl, rfl⟩

theorem lineAnswered_nak (l : Fin 8) (s : State) : (lineAnswered l false s).pins.tbusNak.getLsbD l = false := line_cleared _ l

theorem requestQueued_leaves (q : BusIn) (s : State) : (requestQueued q s).tbus.inq.length = s.tbus.inq.length + 1 ∧
    (requestQueued q s).pins = s.pins ∧ (requestQueued q s).mem = s.mem := ⟨List.length_append, rfl, rfl⟩

theorem rd_requestQueued (q : BusIn) (s : State) {f : Fld} (hf : f.off < 0x10000) :
    (requestQueued q s).rd .trigbus f = s.rd .trigbus f := by
  have hlevels : ∀ (u : State) (n : Nat), WritesOnly (InSlot .global) u
      ((u.wr .global R.TBUS_IN_FERRY.level n).wr .global R.TBUS_IN_FERRY.high_water
        (max n ((u.wr .global R.TBUS_IN_FERRY.level n).rd .global R.TBUS_IN_FERRY.high_water))) := fun u n =>
    (writesOnly_wr u n (inSlot_base _ (by decide))).wr _ (inSlot_base _ (by decide))
  exact (rd_of_global (hlevels { s with tbus.inq := s.tbus.inq ++ [q] } _) (by decide) hf).trans (rd_of_regs rfl _ _)

/-- What tbus_in takes of a request latched in state `u` on line `l`, made by the slices `rq`, once its pulses are out in state `p`. -/
def requestIn (l : Fin 8) (rq : List Nat) (u p : State) : BusIn :=
  ⟨l.val, (p.tim.now : Int) - (((u.tim.raw - u.tbus.zeroAt) % u.busCycle : Nat) : Int) - 256 * p.rdi .trigbus R.TBUS_SKEW.skew
    - 4096 * (p.rd .trigbus (R.TBUS_LINE.lead l) : Int), p.quality, p.bTb, rq⟩

theorem opBusRequestLatched_eq (l : Fin 8) (nak : Bool) (s : State) : opBusRequestLatched l nak s =
    if !(s.tbusUp && nbit (s.rd .trigbus R.TBUS_CFG.line_enable) l.val) then s else
    let rq := (s.tbus.driving.filter (fun e => e.1 = l.val)).flatMap (·.2)
    let own := s.busRefuses l.val rq
    let u := latchShown l (nak || own) s
    let p := outOccurs 3 0 l.val ((lineAnswered l own u).each rq (fun i st => busAnswer (Fin.ofNat 17 i) l.val (nak || own) st))
    let q := requestIn l rq u p
    if p.coreRuns then busEvents q (ferryPass .global R.TBUS_IN_FERRY.level R.TBUS_IN_FERRY.high_water 16 1 p)
    else if p.tbus.inq.length < 16 then requestQueued q p
    else p.cnt .global R.TBUS_IN_FERRY.discards 1 := rfl

theorem coreRuns_congr (hdev : t.dev = s.dev) (hclk : ∀ f : Fld, f.off < 0x10000 → t.rd .clocks f = s.rd .clocks f) :
    t.coreRuns = s.coreRuns := by
  unfold State.coreRuns State.pllRuns
  rw [hdev, hclk _ (by decide), hclk _ (by decide)]

/-- The state after the answer to a request that another device refuses and that no slice of this one made. -/
def latchAnswered (l : Fin 8) (s : State) : State := outOccurs 3 0 l.val (lineAnswered l false (latchShown l true s))

theorem latchAnswered_regs (l : Fin 8) (s : State) : (latchAnswered l s).regs = (latchShown l true s).regs :=
  (outStep_outOccurs 3 0 l.val _).regs.trans (lineAnswered_leaves l false _).1

theorem latchAnswered_leaves (l : Fin 8) (s : State) : (latchAnswered l s).dev = s.dev ∧ (latchAnswered l s).mem = s.mem ∧
    (latchAnswered l s).tbus.inq = s.tbus.inq := by
  have hout := outStep_outOccurs 3 0 l.val (lineAnswered l false (latchShown l true s))
  obtain ⟨-, hdev, hmem, hinq⟩ := lineAnswered_leaves l false (latchShown l true s)
  have honly := (writesOnly_latchShown l true s).only
  have hbus : (latchShown l true s).tbus = s.tbus := by
    unfold OnlyRegs at honly
    rw [honly]
  exact ⟨hout.dev.trans (hdev.trans (onlyRegs_dev honly)), hout.mem.trans (hmem.trans (onlyRegs_mem honly)),
    hout.inq.trans (hinq.trans (congrArg (·.inq) hbus))⟩

theorem latchAnswered_coreRuns (l : Fin 8) (s : State) : (latchAnswered l s).coreRuns = s.coreRuns :=
  coreRuns_congr (latchAnswered_leaves l s).1 fun f hf => (rd_of_regs (latchAnswered_regs l s) _ _).trans
    ((writesOnly_latchShown l true s).rd fun hw => absurd ((inSlot_base .clocks hf).symm.trans hw) (by decide))

theorem latchAnswered_nak (l : Fin 8) (s : State) : (latchAnswered l s).pins.tbusNak.getLsbD l = false :=
  (congrArg (·.getLsbD l) (outStep_outOccurs 3 0 l.val _).tbusNak).trans (lineAnswered_nak l _)

/-- A request that another device refuses, made by no slice of this one, while the units are stopped: it is shown, answered and held in
tbus_in. -/
theorem opBusRequestLatched_held (l : Fin 8) (hup : s.tbusUp = true) (hline : nbit (s.rd .trigbus R.TBUS_CFG.line_enable) l = true)
    (hdriving : s.tbus.driving = []) (hrefuse : s.busRefuses l [] = false) (hstopped : s.coreRuns = false)
    (hroom : s.tbus.inq.length < 16) : opBusRequestLatched l true s =
      requestQueued (requestIn l [] (latchShown l true s) (latchAnswered l s)) (latchAnswered l s) := by
  have hmine : (s.tbus.driving.filter (fun e => e.1 = l.val)).flatMap (·.2) = [] := by
    rw [hdriving]
    rfl
  have hanswer : ¬ (latchAnswered l s).coreRuns = true := by
    rw [latchAnswered_coreRuns, hstopped]
    decide
  have hlength : (latchAnswered l s).tbus.inq.length < 16 := by
    rw [(latchAnswered_leaves l s).2.2]
    exact hroom
  rw [opBusRequestLatched_eq, if_neg (by rw [hup, hline]; decide), hmine]
  dsimp only
  rw [hrefuse]
  exact (if_neg hanswer).trans (if_pos hlength)

theorem busRequestLatched_held (l : Fin 8) (hup : s.tbusUp = true) (hline : nbit (s.rd .trigbus R.TBUS_CFG.line_enable) l = true)
    (hdriving : s.tbus.driving = []) (hrefuse : s.busRefuses l [] = false) (hstopped : s.coreRuns = false)
    (hroom : s.tbus.inq.length < 16) : Completes (.busRequestLatched l true) s (fun t =>
      t.rd .trigbus (R.TBUS_COUNT.requests_seen l) = min (s.rd .trigbus (R.TBUS_COUNT.requests_seen l) + 1) 65535 ∧
      t.rd .trigbus (R.TBUS_COUNT.naks_seen l) = min (s.rd .trigbus (R.TBUS_COUNT.naks_seen l) + 1) 65535 ∧
      nbit (t.rd .trigbus R.TBUS_STATUS.nak_last) l = true ∧ t.pins.tbusNak.getLsbD l = false ∧
      t.tbus.inq.length = s.tbus.inq.length + 1 ∧ t.mem = s.mem) := by
  have hfield : ∀ (q : BusIn) (f : Fld), f.off < 0x10000 →
      (requestQueued q (latchAnswered l s)).rd .trigbus f = (latchShown l true s).rd .trigbus f := fun q f hf =>
    (rd_requestQueued q _ hf).trans (rd_of_regs (latchAnswered_regs l s) _ _)
  have hoff : 0xc0 + 0x8 * l.val < 0x10000 := by omega
  obtain ⟨hseen, hnaks, hlast⟩ := latchShown_shown l s
  obtain ⟨-, hmem, hinq⟩ := latchAnswered_leaves l s
  refine ⟨_, congrArg Host.Outcome.next (opBusRequestLatched_held l hup hline hdriving hrefuse hstopped hroom), ?_⟩
  obtain ⟨hlength, hpins, hheld⟩ := requestQueued_leaves (requestIn l [] (latchShown l true s) (latchAnswered l s)) (latchAnswered l s)
  refine ⟨(hfield _ _ hoff).trans hseen, (hfield _ _ hoff).trans hnaks, (congrArg (nbit · l) (hfield _ _ (by decide))).trans hlast,
    (congrArg (·.tbusNak.getLsbD l) hpins).trans (latchAnswered_nak l s), ?_, hheld.trans hmem⟩
  rw [hlength, hinq]

end Latch

/-- Settles O37, one lemma per clause. That the second SYNC pulse at the expected cycle locks the device is read from R148 by inference
(log 19). An edge on TRIG_IN is stated by its count and the level, the last edge and the memory it leaves. -/
theorem triggerPinsAndBus : Obligations.TriggerPinsAndBus := by
  unfold Obligations.TriggerPinsAndBus
  exact ⟨fun _ _ => trigInEdge_counts, fun _ _ => trigInEdge_stopped, fun _ _ => pulseEnd_inactive, fun _ _ => pulseEnd_early,
    fun _ _ => trigOutCfg_written, fun _ _ => tickOuts_holds, fun _ => tbusSync_locks, fun _ => tbusSync_first,
    fun _ => syncMissing_unlocks, fun _ => syncDrive_drives, fun _ => tbusRequest_drives, fun _ => busRequestLatched_held⟩

end Sys2Proof.Proofs

namespace Sys2Proof.Proofs
open Sys2Proof Sys2Proof.Machine Sys2Proof.Laws

/-! ### What the queue engine leaves alone -/

/-- `t` differs from `s` in register words of `W`, in the trace, in the draws and in what the queue engine holds. -/
structure QueueStep (W : Nat → Prop) (s t : State) : Prop where
  rest : t = { s with regs := t.regs, obs := t.obs, queue := t.queue, draw := t.draw }
  word : ∀ a, ¬ W a → t.word a = s.word a

section QueueStep
variable {W V : Nat → Prop} {s t u : State}

theorem QueueStep.refl (W : Nat → Prop) (s : State) : QueueStep W s s := ⟨rfl, fun _ _ => rfl⟩

theorem QueueStep.trans (h : QueueStep W s t) (g : QueueStep W t u) : QueueStep W s u :=
  ⟨by rw [g.rest, h.rest], fun a ha => (g.word a ha).trans (h.word a ha)⟩

theorem QueueStep.mono (h : QueueStep W s t) (hv : ∀ a, W a → V a) : QueueStep V s t :=
  ⟨h.rest, fun a ha => h.word a fun w => ha (hv a w)⟩

theorem WritesOnly.queueStep (h : WritesOnly W s t) : QueueStep W s t := by
  refine ⟨?_, h.word⟩
  have honly := h.only
  unfold OnlyRegs at honly
  rw [honly]

theorem QueueStep.wr (h : QueueStep W s t) {b : Blk} {f : Fld} (v : Nat) (hw : W (b.base + f.off)) : QueueStep W s (t.wr b f v) :=
  h.trans (writesOnly_wr t v hw).queueStep

theorem QueueStep.cnt (h : QueueStep W s t) {b : Blk} {f : Fld} (n : Nat) (hw : W (b.base + f.off)) : QueueStep W s (t.cnt b f n) :=
  h.trans ((WritesOnly.refl W t).cnt n hw).queueStep

theorem QueueStep.fault (h : QueueStep W s t) {b : Blk} {f : Fld} (hw : W (b.base + f.off)) (hb : W (b.base + R.BLOCK_STATUS.fault.off)) :
    QueueStep W s (t.fault b f) := (h.wr 1 hw).wr 1 hb

/-- What the queue engine holds may change. -/
theorem QueueStep.onQueue (h : QueueStep W s t) (q : QueueSt) : QueueStep W s { t with queue := q } := h.trans ⟨rfl, fun _ _ => rfl⟩

theorem QueueStep.mem (h : QueueStep W s t) : t.mem = s.mem := by rw [h.rest]
theorem QueueStep.tim (h : QueueStep W s t) : t.tim = s.tim := by rw [h.rest]
theorem QueueStep.dev (h : QueueStep W s t) : t.dev = s.dev := by rw [h.rest]
theorem QueueStep.host (h : QueueStep W s t) : t.host = s.host := by rw [h.rest]
theorem QueueStep.cores (h : QueueStep W s t) : t.cores = s.cores := by rw [h.rest]
theorem QueueStep.tko (h : QueueStep W s t) : t.tko = s.tko := by rw [h.rest]

theorem QueueStep.rd (h : QueueStep W s t) {b : Blk} {f : Fld} (hw : ¬ W (b.base + f.off)) : t.rd b f = s.rd b f := by
  unfold State.rd
  rw [h.word _ hw]

theorem QueueStep.sameOutside {b : Blk} (h : QueueStep W s t) (hw : ∀ a, W a → InSlot b a) : SameOutside b s t :=
  fun a ha => h.word a fun w => ha (hw a w)

end QueueStep

/-- A register of another block. -/
theorem not_inSlot {b c : Blk} (h : c.slot ≠ b.slot) {o : Nat} (ho : o < 0x10000) : ¬ InSlot b (c.base + o) :=
  fun hw => h ((inSlot_base c ho).symm.trans hw)

/-- Observation writes registers of OBSERVE alone (R401 to R404). -/
theorem hostKeeps_observeAll (s : State) (evs : List (Nat × Nat × Nat)) (n : Nat) :
    HostKeeps (InSlot .observe) s (s.observeAll evs n) := by
  unfold State.observeAll
  split
  · exact .refl _ s
  · refine HostKeeps.trans (HostKeeps.trans ?_ (.each _ _ (fun _ _ st => hostKeeps_traceWrite _ _ _ st) _)) (.refl _ _)
    unfold State.when
    split
    · exact .each _ _ (fun h hmem st => (HostKeeps.refl _ st).cnt n (inSlot_base .observe (by
        obtain ⟨i, hi, hin⟩ := List.mem_flatMap.1 hmem
        obtain ⟨x, -, rfl⟩ := List.mem_map.1 hin
        have := List.mem_range.1 hi
        simp only [R.OBS_CNT.count]
        omega))) s
    · exact .refl _ s

theorem queueStep_observe (s : State) (u e n arg : Nat) : QueueStep (InSlot .observe) s (s.observe u e n arg) := by
  refine ⟨?_, (hostKeeps_observeAll s _ n).word⟩
  have honly := onlyObs_observe s u e n arg
  unfold OnlyObs at honly
  rw [honly]

theorem observe_queue (s : State) (u e n arg : Nat) : (s.observe u e n arg).queue = s.queue := (onlyObs_observe s u e n arg).frame.2.2.2.2.1

/-! ### Words of a context (R192) -/

/-- Bits that lie in a number whole are replaced without a borrow. -/
theorem putBits_field (x hi lo v : Nat) : nbits (putBits x hi lo v) hi lo = v % 2 ^ (hi + 1 - lo) := by
  unfold putBits nbits
  generalize 2 ^ (hi + 1 - lo) = n
  have hp : 0 < 2 ^ lo := Nat.two_pow_pos lo
  generalize 2 ^ lo = p at hp
  have hx : x - x / p % n * p + v % n * p = x % p + p * (n * (x / p / n) + v % n) := by
    have h1 := Nat.div_add_mod x p
    have h2 := Nat.div_add_mod (x / p) n
    have h3 : p * (x / p) = p * (n * (x / p / n)) + x / p % n * p := by
      conv_lhs => rw [← h2]
      ring
    have h4 : p * (n * (x / p / n) + v % n) = p * (n * (x / p / n)) + v % n * p := by ring
    omega
  rw [hx, Nat.add_mul_div_left _ _ hp, Nat.div_eq_of_lt (Nat.mod_lt _ hp), Nat.zero_add, Nat.mul_add_mod, Nat.mod_mod]

/-- Replacing high bits leaves those below. -/
theorem putBits_low (x hi lo v k : Nat) (hk : k ≤ lo) : putBits x hi lo v % 2 ^ k = x % 2 ^ k := by
  obtain ⟨d, rfl⟩ := Nat.exists_eq_add_of_le hk
  unfold putBits nbits
  have hle : x / 2 ^ (k + d) % 2 ^ (hi + 1 - (k + d)) * 2 ^ (k + d) ≤ x :=
    (Nat.mul_le_mul_right _ (Nat.mod_le _ _)).trans (Nat.div_mul_le_self x _)
  have h1 : ∀ m, m * 2 ^ (k + d) = 2 ^ k * (m * 2 ^ d) := fun m => by ring
  rw [h1] at hle
  rw [h1, h1, Nat.add_mul_mod_self_left]
  obtain ⟨y, hy⟩ := Nat.exists_eq_add_of_le hle
  have hsub : x - 2 ^ k * (x / 2 ^ (k + d) % 2 ^ (hi + 1 - (k + d)) * 2 ^ d) = y := by omega
  rw [hsub]
  conv_rhs => rw [hy, Nat.mul_add_mod]

theorem produced_withW2 (c : Ctx) (x : Nat) : ({ c with w2 := x } : Ctx).produced = c.produced := rfl
theorem pubSeq_withW2 (c : Ctx) (x : Nat) : ({ c with w2 := x } : Ctx).pubSeq = c.pubSeq := rfl
theorem halted_withW2 (c : Ctx) (x : Nat) : ({ c with w2 := x } : Ctx).halted = c.halted := rfl
theorem absent_withW0 (c : Ctx) (x : Nat) : ({ c with w0 := x } : Ctx).absent = c.absent := rfl

@[simp] theorem setAbsent_absent (c : Ctx) (v : Nat) : (c.setAbsent v).absent = v % 2 ^ 28 := putBits_field _ 63 36 v
@[simp] theorem setAbsent_produced (c : Ctx) (v : Nat) : (c.setAbsent v).produced = c.produced := produced_withW2 c _
@[simp] theorem setAbsent_pubSeq (c : Ctx) (v : Nat) : (c.setAbsent v).pubSeq = c.pubSeq := pubSeq_withW2 c _
@[simp] theorem setAbsent_halted (c : Ctx) (v : Nat) : (c.setAbsent v).halted = c.halted := halted_withW2 c _
@[simp] theorem setBit_absent (c : Ctx) (i v : Nat) : (c.setBit i v).absent = c.absent := absent_withW0 c _
@[simp] theorem setUnsignalled_unsignalled (c : Ctx) (v : Nat) : (c.setUnsignalled v).unsignalled = min 1023 v := by
  refine (putBits_field _ 63 54 _).trans (Nat.mod_eq_of_lt ?_)
  have : min 1023 v ≤ 1023 := Nat.min_le_left ..
  omega
@[simp] theorem setUnsignalled_produced (c : Ctx) (v : Nat) : (c.setUnsignalled v).produced = c.produced := putBits_low _ _ _ _ 36 (by decide)
@[simp] theorem setProduced_produced (c : Ctx) (v : Nat) : (c.setProduced v).produced = v % 2 ^ 36 := by
  have h := putBits_field c.w1 35 0 v
  unfold nbits at h
  rwa [Nat.pow_zero, Nat.div_one] at h

theorem setHalted_halted (c : Ctx) : (c.setBit 8 1).halted = true := decide_eq_true (putBits_field c.w0 8 8 1)

/-! ### The context cache (R199) -/

section Cache
variable {s t : State} {q : Nat}

theorem ways_congr (h : t.queue.cache = s.queue.cache) (q : Nat) : t.ways q = s.ways q := by
  unfold State.ways
  rw [h]

theorem cached_congr (h : t.queue.cache = s.queue.cache) (q : Nat) : t.cached q = s.cached q := by
  unfold State.cached
  rw [ways_congr h]

/-- A cached context is read where it is cached. -/
theorem ctx_congr (h : t.queue.cache = s.queue.cache) (hc : s.cached q = true) : t.ctx q = s.ctx q := by
  obtain ⟨w, hw⟩ := List.find?_isSome.2 (List.any_eq_true.1 hc) |> Option.isSome_iff_exists.1
  unfold State.ctx
  rw [ways_congr h, hw]

theorem ways_setWays (q : Nat) (l : List CtxWay) (s : State) : (setWays q l s).ways q = l := get_set_self _ _ _ _

theorem setCtx_eq (hc : s.cached q = true) (c : Ctx) : setCtx q c s =
    setWays q ((s.ways q).map (fun w => if w.q = q then { w with ctx := c, dirty := true } else w)) s := if_pos hc

theorem setCtx_recs (hc : s.cached q = true) (c : Ctx) : (setCtx q c s).queue.recs = s.queue.recs := by rw [setCtx_eq hc]; rfl
theorem setCtx_timers (hc : s.cached q = true) (c : Ctx) : (setCtx q c s).queue.timers = s.queue.timers := by rw [setCtx_eq hc]; rfl
theorem setCtx_destroying (hc : s.cached q = true) (c : Ctx) : (setCtx q c s).queue.destroying = s.queue.destroying := by
  rw [setCtx_eq hc]; rfl

theorem queueStep_setCtx {W : Nat → Prop} (hc : s.cached q = true) (c : Ctx) : QueueStep W s (setCtx q c s) := by
  rw [setCtx_eq hc]
  exact (QueueStep.refl W s).onQueue _

/-- Rewriting the entries of a context keeps the first of them first. -/
theorem find_mapWay (f : CtxWay → CtxWay) (hf : ∀ w, (f w).q = w.q) (l : List CtxWay) :
    (l.map f).find? (fun w => w.q = q) = (l.find? (fun w => w.q = q)).map f := by
  rw [List.find?_map]
  refine congrArg (Option.map f) (congrArg (fun p => List.find? p l) (funext fun w => ?_))
  rw [Function.comp, hf]

theorem cached_mapWay (f : CtxWay → CtxWay) (hf : ∀ w, (f w).q = w.q) (s : State) (q : Nat) :
    (setWays q ((s.ways q).map f) s).cached q = s.cached q := by
  unfold State.cached
  rw [ways_setWays, List.any_map]
  refine congrArg (fun p => List.any (s.ways q) p) (funext fun w => ?_)
  rw [Function.comp, hf]

theorem cached_setCtx (hc : s.cached q = true) (c : Ctx) : (setCtx q c s).cached q = true := by
  rw [setCtx_eq hc, cached_mapWay _ (fun w => by split <;> rfl), hc]

theorem ctx_setCtx (hc : s.cached q = true) (c : Ctx) : (setCtx q c s).ctx q = c := by
  obtain ⟨w, hw⟩ := List.find?_isSome.2 (List.any_eq_true.1 hc) |> Option.isSome_iff_exists.1
  have hwq : w.q = q := by simpa using List.find?_some hw
  rw [setCtx_eq hc]
  unfold State.ctx
  rw [ways_setWays, find_mapWay _ (fun w => by split <;> rfl), hw]
  simp only [Option.map_some, if_pos hwq]

end Cache
end Sys2Proof.Proofs

namespace Sys2Proof.Proofs
open Sys2Proof Sys2Proof.Machine Sys2Proof.Laws

/-! ### The only record of its queue -/

theorem headRec_eq_none {s : State} {q : Nat} (h : ∀ x ∈ s.queue.recs, x.q ≠ q) : s.headRec q = none :=
  List.find?_eq_none.2 fun x hx hq => h x hx (of_decide_eq_true hq).1

theorem absorb_of_none {s : State} {q : Nat} (h : s.headRec q = none) (n : Nat) : absorb q n s = s := by
  cases n with
  | zero => rfl
  | succ n => rw [absorb, h]

theorem ask_of_none {s : State} {q : Nat} (h : s.headRec q = none) (ann : AnnResult) : ask q ann s = s := by
  rw [ask, h]

section Sole
variable {s t : State} {r x : Rec} {rs : List Rec} (h : s.Sole r rs)
include h

theorem Sole.congr (hrecs : t.queue.recs = s.queue.recs) : t.Sole r rs := by
  obtain ⟨hs, hrest⟩ := h
  exact ⟨hrecs.trans hs, hrest⟩

theorem Sole.headRec : s.headRec r.q = some r := by
  obtain ⟨hs, hcount, -⟩ := h
  unfold State.headRec
  rw [hs]
  exact List.find?_cons_of_pos (decide_eq_true ⟨rfl, hcount⟩)

theorem Sole.recOf : s.recOf r.q r.seq = some r := by
  obtain ⟨hs, hcount, -⟩ := h
  unfold State.recOf
  rw [hs]
  exact List.find?_cons_of_pos (decide_eq_true ⟨rfl, rfl, hcount⟩)

theorem Sole.isSink : isSink r.q = false := decide_eq_false (Nat.not_le.2 h.2.2.1)

/-- The record is replaced where it stands. -/
theorem Sole.setRec_recs (hq : x.q = r.q) (hseq : x.seq = r.seq) (hcount : x.count = r.count) :
    (setRec x s).queue.recs = x :: rs := by
  obtain ⟨hs, -, -, hothers⟩ := h
  have hrest : rs.map (fun y => if y.q = x.q ∧ y.seq = x.seq ∧ y.count = x.count then x else y) = rs :=
    (List.map_congr_left fun y hy => if_neg fun hsame => hothers y hy (hsame.1.trans hq)).trans (List.map_id' rs)
  change s.queue.recs.map _ = _
  rw [hs, List.map_cons, if_pos ⟨hq.symm, hseq.symm, hcount.symm⟩, hrest]

theorem Sole.setRec (hq : x.q = r.q) (hseq : x.seq = r.seq) (hcount : x.count = r.count) : (setRec x s).Sole x rs := by
  refine ⟨Sole.setRec_recs h hq hseq hcount, ?_⟩
  obtain ⟨-, h0, hlt, hothers⟩ := h
  rw [hq]
  exact ⟨hcount.trans h0, hlt, hothers⟩

theorem Sole.dropRec_recs : (dropRec r s).queue.recs = rs := by
  obtain ⟨hs, -, -, hothers⟩ := h
  change s.queue.recs.filter _ = _
  rw [hs, List.filter_cons_of_neg (by simp)]
  exact List.filter_eq_self.2 fun y hy => by simp [hothers y hy]

/-- Without it its queue has no record. -/
theorem Sole.headRec_without (hrecs : t.queue.recs = rs) : t.headRec r.q = none := by
  obtain ⟨-, -, -, hothers⟩ := h
  exact headRec_eq_none fun x hx => hothers x (hrecs ▸ hx)

end Sole

theorem queueStep_setRec {W : Nat → Prop} (r : Rec) (s : State) : QueueStep W s (setRec r s) := (QueueStep.refl W s).onQueue _
theorem queueStep_dropRec {W : Nat → Prop} (r : Rec) (s : State) : QueueStep W s (dropRec r s) := (QueueStep.refl W s).onQueue _

/-! ### What the queue engine shows (R196, R197) -/

/-- The word of QUEUE_STAGING. -/
def stagingWord : Nat := Blk.queue.base + 0xd0

theorem writesOnly_showStaging (s : State) : WritesOnly (· = stagingWord) s (showStaging s) :=
  (((WritesOnly.refl (· = stagingWord) s).wr _ (by rfl)).wr _ (by rfl)).wr _ (by rfl)

theorem queue_showStaging (s : State) : (showStaging s).queue = s.queue := onlyRegs_queue (writesOnly_showStaging s).only

/-- The words in which a queue's halt shows: QUEUE_LAST_FAULT, QUEUE_FAULT and BLOCK_STATUS. -/
def HaltWord (a : Nat) : Prop := a = Blk.queue.base + 0xc8 ∨ a = Blk.queue.base + 0xc0 ∨ a = Blk.queue.base + 0x10

theorem HaltWord.inSlot (a : Nat) (h : HaltWord a) : InSlot .queue a := by
  obtain rfl | rfl | rfl := h
  · exact inSlot_base _ (by decide)
  · exact inSlot_base _ (by decide)
  · exact inSlot_base _ (by decide)

/-- The registers of a halt with cause `cause`. -/
def haltShown (q cause : Nat) (s : State) : State :=
  ((s.wr .queue R.QUEUE_LAST_FAULT.queue q).wr .queue R.QUEUE_LAST_FAULT.cause cause).fault .queue (match cause with
    | 0 => R.QUEUE_FAULT.ctx_ecc
    | 1 => R.QUEUE_FAULT.absent_overflow
    | _ => R.QUEUE_FAULT.target)

theorem haltQueue_eq (q cause : Nat) (s : State) : haltQueue q cause s = haltShown q cause (setCtx q ((s.ctx q).setBit 8 1) s) := rfl

theorem writesOnly_haltShown (q cause : Nat) (s : State) : WritesOnly HaltWord s (haltShown q cause s) := by
  refine ((writesOnly_wr s _ (.inl rfl)).wr _ (.inl rfl)).fault (.inr (.inl ?_)) (.inr (.inr rfl))
  split <;> rfl

theorem haltShown_ctxError (q : Nat) (s : State) : (haltShown q 0 s).rd .queue R.QUEUE_LAST_FAULT.queue = q % 2 ^ 20 ∧
    (haltShown q 0 s).rd .queue R.QUEUE_LAST_FAULT.cause = 0 ∧ (haltShown q 0 s).rd .queue R.QUEUE_FAULT.ctx_ecc = 1 := by
  unfold haltShown State.fault
  simp (disch := decide) only [rd_wr_keep, rd_wr_val]
  exact ⟨rfl, rfl, rfl⟩

theorem haltShown_target (q : Nat) (s : State) : (haltShown q 2 s).rd .queue R.QUEUE_LAST_FAULT.queue = q % 2 ^ 20 ∧
    (haltShown q 2 s).rd .queue R.QUEUE_LAST_FAULT.cause = 2 ∧ (haltShown q 2 s).rd .queue R.QUEUE_FAULT.target = 1 := by
  unfold haltShown State.fault
  simp (disch := decide) only [rd_wr_keep, rd_wr_val]
  exact ⟨rfl, rfl, rfl⟩

section Halt
variable {s : State} {q : Nat} (hc : s.cached q = true) (cause : Nat)
include hc

theorem queueStep_haltQueue : QueueStep HaltWord s (haltQueue q cause s) :=
  (queueStep_setCtx hc _).trans (writesOnly_haltShown q cause _).queueStep

omit hc in
theorem queue_haltQueue : (haltQueue q cause s).queue = (setCtx q ((s.ctx q).setBit 8 1) s).queue :=
  onlyRegs_queue (writesOnly_haltShown q cause _).only

theorem recs_haltQueue : (haltQueue q cause s).queue.recs = s.queue.recs := by rw [queue_haltQueue, setCtx_recs hc]

theorem destroying_haltQueue : (haltQueue q cause s).queue.destroying = s.queue.destroying := by
  rw [queue_haltQueue, setCtx_destroying hc]

theorem cached_haltQueue : (haltQueue q cause s).cached q = true :=
  (cached_congr (congrArg QueueSt.cache (queue_haltQueue cause)) q).trans (cached_setCtx hc _)

theorem ctx_haltQueue : (haltQueue q cause s).ctx q = (s.ctx q).setBit 8 1 :=
  (ctx_congr (congrArg QueueSt.cache (queue_haltQueue cause)) (cached_setCtx hc _)).trans (ctx_setCtx hc _)

end Halt

theorem destroyCheck_of_none {s : State} (h : s.queue.destroying = none) : destroyCheck s = s := by rw [destroyCheck, h]

/-! ### Abandonment (R178, R196) -/

/-- The word in which an abandoned record is counted. -/
def abandonWord (r : Rec) : Nat :=
  if r.cls = 11 then Blk.chan.base + (R.CHAN_COUNTS.records_abandoned r.prod).off
  else (Blk.records r.prod).base + R.REC_COUNTS.abandoned.off

theorem writesOnly_countAbandoned (r : Rec) (s : State) : WritesOnly (· = abandonWord r) s (countRec r false s) := by
  have hcount : countRec r false s = if r.cls = 11 then s.cnt .chan (R.CHAN_COUNTS.records_abandoned r.prod) 1
      else s.cnt (.records r.prod) R.REC_COUNTS.abandoned 1 := rfl
  rw [hcount]
  unfold abandonWord
  split
  · exact (WritesOnly.refl _ s).cnt 1 rfl
  · exact (WritesOnly.refl _ s).cnt 1 rfl

theorem rd_countAbandoned {r : Rec} (hcls : r.cls ≠ 11) (s : State) : (countRec r false s).rd (.records r.prod) R.REC_COUNTS.abandoned =
    min (s.rd (.records r.prod) R.REC_COUNTS.abandoned + 1) (2 ^ 32 - 1) := by
  have hcount : countRec r false s = s.cnt (.records r.prod) R.REC_COUNTS.abandoned 1 := if_neg hcls
  rw [hcount]
  exact rd_cnt_val _ _ _ _ (by decide)

/-- The context with one sequence more to announce absent. -/
def missed (c : Ctx) : Ctx := c.setAbsent (min (2 ^ 28 - 1) (c.absent + 1))

/-- The absent record `r` has left its queue, and the first reason of the run is kept. -/
def absentNoted (r : Rec) (why : Nat) (s : State) : State :=
  let t := dropRec r s
  let w := AbsentRun.join why r (SMap.get (fun _ => none) t.queue.why r.q)
  { t with queue := { t.queue with why := SMap.set (fun _ => none) t.queue.why r.q (some w) } }

/-- One absent record at the front of its queue is absorbed. -/
theorem absorb_absent {s : State} {r : Rec} {rs : List Rec} {why n : Nat} (h : s.Sole r rs) (hphase : r.phase = .absent why)
    (hc : s.cached r.q = true) : absorb r.q (n + 1) s =
      let t := setCtx r.q (missed (s.ctx r.q)) (absentNoted r why s)
      if (s.ctx r.q).absent + 1 = 2 ^ 28 - 1 then haltQueue r.q 1 t else t := by
  have hrecs : (setCtx r.q (missed (s.ctx r.q)) (absentNoted r why s)).queue.recs = rs :=
    (setCtx_recs (s := absentNoted r why s) hc _).trans (Sole.dropRec_recs h)
  rw [absorb, Sole.headRec h]
  simp only [hphase]
  refine absorb_of_none (Sole.headRec_without h ?_) n
  split
  · exact (recs_haltQueue (cached_setCtx (s := absentNoted r why s) hc _) 1).trans hrecs
  · exact hrecs

/-- What abandoning the only record of a queue leaves: the record is gone and counted, and its sequence is to be announced absent. -/
structure Abandoned (r : Rec) (rs : List Rec) (s t : State) : Prop where
  step : QueueStep (fun a => a = abandonWord r ∨ HaltWord a) s t
  recs : t.queue.recs = rs
  destroying : t.queue.destroying = s.queue.destroying
  cached : t.cached r.q = true
  below : (s.ctx r.q).absent + 1 < 2 ^ 28 - 1 → QueueStep (· = abandonWord r) s t ∧ t.ctx r.q = missed (s.ctx r.q)
  counted : r.cls ≠ 11 → t.rd (.records r.prod) R.REC_COUNTS.abandoned =
    min (s.rd (.records r.prod) R.REC_COUNTS.abandoned + 1) (2 ^ 32 - 1)

/-- The sequence of an absent record is noted: without the halt of R176 nothing but the context changes. -/
theorem abandoned_absorb {s : State} {r : Rec} {rs : List Rec} {why n : Nat} (h : s.Sole r rs) (hphase : r.phase = .absent why)
    (hc : s.cached r.q = true) : ∃ t, absorb r.q (n + 1) s = t ∧ QueueStep HaltWord s t ∧ t.queue.recs = rs ∧
      t.queue.destroying = s.queue.destroying ∧ t.cached r.q = true ∧
      ((s.ctx r.q).absent + 1 < 2 ^ 28 - 1 → QueueStep (fun _ => False) s t ∧ t.ctx r.q = missed (s.ctx r.q)) := by
  refine ⟨_, absorb_absent h hphase hc, ?_⟩
  have hnoted : (absentNoted r why s).cached r.q = true := hc
  have hstep : ∀ W, QueueStep W s (setCtx r.q (missed (s.ctx r.q)) (absentNoted r why s)) := fun W =>
    ((QueueStep.refl W s).onQueue _).trans (queueStep_setCtx hnoted _)
  have hrecs := (setCtx_recs hnoted (missed (s.ctx r.q))).trans (Sole.dropRec_recs h)
  have hdestroying : (setCtx r.q (missed (s.ctx r.q)) (absentNoted r why s)).queue.destroying = s.queue.destroying :=
    setCtx_destroying hnoted _
  have hcached := cached_setCtx hnoted (missed (s.ctx r.q))
  dsimp only
  split
  · next hfull =>
    exact ⟨(hstep _).trans (queueStep_haltQueue hcached 1), (recs_haltQueue hcached 1).trans hrecs,
      (destroying_haltQueue hcached 1).trans hdestroying, cached_haltQueue hcached 1, fun hlt => absurd hfull (Nat.ne_of_lt hlt)⟩
  · exact ⟨hstep _, hrecs, hdestroying, hcached, fun _ => ⟨hstep _, ctx_setCtx hnoted _⟩⟩

/-- The word of a record's count is not one in which a halt shows. -/
theorem abandonWord_not_halt {r : Rec} (hcls : r.cls ≠ 11) : ¬ HaltWord (abandonWord r) := fun hw => by
  have hslot := HaltWord.inSlot _ hw
  unfold abandonWord at hslot
  rw [if_neg hcls] at hslot
  exact not_inSlot (b := .queue) (c := .records r.prod) (by change 0x083 + 4 * r.prod ≠ 0x030; omega) (by decide) hslot

theorem abandoned_abandon {s : State} {r : Rec} {rs : List Rec} (h : s.Sole r rs) (hgone : r.gone = false) (hc : s.cached r.q = true)
    (why : Nat) : Abandoned r rs s (abandon r why s) := by
  let x : Rec := { r with phase := .absent why, payload := [], meas := [] }
  obtain ⟨hs, hcount, -⟩ := id h
  have hlen : s.queue.recs.length = rs.length + 1 := congrArg List.length hs
  have habandon : abandon r why s = absorb r.q (rs.length + 1) (countRec r false (setRec x s)) := by
    unfold abandon
    rw [if_neg (by simp [hcount, hgone]), if_neg (by simp [Sole.isSink h]), hlen]
  have hcounted := writesOnly_countAbandoned r (setRec x s)
  have hqueue : (countRec r false (setRec x s)).queue = (setRec x s).queue := onlyRegs_queue hcounted.only
  have hstep : QueueStep (· = abandonWord r) s (countRec r false (setRec x s)) := (queueStep_setRec x s).trans hcounted.queueStep
  have hcache : (countRec r false (setRec x s)).queue.cache = s.queue.cache := (congrArg QueueSt.cache hqueue :)
  have hsole : (countRec r false (setRec x s)).Sole x rs :=
    Sole.congr (Sole.setRec h rfl rfl rfl) (congrArg QueueSt.recs hqueue)
  have hctx : (countRec r false (setRec x s)).ctx r.q = s.ctx r.q := ctx_congr hcache hc
  have hrd := fun hcls : r.cls ≠ 11 => rd_countAbandoned hcls (setRec x s)
  obtain ⟨t, ht, hhalt, hrecs, hdestroying, hcached, hbelow⟩ :=
    abandoned_absorb (n := rs.length) hsole rfl ((cached_congr hcache r.q).trans hc)
  change absorb r.q _ _ = t at ht
  change t.cached r.q = true at hcached
  change (_ → _ ∧ t.ctx r.q = missed (State.ctx _ r.q)) at hbelow
  rw [hctx] at hbelow
  rw [habandon, ht]
  refine ⟨(hstep.mono fun _ => .inl).trans (hhalt.mono fun _ => .inr), hrecs,
    hdestroying.trans (congrArg QueueSt.destroying hqueue :), hcached, fun hlt => ?_, fun hcls => ?_⟩
  · obtain ⟨hkeep, hmissed⟩ := hbelow hlt
    exact ⟨hstep.trans (hkeep.mono fun _ hf => hf.elim), hmissed⟩
  · refine (hhalt.rd fun hw => abandonWord_not_halt hcls ?_).trans (hrd hcls)
    unfold abandonWord
    rwa [if_neg hcls]

theorem missed_absent {c : Ctx} (h : c.absent + 1 < 2 ^ 28 - 1) : (missed c).absent = c.absent + 1 := by
  unfold missed
  rw [setAbsent_absent, Nat.min_eq_right h.le, Nat.mod_eq_of_lt (by omega)]

theorem missed_halted (c : Ctx) : (missed c).halted = c.halted := setAbsent_halted c _

end Sys2Proof.Proofs

namespace Sys2Proof.Proofs
open Sys2Proof Sys2Proof.Machine Sys2Proof.Laws

/-! ### Reservations (R196, R199) -/

/-- The first context of a queue stays the first when those of the queue come to the front. -/
theorem find_touched (l : List CtxWay) (q : Nat) :
    (l.filter (fun w => w.q = q) ++ l.filter (fun w => w.q ≠ q)).find? (fun w => w.q = q) = l.find? (fun w => w.q = q) := by
  have hnone : (l.filter (fun w => w.q ≠ q)).find? (fun w => w.q = q) = none :=
    List.find?_eq_none.2 fun w hw => by simpa using (List.mem_filter.1 hw).2
  rw [List.find?_append, hnone, Option.or_none, List.find?_filter]
  simp

theorem any_touched (l : List CtxWay) (q : Nat) (p : CtxWay → Bool) :
    (l.filter (fun w => w.q = q) ++ l.filter (fun w => w.q ≠ q)).any p = l.any p := by
  rw [Bool.eq_iff_iff, List.any_eq_true, List.any_eq_true]
  refine exists_congr fun w => and_congr_left fun _ => ?_
  rw [List.mem_append, List.mem_filter, List.mem_filter]
  by_cases hw : w.q = q <;> simp [hw]

section Touch
variable (q : Nat) (s : State)

theorem ways_touchCtx : (touchCtx q s).ways q = (s.ways q).filter (fun w => w.q = q) ++ (s.ways q).filter (fun w => w.q ≠ q) :=
  ways_setWays q _ s

theorem cached_touchCtx : (touchCtx q s).cached q = s.cached q := by
  unfold State.cached
  rw [ways_touchCtx, any_touched]

theorem ctx_touchCtx (hc : s.cached q = true) : (touchCtx q s).ctx q = s.ctx q := by
  obtain ⟨w, hw⟩ := List.find?_isSome.2 (List.any_eq_true.1 hc) |> Option.isSome_iff_exists.1
  unfold State.ctx
  rw [ways_touchCtx, find_touched, hw]

theorem queueStep_touchCtx {W : Nat → Prop} : QueueStep W s (touchCtx q s) := (QueueStep.refl W s).onQueue _

end Touch

/-- A context that no error has touched is read as it stands. -/
theorem readCtx_sound {q : Nat} {ann : AnnResult} {s : State} (hsound : s.ctxSound q) (hcorr : ann ≠ .ctxCorrected)
    (hbad : ann ≠ .ctxBad) : readCtx q ann s = s := by
  unfold State.ctxSound at hsound
  unfold readCtx
  dsimp only
  rw [hsound, decide_eq_false hcorr, decide_eq_false hbad]
  rfl

theorem ctxSound_touchCtx {q : Nat} {s : State} (hc : s.cached q = true) (hsound : s.ctxSound q) : (touchCtx q s).ctxSound q := by
  unfold State.ctxSound at *
  rw [cached_touchCtx, if_pos hc, ways_touchCtx, any_touched]
  rwa [if_pos hc] at hsound

/-- A request of an enabled queue engine whose context is cached. -/
theorem request_cached {r : Rec} {s : State} (ann : AnnResult) (hen : s.enabled .queue = true) (hquiet : s.quiescedAt .queue = none)
    (hc : s.cached r.q = true) : request r ann s =
      let t := readCtx r.q ann (touchCtx r.q s)
      if (t.ctx r.q).halted then refuse r t else if (t.ctx r.q).on && t.fits r then grant r ann t else startWait r t := by
  unfold request
  rw [if_neg (by simp [hen]), if_neg (by simp [hquiet]), if_neg (by simp [hc])]

/-- The only record of a queue asks when it is complete. -/
theorem exec_reservationRequest {s : State} {q : BitVec 20} {ann : AnnResult} {r : Rec} {rs : List Rec} (h : s.Sole r rs)
    (hq : r.q = q.toNat) (hphase : r.phase = .ready) (hrun : s.coreRuns = true) :
    exec (.reservationRequest q ann) s = .next (showStaging (request r ann s)) := by
  refine congrArg Host.Outcome.next ?_
  unfold opReservationRequest ask
  rw [← hq, Sole.headRec h]
  simp only [hrun, hphase, decide_true, if_true]

/-- A request that changes its record alone: what a grant and a wait have in common. -/
theorem completes_setRec {s : State} {q : BitVec 20} {ann : AnnResult} {r x : Rec} {rs : List Rec} (h : s.Sole r rs)
    (hq : r.q = q.toNat) (hphase : r.phase = .ready) (hrun : s.coreRuns = true) (hc : s.cached q.toNat = true)
    (hrequest : request r ann s = setRec x (touchCtx r.q s)) (hxq : x.q = r.q) (hxseq : x.seq = r.seq) (hxcount : x.count = r.count) :
    Completes (.reservationRequest q ann) s (fun t => t.queue.recs = x :: rs ∧ t.ctx q.toNat = s.ctx q.toNat ∧ t.mem = s.mem ∧
      SameOutside .queue s t) := by
  have hshow := writesOnly_showStaging (setRec x (touchCtx r.q s))
  have hqueue := queue_showStaging (setRec x (touchCtx r.q s))
  have hstep : QueueStep (· = stagingWord) s (showStaging (setRec x (touchCtx r.q s))) :=
    ((queueStep_touchCtx r.q s).trans (queueStep_setRec x _)).trans hshow.queueStep
  have htouched : (touchCtx r.q s).cached r.q = true := (cached_touchCtx r.q s).trans (hq ▸ hc)
  refine ⟨_, (exec_reservationRequest h hq hphase hrun).trans (congrArg _ (congrArg showStaging hrequest)), ?_, ?_, hstep.mem,
    hstep.sameOutside (by rintro a rfl; exact inSlot_base _ (by decide))⟩
  · rw [hqueue]
    exact Sole.setRec_recs (Sole.congr h rfl) hxq hxseq hxcount
  · rw [← hq]
    exact (ctx_congr (congrArg QueueSt.cache hqueue :) htouched).trans (ctx_touchCtx r.q s (hq ▸ hc))

theorem reservation_granted (s : State) (q : BitVec 20) (ann : AnnResult) (r : Rec) (rs : List Rec) (h : s.Sole r rs) (hq : r.q = q.toNat)
    (hphase : r.phase = .ready) (htyp : r.typ ≠ 1) (hrun : s.coreRuns = true) (hen : s.enabled .queue = true)
    (hquiet : s.quiescedAt .queue = none) (hc : s.cached q.toNat = true) (hsound : s.ctxSound q.toNat) (hcorr : ann ≠ .ctxCorrected)
    (hbad : ann ≠ .ctxBad) (hhalted : (s.ctx q.toNat).halted = false) (hon : (s.ctx q.toNat).on = true)
    (habsent : (s.ctx q.toNat).absent = 0) (hfits : recLen r.payload.length r.meas.length + 128 ≤ 64 * (s.ctx q.toNat).free) :
    Completes (.reservationRequest q ann) s (fun t =>
      t.queue.recs = { r with phase := .granted, off := (s.ctx q.toNat).produced } :: rs ∧ t.ctx q.toNat = s.ctx q.toNat ∧
      t.mem = s.mem ∧ SameOutside .queue s t) := by
  refine completes_setRec h hq hphase hrun hc ?_ rfl rfl rfl
  rw [← hq] at hc hsound hhalted hon habsent hfits ⊢
  have hctx := ctx_touchCtx r.q s hc
  have hproduced : (s.ctx r.q).produced % 2 ^ 36 = (s.ctx r.q).produced := Nat.mod_mod _ _
  rw [request_cached ann hen hquiet hc, readCtx_sound (ctxSound_touchCtx hc hsound) hcorr hbad]
  have hspace : (touchCtx r.q s).fits r = true := by
    unfold State.fits
    dsimp only
    rw [hctx, if_pos habsent, if_neg htyp, Nat.zero_add]
    exact decide_eq_true hfits
  dsimp only
  rw [hctx, hhalted, hon, hspace]
  unfold grant
  dsimp only
  rw [hctx, if_neg Bool.false_ne_true, if_pos (show (true && true) = true from rfl), if_pos habsent, hproduced]

theorem startWait_ready {r : Rec} (hphase : r.phase = .ready) (s : State) :
    startWait r s = setRec { r with phase := .waiting s.tim.raw } s := by rw [startWait, hphase]

theorem reservation_waits (s : State) (q : BitVec 20) (ann : AnnResult) (r : Rec) (rs : List Rec) (h : s.Sole r rs) (hq : r.q = q.toNat)
    (hphase : r.phase = .ready) (htyp : r.typ ≠ 1) (hrun : s.coreRuns = true) (hen : s.enabled .queue = true)
    (hquiet : s.quiescedAt .queue = none) (hc : s.cached q.toNat = true) (hsound : s.ctxSound q.toNat) (hcorr : ann ≠ .ctxCorrected)
    (hbad : ann ≠ .ctxBad) (hhalted : (s.ctx q.toNat).halted = false) (habsent : (s.ctx q.toNat).absent = 0)
    (hfull : 64 * (s.ctx q.toNat).free < recLen r.payload.length r.meas.length + 128) :
    Completes (.reservationRequest q ann) s (fun t => t.queue.recs = { r with phase := .waiting s.tim.raw } :: rs ∧
      t.ctx q.toNat = s.ctx q.toNat ∧ t.mem = s.mem ∧ SameOutside .queue s t) := by
  refine completes_setRec h hq hphase hrun hc ?_ rfl rfl rfl
  rw [← hq] at hc hsound hhalted habsent hfull
  have hctx := ctx_touchCtx r.q s hc
  rw [request_cached ann hen hquiet hc, readCtx_sound (ctxSound_touchCtx hc hsound) hcorr hbad]
  have hspace : (touchCtx r.q s).fits r = false := by
    unfold State.fits
    dsimp only
    rw [hctx, if_pos habsent, if_neg htyp, Nat.zero_add]
    exact decide_eq_false (Nat.not_le.2 hfull)
  dsimp only
  rw [hctx, hhalted, hspace, Bool.and_false, if_neg Bool.false_ne_true, if_neg Bool.false_ne_true, startWait_ready hphase]
  rfl

/-- QUEUE_CACHE once a request has missed its context. -/
def missCounted (q : Nat) (s : State) : State :=
  let s := s.cnt .queue R.QUEUE_CACHE.misses 1
  if s.wayFree q then s else s.cnt .queue R.QUEUE_CACHE.set_conflicts 1

theorem writesOnly_missCounted (q : Nat) (s : State) : WritesOnly (· = Blk.queue.base + 0xb0) s (missCounted q s) := by
  have hmiss := (WritesOnly.refl (· = Blk.queue.base + 0xb0) s).cnt (b := .queue) (f := R.QUEUE_CACHE.misses) 1 rfl
  unfold missCounted
  dsimp only
  split
  · exact hmiss
  · exact hmiss.cnt 1 rfl

theorem missCounted_misses (q : Nat) (s : State) : (missCounted q s).rd .queue R.QUEUE_CACHE.misses =
    min (s.rd .queue R.QUEUE_CACHE.misses + 1) (2 ^ 32 - 1) := by
  have hmiss : (s.cnt .queue R.QUEUE_CACHE.misses 1).rd .queue R.QUEUE_CACHE.misses = _ := rd_cnt_val _ _ _ _ (by decide)
  unfold missCounted
  dsimp only
  split
  · exact hmiss
  · exact (rd_cnt_keep _ _ _ _ _ (by decide)).trans hmiss

theorem reservation_misses (s : State) (q : BitVec 20) (ann : AnnResult) (r : Rec) (rs : List Rec) (h : s.Sole r rs) (hq : r.q = q.toNat)
    (hphase : r.phase = .ready) (hrun : s.coreRuns = true) (hen : s.enabled .queue = true) (hquiet : s.quiescedAt .queue = none)
    (hc : s.cached q.toNat = false) (hfetching : q.toNat ∉ s.queue.fetching) : Completes (.reservationRequest q ann) s (fun t =>
      t.queue.recs = { r with phase := .waiting s.tim.raw } :: rs ∧ t.queue.fetching = s.queue.fetching ++ [q.toNat] ∧
      t.rd .queue R.QUEUE_CACHE.misses = min (s.rd .queue R.QUEUE_CACHE.misses + 1) (2 ^ 32 - 1) ∧ t.mem = s.mem ∧
      SameOutside .queue s t) := by
  rw [← hq] at hc hfetching ⊢
  have hmiss := writesOnly_missCounted r.q s
  have hkept : (missCounted r.q s).queue = s.queue := onlyRegs_queue hmiss.only
  let u : State := { missCounted r.q s with queue := { (missCounted r.q s).queue with
    fetching := (missCounted r.q s).queue.fetching ++ [r.q] } }
  have hrequest : request r ann s = setRec { r with phase := .waiting s.tim.raw } u := by
    unfold request
    rw [if_neg (by simp [hen]), if_neg (by simp [hquiet]), if_pos (by simp [hc]), if_neg (by simpa using hfetching)]
    refine (startWait_ready hphase u).trans ?_
    rw [show u.tim = s.tim from (hmiss.queueStep.onQueue u.queue).tim]
  have hshow := writesOnly_showStaging (setRec { r with phase := .waiting s.tim.raw } u)
  have hstep : QueueStep (InSlot .queue) s (showStaging (setRec { r with phase := .waiting s.tim.raw } u)) :=
    ((((hmiss.queueStep.onQueue u.queue).trans (queueStep_setRec _ _)).mono (by rintro a rfl; exact inSlot_base _ (by decide))).trans
      (hshow.queueStep.mono (by rintro a rfl; exact inSlot_base _ (by decide))))
  refine ⟨_, (exec_reservationRequest h hq hphase hrun).trans (congrArg _ (congrArg showStaging hrequest)), ?_, ?_, ?_, hstep.mem,
    hstep.word⟩
  · rw [queue_showStaging]
    exact Sole.setRec_recs (Sole.congr h (congrArg QueueSt.recs hkept :)) rfl rfl rfl
  · rw [queue_showStaging]
    exact congrArg (· ++ [r.q]) (congrArg QueueSt.fetching hkept)
  · exact (hshow.rd (by decide)).trans (missCounted_misses r.q s)

/-! ### Refusals and failures (R178, R196, R197, R203) -/

/-- A refusal is counted and observed before its record is abandoned. -/
def refusalNoted (r : Rec) (s : State) : State := (s.cnt .queue R.QUEUE_COUNTS.refused 1).observe 83 10 1 r.q

/-- The word of QUEUE_COUNTS.refused, and the registers of OBSERVE. -/
def RefusalWord (a : Nat) : Prop := a = Blk.queue.base + 0xa8 ∨ InSlot .observe a

section Refuse
variable (r : Rec) (s : State)

theorem queueStep_refusalNoted : QueueStep RefusalWord s (refusalNoted r s) :=
  ((QueueStep.refl _ s).cnt 1 (.inl rfl)).trans ((queueStep_observe _ 83 10 1 r.q).mono fun _ => .inr)

theorem queue_refusalNoted : (refusalNoted r s).queue = s.queue := (observe_queue _ _ _ _ _).trans (cnt_queue _ _ _ _)

theorem refusalNoted_refused : (refusalNoted r s).rd .queue R.QUEUE_COUNTS.refused =
    min (s.rd .queue R.QUEUE_COUNTS.refused + 1) (2 ^ 32 - 1) :=
  ((queueStep_observe _ 83 10 1 r.q).rd (not_inSlot (by decide) (by decide))).trans (rd_cnt_val _ _ _ _ (by decide))

/-- A field of a record's producer is not touched. -/
theorem refusalNoted_records {f : Fld} (hf : f.off < 0x10000) : (refusalNoted r s).rd (.records r.prod) f = s.rd (.records r.prod) f := by
  refine (queueStep_refusalNoted r s).rd ?_
  have hslot : (Blk.records r.prod).slot = 0x083 + 4 * r.prod := rfl
  rintro (hw | hw)
  · exact not_inSlot (b := .queue) (c := .records r.prod) (by rw [hslot]; change _ ≠ 0x030; omega) hf (hw ▸ inSlot_base _ (by decide))
  · exact not_inSlot (b := .observe) (c := .records r.prod) (by rw [hslot]; change _ ≠ 0x009; omega) hf hw

end Refuse

/-- What a refusal of the only record of a queue leaves. -/
theorem refuse_abandons {s : State} {r : Rec} {rs : List Rec} (h : s.Sole r rs) (hgone : r.gone = false) (hc : s.cached r.q = true) :
    Abandoned r rs (refusalNoted r s) (refuse r s) ∧ (refusalNoted r s).ctx r.q = s.ctx r.q :=
  ⟨abandoned_abandon (Sole.congr h (congrArg QueueSt.recs (queue_refusalNoted r s))) hgone
    ((cached_congr (congrArg QueueSt.cache (queue_refusalNoted r s)) _).trans hc) 8,
    ctx_congr (congrArg QueueSt.cache (queue_refusalNoted r s)) hc⟩

/-- The word of an abandoned record's count lies in its producer's slot. -/
theorem abandonWord_records {r : Rec} (hcls : r.cls ≠ 11) : InSlot (.records r.prod) (abandonWord r) := by
  unfold abandonWord
  rw [if_neg hcls]
  exact inSlot_base _ (by decide)

theorem slot_records_ne_queue (p : Nat) : Blk.queue.slot ≠ (Blk.records p).slot := by
  change 0x030 ≠ 0x083 + 4 * p
  omega

/-- No field of the queue engine counts an abandoned record. -/
theorem ne_abandonWord {r : Rec} (hcls : r.cls ≠ 11) {o : Nat} (ho : o < 0x10000) : Blk.queue.base + o ≠ abandonWord r := fun e =>
  not_inSlot (slot_records_ne_queue r.prod) ho (e ▸ abandonWord_records hcls)

/-- QUEUE_STAGING is not a register of a producer. -/
theorem rd_records_showStaging (p : Nat) {f : Fld} (hf : f.off < 0x10000) (s : State) :
    (showStaging s).rd (.records p) f = s.rd (.records p) f :=
  (writesOnly_showStaging s).rd fun hw =>
    not_inSlot (slot_records_ne_queue p).symm hf (hw ▸ inSlot_base .queue (by decide))

theorem ctx_showStaging {s : State} {q : Nat} (hc : s.cached q = true) : (showStaging s).ctx q = s.ctx q :=
  ctx_congr (congrArg QueueSt.cache (queue_showStaging s)) hc

theorem reservation_timesOut (s : State) (q : BitVec 20) (ann : AnnResult) (r : Rec) (rs : List Rec) (u : Nat) (h : s.Sole r rs)
    (hq : r.q = q.toNat) (hphase : r.phase = .waiting u) (hcls : r.cls ≠ 11)
    (hdue : u + s.rd .queue R.QUEUE_CFG.full_wait * usUnits ≤ s.tim.raw) (hc : s.cached q.toNat = true)
    (habsent : (s.ctx q.toNat).absent + 1 < 2 ^ 28 - 1) : Completes (.reservationTimeout q ann) s (fun t => t.queue.recs = rs ∧
      (t.ctx q.toNat).absent = (s.ctx q.toNat).absent + 1 ∧
      t.rd .queue R.QUEUE_COUNTS.refused = min (s.rd .queue R.QUEUE_COUNTS.refused + 1) (2 ^ 32 - 1) ∧
      t.rd (.records r.prod) R.REC_COUNTS.abandoned = min (s.rd (.records r.prod) R.REC_COUNTS.abandoned + 1) (2 ^ 32 - 1) ∧
      t.mem = s.mem) := by
  rw [← hq] at hc habsent ⊢
  obtain ⟨hout, hctx⟩ := refuse_abandons h (by rw [Rec.gone, hphase]) hc
  obtain ⟨hkeep, hmissed⟩ := hout.below (hctx ▸ habsent)
  have hop : exec (.reservationTimeout q ann) s = .next (showStaging (refuse r s)) := by
    refine congrArg Host.Outcome.next ?_
    unfold opReservationTimeout
    rw [← hq, Sole.headRec h]
    simp only [hphase, hdue, if_true]
    rw [ask_of_none (Sole.headRec_without h hout.recs)]
  have hshow := writesOnly_showStaging (refuse r s)
  refine ⟨_, hop, ?_, ?_, ?_, ?_, ?_⟩
  · rw [queue_showStaging, hout.recs]
  · rw [ctx_showStaging hout.cached, hmissed, hctx, missed_absent habsent]
  · exact ((hshow.rd (by decide)).trans (hkeep.rd (ne_abandonWord hcls (by decide)))).trans (refusalNoted_refused r s)
  · rw [rd_records_showStaging _ (by decide), hout.counted hcls, refusalNoted_records r s (by decide)]
  · exact (hshow.queueStep.mem.trans hkeep.mem).trans (queueStep_refusalNoted r s).mem

theorem recordWrite_fails (s : State) (q : BitVec 20) (r : Rec) (rs : List Rec) (h : s.Sole r rs) (hq : r.q = q.toNat)
    (hphase : r.phase = .granted) (hc : s.cached q.toNat = true) (hdestroying : s.queue.destroying = none) :
    Completes (.recordWriteFailure q) s (fun t => t.queue.recs = rs ∧ (t.ctx q.toNat).halted = true ∧
      t.rd .queue R.QUEUE_LAST_FAULT.queue = q.toNat ∧ t.rd .queue R.QUEUE_LAST_FAULT.cause = 2 ∧
      t.rd .queue R.QUEUE_FAULT.target = 1 ∧ t.mem = s.mem) := by
  rw [← hq] at hc ⊢
  obtain ⟨hs, hcount, hlt, -⟩ := id h
  have hout := abandoned_abandon h (by rw [Rec.gone, hphase]) hc 7
  have hhalt := queueStep_haltQueue hout.cached 2
  have hop : exec (.recordWriteFailure q) s = .next (showStaging (haltQueue r.q 2 (abandon r 7 s))) := by
    have hfind : s.queue.recs.find? (fun x => decide (x.q = q.toNat) && x.reserved) = some r := by
      rw [hs]
      exact List.find?_cons_of_pos (by simp [hq, Rec.reserved, hphase])
    refine congrArg Host.Outcome.next ?_
    unfold opRecordWriteFailure
    rw [hfind]
    simp only [hphase, writeFailed, if_pos hcount]
    rw [destroyCheck_of_none ((destroying_haltQueue hout.cached 2).trans (hout.destroying.trans hdestroying))]
  have hshow := writesOnly_showStaging (haltQueue r.q 2 (abandon r 7 s))
  obtain ⟨hqueue, hcause, hfault⟩ := haltShown_target r.q (setCtx r.q (((abandon r 7 s).ctx r.q).setBit 8 1) (abandon r 7 s))
  rw [← haltQueue_eq] at hqueue hcause hfault
  refine ⟨_, hop, ?_, ?_, ?_, (hshow.rd (by decide)).trans hcause, (hshow.rd (by decide)).trans hfault, ?_⟩
  · rw [queue_showStaging, recs_haltQueue hout.cached, hout.recs]
  · rw [ctx_showStaging (cached_haltQueue hout.cached 2), ctx_haltQueue hout.cached, setHalted_halted]
  · exact ((hshow.rd (by decide)).trans hqueue).trans (Nat.mod_eq_of_lt hlt)
  · exact (hshow.queueStep.mem.trans hhalt.mem).trans hout.step.mem

/-- The cached context marked, and its error logged. -/
def ctxErrorLogged (q : Nat) (s : State) : State :=
  let t := setWays q ((s.ways q).map (fun w => if w.q = q then { w with bad := true } else w)) (s.free 197).2
  logBad .depot ((s.free 197).1 / 256 % 2 ^ 23 * 8) 0 ((s.free 197).1 % 256) t

theorem ctxError_cached {q : Nat} {s : State} (hc : s.cached q = true) : ctxError q s = haltQueue q 0 (ctxErrorLogged q s) := if_pos hc

section CtxError
variable {q : Nat} {s : State} (hc : s.cached q = true)

theorem queue_ctxErrorLogged (q : Nat) (s : State) : (ctxErrorLogged q s).queue =
    (setWays q ((s.ways q).map (fun w => if w.q = q then { w with bad := true } else w)) s).queue :=
  (onlyObs_logBad ..).frame.2.2.2.2.1

include hc

theorem cached_ctxErrorLogged : (ctxErrorLogged q s).cached q = true :=
  (cached_congr (congrArg QueueSt.cache (queue_ctxErrorLogged q s)) q).trans
    ((cached_mapWay _ (fun w => by split <;> rfl) s q).trans hc)

theorem ctx_ctxErrorLogged : (ctxErrorLogged q s).ctx q = s.ctx q := by
  have hmarked := (cached_mapWay (fun w => if w.q = q then { w with bad := true } else w) (fun w => by split <;> rfl) s q).trans hc
  obtain ⟨w, hw⟩ := List.find?_isSome.2 (List.any_eq_true.1 hc) |> Option.isSome_iff_exists.1
  rw [ctx_congr (congrArg QueueSt.cache (queue_ctxErrorLogged q s)) hmarked]
  unfold State.ctx
  rw [ways_setWays, find_mapWay _ (fun w => by split <;> rfl), hw]
  dsimp only [Option.map_some]
  split <;> rfl

end CtxError

theorem reservation_ctxBad (s : State) (q : BitVec 20) (r : Rec) (rs : List Rec) (h : s.Sole r rs) (hq : r.q = q.toNat)
    (hphase : r.phase = .ready) (hcls : r.cls ≠ 11) (hrun : s.coreRuns = true) (hen : s.enabled .queue = true)
    (hquiet : s.quiescedAt .queue = none) (hc : s.cached q.toNat = true) (habsent : (s.ctx q.toNat).absent + 1 < 2 ^ 28 - 1) :
    Completes (.reservationRequest q .ctxBad) s (fun t => t.queue.recs = rs ∧
      (t.ctx q.toNat).halted = true ∧ (t.ctx q.toNat).absent = (s.ctx q.toNat).absent + 1 ∧
      t.rd .queue R.QUEUE_LAST_FAULT.queue = q.toNat ∧ t.rd .queue R.QUEUE_LAST_FAULT.cause = 0 ∧
      t.rd .queue R.QUEUE_FAULT.ctx_ecc = 1) := by
  rw [← hq] at hc habsent ⊢
  have hlt : r.q < 2 ^ 20 := h.2.2.1
  have htouched : (touchCtx r.q s).cached r.q = true := (cached_touchCtx r.q s).trans hc
  have hlogged := cached_ctxErrorLogged htouched
  let v := ctxErrorLogged r.q (touchCtx r.q s)
  have hctx : (haltQueue r.q 0 v).ctx r.q = (s.ctx r.q).setBit 8 1 := by
    rw [ctx_haltQueue hlogged, ctx_ctxErrorLogged htouched, ctx_touchCtx r.q s hc]
  have hhalted : ((haltQueue r.q 0 v).ctx r.q).halted = true := by rw [hctx, setHalted_halted]
  have hrequest : request r .ctxBad s = refuse r (haltQueue r.q 0 v) := by
    have hread : readCtx r.q .ctxBad (touchCtx r.q s) = haltQueue r.q 0 v :=
      (if_pos (by simp [htouched])).trans (ctxError_cached htouched)
    rw [request_cached _ hen hquiet hc, hread]
    exact if_pos hhalted
  have hsole : (haltQueue r.q 0 v).Sole r rs := Sole.congr h
    ((recs_haltQueue hlogged 0).trans (congrArg QueueSt.recs (queue_ctxErrorLogged r.q (touchCtx r.q s)) :))
  obtain ⟨hout, hkept⟩ := refuse_abandons hsole (by rw [Rec.gone, hphase]) (cached_haltQueue hlogged 0)
  have habsent' : ((refusalNoted r (haltQueue r.q 0 v)).ctx r.q).absent = (s.ctx r.q).absent := by rw [hkept, hctx, setBit_absent]
  obtain ⟨hkeep, hmissed⟩ := hout.below (habsent' ▸ habsent)
  obtain ⟨hqueue, hcause, hfault⟩ := haltShown_ctxError r.q (setCtx r.q ((v.ctx r.q).setBit 8 1) v)
  rw [← haltQueue_eq] at hqueue hcause hfault
  have hshown : ∀ f : Fld, f.off < 0x10000 → f.off ≠ 0xd0 → f.off ≠ 0xa8 →
      (showStaging (refuse r (haltQueue r.q 0 v))).rd .queue f = (haltQueue r.q 0 v).rd .queue f := fun f hf hstaging hrefused => by
    refine ((writesOnly_showStaging _).rd fun e => hstaging (Nat.add_left_cancel e)).trans
      ((hkeep.rd (ne_abandonWord hcls hf)).trans ((queueStep_refusalNoted r _).rd ?_))
    rintro (e | hw)
    · exact hrefused (Nat.add_left_cancel e)
    · exact not_inSlot (b := .observe) (c := .queue) (by decide) hf hw
  refine ⟨_, (exec_reservationRequest h hq hphase hrun).trans (congrArg _ (congrArg showStaging hrequest)), ?_, ?_, ?_,
    ((hshown _ (by decide) (by decide) (by decide)).trans hqueue).trans (Nat.mod_eq_of_lt hlt),
    (hshown _ (by decide) (by decide) (by decide)).trans hcause, (hshown _ (by decide) (by decide) (by decide)).trans hfault⟩
  · rw [queue_showStaging, hout.recs]
  · rw [ctx_showStaging hout.cached, hmissed, missed_halted, hkept, hhalted]
  · rw [ctx_showStaging hout.cached, hmissed, missed_absent (habsent' ▸ habsent), habsent']

theorem quiesceSeal_abandons (s : State) (r : Rec) (rs : List Rec) (u : Nat) (h : s.Sole r rs) (hquiesced : s.quiescedAt .queue = some u)
    (hrun : s.coreRuns = true) (hdue : u + 50 * usUnits ≤ s.tim.raw) (hphase : r.phase = .granted) (hcls : r.cls ≠ 11)
    (hothers : ∀ x ∈ rs, x.phase ≠ .granted) (hc : s.cached r.q = true) : Completes .quiesceSealDeadline s (fun t => t.queue.recs = rs ∧
      t.rd (.records r.prod) R.REC_COUNTS.abandoned = min (s.rd (.records r.prod) R.REC_COUNTS.abandoned + 1) (2 ^ 32 - 1)) := by
  obtain ⟨hs, hcount, -⟩ := id h
  have hout := abandoned_abandon h (by rw [Rec.gone, hphase]) hc 7
  have hdueRecs : s.queue.recs.filter (fun x => decide (x.phase = .granted) && decide (x.count = 0)) = [r] := by
    rw [hs, List.filter_cons_of_pos (by simp [hphase, hcount])]
    exact congrArg (r :: ·) (List.filter_eq_nil_iff.2 fun x hx => by simp [hothers x hx])
  have hop : exec .quiesceSealDeadline s = .next (showStaging (abandon r 7 s)) := by
    refine congrArg Host.Outcome.next ?_
    unfold opQuiesceSealDeadline
    rw [hquiesced]
    dsimp only
    rw [if_neg (by simp [hrun, hdue]), hdueRecs]
    unfold State.each
    rw [List.foldl_cons, List.foldl_nil]
    dsimp only
    rw [Sole.recOf h]
  refine ⟨_, hop, ?_, ?_⟩
  · rw [queue_showStaging, hout.recs]
  · rw [rd_records_showStaging _ (by decide), hout.counted hcls]

end Sys2Proof.Proofs

namespace Sys2Proof.Proofs
open Sys2Proof Sys2Proof.Machine Sys2Proof.Laws

/-! ### Writes to a target: DRAM or the host's memory (R337, R350) -/

/-- The registers a write to a target may touch: those of the endpoint, and those of a DRAM write. -/
def TargetWord (a : Nat) : Prop := InSlot .dma a ∨ DramWord a

/-- `t` differs from `s` in those registers, and in nothing that the queue engine holds. -/
structure TargetStep (s t : State) : Prop where
  word : ∀ a, ¬ TargetWord a → t.word a = s.word a
  queue : t.queue = s.queue

section TargetStep
variable {s t u : State}

theorem TargetStep.refl (s : State) : TargetStep s s := ⟨fun _ _ => rfl, rfl⟩

theorem TargetStep.trans (h : TargetStep s t) (g : TargetStep t u) : TargetStep s u :=
  ⟨fun a ha => (g.word a ha).trans (h.word a ha), g.queue.trans h.queue⟩

theorem TargetStep.rd (h : TargetStep s t) {b : Blk} {f : Fld} (hw : ¬ TargetWord (b.base + f.off)) : t.rd b f = s.rd b f := by
  unfold State.rd
  rw [h.word _ hw]

/-- A register of a block other than DMA, away from the places of DRAM_ECC and DRAM_FERRY_WR. -/
theorem not_targetWord {b : Blk} (hb : b.slot ≠ Blk.dma.slot) {o : Nat} (ho : o < 0x10000) (hecc : o ≠ 0x170) (hferry : o ≠ 0x190) :
    ¬ TargetWord (b.base + o) := by
  rintro (hw | hw)
  · exact not_inSlot hb ho hw
  · unfold DramWord at hw
    rw [base_add_mod b ho] at hw
    omega

/-- `t` differs from `s` in registers, in the memories and in what the DRAM channels hold. -/
def OnlyDram (s t : State) : Prop := t = { s with regs := t.regs, mem := t.mem, dram := t.dram }

theorem OnlyDram.trans (h : OnlyDram s t) (g : OnlyDram t u) : OnlyDram s u := by
  unfold OnlyDram at h g ⊢
  rw [g, h]

theorem OnlyDram.queue (h : OnlyDram s t) : t.queue = s.queue := by
  unfold OnlyDram at h
  rw [h]

theorem OnlyDram.recs (h : OnlyDram s t) : t.recs = s.recs := by
  unfold OnlyDram at h
  rw [h]

theorem onlyDram_of_onlyRegs (h : OnlyRegs s t) : OnlyDram s t := by
  unfold OnlyRegs at h
  unfold OnlyDram
  rw [h]

theorem onlyDram_dramPutLine (w : Nat) (ds : List (Option Byte)) (s : State) : OnlyDram s (dramPutLine w ds s) := by
  unfold dramPutLine
  split
  · split
    · rfl
    · split
      · rfl
      · exact onlyDram_of_onlyRegs (onlyRegs_cnt _ _ _ _)
  · rfl

theorem onlyDram_dramWriteLine (w : Nat) (ds : List (Option Byte)) (s : State) : OnlyDram s (dramWriteLine w ds s) := by
  unfold dramWriteLine
  dsimp only
  split
  · rfl
  · split
    · exact (onlyDram_dramPutLine w ds s).trans (onlyDram_of_onlyRegs (onlyRegs_ferryPass _ _ _ _ _ _))
    · exact OnlyDram.trans (t := s.setDram _ _) rfl (onlyDram_of_onlyRegs (onlyRegs_ferryLevel _ _ _ _ _ _))

theorem onlyDram_dramWriteLines (a : Nat) (data : List (Option Byte)) (ws : List Nat) :
    ∀ s : State, OnlyDram s (dramWriteLines a data ws s) := by
  induction ws with
  | nil => exact fun _ => rfl
  | cons w ws ih => exact fun s => (onlyDram_dramWriteLine w _ s).trans (ih _)

theorem queue_toHost (s : State) (q : HostReq) : (s.toHost q).queue = s.queue := by
  have h := onlyHost_toHost s q
  unfold OnlyHost at h
  rw [h]

theorem targetStep_targetWrite (dram : Bool) (a : Nat) (bs : List Byte) (s : State) : TargetStep s (targetWrite dram a bs s) := by
  cases dram with
  | true => exact ⟨fun x hx => (hostKeeps_dramWrite a bs s).word x fun hw => hx (.inr hw), (onlyDram_dramWriteLines _ _ _ s).queue⟩
  | false => exact ⟨fun x hx => (hostSide_toHost (.write a bs) s).word x fun hw => hx (.inl hw), queue_toHost s _⟩

theorem targetStep_bufWrite (c : Ctx) (a : Nat) (bs : List Byte) (s : State) : TargetStep s (bufWrite c a bs s) := by
  unfold bufWrite
  dsimp only
  split
  · exact (targetStep_targetWrite _ _ _ s).trans (targetStep_targetWrite _ _ _ _)
  · exact targetStep_targetWrite _ _ _ s

end TargetStep

/-! ### The seal (R161, R163, R178, R365) -/

theorem length_leBytes (n : Nat) : ∀ v, (leBytes n v).length = n := by
  induction n with
  | zero => exact fun _ => rfl
  | succ n ih => exact fun v => congrArg (· + 1) (ih (v / 256))

theorem length_zeros (n : Nat) : (zeros n).length = n := List.length_replicate

theorem length_manifest (s : State) (r : Rec) (alive : Nat) : (s.manifest r alive).length = 64 := by
  unfold State.manifest
  simp only [List.length_append, length_leBytes, length_zeros]

/-- The trailer's check value ends the record at its length. -/
theorem length_recBody (s : State) (r : Rec) (alive : Nat) : (s.recBody r alive).length + 8 = recLen r.payload.length r.meas.length := by
  unfold State.recBody
  simp only [List.length_append, length_manifest, length_leBytes, length_zeros]
  unfold recLen ceilDiv
  omega

theorem recUnit_lt (s : State) (r : Rec) : s.recUnit r < 64 := by
  unfold State.recUnit
  split <;> exact get_lt _ _

/-- The record once it is sealed. -/
def sealedAs (s : State) (r : Rec) : Rec :=
  { r with phase := .sealed, alive := s.rd .check (R.CHK_ALIVE.alive (s.recUnit r)), len := recLen r.payload.length r.meas.length }

/-- The check unit has computed the record's CRC, and its alive counter goes on. -/
def unitChecked (r : Rec) (s : State) : State :=
  let u := s.recUnit r
  let alive := s.rd .check (R.CHK_ALIVE.alive u)
  (checkUnit u (s.rd .check (R.CHK_CFG.poly u)) (s.recBody r alive) s).1.wr .check (R.CHK_ALIVE.alive u) (alive + 1)

/-- The registers of a check unit lie in its slot. -/
theorem inSlot_check {u o : Nat} (hu : u < 64) (ho : o < 0x1000) : InSlot .check (Blk.check.base + (o + 0x40 * u)) :=
  inSlot_base _ (by omega)

theorem writesOnly_checkUnit {u : Nat} (hu : u < 64) (poly : Nat) (bs : List Byte) (s : State) :
    WritesOnly (InSlot .check) s (checkUnit u poly bs s).1 := by
  have hcrc : WritesOnly (InSlot .check) s (s.wr .check (R.CHK_LAST.crc u) (crc poly bs)) :=
    writesOnly_wr s _ (inSlot_check hu (by decide))
  have hbytes := hcrc.cnt (f := R.CHK_BYTES.count u) bs.length (inSlot_check hu (by decide))
  exact hbytes.cnt (f := R.CHK_COUNTS.done u) 1 (inSlot_check hu (by decide))

theorem writesOnly_unitChecked (r : Rec) (s : State) : WritesOnly (InSlot .check) s (unitChecked r s) :=
  (writesOnly_checkUnit (recUnit_lt s r) _ _ s).wr _ (inSlot_check (recUnit_lt s r) (by decide))

theorem unitChecked_alive (r : Rec) (s : State) : (unitChecked r s).rd .check (R.CHK_ALIVE.alive (s.recUnit r)) =
    (s.rd .check (R.CHK_ALIVE.alive (s.recUnit r)) + 1) % 65536 := rd_wr_val _ _ _ _ (show 0 + 16 ≤ 64 by decide)

theorem sealRec_ok (r : Rec) (s : State) : ∃ u, sealRec r false s = (u, some (sealedAs s r)) ∧ TargetStep (unitChecked r s) u := by
  have hseal : sealRec r false s = (bufWrite ((unitChecked r s).ctx r.q) (64 * r.off) _ (unitChecked r s), some { r with
      phase := .sealed
      alive := s.rd .check (R.CHK_ALIVE.alive (s.recUnit r))
      len := (s.recBody r (s.rd .check (R.CHK_ALIVE.alive (s.recUnit r)))).length + 8 }) := rfl
  rw [length_recBody] at hseal
  exact ⟨_, hseal, targetStep_bufWrite _ _ _ _⟩

theorem slot_records_ne_dma (p : Nat) : (Blk.records p).slot ≠ Blk.dma.slot := by
  change 0x083 + 4 * p ≠ 0x020
  omega

theorem slot_records_ne_check (p : Nat) : (Blk.records p).slot ≠ Blk.check.slot := by
  change 0x083 + 4 * p ≠ 0x008
  omega

theorem slot_records_ne_observe (p : Nat) : (Blk.records p).slot ≠ Blk.observe.slot := by
  change 0x083 + 4 * p ≠ 0x009
  omega

/-- A sealed record is observed and counted at its producer. -/
theorem countSealed {r : Rec} (hcls : r.cls ≠ 11) (s : State) :
    QueueStep (fun a => InSlot .observe a ∨ InSlot (.records r.prod) a) s (countRec r true s) ∧ (countRec r true s).queue = s.queue ∧
    (countRec r true s).rd (.records r.prod) R.REC_COUNTS.sealed =
      min (s.rd (.records r.prod) R.REC_COUNTS.sealed + 1) (2 ^ 32 - 1) := by
  obtain ⟨arg, hcount⟩ : ∃ arg, countRec r true s =
      ((s.observe r.prod 5 1 arg).observe 85 5 1 arg).cnt (.records r.prod) R.REC_COUNTS.sealed 1 := ⟨_, if_neg hcls⟩
  have hobs := (queueStep_observe s r.prod 5 1 arg).trans (queueStep_observe _ 85 5 1 arg)
  rw [hcount]
  refine ⟨(hobs.mono fun _ => .inl).cnt 1 (.inr (inSlot_base _ (by decide))), ?_, ?_⟩
  · rw [cnt_queue, observe_queue, observe_queue]
  · rw [rd_cnt_val _ _ _ _ (by decide), hobs.rd (not_inSlot (slot_records_ne_observe r.prod) (by decide))]
    rfl

theorem record_sealed (s : State) (q : BitVec 20) (r : Rec) (rs : List Rec) (h : s.Sole r rs) (hq : r.q = q.toNat)
    (hphase : r.phase = .granted) (hcls : r.cls ≠ 11) (hen : s.enabled .check = true) (hrun : s.coreRuns = true)
    (hstalls : s.bufStalls r.q r.off (recLen r.payload.length r.meas.length) = false) :
    Completes (.recordSeal q .ok) s (fun t =>
      (∃ r', t.queue.recs = r' :: rs ∧ r'.phase = .sealed ∧ r'.alive = s.rd .check (R.CHK_ALIVE.alive (s.recUnit r)) ∧
        r'.len = recLen r.payload.length r.meas.length ∧ r'.q = r.q ∧ r'.seq = r.seq ∧ r'.off = r.off) ∧
      t.rd .check (R.CHK_ALIVE.alive (s.recUnit r)) = (s.rd .check (R.CHK_ALIVE.alive (s.recUnit r)) + 1) % 65536 ∧
      t.rd (.records r.prod) R.REC_COUNTS.sealed = min (s.rd (.records r.prod) R.REC_COUNTS.sealed + 1) (2 ^ 32 - 1)) := by
  obtain ⟨u, hseal, hwritten⟩ := sealRec_ok r s
  have hop : exec (.recordSeal q .ok) s = .next (showStaging (countRec (sealedAs s r) true (setRec (sealedAs s r) u))) := by
    refine congrArg Host.Outcome.next ?_
    unfold opRecordSeal
    rw [← hq, Sole.headRec h]
    dsimp only
    rw [if_pos (by simp [hphase, hen, hrun, hstalls])]
    have hok : decide (SealResult.ok = .mismatch) = false := rfl
    rw [hok, hseal]
  have hchecked := writesOnly_unitChecked r s
  have hlt := recUnit_lt s r
  have halive : (R.CHK_ALIVE.alive (s.recUnit r)).off = 0x108 + 0x40 * s.recUnit r := rfl
  obtain ⟨hstep, hqueue, hsealed⟩ := countSealed (r := sealedAs s r) hcls (setRec (sealedAs s r) u)
  have hrecs : u.queue.recs = s.queue.recs := congrArg QueueSt.recs (hwritten.queue.trans (onlyRegs_queue hchecked.only))
  refine ⟨_, hop, ⟨sealedAs s r, ?_, rfl, rfl, rfl, rfl, rfl, rfl⟩, ?_, ?_⟩
  · rw [queue_showStaging, hqueue]
    exact Sole.setRec_recs (Sole.congr h hrecs) rfl rfl rfl
  · refine ((writesOnly_showStaging _).rd fun e => ?_).trans ((hstep.rd ?_).trans ((hwritten.rd ?_).trans (unitChecked_alive r s)))
    · have hw : InSlot .queue (Blk.check.base + (R.CHK_ALIVE.alive (s.recUnit r)).off) := by
        rw [e]
        exact inSlot_base _ (by decide)
      exact not_inSlot (by decide) (by omega) hw
    · rintro (hw | hw)
      · exact not_inSlot (b := .observe) (c := .check) (by decide) (by omega) hw
      · exact not_inSlot (c := .check) (slot_records_ne_check _).symm (by omega) hw
    · exact not_targetWord (by decide) (by omega) (by omega) (by omega)
  · refine (rd_records_showStaging _ (by decide) _).trans (hsealed.trans ?_)
    have hkept : (setRec (sealedAs s r) u).rd (.records r.prod) R.REC_COUNTS.sealed = s.rd (.records r.prod) R.REC_COUNTS.sealed :=
      (hwritten.rd (not_targetWord (slot_records_ne_dma _) (by decide) (by decide) (by decide))).trans
        (hchecked.rd (not_inSlot (slot_records_ne_check _) (by decide)))
    exact congrArg (fun n => min (n + 1) (2 ^ 32 - 1)) hkept

/-! ### Completion queues and MSI-X (R361, R364) -/

/-- The word of CQ_STATUS of completion queue `c`. -/
def cqStatusWord (c : Nat) : Nat := (cqBlk c).base + (0x1118 + 0x20 * (c % 256))

/-- `t` differs from `s` in the registers of the endpoint, and on the host's side. -/
structure LinkSide (s t : State) : Prop where
  rest : t = { s with regs := t.regs, host := t.host }
  word : SameOutside .dma s t

theorem linkSide_toHost (s : State) (q : HostReq) : LinkSide s (s.toHost q) := ⟨onlyHost_toHost s q, (hostSide_toHost q s).word⟩

theorem linkSide_msix (s : State) (v : Nat) : LinkSide s (s.msix v) := by
  refine ⟨onlyHost_msix s v, ?_⟩
  unfold State.msix
  split
  · exact fun _ _ => rfl
  · split
    · exact (linkSide_toHost s _).word
    · split
      · exact fun _ _ => rfl
      · exact (linkSide_toHost s _).word

theorem linkSide_cqSignal (c : Nat) (s : State) : LinkSide s (cqSignal c s) := by
  unfold cqSignal
  split
  · exact linkSide_msix s _
  · exact ⟨rfl, fun _ _ => rfl⟩

theorem LinkSide.queue {s t : State} (h : LinkSide s t) : t.queue = s.queue := by rw [h.rest]
theorem LinkSide.mem {s t : State} (h : LinkSide s t) : t.mem = s.mem := by rw [h.rest]

theorem LinkSide.targetStep {s t : State} (h : LinkSide s t) : TargetStep s t := ⟨fun a ha => h.word a fun hw => ha (.inl hw), h.queue⟩

/-- A signal that nothing holds back is sent. -/
theorem cqSignal_sends {c : Nat} {s : State} (hirq : s.flag (cqBlk c) (R.CQ_CFG.irq_enable (c % 256)) = true)
    (hen : s.flag .dma R.PCIE_STATUS.msix_enable = true) (hwedged : s.endpointWedged = false)
    (hmaster : s.flag .dma R.PCIE_STATUS.bus_master = true) (hmask : s.msixMasked (s.rd (cqBlk c) (R.CQ_CFG.vector (c % 256))) = false) :
    (cqSignal c s).host.sent = s.host.sent ++ [s.rd (cqBlk c) (R.CQ_CFG.vector (c % 256))] := by
  have hsend : cqSignal c s = s.toHost (.message (s.rd (cqBlk c) (R.CQ_CFG.vector (c % 256)))) := by
    unfold cqSignal State.msix
    rw [if_pos hirq, if_neg (by simp [hen]), if_neg (by simp [hwedged]), if_neg (by simp [hmask])]
  rw [hsend, toHost_open ⟨hmaster, hwedged⟩]
  rfl

/-- CQ_STATUS once a waybill is in the queue: the tail, the phase where the tail wraps, and whether the queue is full. -/
def cqAdvanced (c ph t : Nat) (s : State) : State :=
  let u := s.wr (cqBlk c) (R.CQ_STATUS.tail (c % 256)) t
  syncCqFull c (if t = 0 then u.wr (cqBlk c) (R.CQ_STATUS.phase (c % 256)) (1 - ph) else u)

section Advanced
variable (c ph t : Nat) (s : State)

theorem writesOnly_cqAdvanced : WritesOnly (· = cqStatusWord c) s (cqAdvanced c ph t s) := by
  have htail : WritesOnly (· = cqStatusWord c) s (s.wr (cqBlk c) (R.CQ_STATUS.tail (c % 256)) t) := writesOnly_wr s t rfl
  unfold cqAdvanced syncCqFull
  dsimp only
  split
  · exact (htail.wr _ rfl).wr _ rfl
  · exact htail.wr _ rfl

theorem cqAdvanced_tail : (cqAdvanced c ph t s).rd (cqBlk c) (R.CQ_STATUS.tail (c % 256)) = t % 2 ^ 16 := by
  have htail : (s.wr (cqBlk c) (R.CQ_STATUS.tail (c % 256)) t).rd (cqBlk c) (R.CQ_STATUS.tail (c % 256)) = t % 2 ^ 16 :=
    rd_wr_val _ _ _ _ (show 0 + 16 ≤ 64 by decide)
  have habove : ∀ (f : Fld) (u : State) (v : Nat), 16 ≤ f.lo → (u.wr (cqBlk c) f v).rd (cqBlk c) (R.CQ_STATUS.tail (c % 256)) =
      u.rd (cqBlk c) (R.CQ_STATUS.tail (c % 256)) := fun f u v hf => rd_wr_keep _ _ _ _ _ (.inr (.inl hf))
  unfold cqAdvanced syncCqFull
  dsimp only
  split
  · exact (habove _ _ _ (show 16 ≤ 17 by decide)).trans ((habove _ _ _ (show 16 ≤ 16 by decide)).trans htail)
  · exact (habove _ _ _ (show 16 ≤ 17 by decide)).trans htail

end Advanced

theorem not_target_cqStatusWord (c : Nat) : ¬ TargetWord (cqStatusWord c) :=
  not_targetWord (cqBlk_slot_ne_dma c) (by omega) (by omega) (by omega)

/-- A waybill is pushed: its bytes go to the target, the tail moves on, and the vector may be requested. -/
theorem cqPush_moves (c : Nat) (w : Waybill) (s : State) (hlog : (s.cqSt c).log2n ≤ 16) : (cqPush c w s).queue = s.queue ∧
    (∀ a, a ≠ cqStatusWord c → ¬ TargetWord a → (cqPush c w s).word a = s.word a) ∧
    (cqPush c w s).rd (cqBlk c) (R.CQ_STATUS.tail (c % 256)) =
      (s.rd (cqBlk c) (R.CQ_STATUS.tail (c % 256)) + 1) % 2 ^ (s.cqSt c).log2n := by
  let t := (s.rd (cqBlk c) (R.CQ_STATUS.tail (c % 256)) + 1) % 2 ^ (s.cqSt c).log2n
  obtain ⟨u, ph, hwritten, hpush⟩ : ∃ u ph, TargetStep s u ∧
      cqPush c w s = if w.signal then cqSignal c (cqAdvanced c ph t u) else cqAdvanced c ph t u :=
    ⟨_, _, (targetStep_targetWrite _ _ _ s).trans (targetStep_targetWrite _ _ _ _), rfl⟩
  have hsignal : TargetStep (cqAdvanced c ph t u) (cqPush c w s) := by
    rw [hpush]
    split
    · exact (linkSide_cqSignal c _).targetStep
    · exact .refl _
  have hadvanced := writesOnly_cqAdvanced c ph t u
  have htail : t < 2 ^ 16 := (Nat.mod_lt _ (Nat.two_pow_pos _)).trans_le (Nat.pow_le_pow_right (by decide) hlog)
  refine ⟨hsignal.queue.trans ((onlyRegs_queue hadvanced.only).trans hwritten.queue), fun a hstatus htarget => ?_, ?_⟩
  · rw [hsignal.word a htarget, hadvanced.word a hstatus, hwritten.word a htarget]
  · exact (hsignal.rd (f := R.CQ_STATUS.tail (c % 256)) (not_target_cqStatusWord c)).trans
      ((cqAdvanced_tail c ph t u).trans (Nat.mod_eq_of_lt htail))

/-! ### Publication (R198) -/

/-- The context once a record that holds one sequence is published with `n` waybills unsignalled. -/
def publishedCtx (r : Rec) (n : Nat) (c : Ctx) : Ctx :=
  let d := (c.setProduced (r.off + r.len / 64)).setUnsignalled n
  let d := { d with w3 := (r.seq + max 1 r.count) % 2 ^ 64 }
  d.setAbsent (d.absent - r.count)

theorem produced_withW3 (c : Ctx) (x : Nat) : ({ c with w3 := x } : Ctx).produced = c.produced := rfl
theorem pubSeq_withW3 (c : Ctx) (x : Nat) : ({ c with w3 := x } : Ctx).pubSeq = x := rfl

theorem publishedCtx_produced (r : Rec) (n : Nat) (c : Ctx) : (publishedCtx r n c).produced = (r.off + r.len / 64) % 2 ^ 36 := by
  unfold publishedCtx
  rw [setAbsent_produced, produced_withW3, setUnsignalled_produced, setProduced_produced]

theorem publishedCtx_pubSeq {r : Rec} (hcount : r.count = 0) (n : Nat) (c : Ctx) : (publishedCtx r n c).pubSeq = (r.seq + 1) % 2 ^ 64 := by
  unfold publishedCtx
  rw [setAbsent_pubSeq, pubSeq_withW3, hcount, Nat.max_zero]

/-- The waybill of `r` is in its completion queue, and its context and timer follow. -/
def waybillSent (r : Rec) (s : State) : State :=
  let c := s.ctx r.q
  let n := c.unsignalled + 1
  let sig := c.irq && decide (c.modCount ≤ n)
  let u := setCtx r.q (publishedCtx r (if sig then 0 else n) c) (cqPush c.cq (s.recWaybill r sig) s)
  let t := if sig then none else if n = 1 then some u.tim.raw else SMap.get (fun _ => none) u.queue.timers r.q
  { u with queue := { u.queue with timers := SMap.set (fun _ => none) u.queue.timers r.q t } }

theorem publishRec_room {r : Rec} {s : State} (hcount : r.count = 0) (hroom : s.cqRoom (s.ctx r.q).cq = true) : publishRec r s =
    let t := (dropRec r (waybillSent r s)).cnt .queue R.QUEUE_PUBLISHED.count 1
    showStaging (destroyCheck (absorb r.q t.queue.recs.length t)) := by
  unfold publishRec
  dsimp only
  rw [if_pos hroom, if_pos hcount]
  rfl

theorem cq_lt (c : Ctx) : c.cq < 1024 := Nat.mod_lt _ (by decide)

theorem slot_cqBlk_ne_queue (c : Ctx) : (cqBlk c.cq).slot ≠ Blk.queue.slot := by
  have := cq_lt c
  change 0x021 + c.cq / 256 ≠ 0x030
  omega

theorem record_published (s : State) (q : BitVec 20) (r : Rec) (rs : List Rec) (h : s.Sole r rs) (hq : r.q = q.toNat)
    (hphase : r.phase = .sealed) (hen : s.enabled .queue = true) (hrun : s.coreRuns = true) (hfull : s.hostOutFull = false)
    (hflush : s.recNeedsFlush r = false) (hc : s.cached q.toNat = true) (hroom : s.cqRoom (s.ctx q.toNat).cq = true)
    (hlog : (s.cqSt (s.ctx q.toNat).cq).log2n ≤ 16) (hdestroying : s.queue.destroying = none) :
    Completes (.publication q) s (fun t => t.queue.recs = rs ∧
      (t.ctx q.toNat).produced = (r.off + r.len / 64) % 2 ^ 36 ∧ (t.ctx q.toNat).pubSeq = (r.seq + 1) % 2 ^ 64 ∧
      t.rd .queue R.QUEUE_PUBLISHED.count = min (s.rd .queue R.QUEUE_PUBLISHED.count + 1) (2 ^ 64 - 1) ∧
      t.rd (cqBlk (s.ctx q.toNat).cq) (R.CQ_STATUS.tail ((s.ctx q.toNat).cq % 256)) =
        (s.rd (cqBlk (s.ctx q.toNat).cq) (R.CQ_STATUS.tail ((s.ctx q.toNat).cq % 256)) + 1) % 2 ^ (s.cqSt (s.ctx q.toNat).cq).log2n) := by
  rw [← hq] at hc hroom hlog ⊢
  obtain ⟨hs, hcount, -⟩ := id h
  obtain ⟨n, w, hsent⟩ : ∃ n w, ∃ m, waybillSent r s = { setCtx r.q (publishedCtx r n (s.ctx r.q)) (cqPush (s.ctx r.q).cq w s) with
      queue := { (setCtx r.q (publishedCtx r n (s.ctx r.q)) (cqPush (s.ctx r.q).cq w s)).queue with timers := m } } := ⟨_, _, _, rfl⟩
  obtain ⟨m, hsent⟩ := hsent
  obtain ⟨hqueue, hword, htail⟩ := cqPush_moves (s.ctx r.q).cq w s hlog
  have hpushed : (cqPush (s.ctx r.q).cq w s).cached r.q = true := (cached_congr (congrArg QueueSt.cache hqueue) _).trans hc
  generalize cqPush (s.ctx r.q).cq w s = u at hsent hqueue hword htail hpushed
  have hctx := queueStep_setCtx (W := fun _ => False) hpushed (publishedCtx r n (s.ctx r.q))
  have hsentStep : QueueStep (fun _ => False) u (waybillSent r s) := by
    rw [hsent]
    exact hctx.onQueue _
  have hdropRd : ∀ b f, (dropRec r (waybillSent r s)).rd b f = u.rd b f := fun _ _ => (hsentStep.trans (queueStep_dropRec r _)).rd id
  have hsentRecs : (waybillSent r s).queue.recs = s.queue.recs := by
    rw [hsent]
    exact (setCtx_recs hpushed _).trans (congrArg QueueSt.recs hqueue)
  have hsentDestroying : (waybillSent r s).queue.destroying = none := by
    rw [hsent]
    exact (setCtx_destroying hpushed _).trans ((congrArg QueueSt.destroying hqueue).trans hdestroying)
  have hsentCached : (waybillSent r s).cached r.q = true := by
    rw [hsent]
    exact cached_setCtx hpushed _
  have hsentCtx : (waybillSent r s).ctx r.q = publishedCtx r n (s.ctx r.q) := by
    rw [hsent]
    exact ctx_setCtx hpushed _
  let t := (dropRec r (waybillSent r s)).cnt .queue R.QUEUE_PUBLISHED.count 1
  have ht : t.queue = (dropRec r (waybillSent r s)).queue := cnt_queue _ _ _ _
  have hrecs : t.queue.recs = rs := (congrArg QueueSt.recs ht).trans (Sole.dropRec_recs (Sole.congr h hsentRecs))
  have hop : exec (.publication q) s = .next (showStaging t) := by
    have hfind : s.queue.recs.find? (fun x => decide (x.q = q.toNat) && x.reserved) = some r := by
      rw [hs]
      exact List.find?_cons_of_pos (by simp [hq, Rec.reserved, hphase])
    refine congrArg Host.Outcome.next ?_
    unfold opPublication
    rw [if_pos (by simp [hen, hrun, hfull]), hfind]
    dsimp only
    rw [if_pos hphase, tryPublish, if_neg (by simp [hflush]), publishRec_room hcount hroom]
    dsimp only
    rw [absorb_of_none (Sole.headRec_without h hrecs),
      destroyCheck_of_none ((congrArg QueueSt.destroying ht).trans hsentDestroying)]
  have hshow := writesOnly_showStaging t
  have hstatus : ∀ a, InSlot .queue a → a ≠ cqStatusWord (s.ctx r.q).cq := by
    rintro _ ha rfl
    exact not_inSlot (slot_cqBlk_ne_queue (s.ctx r.q)) (show 0x1118 + 0x20 * ((s.ctx r.q).cq % 256) < 0x10000 by omega) ha
  have hstaging : InSlot .queue stagingWord := inSlot_base _ (by decide)
  have hpublished : InSlot .queue (Blk.queue.base + R.QUEUE_PUBLISHED.count.off) := inSlot_base _ (by decide)
  have hcached : t.cached r.q = true := (cached_congr (congrArg QueueSt.cache ht) r.q).trans hsentCached
  have htctx : (showStaging t).ctx r.q = publishedCtx r n (s.ctx r.q) :=
    (ctx_showStaging hcached).trans ((ctx_congr (congrArg QueueSt.cache ht) hsentCached).trans hsentCtx)
  refine ⟨_, hop, ?_, ?_, ?_, ?_, ?_⟩
  · rw [queue_showStaging, hrecs]
  · rw [htctx, publishedCtx_produced]
  · rw [htctx, publishedCtx_pubSeq hcount]
  · have hbefore : (dropRec r (waybillSent r s)).rd .queue R.QUEUE_PUBLISHED.count = s.rd .queue R.QUEUE_PUBLISHED.count := by
      refine (hdropRd _ _).trans ?_
      unfold State.rd
      rw [hword _ (hstatus _ hpublished) (not_targetWord (by decide) (by decide) (by decide) (by decide))]
    rw [hshow.rd (by decide), ← hbefore]
    exact rd_cnt_val _ _ _ _ (by decide)
  · let f := R.CQ_STATUS.tail ((s.ctx r.q).cq % 256)
    calc (showStaging t).rd (cqBlk (s.ctx r.q).cq) f
      _ = t.rd (cqBlk (s.ctx r.q).cq) f := hshow.rd (hstatus _ hstaging).symm
      _ = (dropRec r (waybillSent r s)).rd (cqBlk (s.ctx r.q).cq) f :=
        rd_cnt_ne _ .queue (cqBlk (s.ctx r.q).cq) R.QUEUE_PUBLISHED.count f 1 (hstatus _ hpublished).symm
      _ = u.rd (cqBlk (s.ctx r.q).cq) f := hdropRd _ _
      _ = _ := htail

/-! ### Moderation and the arrival of a context (R198, R199) -/

theorem moderation_signals (s : State) (q : BitVec 20) (u : Nat) (htimer : SMap.get (fun _ => none) s.queue.timers q.toNat = some u)
    (hirq : (s.ctx q.toNat).irq = true) (hmod : (s.ctx q.toNat).modTimer ≠ 0) (hunsignalled : (s.ctx q.toNat).unsignalled ≠ 0)
    (hdue : u + 2 ^ ((s.ctx q.toNat).modTimer - 1) * usUnits ≤ s.tim.raw) (hc : s.cached q.toNat = true) :
    Completes (.moderationTimer q) s (fun t =>
      SMap.get (fun _ => none) t.queue.timers q.toNat = none ∧ (t.ctx q.toNat).unsignalled = 0 ∧ t.mem = s.mem ∧
      SameExcept [.queue, .dma] s t ∧
      (s.flag (cqBlk (s.ctx q.toNat).cq) (R.CQ_CFG.irq_enable ((s.ctx q.toNat).cq % 256)) = true →
        s.flag .dma R.PCIE_STATUS.msix_enable = true → s.endpointWedged = false → s.flag .dma R.PCIE_STATUS.bus_master = true →
        s.msixMasked (s.rd (cqBlk (s.ctx q.toNat).cq) (R.CQ_CFG.vector ((s.ctx q.toNat).cq % 256))) = false →
        t.host.sent = s.host.sent ++ [s.rd (cqBlk (s.ctx q.toNat).cq) (R.CQ_CFG.vector ((s.ctx q.toNat).cq % 256))])) := by
  let c := setCtx q.toNat ((s.ctx q.toNat).setUnsignalled 0) s
  let v : State := { c with queue := { c.queue with timers := SMap.set (fun _ => none) c.queue.timers q.toNat none } }
  have hop : exec (.moderationTimer q) s = .next (showStaging (cqSignal (s.ctx q.toNat).cq v)) := by
    refine congrArg Host.Outcome.next ?_
    unfold opModerationTimer
    dsimp only
    rw [htimer]
    dsimp only
    rw [if_pos (by simp [hirq, hmod, hunsignalled, hdue])]
  have hstep : QueueStep (fun _ => False) s v := (queueStep_setCtx hc _).onQueue _
  have hsignal := linkSide_cqSignal (s.ctx q.toNat).cq v
  have hshow := writesOnly_showStaging (cqSignal (s.ctx q.toNat).cq v)
  have hrd : ∀ (b : Blk) (f : Fld), v.rd b f = s.rd b f := fun b f => hstep.rd id
  have hcached : v.cached q.toNat = true := cached_setCtx hc _
  have hqueue : (showStaging (cqSignal (s.ctx q.toNat).cq v)).queue = v.queue := (queue_showStaging _).trans hsignal.queue
  refine ⟨_, hop, ?_, ?_, (hshow.queueStep.mem.trans hsignal.mem).trans hstep.mem, fun a ha => ?_, fun hcfg hen hwedged hmaster hmask => ?_⟩
  · rw [hqueue]
    exact get_set_self (fun _ => none) c.queue.timers q.toNat (none : Option Nat)
  · rw [ctx_congr (congrArg QueueSt.cache hqueue) hcached]
    rw [show v.ctx q.toNat = (s.ctx q.toNat).setUnsignalled 0 from ctx_setCtx hc _, setUnsignalled_unsignalled]
    rfl
  · have hstaging : a ≠ stagingWord := by
      rintro rfl
      exact ha .queue (by simp) (inSlot_base _ (by decide))
    rw [hshow.word a hstaging, hsignal.word a (ha .dma (by simp)), hstep.word a id]
  · have hflag : ∀ (b : Blk) (f : Fld), v.flag b f = s.flag b f := fun b f => congrArg (fun n => decide (n ≠ 0)) (hrd b f)
    have hhost : v.host = s.host := hstep.host
    rw [onlyRegs_host hshow.only, cqSignal_sends ((hflag _ _).trans hcfg) ((hflag _ _).trans hen)
      ((congrArg (nbit · 5) (hrd _ _)).trans hwedged) ((hflag _ _).trans hmaster), hrd, hhost]
    rw [hrd]
    unfold State.msixMasked at hmask ⊢
    rwa [hflag, hhost]

theorem context_arrives (s : State) (q : BitVec 20) (ann : AnnResult) (hfetching : q.toNat ∈ s.queue.fetching)
    (hways : (s.ways q.toNat).length < 8) (hopen : s.dramOpen (s.ctxAddr q.toNat) 32 = true)
    (hbad : s.badLine (s.ctxAddr q.toNat) = false) (hnone : ∀ r ∈ s.queue.recs, r.q ≠ q.toNat) : Completes (.contextFetch q ann) s (fun t =>
      t.cached q.toNat = true ∧ t.ctx q.toNat = s.ctxTable q.toNat ∧ q.toNat ∉ t.queue.fetching ∧ t.regs = s.regs ∧ t.mem = s.mem) := by
  let u : State := { s with queue := { s.queue with fetching := s.queue.fetching.filter (· ≠ q.toNat) } }
  let t := setWays q.toNat (⟨q.toNat, s.ctxTable q.toNat, false, false⟩ :: s.ways q.toNat) u
  have hop : exec (.contextFetch q ann) s = .next t := by
    have hevict : evict q.toNat u = u := if_pos hways
    have hbad' : u.badLine (u.ctxAddr q.toNat) = false := hbad
    refine congrArg Host.Outcome.next ?_
    unfold opContextFetch
    dsimp only
    rw [if_neg (by simp [hfetching, State.wayFree, hways, hopen])]
    change ask q.toNat ann ((setWays _ _ ((evict q.toNat u).when ((evict q.toNat u).badLine _) _)).when _ _) = t
    rw [hevict, hbad', when_false, when_false]
    exact ask_of_none (s := t) (headRec_eq_none hnone) ann
  have hways' : t.ways q.toNat = ⟨q.toNat, s.ctxTable q.toNat, false, false⟩ :: s.ways q.toNat := ways_setWays _ _ u
  refine ⟨t, hop, ?_, ?_, ?_, rfl, rfl⟩
  · unfold State.cached
    rw [hways']
    simp
  · unfold State.ctx
    rw [hways', List.find?_cons_of_pos (by simp)]
  · change q.toNat ∉ s.queue.fetching.filter (· ≠ q.toNat)
    simp

/-- Settles O39, one lemma per clause: a grant, a wait and a refusal through what a request of the only record of its queue comes to
(`request_cached`), every record that is dropped through what its abandonment leaves (`Abandoned`), the seal and the publication through
what their writes to a target can touch (`TargetStep`). The quiesce deadline is R203; cause 0 of a context error rests on log 15. -/
theorem recordsOnTheirWay : Obligations.RecordsOnTheirWay := by
  unfold Obligations.RecordsOnTheirWay
  exact ⟨reservation_granted, reservation_waits, reservation_misses, reservation_timesOut, record_sealed, record_published,
    recordWrite_fails, moderation_signals, context_arrives, reservation_ctxBad, quiesceSeal_abandons⟩

end Sys2Proof.Proofs

namespace Sys2Proof.Proofs
open Sys2Proof Sys2Proof.Machine Sys2Proof.Laws

/-! ### Unit syllables that leave the core's own registers (R242, R252) -/

theorem slot_records_ne_core (i j : Fin 17) : (Blk.records i).slot ≠ (Blk.core j).slot := by
  change 0x083 + 4 * i.val ≠ 0x080 + 4 * j.val
  omega

theorem bundleDone_queue {c : Fin 17} {u : State} (k : CoreSt) : (u.bundleDone c k false).queue = u.queue :=
  onlyRegs_queue (s := u.setCore c k)
    ((onlyRegs_cnt (u.setCore c k) (.core c) R.CORE_BUNDLES.count 1).wr (.core c) R.CORE_STATUS.pc (u.pc c + 1))

section UnitOp
variable {c : Fin 17} {s : State} {y : Syl} {rds : List Dst} {f : Op}

/-- A quiet core's unit syllable acts and ends its bundle. -/
theorem unitOp_issues (hq : s.Quiet c) (hlast : y.last = true) (hg : s.guard0 c y = true) :
    unitOp c y rds false f s = bundleEnd c (f s) := by
  obtain ⟨hissues, hpipe, hsquash, -⟩ := hq
  have htouch : touch c rds s = s := by
    unfold touch
    dsimp only
    rw [hpipe]
    rfl
  unfold unitOp issue
  rw [hissues, hsquash]
  simp only [htouch, illegal, hlast, hg, if_true, Bool.not_true, Bool.false_eq_true, if_false]

/-- What such a syllable leaves, when it changes nothing of the core but the note of its residue errors: its bundle is counted, and the
next one follows. -/
theorem unitOp_completes {u : State} {i : Instr} {q : State → Prop} (hexec : exec i s = .next (unitOp c y rds false f s)) (hq : s.Quiet c)
    (hlast : y.last = true) (hg : s.guard0 c y = true) (hf : f s = u) (hcore : ∃ b, u.cores[c] = { s.cores[c] with resSince := b })
    (hrd : ∀ g : Fld, g.off < 0x10000 → u.rd (.core c) g = s.rd (.core c) g)
    (hshown : ∀ t : State, t.queue = u.queue → t.mem = u.mem →
      (∀ g : Fld, g.off < 0x10000 → t.rd (.records c) g = u.rd (.records c) g) → t.pc c = s.pc c + 1 → q t) : Completes i s q := by
  have hpc : u.pc c.val = s.pc c.val := hrd _ (by decide)
  obtain ⟨b, hcore⟩ := hcore
  obtain ⟨-, hpipe, -, hctl, hwait, hexc, hloops, hlt⟩ := id hq
  have hidle : ∀ j : Fin 3, u.loopOn c.val j.val = false := fun j => by
    have hoff : (R.LOOP_BOUNDS.active j.val).off = 0x90 + 0x8 * j.val := rfl
    unfold State.loopOn State.flag
    rw [hrd _ (by omega)]
    exact hloops j
  have hend : bundleEnd c u = u.bundleDone c (u.cores[c]) false :=
    bundleEnd_clear (by rw [hcore]; exact hpipe) (by rw [hcore]; exact hctl) (by rw [hcore]; exact hwait) (by rw [hcore]; exact hexc)
      hidle (by omega)
  refine ⟨_, hexec.trans (congrArg Host.Outcome.next ((unitOp_issues hq hlast hg).trans ((congrArg (bundleEnd c) hf).trans hend))),
    hshown _ (bundleDone_queue _) (bundleDone_mem _) (fun g hg => bundleDone_rd _ (slot_records_ne_core c c) hg) ?_⟩
  rw [bundleDone_pc _ (by omega), hpc]

theorem dev_on_of_issues {s : State} {c : Fin 17} (h : s.issues c = true) : s.dev ≠ .off := by
  intro hoff
  have hrun : s.coreRuns = false := by simp [State.coreRuns, hoff]
  simp [State.issues, hrun] at h

end UnitOp

/-! ### A held record goes on (R179) -/

/-- The word of REC_OPEN. -/
def openWord (i : Fin 17) : Nat := (Blk.records i).base + 0x1e0

/-- With no record held REC_OPEN reads 0. -/
theorem showHeld_none {i : Fin 17} {s : State} (h : s.heldOf i = []) : showHeld i s =
    (((s.wr (.records i) R.REC_OPEN.records_held 0).wr (.records i) R.REC_OPEN.held 0).wr (.records i) R.REC_OPEN.class_ 0).wr
      (.records i) R.REC_OPEN.sequence 0 := by
  unfold showHeld
  rw [h]
  rfl

theorem writesOnly_showHeld {i : Fin 17} {s : State} (h : s.heldOf i = []) : WritesOnly (· = openWord i) s (showHeld i s) := by
  rw [showHeld_none h]
  exact ((((WritesOnly.refl (· = openWord i) s).wr _ (by rfl)).wr _ (by rfl)).wr _ (by rfl)).wr _ (by rfl)

theorem showHeld_held {i : Fin 17} {s : State} (h : s.heldOf i = []) : (showHeld i s).rd (.records i) R.REC_OPEN.held = 0 := by
  rw [showHeld_none h]
  simp (disch := decide) only [rd_wr_keep, rd_wr_val]
  rfl

/-- Outside a takeover nothing is compared. -/
theorem tkoItem_unpaired {s : State} (h : s.tko.pairs = []) (i kind hash : Nat) (key : List Nat) : tkoItem i kind key hash s = s := by
  unfold tkoItem
  rw [h]
  split <;> rfl

/-- A producer none of whose records waits makes no room. -/
theorem makeRoom_of_building {s : State} {prod : Nat} {r : Rec} (h : s.queue.recs.filter (fun x => x.prod = prod) = [r])
    (hphase : r.phase = .building) (len n : Nat) : makeRoom prod len n s = s := by
  cases n with
  | zero => rfl
  | succ n =>
    unfold makeRoom
    simp only [h, hphase, List.foldl_cons, List.foldl_nil, ite_self]

/-- Record `x` takes the place of a held record of slice `i`, and REC_OPEN shows that none is held. -/
structure Released (i : Fin 17) (x : Rec) (rs : List Rec) (s t : State) : Prop where
  step : QueueStep (fun a => a = stagingWord ∨ a = openWord i) s t
  recs : t.queue.recs = x :: rs
  held : t.rd (.records i) R.REC_OPEN.held = 0

section Held
variable {s : State} {i : Fin 17} {r : Rec} {rs : List Rec} {u : Nat} (h : s.Sole r rs) (hprod : r.prod = i.val)
  (hothers : ∀ x ∈ rs, x.prod ≠ r.prod)
include h hprod hothers

theorem heldOf_sole (hphase : r.phase = .held u) : s.heldOf i = [r] := by
  obtain ⟨hs, -⟩ := h
  unfold State.heldOf
  rw [hs, List.filter_cons_of_pos (by simp [hprod, hphase])]
  refine congrArg (List.cons r) (List.filter_eq_nil_iff.2 fun x hx hheld => hothers x hx ?_)
  rw [hprod]
  exact of_decide_eq_true (Bool.and_eq_true_iff.1 hheld).1

theorem heldOf_ready (hphase : r.phase = .ready) : s.heldOf i = [] := by
  obtain ⟨hs, -⟩ := h
  unfold State.heldOf
  rw [hs]
  refine List.filter_eq_nil_iff.2 fun x hx hheld => ?_
  obtain rfl | hx := List.mem_cons.1 hx
  · simp [hphase] at hheld
  · exact hothers x hx ((of_decide_eq_true (Bool.and_eq_true_iff.1 hheld).1).trans hprod.symm)

/-- A held record that is the only one of its queue and of its producer is staged with the block `m`. -/
theorem released_releaseHeld (hpairs : s.tko.pairs = []) (m : List Byte) :
    Released i { r with meas := m, phase := .ready } rs s (releaseHeld i r m s) := by
  let b : Rec := { r with meas := m, phase := .building }
  let x : Rec := { r with meas := m, phase := .ready }
  have hb : (setRec b s).Sole b rs := Sole.setRec h rfl rfl rfl
  have hx : (setRec x (setRec b s)).Sole x rs := Sole.setRec hb rfl rfl rfl
  have hmine : (setRec b s).queue.recs.filter (fun z => z.prod = x.prod) = [b] := by
    rw [hb.1, List.filter_cons_of_pos (by simp [b, x])]
    exact congrArg (List.cons b) (List.filter_eq_nil_iff.2 fun z hz hp => hothers z hz (of_decide_eq_true hp))
  have hcomplete : completeRec x (setRec b s) = showStaging (setRec x (setRec b s)) := by
    unfold completeRec
    dsimp only
    rw [tkoItem_unpaired (s := setRec b s) hpairs, if_neg (by simp [x, Sole.isSink h]), makeRoom_of_building hmine rfl,
      show (setRec b s).recOf x.q x.seq = some b from Sole.recOf hb]
  have hstaging := writesOnly_showStaging (setRec x (setRec b s))
  have hqueue : (showStaging (setRec x (setRec b s))).queue = (setRec x (setRec b s)).queue := queue_showStaging _
  have hnone : (showStaging (setRec x (setRec b s))).heldOf i = [] :=
    heldOf_ready (Sole.congr hx (congrArg QueueSt.recs hqueue)) hprod hothers rfl
  have hopen := writesOnly_showHeld hnone
  have hrelease : releaseHeld i r m s = showHeld i (showStaging (setRec x (setRec b s))) := congrArg (showHeld i) hcomplete
  rw [hrelease]
  refine ⟨?_, ?_, showHeld_held hnone⟩
  · exact (((queueStep_setRec b s).trans (queueStep_setRec x _)).trans (hstaging.mono fun _ => .inl).queueStep).trans
      (hopen.mono fun _ => .inr).queueStep
  · rw [onlyRegs_queue hopen.only, hqueue, hx.1]

end Held

/-- A release leaves every register of the slice but REC_OPEN. -/
theorem rd_released {i : Fin 17} {x : Rec} {rs : List Rec} {s t : State} (h : Released i x rs s t) {f : Fld} (hf : f.off < 0x10000)
    (hne : f.off ≠ 0x1e0) : t.rd (.records i) f = s.rd (.records i) f := by
  refine h.step.rd fun hw => ?_
  obtain hstaging | hopen := hw
  · exact not_inSlot (slot_records_ne_queue i).symm hf (hstaging ▸ inSlot_base .queue (by decide))
  · exact hne (Nat.add_left_cancel hopen)

theorem rd_core_released {i c : Fin 17} {x : Rec} {rs : List Rec} {s t : State} (h : Released i x rs s t) {f : Fld} (hf : f.off < 0x10000) :
    t.rd (.core c) f = s.rd (.core c) f := by
  refine h.step.rd fun hw => ?_
  obtain hstaging | hopen := hw
  · exact not_inSlot (b := .queue) (c := .core c) (by change 0x080 + 4 * c.val ≠ 0x030; omega) hf (hstaging ▸ inSlot_base .queue (by decide))
  · exact not_inSlot (slot_records_ne_core i c).symm hf (hopen ▸ inSlot_base (.records i) (by decide))

/-! ### MEAS_TIMEOUT, APPEND and SKIP (R162, R179) -/

theorem measTimeout_misses (s : State) (i : Fin 17) (r : Rec) (rs : List Rec) (u : Nat) (h : s.Sole r rs) (hprod : r.prod = i.val)
    (hphase : r.phase = .held u) (hothers : ∀ x ∈ rs, x.prod ≠ r.prod) (hpairs : s.tko.pairs = []) (hlive : s.recsLive i = true)
    (hexpired : s.measExpired i r = true) : Completes (.measTimeout i) s (fun t =>
      t.queue.recs = { r with meas := [], phase := .ready } :: rs ∧
      t.rd (.records i) R.REC_COUNTS2.meas_missed = min (s.rd (.records i) R.REC_COUNTS2.meas_missed + 1) 65535 ∧ t.mem = s.mem) := by
  let v := s.cnt (.records i) R.REC_COUNTS2.meas_missed 1
  have hop : exec (.measTimeout i) s = .next (releaseHeld i r [] v) := by
    refine congrArg Host.Outcome.next ?_
    unfold opMeasTimeout
    rw [if_pos hlive, heldOf_sole h hprod hothers hphase, List.filter_cons_of_pos hexpired]
    rfl
  have hout := released_releaseHeld (s := v) (Sole.congr h (congrArg QueueSt.recs (cnt_queue _ _ _ _))) hprod hothers
    ((congrArg TkoSt.pairs (cnt_tko _ _ _ _)).trans hpairs) []
  refine ⟨_, hop, hout.recs, ?_, hout.step.mem.trans (cnt_mem _ _ _ _)⟩
  rw [rd_released hout (by decide) (by decide)]
  exact rd_cnt_val _ _ _ _ (by decide)

/-- The residue errors noted, nothing else of the core changes. -/
theorem cores_resNoted {c : Fin 17} {s v : State} (h : v.cores = s.cores) :
    ∃ b, (resNoted c v).cores[c] = { s.cores[c] with resSince := b } := by
  refine ⟨false, ?_⟩
  unfold resNoted
  rw [setCore_cores, ← h]
  exact Vector.getElem_set_self ..

/-- What APPEND and SKIP come to when a record `r`, the only one of its queue and of the slice, goes on with `m`: `v` is the state in which
it does. -/
theorem release_completes {c : Fin 17} {s v : State} {y : Syl} {rds : List Dst} {f : Op} {i : Instr} {r : Rec} {rs : List Rec}
    {m : List Byte} {q : State → Prop} (hexec : exec i s = .next (unitOp c y rds false f s)) (hq : s.Quiet c) (hlast : y.last = true)
    (hg : s.guard0 c y = true) (hf : f s = resNoted c (releaseHeld c r m v)) {W : Nat → Prop} (hstep : QueueStep W s v)
    (hqueue : v.queue = s.queue) (hcore : ∀ a, W a → ¬ InSlot (.core c) a) (h : s.Sole r rs) (hprod : r.prod = c.val)
    (hothers : ∀ x ∈ rs, x.prod ≠ r.prod) (hpairs : s.tko.pairs = [])
    (hshown : ∀ t : State, t.queue.recs = { r with meas := m, phase := .ready } :: rs → t.rd (.records c) R.REC_OPEN.held = 0 →
      (∀ g : Fld, g.off < 0x10000 → g.off ≠ 0x1e0 → t.rd (.records c) g = v.rd (.records c) g) → t.pc c = s.pc c + 1 → t.mem = s.mem →
      q t) : Completes i s q := by
  have hout := released_releaseHeld (s := v) (Sole.congr h (congrArg QueueSt.recs hqueue)) hprod hothers
    ((congrArg TkoSt.pairs hstep.tko).trans hpairs) m
  refine unitOp_completes hexec hq hlast hg hf (cores_resNoted (hout.step.cores.trans hstep.cores)) (fun g hg => ?_)
    fun t htqueue htmem htrd hpc => hshown t ?_ ?_ (fun g hg hne => ?_) hpc ?_
  · exact (rd_core_released hout hg).trans (hstep.rd fun hw => hcore _ hw (inSlot_base _ hg))
  · exact (congrArg QueueSt.recs htqueue).trans hout.recs
  · exact (htrd _ (by decide)).trans hout.held
  · exact (htrd g hg).trans (rd_released hout hg hne)
  · exact htmem.trans (hout.step.mem.trans hstep.mem)

/-- A read of the slice's memory only logs the errors it meets. -/
theorem queueStep_checkRead (c : Fin 17) (a n agent : Nat) (s : State) :
    QueueStep (fun x => InSlot .depot x ∨ InSlot .observe x) s (checkRead (.lmem c) a n agent s) ∧
      (checkRead (.lmem c) a n agent s).queue = s.queue := by
  unfold checkRead
  split
  · exact ⟨.refl _ s, rfl⟩
  · next w _ =>
    refine ⟨?_, (onlyObs_logBad (.lmem c) w agent _ _).frame.2.2.2.2.1⟩
    have hobs : QueueStep (fun x => InSlot .depot x ∨ InSlot .observe x) s ((s.free 15).2.observe (SramId.lmem c).obsUnit 4 1 w) :=
      QueueStep.trans (t := (s.free 15).2) ⟨rfl, fun _ _ => rfl⟩ ((queueStep_observe _ _ _ _ _).mono fun _ => .inr)
    have hecc : InSlot .depot (Blk.depot.base + (R.LMEM_ECC.uncorrectable c.val).off) :=
      inSlot_base _ (show 0x208 + 0x20 * c.val < 0x10000 by omega)
    have hlast : InSlot .depot (Blk.depot.base + (R.LMEM_ERR_LAST.address c.val).off) :=
      inSlot_base _ (show 0x218 + 0x20 * c.val < 0x10000 by omega)
    refine ((((((hobs.cnt 1 (.inl hecc)).wr 1 (.inl ?_)).wr _ (.inl ?_)).wr _ (.inl ?_)).wr _ (.inl ?_)).wr _ (.inl ?_)).wr _ (.inl ?_)
    case refine_1 => exact inSlot_base .depot (by decide)
    all_goals exact hlast

theorem slot_core_apart (c : Fin 17) : (Blk.core c).slot ≠ Blk.depot.slot ∧ (Blk.core c).slot ≠ Blk.observe.slot := by
  change 0x080 + 4 * c.val ≠ 0x00B ∧ 0x080 + 4 * c.val ≠ 0x009
  omega

/-- An invalid answer shows in REC_FAULT. -/
theorem measInvalid_shown (c : Fin 17) (s : State) :
    WritesOnly (InSlot (.records c)) s (s.fault (.records c) R.REC_FAULT.meas_invalid) ∧
      (s.fault (.records c) R.REC_FAULT.meas_invalid).rd (.records c) R.REC_FAULT.meas_invalid = 1 := by
  refine ⟨(WritesOnly.refl _ s).fault (inSlot_base _ (by decide)) (inSlot_base _ (by decide)), ?_⟩
  unfold State.fault
  simp (disch := decide) only [rd_wr_keep, rd_wr_val]
  rfl

section Answer
variable (s : State) (c : Fin 17) (y : Syl) (r : Rec) (rs : List Rec) (u n a : Nat)

theorem append_adds (hq : s.Quiet c) (hlast : y.last = true) (hg : s.guard0 c y = true) (h : s.Sole r rs) (hprod : r.prod = c.val)
    (hphase : r.phase = .held u) (hothers : ∀ x ∈ rs, x.prod ≠ r.prod) (hpairs : s.tko.pairs = [])
    (hn : n = ((s.cores[c]).sreg y.bn).toNat % 8192) (ha : a = 8 * (((s.cores[c]).sreg y.an).toNat % 2 ^ 20)) (hmin : 8 ≤ n)
    (hmax : n ≤ 4096) (hwhole : n % 8 = 0) (hlimit : recLen r.payload.length n ≤ s.recLimit c r.cls)
    (hres : (s.cores[c]).resSince = false) (hend : a + n ≤ 2 ^ 23) : Completes (.append c y) s (fun t =>
      t.queue.recs = { r with meas := memRead (s.mem.lmem[c]) a n, phase := .ready } :: rs ∧ t.rd (.records c) R.REC_OPEN.held = 0 ∧
      t.pc c = s.pc c + 1 ∧ t.mem = s.mem) := by
  obtain ⟨hread, hqueue⟩ := queueStep_checkRead c a n 1 s
  have hbytes : (List.range n).map (fun j => SMap.get zeroByte s.mem.lmem[c] ((a + j) % 2 ^ 23)) = memRead (s.mem.lmem[c]) a n :=
    List.map_congr_left fun j hj => by rw [Nat.mod_eq_of_lt (by have := List.mem_range.1 hj; omega)]
  have hfit : ¬ (n < 8 ∨ 4096 < n ∨ n % 8 ≠ 0 ∨ s.recLimit c r.cls < recLen r.payload.length n) := by omega
  refine release_completes (v := checkRead (.lmem c) a n 1 s) (m := memRead (s.mem.lmem[c]) a n)
    (rfl : exec (.append c y) s = .next (opAppend c y s)) hq hlast hg ?_ hread hqueue ?_ h hprod hothers hpairs
    fun t hrecs hheld _ hpc hmem => ⟨hrecs, hheld, hpc, hmem⟩
  · dsimp only
    rw [heldOf_sole h hprod hothers hphase, show (s.cores[c]).rs y.bn % 2 ^ 13 = n from hn.symm,
      show 8 * ((s.cores[c]).rs y.an % 2 ^ 20) = a from ha.symm, hres]
    dsimp only
    rw [if_neg Bool.false_ne_true, if_neg hfit, hbytes]
  · rintro x (hx | hx) hcore
    · exact (slot_core_apart c).1 (hcore.symm.trans hx)
    · exact (slot_core_apart c).2 (hcore.symm.trans hx)

theorem append_invalid (hq : s.Quiet c) (hlast : y.last = true) (hg : s.guard0 c y = true) (h : s.Sole r rs) (hprod : r.prod = c.val)
    (hphase : r.phase = .held u) (hothers : ∀ x ∈ rs, x.prod ≠ r.prod) (hpairs : s.tko.pairs = [])
    (hn : n = ((s.cores[c]).sreg y.bn).toNat % 8192)
    (hunfit : n < 8 ∨ 4096 < n ∨ n % 8 ≠ 0 ∨ s.recLimit c r.cls < recLen r.payload.length n) (hres : (s.cores[c]).resSince = false) :
    Completes (.append c y) s (fun t => t.queue.recs = { r with meas := [], phase := .ready } :: rs ∧
      t.rd (.records c) R.REC_FAULT.meas_invalid = 1 ∧ t.pc c = s.pc c + 1 ∧ t.mem = s.mem) := by
  obtain ⟨hfault, hshown⟩ := measInvalid_shown c s
  refine release_completes (v := s.fault (.records c) R.REC_FAULT.meas_invalid) (m := [])
    (rfl : exec (.append c y) s = .next (opAppend c y s)) hq hlast hg ?_ hfault.queueStep (onlyRegs_queue hfault.only) ?_ h hprod hothers
    hpairs fun t hrecs _ hrd hpc hmem => ⟨hrecs, (hrd _ (by decide) (by decide)).trans hshown, hpc, hmem⟩
  · dsimp only
    rw [heldOf_sole h hprod hothers hphase, show (s.cores[c]).rs y.bn % 2 ^ 13 = n from hn.symm, hres]
    dsimp only
    rw [if_neg Bool.false_ne_true, if_pos hunfit]
  · exact fun x hx hcore => slot_records_ne_core c c (hx.symm.trans hcore)

theorem skip_releases (hq : s.Quiet c) (hlast : y.last = true) (hg : s.guard0 c y = true) (h : s.Sole r rs) (hprod : r.prod = c.val)
    (hphase : r.phase = .held u) (hothers : ∀ x ∈ rs, x.prod ≠ r.prod) (hpairs : s.tko.pairs = []) :
    Completes (.skip c y) s (fun t => t.queue.recs = { r with meas := [], phase := .ready } :: rs ∧
      t.rd (.records c) R.REC_OPEN.held = 0 ∧ t.pc c = s.pc c + 1 ∧ t.mem = s.mem) := by
  refine release_completes (v := s) (m := []) (rfl : exec (.skip c y) s = .next (opSkip c y s)) hq hlast hg ?_
    (QueueStep.refl (fun _ => False) s) rfl (fun _ => False.elim) h hprod hothers hpairs
    fun t hrecs hheld _ hpc hmem => ⟨hrecs, hheld, hpc, hmem⟩
  rw [heldOf_sole h hprod hothers hphase]

/-- An answer with no record held is invalid. -/
theorem answer_unheld {rds : List Dst} {f : Op} {i : Instr} (hexec : exec i s = .next (unitOp c y rds false f s)) (hq : s.Quiet c)
    (hlast : y.last = true) (hg : s.guard0 c y = true) (hf : f s = resNoted c (s.fault (.records c) R.REC_FAULT.meas_invalid)) :
    Completes i s (fun t => t.rd (.records c) R.REC_FAULT.meas_invalid = 1 ∧ t.queue = s.queue ∧ t.pc c = s.pc c + 1 ∧ t.mem = s.mem) := by
  obtain ⟨hfault, hshown⟩ := measInvalid_shown c s
  have hsame := And.intro (onlyRegs_queue hfault.only) (onlyRegs_mem hfault.only)
  exact unitOp_completes hexec hq hlast hg hf (cores_resNoted (onlyRegs_cores hfault.only))
    (fun g hg => hfault.rd fun hw => slot_records_ne_core c c (hw.symm.trans (inSlot_base _ hg)))
    fun t hqueue hmem hrd hpc => ⟨(hrd _ (by decide)).trans hshown, hqueue.trans hsame.1, hpc, hmem.trans hsame.2⟩

theorem append_unheld (hq : s.Quiet c) (hlast : y.last = true) (hg : s.guard0 c y = true) (hnone : s.heldOf c = []) :
    Completes (.append c y) s (fun t => t.rd (.records c) R.REC_FAULT.meas_invalid = 1 ∧ t.queue = s.queue ∧ t.pc c = s.pc c + 1 ∧
      t.mem = s.mem) := by
  refine answer_unheld s c y (rfl : exec (.append c y) s = .next (opAppend c y s)) hq hlast hg ?_
  dsimp only
  rw [hnone]

theorem skip_unheld (hq : s.Quiet c) (hlast : y.last = true) (hg : s.guard0 c y = true) (hnone : s.heldOf c = []) :
    Completes (.skip c y) s (fun t => t.rd (.records c) R.REC_FAULT.meas_invalid = 1 ∧ t.queue = s.queue ∧ t.pc c = s.pc c + 1 ∧
      t.mem = s.mem) := by
  refine answer_unheld s c y (rfl : exec (.skip c y) s = .next (opSkip c y s)) hq hlast hg ?_
  rw [hnone]

end Answer

/-! ### Continuous capture (R173) -/

theorem contStart_live {s : State} {i : Fin 17} (hlive : s.recsLive i = true) :
    contStart i s = s.wr (.records i) R.CAP_CTRL.continuous 1 := if_pos hlive

/-- With no record under construction none is sealed. -/
theorem contStop_live {s : State} {i : Fin 17} (hlive : s.recsLive i = true) (hnone : (s.recs[i]).cont = none) :
    contStop i s = s.wr (.records i) R.CAP_CTRL.continuous 0 := by
  unfold contStop contSeal
  rw [if_pos hlive]
  dsimp only
  rw [hnone]

theorem continuous_written {c : Instr} {s : State} (i : Fin 17) {v : Nat} (hv : v < 2)
    (hexec : exec c s = .next (s.wr (.records i) R.CAP_CTRL.continuous v)) : Completes c s (fun t =>
      t.rd (.records i) R.CAP_CTRL.continuous = v ∧ t.recs = s.recs ∧ t.mem = s.mem ∧ SameOutside (.records i) s t) :=
  ⟨_, hexec, (rd_wr_val _ _ _ _ (by decide)).trans (Nat.mod_eq_of_lt hv), rfl, rfl,
    (writesOnly_wr (W := InSlot (.records i)) s v (inSlot_base _ (by decide))).sameOutside fun _ h => h⟩

theorem contStart_starts (s : State) (i : Fin 17) (hoff : s.dev ≠ .off) (hboot : s.dev ≠ .boot) (hlive : s.recsLive i = true) :
    Completes (.contStart i .write) s (fun t =>
      t.rd (.records i) R.CAP_CTRL.continuous = 1 ∧ t.recs = s.recs ∧ t.mem = s.mem ∧ SameOutside (.records i) s t) :=
  continuous_written i (by decide) (congrArg Host.Outcome.next ((onWrite_of_on _ hoff hboot).trans (contStart_live hlive)))

theorem contStop_stops (s : State) (i : Fin 17) (hoff : s.dev ≠ .off) (hboot : s.dev ≠ .boot) (hlive : s.recsLive i = true)
    (hnone : (s.recs[i]).cont = none) : Completes (.contStop i .write) s (fun t =>
      t.rd (.records i) R.CAP_CTRL.continuous = 0 ∧ t.recs = s.recs ∧ t.mem = s.mem ∧ SameOutside (.records i) s t) :=
  continuous_written i (by decide) (congrArg Host.Outcome.next ((onWrite_of_on _ hoff hboot).trans (contStop_live hlive hnone)))

/-- Bit 0 of S[a] says whether U.REC CONT starts or stops. -/
theorem contUnit_writes {s : State} {c : Fin 17} (x : Nat) (hlive : s.recsLive c = true) (hnone : (s.recs[c]).cont = none) :
    (if nbit x 0 then contStart c s else contStop c s) = s.wr (.records c) R.CAP_CTRL.continuous (x % 2) := by
  have hbit : nbit x 0 = decide (x % 2 = 1) := by simp [nbit]
  rw [contStart_live hlive, contStop_live hlive hnone, hbit]
  obtain hx | hx := Nat.mod_two_eq_zero_or_one x
  · rw [hx]; rfl
  · rw [hx]; rfl

theorem contUnit_completes (p : Fin 17 → Via → Instr) (hp : p ∈ ([.contStart, .contStop] : List (Fin 17 → Via → Instr))) (s : State)
    (c : Fin 17) (y : Syl) (hboot : s.dev ≠ .boot) (hq : s.Quiet c) (hlast : y.last = true) (hg : s.guard0 c y = true)
    (hlive : s.recsLive c = true) (hnone : (s.recs[c]).cont = none) : Completes (p c (.unit y)) s (fun t =>
      t.rd (.records c) R.CAP_CTRL.continuous = ((s.cores[c]).sreg y.an).toNat % 2 ∧ t.pc c = s.pc c + 1) := by
  have hoff : s.dev ≠ .off := dev_on_of_issues hq.1
  have hexec : exec (p c (.unit y)) s = .next (unitOp c y [.s y.an] false
      (fun s => if nbit (s.cores[c].rs y.an) 0 then contStart c s else contStop c s) s) := by
    obtain rfl | rfl := List.mem_pair.1 hp
    · exact congrArg Host.Outcome.next (onWrite_of_on _ hoff hboot)
    · exact congrArg Host.Outcome.next (onWrite_of_on _ hoff hboot)
  have hwritten := writesOnly_wr (W := InSlot (.records c)) s (b := .records c) (f := R.CAP_CTRL.continuous)
    ((s.cores[c]).rs y.an % 2) (inSlot_base _ (by decide))
  refine unitOp_completes hexec hq hlast hg (contUnit_writes _ hlive hnone) ⟨(s.cores[c]).resSince, rfl⟩
    (fun g hg => hwritten.rd fun hw => slot_records_ne_core c c (hw.symm.trans (inSlot_base _ hg)))
    fun t _ _ hrd hpc => ⟨(hrd _ (by decide)).trans ((rd_wr_val _ _ _ _ (by decide)).trans (Nat.mod_mod ..)), hpc⟩

end Sys2Proof.Proofs

namespace Sys2Proof.Proofs
open Sys2Proof Sys2Proof.Machine Sys2Proof.Laws

/-! ### Writes to a memory that is ready (R337) -/

/-- A channel that serves requests stalls no writer. -/
theorem dramStalls_of_ready {s : State} (h : s.memReady) (a n : Nat) : s.dramStalls a n = false := by
  unfold State.dramStalls
  refine List.any_eq_false.2 fun w _ => ?_
  dsimp only
  rw [(h (Fin.ofNat 8 (s.dramChan w))).1]
  exact Bool.false_ne_true

/-- The byte that a write of `l` from `a` leaves at `x`. -/
def byteAfter (a : Nat) (l : List Byte) (x : Nat) (old : Byte) : Byte := (enabledByte a (l.map some) x).getD old

theorem byteAfter_in {a k : Nat} {l : List Byte} (h : k < l.length) (old : Byte) : byteAfter a l (a + k) old = l.getD k 0 := by
  unfold byteAfter enabledByte
  rw [if_pos (Nat.le_add_right a k), Nat.add_sub_cancel_left]
  simp [List.getD_eq_getElem?_getD, h]

theorem byteAfter_out {a x : Nat} {l : List Byte} (h : x < a ∨ a + l.length ≤ x) (old : Byte) : byteAfter a l x old = old := by
  unfold byteAfter
  rw [enabledByte_out (by rwa [List.length_map])]
  rfl

theorem dramWrite_serves {s : State} (hr : s.memReady) (hb : s.mem.dramBad = []) (a : Nat) (l : List Byte) :
    DramStep s (dramWrite a l s) ∧ (dramWrite a l s).recs = s.recs ∧
      ∀ x, SMap.get zeroByte (dramWrite a l s).mem.dram x = byteAfter a l x (SMap.get zeroByte s.mem.dram x) := by
  obtain ⟨hstep, hwrote⟩ := dramWriteLines_serves a (l.map some) (linesOf a (l.map some).length) hr hb
  exact ⟨hstep, (onlyDram_dramWriteLines _ _ _ s).recs, hwrote.covered fun x => windows_cover a _ 64 x (by decide)⟩

/-! ### RING_SLOT_WRITE (R171) -/

section Slot
variable {s : State} {i : Fin 17} {d : SlotIn} {ds : List SlotIn}

/-- The oldest complete slot is taken from those that wait. -/
def slotTaken (i : Fin 17) (ds : List SlotIn) (s : State) : State := s.setRecs i { s.recs[i] with slots := ds }

/-- Its samples and then its header are written. -/
def slotStored (i : Fin 17) (d : SlotIn) (s : State) : State :=
  let a := s.slotAddr i d.c
  dramWrite a d.head (dramWrite (a + 64) d.body s)

/-- The head moves on, and the directory of the ring notes the slot. -/
def slotNoted (i : Fin 17) (d : SlotIn) (n : Nat) (s : State) : State :=
  let u := s.wr (.records i) R.CAP_STATUS.head d.c
  let e := u.recs[i]
  u.setRecs i { e with dir := SMap.set (fun _ => none) e.dir (d.c % max 1 n) (some { d with head := [], body := [] }) }

theorem copyCaps_none {s : State} (h : (s.recs[i]).caps = []) : copyCaps i s = s := by
  unfold copyCaps
  dsimp only
  rw [h]
  rfl

theorem contSlot_off {s : State} (h : s.flag (.records i) R.CAP_CTRL.continuous = false) : contSlot i d s = s := by
  unfold contSlot
  rw [h]
  exact if_pos rfl

theorem lostGap_none {s : State} (h : (s.recs[i]).lost = none) : lostGap i s = s := by
  unfold lostGap
  rw [h]

theorem recs_setRecs (s : State) (i : Fin 17) (e : RecSt) : (s.setRecs i e).recs[i] = e := Vector.getElem_set_self ..

theorem recs_slotTaken (i : Fin 17) (ds : List SlotIn) (s : State) : (slotTaken i ds s).recs[i] = { s.recs[i] with slots := ds } :=
  recs_setRecs s i _

theorem recs_slotNoted (n : Nat) (u : State) : (slotNoted i d n u).recs[i] = { u.recs[i] with
    dir := SMap.set (fun _ => none) (u.recs[i]).dir (d.c % max 1 n) (some { d with head := [], body := [] }) } :=
  recs_setRecs (u.wr (.records i) R.CAP_STATUS.head d.c) i _

/-- Of the registers CAP_STATUS alone is written. -/
theorem word_slotNoted (n : Nat) (u : State) {a : Nat} (h : a ≠ (Blk.records i).base + 0x68) : (slotNoted i d n u).word a = u.word a :=
  (writesOnly_wr (W := (· = (Blk.records i).base + 0x68)) u d.c (by rfl)).word a h

theorem rd_slotNoted_head (n : Nat) (u : State) : (slotNoted i d n u).rd (.records i) R.CAP_STATUS.head = d.c % 2 ^ 64 :=
  rd_wr_val u _ _ _ (by decide)

theorem rd_slotNoted (n : Nat) (u : State) {f : Fld} (h : f.off ≠ 0x68) : (slotNoted i d n u).rd (.records i) f = u.rd (.records i) f :=
  rd_wr_keep u _ _ _ _ (.inl h)

/-- With no capture, no continuous record and nothing lost, a slot is stored and noted. -/
theorem slotWrite_stores (hslots : (s.recs[i]).slots = d :: ds) (hcaps : (s.recs[i]).caps = []) (hshadow : s.shadowing i = false)
    (hr : s.memReady) (hlost : (s.recs[i]).lost = none)
    (hstored : (slotStored i d (slotTaken i ds s)).recs = (slotTaken i ds s).recs)
    (hcont : (slotNoted i d (s.rd (.records i) R.CAP_CFG.slots) (slotStored i d (slotTaken i ds s))).flag (.records i)
      R.CAP_CTRL.continuous = false) :
    slotWrite i s = slotNoted i d (s.rd (.records i) R.CAP_CFG.slots) (slotStored i d (slotTaken i ds s)) := by
  let v := slotTaken i ds s
  have hstalls : (!s.shadowing i && v.dramStalls (v.slotAddr i d.c) (v.slotSize i)) = false := by
    rw [dramStalls_of_ready (s := v) hr, Bool.and_false]
  have hgap : lostGap i v = v := lostGap_none ((congrArg RecSt.lost (recs_slotTaken i ds s)).trans hlost)
  have hstore : (if v.shadowing i = true then v else slotStored i d v) = slotStored i d v := if_neg (Bool.eq_false_iff.1 hshadow)
  have hnoted : ((slotNoted i d (s.rd (.records i) R.CAP_CFG.slots) (slotStored i d v)).recs[i]).caps = [] := by
    rw [recs_slotNoted, hstored, recs_slotTaken]
    exact hcaps
  unfold slotWrite
  extract_lets e n
  rw [show e.slots = d :: ds from hslots]
  dsimp -zeta only
  extract_lets taken reported kept a written
  have hkept : kept = v := by
    have hreported : reported = v := hgap
    have hnone : (List.range e.caps.length).reverse = [] := by rw [show e.caps = [] from hcaps]; rfl
    unfold kept
    rw [hnone, ← hreported]
    rfl
  have hwritten : written = slotStored i d v := by
    rw [← hstore, ← hkept]
    rfl
  refine (if_neg (Bool.eq_false_iff.1 hstalls)).trans ?_
  change contSlot i d (copyCaps i (slotNoted i d n written)) = _
  rw [hwritten, copyCaps_none hnoted, contSlot_off hcont]

end Slot

theorem ringSlotWrite_writes (s : State) (i : Fin 17) (d : SlotIn) (ds : List SlotIn) (a : Nat) (hlive : s.recsLive i = true)
    (hslots : (s.recs[i]).slots = d :: ds) (hcaps : (s.recs[i]).caps = []) (hcont : s.flag (.records i) R.CAP_CTRL.continuous = false)
    (hshadow : s.shadowing i = false) (hhead : d.head.length = 64) (hbad : s.mem.dramBad = []) (hr : s.memReady)
    (hlost : (s.recs[i]).lost = none) (ha : a = s.rd (.records i) R.CAP_RING.base / 64 * 64 +
      d.c % max 1 (s.rd (.records i) R.CAP_CFG.slots) * s.slotSize i) : Completes (.ringSlotWrite i) s (fun t =>
      (t.recs[i]).slots = ds ∧ t.rd (.records i) R.CAP_STATUS.head = d.c % 2 ^ 64 ∧
      (∀ k < 64, SMap.get zeroByte t.mem.dram (a + k) = d.head.getD k 0) ∧
      (∀ k < d.body.length, SMap.get zeroByte t.mem.dram (a + 64 + k) = d.body.getD k 0) ∧
      (∀ x, x < a ∨ a + 64 + d.body.length ≤ x → SMap.get zeroByte t.mem.dram x = SMap.get zeroByte s.mem.dram x) ∧
      SameExcept (.records i :: dramBlks) s t) := by
  have hslot : s.slotAddr i d.c = a := ha.symm
  obtain ⟨hbody, hbodyRecs, hbodyBytes⟩ := dramWrite_serves (s := slotTaken i ds s) hr hbad (a + 64) d.body
  obtain ⟨hstep, hheadRecs, hheadBytes⟩ := dramWrite_serves (hbody.memReady hr) (hbody.bad.trans hbad) a d.head
  have hdram := hbody.trans hstep
  have hstored : slotStored i d (slotTaken i ds s) = dramWrite a d.head (dramWrite (a + 64) d.body (slotTaken i ds s)) := by
    rw [← hslot]
    rfl
  have hrecs := hheadRecs.trans hbodyRecs
  rw [← hstored] at hdram hrecs hheadBytes
  have hbytes : ∀ x, SMap.get zeroByte (slotStored i d (slotTaken i ds s)).mem.dram x =
      byteAfter a d.head x (byteAfter (a + 64) d.body x (SMap.get zeroByte s.mem.dram x)) := fun x => by
    rw [hheadBytes, hbodyBytes]
    rfl
  let t := slotNoted i d (s.rd (.records i) R.CAP_CFG.slots) (slotStored i d (slotTaken i ds s))
  have hoff : t.flag (.records i) R.CAP_CTRL.continuous = false := by
    rw [← hcont]
    unfold State.flag
    rw [rd_slotNoted _ _ (by decide), hdram.rd _ _ (by decide) (by decide)]
    rfl
  refine ⟨t, congrArg Host.Outcome.next ((if_pos hlive).trans (slotWrite_stores hslots hcaps hshadow hr hlost hrecs hoff)), ?_,
    rd_slotNoted_head _ _, fun k hk => ?_, fun k hk => ?_, fun x hx => ?_, fun x hx => ?_⟩
  · rw [recs_slotNoted, hrecs, recs_slotTaken]
  · exact (hbytes _).trans (byteAfter_in (by omega) _)
  · exact (hbytes _).trans ((byteAfter_out (.inr (by omega)) _).trans (byteAfter_in hk _))
  · exact (hbytes _).trans ((byteAfter_out (by omega) _).trans (byteAfter_out (by omega) _))
  · have hnoted : x ≠ (Blk.records i).base + 0x68 := by
      rintro rfl
      exact hx (.records i) (by simp) (inSlot_base _ (by decide))
    refine (word_slotNoted _ _ hnoted).trans (hdram.word x fun hw => ?_)
    obtain ⟨b, hb, hin⟩ := memWrWord_dram hw
    exact hx b (List.mem_cons_of_mem _ hb) hin

/-- Settles O40, one lemma per clause: a ring slot through what it leaves stored and noted (`slotWrite_stores`), an answer to a held record
through what its release leaves (`Released`). That an APPEND which would pass the limit of R162 seals the record without a block is log 36;
that APPEND and SKIP with nothing held set REC_FAULT.meas_invalid is the model's reading of R179, which names no outcome for them. -/
theorem recordEngine : Obligations.RecordEngine := by
  unfold Obligations.RecordEngine
  refine ⟨ringSlotWrite_writes, contStart_starts, contStop_stops, contUnit_completes, append_adds, append_invalid, skip_releases,
    measTimeout_misses, fun p hp s c y hq hlast hg hnone => ?_⟩
  obtain rfl | rfl := List.mem_pair.1 hp
  · exact append_unheld s c y hq hlast hg hnone
  · exact skip_unheld s c y hq hlast hg hnone

end Sys2Proof.Proofs
